-- ==== Sys2Proof/Word.lean ====
section
/-! DEFINITION. The words of the Obnus 6400 module: a byte of memory and a 64-bit register. -/

namespace Sys2Proof

/-- One byte. -/
abbrev Byte := BitVec 8

/-- One 64-bit register (R63: every register is 64 bits wide). -/
abbrev Word := BitVec 64

/-- A string of bytes, lowest address first. -/
abbrev Bytes := List Byte

/-- The greatest value of a 64-bit register, at which counters saturate (R78). -/
abbrev maxWord : Nat := 18446744073709551615

end Sys2Proof
end

