-- ==== Sys2Proof/Requester.lean ====
section
/-! DEFINITION. Who sends a register access, a doorbell or a bus request to the module (R63, R71, R76). -/

namespace Sys2Proof

/-- A requester of register pages: the control cores, a management controller on M1 acting through Rolar (R496), a remote
node, or a host function (0 the physical function, 1 to 31 the others). -/
inductive Requester where
  | cores
  | m1
  | remote (node : Nat)
  | fn (n : Nat)
  deriving DecidableEq, Repr

/-- What the module finds outside itself as a register write takes effect, where the written register's effect asks for it: host memory that
a command names, whether the members have room for a table, the base that the device's own choice takes for a region, the endpoints that a
rescan of the Cellar switch finds. -/
structure Supply where
  host : List (Nat × Byte) := []
  room : Bool := true
  base : Nat := 0
  found : List Nat := []
  deriving DecidableEq, Repr

/-- The watermarks whose MARK and HYST software writes (R92, R136, R173, R219, R268, R362, R473). -/
inductive Watermark where
  | cream | skim | park | damageLog | stores | lag | admission
  | completion (ring : Nat)
  deriving DecidableEq, Repr

/-- A host write of the MSI-X structures of a function: an entry of the table, or the function mask. -/
inductive MsixWrite where
  | entry (vector addr data : Nat) (masked : Bool)
  | functionMask (masked : Bool)
  deriving DecidableEq, Repr

end Sys2Proof
end

