-- ==== Sys2Proof/Messages.lean ====
section
/-! DEFINITION. What fabric commands carry: a message with its header (R414) and a flit (R408). -/

namespace Sys2Proof

/-- A fabric message: the header fields of Table 20-3 and the body. LEN is the body's length. -/
structure Packet where
  dst : Nat
  src : Nat
  typ : Nat
  route : Nat := 0
  reqSeq : Nat := 0
  gen : Nat := 0
  flags : Nat := 0
  tag : Nat := 0
  addr : Nat := 0
  status : Nat := 0
  subtype : Nat := 0
  rlen : Nat := 0
  body : Bytes := []
  deriving DecidableEq, Repr

/-- A flit as a link receives it (Table 20-2): KIND 0 IDLE, 1 DATA; whether its CRC and, on an authenticated link, its tag
are right. -/
structure Flit where
  kind : Nat
  vc : Nat
  cls : Nat
  sop : Bool
  eop : Bool
  seq : Nat
  ack : Nat
  creditVc : Nat
  creditN : Nat
  crcOk : Bool
  tagOk : Bool
  payload : Bytes
  deriving DecidableEq, Repr

/-- A function's configuration as a host configuration write leaves it: NumVFs and CXL.cache enable count on the physical
function only; `bar4` is the size that the Resizable BAR capability then has, in GiB. -/
structure ConfigWrite where
  fn : Nat
  numVfs : Nat
  busMaster : Bool
  ats : Bool
  d3hot : Bool
  cxlCache : Bool
  bar4 : Nat
  deriving DecidableEq, Repr

/-- A Cellar namespace as its drive reports it (R94): whether it is active, its formatted block size and metadata size in
bytes, its blocks. -/
structure Namespace where
  active : Bool
  block : Nat
  metadata : Nat
  blocks : Nat
  deriving DecidableEq, Repr

/-- A value of a column: null, the bits of a fixed-width element, the bytes of a string, or a list written as a chain of
`cons` ended by `nil` (Table 11-1). -/
inductive Val where
  | null
  | num (bits : Nat)
  | str (bytes : Bytes)
  | nil
  | cons (head tail : Val)
  deriving DecidableEq, Repr, Inhabited

/-- A decompressed unit: the bytes it took, its output, the status it failed with or 0. -/
structure Unpacked where
  used : Nat
  out : Bytes
  status : Nat
  deriving DecidableEq, Repr, Inhabited

/-- A column of a file: its name, the type and parameter of its entries in pre-order with the fixed list sizes, whether it
is dictionary encoded. -/
structure FileCol where
  name : Bytes
  types : List (Nat × Nat × Nat)
  dict : Bool
  deriving DecidableEq, Repr, Inhabited

/-- Damage of a file: its kind, the column or none for all, where it lies, its rows in the group. -/
structure FileDamage where
  kind : Nat
  col : Option Nat
  off : Nat
  first : Nat
  count : Nat
  deriving DecidableEq, Repr, Inhabited

/-- A row group or record batch: its rows, their bytes in the file, values by column, damage. -/
structure FileGroup where
  rows : Nat
  bytes : Nat
  cols : List (List Val)
  damage : List FileDamage
  deriving DecidableEq, Repr, Inhabited

/-- A file as its format decodes: a limit or format failure with its kind, column and offset, its columns, its groups. -/
structure FileParts where
  fail : Option (Nat × Option Nat × Nat)
  cols : List FileCol
  groups : List FileGroup
  deriving DecidableEq, Repr, Inhabited

/-- A page stream: its bytes, the refused pages, or the status it failed with and where. -/
structure Pages where
  out : Bytes
  refused : Nat
  status : Nat
  at_ : Nat
  deriving DecidableEq, Repr, Inhabited

end Sys2Proof
end

