-- ==== Sys2Proof/Syntax.lean ====
section
/-! DEFINITION. The commands of the module: one constructor for each row of the opcode table, with the row's operands.
Every command carries the chronometer reading in ns at which it reaches the module (`now`). -/

namespace Sys2Proof

/-- The operations and events of the module, in the order of the opcode table. -/
inductive Instr where
  /-- P54V_RISE (R48): P54V crosses the 46.0 V rising undervoltage threshold and PD0 starts. -/
  | p54vRise (now : Nat) (level : Nat)
  /-- MOD_PG_ASSERT (R30): MOD_PG asserts once PD0 is good and the calibration store is read; M_AS is sampled and M1 starts answering. -/
  | modPgAssert (now : Nat)
  /-- MODULE_RESET_RELEASE (R29): Module reset is released at the later of MOD_PG assertion and the RESET_N rising edge. -/
  | moduleResetRelease (now : Nat) (readable : Bool)
  /-- STRAP_CHANGED (R28): A strap changes after sampling; the change is ignored and PIN_STAT.STRAP_CHANGED sets. -/
  | strapChanged (now : Nat) (levels : Nat)
  /-- RESET_N_PULSE (R51): A RESET_N low of at least 10 µs causes a warm reset, or clears a latched thermal trip if the die is below 90 °C. -/
  | resetNPulse (now : Nat) (width : Nat)
  /-- PERST0_N_LEVEL (R20): A change of the PERST0_N level holds or releases the host port 0 PHY. -/
  | perst0NLevel (now : Nat) (low : Bool)
  /-- PERST0_WARM_RESET (R20): A PERST0_N low reaches 100 µs after module reset release and takes effect as a warm reset. -/
  | perst0WarmReset (now : Nat)
  /-- PERST1_N_LEVEL (R20): A change of the PERST1_N level resets or holds only the host port 1 PHY. -/
  | perst1NLevel (now : Nat) (low : Bool)
  /-- PWR_BRAKE_N (R43): A change of PWR_BRAKE_N asserts or removes the 350 W floor on the effective budget. -/
  | pwrBrakeN (now : Nat) (low : Bool)
  /-- TIDE_IN_RISE (R35): A TIDE_IN rising edge is accepted under the spacing rules and stamped in PULSE_STAMP. -/
  | tideInRise (now : Nat)
  /-- STUCK_SPAN_EXPIRE (R32): TIDE_IN or PWR_BRAKE_N stays asserted beyond STUCK_SPAN; its STUCK bit sets and M_ALERT_N asserts. -/
  | stuckSpanExpire (now : Nat) (brake : Bool)
  /-- ZK_PRSNT_N (R432): Zk_PRSNT_N going high takes link ZLk DOWN at once. -/
  | zkPrsntN (now : Nat) (link : Nat)
  /-- CPRSNT_N (R93): A change of CPRSNTd_N in four-drive mode brings Cellar drive d up or removes it. -/
  | cprsntN (now : Nat) (drive : Nat) (low : Bool)
  /-- M1_BUS_TIMEOUT (R36): M_SCL is held low for 25 to 35 ms, so the device releases the bus and resets its bus interface. -/
  | m1BusTimeout (now : Nat) (lowMs : Nat)
  /-- UNDERVOLTAGE (R51): P54V falls to 44.0 V, the retention flag is set and a cold reset follows. -/
  | undervoltage (now : Nat) (level : Nat)
  /-- LOW_BAND (R48): The low-band supervisor asserts at 48.0 V falling or deasserts at 48.5 V rising, changing a floor cause. -/
  | lowBand (now : Nat) (level : Nat)
  /-- OVERVOLTAGE (R48): P54V reaches 62.0 V and PD1 to PD5 are held off. -/
  | overvoltage (now : Nat) (level : Nat)
  /-- OV_RELEASE (R49): Overvoltage deasserts at 61.0 V and, with no trip latched, the domains restart in a warm reset. -/
  | ovRelease (now : Nat) (level : Nat)
  /-- THERMAL_THROTTLE (R48): The throttle asserts at 95 °C or deasserts at 90 °C, changing a floor cause. -/
  | thermalThrottle (now : Nat) (temp : Int)
  /-- THERMAL_TRIP (R49): The die reaches 105 °C, the trip latches, PD1 to PD5 are held off and FAULT_N goes low. -/
  | thermalTrip (now : Nat) (temp : Int)
  /-- PD_SWITCH_ON (R41): A power domain switches on in its step of the power-up sequence after reset release. -/
  | pdSwitchOn (now : Nat) (domain : Nat)
  /-- TIERS_READY (R41): Cream, Skim and links finish training and PD_STAT.TIERS_READY sets. -/
  | tiersReady (now : Nat) (results : Bytes) (cream : Nat) (skim : Nat)
  /-- PD3_OFF (R42): A write of PD_CTRL.PD3_OFF switches Cream off if allowed, or on again with retraining. -/
  | pd3Off (now : Nat) (req : Requester) (off : Bool)
  /-- PD5_OFF (R42): A write of PD_CTRL.PD5_OFF switches the links and C1 off if allowed, or on again with retraining. -/
  | pd5Off (now : Nat) (req : Requester) (off : Bool)
  /-- PD_RETRAINED (R42): A domain switched on again finishes retraining from the calibration store. -/
  | pdRetrained (now : Nat) (domain : Nat)
  /-- LEAVE_REQUEST (R46): The runtime requests leave for a heavy class; it is granted at once, shared, queued or refused. -/
  | leaveRequest (now : Nat) (slice : Nat) (cls : Nat)
  /-- LEAVE_RELEASE (R45): A grant is released when its operation or job ends. -/
  | leaveRelease (now : Nat) (job : Nat) (cls : Nat)
  /-- LEAVE_TIMEOUT (R46): A queued request reaches its timeout tick and its slice completes with LEAVE_TIMEOUT. -/
  | leaveTimeout (now : Nat) (slice : Nat)
  /-- CAL_WRITE_DUE (R54): A deferred automatic calibration write falls due after its 60 s spacing and starts. -/
  | calWriteDue (now : Nat)
  /-- SAVE_NOW (R54): A write of CAL_CTRL.SAVE_NOW writes the current calibration to the inactive slot at once. -/
  | saveNow (now : Nat) (req : Requester) (value : Word)
  /-- CAL_WRITE_END (R54): A calibration slot write ends and, if valid, that slot becomes active. -/
  | calWriteEnd (now : Nat) (ok : Bool)
  /-- WARM_REQ (R51): A write of RESET_CTRL.WARM_REQ causes a warm reset. -/
  | warmReq (now : Nat) (req : Requester)
  /-- HERD_REQ (R51): A write of RESET_CTRL.HERD_REQ on the lead starts a herd reset, or is refused on any other node. -/
  | herdReq (now : Nat) (req : Requester)
  /-- HERD_RESET (R427): A HERD_RESET broadcast copy arrives; it is forwarded and the first copy of a serial applies the herd reset. -/
  | herdReset (now : Nat) (p : Packet)
  /-- FUNCTION_LEVEL_RESET (R51): A PCIe function-level reset kills the function's jobs and removes its rings and regions. -/
  | functionLevelReset (now : Nat) (fn : Nat)
  /-- BLOCK_RESET (R73): A write of PG_CTRL.BLOCK_RESET starts a block reset that kills the instance's slices and holds block-register writes. -/
  | blockReset (now : Nat) (req : Requester) (page : Nat)
  /-- BLOCK_RESET_END (R73): A block reset ends and the writes it held are applied in arrival order. -/
  | blockResetEnd (now : Nat) (fn page : Nat) (supply : Supply)
  /-- BLOCK_RESET_TIMEOUT (R73): A block reset does not end within 100 µs; its held writes are discarded and a block fault follows. -/
  | blockResetTimeout (now : Nat) (fn : Nat) (page : Nat)
  /-- REG_WRITE (R76): A write to a register with no behaviour of its own is applied under the access, lock and arbitration rules. -/
  | regWrite (now : Nat) (req : Requester) (page off : Nat) (bytes : Bytes) (supply : Supply)
  /-- UNMAPPED_ACCESS (R60): An access to an unmapped page reads zero or is ignored, and UNMAPPED sets. -/
  | unmappedAccess (now : Nat) (req : Requester) (page : Nat) (off : Nat) (read : Bool)
  /-- PG_LOCK (R66): A write of PG_LOCK.LOCK makes the page's RWL fields read-only. -/
  | pgLock (now : Nat) (req : Requester) (page : Nat)
  /-- PG_CTRL_ENABLE (R73): A write of PG_CTRL.ENABLE stops or resumes placement of new slices on the instance. -/
  | pgCtrlEnable (now : Nat) (req : Requester) (page : Nat) (on : Bool)
  /-- PG_CTRL_QUIESCE (R73): A write of PG_CTRL.QUIESCE stops or resumes placement, and QUIESCED sets when the instance drains. -/
  | pgCtrlQuiesce (now : Nat) (req : Requester) (page : Nat) (on : Bool)
  /-- PG_CTRL_OUT_OF_SERVICE (R73): A write of PG_CTRL.OUT_OF_SERVICE drains and holds the instance out of service, or returns it. -/
  | pgCtrlOutOfService (now : Nat) (req : Requester) (page : Nat) (on : Bool)
  /-- PG_SYNC (R71): A read of PG_SYNC is held until the requester's earlier writes to the page are applied. -/
  | pgSync (now : Nat) (req : Requester) (page : Nat)
  /-- ERR_INJECT_FIRE (R70): A write of ERR_INJECT.FIRE schedules one injected error on the page. -/
  | errInjectFire (now : Nat) (req : Requester) (page : Nat) (index : Nat)
  /-- INJECTION_DELIVERED (R70): A pending injection is delivered at the page's next opportunity and INJECTED sets. -/
  | injectionDelivered (now : Nat) (fn : Nat) (page : Nat)
  /-- ERR_FIRST_CLEAR (R69): Writing 1 to ERR_FIRST.VALID clears the first-error capture. -/
  | errFirstClear (now : Nat) (req : Requester) (page : Nat)
  /-- REG_PARITY (R70): A parity error is found in register storage and corrected from the copy or reported as uncorrected. -/
  | regParity (now : Nat) (fn : Nat) (page : Nat) (fixed : Bool)
  /-- IRQ_ROUTE (R75): A write of IRQ_ROUTE changes the message route and may make it able to deliver. -/
  | irqRoute (now : Nat) (req : Requester) (page : Nat) (value : Word)
  /-- MOD_TIME_EXPIRE (R75): MOD_TIME passes since the oldest pending event and the page sends its message. -/
  | modTimeExpire (now : Nat) (fn : Nat) (page : Nat)
  /-- VAT_CFG (R87): A write of VAT_CFG changes the Vat pool maxima, or is refused and sets CFG_REFUSED. -/
  | vatCfg (now : Nat) (req : Requester) (value : Word)
  /-- EXTENT_GRANT (R86): A slice waiting for SLICE extents receives them in wait order once enough are free. -/
  | extentGrant (now : Nat)
  /-- SLICE_START (R169): A queued slice is dispatched onto an engine instance or core and runs its work. -/
  | sliceStart (now : Nat) (id : Nat) (units : Nat) (reach : Nat) (wants : Nat) (flaws : List (Nat × Bool))
  /-- UNIT_FAIL (R88): A stack or channel fails and takes its whole tier out of service. -/
  | unitFail (now : Nat) (cream : Bool) (unit : Nat)
  /-- SCRUB_PASS (R90): The patrol scrub completes a pass over a tier and SCRUB_PASSES increments. -/
  | scrubPass (now : Nat) (cream : Bool) (ces : Nat) (ues : List Nat)
  /-- REGION_ALLOC (R100): REGION_CMD ALLOC takes a region slot and allocates its memory. -/
  | regionAlloc (now : Nat) (req : Requester) (slot : Nat) (want : Nat)
  /-- REGION_FREE (R100): REGION_CMD FREE releases a region slot and its memory. -/
  | regionFree (now : Nat) (req : Requester) (slot : Nat)
  /-- REGION_READ (R100): REGION_CMD READ copies a slot's descriptor into REGION_D0 to REGION_D3. -/
  | regionRead (now : Nat) (req : Requester) (slot : Nat)
  /-- REGION_CMD_DONE (R100): A region command ends, with zeroing if requested, and DONE and RESULT are set. -/
  | regionCmdDone (now : Nat)
  /-- CELLAR_MODE (R104): A write of CELLAR_CFG.MODE releases C1 from reset in four-drive or switch mode. -/
  | cellarMode (now : Nat) (req : Requester) (mode : Nat)
  /-- DRIVE_BRING_UP (R95): A present drive is brought up with its queues once a Skim page is available. -/
  | driveBringUp (now : Nat) (d : Nat) (ns : List (Nat × Namespace)) (xfer : Nat) (width : Nat) (gen : Nat)
  /-- RESCAN (R93): A write of CELLAR_CTRL.RESCAN re-enumerates drives behind the switch. -/
  | rescan (now : Nat) (req : Requester) (found : List Nat)
  /-- DRIVE_OOS (R98): A write of CELLAR_CTRL.DRIVE_OOS holds drives out of service or returns failed drives. -/
  | driveOos (now : Nat) (req : Requester) (mask : Nat)
  /-- CELLAR_CMD_TIMEOUT (R98): A drive command passes CMD_TIMEOUT and is aborted. -/
  | cellarCmdTimeout (now : Nat) (d : Nat) (c : Nat)
  /-- ABORT_TIMEOUT (R98): An Abort times out and the drive's controller is reset and brought up again. -/
  | abortTimeout (now : Nat) (d : Nat) (c : Nat)
  /-- CELLAR_CMD_COMPLETE (R98): A drive command completes, with a non-zero NVMe status failing its slice with CELLAR_IO_ERROR. -/
  | cellarCmdComplete (now : Nat) (d : Nat) (c : Nat) (status : Nat) (data : Bytes)
  /-- DRIVE_LOST (R98): A drive stops being present or its link goes down, and its outstanding commands fail. -/
  | driveLost (now : Nat) (d : Nat)
  /-- BIAS_TO_DEVICE (R114): BIAS_CMD TO_DEVICE flips pages to device bias, back-invalidating host lines. -/
  | biasToDevice (now : Nat) (req : Requester) (region page count : Nat)
  /-- BIAS_TO_HOST (R114): BIAS_CMD TO_HOST flips pages to host bias after engine accesses drain. -/
  | biasToHost (now : Nat) (req : Requester) (region page count : Nat)
  /-- BIAS_QUERY (R114): BIAS_CMD QUERY reports a page's bias in BIAS_STAT.QUERY_HOST. -/
  | biasQuery (now : Nat) (req : Requester) (region page : Nat)
  /-- BIAS_FLIP_DONE (R114): A bias command finishes flipping its pages and DONE sets. -/
  | biasFlipDone (now : Nat)
  /-- HOST_HDM_ACCESS (R113): A host CXL.mem access reaches a region page through HDM. -/
  | hostHdmAccess (now : Nat) (hpa : Nat) (data : Option Bytes) (poisoned : Bool)
  /-- BAR4_ACCESS (R122): A host or peer request through BAR4 reaches a region under its rights, or is denied. -/
  | bar4Access (now : Nat) (fn reqId off len : Nat) (data : Option Bytes) (poisoned : Bool)
  /-- SYNC_WORD_READ (R125): A read of a region's sync word completes after the requester's earlier writes to the region. -/
  | syncWordRead (now : Nat) (fn reqId off len : Nat)
  /-- ATS_INVALIDATION (R120): An ATS invalidation arrives and waits for accesses using the translation. -/
  | atsInvalidation (now : Nat) (fn page : Nat)
  /-- ATS_INVALIDATION_COMPLETE (R120): The device completes an ATS invalidation once the accesses that used it have completed. -/
  | atsInvalidationComplete (now : Nat) (fn page : Nat)
  /-- HOST_READ_COMPLETE (R121): A device read of host memory completes, with data or an error. -/
  | hostReadComplete (now : Nat) (read status : Nat) (data : Bytes)
  /-- HOST_TIMEOUT (R121): A host read reaches the function's completion timeout and the slice completes with HOST_TIMEOUT. -/
  | hostTimeout (now : Nat) (read : Nat)
  /-- HOST_SNOOP (R118): A host snoop is answered from the host-line cache. -/
  | hostSnoop (now : Nat) (line : Nat) (invalidate : Bool)
  /-- BI_TIMEOUT (R128): A back-invalidation snoop is unanswered for 50 ms; the line is poisoned and the slice ends with HOST_TIMEOUT. -/
  | biTimeout (now : Nat) (line : Nat)
  /-- PORT1_LINK_DOWN (R107): The port 1 link goes down and acts as a function-level reset of function 31. -/
  | port1LinkDown (now : Nat)
  /-- PORT0_LINK_DOWN (R130): The port 0 data link layer goes down, resetting configuration space and causing host loss. -/
  | port0LinkDown (now : Nat)
  /-- PORT0_LINK_UP (R131): The port 0 link returns and must have its BARs and virtual functions programmed again. -/
  | port0LinkUp (now : Nat) (gen width : Nat) (flit cxl : Bool)
  /-- HOST_HEARTBEAT (R130): A 64-bit write of HOST_HEARTBEAT by the physical function restarts the heartbeat span. -/
  | hostHeartbeat (now : Nat) (req : Requester) (value : Word)
  /-- HB_SPAN_EXPIRE (R130): The heartbeat span expires with the monitor armed, which causes host loss. -/
  | hbSpanExpire (now : Nat)
  /-- HOST_LOSS (R130): Host loss is declared, STATE becomes LOST, AUTH_OK clears and port 0 work starts parking. -/
  | hostLoss (now : Nat)
  /-- CLAIM (R141): A write of ATTACH_CTRL.CLAIM re-attaches the host session or is refused. -/
  | claim (now : Nat) (req : Requester)
  /-- DISCARD (R143): A write of ATTACH_CTRL.DISCARD frees every parked record. -/
  | discard (now : Nat) (req : Requester)
  /-- HOST_TIER_RESUME (R134): A write of ATTACH_CTRL.HOST_TIER_RESUME ends default-row substitution. -/
  | hostTierResume (now : Nat) (req : Requester)
  /-- SQ_DOORBELL (R148): A 64-bit submission doorbell write sets a ring's TAIL, or is refused. -/
  | sqDoorbell (now : Nat) (fn : Nat) (ring : Nat) (value : Nat) (narrow : Bool) (stores : List (Nat × Bytes))
  /-- CQ_HEAD_DOORBELL (R149): A completion head doorbell write sets HEAD and may let held completions be written. -/
  | cqHeadDoorbell (now : Nat) (fn : Nat) (ring : Nat) (value : Nat) (narrow : Bool)
  /-- DESC_FETCH (R150): The device issues the read of the next descriptor of a ring with window space. -/
  | descFetch (now : Nat) (fn : Nat) (ring : Nat)
  /-- DESC_FETCH_DONE (R150): A descriptor read completes and HEAD advances. -/
  | descFetchDone (now : Nat) (fn : Nat) (ring : Nat) (bytes : Bytes) (status : Nat)
  /-- RUN (R155): A RUN descriptor starts: its plan is validated and its job started. -/
  | run (now : Nat) (id : Nat)
  /-- FENCE (R156): A FENCE descriptor holds later descriptors until earlier ones complete. -/
  | fence (now : Nat) (id : Nat)
  /-- WAIT_TIDE (R157): A WAIT_TIDE descriptor holds later descriptors until the tide reaches its value. -/
  | waitTide (now : Nat) (id : Nat)
  /-- WAIT_TIDE_TIMEOUT (R157): A WAIT_TIDE reaches its timeout tick and completes with WAIT_TIMEOUT. -/
  | waitTideTimeout (now : Nat) (id : Nat)
  /-- SIGNAL (R158): A SIGNAL descriptor waits for the earlier descriptors of its ring. -/
  | signal (now : Nat) (id : Nat)
  /-- MIRROR_CUT (R159): A MIRROR_CUT descriptor requests a twin cut at the first beat at or above MIN_TIDE. -/
  | mirrorCut (now : Nat) (id : Nat)
  /-- PARK_DRAIN (R160): A PARK_DRAIN descriptor drains an old pair's parked records into host memory. -/
  | parkDrain (now : Nat) (id : Nat)
  /-- NOP (R160): A NOP descriptor does nothing and completes with OK. -/
  | nop (now : Nat) (id : Nat)
  /-- JOB_COMPLETE (R155): A job or descriptor ends, committing or failing, and its completion becomes due. -/
  | jobComplete (now : Nat) (job : Nat)
  /-- SLICE_END (R170): A slice ends at its unit boundary, frees its resources and lets its job's next slice queue. -/
  | sliceEnd (now : Nat) (id : Nat) (keep : Nat)
  /-- SLICE_BOUND (R170): A slice reaches its SLICE_US bound and is split at the next unit boundary. -/
  | sliceBound (now : Nat) (id : Nat) (keep : Nat)
  /-- SQ_ENABLE (R171): A write of SQ_CTRL.ENABLE enables a submission ring after its checks, or stops fetching. -/
  | sqEnable (now : Nat) (req : Requester) (ring : Nat) (on : Bool)
  /-- CQ_ENABLE (R171): A write of CQ_CTRL.ENABLE enables or disables a completion ring after its checks. -/
  | cqEnable (now : Nat) (req : Requester) (ring : Nat) (on : Bool)
  /-- SQ_RETRY (R172): A write of SQ_CTRL.RETRY clears FAULTED and fetches again from HEAD. -/
  | sqRetry (now : Nat) (req : Requester) (ring : Nat)
  /-- RN_WAIT (R185): rn_wait blocks the thread on a counter with a timeout. -/
  | rnWait (now : Nat) (t : Nat) (ctr : Nat) (ticks : Nat) (named : Bool)
  /-- RN_WAIT_TIMEOUT (R185): A counter wait reaches its timeout tick and returns BY_TIMEOUT. -/
  | rnWaitTimeout (now : Nat) (t : Nat)
  /-- RN_DELAY (R186): rn_delay puts the thread on the delay list or at the tail of its level. -/
  | rnDelay (now : Nat) (t : Nat) (ticks : Nat)
  /-- DELAY_WAKE (R186): A thread's wake tick arrives and it becomes ready. -/
  | delayWake (now : Nat) (t : Nat)
  /-- RN_CTR_ALLOC (R196): rn_ctr_alloc arms and returns a new dependence counter. -/
  | rnCtrAlloc (now : Nat) (t : Nat) (count : Nat)
  /-- RN_CTR_SUB (R196): rn_ctr_sub decrements a counter the stage may use. -/
  | rnCtrSub (now : Nat) (t : Nat) (ctr : Nat) (amount : Nat) (named : Bool)
  /-- RN_CTR_FREE (R196): rn_ctr_free frees a counter and its waiters return INVALID. -/
  | rnCtrFree (now : Nat) (t : Nat) (ctr : Nat) (named : Bool)
  /-- RN_COPY (R196): rn_copy starts a copy between the stage's ranges naming a counter. -/
  | rnCopy (now : Nat) (t : Nat) (dst : Nat) (src : Nat) (len : Nat) (ctr : Nat) (inside : Bool) (srcHerd : Bool) (dstHerd : Bool)
  /-- RN_BUDGET (R196): rn_budget returns the ns left before quantum expiry. -/
  | rnBudget (now : Nat) (t : Nat)
  /-- RN_TIDE (R196): rn_tide returns the tide in tu. -/
  | rnTide (now : Nat) (t : Nat)
  /-- ECALL_UNKNOWN (R196): An ECALL with an unknown call number returns all ones. -/
  | ecallUnknown (now : Nat) (t : Nat)
  /-- COPY_COMPLETE (R183): A copy completes and decrements its counter. -/
  | copyComplete (now : Nat) (id : Nat) (status : Nat) (data : Bytes)
  /-- STAGE_RETURN (R192): A custom-stage entry returns DONE, MORE or a failure value. -/
  | stageReturn (now : Nat) (t : Nat) (a0 : Word) (cursor : Word) (outs : List (Nat × List (List Val))) (writes : List (Nat × Bytes))
  /-- STAGE_FAULT (R195): A custom stage takes an exception or PMP violation and its slice ends with STAGE_FAULT. -/
  | stageFault (now : Nat) (t : Nat) (addr : Nat)
  /-- FENCE_I (R198): FENCE.I refreshes the thread's instruction copy of its execution scratch. -/
  | fenceI (now : Nat) (t : Nat) (content : Bytes)
  /-- QUANTUM_EXPIRY (R181): A stage thread runs SLICE_US + 2 µs and is moved to the tail of its level. -/
  | quantumExpiry (now : Nat) (t : Nat)
  /-- STAGE_OVERRUN (R181): A slice's core time reaches STAGE_LIMIT × SLICE_US and it ends with STAGE_OVERRUN. -/
  | stageOverrun (now : Nat) (t : Nat)
  /-- CTR_ARM (R200): CTR_CMD ARM arms a host counter with COUNT. -/
  | ctrArm (now : Nat) (req : Requester) (ctr : Nat) (count : Nat)
  /-- CTR_SUB (R200): CTR_CMD SUB decrements a host counter. -/
  | ctrSub (now : Nat) (req : Requester) (ctr : Nat) (count : Nat)
  /-- CTR_DISARM (R200): CTR_CMD DISARM disarms a host counter. -/
  | ctrDisarm (now : Nat) (req : Requester) (ctr : Nat)
  /-- FLOW_OPEN (R200): FLOW_CMD OPEN opens a host flow for a function at a start sequence. -/
  | flowOpen (now : Nat) (req : Requester) (flow : Nat) (fn : Nat) (value : Nat)
  /-- FLOW_CLOSE (R200): FLOW_CMD CLOSE closes a host flow that holds no accepted items. -/
  | flowClose (now : Nat) (req : Requester) (flow : Nat)
  /-- FLOW_ADVANCE (R200): FLOW_CMD ADVANCE moves a flow's NEXT past missing sequences. -/
  | flowAdvance (now : Nat) (req : Requester) (flow : Nat) (value : Nat)
  /-- CORE_OOS (R201): A write of CORE_OOS takes cores out of service, or is refused below two cores. -/
  | coreOos (now : Nat) (req : Requester) (mask : Nat)
  /-- CORE_FAIL (R504): A control core fails; its stage slice ends with CORE_FAULT and runtime threads recover elsewhere. -/
  | coreFail (now : Nat) (core : Nat) (jobs : List Nat)
  /-- L2_UE (R504): An uncorrected L2 error ends the affected slice or, in runtime data, is a node fault. -/
  | l2Ue (now : Nat) (slice : Option Nat)
  /-- BEAT_SEND (R211): The lead's beat period expires and it forms, sends and applies a beat. -/
  | beatSend (now : Nat)
  /-- BEAT_APPLY (R213): A node checks and applies a beat, raising its tide. -/
  | beatApply (now : Nat) (raw : Bytes)
  /-- REPORT_RECEIVE (R213): The lead receives a member's report and keeps it as that member's latest. -/
  | reportReceive (now : Nat) (raw : Bytes)
  /-- HOST_TIDE (R210): A write of HOST_TIDE on the lead in HOST mode is accepted for the next beat, or refused. -/
  | hostTide (now : Nat) (req : Requester) (value : Word)
  /-- ALARM_ARM (R218): A write of ALARM_CTRL.ARM arms or disarms the selected alarm. -/
  | alarmArm (now : Nat) (req : Requester) (arm irq ctr out : Bool) (ctrId : Nat)
  /-- SRC_OPEN (R205): SRC_CMD OPEN opens a source with DELAY and IDLE_MS. -/
  | srcOpen (now : Nat) (req : Requester) (source idleMs : Nat)
  /-- SRC_CLOSE (R205): SRC_CMD CLOSE closes a source with no attached job. -/
  | srcClose (now : Nat) (req : Requester) (source : Nat)
  /-- SRC_LOW (R206): SRC_CMD LOW declares a low watermark for a source. -/
  | srcLow (now : Nat) (req : Requester) (source : Nat)
  /-- SRC_IDLE (R207): SRC_CMD IDLE marks a source idle. -/
  | srcIdle (now : Nat) (req : Requester) (source : Nat)
  /-- SRC_ACTIVE (R207): SRC_CMD ACTIVE makes a source active again. -/
  | srcActive (now : Nat) (req : Requester) (source : Nat)
  /-- SRC_READ (R205): SRC_CMD READ reports a source's state and watermark. -/
  | srcRead (now : Nat) (req : Requester) (source : Nat)
  /-- SOURCE_IDLE_EXPIRE (R207): A source receives nothing for IDLE_MS and becomes idle. -/
  | sourceIdleExpire (now : Nat) (source : Nat)
  /-- BEAT_LOST (R220): A non-lead node applies no beat for BEAT_LOSS periods and sets BEAT_LOST. -/
  | beatLost (now : Nat)
  /-- INTAKE_SURVEY (R253): Intake surveys its inputs' footers and headers against its limits before any slice. -/
  | intakeSurvey (now : Nat) (job : Nat)
  /-- DLOG_HEAD (R267): A write of DLOG_HEAD frees damage log entries, or is refused. -/
  | dlogHead (now : Nat) (req : Requester) (head : Nat)
  /-- DLOG_ENABLE (R269): A write of DLOG_CTRL.ENABLE enables the damage log after its checks, or disables it. -/
  | dlogEnable (now : Nat) (req : Requester) (enable : Bool)
  /-- DICT_REGISTER (R276): DICT_CMD REGISTER copies and registers a Zstandard dictionary. -/
  | dictRegister (now : Nat) (req : Requester) (slot : Nat)
  /-- DICT_UNREGISTER (R276): DICT_CMD UNREGISTER stops new frames finding a dictionary slot. -/
  | dictUnregister (now : Nat) (req : Requester) (slot : Nat)
  /-- DICT_UNREGISTER_DONE (R276): UNREGISTER completes once no frame that resolved the slot is still decoding. -/
  | dictUnregisterDone (now : Nat)
  /-- DICT_READ (R290): DICT_CMD READ reports a slot's Dictionary_ID. -/
  | dictRead (now : Nat) (req : Requester) (slot : Nat)
  /-- PROBE_OM64 (R309): A read of PROBE_OM64 returns OM64 of the probe lane and seed. -/
  | probeOm64 (now : Nat) (req : Requester)
  /-- PROBE_CRC (R309): A read of PROBE_CRC returns CRC-32C of the probe lane. -/
  | probeCrc (now : Nat) (req : Requester)
  /-- STRAINER_WRITE (R327): A window WRITE command writes one Strainer entry. -/
  | strainerWrite (now : Nat) (req : Requester) (fw : Bool)
  /-- STRAINER_READ (R327): A window READ command fills the window from one entry. -/
  | strainerRead (now : Nat) (req : Requester) (fw : Bool)
  /-- STRAINER_INVALIDATE (R327): A window INVALIDATE command clears an entry's VALID. -/
  | strainerInvalidate (now : Nat) (req : Requester) (fw : Bool)
  /-- STRAINER_SEARCH (R327): A window SEARCH command returns the first match over the named banks. -/
  | strainerSearch (now : Nat) (req : Requester) (fw : Bool) (units : Nat)
  /-- BANK_CFG_WIDTH (R319): A write of a new bank WIDTH invalidates every entry of the bank. -/
  | bankCfgWidth (now : Nat) (req : Requester) (bank width : Nat)
  /-- BANK_CFG_OOS (R326): A write of BANK_CFG OOS takes a bank out of service or returns it. -/
  | bankCfgOos (now : Nat) (req : Requester) (bank : Nat) (oos : Bool)
  /-- SCRUB_STEP (R325): Every 1,024 cycles a bank compares one entry with its shadow and corrects it. -/
  | scrubStep (now : Nat) (bank : Nat) (flawed dead : Bool)
  /-- LOAD_WRITE_PASS (R323): After every LOAD slice has checked, the write pass writes the records to the banks. -/
  | loadWritePass (now : Nat) (job stage records : Nat)
  /-- PARTITION_RELOAD (R337): A spilled Press partition is reloaded and its held probe rows probed. -/
  | partitionReload (now : Nat) (job stage : Nat)
  /-- RUNAHEAD_PROBE (R341): An idle Press instance probes rows of the next slice ahead into RUNAHEAD extents. -/
  | runaheadProbe (now : Nat) (job stage rows : Nat)
  /-- ROWS (R421): A ROWS message delivers a row block of a shuffled join to its destination. -/
  | rows (now : Nat) (p : Packet)
  /-- END_BUILD (R421): An END_BUILD mark arrives and its row count is checked. -/
  | endBuild (now : Nat) (p : Packet)
  /-- END_PROBE (R421): An END_PROBE mark arrives and its row count is checked. -/
  | endProbe (now : Nat) (p : Packet)
  /-- STORE_OPEN (R362): STORE_CMD OPEN opens a window store in a tier with a quota. -/
  | storeOpen (now : Nat) (req : Requester) (store tier quota : Nat)
  /-- STORE_CLOSE (R362): STORE_CMD CLOSE closes a window store. -/
  | storeClose (now : Nat) (req : Requester) (store : Nat)
  /-- STORE_READ (R362): STORE_CMD READ reports a store's state. -/
  | storeRead (now : Nat) (req : Requester) (store : Nat)
  /-- STORE_CLEAR (R362): STORE_CMD CLEAR discards a store's state and unbinds its parameters. -/
  | storeClear (now : Nat) (req : Requester) (store : Nat)
  /-- TBL_CREATE (R402): TBL_CMD CREATE on the lead creates an embedding table on every member. -/
  | tblCreate (now : Nat) (req : Requester) (table : Nat) (host : Option Bytes) (room : Bool)
  /-- TBL_DESTROY (R402): TBL_CMD DESTROY removes a table on every member. -/
  | tblDestroy (now : Nat) (req : Requester) (table : Nat)
  /-- TBL_READ (R402): TBL_CMD READ reports whether a table exists and is bound. -/
  | tblRead (now : Nat) (req : Requester) (table : Nat)
  /-- TBL_BIND (R383): TBL_CMD BIND binds a Host-home or Cellar-home table on this node. -/
  | tblBind (now : Nat) (req : Requester) (table : Nat)
  /-- TBL_INVALIDATE (R402): TBL_CMD INVALIDATE drops every promoted copy of a table. -/
  | tblInvalidate (now : Nat) (req : Requester) (table : Nat)
  /-- TBL_SHARD (R402): TBL_CMD SHARD reports a shard's current owner. -/
  | tblShard (now : Nat) (req : Requester) (table : Nat)
  /-- TBL_CMD_DONE (R402): A lead table command completes when every member has applied it. -/
  | tblCmdDone (now : Nat)
  /-- GATHER (R420): A GATHER request reaches an owner and is answered with row bytes or MOVED. -/
  | gather (now : Nat) (p : Packet) (far : List Bytes)
  /-- UPDATE (R420): An UPDATE message reaches an owner and its updates are logged and acknowledged. -/
  | update (now : Nat) (p : Packet)
  /-- SENT (R389): The coordinator receives SENT from a set node and closes the step when all have sent. -/
  | sent (now : Nat) (p : Packet)
  /-- STEP_CLOSE (R389): STEP_CLOSE reaches an owner, which applies the step's updates and answers APPLIED. -/
  | stepClose (now : Nat) (p : Packet) (far : List Bytes)
  /-- APPLIED (R389): The coordinator receives APPLIED and sends STEP_DONE after the last one. -/
  | applied (now : Nat) (p : Packet)
  /-- STEP_DONE (R389): STEP_DONE reaches a set node and its SCATTER stage ends. -/
  | stepDone (now : Nat) (p : Packet)
  /-- LOAD_REPORT (R394): The lead receives a node's load report for an epoch. -/
  | loadReport (now : Nat) (p : Packet)
  /-- PREP (R396): PREP tells old and new owners to start copying a shard. -/
  | prep (now : Nat) (p : Packet) (far : List (Nat × Bytes))
  /-- SHARD_COPY (R396): A SHARD_COPY run delivers shard rows to the new owner. -/
  | shardCopy (now : Nat) (p : Packet)
  /-- COMMIT (R396): COMMIT tells every member the new owner and EFFECTIVE tide of a shard. -/
  | commit (now : Nat) (p : Packet)
  /-- LOG_HANDOFF (R396): LOG_HANDOFF delivers unapplied log entries to the new owner, which merges them. -/
  | logHandoff (now : Nat) (p : Packet)
  /-- TABLE_CMD (R420): A TABLE_CMD message applies a table create, destroy or invalidate on a member. -/
  | tableCmd (now : Nat) (p : Packet)
  /-- CANCEL (R396): CANCEL tells old and new owners a migration is cancelled. -/
  | cancel (now : Nat) (p : Packet)
  /-- PREFETCH (R399): An idle Ladle instance gathers rows of the next slice ahead into RUNAHEAD extents. -/
  | prefetch (now : Nat) (job stage rows : Nat)
  /-- LINK_TRAIN (R405): A DOWN link starts training at reset release, after 1 s or after a block reset. -/
  | linkTrain (now : Nat) (link : Nat)
  /-- TRAINING_DONE (R406): Link equalisation ends and the link proceeds to CONFIG, or goes DOWN. -/
  | trainingDone (now : Nat) (link lanes pol : Nat) (stored : Bool) (results : Bytes)
  /-- CONFIG (R407): A CONFIG control flit arrives and the faces and protocol levels are checked. -/
  | config (now : Nat) (link : Nat) (body : Bytes)
  /-- AUTH (R413): AUTH control flits exchange chains, keys and signatures and derive link keys. -/
  | auth (now : Nat) (link : Nat) (body : Bytes)
  /-- FLIT_RECEIVE (R409): A flit arrives and is accepted in order or discarded with a NAK. -/
  | flitReceive (now : Nat) (link : Nat) (flit : Flit)
  /-- NAK (R409): A NAK arrives and the transmitter replays from the NAKed SEQ. -/
  | nak (now : Nat) (link seq : Nat)
  /-- ACK_TIMEOUT (R409): The ACK has not advanced for 10 µs and the transmitter replays. -/
  | ackTimeout (now : Nat) (link : Nat)
  /-- RETRAIN_REQ (R410): A RETRAIN_REQ control flit makes the link enter RETRAINING. -/
  | retrainReq (now : Nat) (link : Nat)
  /-- RETRAIN_DONE (R410): A retrain succeeds and transmission resumes with a replay. -/
  | retrainDone (now : Nat) (link : Nat)
  /-- RETRAIN_TIMEOUT (R410): A retrain does not succeed within 2 ms and the link goes DOWN, losing its replay buffer. -/
  | retrainTimeout (now : Nat) (link : Nat)
  /-- FULL_TRAIN (R406): A write of LINK_CFG.FULL_TRAIN makes the next training run full equalisation. -/
  | fullTrain (now : Nat) (req : Requester) (link : Nat)
  /-- READ (R415): A fabric READ request reaches its target and is answered with READ_DATA. -/
  | read (now : Nat) (p : Packet) (far : Bytes)
  /-- WRITE (R415): A fabric WRITE request is applied once under the dedup window and answered DONE. -/
  | write (now : Nat) (p : Packet) (supply : Supply)
  /-- BULK_WRITE (R415): A BULK_WRITE request is applied once and answered DONE. -/
  | bulkWrite (now : Nat) (p : Packet) (supply : Supply)
  /-- RESPONSE_RECEIVE (R429): A response arrives and is accepted if it matches an outstanding request, or discarded. -/
  | responseReceive (now : Nat) (p : Packet)
  /-- E2E_TIMEOUT (R428): A request's end-to-end timer expires; it is resent once or fails. -/
  | e2eTimeout (now : Nat) (tag : Nat)
  /-- LINK_STATE (R432): The lead receives a LINK_STATE report and issues a route change. -/
  | linkState (now : Nat) (p : Packet)
  /-- ROUTE_SET (R433): A ROUTE_SET arrives, is acknowledged and awaits or takes effect. -/
  | routeSet (now : Nat) (p : Packet)
  /-- ROUTE_ACK (R433): The lead receives a ROUTE_ACK for an EPOCH. -/
  | routeAck (now : Nat) (p : Packet)
  /-- QUERY_DST (R436): A write of QUERY_DST sets QUERY_RES to the route to that node. -/
  | queryDst (now : Nat) (req : Requester) (node : Nat)
  /-- JOB_IMAGE (R419): A JOB_IMAGE run delivers a multi-node job's image set to a target. -/
  | jobImage (now : Nat) (p : Packet)
  /-- JOB_START (R419): JOB_START makes a target validate and start its part. -/
  | jobStart (now : Nat) (p : Packet)
  /-- PART_END (R419): PART_END reports a target's part ending to the fetching node. -/
  | partEnd (now : Nat) (p : Packet)
  /-- JOB_KILL (R419): JOB_KILL ends a target's part with the given status. -/
  | jobKill (now : Nat) (p : Packet)
  /-- LEAD_CLAIM (R439): A LEAD_CLAIM arrives and is relayed if lower than any relayed before. -/
  | leadClaim (now : Nat) (link : Nat) (p : Packet)
  /-- FORM_MS_EXPIRE (R439): FORM_MS passes; a candidate becomes lead, the lead sends MEMBER_SET FORM, or the node becomes ALONE. -/
  | formMsExpire (now : Nat)
  /-- HERD_FORM (R440): A HERD_FORM arrives, the node derives its ID and forwards it. -/
  | herdForm (now : Nat) (link : Nat) (p : Packet)
  /-- JOIN (R441): A JOIN arrives at the lead, relayed along parent faces. -/
  | join (now : Nat) (p : Packet)
  /-- MEMBER_SET (R441): A MEMBER_SET part arrives and, when complete, is applied in MSET_SEQ order. -/
  | memberSet (now : Nat) (link : Nat) (p : Packet)
  /-- MEMBER_ACK (R461): The lead receives a MEMBER_ACK for a membership set part. -/
  | memberAck (now : Nat) (p : Packet)
  /-- ELECT_ACK (R445): The new lead receives an ELECT_ACK carrying a member's KEEPER. -/
  | electAck (now : Nat) (p : Packet)
  /-- LEAVE (R444): A LEAVE message reaches the lead, which removes the node. -/
  | leave (now : Nat) (p : Packet)
  /-- LEAD_TAKEOVER (R457): The lead's twin hears nothing for the loss span and takes over as the lead. -/
  | leadTakeover (now : Nat)
  /-- ISOLATED (R446): A member with no ACTIVE link and no beat for the loss span becomes ISOLATED. -/
  | isolated (now : Nat)
  /-- TWIN_PAIR (R448): The lead receives TWIN_PAIR and a twin pair forms or PAIR_MISMATCH sets. -/
  | twinPair (now : Nat) (p : Packet)
  /-- MIRROR (R422): A MIRROR run arrives on the twin link and is held for its cut. -/
  | mirror (now : Nat) (link : Nat) (p : Packet)
  /-- TWIN_CUT (R451): TWIN_CUT arrives, the twin applies the whole cut and sends TWIN_ACK. -/
  | twinCut (now : Nat) (link : Nat) (p : Packet)
  /-- TWIN_ACK (R452): TWIN_ACK arrives and the outputs held for that cut are released. -/
  | twinAck (now : Nat) (link : Nat) (p : Packet)
  /-- HERD_JOIN (R442): A write of HERD_CTRL.JOIN makes an ALONE node join a herd. -/
  | herdJoin (now : Nat) (req : Requester)
  /-- HERD_LEAVE (R444): A write of HERD_CTRL.LEAVE sends LEAVE to the lead. -/
  | herdLeave (now : Nat) (req : Requester)
  /-- ADMIT_ID (R443): A write of HERD_CTRL.ADMIT_ID on the lead admits a SPARE node. -/
  | admitId (now : Nat) (req : Requester) (node : Nat)
  /-- BOOT_REQ (R492): A BOOT_REQ is relayed to the lead, which answers with BOOT_DATA. -/
  | bootReq (now : Nat) (link : Nat) (p : Packet)
  /-- BOOT_DATA (R461): A BOOT_DATA chunk of the runtime image arrives. -/
  | bootData (now : Nat) (link : Nat) (p : Packet)
  /-- BOOT_FALLBACK (R492): Lead boot delivery times out or fails and Rolar boots from flash. -/
  | bootFallback (now : Nat)
  /-- SERVE_ENABLE (R466): A write of SERVE_CFG.ENABLE starts or stops serving and takes or returns the admission store. -/
  | serveEnable (now : Nat) (req : Requester) (enable : Bool)
  /-- SERVE_RING_ENABLE (R483): A write of a request ring's ENABLE enables it after its checks, or disables it. -/
  | serveRingEnable (now : Nat) (req : Requester) (ring : Nat) (enable : Bool)
  /-- PROD (R472): An 8-byte write of PROD to a request region sets the ring's producer index. -/
  | prod (now : Nat) (ring value : Nat)
  /-- ADMISSION (R473): The device copies a request record into the admission store and advances CONS. -/
  | admission (now : Nat) (ring : Nat)
  /-- REQUEST_DEADLINE (R474): A request reaches its deadline unanswered and is answered with SERVE_LATE. -/
  | requestDeadline (now : Nat) (request : Nat)
  /-- TX_SLOT_FREE (R477): A waiting response finds a transmit slot freed at HEAD_ADDR and proceeds. -/
  | txSlotFree (now : Nat) (ring head : Nat)
  /-- SVC_REGISTER (R468): SVC_CMD REGISTER copies and validates a service plan. -/
  | svcRegister (now : Nat) (req : Requester) (slot reqSlot respSlot nbind : Nat) (host : List (Nat × Byte))
  /-- SVC_UNREGISTER (R469): SVC_CMD UNREGISTER stops admission to a service. -/
  | svcUnregister (now : Nat) (req : Requester) (slot : Nat)
  /-- SVC_UNREGISTER_DONE (R469): UNREGISTER completes once the service has no request in flight. -/
  | svcUnregisterDone (now : Nat)
  /-- SVC_READ (R483): SVC_CMD READ reports whether a service slot is registered. -/
  | svcRead (now : Nat) (req : Requester) (slot : Nat)
  /-- RUNTIME_BOOT (R491): Rolar verifies and boots the runtime image from its boot source, or waits for recovery. -/
  | runtimeBoot (now : Nat)
  /-- BOOT_GO (R491): A write of BOOT_GO starts a host-pushed runtime boot. -/
  | bootGo (now : Nat) (req : Requester) (image : Bytes)
  /-- ROLLBACK_COMMIT (R493): A write of ROLLBACK_CTRL.COMMIT blows fuses up to the running images' SVN. -/
  | rollbackCommit (now : Nat) (req : Requester)
  /-- FUSE_BLOW_DONE (R493): One rollback fuse bit finishes programming, or fails and sets FUSE_FAIL. -/
  | fuseBlowDone (now : Nat) (ok : Bool)
  /-- LOCKDOWN (R498): A write of LOCK_CTRL.LOCKDOWN sets PG_LOCK on every named page in one cycle. -/
  | lockdown (now : Nat) (req : Requester)
  /-- LOCK_DEADLINE (R498): LOCK_DEADLINE_MS passes with no lockdown and Rolar performs the lockdown. -/
  | lockDeadline (now : Nat)
  /-- KEY_LOAD (R494): KEY_CMD LOAD loads a stage key into a slot with its MIN_SVN. -/
  | keyLoad (now : Nat) (req : Requester) (slot minSvn : Nat) (host : Bytes)
  /-- KEY_REVOKE (R499): KEY_CMD REVOKE empties a stage-key slot. -/
  | keyRevoke (now : Nat) (req : Requester) (slot : Nat)
  /-- KEY_READ (R499): KEY_CMD READ reports a stage-key slot. -/
  | keyRead (now : Nat) (req : Requester) (slot : Nat)
  /-- GET_VERSION (R487): SPDM GET_VERSION is answered with version 1.3. -/
  | getVersion (now : Nat) (doe : Bool)
  /-- GET_CAPABILITIES (R487): SPDM GET_CAPABILITIES is answered. -/
  | getCapabilities (now : Nat) (doe : Bool)
  /-- NEGOTIATE_ALGORITHMS (R487): SPDM NEGOTIATE_ALGORITHMS selects P-384, SHA-384 and AES-256-GCM. -/
  | negotiateAlgorithms (now : Nat) (doe offered : Bool)
  /-- GET_DIGESTS (R487): SPDM GET_DIGESTS returns the slot 0 chain digest. -/
  | getDigests (now : Nat) (doe : Bool)
  /-- GET_CERTIFICATE (R487): SPDM GET_CERTIFICATE returns the certificate chain. -/
  | getCertificate (now : Nat) (doe : Bool) (slot off len : Nat)
  /-- CHALLENGE (R487): SPDM CHALLENGE is answered with an alias-key signature. -/
  | challenge (now : Nat) (doe : Bool) (slot : Nat) (transcript : Bytes)
  /-- GET_MEASUREMENTS (R488): SPDM GET_MEASUREMENTS returns signed measurement indices. -/
  | getMeasurements (now : Nat) (doe : Bool) (index : Nat) (raw : Bool) (transcript : Bytes)
  /-- KEY_EXCHANGE (R487): SPDM KEY_EXCHANGE starts a secure session. -/
  | keyExchange (now : Nat) (doe : Bool) (id : Nat) (transcript : Bytes)
  /-- FINISH (R489): SPDM FINISH completes a session; over DOE with the PF it sets AUTH_OK. -/
  | finish (now : Nat) (doe : Bool) (id : Nat) (ok : Bool)
  /-- HEARTBEAT (R487): SPDM HEARTBEAT keeps a session alive. -/
  | heartbeat (now : Nat) (doe : Bool) (id : Nat)
  /-- KEY_UPDATE (R487): SPDM KEY_UPDATE updates a session's keys. -/
  | keyUpdate (now : Nat) (doe : Bool) (id : Nat)
  /-- END_SESSION (R487): SPDM END_SESSION ends a session. -/
  | endSession (now : Nat) (doe : Bool) (id : Nat)
  /-- SPDM_UNSUPPORTED (R487): An SPDM request outside the subset is answered with ERROR UnsupportedRequest. -/
  | spdmUnsupported (now : Nat) (doe : Bool)
  /-- SET_ENDPOINT_ID (R495): MCTP Set Endpoint ID assigns Rolar's endpoint ID. -/
  | setEndpointId (now : Nat) (eid : Nat)
  /-- GET_ENDPOINT_ID (R495): MCTP Get Endpoint ID returns the endpoint ID. -/
  | getEndpointId (now : Nat)
  /-- GET_MCTP_VERSION_SUPPORT (R495): MCTP Get MCTP Version Support is answered. -/
  | getMctpVersionSupport (now : Nat) (type : Nat)
  /-- GET_MESSAGE_TYPE_SUPPORT (R495): MCTP Get Message Type Support is answered. -/
  | getMessageTypeSupport (now : Nat)
  /-- PLDM_BASE (R495): A PLDM type 0 base command is answered. -/
  | pldmBase (now : Nat) (cmd arg : Nat)
  /-- PLDM_SENSOR_READ (R495): A PLDM platform command reads a numeric or state sensor. -/
  | pldmSensorRead (now : Nat) (sensor : Nat)
  /-- POLL_FOR_PLATFORM_EVENT_MESSAGE (R495): PollForPlatformEventMessage returns a pending platform event and may end the alert. -/
  | pollForPlatformEventMessage (now : Nat)
  /-- PLDM_FIRMWARE_UPDATE (R495): PLDM firmware update writes an image into the inactive flash slot. -/
  | pldmFirmwareUpdate (now : Nat) (runtime : Bool) (image : Bytes)
  /-- READ_REG (R496): PLDM READ_REG reads 8 bytes of a page register as the control cores. -/
  | readReg (now : Nat) (page off : Nat)
  /-- WRITE_REG (R496): PLDM WRITE_REG writes an allowed register as the control cores, or is refused. -/
  | writeReg (now : Nat) (page off : Nat) (value : Word)
  /-- ARB_LOST (R497): The device loses SMBus arbitration while sending and resends or drops the packet. -/
  | arbLost (now : Nat)
  /-- AUTO_WARM (R506): 10 ms after a class 3 record with AUTO_WARM set, the device requests a warm reset. -/
  | autoWarm (now : Nat)
  /-- FAULT_ACK (R508): A write of FAULT_CTRL.ACK clears PENDING_CLASS. -/
  | faultAck (now : Nat) (req : Requester)
  /-- POP (R514): A write of FAULT_CTRL.POP moves the head fault record into FREC0 to FREC4. -/
  | pop (now : Nat) (req : Requester)
  /-- FINJ_FIRE (R513): A write of FINJ.FIRE delivers an injected fault of FINJ.KIND, or is denied. -/
  | finjFire (now : Nat) (req : Requester) (kind page : Nat)
  /-- RETENTION_FLAG_LOST (R51): P54V falls below 12.0 V and the undervoltage retention flag is lost, so the next start reads as power-on. -/
  | retentionFlagLost (now : Nat) (level : Nat)
  /-- TIDE_IN_FALL (R32): TIDE_IN deasserts, ending its stuck span and arming the next rising edge after an assertion held at release. -/
  | tideInFall (now : Nat)
  /-- STUCK_CLEAR (R32): Software clears PIN_STAT STUCK bits with RW1C and M_ALERT_N deasserts once no other condition holds it. -/
  | stuckClear (now : Nat) (req : Requester) (value : Word)
  /-- CABLE_SEATED (R405): Zk_PRSNT_N goes low when a cable is seated, letting link ZLk train. -/
  | cableSeated (now : Nat) (link : Nat)
  /-- PORT1_LINK_UP (R107): The host port 1 link trains up and function 31 becomes reachable. -/
  | port1LinkUp (now : Nat) (gen width : Nat)
  /-- CONFIGURATION_WRITE (R106): A host configuration write enables or disables virtual functions, ATS or bus mastering, or changes the power state between D0 and D3hot. -/
  | configurationWrite (now : Nat) (w : ConfigWrite)
  /-- MSIX_TABLE_WRITE (R75): A host write to the MSI-X table or function mask unmasks or masks a vector, making a route able or unable to deliver. -/
  | msixTableWrite (now : Nat) (fn : Nat) (w : MsixWrite)
  /-- HDM_DECODER_COMMIT (R112): The host commits the HDM decoder in the CXL component registers and CXL_MEM becomes 1. -/
  | hdmDecoderCommit (now : Nat) (base : Nat)
  /-- ATS_TRANSLATION_DONE (R116): An ATS translation request completes, filling the translation cache or refusing permission with HOST_FAULT. -/
  | atsTranslationDone (now : Nat) (fn page : Nat) (granted : Bool)
  /-- BISNP_RESPONSE (R115): The host answers a back-invalidation snoop, writing dirty data back so the waiting engine access or eviction proceeds. -/
  | bisnpResponse (now : Nat) (line : Nat) (dirty : Option Bytes)
  /-- SUSTAINED_BUDGET_WRITE (R43): A write of SUSTAINED_BUDGET changes the effective budget, which may set PACING or let the queue head be granted. -/
  | sustainedBudgetWrite (now : Nat) (req : Requester) (watts : Nat)
  /-- TIDE_MODE_WRITE (R211): A write of TIDE_CFG.MODE on the lead starts or stops the periodic beats. -/
  | tideModeWrite (now : Nat) (req : Requester) (mode : Nat)
  /-- WATERMARK_MARK_WRITE (R92): A write of a watermark's MARK or HYST changes LEVEL, and may cause a crossing or re-arm the notice. -/
  | watermarkMarkWrite (now : Nat) (req : Requester) (which : Watermark) (mark hyst : Nat)
  /-- CELLAR_LINK_UP (R93): The C1 link, or the switch's upstream link, trains up so that drives can be enumerated and brought up. -/
  | cellarLinkUp (now : Nat) (found : List Nat)
  /-- LANE_LOCK_LOST (R410): A link receiver loses lane lock and both ends enter RETRAINING. -/
  | laneLockLost (now : Nat) (link : Nat)
  /-- MEMBER_SET_RESEND (R461): Every 100 ms during formation, the lead resends each unacknowledged MEMBER_SET part. -/
  | memberSetResend (now : Nat)
  /-- HANDBACK_TRANSFER_DONE (R458): The transfer of a hosted node's state back to that node completes and the lead issues MEMBER_SET ADD without the alias. -/
  | handbackTransferDone (now : Nat) (node : Nat)
  deriving DecidableEq, Repr

end Sys2Proof
end

