-- ==== Sys2Proof/Decode.lean ====
section
/-! DEFINITION. Words of the opcode table. The module has no instruction encoding: the table gives no row any bits. -/

namespace Sys2Proof

/-- The command that a word of the opcode table spells. The table gives none of its rows bits, so that no word spells a command. -/
def decodeTableWord (_nbits _w : Nat) : Option Instr := none

end Sys2Proof
end

