-- ==== Sys2Proof/Machine/Bits.lean ====
section
/-! DEFINITION. Bit fields, byte order and saturating counts, used everywhere (R6: little-endian, bit 0 least significant). -/

namespace Sys2Proof

/-- Bits `hi` down to `lo` of a register. -/
def bitsOf (w : Word) (hi lo : Nat) : Nat := w.toNat / 2 ^ lo % 2 ^ (hi + 1 - lo)

/-- A mask of ones at bits `hi` down to `lo`. -/
def fieldMask (hi lo : Nat) : Word := BitVec.ofNat 64 ((2 ^ (hi + 1 - lo) - 1) * 2 ^ lo)

/-- `w` with `v` at bits `hi` down to `lo`. -/
def putBits (w : Word) (hi lo v : Nat) : Word :=
  (w &&& ~~~(fieldMask hi lo)) ||| (BitVec.ofNat 64 (v % 2 ^ (hi + 1 - lo) * 2 ^ lo))

/-- Bit `n` of a number. -/
def bitAt (v n : Nat) : Bool := v / 2 ^ n % 2 == 1

/-- 1 for true. -/
def ofBool (b : Bool) : Nat := if b then 1 else 0

/-- The little-endian value of a byte string. -/
def leNat : Bytes → Nat
  | [] => 0
  | b :: bs => b.toNat + 256 * leNat bs

/-- `n` bytes of `v`, least significant first. -/
def leBytes : Nat → Nat → Bytes
  | 0, _ => []
  | n + 1, v => BitVec.ofNat 8 v :: leBytes n (v / 256)

/-- The big-endian value of a byte string. -/
def beNat (bs : Bytes) : Nat := leNat bs.reverse

/-- Bytes `lo` up to but not including `lo + n` of a string. -/
def sub (bs : Bytes) (lo n : Nat) : Bytes := (bs.drop lo).take n

/-- The little-endian value of bytes `lo` to `lo + n - 1` of a string. -/
def leAt (bs : Bytes) (lo n : Nat) : Nat := leNat (sub bs lo n)

/-- Byte `i` of a string, or 0 past its end. -/
def byteAt (bs : Bytes) (i : Nat) : Nat := (bs.getD i 0#8).toNat

/-- A saturating 64-bit sum (R78). -/
def satAdd (a b : Nat) : Nat := min maxWord (a + b)

/-- Quotient rounded up (0 for a divisor of 0). -/
def ceilDiv (x n : Nat) : Nat := x / n + if n = 0 ∨ x % n = 0 then 0 else 1

/-- `x` rounded up to a multiple of `n`. -/
def roundUp (x n : Nat) : Nat := ceilDiv x n * n

/-- A string of `n` zero bytes. -/
def zeros (n : Nat) : Bytes := List.replicate n 0#8

/-- `bs` cut or filled with zeros to `n` bytes. -/
def fitTo (bs : Bytes) (n : Nat) : Bytes := bs.take n ++ zeros (n - bs.length)

/-- The two's-complement reading of `v` in `w` bits. -/
def toSigned (w v : Nat) : Int := if v % 2 ^ w < 2 ^ (w - 1) then (v % 2 ^ w : Nat) else (v % 2 ^ w : Nat) - (2 ^ w : Nat)

/-- The `w`-bit word of an integer, as a number. -/
def ofSigned (w : Nat) (i : Int) : Nat := (i % (2 ^ w : Nat)).toNat

/-- The bits of `v` below `n` that are 1, ascending. -/
def bitsSet (v : Nat) : Nat → List Nat
  | 0 => []
  | n + 1 => bitsSet v n ++ (if bitAt v n then [n] else [])

/-- `v` with bit `n` set to `b`. -/
def withBit (v n : Nat) (b : Bool) : Nat :=
  if bitAt v n then (if b then v else v - 2 ^ n) else (if b then v + 2 ^ n else v)

/-- Insertion into a list that `le` sorts, after every element not greater. -/
def insertBy {α : Type} (le : α → α → Bool) (x : α) : List α → List α
  | [] => [x]
  | y :: ys => if le y x then y :: insertBy le x ys else x :: y :: ys

/-- A stable sort by `le`. -/
def sortBy {α : Type} (le : α → α → Bool) (xs : List α) : List α :=
  xs.foldl (fun acc x => insertBy le x acc) []

end Sys2Proof
end

