-- ==== Sys2Proof/Machine/Table.lean ====
section
/-! DEFINITION. Sparse tables: lists of key and value pairs, keys strictly rising, so that equal tables are equal data. -/

namespace Sys2Proof

/-- A table from numbers to `β`. -/
abbrev Table (β : Type) := List (Nat × β)

/-- The value listed for key `k`. -/
def Table.find? {β : Type} : Table β → Nat → Option β
  | [], _ => none
  | (k', v) :: t, k => if k' = k then some v else Table.find? t k

/-- The value listed for key `k`, or `d` where none is. -/
def Table.findD {β : Type} (t : Table β) (k : Nat) (d : β) : β := (Table.find? t k).getD d

/-- `t` with value `v` for key `k`, the keys still rising. -/
def Table.put {β : Type} : Table β → Nat → β → Table β
  | [], k, v => [(k, v)]
  | (k', v') :: t, k, v =>
    if k < k' then (k, v) :: (k', v') :: t
    else if k = k' then (k, v) :: t
    else (k', v') :: Table.put t k v

/-- `t` without key `k`. -/
def Table.drop {β : Type} : Table β → Nat → Table β
  | [], _ => []
  | (k', v') :: t, k => if k' = k then Table.drop t k else (k', v') :: Table.drop t k

/-- `t` with `f` applied to the value of key `k`, where it is listed. -/
def Table.upd {β : Type} : Table β → Nat → (β → β) → Table β
  | [], _, _ => []
  | (k', v') :: t, k, f => if k' = k then (k', f v') :: t else (k', v') :: Table.upd t k f

/-- `t` without the entries that `p` holds of. -/
def Table.without {β : Type} (t : Table β) (p : Nat → β → Bool) : Table β := t.filter (fun e => !p e.1 e.2)

/-- `t` with every value changed by `f`. -/
def Table.each {β : Type} (t : Table β) (f : Nat → β → β) : Table β := t.map (fun e => (e.1, f e.1 e.2))

/-- Whether key `k` is listed. -/
def Table.has {β : Type} (t : Table β) (k : Nat) : Bool := (Table.find? t k).isSome

/-- The keys of `t` rise strictly from above `lo` on. -/
def Table.risingFrom {β : Type} : Nat → Table β → Bool
  | _, [] => true
  | lo, (k, _) :: t => decide (lo ≤ k) && Table.risingFrom (k + 1) t

/-- The keys of `t` rise strictly. -/
def Table.rising {β : Type} (t : Table β) : Bool := Table.risingFrom 0 t

/-- The least number from `n` on, within `fuel` numbers, that is no key of `t`. -/
def Table.fresh {β : Type} (t : Table β) : Nat → Nat → Nat
  | 0, n => n
  | fuel + 1, n => if Table.has t n then Table.fresh t fuel (n + 1) else n

/-! Memory is the table whose unlisted addresses read as zero; a listed byte is never zero. -/

/-- Memory: one cell per byte that is not zero, addresses strictly rising. -/
abbrev Memory := List Host.Cell

/-- What an unlisted address reads as. DESIGN CHOICE (log 2): the spec gives no contents for memory nothing has written. -/
def Memory.blank : Byte := 0#8

/-- The byte at address `a`. -/
def Memory.read (m : Memory) (a : Nat) : Byte := Table.findD m a Memory.blank

/-- `m` with byte `b` at address `a`, in the canonical form. -/
def Memory.write (m : Memory) (a : Nat) (b : Byte) : Memory :=
  if b = Memory.blank then Table.drop m a else Table.put m a b

/-- The `n` bytes from address `a` on. -/
def Memory.load (m : Memory) (a : Nat) : Nat → Bytes
  | 0 => []
  | n + 1 => Memory.read m a :: Memory.load m (a + 1) n

/-- `m` with the bytes `bs` from address `a` on. -/
def Memory.store (m : Memory) (a : Nat) : Bytes → Memory
  | [] => m
  | b :: bs => Memory.store (Memory.write m a b) (a + 1) bs

/-- `m` with every byte from `lo` up to but not including `hi` at the unlisted value. -/
def Memory.clear (m : Memory) (lo hi : Nat) : Memory := m.filter (fun c => decide (c.1 < lo) || decide (hi ≤ c.1))

/-- The canonical form: addresses strictly rising, no entry equal to what an unlisted address reads as. -/
def Memory.wf (m : Memory) : Bool := Table.rising m && m.all (fun c => decide (c.2 ≠ Memory.blank))

end Sys2Proof
end

