-- ==== Sys2Proof/Machine/StateEdges.lean ====
section
/-! DEFINITION. The state of the module's edges: pins, supply and domains, leave, the calibration store, and what each page
keeps beside its registers (chapters 02 to 04). -/

namespace Sys2Proof.Machine

/-- The pins and what the device remembers of their edges (R28 to R36). -/
structure Pins where
  /-- MOD_PG is asserted. -/
  modPg : Bool := true
  /-- Strap levels in the order of STRAP_STAT bits 8:0. -/
  straps : Nat := 0x1FF
  tideIn : Bool := false
  /-- A rising edge of TIDE_IN counts as an event (R29). -/
  tideArmed : Bool := true
  /-- Chronometer at TIDE_IN's last assertion edge. -/
  tideSince : Nat := 0
  /-- Chronometer at the last accepted rising edge. -/
  tideLast : Option Nat := none
  brakeLow : Bool := false
  brakeSince : Nat := 0
  perst0Low : Bool := false
  /-- Chronometer at the PERST0_N falling edge, where that came after module reset release. -/
  perst0Since : Option Nat := none
  perst1Low : Bool := false
  /-- Bit k: Zk_PRSNT_N is low, a cable is seated. -/
  cables : Nat := 0
  /-- M_AS in use for the SMBus address (R30). -/
  mAs : Nat := 3
  /-- Bit d: CPRSNTd_N is low. -/
  drives : Nat := 0
  /-- Chronometer at the last module reset release. -/
  releaseAt : Nat := 0
  deriving DecidableEq, Repr

/-- The supply, the supervisors and the power domains (R40 to R49). -/
structure Power where
  /-- P54V in units of 10 mV. -/
  p54v : Nat := 5400
  /-- Hottest die sensor in units of 0.1 °C. -/
  dieTemp : Int := 400
  undervoltage : Bool := false
  lowBand : Bool := false
  overvoltage : Bool := false
  throttle : Bool := false
  trip : Bool := false
  /-- The retention flag of R51. -/
  retention : Bool := false
  /-- Bit n: PDn is on and good. -/
  good : Nat := 1
  /-- Bit n: PDn has started since module reset release, so its pages answer (R519). -/
  started : Nat := 1
  /-- Module reset is released. -/
  released : Bool := true
  /-- Chronometer and strength of the last reset: 4 cold, 3 warm, 2 herd, 1 function-level, 0 block. -/
  lastReset : Option (Nat × Nat) := none
  deriving DecidableEq, Repr

/-- One job's wait on a queued leave request: the slice, the tick at which it times out. -/
structure LeaveWait where
  slice : Nat
  job : Nat
  tick : Nat
  deriving DecidableEq, Repr

/-- A queued leave request: its class, the page that asks, the slices that wait on it. -/
structure LeaveEntry where
  cls : Nat
  page : Nat
  waits : List LeaveWait
  deriving DecidableEq, Repr

/-- A grant: its class, the page (first page of the block for a per-node class), the jobs that hold it. -/
structure LeaveGrant where
  cls : Nat
  page : Nat
  jobs : List Nat
  deriving DecidableEq, Repr

/-- The leave controller (R43 to R47). -/
structure Leave where
  queue : List LeaveEntry := []
  grants : List LeaveGrant := []
  pacing : Bool := false
  pacingSince : Nat := 0
  deriving DecidableEq, Repr

/-- A calibration slot's contents (Table 03-6). -/
structure CalSlot where
  magic : Nat
  gen : Nat
  len : Nat
  crc : Nat
  payload : Bytes
  deriving DecidableEq, Repr

/-- A slot write in progress: the slot (1 A, 2 B), its contents. -/
structure CalWrite where
  slot : Nat
  data : CalSlot
  deriving DecidableEq, Repr

/-- The calibration store (R53, R54): both slots (none for an erased one), validity as last found, the active slot, the
write in progress and what is due. -/
structure Cal where
  slotA : Option CalSlot
  slotB : Option CalSlot := none
  validA : Bool := true
  validB : Bool := false
  active : Nat := 1
  writing : Option CalWrite := none
  /-- An automatic write is due or deferred. -/
  due : Bool := false
  /-- A SAVE_NOW is merged into the next write. -/
  save : Bool := false
  /-- Chronometer at the start of the last automatic write. -/
  lastAuto : Option Nat := none
  /-- The training results in effect. -/
  current : Bytes := []
  exhausted : Bool := false
  /-- The flash could be read at the last release. -/
  readable : Bool := true
  deriving DecidableEq, Repr

/-- A register write that a block reset holds (R73). -/
structure HeldWrite where
  by_ : Requester
  off : Nat
  value : Word
  deriving DecidableEq, Repr

/-- What a page keeps beside its registers: pending interrupt events (R75), block reset (R73), injection (R70), waiting
PG_SYNC reads (R71). -/
structure PageRun where
  /-- Pending interrupt events, saturating. -/
  pending : Nat := 0
  /-- Chronometer at the oldest pending event. -/
  oldest : Nat := 0
  /-- Chronometer since when the route can deliver, where it can. -/
  ableAt : Option Nat := none
  /-- A block reset runs since this chronometer value. -/
  resetAt : Option Nat := none
  held : List HeldWrite := []
  /-- The block reset timed out: a block fault until cold or warm reset. -/
  faulted : Bool := false
  /-- The unit failed or was held out of service by a class 2 fault (R502). -/
  unitFail : Bool := false
  /-- The injection not yet delivered. -/
  inject : Option Nat := none
  /-- A SLICE fault to inject into the next slice that starts on the instance (R513). -/
  injectSlice : Bool := false
  syncWait : List Requester := []
  deriving DecidableEq, Repr

/-- A watermark notice (R92): LEVEL and whether it is armed. -/
structure Notice where
  level : Bool := false
  armed : Bool := true
  deriving DecidableEq, Repr

end Sys2Proof.Machine
end

