-- ==== Sys2Proof/Machine/StateMemory.lean ====
section
/-! DEFINITION. The state of the memories: Vat extents, the tiers, spill, registered regions, the Cellar drives (chapter 05). -/

namespace Sys2Proof.Machine

/-- The memory tiers a region or a store can lie in (Table 05-4). -/
inductive Tier where
  | vat | cream | skim
  deriving DecidableEq, Repr

/-- A registered region (R99). `hostPages` lists the 4 KiB page indexes in host bias (R113). -/
structure Region where
  base : Nat
  len : Nat
  aperture : Nat
  tier : Tier
  lineCoherent : Bool
  hostWr : Bool
  peerWr : Bool
  peerRd : Bool
  zero : Bool
  owner : Nat
  tag : Nat
  hostPages : List Nat := []
  deriving DecidableEq, Repr

/-- A region command that runs until its DONE (R100): slot, result, a range to zero. -/
structure RegionCmd where
  slot : Nat
  result : Nat
  zero : Option (Nat × Nat) := none
  /-- OP: 1 ALLOC, 2 FREE, 3 READ. -/
  op : Nat
  deriving DecidableEq, Repr

/-- Who waits for bytes from outside: a slice, a descriptor whose plan is being validated, a job whose
inputs are surveyed. -/
inductive Reader where
  | slice (n : Nat)
  | desc (n : Nat)
  | job (n : Nat)
  deriving DecidableEq, Repr

/-- What a drive command is for: a slice's read, or a write or flush of a job. -/
inductive DriveWhy where
  | read (who : Reader)
  | write (job : Nat)
  | flush (job : Nat)
  /-- Rows of a Cellar-home table that a step writes, and their flush (R392). -/
  | row (step : Nat)
  | rowFlush (step : Nat)
  deriving DecidableEq, Repr

/-- A command outstanding at a drive: its purpose, namespace, first block, blocks. -/
structure DriveCmd where
  why : DriveWhy
  nsid : Nat
  lba : Nat
  blocks : Nat
  issuedAt : Nat
  /-- Its abort was sent at this chronometer value. -/
  abortAt : Option Nat := none
  deriving DecidableEq, Repr

/-- A Cellar drive (R93 to R98). -/
structure Drive where
  present : Bool := false
  /-- Its bus, device and function number behind the switch. -/
  bdf : Nat := 0
  ready : Bool := false
  failed : Bool := false
  /-- Waits for a Skim page for its I/O queues (R95). -/
  wantsPage : Bool := false
  hasPage : Bool := false
  maxXfer : Nat := 0
  width : Nat := 0
  gen : Nat := 0
  namespaces : Table Namespace := []
  cmds : Table DriveCmd := []
  /-- Chronometer at the controller resets counted since it came to service. -/
  resets : List Nat := []
  /-- DRIVE_OOS was written for it while FAILED (R98, item 6). -/
  oosSeen : Bool := false
  deriving DecidableEq, Repr

/-- The memories' allocation state: extents, tier pages, spill by job, regions, poison (R84 to R101). -/
structure Mem where
  /-- Vat words that hold an uncorrectable error, by address of the 8-byte word. -/
  badWords : List Nat := []
  /-- Poisoned 64-byte lines of Cream and Skim, by address. -/
  poison : List Nat := []
  /-- SLICE extents in use. -/
  sliceUsed : Nat := 0
  /-- RUNAHEAD and BUILD extents in use, by job. -/
  runaheadUsed : Table Nat := []
  buildUsed : Table Nat := []
  /-- Slices that wait for SLICE extents, oldest first. -/
  extentWaits : List Nat := []
  /-- Spill allocations in MiB by job: Cream, Skim. -/
  creamSpill : Table Nat := []
  skimSpill : Table Nat := []
  /-- MiB in use in each tier for purposes without a region: stores, queues, park, windows. -/
  creamOther : Nat := 0
  skimOther : Nat := 0
  /-- Units (stacks, channels) trained and good. -/
  creamUnits : Nat := 0
  skimUnits : Nat := 0
  regions : Table Region := []
  regionCmd : Option RegionCmd := none
  drives : Table Drive := []
  /-- C1 is out of reset. -/
  c1Out : Bool := false
  cellarLink : Bool := false
  deriving DecidableEq, Repr

end Sys2Proof.Machine
end

