-- ==== Sys2Proof/Machine/StateHost.lean ====
section
/-! DEFINITION. The state of the host edge: functions, MSI-X, coherence, translation, the host session and its park
(chapters 06 and 07). -/

namespace Sys2Proof.Machine

/-- One MSI-X vector: its message and its mask. PRESUMED (log 4): masked at reset, as PCIe has it. -/
structure MsixVector where
  addr : Nat := 0
  data : Nat := 0
  masked : Bool := true
  deriving DecidableEq, Repr

/-- One host function's configuration (R106, R108, R116). -/
structure Func where
  busMaster : Bool := false
  /-- The function is in D3hot rather than D0. -/
  d3hot : Bool := false
  ats : Bool := false
  /-- The MSI-X function mask. -/
  masked : Bool := false
  vectors : Table MsixVector := []
  /-- Bytes of its BAR4, once the Resizable BAR capability has set them (R108). -/
  bar4 : Option Nat := none
  deriving DecidableEq, Repr

/-- A device read of host memory that has not completed: who waits, the function, the host address, the bytes wanted. -/
structure HostRead where
  who : Reader
  fn : Nat
  iova : Nat
  len : Nat
  deriving DecidableEq, Repr

/-- What a back-invalidation snoop was sent for (R113 to R115). -/
inductive SnoopWhy where
  | evict
  | bias
  | access (who : Reader)
  /-- An access from outside, which stands in the list of held accesses. -/
  | held
  deriving DecidableEq, Repr

/-- An outstanding back-invalidation snoop: its line, by local address, and all that wait for it. -/
structure Snoop where
  line : Nat
  whys : List SnoopWhy
  sentAt : Nat
  deriving DecidableEq, Repr

/-- An access from outside that waits for snoops or for a page under flip (R113 to R115): through BAR4, through HDM, a
request of another node. -/
inductive HeldAccess where
  | bar4 (addr len : Nat) (data : Option Bytes) (poisoned : Bool)
  | hdm (addr : Nat) (data : Option Bytes) (poisoned : Bool)
  | far (p : Packet)
  deriving DecidableEq, Repr

/-- A running bias command (R114). -/
structure BiasCmd where
  region : Nat
  page : Nat
  count : Nat
  toDevice : Bool
  deriving DecidableEq, Repr

/-- An ATS translation request of a host read. -/
structure Ats where
  fn : Nat
  page : Nat
  read : Nat
  deriving DecidableEq, Repr

/-- A parked record (R138); the header's LENGTH is the payload's. -/
structure ParkRec where
  completion : Bool
  split : Bool
  poisoned : Bool
  fn : Nat
  ring : Nat
  iova : Nat
  seq : Nat
  tag : Nat
  payload : Bytes
  deriving DecidableEq, Repr

/-- A drain whose completion entry is not yet written: the pair and the first PARK_SEQ it left. -/
structure Drain where
  pair : Nat
  upTo : Nat
  deriving DecidableEq, Repr

/-- Why host loss is due (Table 07-3). -/
inductive LossCause where
  | heartbeat | linkDown
  deriving DecidableEq, Repr

/-- The host session (R130 to R143). -/
structure Session where
  id : Nat := 0
  lossChrono : Nat := 0
  lossTide : Nat := 0
  lastBeat : Word := 0#64
  lastBeatAt : Nat := 0
  /-- Chronometer from which the heartbeat span runs, while the monitor is armed. -/
  armedAt : Option Nat := none
  /-- A loss whose cause occurred and which is not yet declared. -/
  due : Option LossCause := none
  /-- ATTACH accesses held until the declaration (R130). -/
  held : List HeldWrite := []
  defaultRows : Nat := 0
  park : List ParkRec := []
  /-- Next PARK_SEQ of each (function, ring) pair. -/
  nextSeq : Table Nat := []
  /-- Pairs whose ring was ordered. -/
  ordered : List Nat := []
  drains : Table Drain := []
  deriving DecidableEq, Repr

/-- The host edge. -/
structure HostSide where
  fns : Table Func := []
  numVfs : Nat := 0
  p0Up : Bool := false
  p0EverUp : Bool := false
  p1Up : Bool := false
  /-- What the links negotiated: generation and lanes of each port, Flit mode and CXL on port 0. -/
  p0Gen : Nat := 0
  p0Width : Nat := 0
  p1Gen : Nat := 0
  p1Width : Nat := 0
  flit : Bool := false
  cxl : Bool := false
  cxlCache : Bool := false
  /-- HDM base, once the decoder is committed. -/
  hdm : Option Nat := none
  /-- Valid lines of the host-line cache. -/
  hcache : List Nat := []
  /-- Translation cache: function and 4 KiB page number. -/
  atc : List (Nat × Nat) := []
  atsRequests : List Ats := []
  /-- Invalidations not yet completed: function and 4 KiB page. -/
  invalidations : List (Nat × Nat) := []
  reads : Table HostRead := []
  nextRead : Nat := 0
  /-- Lines the snoop filter tracks, by local address, oldest first. -/
  snoopFilter : List Nat := []
  snoops : List Snoop := []
  heldAccesses : List HeldAccess := []
  /-- Readers that wait for pages under flip. -/
  biasWaits : List Reader := []
  bias : Option BiasCmd := none
  /-- The ring storage area of BAR2, by function × 2^28 + offset. -/
  ringStore : Memory := []
  session : Session := {}
  deriving DecidableEq, Repr

end Sys2Proof.Machine
end

