-- ==== Sys2Proof/Machine/StateJobs.lean ====
section
/-! DEFINITION. The state of rings, descriptors, plans, jobs and slices (chapters 08 and 11). -/

namespace Sys2Proof.Machine

/-- A schema entry (Table 11-4), its name and string default copied out of the string area. -/
structure SchEntry where
  ty : Nat
  param : Nat
  nullable : Bool
  hasDefault : Bool
  level : Nat
  parent : Nat
  name : Bytes
  listSize : Nat
  dflt : Nat
  dfltBytes : Bytes
  deriving DecidableEq, Repr, Inhabited

/-- A schema: its entries in depth-first pre-order (R231). -/
abbrev Schema := List SchEntry

/-- A stage operand (Table 11-8). -/
inductive Operand where
  | none
  | stage (outno ref first count : Nat)
  | bind (slot first count : Nat)
  | imm (value : Nat)
  | param (off len : Nat)
  | vat (schema : Nat)
  deriving DecidableEq, Repr, Inhabited

/-- A stage record (Table 11-6). -/
structure Stage where
  cls : Nat
  op : Nat
  flags : Nat
  prio : Nat
  codeBind : Nat
  pOff : Nat
  pLen : Nat
  leaveTicks : Nat
  scratchKib : Nat
  ins : List Operand
  outs : List Operand
  deriving DecidableEq, Repr, Inhabited

/-- A binding declaration (R235). -/
structure BDecl where
  kind : Nat
  dir : Nat
  schema : Nat
  deriving DecidableEq, Repr, Inhabited

/-- A binding entry (R240). -/
structure Bind where
  kind : Nat
  herd : Bool
  aux : Nat
  addr : Nat
  len : Nat
  aux2 : Nat
  /-- The copy of the column directory of a COLUMNS binding (R244). -/
  dir : Bytes := []
  /-- The request body that a serving job's REQ_SLOT binds; whether it is a serving job's RESP_SLOT (R469). -/
  body : Option Bytes := none
  resp : Bool := false
  deriving DecidableEq, Repr, Inhabited

/-- A plan image as the runtime's copy holds it (R234, R244). -/
structure Plan where
  addr : Nat
  gen : Nat
  planId : Nat
  decls : List BDecl
  stages : List Stage
  params : Bytes
  deriving DecidableEq, Repr, Inhabited

/-- Where a job comes from: a descriptor, a served request, or a part of another node's job (R419, R465). -/
inductive JobFrom where
  | ring (desc : Nat)
  | serve (req : Nat)
  | part (node job : Nat)
  deriving DecidableEq, Repr, Inhabited

/-- What a stage of a job keeps between its slices: its phase, the units of that phase consumed, rows it holds, numbers by
key, bytes. Each engine's file says what it keeps where. -/
structure Eng where
  phase : Nat := 0
  consumed : Nat := 0
  rows : List (List Val) := []
  held : List (List Val) := []
  tags : List Nat := []
  nums : Table Nat := []
  texts : Table Bytes := []
  deriving DecidableEq, Repr, Inhabited

/-- The state of one aggregate of one pane or session (Table 17-5). Float sums are exact, in units of 2^-1074. -/
inductive AggSt where
  | count (n : Nat)
  | sumI (n : Nat) (sum : Int)
  | sumF (n : Nat) (sum : Int) (nan pinf ninf : Bool)
  | ext (v : Val)
  | var (n mean m2 : Nat)
  | pick (t arrival : Nat) (v : Val)
  | hll (regs : Table Nat)
  | topk (cs : List (Val × Nat × Nat))
  | quant (cs : Table Nat)
  deriving DecidableEq, Repr, Inhabited

/-- A group's state in a pane, or in a session (R347). -/
structure Pane where
  /-- The pane's place in the grid; 0 for a session. -/
  idx : Nat
  start : Nat
  end_ : Nat
  group : List Val
  aggs : List AggSt
  deriving DecidableEq, Repr, Inhabited

/-- A revision number: window, group, the REV of its last emission. -/
structure WinRev where
  win : Nat
  group : List Val
  rev : Nat
  deriving DecidableEq, Repr

/-- A window store (R358), or the private store of an AGG stage (R345). -/
structure WinStore where
  tier : Nat := 2
  quota : Nat := 0
  /-- The parameter bytes it is bound to, and the input columns of its first FEED. -/
  params : Option Bytes := none
  cols : Option (List (List SchEntry)) := none
  panes : List Pane := []
  revs : List WinRev := []
  queue : List (List Val) := []
  /-- The windows of the queued rows with their REV, in step with them, as the twin's image has them (R450). -/
  queued : List (Nat × Pane) := []
  /-- Rows that have left the head of the queue. -/
  gone : Nat := 0
  /-- Events applied since OPEN. -/
  arrivals : Nat := 0
  deriving DecidableEq, Repr, Inhabited

/-- A build partition of a join (R336): its bytes, the BUILD extents and the Cream MiB it takes, the Skim MiB once it is
spilled. -/
structure JoinPart where
  bytes : Nat := 0
  vat : Nat := 0
  cream : Nat := 0
  skim : Nat := 0
  spilled : Bool := false
  deriving DecidableEq, Repr

/-- Probe rows probed ahead (R341): the first and their number, the generation, the RUNAHEAD extents. -/
structure Ahead where
  first : Nat
  count : Nat
  gen : Nat
  extents : Nat
  deriving DecidableEq, Repr

/-- A Press stage of a job on this node (R329 to R341). -/
structure Join where
  /-- The page of the instance that holds its partitions. -/
  page : Nat := 0
  /-- The build generation. -/
  gen : Nat := 1
  /-- Build rows by origin node, in their order there. -/
  build : Table (List (List Val)) := []
  parts : Table JoinPart := []
  /-- Probe rows that wait: those of spilled partitions, those that came before probing began. -/
  held : List (Nat × List Val) := []
  early : List (Nat × List Val) := []
  /-- Output rows that wait for the output of earlier probe rows (STRICT), and the next probe row to hand on. -/
  results : Table (List (List Val)) := []
  next : Nat := 0
  /-- Rows of this node's own sides have all been read. -/
  builtOwn : Bool := false
  probedOwn : Bool := false
  /-- Partitions still to reload, ascending. -/
  reloads : List Nat := []
  /-- Rows received by origin, rows sent by destination, marks received. -/
  gotBuild : Table Nat := []
  gotProbe : Table Nat := []
  sentBuild : Table Nat := []
  sentProbe : Table Nat := []
  buildMarks : List Nat := []
  probeMarks : List Nat := []
  ahead : Option Ahead := none
  deriving DecidableEq, Repr

/-- The end of a part of a multi-node job, as PART_END reports it (R419). -/
structure PartResult where
  status : Nat
  committed : Bool
  multi : Bool
  stage : Nat
  detail : Nat
  deriving DecidableEq, Repr

/-- A batch of Crate that waits for its release: its page, its ready word, empty where it has none. -/
structure ReadyWord where
  page : Nat
  herd : Bool
  addr : Nat
  bytes : Bytes
  deriving DecidableEq, Repr

/-- A job in flight: its plan and bindings, the output rows produced so far by stage and output, the stages that have
ended, and how it stands (R155, R168). -/
structure Job where
  origin : JobFrom
  /-- Herd job identifier (Table 20-9). -/
  herdId : Nat
  fn : Nat
  ring : Nat
  tag : Nat
  prio : Nat
  sliceUs : Nat
  leaveTicks : Nat
  herd : Bool
  plan : Plan
  binds : List Bind
  flow : Option (Nat × Nat) := none
  /-- Tide at the fetch (R388). -/
  tide : Nat := 0
  /-- First failing status, stage and detail; 0 while none. -/
  status : Nat := 0
  stage : Nat := 0xFFFF
  detail : Nat := 0
  multi : Bool := false
  /-- A status that its owner names as committing (INTAKE_DAMAGE, DEFAULT_ROWS), or 0. -/
  note : Nat := 0
  /-- Rows of each output, by stage × 8 + output. -/
  outs : Table (List (List Val)) := []
  /-- Bytes of each bound BYTES output, by stage × 8 + output. -/
  bytesOut : Table Bytes := []
  eng : Table Eng := []
  /-- Press stages; private stores of AGG stages. -/
  joins : Table Join := []
  stores : Table WinStore := []
  /-- Stages that have ended. -/
  ended : List Nat := []
  /-- SLICE extents that outputs of a stage hold for its consumers (R86). -/
  handed : Table Nat := []
  /-- Bytes written to host-bound outputs. -/
  hostBytes : Nat := 0
  /-- A host-bound write was issued before a loss (R133). -/
  issued : Bool := false
  /-- A host-bound write could not be parked (R135). -/
  parkFull : Bool := false
  /-- Complete batches not yet released, in order (R375). -/
  ready : List ReadyWord := []
  /-- Its output writes were issued, so that it ends once they are done (R155). -/
  written : Bool := false
  /-- Cellar drives and namespaces written and not yet flushed, as drive × 256 + namespace (R97). -/
  dirty : List Nat := []
  /-- Other nodes that run a part, and those that have ended (R419). -/
  targets : List Nat := []
  parts : Table PartResult := []
  deriving DecidableEq, Repr, Inhabited

/-- Where a slice stands. -/
inductive SliceState where
  | queued
  | waitExtents
  | waitLeave
  | waitHost
  | running
  deriving DecidableEq, Repr

/-- A slice (R168): its job, stage, the page of its instance, the first unit and the units it covers. -/
structure Slice where
  job : Nat
  stage : Nat
  page : Nat
  prio : Nat
  first : Nat
  count : Nat := 0
  /-- SLICE extents it holds, and how many it wants while it waits (R86). -/
  extents : Nat := 0
  wants : Nat := 0
  state : SliceState := .queued
  startedAt : Nat := 0
  /-- Units of it that its bound leaves undone (R170). -/
  left : Nat := 0
  /-- It has run its work and waits for its end. -/
  ran : Bool := false
  deriving DecidableEq, Repr

/-- Where a descriptor stands: fetched, started, ended but its completion not yet written. -/
inductive DescState where
  | fetched
  | started
  /-- A SIGNAL whose write to another node is not yet answered. -/
  | acting
  | ended
  deriving DecidableEq, Repr

/-- A fetched descriptor (R152), until its completion entry is written. -/
structure Desc where
  fn : Nat
  ring : Nat
  seq : Nat
  cq : Nat
  raw : Bytes
  state : DescState := .fetched
  fetchedAt : Nat := 0
  startedAt : Nat := 0
  status : Nat := 0
  stage : Nat := 0xFFFF
  detail : Nat := 0
  tombstone : Bool := false
  multi : Bool := false
  /-- Tide when the completion was produced. -/
  tide : Nat := 0
  endedAt : Nat := 0
  /-- The twin cut that must be acknowledged before the completion is written (R452). -/
  heldCut : Option Nat := none
  heldNo : Nat := 0
  /-- Waits for its ordered flow to release it (R155). -/
  heldFlow : Bool := false
  unordered : Bool := false
  sliceUs : Nat := 64
  prio : Nat := 32
  /-- The ring was removed by a CLAIM: the completion is parked under the old pair (R141). -/
  old : Bool := false
  /-- Descriptors covered by a FENCE that have ended with an error so far. -/
  errors : Nat := 0
  /-- The descriptor before it on the ring carries CHAIN, so it is a later member of a chain (R165). -/
  member : Bool := false
  /-- Its own CHAIN bit, where its encoding is valid. -/
  chain : Bool := false
  /-- The member before it has ended. -/
  predDone : Bool := false
  /-- A member before it failed: it is skipped (R167). -/
  skip : Bool := false
  /-- Its copy was discarded by SYNC_CHAIN and must be fetched again (R166). -/
  stale : Bool := false
  /-- DESC_RESERVED or DESC_DENIED, found as it was decoded (R154), or 0. -/
  bad : Nat := 0
  /-- A host-bound write of its job was issued before a loss (R133). -/
  split : Bool := false
  /-- The flow item it is, as (flow, sequence). -/
  flow : Option (Nat × Nat) := none
  /-- A RUN that waits for a Cellar drive which is still initialising (chapter 05, "At start-up"). -/
  waitDrive : Bool := false
  deriving DecidableEq, Repr

/-- A submission ring (R146 to R150). -/
structure Sq where
  enabled : Bool := false
  head : Nat := 0
  tail : Nat := 0
  seq : Nat := 0
  faulted : Bool := false
  /-- A descriptor read is outstanding; the descriptor it reads again, where it is one (R166). -/
  reading : Bool := false
  again : Option Nat := none
  /-- Descriptors that ended with an error since the ring was enabled. -/
  errs : Nat := 0
  /-- The last fetched descriptor carries CHAIN, has ended, failed or was skipped. -/
  lastChain : Bool := false
  lastDone : Bool := false
  lastFailed : Bool := false
  /-- Members fetched of the chain at the ring's end, and how many of them have ended. -/
  chainLen : Nat := 0
  chainEnded : Nat := 0
  /-- Fetched and not yet completed. -/
  inflight : Nat := 0
  /-- MiB of Skim that back it in ring storage while it is enabled (R147). -/
  mib : Nat := 0
  deriving DecidableEq, Repr

/-- A completion ring (R149, R161 to R163). -/
structure Cq where
  enabled : Bool := false
  head : Nat := 0
  tail : Nat := 0
  phase : Bool := true
  full : Bool := false
  mib : Nat := 0
  deriving DecidableEq, Repr

/-- Rings, descriptors, jobs and slices. -/
structure Work where
  sqs : Table Sq := []
  cqs : Table Cq := []
  /-- Fetched descriptors by fetch order. -/
  descs : Table Desc := []
  nextDesc : Nat := 0
  jobs : Table Job := []
  nextJob : Nat := 0
  slices : Table Slice := []
  nextSlice : Nat := 0
  /-- Bytes that reads of host memory, other nodes and drives brought in for their reader, by `farKey`, and the ranges
  covered, first key and length. -/
  staged : Memory := []
  stagedRanges : List (Nat × Nat) := []
  /-- The ring served last in the round robin (R150), as function × 64 + ring. -/
  lastRing : Nat := 0
  deriving DecidableEq, Repr

end Sys2Proof.Machine
end

