-- ==== Sys2Proof/Machine/Hashing.lean ====
section
/-! DEFINITION. Column types, the order of values, OM64, key hashes, CRC-32C, range reduction (R224, R295, R301 to R304). -/

namespace Sys2Proof.Machine

/-! Types (Table 11-1). -/

/-- Bytes of an element of a fixed-width type; 0 for BOOL and for types without a width. -/
def tyWidth (ty : Nat) : Nat :=
  if ty = 0x01 ∨ ty = 0x05 then 1
  else if ty = 0x02 ∨ ty = 0x06 ∨ ty = 0x09 ∨ ty = 0x0A then 2
  else if ty = 0x03 ∨ ty = 0x07 ∨ ty = 0x0B ∨ ty = 0x0E then 4
  else if ty = 0x04 ∨ ty = 0x08 ∨ ty = 0x0C ∨ ty = 0x0F then 8
  else 0

def tyBool (ty : Nat) : Bool := ty == 0x0D
def tySigned (ty : Nat) : Bool := (decide (1 ≤ ty) && decide (ty ≤ 4)) || ty == 0x0E || ty == 0x0F
def tyUnsigned (ty : Nat) : Bool := decide (5 ≤ ty) && decide (ty ≤ 8)
def tyInt (ty : Nat) : Bool := decide (1 ≤ ty) && decide (ty ≤ 8)
def tyFloat (ty : Nat) : Bool := decide (9 ≤ ty) && decide (ty ≤ 0x0C)
def tyStr (ty : Nat) : Bool := decide (0x10 ≤ ty) && decide (ty ≤ 0x13)
def tyDict (ty : Nat) : Bool := ty == 0x14
def tyVarList (ty : Nat) : Bool := ty == 0x15 || ty == 0x16
def tyFixList (ty : Nat) : Bool := ty == 0x17
def tyList (ty : Nat) : Bool := tyVarList ty || tyFixList ty
/-- Fixed-width types, BOOL among them. -/
def tyFixed (ty : Nat) : Bool := decide (1 ≤ ty) && decide (ty ≤ 0x0F)
/-- Types whose offsets are 64 bits wide. -/
def tyLarge (ty : Nat) : Bool := ty == 0x11 || ty == 0x13 || ty == 0x16
def tyOffsets (ty : Nat) : Bool := tyStr ty || tyVarList ty
/-- Bits of an element's encoding. -/
def tyBits (ty : Nat) : Nat := if tyBool ty then 1 else 8 * tyWidth ty
/-- Bytes of an element as bytes() has it: one byte for BOOL (R302). -/
def tyBytes (ty : Nat) : Nat := if tyBool ty then 1 else tyWidth ty

/-! Float encodings. -/

/-- Exponent bits and mantissa bits of a float type. -/
def fltExp (ty : Nat) : Nat := if ty = 0x09 then 5 else if ty = 0x0C then 11 else 8
def fltMan (ty : Nat) : Nat := if ty = 0x09 then 10 else if ty = 0x0A then 7 else if ty = 0x0B then 23 else 52

def fltSign (ty v : Nat) : Bool := bitAt v (fltExp ty + fltMan ty)
def fltMag (ty v : Nat) : Nat := v % 2 ^ (fltExp ty + fltMan ty)
def fltInfMag (ty : Nat) : Nat := (2 ^ fltExp ty - 1) * 2 ^ fltMan ty
def fltNan (ty v : Nat) : Bool := decide (fltInfMag ty < fltMag ty v)
def fltInf (ty v : Nat) : Bool := decide (fltMag ty v = fltInfMag ty)
/-- The quiet NaN of canonical form (R302). -/
def fltQuiet (ty : Nat) : Nat := fltInfMag ty + 2 ^ (fltMan ty - 1)

/-- The canonical form of a float: +0.0 for −0.0, the quiet NaN for every NaN (R302). -/
def fltCanon (ty v : Nat) : Nat := if fltNan ty v then fltQuiet ty else if fltMag ty v = 0 then 0 else v

/-- The bits of a fixed-width value in canonical form. -/
def canonBits (ty v : Nat) : Nat := if tyFloat ty then fltCanon ty v else v

/-! The order of values (R295). -/

/-- A number whose order is the order of the values of a fixed-width type. -/
def orderKey (ty v : Nat) : Int :=
  if tyFloat ty then
    if fltNan ty v then (2 ^ 64 : Nat)
    else if fltSign ty v then - (fltMag ty v : Int) else (fltMag ty v : Int)
  else if tySigned ty then toSigned (8 * tyWidth ty) v
  else v

/-- Unsigned byte order, a proper prefix below the longer string. -/
def bytesLt : Bytes → Bytes → Bool
  | [], [] => false
  | [], _ :: _ => true
  | _ :: _, [] => false
  | a :: as, b :: bs => if a.toNat < b.toNat then true else if b.toNat < a.toNat then false else bytesLt as bs

/-- Whether one non-null value is below another of its type. -/
def valLt (ty : Nat) : Val → Val → Bool
  | .num a, .num b => decide (orderKey ty a < orderKey ty b)
  | .str a, .str b => bytesLt a b
  | _, _ => false

/-- Whether two non-null values of a type compare equal. -/
def valEq (ty : Nat) : Val → Val → Bool
  | .num a, .num b => decide (orderKey ty a = orderKey ty b)
  | .str a, .str b => decide (a = b)
  | _, _ => false

/-! OM64 (R301). -/

def omG : Nat := 0x9E3779B97F4A7C15

def omMix (z : Nat) : Nat :=
  let z := (z ^^^ (z / 2 ^ 30)) * 0xBF58476D1CE4E5B9 % 2 ^ 64
  let z := (z ^^^ (z / 2 ^ 27)) * 0x94D049BB133111EB % 2 ^ 64
  z ^^^ (z / 2 ^ 31)

/-- The lanes of 8 bytes of a string, over `fuel` lanes, folded into the hash. -/
def omLanes : Nat → Bytes → Nat → Nat
  | 0, _, h => h
  | n + 1, b, h => if b.isEmpty then h else omLanes n (b.drop 8) (omMix ((h + omG) % 2 ^ 64) ^^^ leNat (b.take 8))

def om64 (b : Bytes) (seed : Nat) : Nat :=
  omMix (((omLanes (b.length / 8 + 1) b (seed % 2 ^ 64) ^^^ b.length) + omG) % 2 ^ 64)

/-- bytes() of a non-null value (R302). -/
def valBytes (ty : Nat) : Val → Bytes
  | .num v => leBytes (tyBytes ty) (canonBits ty v)
  | .str b => b
  | _ => []

/-- One key column's step of the key hash. -/
def keyStep (h : Nat) (ty : Nat) (v : Val) : Nat :=
  match v with
  | .null => omMix (((h ^^^ 0xFFFFFFFFFFFFFFFF) + omG) % 2 ^ 64)
  | v => om64 (valBytes ty v) h

/-- The key hash of a row's key values with their types (R302). -/
def keyhash (ks : List (Nat × Val)) (seed : Nat) : Nat := ks.foldl (fun h k => keyStep h k.1 k.2) (seed % 2 ^ 64)

/-! CRC-32C and range reduction (R303, R304). -/

def crcBit (c : Nat) : Nat := if c % 2 = 1 then c / 2 ^^^ 0x82F63B78 else c / 2

def crcByte (c : Nat) (b : Byte) : Nat :=
  let x := c ^^^ b.toNat
  crcBit (crcBit (crcBit (crcBit (crcBit (crcBit (crcBit (crcBit x)))))))

def crc32c (b : Bytes) : Nat := b.foldl crcByte 0xFFFFFFFF ^^^ 0xFFFFFFFF

def reduce (h n : Nat) : Nat := h * n / 2 ^ 64

end Sys2Proof.Machine
end

