-- ==== Sys2Proof/Config.lean ====
section
/-! DEFINITION. What the spec leaves open or takes from other standards: constants without a body, so that no proof can
see what they are. -/

namespace Sys2Proof.Config

/-- A value the spec leaves open, one for each count of the model's counter (`State.free`). -/
opaque freeWord : Nat → Word

/-- A number the spec leaves open (a duration, a choice), one for each count of the model's counter. -/
opaque freeNat : Nat → Nat

/-- Bytes the spec leaves open (an undefined payload, undefined contents): count of the counter, then length. -/
opaque freeBytes : Nat → Nat → Bytes

/-- SHA-384 of a byte string (FIPS 180-4, named by chapter 23; the spec does not restate it). -/
opaque sha384 : Bytes → Bytes

/-- Whether an ECDSA P-384 signature verifies: public key, message digest, signature (R485, R490). -/
opaque ecdsaVerify : Bytes → Bytes → Bytes → Bool

/-- Signing with the alias key: the key's seed, then the bytes that are signed (R486, R487). -/
opaque aliasSign : Bytes → Bytes → Bytes

/-- The ECDSA P-384 alias key pair that Rolar derives from its secret and the two signed headers (R486). -/
opaque aliasKey : Bytes → Bytes → Bytes

/-- Whether 96 bytes are a point of P-384 (Table 23-7, BAD_KEY). -/
opaque onP384 : Bytes → Bool

/-- The Mehrog firmware public key of a slot, whose SHA-384 the ROM holds (R490). -/
opaque firmwareKey : Nat → Bytes

/-- The alias public key at the end of a partner's certificate chain that verifies to the Mehrog root; none for any other
bytes (R413, R485). -/
opaque chainKey : Bytes → Option Bytes

/-- An ephemeral P-384 public key as 97 bytes (R423), one for each count of the model's counter. -/
opaque ephemeral : Nat → Bytes

/-- The module serial number, 16 bytes (R407). -/
opaque serial : Bytes

/-- The fabric protocol level of the running firmware (R407). -/
opaque protocolLevel : Nat

/-- Whether this end is AUTH_CAPABLE (R407, R413). -/
opaque authCapable : Bool

/-- The Rolar ROM (R488, measurement 1). -/
opaque rom : Bytes

/-- The certificate chain of slot 0, at most 4,096 bytes (R485). -/
opaque certChain : Bytes → Bytes

/-- The content of a Zstandard frame (RFC 8878, named by R274; the spec does not restate it): the dictionary or nothing,
then the bytes after the frame's magic number. -/
opaque zstd : Bytes → Bytes → Unpacked

/-- An Apache Parquet or Arrow IPC file (R255, R256; the spec names the parts and does not restate the formats): the
operator, its flags, whether its pages are already decompressed, the file. -/
opaque decodeFile : Nat → Nat → Bool → Bytes → FileParts

/-- The page stream of such a file (R289): the format, RATIO, OUT_LIMIT, the file. -/
opaque pageStream : Nat → Nat → Nat → Bytes → Pages

/-- The match that the encoder of the present firmware chooses: the format, the segment, a position in it; length and
distance, 0 for a literal (R285: the choice may change between firmware releases). -/
opaque lzMatch : Nat → Bytes → Nat → Nat × Nat

/-- The code lengths that the encoder chooses for a dynamic block: the segment and the block's place (R282, R285). -/
opaque dynLens : Bytes → Nat → List Nat

/-- A dynamic DEFLATE block as the encoder writes it, without its three header bits (R286). -/
opaque dynDeflate : Bytes → Nat → List Bool

/-- Which of the values left is the next entry of a dictionary that the device lays out (R224 leaves the order open): its place,
counted modulo their number. -/
opaque dictPick : List Val → Nat

/-- The module's draw averaged over 10 ms, in units of 0.1 W, at a chronometer reading: no command brings it (log 47). -/
opaque draw : Nat → Nat

/-- The quantised element of a value whose row's scale rounds to zero, which R390 does not state: the value, the greatest
absolute value. -/
opaque tinyQuant : Nat → Nat → Nat

end Sys2Proof.Config
end

