-- ==== Sys2Proof/Machine/Field.lean ====
section
/-! DEFINITION. What a field of a register is: its place, its access code and the resets that clear it (R6, R59 to R67). -/

namespace Sys2Proof.Reg

/-- The access codes of R6. -/
inductive Access where
  | ro | rw | rwl | rw1c | wo | w1s
  deriving DecidableEq, Repr

/-- The reset kinds of R50: cold, warm, herd, function-level, block. -/
inductive Kind where
  | cold | warm | herd | func | block
  deriving DecidableEq, Repr

/-- The letters of a Reset entry. `live` stands for a dash: the field shows present state. -/
inductive Resets where
  | live | c | cw | cwh | cwf | cwhf | cwhb | cwhfb
  deriving DecidableEq, Repr

/-- Whether a reset of the kind clears a field with these letters. A `live` field that the model stores is cleared by
cold and warm reset. DESIGN CHOICE (log 3). -/
def Resets.clears : Resets → Kind → Bool
  | .c, .cold => true
  | .c, _ => false
  | .live, .cold | .live, .warm => true
  | .live, _ => false
  | .cw, .cold | .cw, .warm => true
  | .cw, _ => false
  | .cwh, .func | .cwh, .block => false
  | .cwh, _ => true
  | .cwf, .herd | .cwf, .block => false
  | .cwf, _ => true
  | .cwhf, .block => false
  | .cwhf, _ => true
  | .cwhb, .func => false
  | .cwhb, _ => true
  | .cwhfb, _ => true

/-- How a field takes a written value: always; only within bounds; within bounds, else the write is ignored and a
sticky bit sets; or as its own rule says. -/
inductive Rule where
  | any
  | within (lo hi : Nat)
  | withinElse (lo hi bit : Nat)
  | special
  deriving DecidableEq, Repr

/-- One field: the first page of its block, how many pages of the block hold it, the offset of its register, its bits,
access, reset value and letters, how many registers of its kind there are and their spacing, and its write rule. -/
structure Field where
  page : Nat
  pages : Nat
  off : Nat
  hi : Nat
  lo : Nat
  acc : Access
  rst : Nat
  by_ : Resets
  cnt : Nat
  stride : Nat
  rule : Rule
  deriving DecidableEq, Repr

/-- Whether the field lies in the register at `off` of a page that is `k` pages above its block's first. -/
def Field.lies (f : Field) (k off : Nat) : Bool :=
  decide (k < f.pages) && decide (f.off ≤ off) && decide ((off - f.off) % f.stride = 0)
    && decide ((off - f.off) / f.stride < f.cnt)

/-- The field's bits as a mask. -/
def Field.mask (f : Field) : Word := fieldMask f.hi f.lo

/-- The greatest value the field holds. -/
def Field.top (f : Field) : Nat := 2 ^ (f.hi + 1 - f.lo) - 1

/-- The field at its `i`-th register (an array of registers). -/
def Field.at (f : Field) (i : Nat) : Field := { f with off := f.off + i * f.stride }

/-- The field on the page `i` pages above its block's first. -/
def Field.on (f : Field) (page : Nat) : Field := { f with page := page }

end Sys2Proof.Reg
end

