-- ==== Sys2Proof/Machine/FieldsEngine.lean ====
section
/-! DEFINITION. The register fields of the engine, fabric, herd, serving, Rolar and fault pages, field by field from the tables of the spec. -/

namespace Sys2Proof.Reg

/-! Fields of the INTAKE registers, from Table 12-11 of the spec. -/

def INTAKE.BYTES_IN : Field := ⟨0x070, 16, 0x060, 63, 0, .ro, 0, .cw, 1, 8, .any⟩
def INTAKE.ROWS_OUT : Field := ⟨0x070, 16, 0x068, 63, 0, .ro, 0, .cw, 1, 8, .any⟩
def INTAKE.DAMAGE_EVENTS : Field := ⟨0x070, 16, 0x070, 63, 0, .ro, 0, .cw, 1, 8, .any⟩
def INTAKE.CONCEALED_ROWS : Field := ⟨0x070, 16, 0x078, 63, 0, .ro, 0, .cw, 1, 8, .any⟩
def INTAKE.SLICE_SPLITS : Field := ⟨0x070, 16, 0x080, 63, 0, .ro, 0, .cw, 1, 8, .any⟩
def INTAKE.NULL_DEFAULTED : Field := ⟨0x070, 16, 0x088, 63, 0, .ro, 0, .cw, 1, 8, .any⟩
def INTAKE.DLOG_DROPPED : Field := ⟨0x070, 1, 0x090, 63, 0, .ro, 0, .cw, 1, 8, .any⟩
def INTAKE.DLOG_CROSSINGS : Field := ⟨0x070, 1, 0x098, 63, 0, .ro, 0, .cw, 1, 8, .any⟩
def INTAKE.DLOG_BASE : Field := ⟨0x070, 1, 0x100, 47, 0, .rw, 0, .cwf, 1, 8, .any⟩
def INTAKE.LOG_DEPTH : Field := ⟨0x070, 1, 0x108, 4, 0, .rw, 4, .cwf, 1, 8, .any⟩
def INTAKE.IRQ : Field := ⟨0x070, 1, 0x108, 8, 8, .rw, 0, .cwf, 1, 8, .any⟩
def INTAKE.ENABLE : Field := ⟨0x070, 1, 0x110, 0, 0, .rw, 0, .cwf, 1, 8, .special⟩
def INTAKE.DLOG_HEAD : Field := ⟨0x070, 1, 0x118, 15, 0, .rw, 0, .cwf, 1, 8, .special⟩
def INTAKE.TAIL : Field := ⟨0x070, 1, 0x120, 15, 0, .ro, 0, .live, 1, 8, .any⟩
def INTAKE.PHASE : Field := ⟨0x070, 1, 0x120, 32, 32, .ro, 0, .live, 1, 8, .any⟩
def INTAKE.ACTIVE : Field := ⟨0x070, 1, 0x120, 33, 33, .ro, 0, .live, 1, 8, .any⟩
def INTAKE.FULL : Field := ⟨0x070, 1, 0x120, 34, 34, .ro, 0, .live, 1, 8, .any⟩
def INTAKE.MARK : Field := ⟨0x070, 1, 0x128, 15, 0, .rw, 49152, .cwf, 1, 8, .any⟩
def INTAKE.HYST : Field := ⟨0x070, 1, 0x128, 47, 32, .rw, 4096, .cwf, 1, 8, .any⟩
def INTAKE.LEVEL : Field := ⟨0x070, 1, 0x130, 0, 0, .ro, 0, .live, 1, 8, .any⟩
def INTAKE.CROSSED : Field := ⟨0x070, 1, 0x130, 1, 1, .rw1c, 0, .cwf, 1, 8, .any⟩
def INTAKE.ARMED : Field := ⟨0x070, 1, 0x130, 2, 2, .ro, 0, .live, 1, 8, .any⟩
def INTAKE.NEXT_SEQ : Field := ⟨0x070, 1, 0x138, 31, 0, .ro, 0, .live, 1, 8, .any⟩

/-- Every field of the INTAKE tables. -/
def INTAKE.fields : List Field :=
  [INTAKE.BYTES_IN, INTAKE.ROWS_OUT, INTAKE.DAMAGE_EVENTS, INTAKE.CONCEALED_ROWS, INTAKE.SLICE_SPLITS, INTAKE.NULL_DEFAULTED, INTAKE.DLOG_DROPPED, INTAKE.DLOG_CROSSINGS] ++
  [INTAKE.DLOG_BASE, INTAKE.LOG_DEPTH, INTAKE.IRQ, INTAKE.ENABLE, INTAKE.DLOG_HEAD, INTAKE.TAIL, INTAKE.PHASE, INTAKE.ACTIVE] ++
  [INTAKE.FULL, INTAKE.MARK, INTAKE.HYST, INTAKE.LEVEL, INTAKE.CROSSED, INTAKE.ARMED, INTAKE.NEXT_SEQ]

/-! Fields of the CHURN registers, from Table 13-8 of the spec. -/

def CHURN.BYTES_IN : Field := ⟨0x080, 8, 0x060, 63, 0, .ro, 0, .cw, 1, 8, .any⟩
def CHURN.BYTES_OUT : Field := ⟨0x080, 8, 0x068, 63, 0, .ro, 0, .cw, 1, 8, .any⟩
def CHURN.UNITS : Field := ⟨0x080, 8, 0x070, 63, 0, .ro, 0, .cw, 1, 8, .any⟩
def CHURN.RAW_BLOCKS : Field := ⟨0x080, 8, 0x078, 63, 0, .ro, 0, .cw, 1, 8, .any⟩
def CHURN.DATA_ERRORS : Field := ⟨0x080, 8, 0x080, 63, 0, .ro, 0, .cw, 1, 8, .any⟩
def CHURN.EXPANSIONS : Field := ⟨0x080, 8, 0x088, 63, 0, .ro, 0, .cw, 1, 8, .any⟩
def CHURN.SLICE_SPLITS : Field := ⟨0x080, 8, 0x090, 63, 0, .ro, 0, .cw, 1, 8, .any⟩
def CHURN.RATIO_DEF : Field := ⟨0x080, 1, 0x100, 15, 0, .rwl, 1024, .cw, 1, 8, (.within 1 65535)⟩
def CHURN.SLOT : Field := ⟨0x080, 1, 0x108, 5, 0, .rw, 0, .cwh, 1, 8, .any⟩
def CHURN.OP : Field := ⟨0x080, 1, 0x108, 10, 8, .wo, 0, .cwhfb, 1, 8, .any⟩
def CHURN.DICT_ADDR : Field := ⟨0x080, 1, 0x110, 47, 0, .rw, 0, .cwh, 1, 8, .any⟩
def CHURN.DICT_LEN : Field := ⟨0x080, 1, 0x118, 20, 0, .rw, 0, .cwh, 1, 8, .any⟩
def CHURN.BUSY : Field := ⟨0x080, 1, 0x120, 0, 0, .ro, 0, .live, 1, 8, .any⟩
def CHURN.DONE : Field := ⟨0x080, 1, 0x120, 1, 1, .ro, 0, .live, 1, 8, .any⟩
def CHURN.RESULT : Field := ⟨0x080, 1, 0x120, 11, 8, .ro, 0, .live, 1, 8, .any⟩
def CHURN.REFUSED : Field := ⟨0x080, 1, 0x120, 16, 16, .rw1c, 0, .c, 1, 8, .any⟩
def CHURN.DICT_ID : Field := ⟨0x080, 1, 0x120, 63, 32, .ro, 0, .live, 1, 8, .any⟩
def CHURN.DICT_USED : Field := ⟨0x080, 1, 0x128, 63, 0, .ro, 0, .live, 1, 8, .any⟩

/-- Every field of the CHURN tables. -/
def CHURN.fields : List Field :=
  [CHURN.BYTES_IN, CHURN.BYTES_OUT, CHURN.UNITS, CHURN.RAW_BLOCKS, CHURN.DATA_ERRORS, CHURN.EXPANSIONS, CHURN.SLICE_SPLITS, CHURN.RATIO_DEF] ++
  [CHURN.SLOT, CHURN.OP, CHURN.DICT_ADDR, CHURN.DICT_LEN, CHURN.BUSY, CHURN.DONE, CHURN.RESULT, CHURN.REFUSED] ++
  [CHURN.DICT_ID, CHURN.DICT_USED]

/-! Fields of the SEPARATOR registers, from Table 14-11 of the spec. -/

def SEPARATOR.ROWS_IN : Field := ⟨0x088, 16, 0x060, 63, 0, .ro, 0, .cw, 1, 8, .any⟩
def SEPARATOR.ROWS_KEPT : Field := ⟨0x088, 16, 0x068, 63, 0, .ro, 0, .cw, 1, 8, .any⟩
def SEPARATOR.ROWS_UNKNOWN : Field := ⟨0x088, 16, 0x070, 63, 0, .ro, 0, .cw, 1, 8, .any⟩
def SEPARATOR.SEARCHES : Field := ⟨0x088, 16, 0x078, 63, 0, .ro, 0, .cw, 1, 8, .any⟩
def SEPARATOR.SLICE_SPLITS : Field := ⟨0x088, 16, 0x080, 63, 0, .ro, 0, .cw, 1, 8, .any⟩

/-- Every field of the SEPARATOR tables. -/
def SEPARATOR.fields : List Field :=
  [SEPARATOR.ROWS_IN, SEPARATOR.ROWS_KEPT, SEPARATOR.ROWS_UNKNOWN, SEPARATOR.SEARCHES, SEPARATOR.SLICE_SPLITS]

/-! Fields of the HASH registers, from Table 14-12 of the spec. -/

def HASH.ROWS_HASHED : Field := ⟨0x098, 8, 0x060, 63, 0, .ro, 0, .cw, 1, 8, .any⟩
def HASH.BYTES_HASHED : Field := ⟨0x098, 8, 0x068, 63, 0, .ro, 0, .cw, 1, 8, .any⟩
def HASH.SLICE_SPLITS : Field := ⟨0x098, 8, 0x070, 63, 0, .ro, 0, .cw, 1, 8, .any⟩
def HASH.PROBE_LANE : Field := ⟨0x098, 1, 0x100, 63, 0, .rw, 0, .cw, 1, 8, .any⟩
def HASH.PROBE_SEED : Field := ⟨0x098, 1, 0x108, 63, 0, .rw, 0, .cw, 1, 8, .any⟩
def HASH.PROBE_LEN : Field := ⟨0x098, 1, 0x110, 3, 0, .rw, 0, .cw, 1, 8, (.within 0 8)⟩
def HASH.PROBE_OM64 : Field := ⟨0x098, 1, 0x118, 63, 0, .ro, 0, .live, 1, 8, .any⟩
def HASH.PROBE_CRC : Field := ⟨0x098, 1, 0x120, 31, 0, .ro, 0, .live, 1, 8, .any⟩

/-- Every field of the HASH tables. -/
def HASH.fields : List Field :=
  [HASH.ROWS_HASHED, HASH.BYTES_HASHED, HASH.SLICE_SPLITS, HASH.PROBE_LANE, HASH.PROBE_SEED, HASH.PROBE_LEN, HASH.PROBE_OM64, HASH.PROBE_CRC]

/-! Fields of the STRAINER registers, from Table 15-5 of the spec. -/

def STRAINER.SEARCHES : Field := ⟨0x0A0, 1, 0x060, 63, 0, .ro, 0, .cw, 1, 8, .any⟩
def STRAINER.UPDATES : Field := ⟨0x0A0, 1, 0x068, 63, 0, .ro, 0, .cw, 1, 8, .any⟩
def STRAINER.COLLISIONS : Field := ⟨0x0A0, 1, 0x070, 63, 0, .ro, 0, .cw, 1, 8, .any⟩
def STRAINER.DELAYED_SEARCHES : Field := ⟨0x0A0, 1, 0x078, 63, 0, .ro, 0, .cw, 1, 8, .any⟩
def STRAINER.SCRUB_CORRECTED : Field := ⟨0x0A0, 1, 0x080, 63, 0, .ro, 0, .c, 1, 8, .any⟩
def STRAINER.SLICE_SPLITS : Field := ⟨0x0A0, 1, 0x088, 63, 0, .ro, 0, .cw, 1, 8, .any⟩
def STRAINER.W_SEL_INDEX : Field := ⟨0x0A0, 1, 0x100, 13, 0, .rw, 0, .cwh, 1, 8, .any⟩
def STRAINER.F_SEL_INDEX : Field := ⟨0x0A0, 1, 0x200, 13, 0, .rw, 0, .cwh, 1, 8, .any⟩
def STRAINER.W_SEL_BANK : Field := ⟨0x0A0, 1, 0x100, 20, 16, .rw, 0, .cwh, 1, 8, .any⟩
def STRAINER.F_SEL_BANK : Field := ⟨0x0A0, 1, 0x200, 20, 16, .rw, 0, .cwh, 1, 8, .any⟩
def STRAINER.W_CMD_OP : Field := ⟨0x0A0, 1, 0x108, 2, 0, .wo, 0, .cwhfb, 1, 8, .any⟩
def STRAINER.F_CMD_OP : Field := ⟨0x0A0, 1, 0x208, 2, 0, .wo, 0, .cwhfb, 1, 8, .any⟩
def STRAINER.W_CMD_UNITS : Field := ⟨0x0A0, 1, 0x108, 9, 8, .rw, 0, .cwh, 1, 8, .any⟩
def STRAINER.F_CMD_UNITS : Field := ⟨0x0A0, 1, 0x208, 9, 8, .rw, 0, .cwh, 1, 8, .any⟩
def STRAINER.W_ENTRY_PRIO : Field := ⟨0x0A0, 1, 0x110, 15, 0, .rw, 0, .cwh, 1, 8, .any⟩
def STRAINER.F_ENTRY_PRIO : Field := ⟨0x0A0, 1, 0x210, 15, 0, .rw, 0, .cwh, 1, 8, .any⟩
def STRAINER.W_ENTRY_VALID : Field := ⟨0x0A0, 1, 0x110, 16, 16, .rw, 0, .cwh, 1, 8, .any⟩
def STRAINER.F_ENTRY_VALID : Field := ⟨0x0A0, 1, 0x210, 16, 16, .rw, 0, .cwh, 1, 8, .any⟩
def STRAINER.W_BMASK : Field := ⟨0x0A0, 1, 0x118, 31, 0, .rw, 0, .cwh, 1, 8, .any⟩
def STRAINER.F_BMASK : Field := ⟨0x0A0, 1, 0x218, 31, 0, .rw, 0, .cwh, 1, 8, .any⟩
def STRAINER.W_DATA : Field := ⟨0x0A0, 1, 0x120, 63, 0, .rw, 0, .cwh, 4, 8, .any⟩
def STRAINER.F_DATA : Field := ⟨0x0A0, 1, 0x220, 63, 0, .rw, 0, .cwh, 4, 8, .any⟩
def STRAINER.W_MASK : Field := ⟨0x0A0, 1, 0x140, 63, 0, .rw, 0, .cwh, 4, 8, .any⟩
def STRAINER.F_MASK : Field := ⟨0x0A0, 1, 0x240, 63, 0, .rw, 0, .cwh, 4, 8, .any⟩
def STRAINER.W_BUSY : Field := ⟨0x0A0, 1, 0x160, 0, 0, .ro, 0, .live, 1, 8, .any⟩
def STRAINER.F_BUSY : Field := ⟨0x0A0, 1, 0x260, 0, 0, .ro, 0, .live, 1, 8, .any⟩
def STRAINER.W_DONE : Field := ⟨0x0A0, 1, 0x160, 1, 1, .ro, 0, .live, 1, 8, .any⟩
def STRAINER.F_DONE : Field := ⟨0x0A0, 1, 0x260, 1, 1, .ro, 0, .live, 1, 8, .any⟩
def STRAINER.W_RESULT : Field := ⟨0x0A0, 1, 0x160, 11, 8, .ro, 0, .live, 1, 8, .any⟩
def STRAINER.F_RESULT : Field := ⟨0x0A0, 1, 0x260, 11, 8, .ro, 0, .live, 1, 8, .any⟩
def STRAINER.W_HIT : Field := ⟨0x0A0, 1, 0x160, 12, 12, .ro, 0, .live, 1, 8, .any⟩
def STRAINER.F_HIT : Field := ⟨0x0A0, 1, 0x260, 12, 12, .ro, 0, .live, 1, 8, .any⟩
def STRAINER.W_HIT_PRIO : Field := ⟨0x0A0, 1, 0x160, 31, 16, .ro, 0, .live, 1, 8, .any⟩
def STRAINER.F_HIT_PRIO : Field := ⟨0x0A0, 1, 0x260, 31, 16, .ro, 0, .live, 1, 8, .any⟩
def STRAINER.W_HIT_INDEX : Field := ⟨0x0A0, 1, 0x160, 45, 32, .ro, 0, .live, 1, 8, .any⟩
def STRAINER.F_HIT_INDEX : Field := ⟨0x0A0, 1, 0x260, 45, 32, .ro, 0, .live, 1, 8, .any⟩
def STRAINER.W_HIT_BANK : Field := ⟨0x0A0, 1, 0x160, 52, 48, .ro, 0, .live, 1, 8, .any⟩
def STRAINER.F_HIT_BANK : Field := ⟨0x0A0, 1, 0x260, 52, 48, .ro, 0, .live, 1, 8, .any⟩
def STRAINER.WIDTH : Field := ⟨0x0A0, 1, 0x300, 1, 0, .rw, 0, .cwh, 32, 8, .special⟩
def STRAINER.OOS : Field := ⟨0x0A0, 1, 0x300, 4, 4, .rw, 0, .cwh, 32, 8, .special⟩
def STRAINER.HOST_WP : Field := ⟨0x0A0, 1, 0x300, 5, 5, .rwl, 0, .cw, 32, 8, .any⟩
def STRAINER.FAILED : Field := ⟨0x0A0, 1, 0x300, 6, 6, .ro, 0, .cwh, 32, 8, .any⟩
def STRAINER.VALID_COUNT : Field := ⟨0x0A0, 1, 0x300, 30, 16, .ro, 0, .live, 32, 8, .any⟩
def STRAINER.COLL_INDEX : Field := ⟨0x0A0, 1, 0x400, 13, 0, .ro, 0, .c, 1, 8, .any⟩
def STRAINER.COLL_BANK : Field := ⟨0x0A0, 1, 0x400, 20, 16, .ro, 0, .c, 1, 8, .any⟩
def STRAINER.COLL_SRCS : Field := ⟨0x0A0, 1, 0x400, 26, 24, .ro, 0, .c, 1, 8, .any⟩
def STRAINER.UE_INDEX : Field := ⟨0x0A0, 1, 0x408, 13, 0, .ro, 0, .c, 1, 8, .any⟩
def STRAINER.UE_BANK : Field := ⟨0x0A0, 1, 0x408, 20, 16, .ro, 0, .c, 1, 8, .any⟩

/-- Every field of the STRAINER tables. -/
def STRAINER.fields : List Field :=
  [STRAINER.SEARCHES, STRAINER.UPDATES, STRAINER.COLLISIONS, STRAINER.DELAYED_SEARCHES, STRAINER.SCRUB_CORRECTED, STRAINER.SLICE_SPLITS, STRAINER.W_SEL_INDEX, STRAINER.F_SEL_INDEX] ++
  [STRAINER.W_SEL_BANK, STRAINER.F_SEL_BANK, STRAINER.W_CMD_OP, STRAINER.F_CMD_OP, STRAINER.W_CMD_UNITS, STRAINER.F_CMD_UNITS, STRAINER.W_ENTRY_PRIO, STRAINER.F_ENTRY_PRIO] ++
  [STRAINER.W_ENTRY_VALID, STRAINER.F_ENTRY_VALID, STRAINER.W_BMASK, STRAINER.F_BMASK, STRAINER.W_DATA, STRAINER.F_DATA, STRAINER.W_MASK, STRAINER.F_MASK] ++
  [STRAINER.W_BUSY, STRAINER.F_BUSY, STRAINER.W_DONE, STRAINER.F_DONE, STRAINER.W_RESULT, STRAINER.F_RESULT, STRAINER.W_HIT, STRAINER.F_HIT] ++
  [STRAINER.W_HIT_PRIO, STRAINER.F_HIT_PRIO, STRAINER.W_HIT_INDEX, STRAINER.F_HIT_INDEX, STRAINER.W_HIT_BANK, STRAINER.F_HIT_BANK, STRAINER.WIDTH, STRAINER.OOS] ++
  [STRAINER.HOST_WP, STRAINER.FAILED, STRAINER.VALID_COUNT, STRAINER.COLL_INDEX, STRAINER.COLL_BANK, STRAINER.COLL_SRCS, STRAINER.UE_INDEX, STRAINER.UE_BANK]

/-! Fields of the PRESS registers, from Table 16-5 of the spec. -/

def PRESS.BUILD_ROWS : Field := ⟨0x0A8, 4, 0x060, 63, 0, .ro, 0, .cw, 1, 8, .any⟩
def PRESS.PROBE_ROWS : Field := ⟨0x0A8, 4, 0x068, 63, 0, .ro, 0, .cw, 1, 8, .any⟩
def PRESS.OUT_ROWS : Field := ⟨0x0A8, 4, 0x070, 63, 0, .ro, 0, .cw, 1, 8, .any⟩
def PRESS.SPILLED_PARTS : Field := ⟨0x0A8, 4, 0x078, 63, 0, .ro, 0, .cw, 1, 8, .any⟩
def PRESS.SPILL_BYTES : Field := ⟨0x0A8, 4, 0x080, 63, 0, .ro, 0, .cw, 1, 8, .any⟩
def PRESS.ROWS_SENT : Field := ⟨0x0A8, 4, 0x088, 63, 0, .ro, 0, .cw, 1, 8, .any⟩
def PRESS.ROWS_RECEIVED : Field := ⟨0x0A8, 4, 0x090, 63, 0, .ro, 0, .cw, 1, 8, .any⟩
def PRESS.SPEC_PROBES : Field := ⟨0x0A8, 4, 0x098, 63, 0, .ro, 0, .cw, 1, 8, .any⟩
def PRESS.SPEC_DISCARDS : Field := ⟨0x0A8, 4, 0x0A0, 63, 0, .ro, 0, .cw, 1, 8, .any⟩
def PRESS.SLICE_SPLITS : Field := ⟨0x0A8, 4, 0x0A8, 63, 0, .ro, 0, .cw, 1, 8, .any⟩
def PRESS.SPEC_ROWS : Field := ⟨0x0A8, 1, 0x100, 16, 0, .rwl, 8192, .cw, 1, 8, (.within 0 65536)⟩
def PRESS.BUILDING : Field := ⟨0x0A8, 4, 0x108, 0, 0, .ro, 0, .live, 1, 8, .any⟩
def PRESS.PROBING : Field := ⟨0x0A8, 4, 0x108, 1, 1, .ro, 0, .live, 1, 8, .any⟩
def PRESS.WAIT_BUILD : Field := ⟨0x0A8, 4, 0x108, 2, 2, .ro, 0, .live, 1, 8, .any⟩
def PRESS.GEN : Field := ⟨0x0A8, 4, 0x108, 31, 16, .ro, 0, .live, 1, 8, .any⟩
def PRESS.JOBS : Field := ⟨0x0A8, 4, 0x108, 39, 32, .ro, 0, .live, 1, 8, .any⟩

/-- Every field of the PRESS tables. -/
def PRESS.fields : List Field :=
  [PRESS.BUILD_ROWS, PRESS.PROBE_ROWS, PRESS.OUT_ROWS, PRESS.SPILLED_PARTS, PRESS.SPILL_BYTES, PRESS.ROWS_SENT, PRESS.ROWS_RECEIVED, PRESS.SPEC_PROBES] ++
  [PRESS.SPEC_DISCARDS, PRESS.SLICE_SPLITS, PRESS.SPEC_ROWS, PRESS.BUILDING, PRESS.PROBING, PRESS.WAIT_BUILD, PRESS.GEN, PRESS.JOBS]

/-! Fields of the RIPENER registers, from Table 17-7 of the spec. -/

def RIPENER.EVENTS_IN : Field := ⟨0x0AC, 4, 0x060, 63, 0, .ro, 0, .cw, 1, 8, .any⟩
def RIPENER.WINDOWS_CLOSED : Field := ⟨0x0AC, 4, 0x068, 63, 0, .ro, 0, .cw, 1, 8, .any⟩
def RIPENER.LATE_DROPPED : Field := ⟨0x0AC, 4, 0x070, 63, 0, .ro, 0, .cw, 1, 8, .any⟩
def RIPENER.LATE_SIDE : Field := ⟨0x0AC, 4, 0x078, 63, 0, .ro, 0, .cw, 1, 8, .any⟩
def RIPENER.REVISIONS : Field := ⟨0x0AC, 4, 0x080, 63, 0, .ro, 0, .cw, 1, 8, .any⟩
def RIPENER.NULL_TIME : Field := ⟨0x0AC, 4, 0x088, 63, 0, .ro, 0, .cw, 1, 8, .any⟩
def RIPENER.AGG_OVERFLOWS : Field := ⟨0x0AC, 4, 0x090, 63, 0, .ro, 0, .cw, 1, 8, .any⟩
def RIPENER.SLICE_SPLITS : Field := ⟨0x0AC, 4, 0x098, 63, 0, .ro, 0, .cw, 1, 8, .any⟩
def RIPENER.STATE_CROSSINGS : Field := ⟨0x0AC, 1, 0x0A0, 63, 0, .ro, 0, .cw, 1, 8, .any⟩
def RIPENER.ID : Field := ⟨0x0AC, 1, 0x100, 7, 0, .rw, 0, .cwh, 1, 8, .any⟩
def RIPENER.OP : Field := ⟨0x0AC, 1, 0x100, 10, 8, .wo, 0, .cwhfb, 1, 8, .any⟩
def RIPENER.TIER : Field := ⟨0x0AC, 1, 0x100, 17, 16, .rw, 2, .cwh, 1, 8, .any⟩
def RIPENER.QUOTA : Field := ⟨0x0AC, 1, 0x100, 48, 32, .rw, 1024, .cwh, 1, 8, .any⟩
def RIPENER.BUSY : Field := ⟨0x0AC, 1, 0x108, 0, 0, .ro, 0, .live, 1, 8, .any⟩
def RIPENER.DONE : Field := ⟨0x0AC, 1, 0x108, 1, 1, .ro, 0, .live, 1, 8, .any⟩
def RIPENER.RESULT : Field := ⟨0x0AC, 1, 0x108, 11, 8, .ro, 0, .live, 1, 8, .any⟩
def RIPENER.S_OPEN : Field := ⟨0x0AC, 1, 0x108, 12, 12, .ro, 0, .live, 1, 8, .any⟩
def RIPENER.S_BOUND : Field := ⟨0x0AC, 1, 0x108, 13, 13, .ro, 0, .live, 1, 8, .any⟩
def RIPENER.USED : Field := ⟨0x0AC, 1, 0x108, 48, 32, .ro, 0, .live, 1, 8, .any⟩
def RIPENER.OPEN_WINDOWS : Field := ⟨0x0AC, 1, 0x110, 31, 0, .ro, 0, .live, 1, 8, .any⟩
def RIPENER.QUEUED_ROWS : Field := ⟨0x0AC, 1, 0x110, 63, 32, .ro, 0, .live, 1, 8, .any⟩
def RIPENER.MARK : Field := ⟨0x0AC, 1, 0x118, 19, 0, .rw, 49152, .cw, 1, 8, .any⟩
def RIPENER.HYST : Field := ⟨0x0AC, 1, 0x118, 51, 32, .rw, 4096, .cw, 1, 8, .any⟩
def RIPENER.LEVEL : Field := ⟨0x0AC, 1, 0x120, 0, 0, .ro, 0, .live, 1, 8, .any⟩
def RIPENER.CROSSED : Field := ⟨0x0AC, 1, 0x120, 1, 1, .rw1c, 0, .c, 1, 8, .any⟩
def RIPENER.ARMED : Field := ⟨0x0AC, 1, 0x120, 2, 2, .ro, 0, .live, 1, 8, .any⟩
def RIPENER.STATE_MIB : Field := ⟨0x0AC, 1, 0x120, 51, 32, .ro, 0, .live, 1, 8, .any⟩

/-- Every field of the RIPENER tables. -/
def RIPENER.fields : List Field :=
  [RIPENER.EVENTS_IN, RIPENER.WINDOWS_CLOSED, RIPENER.LATE_DROPPED, RIPENER.LATE_SIDE, RIPENER.REVISIONS, RIPENER.NULL_TIME, RIPENER.AGG_OVERFLOWS, RIPENER.SLICE_SPLITS] ++
  [RIPENER.STATE_CROSSINGS, RIPENER.ID, RIPENER.OP, RIPENER.TIER, RIPENER.QUOTA, RIPENER.BUSY, RIPENER.DONE, RIPENER.RESULT] ++
  [RIPENER.S_OPEN, RIPENER.S_BOUND, RIPENER.USED, RIPENER.OPEN_WINDOWS, RIPENER.QUEUED_ROWS, RIPENER.MARK, RIPENER.HYST, RIPENER.LEVEL] ++
  [RIPENER.CROSSED, RIPENER.ARMED, RIPENER.STATE_MIB]

/-! Fields of the NORMALISER registers, from Table 18-8 of the spec. -/

def NORMALISER.ROWS_IN : Field := ⟨0x0B0, 8, 0x060, 63, 0, .ro, 0, .cw, 1, 8, .any⟩
def NORMALISER.DOMAIN_NULLS : Field := ⟨0x0B0, 8, 0x068, 63, 0, .ro, 0, .cw, 1, 8, .any⟩
def NORMALISER.SATURATED : Field := ⟨0x0B0, 8, 0x070, 63, 0, .ro, 0, .cw, 1, 8, .any⟩
def NORMALISER.OOV : Field := ⟨0x0B0, 8, 0x078, 63, 0, .ro, 0, .cw, 1, 8, .any⟩
def NORMALISER.RANGE_DROPS : Field := ⟨0x0B0, 8, 0x080, 63, 0, .ro, 0, .cw, 1, 8, .any⟩
def NORMALISER.DEGENERATE : Field := ⟨0x0B0, 8, 0x088, 63, 0, .ro, 0, .cw, 1, 8, .any⟩
def NORMALISER.SLICE_SPLITS : Field := ⟨0x0B0, 8, 0x090, 63, 0, .ro, 0, .cw, 1, 8, .any⟩

/-- Every field of the NORMALISER tables. -/
def NORMALISER.fields : List Field :=
  [NORMALISER.ROWS_IN, NORMALISER.DOMAIN_NULLS, NORMALISER.SATURATED, NORMALISER.OOV, NORMALISER.RANGE_DROPS, NORMALISER.DEGENERATE, NORMALISER.SLICE_SPLITS]

/-! Fields of the CRATE registers, from Table 18-8 of the spec. -/

def CRATE.BATCHES : Field := ⟨0x0B8, 4, 0x060, 63, 0, .ro, 0, .cw, 1, 8, .any⟩
def CRATE.PAD_ROWS : Field := ⟨0x0B8, 4, 0x068, 63, 0, .ro, 0, .cw, 1, 8, .any⟩
def CRATE.NULL_FILLED : Field := ⟨0x0B8, 4, 0x070, 63, 0, .ro, 0, .cw, 1, 8, .any⟩
def CRATE.TRUNCATED : Field := ⟨0x0B8, 4, 0x078, 63, 0, .ro, 0, .cw, 1, 8, .any⟩
def CRATE.BYTES_OUT : Field := ⟨0x0B8, 4, 0x080, 63, 0, .ro, 0, .cw, 1, 8, .any⟩
def CRATE.SLICE_SPLITS : Field := ⟨0x0B8, 4, 0x088, 63, 0, .ro, 0, .cw, 1, 8, .any⟩

/-- Every field of the CRATE tables. -/
def CRATE.fields : List Field :=
  [CRATE.BATCHES, CRATE.PAD_ROWS, CRATE.NULL_FILLED, CRATE.TRUNCATED, CRATE.BYTES_OUT, CRATE.SLICE_SPLITS]

/-! Fields of the LADLE registers, from Table 19-3 of the spec. -/

def LADLE.GATHER_ROWS : Field := ⟨0x0C0, 8, 0x060, 63, 0, .ro, 0, .cw, 1, 8, .any⟩
def LADLE.REMOTE_REQS : Field := ⟨0x0C0, 8, 0x068, 63, 0, .ro, 0, .cw, 1, 8, .any⟩
def LADLE.SCATTER_UPDATES : Field := ⟨0x0C0, 8, 0x070, 63, 0, .ro, 0, .cw, 1, 8, .any⟩
def LADLE.SLICE_SPLITS : Field := ⟨0x0C0, 8, 0x078, 63, 0, .ro, 0, .cw, 1, 8, .any⟩
def LADLE.SCATTER_SKIPPED : Field := ⟨0x0C0, 1, 0x080, 63, 0, .ro, 0, .cw, 1, 8, .any⟩
def LADLE.PREFETCHED : Field := ⟨0x0C0, 1, 0x088, 63, 0, .ro, 0, .cw, 1, 8, .any⟩
def LADLE.PREFETCH_DISCARDS : Field := ⟨0x0C0, 1, 0x090, 63, 0, .ro, 0, .cw, 1, 8, .any⟩
def LADLE.PROMOTIONS : Field := ⟨0x0C0, 1, 0x098, 63, 0, .ro, 0, .cw, 1, 8, .any⟩
def LADLE.DEMOTIONS : Field := ⟨0x0C0, 1, 0x0A0, 63, 0, .ro, 0, .cw, 1, 8, .any⟩
def LADLE.MIGRATED_IN : Field := ⟨0x0C0, 1, 0x0A8, 63, 0, .ro, 0, .cw, 1, 8, .any⟩
def LADLE.MIGRATED_OUT : Field := ⟨0x0C0, 1, 0x0B0, 63, 0, .ro, 0, .cw, 1, 8, .any⟩
def LADLE.MIGRATIONS_CANCELLED : Field := ⟨0x0C0, 1, 0x0B8, 63, 0, .ro, 0, .cw, 1, 8, .any⟩
def LADLE.FORWARDED : Field := ⟨0x0C0, 1, 0x0C0, 63, 0, .ro, 0, .cw, 1, 8, .any⟩
def LADLE.MOVED_RETRIES : Field := ⟨0x0C0, 1, 0x0C8, 63, 0, .ro, 0, .cw, 1, 8, .any⟩
def LADLE.DROPPED_SCATTERS : Field := ⟨0x0C0, 1, 0x0D0, 63, 0, .ro, 0, .cw, 1, 8, .any⟩
def LADLE.TBL_ID : Field := ⟨0x0C0, 1, 0x100, 11, 0, .rw, 0, .cwh, 1, 8, .any⟩
def LADLE.OP : Field := ⟨0x0C0, 1, 0x100, 18, 16, .wo, 0, .cwhfb, 1, 8, .any⟩
def LADLE.DTYPE : Field := ⟨0x0C0, 1, 0x108, 7, 0, .rw, 11, .cwh, 1, 8, .any⟩
def LADLE.HOME : Field := ⟨0x0C0, 1, 0x108, 9, 8, .rw, 1, .cwh, 1, 8, .any⟩
def LADLE.DIM : Field := ⟨0x0C0, 1, 0x108, 31, 16, .rw, 0, .cwh, 1, 8, .any⟩
def LADLE.CREAM_QUOTA : Field := ⟨0x0C0, 1, 0x108, 63, 48, .rw, 0, .cwh, 1, 8, .any⟩
def LADLE.ROWS : Field := ⟨0x0C0, 1, 0x110, 44, 0, .rw, 0, .cwh, 1, 8, (.within 1 17592186044416)⟩
def LADLE.SEED : Field := ⟨0x0C0, 1, 0x118, 63, 0, .rw, 0, .cwh, 1, 8, .any⟩
def LADLE.DEFAULT_ADDR : Field := ⟨0x0C0, 1, 0x120, 47, 0, .rw, 0, .cwh, 1, 8, .any⟩
def LADLE.BIND_ADDR : Field := ⟨0x0C0, 1, 0x128, 63, 0, .rw, 0, .cwh, 1, 8, .any⟩
def LADLE.SHARD : Field := ⟨0x0C0, 1, 0x130, 15, 0, .rw, 0, .cwh, 1, 8, .any⟩
def LADLE.BUSY : Field := ⟨0x0C0, 1, 0x138, 0, 0, .ro, 0, .live, 1, 8, .any⟩
def LADLE.DONE : Field := ⟨0x0C0, 1, 0x138, 1, 1, .ro, 0, .live, 1, 8, .any⟩
def LADLE.RESULT : Field := ⟨0x0C0, 1, 0x138, 11, 8, .ro, 0, .live, 1, 8, .any⟩
def LADLE.T_EXISTS : Field := ⟨0x0C0, 1, 0x138, 12, 12, .ro, 0, .live, 1, 8, .any⟩
def LADLE.T_BOUND : Field := ⟨0x0C0, 1, 0x138, 13, 13, .ro, 0, .live, 1, 8, .any⟩
def LADLE.OWNER : Field := ⟨0x0C0, 1, 0x138, 31, 16, .ro, 0, .live, 1, 8, .any⟩
def LADLE.PROMOTE_MIN : Field := ⟨0x0C0, 1, 0x140, 15, 0, .rwl, 64, .cw, 1, 8, (.within 1 65535)⟩
def LADLE.DEMOTE_EPOCHS : Field := ⟨0x0C0, 1, 0x140, 23, 16, .rwl, 4, .cw, 1, 8, (.within 1 255)⟩
def LADLE.MIGRATE : Field := ⟨0x0C0, 1, 0x140, 24, 24, .rwl, 1, .cw, 1, 8, .any⟩
def LADLE.MIGRATE_RATIO : Field := ⟨0x0C0, 1, 0x140, 41, 32, .rwl, 150, .cw, 1, 8, (.within 110 1000)⟩
def LADLE.MIGRATE_MAX : Field := ⟨0x0C0, 1, 0x140, 55, 48, .rwl, 16, .cw, 1, 8, .any⟩
def LADLE.PREFETCH_ROWS : Field := ⟨0x0C0, 1, 0x148, 16, 0, .rw, 4096, .cw, 1, 8, (.within 0 65536)⟩

/-- Every field of the LADLE tables. -/
def LADLE.fields : List Field :=
  [LADLE.GATHER_ROWS, LADLE.REMOTE_REQS, LADLE.SCATTER_UPDATES, LADLE.SLICE_SPLITS, LADLE.SCATTER_SKIPPED, LADLE.PREFETCHED, LADLE.PREFETCH_DISCARDS, LADLE.PROMOTIONS] ++
  [LADLE.DEMOTIONS, LADLE.MIGRATED_IN, LADLE.MIGRATED_OUT, LADLE.MIGRATIONS_CANCELLED, LADLE.FORWARDED, LADLE.MOVED_RETRIES, LADLE.DROPPED_SCATTERS, LADLE.TBL_ID] ++
  [LADLE.OP, LADLE.DTYPE, LADLE.HOME, LADLE.DIM, LADLE.CREAM_QUOTA, LADLE.ROWS, LADLE.SEED, LADLE.DEFAULT_ADDR] ++
  [LADLE.BIND_ADDR, LADLE.SHARD, LADLE.BUSY, LADLE.DONE, LADLE.RESULT, LADLE.T_EXISTS, LADLE.T_BOUND, LADLE.OWNER] ++
  [LADLE.PROMOTE_MIN, LADLE.DEMOTE_EPOCHS, LADLE.MIGRATE, LADLE.MIGRATE_RATIO, LADLE.MIGRATE_MAX, LADLE.PREFETCH_ROWS]

/-! Fields of the ZLINK registers, from Table 20-6 of the spec. -/

def ZLINK.FLITS_TX : Field := ⟨0x0D0, 6, 0x060, 63, 0, .ro, 0, .cw, 1, 8, .any⟩
def ZLINK.FLITS_RX : Field := ⟨0x0D0, 6, 0x068, 63, 0, .ro, 0, .cw, 1, 8, .any⟩
def ZLINK.CRC_ERRORS : Field := ⟨0x0D0, 6, 0x070, 63, 0, .ro, 0, .cw, 1, 8, .any⟩
def ZLINK.RETRIES : Field := ⟨0x0D0, 6, 0x078, 63, 0, .ro, 0, .cw, 1, 8, .any⟩
def ZLINK.RETRAINS : Field := ⟨0x0D0, 6, 0x080, 63, 0, .ro, 0, .cw, 1, 8, .any⟩
def ZLINK.DOWNS : Field := ⟨0x0D0, 6, 0x088, 63, 0, .ro, 0, .cw, 1, 8, .any⟩
def ZLINK.TAG_FAILS : Field := ⟨0x0D0, 6, 0x090, 63, 0, .ro, 0, .cw, 1, 8, .any⟩
def ZLINK.AUTH_REQ : Field := ⟨0x0D0, 6, 0x100, 0, 0, .rwl, 0, .cw, 1, 8, .any⟩
def ZLINK.FULL_TRAIN : Field := ⟨0x0D0, 6, 0x100, 1, 1, .wo, 0, .cwhfb, 1, 8, .any⟩
def ZLINK.STATE : Field := ⟨0x0D0, 6, 0x108, 2, 0, .ro, 0, .live, 1, 8, .any⟩
def ZLINK.LANES_OK : Field := ⟨0x0D0, 6, 0x108, 15, 8, .ro, 0, .live, 1, 8, .any⟩
def ZLINK.POL_INV : Field := ⟨0x0D0, 6, 0x108, 23, 16, .ro, 0, .live, 1, 8, .any⟩
def ZLINK.SECURE : Field := ⟨0x0D0, 6, 0x108, 24, 24, .ro, 0, .live, 1, 8, .any⟩
def ZLINK.EQ_STORED : Field := ⟨0x0D0, 6, 0x108, 25, 25, .ro, 0, .live, 1, 8, .any⟩
def ZLINK.PARTNER_VALID : Field := ⟨0x0D0, 6, 0x108, 26, 26, .ro, 0, .live, 1, 8, .any⟩
def ZLINK.PARTNER_FACE : Field := ⟨0x0D0, 6, 0x108, 34, 32, .ro, 0, .live, 1, 8, .any⟩
def ZLINK.PARTNER_NODE : Field := ⟨0x0D0, 6, 0x108, 63, 48, .ro, 0, .live, 1, 8, .any⟩

/-- Every field of the ZLINK tables. -/
def ZLINK.fields : List Field :=
  [ZLINK.FLITS_TX, ZLINK.FLITS_RX, ZLINK.CRC_ERRORS, ZLINK.RETRIES, ZLINK.RETRAINS, ZLINK.DOWNS, ZLINK.TAG_FAILS, ZLINK.AUTH_REQ] ++
  [ZLINK.FULL_TRAIN, ZLINK.STATE, ZLINK.LANES_OK, ZLINK.POL_INV, ZLINK.SECURE, ZLINK.EQ_STORED, ZLINK.PARTNER_VALID, ZLINK.PARTNER_FACE] ++
  [ZLINK.PARTNER_NODE]

/-! Fields of the ROUTE registers, from Table 20-7 of the spec. -/

def ROUTE.REQUESTS : Field := ⟨0x0D8, 1, 0x060, 63, 0, .ro, 0, .cw, 1, 8, .any⟩
def ROUTE.TIMEOUTS : Field := ⟨0x0D8, 1, 0x068, 63, 0, .ro, 0, .cw, 1, 8, .any⟩
def ROUTE.RESENDS : Field := ⟨0x0D8, 1, 0x070, 63, 0, .ro, 0, .cw, 1, 8, .any⟩
def ROUTE.LATE_DISCARDS : Field := ⟨0x0D8, 1, 0x078, 63, 0, .ro, 0, .cw, 1, 8, .any⟩
def ROUTE.DUP_REQUESTS : Field := ⟨0x0D8, 1, 0x080, 63, 0, .ro, 0, .cw, 1, 8, .any⟩
def ROUTE.UNREACHABLE : Field := ⟨0x0D8, 1, 0x088, 63, 0, .ro, 0, .cw, 1, 8, .any⟩
def ROUTE.DROPPED_DEAD : Field := ⟨0x0D8, 1, 0x090, 63, 0, .ro, 0, .cw, 1, 8, .any⟩
def ROUTE.TRANSIT_FLITS : Field := ⟨0x0D8, 1, 0x098, 63, 0, .ro, 0, .cw, 1, 8, .any⟩
def ROUTE.E2E_TIMEOUT_MS : Field := ⟨0x0D8, 1, 0x100, 9, 0, .rwl, 20, .cw, 1, 8, (.withinElse 5 1000 17)⟩
def ROUTE.SIZE_X : Field := ⟨0x0D8, 1, 0x108, 6, 0, .ro, 0, .live, 1, 8, .any⟩
def ROUTE.SIZE_Y : Field := ⟨0x0D8, 1, 0x108, 13, 8, .ro, 0, .live, 1, 8, .any⟩
def ROUTE.SIZE_Z : Field := ⟨0x0D8, 1, 0x108, 21, 16, .ro, 0, .live, 1, 8, .any⟩
def ROUTE.SHAPE_VALID : Field := ⟨0x0D8, 1, 0x108, 24, 24, .ro, 0, .live, 1, 8, .any⟩
def ROUTE.EPOCH : Field := ⟨0x0D8, 1, 0x110, 31, 0, .ro, 0, .live, 1, 8, .any⟩
def ROUTE.PENDING : Field := ⟨0x0D8, 1, 0x110, 32, 32, .ro, 0, .live, 1, 8, .any⟩
def ROUTE.EPOCH_TIDE : Field := ⟨0x0D8, 1, 0x118, 63, 0, .ro, 0, .live, 1, 8, .any⟩
def ROUTE.QUERY_DST : Field := ⟨0x0D8, 1, 0x120, 15, 0, .rw, 0, .cwh, 1, 8, .any⟩
def ROUTE.REACHABLE : Field := ⟨0x0D8, 1, 0x128, 0, 0, .ro, 0, .live, 1, 8, .any⟩
def ROUTE.NEG : Field := ⟨0x0D8, 1, 0x128, 3, 1, .ro, 0, .live, 1, 8, .any⟩
def ROUTE.HOPS : Field := ⟨0x0D8, 1, 0x128, 15, 8, .ro, 0, .live, 1, 8, .any⟩

/-- Every field of the ROUTE tables. -/
def ROUTE.fields : List Field :=
  [ROUTE.REQUESTS, ROUTE.TIMEOUTS, ROUTE.RESENDS, ROUTE.LATE_DISCARDS, ROUTE.DUP_REQUESTS, ROUTE.UNREACHABLE, ROUTE.DROPPED_DEAD, ROUTE.TRANSIT_FLITS] ++
  [ROUTE.E2E_TIMEOUT_MS, ROUTE.SIZE_X, ROUTE.SIZE_Y, ROUTE.SIZE_Z, ROUTE.SHAPE_VALID, ROUTE.EPOCH, ROUTE.PENDING, ROUTE.EPOCH_TIDE] ++
  [ROUTE.QUERY_DST, ROUTE.REACHABLE, ROUTE.NEG, ROUTE.HOPS]

/-! Fields of the HERD registers, from Table 21-5 of the spec. -/

def HERD.JOINS : Field := ⟨0x0D9, 1, 0x060, 63, 0, .ro, 0, .c, 1, 8, .any⟩
def HERD.MEMBERS_LOST : Field := ⟨0x0D9, 1, 0x068, 63, 0, .ro, 0, .c, 1, 8, .any⟩
def HERD.LEAD_CHANGES : Field := ⟨0x0D9, 1, 0x070, 63, 0, .ro, 0, .c, 1, 8, .any⟩
def HERD.REQ_ID : Field := ⟨0x0D9, 1, 0x100, 15, 0, .rwl, 0, .cw, 1, 8, .any⟩
def HERD.ID_SET : Field := ⟨0x0D9, 1, 0x100, 16, 16, .rwl, 0, .cw, 1, 8, .any⟩
def HERD.AUTO_ADMIT : Field := ⟨0x0D9, 1, 0x100, 17, 17, .rwl, 1, .cw, 1, 8, .any⟩
def HERD.LOSS_BEATS : Field := ⟨0x0D9, 1, 0x100, 31, 24, .rwl, 2, .cw, 1, 8, (.within 2 255)⟩
def HERD.FORM_MS : Field := ⟨0x0D9, 1, 0x100, 47, 32, .rwl, 1000, .cw, 1, 8, (.within 100 60000)⟩
def HERD.SIZE_X : Field := ⟨0x0D9, 1, 0x108, 6, 0, .rwl, 1, .cw, 1, 8, (.within 1 64)⟩
def HERD.SIZE_Y : Field := ⟨0x0D9, 1, 0x108, 13, 8, .rwl, 1, .cw, 1, 8, (.within 1 32)⟩
def HERD.SIZE_Z : Field := ⟨0x0D9, 1, 0x108, 21, 16, .rwl, 1, .cw, 1, 8, (.within 1 32)⟩
def HERD.STATE : Field := ⟨0x0D9, 1, 0x110, 2, 0, .ro, 0, .live, 1, 8, .any⟩
def HERD.LEAD_ID : Field := ⟨0x0D9, 1, 0x110, 31, 16, .ro, 0, .live, 1, 8, .any⟩
def HERD.MEMBERS : Field := ⟨0x0D9, 1, 0x110, 48, 32, .ro, 0, .live, 1, 8, .any⟩
def HERD.JOIN : Field := ⟨0x0D9, 1, 0x118, 0, 0, .wo, 0, .cwhfb, 1, 8, .any⟩
def HERD.LEAVE : Field := ⟨0x0D9, 1, 0x118, 1, 1, .wo, 0, .cwhfb, 1, 8, .any⟩
def HERD.ADMIT_ID : Field := ⟨0x0D9, 1, 0x118, 31, 16, .wo, 0, .cwhfb, 1, 8, .any⟩

/-- Every field of the HERD tables. -/
def HERD.fields : List Field :=
  [HERD.JOINS, HERD.MEMBERS_LOST, HERD.LEAD_CHANGES, HERD.REQ_ID, HERD.ID_SET, HERD.AUTO_ADMIT, HERD.LOSS_BEATS, HERD.FORM_MS] ++
  [HERD.SIZE_X, HERD.SIZE_Y, HERD.SIZE_Z, HERD.STATE, HERD.LEAD_ID, HERD.MEMBERS, HERD.JOIN, HERD.LEAVE] ++
  [HERD.ADMIT_ID]

/-! Fields of the TWIN registers, from Table 21-6 of the spec. -/

def TWIN.CUTS : Field := ⟨0x0DA, 1, 0x060, 63, 0, .ro, 0, .c, 1, 8, .any⟩
def TWIN.CUT_BYTES : Field := ⟨0x0DA, 1, 0x068, 63, 0, .ro, 0, .c, 1, 8, .any⟩
def TWIN.HELD_RELEASED : Field := ⟨0x0DA, 1, 0x070, 63, 0, .ro, 0, .c, 1, 8, .any⟩
def TWIN.TAKEOVERS : Field := ⟨0x0DA, 1, 0x078, 63, 0, .ro, 0, .c, 1, 8, .any⟩
def TWIN.TWIN_LOSSES : Field := ⟨0x0DA, 1, 0x080, 63, 0, .ro, 0, .c, 1, 8, .any⟩
def TWIN.LINK : Field := ⟨0x0DA, 1, 0x100, 2, 0, .rwl, 7, .cw, 1, 8, .any⟩
def TWIN.CUT_BEATS : Field := ⟨0x0DA, 1, 0x100, 15, 8, .rwl, 1, .cw, 1, 8, (.within 1 255)⟩
def TWIN.HOLD_COMPLETIONS : Field := ⟨0x0DA, 1, 0x100, 16, 16, .rwl, 1, .cw, 1, 8, .any⟩
def TWIN.HOLD_FLOWS : Field := ⟨0x0DA, 1, 0x100, 17, 17, .rwl, 1, .cw, 1, 8, .any⟩
def TWIN.HOLD_READY : Field := ⟨0x0DA, 1, 0x100, 18, 18, .rwl, 1, .cw, 1, 8, .any⟩
def TWIN.HOLD_SERVE : Field := ⟨0x0DA, 1, 0x100, 19, 19, .rwl, 0, .cw, 1, 8, .any⟩
def TWIN.MIRROR_PRESS : Field := ⟨0x0DA, 1, 0x100, 20, 20, .rwl, 0, .cw, 1, 8, .any⟩
def TWIN.ON_LOSS : Field := ⟨0x0DA, 1, 0x100, 21, 21, .rwl, 0, .cw, 1, 8, .any⟩
def TWIN.MIRROR_QUOTA : Field := ⟨0x0DA, 1, 0x100, 51, 32, .rwl, 131072, .cw, 1, 8, (.within 0 524288)⟩
def TWIN.STATE : Field := ⟨0x0DA, 1, 0x108, 2, 0, .ro, 0, .live, 1, 8, .any⟩
def TWIN.PARTNER : Field := ⟨0x0DA, 1, 0x108, 31, 16, .ro, 0, .live, 1, 8, .any⟩
def TWIN.ACKED_CUT : Field := ⟨0x0DA, 1, 0x108, 63, 32, .ro, 0, .live, 1, 8, .any⟩
def TWIN.HELD : Field := ⟨0x0DA, 1, 0x110, 31, 0, .ro, 0, .live, 1, 8, .any⟩
def TWIN.MIRROR_MIB : Field := ⟨0x0DA, 1, 0x110, 51, 32, .ro, 0, .live, 1, 8, .any⟩
def TWIN.ALIAS_ID : Field := ⟨0x0DA, 1, 0x118, 15, 0, .ro, 0, .live, 1, 8, .any⟩
def TWIN.ALIAS_VALID : Field := ⟨0x0DA, 1, 0x118, 16, 16, .ro, 0, .live, 1, 8, .any⟩

/-- Every field of the TWIN tables. -/
def TWIN.fields : List Field :=
  [TWIN.CUTS, TWIN.CUT_BYTES, TWIN.HELD_RELEASED, TWIN.TAKEOVERS, TWIN.TWIN_LOSSES, TWIN.LINK, TWIN.CUT_BEATS, TWIN.HOLD_COMPLETIONS] ++
  [TWIN.HOLD_FLOWS, TWIN.HOLD_READY, TWIN.HOLD_SERVE, TWIN.MIRROR_PRESS, TWIN.ON_LOSS, TWIN.MIRROR_QUOTA, TWIN.STATE, TWIN.PARTNER] ++
  [TWIN.ACKED_CUT, TWIN.HELD, TWIN.MIRROR_MIB, TWIN.ALIAS_ID, TWIN.ALIAS_VALID]

/-! Fields of the SERVE registers, from Table 22-5, Table 22-6 of the spec. -/

def SERVE.REQUESTS : Field := ⟨0x0E0, 1, 0x060, 63, 0, .ro, 0, .cw, 1, 8, .any⟩
def SERVE.RESPONSES : Field := ⟨0x0E0, 1, 0x068, 63, 0, .ro, 0, .cw, 1, 8, .any⟩
def SERVE.SHED_QFULL : Field := ⟨0x0E0, 1, 0x070, 63, 0, .ro, 0, .cw, 1, 8, .any⟩
def SERVE.SHED_LATE : Field := ⟨0x0E0, 1, 0x078, 63, 0, .ro, 0, .cw, 1, 8, .any⟩
def SERVE.SHED_PATH : Field := ⟨0x0E0, 1, 0x080, 63, 0, .ro, 0, .cw, 1, 8, .any⟩
def SERVE.BAD_REQ : Field := ⟨0x0E0, 1, 0x088, 63, 0, .ro, 0, .cw, 1, 8, .any⟩
def SERVE.FAILED : Field := ⟨0x0E0, 1, 0x090, 63, 0, .ro, 0, .cw, 1, 8, .any⟩
def SERVE.DEFAULTED : Field := ⟨0x0E0, 1, 0x098, 63, 0, .ro, 0, .cw, 1, 8, .any⟩
def SERVE.LAT_10 : Field := ⟨0x0E0, 1, 0x0A0, 63, 0, .ro, 0, .cw, 1, 8, .any⟩
def SERVE.LAT_20 : Field := ⟨0x0E0, 1, 0x0A8, 63, 0, .ro, 0, .cw, 1, 8, .any⟩
def SERVE.LAT_40 : Field := ⟨0x0E0, 1, 0x0B0, 63, 0, .ro, 0, .cw, 1, 8, .any⟩
def SERVE.LAT_MORE : Field := ⟨0x0E0, 1, 0x0B8, 63, 0, .ro, 0, .cw, 1, 8, .any⟩
def SERVE.ENABLE : Field := ⟨0x0E0, 1, 0x100, 0, 0, .rwl, 0, .cw, 1, 8, .special⟩
def SERVE.PRIO : Field := ⟨0x0E0, 1, 0x100, 13, 8, .rwl, 4, .cw, 1, 8, .any⟩
def SERVE.QDEPTH : Field := ⟨0x0E0, 1, 0x100, 32, 16, .rwl, 4096, .cw, 1, 8, .special⟩
def SERVE.DEF_DEADLINE_US : Field := ⟨0x0E0, 1, 0x100, 63, 44, .rw, 200, .cw, 1, 8, .any⟩
def SERVE.RESERVE : Field := ⟨0x0E0, 1, 0x108, 27, 0, .rwl, 17895697, .cw, 1, 8, .special⟩
def SERVE.SVC : Field := ⟨0x0E0, 1, 0x110, 5, 0, .rw, 0, .cwh, 1, 8, .any⟩
def SERVE.OP : Field := ⟨0x0E0, 1, 0x110, 10, 8, .wo, 0, .cwhfb, 1, 8, .any⟩
def SERVE.REQ_SLOT : Field := ⟨0x0E0, 1, 0x110, 23, 16, .rw, 0, .cwh, 1, 8, .any⟩
def SERVE.RESP_SLOT : Field := ⟨0x0E0, 1, 0x110, 31, 24, .rw, 0, .cwh, 1, 8, .any⟩
def SERVE.NBIND : Field := ⟨0x0E0, 1, 0x110, 40, 32, .rw, 0, .cwh, 1, 8, .any⟩
def SERVE.SVC_PLAN : Field := ⟨0x0E0, 1, 0x118, 47, 0, .rw, 0, .cwh, 1, 8, .any⟩
def SERVE.SVC_BIND : Field := ⟨0x0E0, 1, 0x120, 47, 0, .rw, 0, .cwh, 1, 8, .any⟩
def SERVE.BUSY : Field := ⟨0x0E0, 1, 0x128, 0, 0, .ro, 0, .live, 1, 8, .any⟩
def SERVE.DONE : Field := ⟨0x0E0, 1, 0x128, 1, 1, .ro, 0, .live, 1, 8, .any⟩
def SERVE.RESULT : Field := ⟨0x0E0, 1, 0x128, 11, 8, .ro, 0, .live, 1, 8, .any⟩
def SERVE.S_REG : Field := ⟨0x0E0, 1, 0x128, 12, 12, .ro, 0, .live, 1, 8, .any⟩
def SERVE.VSTATUS : Field := ⟨0x0E0, 1, 0x128, 23, 16, .ro, 0, .live, 1, 8, .any⟩
def SERVE.STAGE : Field := ⟨0x0E0, 1, 0x128, 47, 32, .ro, 0, .live, 1, 8, .any⟩
def SERVE.MARK : Field := ⟨0x0E0, 1, 0x130, 15, 0, .rw, 3072, .cw, 1, 8, .any⟩
def SERVE.HYST : Field := ⟨0x0E0, 1, 0x130, 47, 32, .rw, 512, .cw, 1, 8, .any⟩
def SERVE.LEVEL : Field := ⟨0x0E0, 1, 0x138, 0, 0, .ro, 0, .live, 1, 8, .any⟩
def SERVE.CROSSED : Field := ⟨0x0E0, 1, 0x138, 1, 1, .rw1c, 0, .c, 1, 8, .any⟩
def SERVE.ARMED : Field := ⟨0x0E0, 1, 0x138, 2, 2, .ro, 0, .live, 1, 8, .any⟩
def SERVE.AQ_USED : Field := ⟨0x0E0, 1, 0x138, 48, 32, .ro, 0, .live, 1, 8, .any⟩
def SERVE.R_REQ_REGION : Field := ⟨0x0E0, 1, 0x200, 9, 0, .rw, 0, .cw, 16, 64, .any⟩
def SERVE.R_TX_REGION : Field := ⟨0x0E0, 1, 0x200, 25, 16, .rw, 0, .cw, 16, 64, .any⟩
def SERVE.R_LOG_DEPTH : Field := ⟨0x0E0, 1, 0x200, 35, 32, .rw, 0, .cw, 16, 64, .any⟩
def SERVE.R_TX_LOG_DEPTH : Field := ⟨0x0E0, 1, 0x200, 44, 40, .rw, 0, .cw, 16, 64, .any⟩
def SERVE.R_TX_LOG_SLOT : Field := ⟨0x0E0, 1, 0x200, 52, 48, .rw, 0, .cw, 16, 64, .any⟩
def SERVE.R_ORDERED : Field := ⟨0x0E0, 1, 0x200, 56, 56, .rw, 0, .cw, 16, 64, .any⟩
def SERVE.R_ENABLE : Field := ⟨0x0E0, 1, 0x200, 57, 57, .rw, 0, .cw, 16, 64, .special⟩
def SERVE.R_TX_BUS_BASE : Field := ⟨0x0E0, 1, 0x208, 63, 0, .rw, 0, .cw, 16, 64, .any⟩
def SERVE.R_DESC_BASE : Field := ⟨0x0E0, 1, 0x210, 47, 0, .rw, 0, .cw, 16, 64, .any⟩
def SERVE.R_DB_ADDR : Field := ⟨0x0E0, 1, 0x218, 47, 0, .rw, 0, .cw, 16, 64, .any⟩
def SERVE.R_HEAD_ADDR : Field := ⟨0x0E0, 1, 0x220, 47, 0, .rw, 0, .cw, 16, 64, .any⟩
def SERVE.R_DESC_SIZE : Field := ⟨0x0E0, 1, 0x228, 6, 0, .rw, 0, .cw, 16, 64, .any⟩
def SERVE.R_ADDR_OFF : Field := ⟨0x0E0, 1, 0x228, 13, 8, .rw, 0, .cw, 16, 64, .any⟩
def SERVE.R_LEN_OFF : Field := ⟨0x0E0, 1, 0x228, 21, 16, .rw, 0, .cw, 16, 64, .any⟩
def SERVE.R_LEN_WIDTH : Field := ⟨0x0E0, 1, 0x228, 24, 24, .rw, 0, .cw, 16, 64, .any⟩
def SERVE.R_DB_WIDTH : Field := ⟨0x0E0, 1, 0x228, 25, 25, .rw, 0, .cw, 16, 64, .any⟩
def SERVE.R_PROD : Field := ⟨0x0E0, 1, 0x230, 15, 0, .ro, 0, .live, 16, 64, .any⟩
def SERVE.R_CONS : Field := ⟨0x0E0, 1, 0x230, 31, 16, .ro, 0, .live, 16, 64, .any⟩
def SERVE.R_TXP : Field := ⟨0x0E0, 1, 0x230, 47, 32, .ro, 0, .live, 16, 64, .any⟩
def SERVE.DESC_TPL : Field := ⟨0x0E0, 1, 0x600, 63, 0, .rw, 0, .cw, 128, 8, .any⟩

/-- Every field of the SERVE tables. -/
def SERVE.fields : List Field :=
  [SERVE.REQUESTS, SERVE.RESPONSES, SERVE.SHED_QFULL, SERVE.SHED_LATE, SERVE.SHED_PATH, SERVE.BAD_REQ, SERVE.FAILED, SERVE.DEFAULTED] ++
  [SERVE.LAT_10, SERVE.LAT_20, SERVE.LAT_40, SERVE.LAT_MORE, SERVE.ENABLE, SERVE.PRIO, SERVE.QDEPTH, SERVE.DEF_DEADLINE_US] ++
  [SERVE.RESERVE, SERVE.SVC, SERVE.OP, SERVE.REQ_SLOT, SERVE.RESP_SLOT, SERVE.NBIND, SERVE.SVC_PLAN, SERVE.SVC_BIND] ++
  [SERVE.BUSY, SERVE.DONE, SERVE.RESULT, SERVE.S_REG, SERVE.VSTATUS, SERVE.STAGE, SERVE.MARK, SERVE.HYST] ++
  [SERVE.LEVEL, SERVE.CROSSED, SERVE.ARMED, SERVE.AQ_USED, SERVE.R_REQ_REGION, SERVE.R_TX_REGION, SERVE.R_LOG_DEPTH, SERVE.R_TX_LOG_DEPTH] ++
  [SERVE.R_TX_LOG_SLOT, SERVE.R_ORDERED, SERVE.R_ENABLE, SERVE.R_TX_BUS_BASE, SERVE.R_DESC_BASE, SERVE.R_DB_ADDR, SERVE.R_HEAD_ADDR, SERVE.R_DESC_SIZE] ++
  [SERVE.R_ADDR_OFF, SERVE.R_LEN_OFF, SERVE.R_LEN_WIDTH, SERVE.R_DB_WIDTH, SERVE.R_PROD, SERVE.R_CONS, SERVE.R_TXP, SERVE.DESC_TPL]

/-! Fields of the FAULT registers, from Table 24-7 of the spec. -/

def FAULT.CORRECTED : Field := ⟨0x0F0, 1, 0x060, 63, 0, .ro, 0, .c, 1, 8, .any⟩
def FAULT.SLICE_FAULTS : Field := ⟨0x0F0, 1, 0x068, 63, 0, .ro, 0, .c, 1, 8, .any⟩
def FAULT.BLOCK_FAULTS : Field := ⟨0x0F0, 1, 0x070, 63, 0, .ro, 0, .c, 1, 8, .any⟩
def FAULT.NODE_FAULTS : Field := ⟨0x0F0, 1, 0x078, 63, 0, .ro, 0, .c, 1, 8, .any⟩
def FAULT.HERD_FAULTS : Field := ⟨0x0F0, 1, 0x080, 63, 0, .ro, 0, .c, 1, 8, .any⟩
def FAULT.RECORDS_LOST : Field := ⟨0x0F0, 1, 0x088, 63, 0, .ro, 0, .c, 1, 8, .any⟩
def FAULT.CHECKPOINTS : Field := ⟨0x0F0, 1, 0x090, 63, 0, .ro, 0, .c, 1, 8, .any⟩
def FAULT.AUTO_WARM : Field := ⟨0x0F0, 1, 0x100, 0, 0, .rwl, 0, .cw, 1, 8, .any⟩
def FAULT.PIN_CLASS : Field := ⟨0x0F0, 1, 0x100, 10, 8, .rwl, 2, .cw, 1, 8, (.within 1 4)⟩
def FAULT.INJ_ENABLE : Field := ⟨0x0F0, 1, 0x100, 16, 16, .rwl, 0, .cw, 1, 8, .any⟩
def FAULT.PENDING_CLASS : Field := ⟨0x0F0, 1, 0x108, 2, 0, .ro, 0, .c, 1, 8, .any⟩
def FAULT.FAULT_N_LOW : Field := ⟨0x0F0, 1, 0x108, 8, 8, .ro, 0, .live, 1, 8, .any⟩
def FAULT.NODE_FATAL : Field := ⟨0x0F0, 1, 0x108, 9, 9, .ro, 0, .cw, 1, 8, .any⟩
def FAULT.QCOUNT : Field := ⟨0x0F0, 1, 0x108, 22, 16, .ro, 0, .c, 1, 8, .any⟩
def FAULT.NEXT_SEQ : Field := ⟨0x0F0, 1, 0x108, 63, 32, .ro, 0, .c, 1, 8, .any⟩
def FAULT.ACK : Field := ⟨0x0F0, 1, 0x110, 0, 0, .wo, 0, .cwhfb, 1, 8, .any⟩
def FAULT.POP : Field := ⟨0x0F0, 1, 0x110, 1, 1, .wo, 0, .cwhfb, 1, 8, .any⟩
def FAULT.CKPT_BASE : Field := ⟨0x0F0, 1, 0x118, 63, 0, .rwl, 0, .cw, 1, 8, .any⟩
def FAULT.CKPT_STEP : Field := ⟨0x0F0, 1, 0x120, 63, 0, .rwl, 0, .cw, 1, 8, .any⟩
def FAULT.CKPT_CTR_ID : Field := ⟨0x0F0, 1, 0x128, 15, 0, .rw, 0, .cw, 1, 8, .any⟩
def FAULT.CKPT_CTR_VALID : Field := ⟨0x0F0, 1, 0x128, 16, 16, .rw, 0, .cw, 1, 8, .any⟩
def FAULT.FINJ_KIND : Field := ⟨0x0F0, 1, 0x130, 2, 0, .rwl, 0, .cw, 1, 8, .any⟩
def FAULT.FINJ_PAGE : Field := ⟨0x0F0, 1, 0x130, 27, 16, .rwl, 0, .cw, 1, 8, .any⟩
def FAULT.FINJ_FIRE : Field := ⟨0x0F0, 1, 0x130, 32, 32, .wo, 0, .cwhfb, 1, 8, .special⟩
def FAULT.FREC : Field := ⟨0x0F0, 1, 0x200, 63, 0, .ro, 0, .c, 5, 8, .any⟩

/-- Every field of the FAULT tables. -/
def FAULT.fields : List Field :=
  [FAULT.CORRECTED, FAULT.SLICE_FAULTS, FAULT.BLOCK_FAULTS, FAULT.NODE_FAULTS, FAULT.HERD_FAULTS, FAULT.RECORDS_LOST, FAULT.CHECKPOINTS, FAULT.AUTO_WARM] ++
  [FAULT.PIN_CLASS, FAULT.INJ_ENABLE, FAULT.PENDING_CLASS, FAULT.FAULT_N_LOW, FAULT.NODE_FATAL, FAULT.QCOUNT, FAULT.NEXT_SEQ, FAULT.ACK] ++
  [FAULT.POP, FAULT.CKPT_BASE, FAULT.CKPT_STEP, FAULT.CKPT_CTR_ID, FAULT.CKPT_CTR_VALID, FAULT.FINJ_KIND, FAULT.FINJ_PAGE, FAULT.FINJ_FIRE] ++
  [FAULT.FREC]

end Sys2Proof.Reg
end

