-- ==== Sys2Proof/Machine/FieldsNode.lean ====
section
/-! DEFINITION. The register fields of the node, host, memory and time pages, field by field from the tables of the spec. -/

namespace Sys2Proof.Reg

/-! Fields of the HDR registers, from Table 04-2 of the spec. -/

def HDR.PAGE : Field := ⟨0x000, 1, 0x000, 11, 0, .ro, 0, .live, 1, 8, .any⟩
def HDR.BLOCK : Field := ⟨0x000, 1, 0x000, 27, 16, .ro, 0, .live, 1, 8, .any⟩
def HDR.INSTANCE : Field := ⟨0x000, 1, 0x000, 39, 32, .ro, 0, .live, 1, 8, .any⟩
def HDR.BLOCK_VER : Field := ⟨0x000, 1, 0x000, 47, 40, .ro, 0, .live, 1, 8, .any⟩
def HDR.HDR_VER : Field := ⟨0x000, 1, 0x000, 55, 48, .ro, 0, .live, 1, 8, .any⟩
def HDR.LEAVE_USER : Field := ⟨0x000, 1, 0x008, 0, 0, .ro, 0, .live, 1, 8, .any⟩
def HDR.FUNC_PAGE : Field := ⟨0x000, 1, 0x008, 1, 1, .ro, 0, .live, 1, 8, .any⟩
def HDR.INJECT : Field := ⟨0x000, 1, 0x008, 2, 2, .ro, 0, .live, 1, 8, .any⟩
def HDR.NCTR : Field := ⟨0x000, 1, 0x008, 12, 8, .ro, 0, .live, 1, 8, .any⟩
def HDR.BLOCK_CAP : Field := ⟨0x000, 1, 0x008, 63, 32, .ro, 0, .live, 1, 8, .any⟩
def HDR.ENABLE : Field := ⟨0x000, 1, 0x010, 0, 0, .rwl, 1, .cw, 1, 8, .any⟩
def HDR.BLOCK_RESET : Field := ⟨0x000, 1, 0x010, 1, 1, .w1s, 0, .cwhfb, 1, 8, .any⟩
def HDR.QUIESCE : Field := ⟨0x000, 1, 0x010, 2, 2, .rw, 0, .cwhb, 1, 8, .any⟩
def HDR.OUT_OF_SERVICE : Field := ⟨0x000, 1, 0x010, 3, 3, .rw, 0, .cw, 1, 8, .any⟩
def HDR.ENABLED : Field := ⟨0x000, 1, 0x018, 0, 0, .ro, 0, .live, 1, 8, .any⟩
def HDR.QUIESCED : Field := ⟨0x000, 1, 0x018, 1, 1, .ro, 0, .live, 1, 8, .any⟩
def HDR.BUSY : Field := ⟨0x000, 1, 0x018, 2, 2, .ro, 0, .live, 1, 8, .any⟩
def HDR.OOS : Field := ⟨0x000, 1, 0x018, 3, 3, .ro, 0, .live, 1, 8, .any⟩
def HDR.LOCKED : Field := ⟨0x000, 1, 0x018, 4, 4, .ro, 0, .live, 1, 8, .any⟩
def HDR.INFLIGHT : Field := ⟨0x000, 1, 0x018, 15, 8, .ro, 0, .live, 1, 8, .any⟩
def HDR.IRQ_PENDING : Field := ⟨0x000, 1, 0x018, 31, 16, .ro, 0, .live, 1, 8, .any⟩
def HDR.ACCESS_SIZE : Field := ⟨0x000, 1, 0x020, 0, 0, .rw1c, 0, .c, 1, 8, .any⟩
def HDR.LOCKED_WRITE : Field := ⟨0x000, 1, 0x020, 1, 1, .rw1c, 0, .c, 1, 8, .any⟩
def HDR.INJECTED : Field := ⟨0x000, 1, 0x020, 2, 2, .rw1c, 0, .c, 1, 8, .any⟩
def HDR.REG_PARITY : Field := ⟨0x000, 1, 0x020, 3, 3, .rw1c, 0, .c, 1, 8, .any⟩
def HDR.MULTI : Field := ⟨0x000, 1, 0x020, 4, 4, .rw1c, 0, .c, 1, 8, .any⟩
def HDR.BLOCK_ERR : Field := ⟨0x000, 1, 0x020, 63, 16, .rw1c, 0, .c, 1, 8, .any⟩
def HDR.ERR_MASK : Field := ⟨0x000, 1, 0x028, 63, 0, .rwl, 0, .cw, 1, 8, .any⟩
def HDR.INDEX : Field := ⟨0x000, 1, 0x030, 5, 0, .ro, 0, .c, 1, 8, .any⟩
def HDR.VALID : Field := ⟨0x000, 1, 0x030, 8, 8, .rw1c, 0, .c, 1, 8, .special⟩
def HDR.SOURCE : Field := ⟨0x000, 1, 0x030, 23, 16, .ro, 0, .c, 1, 8, .any⟩
def HDR.OFFSET : Field := ⟨0x000, 1, 0x030, 43, 32, .ro, 0, .c, 1, 8, .any⟩
def HDR.ACC_PAGE : Field := ⟨0x000, 1, 0x030, 63, 48, .ro, 0, .c, 1, 8, .any⟩
def HDR.INJ_INDEX : Field := ⟨0x000, 1, 0x038, 5, 0, .rwl, 0, .cw, 1, 8, .any⟩
def HDR.FIRE : Field := ⟨0x000, 1, 0x038, 8, 8, .wo, 0, .cwhfb, 1, 8, .special⟩
def HDR.INJ_PENDING : Field := ⟨0x000, 1, 0x038, 9, 9, .ro, 0, .live, 1, 8, .any⟩
def HDR.LOCK : Field := ⟨0x000, 1, 0x040, 0, 0, .w1s, 0, .cw, 1, 8, .any⟩
def HDR.WRITES : Field := ⟨0x000, 1, 0x048, 31, 0, .ro, 0, .c, 1, 8, .any⟩
def HDR.CLASS : Field := ⟨0x000, 1, 0x050, 2, 0, .ro, 0, .live, 1, 8, .any⟩
def HDR.HELD : Field := ⟨0x000, 1, 0x050, 15, 8, .ro, 0, .live, 1, 8, .any⟩
def HDR.WAITING : Field := ⟨0x000, 1, 0x050, 16, 16, .ro, 0, .live, 1, 8, .any⟩
def HDR.VECTOR : Field := ⟨0x000, 1, 0x058, 10, 0, .rw, 0, .cwhf, 1, 8, .any⟩
def HDR.FUNC : Field := ⟨0x000, 1, 0x058, 20, 16, .rw, 0, .cwhf, 1, 8, .any⟩
def HDR.IRQ_EN : Field := ⟨0x000, 1, 0x058, 23, 23, .rw, 0, .cwhf, 1, 8, .any⟩
def HDR.TO_CORES : Field := ⟨0x000, 1, 0x058, 24, 24, .rw, 0, .cwhf, 1, 8, .any⟩
def HDR.MOD_EVENTS : Field := ⟨0x000, 1, 0x058, 47, 40, .rw, 0, .cwhf, 1, 8, .any⟩
def HDR.MOD_TIME : Field := ⟨0x000, 1, 0x058, 63, 48, .rw, 0, .cwhf, 1, 8, .any⟩
def HDR.ERR_EVENTS : Field := ⟨0x000, 1, 0x0E8, 63, 0, .ro, 0, .c, 1, 8, .any⟩
def HDR.ERR_FIRST_TIDE : Field := ⟨0x000, 1, 0x0F0, 63, 0, .ro, 0, .c, 1, 8, .any⟩
def HDR.ERR_FIRST_CHRONO : Field := ⟨0x000, 1, 0x0F8, 63, 0, .ro, 0, .c, 1, 8, .any⟩

/-- Every field of the HDR tables. -/
def HDR.fields : List Field :=
  [HDR.PAGE, HDR.BLOCK, HDR.INSTANCE, HDR.BLOCK_VER, HDR.HDR_VER, HDR.LEAVE_USER, HDR.FUNC_PAGE, HDR.INJECT] ++
  [HDR.NCTR, HDR.BLOCK_CAP, HDR.ENABLE, HDR.BLOCK_RESET, HDR.QUIESCE, HDR.OUT_OF_SERVICE, HDR.ENABLED, HDR.QUIESCED] ++
  [HDR.BUSY, HDR.OOS, HDR.LOCKED, HDR.INFLIGHT, HDR.IRQ_PENDING, HDR.ACCESS_SIZE, HDR.LOCKED_WRITE, HDR.INJECTED] ++
  [HDR.REG_PARITY, HDR.MULTI, HDR.BLOCK_ERR, HDR.ERR_MASK, HDR.INDEX, HDR.VALID, HDR.SOURCE, HDR.OFFSET] ++
  [HDR.ACC_PAGE, HDR.INJ_INDEX, HDR.FIRE, HDR.INJ_PENDING, HDR.LOCK, HDR.WRITES, HDR.CLASS, HDR.HELD] ++
  [HDR.WAITING, HDR.VECTOR, HDR.FUNC, HDR.IRQ_EN, HDR.TO_CORES, HDR.MOD_EVENTS, HDR.MOD_TIME, HDR.ERR_EVENTS] ++
  [HDR.ERR_FIRST_TIDE, HDR.ERR_FIRST_CHRONO]

/-! Fields of the GLOBAL registers, from Table 04-4, Table 02-16, Table 02-17, Table 02-18 of the spec. -/

def GLOBAL.UNMAPPED_COUNT : Field := ⟨0x000, 1, 0x060, 63, 0, .ro, 0, .c, 1, 8, .any⟩
def GLOBAL.PART : Field := ⟨0x000, 1, 0x100, 15, 0, .ro, 0, .live, 1, 8, .any⟩
def GLOBAL.STEPPING : Field := ⟨0x000, 1, 0x100, 23, 16, .ro, 0, .live, 1, 8, .any⟩
def GLOBAL.CHRONO : Field := ⟨0x000, 1, 0x108, 63, 0, .ro, 0, .live, 1, 8, .any⟩
def GLOBAL.NODE_ID : Field := ⟨0x000, 1, 0x110, 15, 0, .ro, 0, .live, 1, 8, .any⟩
def GLOBAL.NODE_VALID : Field := ⟨0x000, 1, 0x110, 16, 16, .ro, 0, .live, 1, 8, .any⟩
def GLOBAL.IS_LEAD : Field := ⟨0x000, 1, 0x110, 17, 17, .ro, 0, .live, 1, 8, .any⟩
def GLOBAL.SCRATCH : Field := ⟨0x000, 1, 0x130, 63, 0, .rw, 0, .cwhf, 1, 8, .any⟩
def GLOBAL.PRESENT : Field := ⟨0x000, 1, 0x140, 63, 0, .ro, 0, .live, 4, 8, .any⟩
def GLOBAL.ERR_SUMMARY : Field := ⟨0x000, 1, 0x160, 63, 0, .ro, 0, .live, 4, 8, .any⟩
def GLOBAL.LEAD_CAND : Field := ⟨0x000, 1, 0x118, 0, 0, .ro, 0, .live, 1, 8, .any⟩
def GLOBAL.TWIN_SEL : Field := ⟨0x000, 1, 0x118, 3, 1, .ro, 0, .live, 1, 8, .any⟩
def GLOBAL.BOOT_SRC : Field := ⟨0x000, 1, 0x118, 5, 4, .ro, 0, .live, 1, 8, .any⟩
def GLOBAL.H_BIF : Field := ⟨0x000, 1, 0x118, 6, 6, .ro, 0, .live, 1, 8, .any⟩
def GLOBAL.M_AS : Field := ⟨0x000, 1, 0x118, 8, 7, .ro, 0, .live, 1, 8, .any⟩
def GLOBAL.LIVE : Field := ⟨0x000, 1, 0x118, 24, 16, .ro, 0, .live, 1, 8, .any⟩
def GLOBAL.TIDE_IN_LEVEL : Field := ⟨0x000, 1, 0x120, 0, 0, .ro, 0, .live, 1, 8, .any⟩
def GLOBAL.PWR_BRAKE_LEVEL : Field := ⟨0x000, 1, 0x120, 1, 1, .ro, 0, .live, 1, 8, .any⟩
def GLOBAL.PERST0_LEVEL : Field := ⟨0x000, 1, 0x120, 2, 2, .ro, 0, .live, 1, 8, .any⟩
def GLOBAL.PERST1_LEVEL : Field := ⟨0x000, 1, 0x120, 3, 3, .ro, 0, .live, 1, 8, .any⟩
def GLOBAL.TIDE_IN_STUCK : Field := ⟨0x000, 1, 0x120, 8, 8, .rw1c, 0, .c, 1, 8, .any⟩
def GLOBAL.PWR_BRAKE_STUCK : Field := ⟨0x000, 1, 0x120, 9, 9, .rw1c, 0, .c, 1, 8, .any⟩
def GLOBAL.TIDE_IN_AT_RELEASE : Field := ⟨0x000, 1, 0x120, 10, 10, .rw1c, 0, .live, 1, 8, .any⟩
def GLOBAL.TIDE_IN_FAST : Field := ⟨0x000, 1, 0x120, 11, 11, .rw1c, 0, .c, 1, 8, .any⟩
def GLOBAL.STRAP_CHANGED : Field := ⟨0x000, 1, 0x120, 12, 12, .rw1c, 0, .c, 1, 8, .any⟩
def GLOBAL.STUCK_SPAN : Field := ⟨0x000, 1, 0x128, 5, 0, .rwl, 10, .cw, 1, 8, (.within 1 60)⟩
def GLOBAL.TIDE_IN_TERM : Field := ⟨0x000, 1, 0x128, 8, 8, .rw, 1, .cw, 1, 8, .any⟩

/-- Every field of the GLOBAL tables. -/
def GLOBAL.fields : List Field :=
  [GLOBAL.UNMAPPED_COUNT, GLOBAL.PART, GLOBAL.STEPPING, GLOBAL.CHRONO, GLOBAL.NODE_ID, GLOBAL.NODE_VALID, GLOBAL.IS_LEAD, GLOBAL.SCRATCH] ++
  [GLOBAL.PRESENT, GLOBAL.ERR_SUMMARY, GLOBAL.LEAD_CAND, GLOBAL.TWIN_SEL, GLOBAL.BOOT_SRC, GLOBAL.H_BIF, GLOBAL.M_AS, GLOBAL.LIVE] ++
  [GLOBAL.TIDE_IN_LEVEL, GLOBAL.PWR_BRAKE_LEVEL, GLOBAL.PERST0_LEVEL, GLOBAL.PERST1_LEVEL, GLOBAL.TIDE_IN_STUCK, GLOBAL.PWR_BRAKE_STUCK, GLOBAL.TIDE_IN_AT_RELEASE, GLOBAL.TIDE_IN_FAST] ++
  [GLOBAL.STRAP_CHANGED, GLOBAL.STUCK_SPAN, GLOBAL.TIDE_IN_TERM]

/-! Fields of the ROLAR registers, from Table 23-5 of the spec. -/

def ROLAR.VERIFY_FAILS : Field := ⟨0x001, 1, 0x060, 63, 0, .ro, 0, .c, 1, 8, .any⟩
def ROLAR.SESSIONS : Field := ⟨0x001, 1, 0x068, 63, 0, .ro, 0, .c, 1, 8, .any⟩
def ROLAR.ARB_LOST : Field := ⟨0x001, 1, 0x070, 63, 0, .ro, 0, .c, 1, 8, .any⟩
def ROLAR.ARB_DROPS : Field := ⟨0x001, 1, 0x078, 63, 0, .ro, 0, .c, 1, 8, .any⟩
def ROLAR.FUSE_BLOWS : Field := ⟨0x001, 1, 0x080, 63, 0, .ro, 0, .c, 1, 8, .any⟩
def ROLAR.STATE : Field := ⟨0x001, 1, 0x100, 1, 0, .ro, 0, .live, 1, 8, .any⟩
def ROLAR.SRC : Field := ⟨0x001, 1, 0x100, 3, 2, .ro, 0, .live, 1, 8, .any⟩
def ROLAR.BOOT_SLOT : Field := ⟨0x001, 1, 0x100, 4, 4, .ro, 0, .live, 1, 8, .any⟩
def ROLAR.ROLAR_SLOT : Field := ⟨0x001, 1, 0x100, 5, 5, .ro, 0, .live, 1, 8, .any⟩
def ROLAR.FALLBACK : Field := ⟨0x001, 1, 0x100, 6, 6, .ro, 0, .live, 1, 8, .any⟩
def ROLAR.RUN_SVN : Field := ⟨0x001, 1, 0x100, 15, 8, .ro, 0, .live, 1, 8, .any⟩
def ROLAR.FUSE_SVN : Field := ⟨0x001, 1, 0x100, 23, 16, .ro, 0, .live, 1, 8, .any⟩
def ROLAR.FW_REVOKED : Field := ⟨0x001, 1, 0x100, 27, 24, .ro, 0, .live, 1, 8, .any⟩
def ROLAR.RUN_VERSION : Field := ⟨0x001, 1, 0x108, 63, 0, .ro, 0, .live, 1, 8, .any⟩
def ROLAR.GEN_MASK : Field := ⟨0x001, 1, 0x110, 31, 0, .ro, 0, .live, 1, 8, .any⟩
def ROLAR.BOOT_ADDR : Field := ⟨0x001, 1, 0x118, 47, 0, .rw, 0, .cw, 1, 8, .any⟩
def ROLAR.BOOT_LEN : Field := ⟨0x001, 1, 0x120, 24, 0, .rw, 0, .cw, 1, 8, .any⟩
def ROLAR.BOOT_GO : Field := ⟨0x001, 1, 0x120, 32, 32, .w1s, 0, .cw, 1, 8, .any⟩
def ROLAR.COMMIT : Field := ⟨0x001, 1, 0x128, 0, 0, .w1s, 0, .cwhfb, 1, 8, .any⟩
def ROLAR.LOCKDOWN : Field := ⟨0x001, 1, 0x130, 0, 0, .w1s, 0, .cw, 1, 8, .any⟩
def ROLAR.LOCK_DEADLINE_MS : Field := ⟨0x001, 1, 0x130, 31, 16, .rwl, 0, .cw, 1, 8, .any⟩
def ROLAR.DONE : Field := ⟨0x001, 1, 0x138, 0, 0, .ro, 0, .cw, 1, 8, .any⟩
def ROLAR.BY : Field := ⟨0x001, 1, 0x138, 2, 1, .ro, 0, .cw, 1, 8, .any⟩
def ROLAR.LOCK_SET : Field := ⟨0x001, 1, 0x140, 63, 0, .rwl, 0, .cw, 4, 8, .any⟩
def ROLAR.KEY_SLOT : Field := ⟨0x001, 1, 0x160, 2, 0, .rw, 0, .cw, 1, 8, .any⟩
def ROLAR.OP : Field := ⟨0x001, 1, 0x160, 10, 8, .wo, 0, .cwhfb, 1, 8, .any⟩
def ROLAR.MIN_SVN : Field := ⟨0x001, 1, 0x160, 63, 32, .rw, 0, .cw, 1, 8, .any⟩
def ROLAR.KEY_ADDR : Field := ⟨0x001, 1, 0x168, 47, 0, .rw, 0, .cw, 1, 8, .any⟩
def ROLAR.BUSY : Field := ⟨0x001, 1, 0x170, 0, 0, .ro, 0, .live, 1, 8, .any⟩
def ROLAR.KDONE : Field := ⟨0x001, 1, 0x170, 1, 1, .ro, 0, .live, 1, 8, .any⟩
def ROLAR.RESULT : Field := ⟨0x001, 1, 0x170, 11, 8, .ro, 0, .live, 1, 8, .any⟩
def ROLAR.KEYS_VALID : Field := ⟨0x001, 1, 0x170, 23, 16, .ro, 0, .live, 1, 8, .any⟩
def ROLAR.KEY_MIN_SVN : Field := ⟨0x001, 1, 0x180, 31, 0, .ro, 0, .live, 8, 8, .any⟩
def ROLAR.KEY_TAG : Field := ⟨0x001, 1, 0x180, 63, 32, .ro, 0, .live, 8, 8, .any⟩

/-- Every field of the ROLAR tables. -/
def ROLAR.fields : List Field :=
  [ROLAR.VERIFY_FAILS, ROLAR.SESSIONS, ROLAR.ARB_LOST, ROLAR.ARB_DROPS, ROLAR.FUSE_BLOWS, ROLAR.STATE, ROLAR.SRC, ROLAR.BOOT_SLOT] ++
  [ROLAR.ROLAR_SLOT, ROLAR.FALLBACK, ROLAR.RUN_SVN, ROLAR.FUSE_SVN, ROLAR.FW_REVOKED, ROLAR.RUN_VERSION, ROLAR.GEN_MASK, ROLAR.BOOT_ADDR] ++
  [ROLAR.BOOT_LEN, ROLAR.BOOT_GO, ROLAR.COMMIT, ROLAR.LOCKDOWN, ROLAR.LOCK_DEADLINE_MS, ROLAR.DONE, ROLAR.BY, ROLAR.LOCK_SET] ++
  [ROLAR.KEY_SLOT, ROLAR.OP, ROLAR.MIN_SVN, ROLAR.KEY_ADDR, ROLAR.BUSY, ROLAR.KDONE, ROLAR.RESULT, ROLAR.KEYS_VALID] ++
  [ROLAR.KEY_MIN_SVN, ROLAR.KEY_TAG]

/-! Fields of the LEAVE registers, from Table 03-7 of the spec. -/

def LEAVE.GRANTS : Field := ⟨0x002, 1, 0x060, 63, 0, .ro, 0, .cw, 1, 8, .any⟩
def LEAVE.TIMEOUTS : Field := ⟨0x002, 1, 0x068, 63, 0, .ro, 0, .cw, 1, 8, .any⟩
def LEAVE.QFULL : Field := ⟨0x002, 1, 0x070, 63, 0, .ro, 0, .cw, 1, 8, .any⟩
def LEAVE.PACING_US : Field := ⟨0x002, 1, 0x078, 63, 0, .ro, 0, .cw, 1, 8, .any⟩
def LEAVE.SUSTAINED_BUDGET : Field := ⟨0x002, 1, 0x100, 9, 0, .rwl, 640, .cw, 1, 8, (.within 350 640)⟩
def LEAVE.BASE_RESERVE : Field := ⟨0x002, 1, 0x100, 25, 16, .ro, 230, .cw, 1, 8, .any⟩
def LEAVE.EFFECTIVE : Field := ⟨0x002, 1, 0x108, 9, 0, .ro, 0, .live, 1, 8, .any⟩
def LEAVE.HELD : Field := ⟨0x002, 1, 0x108, 25, 16, .ro, 0, .live, 1, 8, .any⟩
def LEAVE.QUEUED : Field := ⟨0x002, 1, 0x108, 40, 32, .ro, 0, .live, 1, 8, .any⟩
def LEAVE.FLOOR_BRAKE : Field := ⟨0x002, 1, 0x108, 48, 48, .ro, 0, .live, 1, 8, .any⟩
def LEAVE.FLOOR_LOWBAND : Field := ⟨0x002, 1, 0x108, 49, 49, .ro, 0, .live, 1, 8, .any⟩
def LEAVE.FLOOR_THERMAL : Field := ⟨0x002, 1, 0x108, 50, 50, .ro, 0, .live, 1, 8, .any⟩
def LEAVE.PACING : Field := ⟨0x002, 1, 0x108, 51, 51, .ro, 0, .live, 1, 8, .any⟩
def LEAVE.DEF_TIMEOUT : Field := ⟨0x002, 1, 0x110, 19, 0, .rw, 1000, .cw, 1, 8, (.within 10 1000000)⟩
def LEAVE.CLASS_COST : Field := ⟨0x002, 1, 0x118, 47, 0, .ro, 0, .live, 1, 8, .any⟩
def LEAVE.PD3_OFF : Field := ⟨0x002, 1, 0x120, 3, 3, .rwl, 0, .cw, 1, 8, .special⟩
def LEAVE.PD5_OFF : Field := ⟨0x002, 1, 0x120, 5, 5, .rwl, 0, .cw, 1, 8, .special⟩
def LEAVE.PD_GOOD : Field := ⟨0x002, 1, 0x128, 5, 0, .ro, 0, .live, 1, 8, .any⟩
def LEAVE.OFF_REFUSED : Field := ⟨0x002, 1, 0x128, 8, 8, .rw1c, 0, .c, 1, 8, .any⟩
def LEAVE.TIERS_READY : Field := ⟨0x002, 1, 0x128, 9, 9, .ro, 0, .live, 1, 8, .any⟩
def LEAVE.LOWBAND_SEEN : Field := ⟨0x002, 1, 0x130, 0, 0, .rw1c, 0, .c, 1, 8, .any⟩
def LEAVE.OV_SEEN : Field := ⟨0x002, 1, 0x130, 1, 1, .rw1c, 0, .c, 1, 8, .any⟩
def LEAVE.THROTTLE_SEEN : Field := ⟨0x002, 1, 0x130, 2, 2, .rw1c, 0, .c, 1, 8, .any⟩
def LEAVE.TRIP_SEEN : Field := ⟨0x002, 1, 0x130, 3, 3, .rw1c, 0, .c, 1, 8, .any⟩
def LEAVE.SUPPLY_IN_BAND_START : Field := ⟨0x002, 1, 0x130, 4, 4, .rw1c, 0, .c, 1, 8, .any⟩
def LEAVE.THERMAL_IN_BAND_START : Field := ⟨0x002, 1, 0x130, 5, 5, .rw1c, 0, .c, 1, 8, .any⟩
def LEAVE.P54V : Field := ⟨0x002, 1, 0x138, 15, 0, .ro, 0, .live, 1, 8, .any⟩
def LEAVE.DIE_TEMP : Field := ⟨0x002, 1, 0x138, 31, 16, .ro, 0, .live, 1, 8, .any⟩
def LEAVE.POWER : Field := ⟨0x002, 1, 0x138, 47, 32, .ro, 0, .live, 1, 8, .any⟩

/-- Every field of the LEAVE tables. -/
def LEAVE.fields : List Field :=
  [LEAVE.GRANTS, LEAVE.TIMEOUTS, LEAVE.QFULL, LEAVE.PACING_US, LEAVE.SUSTAINED_BUDGET, LEAVE.BASE_RESERVE, LEAVE.EFFECTIVE, LEAVE.HELD] ++
  [LEAVE.QUEUED, LEAVE.FLOOR_BRAKE, LEAVE.FLOOR_LOWBAND, LEAVE.FLOOR_THERMAL, LEAVE.PACING, LEAVE.DEF_TIMEOUT, LEAVE.CLASS_COST, LEAVE.PD3_OFF] ++
  [LEAVE.PD5_OFF, LEAVE.PD_GOOD, LEAVE.OFF_REFUSED, LEAVE.TIERS_READY, LEAVE.LOWBAND_SEEN, LEAVE.OV_SEEN, LEAVE.THROTTLE_SEEN, LEAVE.TRIP_SEEN] ++
  [LEAVE.SUPPLY_IN_BAND_START, LEAVE.THERMAL_IN_BAND_START, LEAVE.P54V, LEAVE.DIE_TEMP, LEAVE.POWER]

/-! Fields of the RESET registers, from Table 03-8 of the spec. -/

def RESET.WARM_COUNT : Field := ⟨0x003, 1, 0x060, 63, 0, .ro, 0, .c, 1, 8, .any⟩
def RESET.HERD_COUNT : Field := ⟨0x003, 1, 0x068, 63, 0, .ro, 0, .c, 1, 8, .any⟩
def RESET.FLR_COUNT : Field := ⟨0x003, 1, 0x070, 63, 0, .ro, 0, .c, 1, 8, .any⟩
def RESET.CAUSE : Field := ⟨0x003, 1, 0x100, 3, 0, .ro, 0, .live, 1, 8, .any⟩
def RESET.ALSO_WEAKER : Field := ⟨0x003, 1, 0x100, 8, 8, .ro, 0, .live, 1, 8, .any⟩
def RESET.WARM_REQ : Field := ⟨0x003, 1, 0x108, 0, 0, .wo, 0, .cwhfb, 1, 8, .any⟩
def RESET.HERD_REQ : Field := ⟨0x003, 1, 0x108, 1, 1, .wo, 0, .cwhfb, 1, 8, .any⟩
def RESET.HERD_REQ_REFUSED : Field := ⟨0x003, 1, 0x110, 0, 0, .rw1c, 0, .c, 1, 8, .any⟩
def RESET.TRIP_LATCHED : Field := ⟨0x003, 1, 0x110, 1, 1, .ro, 0, .live, 1, 8, .any⟩

/-- Every field of the RESET tables. -/
def RESET.fields : List Field :=
  [RESET.WARM_COUNT, RESET.HERD_COUNT, RESET.FLR_COUNT, RESET.CAUSE, RESET.ALSO_WEAKER, RESET.WARM_REQ, RESET.HERD_REQ, RESET.HERD_REQ_REFUSED] ++
  [RESET.TRIP_LATCHED]

/-! Fields of the CALSTORE registers, from Table 03-10 of the spec. -/

def CALSTORE.WRITES : Field := ⟨0x004, 1, 0x060, 63, 0, .ro, 0, .c, 1, 8, .any⟩
def CALSTORE.INVALID_FOUND : Field := ⟨0x004, 1, 0x068, 63, 0, .ro, 0, .c, 1, 8, .any⟩
def CALSTORE.ACTIVE : Field := ⟨0x004, 1, 0x100, 1, 0, .ro, 0, .live, 1, 8, .any⟩
def CALSTORE.A_VALID : Field := ⟨0x004, 1, 0x100, 2, 2, .ro, 0, .live, 1, 8, .any⟩
def CALSTORE.B_VALID : Field := ⟨0x004, 1, 0x100, 3, 3, .ro, 0, .live, 1, 8, .any⟩
def CALSTORE.FULL_TRAINING : Field := ⟨0x004, 1, 0x100, 4, 4, .rw1c, 0, .c, 1, 8, .any⟩
def CALSTORE.FLASH_FAIL : Field := ⟨0x004, 1, 0x100, 5, 5, .rw1c, 0, .c, 1, 8, .any⟩
def CALSTORE.WRITING : Field := ⟨0x004, 1, 0x100, 6, 6, .ro, 0, .live, 1, 8, .any⟩
def CALSTORE.GEN_EXHAUSTED : Field := ⟨0x004, 1, 0x100, 7, 7, .ro, 0, .live, 1, 8, .any⟩
def CALSTORE.ACTIVE_GEN : Field := ⟨0x004, 1, 0x100, 63, 32, .ro, 0, .live, 1, 8, .any⟩
def CALSTORE.SAVE_NOW : Field := ⟨0x004, 1, 0x108, 0, 0, .wo, 0, .cwhfb, 1, 8, .any⟩
def CALSTORE.WRITE_DISABLE : Field := ⟨0x004, 1, 0x108, 1, 1, .rwl, 0, .cw, 1, 8, .any⟩

/-- Every field of the CALSTORE tables. -/
def CALSTORE.fields : List Field :=
  [CALSTORE.WRITES, CALSTORE.INVALID_FOUND, CALSTORE.ACTIVE, CALSTORE.A_VALID, CALSTORE.B_VALID, CALSTORE.FULL_TRAINING, CALSTORE.FLASH_FAIL, CALSTORE.WRITING] ++
  [CALSTORE.GEN_EXHAUSTED, CALSTORE.ACTIVE_GEN, CALSTORE.SAVE_NOW, CALSTORE.WRITE_DISABLE]

/-! Fields of the HOSTIF registers, from Table 06-5 of the spec. -/

def HOSTIF.LINK_DOWNS : Field := ⟨0x008, 1, 0x060, 63, 0, .ro, 0, .c, 1, 8, .any⟩
def HOSTIF.ATS_REQUESTS : Field := ⟨0x008, 1, 0x068, 63, 0, .ro, 0, .cw, 1, 8, .any⟩
def HOSTIF.TRANSLATION_FAULTS : Field := ⟨0x008, 1, 0x070, 63, 0, .ro, 0, .cw, 1, 8, .any⟩
def HOSTIF.ATS_INVALIDATIONS : Field := ⟨0x008, 1, 0x078, 63, 0, .ro, 0, .cw, 1, 8, .any⟩
def HOSTIF.POISON_COUNT : Field := ⟨0x008, 1, 0x080, 63, 0, .ro, 0, .c, 1, 8, .any⟩
def HOSTIF.ACCESS_DENIED_COUNT : Field := ⟨0x008, 1, 0x088, 63, 0, .ro, 0, .c, 1, 8, .any⟩
def HOSTIF.NARROW_DOORBELL_COUNT : Field := ⟨0x008, 1, 0x090, 63, 0, .ro, 0, .c, 1, 8, .any⟩
def HOSTIF.P0_UP : Field := ⟨0x008, 1, 0x100, 0, 0, .ro, 0, .live, 1, 8, .any⟩
def HOSTIF.P1_UP : Field := ⟨0x008, 1, 0x100, 1, 1, .ro, 0, .live, 1, 8, .any⟩
def HOSTIF.P0_GEN : Field := ⟨0x008, 1, 0x100, 7, 4, .ro, 0, .live, 1, 8, .any⟩
def HOSTIF.P0_WIDTH : Field := ⟨0x008, 1, 0x100, 12, 8, .ro, 0, .live, 1, 8, .any⟩
def HOSTIF.P1_GEN : Field := ⟨0x008, 1, 0x100, 19, 16, .ro, 0, .live, 1, 8, .any⟩
def HOSTIF.P1_WIDTH : Field := ⟨0x008, 1, 0x100, 24, 20, .ro, 0, .live, 1, 8, .any⟩
def HOSTIF.FLIT : Field := ⟨0x008, 1, 0x100, 25, 25, .ro, 0, .live, 1, 8, .any⟩
def HOSTIF.CXL_ACTIVE : Field := ⟨0x008, 1, 0x100, 32, 32, .ro, 0, .live, 1, 8, .any⟩
def HOSTIF.CXL_CACHE : Field := ⟨0x008, 1, 0x100, 33, 33, .ro, 0, .live, 1, 8, .any⟩
def HOSTIF.CXL_MEM : Field := ⟨0x008, 1, 0x100, 34, 34, .ro, 0, .live, 1, 8, .any⟩
def HOSTIF.NUM_VFS : Field := ⟨0x008, 1, 0x100, 44, 40, .ro, 0, .live, 1, 8, .any⟩
def HOSTIF.X8X8 : Field := ⟨0x008, 1, 0x100, 45, 45, .ro, 0, .live, 1, 8, .any⟩
def HOSTIF.HCACHE_EN : Field := ⟨0x008, 1, 0x108, 0, 0, .rwl, 1, .cw, 1, 8, .any⟩
def HOSTIF.RUNAHEAD_HOST : Field := ⟨0x008, 1, 0x108, 1, 1, .rw, 1, .cw, 1, 8, .any⟩
def HOSTIF.PEER_REQ_ID : Field := ⟨0x008, 1, 0x180, 15, 0, .rwl, 0, .cw, 16, 8, .any⟩
def HOSTIF.PEER_FUNC : Field := ⟨0x008, 1, 0x180, 20, 16, .rwl, 0, .cw, 16, 8, .any⟩
def HOSTIF.PEER_VALID : Field := ⟨0x008, 1, 0x180, 24, 24, .rwl, 0, .cw, 16, 8, .any⟩

/-- Every field of the HOSTIF tables. -/
def HOSTIF.fields : List Field :=
  [HOSTIF.LINK_DOWNS, HOSTIF.ATS_REQUESTS, HOSTIF.TRANSLATION_FAULTS, HOSTIF.ATS_INVALIDATIONS, HOSTIF.POISON_COUNT, HOSTIF.ACCESS_DENIED_COUNT, HOSTIF.NARROW_DOORBELL_COUNT, HOSTIF.P0_UP] ++
  [HOSTIF.P1_UP, HOSTIF.P0_GEN, HOSTIF.P0_WIDTH, HOSTIF.P1_GEN, HOSTIF.P1_WIDTH, HOSTIF.FLIT, HOSTIF.CXL_ACTIVE, HOSTIF.CXL_CACHE] ++
  [HOSTIF.CXL_MEM, HOSTIF.NUM_VFS, HOSTIF.X8X8, HOSTIF.HCACHE_EN, HOSTIF.RUNAHEAD_HOST, HOSTIF.PEER_REQ_ID, HOSTIF.PEER_FUNC, HOSTIF.PEER_VALID]

/-! Fields of the COHERENCE registers, from Table 06-6 of the spec. -/

def COHERENCE.BIAS_FLIPS : Field := ⟨0x009, 1, 0x060, 63, 0, .ro, 0, .cw, 1, 8, .any⟩
def COHERENCE.BISNP_SENT : Field := ⟨0x009, 1, 0x068, 63, 0, .ro, 0, .cw, 1, 8, .any⟩
def COHERENCE.BIAS_VIOLATIONS : Field := ⟨0x009, 1, 0x070, 63, 0, .ro, 0, .c, 1, 8, .any⟩
def COHERENCE.SF_EVICTIONS : Field := ⟨0x009, 1, 0x078, 63, 0, .ro, 0, .cw, 1, 8, .any⟩
def COHERENCE.HCACHE_FILLS : Field := ⟨0x009, 1, 0x080, 63, 0, .ro, 0, .cw, 1, 8, .any⟩
def COHERENCE.HCACHE_SNOOPS : Field := ⟨0x009, 1, 0x088, 63, 0, .ro, 0, .cw, 1, 8, .any⟩
def COHERENCE.REGION : Field := ⟨0x009, 1, 0x100, 9, 0, .rw, 0, .cw, 1, 8, .any⟩
def COHERENCE.OP : Field := ⟨0x009, 1, 0x100, 14, 12, .wo, 0, .cwhfb, 1, 8, .any⟩
def COHERENCE.COUNT : Field := ⟨0x009, 1, 0x100, 22, 16, .rw, 1, .cw, 1, 8, .any⟩
def COHERENCE.PAGE : Field := ⟨0x009, 1, 0x100, 57, 32, .rw, 0, .cw, 1, 8, .any⟩
def COHERENCE.BUSY : Field := ⟨0x009, 1, 0x108, 0, 0, .ro, 0, .live, 1, 8, .any⟩
def COHERENCE.DONE : Field := ⟨0x009, 1, 0x108, 1, 1, .ro, 0, .live, 1, 8, .any⟩
def COHERENCE.RESULT : Field := ⟨0x009, 1, 0x108, 11, 8, .ro, 0, .live, 1, 8, .any⟩
def COHERENCE.QUERY_HOST : Field := ⟨0x009, 1, 0x108, 16, 16, .ro, 0, .live, 1, 8, .any⟩
def COHERENCE.REFUSED : Field := ⟨0x009, 1, 0x108, 17, 17, .rw1c, 0, .c, 1, 8, .any⟩
def COHERENCE.SF_USED : Field := ⟨0x009, 1, 0x110, 22, 0, .ro, 0, .live, 1, 8, .any⟩
def COHERENCE.HCACHE_USED : Field := ⟨0x009, 1, 0x118, 16, 0, .ro, 0, .live, 1, 8, .any⟩

/-- Every field of the COHERENCE tables. -/
def COHERENCE.fields : List Field :=
  [COHERENCE.BIAS_FLIPS, COHERENCE.BISNP_SENT, COHERENCE.BIAS_VIOLATIONS, COHERENCE.SF_EVICTIONS, COHERENCE.HCACHE_FILLS, COHERENCE.HCACHE_SNOOPS, COHERENCE.REGION, COHERENCE.OP] ++
  [COHERENCE.COUNT, COHERENCE.PAGE, COHERENCE.BUSY, COHERENCE.DONE, COHERENCE.RESULT, COHERENCE.QUERY_HOST, COHERENCE.REFUSED, COHERENCE.SF_USED] ++
  [COHERENCE.HCACHE_USED]

/-! Fields of the ATTACH registers, from Table 07-5 of the spec. -/

def ATTACH.LOSSES : Field := ⟨0x00A, 1, 0x060, 63, 0, .ro, 0, .c, 1, 8, .any⟩
def ATTACH.CLAIMS : Field := ⟨0x00A, 1, 0x068, 63, 0, .ro, 0, .c, 1, 8, .any⟩
def ATTACH.DEFAULT_ROW_COUNT : Field := ⟨0x00A, 1, 0x070, 63, 0, .ro, 0, .c, 1, 8, .any⟩
def ATTACH.PARK_FULL_COUNT : Field := ⟨0x00A, 1, 0x078, 63, 0, .ro, 0, .c, 1, 8, .any⟩
def ATTACH.PARK_CROSSINGS : Field := ⟨0x00A, 1, 0x080, 63, 0, .ro, 0, .c, 1, 8, .any⟩
def ATTACH.DROPPED_SCATTERS : Field := ⟨0x00A, 1, 0x088, 63, 0, .ro, 0, .c, 1, 8, .any⟩
def ATTACH.HOST_HEARTBEAT : Field := ⟨0x00A, 1, 0x100, 63, 0, .rw, 0, .cw, 1, 8, .special⟩
def ATTACH.HB_SPAN : Field := ⟨0x00A, 1, 0x108, 15, 0, .rwl, 500, .cw, 1, 8, (.within 200 60000)⟩
def ATTACH.AUTH_REQUIRED : Field := ⟨0x00A, 1, 0x108, 16, 16, .rwl, 1, .cw, 1, 8, .any⟩
def ATTACH.PARK_QUOTA : Field := ⟨0x00A, 1, 0x110, 19, 0, .rwl, 65536, .cw, 1, 8, (.within 0 524288)⟩
def ATTACH.MARK : Field := ⟨0x00A, 1, 0x118, 19, 0, .rw, 49152, .cw, 1, 8, .any⟩
def ATTACH.HYST : Field := ⟨0x00A, 1, 0x118, 51, 32, .rw, 4096, .cw, 1, 8, .any⟩
def ATTACH.PARK_MIB : Field := ⟨0x00A, 1, 0x120, 19, 0, .ro, 0, .live, 1, 8, .any⟩
def ATTACH.LEVEL : Field := ⟨0x00A, 1, 0x120, 32, 32, .ro, 0, .live, 1, 8, .any⟩
def ATTACH.CROSSED : Field := ⟨0x00A, 1, 0x120, 33, 33, .rw1c, 0, .c, 1, 8, .any⟩
def ATTACH.ARMED : Field := ⟨0x00A, 1, 0x120, 34, 34, .ro, 0, .live, 1, 8, .any⟩
def ATTACH.STATE : Field := ⟨0x00A, 1, 0x128, 1, 0, .ro, 0, .live, 1, 8, .any⟩
def ATTACH.LOSS_CAUSE : Field := ⟨0x00A, 1, 0x128, 5, 4, .ro, 0, .live, 1, 8, .any⟩
def ATTACH.AUTH_OK : Field := ⟨0x00A, 1, 0x128, 8, 8, .ro, 0, .live, 1, 8, .any⟩
def ATTACH.HB_ARMED : Field := ⟨0x00A, 1, 0x128, 9, 9, .ro, 0, .live, 1, 8, .any⟩
def ATTACH.SUBST : Field := ⟨0x00A, 1, 0x128, 10, 10, .ro, 0, .live, 1, 8, .any⟩
def ATTACH.RESULT : Field := ⟨0x00A, 1, 0x128, 19, 16, .ro, 0, .live, 1, 8, .any⟩
def ATTACH.CLAIM_ID : Field := ⟨0x00A, 1, 0x130, 63, 0, .rw, 0, .cw, 1, 8, .any⟩
def ATTACH.CLAIM : Field := ⟨0x00A, 1, 0x138, 0, 0, .wo, 0, .cwhfb, 1, 8, .any⟩
def ATTACH.DISCARD : Field := ⟨0x00A, 1, 0x138, 1, 1, .wo, 0, .cwhfb, 1, 8, .any⟩
def ATTACH.HOST_TIER_RESUME : Field := ⟨0x00A, 1, 0x138, 2, 2, .wo, 0, .cwhfb, 1, 8, .any⟩
def ATTACH.SEL_FUNC : Field := ⟨0x00A, 1, 0x140, 4, 0, .rw, 0, .cw, 1, 8, .any⟩
def ATTACH.SEL_RING : Field := ⟨0x00A, 1, 0x140, 13, 8, .rw, 0, .cw, 1, 8, .any⟩
def ATTACH.LEDGER_H : Field := ⟨0x00A, 1, 0x800, 63, 0, .ro, 0, .live, 16, 8, .any⟩
def ATTACH.LEDGER_P : Field := ⟨0x00A, 1, 0x880, 63, 0, .ro, 0, .live, 4, 8, .any⟩

/-- Every field of the ATTACH tables. -/
def ATTACH.fields : List Field :=
  [ATTACH.LOSSES, ATTACH.CLAIMS, ATTACH.DEFAULT_ROW_COUNT, ATTACH.PARK_FULL_COUNT, ATTACH.PARK_CROSSINGS, ATTACH.DROPPED_SCATTERS, ATTACH.HOST_HEARTBEAT, ATTACH.HB_SPAN] ++
  [ATTACH.AUTH_REQUIRED, ATTACH.PARK_QUOTA, ATTACH.MARK, ATTACH.HYST, ATTACH.PARK_MIB, ATTACH.LEVEL, ATTACH.CROSSED, ATTACH.ARMED] ++
  [ATTACH.STATE, ATTACH.LOSS_CAUSE, ATTACH.AUTH_OK, ATTACH.HB_ARMED, ATTACH.SUBST, ATTACH.RESULT, ATTACH.CLAIM_ID, ATTACH.CLAIM] ++
  [ATTACH.DISCARD, ATTACH.HOST_TIER_RESUME, ATTACH.SEL_FUNC, ATTACH.SEL_RING, ATTACH.LEDGER_H, ATTACH.LEDGER_P]

/-! Fields of the RING registers, from Table 08-6 of the spec. -/

def RING.FETCHED : Field := ⟨0x010, 64, 0x060, 63, 0, .ro, 0, .cwf, 1, 8, .any⟩
def RING.COMPLETED : Field := ⟨0x010, 64, 0x068, 63, 0, .ro, 0, .cwf, 1, 8, .any⟩
def RING.ERRORED : Field := ⟨0x010, 64, 0x070, 63, 0, .ro, 0, .cwf, 1, 8, .any⟩
def RING.CQ_FULL_STALLS : Field := ⟨0x010, 64, 0x078, 63, 0, .ro, 0, .cwf, 1, 8, .any⟩
def RING.CQ_CROSSINGS : Field := ⟨0x010, 64, 0x080, 63, 0, .ro, 0, .cwf, 1, 8, .any⟩
def RING.SQ_BASE_ADDR : Field := ⟨0x010, 64, 0x100, 47, 0, .rw, 0, .cwf, 1, 8, .any⟩
def RING.SQ_BASE_LOC : Field := ⟨0x010, 64, 0x100, 63, 63, .rw, 0, .cwf, 1, 8, .any⟩
def RING.LOG_DEPTH : Field := ⟨0x010, 64, 0x108, 4, 0, .rw, 4, .cwf, 1, 8, .any⟩
def RING.UNORDERED : Field := ⟨0x010, 64, 0x108, 8, 8, .rw, 0, .cwf, 1, 8, .any⟩
def RING.CQ_SEL : Field := ⟨0x010, 64, 0x108, 21, 16, .rw, 0, .cwf, 1, 8, .any⟩
def RING.PRIO : Field := ⟨0x010, 64, 0x108, 29, 24, .rw, 32, .cwf, 1, 8, .any⟩
def RING.WINDOW : Field := ⟨0x010, 64, 0x108, 44, 32, .rw, 256, .cwf, 1, 8, .any⟩
def RING.SLICE_US : Field := ⟨0x010, 64, 0x108, 57, 48, .rw, 64, .cwf, 1, 8, .any⟩
def RING.SQ_ENABLE : Field := ⟨0x010, 64, 0x110, 0, 0, .rw, 0, .cwf, 1, 8, .special⟩
def RING.SQ_RETRY : Field := ⟨0x010, 64, 0x110, 1, 1, .w1s, 0, .cwhfb, 1, 8, .special⟩
def RING.SQ_HEAD : Field := ⟨0x010, 64, 0x118, 15, 0, .ro, 0, .live, 1, 8, .any⟩
def RING.SQ_TAIL : Field := ⟨0x010, 64, 0x118, 31, 16, .ro, 0, .live, 1, 8, .any⟩
def RING.INFLIGHT : Field := ⟨0x010, 64, 0x118, 44, 32, .ro, 0, .live, 1, 8, .any⟩
def RING.SQ_ACTIVE : Field := ⟨0x010, 64, 0x118, 48, 48, .ro, 0, .live, 1, 8, .any⟩
def RING.FAULTED : Field := ⟨0x010, 64, 0x118, 49, 49, .ro, 0, .live, 1, 8, .any⟩
def RING.CQ_BASE_ADDR : Field := ⟨0x010, 64, 0x120, 47, 0, .rw, 0, .cwf, 1, 8, .any⟩
def RING.CQ_BASE_LOC : Field := ⟨0x010, 64, 0x120, 63, 63, .rw, 0, .cwf, 1, 8, .any⟩
def RING.CQ_LOG_DEPTH : Field := ⟨0x010, 64, 0x128, 4, 0, .rw, 4, .cwf, 1, 8, .any⟩
def RING.CQ_ENABLE : Field := ⟨0x010, 64, 0x130, 0, 0, .rw, 0, .cwf, 1, 8, .special⟩
def RING.CQ_HEAD : Field := ⟨0x010, 64, 0x138, 15, 0, .ro, 0, .live, 1, 8, .any⟩
def RING.CQ_TAIL : Field := ⟨0x010, 64, 0x138, 31, 16, .ro, 0, .live, 1, 8, .any⟩
def RING.PHASE : Field := ⟨0x010, 64, 0x138, 32, 32, .ro, 0, .live, 1, 8, .any⟩
def RING.CQ_ACTIVE : Field := ⟨0x010, 64, 0x138, 48, 48, .ro, 0, .live, 1, 8, .any⟩
def RING.FULL : Field := ⟨0x010, 64, 0x138, 50, 50, .ro, 0, .live, 1, 8, .any⟩
def RING.MARK : Field := ⟨0x010, 64, 0x140, 15, 0, .rw, 49152, .cwf, 1, 8, .any⟩
def RING.HYST : Field := ⟨0x010, 64, 0x140, 47, 32, .rw, 4096, .cwf, 1, 8, .any⟩
def RING.LEVEL : Field := ⟨0x010, 64, 0x148, 0, 0, .ro, 0, .live, 1, 8, .any⟩
def RING.CROSSED : Field := ⟨0x010, 64, 0x148, 1, 1, .rw1c, 0, .cwf, 1, 8, .any⟩
def RING.ARMED : Field := ⟨0x010, 64, 0x148, 2, 2, .ro, 0, .live, 1, 8, .any⟩

/-- Every field of the RING tables. -/
def RING.fields : List Field :=
  [RING.FETCHED, RING.COMPLETED, RING.ERRORED, RING.CQ_FULL_STALLS, RING.CQ_CROSSINGS, RING.SQ_BASE_ADDR, RING.SQ_BASE_LOC, RING.LOG_DEPTH] ++
  [RING.UNORDERED, RING.CQ_SEL, RING.PRIO, RING.WINDOW, RING.SLICE_US, RING.SQ_ENABLE, RING.SQ_RETRY, RING.SQ_HEAD] ++
  [RING.SQ_TAIL, RING.INFLIGHT, RING.SQ_ACTIVE, RING.FAULTED, RING.CQ_BASE_ADDR, RING.CQ_BASE_LOC, RING.CQ_LOG_DEPTH, RING.CQ_ENABLE] ++
  [RING.CQ_HEAD, RING.CQ_TAIL, RING.PHASE, RING.CQ_ACTIVE, RING.FULL, RING.MARK, RING.HYST, RING.LEVEL] ++
  [RING.CROSSED, RING.ARMED]

/-! Fields of the RENNET registers, from Table 09-5 of the spec. -/

def RENNET.TCB_WAITS : Field := ⟨0x050, 1, 0x060, 63, 0, .ro, 0, .cwh, 1, 8, .any⟩
def RENNET.TOMBSTONES : Field := ⟨0x050, 1, 0x068, 63, 0, .ro, 0, .cwh, 1, 8, .any⟩
def RENNET.CTR_UNDERFLOWS : Field := ⟨0x050, 1, 0x070, 63, 0, .ro, 0, .cwh, 1, 8, .any⟩
def RENNET.STAGE_LIMIT : Field := ⟨0x050, 1, 0x100, 7, 0, .rwl, 64, .cw, 1, 8, (.within 2 255)⟩
def RENNET.CTR_ID : Field := ⟨0x050, 1, 0x108, 9, 0, .rw, 0, .cwh, 1, 8, .any⟩
def RENNET.OP : Field := ⟨0x050, 1, 0x108, 18, 16, .wo, 0, .cwhfb, 1, 8, .any⟩
def RENNET.COUNT : Field := ⟨0x050, 1, 0x108, 63, 32, .rw, 0, .cwh, 1, 8, .any⟩
def RENNET.FLOW_ID : Field := ⟨0x050, 1, 0x110, 11, 0, .rw, 0, .cwh, 1, 8, .any⟩
def RENNET.FUNC : Field := ⟨0x050, 1, 0x110, 20, 16, .rw, 0, .cwh, 1, 8, .any⟩
def RENNET.FOP : Field := ⟨0x050, 1, 0x110, 26, 24, .wo, 0, .cwhfb, 1, 8, .any⟩
def RENNET.VALUE : Field := ⟨0x050, 1, 0x110, 63, 32, .rw, 0, .cwh, 1, 8, .any⟩
def RENNET.BUSY : Field := ⟨0x050, 1, 0x118, 0, 0, .ro, 0, .live, 1, 8, .any⟩
def RENNET.DONE : Field := ⟨0x050, 1, 0x118, 1, 1, .ro, 0, .live, 1, 8, .any⟩
def RENNET.RESULT : Field := ⟨0x050, 1, 0x118, 11, 8, .ro, 0, .live, 1, 8, .any⟩

/-- Every field of the RENNET tables. -/
def RENNET.fields : List Field :=
  [RENNET.TCB_WAITS, RENNET.TOMBSTONES, RENNET.CTR_UNDERFLOWS, RENNET.STAGE_LIMIT, RENNET.CTR_ID, RENNET.OP, RENNET.COUNT, RENNET.FLOW_ID] ++
  [RENNET.FUNC, RENNET.FOP, RENNET.VALUE, RENNET.BUSY, RENNET.DONE, RENNET.RESULT]

/-! Fields of the CTLCORE registers, from Table 09-7 of the spec. -/

def CTLCORE.STAGE_FAULTS : Field := ⟨0x051, 1, 0x060, 63, 0, .ro, 0, .cwh, 1, 8, .any⟩
def CTLCORE.STAGE_OVERRUNS : Field := ⟨0x051, 1, 0x068, 63, 0, .ro, 0, .cwh, 1, 8, .any⟩
def CTLCORE.L2_CE_COUNT : Field := ⟨0x051, 1, 0x070, 63, 0, .ro, 0, .c, 1, 8, .any⟩
def CTLCORE.L2_UE_COUNT : Field := ⟨0x051, 1, 0x078, 63, 0, .ro, 0, .c, 1, 8, .any⟩
def CTLCORE.CORE_OOS : Field := ⟨0x051, 1, 0x100, 15, 0, .rw, 0, .cw, 1, 8, .special⟩
def CTLCORE.CORE_OK : Field := ⟨0x051, 1, 0x108, 15, 0, .ro, 0, .live, 1, 8, .any⟩
def CTLCORE.CORE_FAILED : Field := ⟨0x051, 1, 0x108, 31, 16, .ro, 0, .live, 1, 8, .any⟩
def CTLCORE.CORE_REFUSED : Field := ⟨0x051, 1, 0x108, 32, 32, .rw1c, 0, .c, 1, 8, .any⟩

/-- Every field of the CTLCORE tables. -/
def CTLCORE.fields : List Field :=
  [CTLCORE.STAGE_FAULTS, CTLCORE.STAGE_OVERRUNS, CTLCORE.L2_CE_COUNT, CTLCORE.L2_UE_COUNT, CTLCORE.CORE_OOS, CTLCORE.CORE_OK, CTLCORE.CORE_FAILED, CTLCORE.CORE_REFUSED]

/-! Fields of the TIDE registers, from Table 10-7 of the spec. -/

def TIDE.BEATS_APPLIED : Field := ⟨0x058, 1, 0x060, 63, 0, .ro, 0, .cw, 1, 8, .any⟩
def TIDE.STALE_BEATS : Field := ⟨0x058, 1, 0x068, 63, 0, .ro, 0, .cw, 1, 8, .any⟩
def TIDE.PULSES_TAKEN : Field := ⟨0x058, 1, 0x070, 63, 0, .ro, 0, .cw, 1, 8, .any⟩
def TIDE.ALARMS_FIRED : Field := ⟨0x058, 1, 0x078, 63, 0, .ro, 0, .cw, 1, 8, .any⟩
def TIDE.LAG_CROSSINGS : Field := ⟨0x058, 1, 0x080, 63, 0, .ro, 0, .cw, 1, 8, .any⟩
def TIDE.BEAT_LOSSES : Field := ⟨0x058, 1, 0x088, 63, 0, .ro, 0, .cw, 1, 8, .any⟩
def TIDE.MODE : Field := ⟨0x058, 1, 0x100, 1, 0, .rwl, 0, .cw, 1, 8, .any⟩
def TIDE.GATE : Field := ⟨0x058, 1, 0x100, 2, 2, .rwl, 0, .cw, 1, 8, .any⟩
def TIDE.SCALE : Field := ⟨0x058, 1, 0x100, 7, 4, .rwl, 3, .cw, 1, 8, .special⟩
def TIDE.OUT_SEL : Field := ⟨0x058, 1, 0x100, 9, 8, .rw, 0, .cw, 1, 8, .any⟩
def TIDE.BEAT_US : Field := ⟨0x058, 1, 0x100, 48, 32, .rwl, 100, .cw, 1, 8, (.within 10 100000)⟩
def TIDE.BEAT_LOSS : Field := ⟨0x058, 1, 0x100, 63, 56, .rw, 10, .cw, 1, 8, (.within 2 255)⟩
def TIDE.PULSE_BASE : Field := ⟨0x058, 1, 0x108, 63, 0, .rwl, 0, .cw, 1, 8, .any⟩
def TIDE.PULSE_STEP : Field := ⟨0x058, 1, 0x110, 63, 0, .rwl, 1000000, .cw, 1, 8, (.within 1 4611686018427387904)⟩
def TIDE.EPOCH_TU : Field := ⟨0x058, 1, 0x118, 63, 0, .rwl, 1000000, .cw, 1, 8, .special⟩
def TIDE.HOST_TIDE : Field := ⟨0x058, 1, 0x120, 63, 0, .rw, 0, .cw, 1, 8, .special⟩
def TIDE.VALUE : Field := ⟨0x058, 1, 0x128, 63, 0, .ro, 0, .live, 1, 8, .any⟩
def TIDE.STARTED : Field := ⟨0x058, 1, 0x130, 0, 0, .ro, 0, .live, 1, 8, .any⟩
def TIDE.HERD_MODE : Field := ⟨0x058, 1, 0x130, 2, 1, .ro, 0, .live, 1, 8, .any⟩
def TIDE.HERD_GATE : Field := ⟨0x058, 1, 0x130, 3, 3, .ro, 0, .live, 1, 8, .any⟩
def TIDE.HERD_SCALE : Field := ⟨0x058, 1, 0x130, 11, 8, .ro, 0, .live, 1, 8, .any⟩
def TIDE.HOLDER : Field := ⟨0x058, 1, 0x130, 31, 16, .ro, 0, .live, 1, 8, .any⟩
def TIDE.BEAT_SEQ : Field := ⟨0x058, 1, 0x130, 63, 32, .ro, 0, .live, 1, 8, .any⟩
def TIDE.LOCAL_WM : Field := ⟨0x058, 1, 0x138, 63, 0, .ro, 0, .live, 1, 8, .any⟩
def TIDE.LAG_TU : Field := ⟨0x058, 1, 0x140, 63, 0, .ro, 0, .live, 1, 8, .any⟩
def TIDE.LAG_MARK : Field := ⟨0x058, 1, 0x148, 63, 0, .rw, 60000000, .cw, 1, 8, .any⟩
def TIDE.LAG_HYST : Field := ⟨0x058, 1, 0x150, 63, 0, .rw, 10000000, .cw, 1, 8, .any⟩
def TIDE.LEVEL : Field := ⟨0x058, 1, 0x158, 0, 0, .ro, 0, .live, 1, 8, .any⟩
def TIDE.CROSSED : Field := ⟨0x058, 1, 0x158, 1, 1, .rw1c, 0, .c, 1, 8, .any⟩
def TIDE.ARMED : Field := ⟨0x058, 1, 0x158, 2, 2, .ro, 0, .live, 1, 8, .any⟩
def TIDE.PULSE_STAMP : Field := ⟨0x058, 1, 0x160, 63, 0, .ro, 0, .c, 1, 8, .any⟩
def TIDE.HERD_EPOCH_TU : Field := ⟨0x058, 1, 0x168, 63, 0, .ro, 0, .live, 1, 8, .any⟩
def TIDE.ALARM_SEL : Field := ⟨0x058, 1, 0x180, 7, 0, .rw, 0, .cwhb, 1, 8, .special⟩
def TIDE.ALARM_TIDE : Field := ⟨0x058, 1, 0x188, 63, 0, .rw, 0, .cwhb, 1, 8, .special⟩
def TIDE.ARM : Field := ⟨0x058, 1, 0x190, 0, 0, .rw, 0, .cwhb, 1, 8, .special⟩
def TIDE.IRQ : Field := ⟨0x058, 1, 0x190, 1, 1, .rw, 0, .cwhb, 1, 8, .special⟩
def TIDE.CTR : Field := ⟨0x058, 1, 0x190, 2, 2, .rw, 0, .cwhb, 1, 8, .special⟩
def TIDE.OUT : Field := ⟨0x058, 1, 0x190, 3, 3, .rw, 0, .cwhb, 1, 8, .special⟩
def TIDE.CTR_ID : Field := ⟨0x058, 1, 0x190, 31, 16, .rw, 0, .cwhb, 1, 8, .special⟩
def TIDE.SRC_ID : Field := ⟨0x058, 1, 0x1A0, 9, 0, .rw, 0, .cwh, 1, 8, .any⟩
def TIDE.OP : Field := ⟨0x058, 1, 0x1A0, 18, 16, .wo, 0, .cwhfb, 1, 8, .any⟩
def TIDE.IDLE_MS : Field := ⟨0x058, 1, 0x1A0, 47, 32, .rw, 1000, .cwh, 1, 8, .any⟩
def TIDE.SRC_ARG : Field := ⟨0x058, 1, 0x1A8, 63, 0, .rw, 0, .cwh, 1, 8, .any⟩
def TIDE.BUSY : Field := ⟨0x058, 1, 0x1B0, 0, 0, .ro, 0, .live, 1, 8, .any⟩
def TIDE.DONE : Field := ⟨0x058, 1, 0x1B0, 1, 1, .ro, 0, .live, 1, 8, .any⟩
def TIDE.RESULT : Field := ⟨0x058, 1, 0x1B0, 11, 8, .ro, 0, .live, 1, 8, .any⟩
def TIDE.S_OPEN : Field := ⟨0x058, 1, 0x1B0, 16, 16, .ro, 0, .live, 1, 8, .any⟩
def TIDE.S_IDLE : Field := ⟨0x058, 1, 0x1B0, 17, 17, .ro, 0, .live, 1, 8, .any⟩
def TIDE.SRC_WM : Field := ⟨0x058, 1, 0x1B8, 63, 0, .ro, 0, .live, 1, 8, .any⟩
def TIDE.ALARM_FIRED : Field := ⟨0x058, 1, 0x1C0, 63, 0, .rw1c, 0, .cwhb, 4, 8, .any⟩

/-- Every field of the TIDE tables. -/
def TIDE.fields : List Field :=
  [TIDE.BEATS_APPLIED, TIDE.STALE_BEATS, TIDE.PULSES_TAKEN, TIDE.ALARMS_FIRED, TIDE.LAG_CROSSINGS, TIDE.BEAT_LOSSES, TIDE.MODE, TIDE.GATE] ++
  [TIDE.SCALE, TIDE.OUT_SEL, TIDE.BEAT_US, TIDE.BEAT_LOSS, TIDE.PULSE_BASE, TIDE.PULSE_STEP, TIDE.EPOCH_TU, TIDE.HOST_TIDE] ++
  [TIDE.VALUE, TIDE.STARTED, TIDE.HERD_MODE, TIDE.HERD_GATE, TIDE.HERD_SCALE, TIDE.HOLDER, TIDE.BEAT_SEQ, TIDE.LOCAL_WM] ++
  [TIDE.LAG_TU, TIDE.LAG_MARK, TIDE.LAG_HYST, TIDE.LEVEL, TIDE.CROSSED, TIDE.ARMED, TIDE.PULSE_STAMP, TIDE.HERD_EPOCH_TU] ++
  [TIDE.ALARM_SEL, TIDE.ALARM_TIDE, TIDE.ARM, TIDE.IRQ, TIDE.CTR, TIDE.OUT, TIDE.CTR_ID, TIDE.SRC_ID] ++
  [TIDE.OP, TIDE.IDLE_MS, TIDE.SRC_ARG, TIDE.BUSY, TIDE.DONE, TIDE.RESULT, TIDE.S_OPEN, TIDE.S_IDLE] ++
  [TIDE.SRC_WM, TIDE.ALARM_FIRED]

/-! Fields of the VAT registers, from Table 05-6 of the spec. -/

def VAT.ALLOC_WAITS : Field := ⟨0x060, 1, 0x060, 63, 0, .ro, 0, .cw, 1, 8, .any⟩
def VAT.CE_COUNT : Field := ⟨0x060, 1, 0x068, 63, 0, .ro, 0, .c, 1, 8, .any⟩
def VAT.UE_COUNT : Field := ⟨0x060, 1, 0x070, 63, 0, .ro, 0, .c, 1, 8, .any⟩
def VAT.RUNAHEAD_MAX : Field := ⟨0x060, 1, 0x100, 7, 0, .rwl, 16, .cw, 1, 8, .special⟩
def VAT.BUILD_MAX : Field := ⟨0x060, 1, 0x100, 15, 8, .rwl, 96, .cw, 1, 8, .special⟩
def VAT.REGION_MAX : Field := ⟨0x060, 1, 0x100, 23, 16, .rwl, 16, .cw, 1, 8, .special⟩
def VAT.SLICE_FREE : Field := ⟨0x060, 1, 0x108, 12, 0, .ro, 0, .live, 1, 8, .any⟩
def VAT.RUNAHEAD_USED : Field := ⟨0x060, 1, 0x108, 28, 16, .ro, 0, .live, 1, 8, .any⟩
def VAT.BUILD_USED : Field := ⟨0x060, 1, 0x108, 44, 32, .ro, 0, .live, 1, 8, .any⟩
def VAT.REGION_USED : Field := ⟨0x060, 1, 0x108, 60, 48, .ro, 0, .live, 1, 8, .any⟩
def VAT.REGION_D : Field := ⟨0x060, 1, 0x110, 63, 0, .rw, 0, .cw, 4, 8, .any⟩
def VAT.SEL : Field := ⟨0x060, 1, 0x130, 9, 0, .rw, 0, .cw, 1, 8, .any⟩
def VAT.OP : Field := ⟨0x060, 1, 0x130, 18, 16, .wo, 0, .cwhfb, 1, 8, .any⟩
def VAT.BUSY : Field := ⟨0x060, 1, 0x138, 0, 0, .ro, 0, .live, 1, 8, .any⟩
def VAT.DONE : Field := ⟨0x060, 1, 0x138, 1, 1, .ro, 0, .live, 1, 8, .any⟩
def VAT.RESULT : Field := ⟨0x060, 1, 0x138, 11, 8, .ro, 0, .live, 1, 8, .any⟩
def VAT.REFUSED : Field := ⟨0x060, 1, 0x138, 16, 16, .rw1c, 0, .c, 1, 8, .any⟩
def VAT.UE_ADDR : Field := ⟨0x060, 1, 0x140, 47, 0, .ro, 0, .c, 1, 8, .any⟩
def VAT.UE_VALID : Field := ⟨0x060, 1, 0x140, 63, 63, .ro, 0, .c, 1, 8, .any⟩

/-- Every field of the VAT tables. -/
def VAT.fields : List Field :=
  [VAT.ALLOC_WAITS, VAT.CE_COUNT, VAT.UE_COUNT, VAT.RUNAHEAD_MAX, VAT.BUILD_MAX, VAT.REGION_MAX, VAT.SLICE_FREE, VAT.RUNAHEAD_USED] ++
  [VAT.BUILD_USED, VAT.REGION_USED, VAT.REGION_D, VAT.SEL, VAT.OP, VAT.BUSY, VAT.DONE, VAT.RESULT] ++
  [VAT.REFUSED, VAT.UE_ADDR, VAT.UE_VALID]

/-! Fields of the CREAM registers, from Table 05-7 of the spec. -/

def CREAM.CE_COUNT : Field := ⟨0x061, 1, 0x060, 63, 0, .ro, 0, .c, 1, 8, .any⟩
def CREAM.UE_COUNT : Field := ⟨0x061, 1, 0x068, 63, 0, .ro, 0, .c, 1, 8, .any⟩
def CREAM.SCRUB_PASSES : Field := ⟨0x061, 1, 0x070, 63, 0, .ro, 0, .c, 1, 8, .any⟩
def CREAM.SPILL_CROSSINGS : Field := ⟨0x061, 1, 0x078, 63, 0, .ro, 0, .c, 1, 8, .any⟩
def CREAM.SCRUB_HOURS : Field := ⟨0x061, 1, 0x100, 7, 0, .rwl, 24, .cw, 1, 8, (.within 1 168)⟩
def CREAM.SPILL_LIMIT : Field := ⟨0x061, 1, 0x100, 52, 32, .rwl, 0, .cw, 1, 8, (.within 0 0)⟩
def CREAM.UNITS_OK : Field := ⟨0x061, 1, 0x108, 15, 0, .ro, 0, .live, 1, 8, .any⟩
def CREAM.USED : Field := ⟨0x061, 1, 0x108, 36, 16, .ro, 0, .live, 1, 8, .any⟩
def CREAM.MARK : Field := ⟨0x061, 1, 0x110, 20, 0, .rw, 98304, .cw, 1, 8, .any⟩
def CREAM.HYST : Field := ⟨0x061, 1, 0x110, 52, 32, .rw, 8192, .cw, 1, 8, .any⟩
def CREAM.SPILL_MIB : Field := ⟨0x061, 1, 0x118, 20, 0, .ro, 0, .live, 1, 8, .any⟩
def CREAM.LEVEL : Field := ⟨0x061, 1, 0x118, 32, 32, .ro, 0, .live, 1, 8, .any⟩
def CREAM.CROSSED : Field := ⟨0x061, 1, 0x118, 33, 33, .rw1c, 0, .c, 1, 8, .any⟩
def CREAM.ARMED : Field := ⟨0x061, 1, 0x118, 34, 34, .ro, 0, .live, 1, 8, .any⟩
def CREAM.UE_ADDR : Field := ⟨0x061, 1, 0x120, 47, 0, .ro, 0, .c, 1, 8, .any⟩
def CREAM.UE_VALID : Field := ⟨0x061, 1, 0x120, 63, 63, .ro, 0, .c, 1, 8, .any⟩

/-- Every field of the CREAM tables. -/
def CREAM.fields : List Field :=
  [CREAM.CE_COUNT, CREAM.UE_COUNT, CREAM.SCRUB_PASSES, CREAM.SPILL_CROSSINGS, CREAM.SCRUB_HOURS, CREAM.SPILL_LIMIT, CREAM.UNITS_OK, CREAM.USED] ++
  [CREAM.MARK, CREAM.HYST, CREAM.SPILL_MIB, CREAM.LEVEL, CREAM.CROSSED, CREAM.ARMED, CREAM.UE_ADDR, CREAM.UE_VALID]

/-! Fields of the SKIM registers, from Table 05-7 of the spec. -/

def SKIM.CE_COUNT : Field := ⟨0x062, 1, 0x060, 63, 0, .ro, 0, .c, 1, 8, .any⟩
def SKIM.UE_COUNT : Field := ⟨0x062, 1, 0x068, 63, 0, .ro, 0, .c, 1, 8, .any⟩
def SKIM.SCRUB_PASSES : Field := ⟨0x062, 1, 0x070, 63, 0, .ro, 0, .c, 1, 8, .any⟩
def SKIM.SPILL_CROSSINGS : Field := ⟨0x062, 1, 0x078, 63, 0, .ro, 0, .c, 1, 8, .any⟩
def SKIM.SCRUB_HOURS : Field := ⟨0x062, 1, 0x100, 7, 0, .rwl, 24, .cw, 1, 8, (.within 1 168)⟩
def SKIM.SPILL_LIMIT : Field := ⟨0x062, 1, 0x100, 52, 32, .rwl, 524288, .cw, 1, 8, .any⟩
def SKIM.UNITS_OK : Field := ⟨0x062, 1, 0x108, 15, 0, .ro, 0, .live, 1, 8, .any⟩
def SKIM.USED : Field := ⟨0x062, 1, 0x108, 36, 16, .ro, 0, .live, 1, 8, .any⟩
def SKIM.MARK : Field := ⟨0x062, 1, 0x110, 20, 0, .rw, 393216, .cw, 1, 8, .any⟩
def SKIM.HYST : Field := ⟨0x062, 1, 0x110, 52, 32, .rw, 8192, .cw, 1, 8, .any⟩
def SKIM.SPILL_MIB : Field := ⟨0x062, 1, 0x118, 20, 0, .ro, 0, .live, 1, 8, .any⟩
def SKIM.LEVEL : Field := ⟨0x062, 1, 0x118, 32, 32, .ro, 0, .live, 1, 8, .any⟩
def SKIM.CROSSED : Field := ⟨0x062, 1, 0x118, 33, 33, .rw1c, 0, .c, 1, 8, .any⟩
def SKIM.ARMED : Field := ⟨0x062, 1, 0x118, 34, 34, .ro, 0, .live, 1, 8, .any⟩
def SKIM.UE_ADDR : Field := ⟨0x062, 1, 0x120, 47, 0, .ro, 0, .c, 1, 8, .any⟩
def SKIM.UE_VALID : Field := ⟨0x062, 1, 0x120, 63, 63, .ro, 0, .c, 1, 8, .any⟩

/-- Every field of the SKIM tables. -/
def SKIM.fields : List Field :=
  [SKIM.CE_COUNT, SKIM.UE_COUNT, SKIM.SCRUB_PASSES, SKIM.SPILL_CROSSINGS, SKIM.SCRUB_HOURS, SKIM.SPILL_LIMIT, SKIM.UNITS_OK, SKIM.USED] ++
  [SKIM.MARK, SKIM.HYST, SKIM.SPILL_MIB, SKIM.LEVEL, SKIM.CROSSED, SKIM.ARMED, SKIM.UE_ADDR, SKIM.UE_VALID]

/-! Fields of the CELLAR registers, from Table 05-8 of the spec. -/

def CELLAR.READ_CMDS : Field := ⟨0x063, 1, 0x060, 63, 0, .ro, 0, .cw, 1, 8, .any⟩
def CELLAR.WRITE_CMDS : Field := ⟨0x063, 1, 0x068, 63, 0, .ro, 0, .cw, 1, 8, .any⟩
def CELLAR.TIMEOUTS : Field := ⟨0x063, 1, 0x070, 63, 0, .ro, 0, .cw, 1, 8, .any⟩
def CELLAR.IO_ERRORS : Field := ⟨0x063, 1, 0x078, 63, 0, .ro, 0, .cw, 1, 8, .any⟩
def CELLAR.CTRL_RESETS : Field := ⟨0x063, 1, 0x080, 63, 0, .ro, 0, .cw, 1, 8, .any⟩
def CELLAR.MODE : Field := ⟨0x063, 1, 0x100, 1, 0, .rwl, 0, .cw, 1, 8, .special⟩
def CELLAR.IO_QUEUES : Field := ⟨0x063, 1, 0x100, 12, 8, .rwl, 8, .cw, 1, 8, (.within 1 16)⟩
def CELLAR.CMD_TIMEOUT : Field := ⟨0x063, 1, 0x100, 31, 16, .rwl, 5000, .cw, 1, 8, (.within 100 60000)⟩
def CELLAR.PRESENT : Field := ⟨0x063, 1, 0x108, 15, 0, .ro, 0, .live, 1, 8, .any⟩
def CELLAR.READY : Field := ⟨0x063, 1, 0x108, 31, 16, .ro, 0, .live, 1, 8, .any⟩
def CELLAR.FAILED : Field := ⟨0x063, 1, 0x108, 47, 32, .ro, 0, .live, 1, 8, .any⟩
def CELLAR.LINK_UP : Field := ⟨0x063, 1, 0x108, 48, 48, .ro, 0, .live, 1, 8, .any⟩
def CELLAR.DRIVE_OOS : Field := ⟨0x063, 1, 0x110, 15, 0, .rw, 0, .cw, 1, 8, .special⟩
def CELLAR.RESCAN : Field := ⟨0x063, 1, 0x110, 32, 32, .wo, 0, .cwhfb, 1, 8, .any⟩
def CELLAR.DRIVE_SEL : Field := ⟨0x063, 1, 0x118, 3, 0, .rw, 0, .cw, 1, 8, .any⟩
def CELLAR.NS_MASK : Field := ⟨0x063, 1, 0x120, 15, 0, .ro, 0, .live, 1, 8, .any⟩
def CELLAR.NS_4K : Field := ⟨0x063, 1, 0x120, 31, 16, .ro, 0, .live, 1, 8, .any⟩
def CELLAR.MAX_XFER : Field := ⟨0x063, 1, 0x120, 39, 32, .ro, 0, .live, 1, 8, .any⟩
def CELLAR.LINK_WIDTH : Field := ⟨0x063, 1, 0x120, 43, 40, .ro, 0, .live, 1, 8, .any⟩
def CELLAR.LINK_GEN : Field := ⟨0x063, 1, 0x120, 47, 44, .ro, 0, .live, 1, 8, .any⟩
def CELLAR.NS_BLOCKS : Field := ⟨0x063, 1, 0x180, 63, 0, .ro, 0, .live, 16, 8, .any⟩

/-- Every field of the CELLAR tables. -/
def CELLAR.fields : List Field :=
  [CELLAR.READ_CMDS, CELLAR.WRITE_CMDS, CELLAR.TIMEOUTS, CELLAR.IO_ERRORS, CELLAR.CTRL_RESETS, CELLAR.MODE, CELLAR.IO_QUEUES, CELLAR.CMD_TIMEOUT] ++
  [CELLAR.PRESENT, CELLAR.READY, CELLAR.FAILED, CELLAR.LINK_UP, CELLAR.DRIVE_OOS, CELLAR.RESCAN, CELLAR.DRIVE_SEL, CELLAR.NS_MASK] ++
  [CELLAR.NS_4K, CELLAR.MAX_XFER, CELLAR.LINK_WIDTH, CELLAR.LINK_GEN, CELLAR.NS_BLOCKS]

end Sys2Proof.Reg
end

