-- ==== Sys2Proof/Machine/Pages.lean ====
section
/-! DEFINITION. The pages of BAR0: which are populated, their header constants, their views and power domains
(Tables 04-1, 04-5, 25-1), and the fields of each register. -/

namespace Sys2Proof.Reg

/-- Who sees a page (Table 25-1): the physical function, the cores and remote nodes only; every function; or each
function its own. -/
inductive View where
  | pf | all | own
  deriving DecidableEq, Repr

/-- One block of pages: first and last page, power domain, view, block counters on its first page and on the others,
leave class, and its fields. -/
structure Block where
  first : Nat
  last : Nat
  domain : Nat
  view : View
  nctr : Nat
  nctrRest : Nat
  cls : Nat
  fields : List Field
  deriving DecidableEq, Repr

/-- Table 25-1, with the power domains of Table 04-5. -/
def blocks : List Block :=
  [⟨0x000, 0x000, 0, .all, 1, 1, 0, GLOBAL.fields⟩, ⟨0x001, 0x001, 0, .pf, 5, 5, 0, ROLAR.fields⟩,
   ⟨0x002, 0x002, 0, .pf, 4, 4, 0, LEAVE.fields⟩, ⟨0x003, 0x003, 0, .pf, 3, 3, 0, RESET.fields⟩,
   ⟨0x004, 0x004, 0, .pf, 2, 2, 0, CALSTORE.fields⟩, ⟨0x008, 0x008, 1, .all, 7, 7, 0, HOSTIF.fields⟩,
   ⟨0x009, 0x009, 1, .pf, 6, 6, 0, COHERENCE.fields⟩, ⟨0x00A, 0x00A, 1, .pf, 6, 6, 0, ATTACH.fields⟩,
   ⟨0x010, 0x04F, 1, .own, 5, 5, 0, RING.fields⟩, ⟨0x050, 0x050, 1, .pf, 3, 3, 0, RENNET.fields⟩,
   ⟨0x051, 0x051, 1, .pf, 4, 4, 0, CTLCORE.fields⟩, ⟨0x058, 0x058, 0, .all, 6, 6, 0, TIDE.fields⟩] ++
  [⟨0x060, 0x060, 1, .all, 3, 3, 0, VAT.fields⟩, ⟨0x061, 0x061, 3, .pf, 4, 4, 0, CREAM.fields⟩,
   ⟨0x062, 0x062, 4, .pf, 4, 4, 0, SKIM.fields⟩, ⟨0x063, 0x063, 5, .pf, 5, 5, 4, CELLAR.fields⟩,
   ⟨0x070, 0x07F, 2, .pf, 8, 6, 5, INTAKE.fields⟩, ⟨0x080, 0x087, 2, .pf, 7, 7, 1, CHURN.fields⟩,
   ⟨0x088, 0x097, 2, .pf, 5, 5, 0, SEPARATOR.fields⟩, ⟨0x098, 0x09F, 2, .pf, 3, 3, 0, HASH.fields⟩,
   ⟨0x0A0, 0x0A0, 2, .pf, 6, 6, 0, STRAINER.fields⟩, ⟨0x0A8, 0x0AB, 2, .pf, 10, 10, 2, PRESS.fields⟩,
   ⟨0x0AC, 0x0AF, 2, .pf, 9, 8, 0, RIPENER.fields⟩, ⟨0x0B0, 0x0B7, 2, .pf, 7, 7, 0, NORMALISER.fields⟩] ++
  [⟨0x0B8, 0x0BB, 2, .pf, 6, 6, 6, CRATE.fields⟩, ⟨0x0C0, 0x0C7, 2, .pf, 15, 4, 3, LADLE.fields⟩,
   ⟨0x0D0, 0x0D5, 5, .pf, 7, 7, 0, ZLINK.fields⟩, ⟨0x0D8, 0x0D8, 5, .pf, 8, 8, 0, ROUTE.fields⟩,
   ⟨0x0D9, 0x0D9, 1, .pf, 3, 3, 0, HERD.fields⟩, ⟨0x0DA, 0x0DA, 1, .pf, 5, 5, 0, TWIN.fields⟩,
   ⟨0x0E0, 0x0E0, 1, .pf, 12, 12, 0, SERVE.fields⟩, ⟨0x0F0, 0x0F0, 0, .pf, 7, 7, 0, FAULT.fields⟩]

/-- The block that holds page `p`, if any does (R516). -/
def blockOf (p : Nat) : Option Block := blocks.find? (fun b => decide (b.first ≤ p) && decide (p ≤ b.last))

/-- The first page of the block that holds page `p`. -/
def firstPage (p : Nat) : Nat := (blockOf p).elim p (·.first)

/-- Whether an offset lies in the common header rather than among block registers (R62). -/
def isHeader (off : Nat) : Bool := decide (off < 0x060) || (decide (0x0E8 ≤ off) && decide (off < 0x100))

/-- The fields of the register at `off` of page `p`. -/
def fieldsAt (p off : Nat) : List Field :=
  match blockOf p with
  | none => []
  | some b =>
    if isHeader off then HDR.fields.filter (fun f => f.lies 0 off)
    else b.fields.filter (fun f => f.lies (p - b.first) off)

/-- The reset value of the register at `off` of page `p`; on page RINGn, CQ_SEL resets to n (R174). -/
def resetWord (p off : Nat) : Word :=
  let w := (fieldsAt p off).foldl (fun w f => putBits w f.hi f.lo f.rst) 0#64
  if decide (0x10 ≤ p) && decide (p ≤ 0x4F) && decide (off = 0x108) then putBits w 21 16 (p - 0x10) else w

/-- The bits of the register at `off` of page `p` that a reset of the kind returns to their reset values. -/
def clearedMask (k : Kind) (p off : Nat) : Word :=
  (fieldsAt p off).foldl (fun m f => if f.by_.clears k then m ||| f.mask else m) 0#64

/-- A register's word after a reset of the kind. -/
def resetOf (k : Kind) (p off : Nat) (w : Word) : Word :=
  let m := clearedMask k p off
  (w &&& ~~~m) ||| (resetWord p off &&& m)

/-- The key of a register in the register store: the function that owns the page, the page, the offset. -/
def key (fn page off : Nat) : Nat := (fn * 0x4000 + page) * 0x1000 + off

/-- The owner, page and offset of a key. -/
def keyFn (k : Nat) : Nat := k / 0x4000000
def keyPage (k : Nat) : Nat := k / 0x1000 % 0x4000
def keyOff (k : Nat) : Nat := k % 0x1000

/-- The PRESENTk word of a view (Table 25-2): bit n for page 64 k + n that the view presents. -/
def presentWord (everything : Bool) (k : Nat) : Nat :=
  blocks.foldl (fun v b => (List.range 64).foldl (fun v n =>
    let p := 64 * k + n
    if decide (b.first ≤ p) && decide (p ≤ b.last) && (everything || decide (b.view ≠ .pf)) then v + 2 ^ n else v) v) 0

end Sys2Proof.Reg
end

