-- ==== Sys2Proof/Machine/Output.lean ====
section
/-! DEFINITION. What leaves the module: interrupts, bus requests, messages, pulses and answers. -/

namespace Sys2Proof.Machine

/-- One thing the module sends or answers, in the order it does so. -/
inductive Output where
  /-- An MSI-X message of a function's vector (R75). -/
  | msix (fn vector : Nat)
  /-- A page's message to the Obnus runtime (R75, TO_CORES). -/
  | coreIrq (fn page : Nat)
  /-- The value a register read returns to its requester (R64, R71). -/
  | readReg (req : Requester) (page off : Nat) (value : Word)
  /-- A posted write into host memory: function, host I/O virtual address, bytes (R124). -/
  | hostWrite (fn iova : Nat) (bytes : Bytes)
  /-- A read of host memory is issued (R116). -/
  | hostRead (fn iova len : Nat)
  /-- An adapter's doorbell is rung: host-window address, width in bytes, value (R123). -/
  | doorbell (addr width value : Nat)
  /-- A translation request is issued (R116). -/
  | atsRequest (fn page : Nat)
  /-- An ATS invalidation is completed (R120). -/
  | atsDone (fn page : Nat)
  /-- A back-invalidation snoop of a line is sent (R113 to R115). -/
  | snoop (line : Nat)
  /-- A host snoop is answered from the host-line cache: whether the line was held (R118). -/
  | snoopAnswer (line : Nat) (held : Bool)
  /-- A host or peer read is answered; a poisoned line answers with poison (R121, R122). -/
  | busData (bytes : Bytes) (poisoned : Bool)
  /-- A rising edge of TIDE_OUT at a chronometer instant (R215). -/
  | tideOut (at_ : Nat)
  /-- An NVMe command is issued to a drive: kind, LBA, blocks (R94 to R98). -/
  | nvme (drive kind nsid lba blocks : Nat) (data : Bytes)
  /-- An Abort, or a controller reset, of a drive (R98). -/
  | nvmeAbort (drive cmd : Nat)
  | nvmeReset (drive : Nat)
  /-- A message into the fabric, with the link it leaves by. -/
  | packet (link : Nat) (p : Packet)
  /-- A message that has arrived whole for this node; its own command follows (R408). -/
  | delivered (p : Packet)
  /-- A control flit on a link (R407 to R413). -/
  | linkCtrl (link kind : Nat) (body : Bytes)
  /-- A data flit on a link: its sequence number, the ACK and the credits it carries; a replay repeats it (R408, R409). -/
  | flit (link seq ack creditVc creditN : Nat)
  /-- An IDLE flit that carries an ACK and credits (R408). -/
  | idle (link ack creditVc creditN : Nat)
  /-- An answer of Rolar on DOE or M1: protocol code, then its bytes (R487, R495). -/
  | mgmt (code : Nat) (bytes : Bytes)
  deriving DecidableEq, Repr

end Sys2Proof.Machine
end

