-- ==== Sys2Proof/Machine/StateTime.lean ====
section
/-! DEFINITION. The state of the control cores, Rennet and the tide (chapters 09 and 10). -/

namespace Sys2Proof.Machine

/-- A dependence counter (R182); an UNARMED one is not listed. -/
inductive Counter where
  | armed (n : Nat)
  | zero
  deriving DecidableEq, Repr

/-- The states of a thread (Table 09-1); a FREE control block is not listed. -/
inductive ThreadState where
  | ready | running | waiting | delayed
  deriving DecidableEq, Repr

/-- How a wait returned (R185). -/
inductive WaitResult where
  | byCount | byTimeout | invalid
  deriving DecidableEq, Repr

/-- A thread of a custom-stage slice (R178 to R181). -/
structure Thread where
  slice : Nat
  level : Nat
  state : ThreadState := .ready
  core : Option Nat := none
  /-- Chronometer at its last dispatch. -/
  dispatchedAt : Nat := 0
  /-- Core time in ns since the slice began. -/
  used : Nat := 0
  /-- Core time in ns since the last dispatch from the tail of its level (R181). -/
  sinceTail : Nat := 0
  /-- The counter it waits on, and when the wait began (an order number). -/
  waitOn : Option (Nat × Nat) := none
  /-- Result of the last wait. -/
  result : Option WaitResult := none
  /-- Return value of the last Rennet call. -/
  a0 : Word := 0#64
  /-- Counters it allocated. -/
  owned : List Nat := []
  /-- CURSOR of the context block (R193). -/
  cursor : Word := 0#64
  /-- The status of a copy that failed (R197), or 0. -/
  copyFail : Nat := 0
  /-- The thread's instruction copy of its execution scratch (R198). -/
  icopy : Bytes := []
  /-- It has execution scratch: FLAGS.EXEC of its stage is 1. -/
  exec : Bool := false
  deriving DecidableEq, Repr

/-- A copy in flight: the thread's slice and its function, source, destination, length, counter (R196); whether each address is in
herd form. -/
structure Copy where
  slice : Nat
  fn : Nat
  src : Nat
  srcHerd : Bool
  dst : Nat
  dstHerd : Bool
  len : Nat
  ctr : Nat
  /-- What reads of another node have brought, from offset 0 on, and the requests not yet answered. -/
  got : Memory := []
  asked : Nat := 0
  /-- The data has been written, and the first status that went wrong. -/
  moved : Bool := false
  status : Nat := 0
  deriving DecidableEq, Repr

/-- A slice that waits for a thread control block: its level, whether it needs execution scratch (R178, R198). -/
structure TcbWait where
  slice : Nat
  level : Nat
  exec : Bool
  deriving DecidableEq, Repr

/-- An item of a flow that is accepted and not yet released: its sequence, its descriptor, and once it has ended whether
it committed. -/
structure FlowItem where
  seq : Nat
  desc : Nat
  ended : Option Bool := none
  deriving DecidableEq, Repr

/-- An open ordered flow (R188, R189). -/
structure Flow where
  fn : Nat
  next : Nat
  items : List FlowItem := []
  deriving DecidableEq, Repr

/-- An entry of the delay list (R186): wake tick, thread. -/
structure Delay where
  tick : Nat
  thread : Nat
  deriving DecidableEq, Repr

/-- Rennet and the control cores. -/
structure Rennet where
  counters : Table Counter := []
  flows : Table Flow := []
  threads : Table Thread := []
  /-- Ready threads of each level, head first. -/
  ready : Table (List Nat) := []
  /-- Wake order of timeouts and delays. -/
  delays : List Delay := []
  /-- Slices that wait for a thread control block, oldest first. -/
  tcbWaits : List TcbWait := []
  copies : Table Copy := []
  nextCopy : Nat := 0
  /-- Order number of the next wait. -/
  nextWait : Nat := 0
  /-- Bit n: core n has failed. -/
  coresFailed : Nat := 0
  deriving DecidableEq, Repr

/-- An open source of event time (R205). -/
structure Source where
  delay : Nat
  idleMs : Nat
  low : Nat := 0
  maxT : Nat := 0
  w : Nat := 0
  idle : Bool := false
  /-- Chronometer at its last row or low watermark. -/
  heard : Nat := 0
  deriving DecidableEq, Repr

/-- A tide alarm (R218). -/
structure Alarm where
  tide : Nat := 0
  arm : Bool := false
  irq : Bool := false
  ctr : Bool := false
  out : Bool := false
  ctrId : Nat := 0
  deriving DecidableEq, Repr

/-- A member's latest report, as the lead keeps it (R213). -/
structure Report where
  beatSeq : Nat
  localWm : Nat
  keeper : Nat
  deriving DecidableEq, Repr

/-- The tide keeper and what belongs to the tide (R203 to R220). -/
structure Tide where
  /-- The keeper's value in tu. -/
  now : Nat := 0
  herdScale : Nat := 0
  herdEpochTu : Nat := 0
  herdMode : Nat := 0
  herdGate : Bool := false
  /-- Last applied beat; none before the first beat of a lead. -/
  lastSeq : Option Nat := none
  /-- Last value of BEAT_SEQ as TIDE_STAT shows it. -/
  shownSeq : Nat := 0
  /-- The next BEAT_SEQ this node sends as the lead. -/
  sendSeq : Nat := 0
  /-- PERIOD_US of the last applied beat, chronometer at its application. -/
  periodUs : Nat := 0
  appliedAt : Option Nat := none
  /-- A beat loss was reported and lasts. -/
  lost : Bool := false
  holder : Nat := 0
  sources : Table Source := []
  alarms : Table Alarm := []
  reports : Table Report := []
  /-- HOST_TIDE value accepted, if any. -/
  hostTide : Nat := 0
  /-- Chronometer at the last TIDE_OUT rising edge. -/
  lastOut : Option Nat := none
  /-- Chronometer at the last periodic beat sent. -/
  lastBeatSent : Nat := 0
  deriving DecidableEq, Repr

end Sys2Proof.Machine
end

