-- ==== Sys2Proof/Machine/StateFault.lean ====
section
/-! DEFINITION. Fault records (Table 24-2). -/

namespace Sys2Proof.Machine

/-- A fault record. -/
structure FaultRec where
  cls : Nat
  cause : Nat
  flags : Nat
  status : Nat
  page : Nat
  node : Nat
  seq : Nat
  tag : Nat
  tide : Nat
  detail : Nat
  chrono : Nat
  deriving DecidableEq, Repr

end Sys2Proof.Machine
end

