-- ==== Sys2Proof/Machine/StateTwin.lean ====
section
/-! DEFINITION. The state of twin pairing: cuts, held outputs, the partner's mirror (chapter 21). -/

namespace Sys2Proof.Machine

/-- An object of the mirror: its kind and number (Table 21-8), its image. -/
structure MirrorObj where
  kind : Nat
  obj : Nat
  image : Bytes
  deriving DecidableEq, Repr

/-- An adapter doorbell or a ready word that waits for a cut (R452): the cut, the address, the bytes. -/
structure HeldWriteOut where
  cut : Nat
  fn : Nat
  addr : Nat
  bytes : Bytes
  /-- An adapter doorbell rather than a ready word. -/
  bell : Bool
  /-- PROD times of the responses that the doorbell announces (R480). -/
  since : List Nat := []
  /-- The other node that a ready word goes to, if any; the job's number, ring and tag. -/
  node : Option Nat := none
  job : Nat := 0
  ring : Nat := 0
  tag : Nat := 0
  /-- Its place in the order in which held outputs were produced. -/
  no : Nat := 0
  deriving DecidableEq, Repr

/-- An acknowledgement to another node that waits for a cut (R452, last point): the cut, the response. -/
structure HeldAck where
  cut : Nat
  pkt : Packet
  no : Nat := 0
  deriving DecidableEq, Repr

/-- A MIRROR_CUT descriptor: its descriptor and MIN_TIDE, and its cut once taken (R453). -/
structure CutWait where
  desc : Nat
  minTide : Nat
  cut : Option (Nat × Nat) := none
  deriving DecidableEq, Repr

/-- The twin's side of this node (R448 to R458). -/
structure Twin where
  /-- The lead has formed the pair. -/
  paired : Bool := false
  /-- This node has reported the pair to the lead. -/
  asked : Bool := false
  /-- The partner is lost and the pair has not formed again (R454). -/
  degraded : Bool := false
  partner : Nat := 0
  /-- Last cut this node took, last one acknowledged. -/
  cutSeq : Nat := 0
  acked : Nat := 0
  /-- Cuts taken since the last acknowledgement (R454). -/
  unacked : Nat := 0
  /-- Tide of each cut that is not acknowledged. -/
  cutTides : Table Nat := []
  waits : List CutWait := []
  outs : List HeldWriteOut := []
  acks : List HeldAck := []
  /-- Number of the next output that is held. -/
  nextOut : Nat := 0
  /-- The partner's mirror: whole objects of the last applied cut. -/
  mirror : List MirrorObj := []
  /-- Records of the cut in arrival. -/
  incoming : List MirrorObj := []
  /-- Runs of the cut in arrival, by their tags. -/
  runs : Table Bytes := []
  /-- What this node last sent of each object. -/
  sent : List MirrorObj := []
  /-- Last cut of the partner that was applied, with its tide. -/
  appliedCut : Nat := 0
  appliedTide : Nat := 0
  /-- The mirror would exceed MIRROR_QUOTA: further cuts are refused. -/
  full : Bool := false
  /-- The node hosted here after a takeover, if any. -/
  hosting : Option Nat := none
  /-- Pairs that nodes have reported to this node as the lead: partner × 8 + link. -/
  reported : Table Nat := []
  /-- Chronometer at the last message on the twin link. -/
  heardAt : Nat := 0
  /-- The last node this node's state was handed to or from (R458). -/
  handback : Option Nat := none
  deriving DecidableEq, Repr

end Sys2Proof.Machine
end

