-- ==== Sys2Proof/Machine/StateFabric.lean ====
section
/-! DEFINITION. The state of links, routes, requests and the windows of their targets (chapter 20). -/

namespace Sys2Proof.Machine

/-- A flit of a link's queue or replay buffer (Table 20-2). -/
structure LinkFlit where
  ctrl : Bool
  vc : Nat
  cls : Nat
  sop : Bool
  eop : Bool
  payload : Bytes
  seq : Nat := 0
  /-- Replays so far while unacknowledged (R410). -/
  tries : Nat := 0
  deriving DecidableEq, Repr

/-- A Zorelm link (R404 to R413). States as in Table 20-1. -/
structure Link where
  state : Nat := 0
  lanesOk : Nat := 0
  polInv : Nat := 0
  secure : Bool := false
  eqStored : Bool := false
  partnerValid : Bool := false
  partnerFace : Nat := 0
  partnerNode : Nat := 0
  partnerNodeValid : Bool := false
  partnerSerial : Bytes := []
  partnerLevel : Nat := 0
  partnerAuthReq : Bool := false
  partnerAuthCapable : Bool := false
  /-- Chronometer when the link went DOWN. -/
  downAt : Nat := 0
  /-- A training may start at once: at release or after a block reset. -/
  mayTrain : Bool := true
  /-- The next training runs full equalisation (R406). -/
  fullTrain : Bool := false
  /-- Equalisation of this training has ended: CONFIG may run. -/
  equalised : Bool := false
  /-- CONFIG has ended: AUTH may run. -/
  configured : Bool := false
  /-- The state before RETRAINING, chronometer at its start. -/
  before : Nat := 0
  retrainAt : Nat := 0
  /-- Removal asked by OUT_OF_SERVICE: the link stops once its removal is applied and its replay buffer is empty (R432). -/
  leaving : Bool := false
  /-- Flits that wait, the replay buffer oldest first. -/
  queue : List LinkFlit := []
  replay : List LinkFlit := []
  /-- Next SEQ to send, next SEQ expected. -/
  txSeq : Nat := 0
  rxSeq : Nat := 0
  /-- A NAK was sent for the expected SEQ. -/
  nakSent : Bool := false
  /-- Chronometer at the last advance of the ACK. -/
  ackAt : Nat := 0
  /-- Credits by VC × 2 + class. -/
  credits : Table Nat := []
  /-- Buffers freed and not yet returned, by VC × 2 + class. -/
  owed : Table Nat := []
  /-- Place in the weighted round robin (R412). -/
  turn : Nat := 0
  /-- Bytes of messages in arrival, by VC × 2 + class. -/
  partials : Table Bytes := []
  /-- Items of the partner's AUTH flits so far: chain, key, signature (R413). -/
  authChain : Bytes := []
  authKey : Bytes := []
  authSig : Bytes := []
  authTotal : Nat := 0
  /-- This end's ephemeral key. -/
  authOwn : Bytes := []
  /-- Flits sent and received under the present keys. -/
  gcmTx : Nat := 0
  gcmRx : Nat := 0
  deriving DecidableEq, Repr

/-- What an outstanding request is for. -/
inductive ReqWhy where
  /-- A SIGNAL descriptor's write. -/
  | signal (desc : Nat)
  /-- A read of a remote range, and who waits for it; a job's write of one. -/
  | farRead (who : Reader) (addr len : Nat)
  | jobWrite (job : Nat)
  | copyRead (copy : Nat)
  | copyWrite (copy : Nat)
  | jobImage (job : Nat)
  | jobStart (job : Nat)
  | jobKill (job : Nat)
  | partEnd
  | rows (job : Nat)
  | endBuild (job : Nat)
  | endProbe (job : Nat)
  /-- Rows gathered from an owner for a reader, bytes `off` to `off + len - 1` of each (R386, R420). -/
  | gather (who : Reader) (tbl owner : Nat) (ids : List Nat) (off len : Nat) (again : Bool)
  | prefetch
  /-- Updates sent to an owner: the whole payload of their run, for a resend to a new owner (R397). -/
  | update (job stage tbl combine : Nat) (payload : Bytes)
  | sent (job stage : Nat)
  | stepClose (step owner : Nat)
  | stepDone (step node : Nat)
  /-- A STEP_CLOSE passed on to a new owner, or a step's rows sent to one, which an APPLIED waits for. -/
  | closeWait (step : Nat)
  | table (node : Nat)
  /-- PREP of a migration, to its old owner or its new one. -/
  | prep (id : Nat) (toNew : Bool)
  | shardCopy (id : Nat)
  | commit
  | handoff (step : Nat)
  | load
  | mirror
  /-- A request of another node passed on to a shard's new owner, whose answer goes back to that node (R397). -/
  | relay (pkt : Packet)
  deriving DecidableEq, Repr

/-- An outstanding request (R428, R429). -/
structure Req where
  pkt : Packet
  sentAt : Nat
  resent : Bool := false
  why : ReqWhy
  deriving DecidableEq, Repr

/-- A target's window for one source (R430): the greatest sequence and the statuses of those marked. -/
structure Window where
  greatest : Nat
  marks : Table Nat
  deriving DecidableEq, Repr

/-- A run in arrival (R418): its payload so far and the next PART. -/
structure Run where
  src : Nat
  subtype : Nat
  job : Nat
  obj : Nat
  arg0 : Nat
  next : Nat
  payload : Bytes
  deriving DecidableEq, Repr

/-- A route change (R433): its kind (0 REMOVE, 1 ADD), its epoch, its tide, its links as (node, dimension). -/
structure RouteChange where
  kind : Nat
  epoch : Nat
  effective : Nat
  links : List (Nat × Nat)
  deriving DecidableEq, Repr

/-- A ROUTE_SET that the lead still resends, with the members that have not acknowledged it. -/
structure RouteWait where
  change : RouteChange
  missing : List Nat
  deriving DecidableEq, Repr

/-- What the lead last heard of one end of a link (R432). -/
structure LinkReport where
  node : Nat
  face : Nat
  state : Nat
  partner : Nat
  partnerFace : Nat
  deriving DecidableEq, Repr

/-- A request that waits to be sent: 4,096 to its destination or 65,536 in all are outstanding (R429, R430). -/
structure WaitReq where
  why : ReqWhy
  pkt : Packet
  deriving DecidableEq, Repr

/-- Links, routes and requests. -/
structure Fabric where
  links : Table Link := []
  /-- The applied link map: the links that routes use, as node × 4 + dimension. -/
  map : List Nat := []
  /-- Member node IDs, ascending. -/
  members : List Nat := []
  pendingRoutes : List RouteChange := []
  /-- EPOCHs of the ROUTE_SETs taken so far. -/
  seenEpochs : List Nat := []
  /-- The lead's changes that are not acknowledged, its next EPOCH, the ends it heard of. -/
  routeWaits : List RouteWait := []
  nextEpoch : Nat := 1
  reports : List LinkReport := []
  reqs : Table Req := []
  waitReqs : List WaitReq := []
  /-- Next TAG, next REQ_SEQ by destination. -/
  nextTag : Nat := 0
  nextSeq : Table Nat := []
  windows : Table Window := []
  runs : List Run := []
  /-- Image sets of other nodes' jobs whose part has not started, by herd job identifier; JOB_STARTs that wait for theirs or for what its
  validation reads; JOB_KILLs whose part has not ended (R419). -/
  images : Table Bytes := []
  starts : List Packet := []
  kills : List Packet := []
  /-- SERIAL of the last HERD_RESET applied, and the lead's next one with the copies still to send. -/
  lastSerial : Option Nat := none
  nextSerial : Nat := 1
  resetCopies : Nat := 0
  deriving DecidableEq, Repr

end Sys2Proof.Machine
end

