-- ==== Sys2Proof/Machine/StateStrainer.lean ====
section
/-! DEFINITION. The state of Strainer's banks beside their registers (chapter 15). -/

namespace Sys2Proof.Machine

/-- An entry of a bank: VALID, PRIO, the units' data and mask words (R311, R312). -/
structure StrEntry where
  valid : Bool
  prio : Nat
  data : List Nat
  mask : List Nat
  deriving DecidableEq, Repr

/-- What one bank keeps: entries by index, the engine cycle of its last updates and the entries they wrote with the path
(0 engine, 1 firmware, 2 host), the entry the next scrub step takes, whether a LOAD writes it. -/
structure StrBank where
  entries : Table StrEntry := []
  cycle : Option Nat := none
  writes : List (Nat × Nat) := []
  scrubAt : Nat := 0
  deriving DecidableEq, Repr

/-- A LOAD that has checked every record and has not written yet: its job and stage, its banks (R323). -/
structure StrLoad where
  job : Nat
  stage : Nat
  banks : Nat
  deriving DecidableEq, Repr

/-- Strainer. -/
structure Strainer where
  banks : Table StrBank := []
  /-- LOADs in the order in which they finished checking. -/
  loads : List StrLoad := []
  deriving DecidableEq, Repr

end Sys2Proof.Machine
end

