-- ==== Sys2Proof/Machine/StateEngines.lean ====
section
/-! DEFINITION. The state of the damage log, of Churn's dictionaries and of Ladle (chapters 12, 13 and 19). -/

namespace Sys2Proof.Machine

/-- The damage log (R267). Its head is the register DLOG_HEAD. -/
structure Dlog where
  tail : Nat := 0
  phase : Bool := true
  seq : Nat := 0
  deriving DecidableEq, Repr

/-- A registered dictionary (R276). -/
structure Dict where
  id : Nat
  bytes : Bytes
  deriving DecidableEq, Repr

/-- Churn's dictionaries: those registered, by slot; those unregistered whose command still waits. -/
structure ChurnSide where
  dicts : Table Dict := []
  /-- The slot of an UNREGISTER that waits for the frames that resolved it. -/
  unreg : Option Nat := none
  deriving DecidableEq, Repr

/-- An embedding table as this node knows it (R380 to R383). -/
structure LTable where
  dtype : Nat
  dim : Nat
  home : Nat
  rows : Nat
  seed : Nat
  quota : Nat
  /-- The default row. -/
  dflt : Bytes
  /-- The members at CREATE, ascending. -/
  members : List Nat
  /-- Shards whose owner has changed since. -/
  owners : Table Nat := []
  /-- Forwarding stubs kept here: the shard, the epoch boundary at which the stub ends. -/
  stubs : Table Nat := []
  bind : Option Nat := none
  /-- The generation of R399. -/
  gen : Nat := 0
  /-- Written rows of a Skim-home table, of the shards held here. -/
  data : Table Bytes := []
  /-- Promoted rows and the epochs since their last access. -/
  promoted : Table Nat := []
  /-- Accesses in this epoch, by row and by shard. -/
  rowHeat : Table Nat := []
  shardHeat : Table Nat := []
  deriving DecidableEq, Repr

/-- A logged update (R388, R389): `step` names the step by its job and stage, or by its step ID alone where a record gave no more; `id` is
the step ID that it came under. -/
structure LogEntry where
  step : Nat
  tbl : Nat
  row : Nat
  tide : Nat
  origin : Nat
  seq : Nat
  vals : List Nat
  id : Nat
  deriving DecidableEq, Repr

/-- A step at its coordinator (R389): the job and stage it belongs to, COMBINE, its nodes, who sent SENT, the owners, those that have
applied, its status. -/
structure Step where
  job : Nat
  stage : Nat
  combine : Nat
  set : List Nat
  sents : List Nat := []
  owners : List Nat := []
  closed : Bool := false
  applied : List Nat := []
  status : Nat := 0
  deriving DecidableEq, Repr

/-- A STEP_CLOSE whose APPLIED waits: for a handed-over owner, a copy in migration, or Cellar flushes (R392, R396). -/
structure Closing where
  step : Nat
  pkt : Packet
  waits : Nat
  status : Nat := 0
  deriving DecidableEq, Repr

/-- A shard's move as one of its owners holds it, from PREP to EFFECTIVE (R396). -/
structure Move where
  id : Nat
  tbl : Nat
  shard : Nat
  old : Nat
  new : Nat
  /-- The lead's PREP, answered by the new owner once the copy is complete. -/
  prep : Option Packet := none
  /-- Rows that the copy brought, until EFFECTIVE. -/
  rows : Table Bytes := []
  promoted : List Nat := []
  copied : Bool := false
  deriving DecidableEq, Repr

/-- A committed owner change that waits for its tide. -/
structure OwnerChange where
  tbl : Nat
  shard : Nat
  new : Nat
  old : Nat
  effective : Nat
  deriving DecidableEq, Repr

/-- A migration as the lead plans it. -/
structure Migration where
  tbl : Nat
  shard : Nat
  old : Nat
  new : Nat
  /-- The epoch in which PREP was sent; the owners that have answered it. -/
  epoch : Nat
  oldOk : Bool := false
  newOk : Bool := false
  /-- EFFECTIVE, once COMMIT was sent. -/
  effective : Option Nat := none
  deriving DecidableEq, Repr

/-- A node's load report for an epoch: its total, its hottest (table, shard, count). -/
structure LoadReport where
  node : Nat
  total : Nat
  hot : List (Nat × Nat × Nat)
  deriving DecidableEq, Repr

/-- A table command that runs (R402): OP, table, members that have not applied it. -/
structure TblCmd where
  op : Nat
  tbl : Nat
  missing : List Nat
  result : Nat := 0
  deriving DecidableEq, Repr

/-- Rows gathered ahead for a job's stage (R399): the first and their number, the generation, the extents. -/
structure Prefetch where
  job : Nat
  stage : Nat
  first : Nat
  count : Nat
  gen : Nat
  extents : Nat
  deriving DecidableEq, Repr

/-- Ladle. -/
structure Ladle where
  tables : Table LTable := []
  log : List LogEntry := []
  /-- Skim and Cream MiB that the log's spill takes. -/
  logCream : Nat := 0
  logSkim : Nat := 0
  steps : Table Step := []
  nextStep : Nat := 0
  closings : List Closing := []
  /-- Log entries handed to a new owner: step, owner. -/
  handed : List (Nat × Nat) := []
  moves : List Move := []
  changes : List OwnerChange := []
  /-- The lead's migrations by ID, its reports of the epoch in hand. -/
  migrations : Table Migration := []
  nextMigration : Nat := 0
  reports : List LoadReport := []
  reportEpoch : Nat := 0
  cmd : Option TblCmd := none
  prefetched : List Prefetch := []
  /-- Accesses in this epoch. -/
  accesses : Nat := 0
  deriving DecidableEq, Repr

end Sys2Proof.Machine
end

