-- ==== Sys2Proof/Machine/StateNode.lean ====
section
/-! DEFINITION. The state of herd membership, of serving and of Rolar (chapters 21, 22 and 23). -/

namespace Sys2Proof.Machine

/-- A JOIN as the lead holds it: the node, its links' partners, its KEEPER. -/
structure Joined where
  node : Nat
  serial : Nat
  keeper : Nat
  partners : List Nat
  deriving DecidableEq, Repr

/-- A membership set (R441, R461): KIND, EFFECTIVE, FORM_SERIAL, member entries (ID, HOST), link entries (node, dimension). -/
structure MemberSet where
  kind : Nat
  seq : Nat
  effective : Nat
  serial : Nat := 0
  entries : List (Nat × Nat)
  links : List (Nat × Nat) := []
  deriving DecidableEq, Repr

/-- A part of a membership set in arrival. -/
structure SetPart where
  seq : Nat
  part : Nat
  last : Bool
  body : MemberSet
  deriving DecidableEq, Repr

/-- A membership set that the lead resends: the set, the parts and members without an acknowledgement. -/
structure SetWait where
  set : MemberSet
  missing : List (Nat × Nat)
  deriving DecidableEq, Repr

/-- Herd membership (R438 to R447, R461, R492). -/
structure Herd where
  /-- LEAD_CAND as the last module reset release sampled it. -/
  cand : Bool := true
  /-- Chronometer at which FORM_MS began to run, and what it ends: formation, the lead's wait for JOINs, an election. -/
  formAt : Nat := 0
  /-- FORM_MS has passed. -/
  formed : Bool := false
  /-- The lead has sent HERD_FORM and waits for JOINs since. -/
  waitJoins : Option Nat := none
  /-- An election runs since (R445). -/
  electAt : Option Nat := none
  /-- ELECT_ACKs of this node's election: KEEPER by member. -/
  electAcks : Table Nat := []
  /-- The lowest claim relayed. -/
  lowest : Option Nat := none
  /-- The face of the first HERD_FORM, the ID derived from it, its lead. -/
  parent : Option Nat := none
  derived : Option Nat := none
  lead : Nat := 0
  /-- The herd's sizes in X, Y and Z, as the lead gives them. -/
  shape : Nat × Nat × Nat := (1, 1, 1)
  /-- The HERD_FORM that reached a node which is ALONE: its face, its body (R442). -/
  offer : Option (Nat × Bytes) := none
  /-- FORM_SERIAL of a re-formation in progress (R447), or 0. -/
  serial : Nat := 0
  joins : List Joined := []
  /-- SPARE nodes that joined and wait for admission. -/
  spares : List Joined := []
  /-- Parts in arrival, whole sets that wait for their tide, the last set applied. -/
  parts : List SetPart := []
  pendingSets : List MemberSet := []
  lastSet : Option Nat := none
  /-- The lead's sets that are not acknowledged, and its next MSET_SEQ. -/
  waits : List SetWait := []
  nextSet : Nat := 0
  /-- Lost members that their twins host. -/
  aliases : Table Nat := []
  /-- Members lost that wait for LEAVE to be sent, of which the lead has sent it. -/
  gone : List Nat := []
  /-- The runtime image in delivery from the lead: its bytes by offset, its length, chronometer at the last chunk. -/
  boot : Bytes := []
  bootTotal : Nat := 0
  bootAt : Option Nat := none
  /-- Whose image the node has asked for: it sent BOOT_REQ. -/
  bootAsked : Bool := false
  deriving DecidableEq, Repr

/-- What a twin restored of the node it hosts (R455, R456). -/
structure Hosted where
  windows : Table Window := []
  keeper : Nat := 0
  flows : Table Flow := []
  stores : Table WinStore := []
  /-- The ledger: its STATE, its park. -/
  session : Nat := 0
  sessionId : Nat := 0
  park : List ParkRec := []
  deriving DecidableEq, Repr

/-- A registered service (R468). -/
structure Service where
  plan : Plan
  binds : List Bind
  reqSlot : Nat
  respSlot : Nat
  /-- UNREGISTER waits for its requests. -/
  closing : Bool := false
  deriving DecidableEq, Repr

/-- A request ring as the device runs it (R470, R472). -/
structure ServeRing where
  prod : Nat := 0
  cons : Nat := 0
  /-- Transmit slots given out, and those of them consumed as the adapter's index last read shows; a slot's number is its
  count modulo the ring's depth. -/
  txp : Nat := 0
  head : Nat := 0
  /-- A read of HEAD_ADDR is outstanding. -/
  reading : Bool := false
  /-- Chronometer at the PROD write that covered each waiting slot. -/
  prodAt : Table Nat := []
  deriving DecidableEq, Repr

/-- Where a request stands. -/
inductive ReqState where
  /-- Its job runs. -/
  | running
  /-- Its answer waits for its turn or for a transmit slot. -/
  | answered
  deriving DecidableEq, Repr

/-- A copied request (R473 to R478). -/
structure Request where
  ring : Nat
  /-- Its transmit slot, as a count. -/
  slot : Nat
  service : Nat
  record : Bytes
  prodAt : Nat
  deadline : Nat
  state : ReqState := .running
  status : Nat := 0
  stage : Nat := 0xFFFF
  payload : Bytes := []
  /-- It is in the admission queue and holds an entry of the store; one that met QFULL does not. -/
  stored : Bool := true
  /-- Its partial payload is undefined (R474). -/
  spoiled : Bool := false
  deriving DecidableEq, Repr

/-- Serving (R465 to R482). -/
structure Serve where
  services : Table Service := []
  rings : Table ServeRing := []
  requests : Table Request := []
  next : Nat := 0
  /-- MiB of the admission store and its tier (true for Cream), while it is held. -/
  store : Option (Nat × Bool) := none
  unreg : Option Nat := none
  deriving DecidableEq, Repr

/-- An SPDM session (R487): over DOE or over MCTP, its ID, FINISH has completed. -/
structure SpdmSession where
  doe : Bool
  id : Nat
  done : Bool := false
  /-- Key updates so far. -/
  updates : Nat := 0
  deriving DecidableEq, Repr

/-- A stage key (R494). -/
structure StageKey where
  minSvn : Nat
  key : Bytes
  deriving DecidableEq, Repr

/-- Rolar (R485 to R501). -/
structure Rolar where
  /-- Images in flash: 0 and 1 the Rolar slots A and B, 2 and 3 the runtime slots. -/
  flash : Table Bytes := []
  /-- Signed headers of the running images. -/
  rolarHdr : Bytes := []
  runtimeHdr : Bytes := []
  /-- The running runtime image, which the lead delivers (R492). -/
  runtime : Bytes := []
  /-- Number of blown bits among the 64 rollback fuses; bit k: firmware key k is revoked. -/
  fuses : Nat := 0
  revoked : Nat := 0
  /-- FUSE_SVN that a COMMIT works toward. -/
  commit : Option Nat := none
  /-- The programming of a fuse bit was cut short by a reset. -/
  cutShort : Bool := false
  keys : Table StageKey := []
  sessions : List SpdmSession := []
  /-- Version and algorithms negotiated on DOE, on MCTP: 0 none, 1 version, 2 capabilities, 3 algorithms. -/
  doeStep : Nat := 0
  mctpStep : Nat := 0
  eid : Nat := 0
  /-- The PLDM terminus ID. -/
  tid : Nat := 0
  /-- Resends of the packet in hand after lost arbitration. -/
  resends : Nat := 0
  deriving DecidableEq, Repr

end Sys2Proof.Machine
end

