-- ==== Sys2Proof/Machine/State.lean ====
section
/-! DEFINITION. The whole state of the module, the reasons a command can stop, and the state right after reset. -/

namespace Sys2Proof.Machine

/-- Why the module stops with a fault. -/
inductive Fault where
  /-- A command names a unit the module does not have (a link above 5, a domain above 5, a drive above 15). Raised by the
  commands whose operand is such a number. Safe: no such event can reach the hardware. -/
  | noSuchUnit
  deriving DecidableEq, Repr

/-- Why a command is refused. -/
inductive Refusal where
  /-- The command has no meaning yet. Raised by `exec` only. Safe: the model stops. -/
  | notModelled (mnemonic : String)
  deriving DecidableEq, Repr

/-- Who the node is: its ID and whether it is assigned (R79). -/
structure Node where
  id : Nat := 0
  valid : Bool := false
  deriving DecidableEq, Repr

/-- The state of the module. -/
structure State where
  /-- Commands that wait, first in, first out. -/
  pending : List Instr
  /-- The chronometer in ns. -/
  chrono : Nat
  /-- Count of open values used so far (the model's own field, no part of the hardware). -/
  free : Nat
  /-- What has left the module, oldest first (the model's own record of its wires). -/
  out : List Output
  /-- Registers that software wrote or hardware set, by `Reg.key`; one not listed holds its reset value. -/
  regs : Table Word
  /-- What pages keep beside their registers, by owner and page. -/
  pages : Table PageRun
  /-- Watermark notices. -/
  notices : Table Notice
  pins : Pins
  power : Power
  leave : Leave
  cal : Cal
  mem : Memory
  tiers : Mem
  host : HostSide
  work : Work
  rennet : Rennet
  tide : Tide
  node : Node
  fabric : Fabric
  twin : Twin
  strainer : Strainer
  dlog : Dlog
  churn : ChurnSide
  ladle : Ladle
  herd : Herd
  /-- What this node restored of the node it hosts. -/
  hosted : Hosted
  serve : Serve
  rolar : Rolar
  /-- Open window stores (R358). -/
  stores : Table WinStore
  /-- The fault record queue, oldest first (R507). -/
  faults : List FaultRec
  /-- Chronometer at the class 3 record of the present fatal state (R506). -/
  fatalAt : Option Nat
  /-- Platform events that M1 has not yet polled (R495). -/
  platformEvents : List Nat
  deriving DecidableEq, Repr

/-- A calibration slot as manufacture leaves it: GEN 1, a payload of 16 zero bytes. DESIGN CHOICE (log 21): the payload's
format is private to the device. -/
def factorySlot : CalSlot := ⟨0x4C414343, 1, 16, 0xEED1FEE4, List.replicate 16 0#8⟩

/-- The machine right after the module reset release that ends a power-on: PD0 on, straps floating, the calibration store as
manufacture left it, every register at its reset value but STRAP_STAT (sampled), RESET_CAUSE (power-on) and INVALID_FOUND (slot B
is erased). -/
def State.reset : State where
  pending := []
  chrono := 0
  free := 0
  out := []
  regs := [(0x118, 0x1FF#64), (0x3100, 1#64), (0x4068, 1#64)]
  pages := []
  notices := []
  pins := {}
  power := {}
  leave := {}
  cal := { slotA := some factorySlot }
  mem := []
  tiers := {}
  host := {}
  work := {}
  rennet := {}
  tide := {}
  node := {}
  fabric := {}
  twin := {}
  strainer := {}
  dlog := {}
  churn := {}
  ladle := {}
  herd := {}
  hosted := {}
  serve := {}
  rolar := {}
  stores := []
  faults := []
  fatalAt := none
  platformEvents := []

end Sys2Proof.Machine
end

