-- ==== Sys2Proof/Machine/Ops.lean ====
section
/-! DEFINITION. The shared operations: time, registers, sticky errors, interrupts, fault records, watermark notices. -/

namespace Sys2Proof.Machine

open Sys2Proof.Reg

/-! Requesters. -/

/-- The SOURCE code of a requester (Table 04-2); M1 acts as the control cores (R496). -/
def sourceOf : Requester → Nat
  | .cores => 0xFE
  | .m1 => 0xFE
  | .remote _ => 0xFD
  | .fn n => n

/-- The function whose view a requester has: cores and remote nodes see what the physical function sees (R516). -/
def viewOf : Requester → Nat
  | .fn n => n
  | _ => 0

/-! One part of the state changed. -/

def State.modPins (s : State) (f : Pins → Pins) : State := { s with pins := f s.pins }
def State.modPower (s : State) (f : Power → Power) : State := { s with power := f s.power }
def State.modLeave (s : State) (f : Leave → Leave) : State := { s with leave := f s.leave }
def State.modCal (s : State) (f : Cal → Cal) : State := { s with cal := f s.cal }
def State.modTiers (s : State) (f : Mem → Mem) : State := { s with tiers := f s.tiers }
def State.modHost (s : State) (f : HostSide → HostSide) : State := { s with host := f s.host }
def State.modSession (s : State) (f : Session → Session) : State :=
  { s with host := { s.host with session := f s.host.session } }
def State.modWork (s : State) (f : Work → Work) : State := { s with work := f s.work }
def State.modRennet (s : State) (f : Rennet → Rennet) : State := { s with rennet := f s.rennet }
def State.modTide (s : State) (f : Tide → Tide) : State := { s with tide := f s.tide }
def State.modFabric (s : State) (f : Fabric → Fabric) : State := { s with fabric := f s.fabric }
def State.modStrainer (s : State) (f : Strainer → Strainer) : State := { s with strainer := f s.strainer }
def State.modLadle (s : State) (f : Ladle → Ladle) : State := { s with ladle := f s.ladle }
def State.modHerd (s : State) (f : Herd → Herd) : State := { s with herd := f s.herd }
def State.modServe (s : State) (f : Serve → Serve) : State := { s with serve := f s.serve }
def State.modRolar (s : State) (f : Rolar → Rolar) : State := { s with rolar := f s.rolar }
def State.modTwin (s : State) (f : Twin → Twin) : State := { s with twin := f s.twin }

/-! Time, open values, outputs. -/

/-- The state at the chronometer reading of a command; the chronometer never runs backward. -/
def State.at (s : State) (now : Nat) : State := { s with chrono := max s.chrono now }

/-- The Rennet tick of a chronometer reading (R185: tick k begins at k × 10,000 ns). -/
def tickOf (ns : Nat) : Nat := ns / 10000

/-- The first tick at or after a chronometer reading. -/
def tickAfter (ns : Nat) : Nat := ceilDiv ns 10000

/-- One open value more is used. -/
def State.useOpen (s : State) : State := { s with free := s.free + 1 }

/-- A fresh open number and the state that has used it. -/
def State.openNat (s : State) : Nat × State := (Config.freeNat s.free, { s with free := s.free + 1 })

/-- `n` fresh open bytes and the state that has used them. -/
def State.openBytes (s : State) (n : Nat) : Bytes × State := (Config.freeBytes s.free n, { s with free := s.free + 1 })

/-- `s` after `o` has left the module. -/
def State.emit (s : State) (o : Output) : State := { s with out := s.out ++ [o] }

/-- `s` after each of `os` has left the module. -/
def State.emits (s : State) (os : List Output) : State := { s with out := s.out ++ os }

/-! Registers. -/

/-- The stored word of a register. -/
def State.word (s : State) (fn page off : Nat) : Word := Table.findD s.regs (key fn page off) (resetWord page off)

/-- `s` with a register's stored word. -/
def State.setWord (s : State) (fn page off : Nat) (w : Word) : State :=
  { s with regs := Table.put s.regs (key fn page off) w }

/-- A field of function `fn`'s page. -/
def State.fldFn (s : State) (fn : Nat) (f : Field) : Nat := bitsOf (s.word fn f.page f.off) f.hi f.lo

/-- `s` with a field of function `fn`'s page. -/
def State.setFldFn (s : State) (fn : Nat) (f : Field) (v : Nat) : State :=
  s.setWord fn f.page f.off (putBits (s.word fn f.page f.off) f.hi f.lo v)

/-- A field of a shared page. -/
def State.fld (s : State) (f : Field) : Nat := s.fldFn 0 f

/-- Whether a one-bit field of a shared page is 1. -/
def State.bit (s : State) (f : Field) : Bool := s.fld f != 0

/-- `s` with a field of a shared page. -/
def State.setFld (s : State) (f : Field) (v : Nat) : State := s.setFldFn 0 f v

/-- A counter of function `fn`'s page grown by `n`, saturating (R78). -/
def State.countFn (s : State) (fn : Nat) (f : Field) (n : Nat) : State := s.setFldFn fn f (satAdd (s.fldFn fn f) n)

/-- A counter of a shared page grown by `n`, saturating (R78). -/
def State.count (s : State) (f : Field) (n : Nat) : State := s.countFn 0 f n

/-! What pages keep beside their registers. -/

/-- The key of a page in the page store. -/
def pageKey (fn page : Nat) : Nat := fn * 0x4000 + page

def State.page (s : State) (fn page : Nat) : PageRun := Table.findD s.pages (pageKey fn page) {}

def State.setPage (s : State) (fn page : Nat) (r : PageRun) : State :=
  { s with pages := Table.put s.pages (pageKey fn page) r }

/-! Functions, domains, identity. -/

/-- The host edge runs two x8 links (H_BIF sampled 0). -/
def State.x8x8 (s : State) : Bool := s.fld GLOBAL.H_BIF == 0

/-- Whether a function is enabled: the physical function always, virtual functions as configured, function 31 of the
x8x8 mode on its own port (R107). -/
def State.fnEnabled (s : State) (fn : Nat) : Bool :=
  fn == 0 || (if s.x8x8 && fn == 31 then true else decide (fn ≤ s.host.numVfs))

/-- A function of port 0 (R130). -/
def State.onPort0 (s : State) (fn : Nat) : Bool := !(s.x8x8 && fn == 31)

/-- A function's configuration. -/
def State.func (s : State) (fn : Nat) : Func := Table.findD s.host.fns fn {}

/-- PD1 to PD5 are held off by overvoltage or a latched trip (R49). -/
def State.heldOff (s : State) : Bool := s.power.overvoltage || s.power.trip

/-- PDn is on and good. -/
def State.good (s : State) (n : Nat) : Bool := bitAt s.power.good n && (n == 0 || !s.heldOff)

/-- Whether a page answers (R519). -/
def State.answers (s : State) (page : Nat) : Bool :=
  match blockOf page with
  | none => false
  | some b => s.power.released && (b.domain == 0 || (bitAt s.power.started b.domain && !s.heldOff))

/-- Whether a page is presented to a requester (R516, R517). -/
def presents (req : Requester) (page : Nat) : Bool :=
  match blockOf page with
  | none => false
  | some b => decide (viewOf req = 0) || decide (b.view ≠ .pf)

/-- The owner of a page's registers as a requester sees it: its own function on a RING page, else the shared set (R61). -/
def ownerOf (req : Requester) (page : Nat) : Nat := if firstPage page = 0x10 then viewOf req else 0

/-- TIERS_READY of PD_STAT. -/
def State.tiersReady (s : State) : Bool := s.bit LEAVE.TIERS_READY

/-! Interrupts (R75). -/

/-- Whether a page's route can deliver. -/
def State.canDeliver (s : State) (fn page : Nat) : Bool :=
  let f := s.fldFn fn (HDR.FUNC.on page)
  let v := s.fldFn fn (HDR.VECTOR.on page)
  let c := s.func f
  decide (s.fldFn fn (HDR.IRQ_EN.on page) = 1) &&
    (decide (s.fldFn fn (HDR.TO_CORES.on page) = 1) ||
      (s.fnEnabled f && decide (v ≤ if f = 0 then 2047 else 63) && !c.masked && !(Table.findD c.vectors v {}).masked))

/-- A page's message. -/
def State.irqMessage (s : State) (fn page : Nat) : Output :=
  if s.fldFn fn (HDR.TO_CORES.on page) = 1 then .coreIrq fn page
  else .msix (s.fldFn fn (HDR.FUNC.on page)) (s.fldFn fn (HDR.VECTOR.on page))

/-- A page's route and pending events brought up to date: when the route can deliver and the count or the time is
reached, the message is sent and the count returns to 0 (R75). -/
def State.irqSettle (s : State) (fn page : Nat) : State :=
  let r := s.page fn page
  if s.canDeliver fn page then
    let able := r.ableAt.getD s.chrono
    let due := decide (max 1 (s.fldFn fn (HDR.MOD_EVENTS.on page)) ≤ r.pending) ||
      decide (max r.oldest able + s.fldFn fn (HDR.MOD_TIME.on page) * 1000 ≤ s.chrono)
    if decide (0 < r.pending) && due then
      (s.setPage fn page { r with ableAt := some able, pending := 0 }).emit (s.irqMessage fn page)
    else s.setPage fn page { r with ableAt := some able }
  else s.setPage fn page { r with ableAt := none }

/-- One interrupt event on a page (R75). -/
def State.irqEvent (s : State) (fn page : Nat) : State :=
  let r := s.page fn page
  let r' := { r with pending := min 65535 (r.pending + 1), oldest := if r.pending = 0 then s.chrono else r.oldest }
  (s.setPage fn page r').irqSettle fn page

/-! Sticky errors (R68, R69). -/

/-- Bit `n` of a page's ERR_STICKY set, with its event count; an unmasked 0-to-1 setting is an interrupt event. -/
def State.setSticky (s : State) (fn page n : Nat) : State :=
  let w := s.word fn page 0x020
  let s1 := (s.setWord fn page 0x020 (w ||| BitVec.ofNat 64 (2 ^ n))).countFn fn (HDR.ERR_EVENTS.on page) 1
  if w.getLsbD n || (s.word fn page 0x028).getLsbD n then s1 else s1.irqEvent fn page

/-- An error on a page: its sticky bit sets; unmasked, it is captured, or sets MULTI while a capture is held. -/
def State.raise (s : State) (fn page n : Nat) (source off accPage : Nat) : State :=
  let s1 := s.setSticky fn page n
  if (s.word fn page 0x028).getLsbD n then s1
  else if s.fldFn fn (HDR.VALID.on page) = 1 then s1.setSticky fn page 4
  else
    let w := putBits (putBits (putBits (putBits (putBits 0#64 5 0 n) 8 8 1) 23 16 source) 43 32 off) 63 48 accPage
    ((s1.setWord fn page 0x030 w).setWord fn page 0x0F0 (BitVec.ofNat 64 s.tide.now)).setWord fn page 0x0F8
      (BitVec.ofNat 64 s.chrono)

/-- An error that a requester's access causes on a shared page. -/
def State.raiseBy (s : State) (req : Requester) (page n off : Nat) : State :=
  s.raise (ownerOf req page) page n (sourceOf req) off page

/-- An error from inside the module on a shared page. DESIGN CHOICE (log 5): ACC_PAGE reads the page itself. -/
def State.raiseOwn (s : State) (page n : Nat) : State := s.raise 0 page n 0xFF 0 page

/-! Watermark notices (R92). -/

/-- The notice evaluated against a level: LEVEL follows the level; a rise while armed is a crossing, which disarms; a level
below MARK − HYST arms. With it, whether a crossing occurred. -/
def State.noticeStep (s : State) (id level mark hyst : Nat) : State × Bool :=
  let n := Table.findD s.notices id {}
  let lv := decide (mark ≤ level)
  let rise := lv && !n.level && n.armed
  let low := if hyst ≤ mark then decide (level < mark - hyst) else false
  let rearm := low || (decide (mark < hyst) && decide (level = 0))
  ({ s with notices := Table.put s.notices id { level := lv, armed := (n.armed && !rise) || (rearm && !lv) } }, rise)

/-- The notice evaluated where its page has a counter of crossings: a crossing sets CROSSED, counts and raises one event. -/
def State.noticeEval (s : State) (id level mark hyst : Nat) (fn : Nat) (crossed count : Field) (page : Nat) : State :=
  let r := s.noticeStep id level mark hyst
  if r.2 then ((r.1.setFldFn fn crossed 1).countFn fn count 1).irqEvent fn page else r.1

/-- The notice at a reset that arms it: armed, LEVEL at the present level, no crossing. -/
def State.noticeArm (s : State) (id level mark : Nat) : State :=
  { s with notices := Table.put s.notices id { level := decide (mark ≤ level), armed := true } }

/-! Fault records (R502, R507). -/

/-- The class counter of a fault class (Table 24-7). -/
def classCounter : Nat → Field
  | 0 => FAULT.CORRECTED
  | 1 => FAULT.SLICE_FAULTS
  | 2 => FAULT.BLOCK_FAULTS
  | 3 => FAULT.NODE_FAULTS
  | _ => FAULT.HERD_FAULTS

/-- A class 0 fault: counted, no record (Table 24-1). -/
def State.corrected (s : State) : State := s.count FAULT.CORRECTED 1

/-- A fault record: numbered, counted by its class, queued or lost, and raising the pending class, a platform event and
an interrupt event from PIN_CLASS on (R507, R508). -/
def State.faultRecord (s : State) (r : FaultRec) : State :=
  let seq := s.fld FAULT.NEXT_SEQ
  let r := { r with seq := seq, tide := s.tide.now, chrono := s.chrono }
  let s1 := s.setFld FAULT.NEXT_SEQ ((seq + 1) % 2 ^ 32)
  let s2 := if r.cls = 0 then s1 else s1.count (classCounter r.cls) 1
  let s3 := s2.setFld FAULT.PENDING_CLASS (max (s2.fld FAULT.PENDING_CLASS) r.cls)
  let s4 :=
    if s3.faults.length < 64 then
      { s3 with faults := s3.faults ++ [r] }.setFld FAULT.QCOUNT (s3.faults.length + 1)
    else (s3.count FAULT.RECORDS_LOST 1).raiseOwn 0x0F0 17
  if decide (s4.fld FAULT.PIN_CLASS ≤ r.cls) then
    { s4 with platformEvents := s4.platformEvents ++ [r.cls * 256 + r.cause] }.irqEvent 0 0x0F0
  else s4

/-- A fault record of the local node on a page, with status, job tag and detail. -/
def State.fault (s : State) (cls cause status page tag detail : Nat) : State :=
  s.faultRecord ⟨cls, cause, 0, status, page, s.node.id, 0, tag, 0, detail, 0⟩

/-- FAULT_N is driven low (R508). -/
def State.faultPinLow (s : State) : Bool :=
  decide (s.fld FAULT.PIN_CLASS ≤ s.fld FAULT.PENDING_CLASS) || s.bit FAULT.NODE_FATAL || s.power.trip

/-- M_ALERT_N is asserted: a STUCK bit is 1 or a platform event waits (R32, R495). -/
def State.alertLow (s : State) : Bool :=
  s.bit GLOBAL.TIDE_IN_STUCK || s.bit GLOBAL.PWR_BRAKE_STUCK || !s.platformEvents.isEmpty

/-- A class 3 fault makes the node fatal: its record, the present and the lasting state (R506). -/
def State.nodeFatal (s : State) (cause flags : Nat) : State :=
  let s1 := s.faultRecord ⟨3, cause, flags, 0, 0x0F0, s.node.id, 0, 0, 0, 0, 0⟩
  { (s1.setFld FAULT.NODE_FATAL 1).raiseOwn 0x0F0 16 with fatalAt := some s.chrono }

/-- A class 2 fault takes a page's unit out of service, with its record (R502, R509). -/
def State.unitFault (s : State) (fn page cause flags status : Nat) : State :=
  let s1 := s.setPage fn page { s.page fn page with unitFail := true }
  s1.faultRecord ⟨2, cause, flags, status, page, s.node.id, 0, 0, 0, 0, 0⟩

/-- A local address in herd form, with this node's ID (R81). -/
def State.herdForm (s : State) (addr : Nat) : Nat := s.node.id * 2 ^ 48 + addr % 2 ^ 48

end Sys2Proof.Machine
end

