-- ==== Sys2Proof/Machine/Access.lean ====
section
/-! DEFINITION. A register write on its way to its fields: view, rights, domain, block reset, lock, access codes
(R59 to R67, R73, R76, R109, R519). -/

namespace Sys2Proof.Machine

open Sys2Proof.Reg

/-- What a register's write does beside storing its plain fields: requester, page, the word before, the word written with
locked fields at their present values. -/
abbrev Hook := Requester → Nat → Word → Word → State → State

/-- No effect beside the fields. -/
def noHook : Hook := fun _ _ _ _ s => s

/-- What a write does to a register's fields: the new stored word, the written word with locked fields unchanged, whether
a locked field would have changed, the sticky bits of refused values. -/
structure FieldWrite where
  stored : Word
  seen : Word
  lockedHit : Bool := false
  refused : List Nat := []
  deriving DecidableEq, Repr

/-- Whether a value passes a field's bounds. -/
def Rule.allows : Rule → Nat → Bool
  | .any, _ => true
  | .within lo hi, v => decide (lo ≤ v) && decide (v ≤ hi)
  | .withinElse lo hi _, v => decide (lo ≤ v) && decide (v ≤ hi)
  | .special, _ => false

/-- One field of a write. -/
def fieldStep (locked : Bool) (v : Word) (w : FieldWrite) (f : Field) : FieldWrite :=
  let old := bitsOf w.stored f.hi f.lo
  let new := bitsOf v f.hi f.lo
  match f.acc with
  | .ro => w
  -- a FIRE write of a locked page counts as a change (R66)
  | .wo => if locked && decide (f.rule = .special) && decide (new ≠ 0) then { w with lockedHit := true, seen := putBits w.seen f.hi f.lo 0 } else w
  | .w1s => w
  | .rw1c => if f.rule = .special then w else { w with stored := w.stored &&& ~~~(v &&& f.mask) }
  | .rw =>
    if Rule.allows f.rule new then { w with stored := putBits w.stored f.hi f.lo new }
    else match f.rule with
      | .withinElse _ _ b => { w with refused := w.refused ++ [b] }
      | _ => w
  | .rwl =>
    if locked && decide (new ≠ old) then
      { w with lockedHit := true, seen := putBits w.seen f.hi f.lo old }
    else if Rule.allows f.rule new then { w with stored := putBits w.stored f.hi f.lo new }
    else match f.rule with
      | .withinElse _ _ b => { w with refused := w.refused ++ [b] }
      | _ => w

/-- A write through all fields of a register. -/
def fieldWrite (locked : Bool) (old v : Word) (fs : List Field) : FieldWrite :=
  fs.foldl (fieldStep locked v) { stored := old, seen := v }

/-- Whether the page's lock is set. -/
def State.locked (s : State) (fn page : Nat) : Bool := s.fldFn fn (HDR.LOCK.on page) == 1

/-- An access to a page its requester's view does not present (R60). -/
def State.unmapped (s : State) (req : Requester) (page off : Nat) : State :=
  (s.count GLOBAL.UNMAPPED_COUNT 1).raise 0 0x000 16 (sourceOf req) off page

/-- A write that its function may not make (R109, R122). -/
def State.accessDenied (s : State) (source page off : Nat) : State :=
  (s.count HOSTIF.ACCESS_DENIED_COUNT 1).raise 0 0x008 18 source off page

/-- Whether a function may write a register (R109). -/
def mayWrite (req : Requester) (page off : Nat) : Bool :=
  match req with
  | .fn 0 => true
  | .fn _ => decide (firstPage page = 0x10) || (decide (page = 0x060) && decide (0x110 ≤ off) && decide (off ≤ 0x130))
  | _ => true

/-- A write applied to a register: fields, lock, refusals, the count of PG_SYNC, then the register's own effect. -/
def State.applyWrite (s : State) (req : Requester) (page off : Nat) (v : Word) (hook : Hook) : State :=
  let fn := ownerOf req page
  let fs := fieldsAt page off
  if fs.all (fun f => f.acc = .ro) then s
  else
    let old := s.word fn page off
    let w := fieldWrite (s.locked fn page) old v fs
    let s1 := s.setWord fn page off w.stored
    let s2 := s1.setFldFn fn (HDR.WRITES.on page) ((s1.fldFn fn (HDR.WRITES.on page) + 1) % 2 ^ 32)
    let s3 := if w.lockedHit then s2.raiseBy req page 1 off else s2
    let s4 := w.refused.foldl (fun s b => s.raiseBy req page b off) s3
    hook req page old w.seen s4

/-- Where a write goes. -/
inductive Way where
  | unmapped | silent | denied | heldAttach | heldReset | discarded | applied
  deriving DecidableEq, Repr

/-- What becomes of a 64-bit write before its register sees it. -/
def State.writeWay (s : State) (req : Requester) (page off : Nat) : Way :=
  let fn := ownerOf req page
  let r := s.page fn page
  if presents req page = false then .unmapped
  else if s.answers page = false then .silent
  else if mayWrite req page off = false then .denied
  else if decide (page = 0x00A) && s.host.session.due.isSome then .heldAttach
  else if decide (0x100 ≤ off) && r.faulted then .discarded
  else if decide (0x100 ≤ off) && r.resetAt.isSome then .heldReset
  else .applied

/-- A 64-bit register write by a requester (R59 to R76, R109, R519). -/
def State.regWrite (s : State) (req : Requester) (page off : Nat) (v : Word) (hook : Hook) : State :=
  let fn := ownerOf req page
  match s.writeWay req page off with
  | .unmapped => s.unmapped req page off
  | .silent => s
  | .denied => s.accessDenied (sourceOf req) page off
  | .heldAttach =>
    { s with host := { s.host with session :=
      { s.host.session with held := s.host.session.held ++ [⟨req, off, v⟩] } } }
  | .discarded => s.raiseBy req page 0 off
  | .heldReset =>
    let r := s.page fn page
    s.setPage fn page { r with held := r.held ++ [⟨req, off, v⟩] }
  | .applied => s.applyWrite req page off v hook

/-- An access whose width or place R63 does not allow. -/
def State.badWidth (s : State) (req : Requester) (page off : Nat) : State :=
  if presents req page = false then s.unmapped req page off
  else if s.answers page then s.raiseBy req page 0 off else s

end Sys2Proof.Machine
end

