-- ==== Sys2Proof/Machine/MemoryOps.lean ====
section
/-! DEFINITION. Addresses, memory contents, errors in memory, space in the tiers (R80 to R92). -/

namespace Sys2Proof.Machine

open Sys2Proof.Reg

/-- What a local address names (Table 05-1). -/
inductive Space where
  | vat | image | cream | skim | host | none
  deriving DecidableEq, Repr

/-- The space of a local address. -/
def spaceOf (a : Nat) : Space :=
  if a < 0x10000000 then .vat
  else if decide (0x40000000 ≤ a) && decide (a < 0x44000000) then .image
  else if decide (0x001000000000 ≤ a) && decide (a < 0x004000000000) then .cream
  else if decide (0x010000000000 ≤ a) && decide (a < 0x020000000000) then .skim
  else if decide (0xC00000000000 ≤ a) && decide (a < 0x1000000000000) then .host
  else .none

/-- The last byte of a range lies in the same space as its first, so the range has no hole (R80). -/
def sameSpace (a len : Nat) : Bool := spaceOf a = spaceOf (a + (len - 1))

/-- Whether engines may be pointed at a range (R82: never at the register image). -/
def engineMapped (a len : Nat) : Bool :=
  sameSpace a len && decide (spaceOf a ≠ .image) && decide (spaceOf a ≠ .none)

/-- The end of the space that an address lies in. -/
def spaceEnd (a : Nat) : Nat :=
  match spaceOf a with
  | .vat => 0x10000000
  | .image => 0x44000000
  | .cream => 0x004000000000
  | .skim => 0x020000000000
  | .host => 0x1000000000000
  | .none => a

/-- The first unmapped address of a range, where it has one. -/
def firstUnmapped (a : Nat) : Nat := if spaceOf a = .none ∨ spaceOf a = .image then a else spaceEnd a

/-- The host I/O virtual address of a host-window address (R83). -/
def iovaOf (a : Nat) : Nat := a - 0xC00000000000

/-- Bytes `bs` stored from local address `a` on; a write of a whole line clears its poison, a write of a whole Vat word
its error (R84, R89). -/
def State.storeBytes (s : State) (a : Nat) (bs : Bytes) : State :=
  let covers (lo n : Nat) : Bool := decide (a ≤ lo) && decide (lo + n ≤ a + bs.length)
  { s with
    mem := Memory.store s.mem a bs
    tiers := { s.tiers with
      poison := s.tiers.poison.filter (fun l => !covers l 64)
      badWords := s.tiers.badWords.filter (fun l => !covers l 8) } }

/-- The bytes from `lo` up to but not including `hi` return to what unlisted memory reads as. -/
def State.clearMem (s : State) (lo hi : Nat) : State := { s with mem := Memory.clear s.mem lo hi }

/-- The first poisoned line that a range touches. -/
def State.poisonIn (s : State) (a len : Nat) : Option Nat :=
  s.tiers.poison.find? (fun l => decide (l < a + len) && decide (a < l + 64))

/-- The first uncorrectable Vat word that a range touches. -/
def State.badWordIn (s : State) (a len : Nat) : Option Nat :=
  s.tiers.badWords.find? (fun l => decide (l < a + len) && decide (a < l + 8))

/-- An access that finds an uncorrectable Vat word: counted, sticky, its address recorded (R84). -/
def State.vatUe (s : State) (addr : Nat) : State :=
  (((s.count VAT.UE_COUNT 1).raiseOwn 0x060 17).setFld VAT.UE_ADDR addr).setFld VAT.UE_VALID 1

/-- A corrected error of a tier (R89). -/
def State.tierCe (s : State) (cream : Bool) : State :=
  if cream then ((s.count CREAM.CE_COUNT 1).raiseOwn 0x061 16).corrected
  else ((s.count SKIM.CE_COUNT 1).raiseOwn 0x062 16).corrected

/-- An uncorrected error of a tier's line: poisoned, counted, sticky, its address recorded (R89). -/
def State.tierUe (s : State) (line : Nat) : State :=
  let s1 := { s with tiers := { s.tiers with poison := if line ∈ s.tiers.poison then s.tiers.poison else line :: s.tiers.poison } }
  if spaceOf line = .cream then
    (((s1.count CREAM.UE_COUNT 1).raiseOwn 0x061 17).setFld CREAM.UE_ADDR line).setFld CREAM.UE_VALID 1
  else (((s1.count SKIM.UE_COUNT 1).raiseOwn 0x062 17).setFld SKIM.UE_ADDR line).setFld SKIM.UE_VALID 1

/-- The bytes of a range of the memories. -/
def State.loadBytes (s : State) (a len : Nat) : Bytes := Memory.load s.mem a len

/-- Bytes stored or sent to a local address: host-window addresses become posted writes of the function; the matching
lines leave the host-line cache (R118). -/
def State.writeOut (s : State) (fn a : Nat) (bs : Bytes) : State :=
  if spaceOf a = .host then
    let lo := iovaOf a
    { s with host := { s.host with hcache := s.host.hcache.filter (fun l => decide (l + 64 ≤ lo) || decide (lo + bs.length ≤ l)) } }.emit
      (.hostWrite fn lo bs)
  else s.storeBytes a bs

/-! Space in the tiers, in MiB; pages are 2 MiB (R88). -/

def creamMib : Nat := 196608
def skimMib : Nat := 1048576

/-- MiB of whole 2 MiB pages that hold `n` bytes. -/
def pagesMib (n : Nat) : Nat := ceilDiv n 0x200000 * 2

def sumTable (t : Table Nat) : Nat := t.foldl (fun n e => n + e.2) 0

/-- MiB that regions of a tier hold. -/
def State.regionMib (s : State) (t : Tier) : Nat :=
  s.tiers.regions.foldl (fun n e => if e.2.tier = t then n + pagesMib e.2.len else n) 0

/-- The spill levels (R91). -/
def State.creamSpillMib (s : State) : Nat := sumTable s.tiers.creamSpill
def State.skimSpillMib (s : State) : Nat := sumTable s.tiers.skimSpill

/-- Bytes of a row of an embedding table (Table 19-1). -/
def rowSize (dtype dim : Nat) : Nat :=
  match dtype with
  | 0x0B => 4 * dim
  | 0x01 => 4 + dim
  | _ => 2 * dim

def LTable.rowSize (t : LTable) : Nat := Machine.rowSize t.dtype t.dim

/-- Cream MiB that the promoted rows of a table take. -/
def LTable.promotedMib (x : LTable) (p : Table Nat) : Nat := pagesMib (x.rowSize * p.length)

/-- Cream MiB that promoted rows take (R393). -/
def State.promotedMib (s : State) : Nat := s.ladle.tables.foldl (fun n e => n + e.2.promotedMib e.2.promoted) 0

/-- MiB of Skim that back rings in ring storage (R147). -/
def State.ringMib (s : State) : Nat :=
  s.work.sqs.foldl (fun n e => n + e.2.mib) (s.work.cqs.foldl (fun n e => n + e.2.mib) 0)

def State.creamUsed (s : State) : Nat := s.regionMib .cream + s.creamSpillMib + s.tiers.creamOther + s.promotedMib
def State.skimUsed (s : State) : Nat := s.regionMib .skim + s.skimSpillMib + s.tiers.skimOther + s.ringMib

/-- Cream is up: its domain is on, its tier in service (R42, R88). -/
def State.creamUp (s : State) : Bool := s.good 3 && !(s.page 0 0x061).unitFail
def State.skimUp (s : State) : Bool := s.good 4 && !(s.page 0 0x062).unitFail

def State.creamFree (s : State) : Nat := if s.creamUp then creamMib - s.creamUsed else 0
def State.skimFree (s : State) : Nat := if s.skimUp then skimMib - s.skimUsed else 0

/-- The spill notices brought up to date (R92). -/
def State.spillNotices (s : State) : State :=
  let s1 := s.noticeEval 1 s.creamSpillMib (s.fld CREAM.MARK) (s.fld CREAM.HYST) 0 CREAM.CROSSED CREAM.SPILL_CROSSINGS 0x061
  s1.noticeEval 2 s1.skimSpillMib (s1.fld SKIM.MARK) (s1.fld SKIM.HYST) 0 SKIM.CROSSED SKIM.SPILL_CROSSINGS 0x062

/-- A spill allocation of whole pages for a job: Cream while it has room, else Skim within SPILL_LIMIT; none where neither
takes it (R91). `true` allows Cream. -/
def State.spillAlloc (s : State) (job mib : Nat) (cream : Bool) : Option State :=
  if cream && decide (mib ≤ s.creamFree) then
    some { s with tiers := { s.tiers with creamSpill := Table.put s.tiers.creamSpill job (Table.findD s.tiers.creamSpill job 0 + mib) } }.spillNotices
  else if decide (mib ≤ s.skimFree) && decide (s.skimSpillMib + mib ≤ s.fld SKIM.SPILL_LIMIT) then
    some { s with tiers := { s.tiers with skimSpill := Table.put s.tiers.skimSpill job (Table.findD s.tiers.skimSpill job 0 + mib) } }.spillNotices
  else none

/-- A job's spill pages returned (R91). -/
def State.spillFree (s : State) (job : Nat) : State :=
  { s with tiers := { s.tiers with creamSpill := Table.drop s.tiers.creamSpill job, skimSpill := Table.drop s.tiers.skimSpill job } }.spillNotices

/-- Skim pages taken for a purpose of their own, where Skim has them. -/
def State.takeSkim (s : State) (mib : Nat) : Option State :=
  if decide (mib ≤ s.skimFree) then some { s with tiers := { s.tiers with skimOther := s.tiers.skimOther + mib } } else none

/-- Skim pages returned. -/
def State.giveSkim (s : State) (mib : Nat) : State :=
  { s with tiers := { s.tiers with skimOther := s.tiers.skimOther - mib } }

def State.takeCream (s : State) (mib : Nat) : Option State :=
  if decide (mib ≤ s.creamFree) then some { s with tiers := { s.tiers with creamOther := s.tiers.creamOther + mib } } else none

def State.giveCream (s : State) (mib : Nat) : State :=
  { s with tiers := { s.tiers with creamOther := s.tiers.creamOther - mib } }

/-! Vat extents (R85, R86). -/

/-- Extents that regions with TIER Vat hold. -/
def State.regionExtents (s : State) : Nat :=
  s.tiers.regions.foldl (fun n e => if e.2.tier = .vat then n + ceilDiv e.2.len 0x10000 else n) 0

/-- Free SLICE extents: the Vat less SYSTEM and the maxima of the other pools, less what slices hold. -/
def State.sliceFree (s : State) : Nat :=
  4096 - 256 - 16 * (s.fld VAT.RUNAHEAD_MAX + s.fld VAT.BUILD_MAX + s.fld VAT.REGION_MAX) - s.tiers.sliceUsed

end Sys2Proof.Machine
end

