-- ==== Sys2Proof/Machine/LeaveOps.lean ====
section
/-! DEFINITION. The leave controller: pool, grants, the queue, pacing (R43 to R47). -/

namespace Sys2Proof.Machine

open Sys2Proof.Reg

/-- The cost of a heavy class in lu (Table 03-3). -/
def leaveCost : Nat → Nat
  | 1 => 45
  | 2 => 40
  | 3 => 60
  | 4 => 35
  | 5 => 80
  | 6 => 30
  | _ => 0

/-- A class held by at most one grant on the node (Table 03-3). -/
def perNode (cls : Nat) : Bool := decide (3 ≤ cls)

/-- A floor cause is asserted (R43). -/
def State.floored (s : State) : Bool := s.pins.brakeLow || s.power.lowBand || s.power.throttle

/-- The effective budget in W (R43). -/
def State.effectiveBudget (s : State) : Nat := if s.floored then 350 else s.fld LEAVE.SUSTAINED_BUDGET

/-- The pool in lu: the effective budget less BASE_RESERVE. -/
def State.leavePool (s : State) : Nat := s.effectiveBudget - s.fld LEAVE.BASE_RESERVE

/-- The held leave in lu. -/
def heldLeave (gs : List LeaveGrant) : Nat := gs.foldl (fun n g => n + leaveCost g.cls) 0

/-- Whether a job holds a grant of a class on a page. -/
def State.holdsLeave (s : State) (job cls page : Nat) : Bool :=
  s.leave.grants.any (fun g => decide (g.cls = cls) && (perNode cls || decide (g.page = page)) && g.jobs.contains job)

/-- The jobs that wait on an entry, each once. -/
def entryJobs (e : LeaveEntry) : List Nat :=
  e.waits.foldl (fun js w => if js.contains w.job then js else js ++ [w.job]) []

/-- The grant that a queued entry becomes. -/
def entryGrant (e : LeaveEntry) : LeaveGrant := ⟨e.cls, e.page, entryJobs e⟩

/-- Entries granted from the head of the queue while their cost fits: those granted, those that stay (R46). -/
def grantHeads (pool : Nat) : Nat → List LeaveEntry → List LeaveEntry × List LeaveEntry
  | _, [] => ([], [])
  | held, e :: q =>
    if held + leaveCost e.cls ≤ pool then
      let r := grantHeads pool (held + leaveCost e.cls) q
      (e :: r.1, r.2)
    else ([], e :: q)

/-- A slice's state set. -/
def State.setSliceState (s : State) (id : Nat) (st : SliceState) : State :=
  s.modWork fun w => { w with slices := Table.upd w.slices id fun x => { x with state := st } }

/-- PACING follows the held leave and the pool; its time is counted when it clears (R47, R55). -/
def State.paceSettle (s : State) : State :=
  let p := decide (s.leavePool < heldLeave s.leave.grants)
  if p && !s.leave.pacing then { s with leave := { s.leave with pacing := true, pacingSince := s.chrono } }
  else if !p && s.leave.pacing then
    { s.count LEAVE.PACING_US ((s.chrono - s.leave.pacingSince) / 1000) with leave := { s.leave with pacing := false } }
  else s

/-- Grants from the head of the queue, after releases and changes of the budget (R46, R47). The controller grants nothing
before TIERS_READY. -/
def State.leaveSettle (s : State) : State :=
  let s := s.paceSettle
  if s.leave.pacing || !s.tiersReady then s
  else
    let r := grantHeads s.leavePool (heldLeave s.leave.grants) s.leave.queue
    let s1 := { s with leave := { s.leave with grants := s.leave.grants ++ r.1.map entryGrant, queue := r.2 } }
    let s2 := s1.count LEAVE.GRANTS r.1.length
    r.1.foldl (fun s e => e.waits.foldl (fun s w => s.setSliceState w.slice .queued) s) s2

/-- Every grant and queued request of a job given up (R45). -/
def State.leaveRelease (s : State) (job : Nat) : State :=
  let gs := s.leave.grants.map (fun g => { g with jobs := g.jobs.filter (fun j => j != job) })
  let q := s.leave.queue.map (fun e => { e with waits := e.waits.filter (fun w => w.job != job) })
  { s with leave := { s.leave with
      grants := gs.filter (fun g => !g.jobs.isEmpty), queue := q.filter (fun e => !e.waits.isEmpty) } }.leaveSettle

/-- One slice's wait taken out of the queue; an entry that nobody waits on leaves it (R46). -/
def State.leaveUnwait (s : State) (slice : Nat) : State :=
  let q := s.leave.queue.map (fun e => { e with waits := e.waits.filter (fun w => w.slice != slice) })
  { s with leave := { s.leave with queue := q.filter (fun e => !e.waits.isEmpty) } }

/-- The tick at which a slice's wait times out, where it waits. -/
def State.leaveTick (s : State) (slice : Nat) : Option Nat :=
  match s.leave.queue.find? (fun e => e.waits.any (fun w => w.slice == slice)) with
  | none => none
  | some e => (e.waits.find? (fun w => w.slice == slice)).map (·.tick)

/-- What becomes of a request (R44, R46). -/
inductive LeaveAnswer where
  | shared | granted | joined | queued | full
  deriving DecidableEq, Repr

/-- The decision on a request of a class from a page. -/
def State.leaveDecide (s : State) (cls : Nat) : LeaveAnswer :=
  if perNode cls && s.leave.grants.any (fun g => g.cls == cls) then .shared
  else if perNode cls && s.leave.queue.any (fun e => e.cls == cls) then .joined
  else if s.leave.queue.isEmpty && !s.leave.pacing && s.tiersReady &&
    decide (heldLeave s.leave.grants + leaveCost cls ≤ s.leavePool) then .granted
  else if decide (256 ≤ s.leave.queue.length) then .full
  else .queued

/-- A request carried out; a full queue is left to the caller. -/
def State.leaveAsk (s : State) (cls page slice job ticks : Nat) : State :=
  let w : LeaveWait := ⟨slice, job, tickAfter s.chrono + ticks⟩
  match s.leaveDecide cls with
  | .shared =>
    s.modLeave fun l => { l with grants := l.grants.map fun g =>
      if g.cls = cls ∧ ¬ g.jobs.contains job then { g with jobs := g.jobs ++ [job] } else g }
  | .granted => (s.count LEAVE.GRANTS 1).modLeave fun l => { l with grants := l.grants ++ [⟨cls, page, [job]⟩] }
  | .joined =>
    (s.modLeave fun l => { l with queue := l.queue.map fun e =>
      if e.cls = cls then { e with waits := e.waits ++ [w] } else e }).setSliceState slice .waitLeave
  | .queued =>
    (s.modLeave fun l => { l with queue := l.queue ++ [⟨cls, page, [w]⟩] }).setSliceState slice .waitLeave
  | .full => s

end Sys2Proof.Machine
end

