-- ==== Sys2Proof/Machine/RennetOps.lean ====
section
/-! DEFINITION. Rennet: cores, ready levels, dispatch, counters, waits (R176 to R187). A thread is known by its slice. -/

namespace Sys2Proof.Machine

open Sys2Proof.Reg

/-- Whether a core is in service and good (R201). -/
def State.coreUp (s : State) (n : Nat) : Bool :=
  decide (n < 16) && !bitAt (s.fld CTLCORE.CORE_OOS) n && !bitAt s.rennet.coresFailed n

def State.thread? (s : State) (t : Nat) : Option Thread := Table.find? s.rennet.threads t

def State.setThread (s : State) (t : Nat) (th : Thread) : State :=
  s.modRennet fun r => { r with threads := Table.put r.threads t th }

/-- A thread at the tail or the head of its level, ready. -/
def State.readyTail (s : State) (t : Nat) (th : Thread) : State :=
  (s.setThread t { th with state := .ready, core := none, sinceTail := 0, waitOn := none }).modRennet fun r =>
    { r with ready := Table.put r.ready th.level (Table.findD r.ready th.level [] ++ [t]) }

def State.readyHead (s : State) (t : Nat) (th : Thread) : State :=
  (s.setThread t { th with state := .ready, core := none }).modRennet fun r =>
    { r with ready := Table.put r.ready th.level (t :: Table.findD r.ready th.level []) }

/-- A running thread's record as it leaves its core: the time it ran is counted. -/
def Thread.offCore (th : Thread) (now : Nat) : Thread :=
  let ran := if th.core.isSome then now - th.dispatchedAt else 0
  { th with core := none, used := th.used + ran, sinceTail := th.sinceTail + ran }

/-- The running threads. -/
def State.running (s : State) : List (Nat × Thread) := s.rennet.threads.filter (fun e => e.2.core.isSome)

/-- The lowest-numbered free core in service. -/
def State.freeCore (s : State) : Option Nat :=
  (List.range 16).find? (fun n => s.coreUp n && !s.running.any (fun e => e.2.core = some n))

/-- The head of the highest non-empty level. -/
def State.headReady (s : State) : Option (Nat × Nat) :=
  match List.find? (fun e => !e.2.isEmpty) s.rennet.ready with
  | some (lv, t :: _) => some (lv, t)
  | _ => none

/-- The running thread that a ready one of level `lv` preempts: of the lowest running level, the one dispatched most
recently (R180). -/
def State.victim (s : State) (lv : Nat) : Option (Nat × Thread) :=
  s.running.foldl (fun (best : Option (Nat × Thread)) (e : Nat × Thread) =>
    if lv < e.2.level then
      match best with
      | none => some e
      | some b =>
        if b.2.level < e.2.level || (b.2.level == e.2.level && decide (b.2.dispatchedAt ≤ e.2.dispatchedAt)) then some e else best
    else best) none

/-- The head thread of level `lv` put on a core. -/
def State.dispatch (s : State) (lv t core : Nat) : State :=
  match s.thread? t with
  | none => s.modRennet fun r => { r with ready := Table.put r.ready lv ((Table.findD r.ready lv []).drop 1) }
  | some th =>
    (s.setThread t { th with state := .running, core := some core, dispatchedAt := s.chrono }).modRennet fun r =>
      { r with ready := Table.put r.ready lv ((Table.findD r.ready lv []).drop 1) }

/-- Dispatch and preemption until nothing more can run (R180). -/
def State.rennetGo : Nat → State → State
  | 0, s => s
  | n + 1, s =>
    match s.headReady with
    | none => s
    | some (lv, t) =>
      match s.freeCore with
      | some c => State.rennetGo n (s.dispatch lv t c)
      | none =>
        match s.victim lv with
        | none => s
        | some (v, th) =>
          match th.core with
          | none => s
          | some c => State.rennetGo n ((s.readyHead v (th.offCore s.chrono)).dispatch lv t c)

def State.rennetSettle (s : State) : State := State.rennetGo 64 s

/-! Counters (R182 to R186). -/

/-- The return value of a wait (Table 09-4). -/
def waitCode : WaitResult → Word
  | .byCount => 0#64
  | .byTimeout => 1#64
  | .invalid => 2#64

/-- A waiting thread made ready with a result; its timeout leaves the list. -/
def State.wakeThread (s : State) (t : Nat) (res : WaitResult) : State :=
  match s.thread? t with
  | none => s
  | some th =>
    (s.modRennet fun r => { r with delays := r.delays.filter (fun d => d.thread != t) }).readyTail t
      { th with result := some res, a0 := waitCode res }

/-- The threads that wait on a counter, in the order their waits began. -/
def State.waitersOf (s : State) (ctr : Nat) : List Nat :=
  (sortBy (fun a b => decide (a.1 ≤ b.1)) (s.rennet.threads.filterMap (fun e =>
    match e.2.waitOn with
    | some (c, n) => if c = ctr then some (n, e.1) else none
    | none => none))).map (·.2)

/-- Every waiter of a counter made ready with one result. -/
def State.wakeWaiters (s : State) (ctr : Nat) (res : WaitResult) : State :=
  ((s.waitersOf ctr).foldl (fun s t => s.wakeThread t res) s).rennetSettle

def State.setCounter (s : State) (ctr : Nat) (c : Counter) : State :=
  s.modRennet fun r => { r with counters := Table.put r.counters ctr c }

/-- A counter UNARMED; its waiters return INVALID (R185, R196). -/
def State.disarm (s : State) (ctr : Nat) : State :=
  (s.modRennet fun r => { r with counters := Table.drop r.counters ctr }).wakeWaiters ctr .invalid

/-- CTR_UNDERFLOW (R183). -/
def State.ctrUnderflow (s : State) : State := (s.count RENNET.CTR_UNDERFLOWS 1).raiseOwn 0x050 16

/-- A decrement of a counter (R183). -/
def State.ctrDec (s : State) (ctr n : Nat) : State :=
  match Table.find? s.rennet.counters ctr with
  | none => s
  | some .zero => if n = 0 then s else s.ctrUnderflow
  | some (.armed c) =>
    if n < c then s.setCounter ctr (.armed (c - n))
    else if n = c then (s.setCounter ctr .zero).wakeWaiters ctr .byCount
    else ((s.setCounter ctr .zero).ctrUnderflow).wakeWaiters ctr .byCount

/-- An entry of the delay list, sorted by wake tick, equal ticks in the order of insertion (R186). -/
def State.addDelay (s : State) (tick t : Nat) : State :=
  s.modRennet fun r => { r with delays := insertBy (fun a b => decide (a.tick ≤ b.tick)) ⟨tick, t⟩ r.delays }

/-- A thread that leaves its core to wait on a counter, with a timeout unless `ticks` is all ones (R185). -/
def State.waitThread (s : State) (t : Nat) (th : Thread) (ctr ticks : Nat) : State :=
  let s1 := s.setThread t { th.offCore s.chrono with state := .waiting, waitOn := some (ctr, s.rennet.nextWait) }
  let s2 := s1.modRennet fun r => { r with nextWait := r.nextWait + 1 }
  (if ticks = 0xFFFFFFFF then s2 else s2.addDelay (tickAfter s.chrono + ticks) t).rennetSettle

/-! Control blocks (R178, R198). -/

/-- Control blocks that custom-stage slices hold. -/
def State.stageThreads (s : State) : Nat := s.rennet.threads.length

/-- Slices with execution scratch that are live. -/
def State.execThreads (s : State) : Nat := (s.rennet.threads.filter (fun e => e.2.exec)).length

/-- A control block is free for a slice, and a place for its execution scratch where it has any. -/
def State.threadRoom (s : State) (exec : Bool) : Bool :=
  decide (s.stageThreads < 3840) && (!exec || decide (s.execThreads < 256))

/-- A slice's thread is created and joins the tail of its level. The contents of fresh scratch, which its instruction copy takes, are open. -/
def State.threadNew (s : State) (w : TcbWait) : State :=
  let r : Bytes × State := if w.exec then s.openBytes 16384 else ([], s)
  (r.2.readyTail w.slice { slice := w.slice, level := w.level, exec := w.exec, icopy := r.1 }).rennetSettle

/-- A slice's thread is created, or waits for its control block behind those that wait for the same. -/
def State.threadAsk (s : State) (w : TcbWait) : State :=
  if s.threadRoom w.exec && s.rennet.tcbWaits.all (fun x => x.exec && !w.exec) then s.threadNew w
  else (s.count RENNET.TCB_WAITS 1).modRennet fun r => { r with tcbWaits := r.tcbWaits ++ [w] }

/-- Waiting slices get the control blocks that are free, in the order in which their waits began. -/
def State.tcbServe (s : State) : State :=
  s.rennet.tcbWaits.foldl (fun s w =>
    if s.threadRoom w.exec then (s.modRennet fun r => { r with tcbWaits := r.tcbWaits.filter fun x => x.slice != w.slice }).threadNew w else s) s

/-- A thread's control block freed: it leaves every list, its counters are freed (R197), its core takes the next thread. -/
def State.threadEnd (s : State) (t : Nat) : State :=
  match s.thread? t with
  | none => s.modRennet fun r => { r with tcbWaits := r.tcbWaits.filter (fun x => x.slice != t) }
  | some th =>
    let s1 := s.modRennet fun r => { r with
      threads := Table.drop r.threads t
      ready := Table.each r.ready (fun _ l => l.filter (fun x => x != t))
      delays := r.delays.filter (fun d => d.thread != t) }
    ((th.owned.foldl (fun s c => s.disarm c) s1).rennetSettle).tcbServe

end Sys2Proof.Machine
end

