-- ==== Sys2Proof/Machine/FabricOps.lean ====
section
/-! DEFINITION. Routes, links' transmission, requests (R408 to R418, R424 to R434). -/

namespace Sys2Proof.Machine

open Sys2Proof.Reg

/-! Node coordinates and routes (R424, R425). -/

/-- Coordinate `d` (0 X, 1 Y, 2 Z) of a node ID. -/
def coord (n d : Nat) : Nat := if d = 0 then n % 64 else if d = 1 then n / 64 % 32 else n / 2048 % 32

/-- A node ID with coordinate `d` replaced. -/
def withCoord (n d v : Nat) : Nat :=
  if d = 0 then n / 64 * 64 + v else if d = 1 then n / 2048 * 2048 + v * 64 + n % 64 else v * 2048 + n % 2048

/-- The size of a dimension. -/
def State.size (s : State) (d : Nat) : Nat :=
  if d = 0 then s.fld ROUTE.SIZE_X else if d = 1 then s.fld ROUTE.SIZE_Y else s.fld ROUTE.SIZE_Z

/-- The neighbour of a node one step on in a dimension, plus or minus. -/
def State.neighbour (s : State) (n d : Nat) (neg : Bool) : Nat :=
  let z := max 1 (s.size d)
  withCoord n d (if neg then (coord n d + z - 1) % z else (coord n d + 1) % z)

/-- The link of a step is in the map: named by the node at its + end (R424). -/
def State.linkInMap (s : State) (n d : Nat) (neg : Bool) : Bool :=
  s.fabric.map.contains ((if neg then s.neighbour n d true else n) * 4 + d)

def State.link (s : State) (k : Nat) : Link := Table.findD s.fabric.links k {}

def State.setLink (s : State) (k : Nat) (l : Link) : State :=
  s.modFabric fun f => { f with links := Table.put f.links k l }

/-- This node's own link of a step is ACTIVE; other nodes' links count as the map has them (R425). -/
def State.stepUp (s : State) (n d : Nat) (neg : Bool) : Bool :=
  s.linkInMap n d neg &&
    (n != s.node.id || (s.link (2 * d + ofBool neg)).state == 3) &&
    (s.neighbour n d neg != s.node.id || (s.link (2 * d + ofBool (!neg))).state == 3)

/-- Every node passed is a member and every link used is in the map, over `fuel` steps. -/
def State.clearRoute (s : State) (d : Nat) (neg : Bool) (goal : Nat) : Nat → Nat → Bool
  | 0, _ => false
  | n + 1, cur =>
    if coord cur d = goal then true
    else
      let nxt := s.neighbour cur d neg
      s.stepUp cur d neg && s.fabric.members.contains nxt && s.clearRoute d neg goal n nxt

/-- The direction in one dimension: whether it is MINUS, or no way (R425). -/
def State.routeDim (s : State) (cur dst d : Nat) : Option Bool :=
  let z := max 1 (s.size d)
  let delta := (coord dst d + z - coord cur d) % z
  if delta = 0 then some false
  else
    let pref := decide (z < 2 * delta)
    if s.clearRoute d pref (coord dst d) 65 cur then some pref
    else if s.clearRoute d (!pref) (coord dst d) 65 cur then some (!pref)
    else none

/-- The route from a node: its three direction bits, or none for UNREACHABLE (R425). -/
def State.routeFrom (s : State) (src dst : Nat) : Option Nat :=
  match s.routeDim src dst 0 with
  | none => none
  | some x =>
    let c1 := withCoord src 0 (coord dst 0)
    match s.routeDim c1 dst 1 with
    | none => none
    | some y =>
      let c2 := withCoord c1 1 (coord dst 1)
      match s.routeDim c2 dst 2 with
      | none => none
      | some z => some (ofBool x + 2 * ofBool y + 4 * ofBool z)

/-- Where messages to a node ID go: to its host while it is hosted (R455). -/
def State.place (s : State) (n : Nat) : Nat := Table.findD s.herd.aliases n n

def State.route (s : State) (dst : Nat) : Option Nat := s.routeFrom s.node.id (s.place dst)

/-- The dimension a message moves in next, or 3 where it has arrived. -/
def nextDim (cur dst : Nat) : Nat :=
  if coord cur 0 ≠ coord dst 0 then 0 else if coord cur 1 ≠ coord dst 1 then 1
  else if coord cur 2 ≠ coord dst 2 then 2 else 3

/-- The links of a route from here (HOPS of QUERY_RES). -/
def State.hops (s : State) (dst bits : Nat) : Nat :=
  (List.range 3).foldl (fun n d =>
    let z := max 1 (s.size d)
    let delta := (coord dst d + z - coord s.node.id d) % z
    n + (if delta = 0 then 0 else if bitAt bits d then z - delta else delta)) 0

/-! Flits of a message and their transmission (R408 to R412). -/

/-- The virtual channel of a message type (Table 20-4). -/
def vcOf (typ : Nat) : Nat :=
  if typ = 0x04 ∨ typ = 0x05 then 3 else if typ = 0x10 then 2 else if 0x80 < typ then 1 else 0

/-- The header of a message (Table 20-3). -/
def headerBytes (p : Packet) : Bytes :=
  leBytes 2 p.dst ++ leBytes 2 p.src ++ leBytes 1 p.typ ++ leBytes 1 p.route ++ leBytes 2 p.body.length ++
  leBytes 4 p.reqSeq ++ leBytes 1 p.gen ++ leBytes 1 p.flags ++ leBytes 2 p.tag ++ leBytes 8 p.addr ++
  leBytes 1 p.status ++ leBytes 1 p.subtype ++ leBytes 2 p.rlen ++ zeros 4

/-- A message read from its bytes. -/
def packetOf (b : Bytes) : Packet :=
  { dst := leAt b 0 2, src := leAt b 2 2, typ := byteAt b 4, route := byteAt b 5, reqSeq := leAt b 8 4, gen := byteAt b 12,
    flags := byteAt b 13, tag := leAt b 14 2, addr := leAt b 16 8, status := byteAt b 24, subtype := byteAt b 25,
    rlen := leAt b 26 2, body := sub b 32 (leAt b 6 2) }

/-- The pieces of at most `n` bytes of a string, over `fuel` pieces. -/
def pieces (n : Nat) : Nat → Bytes → List Bytes
  | 0, _ => []
  | k + 1, b => if b.length ≤ n then [b] else b.take n :: pieces n k (b.drop n)

/-- The flits of a message on a link with or without authentication. -/
def flitsOf (secure : Bool) (cls : Nat) (p : Packet) : List LinkFlit :=
  let b := headerBytes p ++ p.body
  let n := if secure then 236 else 244
  let ps := pieces n (b.length + 1) b
  ps.zipIdx.map (fun e =>
    { ctrl := false, vc := vcOf p.typ, cls := cls, sop := e.2 == 0, eop := e.2 + 1 == ps.length, payload := fitTo e.1 n })

/-- Credits of a pair of VC and class; 64 at SPARE (R411). -/
def Link.credit (l : Link) (pair : Nat) : Nat := Table.findD l.credits pair 64

/-- Whether a waiting flit may be sent: control flits need no credit. -/
def Link.sendable (l : Link) (f : LinkFlit) : Bool := f.ctrl || decide (0 < l.credit (f.vc * 2 + f.cls))

/-- The order in which the VCs other than tide-and-control are served: response 4, request 2, bulk 1 (R412). -/
def vcTurn : List Nat := [1, 0, 1, 3, 1, 0, 1]

/-- The first flit of the queue that has a VC and may be sent, the others kept; control flits and VC 2 first. -/
def Link.firstOf (l : Link) (vc : Nat) : Option LinkFlit :=
  l.queue.find? (fun f => (if vc = 2 then f.ctrl || f.vc == 2 else !f.ctrl && f.vc == vc) && l.sendable f)

/-- The next flit to send and the place in the round robin after it. -/
def Link.pick (l : Link) : Option (LinkFlit × Nat) :=
  match l.firstOf 2 with
  | some f => some (f, l.turn)
  | none =>
    (List.range 7).findSome? (fun i =>
      let t := (l.turn + i) % 7
      (l.firstOf (vcTurn.getD t 0)).map (fun f => (f, (t + 1) % 7)))

/-- The queue without the first flit equal to one. -/
def removeFirst {α : Type} [DecidableEq α] (x : α) : List α → List α
  | [] => []
  | y :: ys => if y = x then ys else y :: removeFirst x ys

/-- The ACK that a link's flits carry: the last flit received in order. -/
def Link.ack (l : Link) : Nat := (l.rxSeq + 65535) % 65536

/-- The credits that the next flit returns: a pair and at most 64 of its freed buffers (R411). -/
def Link.credit0 (l : Link) : Nat × Nat :=
  match List.find? (fun (e : Nat × Nat) => decide (0 < e.2)) l.owed with
  | some e => (e.1, min 64 e.2)
  | none => (0, 0)

/-- The link after it has returned those credits. -/
def Link.paid (l : Link) : Link :=
  { l with owed := Table.each l.owed fun k n => if k = l.credit0.1 then n - l.credit0.2 else n }

/-- Flits sent while credits, the replay buffer's 512 places and the link allow, over `fuel` flits (R409, R411, R412). -/
def State.linkPump (s : State) (k : Nat) : Nat → State
  | 0 => s
  | n + 1 =>
    let s := s.linkPump k n
    let l := s.link k
    if l.state = 3 ∨ l.state = 2 then
      if l.replay.length < 512 then
        match l.pick with
        | none => s
        | some (f, t) =>
          let f' := { f with seq := l.txSeq, tries := 0 }
          let cr := if f.ctrl then l.credits else Table.put l.credits (f.vc * 2 + f.cls) (l.credit (f.vc * 2 + f.cls) - 1)
          let l' := { l.paid with
            queue := removeFirst f l.queue, replay := l.replay ++ [f'], txSeq := (l.txSeq + 1) % 65536, turn := t,
            credits := cr, gcmTx := l.gcmTx + (if l.secure && !f.ctrl then 1 else 0)
            ackAt := if l.replay.isEmpty then s.chrono else l.ackAt }
          ((s.setLink k l').count (ZLINK.FLITS_TX.on (0xD0 + k)) 1).emit (.flit k l.txSeq l.ack l.credit0.1 l.credit0.2)
      else s
    else s

/-- Flits put on a link's queue, and sent as far as they can be. -/
def State.linkSend (s : State) (k : Nat) (fs : List LinkFlit) : State :=
  let l := s.link k
  (s.setLink k { l with queue := l.queue ++ fs }).linkPump k (l.queue.length + fs.length)

/-- A control flit sent on a link, whatever its state (R408). -/
def State.linkCtrl (s : State) (k kind : Nat) (body : Bytes) : State :=
  let l := s.link k
  let f : LinkFlit := { ctrl := true, vc := 2, cls := 0, sop := true, eop := true, payload := fitTo (leBytes 1 kind ++ body) 244 }
  let f' := { f with seq := l.txSeq }
  let l' := { l with
    replay := (l.replay ++ [f']).take 512, txSeq := (l.txSeq + 1) % 65536,
    ackAt := if l.replay.isEmpty then s.chrono else l.ackAt }
  ((s.setLink k l').count (ZLINK.FLITS_TX.on (0xD0 + k)) 1).emit (.linkCtrl k kind body)

/-- A message put on the link that its ROUTE and DST give from here, or dropped where that link is not ACTIVE (R425). The
class is 1 on the hop that crosses the dateline, and stays until the turn (R426). -/
def State.forward (s : State) (p : Packet) (cls : Nat) : State :=
  let d := nextDim s.node.id (s.place p.dst)
  if d = 3 then s
  else
    let neg := bitAt p.route d
    let k := 2 * d + ofBool neg
    let l := s.link k
    let z := max 1 (s.size d)
    let c := coord s.node.id d
    let cross := if neg then decide (c = 0) else decide (c + 1 = z)
    let cls' := if cross then 1 else cls
    if l.state = 3 then (s.emit (.packet k p)).linkSend k (flitsOf l.secure cls' p)
    else s.count ROUTE.DROPPED_DEAD 1

/-- A message that this node originates, sent by its route; none where no route exists. -/
def State.sendPacket (s : State) (p : Packet) : Option State :=
  match s.route p.dst with
  | none => none
  | some r => some (s.forward { p with src := s.node.id, route := r } 0)

/-- A tide-and-control message to one node: lost where no route exists. -/
def State.sendCtrl (s : State) (dst : Nat) (body : Bytes) : State :=
  (s.sendPacket { dst := dst, src := s.node.id, typ := 0x10, body := body }).getD s

/-- A tide-and-control message put straight on one link, as SPARE links carry it (R405). -/
def State.sendOnLink (s : State) (k dst : Nat) (body : Bytes) : State :=
  let l := s.link k
  let p : Packet := { dst := dst, src := s.node.id, typ := 0x10, body := body }
  if l.state = 2 ∨ l.state = 3 then (s.emit (.packet k p)).linkSend k (flitsOf l.secure 0 p) else s

/-- The links a broadcast from `root` leaves by at this node: those that routes from the root through it use (R427). -/
def State.bcastLinks (s : State) (root : Nat) : List Nat :=
  (List.range 6).filter (fun k =>
    let d := k / 2
    let neg := k % 2 == 1
    (s.link k).state == 3 && s.fabric.members.any (fun m =>
      match s.routeFrom root m with
      | none => false
      | some r =>
        -- the route's path in dimension order passes here and takes this link
        let here := s.node.id
        let before := (List.range d).all (fun e => coord here e == coord m e)
        let after := (List.range 3).all (fun e => decide (e ≤ d) || coord here e == coord root e)
        let z := max 1 (s.size d)
        let total := if bitAt r d then (coord root d + z - coord m d) % z else (coord m d + z - coord root d) % z
        let gone := if bitAt r d then (coord root d + z - coord here d) % z else (coord here d + z - coord root d) % z
        m != here && before && after && bitAt r d == neg && decide (coord root d ≠ coord m d) && decide (gone < total)))

/-- A copy of a broadcast message sent on each link it leaves by here. -/
def State.broadcast (s : State) (root : Nat) (body : Bytes) : State :=
  (s.bcastLinks root).foldl (fun s k =>
    let l := s.link k
    let p : Packet := { dst := root, src := root, typ := 0x10, route := 8, body := body }
    (s.emit (.packet k p)).linkSend k (flitsOf l.secure 0 p)) s

/-! Engine prefixes (Table 20-9). -/

/-- A body with its engine prefix. -/
def engineBody (job stage obj part arg0 arg1 : Nat) (payload : Bytes) : Bytes :=
  leBytes 8 job ++ leBytes 2 stage ++ leBytes 2 obj ++ leBytes 4 part ++ leBytes 8 arg0 ++ leBytes 8 arg1 ++ payload

end Sys2Proof.Machine

namespace Sys2Proof

def Packet.job (p : Packet) : Nat := leAt p.body 0 8
def Packet.stage (p : Packet) : Nat := leAt p.body 8 2
def Packet.obj (p : Packet) : Nat := leAt p.body 10 2
def Packet.part (p : Packet) : Nat := leAt p.body 12 4 % 0x80000000
def Packet.more (p : Packet) : Bool := bitAt (leAt p.body 12 4) 31
def Packet.arg0 (p : Packet) : Nat := leAt p.body 16 8
def Packet.arg1 (p : Packet) : Nat := leAt p.body 24 8
def Packet.payload (p : Packet) : Bytes := p.body.drop 32

end Sys2Proof

namespace Sys2Proof.Machine

open Sys2Proof.Reg

/-! Requests (R428, R430). -/

/-- A request to a destination must wait: every TAG is taken, or the request 4,096 before it is outstanding (R429, R430). -/
def State.mustWait (s : State) (dst : Nat) : Bool :=
  let seq := Table.findD s.fabric.nextSeq dst 0
  decide (65536 ≤ s.fabric.reqs.length) ||
    s.fabric.reqs.any fun (e : Nat × Req) => e.2.pkt.dst == dst && decide (4096 ≤ (seq + 2 ^ 32 - e.2.pkt.reqSeq) % 2 ^ 32)

/-- A request sent now, or none where its destination has no route (FABRIC_UNREACHABLE). -/
def State.sendNow (s : State) (why : ReqWhy) (p : Packet) : Option State :=
  let tag := Table.fresh s.fabric.reqs 65536 (s.fabric.nextTag % 65536) % 65536
  let seq := Table.findD s.fabric.nextSeq p.dst 0
  let p' := { p with src := s.node.id, tag := tag, reqSeq := seq, gen := 0 }
  match s.sendPacket p' with
  | none => none
  | some s1 =>
    some ((s1.count ROUTE.REQUESTS 1).modFabric fun f => { f with
      reqs := Table.put f.reqs tag { pkt := p', sentAt := s.chrono, why := why },
      nextTag := (tag + 1) % 65536,
      nextSeq := Table.put f.nextSeq p.dst ((seq + 1) % 2 ^ 32) })

/-- A request sent, or put behind those that wait; none where its destination has no route. -/
def State.sendReq (s : State) (why : ReqWhy) (p : Packet) : Option State :=
  if s.mustWait p.dst || s.fabric.waitReqs.any (fun w => w.pkt.dst == p.dst) then
    (s.route p.dst).map fun _ => s.modFabric fun f => { f with waitReqs := f.waitReqs ++ [⟨why, p⟩] }
  else s.sendNow why p

/-- A request that is sent where it can be, and otherwise counted UNREACHABLE (R434) and left to the caller's own rule. -/
def State.trySend (s : State) (why : ReqWhy) (p : Packet) : State × Bool :=
  match s.sendReq why p with
  | some s1 => (s1, true)
  | none => ((s.count ROUTE.UNREACHABLE 1).raiseOwn 0x0D8 16, false)

/-- An ENGINE request. -/
def enginePkt (dst typ subtype : Nat) (body : Bytes) : Packet := { dst := dst, src := 0, typ := typ, subtype := subtype, body := body }

/-- The payload pieces of a run, by the type's limit. -/
def runPieces (typ : Nat) (payload : Bytes) : List Bytes :=
  pieces (if typ = 0x05 then 16352 else 4064) (payload.length + 1) payload

/-- A run sent: every message but the last with MORE (R418). -/
def State.sendRun (s : State) (why : ReqWhy) (dst typ subtype job stage obj arg0 arg1 : Nat) (payload : Bytes) : State × Bool :=
  let ps := runPieces typ payload
  ps.zipIdx.foldl (fun (r : State × Bool) e =>
    let more := if e.2 + 1 < ps.length then 0x80000000 else 0
    let r' := r.1.trySend why (enginePkt dst typ subtype (engineBody job stage obj (e.2 + more) arg0 arg1 e.1))
    (r'.1, r.2 && r'.2)) (s, true)

/-- The answer to a request, as its target sends it: its source is the node that the request named, which may be one that is
hosted here (R429, R455). -/
def State.answer (s : State) (p : Packet) (typ status : Nat) (body : Bytes) : State :=
  match s.route p.src with
  | none => s
  | some r =>
    s.forward { dst := p.src, src := p.dst, typ := typ, route := r, gen := p.gen, tag := p.tag, reqSeq := p.reqSeq,
                status := status, subtype := p.subtype, body := body } 0

/-- The body of an ENGINE_RSP: the prefix of its request with new arguments. -/
def rspBody (p : Packet) (arg0 arg1 : Nat) (payload : Bytes) : Bytes :=
  engineBody p.job p.stage p.obj (leAt p.body 12 4) arg0 arg1 payload

/-- How a target takes an arriving request (R430). -/
inductive Arrival where
  | fresh | duplicate (status : Nat) | below
  deriving DecidableEq, Repr

/-- The distance of a sequence below the greatest one, modulo 2^32. -/
def seqBelow (greatest seq : Nat) : Nat := (greatest + 2 ^ 32 - seq) % 2 ^ 32

/-- The windows against which requests to a node ID are held: this node's, or those restored of the node it hosts (R456). -/
def State.windowsOf (s : State) (dst : Nat) : Table Window :=
  if s.twin.hosting = some dst then s.hosted.windows else s.fabric.windows

def State.arrival (s : State) (dst src seq : Nat) : Arrival :=
  match Table.find? (s.windowsOf dst) src with
  | none => .fresh
  | some w =>
    match Table.find? w.marks seq with
    | some st => .duplicate st
    | none => if 4096 ≤ seqBelow w.greatest seq ∧ seqBelow w.greatest seq < 2 ^ 31 then .below else .fresh

/-- A sequence marked with its status; marks that fall out of the window go (R430). -/
def State.markSeq (s : State) (dst src seq status : Nat) : State :=
  let w := Table.findD (s.windowsOf dst) src ⟨seq, []⟩
  let g := if seqBelow w.greatest seq < 2 ^ 31 then w.greatest else seq
  let w' : Window := ⟨g, (Table.put w.marks seq status).filter (fun e => decide (seqBelow g e.1 < 4096))⟩
  let ws := Table.put (s.windowsOf dst) src w'
  if s.twin.hosting = some dst then { s with hosted := { s.hosted with windows := ws } }
  else s.modFabric fun f => { f with windows := ws }

/-- What a run's message makes of the run (R418): the joined payload once the last has come. -/
def State.joinRun (s : State) (p : Packet) : State × Option Bytes :=
  let same (r : Run) : Bool := r.src == p.src && r.subtype == p.subtype && r.job == p.job && r.obj == p.obj && r.arg0 == p.arg0
  let old := s.fabric.runs.find? same
  let sofar := match old with
    | some r => if p.part = 0 then [] else r.payload
    | none => []
  let whole := sofar ++ p.payload
  let rest := s.fabric.runs.filter (fun r => !same r)
  if p.more then
    let r : Run := ⟨p.src, p.subtype, p.job, p.obj, p.arg0, p.part + 1, whole⟩
    (s.modFabric fun f => { f with runs := rest ++ [r] }, none)
  else (s.modFabric fun f => { f with runs := rest }, some whole)

/-! Addresses of bindings and descriptors (R81). -/

/-- Where an address lies: the node, where it is another one, and the local address there; none where it is ill-formed. -/
def State.resolve (s : State) (herd : Bool) (a : Nat) : Option (Option Nat × Nat) :=
  if herd then
    let n := a / 2 ^ 48
    if n = s.node.id then some (none, a % 2 ^ 48) else some (some n, a % 2 ^ 48)
  else if a < 2 ^ 48 then some (none, a) else none

end Sys2Proof.Machine
end

