-- ==== Sys2Proof/Machine/RingOps.lean ====
section
/-! DEFINITION. Descriptors, completions, the park, flows, fences and signals (R132 to R167, R188 to R190). -/

namespace Sys2Proof.Machine

open Sys2Proof.Reg

/-! A descriptor's bytes (Tables 08-2, 08-3). -/

def dType (raw : Bytes) : Nat := byteAt raw 0
def dChain (raw : Bytes) : Bool := bitAt (byteAt raw 1) 0
def dSync (raw : Bytes) : Bool := bitAt (byteAt raw 1) 1
def dHerd (raw : Bytes) : Bool := bitAt (byteAt raw 1) 2
def dNoIrq (raw : Bytes) : Bool := bitAt (byteAt raw 1) 3
def dTag (raw : Bytes) : Nat := leAt raw 2 2
def dPrio (raw : Bytes) : Nat := byteAt raw 4
def dPlan (raw : Bytes) : Nat := leAt raw 8 8
def dBind (raw : Bytes) : Nat := leAt raw 16 8
def dNbind (raw : Bytes) : Nat := leAt raw 24 2
def dFlow (raw : Bytes) : Option (Nat × Nat) :=
  if bitAt (leAt raw 28 4) 31 then some (leAt raw 28 4 % 4096, leAt raw 32 4) else none
def dLeaveTicks (raw : Bytes) : Nat := leAt raw 36 4
def dWide (raw : Bytes) : Bool := bitAt (byteAt raw 8) 0

/-- Whether bytes `lo` up to but not including `hi` are all zero. -/
def zeroFrom (raw : Bytes) (lo hi : Nat) : Bool := decide (leAt raw lo (hi - lo) = 0)

/-- A leave timeout: 0, or 10 to 1,000,000 ticks. -/
def goodTicks (n : Nat) : Bool := decide (n = 0) || (decide (10 ≤ n) && decide (n ≤ 1000000))

/-- Whether a descriptor's operands are in range and its reserved bits zero (R153, R154). -/
def goodOperands (raw : Bytes) : Bool :=
  match dType raw with
  | 0x01 => decide (1 ≤ dNbind raw) && decide (dNbind raw ≤ 256) && zeroFrom raw 26 28 &&
      decide (leAt raw 28 4 / 4096 % 2 ^ 19 = 0) && goodTicks (dLeaveTicks raw) && zeroFrom raw 40 64
  | 0x02 => decide (byteAt raw 8 ≤ 1) && zeroFrom raw 9 64
  | 0x03 => zeroFrom raw 20 64
  | 0x04 => decide (leAt raw 8 8 % 8 = 0) && decide (byteAt raw 24 ≤ 1) && zeroFrom raw 25 26 && zeroFrom raw 28 64 &&
      (decide (byteAt raw 24 = 0) || decide (leAt raw 8 8 = 0))
  | 0x05 => zeroFrom raw 16 64
  | 0x06 => decide (byteAt raw 8 ≤ 31) && decide (byteAt raw 9 ≤ 63) && zeroFrom raw 10 16 && zeroFrom raw 32 64
  | 0x07 => zeroFrom raw 8 64
  | _ => false

/-- What a descriptor is refused with as it is decoded: 0, DESC_RESERVED or DESC_DENIED (R154). -/
def badDesc (fn : Nat) (raw : Bytes) : Nat :=
  if decide (byteAt raw 1 < 16) && zeroFrom raw 5 8 && (decide (dPrio raw ≤ 63) || decide (dPrio raw = 255)) && goodOperands raw then
    if (dType raw = 5 ∨ dType raw = 6) ∧ fn ≠ 0 then 2 else 0
  else 1

/-! Rings. -/

def ringKey (fn ring : Nat) : Nat := fn * 64 + ring
def ringPage (ring : Nat) : Nat := 0x10 + ring

def State.sq (s : State) (fn ring : Nat) : Sq := Table.findD s.work.sqs (ringKey fn ring) {}
def State.cq (s : State) (fn ring : Nat) : Cq := Table.findD s.work.cqs (ringKey fn ring) {}

def State.setSq (s : State) (fn ring : Nat) (q : Sq) : State :=
  s.modWork fun w => { w with sqs := Table.put w.sqs (ringKey fn ring) q }

def State.setCq (s : State) (fn ring : Nat) (q : Cq) : State :=
  s.modWork fun w => { w with cqs := Table.put w.cqs (ringKey fn ring) q }

/-- A field of a RING page. -/
def State.ringFld (s : State) (fn ring : Nat) (f : Field) : Nat := s.fldFn fn (f.on (ringPage ring))

def State.sqDepth (s : State) (fn ring : Nat) : Nat := 2 ^ s.ringFld fn ring RING.LOG_DEPTH
def State.cqDepth (s : State) (fn ring : Nat) : Nat := 2 ^ s.ringFld fn ring RING.CQ_LOG_DEPTH

/-- Entries in a ring (R146). -/
def occupancy (head tail depth : Nat) : Nat := (tail + depth - head) % depth

def State.desc? (s : State) (id : Nat) : Option Desc := Table.find? s.work.descs id

def State.updDesc (s : State) (id : Nat) (f : Desc → Desc) : State :=
  s.modWork fun w => { w with descs := Table.upd w.descs id f }

/-- The fill notice of a completion ring (R173). -/
def State.cqNotice (s : State) (fn ring : Nat) : State :=
  let q := s.cq fn ring
  let p := ringPage ring
  s.noticeEval (1000 + ringKey fn ring) (occupancy q.head q.tail (s.cqDepth fn ring)) (s.fldFn fn (RING.MARK.on p))
    (s.fldFn fn (RING.HYST.on p)) fn (RING.CROSSED.on p) (RING.CQ_CROSSINGS.on p) p

/-! The host session and the park (R132 to R143). -/

/-- STATE of the session (Table 07-3): 0 NONE, 1 ATTACHED, 2 LOST, 3 CLAIMED. -/
def State.session (s : State) : Nat := s.fld ATTACH.STATE

/-- Host loss is in force for a function (R132). -/
def State.hostAway (s : State) (fn : Nat) : Bool := s.session == 2 && s.onPort0 fn

/-- Bytes of a park record: header, payload, padding (R138). -/
def recBytes (r : ParkRec) : Nat := roundUp (32 + r.payload.length) 64

/-- The 2 MiB pages of the park. DEDUCED (log 6): write records fill pages; completion records lie in their own reserve. -/
def parkPages (rs : List ParkRec) : Nat :=
  ceilDiv (rs.foldl (fun n r => if r.completion then n else n + recBytes r) 0) 0x200000

/-- PARK_MIB. -/
def State.parkMib (s : State) : Nat := 2 * parkPages s.host.session.park

/-- The park's records replaced; its Skim pages and its notice follow. -/
def State.setPark (s : State) (rs : List ParkRec) : State :=
  let s1 := (s.modSession fun x => { x with park := rs }).modTiers fun t =>
    { t with skimOther := t.skimOther + 2 * parkPages rs - 2 * parkPages s.host.session.park }
  s1.noticeEval 3 s1.parkMib (s1.fld ATTACH.MARK) (s1.fld ATTACH.HYST) 0 ATTACH.CROSSED ATTACH.PARK_CROSSINGS 0x00A

/-- A record parked under its pair, with the pair's next PARK_SEQ (R137). -/
def State.parkRecord (s : State) (r : ParkRec) : State :=
  let pair := ringKey r.fn r.ring
  let n := Table.findD s.host.session.nextSeq pair 0
  (s.modSession fun x => { x with nextSeq := Table.put x.nextSeq pair (n + 1) }).setPark
    (s.host.session.park ++ [{ r with seq := n }])

/-- Whether a write record still fits: every page it takes within PARK_QUOTA and Skim (R135). -/
def State.parkFits (s : State) (r : ParkRec) : Bool :=
  let now := parkPages s.host.session.park
  let new := parkPages (s.host.session.park ++ [r])
  decide (new = now) || (decide (2 * new ≤ s.fld ATTACH.PARK_QUOTA) && decide (2 * (new - now) ≤ s.skimFree))

/-- The write records of a write (R138: at most 1,048,544 bytes each). -/
def writeRecords (fn ring tag iova : Nat) (bs : Bytes) : List ParkRec :=
  (pieces 1048544 (bs.length + 1) bs).zipIdx.map fun e =>
    { completion := false, split := false, poisoned := false, fn := fn, ring := ring, iova := iova + 1048544 * e.2,
      seq := 0, tag := tag, payload := e.1 }

/-- A write of a job's host-bound output while its host is away: parked whole, or none where it cannot be (R135). -/
def State.parkWrite (s : State) (fn ring tag iova : Nat) (bs : Bytes) : Option State :=
  (writeRecords fn ring tag iova bs).foldl (fun (o : Option State) r =>
    match o with
    | none => none
    | some s => if s.parkFits r then some (s.parkRecord r) else none) (some s)

/-- Old jobs of a pair (R140). -/
def State.oldJobs (s : State) (pair : Nat) : Nat :=
  (s.work.descs.filter (fun e => e.2.old && ringKey e.2.fn e.2.ring == pair)).length

def State.pairRecords (s : State) (pair : Nat) : List ParkRec :=
  s.host.session.park.filter (fun r => ringKey r.fn r.ring == pair)

/-- Whether any pair holds records or old jobs. -/
def State.pairsLeft (s : State) : Bool := !s.host.session.park.isEmpty || s.work.descs.any (fun e => e.2.old)

/-- CLAIMED becomes ATTACHED when the last pair empties (R142). -/
def State.sessionSettle (s : State) : State :=
  if decide (s.session = 3) && !s.pairsLeft then s.setFld ATTACH.STATE 1 else s

/-! Held outputs of a paired node (R452, R454). -/

/-- Outputs are held: the pair stands, or it is lost and ON_LOSS holds them. -/
def State.holding (s : State) : Bool :=
  (s.twin.paired && !s.twin.degraded) || (s.twin.degraded && s.fld TWIN.ON_LOSS == 1)

/-- The cut that an output of a held kind waits for. -/
def State.cutTag (s : State) (hold : Field) : Option Nat :=
  if s.holding && s.bit hold then some (s.twin.cutSeq + 1) else none

/-- Whether an output that waits for a cut may leave. -/
def State.released (s : State) : Option Nat → Bool
  | none => true
  | some c => decide (c ≤ s.twin.acked) || !s.holding

/-! Completion entries (R161 to R163). -/

/-- A completion entry (Table 08-4). -/
def completionEntry (d : Desc) (phase : Bool) : Bytes :=
  leBytes 1 d.status ++ leBytes 1 (ofBool phase + 2 * ofBool d.tombstone + 4 * ofBool d.multi) ++ leBytes 2 (dTag d.raw) ++
  leBytes 4 d.seq ++ leBytes 8 d.tide ++ leBytes 8 d.detail ++ leBytes 1 d.ring ++ leBytes 1 (dType d.raw) ++
  leBytes 2 d.stage ++ leBytes 4 (min 0xFFFFFFFF ((d.endedAt - d.fetchedAt) / 1000))

/-- The key of a byte of ring storage: the function, the offset in its BAR2. -/
def storeKey (fn off : Nat) : Nat := fn * 2 ^ 28 + off

/-- Bytes stored in a function's ring storage. -/
def State.storeRing (s : State) (fn addr : Nat) (bs : Bytes) : State :=
  s.modHost fun h => { h with ringStore := Memory.store h.ringStore (storeKey fn addr) bs }

/-- A function's ring storage cleared. -/
def State.clearRings (s : State) (fn : Nat) : State :=
  s.modHost fun h => { h with ringStore := Memory.clear h.ringStore (storeKey fn 0) (storeKey (fn + 1) 0) }

/-- Bytes written to a ring's memory (R147). -/
def State.ringWrite (s : State) (fn loc addr : Nat) (bs : Bytes) : State :=
  if loc = 1 then s.storeRing fn addr bs
  else s.writeOut fn (0xC00000000000 + addr) bs

/-- A descriptor taken out: its ring has one less in flight. -/
def State.dropDesc (s : State) (id : Nat) (d : Desc) : State :=
  let s1 := s.modWork fun w => { w with descs := Table.drop w.descs id }
  if d.old then s1.sessionSettle
  else s1.setSq d.fn d.ring { s1.sq d.fn d.ring with inflight := (s1.sq d.fn d.ring).inflight - 1 }

/-- Whether a descriptor's completion goes to the park (R132, R141). -/
def State.parks (s : State) (d : Desc) : Bool := d.old || s.hostAway d.fn

/-- The records a drain wrote leave the park as its completion is written (R142). -/
def State.drainDone (s : State) (id : Nat) (written : Bool) : State :=
  match Table.find? s.host.session.drains id with
  | none => s
  | some dr =>
    let s1 := s.modSession fun x => { x with drains := Table.drop x.drains id }
    if written then
      (s1.setPark (s1.host.session.park.filter fun r => !(ringKey r.fn r.ring == dr.pair && decide (r.seq < dr.upTo)))).sessionSettle
    else s1

/-- A completion parked (R132, R135). -/
def State.parkCompletion (s : State) (id : Nat) (d : Desc) : State :=
  let entry := completionEntry d (s.cq d.fn d.cq).phase
  ((s.parkRecord { completion := true, split := d.split, poisoned := false, fn := d.fn, ring := d.ring, iova := 0, seq := 0,
                   tag := dTag d.raw, payload := entry }).drainDone id false).dropDesc id d

/-- A completion written into its ring: the entry, the counters, the notice, the interrupt event (R162, R163). -/
def State.writeCompletion (s : State) (id : Nat) (d : Desc) : State :=
  let q := s.cq d.fn d.cq
  let depth := s.cqDepth d.fn d.cq
  let p := ringPage d.cq
  let s1 := s.ringWrite d.fn (s.ringFld d.fn d.cq RING.CQ_BASE_LOC) (s.ringFld d.fn d.cq RING.CQ_BASE_ADDR + 32 * q.tail)
    (completionEntry d q.phase)
  let tail := (q.tail + 1) % depth
  let full := decide ((tail + 1) % depth = q.head)
  let s2 := s1.setCq d.fn d.cq { q with tail := tail, phase := if tail = 0 then !q.phase else q.phase, full := full }
  let s3 := if full && !q.full then s2.countFn d.fn (RING.CQ_FULL_STALLS.on p) 1 else s2
  let s4 := s3.countFn d.fn (RING.COMPLETED.on p) 1
  let s5 := if d.status = 0 then s4 else s4.countFn d.fn (RING.ERRORED.on (ringPage d.ring)) 1
  let s6 := s5.cqNotice d.fn d.cq
  let s7 := if dNoIrq d.raw then s6 else s6.irqEvent d.fn p
  (s7.drainDone id true).dropDesc id d

/-! What waits for what (R154, R156, R158, R163, R165). -/

/-- A descriptor that a FENCE or SIGNAL covers: fetched earlier from its ring, or with FUNC_WIDE from its function. -/
def covers (fid : Nat) (f : Desc) (id : Nat) (d : Desc) : Bool :=
  decide (id < fid) && d.fn == f.fn && d.old == f.old && (d.ring == f.ring || (dType f.raw == 2 && dWide f.raw))

/-- Every covered descriptor has ended. -/
def State.coveredEnded (s : State) (fid : Nat) (f : Desc) : Bool :=
  s.work.descs.all (fun e => !covers fid f e.1 e.2 || e.2.state == .ended)

/-- A descriptor's completion stands in its ring's order. -/
def State.inOrder (s : State) (id : Nat) (d : Desc) : Bool :=
  if d.unordered then
    dType d.raw != 2 || d.bad != 0 || s.work.descs.all (fun e => !covers id d e.1 e.2)
  else s.work.descs.all (fun e => !(decide (e.1 < id) && e.2.fn == d.fn && e.2.ring == d.ring && e.2.old == d.old))

/-- A completion may be written now. -/
def State.writable (s : State) (id : Nat) (d : Desc) : Bool :=
  d.state == .ended && !d.heldFlow && s.released d.heldCut && s.inOrder id d &&
    (s.parks d || ((s.cq d.fn d.cq).enabled && !(s.cq d.fn d.cq).full))

/-- The snapshot of a chain member is held: the four members after it, or those up to the chain's end, none stale (R165,
R166). Where fetching has stopped, what was fetched is the snapshot. -/
def State.snapshotHeld (s : State) (d : Desc) : Bool :=
  let q := s.sq d.fn d.ring
  let rec go : Nat → Nat → Bool → Bool
    | 0, _, _ => true
    | n + 1, seq, chain =>
      if !chain then true
      else
        match List.find? (fun e => e.2.fn == d.fn && e.2.ring == d.ring && e.2.old == d.old && e.2.seq == seq % 2 ^ 32) s.work.descs with
        | none => !q.enabled || d.old
        | some e => !e.2.stale && go n (seq + 1) e.2.chain
  !d.stale && go 4 (d.seq + 1) d.chain

/-- A descriptor may start (R154, R156, R157, R165). -/
def State.mayStart (s : State) (id : Nat) (d : Desc) : Bool :=
  d.state == .fetched && !d.skip && s.snapshotHeld d &&
    s.work.descs.all (fun e =>
      !(decide (e.1 < id) && e.2.fn == d.fn && e.2.ring == d.ring && e.2.old == d.old) ||
      -- a FENCE or WAIT_TIDE that has not ended holds what follows
      (!((dType e.2.raw == 2 || dType e.2.raw == 3) && e.2.bad == 0 && e.2.state != .ended) &&
        -- heads and single descriptors start in SEQ order
        (d.member || e.2.member || e.2.state != .fetched))) &&
    (!d.member || d.predDone)

/-! The end of a descriptor (R155 to R167). -/

/-- A status after which a chain goes on (R167; WAIT_TIMEOUT as R157 has it, log 7). -/
def chainGoesOn (d : Desc) (status : Nat) : Bool :=
  status == 0 || status == 0x54 || (dType d.raw == 3 && status == 3)

/-- A descriptor ended: its result, its successor in the chain, the FENCEs that cover it. -/
def State.markEnded (s : State) (id status stage detail : Nat) (multi tomb : Bool) : State :=
  match s.desc? id with
  | none => s
  | some d =>
    if d.state = .ended then s
    else
      let d' := { d with
        state := .ended, status := status, stage := stage, detail := detail, multi := multi, tombstone := tomb,
        tide := s.tide.now, endedAt := s.chrono, heldCut := s.cutTag TWIN.HOLD_COMPLETIONS, heldNo := s.twin.nextOut }
      let fails := d.skip || !chainGoesOn d status
      let q := s.sq d.fn d.ring
      let last := decide ((d.seq + 1) % 2 ^ 32 = q.seq)
      let q' := { q with
        errs := q.errs + ofBool (status != 0)
        chainEnded := q.chainEnded + ofBool (d.member || d.chain)
        lastDone := if last then true else q.lastDone
        lastFailed := if last then fails else q.lastFailed }
      let s1 := if d.old then s else s.setSq d.fn d.ring q'
      let sync := dSync d.raw && d.chain && q.enabled && !d.old && !fails
      let f : Nat → Desc → Desc := fun i e =>
        if i = id then d'
        else
          let near := e.fn == d.fn && e.ring == d.ring && e.old == d.old
          let e1 := if near && d.chain && e.seq == (d.seq + 1) % 2 ^ 32 then { e with predDone := true, skip := fails } else e
          let e2 := if sync && near && e.member && decide (id < i) && decide ((e.seq + 2 ^ 32 - d.seq) % 2 ^ 32 ≤ 4) && e.state == .fetched
            then { e1 with stale := true } else e1
          if dType e.raw == 2 && e.state != .ended && covers i e id d then { e2 with errors := e2.errors + ofBool (status != 0) } else e2
      (s1.modWork fun w => { w with descs := Table.each w.descs f }).modTwin fun t => { t with nextOut := t.nextOut + 1 }

/-! Ordered flows (R188 to R190). -/

/-- Items released from the head of a flow, in sequence, while they have ended (R190). -/
def State.flowRelease (s : State) (fl : Nat) : Nat → State
  | 0 => s
  | n + 1 =>
    match Table.find? s.rennet.flows fl with
    | none => s
    | some f =>
      match f.items.find? (fun i => i.seq == f.next) with
      | none => s
      | some it =>
        match it.ended with
        | none => s
        | some ok =>
          let f' := { f with next := (f.next + 1) % 2 ^ 32, items := f.items.filter (fun i => i.seq != it.seq) }
          let s1 := s.modRennet fun r => { r with flows := Table.put r.flows fl f' }
          let s2 := if ok then s1 else s1.count RENNET.TOMBSTONES 1
          let s3 := s2.updDesc it.desc fun d =>
            { d with heldFlow := false, tombstone := !ok,
                     heldCut := match d.heldCut, s.cutTag TWIN.HOLD_FLOWS with
                       | some a, _ => some a
                       | none, h => h }
          s3.flowRelease fl n

/-- An item's end told to its flow. -/
def State.flowEnd (s : State) (fl seq : Nat) (ok : Bool) : State :=
  match Table.find? s.rennet.flows fl with
  | none => s
  | some f =>
    let f' := { f with items := f.items.map (fun i => if i.seq = seq then { i with ended := some ok } else i) }
    (s.modRennet fun r => { r with flows := Table.put r.flows fl f' }).flowRelease fl (f.items.length + 1)

/-! Signals (R158, R184). -/

/-- What a SIGNAL does once its predecessors have ended: the state, and the status with which it ends, if it ends now. -/
def State.signalAct (s : State) (id : Nat) (d : Desc) : State × Option Nat :=
  let v := leAt d.raw 16 8
  let ctr := leAt d.raw 26 2
  if byteAt d.raw 24 = 1 then
    if 1023 < ctr then (s, some 0x5F)
    else
      match Table.find? s.rennet.counters ctr with
      | none => (s, some 0x5E)
      | some _ => (s.ctrDec ctr (v % 2 ^ 32), some 0)
  else
    match s.resolve (dHerd d.raw) (leAt d.raw 8 8) with
    | none => (s, some 0x40)
    | some (none, a) =>
      if spaceOf a = .none ∨ spaceOf a = .image then (s, some 0x40)
      else if spaceOf a = .host ∧ s.hostAway d.fn then
        -- a host-bound write of a port 0 function is parked under its ring (R132, R135)
        match s.parkWrite d.fn d.ring (dTag d.raw) (iovaOf a) (leBytes 8 v) with
        | some s1 => (s1, some 0)
        | none => (s.count ATTACH.PARK_FULL_COUNT 1, some 0x51)
      else (s.writeOut d.fn a (leBytes 8 v), some 0)
    | some (some n, a) =>
      if s.fabric.members.contains n then
        let r := s.trySend (.signal id) { dst := n, src := 0, typ := 2, addr := a, body := leBytes 8 v }
        if r.2 then (r.1, none) else (r.1, some 0xB9)
      else (s, some 0x40)

/-! Progress of rings: ends that are due, and completions that can be written. -/

/-- One thing that the rings can do now. -/
def State.ringStep (s : State) : Option State :=
  List.findSome? (fun (e : Nat × Desc) =>
    let id := e.1
    let d := e.2
    if d.state = .fetched ∧ d.skip then
      let s1 := match d.flow with
        | some f => s.flowEnd f.1 f.2 false
        | none => s
      some (s1.markEnded id 4 0xFFFF 0 false d.flow.isSome)
    else if d.bad ≠ 0 ∧ s.mayStart id d then some (s.markEnded id d.bad 0xFFFF 0 false false)
    else if d.state = .started ∧ dType d.raw = 2 ∧ s.coveredEnded id d then
      some (s.markEnded id 0 0xFFFF d.errors false false)
    else if d.state = .started ∧ dType d.raw = 4 ∧ s.coveredEnded id d then
      let r := s.signalAct id d
      match r.2 with
      | some st => some (r.1.markEnded id st 0xFFFF 0 false false)
      | none => some (r.1.updDesc id fun x => { x with state := .acting })
    else if s.writable id d then
      some (if s.parks d then s.parkCompletion id d else s.writeCompletion id d)
    else none) s.work.descs

/-- The rings go on as far as they can, over `fuel` things. -/
def State.ringGo : Nat → State → State
  | 0, s => s
  | n + 1, s =>
    match s.ringStep with
    | none => s
    | some s1 => State.ringGo n s1

/-- The rings brought up to date. Each descriptor ends once and is written once. -/
def State.ringSettle (s : State) : State := State.ringGo (3 * s.work.descs.length) s

/-- A descriptor ends with a status and a DETAIL. -/
def State.endDesc (s : State) (id status stage detail : Nat) (multi : Bool) : State :=
  (s.markEnded id status stage detail multi false).ringSettle

end Sys2Proof.Machine
end

