-- ==== Sys2Proof/Machine/StrainerOps.lean ====
section
/-! DEFINITION. Strainer: keys, matching, searches, updates, collisions (R296, R311 to R327). -/

namespace Sys2Proof.Machine

open Sys2Proof.Reg

/-- The engine cycle of a chronometer reading: 1.4 cycles per ns. -/
def cycleOf (ns : Nat) : Nat := ns * 7 / 5

def State.bank (s : State) (b : Nat) : StrBank := Table.findD s.strainer.banks b {}

def State.setBank (s : State) (b : Nat) (k : StrBank) : State :=
  s.modStrainer fun x => { x with banks := Table.put x.banks b k }

/-- Units of an entry of a bank (Table 15-2). -/
def State.bankUnits (s : State) (b : Nat) : Nat := 2 ^ s.fld (STRAINER.WIDTH.at b)

/-- Entries of a bank. -/
def State.bankEntries (s : State) (b : Nat) : Nat := 16384 / s.bankUnits b

/-- The Strainer page is out of service (R73, R326). -/
def State.pageOos (s : State) (page : Nat) : Bool :=
  s.fld (HDR.OUT_OF_SERVICE.on page) == 1 || (s.page 0 page).unitFail || (s.page 0 page).faulted

/-- A bank is out of service (R326). -/
def State.bankOos (s : State) (b : Nat) : Bool :=
  s.fld (STRAINER.OOS.at b) == 1 || s.fld (STRAINER.FAILED.at b) == 1 || s.pageOos 0x0A0

/-! Keys (R296, R321). -/

/-- The words of a byte string, 8 bytes each. -/
def wordsOf (n : Nat) (b : Bytes) : List Nat := (List.range n).map (fun k => leAt b (8 * k) 8)

/-- The key of a string value: 32 bytes. -/
def strKey (b : Bytes) : List Nat :=
  let body := if b.length ≤ 28 then fitTo b 28 else b.take 20 ++ leBytes 8 (om64 b 0)
  wordsOf 4 (body ++ leBytes 4 b.length)

/-- The key of a non-null value. -/
def valKey (ty : Nat) : Val → List Nat
  | .num v => [canonBits ty v]
  | .str b => strKey b
  | _ => []

/-- Units of the key of a type. -/
def keyUnits (ty : Nat) : Nat := if tyStr ty then 4 else 1

/-! Matching (R312, R313). -/

/-- Whether a key matches an entry. -/
def matchesKey (e : StrEntry) (key : List Nat) : Bool :=
  e.valid && (List.zip key (List.zip e.data e.mask)).all (fun x => ((x.1 ^^^ x.2.1) &&& x.2.2) == 0)

/-- A match: priority, bank, index. -/
abbrev Match := Nat × Nat × Nat

/-- The stronger of two matches: lower priority value, then lower bank, then lower index. -/
def better (a b : Match) : Bool :=
  decide (a.1 < b.1) || (a.1 == b.1 && (decide (a.2.1 < b.2.1) || (a.2.1 == b.2.1 && decide (a.2.2 < b.2.2))))

/-- The first match over a set of banks (R313). -/
def State.searchBanks (s : State) (banks : Nat) (key : List Nat) : Option Match :=
  (bitsSet banks 32).foldl (fun (best : Option Match) b =>
    (s.bank b).entries.foldl (fun (best : Option Match) e =>
      if matchesKey e.2 key then
        match best with
        | none => some (e.2.prio, b, e.1)
        | some m => if better (e.2.prio, b, e.1) m then some (e.2.prio, b, e.1) else some m
      else best) best) none

/-- The result address of a match (R314). -/
def matchAddr (m : Match) : Nat := m.2.1 * 65536 + m.2.2

/-- Searches counted: `n` searches of a set of banks; those due in a cycle in which a named bank applied an update issue
one cycle later (R316). -/
def State.countSearches (s : State) (banks n : Nat) : State :=
  let hit := (bitsSet banks 32).any (fun b => (s.bank b).cycle == some (cycleOf s.chrono))
  let s1 := s.count STRAINER.SEARCHES n
  if hit && decide (0 < n) then s1.count STRAINER.DELAYED_SEARCHES 1 else s1

/-! Updates (R316 to R319). -/

/-- VALID_COUNT brought up to date. -/
def State.bankCount (s : State) (b : Nat) : State :=
  s.setFld (STRAINER.VALID_COUNT.at b) ((s.bank b).entries.filter (fun e => e.2.valid)).length

/-- A bank takes an update in the present cycle; earlier cycles' writes are forgotten. -/
def State.bankTouch (s : State) (b : Nat) : State :=
  let k := s.bank b
  if k.cycle = some (cycleOf s.chrono) then s
  else s.setBank b { k with cycle := some (cycleOf s.chrono), writes := [] }

/-- An entry written by a path. In one cycle the host's write prevails, else the firmware's; two paths on one entry are a
collision (R318). -/
def State.strWrite (s : State) (b i path : Nat) (e : StrEntry) : State :=
  let s := s.bankTouch b
  let k := s.bank b
  let others := k.writes.filter (fun w => w.1 == i && w.2 != path)
  let loses := others.any (fun w => decide (path < w.2))
  let k' := { k with
    entries := if loses then k.entries else Table.put k.entries i e, writes := k.writes ++ [(i, path)] }
  let s1 := ((s.setBank b k').bankCount b).count STRAINER.UPDATES 1
  if others.isEmpty then s1
  else
    let srcs := (path :: others.map (·.2)).foldl (fun v p => withBit v p true) 0
    ((((s1.count STRAINER.COLLISIONS 1).setFld STRAINER.COLL_INDEX i).setFld STRAINER.COLL_BANK b).setFld STRAINER.COLL_SRCS srcs).raiseOwn
      0x0A0 16

/-- The entry at an index of a bank; one never written is invalid. -/
def State.strEntry (s : State) (b i : Nat) : StrEntry :=
  Table.findD (s.bank b).entries i ⟨false, 0, [0, 0, 0, 0], [0, 0, 0, 0]⟩

/-- Every entry of a bank invalidated in one update (R319). -/
def State.bankClear (s : State) (b : Nat) : State :=
  let s := s.bankTouch b
  let s1 := (s.setBank b { s.bank b with entries := [] }).count STRAINER.UPDATES 1
  s1.setFld (STRAINER.VALID_COUNT.at b) 0

/-- A bank that a LOAD is writing or waits to write (R319, R323). -/
def State.bankLoading (s : State) (b : Nat) : Bool := s.strainer.loads.any (fun l => bitAt l.banks b)

end Sys2Proof.Machine
end

