-- ==== Sys2Proof/Machine/Columns.lean ====
section
/-! DEFINITION. Reading and writing columns, byte ranges and schemas (R81, R83, R224 to R233, R520). -/

namespace Sys2Proof.Machine

open Sys2Proof.Reg

/-- Where bytes lie that an access must bring in first: host memory, another node, a namespace of a Cellar drive. -/
inductive Far where
  | host
  | node (n : Nat)
  | cellar (drive nsid : Nat)
  /-- Rows of an embedding table, from their owner; the address and length are those of the bytes wanted of each row. -/
  | rows (tbl owner : Nat) (ids : List Nat)
  /-- Lines of this node's memory that the host may hold, or pages under flip (R113 to R115). -/
  | held
  deriving DecidableEq, Repr

/-- What an access by a slice or a validation gives: a value, a failure with its status and the address in herd form, or
a range that must be brought in first: an I/O virtual address, a node's local address, a byte offset in a namespace. -/
inductive Got (α : Type) where
  | ok (a : α)
  | fail (status detail : Nat)
  | need (far : Far) (addr len : Nat)
  deriving DecidableEq, Repr

def Got.bind {α β : Type} (x : Got α) (f : α → Got β) : Got β :=
  match x with
  | .ok a => f a
  | .fail st d => .fail st d
  | .need n a l => .need n a l

/-- All results of a list, or the first failure or need. -/
def Got.all {α β : Type} (f : α → Got β) : List α → Got (List β)
  | [] => .ok []
  | x :: xs => (f x).bind fun y => (Got.all f xs).bind fun ys => .ok (y :: ys)

/-- Who reads: the reader, the function whose requester ID host accesses carry, whether addresses are in herd form. -/
structure Via where
  who : Reader
  fn : Nat
  herd : Bool
  deriving DecidableEq, Repr

/-- The key of a byte that a reader has brought in. -/
def farKey (who : Reader) (far : Far) (a : Nat) : Nat :=
  let w := match who with
    | .slice n => 3 * n
    | .desc n => 3 * n + 1
    | .job n => 3 * n + 2
  let f := match far with
    | .host => 0
    | .node n => 1 + n
    | .cellar d ns => 0x20000 + d * 256 + ns
    | .rows t _ ids => 0x40000 + t + 0x2000 * (ids.headD 0 / 2 ^ 40)
    | .held => 0
  w * 2 ^ 84 + f * 2 ^ 64 + a

/-- Whether a reader has brought in a range. -/
def State.staged (s : State) (who : Reader) (far : Far) (a len : Nat) : Bool :=
  let k := farKey who far a
  s.work.stagedRanges.any (fun r => decide (r.1 ≤ k) && decide (k + len ≤ r.1 + r.2))

/-- The bytes of a range that a reader has brought in. -/
def State.stagedBytes (s : State) (who : Reader) (far : Far) (a len : Nat) : Bytes :=
  Memory.load s.work.staged (farKey who far a) len

/-- Bytes that have come for a reader. -/
def State.stage (s : State) (who : Reader) (far : Far) (a : Nat) (bs : Bytes) : State :=
  s.modWork fun w => { w with
    staged := Memory.store w.staged (farKey who far a) bs,
    stagedRanges := w.stagedRanges ++ [(farKey who far a, bs.length)] }

/-- What a reader brought in is forgotten when its slice or its validation has ended. -/
def State.unstage (s : State) (who : Reader) : State :=
  let lo := farKey who .host 0
  s.modWork fun w => { w with
    staged := Memory.clear w.staged lo (lo + 2 ^ 84),
    stagedRanges := w.stagedRanges.filter (fun r => decide (r.1 < lo) || decide (lo + 2 ^ 84 ≤ r.1)) }

/-- A range touches a page that a bias command is flipping (R114). -/
def State.flipping (s : State) (a len : Nat) : Bool :=
  match s.host.bias with
  | none => false
  | some b =>
    match Table.find? s.tiers.regions b.region with
    | none => false
    | some g => decide (a < g.base + (b.page + b.count) * 4096) && decide (g.base + b.page * 4096 < a + len)

/-- Lines of a range that the host may hold or that a snoop is asking for. -/
def State.heldLines (s : State) (a len : Nat) : List Nat :=
  (s.host.snoopFilter ++ s.host.snoops.map (·.line)).filter fun l => decide (l < a + len) && decide (a < l + 64)

/-- An access to a range must wait for the host (R113 to R115). -/
def State.heldIn (s : State) (a len : Nat) : Bool := s.flipping a len || !(s.heldLines a len).isEmpty

/-- A back-invalidation snoop of a line, or one more that waits for the one that is out. -/
def State.snoopLine (s : State) (line : Nat) (why : SnoopWhy) : State :=
  if s.host.snoops.any (fun n => n.line == line) then
    s.modHost fun h => { h with snoops := h.snoops.map fun n =>
      if n.line = line ∧ ¬ n.whys.contains why then { n with whys := n.whys ++ [why] } else n }
  else
    ((s.modHost fun h => { h with
      snoopFilter := h.snoopFilter.filter fun l => l != line, snoops := h.snoops ++ [⟨line, [why], s.chrono⟩] }).count
      COHERENCE.BISNP_SENT 1).emit (.snoop line)

/-- A reader's access waits for what the host may hold of a range. -/
def State.snoopFor (s : State) (who : Reader) (a len : Nat) : State :=
  let s1 := (s.heldLines a len).foldl (fun s l => s.snoopLine l (.access who)) s
  if s.flipping a len ∧ ¬ s.host.biasWaits.contains who then s1.modHost fun h => { h with biasWaits := h.biasWaits ++ [who] } else s1

/-- A port that cannot answer a host read: 0 usable, HOST_LOST during a loss, HOST_FAULT where port 0 was never up (R132,
R520). A read while the loss is not yet declared is held. -/
def State.hostReadStatus (s : State) (fn : Nat) : Nat :=
  if s.hostAway fn then 0x50 else if s.onPort0 fn && !s.host.p0Up && !s.host.p0EverUp then 0x48 else 0

/-- An address in herd form, as DETAIL has it. -/
def State.detailAddr (s : State) (v : Via) (a : Nat) : Nat := if v.herd then a else s.herdForm a

/-- A tier of a local address is out of service (R88). -/
def State.tierDown (s : State) (l : Nat) : Bool :=
  (spaceOf l == .cream && !s.creamUp) || (spaceOf l == .skim && !s.skimUp)

/-- `len` bytes at an address (R81 to R84, R88, R89, R132). -/
def State.readMem (s : State) (v : Via) (a len : Nat) : Got Bytes :=
  if len = 0 then .ok []
  else
    match s.resolve v.herd a with
    | none => .fail 0x40 a
    | some (some n, l) =>
      if !s.fabric.members.contains n || !engineMapped l len then .fail 0x40 a
      else if s.staged v.who (.node n) l len then .ok (s.stagedBytes v.who (.node n) l len)
      else .need (.node n) l len
    | some (none, l) =>
      if !engineMapped l len then .fail 0x40 (s.herdForm (if spaceOf l = .none ∨ spaceOf l = .image then l else firstUnmapped l))
      else if spaceOf l = .host then
        if s.hostReadStatus v.fn ≠ 0 then .fail (s.hostReadStatus v.fn) (s.herdForm l)
        else if s.staged v.who .host (iovaOf l) len then .ok (s.stagedBytes v.who .host (iovaOf l) len)
        else .need .host (iovaOf l) len
      else if s.tierDown l then .fail 0x46 (s.herdForm l)
      else if s.heldIn l len then .need .held l len
      else
        match s.badWordIn l len, s.poisonIn l len with
        | some w, _ => .fail 0x41 (s.herdForm w)
        | none, some p => .fail 0x41 (s.herdForm p)
        | none, none => .ok (s.loadBytes l len)

/-- The number at an address, little-endian. -/
def State.readNum (s : State) (v : Via) (a len : Nat) : Got Nat := (s.readMem v a len).bind fun b => .ok (leNat b)

/-! Schemas (R231). -/

/-- Entry `i` of a schema. -/
def schAt (sc : Schema) (i : Nat) : SchEntry := sc.getD i default

/-- Indexes of the top-level entries. -/
def topEntries (sc : Schema) : List Nat :=
  (List.range sc.length).filter (fun i => (schAt sc i).parent == 0xFFFF)

/-- The entries from `i` to the end of its column: itself and its descendants, in pre-order. -/
def columnOf (sc : Schema) (i : Nat) : List SchEntry :=
  let rest := (sc.drop (i + 1)).takeWhile (fun e => e.parent != 0xFFFF)
  schAt sc i :: rest

/-- The columns of a schema, each its entries in pre-order. -/
def columnsOf (sc : Schema) : List (List SchEntry) := (topEntries sc).map (columnOf sc)

/-- A selection of columns: COL_FIRST and COL_COUNT, where 0 means all from the first (Table 11-8). -/
def selectCols {α : Type} (cols : List α) (first count : Nat) : List α :=
  if count = 0 then cols.drop first else (cols.drop first).take count

/-- The type that a column's values have for comparison and hashing: a DICT's is its child's. -/
def colTy (c : List SchEntry) : Nat :=
  match c with
  | [] => 0
  | e :: rest => if tyDict e.ty then (rest.headD default).ty else e.ty

/-! Column directories (R229). -/

structure ColRec where
  length : Nat
  nulls : Nat
  first : Nat
  validity : Nat
  offsets : Nat
  values : Nat
  capElems : Nat
  capBytes : Nat
  deriving DecidableEq, Repr

/-- Record `k` of a directory. -/
def recAt (dir : Bytes) (k : Nat) : ColRec :=
  let o := 64 + 64 * k
  ⟨leAt dir o 8, leAt dir (o + 8) 8, leAt dir (o + 16) 8, leAt dir (o + 24) 8, leAt dir (o + 32) 8, leAt dir (o + 40) 8,
   leAt dir (o + 48) 8, leAt dir (o + 56) 8⟩

/-- A COLUMNS binding as slices read it: the schema, the directory's copy and its address. -/
structure Dir where
  via : Via
  schema : Schema
  dir : Bytes
  addr : Nat
  deriving DecidableEq, Repr

/-- ROWS of a directory. -/
def Dir.rows (d : Dir) : Nat := leAt d.dir 8 8

/-- An offset of an entry: element `i` counted from the record's buffer start. -/
def State.readOffset (s : State) (d : Dir) (r : ColRec) (ty i : Nat) : Got Nat :=
  let w := if tyLarge ty then 8 else 4
  (s.readNum d.via (r.offsets + w * i) w).bind fun o => if o < 2 ^ (8 * w - 1) then .ok o else .fail 0x6F (s.detailAddr d.via (r.offsets + w * i))

/-- Whether element `i` of a record is valid (R226). -/
def State.elemValid (s : State) (d : Dir) (r : ColRec) (i : Nat) : Got Bool :=
  if r.validity = 0 ∨ r.nulls = 0 then .ok true
  else (s.readNum d.via (r.validity + i / 8) 1).bind fun b => .ok (bitAt b (i % 8))

/-- A list of values as a chain. -/
def chainOf : List Val → Val
  | [] => .nil
  | v :: vs => .cons v (chainOf vs)

/-- The values of a chain. -/
def unchain : Val → List Val
  | .cons v rest => v :: unchain rest
  | _ => []

/-- Element `i` of entry `k`, over `fuel` levels of nesting (R225 to R227). `i` counts from the record's FIRST. -/
def State.readElem (s : State) (d : Dir) : Nat → Nat → Nat → Got Val
  | 0, _, _ => .ok .null
  | fuel + 1, k, i =>
    let e := schAt d.schema k
    let r := recAt d.dir k
    let p := r.first + i
    (s.elemValid d r p).bind fun ok =>
      if !ok then .ok .null
      else if tyBool e.ty then (s.readNum d.via (r.values + p / 8) 1).bind fun b => .ok (.num (ofBool (bitAt b (p % 8))))
      else if tyFixed e.ty then (s.readNum d.via (r.values + tyWidth e.ty * p) (tyWidth e.ty)).bind fun b => .ok (.num b)
      else if tyDict e.ty then
        let w := tyWidth e.param
        (s.readNum d.via (r.values + w * p) w).bind fun ix =>
          if (tySigned e.param && decide (2 ^ (8 * w - 1) ≤ ix)) || decide ((recAt d.dir (k + 1)).length ≤ ix) then
            .fail 0x6F (s.detailAddr d.via (r.values + w * p))
          else s.readElem d fuel (k + 1) ix
      else if tyFixList e.ty then
        if (recAt d.dir (k + 1)).length < (p + 1) * e.listSize then .fail 0x6F (s.detailAddr d.via (d.addr + 64 + 64 * (k + 1)))
        else (Got.all (fun j => s.readElem d fuel (k + 1) (p * e.listSize + j)) (List.range e.listSize)).bind fun vs =>
          .ok (chainOf vs)
      else
        (s.readOffset d r e.ty p).bind fun lo =>
          let w := if tyLarge e.ty then 8 else 4
          (s.readOffset d r e.ty (p + 1)).bind fun hi =>
            if hi < lo then .fail 0x6F (s.detailAddr d.via (r.offsets + w * (p + 1)))
            else if tyStr e.ty then (s.readMem d.via (r.values + lo) (hi - lo)).bind fun b => .ok (.str b)
            else if (recAt d.dir (k + 1)).length < hi then .fail 0x6F (s.detailAddr d.via (r.offsets + w * (p + 1)))
            else (Got.all (fun j => s.readElem d fuel (k + 1) (lo + j)) (List.range (hi - lo))).bind fun vs => .ok (chainOf vs)

/-- Rows `first` to `first + count - 1` of the selected top-level columns: one list per column. -/
def State.readColumns (s : State) (d : Dir) (entries : List Nat) (first count : Nat) : Got (List (List Val)) :=
  Got.all (fun k => Got.all (fun j => s.readElem d 7 k (first + j)) (List.range count)) entries

/-! Writing columns (R225, R230). -/

/-- One entry of a column as it is laid out: its elements, and by kind its values. -/
structure Laid where
  elems : Nat
  nulls : Nat
  validity : Bytes
  offsets : Bytes
  values : Bytes
  /-- Offsets that pass the entry's offset width. -/
  wide : Bool
  deriving DecidableEq, Repr

/-- Bits packed LSB-first into bytes, over `fuel` bytes. -/
def packBits : Nat → List Bool → Bytes
  | 0, _ => []
  | n + 1, bs =>
    if bs.isEmpty then []
    else BitVec.ofNat 8 ((bs.take 8).zipIdx.foldl (fun v e => if e.1 then v + 2 ^ e.2 else v) 0) :: packBits n (bs.drop 8)

/-- Running sums from 0. -/
def runSums (ns : List Nat) : List Nat := ns.foldl (fun acc n => acc ++ [acc.getLastD 0 + n]) [0]

/-- The distinct values of a list, in the order of their first appearance. -/
def distinct (vs : List Val) : List Val := vs.foldl (fun acc v => if acc.contains v then acc else acc ++ [v]) []

/-- Values in the order in which the device lays them out as a dictionary, over `fuel` values. -/
def arrange : Nat → List Val → List Val
  | 0, vs => vs
  | fuel + 1, vs =>
    if vs.isEmpty then []
    else
      let k := Config.dictPick vs % vs.length
      vs.getD k .null :: arrange fuel (vs.eraseIdx k)

/-- The dictionary of a column's values: each non-null value once. DESIGN CHOICE (log 8). -/
def dictionary (vs : List Val) : List Val :=
  let d := distinct (vs.filter (fun v => v != .null))
  arrange d.length d

/-- The bytes of `n` elements in the buffer of one entry, padded with zeros to a multiple of 64. -/
def pad64 (b : Bytes) : Bytes := fitTo b (roundUp b.length 64)

/-- The valid zero value of an entry with its descendants (R225). -/
def zeroVal : List SchEntry → Val
  | [] => .num 0
  | e :: rest =>
    if tyStr e.ty then .str [] else if tyDict e.ty then zeroVal rest else if tyVarList e.ty then .nil
    else if tyFixList e.ty then chainOf (List.replicate e.listSize (zeroVal rest)) else .num 0

/-- The layout of the entries of a column, in pre-order, for its values. Null slots are zero, null lists are empty, the
children of a null FIXED_LIST are valid zeros. DICT indexes follow the dictionary that the device lays out. -/
def layColumn : List SchEntry → List Val → List Laid
  | [], _ => []
  | e :: rest, vs =>
    let n := vs.length
    let nulls := (vs.filter (fun v => v == .null)).length
    let validity := packBits (n + 1) (vs.map (fun v => v != .null))
    if tyBool e.ty then
      [⟨n, nulls, validity, [], packBits (n + 1) (vs.map (fun v => match v with | .num b => b == 1 | _ => false)), false⟩]
    else if tyFixed e.ty then
      [⟨n, nulls, validity, [], vs.flatMap (fun v => match v with | .num b => leBytes (tyWidth e.ty) b | _ => zeros (tyWidth e.ty)), false⟩]
    else if tyStr e.ty then
      let strs := vs.map (fun v => match v with | .str b => b | _ => [])
      let offs := runSums (strs.map (·.length))
      let w := if tyLarge e.ty then 8 else 4
      [⟨n, nulls, validity, offs.flatMap (leBytes w), strs.flatMap id, decide (2 ^ (8 * w - 1) ≤ offs.getLastD 0)⟩]
    else if tyDict e.ty then
      let dict := dictionary vs
      let w := tyWidth e.param
      let ix := vs.flatMap (fun v => if v == .null then zeros w else leBytes w (dict.idxOf v))
      ⟨n, nulls, validity, [], ix, decide (2 ^ (8 * w - ofBool (tySigned e.param)) < dict.length)⟩ :: layColumn rest dict
    else if tyFixList e.ty then
      let kids := vs.flatMap (fun v => if v == .null then List.replicate e.listSize (zeroVal rest) else unchain v)
      ⟨n, nulls, validity, [], [], false⟩ :: layColumn rest kids
    else
      let kids := vs.map unchain
      let offs := runSums (kids.map (·.length))
      let w := if tyLarge e.ty then 8 else 4
      ⟨n, nulls, validity, offs.flatMap (leBytes w), [], decide (2 ^ (8 * w - 1) ≤ offs.getLastD 0)⟩ :: layColumn rest (kids.flatMap id)

/-- Why an output's values cannot be held by its directory (R228, R230): the status and the address that DETAIL names. -/
def outputFault (addr : Nat) (dir : Bytes) (laid : List Laid) : Option (Nat × Nat) :=
  laid.zipIdx.findSome? fun x =>
    let r := recAt dir x.2
    let at_ := addr + 64 + 64 * x.2
    if x.1.wide ∨ r.capElems < x.1.elems ∨ r.capBytes < x.1.values.length then some (0x70, at_)
    else if r.validity = 0 ∧ 0 < x.1.nulls then some (0x6F, at_ + 24)
    else none

/-- The writes of an output's buffers and of its directory's results: address and bytes, in order. -/
def outputWrites (addr : Nat) (dir : Bytes) (rows : Nat) (laid : List Laid) : List (Nat × Bytes) :=
  let bufs := laid.zipIdx.flatMap fun x =>
    let r := recAt dir x.2
    (if r.validity = 0 then [] else [(r.validity, pad64 x.1.validity)]) ++
    (if x.1.offsets.isEmpty then [] else [(r.offsets, pad64 x.1.offsets)]) ++
    (if x.1.values.isEmpty then [] else [(r.values, pad64 x.1.values)])
  let recs := laid.zipIdx.map fun x => (addr + 64 + 64 * x.2, leBytes 8 x.1.elems ++ leBytes 8 x.1.nulls)
  bufs ++ [(addr + 8, leBytes 8 rows)] ++ recs

end Sys2Proof.Machine
end

