-- ==== Sys2Proof/Machine/JobOps.lean ====
section
/-! DEFINITION. Jobs: their plans' parts, inputs and outputs of stages, failures (R52, R155, R168, R169, R228 to R240, R502). -/

namespace Sys2Proof.Machine

open Sys2Proof.Reg

/-! Parts of a plan. -/

def Plan.stage (p : Plan) (i : Nat) : Stage := p.stages.getD i default
def Stage.in_ (st : Stage) (k : Nat) : Operand := st.ins.getD k .none
def Stage.out_ (st : Stage) (k : Nat) : Operand := st.outs.getD k .none

/-- A stage's parameter block. -/
def Plan.block (p : Plan) (st : Stage) : Bytes := sub p.params st.pOff st.pLen

/-- An entry of a schema (Table 11-4): `area` is the parameter area, `o` the entry's offset, `strs` the string area's. -/
def schemaEntry (area : Bytes) (o strs : Nat) : SchEntry :=
  let ty := byteAt area o
  let d := leAt area (o + 24) 8
  { ty := ty, param := byteAt area (o + 1), nullable := bitAt (byteAt area (o + 2)) 0, hasDefault := bitAt (byteAt area (o + 2)) 1,
    level := byteAt area (o + 3), parent := leAt area (o + 4) 2, name := sub area (strs + leAt area (o + 8) 4) (leAt area (o + 12) 2),
    listSize := leAt area (o + 16) 4, dflt := d,
    dfltBytes := if tyStr ty then sub area (strs + d % 2 ^ 32) (d / 2 ^ 32) else [] }

/-- The schema at an offset of the parameter area (R231). -/
def Plan.schema (p : Plan) (off : Nat) : Schema :=
  let n := leAt p.params (off + 6) 2
  (List.range n).map fun i => schemaEntry p.params (off + 64 + 32 * i) (off + 64 + 32 * n)

/-- The schema of a binding slot, where its declaration has one. -/
def Plan.declSchema (p : Plan) (slot : Nat) : Option Schema :=
  let d := p.decls.getD slot default
  if d.kind = 1 then some (p.schema d.schema) else none

/-- The columns of a schema that an operand selects. -/
def selected (sc : Schema) (first count : Nat) : List (List SchEntry) := selectCols (columnsOf sc) first count

/-- The columns that output `o` of stage `i` produces. -/
def Plan.outCols (p : Plan) (i o : Nat) : List (List SchEntry) :=
  match (p.stage i).out_ o with
  | .vat sc => columnsOf (p.schema sc)
  | .bind slot f c => ((p.declSchema slot).map (fun sc => selected sc f c)).getD []
  | _ => []

/-- The columns that input `k` of stage `i` reads. -/
def Plan.inCols (p : Plan) (i k : Nat) : List (List SchEntry) :=
  match (p.stage i).in_ k with
  | .stage o r f c => selectCols (p.outCols r o) f c
  | .bind slot f c => ((p.declSchema slot).map (fun sc => selected sc f c)).getD []
  | _ => []

/-- Whether an operand is present. -/
def Operand.given : Operand → Bool
  | .none => false
  | _ => true

/-- An operand that carries columns: a stage's output or a COLUMNS binding. -/
def Plan.isCols (p : Plan) (x : Operand) : Bool :=
  match x with
  | .stage .. => true
  | .vat _ => true
  | .bind slot _ _ => (p.decls.getD slot default).kind == 1
  | _ => false

/-- A binding operand of a kind. -/
def Plan.isBind (p : Plan) (kind : Nat) (x : Operand) : Bool :=
  match x with
  | .bind slot _ _ => (p.decls.getD slot default).kind == kind
  | _ => false

/-- The slot of a binding operand. -/
def Operand.slot : Operand → Nat
  | .bind slot _ _ => slot
  | _ => 0

/-! Jobs and slices. -/

def State.job? (s : State) (j : Nat) : Option Job := Table.find? s.work.jobs j
def State.slice? (s : State) (x : Nat) : Option Slice := Table.find? s.work.slices x

def State.updJob (s : State) (j : Nat) (f : Job → Job) : State :=
  s.modWork fun w => { w with jobs := Table.upd w.jobs j f }

def State.updSlice (s : State) (x : Nat) (f : Slice → Slice) : State :=
  s.modWork fun w => { w with slices := Table.upd w.slices x f }

def Job.bind (job : Job) (slot : Nat) : Bind := job.binds.getD slot default
def Job.engOf (job : Job) (st : Nat) : Eng := Table.findD job.eng st {}
def Job.outRows (job : Job) (st o : Nat) : List (List Val) := Table.findD job.outs (st * 8 + o) []

def State.setEng (s : State) (j st : Nat) (e : Eng) : State := s.updJob j fun x => { x with eng := Table.put x.eng st e }

/-- The descriptor of a job that a ring brought. -/
def Job.desc (job : Job) : Option Nat :=
  match job.origin with
  | .ring d => some d
  | _ => none

/-- The address of byte `off` of a binding, as DETAIL has it. -/
def State.bindDetail (s : State) (job : Job) (b : Bind) (off : Nat) : Nat :=
  if job.herd || b.herd then b.addr + off else s.herdForm (b.addr + off)

/-- What a slice of a stage works with. -/
structure Ctx where
  job : Nat
  slice : Nat
  stage : Nat
  page : Nat
  st : Stage
  plan : Plan
  /-- The units the slice covers, first and count. -/
  first : Nat
  count : Nat
  /-- It is the job's survey that reads, no slice (R253). -/
  survey : Bool := false
  deriving DecidableEq, Repr

/-- What an engine's work on a slice makes: the state after it and whether its stage has ended, a failure with its status
and DETAIL, or a range that must be brought in first. -/
inductive Ran where
  | done (s : State) (ended : Bool)
  | failed (s : State) (status detail : Nat)
  | need (far : Far) (addr len : Nat)
  deriving DecidableEq, Repr

/-- The work goes on with what an access gives. -/
def Ran.with {α : Type} (s : State) (g : Got α) (f : α → Ran) : Ran :=
  match g with
  | .ok a => f a
  | .fail st d => .failed s st d
  | .need n a l => .need n a l

/-! What a class finds wrong with a stage at validation (R239, R521). -/

/-- Where a failing field lies: in the stage's record, in its parameter block, in the entry of a binding slot. -/
inductive FlawAt where
  | record
  | param
  | bind (slot : Nat)
  deriving DecidableEq, Repr

/-- A failing field: where it lies, its offset there, the status. -/
structure Flaw where
  place : FlawAt
  off : Nat
  status : Nat
  deriving DecidableEq, Repr

/-- A flaw of a field of the parameter block, where a condition fails. -/
def parFlaw (ok : Bool) (off status : Nat) : List Flaw := if ok then [] else [⟨.param, off, status⟩]

/-- A flaw of a field of the stage record, where a condition fails. -/
def recFlaw (ok : Bool) (off status : Nat) : List Flaw := if ok then [] else [⟨.record, off, status⟩]

/-- A flaw of a field of a binding entry, where a condition fails. -/
def bindFlaw (ok : Bool) (slot off status : Nat) : List Flaw := if ok then [] else [⟨.bind slot, off, status⟩]

/-- Offsets of input and output operands in a stage record. -/
def inOff (k : Nat) : Nat := 32 + 16 * k
def outOff (k : Nat) : Nat := 160 + 16 * k

/-- PARAM_BAD for an input or output operand that breaks its class's rule. -/
def inFlaw (ok : Bool) (k : Nat) : List Flaw := recFlaw ok (inOff k) 0x6E
def outFlaw (ok : Bool) (k : Nat) : List Flaw := recFlaw ok (outOff k) 0x6E

/-- Inputs and outputs from a position on must be NONE. -/
def restNone (st : Stage) (ins outs : Nat) : List Flaw :=
  ((List.range 8).flatMap fun k => inFlaw (decide (k < ins) || !(st.in_ k).given) k) ++
  ((List.range 6).flatMap fun k => outFlaw (decide (k < outs) || !(st.out_ k).given) k)

/-- Whether two columns have one type, entry by entry. -/
def sameCol (a b : List SchEntry) : Bool :=
  a.length == b.length && (List.zip a b).all fun e => e.1.ty == e.2.ty && e.1.param == e.2.param && e.1.listSize == e.2.listSize

def sameCols (a b : List (List SchEntry)) : Bool := a.length == b.length && (List.zip a b).all fun e => sameCol e.1 e.2

/-- A list of columns that is one column of a type. -/
def oneCol (cs : List (List SchEntry)) (ty : Nat) : Bool :=
  match cs with
  | [[e]] => e.ty == ty
  | _ => false

/-- The type of the first entry of a column. -/
def headTy (c : List SchEntry) : Nat := (c.headD default).ty

/-! Addresses of bindings. -/

/-- How a slice of a job reads through a binding. -/
def viaOf (job : Job) (who : Reader) (b : Bind) : Via := ⟨who, job.fn, job.herd || b.herd⟩

/-- The directory of a COLUMNS binding, as the job's copy has it (R244). -/
def dirOf (job : Job) (who : Reader) (slot : Nat) : Dir :=
  let b := job.bind slot
  ⟨viaOf job who b, (job.plan.declSchema slot).getD [], b.dir, b.addr⟩

/-- Why a Cellar range cannot be accessed: 0 where it can (R96). -/
def State.cellarStatus (s : State) (addr blocks : Nat) : Nat :=
  let d := addr / 2 ^ 56 % 16
  let ns := addr / 2 ^ 48 % 256
  match Table.find? s.tiers.drives d with
  | none => 0x44
  | some dr =>
    if !dr.ready || dr.failed || bitAt (s.fld CELLAR.DRIVE_OOS) d || s.pageOos 0x063 then 0x44
    else
      match Table.find? dr.namespaces ns with
      | none => 0x44
      | some n =>
        if !n.active || n.metadata != 0 || !(n.block == 512 || n.block == 4096) then 0x44
        else if n.blocks < addr % 2 ^ 48 + blocks then 0x45 else 0

/-- The block size of a Cellar address. -/
def State.cellarBlock (s : State) (addr : Nat) : Nat :=
  match Table.find? s.tiers.drives (addr / 2 ^ 56 % 16) with
  | none => 512
  | some dr => (Table.findD dr.namespaces (addr / 2 ^ 48 % 256) ⟨false, 512, 0, 0⟩).block

/-- The length in bytes of a BYTES, CODE or CELLAR binding. -/
def State.bindLen (s : State) (b : Bind) : Nat := if b.kind = 3 then b.len * s.cellarBlock b.addr else b.len

/-- Bytes `off` to `off + n - 1` of a BYTES, CODE or CELLAR binding; of a Cellar one, whole blocks are read. -/
def State.readBind (s : State) (job : Job) (who : Reader) (b : Bind) (off n : Nat) : Got Bytes :=
  if n = 0 then .ok []
  else if b.body.isSome then .ok (sub (b.body.getD []) off n)
  else if b.kind = 3 then
    let bs := s.cellarBlock b.addr
    let lo := off / bs
    let cnt := ceilDiv (off + n) bs - lo
    let st := s.cellarStatus (b.addr + lo) cnt
    if st ≠ 0 then .fail st 0
    else
      let far : Far := .cellar (b.addr / 2 ^ 56 % 16) (b.addr / 2 ^ 48 % 256)
      let a := (b.addr % 2 ^ 48 + lo) * bs
      if s.staged who far a (cnt * bs) then .ok (sub (s.stagedBytes who far a (cnt * bs)) (off - lo * bs) n)
      else .need far a (cnt * bs)
  else s.readMem (viaOf job who b) (b.addr + off) n

/-! Inputs. -/

/-- The operand of input `k`. -/
def Ctx.in_ (c : Ctx) (k : Nat) : Operand := c.st.in_ k
def Ctx.out_ (c : Ctx) (k : Nat) : Operand := c.st.out_ k
def Ctx.block (c : Ctx) : Bytes := c.plan.block c.st
def Ctx.inCols (c : Ctx) (k : Nat) : List (List SchEntry) := c.plan.inCols c.stage k
def Ctx.outCols (c : Ctx) (k : Nat) : List (List SchEntry) := c.plan.outCols c.stage k
/-- The type of each column of an input, DICT columns by their values. -/
def Ctx.inTys (c : Ctx) (k : Nat) : List Nat := (c.inCols k).map colTy
/-- Who reads. -/
def Ctx.who (c : Ctx) : Reader := if c.survey then .job c.job else .slice c.slice

/-- Rows that input `x` of a job holds so far, and whether more can still come. -/
def inputLen (job : Job) (x : Operand) : Nat × Bool :=
  match x with
  | .stage o r _ _ => ((job.outRows r o).length, !job.ended.contains r)
  | .bind slot _ _ => (leAt (job.bind slot).dir 8 8, false)
  | _ => (0, false)

/-- Lists by column turned to lists by row. -/
def rowsOf (count : Nat) (cols : List (List Val)) : List (List Val) :=
  (List.range count).map fun i => cols.map fun c => c.getD i .null

/-- Rows `first` to `first + count - 1` of input `k`, with the selected columns. -/
def State.inputRows (s : State) (job : Job) (c : Ctx) (k first count : Nat) : Got (List (List Val)) :=
  match c.in_ k with
  | .stage o r f n => .ok (((job.outRows r o).drop first).take count |>.map fun row => selectCols row f n)
  | .bind slot f n =>
    let d := dirOf job c.who slot
    (s.readColumns d (selectCols (topEntries d.schema) f n) first count).bind fun cols => .ok (rowsOf count cols)
  | _ => .ok []

/-- The byte stream of a byte output: the elements of its one entry, in order (R271). -/
def outStream (rows : List (List Val)) (col : Nat) : Bytes :=
  rows.flatMap fun row => match row.getD col .null with
    | .str b => b
    | _ => []

/-- A byte-range input: the bytes of a PARAM operand, of a binding, of another stage's byte output. -/
def State.inputBytes (s : State) (job : Job) (c : Ctx) (k off n : Nat) : Got Bytes :=
  match c.in_ k with
  | .stage o r f _ => .ok (sub (outStream (job.outRows r o) f) off n)
  | .param o l => .ok ((sub c.plan.params o l).drop off |>.take n)
  | .bind slot _ _ => s.readBind job c.who (job.bind slot) off n
  | _ => .ok []

/-- The length of a byte-range input. -/
def State.inputSize (s : State) (job : Job) (c : Ctx) (k : Nat) : Nat :=
  match c.in_ k with
  | .stage o r f _ => (outStream (job.outRows r o) f).length
  | .param _ l => l
  | .bind slot _ _ => s.bindLen (job.bind slot)
  | _ => 0

/-! Outputs. -/

/-- Columns of rows, laid out in memory entry by entry. -/
def layRows (cols : List (List SchEntry)) (rows : List (List Val)) : List Laid :=
  cols.zipIdx.flatMap fun e => layColumn e.1 (rows.map fun r => r.getD e.2 .null)

/-- Why the rows of an output cannot be held: COL_OVERFLOW or COL_BAD with DETAIL (R228, R230). -/
def outputTrouble (job : Job) (plan : Plan) (x : Operand) (cols : List (List SchEntry)) (rows : List (List Val)) :
    Option (Nat × Nat) :=
  match x with
  | .bind slot f _ =>
    let b := job.bind slot
    let laid := layRows cols rows
    let skip := ((columnsOf ((plan.declSchema slot).getD [])).take f).foldl (fun n c => n + c.length) 0
    (outputFault (b.addr + 64 * skip) (b.dir.take 64 ++ b.dir.drop (64 + 64 * skip)) laid)
  | _ => if (layRows cols rows).any (·.wide) then some (0x70, 0) else none

/-- Rows appended to output `o` of a slice's stage. -/
def State.appendOut (s : State) (c : Ctx) (o : Nat) (rows : List (List Val)) : Got State :=
  match s.job? c.job with
  | none => .ok s
  | some job =>
    let all := job.outRows c.stage o ++ rows
    if !(c.out_ o).given then .ok s
    else
      match outputTrouble job c.plan (c.out_ o) (c.outCols o) all with
      | some (st, a) => .fail st (if st = 0x70 then 0 else s.detailAddr (viaOf job c.who (job.bind (c.out_ o).slot)) a)
      | none => .ok (s.updJob c.job fun x => { x with outs := Table.put x.outs (c.stage * 8 + o) all })

/-- Rows appended to several outputs. -/
def State.appendOuts (s : State) (c : Ctx) (outs : List (Nat × List (List Val))) : Got State :=
  outs.foldl (fun g e => g.bind fun s => s.appendOut c e.1 e.2) (.ok s)

/-- Bytes appended to a BYTES output. -/
def State.appendBytes (s : State) (c : Ctx) (o : Nat) (bs : Bytes) : State :=
  s.updJob c.job fun x =>
    { x with bytesOut := Table.put x.bytesOut (c.stage * 8 + o) (Table.findD x.bytesOut (c.stage * 8 + o) [] ++ bs) }

/-- The work of a slice of a row-wise operator: rows of input `k` in, rows of outputs out; the stage ends with its input. -/
def State.rowWise (s : State) (c : Ctx) (k : Nat) (f : Job → List (List Val) → Got (List (Nat × List (List Val)))) : Ran :=
  match s.job? c.job with
  | none => .done s true
  | some job =>
    let e := job.engOf c.stage
    let av := inputLen job (c.in_ k)
    let n := min c.count (av.1 - e.consumed)
    Ran.with s (s.inputRows job c k e.consumed n) fun rows =>
      Ran.with s (f job rows) fun outs =>
        Ran.with s (s.appendOuts c outs) fun s1 =>
          .done (s1.setEng c.job c.stage { e with consumed := e.consumed + n }) (!av.2 && decide (av.1 ≤ e.consumed + n))

/-! Where slices run (R73, R74, R168, R169). -/

/-- The pages of an engine class (Table 11-7); custom stages run on the control cores. -/
def classPages (cls : Nat) : Nat × Nat :=
  match cls with
  | 0x01 => (0x070, 0x07F)
  | 0x02 => (0x080, 0x087)
  | 0x03 => (0x088, 0x097)
  | 0x04 => (0x098, 0x09F)
  | 0x05 => (0x0A0, 0x0A0)
  | 0x06 => (0x0A8, 0x0AB)
  | 0x07 => (0x0AC, 0x0AF)
  | 0x08 => (0x0B0, 0x0B7)
  | 0x09 => (0x0B8, 0x0BB)
  | 0x0A => (0x0C0, 0x0C7)
  | _ => (0x051, 0x051)

def pagesOf (cls : Nat) : List Nat := (List.range ((classPages cls).2 + 1 - (classPages cls).1)).map ((classPages cls).1 + ·)

/-- An instance is enabled and in service. -/
def State.instanceUp (s : State) (page : Nat) : Bool :=
  s.fld (HDR.ENABLE.on page) == 1 && !s.pageOos page && s.good ((blockOf page).elim 0 (·.domain))

/-- An instance takes new slices (R73). -/
def State.accepts (s : State) (page : Nat) : Bool :=
  s.instanceUp page && s.fld (HDR.QUIESCE.on page) == 0 && (s.page 0 page).resetAt.isNone

/-- A class has an instance that is enabled and in service (R74). -/
def State.classUp (s : State) (cls : Nat) : Bool := (pagesOf cls).any s.instanceUp

/-- Slices on a page: queued and in flight; those in flight. -/
def State.pageSlices (s : State) (page : Nat) : List (Nat × Slice) := s.work.slices.filter (fun e => e.2.page == page)
def State.inFlight (s : State) (page : Nat) : Nat := ((s.pageSlices page).filter (fun e => e.2.ran || e.2.state == .waitHost || e.2.state == .running)).length

/-- Whether a job computes a response (R465). -/
def State.servingJob (s : State) (j : Nat) : Bool :=
  match s.job? j with
  | some job => match job.origin with
    | .serve _ => true
    | _ => false
  | none => false

/-- The place of a class in SERVE_RESERVE, and the number it gives the class (R479). -/
def State.reserveOf (s : State) (cls : Nat) : Nat :=
  match [1, 3, 4, 7, 8, 9, 10].findIdx? (· == cls) with
  | some i => s.fld SERVE.RESERVE / 16 ^ i % 16
  | none => 0

/-- The instances of a class that take only serving slices: the lowest in service, while serving runs, and after it those on
which a serving slice has not ended (R466, R479). -/
def State.reserved (s : State) (cls : Nat) : List Nat :=
  let ps := ((pagesOf cls).filter s.instanceUp).take (s.reserveOf cls)
  if s.bit SERVE.ENABLE then ps else ps.filter fun p => (s.pageSlices p).any fun e => s.servingJob e.2.job

/-- The instance that a new slice of a job queues at: a free choice among those that take slices and hold none of the job.
The spec leaves the placement to the runtime (log 9). -/
def State.placePage (s : State) (j cls : Nat) : Option Nat :=
  if cls = 0x10 then (if s.accepts 0x051 then some 0x051 else none)
  else
    let rs := s.reserved cls
    let serving := s.servingJob j
    let ps := (pagesOf cls).filter fun p =>
      s.accepts p && !(s.pageSlices p).any (fun e => e.2.job == j) && (if serving then rs.isEmpty || rs.contains p else !rs.contains p)
    ps[Config.freeNat s.free % ps.length]?

/-- The input whose rows are the units of a stage in a phase, where its units are rows: Press builds from IN0 and probes
with IN1, Normaliser's statistics come first, the others read IN0. -/
def unitInput (st : Stage) (e : Eng) : Option Nat :=
  if st.cls = 0x06 then some (if e.phase = 0 then 1 else 0)
  else if st.cls = 0x01 ∨ st.cls = 0x02 ∨ st.cls = 0x05 ∧ st.op = 2 ∨ st.cls = 0x10 then none
  else some 0

/-- The phase of a stage that waits for something else than its slices. -/
def waiting : Nat := 99

/-- Whether a stage has work for a slice now. -/
def stageReady (job : Job) (i : Nat) : Bool :=
  let st := job.plan.stage i
  let e := job.engOf i
  if job.ended.contains i ∨ e.phase = waiting ∨ st.cls = 1 ∧ e.phase = 0 then false
  else
    match unitInput st e with
    | some k =>
      let extra := inputLen job (st.in_ 2)
      (decide (e.consumed < (inputLen job (st.in_ k)).1) || !(inputLen job (st.in_ k)).2) &&
        -- the statistics row of a Normaliser stage comes first
        !(st.cls == 0x08 && extra.2 && extra.1 == 0)
    | none => st.ins.all fun x => !(inputLen job x).2

/-- The priority of a stage's slices: its own level, or the job's (R169, Table 11-6). -/
def slicePrio (job : Job) (i : Nat) : Nat := if (job.plan.stage i).prio = 255 then job.prio else (job.plan.stage i).prio

/-- A slice queued for a stage that has work and no slice, where an instance takes it. -/
def State.placeStage (s : State) (j : Nat) (job : Job) (i : Nat) : State :=
  if stageReady job i && !s.work.slices.any (fun e => e.2.job == j && e.2.stage == i) then
    match s.placePage j (job.plan.stage i).cls with
    | none => s
    | some p =>
      let x : Slice := { job := j, stage := i, page := p, prio := slicePrio job i, first := (job.engOf i).consumed }
      s.useOpen.modWork fun w => { w with slices := Table.put w.slices w.nextSlice x, nextSlice := w.nextSlice + 1 }
  else s

/-- Every stage of a job that runs and has not failed gets its slice (R168, R169). -/
def State.placeSlices (s : State) (j : Nat) : State :=
  match s.job? j with
  | none => s
  | some job =>
    if job.status ≠ 0 ∨ job.written then s
    else (List.range job.plan.stages.length).foldl (fun s i => s.placeStage j job i) s

/-- Every job's slices placed, oldest job first. -/
def State.placeAll (s : State) : State := s.work.jobs.foldl (fun s e => s.placeSlices e.1) s

/-- The slice that an instance serves next: the highest priority, first come first served within it (R169). -/
def State.headSlice (s : State) (page : Nat) : Option Nat :=
  (((s.pageSlices page).filter (fun e => e.2.state == .queued)).foldl (fun (best : Option (Nat × Slice)) e =>
    match best with
    | none => some e
    | some b => if e.2.prio < b.2.prio then some e else some b) none).map (·.1)

/-- Pages that have drained show it: QUIESCED, OOS and ENABLED of PG_STAT follow the live state (R73). -/
def State.sliceGone (s : State) (x : Nat) : State :=
  s.modWork fun w => { w with slices := Table.drop w.slices x }

/-! Failures (R52, R155, R502). -/

/-- The fault cause of a status that is a class 1 fault: a memory error, a host error, a stage fault, a lost peer (Table
24-3, R502). -/
def faultCause (status : Nat) : Option Nat :=
  if status = 0x41 ∨ status = 0xD9 then some 1
  else if status = 0x48 ∨ status = 0x49 ∨ status = 0x4A then some 2
  else if status = 0x58 ∨ status = 0x59 ∨ status = 0x5B then some 3
  else if status = 0x9B ∨ status = 0xB5 then some 4
  else none

/-- A job fails: the first failure gives its status, stage and DETAIL, a later one sets MULTI_ERR; a class 1 fault writes
its record. -/
def State.failJob (s : State) (j status stage detail page : Nat) : State :=
  match s.job? j with
  | none => s
  | some job =>
    let s1 := match faultCause status with
      | some c => s.faultRecord ⟨1, c, ofBool (status = 0xD9), status, page, s.node.id, 0, job.tag, 0, detail, 0⟩
      | none => s
    if job.status = 0 then s1.updJob j fun x => { x with status := status, stage := stage, detail := detail }
    else s1.updJob j fun x => { x with multi := true }

/-- SLICE extents returned to the pool. -/
def State.giveExtents (s : State) (n : Nat) : State := s.modTiers fun t => { t with sliceUsed := t.sliceUsed - n }

/-- A slice ends for any reason: its extents return, its waits end, its thread is freed, what it read is forgotten. -/
def State.endSlice (s : State) (id : Nat) : State :=
  match s.slice? id with
  | none => s
  | some x =>
    let s1 := ((s.giveExtents x.extents).leaveUnwait id).threadEnd id
    let s2 := s1.modTiers fun t => { t with extentWaits := t.extentWaits.filter (fun y => y != id) }
    let s3 := s2.modHost fun h => { h with reads := h.reads.filter (fun e => e.2.who != .slice id) }
    (s3.unstage (.slice id)).sliceGone id

/-- Slices of a failed job that are not in flight are dropped (R169: a slice in progress runs to its end). -/
def State.dropQueued (s : State) (j : Nat) : State :=
  (s.work.slices.filter (fun e => e.2.job == j && e.2.state != .running)).foldl (fun s e => s.endSlice e.1) s

/-- Every slice of a job ends at once: a kill (R52). -/
def State.dropSlices (s : State) (j : Nat) : State :=
  (s.work.slices.filter (fun e => e.2.job == j)).foldl (fun s e => s.endSlice e.1) s

/-- A slice ends with a failure: its job fails, its other queued slices are dropped (R52, R155). -/
def State.failSlice (s : State) (id status detail : Nat) : State :=
  match s.slice? id with
  | none => s
  | some x =>
    let s1 := (s.failJob x.job status x.stage detail x.page).endSlice id
    -- the access that met a bad Vat word counts it (R84)
    let a := detail % 2 ^ 48
    let s2 := if status = 0x41 ∧ spaceOf a = .vat ∧ detail / 2 ^ 48 = s.node.id then s1.vatUe a else s1
    s2.dropQueued x.job

end Sys2Proof.Machine
end

