-- ==== Sys2Proof/Machine/JobWrite.lean ====
section
/-! DEFINITION. Writes of jobs: to this node's memories, to the host or its park, to other nodes (R81, R124, R132 to R135,
R415, R452). -/

namespace Sys2Proof.Machine

open Sys2Proof.Reg

/-- Whether the host-bound writes and the completion of a job go to the park (R132, R141). -/
def State.jobParks (s : State) (job : Job) : Bool :=
  s.hostAway job.fn || (match job.desc.bind s.desc? with | some d => d.old | none => false)

/-- A host-bound write of a job: sent, parked, or discarded with what follows it (R132, R135). -/
def State.jobHostWrite (s : State) (j : Nat) (job : Job) (l : Nat) (bs : Bytes) : State :=
  if s.jobParks job then
    if job.parkFull then s
    else
      match s.parkWrite job.fn job.ring job.tag (iovaOf l) bs with
      | some s1 => s1
      | none => ((s.count ATTACH.PARK_FULL_COUNT 1).raiseOwn 0x00A 18).updJob j fun x => { x with parkFull := true }
  else (s.writeOut job.fn l bs).updJob j fun x => { x with issued := true }

/-- A write to another node in messages, the first where the last one's answer ends it (R415); false where it has no route. -/
def State.sendWrites (s : State) (why : ReqWhy) (n a : Nat) (bs : Bytes) : State × Bool :=
  let size := if bs.length ≤ 4096 then 4096 else 16384
  let typ := if bs.length ≤ 4096 then 0x02 else 0x04
  (pieces size (bs.length + 1) bs).zipIdx.foldl (fun (r : State × Bool) e =>
    let r' := r.1.trySend why { dst := n, src := 0, typ := typ, addr := a + size * e.2, body := e.1 }
    (r'.1, r.2 && r'.2)) (s, true)

/-- Bytes that a job writes at an address of its own form. -/
def State.jobWrite (s : State) (j : Nat) (herd : Bool) (a : Nat) (bs : Bytes) : Got State :=
  match s.job? j with
  | none => .ok s
  | some job =>
    if bs.isEmpty then .ok s
    else
      match s.resolve herd a with
      | none => .fail 0x40 a
      | some (some n, l) =>
        if !s.fabric.members.contains n || !engineMapped l bs.length then .fail 0x40 a
        else
          let r := s.sendWrites (.jobWrite j) n l bs
          if r.2 then .ok r.1 else .fail 0xB9 a
      | some (none, l) =>
        if !engineMapped l bs.length then .fail 0x40 (s.herdForm (firstUnmapped l))
        else if spaceOf l = .host then .ok (s.jobHostWrite j job l bs)
        else if s.tierDown l then .fail 0x46 (s.herdForm l)
        else if s.heldIn l bs.length then .need .held l bs.length
        else .ok (s.storeBytes l bs)

/-- Writes in order. -/
def State.jobWrites (s : State) (j : Nat) (herd : Bool) (ws : List (Nat × Bytes)) : Got State :=
  ws.foldl (fun g w => g.bind fun s => s.jobWrite j herd w.1 w.2) (.ok s)

/-- Whether an address of a job lies in a host window, so that its bytes count as host-bound. -/
def State.hostBound (s : State) (herd : Bool) (a : Nat) : Bool :=
  match s.resolve herd a with
  | some (_, l) => spaceOf l == .host
  | none => false

/-- Bytes written to a host-bound output, as DETAIL counts them (Table 08-5). -/
def State.countHost (s : State) (j : Nat) (herd : Bool) (a n : Nat) : State :=
  if s.hostBound herd a then s.updJob j fun x => { x with hostBytes := x.hostBytes + n } else s

/-- Requests of a job to other nodes that are not answered. -/
def State.jobRequests (s : State) (j : Nat) : Nat :=
  (s.fabric.reqs.filter (fun e => e.2.why == .jobWrite j)).length + (s.fabric.waitReqs.filter (fun w => w.why == .jobWrite j)).length

/-! Ready words (R375, R452). -/

/-- A ready word released: written, or held for the twin's cut. -/
def State.readyWord (s : State) (j page : Nat) (herd : Bool) (a : Nat) (bs : Bytes) : Got State :=
  match s.cutTag TWIN.HOLD_READY with
  | none => (s.jobWrite j herd a bs).bind fun s1 => .ok (s1.count (CRATE.BATCHES.on page) 1)
  | some c =>
    let goal := (s.resolve herd a).getD (none, a)
    let job := (s.job? j).getD default
    let h : HeldWriteOut := {
      cut := c, fn := job.fn, addr := goal.2, bytes := bs, bell := false, node := goal.1, job := j, ring := job.ring, tag := job.tag,
      no := s.twin.nextOut }
    .ok ((s.modTwin fun t => { t with outs := t.outs ++ [h], nextOut := t.nextOut + 1 }).count (CRATE.BATCHES.on page) 1)

/-- Ready words that wait until what the job wrote to other nodes is visible, released once it is. -/
def State.readyWords (s : State) (j : Nat) : State :=
  match s.job? j with
  | none => s
  | some job =>
    if s.jobRequests j ≠ 0 ∨ job.status ≠ 0 then s
    else
      let s0 := s.updJob j fun x => { x with ready := [] }
      job.ready.foldl (fun s w =>
        -- one that waits for the host holds back those after it
        if (s.job? j).any (fun x => !x.ready.isEmpty) then s.updJob j fun x => { x with ready := x.ready ++ [w] }
        else if w.bytes.isEmpty then s.count (CRATE.BATCHES.on w.page) 1
        else
          match s.readyWord j w.page w.herd w.addr w.bytes with
          | .ok s1 => s1
          | .need _ a l => (s.updJob j fun x => { x with ready := x.ready ++ [w] }).snoopFor (.job j) a l
          | .fail .. => s) s0

end Sys2Proof.Machine
end

