-- ==== Sys2Proof/Machine/Float.lean ====
section
/-! DEFINITION. IEEE 754 arithmetic, exact in rationals and rounded once to nearest, ties to even (R353 to R356, R366). -/

namespace Sys2Proof.Machine

/-- A float value: NaN, an infinity, or ±m × 2^e. -/
inductive Fp where
  | nan
  | inf (neg : Bool)
  | fin (neg : Bool) (m : Nat) (e : Int)
  deriving DecidableEq, Repr

/-- The type code of FLOAT64. -/
def f64 : Nat := 0x0C

/-- The exponent of the least subnormal of a float type. -/
def fltLow (ty : Nat) : Int := 2 - (2 ^ (fltExp ty - 1) : Nat) - fltMan ty

/-- The value of an encoding. -/
def fpOf (ty bits : Nat) : Fp :=
  let mag := fltMag ty bits
  let ex := mag / 2 ^ fltMan ty
  let fr := mag % 2 ^ fltMan ty
  if fltNan ty bits then .nan
  else if fltInf ty bits then .inf (fltSign ty bits)
  else if ex = 0 then .fin (fltSign ty bits) fr (fltLow ty)
  else .fin (fltSign ty bits) (fr + 2 ^ fltMan ty) (fltLow ty + (ex - 1 : Nat))

/-- Numerator and denominator of m × 2^e. -/
def ratOf (m : Nat) (e : Int) : Nat × Nat := if 0 ≤ e then (m * 2 ^ e.toNat, 1) else (m, 2 ^ (-e).toNat)

/-- The sign bit of a float type. -/
def signBit (ty : Nat) (neg : Bool) : Nat := if neg then 2 ^ (fltExp ty + fltMan ty) else 0

def infOf (ty : Nat) (neg : Bool) : Nat := signBit ty neg + fltInfMag ty

/-- The greatest k with 2^k ≤ n/d, for n and d not 0. -/
def ratLog (n d : Nat) : Int :=
  let k : Int := (Nat.log2 n : Int) - Nat.log2 d
  if (if 0 ≤ k then decide (d * 2 ^ k.toNat ≤ n) else decide (d ≤ n * 2 ^ (-k).toNat)) then k else k - 1

/-- A quotient rounded to the nearest integer, ties to even. -/
def roundDiv (n d : Nat) : Nat :=
  let q := n / d
  let r := n % d
  if d < 2 * r ∨ (2 * r = d ∧ q % 2 = 1) then q + 1 else q

/-- The encoding nearest to ±n/d, ties to even. -/
def roundRat (ty : Nat) (neg : Bool) (n d : Nat) : Nat :=
  if n = 0 then signBit ty neg
  else
    let q := max (ratLog n d - fltMan ty) (fltLow ty)
    let r := if 0 ≤ q then roundDiv n (d * 2 ^ q.toNat) else roundDiv (n * 2 ^ (-q).toNat) d
    signBit ty neg + min (fltInfMag ty) ((q - fltLow ty).toNat * 2 ^ fltMan ty + r)

/-- The encoding of a value in a type. -/
def fpEnc (ty : Nat) : Fp → Nat
  | .nan => fltQuiet ty
  | .inf neg => infOf ty neg
  | .fin neg m e => let r := ratOf m e; roundRat ty neg r.1 r.2

/-- The encoding nearest to an integer. -/
def fpInt (ty : Nat) (i : Int) : Nat := roundRat ty (decide (i < 0)) i.natAbs 1

def fpNeg : Fp → Fp
  | .nan => .nan
  | .inf n => .inf (!n)
  | .fin n m e => .fin (!n) m e

/-- The signed mantissa of a finite value at exponent `e0`, at or below its own. -/
def atExp (neg : Bool) (m : Nat) (e e0 : Int) : Int :=
  let v : Int := (m * 2 ^ (e - e0).toNat : Nat)
  if neg then -v else v

/-- The exact sum of two values; a sum of exact zero takes the sign that rounding to nearest gives. -/
def fpAdd : Fp → Fp → Fp
  | .nan, _ => .nan
  | _, .nan => .nan
  | .inf a, .inf b => if a = b then .inf a else .nan
  | .inf a, _ => .inf a
  | _, .inf b => .inf b
  | .fin a m e, .fin b n f =>
    let e0 := min e f
    let v := atExp a m e e0 + atExp b n f e0
    if v = 0 then .fin (a && b) 0 e0 else .fin (decide (v < 0)) v.natAbs e0

/-- The exact product. -/
def fpMul : Fp → Fp → Fp
  | .nan, _ => .nan
  | _, .nan => .nan
  | .inf a, .inf b => .inf (a != b)
  | .inf a, .fin b n _ => if n = 0 then .nan else .inf (a != b)
  | .fin a m _, .inf b => if m = 0 then .nan else .inf (a != b)
  | .fin a m e, .fin b n f => .fin (a != b) (m * n) (e + f)

def addF (a b : Nat) : Nat := fpEnc f64 (fpAdd (fpOf f64 a) (fpOf f64 b))
def subF (a b : Nat) : Nat := fpEnc f64 (fpAdd (fpOf f64 a) (fpNeg (fpOf f64 b)))
def mulF (a b : Nat) : Nat := fpEnc f64 (fpMul (fpOf f64 a) (fpOf f64 b))
/-- a × b + c, rounded once. -/
def fmaF (a b c : Nat) : Nat := fpEnc f64 (fpAdd (fpMul (fpOf f64 a) (fpOf f64 b)) (fpOf f64 c))

/-- The quotient, rounded once. -/
def divF (a b : Nat) : Nat :=
  match fpOf f64 a, fpOf f64 b with
  | .nan, _ => fltQuiet f64
  | _, .nan => fltQuiet f64
  | .inf _, .inf _ => fltQuiet f64
  | .inf x, .fin y _ _ => infOf f64 (x != y)
  | .fin x _ _, .inf y => signBit f64 (x != y)
  | .fin x m e, .fin y n f =>
    if n = 0 then (if m = 0 then fltQuiet f64 else infOf f64 (x != y))
    else
      let r := ratOf m (e - f)
      roundRat f64 (x != y) r.1 (r.2 * n)

/-- The integer square root, bit by bit from bit `n - 1` down. -/
def isqrt (v : Nat) : Nat → Nat → Nat
  | 0, r => r
  | n + 1, r => let c := r + 2 ^ n; isqrt v n (if c * c ≤ v then c else r)

/-- The square root, rounded once. -/
def sqrtF (a : Nat) : Nat :=
  match fpOf f64 a with
  | .nan => fltQuiet f64
  | .inf neg => if neg then fltQuiet f64 else infOf f64 false
  | .fin neg m e =>
    if m = 0 then signBit f64 neg
    else if neg then fltQuiet f64
    else
      -- m × 2^e with an even exponent and at least 128 bits of mantissa
      let k : Nat := 128 + (if (e % 2 = 0) then 0 else 1)
      let v := m * 2 ^ k
      let r := isqrt v (Nat.log2 v / 2 + 1) 0
      let odd := 2 * r + (if r * r = v then 0 else 1)
      let x := ratOf odd ((e - k) / 2 - 1)
      roundRat f64 false x.1 x.2

/-- 2 × atanh(n/d) × 2^p, by its series, over `fuel` terms. -/
def atanhSum (p : Nat) (n d : Nat) : Nat → Nat
  | 0 => 0
  | k + 1 => atanhSum p n d k + 2 * n ^ (2 * k + 1) * 2 ^ p / (d ^ (2 * k + 1) * (2 * k + 1))

/-- ln(n/d) × 2^p for n ≥ d, to within a few units. -/
def lnFix (p n d : Nat) : Nat :=
  let k := (ratLog n d).toNat
  let d' := d * 2 ^ k
  -- n / d' lies in [1, 2)
  let z := (n - d') * 2 ^ (p + 8) / (n + d')
  k * atanhSum p 1 3 (p / 3 + 2) + atanhSum p z (2 ^ (p + 8)) (p / 3 + 2)

/-- The natural logarithm of n/d, rounded to FLOAT64: 300 bits beyond the result's leading bit decide the rounding. -/
def lnRat (n d : Nat) : Nat :=
  if n = d then 0
  else
    let a := max n d
    let b := min n d
    -- ln(1 + x) ≥ x / 2 for x below 1
    let p := 300 + (if a - b < b then (-(ratLog (a - b) b)).toNat else 0)
    roundRat f64 (decide (n < d)) (2 * lnFix p a b + 1) (2 ^ (p + 1))

/-- log, rounded to nearest. -/
def logF (a : Nat) : Nat :=
  match fpOf f64 a with
  | .nan => fltQuiet f64
  | .inf neg => if neg then fltQuiet f64 else infOf f64 false
  | .fin neg m e => if m = 0 then infOf f64 true else if neg then fltQuiet f64 else let r := ratOf m e; lnRat r.1 r.2

/-- log1p, rounded to nearest. -/
def log1pF (a : Nat) : Nat :=
  match fpOf f64 a with
  | .nan => fltQuiet f64
  | .inf neg => if neg then fltQuiet f64 else infOf f64 false
  | .fin neg m e =>
    if m = 0 then signBit f64 neg
    else
      let r := ratOf m e
      if neg then (if r.1 = r.2 then infOf f64 true else if r.2 < r.1 then fltQuiet f64 else lnRat (r.2 - r.1) r.2)
      else lnRat (r.2 + r.1) r.2

/-- 2^e exactly or rounded, as ldexp(1.0, e). -/
def ldexp1 (e : Int) : Nat := let r := ratOf 1 e; roundRat f64 false r.1 r.2

/-- The nearest integer of a finite value, ties to even. -/
def fpRoundInt : Fp → Int
  | .fin neg m e => let r := ratOf m e; let q : Int := roundDiv r.1 r.2; if neg then -q else q
  | _ => 0

/-- The order number of a FLOAT64 under R295. -/
def ordF (a : Nat) : Int := orderKey f64 a
def isNanF (a : Nat) : Bool := fltNan f64 a
def ltF (a b : Nat) : Bool := !isNanF a && !isNanF b && decide (ordF a < ordF b)

/-- A numeric value as FLOAT64: floats exactly, integers exactly where representable and else rounded (Table 17-5). -/
def toF64 (ty v : Nat) : Nat :=
  if tyFloat ty then fpEnc f64 (fpOf ty v)
  else if tySigned ty then fpInt f64 (toSigned (8 * tyWidth ty) v) else fpInt f64 v

end Sys2Proof.Machine
end

