-- ==== Sys2Proof/Machine/Separator.lean ====
section
/-! DEFINITION. The Separator and the Hash unit (R292 to R310). -/

namespace Sys2Proof.Machine

open Sys2Proof.Reg

/-! The parameter block (Table 14-3). -/

def hpTerms (b : Bytes) : Nat := byteAt b 0
def hpNkey (b : Bytes) : Nat := byteAt b 1
def hpN (b : Bytes) : Nat := leAt b 4 4
def hpSeed (b : Bytes) : Nat := leAt b 8 8
def hpLo (b : Bytes) : Nat := leAt b 16 4
def hpHi (b : Bytes) : Nat := leAt b 20 4
def hpRate (b : Bytes) : Nat := leAt b 16 8
def hpKey (b : Bytes) (j : Nat) : Nat := leAt b (32 + 2 * j) 2
def hpKeys (b : Bytes) : List Nat := (List.range (hpNkey b)).map (hpKey b)

/-- A term (R294). -/
structure Term where
  opc : Nat
  flags : Nat
  col : Nat
  aux : Nat
  value : Nat
  deriving DecidableEq, Repr

def termAt (b : Bytes) (t : Nat) : Term :=
  let o := 64 + 16 * t
  ⟨byteAt b o, byteAt b (o + 1), leAt b (o + 2) 2, leAt b (o + 4) 4, leAt b (o + 8) 8⟩

def isCompare (opc : Nat) : Bool := decide (1 ≤ opc) && decide (opc ≤ 6)

/-- Values a term pops (Table 14-4); each pushes one. -/
def termPops (opc : Nat) : Nat := if opc = 0x10 ∨ opc = 0x11 then 2 else if opc = 0x12 ∨ opc = 0x13 then 1 else 0

/-- Whether an operation code is one of Table 14-4. -/
def termKnown (opc : Nat) : Bool :=
  (decide (1 ≤ opc) && decide (opc ≤ 9)) || (decide (0x10 ≤ opc) && decide (opc ≤ 0x14))

/-! Validation (R292, R293, R297, R299). -/

/-- Bit-wise subset. -/
def subMask (a b : Nat) : Bool := a &&& b == a

/-- Flaws of one term, at its place in the parameter block. -/
def termFlaws (s : State) (p : Plan) (binds : List Bind) (cols : List (List SchEntry)) (b : Bytes) (t : Nat) : List Flaw :=
  let o := 64 + 16 * t
  let x := termAt b t
  let c := cols.getD x.col []
  let ty := colTy c
  let bad (ok : Bool) (off : Nat) : List Flaw := parFlaw ok (o + off) 0x88
  if !termKnown x.opc then bad false 0
  else
    bad (decide (x.flags = 0) || (decide (x.flags = 1) && isCompare x.opc)) 1 ++
    (if decide (x.opc ≤ 9) then bad (decide (x.col < cols.length)) 2 else []) ++
    (if isCompare x.opc ∨ x.opc = 9 then bad (!tyList (headTy c)) 2 else []) ++
    (if isCompare x.opc then
      if x.flags % 2 = 1 then
        let d := cols.getD x.aux []
        bad (decide (x.aux < cols.length) && sameCol c d) 4
      else if tyStr ty then
        bad (decide (x.aux ≤ 65535)) 4 ++ bad (decide (x.value % 2 ^ 32 + x.aux ≤ p.params.length)) 8
      else bad (decide (x.value < 2 ^ tyBits ty)) 8
    else []) ++
    (if x.opc = 0x14 then bad (decide (x.value ≤ 2)) 8 else []) ++
    (if x.opc = 9 then
      let slot := x.value % 65536
      let ok := decide (slot < p.decls.length) && (p.decls.getD slot default).kind == 7
      bad ok 8 ++ (if ok then bad (subMask x.aux (binds.getD slot default).aux) 4 else []) ++
      parFlaw ((bitsSet x.aux 32).all fun k => s.bankUnits k == keyUnits ty) (o + 4) 0x89
    else [])

/-- The first term that finds too few values on the stack, and the depth at the end. -/
def stackRun (b : Bytes) : Nat → Nat → Nat → Option Nat × Nat
  | 0, _, depth => (none, depth)
  | n + 1, t, depth =>
    let pops := termPops (termAt b t).opc
    if depth < pops then (some t, depth) else stackRun b n (t + 1) (depth + 1 - pops)

/-- Flaws of the key columns of a block: known, not lists; unused entries zero. -/
def keyFlaws (cols : List (List SchEntry)) (b : Bytes) (nkey : Nat) : List Flaw :=
  (List.range 8).flatMap fun j =>
    if j < nkey then parFlaw (decide (hpKey b j < cols.length) && !tyList (headTy (cols.getD (hpKey b j) []))) (32 + 2 * j) 0x6E
    else parFlaw (decide (hpKey b j = 0)) (32 + 2 * j) 0x6E

/-- Flaws that the common header of a Separator or Hash block can have: which fields the operator uses is said by their
bounds, an unused one being bounded by 0. -/
def headFlaws (b : Bytes) (st : Stage) (terms nkLo nkHi nLo nHi : Nat) (seed : Bool) : List Flaw :=
  parFlaw (if terms = 0 then decide (hpTerms b = 0) else decide (1 ≤ hpTerms b) && decide (hpTerms b ≤ 64)) 0 0x6E ++
  parFlaw (decide (nkLo ≤ hpNkey b) && decide (hpNkey b ≤ nkHi)) 1 0x6E ++ parFlaw (zeroFrom b 2 4) 2 0x6E ++
  parFlaw (decide (nLo ≤ hpN b) && decide (hpN b ≤ nHi)) 4 0x6E ++ parFlaw (seed || decide (hpSeed b = 0)) 8 0x6E ++
  parFlaw (zeroFrom b 24 32) 24 0x6E ++ parFlaw (zeroFrom b 48 64) 48 0x6E ++
  recFlaw (decide (st.pLen = 64 + 16 * hpTerms b)) 12 0x6E

/-- What is wrong with a Separator stage. -/
def checkSeparator (s : State) (p : Plan) (binds : List Bind) (i : Nat) : List Flaw :=
  let st := p.stage i
  let b := p.block st
  let cols := p.inCols i 0
  let noRange := parFlaw (decide (hpRate b = 0)) 16 0x6E
  let keep := outFlaw (p.isCols (st.out_ 0) && sameCols (p.outCols i 0) cols) 0
  recFlaw (decide (1 ≤ st.op) && decide (st.op ≤ 5)) 1 0x6E ++ inFlaw (p.isCols (st.in_ 0)) 0 ++
  restNone st 1 (if st.op = 3 then 2 else 1) ++
  (match st.op with
  | 1 | 2 =>
    let run := stackRun b (hpTerms b) 0 0
    headFlaws b st 1 0 0 0 0 false ++ noRange ++ keyFlaws cols b 0 ++
    (if st.op = 1 then keep else outFlaw (p.isCols (st.out_ 0) && oneCol (p.outCols i 0) 0x0D) 0) ++
    ((List.range (hpTerms b)).flatMap (termFlaws s p binds cols b)) ++
    (match run.1 with
    | some t => parFlaw false (64 + 16 * t) 0x88
    | none => parFlaw (decide (run.2 = 1)) 0 0x88)
  | 3 => recFlaw (bitAt st.flags 0) 2 0x6E ++ headFlaws b st 0 1 8 1 4096 true ++ noRange ++ keyFlaws cols b (hpNkey b) ++ keep ++
      outFlaw (p.isCols (st.out_ 1) && oneCol (p.outCols i 1) 0x08) 1
  | 4 => headFlaws b st 0 1 8 1 0xFFFFFFFF true ++ parFlaw (decide (hpLo b < hpHi b)) 16 0x6E ++
      parFlaw (decide (hpHi b ≤ hpN b)) 20 0x6E ++ keyFlaws cols b (hpNkey b) ++ keep
  | 5 => headFlaws b st 0 0 8 0 0 true ++ keyFlaws cols b (hpNkey b) ++ keep
  | _ => [])

/-! Programs (R294 to R296). A truth value is `none` where it is UNKNOWN. -/

def andT : Option Bool → Option Bool → Option Bool
  | some false, _ => some false
  | _, some false => some false
  | some true, some true => some true
  | _, _ => none

def orT : Option Bool → Option Bool → Option Bool
  | some true, _ => some true
  | _, some true => some true
  | some false, some false => some false
  | _, _ => none

/-- The result of a comparison of two non-null values. -/
def compareOp (opc ty : Nat) (a b : Val) : Bool :=
  match opc with
  | 1 => valEq ty a b
  | 2 => !valEq ty a b
  | 3 => valLt ty a b
  | 4 => valLt ty a b || valEq ty a b
  | 5 => valLt ty b a
  | _ => valLt ty b a || valEq ty a b

/-- A program's stack and the searches it has made. -/
structure Prog where
  stack : List (Option Bool) := []
  searches : Nat := 0
  deriving DecidableEq, Repr

/-- One term on one row. -/
def termStep (s : State) (p : Plan) (tys : List Nat) (row : List Val) (g : Prog) (x : Term) : Prog :=
  let v := row.getD x.col .null
  let ty := tys.getD x.col 0
  let push (b : Option Bool) : Prog := { g with stack := b :: g.stack }
  if isCompare x.opc then
    let w : Val :=
      if x.flags % 2 = 1 then row.getD x.aux .null
      else if tyStr ty then .str (sub p.params (x.value % 2 ^ 32) x.aux) else .num x.value
    push (if v = .null ∨ w = .null then none else some (compareOp x.opc ty v w))
  else
    match x.opc, g.stack with
    | 7, _ => push (some (v == .null))
    | 8, _ => push (some (v != .null))
    | 9, _ =>
      if v = .null then push none
      else { stack := some (s.searchBanks x.aux (valKey ty v)).isSome :: g.stack, searches := g.searches + 1 }
    | 0x10, a :: b :: r => { g with stack := andT a b :: r }
    | 0x11, a :: b :: r => { g with stack := orT a b :: r }
    | 0x12, a :: r => { g with stack := a.map (!·) :: r }
    | 0x13, a :: r => { g with stack := some (a == some true) :: r }
    | _, _ => push (if x.value = 0 then some false else if x.value = 1 then some true else none)

/-- A program's result for a row. -/
def progRun (s : State) (p : Plan) (tys : List Nat) (terms : List Term) (row : List Val) : Option Bool × Nat :=
  let g := terms.foldl (termStep s p tys row) {}
  (g.stack.headD none, g.searches)

/-! Keys of rows. -/

/-- The keys of a row with their types. -/
def rowKeys (tys : List Nat) (keys : List Nat) (row : List Val) : List (Nat × Val) :=
  keys.map fun k => (tys.getD k 0, row.getD k .null)

/-- A row's key hash under a block; SAMPLE without keys hashes the row's position (R300). -/
def rowHash (tys : List Nat) (b : Bytes) (pos : Nat) (row : List Val) : Nat :=
  if hpNkey b = 0 then om64 (leBytes 8 pos) (hpSeed b) else keyhash (rowKeys tys (hpKeys b) row) (hpSeed b)

/-! The slices of a Separator stage (R292, R296 to R300). -/

/-- The banks that a program searches with the key width each wants, and why a slice cannot search them: a bank out of
service, or a bank of another width. -/
def bankTrouble (s : State) (tys : List Nat) (terms : List Term) : Option Nat :=
  terms.findSome? fun x =>
    if x.opc = 9 then
      if (bitsSet x.aux 32).any s.bankOos then some 0x90
      else if (bitsSet x.aux 32).all (fun k => s.bankUnits k == keyUnits (tys.getD x.col 0)) then none else some 0x89
    else none

/-- Rows sorted by partition, stable, and the running counts. -/
def partitioned (n : Nat) (tys : List Nat) (b : Bytes) (rows : List (List Val)) : List (List Val) × List Nat :=
  let tagged := rows.map fun r => (reduce (rowHash tys b 0 r) n, r)
  let sorted := (List.range n).flatMap fun q => (tagged.filter (fun e => e.1 == q)).map (·.2)
  (sorted, (List.range (n + 1)).map fun q => (tagged.filter (fun e => decide (e.1 < q))).length)

/-- Counts of a Separator page. -/
def sepCount (s : State) (page rows kept unknown searches : Nat) : State :=
  (((s.count (SEPARATOR.ROWS_IN.on page) rows).count (SEPARATOR.ROWS_KEPT.on page) kept).count
    (SEPARATOR.ROWS_UNKNOWN.on page) unknown).count (SEPARATOR.SEARCHES.on page) searches

/-- A slice of FILTER or MASK. -/
def runProgram (s : State) (c : Ctx) : Ran :=
  let b := c.block
  let terms := (List.range (hpTerms b)).map (termAt b)
  let tys := c.inTys 0
  match bankTrouble s tys terms with
  | some 0x89 => .failed (s.raiseOwn c.page 16) 0x89 0
  | some st => .failed s st 0
  | none =>
    let res (row : List Val) : Option Bool × Nat := progRun s c.plan tys terms row
    match s.job? c.job with
    | none => .done s true
    | some job =>
      let e := job.engOf c.stage
      let n := min c.count ((inputLen job (c.in_ 0)).1 - e.consumed)
      Ran.with s (s.inputRows job c 0 e.consumed n) fun rows =>
        let rs := rows.map res
        let searches := rs.foldl (fun m r => m + r.2) 0
        let unknown := (rs.filter (fun r => r.1 == none)).length
        let kept := (List.zip rows rs).filterMap fun x => if x.2.1 = some true then some x.1 else none
        let out := if c.st.op = 1 then kept
          else rs.map fun r => [match r.1 with | some t => Val.num (ofBool t) | none => Val.null]
        let banks := terms.foldl (fun m x => if x.opc = 9 then m ||| x.aux else m) 0
        let s1 := (sepCount s c.page n (if c.st.op = 1 then kept.length else n) unknown searches).countSearches banks searches
        Ran.with s1 (s1.appendOut c 0 out) fun s2 =>
          let av := inputLen job (c.in_ 0)
          .done (s2.setEng c.job c.stage { e with consumed := e.consumed + n }) (!av.2 && decide (av.1 ≤ e.consumed + n))

/-- A slice of PARTITION: the first pass counts, the second places (R299). -/
def runPartition (s : State) (c : Ctx) : Ran :=
  match s.job? c.job with
  | none => .done s true
  | some job =>
    let e := job.engOf c.stage
    let av := inputLen job (c.in_ 0)
    let n := min c.count (av.1 - e.consumed)
    let last := !av.2 && decide (av.1 ≤ e.consumed + n)
    Ran.with s (s.inputRows job c 0 e.consumed n) fun rows =>
      if e.phase = 0 then
        let e' := if last then { e with phase := 1, consumed := 0 } else { e with consumed := e.consumed + n }
        .done ((sepCount s c.page n 0 0 0).setEng c.job c.stage e') false
      else
        let e' := { e with consumed := e.consumed + n, rows := e.rows ++ rows }
        let s1 := s.setEng c.job c.stage e'
        if last then
          let r := partitioned (hpN c.block) (c.inTys 0) c.block e'.rows
          let s2 := sepCount s1 c.page 0 r.1.length 0 0
          Ran.with s2 (s2.appendOuts c [(0, r.1), (1, r.2.map fun v => [Val.num v])]) fun s3 => .done s3 true
        else .done s1 false

/-- A slice of BUCKET or SAMPLE. -/
def runKeep (s : State) (c : Ctx) : Ran :=
  let b := c.block
  let tys := c.inTys 0
  let keep (pos : Nat) (row : List Val) : Bool :=
    let h := rowHash tys b pos row
    if c.st.op = 4 then decide (hpLo b ≤ reduce h (hpN b)) && decide (reduce h (hpN b) < hpHi b) else decide (h < hpRate b)
  match s.job? c.job with
  | none => .done s true
  | some job =>
    let e := job.engOf c.stage
    let n := min c.count ((inputLen job (c.in_ 0)).1 - e.consumed)
    Ran.with s (s.inputRows job c 0 e.consumed n) fun rows =>
      let kept := (rows.zipIdx.filter fun x => keep (e.consumed + x.2) x.1).map (·.1)
      let s1 := sepCount s c.page n kept.length 0 0
      Ran.with s1 (s1.appendOut c 0 kept) fun s2 =>
        let av := inputLen job (c.in_ 0)
        .done (s2.setEng c.job c.stage { e with consumed := e.consumed + n }) (!av.2 && decide (av.1 ≤ e.consumed + n))

def runSeparator (s : State) (c : Ctx) : Ran :=
  if c.st.op ≤ 2 then runProgram s c else if c.st.op = 3 then runPartition s c else runKeep s c

/-! The Hash unit (R305, R306). -/

/-- What is wrong with a Hash unit stage. -/
def checkHash (p : Plan) (i : Nat) : List Flaw :=
  let st := p.stage i
  let b := p.block st
  let cols := p.inCols i 0
  let noRange := parFlaw (decide (hpRate b = 0)) 16 0x6E
  let ty := if st.op = 1 then 0x08 else 0x07
  recFlaw (decide (1 ≤ st.op) && decide (st.op ≤ 5)) 1 0x6E ++ inFlaw (p.isCols (st.in_ 0)) 0 ++
  restNone st 1 (if st.op = 4 then 2 else 1) ++ outFlaw (p.isCols (st.out_ 0) && oneCol (p.outCols i 0) ty) 0 ++ noRange ++
  keyFlaws cols b (hpNkey b) ++
  (match st.op with
  | 1 => headFlaws b st 0 1 8 0 0 true
  | 2 => headFlaws b st 0 1 1 0 0 false
  | 5 => headFlaws b st 0 2 8 1 0xFFFFFFFF true
  | _ => headFlaws b st 0 1 8 1 0xFFFFFFFF true) ++
  (if st.op = 4 then outFlaw (!(st.out_ 1).given || (p.isCols (st.out_ 1) && oneCol (p.outCols i 1) 0x01)) 1 else [])

/-- The key bytes of a row. -/
def keyBytes (ks : List (Nat × Val)) : Nat := ks.foldl (fun n k => n + (valBytes k.1 k.2).length) 0

/-- The outputs of a row: the value, the sign of FEATHASH. -/
def hashRow (op : Nat) (b : Bytes) (ks : List (Nat × Val)) : Val × Val :=
  let h := keyhash ks (hpSeed b)
  match op with
  | 1 => (.num h, .null)
  | 2 =>
    match ks with
    | (ty, v) :: _ => (if v = .null then .null else .num (crc32c (valBytes ty v)), .null)
    | [] => (.null, .null)
  | 5 => (if ks.any (fun k => k.2 == .null) then .null else .num (reduce h (hpN b)), .null)
  | _ => (.num (reduce h (hpN b)), .num (if h % 2 = 0 then 1 else 0xFF))

def runHash (s : State) (c : Ctx) : Ran :=
  let b := c.block
  let tys := c.inTys 0
  match s.job? c.job with
  | none => .done s true
  | some job =>
    let e := job.engOf c.stage
    let n := min c.count ((inputLen job (c.in_ 0)).1 - e.consumed)
    Ran.with s (s.inputRows job c 0 e.consumed n) fun rows =>
      let ks := rows.map (rowKeys tys (hpKeys b))
      let rs := ks.map (hashRow c.st.op b)
      let s1 := (s.count (HASH.ROWS_HASHED.on c.page) n).count (HASH.BYTES_HASHED.on c.page) (ks.foldl (fun m k => m + keyBytes k) 0)
      Ran.with s1 (s1.appendOuts c ([(0, rs.map fun r => [r.1])] ++ if c.st.op = 4 then [(1, rs.map fun r => [r.2])] else [])) fun s2 =>
        let av := inputLen job (c.in_ 0)
        .done (s2.setEng c.job c.stage { e with consumed := e.consumed + n }) (!av.2 && decide (av.1 ≤ e.consumed + n))

end Sys2Proof.Machine
end

