-- ==== Sys2Proof/Machine/StrainerStage.lean ====
section
/-! DEFINITION. The Strainer stage: SEARCH and LOAD (R320 to R324). -/

namespace Sys2Proof.Machine

open Sys2Proof.Reg

def spKey (b : Bytes) : Nat := leAt b 0 2
def spBanks (b : Bytes) : Nat := leAt b 4 4

/-- Units of a column's key in SEARCH, or 0 where it has none (R321). -/
def searchUnits (c : List SchEntry) : Nat :=
  if headTy c = 0x17 then
    let n := (c.headD default).listSize
    let k := headTy (c.drop 1)
    if (k = 0x04 ∨ k = 0x08) ∧ (n = 1 ∨ n = 2 ∨ n = 4) then n else 0
  else if tyList (headTy c) then 0
  else keyUnits (colTy c)

/-- The key of a value of SEARCH, or none for a null key. -/
def searchKey (c : List SchEntry) (v : Val) : Option (List Nat) :=
  if headTy c = 0x17 then
    if v = .null then none
    else
      let xs := unchain v
      if xs.any (fun x => x == .null) then none else some (xs.map fun x => match x with | .num n => n | _ => 0)
  else if v = .null then none
  else some (valKey (colTy c) v)

/-- What is wrong with a Strainer stage. -/
def checkStrainer (s : State) (p : Plan) (binds : List Bind) (i : Nat) : List Flaw :=
  let st := p.stage i
  let b := p.block st
  let cols := p.inCols i 0
  let ok1 := p.isBind 7 (st.in_ 1)
  recFlaw (st.op == 1 || st.op == 2) 1 0x6E ++ recFlaw (decide (st.pLen = 16)) 12 0x6E ++ inFlaw ok1 1 ++
  parFlaw (zeroFrom b 2 4) 2 0x6E ++ parFlaw (zeroFrom b 8 16) 8 0x6E ++
  parFlaw (decide (spBanks b ≠ 0) && (!ok1 || subMask (spBanks b) (binds.getD (st.in_ 1).slot default).aux)) 4 0x6E ++
  (if st.op = 1 then
    let c := cols.getD (spKey b) []
    inFlaw (p.isCols (st.in_ 0)) 0 ++ restNone st 2 2 ++
    parFlaw (decide (spKey b < cols.length) && decide (searchUnits c ≠ 0)) 0 0x6E ++
    outFlaw (p.isCols (st.out_ 0) && oneCol (p.outCols i 0) 0x07) 0 ++
    outFlaw (!(st.out_ 1).given || (p.isCols (st.out_ 1) && oneCol (p.outCols i 1) 0x06)) 1 ++
    parFlaw ((bitsSet (spBanks b) 32).all fun k => s.bankUnits k == searchUnits c) 4 0x89
  else
    inFlaw (p.isBind 2 (st.in_ 0)) 0 ++
    bindFlaw (!p.isBind 2 (st.in_ 0) || decide ((binds.getD (st.in_ 0).slot default).len % 80 = 0)) (st.in_ 0).slot 16 0x6E ++ restNone st 2 0 ++
    parFlaw (decide (spKey b = 0)) 0 0x6E)

/-- A slice of SEARCH. -/
def runSearch (s : State) (c : Ctx) : Ran :=
  let b := c.block
  let banks := spBanks b
  let col := (c.inCols 0).getD (spKey b) []
  if (bitsSet banks 32).any s.bankOos then .failed s 0x90 0
  else if (bitsSet banks 32).any (fun k => s.bankUnits k != searchUnits col) then .failed s 0x89 0
  else
    match s.job? c.job with
    | none => .done s true
    | some job =>
      let e := job.engOf c.stage
      let n := min c.count ((inputLen job (c.in_ 0)).1 - e.consumed)
      Ran.with s (s.inputRows job c 0 e.consumed n) fun rows =>
        let ks := rows.map fun r => searchKey col (r.getD (spKey b) .null)
        let ms := ks.map fun k => k.bind (s.searchBanks banks)
        let s1 := s.countSearches banks (ks.filter (·.isSome)).length
        let addr (m : Option Match) : Val := match m with | some m => .num (matchAddr m) | none => .null
        let prio (m : Option Match) : Val := match m with | some m => .num m.1 | none => .null
        Ran.with s1 (s1.appendOuts c [(0, ms.map fun m => [addr m]), (1, ms.map fun m => [prio m])]) fun s2 =>
          let av := inputLen job (c.in_ 0)
          .done (s2.setEng c.job c.stage { e with consumed := e.consumed + n }) (!av.2 && decide (av.1 ≤ e.consumed + n))

/-- Whether a LOAD record passes the check pass (Table 15-4). -/
def loadRecordOk (s : State) (banks : Nat) (r : Bytes) : Bool :=
  let bank := byteAt r 2
  let units := byteAt r 6
  decide (bank < 32) && bitAt banks bank && decide (byteAt r 3 ≤ 1) && decide (units = s.bankUnits bank) &&
    decide (leAt r 0 2 < s.bankEntries bank) && zeroFrom r 7 16 && zeroFrom r (16 + 16 * units) 80

/-- The entry of a LOAD record. -/
def loadEntry (r : Bytes) : StrEntry :=
  ⟨bitAt (byteAt r 3) 0, leAt r 4 2, (List.range 4).map fun k => leAt r (16 + 16 * k) 8, (List.range 4).map fun k => leAt r (24 + 16 * k) 8⟩

/-- A slice of LOAD's check pass; after the last one the LOAD waits for its write pass (R323). -/
def runLoad (s : State) (c : Ctx) : Ran :=
  let banks := spBanks c.block
  if (bitsSet banks 32).any s.bankOos then .failed s 0x90 0
  else
    match s.job? c.job with
    | none => .done s true
    | some job =>
      let e := job.engOf c.stage
      let total := s.inputSize job c 0 / 80
      let n := min c.count (total - e.consumed)
      Ran.with s (s.inputBytes job c 0 (80 * e.consumed) (80 * n)) fun bs =>
        let recs := (List.range n).map fun k => sub bs (80 * k) 80
        match (recs.zipIdx.find? fun r => !loadRecordOk s banks r.1) with
        | some r => .failed s 0x91 (s.bindDetail job (job.bind (c.in_ 0).slot) (80 * (e.consumed + r.2)))
        | none =>
          let last := decide (total ≤ e.consumed + n)
          let e' := { e with
            consumed := if last then 0 else e.consumed + n, phase := if last then waiting else 0,
            texts := Table.put e.texts 0 (Table.findD e.texts 0 [] ++ bs) }
          let s1 := s.setEng c.job c.stage e'
          .done (if last then s1.modStrainer fun x => { x with loads := x.loads ++ [⟨c.job, c.stage, banks⟩] } else s1) false

/-- Writes of the next records of a LOAD's write pass, over `n` records; `true` when none is left. -/
def State.loadWrites (s : State) (recs : Bytes) (done : Nat) : Nat → State × Nat
  | 0 => (s, done)
  | n + 1 =>
    let r := s.loadWrites recs done n
    if r.2 < recs.length / 80 then
      let x := sub recs (80 * r.2) 80
      (r.1.strWrite (byteAt x 2) (leAt x 0 2) 0 (loadEntry x), r.2 + 1)
    else r

/-- The first LOAD that may write: no earlier one names a bank of its own (R323). -/
def State.loadTurn (s : State) (job stage : Nat) : Option StrLoad :=
  let before := s.strainer.loads.takeWhile (fun l => !(l.job == job && l.stage == stage))
  match s.strainer.loads.find? (fun l => l.job == job && l.stage == stage) with
  | none => none
  | some l => if before.any (fun x => x.banks &&& l.banks != 0) then none else some l

/-- A LOAD's write pass carried on over `n` records; its stage ends with the last. A bank taken out of service fails it
with the records already written left in place (R323, R326). -/
def State.loadPass (s : State) (job stage n : Nat) : State :=
  match s.loadTurn job stage, s.job? job with
  | some l, some jb =>
    let e := jb.engOf stage
    let recs := Table.findD e.texts 0 []
    let gone (s : State) : State := s.modStrainer fun x => { x with loads := x.loads.filter (fun y => !(y.job == job && y.stage == stage)) }
    if (bitsSet l.banks 32).any s.bankOos then ((gone s).failJob job 0x90 stage 0 0x0A0).dropQueued job
    else
      let r := s.loadWrites recs e.consumed n
      let s1 := r.1.setEng job stage { e with consumed := r.2 }
      if recs.length / 80 ≤ r.2 then ((gone s1).updJob job fun x => { x with ended := x.ended ++ [stage] }).placeSlices job else s1
  | _, _ => s

def runStrainer (s : State) (c : Ctx) : Ran := if c.st.op = 1 then runSearch s c else runLoad s c

end Sys2Proof.Machine
end

