-- ==== Sys2Proof/Machine/Press.lean ====
section
/-! DEFINITION. Press: joins, their placement and spill, the shuffle (R329 to R344, R421). -/

namespace Sys2Proof.Machine

open Sys2Proof.Reg

/-! The parameter block (Table 16-3). -/

def ppNkey (b : Bytes) : Nat := byteAt b 0
def ppShuffle (b : Bytes) : Bool := bitAt (byteAt b 1) 0
def ppLtime (b : Bytes) : Nat := leAt b 2 2
def ppRtime (b : Bytes) : Nat := leAt b 4 2
def ppSeed (b : Bytes) : Nat := leAt b 8 8
def ppLkey (b : Bytes) (j : Nat) : Nat := leAt b (16 + 2 * j) 2
def ppRkey (b : Bytes) (j : Nat) : Nat := leAt b (32 + 2 * j) 2
def ppTolerance (b : Bytes) : Nat := leAt b 48 8
def ppMax (b : Bytes) : Nat := leAt b 56 4
def ppNodesOff (b : Bytes) : Nat := leAt b 60 4
def ppNodesLen (b : Bytes) : Nat := leAt b 64 4

/-- The node set of a shuffled join (R338). -/
def nodeSet (params : Bytes) (off n : Nat) : List Nat := (List.range n).map fun k => leAt params (off + 2 * k) 2

def strictlyRising : List Nat → Bool
  | a :: b :: r => decide (a < b) && strictlyRising (b :: r)
  | _ => true

/-- The members that a node set may name. -/
def State.isMember (s : State) (n : Nat) : Bool := n == s.node.id || s.fabric.members.contains n

/-- Types a time column of ASOF may have (R333). -/
def timeTy (ty : Nat) : Bool := tyInt ty || ty == 0x0E || ty == 0x0F

/-- Two columns pair as keys: one type for comparison, no list (R331). -/
def keyPair (l r : List SchEntry) : Bool :=
  let v (c : List SchEntry) : SchEntry := if tyDict (headTy c) then (c.drop 1).headD default else c.headD default
  !tyList (headTy l) && !tyList (headTy r) && (v l).ty == (v r).ty && (v l).param == (v r).param

/-- What is wrong with a Press stage (R329 to R333, R338). -/
def checkPress (s : State) (p : Plan) (i : Nat) : List Flaw :=
  let st := p.stage i
  let b := p.block st
  let l := p.inCols i 0
  let r := p.inCols i 1
  let asof := st.op == 5
  let expand := decide (st.op = 1) || decide (st.op = 2)
  let wantOut := if st.op = 3 ∨ st.op = 4 then l else l ++ r
  let nulls := !(st.op == 2 || asof) || ((p.outCols i 0).drop l.length).all (fun c => c.all (·.nullable))
  let outOk := (match st.out_ 0 with | .vat _ => true | .bind .. => p.isBind 1 (st.out_ 0) | _ => false) &&
    sameCols (p.outCols i 0) wantOut && nulls
  let shuf := ppShuffle b
  let nodes := nodeSet p.params (ppNodesOff b) (ppNodesLen b)
  let isVat := match st.out_ 0 with | .vat _ => true | _ => false
  recFlaw (decide (1 ≤ st.op) && decide (st.op ≤ 5)) 1 0x6E ++ recFlaw (!shuf || !bitAt st.flags 0) 2 0x6E ++
  recFlaw (decide (st.pLen = 80)) 12 0x6E ++ inFlaw (p.isCols (st.in_ 0)) 0 ++ inFlaw (p.isCols (st.in_ 1)) 1 ++
  restNone st 2 1 ++ outFlaw (outOk && (!shuf || isVat)) 0 ++
  parFlaw (decide ((if asof then 0 else 1) ≤ ppNkey b) && decide (ppNkey b ≤ 8)) 0 0x6E ++ parFlaw (decide (byteAt b 1 ≤ 1)) 1 0x6E ++
  (if asof then
    parFlaw (decide (ppLtime b < l.length)) 2 0x6E ++ parFlaw (decide (ppRtime b < r.length)) 4 0x6E ++
    parFlaw (timeTy (headTy (l.getD (ppLtime b) [])) && keyPair (l.getD (ppLtime b) []) (r.getD (ppRtime b) [])) 2 0x99
  else parFlaw (decide (ppLtime b = 0)) 2 0x6E ++ parFlaw (decide (ppRtime b = 0)) 4 0x6E ++ parFlaw (decide (ppTolerance b = 0)) 48 0x6E) ++
  parFlaw (zeroFrom b 6 8) 6 0x6E ++
  ((List.range 8).flatMap fun j =>
    if j < ppNkey b then
      parFlaw (decide (ppLkey b j < l.length)) (16 + 2 * j) 0x6E ++ parFlaw (decide (ppRkey b j < r.length)) (32 + 2 * j) 0x6E ++
      parFlaw (keyPair (l.getD (ppLkey b j) []) (r.getD (ppRkey b j) [])) (16 + 2 * j) 0x99
    else parFlaw (decide (ppLkey b j = 0)) (16 + 2 * j) 0x6E ++ parFlaw (decide (ppRkey b j = 0)) (32 + 2 * j) 0x6E) ++
  parFlaw (expand || decide (ppMax b = 0)) 56 0x6E ++
  (if shuf then
    parFlaw (decide (1 ≤ ppNodesLen b) && decide (ppNodesLen b ≤ 65536)) 64 0x6E ++
    parFlaw (decide (ppNodesOff b + 2 * ppNodesLen b ≤ p.params.length)) 60 0x6E ++
    parFlaw (strictlyRising nodes && nodes.all s.isMember) 60 0x9A
  else parFlaw (decide (ppNodesOff b = 0)) 60 0x6E ++ parFlaw (decide (ppNodesLen b = 0)) 64 0x6E) ++
  parFlaw (zeroFrom b 68 80) 68 0x6E

/-! Matches (R331 to R333). -/

/-- A side's keys of a row. -/
def sideKeys (tys : List Nat) (keys : List Nat) (row : List Val) : List (Nat × Val) := rowKeys tys keys row

def probeKeys (b : Bytes) (tys : List Nat) (row : List Val) : List (Nat × Val) :=
  sideKeys tys ((List.range (ppNkey b)).map (ppLkey b)) row
def buildKeys (b : Bytes) (tys : List Nat) (row : List Val) : List (Nat × Val) :=
  sideKeys tys ((List.range (ppNkey b)).map (ppRkey b)) row

def anyNull (ks : List (Nat × Val)) : Bool := ks.any (fun k => k.2 == .null)

/-- Whether a probe row's keys match a build row's: none null, all equal (R331). -/
def keysMatch (ls rs : List (Nat × Val)) : Bool :=
  !anyNull ls && !anyNull rs && (List.zip ls rs).all fun e => valEq e.1.1 e.1.2 e.2.2

/-- The number of a time value. -/
def timeOf (ty : Nat) : Val → Option Int
  | .num n => some (orderKey ty n)
  | _ => none

/-- The build row that ASOF selects among matching ones: greatest time at or below the probe's within TOLERANCE, the
latest of equal ones (R333). -/
def asofPick (b : Bytes) (ty : Nat) (tl : Int) (rows : List (List Val)) : Option (List Val) :=
  (rows.foldl (fun (best : Option (Int × List Val)) r =>
    match timeOf ty (r.getD (ppRtime b) .null) with
    | none => best
    | some tr =>
      if tr ≤ tl ∧ (ppTolerance b = 0 ∨ tl - tr ≤ ppTolerance b) then
        match best with
        | none => some (tr, r)
        | some x => if x.1 ≤ tr then some (tr, r) else best
      else best) none).map (·.2)

/-- The output rows of a probe row over the build rows in build input order, or none where it matches too many. -/
def probeRow (op : Nat) (b : Bytes) (ltys rtys : List Nat) (build : List (List Val)) (row : List Val) : Option (List (List Val)) :=
  let ks := probeKeys b ltys row
  let ms := build.filter fun r => keysMatch ks (buildKeys b rtys r)
  let nulls := List.replicate rtys.length Val.null
  match op with
  | 1 => if ppMax b ≠ 0 ∧ ppMax b < ms.length then none else some (ms.map (row ++ ·))
  | 2 => if ppMax b ≠ 0 ∧ ppMax b < ms.length then none
      else some (if ms.isEmpty then [row ++ nulls] else ms.map (row ++ ·))
  | 3 => some (if ms.isEmpty then [] else [row])
  | 4 => some (if ms.isEmpty then [row] else [])
  | _ =>
    let ty := ltys.getD (ppLtime b) 0
    match timeOf ty (row.getD (ppLtime b) .null) with
    | none => some [row ++ nulls]
    | some tl => some [row ++ (asofPick b ty tl ms).getD nulls]

/-! Partitions and their placement (R335 to R337). -/

/-- The bytes that a row takes in a partition. DESIGN CHOICE (log 10): its values' bytes and eight more for each value; the
spec leaves the layout of a build table to the device. -/
def valFoot : Val → Nat
  | .num _ => 16
  | .str b => 8 + b.length
  | .cons h t => valFoot h + valFoot t
  | _ => 8

def rowFoot (row : List Val) : Nat := row.foldl (fun n v => n + valFoot v) 0

/-- The partition of a key hash: bits 15 to 8. -/
def partOf (h : Nat) : Nat := h / 256 % 256

def State.join (s : State) (j st : Nat) : Join := ((s.job? j).map (fun x => Table.findD x.joins st {})).getD {}
def State.setJoin (s : State) (j st : Nat) (x : Join) : State := s.updJob j fun y => { y with joins := Table.put y.joins st x }

/-- Free extents of the BUILD pool. -/
def State.buildFree (s : State) : Nat := 16 * s.fld VAT.BUILD_MAX - sumTable s.tiers.buildUsed

def State.takeBuild (s : State) (j n : Nat) : State :=
  s.modTiers fun t => { t with buildUsed := Table.put t.buildUsed j (Table.findD t.buildUsed j 0 + n) }

def State.giveBuild (s : State) (j n : Nat) : State :=
  s.modTiers fun t => { t with buildUsed := Table.put t.buildUsed j (Table.findD t.buildUsed j 0 - n) }

/-- Cream spill pages of a job returned. -/
def State.creamBack (s : State) (j mib : Nat) : State :=
  (s.modTiers fun t => { t with creamSpill := Table.put t.creamSpill j (Table.findD t.creamSpill j 0 - mib) }).spillNotices

/-- Skim spill pages of a job for `n` bytes more of a partition that holds `mib` MiB and `bytes` bytes there. -/
def State.skimFor (s : State) (j mib total : Nat) : Option (State × Nat) :=
  let want := pagesMib total
  if want ≤ mib then some (s, mib) else (s.spillAlloc j (want - mib) false).map fun s1 => (s1, want)

/-- A spill counted on the instance's page (R336). -/
def State.spillCount (s : State) (page parts bytes : Nat) (first : Bool) : State :=
  let s1 := (s.count (PRESS.SPILLED_PARTS.on page) parts).count (PRESS.SPILL_BYTES.on page) bytes
  if first then s1.raiseOwn page 16 else s1

/-- `n` bytes more of a partition placed: in its Vat extents and Cream pages, else the partition is spilled; none where
the spill finds no room (R336). The flag says that the job already had a spilled partition here. -/
def State.partGrow (s : State) (j page n : Nat) (had : Bool) (q : JoinPart) : Option (State × JoinPart) :=
  let total := q.bytes + n
  if q.spilled then
    (s.skimFor j q.skim total).map fun r => (r.1.spillCount page 0 n false, { q with bytes := total, skim := r.2 })
  else
    let beyond := total - (q.vat * 0x10000 + q.cream * 0x100000)
    let ext := ceilDiv beyond 0x10000
    if q.cream = 0 ∧ ext ≤ s.buildFree then some (s.takeBuild j ext, { q with bytes := total, vat := q.vat + ext })
    else if beyond = 0 then some (s, { q with bytes := total })
    else
      let mib := pagesMib beyond
      if mib ≤ s.creamFree then
        (s.spillAlloc j mib true).map fun s1 => (s1, { q with bytes := total, cream := q.cream + mib })
      else
        ((s.giveBuild j q.vat).creamBack j q.cream).skimFor j 0 total |>.map fun r =>
          (r.1.spillCount page 1 total (!had), { q with bytes := total, vat := 0, cream := 0, skim := r.2, spilled := true })

/-- A build row placed in its partition. -/
def State.placeRow (s : State) (j st page : Nat) (b : Bytes) (tys : List Nat) (origin : Nat) (row : List Val) : Option State :=
  let x := s.join j st
  let p := partOf (keyhash (buildKeys b tys row) (ppSeed b))
  let had := x.parts.any (fun e => e.2.spilled)
  (s.partGrow j page (rowFoot row) had (Table.findD x.parts p {})).map fun r =>
    (r.1.setJoin j st { x with
      page := page, parts := Table.put x.parts p r.2,
      build := Table.put x.build origin (Table.findD x.build origin [] ++ [row]) }).count (PRESS.BUILD_ROWS.on page) 1

def State.placeRows (s : State) (j st page : Nat) (b : Bytes) (tys : List Nat) (origin : Nat) (rows : List (List Val)) : Option State :=
  rows.foldl (fun (o : Option State) r => o.bind fun s => s.placeRow j st page b tys origin r) (some s)

/-- The build rows in build input order: by origin, then by order there (R332). -/
def Join.rows (x : Join) : List (List Val) := x.build.flatMap (·.2)

/-! Row blocks (R421). -/

/-- A row block of rows with the entries of their columns. -/
def rowBlock (cols : List (List SchEntry)) (rows : List (List Val)) : Bytes :=
  (layRows cols rows).flatMap fun l =>
    let v := if l.nulls = 0 then [] else l.validity
    let p (b : Bytes) : Bytes := fitTo b (roundUp b.length 8)
    leBytes 8 l.elems ++ leBytes 8 (p v).length ++ leBytes 8 (p l.offsets).length ++ leBytes 8 (p l.values).length ++ p v ++ p l.offsets ++ p l.values

/-- One entry of a row block as it is read: its elements and buffers. -/
structure Piece where
  elems : Nat
  validity : Bytes
  offsets : Bytes
  values : Bytes
  deriving DecidableEq, Repr, Inhabited

/-- The entries of a row block, over `n` entries. -/
def blockPieces : Nat → Bytes → List Piece
  | 0, _ => []
  | n + 1, b =>
    let lv := leAt b 8 8
    let lo := leAt b 16 8
    let lx := leAt b 24 8
    ⟨leAt b 0 8, sub b 32 lv, sub b (32 + lv) lo, sub b (32 + lv + lo) lx⟩ :: blockPieces n (b.drop (32 + lv + lo + lx))

/-- Element `i` of the first entry of a list of entries with their pieces, over `fuel` levels. -/
def pieceElem : Nat → List (SchEntry × Piece) → Nat → Val
  | 0, _, _ => .null
  | _, [], _ => .null
  | fuel + 1, (e, p) :: rest, i =>
    if !p.validity.isEmpty && !bitAt (byteAt p.validity (i / 8)) (i % 8) then .null
    else if tyBool e.ty then .num (ofBool (bitAt (byteAt p.values (i / 8)) (i % 8)))
    else if tyFixed e.ty then .num (leAt p.values (tyWidth e.ty * i) (tyWidth e.ty))
    else if tyDict e.ty then pieceElem fuel rest (leAt p.values (tyWidth e.param * i) (tyWidth e.param))
    else if tyFixList e.ty then chainOf ((List.range e.listSize).map fun k => pieceElem fuel rest (i * e.listSize + k))
    else
      let w := if tyLarge e.ty then 8 else 4
      let lo := leAt p.offsets (w * i) w
      let hi := leAt p.offsets (w * (i + 1)) w
      if tyStr e.ty then .str (sub p.values lo (hi - lo))
      else chainOf ((List.range (hi - lo)).map fun k => pieceElem fuel rest (lo + k))

/-- The columns' entries with their pieces. -/
def withPieces : List (List SchEntry) → List Piece → List (List (SchEntry × Piece))
  | [], _ => []
  | c :: cs, ps => List.zip c ps :: withPieces cs (ps.drop c.length)

/-- The rows of a row block. -/
def blockRows (cols : List (List SchEntry)) (n : Nat) (b : Bytes) : List (List Val) :=
  let ps := blockPieces (cols.foldl (fun k c => k + c.length) 0) b
  let cs := withPieces cols ps
  (List.range n).map fun i => cs.map fun c => pieceElem 7 c i

/-! Probing and output order (R334). -/

/-- Outputs of probe rows handed on: at once, or with STRICT in probe order (R334). -/
def State.handOn (s : State) (c : Ctx) (outs : List (Nat × List (List Val))) : Got State :=
  let x := s.join c.job c.stage
  if bitAt c.st.flags 0 then
    let x1 : Join := { x with results := outs.foldl (fun t e => Table.put t e.1 e.2) x.results }
    let go := x1.results.foldl (fun (r : Nat × List (List Val)) (e : Nat × List (List Val)) => if e.1 = r.1 then (r.1 + 1, r.2 ++ e.2) else r) (x1.next, [])
    let x2 := { x1 with next := go.1, results := x1.results.filter (fun e => decide (go.1 ≤ e.1)) }
    ((s.setJoin c.job c.stage x2).count (PRESS.OUT_ROWS.on c.page) go.2.length).appendOut c 0 go.2
  else
    let rows := outs.flatMap (·.2)
    (s.count (PRESS.OUT_ROWS.on c.page) rows.length).appendOut c 0 rows

/-- Probe rows of resident partitions probed now, those of spilled ones held in Skim (R337). -/
def State.probeRows (s : State) (c : Ctx) (rows : List (Nat × List Val)) : Ran :=
  let b := c.block
  let lt := c.inTys 0
  let rt := c.inTys 1
  let x := s.join c.job c.stage
  let spilled (r : Nat × List Val) : Bool :=
    let ks := probeKeys b lt r.2
    !anyNull ks && (Table.findD x.parts (partOf (keyhash ks (ppSeed b))) {}).spilled
  let held := rows.filter spilled
  let now := rows.filter fun r => !spilled r
  let outs := now.map fun r => (r.1, probeRow c.st.op b lt rt x.rows r.2)
  let foot := held.foldl (fun n r => n + rowFoot r.2) 0
  let s0 := (s.count (PRESS.PROBE_ROWS.on c.page) now.length).setFld (PRESS.GEN.on c.page) (x.gen % 65536)
  if outs.any (fun o => o.2.isNone) then .failed s0 0x98 0
  else
    match (if held.isEmpty then some s0 else s0.spillAlloc c.job (pagesMib foot) false) with
    | none => .failed s0 0x42 0
    | some s1 =>
      let s2 := (s1.setJoin c.job c.stage { x with held := x.held ++ held }).count (PRESS.SPILL_BYTES.on c.page) foot
      Ran.with s2 (s2.handOn c (outs.map fun o => (o.1, o.2.getD []))) fun s3 => .done s3 false

/-! The shuffle's messages (R338, R339). -/

/-- The node set of a stage. -/
def Ctx.nodes (c : Ctx) : List Nat := nodeSet c.plan.params (ppNodesOff c.block) (ppNodesLen c.block)

/-- Where a row of a side goes: this node for a null key or without SHUFFLE. -/
def destOf (s : State) (c : Ctx) (ks : List (Nat × Val)) : Nat :=
  if !ppShuffle c.block || anyNull ks then s.node.id
  else c.nodes.getD (reduce (keyhash ks (ppSeed c.block)) c.nodes.length) s.node.id

/-- Rows of a side sent to another node as one row block. -/
def State.sendRows (s : State) (c : Ctx) (side dst first : Nat) (rows : List (List Val)) : State :=
  if rows.isEmpty then s
  else
    let id := ((s.job? c.job).map (·.herdId)).getD 0
    let cols := c.inCols (1 - side)
    let r := s.sendRun (.rows c.job) dst 0x05 0x20 id c.stage 0 (side + rows.length * 2 ^ 32) first (rowBlock cols rows)
    let x := r.1.join c.job c.stage
    let add (t : Table Nat) : Table Nat := Table.put t dst (Table.findD t dst 0 + rows.length)
    (r.1.setJoin c.job c.stage (if side = 0 then { x with sentBuild := add x.sentBuild } else { x with sentProbe := add x.sentProbe })).count
      (PRESS.ROWS_SENT.on c.page) rows.length

/-- The end mark of a side sent to every other node of the set (R339). -/
def State.sendMarks (s : State) (c : Ctx) (side : Nat) : State :=
  let id := ((s.job? c.job).map (·.herdId)).getD 0
  (c.nodes.filter (fun n => n != s.node.id)).foldl (fun s n =>
    let x := s.join c.job c.stage
    let k := Table.findD (if side = 0 then x.sentBuild else x.sentProbe) n 0
    (s.trySend (if side = 0 then .endBuild c.job else .endProbe c.job)
      (enginePkt n 0x03 (0x21 + side) (engineBody id c.stage 0 0 k 0 []))).1) s

/-- Every other node of the set has sent its mark. -/
def marksIn (s : State) (c : Ctx) (marks : List Nat) : Bool :=
  !ppShuffle c.block || c.nodes.all fun n => n == s.node.id || marks.contains n

/-! Slices. -/

/-- What follows the build: probing, once every mark is in (R335, R339); the PRESS_BUILD grant is given up. -/
def State.buildDone (s : State) (c : Ctx) : State :=
  let x := s.join c.job c.stage
  let e := ((s.job? c.job).map (fun j => j.engOf c.stage)).getD {}
  if x.builtOwn && marksIn s c x.buildMarks then s.setEng c.job c.stage { e with phase := 1, consumed := 0 }
  else if x.builtOwn then s.setEng c.job c.stage { e with phase := waiting, consumed := 0 }
  else s

/-- A job's grant of one class given up (R335, R45). -/
def State.leaveDrop (s : State) (job cls : Nat) : State :=
  let gs := s.leave.grants.map (fun g => if g.cls = cls then { g with jobs := g.jobs.filter (fun j => j != job) } else g)
  { s with leave := { s.leave with grants := gs.filter (fun g => !g.jobs.isEmpty) } }.leaveSettle

/-- A build slice. -/
def runBuild (s : State) (c : Ctx) (job : Job) (e : Eng) : Ran :=
  let b := c.block
  let av := inputLen job (c.in_ 1)
  let n := min c.count (av.1 - e.consumed)
  let last := !av.2 && decide (av.1 ≤ e.consumed + n)
  Ran.with s (s.inputRows job c 1 e.consumed n) fun rows =>
    let dest (r : List Val) : Nat := destOf s c (buildKeys b (c.inTys 1) r)
    let s1 := (c.nodes.filter (fun d => d != s.node.id)).foldl (fun s d =>
      s.sendRows c 0 d e.consumed (rows.filter (fun r => dest r == d))) s
    match s1.placeRows c.job c.stage c.page b (c.inTys 1) s.node.id (rows.filter (fun r => dest r == s.node.id)) with
    | none => .failed s1 0x42 0
    | some s2 =>
      let s3 := s2.setEng c.job c.stage { e with consumed := e.consumed + n }
      if last then
        let x := s3.join c.job c.stage
        let s4 := (s3.setJoin c.job c.stage { x with builtOwn := true, page := c.page }).sendMarks c 0
        .done ((s4.leaveDrop c.job 2).buildDone c) false
      else .done s3 false

/-- What follows the first probe pass: the reload of spilled partitions, or the end of the stage (R337, R339). -/
def State.probeDone (s : State) (c : Ctx) : State × Bool :=
  let x := s.join c.job c.stage
  let e := ((s.job? c.job).map (fun j => j.engOf c.stage)).getD {}
  if x.probedOwn && marksIn s c x.probeMarks then
    let rs := (x.parts.filter (fun p => p.2.spilled)).map (·.1)
    if rs.isEmpty then (s, true)
    else ((s.setJoin c.job c.stage { x with reloads := rs }).setEng c.job c.stage { e with phase := waiting }, false)
  else if x.probedOwn then (s.setEng c.job c.stage { e with phase := waiting }, false)
  else (s, false)

/-- A result probed ahead is used where its tag and its rows are the current ones, else discarded; its extents return
(R341). -/
def State.useAhead (s : State) (c : Ctx) (first count : Nat) : State :=
  let x := s.join c.job c.stage
  match x.ahead with
  | none => s
  | some a =>
    let ok := a.gen == x.gen && a.first == first && decide (a.count ≤ count)
    let s1 := (s.setJoin c.job c.stage { x with ahead := none }).modTiers fun t =>
      { t with runaheadUsed := Table.put t.runaheadUsed c.job (Table.findD t.runaheadUsed c.job 0 - a.extents) }
    if ok then s1 else s1.count (PRESS.SPEC_DISCARDS.on c.page) 1

/-- A probe slice. -/
def runProbe (s : State) (c : Ctx) (job : Job) (e : Eng) : Ran :=
  let b := c.block
  let av := inputLen job (c.in_ 0)
  let n := min c.count (av.1 - e.consumed)
  let last := !av.2 && decide (av.1 ≤ e.consumed + n)
  Ran.with s (s.inputRows job c 0 e.consumed n) fun rows =>
    let x := s.join c.job c.stage
    let dest (r : List Val) : Nat := destOf s c (probeKeys b (c.inTys 0) r)
    let s1 := (c.nodes.filter (fun d => d != s.node.id)).foldl (fun s d =>
      s.sendRows c 1 d e.consumed (rows.filter (fun r => dest r == d))) (s.useAhead c e.consumed n)
    let own := (rows.zipIdx.filter (fun r => dest r.1 == s.node.id)).map fun r => (e.consumed + r.2, r.1)
    let early := x.early
    let s2 := s1.setJoin c.job c.stage { s1.join c.job c.stage with early := [] }
    match s2.probeRows c (early ++ own) with
    | .done s3 _ =>
      let s4 := s3.setEng c.job c.stage { e with consumed := e.consumed + n }
      if last then
        let s5 := (s4.setJoin c.job c.stage { s4.join c.job c.stage with probedOwn := true }).sendMarks c 1
        let r := s5.probeDone c
        .done r.1 r.2
      else .done s4 false
    | r => r

def runPress (s : State) (c : Ctx) : Ran :=
  match s.job? c.job with
  | none => .done s true
  | some job =>
    let e := job.engOf c.stage
    if e.phase = 0 then runBuild s c job e else runProbe s c job e

/-! Reload, run-ahead and the arrival of rows. -/

/-- The context of a stage outside its slices. -/
def State.stageCtx (s : State) (j st : Nat) : Option Ctx :=
  (s.job? j).map fun job =>
    { job := j, slice := 0, stage := st, page := (s.join j st).page, st := job.plan.stage st, plan := job.plan, first := 0, count := 0 }

/-- A stage ends. -/
def State.stageEnd (s : State) (j st : Nat) : State :=
  (s.updJob j fun x => { x with ended := if x.ended.contains st then x.ended else x.ended ++ [st] }).placeSlices j

/-- The next spilled partition loaded back and its held rows probed (R337): a partition that fits neither BUILD nor Cream,
nor any of its two further splits, is probed in place. -/
def State.reloadPart (s : State) (j st : Nat) : State :=
  match s.stageCtx j st with
  | none => s
  | some c =>
    let x := s.join j st
    match x.reloads with
    | [] => s
    | p :: rest =>
      let b := c.block
      let lt := c.inTys 0
      let rt := c.inTys 1
      let q := Table.findD x.parts p {}
      let hash (r : List Val) : Nat := keyhash (buildKeys b rt r) (ppSeed b)
      let rows := x.rows.filter fun r => partOf (hash r) == p
      let fits (n : Nat) : Bool := decide (ceilDiv n 0x10000 ≤ s.buildFree) || decide (pagesMib n ≤ s.creamFree)
      let foot (f : List Val → Bool) : Nat := (rows.filter f).foldl (fun n r => n + rowFoot r) 0
      -- the splits by bits [23:16], then by bits [31:24]
      let sub1 (k : Nat) : Bool := fits (foot fun r => hash r / 2 ^ 16 % 256 == k) ||
        (List.range 256).all fun m => fits (foot fun r => hash r / 2 ^ 16 % 256 == k && hash r / 2 ^ 24 % 256 == m)
      let inPlace := !(fits q.bytes || (List.range 256).all sub1)
      let mine (r : Nat × List Val) : Bool := partOf (keyhash (probeKeys b lt r.2) (ppSeed b)) == p
      let held := x.held.filter mine
      let x1 := { x with
        reloads := rest, gen := x.gen + 1, held := x.held.filter (fun r => !mine r),
        parts := Table.put x.parts p { q with spilled := false } }
      let s1 := (s.setJoin j st x1).setFld (PRESS.GEN.on c.page) (x1.gen % 65536)
      let s2 := if inPlace then s1.raiseOwn c.page 17 else s1
      match s2.probeRows c held with
      | .done s3 _ => if rest.isEmpty then s3.stageEnd j st else s3
      | .failed s3 status d => (s3.failJob j status st d c.page).dropQueued j
      | .need .. => s

/-- Rows probed ahead by an idle instance: counted, with their extents and tag (R341). -/
def State.probeAhead (s : State) (j st rows : Nat) : State :=
  match s.job? j with
  | none => s
  | some job =>
    let e := job.engOf st
    let x := s.join j st
    let c := job.plan.stage st
    let free := 16 * s.fld VAT.RUNAHEAD_MAX - sumTable s.tiers.runaheadUsed
    let n := min rows (min (s.fld PRESS.SPEC_ROWS) ((inputLen job (c.in_ 0)).1 - e.consumed))
    if c.cls = 6 ∧ bitAt c.flags 1 ∧ e.phase = 1 ∧ x.ahead = none ∧ 0 < n ∧ 0 < free ∧ (s.pageSlices x.page).all (fun y => y.2.state != .running) then
      let a : Ahead := ⟨e.consumed, n, x.gen, 1⟩
      ((s.setJoin j st { x with ahead := some a }).modTiers fun t =>
        { t with runaheadUsed := Table.put t.runaheadUsed j (Table.findD t.runaheadUsed j 0 + 1) }).count (PRESS.SPEC_PROBES.on x.page) n
    else s

/-- A row block that has arrived from another node: build rows are placed, probe rows probed or held (R339). -/
def State.rowsArrive (s : State) (j st src side n first : Nat) (block : Bytes) : State :=
  match s.stageCtx j st with
  | none => s
  | some c0 =>
    let page := if c0.page = 0 then 0x0A8 else c0.page
    let c := { c0 with page := page }
    let x := s.join j st
    let rows := blockRows (c.inCols (1 - side)) n block
    let s1 := s.count (PRESS.ROWS_RECEIVED.on page) n
    let fail (s : State) (status d : Nat) : State := (s.failJob j status st d page).dropQueued j
    if side = 0 then
      let s2 := s1.setJoin j st { x with gotBuild := Table.put x.gotBuild src (Table.findD x.gotBuild src 0 + n) }
      match s2.placeRows j st page c.block (c.inTys 1) src rows with
      | some s3 => s3
      | none => fail s2 0x42 0
    else
      let idx := rows.zipIdx.map fun r => (src * 2 ^ 48 + first + r.2, r.1)
      let s2 := s1.setJoin j st { x with gotProbe := Table.put x.gotProbe src (Table.findD x.gotProbe src 0 + n) }
      let phase := ((s.job? j).map (fun jb => (jb.engOf st).phase)).getD 0
      if phase = 1 ∨ (x.builtOwn ∧ marksIn s c x.buildMarks) then
        match s2.probeRows c idx with
        | .done s3 _ => s3
        | .failed s3 status d => fail s3 status d
        | .need .. => s2
      else
        let foot := rows.foldl (fun k r => k + rowFoot r) 0
        match s2.spillAlloc j (pagesMib foot) false with
        | none => fail s2 0x42 0
        | some s3 => (s3.setJoin j st { s3.join j st with early := (s3.join j st).early ++ idx }).count (PRESS.SPILL_BYTES.on page) foot

/-- An end mark that has arrived: its count is checked, and the phase goes on where it was the last (R339, R421). -/
def State.markArrive (s : State) (j st src side n : Nat) : State :=
  match s.stageCtx j st with
  | none => s
  | some c =>
    let x := s.join j st
    if Table.findD (if side = 0 then x.gotBuild else x.gotProbe) src 0 ≠ n then (s.failJob j 0x9B st 0 c.page).dropQueued j
    else
      let s1 := s.setJoin j st (if side = 0 then { x with buildMarks := x.buildMarks ++ [src] } else { x with probeMarks := x.probeMarks ++ [src] })
      if side = 0 then (s1.buildDone c).placeSlices j
      else
        let r := s1.probeDone c
        if r.2 then r.1.stageEnd j st else r.1

end Sys2Proof.Machine
end

