-- ==== Sys2Proof/Machine/TideBase.lean ====
section
/-! DEFINITION. The unit of the tide, event times, sources and watermarks (R203 to R208, R219). -/

namespace Sys2Proof.Machine

open Sys2Proof.Reg

/-- TIDE_MAX. -/
def tideMax : Nat := 0xFFFFFFFFFFFFFFFE

/-- NONE as LOCAL_WM encodes it. -/
def noWm : Nat := 0xFFFFFFFFFFFFFFFF

/-- ns of one tu for a SCALE (Table 10-1). -/
def scaleNs (scale : Nat) : Nat := 10 ^ scale

/-- The scale in force: the fixed one once the tide has started, before that the register's (R204). -/
def State.scale (s : State) : Nat := if s.tide.now = 0 then s.fld TIDE.SCALE else s.tide.herdScale

/-- HERD_EPOCH_TU, before the tide starts the register's value. -/
def State.epochTu (s : State) : Nat := if s.tide.now = 0 then s.fld TIDE.EPOCH_TU else s.tide.herdEpochTu

/-- to_tu (R206). -/
def toTu (v : Int) (unit scale : Nat) : Nat := if v < 0 then 0 else min tideMax (v.toNat * unit / scale)

/-- ns of a count of an event-time column; none for other types (R242). -/
def unitNs (e : SchEntry) : Option Nat :=
  if e.ty = 0x0F then some ([1000000000, 1000000, 1000, 1].getD e.param 1)
  else if e.ty = 0x0E then some 86400000000000 else none

/-- The event time of a value in tu; none for a null. -/
def eventTu (e : SchEntry) (scale : Nat) : Val → Option Nat
  | .num n => some (toTu (toSigned (8 * tyWidth e.ty) n) ((unitNs e).getD 1) (scaleNs scale))
  | _ => none

/-! Sources (R205 to R208). -/

/-- LOCAL_WM. -/
def State.localWm (s : State) : Nat :=
  s.tide.sources.foldl (fun m e => if e.2.idle then m else min m e.2.w) noWm

/-- LAG_TU. -/
def State.lagTu (s : State) : Nat := if s.localWm = noWm ∨ s.localWm ≤ s.tide.now then 0 else s.localWm - s.tide.now

/-- The lag notice brought up to date (R219). -/
def State.lagNotice (s : State) : State :=
  s.noticeEval 6 s.lagTu (s.fld TIDE.LAG_MARK) (s.fld TIDE.LAG_HYST) 0 TIDE.CROSSED TIDE.LAG_CROSSINGS 0x058

def State.setSource (s : State) (id : Nat) (x : Source) : State :=
  s.modTide fun t => { t with sources := Table.put t.sources id x }

/-- A source that becomes active with its watermark below the tide is late (R207). -/
def State.sourceWake (s : State) (x : Source) : State :=
  if x.idle && decide (x.w < s.tide.now) then s.raiseOwn 0x058 20 else s

/-- Event times or a low watermark reach a source (R206, R207). -/
def State.sourceHears (s : State) (id maxt low : Nat) : State :=
  match Table.find? s.tide.sources id with
  | none => s
  | some x =>
    let m := max x.maxT maxt
    let l := max x.low low
    let x' := { x with maxT := m, low := l, w := max x.w (max l (m - x.delay)), idle := false, heard := s.chrono }
    ((s.setSource id x').sourceWake { x' with idle := x.idle }).lagNotice

/-- The rows that a stage has just delivered, told to the sources attached to its outputs (R242). -/
def State.deliver (s : State) (job : Job) (st o : Nat) (rows : List (List Val)) : State :=
  if rows.isEmpty then s
  else
    job.binds.foldl (fun s b =>
      if b.kind = 5 ∧ b.aux2 % 65536 = st ∧ b.aux2 / 65536 % 256 = o then
        let col := b.aux2 / 2 ^ 32
        let e := ((job.plan.outCols st o).getD col []).headD default
        let ts := rows.filterMap fun r => eventTu e s.scale (r.getD col .null)
        if ts.isEmpty then s else s.sourceHears b.aux (ts.foldl max 0) 0
      else s) s

end Sys2Proof.Machine
end

