-- ==== Sys2Proof/Machine/Aggregates.lean ====
section
/-! DEFINITION. Ripener's aggregates (R352 to R356). -/

namespace Sys2Proof.Machine

/-- An aggregate record (Table 17-3) with the type of its column. -/
structure AggSpec where
  fn : Nat
  a : Nat
  col : Nat
  b : Nat
  nq : Nat
  qs : List Nat
  ty : Nat
  deriving DecidableEq, Repr, Inhabited

def aggAt (blk : Bytes) (tys : List Nat) (k : Nat) : AggSpec :=
  let o := 64 + 16 * k
  let col := leAt blk (o + 2) 2
  { fn := byteAt blk o, a := byteAt blk (o + 1), col := col, b := leAt blk (o + 4) 2, nq := byteAt blk (o + 6),
    qs := (List.range 4).map fun q => leAt blk (o + 8 + 2 * q) 2, ty := tys.getD col 0 }

/-! Float accumulation: exact, in units of 2^-1074. -/

/-- A FLOAT64 in units of 2^-1074. -/
def unitsOf (x : Nat) : Int :=
  match fpOf f64 x with
  | .fin neg m e => atExp neg m e (-1074)
  | _ => 0

def sumAdd (n : Nat) (sum : Int) (nan pinf ninf : Bool) (x : Nat) : AggSt :=
  match fpOf f64 x with
  | .nan => .sumF (n + 1) sum true pinf ninf
  | .inf true => .sumF (n + 1) sum nan pinf true
  | .inf false => .sumF (n + 1) sum nan true ninf
  | _ => .sumF (n + 1) (sum + unitsOf x) nan pinf ninf

/-- The sum rounded once to FLOAT64. -/
def sumRound (sum : Int) (nan pinf ninf : Bool) : Nat :=
  if nan || (pinf && ninf) then fltQuiet f64
  else if pinf then infOf f64 false
  else if ninf then infOf f64 true
  else roundRat f64 (decide (sum < 0)) sum.natAbs (2 ^ 1074)

/-! HLL (R354). -/

/-- Leading zeros of a 64-bit word that is not 0. -/
def clz64 (w : Nat) : Nat := 63 - Nat.log2 w

def hllAdd (p : Nat) (regs : Table Nat) (h : Nat) : Table Nat :=
  let i := h / 2 ^ (64 - p)
  let w := h * 2 ^ p % 2 ^ 64
  let rho := if w = 0 then 64 - p + 1 else clz64 w + 1
  if Table.findD regs i 0 < rho then Table.put regs i rho else regs

/-- The FLOAT64 nearest to a decimal n / 10^k. -/
def decF (n k : Nat) : Nat := roundRat f64 false n (10 ^ k)

/-- The estimate, its sum taken register by register in ascending order. -/
def hllEstimate (p : Nat) (regs : Table Nat) : Nat :=
  let m := fpInt f64 (2 ^ p : Nat)
  let zs := (List.range (2 ^ p)).map fun i => Table.findD regs i 0
  let z := zs.foldl (fun (z r : Nat) => addF z (ldexp1 (-(r : Int)))) 0
  let zeros := (zs.filter (fun r => r == 0)).length
  let a := if p = 4 then decF 673 3 else if p = 5 then decF 697 3 else if p = 6 then decF 709 3
    else divF (decF 7213 4) (addF (decF 1 0) (divF (decF 1079 3) m))
  let e := divF (mulF (mulF a m) m) z
  let small := !ltF (mulF (decF 25 1) m) e && zeros != 0
  let e' := if small then mulF m (logF (divF m (fpInt f64 zeros))) else e
  (fpRoundInt (fpOf f64 e')).toNat

/-! TOPK (R355). A counter is an item, its count, its error. -/

/-- The place of an item among ties: its key hash, then its bytes. -/
def itemLt (ty seed : Nat) (a b : Val) : Bool :=
  let ha := keyhash [(ty, a)] seed
  let hb := keyhash [(ty, b)] seed
  decide (ha < hb) || (ha == hb && bytesLt (valBytes ty a) (valBytes ty b))

def sameItem (ty seed : Nat) (a b : Val) : Bool :=
  keyhash [(ty, a)] seed == keyhash [(ty, b)] seed && valBytes ty a == valBytes ty b

/-- Counters in descending order of count, ties by ascending key hash. -/
def topOrder (ty seed : Nat) (cs : List (Val × Nat × Nat)) : List (Val × Nat × Nat) :=
  sortBy (fun x y => decide (y.2.1 < x.2.1) || (x.2.1 == y.2.1 && !itemLt ty seed y.1 x.1)) cs

def topkAdd (ty seed cap : Nat) (cs : List (Val × Nat × Nat)) (v : Val) : List (Val × Nat × Nat) :=
  if cs.any (fun c => sameItem ty seed c.1 v) then
    cs.map fun c => if sameItem ty seed c.1 v then (c.1, c.2.1 + 1, c.2.2) else c
  else if cs.length < cap then cs ++ [(v, 1, 0)]
  else
    -- the least count; among ties the greatest key hash, then the greatest bytes
    match (topOrder ty seed cs).getLast? with
    | none => cs
    | some l => cs.map fun c => if sameItem ty seed c.1 l.1 then (v, l.2.1 + 1, l.2.1) else c

def topkMerge (ty seed cap : Nat) (xs ys : List (Val × Nat × Nat)) : List (Val × Nat × Nat) :=
  let both := ys.foldl (fun acc y =>
    if acc.any (fun c => sameItem ty seed c.1 y.1) then
      acc.map fun c => if sameItem ty seed c.1 y.1 then (c.1, c.2.1 + y.2.1, c.2.2 + y.2.2) else c
    else acc ++ [y]) xs
  (topOrder ty seed both).take cap

/-! The quantile sketch (R356). -/

def qOrd (b : Nat) : Nat := if bitAt b 63 then 2 ^ 64 - 1 - b else b + 2 ^ 63
def qKey (x m : Nat) : Nat := qOrd x / 2 ^ (52 - m)

def qRep (k m : Nat) : Nat :=
  let s := 52 - m
  let o := k * 2 ^ s
  if k = qKey 0 m then 0
  else if k = qKey (infOf f64 false) m then infOf f64 false
  else if k = qKey (infOf f64 true) m then infOf f64 true
  else if bitAt o 63 then (o ||| 2 ^ (s - 1)) - 2 ^ 63
  else 2 ^ 64 - 1 - (o ||| (2 ^ (s - 1) - 1))

/-- The fold of keys below the QCAP-th greatest into it. -/
def qFold (cap : Nat) (cs : Table Nat) : Table Nat :=
  if cs.length ≤ cap then cs
  else
    let low := cs.take (cs.length - cap)
    match cs.drop (cs.length - cap) with
    | [] => cs
    | (k, n) :: rest => (k, n + sumTable low) :: rest

def qAdd (m cap : Nat) (cs : Table Nat) (x n : Nat) : Table Nat :=
  let k := qKey x m
  let k' := match cs with | (k0, _) :: _ => if cs.length = cap ∧ k < k0 then k0 else k | [] => k
  qFold cap (Table.put cs k' (Table.findD cs k' 0 + n))

/-- The key at which the running count reaches `r`. -/
def qReach : Table Nat → Nat → Nat → Nat
  | [], _, last => last
  | (k, n) :: rest, r, _ => if r ≤ n then k else qReach rest (r - n) k

def qQuery (cs : Table Nat) (m q : Nat) : Nat :=
  let n := sumTable cs
  qRep (qReach cs (max 1 (ceilDiv (q * n) 10000)) 0) m

/-! One aggregate. -/

def aggInit (g : AggSpec) : AggSt :=
  match g.fn with
  | 1 => .count 0
  | 2 => if tyFloat g.ty then .sumF 0 0 false false false else .sumI 0 0
  | 3 | 4 => .ext .null
  | 5 => .sumF 0 0 false false false
  | 6 => .var 0 0 0
  | 7 | 8 => .pick 0 0 .null
  | 9 => .hll []
  | 10 => .topk []
  | _ => .quant []

/-- An integer value of a type. -/
def intOf (ty v : Nat) : Int := if tySigned ty then toSigned (8 * tyWidth ty) v else v

/-- The numbers of Welford's step: count, mean, m2. -/
def welford (n mean m2 x : Nat) : AggSt :=
  let d := subF x mean
  let mean' := addF mean (divF d (fpInt f64 (n + 1 : Nat)))
  .var (n + 1) mean' (addF m2 (mulF d (subF x mean')))

/-- Chan's pairwise formula. -/
def chan (na ma sa nb mb sb : Nat) : AggSt :=
  if na = 0 then .var nb mb sb
  else if nb = 0 then .var na ma sa
  else
    let n := fpInt f64 (na + nb : Nat)
    let d := subF mb ma
    let mean := addF ma (divF (mulF d (fpInt f64 nb)) n)
    let m2 := addF (addF sa sb) (divF (mulF (mulF (mulF d d) (fpInt f64 na)) (fpInt f64 nb)) n)
    .var (na + nb) mean m2

/-- A value of event time `t` applied, as arrival `arr` of its store. -/
def aggAdd (g : AggSpec) (seed t arr : Nat) (st : AggSt) (v : Val) : AggSt :=
  if g.fn = 1 ∧ g.col = 0xFFFF then (match st with | .count n => .count (n + 1) | x => x)
  else if v = .null then st
  else
    match st, v with
    | .count n, _ => .count (n + 1)
    | .sumI n s, .num x => .sumI (n + 1) (s + intOf g.ty x)
    | .sumF n s a p m, .num x => sumAdd n s a p m (toF64 g.ty x)
    | .ext w, v => if w = .null ∨ (if g.fn = 3 then valLt g.ty v w else valLt g.ty w v) then .ext v else .ext w
    | .var n mean m2, .num x => welford n mean m2 (toF64 g.ty x)
    | .pick u n w, v => if w = .null ∨ (if g.fn = 7 then t < u else u ≤ t) then .pick t arr v else .pick u n w
    | .hll r, v => .hll (hllAdd g.a r (keyhash [(g.ty, v)] seed))
    | .topk cs, v => .topk (topkAdd g.ty seed g.b cs v)
    | .quant cs, .num x =>
      let y := fltCanon f64 (toF64 g.ty x)
      if isNanF y then .quant cs else .quant (qAdd g.a g.b cs y 1)
    | x, _ => x

/-- Two states merged, the first the earlier (Table 17-4). -/
def aggMerge (g : AggSpec) (seed : Nat) (a b : AggSt) : AggSt :=
  match a, b with
  | .count m, .count n => .count (m + n)
  | .sumI m s, .sumI n t => .sumI (m + n) (s + t)
  | .sumF m s x p q, .sumF n t y p' q' => .sumF (m + n) (s + t) (x || y) (p || p') (q || q')
  | .ext v, .ext w =>
    if v = .null then .ext w else if w = .null then .ext v
    else if (if g.fn = 3 then valLt g.ty w v else valLt g.ty v w) then .ext w else .ext v
  | .var n m s, .var n' m' s' => chan n m s n' m' s'
  | .pick t m v, .pick u n w =>
    if v = .null then .pick u n w else if w = .null then .pick t m v
    else if (if g.fn = 7 then u < t ∨ (u = t ∧ n < m) else t < u ∨ (t = u ∧ m < n)) then .pick u n w else .pick t m v
  | .hll r, .hll r' => .hll (r'.foldl (fun t e => if Table.findD t e.1 0 < e.2 then Table.put t e.1 e.2 else t) r)
  | .topk x, .topk y => .topk (topkMerge g.ty seed g.b x y)
  | .quant x, .quant y => .quant (qFold g.b (y.foldl (fun t e => Table.put t e.1 (Table.findD t e.1 0 + e.2)) x))
  | x, _ => x

/-- The output values of a state, and whether an integer sum left INT64. -/
def aggOut (g : AggSpec) (seed : Nat) (st : AggSt) : List Val × Bool :=
  match st with
  | .count n => ([.num n], false)
  | .sumI n s =>
    if n = 0 then ([.null], false)
    else if -(2 ^ 63 : Int) ≤ s ∧ s < (2 ^ 63 : Int) then ([.num (ofSigned 64 s)], false) else ([.null], true)
  | .sumF n s a p m =>
    if n = 0 then ([.null], false)
    else if g.fn = 2 then ([.num (sumRound s a p m)], false)
    else ([.num (divF (sumRound s a p m) (fpInt f64 n))], false)
  | .ext v => ([v], false)
  | .var n _ m2 =>
    if n = 0 ∨ (n = 1 ∧ g.a = 1) then ([.null], false)
    else ([.num (divF m2 (fpInt f64 (if g.a = 1 then (n : Int) - 1 else n)))], false)
  | .pick _ _ v => ([v], false)
  | .hll r => ([.num (hllEstimate g.a r)], false)
  | .topk cs =>
    let top := (topOrder g.ty seed cs).take g.a
    ([chainOf (top.map (·.1)), chainOf (top.map fun c => Val.num c.2.1)], false)
  | .quant cs => (if cs.isEmpty then [.null] else [chainOf ((g.qs.take g.nq).map fun q => Val.num (qQuery cs g.a q))], false)

/-- Output columns of an aggregate. -/
def aggCols (g : AggSpec) : Nat := if g.fn = 10 then 2 else 1

/-- The bytes that a state takes (log 10). -/
def aggFoot (g : AggSpec) : AggSt → Nat
  | .count _ => 8
  | .sumI .. => 24
  | .sumF .. => 280
  | .ext v => valFoot v
  | .var .. => 24
  | .pick _ _ v => 8 + valFoot v
  | .hll _ => 2 ^ g.a * 6 / 8
  | .topk cs => cs.foldl (fun n c => n + 16 + valFoot c.1) 0
  | .quant cs => 16 * cs.length

end Sys2Proof.Machine
end

