-- ==== Sys2Proof/Machine/Ripener.lean ====
section
/-! DEFINITION. Ripener: windows, late events, the window stores (R345 to R361). -/

namespace Sys2Proof.Machine

open Sys2Proof.Reg

/-! The parameter block (Table 17-2). -/

/-- A Ripener stage's windows, groups and aggregates. -/
structure RipSpec where
  kind : Nat
  late : Nat
  flush : Bool
  nagg : Nat
  ngroup : Nat
  store : Nat
  event : Nat
  size : Nat
  hop : Nat
  offset : Nat
  lateness : Nat
  seed : Nat
  groups : List Nat
  aggs : List AggSpec
  deriving DecidableEq, Repr, Inhabited

def ripSpec (b : Bytes) (tys : List Nat) : RipSpec :=
  let kind := byteAt b 0
  let nagg := byteAt b 3
  let ngroup := byteAt b 4
  { kind := kind, late := byteAt b 1, flush := bitAt (byteAt b 2) 0, nagg := nagg, ngroup := ngroup, store := byteAt b 5,
    event := leAt b 6 2, size := leAt b 8 8, hop := if kind = 0 then leAt b 8 8 else leAt b 16 8, offset := leAt b 24 8,
    lateness := leAt b 32 8, seed := leAt b 40 8, groups := (List.range ngroup).map fun g => leAt b (48 + 2 * g) 2,
    aggs := (List.range nagg).map (aggAt b tys) }

/-! The grid of panes and windows (R347). Pane 0 is [0, OFFSET), pane k is [OFFSET + (k - 1) × HOP, OFFSET + k × HOP);
window w ends with pane w and has the panes w - n + 1 to w. -/

def RipSpec.panes (p : RipSpec) : Nat := if p.kind = 2 then 1 else p.size / max 1 p.hop

def RipSpec.paneOf (p : RipSpec) (t : Nat) : Nat := if t < p.offset then 0 else (t - p.offset) / max 1 p.hop + 1

/-- End of a window, not clamped: a window whose end would pass TIDE_MAX never closes. -/
def RipSpec.winEnd (p : RipSpec) (w : Nat) : Nat := p.offset + w * p.hop

/-- DEDUCED (log 11): a hopping window that would begin below 0 begins at 0. -/
def RipSpec.winStart (p : RipSpec) (w : Nat) : Nat := p.offset + w * p.hop - p.panes * p.hop

/-- The windows of a pane. -/
def RipSpec.winsOf (p : RipSpec) (k : Nat) : List Nat := (List.range p.panes).map (k + ·)

/-- A window of a group as it is reported. -/
structure WinOut where
  win : Nat
  start : Nat
  end_ : Nat
  group : List Val
  aggs : List AggSt
  deriving DecidableEq, Repr, Inhabited

/-- The window's panes of a group, ascending, merged; none where it holds no event. -/
def RipSpec.winOut (p : RipSpec) (st : WinStore) (w : Nat) (g : List Val) : Option WinOut :=
  let ps := sortBy (fun a b => decide (a.idx ≤ b.idx))
    (st.panes.filter fun x => x.group == g && decide (x.idx ≤ w) && decide (w < x.idx + p.panes))
  match ps with
  | [] => none
  | x :: rest =>
    let merge (a b : List AggSt) : List AggSt := (List.zip p.aggs (List.zip a b)).map fun e => aggMerge e.1 p.seed e.2.1 e.2.2
    some { win := w, start := p.winStart w, end_ := p.winEnd w, group := g,
           aggs := rest.foldl (fun (a : List AggSt) (y : Pane) => merge a y.aggs) x.aggs }

/-- A session as a window. -/
def sessionOut (x : Pane) : WinOut := ⟨0, x.start, x.end_, x.group, x.aggs⟩

/-- The order of R348: end, start, group key, null below every value. -/
def groupLt (tys : List Nat) : List Val → List Val → Bool
  | a :: as, b :: bs =>
    let ty := tys.headD 0
    let lt (x y : Val) : Bool := if y == .null then false else if x == .null then true else valLt ty x y
    if lt a b then true else if lt b a then false else groupLt (tys.drop 1) as bs
  | _, _ => false

def winLe (gt : List Nat) (a b : WinOut) : Bool :=
  decide (a.end_ < b.end_) || (a.end_ == b.end_ &&
    (decide (a.start < b.start) || (a.start == b.start && !groupLt gt b.group a.group)))

/-- The windows whose end lies above `lo` and not above `hi`, in order. -/
def RipSpec.closing (p : RipSpec) (gt : List Nat) (st : WinStore) (lo hi : Nat) : List WinOut :=
  let ws :=
    if p.kind = 2 then (st.panes.filter fun x => decide (lo < x.end_) && decide (x.end_ ≤ hi)).map sessionOut
    else
      let keys := (st.panes.flatMap fun x => (p.winsOf x.idx).map fun w => (w, x.group)).filter fun k =>
        decide (lo < p.winEnd k.1) && decide (p.winEnd k.1 ≤ hi)
      (keys.eraseDups).filterMap fun k => p.winOut st k.1 k.2
  sortBy (winLe gt) ws

/-! Output rows (R351). -/

/-- The row of a window, and the sums that left INT64. -/
def RipSpec.row (p : RipSpec) (w : WinOut) (rev : Nat) : List Val × Nat :=
  let outs := (List.zip p.aggs w.aggs).map fun e => aggOut e.1 p.seed e.2
  ([.num w.start, .num (min tideMax w.end_), .num rev] ++ w.group ++ outs.flatMap (·.1), (outs.filter (·.2)).length)

def revOf (st : WinStore) (w : WinOut) : Option Nat :=
  (st.revs.find? fun r => r.win == w.win && r.group == w.group).map (·.rev)

/-- Rows of windows queued with their REV; a REV past 65,535 is an open value. -/
def RipSpec.emit (p : RipSpec) (free : Nat) (st : WinStore) (ws : List WinOut) : WinStore × Nat :=
  ws.foldl (fun (r : WinStore × Nat) w =>
    let rev := match revOf r.1 w with | none => 0 | some n => n + 1
    let shown := if rev < 65536 then rev else Config.freeNat free % 65536
    let x := p.row w shown
    let revs := (r.1.revs.filter fun y => !(y.win == w.win && y.group == w.group)) ++ if p.late = 2 then [⟨w.win, w.group, rev⟩] else []
    ({ r.1 with queue := r.1.queue ++ [x.1], queued := r.1.queued ++ [(shown, ⟨w.win, w.start, w.end_, w.group, w.aggs⟩)], revs := revs }, r.2 + x.2)) (st, 0)

/-- What the tide has passed is freed: closed sessions, panes whose last window is closed and no longer retained. -/
def RipSpec.prune (p : RipSpec) (tide : Nat) (st : WinStore) : WinStore :=
  let keep := if p.late = 2 then p.lateness else 0
  { st with
    panes := st.panes.filter fun x =>
      if p.kind = 2 then decide (tide < x.end_) else decide (tide < p.winEnd (x.idx + p.panes - 1) + keep)
    revs := st.revs.filter fun r => decide (tide < p.winEnd r.win + keep) }

/-- The tide passes from `lo` to `hi`: closes in order, then the freeing of retained windows. Rows, and overflows. -/
def RipSpec.advance (p : RipSpec) (gt : List Nat) (free lo hi : Nat) (st : WinStore) : WinStore × Nat × Nat :=
  let ws := p.closing gt st lo hi
  let r := p.emit free st ws
  (p.prune hi r.1, ws.length, r.2)

/-! Events (R347, R350). -/

/-- A group key's values in canonical form, so that equal keys are equal data. -/
def canonVal (ty : Nat) : Val → Val
  | .num n => .num (canonBits ty n)
  | v => v

/-- What became of an event. -/
inductive Fate where
  | applied (late : List Nat) | dropped | side | noTime
  deriving DecidableEq, Repr

/-- Sessions of one group with a new span: those that overlap it merge, each cut at start + MAXLEN. DEDUCED (log 12). -/
def RipSpec.mergeSessions (p : RipSpec) (xs : List Pane) : List Pane :=
  let cap (x : Pane) : Pane := if p.offset = 0 then x else { x with end_ := min x.end_ (x.start + p.offset) }
  (sortBy (fun a b => decide (a.start ≤ b.start)) xs).foldl (fun (acc : List Pane) x =>
    match acc.getLast? with
    | some l =>
      if x.start < l.end_ then
        let m : Pane := { l with
          end_ := max l.end_ x.end_, aggs := (List.zip p.aggs (List.zip l.aggs x.aggs)).map fun e => aggMerge e.1 p.seed e.2.1 e.2.2 }
        acc.dropLast ++ [cap m]
      else acc ++ [cap x]
    | none => [cap x]) []

def addAll (p : RipSpec) (t arr : Nat) (row : List Val) (aggs : List AggSt) : List AggSt :=
  (List.zip p.aggs aggs).map fun e => aggAdd e.1 p.seed t arr e.2 (if e.1.col = 0xFFFF then .null else row.getD e.1.col .null)

/-- A session event: it joins the session that holds it, or opens one of its own, and sessions that now overlap merge. -/
def RipSpec.sessionAdd (p : RipSpec) (st : WinStore) (t : Nat) (g : List Val) (row : List Val) : WinStore :=
  let mine := st.panes.filter fun x => x.group == g
  let rest := st.panes.filter fun x => x.group != g
  let hit := mine.find? fun x => decide (x.start ≤ t) && decide (t < x.end_)
  let span : Pane := { idx := 0, start := t, end_ := t + p.size, group := g, aggs := addAll p t (st.arrivals + 1) row (p.aggs.map aggInit) }
  let next := match hit with
    | some x =>
      -- the event is applied to its session in arrival order, then the longer span may meet the next session
      mine.map fun y => if y == x then { x with end_ := max x.end_ (t + p.size), aggs := addAll p t (st.arrivals + 1) row x.aggs } else y
    | none => mine ++ [span]
  { st with panes := rest ++ p.mergeSessions next, arrivals := st.arrivals + 1 }

/-- A late session event: its own span has passed and it meets no open session. -/
def RipSpec.sessionLate (p : RipSpec) (tide : Nat) (st : WinStore) (t : Nat) (g : List Val) : Bool :=
  decide (t + (if p.offset = 0 then p.size else min p.size p.offset) ≤ tide) && !st.panes.any fun x =>
    x.group == g && decide (t < x.end_) && decide (x.start < t + p.size) && decide (tide < x.end_)

def RipSpec.paneAdd (p : RipSpec) (st : WinStore) (k t : Nat) (g : List Val) (row : List Val) : WinStore :=
  let old := (st.panes.find? fun x => x.idx == k && x.group == g).getD
    { idx := k, start := p.winStart k, end_ := p.winEnd k, group := g, aggs := p.aggs.map aggInit }
  { st with panes := (st.panes.filter fun x => !(x.idx == k && x.group == g)) ++ [{ old with aggs := addAll p t (st.arrivals + 1) row old.aggs }],
            arrivals := st.arrivals + 1 }

/-- One event at the node's tide: the store after it and what became of it; `applied` names the closed windows that it
changed. -/
def RipSpec.applyEvent (p : RipSpec) (tide scale : Nat) (entry : SchEntry) (gt : List Nat) (st : WinStore) (row : List Val) :
    WinStore × Fate :=
  match eventTu entry scale (row.getD p.event .null) with
  | none => (st, .noTime)
  | some t =>
    let g := (List.zip gt p.groups).map fun e => canonVal e.1 (row.getD e.2 .null)
    if p.kind = 2 then
      if p.sessionLate tide st t g then (st, if p.late = 1 then .side else .dropped) else (p.sessionAdd st t g row, .applied [])
    else
      let k := p.paneOf t
      let ws := p.winsOf k
      let openW := ws.filter fun w => decide (tide < p.winEnd w)
      let kept := ws.filter fun w => decide (p.winEnd w ≤ tide) && p.late == 2 && decide (tide < p.winEnd w + p.lateness)
      if openW.isEmpty && kept.isEmpty then (st, if p.late = 1 then .side else .dropped)
      else (p.paneAdd st k t g row, .applied kept)

/-- Events of a slice applied in order: the store, the late rows, counts of applied, dropped and null times, the closed
windows that changed. -/
structure Applied where
  store : WinStore
  side : List (List Val) := []
  applied : Nat := 0
  dropped : Nat := 0
  noTime : Nat := 0
  changed : List (Nat × List Val) := []
  deriving DecidableEq, Repr

def RipSpec.applyAll (p : RipSpec) (tide scale : Nat) (entry : SchEntry) (gt : List Nat) (st : WinStore) (rows : List (List Val)) :
    Applied :=
  rows.foldl (fun (a : Applied) row =>
    let r := p.applyEvent tide scale entry gt a.store row
    match r.2 with
    | .noTime => { a with noTime := a.noTime + 1 }
    | .dropped => { a with dropped := a.dropped + 1 }
    | .side => { a with side := a.side ++ [row] }
    | .applied late =>
      let g := (List.zip gt p.groups).map fun e => canonVal e.1 (row.getD e.2 .null)
      { a with store := r.1, applied := a.applied + 1, changed := a.changed ++ (late.map fun w => (w, g)) }) { store := st }

/-- The changed windows queued once more, in the order of R348; how many, and overflows. -/
def RipSpec.revise (p : RipSpec) (gt : List Nat) (free : Nat) (a : Applied) : WinStore × Nat × Nat :=
  let ws := sortBy (winLe gt) (a.changed.eraseDups.filterMap fun k => p.winOut a.store k.1 k.2)
  let r := p.emit free a.store ws
  (r.1, ws.length, r.2)

/-! Space (R358, R359). -/

/-- The bytes that a store holds (log 10). -/
def RipSpec.bytes (p : RipSpec) (st : WinStore) : Nat :=
  st.panes.foldl (fun n x => n + 32 + rowFoot x.group + (List.zip p.aggs x.aggs).foldl (fun m e => m + aggFoot e.1 e.2) 0) 0 +
  st.queue.foldl (fun n r => n + rowFoot r) 0 + 32 * st.revs.length

/-- The input columns that a store's aggregates read. -/
def WinStore.tys (st : WinStore) : List Nat := (st.cols.getD []).map colTy

/-- The stage parameters that a store is bound to. -/
def WinStore.spec (st : WinStore) : RipSpec := ripSpec (st.params.getD []) st.tys

/-- USED of a store in MiB. -/
def WinStore.used (st : WinStore) : Nat := pagesMib (st.spec.bytes st)

/-- STATE_MIB: the MiB that every store holds. -/
def State.stateMib (s : State) : Nat := s.stores.foldl (fun n e => n + e.2.used) 0

/-- The state notice (R362). -/
def State.stateNotice (s : State) : State :=
  s.noticeEval 5 s.stateMib (s.fld RIPENER.MARK) (s.fld RIPENER.HYST) 0 RIPENER.CROSSED RIPENER.STATE_CROSSINGS 0x0AC

/-- A tier's MiB in use for purposes without a region, changed from one number to another. -/
def State.tierShift (s : State) (tier before after : Nat) : State :=
  s.modTiers fun t =>
    if tier = 1 then { t with creamOther := t.creamOther + after - before } else { t with skimOther := t.skimOther + after - before }

/-- A store replaced: the pages it takes and the notice follow. -/
def State.setStore (s : State) (id : Nat) (st : WinStore) : State :=
  let before := ((Table.find? s.stores id).map (·.used)).getD 0
  ({ s with stores := Table.put s.stores id st }.tierShift st.tier before st.used).stateNotice

/-- Free MiB of a store's tier. -/
def State.tierFree (s : State) (tier : Nat) : Nat := if tier = 1 then s.creamFree else s.skimFree

/-! Validation (R345, R346, R351, R352, R358). -/

def entryOf (ty : Nat) : SchEntry := { (default : SchEntry) with ty := ty }

/-- Whether a column is of one entry of a type, or an aggregate's own column type. -/
def RipSpec.outTypes (p : RipSpec) (cols : List (List SchEntry)) : List (List SchEntry) :=
  let one (ty : Nat) : List SchEntry := [entryOf ty]
  let src (g : AggSpec) : List SchEntry := cols.getD g.col []
  [one 8, one 8, one 6] ++ (p.groups.map fun g => cols.getD g []) ++ p.aggs.flatMap fun g =>
    match g.fn with
    | 1 | 9 => [one 8]
    | 2 => [one (if tyFloat g.ty then 0x0C else 0x04)]
    | 5 | 6 => [one 0x0C]
    | 10 => [entryOf 0x15 :: src g, [entryOf 0x15, entryOf 8]]
    | 11 => [[{ entryOf 0x17 with listSize := g.nq }, entryOf 0x0C]]
    | _ => [src g]

/-- The output schema is the one of R351, its aggregates' entries NULLABLE. -/
def RipSpec.outOk (p : RipSpec) (cols out : List (List SchEntry)) : Bool :=
  let lists := (List.zip out (p.outTypes cols)).all fun e =>
    -- the item of a LIST has its own type whatever its list's parameters are
    sameCol e.1 e.2
  out.length == (p.outTypes cols).length && lists && (out.drop (3 + p.ngroup)).all fun c => c.all (·.nullable)

/-- What is wrong with an aggregate record. -/
def aggFlaws (b : Bytes) (cols : List (List SchEntry)) (k : Nat) : List Flaw :=
  let o := 64 + 16 * k
  let g := aggAt b (cols.map colTy) k
  let c := cols.getD g.col []
  let bad (ok : Bool) (off : Nat) : List Flaw := parFlaw ok (o + off) 0x6E
  let num := tyInt g.ty || tyFloat g.ty
  bad (decide (1 ≤ g.fn) && decide (g.fn ≤ 11)) 0 ++
  bad (match g.fn with
    | 9 => decide (4 ≤ g.a) && decide (g.a ≤ 18)
    | 10 => decide (1 ≤ g.a)
    | 11 => decide (2 ≤ g.a) && decide (g.a ≤ 12)
    | 6 => decide (g.a ≤ 1)
    | _ => g.a == 0) 1 ++
  bad (if g.fn = 1 ∧ g.col = 0xFFFF then true
    else decide (g.col < cols.length) && (match g.fn with
      | 2 | 5 | 6 | 11 => num && !tyDict (headTy c)
      | 3 | 4 | 9 | 10 => !tyList (headTy c)
      | _ => true)) 2 ++
  bad (match g.fn with
    | 10 => decide (g.a ≤ g.b) && decide (g.b ≤ 4096)
    | 11 => decide (16 ≤ g.b) && decide (g.b ≤ 4096)
    | _ => g.b == 0) 4 ++
  bad (if g.fn = 11 then decide (1 ≤ g.nq) && decide (g.nq ≤ 4) else g.nq == 0) 6 ++ bad (byteAt b (o + 7) == 0) 7 ++
  (g.qs.zipIdx.flatMap fun q => bad (if q.2 < g.nq then decide (q.1 ≤ 10000) else q.1 == 0) (8 + 2 * q.2))

/-- What is wrong with the windows' fields. -/
def windowFlaws (p : RipSpec) (b : Bytes) (op : Nat) (cols : List (List SchEntry)) : List Flaw :=
  let bad (ok : Bool) (off : Nat) : List Flaw := parFlaw ok off 0x6E
  let big : Nat := 2 ^ 48
  let hop := leAt b 16 8
  bad (decide (p.kind ≤ 2)) 0 ++ bad (decide (p.late ≤ 2) && !(p.late == 2 && p.kind == 2)) 1 ++
  bad (decide (byteAt b 2 ≤ if op = 1 then 1 else 0)) 2 ++ bad (decide (1 ≤ p.nagg) && decide (p.nagg ≤ 32)) 3 ++
  bad (decide (p.ngroup ≤ 8)) 4 ++ bad (decide (p.event < cols.length) &&
    (headTy (cols.getD p.event []) == 0x0F || headTy (cols.getD p.event []) == 0x0E || op == 4)) 6 ++
  bad (decide (1 ≤ p.size) && decide (p.size ≤ big)) 8 ++
  bad (if p.kind = 1 then decide (1 ≤ hop) && p.size % max 1 hop == 0 && decide (p.size / max 1 hop ≤ 64) else hop == 0) 16 ++
  bad (match p.kind with | 0 => decide (p.offset < p.size) | 1 => decide (p.offset < hop) | _ => true) 24 ++
  bad (if p.late = 2 then decide (1 ≤ p.lateness) && decide (p.lateness ≤ big) else p.lateness == 0) 32 ++
  ((List.range 8).flatMap fun j =>
    let c := leAt b (48 + 2 * j) 2
    bad (if j < p.ngroup then decide (c < cols.length) && !tyList (headTy (cols.getD c [])) else c == 0) (48 + 2 * j))

/-- What is wrong with a Ripener stage. -/
def checkRipener (s : State) (p : Plan) (i : Nat) : List Flaw :=
  let st := p.stage i
  let b := p.block st
  let cols := p.inCols i 0
  let store := Table.find? s.stores (byteAt b 5)
  let bound := (store.bind (·.cols)).getD cols
  let x := ripSpec b (cols.map colTy)
  let outKind (k : Nat) : Bool := (match st.out_ k with | .vat _ => true | .bind .. => p.isBind 1 (st.out_ k) | _ => false)
  let sideOk := if x.late = 1 ∧ st.op ≤ 2 then outKind 1 && sameCols (p.outCols i 1) cols else !(st.out_ 1).given
  recFlaw (decide (1 ≤ st.op) && decide (st.op ≤ 4)) 1 0x6E ++
  restNone st (if st.op = 3 then 0 else 1) 2 ++
  (if st.op = 3 then [] else inFlaw (p.isCols (st.in_ 0)) 0) ++
  (if st.op = 1 then parFlaw (byteAt b 5 == 0) 5 0x6E else parFlaw store.isSome 5 0xA2) ++
  (if st.op = 3 then
    let ok := match store with
      | some w => w.params.isNone || w.spec.outOk bound (p.outCols i 0)
      | none => true
    recFlaw (decide (st.pLen = 64)) 12 0x6E ++ parFlaw (zeroFrom b 0 5) 0 0x6E ++ parFlaw (zeroFrom b 6 64) 6 0x6E ++
    outFlaw (outKind 0 && ok) 0 ++ outFlaw (!(st.out_ 1).given) 1
  else
    let aggCols := if st.op = 4 then bound else cols
    recFlaw (decide (st.pLen = 64 + 16 * byteAt b 3)) 12 0x6E ++ windowFlaws x b st.op (if st.op = 4 then bound else cols) ++
    ((List.range (byteAt b 3)).flatMap (aggFlaws b aggCols)) ++
    outFlaw (if st.op = 2 then !(st.out_ 0).given else outKind 0 && (ripSpec b (aggCols.map colTy)).outOk aggCols (p.outCols i 0)) 0 ++
    outFlaw sideOk 1 ++
    (if st.op = 1 then []
    else parFlaw (match store.bind (·.params) with | some q => q == b | none => true) 0 0xA0))

/-- The stores that a job's FEED and READ stages name are bound to their parameters, FEED's input columns kept (R358). -/
def State.bindStores (s : State) (p : Plan) : State :=
  (List.range p.stages.length).foldl (fun s i =>
    let st := p.stage i
    let b := p.block st
    if st.cls = 7 ∧ (st.op = 2 ∨ st.op = 4) then
      match Table.find? s.stores (byteAt b 5) with
      | none => s
      | some w =>
        let w1 := if w.params.isNone then { w with params := some b } else w
        let w2 := if st.op = 2 ∧ w1.cols.isNone then { w1 with cols := some (p.inCols i 0) } else w1
        s.setStore (byteAt b 5) w2
    else s) s

/-! Slices. -/

/-- Counts of an application. -/
def State.ripCount (s : State) (page : Nat) (a : Applied) (revs spilt : Nat) : State :=
  let s1 := (((s.count (RIPENER.EVENTS_IN.on page) a.applied).count (RIPENER.LATE_DROPPED.on page) a.dropped).count
    (RIPENER.LATE_SIDE.on page) a.side.length).count (RIPENER.NULL_TIME.on page) a.noTime
  let s2 := (s1.count (RIPENER.REVISIONS.on page) revs).count (RIPENER.AGG_OVERFLOWS.on page) spilt
  (if spilt = 0 then s2 else s2.raiseOwn page 16).useOpen

/-- A slice of AGG: its events applied to the private store, what is queued there handed on; with the last one the store
ends, its open windows closed where FLUSH is set (R348 to R350). -/
def runAgg (s : State) (c : Ctx) : Ran :=
  match s.job? c.job with
  | none => .done s true
  | some job =>
    let e := job.engOf c.stage
    let av := inputLen job (c.in_ 0)
    let n := min c.count (av.1 - e.consumed)
    let last := !av.2 && decide (av.1 ≤ e.consumed + n)
    let cols := c.inCols 0
    let p := ripSpec c.block (cols.map colTy)
    let gt := p.groups.map fun g => (cols.map colTy).getD g 0
    Ran.with s (s.inputRows job c 0 e.consumed n) fun rows =>
      let st0 := (Table.find? job.stores c.stage).getD { params := some c.block, cols := some cols }
      let a := p.applyAll s.tide.now s.scale ((cols.getD p.event []).headD default) gt st0 rows
      let r := p.revise gt s.free a
      let f := if last && p.flush then
          let ws := p.closing gt r.1 s.tide.now (2 ^ 70)
          let y := p.emit s.free r.1 ws
          (y.1, ws.length, y.2)
        else (r.1, 0, 0)
      let s1 := (s.ripCount c.page a r.2.1 (r.2.2 + f.2.2)).count (RIPENER.WINDOWS_CLOSED.on c.page) f.2.1
      let outs := [(0, f.1.queue)] ++ if p.late = 1 then [(1, a.side)] else []
      Ran.with s1 (s1.appendOuts c outs) fun s2 =>
        let s3 := s2.updJob c.job fun x =>
          { x with stores := if last then Table.drop x.stores c.stage else Table.put x.stores c.stage { f.1 with queue := [], queued := [] } }
        .done (s3.setEng c.job c.stage { e with consumed := e.consumed + n }) last

/-- A slice of FEED: its events are read now and applied when it ends (R359). -/
def runFeed (s : State) (c : Ctx) : Ran :=
  match s.job? c.job with
  | none => .done s true
  | some job =>
    let e := job.engOf c.stage
    let av := inputLen job (c.in_ 0)
    let n := min c.count (av.1 - e.consumed)
    Ran.with s (s.inputRows job c 0 e.consumed n) fun rows =>
      .done (s.setEng c.job c.stage { e with consumed := e.consumed + n, held := rows }) (!av.2 && decide (av.1 ≤ e.consumed + n))

/-- The events of a FEED slice applied as it ends: all of them, or none where the store's quota or its tier is exhausted
(R359). -/
def feedApply (s : State) (c : Ctx) : Ran :=
  match s.job? c.job with
  | none => .done s false
  | some job =>
    let e := job.engOf c.stage
    let id := byteAt c.block 5
    match Table.find? s.stores id with
    | none => .failed s 0xA2 0
    | some st0 =>
      let cols := c.inCols 0
      let p := ripSpec c.block (cols.map colTy)
      let gt := p.groups.map fun g => (cols.map colTy).getD g 0
      let a := p.applyAll s.tide.now s.scale ((cols.getD p.event []).headD default) gt st0 e.held
      let r := p.revise gt s.free a
      if a.applied ≠ 0 ∧ (st0.quota < r.1.used ∨ st0.used + s.tierFree st0.tier < r.1.used) then .failed (s.raiseOwn 0x0AC 17) 0xA1 0
      else
        let s1 := ((s.ripCount c.page a r.2.1 r.2.2).setStore id r.1).setEng c.job c.stage { e with held := [] }
        if p.late = 1 then Ran.with s1 (s1.appendOut c 1 a.side) fun s2 => .done s2 false else .done s1 false

/-- The rows at the head of a list that an output holds beside those it has. -/
def fitting (job : Job) (plan : Plan) (x : Operand) (cols : List (List SchEntry)) (have_ : List (List Val)) :
    List (List Val) → List (List Val) → List (List Val)
  | acc, [] => acc
  | acc, r :: rs =>
    match outputTrouble job plan x cols (have_ ++ acc ++ [r]) with
    | some (0x70, _) => acc
    | _ => fitting job plan x cols have_ (acc ++ [r]) rs

/-- A slice of DRAIN: rows from the head of the queue while OUT0 takes them (R360). -/
def runDrain (s : State) (c : Ctx) : Ran :=
  match s.job? c.job, Table.find? s.stores (byteAt c.block 5) with
  | some job, some st =>
    let e := job.engOf c.stage
    -- the first row's place among all rows that the queue has held
    let from_ := (Table.find? e.nums 0).getD st.gone
    let rest := st.queue.drop (from_ + e.consumed - st.gone)
    let want := rest.take c.count
    let rows := fitting job c.plan (c.out_ 0) (c.outCols 0) (job.outRows c.stage 0) [] want
    Ran.with s (s.appendOut c 0 rows) fun s1 =>
      .done (s1.setEng c.job c.stage { e with consumed := e.consumed + rows.length, nums := Table.put e.nums 0 from_ })
        (decide (rows.length < want.length) || decide (rest.length ≤ rows.length))
  | _, _ => .failed s 0xA2 0

/-- The rows that a job's DRAIN stages wrote leave their queues as it commits (R360). -/
def State.drainCommit (s : State) (job : Job) : State :=
  (List.range job.plan.stages.length).foldl (fun s i =>
    let st := job.plan.stage i
    if st.cls = 7 ∧ st.op = 3 then
      let e := job.engOf i
      let id := byteAt (job.plan.block st) 5
      match Table.find? s.stores id with
      | none => s
      | some w =>
        let k := (Table.find? e.nums 0).getD w.gone + e.consumed - w.gone
        s.setStore id { w with queue := w.queue.drop k, queued := w.queued.drop k, gone := w.gone + k }
    else s) s

/-- The row that READ answers for a key (R360). DEDUCED (log 13): of the hopping windows that hold the group and contain
the tide, the one with the latest start. -/
def RipSpec.readRow (p : RipSpec) (tide : Nat) (st : WinStore) (g shown : List Val) : List Val × Nat :=
  let w :=
    if p.kind = 2 then
      ((sortBy (fun (a b : Pane) => decide (b.start ≤ a.start)) (st.panes.filter fun x => x.group == g && decide (tide < x.end_))).head?).map sessionOut
    else
      (p.winsOf (p.paneOf tide)).reverse.findSome? fun w => p.winOut st w g
  match w with
  | none => ([.null, .null, .null] ++ shown ++ (p.aggs.flatMap fun a => List.replicate (aggCols a) Val.null), 0)
  | some w =>
    let r := p.row w ((revOf st w).getD 0 % 65536)
    (r.1.take 3 ++ shown ++ r.1.drop (3 + shown.length), r.2)

/-- A slice of READ. -/
def runReadStage (s : State) (c : Ctx) : Ran :=
  match s.job? c.job, Table.find? s.stores (byteAt c.block 5) with
  | some job, some st =>
    let e := job.engOf c.stage
    let av := inputLen job (c.in_ 0)
    let n := min c.count (av.1 - e.consumed)
    let cols := st.cols.getD (c.inCols 0)
    let p := ripSpec c.block (cols.map colTy)
    let gt := p.groups.map fun g => (cols.map colTy).getD g 0
    Ran.with s (s.inputRows job c 0 e.consumed n) fun rows =>
      let outs := rows.map fun row =>
        let shown := p.groups.map fun g => row.getD g .null
        p.readRow s.tide.now st ((List.zip gt shown).map fun x => canonVal x.1 x.2) shown
      let spilt := outs.foldl (fun m o => m + o.2) 0
      let s1 := s.count (RIPENER.AGG_OVERFLOWS.on c.page) spilt
      let s2 := if spilt = 0 then s1 else s1.raiseOwn c.page 16
      Ran.with s2 (s2.appendOut c 0 (outs.map (·.1))) fun s3 =>
        .done (s3.setEng c.job c.stage { e with consumed := e.consumed + n }) (!av.2 && decide (av.1 ≤ e.consumed + n))
  | _, _ => .failed s 0xA2 0

def runRipener (s : State) (c : Ctx) : Ran :=
  match c.st.op with
  | 1 => runAgg s c
  | 2 => runFeed s c
  | 3 => runDrain s c
  | _ => runReadStage s c

/-! The tide (R216 class 5, R348). -/

/-- Windows of every store closed and freed as the tide passes from `lo` to `hi`; those of tide closes are counted on page
0x0AC (log 14). -/
def State.ripenerTide (s : State) (lo hi : Nat) : State :=
  let tally (s : State) (closed spilt : Nat) : State :=
    let s1 := (s.count RIPENER.WINDOWS_CLOSED closed).count RIPENER.AGG_OVERFLOWS spilt
    (if spilt = 0 then s1 else s1.raiseOwn 0x0AC 16).useOpen
  let s1 := s.stores.foldl (fun (s : State) (e : Nat × WinStore) =>
    if e.2.params.isNone then s
    else
      let p := e.2.spec
      let gt := p.groups.map fun g => e.2.tys.getD g 0
      let r := p.advance gt s.free lo hi e.2
      (tally s r.2.1 r.2.2).setStore e.1 r.1) s
  s1.work.jobs.foldl (fun (s : State) (j : Nat × Job) =>
    j.2.stores.foldl (fun (s : State) (e : Nat × WinStore) =>
      let p := e.2.spec
      let gt := p.groups.map fun g => e.2.tys.getD g 0
      let r := p.advance gt s.free lo hi e.2
      (tally s r.2.1 r.2.2).updJob j.1 fun x => { x with stores := Table.put x.stores e.1 r.1 }) s) s1

end Sys2Proof.Machine
end

