-- ==== Sys2Proof/Machine/Normaliser.lean ====
section
/-! DEFINITION. Normaliser (R364 to R368). -/

namespace Sys2Proof.Machine

open Sys2Proof.Reg

/-! The parameter block (Table 18-2). -/

structure NormOp where
  fn : Nat
  flags : Nat
  col : Nat
  otype : Nat
  p0 : Nat
  p1 : Nat
  deriving DecidableEq, Repr, Inhabited

def NormOp.clip (o : NormOp) : Bool := bitAt o.flags 0
def NormOp.stats (o : NormOp) : Bool := bitAt o.flags 1
def NormOp.hide (o : NormOp) : Bool := bitAt o.flags 2

def normOp (b : Bytes) (k : Nat) : NormOp :=
  let o := 16 + 32 * k
  ⟨byteAt b o, byteAt b (o + 1), leAt b (o + 2) 2, byteAt b (o + 4), leAt b (o + 8) 8, leAt b (o + 16) 8⟩

def npSeed (b : Bytes) : Nat := leAt b 8 8
def normOps (b : Bytes) : List NormOp := (List.range (byteAt b 0)).map (normOp b)

/-- The column references of CROSS in the parameter area. -/
def crossRefs (params : Bytes) (o : NormOp) : List Nat := nodeSet params (o.p0 % 2 ^ 32) (o.p0 / 2 ^ 32)

/-- The boundaries of BUCKET in the parameter area. -/
def bucketBounds (params : Bytes) (o : NormOp) : List Nat :=
  (List.range (o.p0 / 2 ^ 32)).map fun k => leAt params (o.p0 % 2 ^ 32 + 8 * k) 8

/-! Types (Table 18-4). -/

/-- The column of an op's output, for the column of its input. -/
def normCol (o : NormOp) (src : List SchEntry) : List SchEntry :=
  match o.fn with
  | 6 => [entryOf 0x01]
  | 7 | 8 | 9 | 12 => [entryOf 0x07]
  | 10 => [entryOf 0x15, entryOf 0x07]
  | 11 => [entryOf 0x03]
  | 13 => src
  | _ => [entryOf o.otype]

/-- What a column reference names: a column of IN0 or an earlier op's output. -/
def refCol (cols outs : List (List SchEntry)) (r : Nat) : List SchEntry :=
  if bitAt r 15 then outs.getD (r % 32768) [] else cols.getD r []

/-- The columns of the ops' outputs. -/
def normCols (cols : List (List SchEntry)) (ops : List NormOp) : List (List SchEntry) :=
  ops.foldl (fun (outs : List (List SchEntry)) o => outs ++ [normCol o (refCol cols outs o.col)]) []

/-! Validation (R364 to R367). -/

def finiteF (a : Nat) : Bool := match fpOf f64 a with | .fin .. => true | _ => false

/-- Boundaries strictly ascending without NaN. -/
def risingF : List Nat → Bool
  | a :: b :: r => ltF a b && risingF (b :: r)
  | [a] => !isNanF a
  | [] => true

/-- Flaws of op `k`. -/
def normFlaws (s : State) (p : Plan) (binds : List Bind) (st : Stage) (cols : List (List SchEntry)) (stats : List (List SchEntry))
    (ops : List NormOp) (k : Nat) : List Flaw :=
  let o := ops.getD k default
  let at_ := 16 + 32 * k
  let b := p.block st
  let bad (ok : Bool) (off : Nat) : List Flaw := parFlaw ok (at_ + off) 0x6E
  let outs := normCols cols ops
  let refOk (r : Nat) : Bool := if bitAt r 15 then decide (r % 32768 < k) else decide (r < cols.length)
  let c := refCol cols outs o.col
  let ty := headTy c
  let num := tyInt ty || tyFloat ty
  let reads (j : NormOp) : Bool := j.col == 32768 + k || (j.fn == 12 && (crossRefs p.params j).contains (32768 + k))
  let area (off n : Nat) : Bool := decide (off + n ≤ p.params.length)
  bad (decide (1 ≤ o.fn) && decide (o.fn ≤ 13)) 0 ++ bad (decide (o.flags < 8) && (!o.hide || ops.any reads)) 1 ++
  bad (o.fn == 12 || (refOk o.col && (match o.fn with
    | 8 => !tyList ty
    | 9 => tyInt ty
    | 10 => tyVarList ty && tyInt (headTy (c.drop 1))
    | 11 => ty == 0x0E || ty == 0x0F
    | 13 => true
    | _ => num))) 2 ++
  bad (if decide (1 ≤ o.fn) && decide (o.fn ≤ 5) then tyFloat o.otype else o.otype == 0) 4 ++ bad (zeroFrom b (at_ + 5) (at_ + 8)) 5 ++
  (match o.fn with
  | 2 => if o.stats then
        let isF (i : Nat) : Bool := decide (i < stats.length) && headTy (stats.getD i []) == 0x0C
        parFlaw (isF (o.p0 % 65536) && isF (o.p0 / 65536 % 65536)) (at_ + 8) 0xA8
      else []
  | 3 => bad (finiteF o.p0 && finiteF o.p1 && ltF o.p0 o.p1) 8
  | 6 => bad (finiteF o.p0 && ltF 0 o.p0) 8 ++ bad (decide (-128 ≤ toSigned 64 o.p1) && decide (toSigned 64 o.p1 ≤ 127)) 16
  | 7 =>
    let n := o.p0 / 2 ^ 32
    let off := o.p0 % 2 ^ 32
    bad (decide (1 ≤ n) && decide (n ≤ 4096) && off % 8 == 0 && area off (8 * n) && risingF (bucketBounds p.params o)) 8
  | 8 =>
    let ok1 := p.isBind 7 (st.in_ 1)
    let n := (bitsSet o.p0 32).length
    let e := 16384 / keyUnits (colTy c)
    bad (decide (o.p0 ≠ 0) && decide (o.p0 < 2 ^ 32) && (!ok1 || subMask o.p0 (binds.getD (st.in_ 1).slot default).aux)) 8 ++
    parFlaw ((bitsSet o.p0 32).all fun q => s.bankUnits q == keyUnits (colTy c)) (at_ + 8) 0x89 ++
    bad (decide (n * e + o.p1 ≤ 2 ^ 32)) 16
  | 9 | 10 => bad (decide (1 ≤ o.p0) && decide (o.p0 < 2 ^ 32)) 8
  | 11 => bad (decide (o.p0 ≤ 7) && !(decide (4 ≤ o.p0) && decide (o.p0 ≤ 6) && ty == 0x0E)) 8
  | 12 =>
    let n := o.p0 / 2 ^ 32
    bad (decide (2 ≤ n) && decide (n ≤ 8) && area (o.p0 % 2 ^ 32) (2 * n) &&
      (crossRefs p.params o).all fun r => refOk r && !tyList (headTy (refCol cols outs r))) 8 ++
    bad (decide (1 ≤ o.p1) && decide (o.p1 < 2 ^ 32)) 16
  | _ => []) ++ bad (zeroFrom b (at_ + 24) (at_ + 32)) 24

/-- What is wrong with a Normaliser stage. -/
def checkNormaliser (s : State) (p : Plan) (binds : List Bind) (i : Nat) : List Flaw :=
  let st := p.stage i
  let b := p.block st
  let cols := p.inCols i 0
  let ops := normOps b
  let shown := (List.zip ops (normCols cols ops)).filterMap fun e => if e.1.hide then none else some e.2
  let outKind := (match st.out_ 0 with | .vat _ => true | .bind .. => p.isBind 1 (st.out_ 0) | _ => false)
  recFlaw (st.op == 1) 1 0x6E ++ recFlaw (decide (st.pLen = 16 + 32 * byteAt b 0)) 12 0x6E ++
  parFlaw (decide (1 ≤ byteAt b 0) && decide (byteAt b 0 ≤ 64)) 0 0x6E ++ parFlaw (zeroFrom b 1 8) 1 0x6E ++
  inFlaw (p.isCols (st.in_ 0)) 0 ++
  inFlaw (if (st.in_ 1).given then p.isBind 7 (st.in_ 1) else ops.all fun o => o.fn != 8) 1 ++
  inFlaw (if (st.in_ 2).given then p.isCols (st.in_ 2) else ops.all fun o => !(o.fn == 2 && o.stats)) 2 ++ restNone st 3 1 ++
  outFlaw (outKind && sameCols (p.outCols i 0) shown && (p.outCols i 0).all fun c => (c.headD default).nullable) 0 ++
  (List.range (byteAt b 0)).flatMap (normFlaws s p binds st cols (p.inCols i 2) ops)

/-! Values (R366 to R368). -/

/-- Counts that ops make. -/
structure NormCount where
  domain : Nat := 0
  sat : Nat := 0
  oov : Nat := 0
  range : Nat := 0
  degen : Nat := 0
  searches : Nat := 0
  deriving DecidableEq, Repr

/-- A result in binary64 rounded to OTYPE. -/
def toType (ty v : Nat) : Val := .num (fpEnc ty (fpOf f64 v))

/-- Year, month, day of a day count from 1970-01-01 in the proleptic Gregorian calendar. -/
def civil (days : Int) : Int × Nat × Nat :=
  let z := days + 719468
  let era := z.fdiv 146097
  let doe := (z - era * 146097).toNat
  let yoe := (doe - doe / 1460 + doe / 36524 - doe / 146096) / 365
  let doy := doe - (365 * yoe + yoe / 4 - yoe / 100)
  let mp := (5 * doy + 2) / 153
  let d := doy - (153 * mp + 2) / 5 + 1
  let m := if mp < 10 then mp + 3 else mp - 9
  let y : Int := yoe + era * 400 + (if m ≤ 2 then 1 else 0)
  (y, m, d)

def leapYear (y : Int) : Bool := y % 4 == 0 && (y % 100 != 0 || y % 400 == 0)

def dayOfYear (y : Int) (m d : Nat) : Nat :=
  let before := ([0, 31, 59, 90, 120, 151, 181, 212, 243, 273, 304, 334] : List Nat).getD (m - 1) 0
  before + d + (if leapYear y && decide (2 < m) then 1 else 0)

/-- A part of a date (R368). -/
def datePart (e : SchEntry) (part v : Nat) : Val :=
  let perDay : Int := if e.ty = 0x0E then 1 else ([86400, 86400000, 86400000000, 86400000000000] : List Nat).getD e.param 1
  let x := toSigned (8 * tyWidth e.ty) v
  let days := x.fdiv perDay
  let sec := if e.ty = 0x0E then 0 else (x - days * perDay).toNat / (perDay / 86400).toNat
  let c := civil days
  let r : Int := match part with
    | 0 => c.1
    | 1 => c.2.1
    | 2 => c.2.2
    | 3 => (days + 3).emod 7
    | 4 => (sec / 3600 : Nat)
    | 5 => (sec / 60 % 60 : Nat)
    | 6 => (sec % 60 : Nat)
    | _ => dayOfYear c.1 c.2.1 c.2.2
  if -(2 ^ 31 : Int) ≤ r ∧ r < (2 ^ 31 : Int) then .num (ofSigned 32 r) else .null

/-- An op's value for a non-null input of binary64 `x` (FN 1 to 6). -/
def floatOp (o : NormOp) (mv : Option (Nat × Nat)) (x : Nat) (n : NormCount) : Val × NormCount :=
  match o.fn with
  | 1 => (toType o.otype (fmaF x o.p0 o.p1), n)
  | 2 =>
    match mv with
    | none => (.null, n)
    | some (m, v) =>
      let sd := sqrtF v
      if !finiteF sd || sd % 2 ^ 63 == 0 then (toType o.otype 0, { n with degen := n.degen + 1 })
      else (toType o.otype (divF (subF x m) sd), n)
  | 3 =>
    let r := divF (subF x o.p0) (subF o.p1 o.p0)
    let one := fpInt f64 1
    (toType o.otype (if o.clip then (if ltF r 0 then 0 else if ltF one r then one else r) else r), n)
  | 4 => if ltF x (fpInt f64 (-1)) then (.null, { n with domain := n.domain + 1 }) else (toType o.otype (log1pF x), n)
  | 5 => if ltF x 0 then (.null, { n with domain := n.domain + 1 }) else (toType o.otype (sqrtF x), n)
  | _ =>
    let q := divF x o.p0
    match fpOf f64 q with
    | .nan => (.null, n)
    | .inf neg => (.num (if neg then 0x80 else 0x7F), { n with sat := n.sat + 1 })
    | f =>
      let r := fpRoundInt f + toSigned 64 o.p1
      let c := max (-128) (min 127 r)
      (.num (ofSigned 8 c), if c = r then n else { n with sat := n.sat + 1 })

/-- The integer of an integer value. -/
def asInt (ty : Nat) (v : Nat) : Int := if tySigned ty then toSigned (8 * tyWidth ty) v else v

/-- One op on a row: `refs` reads a column reference, `mv` gives m and v of ZSCORE. -/
def normStep (s : State) (params : Bytes) (seed : Nat) (cols outs : List (List SchEntry)) (stats : List Val) (row : List Val)
    (acc : List Val × NormCount) (o : NormOp) : List Val × NormCount :=
  let get (r : Nat) : Val := if bitAt r 15 then acc.1.getD (r % 32768) .null else row.getD r .null
  let c := refCol cols outs o.col
  let ty := colTy c
  let put (r : Val × NormCount) : List Val × NormCount := (acc.1 ++ [r.1], r.2)
  let n := acc.2
  if o.fn = 12 then
    let ks := (crossRefs params o).map fun r => (colTy (refCol cols outs r), get r)
    put (if ks.any (fun k => k.2 == .null) then .null else .num (reduce (keyhash ks seed) o.p1), n)
  else
    match get o.col with
    | .null => put (.null, n)
    | v =>
      match o.fn, v with
      | 13, _ => put (v, n)
      | 8, _ =>
        let e := 16384 / keyUnits ty
        let n := { n with searches := n.searches + 1 }
        match s.searchBanks o.p0 (valKey ty v) with
        | some m => put (.num ((bitsSet (o.p0 % 2 ^ m.2.1) 32).length * e + m.2.2), n)
        | none =>
          let miss : Val := if o.p1 = 0 then .null else .num ((bitsSet o.p0 32).length * e + reduce (keyhash [(ty, v)] seed) o.p1)
          put (miss, { n with oov := n.oov + 1 })
      | 7, .num x =>
        let y := toF64 ty x
        put (.num ((bucketBounds params o).filter (fun b => decide (orderKey f64 b ≤ orderKey f64 y))).length, n)
      | 9, .num x =>
        let k := asInt ty x
        if 0 ≤ k ∧ k < (o.p0 : Int) then put (.num k.toNat, n) else put (.null, { n with range := n.range + 1 })
      | 10, _ =>
        let ity := headTy (c.drop 1)
        let ks := (unchain v).filterMap fun x => match x with | .num y => some (asInt ity y) | _ => none
        let good := ks.filter fun k => decide (0 ≤ k) && decide (k < (o.p0 : Int))
        let out := sortBy (fun a b => decide (a ≤ b)) (good.eraseDups)
        put (chainOf (out.map fun k => Val.num k.toNat), { n with range := n.range + (ks.length - good.length) })
      | 11, .num x => put (datePart (c.headD default) o.p0 x, n)
      | _, .num x =>
        let mv : Option (Nat × Nat) :=
          if o.stats then
            match stats.getD (o.p0 % 65536) .null, stats.getD (o.p0 / 65536 % 65536) .null with
            | .num m, .num w => some (m, w)
            | _, _ => none
          else some (o.p0, o.p1)
        put (floatOp o mv (toF64 ty x) n)
      | _, _ => put (.null, n)

/-! Slices. -/

/-- A Normaliser slice. -/
def runNormaliser (s : State) (c : Ctx) : Ran :=
  match s.job? c.job with
  | none => .done s true
  | some job =>
    let b := c.block
    let ops := normOps b
    let cols := c.inCols 0
    let outs := normCols cols ops
    let e := job.engOf c.stage
    let av := inputLen job (c.in_ 0)
    let n := min c.count (av.1 - e.consumed)
    let banks := ops.foldl (fun m o => if o.fn = 8 then m ||| o.p0 else m) 0
    let wants := ops.any fun o => o.fn == 2 && o.stats
    if (bitsSet banks 32).any s.bankOos then .failed s 0x90 0
    else if ops.any (fun o => o.fn == 8 && (bitsSet o.p0 32).any fun q => s.bankUnits q != keyUnits (colTy (refCol cols outs o.col))) then
      .failed s 0x89 0
    else if wants && (inputLen job (c.in_ 2)).1 == 0 then .failed s 0xA8 0
    else
      Ran.with s (if wants then s.inputRows job c 2 0 1 else .ok []) fun st =>
      Ran.with s (s.inputRows job c 0 e.consumed n) fun rows =>
        let go := rows.foldl (fun (r : List (List Val) × NormCount) row =>
          let y := ops.foldl (normStep s c.plan.params (npSeed b) cols outs (st.headD []) row) ([], r.2)
          let shown := (List.zip ops y.1).filterMap fun x => if x.1.hide then none else some x.2
          (r.1 ++ [shown], y.2)) ([], {})
        let k := go.2
        let s1 := ((s.count (NORMALISER.ROWS_IN.on c.page) n).count (NORMALISER.DOMAIN_NULLS.on c.page) k.domain).count
          (NORMALISER.SATURATED.on c.page) k.sat
        let s2 := ((s1.count (NORMALISER.OOV.on c.page) k.oov).count (NORMALISER.RANGE_DROPS.on c.page) k.range).count
          (NORMALISER.DEGENERATE.on c.page) k.degen
        let s3 := if k.searches = 0 then s2 else s2.countSearches banks k.searches
        Ran.with s3 (s3.appendOut c 0 go.1) fun s4 =>
          .done (s4.setEng c.job c.stage { e with consumed := e.consumed + n }) (!av.2 && decide (av.1 ≤ e.consumed + n))

end Sys2Proof.Machine
end

