-- ==== Sys2Proof/Machine/Crate.lean ====
section
/-! DEFINITION. Crate (R369 to R377). -/

namespace Sys2Proof.Machine

open Sys2Proof.Reg

/-! The parameter block (Table 18-5). -/

structure TensorSpec where
  col : Nat
  mode : Nat
  flags : Nat
  lmax : Nat
  lround : Nat
  fill : Nat
  deriving DecidableEq, Repr, Inhabited

def TensorSpec.keepLast (t : TensorSpec) : Bool := bitAt t.flags 0
def TensorSpec.lengths (t : TensorSpec) : Bool := bitAt t.flags 1
def TensorSpec.off64 (t : TensorSpec) : Bool := bitAt t.flags 2

def tensorSpec (b : Bytes) (k : Nat) : TensorSpec :=
  let o := 16 + 32 * k
  ⟨leAt b o 2, byteAt b (o + 2), byteAt b (o + 3), leAt b (o + 4) 4, leAt b (o + 8) 4, leAt b (o + 16) 8⟩

def cpB (b : Bytes) : Nat := leAt b 0 4
def cpMask (b : Bytes) : Bool := bitAt (byteAt b 5) 0
def tensorSpecs (b : Bytes) : List TensorSpec := (List.range (byteAt b 4)).map (tensorSpec b)

/-! Shapes (R370). -/

/-- The FIXED_LIST sizes of a column and its innermost entry. -/
def fixedDims : List SchEntry → List Nat × SchEntry
  | [] => ([], default)
  | e :: rest => if tyFixList e.ty then let r := fixedDims rest; (e.listSize :: r.1, r.2) else ([], e)

/-- The DTYPE of an innermost entry, 0 where it has none. -/
def dtypeOf (e : SchEntry) : Nat :=
  if decide (1 ≤ e.ty) && decide (e.ty ≤ 0x0C) then e.ty
  else if tyBool e.ty then 0x05 else if e.ty = 0x0E then 0x03 else if e.ty = 0x0F then 0x04
  else if tyDict e.ty then e.param else 0

/-- The column under its one variable list level, where it has one. -/
def underList (c : List SchEntry) : List SchEntry := if tyVarList (headTy c) then c.drop 1 else c

/-- Whether a column's shape fits a mode. -/
def shapeOk (mode : Nat) (c : List SchEntry) : Bool :=
  let r := fixedDims (underList c)
  let base := r.1.length + (match mode with | 1 => 2 | _ => 1)
  (if mode = 0 then !tyVarList (headTy c) else tyVarList (headTy c)) && decide (dtypeOf r.2 ≠ 0) && decide (base ≤ 4)

/-- A planned record: KIND, DTYPE, width, source column, dims after the first two, capacity. -/
structure RecPlan where
  kind : Nat
  dtype : Nat
  width : Nat
  src : Nat
  link : Nat
  dims : List Nat
  cap : Nat
  deriving DecidableEq, Repr, Inhabited

/-- The records of a batch (Table 18-6), numbered from `at_`. -/
def recPlans (b : Bytes) (cols : List (List SchEntry)) : List TensorSpec → Nat → List RecPlan
  | [], _ => if cpMask b then [⟨5, 0x05, 1, 0xFFFF, 0xFFFF, [], cpB b⟩] else []
  | t :: ts, at_ =>
    let r := fixedDims (underList (cols.getD t.col []))
    let dt := dtypeOf r.2
    let w := tyWidth dt
    let e := r.1.foldl (· * ·) 1
    let n := cpB b
    match t.mode with
    | 0 => ⟨0, dt, w, t.col, 0xFFFF, r.1, n * e * w⟩ :: recPlans b cols ts (at_ + 1)
    | 1 =>
      if t.lengths then
        ⟨1, dt, w, t.col, at_ + 1, r.1, n * t.lmax * e * w⟩ :: ⟨2, 0x03, 4, t.col, at_, [], 4 * n⟩ :: recPlans b cols ts (at_ + 2)
      else ⟨1, dt, w, t.col, 0xFFFF, r.1, n * t.lmax * e * w⟩ :: recPlans b cols ts (at_ + 1)
    | _ =>
      let ow := if t.off64 then 8 else 4
      ⟨3, dt, w, t.col, at_ + 1, r.1, n * t.lmax * e * w⟩ :: ⟨4, if t.off64 then 0x04 else 0x03, ow, t.col, at_, [], (n + 1) * ow⟩ ::
        recPlans b cols ts (at_ + 2)

/-- SLOT (R373). -/
def slotSize (rs : List RecPlan) : Nat := rs.foldl (fun n r => n + 64 + roundUp r.cap 64) 0

/-! Validation. -/

def specFlaws (b : Bytes) (cols : List (List SchEntry)) (k : Nat) : List Flaw :=
  let o := 16 + 32 * k
  let t := tensorSpec b k
  let c := cols.getD t.col []
  let el := (fixedDims (underList c)).2
  let bad (ok : Bool) (off : Nat) : List Flaw := parFlaw ok (o + off) 0x6E
  bad (decide (t.col < cols.length)) 0 ++ parFlaw (!decide (t.col < cols.length) || decide (2 < t.mode) || shapeOk t.mode c) o 0xA9 ++
  bad (decide (t.mode ≤ 2)) 2 ++ bad (decide (t.flags < 8)) 3 ++
  bad (if t.mode = 0 then t.lmax == 0 else decide (1 ≤ t.lmax) && decide (t.lmax ≤ 65536)) 4 ++
  bad (if t.mode = 1 then decide (1 ≤ t.lround) && decide (t.lround ≤ t.lmax) else t.lround == 0) 8 ++ bad (zeroFrom b (o + 12) (o + 16)) 12 ++
  bad (decide (t.fill < 256 ^ max 1 (tyWidth (dtypeOf el))) && !(tyBool el.ty && decide (1 < t.fill))) 16 ++
  bad (zeroFrom b (o + 24) (o + 32)) 24

/-- What is wrong with a Crate stage. -/
def checkCrate (p : Plan) (binds : List Bind) (i : Nat) : List Flaw :=
  let st := p.stage i
  let b := p.block st
  let cols := p.inCols i 0
  let slot := slotSize (recPlans b cols (tensorSpecs b) 0)
  let is0 := p.isBind 2 (st.out_ 0)
  let out0 := binds.getD (st.out_ 0).slot default
  let out1 := binds.getD (st.out_ 1).slot default
  recFlaw (st.op == 1) 1 0x6E ++ recFlaw (decide (st.pLen = 16 + 32 * byteAt b 4)) 12 0x6E ++
  parFlaw (decide (1 ≤ cpB b) && decide (cpB b ≤ 65536)) 0 0x6E ++ parFlaw (decide (1 ≤ byteAt b 4) && decide (byteAt b 4 ≤ 32)) 4 0x6E ++
  parFlaw (decide (byteAt b 5 ≤ 1)) 5 0x6E ++ parFlaw (zeroFrom b 6 16) 6 0x6E ++ inFlaw (p.isCols (st.in_ 0)) 0 ++ restNone st 1 2 ++
  outFlaw is0 0 ++ outFlaw (!(st.out_ 1).given || p.isBind 2 (st.out_ 1)) 1 ++
  bindFlaw (!is0 || out0.addr % 64 == 0) (st.out_ 0).slot 8 0x6E ++
  bindFlaw (!is0 || decide (slot ≤ out0.len)) (st.out_ 0).slot 16 0xAA ++
  bindFlaw (!p.isBind 2 (st.out_ 1) || decide (8 * (out0.len / max 1 slot) ≤ out1.len)) (st.out_ 1).slot 16 0xAA ++
  (List.range (byteAt b 4)).flatMap (specFlaws b cols)

/-! DICT columns give their indexes (R370). -/

/-- The values at the DICT level of a column, flattened as the column is laid out. -/
def dictLevel : List SchEntry → List Val → List Val
  | [], vs => vs
  | e :: rest, vs =>
    if tyFixList e.ty then
      dictLevel rest (vs.flatMap fun v => if v == .null then List.replicate e.listSize (zeroVal rest) else unchain v)
    else if tyVarList e.ty then dictLevel rest (vs.flatMap unchain)
    else vs

def hasDict (c : List SchEntry) : Bool := c.any fun e => tyDict e.ty

/-- A value with its DICT values replaced by their indexes in a dictionary. -/
def toIndexes (dict : List Val) : List SchEntry → Val → Val
  | [], v => v
  | e :: rest, v =>
    if v == .null then .null
    else if tyDict e.ty then .num (dict.idxOf v)
    else if tyList e.ty then chainOf ((unchain v).map (toIndexes dict rest))
    else v

/-- A value, null wherever another reading of it is: an index that names a null dictionary value is null (R226). -/
def nullAs : Val → Val → Val
  | .null, _ => .null
  | .cons a r, .cons b q => .cons (nullAs a b) (nullAs r q)
  | _, v => v

/-- Rows of input 0, their DICT columns as indexes: of a binding the stored ones, of a stage those of its laid-out output. -/
def State.crateRows (s : State) (job : Job) (c : Ctx) (first n : Nat) : Got (List (List Val)) :=
  (s.inputRows job c 0 first n).bind fun rows =>
    let cols := c.inCols 0
    if !cols.any hasDict then .ok rows
    else
      match c.in_ 0 with
      | .bind slot f k =>
        let d := dirOf job c.who slot
        let raw : Dir := { d with schema := d.schema.map fun e => if tyDict e.ty then { e with ty := e.param } else e }
        (s.readColumns raw (selectCols (topEntries d.schema) f k) first n).bind fun cs =>
          .ok ((List.zip rows (rowsOf n cs)).map fun e => (List.zip e.1 e.2).map fun v => nullAs v.1 v.2)
      | .stage o r f k =>
        let all := (job.outRows r o).map fun row => selectCols row f k
        let dicts := cols.zipIdx.map fun e =>
          if hasDict e.1 then dictionary (dictLevel e.1 (all.map fun row => row.getD e.2 .null)) else []
        .ok (rows.map fun row => (List.zip (List.zip cols dicts) row).map fun e => toIndexes e.1.2 e.1.1 e.2)
      | _ => .ok rows

/-! Batches (R371 to R374). -/

/-- The elements of one value of fixed shape: bytes, and the nulls that FILL took. -/
def elemBytes (w fill : Nat) : List Nat → Val → Bytes × Nat
  | [], .num v => (leBytes w v, 0)
  | [], _ => (leBytes w fill, 1)
  | d :: ds, v =>
    let vs := if v == .null then List.replicate d Val.null else unchain v
    vs.foldl (fun (r : Bytes × Nat) x => let y := elemBytes w fill ds x; (r.1 ++ y.1, r.2 + y.2)) ([], 0)

/-- Elements that are all FILL. -/
def fillBytes (w fill : Nat) (dims : List Nat) : Bytes := (List.replicate (dims.foldl (· * ·) 1) (leBytes w fill)).flatMap id

/-- A list after truncation, and whether it was cut. -/
def truncated (t : TensorSpec) (v : Val) : List Val × Nat :=
  let xs := unchain v
  if xs.length ≤ t.lmax then (xs, 0) else (if t.keepLast then xs.drop (xs.length - t.lmax) else xs.take t.lmax, 1)

/-- A tensor of a batch: its record plan, its dims, its bytes. -/
structure Tensor where
  plan : RecPlan
  dims : List Nat
  bytes : Bytes
  deriving DecidableEq, Repr, Inhabited

/-- What forming a batch counts. -/
structure BatchCount where
  nulls : Nat := 0
  cut : Nat := 0
  deriving DecidableEq, Repr

/-- The tensors of one spec over the real rows of a batch of B rows. -/
def specTensors (b : Bytes) (t : TensorSpec) (rs : List RecPlan) (vals : List Val) : List Tensor × BatchCount :=
  let n := cpB b
  let r0 := rs.headD default
  let r1 := (rs.drop 1).headD default
  let w := r0.width
  let pads := n - vals.length
  let sumE (xs : List (Bytes × Nat)) : Bytes × Nat := (xs.flatMap (·.1), xs.foldl (fun m x => m + x.2) 0)
  if t.mode = 0 then
    let y := sumE (vals.map (elemBytes w t.fill r0.dims))
    ([⟨r0, n :: r0.dims, y.1 ++ (List.replicate pads (fillBytes w t.fill r0.dims)).flatMap id⟩], { nulls := y.2 })
  else
    let ls := vals.map (truncated t)
    let cut := ls.foldl (fun m x => m + x.2) 0
    let lens := ls.map (·.1.length)
    if t.mode = 1 then
      let l := max t.lround (min t.lmax (roundUp (lens.foldl max 0) t.lround))
      let rows := ls.map fun x =>
        let y := sumE (x.1.map (elemBytes w t.fill r0.dims))
        (y.1 ++ (List.replicate (l - x.1.length) (fillBytes w t.fill r0.dims)).flatMap id, y.2)
      let y := sumE rows
      let body := y.1 ++ (List.replicate (pads * l) (fillBytes w t.fill r0.dims)).flatMap id
      ([⟨r0, n :: l :: r0.dims, body⟩] ++ (if t.lengths then [⟨r1, [n], (lens ++ List.replicate pads 0).flatMap (leBytes 4)⟩] else []),
        { nulls := y.2, cut := cut })
    else
      let y := sumE (ls.flatMap fun x => x.1.map (elemBytes w t.fill r0.dims))
      let offs := runSums lens
      let total := offs.getLastD 0
      ([⟨r0, total :: r0.dims, y.1⟩, ⟨r1, [n + 1], (offs ++ List.replicate pads total).flatMap (leBytes r1.width)⟩], { nulls := y.2, cut := cut })

/-- Row-major strides in bytes. -/
def strides (w : Nat) : List Nat → List Nat
  | [] => []
  | _ :: ds => (ds.foldl (· * ·) w) :: strides w ds

/-- A tensor record (Table 18-7). -/
def tensorRecord (t : Tensor) (addr : Nat) : Bytes :=
  let fit (xs : List Nat) : List Nat := xs ++ List.replicate (4 - xs.length) 0
  leBytes 1 t.plan.dtype ++ leBytes 1 t.dims.length ++ leBytes 1 t.plan.kind ++ leBytes 1 0 ++ leBytes 2 t.plan.src ++ leBytes 2 t.plan.link ++
  (fit t.dims).flatMap (leBytes 4) ++ (fit (strides t.plan.width t.dims)).flatMap (leBytes 8) ++ leBytes 8 addr

/-- The tensors of a batch, spec by spec, the mask last. -/
def batchTensors (b : Bytes) (rs : List RecPlan) (rows : List (List Val)) : List Tensor × BatchCount :=
  let go := (tensorSpecs b).foldl (fun (r : List Tensor × BatchCount × List RecPlan) t =>
    let k := if t.mode = 2 ∨ t.lengths ∧ t.mode = 1 then 2 else 1
    let y := specTensors b t (r.2.2.take k) (rows.map fun row => row.getD t.col .null)
    (r.1 ++ y.1, { nulls := r.2.1.nulls + y.2.nulls, cut := r.2.1.cut + y.2.cut }, r.2.2.drop k)) ([], {}, rs)
  let mask : List Tensor :=
    if cpMask b then [⟨rs.getLastD default, [cpB b], List.replicate rows.length 1#8 ++ zeros (cpB b - rows.length)⟩] else []
  (go.1 ++ mask, go.2.1)

/-- The writes of a batch at its slot's address, in order: each tensor, then the records; `shown` is the address that ADDR
counts from. -/
def batchWrites (rs : List RecPlan) (ts : List Tensor) (slot shown : Nat) : List (Nat × Bytes) :=
  let go := ts.foldl (fun (r : List (Nat × Bytes) × Bytes × Nat) t =>
    (r.1 ++ [(slot + r.2.2, t.bytes)], r.2.1 ++ tensorRecord t (shown + r.2.2), r.2.2 + roundUp t.plan.cap 64)) ([], [], 64 * rs.length)
  go.1 ++ [(slot, go.2.1)]

/-- One batch written and its release queued. -/
def State.crateBatch (s : State) (c : Ctx) (job : Job) (k : Nat) (rows : List (List Val)) : Got State :=
  let b := c.block
  let rs := recPlans b (c.inCols 0) (tensorSpecs b) 0
  let slot := slotSize rs
  let out := job.bind (c.out_ 0).slot
  let herd := job.herd || out.herd
  let a := out.addr + k * slot
  if out.len < (k + 1) * slot then .fail 0xAA (s.bindDetail job out (k * slot))
  else
    let y := batchTensors b rs rows
    let shown := match s.resolve herd a with
      | some (_, l) => if spaceOf l = .host then iovaOf l else a
      | none => a
    let ws := batchWrites rs y.1 a shown
    -- a response's payload waits for its transmit slot (R476)
    let put : Got State :=
      if out.resp then
        let whole := ws.foldl (fun (b : Bytes) w => b.take (w.1 - a) ++ w.2 ++ b.drop (w.1 - a + w.2.length)) (s.loadBytes a slot)
        .ok (s.appendBytes c 0 whole)
      else s.jobWrites c.job herd ws
    put.bind fun s1 =>
      let s2 := (((s1.count (CRATE.PAD_ROWS.on c.page) (cpB b - rows.length)).count (CRATE.NULL_FILLED.on c.page) y.2.nulls).count
        (CRATE.TRUNCATED.on c.page) y.2.cut).countHost c.job herd a slot
      let word := leBytes 8 (rows.length + 2 ^ 63)
      let given := (c.out_ 1).given
      let r1 := job.bind (c.out_ 1).slot
      let wa := r1.addr + 8 * k
      let rw : ReadyWord := ⟨c.page, job.herd || r1.herd, wa, if given then word else []⟩
      let s3 := s2.count (CRATE.BYTES_OUT.on c.page) (slot + if given then 8 else 0)
      let s4 := if given then s3.countHost c.job rw.herd wa 8 else s3
      .ok (s4.updJob c.job fun x => { x with ready := x.ready ++ [rw] })

/-- Batches formed of rows: full ones, and with the last slice the padded one; how many, and the rows left. -/
def State.crateBatches (s : State) (c : Ctx) (job : Job) (last : Bool) : Nat → Nat → List (List Val) → Got (State × Nat × List (List Val))
  | 0, k, rows => .ok (s, k, rows)
  | fuel + 1, k, rows =>
    let b := cpB c.block
    if b ≤ rows.length ∨ (last ∧ rows ≠ []) then
      (s.crateBatch c job k (rows.take b)).bind fun s1 => State.crateBatches s1 c job last fuel (k + 1) (rows.drop b)
    else .ok (s, k, rows)

/-- A Crate slice. The engine keeps the rows of the batch in hand and, in its numbers, the next batch. -/
def runCrate (s : State) (c : Ctx) : Ran :=
  match s.job? c.job with
  | none => .done s true
  | some job =>
    let e := job.engOf c.stage
    let av := inputLen job (c.in_ 0)
    let n := min c.count (av.1 - e.consumed)
    let last := !av.2 && decide (av.1 ≤ e.consumed + n)
    Ran.with s (s.crateRows job c e.consumed n) fun rows =>
      let all := e.rows ++ rows
      Ran.with s (s.crateBatches c job last (all.length + 1) (Table.findD e.nums 0 0) all) fun r =>
        .done ((r.1.setEng c.job c.stage { e with consumed := e.consumed + n, rows := r.2.2, nums := Table.put e.nums 0 r.2.1 }).readyWords c.job) last

end Sys2Proof.Machine
end

