-- ==== Sys2Proof/Machine/Text.lean ====
section
/-! DEFINITION. Text that Intake reads: values (R259), CSV records (R257), JSON (R260). -/

namespace Sys2Proof.Machine

/-! Characters. -/

def isDigit (b : Byte) : Bool := decide (48 ≤ b.toNat) && decide (b.toNat ≤ 57)
def digitOf (b : Byte) : Nat := b.toNat - 48
def isBlank (b : Byte) : Bool := b == 32#8 || b == 9#8
/-- Lower case of an ASCII letter. -/
def lower (b : Byte) : Byte := if decide (65 ≤ b.toNat) && decide (b.toNat ≤ 90) then b + 32#8 else b

/-- The bytes of a word of ASCII codes. -/
def ascii (cs : List Nat) : Bytes := cs.map (BitVec.ofNat 8)

def wTrue : Bytes := ascii [116, 114, 117, 101]
def wFalse : Bytes := ascii [102, 97, 108, 115, 101]
def wInf : Bytes := ascii [105, 110, 102]
def wNan : Bytes := ascii [110, 97, 110]
def wNull : Bytes := ascii [110, 117, 108, 108]

/-- The number of a digit string, none where it is empty or holds another byte. -/
def decimal (b : Bytes) : Option Nat :=
  if b.isEmpty || !b.all isDigit then none else some (b.foldl (fun n d => n * 10 + digitOf d) 0)

/-- An optional sign: whether it is minus, and what follows. -/
def takeSign (b : Bytes) : Option Bool × Bytes :=
  match b with
  | c :: r => if c = 45#8 then (some true, r) else if c = 43#8 then (some false, r) else (none, b)
  | [] => (none, b)

/-! Values (R259). -/

def parseInt (b : Bytes) : Option Int :=
  let s := takeSign b
  (decimal s.2).map fun n => if s.1 = some true then -(n : Int) else n

/-- Bounds of an integer type. -/
def intRange (ty : Nat) : Int × Int :=
  let w := 8 * tyWidth ty
  if tySigned ty then (-(2 ^ (w - 1) : Nat), (2 ^ (w - 1) : Nat) - 1) else (0, (2 ^ w : Nat) - 1)

def parseIntTy (ty : Nat) (b : Bytes) : Option Val :=
  if tyUnsigned ty && (takeSign b).1 == some true then none
  else
    (parseInt b).bind fun i =>
      let r := intRange ty
      if r.1 ≤ i ∧ i ≤ r.2 then some (.num (ofSigned (8 * tyWidth ty) i)) else none

/-- Digits, then what follows them. -/
def takeDigits (b : Bytes) : Bytes × Bytes := (b.takeWhile isDigit, b.dropWhile isDigit)

/-- A decimal float: mantissa digits, and the power of ten. -/
def parseDec (b : Bytes) : Option (Nat × Int) :=
  let w := takeDigits b
  if w.1.isEmpty then none
  else
    let f : Option (Bytes × Bytes) := match w.2 with
      | c :: r => if c = 46#8 then (let d := takeDigits r; if d.1.isEmpty then none else some d) else some ([], w.2)
      | [] => some ([], [])
    f.bind fun f =>
      let e : Option Int := match f.2 with
        | [] => some 0
        | c :: r => if c = 101#8 ∨ c = 69#8 then parseInt r else none
      e.bind fun e => (decimal (w.1 ++ f.1)).map fun n => (n, e - f.1.length)

/-- A float of a type, rounded once from the exact decimal; a finite decimal that rounds to infinity is out of range. -/
def parseFloat (ty : Nat) (b : Bytes) : Option Val :=
  let s := takeSign b
  let neg := s.1 == some true
  let word := s.2.map lower
  if word = wInf then some (.num (infOf ty neg))
  else if word = wNan then (if s.1.isNone then some (.num (fltQuiet ty)) else none)
  else
    (parseDec s.2).bind fun d =>
      let q : Nat × Nat := if 0 ≤ d.2 then (d.1 * 10 ^ d.2.toNat, 1) else (d.1, 10 ^ (-d.2).toNat)
      let v := if d.1 = 0 then signBit ty neg else roundRat ty neg q.1 q.2
      if fltInf ty v then none else some (.num v)

def parseBool (b : Bytes) : Option Val :=
  let w := b.map lower
  if w = wTrue ∨ w = ascii [49] then some (.num 1) else if w = wFalse ∨ w = ascii [48] then some (.num 0) else none

/-- Days from 1970-01-01 of a date of the proleptic Gregorian calendar. -/
def daysOf (y m d : Nat) : Int :=
  let y' : Int := if m ≤ 2 then (y : Int) - 1 else y
  let era := y'.fdiv 400
  let yoe := y' - era * 400
  let mp : Nat := (m + 9) % 12
  let doy : Nat := (153 * mp + 2) / 5 + d - 1
  era * 146097 + (yoe * 365 + yoe.fdiv 4 - yoe.fdiv 100 + doy) - 719468

def monthDays (y m : Nat) : Nat :=
  if m = 2 then (if leapYear y then 29 else 28) else if m = 4 ∨ m = 6 ∨ m = 9 ∨ m = 11 then 30 else 31

/-- YYYY-MM-DD: its day count. -/
def parseDay (b : Bytes) : Option Int :=
  if b.length ≠ 10 ∨ b.getD 4 0 ≠ 45#8 ∨ b.getD 7 0 ≠ 45#8 then none
  else
    match decimal (b.take 4), decimal (sub b 5 2), decimal (sub b 8 2) with
    | some y, some m, some d => if 1 ≤ m ∧ m ≤ 12 ∧ 1 ≤ d ∧ d ≤ monthDays y m then some (daysOf y m d) else none
    | _, _, _ => none

/-- hh:mm with an upper bound of the hour: minutes. -/
def parseHm (b : Bytes) : Option Nat :=
  if b.length ≠ 5 ∨ b.getD 2 0 ≠ 58#8 then none
  else
    match decimal (b.take 2), decimal (b.drop 3) with
    | some h, some m => if h < 24 ∧ m < 60 then some (60 * h + m) else none
    | _, _ => none

/-- A zone: none, Z or ±hh:mm, as seconds to subtract. -/
def parseZone (b : Bytes) : Option Int :=
  match b with
  | [] => some 0
  | c :: r =>
    if c = 90#8 then (if r.isEmpty then some 0 else none)
    else if c = 43#8 then (parseHm r).map fun m => (60 * m : Nat)
    else if c = 45#8 then (parseHm r).map fun m => -(60 * m : Nat)
    else none

/-- A time stamp in ns since the epoch. -/
def parseStamp (b : Bytes) : Option Int :=
  (parseDay (b.take 10)).bind fun day =>
    let sep := b.getD 10 0#8
    let hms := sub b 11 8
    if (sep ≠ 84#8 ∧ sep ≠ 32#8) ∨ hms.length ≠ 8 ∨ hms.getD 5 0 ≠ 58#8 then none
    else
      match parseHm (hms.take 5), decimal (hms.drop 6) with
      | some hm, some sec =>
        if 60 ≤ sec then none
        else
          let rest := b.drop 19
          let f : Option (Nat × Bytes) := match rest with
            | c :: r =>
              if c = 46#8 then
                let d := takeDigits r
                if 1 ≤ d.1.length ∧ d.1.length ≤ 9 then (decimal d.1).map fun n => (n * 10 ^ (9 - d.1.length), d.2) else none
              else some (0, rest)
            | [] => some (0, [])
          f.bind fun f => (parseZone f.2).map fun z => (day * 86400 + 60 * (hm : Int) + sec - z) * 1000000000 + f.1
      | _, _ => none

/-- A 64-bit signed count, where it fits. -/
def signed64 (i : Int) : Option Val :=
  if -(2 ^ 63 : Nat) ≤ i ∧ i < (2 ^ 63 : Nat) then some (.num (ofSigned 64 i)) else none

/-- The text of a field as a value of a scalar entry; none for FIELD_PARSE. -/
def parseText (e : SchEntry) (b : Bytes) : Option Val :=
  if tyInt e.ty then parseIntTy e.ty b
  else if tyFloat e.ty then parseFloat e.ty b
  else if tyBool e.ty then parseBool b
  else if e.ty = 0x0E then (parseDay b).map fun d => .num (ofSigned 32 d)
  else if e.ty = 0x0F then
    match parseInt b with
    | some i => signed64 i
    | none => (parseStamp b).bind fun ns => signed64 (ns.fdiv (([1000000000, 1000000, 1000, 1] : List Nat).getD e.param 1 : Nat))
  else if tyStr e.ty then some (.str b)
  else none

/-! CSV (Table 12-6). -/

structure Dialect where
  delim : Byte
  quote : Byte
  escape : Nat
  comment : Byte
  header : Bool
  multiline : Bool
  trim : Bool
  emptyNull : Bool
  skip : Nat
  null : Bytes
  deriving DecidableEq, Repr

def dialectOf (b : Bytes) : Dialect :=
  let f := byteAt b 84
  { delim := b.getD 80 0, quote := b.getD 81 0, escape := byteAt b 82, comment := b.getD 83 0, header := bitAt f 0, multiline := bitAt f 1,
    trim := bitAt f 2, emptyNull := bitAt f 3, skip := leAt b 88 4, null := sub b 96 (byteAt b 85) }

/-- A field of a record: where it starts, its bytes, whether it was quoted. -/
structure CsvField where
  off : Nat
  bytes : Bytes
  quoted : Bool
  deriving DecidableEq, Repr, Inhabited

/-- How a record ended: at its terminator or the input's end, with a bad quote, cut by the input's end. -/
inductive CsvEnd where
  | good | badQuote | cut
  deriving DecidableEq, Repr

/-- A record: its fields, how it ended, the bytes it takes. `whole` says that its end was found. -/
structure CsvRec where
  fields : List CsvField
  fin : CsvEnd
  size : Nat
  whole : Bool
  deriving DecidableEq, Repr

/-- Bytes up to and with the next LF. -/
def lineLen (b : Bytes) : Nat × Bool :=
  let n := (b.takeWhile (fun c => c != 10#8)).length
  if n < b.length then (n + 1, true) else (n, false)

/-- A quoted field after its opening quote: its bytes and the bytes consumed with the closing quote; none where the end of
the bytes comes first; the flag says that LF came first. -/
def quotedBody (d : Dialect) : Nat → Bytes → Bytes → Nat → Option (Bytes × Nat × Bool)
  | 0, _, _, _ => none
  | _, [], _, _ => none
  | f + 1, c :: r, acc, n =>
    if d.escape = 1 ∧ c = 92#8 then
      match r with
      | x :: r' => quotedBody d f r' (acc ++ [x]) (n + 2)
      | [] => none
    else if c = d.quote then
      match r with
      | x :: r' => if d.escape = 0 ∧ x = d.quote then quotedBody d f r' (acc ++ [x]) (n + 2) else some (acc, n + 1, false)
      | [] => some (acc, n + 1, false)
    else if c = 10#8 ∧ ¬ d.multiline then some (acc, n, true)
    else quotedBody d f r (acc ++ [c]) (n + 1)

def trimBlanks (b : Bytes) : Bytes := ((b.dropWhile isBlank).reverse.dropWhile isBlank).reverse

/-- The fields of a record from byte `off` of it on. -/
def csvFields (d : Dialect) : Nat → Bytes → Nat → List CsvField → CsvRec
  | 0, _, off, acc => ⟨acc, .cut, off, false⟩
  | f + 1, b, off, acc =>
    let stop (c : Byte) : Bool := c == d.delim || c == 10#8
    match b with
    | q :: body =>
      if q = d.quote ∧ d.quote ≠ 0#8 then
        match quotedBody d (body.length + 1) body [] 1 with
        | none => ⟨acc ++ [⟨off, body, true⟩], .cut, off + b.length, false⟩
        | some (x, n, true) => ⟨acc ++ [⟨off, x, true⟩], .badQuote, off + n + 1, true⟩
        | some (x, n, false) =>
          let fs := acc ++ [⟨off, x, true⟩]
          match b.drop n with
          | [] => ⟨fs, .good, off + n, false⟩
          | c :: r =>
            if c = d.delim then csvFields d f r (off + n + 1) fs
            else if c = 10#8 then ⟨fs, .good, off + n + 1, true⟩
            else if c = 13#8 ∧ r.headD 0#8 = 10#8 then ⟨fs, .good, off + n + 2, true⟩
            else
              let l := lineLen (b.drop n)
              ⟨fs, .badQuote, off + n + l.1, l.2⟩
      else
        let x := b.takeWhile (fun c => !stop c)
        let rest := b.drop x.length
        let last := rest.headD 10#8 == 10#8
        -- a CR before the terminator belongs to it
        let y := if last ∧ !rest.isEmpty ∧ x.getLast? = some 13#8 then x.dropLast else x
        let fs := acc ++ [⟨off, if d.trim then trimBlanks y else y, false⟩]
        match rest with
        | [] => ⟨fs, .good, off + x.length, false⟩
        | c :: r => if c = d.delim then csvFields d f r (off + x.length + 1) fs else ⟨fs, .good, off + x.length + 1, true⟩
    | [] => ⟨acc ++ [⟨off, [], false⟩], .good, off, false⟩

def csvRecord (d : Dialect) (b : Bytes) : CsvRec := csvFields d (b.length + 1) b 0 []

/-- A line that CSV skips: empty, or a comment. -/
def csvSkips (d : Dialect) (b : Bytes) : Bool :=
  let c := b.headD 0#8
  c == 10#8 || (c == 13#8 && b.getD 1 0#8 == 10#8) || (d.comment != 0#8 && c == d.comment)

/-! JSON (RFC 8259). A value carries the number of bytes that followed its first byte, so that offsets can be had. -/

inductive Json where
  | null
  | lit (text : Bytes)
  | num (text : Bytes)
  | str (bytes : Bytes)
  | arr (items : List Json)
  | obj (members : List (Bytes × Nat × Json))
  deriving Repr, Inhabited

def jsonWs (b : Byte) : Bool := b == 32#8 || b == 9#8 || b == 10#8 || b == 13#8
def skipWs (b : Bytes) : Bytes := b.dropWhile jsonWs

def hexDigit (b : Byte) : Option Nat :=
  let c := (lower b).toNat
  if isDigit b then some (digitOf b) else if 97 ≤ c ∧ c ≤ 102 then some (c - 87) else none

def hex4 (b : Bytes) : Option Nat :=
  if (b.take 4).length < 4 then none else (b.take 4).foldl (fun (n : Option Nat) c => n.bind fun n => (hexDigit c).map fun d => n * 16 + d) (some 0)

/-- UTF-8 of a code point. -/
def utf8 (c : Nat) : Bytes :=
  if c < 0x80 then ascii [c]
  else if c < 0x800 then ascii [0xC0 + c / 64, 0x80 + c % 64]
  else if c < 0x10000 then ascii [0xE0 + c / 4096, 0x80 + c / 64 % 64, 0x80 + c % 64]
  else ascii [0xF0 + c / 2 ^ 18, 0x80 + c / 4096 % 64, 0x80 + c / 64 % 64, 0x80 + c % 64]

/-- A JSON string after its opening quote: its bytes and what follows. -/
def jsonString : Nat → Bytes → Bytes → Option (Bytes × Bytes)
  | 0, _, _ => none
  | f + 1, b, acc =>
    match b with
    | [] => none
    | c :: r =>
      if c = 34#8 then some (acc, r)
      else if c.toNat < 32 then none
      else if c = 92#8 then
        match r with
        | [] => none
        | x :: r' =>
          let plain (v : Nat) : Option (Bytes × Bytes) := jsonString f r' (acc ++ ascii [v])
          if x = 34#8 ∨ x = 92#8 ∨ x = 47#8 then plain x.toNat
          else if x = 98#8 then plain 8 else if x = 102#8 then plain 12 else if x = 110#8 then plain 10
          else if x = 114#8 then plain 13 else if x = 116#8 then plain 9
          else if x = 117#8 then
            match hex4 r' with
            | none => none
            | some h =>
              let r2 := r'.drop 4
              let low := if r2.take 2 = ascii [92, 117] then hex4 (r2.drop 2) else none
              match low with
              | some l =>
                if 0xD800 ≤ h ∧ h < 0xDC00 ∧ 0xDC00 ≤ l ∧ l < 0xE000 then
                  jsonString f (r2.drop 6) (acc ++ utf8 (0x10000 + (h - 0xD800) * 1024 + (l - 0xDC00)))
                else jsonString f r2 (acc ++ utf8 h)
              | none => jsonString f r2 (acc ++ utf8 h)
          else none
      else jsonString f r (acc ++ [c])

/-- A JSON number's text and what follows. -/
def jsonNumber (b : Bytes) : Option (Bytes × Bytes) :=
  let s := if b.headD 0 = 45#8 then b.drop 1 else b
  let i := takeDigits s
  if i.1.isEmpty || (i.1.headD 0 == 48#8 && decide (1 < i.1.length)) then none
  else
    let f : Option Bytes := if i.2.headD 0 = 46#8 then (let d := takeDigits (i.2.drop 1); if d.1.isEmpty then none else some d.2) else some i.2
    f.bind fun r =>
      let e : Option Bytes :=
        if r.headD 0 = 101#8 ∨ r.headD 0 = 69#8 then
          let d := takeDigits (takeSign (r.drop 1)).2
          if d.1.isEmpty then none else some d.2
        else some r
      e.map fun r => (b.take (b.length - r.length), r)

mutual
/-- A JSON value, over `fuel` steps, and what follows it. -/
def jsonValue : Nat → Bytes → Option (Json × Bytes)
  | 0, _ => none
  | f + 1, b =>
    match skipWs b with
    | [] => none
    | c :: r =>
      if c = 34#8 then (jsonString (r.length + 1) r []).map fun x => (.str x.1, x.2)
      else if c = 91#8 then (if (skipWs r).headD 0 = 93#8 then some (.arr [], (skipWs r).drop 1) else jsonItems f r [])
      else if c = 123#8 then (if (skipWs r).headD 0 = 125#8 then some (.obj [], (skipWs r).drop 1) else jsonMembers f r [])
      else if (c :: r).take 4 = wTrue then some (.lit wTrue, r.drop 3)
      else if (c :: r).take 5 = wFalse then some (.lit wFalse, r.drop 4)
      else if (c :: r).take 4 = wNull then some (.null, r.drop 3)
      else (jsonNumber (c :: r)).map fun x => (.num x.1, x.2)

def jsonItems : Nat → Bytes → List Json → Option (Json × Bytes)
  | 0, _, _ => none
  | f + 1, b, acc =>
    match jsonValue f b with
    | none => none
    | some (v, r) =>
      match skipWs r with
      | c :: r' => if c = 44#8 then jsonItems f r' (acc ++ [v]) else if c = 93#8 then some (.arr (acc ++ [v]), r') else none
      | [] => none

def jsonMembers : Nat → Bytes → List (Bytes × Nat × Json) → Option (Json × Bytes)
  | 0, _, _ => none
  | f + 1, b, acc =>
    match skipWs b with
    | c :: r =>
      if c ≠ 34#8 then none
      else
        match jsonString (r.length + 1) r [] with
        | none => none
        | some (name, r1) =>
          match skipWs r1 with
          | c1 :: r2 =>
            if c1 ≠ 58#8 then none
            else
              match jsonValue f r2 with
              | none => none
              | some (v, r3) =>
                let m := acc ++ [(name, (skipWs r2).length, v)]
                match skipWs r3 with
                | c2 :: r4 => if c2 = 44#8 then jsonMembers f r4 m else if c2 = 125#8 then some (.obj m, r4) else none
                | [] => none
          | [] => none
    | [] => none
end

/-- A line as a JSON object: its members with the bytes that remained from the value's first byte on. -/
def jsonLine (b : Bytes) : Option (List (Bytes × Nat × Json)) :=
  match jsonValue (b.length + 2) b with
  | some (.obj ms, r) => if (skipWs r).isEmpty then some ms else none
  | _ => none

end Sys2Proof.Machine
end

