-- ==== Sys2Proof/Machine/Codec.lean ====
section
/-! DEFINITION. What Churn decodes: the Churn frame (R279 to R284), DEFLATE, gzip, zlib, Snappy and LZ4 as their standards
have them (R274, R275), the expansion guard (R277). Zstandard frames are decoded by a constant without a body. -/

namespace Sys2Proof.Machine

/-! A decoder's state: bits that remain, the output newest first with its length, the failing status. -/

structure Dec where
  bits : List Bool
  hist : List Byte := []
  n : Nat := 0
  bad : Nat := 0
  deriving DecidableEq, Repr

/-- Statuses of Churn. -/
def sData : Nat := 0x81
def sCheck : Nat := 0x82
def sExpand : Nat := 0x83
def sUnsup : Nat := 0x84
def sDict : Nat := 0x85
def sTrunc : Nat := 0x86

/-- The bits of a byte string, each byte from bit 0. -/
def bitsOfBytes (b : Bytes) : List Bool := b.flatMap fun x => (List.range 8).map fun k => x.getLsbD k

def Dec.fail (d : Dec) (st : Nat) : Dec := if d.bad = 0 then { d with bad := st } else d

/-- A byte put out, within the bound. -/
def Dec.put (lim : Nat) (d : Dec) (b : Byte) : Dec :=
  if d.bad ≠ 0 then d else if lim ≤ d.n then { d with bad := sExpand } else { d with hist := b :: d.hist, n := d.n + 1 }

def Dec.puts (lim : Nat) (d : Dec) (bs : Bytes) : Dec := bs.foldl (Dec.put lim) d

/-- A match copied byte by byte; `window` is how far back it may reach. -/
def Dec.copy (lim window dist : Nat) : Nat → Dec → Dec
  | 0, d => d
  | k + 1, d =>
    if d.bad ≠ 0 then d
    else if dist = 0 ∨ min window d.n < dist then d.fail sData
    else Dec.copy lim (window + 1) dist k (d.put lim (d.hist.getD (dist - 1) 0#8))

/-- A number of `k` bits, least significant first. -/
def Dec.take (k : Nat) (d : Dec) : Nat × Dec :=
  if d.bad ≠ 0 then (0, d)
  else if (d.bits.take k).length < k then (0, d.fail sTrunc)
  else ((d.bits.take k).zipIdx.foldl (fun v e => if e.1 then v + 2 ^ e.2 else v) 0, { d with bits := d.bits.drop k })

/-- The bits up to the next byte boundary dropped. -/
def Dec.align (d : Dec) : Dec := { d with bits := d.bits.drop (d.bits.length % 8) }

/-- `k` whole bytes. -/
def Dec.bytes (k : Nat) (d : Dec) : Bytes × Dec :=
  if d.bad ≠ 0 then ([], d)
  else if d.bits.length < 8 * k then ([], d.fail sTrunc)
  else (packBits k (d.bits.take (8 * k)), { d with bits := d.bits.drop (8 * k) })

/-! Canonical prefix codes (R281, R282). -/

/-- Codes by length, code and symbol. -/
abbrev Codes := List (Nat × Nat × Nat)

/-- The first code of a length. -/
def firstCode (lens : List Nat) : Nat → Nat
  | 0 => 0
  | l + 1 => 2 * (firstCode lens l + (if l = 0 then 0 else (lens.filter (fun x => x == l)).length))

def canonical (lens : List Nat) : Codes :=
  let used := (lens.zipIdx.filter (fun e => e.1 != 0))
  match used with
  | [e] => [(1, 0, e.2)]
  | _ => (List.range 15).flatMap fun k =>
    let l := k + 1
    ((used.filter (fun e => e.1 == l)).zipIdx).map fun e => (l, firstCode lens l + e.2, e.1.2)

/-- 2^15 times the Kraft sum is at most 2^15. -/
def kraftOk (lens : List Nat) : Bool := decide (lens.foldl (fun n l => if l = 0 then n else n + 2 ^ (15 - l)) 0 ≤ 2 ^ 15)

/-- The next symbol, most significant bit first, over at most `fuel` bits. -/
def nextSym (cs : Codes) : Nat → Nat → Nat → Dec → Nat × Dec
  | 0, _, _, d => (0, d.fail sData)
  | f + 1, len, code, d =>
    if d.bad ≠ 0 then (0, d)
    else
      match d.bits with
      | [] => (0, d.fail sTrunc)
      | b :: r =>
        let code := 2 * code + ofBool b
        let d' := { d with bits := r }
        match cs.find? (fun c => c.1 == len + 1 && c.2.1 == code) with
        | some c => (c.2.2, d')
        | none => nextSym cs f (len + 1) code d'

def Dec.sym (cs : Codes) (d : Dec) : Nat × Dec := nextSym cs 15 0 0 d

/-! The Churn frame. -/

/-- Extra bits and base of a bucket (R280). -/
def bucketOf (b : Nat) : Nat × Nat := if b < 4 then (b, 0) else ((2 + b % 2) * 2 ^ (b / 2 - 1), b / 2 - 1)

/-- A bucket's value read with its extra bits. -/
def Dec.bucket (b : Nat) (d : Dec) : Nat × Dec :=
  let x := bucketOf b
  let r := d.take x.2
  (x.1 + r.1, r.2)

def staticLit : List Nat := List.replicate 144 8 ++ List.replicate 112 9 ++ List.replicate 17 7
def staticDist : List Nat := List.replicate 32 5

/-- The symbols of a coded payload up to symbol 256, over `fuel` symbols. -/
def churnSyms (lim : Nat) (lit dist : Codes) : Nat → Dec → Dec
  | 0, d => d.fail sData
  | f + 1, d =>
    let s := d.sym lit
    if s.2.bad ≠ 0 then s.2
    else if s.1 < 256 then churnSyms lim lit dist f (s.2.put lim (BitVec.ofNat 8 s.1))
    else if s.1 = 256 then s.2
    else
      let l := s.2.bucket (s.1 - 257)
      let ds := l.2.sym dist
      let v := ds.2.bucket ds.1
      churnSyms lim lit dist f (v.2.copy lim v.2.n (v.1 + 1) (l.1 + 4))
termination_by structural f _ => f

/-- The 4-bit code lengths of a dynamic block. -/
def readLens : Nat → Dec → List Nat → List Nat × Dec
  | 0, d, acc => (acc, d)
  | n + 1, d, acc => let r := d.take 4; readLens n r.2 (acc ++ [r.1])

/-- A payload's own failure of running out of bits is malformed data. -/
def Dec.inBlock (d : Dec) : Dec := if d.bad = sTrunc then { d with bad := sData } else d

/-- A coded payload of a block. -/
def churnPayload (lim : Nat) (dyn : Bool) (d : Dec) : Dec :=
  if dyn then
    let r := readLens 305 d []
    let lit := r.1.take 273
    let dist := r.1.drop 273
    if r.2.bad ≠ 0 then r.2
    else if lit.getD 256 0 = 0 || !kraftOk lit || !kraftOk dist then r.2.fail sData
    else churnSyms lim (canonical lit) (canonical dist) (r.2.bits.length + 1) r.2
  else churnSyms lim (canonical staticLit) (canonical staticDist) (d.bits.length + 1) d

/-- The blocks of a frame, over `fuel` blocks; the number read. -/
def churnBlocks (lim : Nat) : Nat → Nat → Dec → Nat × Dec
  | 0, k, d => (k, d.fail sData)
  | f + 1, k, d =>
    let h := d.bytes 8
    if h.2.bad ≠ 0 then (k, h.2)
    else
      let w := leAt h.1 0 4
      let raw := bitAt w 0
      let dyn := bitAt w 1
      let last := bitAt w 2
      let orig := w / 256 % 65536 + 1
      let len := leAt h.1 4 4
      if w / 8 % 32 ≠ 0 ∨ w / 2 ^ 24 ≠ 0 ∨ (raw ∧ dyn) ∨ (raw ∧ len ≠ orig) then (k, h.2.fail sData)
      else
        let before := h.2.n
        let p := h.2.bytes len
        if p.2.bad ≠ 0 then (k, p.2)
        else if raw then
          let d1 := p.2.puts lim p.1
          if last ∨ d1.bad ≠ 0 then (k + 1, d1) else churnBlocks lim f (k + 1) d1
        else
          let after := p.2.bits
          let d1 := (churnPayload lim dyn { p.2 with bits := bitsOfBytes p.1 }).inBlock
          -- what remains of the payload must be zero bits of its last byte
          let d2 :=
            if d1.bad ≠ 0 then { d1 with bits := d1.bits ++ after }
            else if 8 ≤ d1.bits.length ∨ d1.bits.any id ∨ d1.n ≠ before + orig then ({ d1 with bits := after } : Dec).fail sData
            else { d1 with bits := after }
          if last ∨ d2.bad ≠ 0 then (k + 1, d2) else churnBlocks lim f (k + 1) d2

/-- A Churn frame: its declared length, and the decoder after it. -/
def churnFrame (lim : Nat) (d : Dec) : Option Nat × Dec :=
  let h := d.bytes 16
  if h.2.bad ≠ 0 then (none, h.2)
  else
    let orig := leAt h.1 8 8
    if leAt h.1 0 4 ≠ 0x4E524843 ∨ byteAt h.1 4 ≠ 1 ∨ ¬ zeroFrom h.1 5 8 ∨ 2 ^ 48 ≤ orig then (none, h.2.fail sData)
    else
      let b := if orig = 0 then (0, h.2) else churnBlocks (min lim orig) (orig + 2) 0 h.2
      let t := b.2.bytes 8
      let out := (t.2.hist.take t.2.n).reverse
      if t.2.bad ≠ 0 then (some orig, t.2)
      else if t.2.n ≠ orig ∨ leAt t.1 4 4 ≠ b.1 then (some orig, t.2.fail sData)
      else if leAt t.1 0 4 ≠ crc32c out then (some orig, t.2.fail sCheck)
      else (some orig, t.2)

/-! DEFLATE (RFC 1951), gzip (RFC 1952), zlib (RFC 1950). -/

def fixedLit : List Nat := List.replicate 144 8 ++ List.replicate 112 9 ++ List.replicate 24 7 ++ List.replicate 8 8
def fixedDist : List Nat := List.replicate 30 5

def lenBase : List Nat :=
  [3, 4, 5, 6, 7, 8, 9, 10, 11, 13, 15, 17, 19, 23, 27, 31, 35, 43, 51, 59, 67, 83, 99, 115, 131, 163, 195, 227, 258]
def lenExtra : List Nat := [0, 0, 0, 0, 0, 0, 0, 0, 1, 1, 1, 1, 2, 2, 2, 2, 3, 3, 3, 3, 4, 4, 4, 4, 5, 5, 5, 5, 0]
def distBase : List Nat :=
  [1, 2, 3, 4, 5, 7, 9, 13, 17, 25, 33, 49, 65, 97, 129, 193, 257, 385, 513, 769, 1025, 1537, 2049, 3073, 4097, 6145, 8193,
   12289, 16385, 24577]
def distExtra : List Nat := [0, 0, 0, 0, 1, 1, 2, 2, 3, 3, 4, 4, 5, 5, 6, 6, 7, 7, 8, 8, 9, 9, 10, 10, 11, 11, 12, 12, 13, 13]

def inflateSyms (lim : Nat) (lit dist : Codes) : Nat → Dec → Dec
  | 0, d => d.fail sData
  | f + 1, d =>
    let s := d.sym lit
    if s.2.bad ≠ 0 then s.2
    else if s.1 < 256 then inflateSyms lim lit dist f (s.2.put lim (BitVec.ofNat 8 s.1))
    else if s.1 = 256 then s.2
    else if 285 < s.1 then s.2.fail sData
    else
      let e := s.2.take (lenExtra.getD (s.1 - 257) 0)
      let ds := e.2.sym dist
      if 29 < ds.1 then ds.2.fail sData
      else
        let v := ds.2.take (distExtra.getD ds.1 0)
        inflateSyms lim lit dist f (v.2.copy lim 32768 (distBase.getD ds.1 0 + v.1) (lenBase.getD (s.1 - 257) 0 + e.1))
termination_by structural f _ => f

/-- The order of the code length codes. -/
def clOrder : List Nat := [16, 17, 18, 0, 8, 7, 9, 6, 10, 5, 11, 4, 12, 3, 13, 2, 14, 1, 15]

/-- Code lengths under their own code, `want` of them. -/
def readCl (cs : Codes) (want : Nat) : Nat → List Nat → Dec → List Nat × Dec
  | 0, acc, d => (acc, d.fail sData)
  | f + 1, acc, d =>
    if d.bad ≠ 0 then (acc, d)
    else if want ≤ acc.length then (acc, if want < acc.length then d.fail sData else d)
    else
      let s := d.sym cs
      if s.1 < 16 then readCl cs want f (acc ++ [s.1]) s.2
      else if s.1 = 16 then
        let r := s.2.take 2
        if acc.isEmpty then (acc, r.2.fail sData) else readCl cs want f (acc ++ List.replicate (3 + r.1) (acc.getLastD 0)) r.2
      else
        let r := s.2.take (if s.1 = 17 then 3 else 7)
        readCl cs want f (acc ++ List.replicate ((if s.1 = 17 then 3 else 11) + r.1) 0) r.2

def inflateDynamic (lim : Nat) (d : Dec) : Dec :=
  let a := d.take 5
  let b := a.2.take 5
  let c := b.2.take 4
  let cl := (List.range (c.1 + 4)).foldl (fun (r : List (Nat × Nat) × Dec) k => let x := r.2.take 3; (r.1 ++ [(clOrder.getD k 0, x.1)], x.2)) ([], c.2)
  let cls := (List.range 19).map fun s => ((cl.1.find? (fun e => e.1 == s)).map (·.2)).getD 0
  let nl := a.1 + 257
  let nd := b.1 + 1
  if cl.2.bad ≠ 0 then cl.2
  else if !kraftOk cls then cl.2.fail sData
  else
    let r := readCl (canonical cls) (nl + nd) (nl + nd + 1) [] cl.2
    let lit := r.1.take nl
    let dist := r.1.drop nl
    if r.2.bad ≠ 0 then r.2
    else if !kraftOk lit || !kraftOk dist || lit.getD 256 0 == 0 then r.2.fail sData
    else inflateSyms lim (canonical lit) (canonical dist) (r.2.bits.length + 1) r.2

def inflateBlocks (lim : Nat) : Nat → Dec → Dec
  | 0, d => d.fail sData
  | f + 1, d =>
    let a := d.take 1
    let t := a.2.take 2
    if t.2.bad ≠ 0 then t.2
    else
      let d1 := match t.1 with
        | 0 =>
          let h := t.2.align.bytes 4
          if h.2.bad ≠ 0 then h.2
          else if leAt h.1 0 2 + leAt h.1 2 2 ≠ 0xFFFF then h.2.fail sData
          else let p := h.2.bytes (leAt h.1 0 2); p.2.puts lim p.1
        | 1 => inflateSyms lim (canonical fixedLit) (canonical fixedDist) (t.2.bits.length + 1) t.2
        | 2 => inflateDynamic lim t.2
        | _ => t.2.fail sData
      if d1.bad ≠ 0 ∨ a.1 = 1 then d1.align else inflateBlocks lim f d1

/-- A DEFLATE stream. -/
def inflate (lim : Nat) (d : Dec) : Dec := inflateBlocks lim (d.bits.length + 1) d

def crc32Bit (c : Nat) : Nat := if c % 2 = 1 then c / 2 ^^^ 0xEDB88320 else c / 2
def crc32Byte (c : Nat) (b : Byte) : Nat :=
  crc32Bit (crc32Bit (crc32Bit (crc32Bit (crc32Bit (crc32Bit (crc32Bit (crc32Bit (c ^^^ b.toNat))))))))
/-- The CRC-32 of gzip. -/
def crc32 (b : Bytes) : Nat := b.foldl crc32Byte 0xFFFFFFFF ^^^ 0xFFFFFFFF

/-- The Adler-32 of zlib. -/
def adler32 (b : Bytes) : Nat :=
  let r := b.foldl (fun (x : Nat × Nat) c => let a := (x.1 + c.toNat) % 65521; (a, (x.2 + a) % 65521)) (1, 0)
  r.2 * 65536 + r.1

def Dec.out (d : Dec) : Bytes := d.hist.reverse

/-- Bytes up to and with a zero byte. -/
def Dec.zstring : Nat → Dec → Bytes → Bytes × Dec
  | 0, d, acc => (acc, d.fail sTrunc)
  | f + 1, d, acc =>
    let r := d.bytes 1
    if r.2.bad ≠ 0 then (acc, r.2) else if r.1 = [0#8] then (acc ++ r.1, r.2) else Dec.zstring f r.2 (acc ++ r.1)

/-- A gzip member. -/
def gunzip (lim : Nat) (d : Dec) : Dec :=
  let h := d.bytes 10
  if h.2.bad ≠ 0 then h.2
  else if byteAt h.1 0 ≠ 0x1F ∨ byteAt h.1 1 ≠ 0x8B then h.2.fail sData
  else if byteAt h.1 2 ≠ 8 then h.2.fail sUnsup
  else
    let flg := byteAt h.1 3
    if 32 ≤ flg then h.2.fail sData
    else
      let x : Bytes × Dec :=
        if bitAt flg 2 then
          let l := h.2.bytes 2
          let e := l.2.bytes (leAt l.1 0 2)
          (l.1 ++ e.1, e.2)
        else ([], h.2)
      let fuel := x.2.bits.length + 1
      let n : Bytes × Dec := if bitAt flg 3 then x.2.zstring fuel [] else ([], x.2)
      let c : Bytes × Dec := if bitAt flg 4 then n.2.zstring fuel [] else ([], n.2)
      let k : Bytes × Dec := if bitAt flg 1 then c.2.bytes 2 else ([], c.2)
      if k.2.bad ≠ 0 then k.2
      else if bitAt flg 1 ∧ leAt k.1 0 2 ≠ crc32 (h.1 ++ x.1 ++ n.1 ++ c.1) % 65536 then k.2.fail sCheck
      else
        let body := inflate lim k.2
        let t := body.bytes 8
        if t.2.bad ≠ 0 then t.2
        else if leAt t.1 0 4 ≠ crc32 t.2.out ∨ leAt t.1 4 4 ≠ t.2.n % 2 ^ 32 then t.2.fail sCheck else t.2

/-- A zlib stream. -/
def unzlib (lim : Nat) (d : Dec) : Dec :=
  let h := d.bytes 2
  let cmf := byteAt h.1 0
  let flg := byteAt h.1 1
  if h.2.bad ≠ 0 then h.2
  else if (cmf * 256 + flg) % 31 ≠ 0 then h.2.fail sCheck
  else if cmf % 16 ≠ 8 ∨ 7 < cmf / 16 then h.2.fail sData
  else if bitAt flg 5 then h.2.fail sUnsup
  else
    let t := (inflate lim h.2).bytes 4
    if t.2.bad ≠ 0 then t.2 else if beNat t.1 ≠ adler32 t.2.out then t.2.fail sCheck else t.2

/-! Snappy, raw form. -/

def varint : Nat → Nat → Nat → Dec → Nat × Dec
  | 0, v, _, d => (v, d.fail sData)
  | f + 1, v, sh, d =>
    let r := d.bytes 1
    let b := byteAt r.1 0
    let v' := v + b % 128 * 2 ^ sh
    if r.2.bad ≠ 0 then (v, r.2) else if b < 128 then (v', if 2 ^ 32 ≤ v' then r.2.fail sData else r.2) else varint f v' (sh + 7) r.2

def snappyElems (lim want : Nat) : Nat → Dec → Dec
  | 0, d => d
  | f + 1, d =>
    if d.bad ≠ 0 ∨ want ≤ d.n then d
    else
      let t := d.bytes 1
      let tag := byteAt t.1 0
      let hi := tag / 4
      if t.2.bad ≠ 0 then t.2
      else
        match tag % 4 with
        | 0 =>
          let l : Nat × Dec := if hi < 60 then (hi + 1, t.2) else let x := t.2.bytes (hi - 59); (leNat x.1 + 1, x.2)
          let p := l.2.bytes l.1
          snappyElems lim want f (p.2.puts lim p.1)
        | 1 => let x := t.2.bytes 1; snappyElems lim want f (x.2.copy lim x.2.n (hi / 8 * 256 + byteAt x.1 0) (hi % 8 + 4))
        | 2 => let x := t.2.bytes 2; snappyElems lim want f (x.2.copy lim x.2.n (leNat x.1) (hi + 1))
        | _ => let x := t.2.bytes 4; snappyElems lim want f (x.2.copy lim x.2.n (leNat x.1) (hi + 1))

def unsnappy (lim : Nat) (d : Dec) : Option Nat × Dec :=
  let p := varint 5 0 0 d
  if p.2.bad ≠ 0 then (none, p.2) else (some p.1, snappyElems (min lim p.1) p.1 (p.2.bits.length + 1) p.2)

/-! LZ4. -/

/-- A length that continues in bytes of 255. -/
def lz4Len : Nat → Nat → Dec → Nat × Dec
  | 0, v, d => (v, d.fail sTrunc)
  | f + 1, v, d =>
    let r := d.bytes 1
    if r.2.bad ≠ 0 then (v, r.2) else if byteAt r.1 0 = 255 then lz4Len f (v + 255) r.2 else (v + byteAt r.1 0, r.2)

/-- The sequences of a block; matches reach back at most to `start` bytes of output. -/
def lz4Seqs (lim start : Nat) : Nat → Dec → Dec
  | 0, d => d.fail sData
  | f + 1, d =>
    let t := d.bytes 1
    if t.2.bad ≠ 0 then t.2
    else
      let tok := byteAt t.1 0
      let fuel := t.2.bits.length + 1
      let l : Nat × Dec := if tok / 16 = 15 then lz4Len fuel 15 t.2 else (tok / 16, t.2)
      let p := l.2.bytes l.1
      let d1 := p.2.puts lim p.1
      if d1.bad ≠ 0 ∨ d1.bits.isEmpty then d1
      else
        let o := d1.bytes 2
        let m : Nat × Dec := if tok % 16 = 15 then lz4Len fuel 15 o.2 else (tok % 16, o.2)
        lz4Seqs lim start f (m.2.copy lim (m.2.n - start) (leNat o.1) (m.1 + 4))

def rotl32 (x r : Nat) : Nat := (x * 2 ^ r + x / 2 ^ (32 - r)) % 2 ^ 32

def xxRound (acc lane : Nat) : Nat := rotl32 ((acc + lane * 2246822519) % 2 ^ 32) 13 * 2654435761 % 2 ^ 32

def xxStripes : Nat → Bytes → List Nat → List Nat × Bytes
  | 0, b, v => (v, b)
  | n + 1, b, v =>
    if b.length < 16 then (v, b)
    else xxStripes n (b.drop 16) ((List.range 4).map fun k => xxRound (v.getD k 0) (leAt b (4 * k) 4))

def xxTail : Nat → Bytes → Nat → Nat
  | 0, _, h => h
  | n + 1, b, h =>
    if 4 ≤ b.length then xxTail n (b.drop 4) (rotl32 ((h + leAt b 0 4 * 3266489917) % 2 ^ 32) 17 * 668265263 % 2 ^ 32)
    else
      match b with
      | [] => h
      | c :: r => xxTail n r (rotl32 ((h + c.toNat * 374761393) % 2 ^ 32) 11 * 2654435761 % 2 ^ 32)

/-- xxHash32 with seed 0. -/
def xxh32 (b : Bytes) : Nat :=
  let s := xxStripes (b.length / 16) b [606290984, 2246822519, 0, 1640531535]
  let v := s.1
  let h0 := if b.length < 16 then 374761393
    else (rotl32 (v.getD 0 0) 1 + rotl32 (v.getD 1 0) 7 + rotl32 (v.getD 2 0) 12 + rotl32 (v.getD 3 0) 18) % 2 ^ 32
  let h := xxTail (b.length + 1) s.2 ((h0 + b.length) % 2 ^ 32)
  let h := (h ^^^ (h / 2 ^ 15)) * 2246822519 % 2 ^ 32
  let h := (h ^^^ (h / 2 ^ 13)) * 3266489917 % 2 ^ 32
  h ^^^ (h / 2 ^ 16)

def lz4Blocks (lim max_ : Nat) (indep check : Bool) : Nat → Dec → Dec
  | 0, d => d.fail sData
  | f + 1, d =>
    let h := d.bytes 4
    let w := leNat h.1
    let size := w % 2 ^ 31
    if h.2.bad ≠ 0 ∨ w = 0 then h.2
    else if max_ < size then h.2.fail sData
    else
      let p := h.2.bytes size
      let c := if check then p.2.bytes 4 else ([], p.2)
      if c.2.bad ≠ 0 then c.2
      else if check ∧ leNat c.1 ≠ xxh32 p.1 then c.2.fail sCheck
      else
        let start := c.2.n
        let d1 :=
          if bitAt w 31 then c.2.puts lim p.1
          else
            let x := (lz4Seqs lim (if indep then start else 0) (8 * size + 1) { c.2 with bits := bitsOfBytes p.1 }).inBlock
            { x with bits := c.2.bits }
        if d1.bad = 0 ∧ start + max_ < d1.n then d1.fail sData else lz4Blocks lim max_ indep check f d1

/-- The frame after its magic number. -/
def lz4Frame (lim : Nat) (d : Dec) : Option Nat × Dec :=
  let h := d.bytes 2
  let flg := byteAt h.1 0
  let bd := byteAt h.1 1
  if h.2.bad ≠ 0 then (none, h.2)
  else if flg / 64 ≠ 1 ∨ bitAt flg 1 ∨ bd % 16 ≠ 0 ∨ 128 ≤ bd ∨ bd / 16 < 4 then (none, h.2.fail sData)
  else if bitAt flg 0 then (none, h.2.fail sUnsup)
  else
    let s := if bitAt flg 3 then h.2.bytes 8 else ([], h.2)
    let hc := s.2.bytes 1
    let want := if bitAt flg 3 then some (leNat s.1) else none
    if hc.2.bad ≠ 0 then (want, hc.2)
    else if byteAt hc.1 0 ≠ xxh32 (h.1 ++ s.1) / 256 % 256 then (want, hc.2.fail sCheck)
    else
      let b := lz4Blocks (match want with | some w => min lim w | none => lim) (2 ^ (8 + 2 * (bd / 16))) (bitAt flg 5) (bitAt flg 4)
        (hc.2.bits.length + 1) hc.2
      let c := if bitAt flg 2 then b.bytes 4 else ([], b)
      if c.2.bad ≠ 0 then (want, c.2)
      else if bitAt flg 2 ∧ leNat c.1 ≠ xxh32 c.2.out then (want, c.2.fail sCheck)
      else (want, if want.isSome ∧ want ≠ some c.2.n then c.2.fail sData else c.2)

/-! Zstandard: the frame header (RFC 8878); the frame's content by a constant without a body. -/

structure ZstdHead where
  window : Nat
  content : Option Nat
  dict : Nat
  size : Nat
  deriving DecidableEq, Repr

/-- The header after the magic number. -/
def zstdHead (b : Bytes) : Option ZstdHead :=
  let fhd := byteAt b 0
  let single := bitAt fhd 5
  let wSize := if single then 0 else 1
  let dSize := ([0, 1, 2, 4] : List Nat).getD (fhd % 4) 0
  let cSize := ([if single then 1 else 0, 2, 4, 8] : List Nat).getD (fhd / 64) 0
  let size := 1 + wSize + dSize + cSize
  if b.length < size ∨ bitAt fhd 3 then none
  else
    let wd := byteAt b 1
    let c := leAt b (1 + wSize + dSize) cSize + (if cSize = 2 then 256 else 0)
    let base := 2 ^ (10 + wd / 8)
    some ⟨if single then c else base + base / 8 * (wd % 8), if cSize = 0 then none else some c, leAt b (1 + wSize) dSize, size⟩

/-- A registered dictionary: its slot and Dictionary_ID (R276). -/
abbrev DictOf := Nat → Option Bytes

/-- The frame after its magic number. -/
def zstdFrame (dicts : DictOf) (lim : Nat) (d : Dec) : Option Nat × Dec :=
  let rest := packBits (d.bits.length / 8) d.bits
  match zstdHead rest with
  | none => (none, if rest.length < 14 then d.fail sTrunc else d.fail sData)
  | some h =>
    if 2 ^ 23 < h.window then (h.content, d.fail sUnsup)
    else if h.dict ≠ 0 ∧ (dicts h.dict).isNone then (h.content, d.fail sDict)
    else
      let r := Config.zstd ((dicts h.dict).getD []) rest
      let d1 := ({ d with bits := d.bits.drop (8 * r.used) } : Dec).puts (match h.content with | some c => min lim c | none => lim) r.out
      if d1.bad ≠ 0 then (h.content, d1)
      else if r.status ≠ 0 then (h.content, d1.fail r.status)
      else (h.content, if h.content.isSome ∧ h.content ≠ some d1.n then d1.fail sData else d1)

/-! Units of a stream (R275, R277). -/

/-- One frame, member or stream from the front of the bits: `false` for a skippable frame, its declared length, the decoder
after it. -/
def decodeUnit (fmt : Nat) (dicts : DictOf) (lim : Nat) (bits : List Bool) : Bool × Option Nat × Dec :=
  let d : Dec := { bits := bits }
  let none_ (x : Dec) : Bool × Option Nat × Dec := (true, none, x)
  let framed (magic : Nat) (old : Nat → Bool) (f : Dec → Option Nat × Dec) : Bool × Option Nat × Dec :=
    let m := d.bytes 4
    if m.2.bad ≠ 0 then none_ m.2
    else if leNat m.1 = magic then (true, f m.2)
    else if leNat m.1 / 16 = 0x184D2A5 then
      let l := m.2.bytes 4
      let p := l.2.bytes (leNat l.1)
      (false, none, p.2)
    else none_ (m.2.fail (if old (leNat m.1) then sUnsup else sData))
  match fmt with
  | 1 => none_ (inflate lim d)
  | 2 => none_ (gunzip lim d)
  | 3 => none_ (unzlib lim d)
  | 4 => framed 0xFD2FB528 (fun m => decide (0xFD2FB522 ≤ m) && decide (m ≤ 0xFD2FB527)) (zstdFrame dicts lim)
  | 5 => (true, unsnappy lim d)
  | 6 => none_ (lz4Seqs lim 0 (bits.length + 1) d)
  | 7 => framed 0x184D2204 (fun m => m == 0x184C2102) (lz4Frame lim)
  | _ => (true, churnFrame lim d)

/-- What decoding a stream gives: its output, the failing status with the input byte being read, units, whether space ran
out, the bounds' failure being CHURN_EXPANSION. -/
structure Decoded where
  out : Bytes := []
  status : Nat := 0
  at_ : Nat := 0
  units : Nat := 0
  /-- Dictionary_IDs that its frames name. -/
  dicts : List Nat := []
  deriving DecidableEq, Repr

/-- Whether the bits begin with a skippable frame of Zstandard or LZ4. -/
def skippable (fmt : Nat) (bits : List Bool) : Bool :=
  (fmt == 4 || fmt == 7) && leNat (packBits 4 (bits.take 32)) / 16 == 0x184D2A5

/-- The Dictionary_ID that a Zstandard frame at the front of the bits names. -/
def frameDict (fmt : Nat) (bits : List Bool) : List Nat :=
  if fmt = 4 then
    match zstdHead (packBits 18 ((bits.drop 32).take 144)) with
    | some h => if h.dict = 0 then [] else [h.dict]
    | none => []
  else []

/-- The units of an input, over `fuel` units: RATIO, what remains of OUT_LIMIT and of OUT0's length, MULTI, whether zero
bytes may follow. -/
def decodeUnits (fmt : Nat) (dicts : DictOf) (ratio : Nat) (limit space : Option Nat) (multi zeroTail : Bool) (total : Nat) :
    Nat → List Bool → Decoded → Decoded
  | 0, _, acc => acc
  | f + 1, bits, acc =>
    let pos (b : List Bool) : Nat := total - (b.length + 7) / 8
    let free := decodeUnit fmt dicts (2 ^ 64) bits
    let used := (bits.length - free.2.2.bits.length) / 8
    let own := if free.2.2.bad = 0 then used else bits.length / 8
    let left (x : Option Nat) : Nat := match x with | some n => n - acc.out.length | none => 2 ^ 64
    let bound := min (ratio * own) (left limit)
    -- bounded first by the guard, then by the space that OUT0 has
    let r := if bound < free.2.2.n then decodeUnit fmt dicts bound bits else free
    let out := acc.out ++ r.2.2.out
    let acc := { acc with dicts := acc.dicts ++ frameDict fmt bits }
    if left space < r.2.2.n ∨ (r.2.2.bad = sExpand ∧ left space < bound ∧ left space = r.2.2.n) then
      { acc with out := out, status := 0x80, at_ := pos r.2.2.bits }
    else if r.2.2.bad ≠ 0 then { acc with out := out, status := r.2.2.bad, at_ := pos r.2.2.bits }
    else
      let acc' := { acc with out := out, units := acc.units + ofBool r.1 }
      let rest := r.2.2.bits
      if rest.isEmpty then (if acc'.units = 0 then { acc' with status := sTrunc, at_ := total } else acc')
      else if zeroTail && !rest.any id && decide (0 < acc'.units) then acc'
      else if multi || decide (acc'.units = 0) || skippable fmt rest then decodeUnits fmt dicts ratio limit space multi zeroTail total f rest acc'
      else { acc' with status := sData, at_ := pos rest }

/-- A whole input decoded. -/
def decodeStream (fmt : Nat) (dicts : DictOf) (ratio : Nat) (limit space : Option Nat) (multi zeroTail : Bool) (b : Bytes) : Decoded :=
  if b.isEmpty then { status := sTrunc }
  else decodeUnits fmt dicts ratio limit space multi zeroTail b.length (b.length + 1) (bitsOfBytes b) {}

end Sys2Proof.Machine
end

