-- ==== Sys2Proof/Machine/Encode.lean ====
section
/-! DEFINITION. What Churn encodes: segments, tokens, the forms of a block (R280 to R283, R285, R286). The encoder's choice of
matches and tables is open (R285): constants without a body propose them, and what is not a valid choice is not taken. -/

namespace Sys2Proof.Machine

/-- Limits of a match: least and greatest length, greatest distance. -/
structure MatchRule where
  lo : Nat
  hi : Nat
  dist : Nat
  deriving DecidableEq, Repr

def churnRule : MatchRule := ⟨4, 259, 65536⟩
def deflateRule : MatchRule := ⟨3, 258, 32768⟩

/-- Whether the proposed match at `p` copies what stands there, within the segment's part before `hi`. -/
def goodMatch (r : MatchRule) (seg : Bytes) (p hi l d : Nat) : Bool :=
  decide (r.lo ≤ l) && decide (l ≤ r.hi) && decide (1 ≤ d) && decide (d ≤ min p r.dist) && decide (p + l ≤ hi) &&
    (List.range l).all fun i => seg.getD (p - d + i) 0#8 == seg.getD (p + i) 0#8

/-- A token: a match's length and distance, or 0 and a literal. -/
abbrev Tok := Nat × Nat

/-- The tokens of bytes `p` up to `hi` of a segment, over `fuel` tokens. -/
def tokensOf (r : MatchRule) (fmt : Nat) (seg : Bytes) (hi : Nat) : Nat → Nat → List Tok
  | 0, _ => []
  | f + 1, p =>
    if hi ≤ p then []
    else
      let m := Config.lzMatch fmt seg p
      if goodMatch r seg p hi m.1 m.2 then m :: tokensOf r fmt seg hi f (p + m.1)
      else (0, byteAt seg p) :: tokensOf r fmt seg hi f (p + 1)

/-- `k` bits of a number, least significant first. -/
def lsbBits (k v : Nat) : List Bool := (List.range k).map fun i => bitAt v i

/-- A symbol's code, most significant bit first; none where it has none. -/
def codeBits (cs : Codes) (sym : Nat) : Option (List Bool) :=
  (cs.find? (fun c => c.2.2 == sym)).map fun c => (lsbBits c.1 c.2.1).reverse

/-- The bucket that holds a value: the greatest base not above it. -/
def bucketFor (v : Nat) : Nat := ((List.range 32).filter (fun b => decide ((bucketOf b).1 ≤ v))).getLastD 0

/-- Bits of parts that are all there. -/
def joinBits (xs : List (Option (List Bool))) : Option (List Bool) :=
  xs.foldl (fun acc x => match acc, x with | some a, some b => some (a ++ b) | _, _ => none) (some [])

/-- A token of a Churn payload. -/
def churnTok (lit dist : Codes) (t : Tok) : Option (List Bool) :=
  if t.1 = 0 then codeBits lit t.2
  else
    let lb := bucketFor (t.1 - 4)
    let db := bucketFor (t.2 - 1)
    joinBits [codeBits lit (257 + lb), some (lsbBits (bucketOf lb).2 (t.1 - 4 - (bucketOf lb).1)),
      codeBits dist db, some (lsbBits (bucketOf db).2 (t.2 - 1 - (bucketOf db).1))]

/-- A coded payload of tokens, where every symbol has a code. -/
def churnCoded (lit dist : List Nat) (table : Bool) (ts : List Tok) : Option Bytes :=
  let cl := canonical lit
  let cd := canonical dist
  let head := if table then (lit ++ dist).flatMap (lsbBits 4) else []
  (joinBits ([some head] ++ ts.map (churnTok cl cd) ++ [codeBits cl 256])).map fun bs => packBits (bs.length + 1) bs

/-- The dynamic payload with the lengths that the encoder chose, where they are valid (R282). -/
def churnDynamic (seg : Bytes) (lo : Nat) (ts : List Tok) : Option Bytes :=
  let ls := (Config.dynLens seg lo).take 305
  let lit := ls.take 273
  let dist := ls.drop 273
  if decide (ls.length = 305) && ls.all (fun l => decide (l ≤ 15)) && decide (lit.getD 256 0 ≠ 0) && kraftOk lit && kraftOk dist then
    churnCoded lit dist true ts
  else none

/-- A block of a Churn frame and whether it is raw (R285). -/
def churnBlock (dynamic : Bool) (seg : Bytes) (lo : Nat) (last : Bool) : Bytes × Bool :=
  let hi := min seg.length (lo + 65536)
  let n := hi - lo
  let ts := tokensOf churnRule 8 seg hi (n + 1) lo
  let st := (churnCoded staticLit staticDist false ts).getD (zeros n)
  let dy := if dynamic then churnDynamic seg lo ts else none
  let head (flags len : Nat) : Bytes := leBytes 4 (flags + 4 * ofBool last + 256 * (n - 1)) ++ leBytes 4 len
  let dLen := (dy.map (·.length)).getD n
  if n ≤ min st.length dLen then (head 1 n ++ sub seg lo n, true)
  else if st.length ≤ dLen then (head 0 st.length ++ st, false)
  else (head 2 dLen ++ dy.getD [], false)

/-- A Churn frame of a segment, and its raw blocks (R279). -/
def churnEncode (dynamic : Bool) (seg : Bytes) : Bytes × Nat :=
  let k := ceilDiv seg.length 65536
  let bs := (List.range k).map fun i => churnBlock dynamic seg (65536 * i) (i + 1 == k)
  (leBytes 4 0x4E524843 ++ leBytes 1 1 ++ zeros 3 ++ leBytes 8 seg.length ++ bs.flatMap (·.1) ++
    leBytes 4 (crc32c seg) ++ leBytes 4 k, (bs.filter (·.2)).length)

/-! DEFLATE. -/

/-- The place in a table of bases of the greatest base not above a value. -/
def baseFor (bases : List Nat) (v : Nat) : Nat := ((List.range bases.length).filter (fun i => decide (bases.getD i 0 ≤ v))).getLastD 0

/-- A token of a fixed-code block. -/
def deflateTok (lit dist : Codes) (t : Tok) : Option (List Bool) :=
  if t.1 = 0 then codeBits lit t.2
  else
    let lb := baseFor lenBase t.1
    let db := baseFor distBase t.2
    joinBits [codeBits lit (257 + lb), some (lsbBits (lenExtra.getD lb 0) (t.1 - lenBase.getD lb 0)),
      codeBits dist db, some (lsbBits (distExtra.getD db 0) (t.2 - distBase.getD db 0))]

/-- A fixed-code block without its three header bits. -/
def deflateFixed (ts : List Tok) : List Bool :=
  let cl := canonical fixedLit
  let cd := canonical fixedDist
  (joinBits (ts.map (deflateTok cl cd) ++ [codeBits cl 256])).getD []

/-- Whether bits are a dynamic block that gives bytes `lo` up to `hi` of a segment and nothing more. -/
def goodDynamic (seg : Bytes) (lo hi : Nat) (bs : List Bool) : Bool :=
  let d := inflateDynamic (hi + 1) { bits := bs, hist := (seg.take lo).reverse, n := lo }
  d.bad == 0 && d.bits.isEmpty && d.out == seg.take hi

/-- Bits filled with zeros to a byte boundary. -/
def fillByte (bs : List Bool) : List Bool := bs ++ List.replicate ((8 - bs.length % 8) % 8) false

/-- A stored block after `before`. -/
def storedBlock (before : List Bool) (final : Bool) (b : Bytes) : List Bool :=
  fillByte (before ++ [final, false, false]) ++ bitsOfBytes (leBytes 2 b.length ++ leBytes 2 (65535 - b.length) ++ b)

/-- The stream `acc` with the block at `lo` of a segment, and whether the block is stored (R286). DESIGN CHOICE (log 15): a
block shrinks where its code with the header, in whole bytes, is shorter than its bytes. -/
def deflateBlock (dynamic : Bool) (seg : Bytes) (acc : List Bool) (lo : Nat) (final : Bool) : List Bool × Bool :=
  let hi := min seg.length (lo + 65536)
  let n := hi - lo
  let fx := [final, true, false] ++ deflateFixed (tokensOf deflateRule 1 seg hi (n + 1) lo)
  let dyn := Config.dynDeflate seg lo
  let dy := if dynamic && goodDynamic seg lo hi dyn && decide (dyn.length + 3 < fx.length) then [final, false, true] ++ dyn else fx
  if n ≤ ceilDiv dy.length 8 then
    if n ≤ 65535 then (storedBlock acc final (sub seg lo n), true)
    else (storedBlock (storedBlock acc false (sub seg lo 65535)) final (sub seg (lo + 65535) 1), true)
  else (acc ++ dy, false)

/-- The stream of one segment after `acc`, and its stored blocks. -/
def deflateSegment (dynamic : Bool) (r : List Bool × Nat) (seg : Bytes) (final : Bool) : List Bool × Nat :=
  let k := ceilDiv seg.length 65536
  let r' := (List.range k).foldl (fun (r : List Bool × Nat) i =>
    let x := deflateBlock dynamic seg r.1 (65536 * i) (final && i + 1 == k)
    (x.1, r.2 + ofBool x.2)) r
  if final then r' else (storedBlock r'.1 false [], r'.2)

/-- A DEFLATE stream of segments. -/
def deflateEncode (dynamic : Bool) (segs : List Bytes) : Bytes × Nat :=
  let bs := if segs.flatMap id = [] then ([true, true, false] ++ List.replicate 7 false, 0)
    else segs.zipIdx.foldl (fun r e => deflateSegment dynamic r e.1 (e.2 + 1 == segs.length)) ([], 0)
  (packBits (bs.1.length + 1) bs.1, bs.2)

/-- The output of ENCODE of a FORMAT, its raw blocks, its frames or streams, its segments. -/
def encodeStream (fmt : Nat) (dynamic : Bool) (segKib : Nat) (b : Bytes) : Bytes × Nat × Nat × Nat :=
  let segs := pieces ((if segKib = 0 then 4096 else segKib) * 1024) (b.length + 1) b
  match fmt with
  | 8 =>
    let fs := segs.map (churnEncode dynamic)
    (fs.flatMap (·.1), fs.foldl (fun n f => n + f.2) 0, fs.length, segs.length)
  | 2 =>
    let d := deflateEncode dynamic segs
    ([0x1F#8, 0x8B#8, 8#8, 0#8] ++ zeros 4 ++ [0#8, 255#8] ++ d.1 ++ leBytes 4 (crc32 b) ++ leBytes 4 b.length, d.2, 1, segs.length)
  | 3 =>
    let d := deflateEncode dynamic segs
    ([0x78#8, 0x01#8] ++ d.1 ++ (leBytes 4 (adler32 b)).reverse, d.2, 1, segs.length)
  | _ =>
    let d := deflateEncode dynamic segs
    (d.1, d.2, 1, segs.length)

end Sys2Proof.Machine
end

