-- ==== Sys2Proof/Machine/Churn.lean ====
section
/-! DEFINITION. The Churn stage (R271 to R278, R285 to R289) and its dictionaries (R276, R290). -/

namespace Sys2Proof.Machine

open Sys2Proof.Reg

/-! The parameter block (Table 13-2). -/

def chFormat (b : Bytes) : Nat := byteAt b 0
def chDynamic (b : Bytes) : Bool := byteAt b 1 == 1
def chMulti (b : Bytes) : Bool := bitAt (byteAt b 2) 0
def chRatio (b : Bytes) : Nat := leAt b 4 4
def chSeg (b : Bytes) : Nat := leAt b 8 4
def chLimit (b : Bytes) : Nat := leAt b 16 8

/-- Whether an operator accepts a format (Table 13-3). -/
def formatOk (op fmt : Nat) : Bool :=
  match op with
  | 1 => decide (1 ≤ fmt) && decide (fmt ≤ 8)
  | 2 => fmt == 1 || fmt == 2 || fmt == 3 || fmt == 8
  | _ => decide (0x10 ≤ fmt) && decide (fmt ≤ 0x12)

/-- Whether columns are a byte output: one LARGE_BINARY entry. -/
def byteCols (cols : List (List SchEntry)) : Bool := oneCol cols 0x13

/-- A binding's address in herd form. -/
def State.bindHerd (s : State) (b : Bind) : Nat := if b.herd then b.addr else s.herdForm b.addr

/-- Whether two BYTES bindings share a byte. -/
def State.overlap (s : State) (a b : Bind) : Bool :=
  decide (0 < a.len) && decide (0 < b.len) && decide (s.bindHerd a < s.bindHerd b + b.len) && decide (s.bindHerd b < s.bindHerd a + a.len)

/-- What is wrong with a Churn stage. -/
def checkChurn (s : State) (p : Plan) (binds : List Bind) (i : Nat) : List Flaw :=
  let st := p.stage i
  let b := p.block st
  let in0 := st.in_ 0
  let out0 := st.out_ 0
  let bnd (x : Operand) : Bind := binds.getD x.slot default
  let fieldOk (ok : Bool) (off : Nat) : List Flaw := parFlaw ok off 0x6E
  recFlaw (decide (1 ≤ st.op) && decide (st.op ≤ 3)) 1 0x6E ++ recFlaw (decide (st.pLen = 64)) 12 0x6E ++
  fieldOk (formatOk st.op (chFormat b)) 0 ++ fieldOk (decide (byteAt b 1 ≤ if st.op = 2 then 1 else 0)) 1 ++ fieldOk (decide (byteAt b 2 ≤ 1)) 2 ++
  fieldOk (zeroFrom b 3 4) 3 ++ fieldOk (decide (chRatio b ≤ 65535)) 4 ++
  fieldOk (chSeg b == 0 || (st.op == 2 && chSeg b % 64 == 0 && decide (chSeg b ≤ 4096))) 8 ++ fieldOk (zeroFrom b 12 16) 12 ++
  fieldOk (zeroFrom b 24 64) 24 ++
  inFlaw (p.isBind 2 in0 || p.isBind 3 in0 || (match in0 with | .stage .. => byteCols (p.inCols i 0) | _ => false)) 0 ++
  restNone st 1 2 ++
  outFlaw ((p.isBind 2 out0 || (match out0 with | .vat _ => byteCols (p.outCols i 0) | _ => false)) &&
    !(p.isBind 2 in0 && p.isBind 2 out0 && s.overlap (bnd in0) (bnd out0))) 0 ++
  outFlaw (!(st.out_ 1).given || p.isBind 2 (st.out_ 1)) 1 ++
  bindFlaw (!p.isBind 2 (st.out_ 1) || decide (64 ≤ (bnd (st.out_ 1)).len)) (st.out_ 1).slot 16 0x6E

/-! Slices. The engine's numbers, set by the first slice: 0 done, 1 status, 2 place of the failure, 3 units finished, 4 raw
blocks, 5 refused pages, 6 slice units in all, 7 input bytes, 8 DATA_CRC, 9 frames; text 0 the output; tags the dictionary
slots that its frames resolved. -/

/-- The registered dictionary of an ID; a slot whose UNREGISTER waits is not found (R276). -/
def State.dictOf (s : State) (id : Nat) : Option (Nat × Dict) :=
  List.find? (fun e => e.2.id == id && s.churn.unreg != some e.1) s.churn.dicts

/-- The unit in which slices of the stage end (Table 13-6). -/
def churnUnit (st : Stage) (b : Bytes) : Nat := if st.op = 2 then (if chDynamic b then 8192 else 16384) else 32768

/-- The stage's whole work on its input. -/
def State.churnWork (s : State) (job : Job) (c : Ctx) (input : Bytes) : Eng :=
  let b := c.block
  let out := job.bind (c.out_ 0).slot
  let space := if c.plan.isBind 2 (c.out_ 0) then some out.len else none
  let ratio := if chRatio b = 0 then s.fld CHURN.RATIO_DEF else chRatio b
  let fits (n : Nat) : Bool := match space with | some m => decide (n ≤ m) | none => true
  let mk (bytes : Bytes) (status at_ units raw refused crc frames size : Nat) (tags : List Nat) : Eng :=
    { nums := [(0, 1), (1, status), (2, at_), (3, units), (4, raw), (5, refused), (6, max 1 (ceilDiv size (churnUnit c.st b))),
               (7, input.length), (8, crc), (9, frames)], texts := [(0, bytes)], tags := tags }
  if c.st.op = 1 then
    let d := decodeStream (chFormat b) (fun id => (s.dictOf id).map (·.2.bytes)) ratio (if chLimit b = 0 then none else some (chLimit b)) space
      (chMulti b) (c.plan.isBind 3 (c.in_ 0)) input
    mk d.out d.status d.at_ d.units 0 0 (crc32c d.out) d.units d.out.length (d.dicts.filterMap fun id => (s.dictOf id).map (·.1))
  else if c.st.op = 2 then
    let e := encodeStream (chFormat b) (chDynamic b) (chSeg b) input
    mk e.1 (if fits e.1.length then 0 else 0x80) 0 e.2.2.2 e.2.1 0 (crc32c input) e.2.2.1 input.length []
  else
    let e := Config.pageStream (chFormat b) ratio (chLimit b) input
    mk e.out (if e.status ≠ 0 then e.status else if fits e.out.length then 0 else 0x80) e.at_ 1 0 e.refused 0 1 e.out.length []

/-- What a failure counts on the instance's page. -/
def State.churnError (s : State) (page status : Nat) : State :=
  match status with
  | 0x81 => (s.raiseOwn page 16).count (CHURN.DATA_ERRORS.on page) 1
  | 0x82 => (s.raiseOwn page 17).count (CHURN.DATA_ERRORS.on page) 1
  | 0x83 => (s.raiseOwn page 18).count (CHURN.EXPANSIONS.on page) 1
  | 0x85 => s.raiseOwn page 19
  | 0x86 => (s.raiseOwn page 16).count (CHURN.DATA_ERRORS.on page) 1
  | _ => s

/-- The result record (R273). -/
def churnRecord (e : Eng) : Bytes :=
  let n (k : Nat) : Nat := Table.findD e.nums k 0
  leBytes 8 (Table.findD e.texts 0 []).length ++ leBytes 8 (n 7) ++ leBytes 4 (n 8) ++ zeros 4 ++ leBytes 4 (n 9) ++ leBytes 4 (n 4) ++
  leBytes 4 (n 5) ++ zeros 28

/-- The address that DETAIL names for a failure: the input byte being read, the first byte that OUT0 does not have, or 0. -/
def State.churnDetail (s : State) (job : Job) (c : Ctx) (status at_ : Nat) : Nat :=
  if status = 0x80 then let b := job.bind (c.out_ 0).slot; s.bindDetail job b b.len
  else if c.plan.isBind 2 (c.in_ 0) then s.bindDetail job (job.bind (c.in_ 0).slot) at_
  else 0

/-- The last slice's outcome. -/
def State.churnEnd (s : State) (job : Job) (c : Ctx) (e : Eng) : Ran :=
  let n (k : Nat) : Nat := Table.findD e.nums k 0
  let out := Table.findD e.texts 0 []
  let s1 := (((s.count (CHURN.BYTES_IN.on c.page) (n 7)).count (CHURN.BYTES_OUT.on c.page) out.length).count (CHURN.UNITS.on c.page) (n 3)).count
    (CHURN.RAW_BLOCKS.on c.page) (n 4)
  if n 1 ≠ 0 then .failed (s1.churnError c.page (n 1)) (n 1) (s.churnDetail job c (n 1) (n 2))
  else
    let s2 := if (c.out_ 1).given then s1.appendBytes c 1 (churnRecord e) else s1
    if c.plan.isBind 2 (c.out_ 0) then .done (s2.appendBytes c 0 out) true
    else Ran.with s2 (s2.appendOut c 0 (if out.isEmpty then [] else [[.str out]])) fun s3 => .done s3 true

/-- A Churn slice. The first one does the stage's work; the others show the units. -/
def runChurn (s : State) (c : Ctx) : Ran :=
  match s.job? c.job with
  | none => .done s true
  | some job =>
    let e := job.engOf c.stage
    let go (e : Eng) : Ran :=
      let total := Table.findD e.nums 6 1
      let e' := { e with consumed := min total (e.consumed + max 1 c.count) }
      let s1 := s.setEng c.job c.stage e'
      if e'.consumed < total then .done s1 false else s1.churnEnd job c e'
    if Table.findD e.nums 0 0 = 1 then go e
    else Ran.with s (s.inputBytes job c 0 0 (s.inputSize job c 0)) fun b => go (s.churnWork job c b)

/-! Dictionaries. -/

/-- The dictionary store's bytes in use. -/
def State.dictBytes (s : State) : Nat := s.churn.dicts.foldl (fun n e => n + e.2.bytes.length) 0

/-- Skim pages of the dictionary store follow its contents. -/
def State.setDicts (s : State) (ds : Table Dict) : State :=
  let before := pagesMib s.dictBytes
  let s1 : State := { s with churn := { s.churn with dicts := ds } }
  s1.modTiers fun t => { t with skimOther := t.skimOther + pagesMib s1.dictBytes - before }

/-- Whether a stage still decodes with a dictionary slot. -/
def State.dictInUse (s : State) (slot : Nat) : Bool :=
  s.work.jobs.any fun e => e.2.eng.any fun g =>
    (e.2.plan.stage g.1).cls == 2 && !e.2.ended.contains g.1 && g.2.tags.contains slot

/-- A dictionary command's end: DONE, RESULT, DICT_ID. -/
def State.dictDone (s : State) (slot result : Nat) : State :=
  let id := ((Table.find? s.churn.dicts slot).map (·.id)).getD 0
  (((s.setFld CHURN.BUSY 0).setFld CHURN.DONE 1).setFld CHURN.RESULT result).setFld CHURN.DICT_ID id

/-- REGISTER (R276, Table 13-9) of the bytes at DICT_ADDR. -/
def State.dictRegister (s : State) : State :=
  let slot := s.fld CHURN.SLOT
  let len := s.fld CHURN.DICT_LEN
  let a := s.fld CHURN.DICT_ADDR
  let sp := spaceOf a
  let b := s.loadBytes a len
  let id := leAt b 4 4
  if Table.has s.churn.dicts slot then s.dictDone slot 1
  else if len < 8 ∨ 1048576 < len ∨ ¬ sameSpace a len ∨ ¬ (sp = .vat ∨ sp = .cream ∨ sp = .skim) ∨ leAt b 0 4 ≠ 0xEC30A437 ∨ id = 0 then
    s.dictDone slot 3
  else if s.churn.dicts.any (fun e => e.2.id == id) then s.dictDone slot 1
  else if 0x4000000 < s.dictBytes + len ∨ s.skimFree < pagesMib (s.dictBytes + len) - pagesMib s.dictBytes then s.dictDone slot 4
  else (s.setDicts (Table.put s.churn.dicts slot ⟨id, b⟩)).dictDone slot 0

/-- UNREGISTER that waits completes once no frame that resolved the slot is still being decoded. -/
def State.dictSettle (s : State) : State :=
  match s.churn.unreg with
  | none => s
  | some slot =>
    if s.dictInUse slot then s
    else
      let s1 := s.setDicts (Table.drop s.churn.dicts slot)
      { s1 with churn := { s1.churn with unreg := none } }.dictDone slot 0

/-- UNREGISTER begins. -/
def State.dictUnregister (s : State) : State :=
  let slot := s.fld CHURN.SLOT
  if Table.has s.churn.dicts slot then
    { (s.setFld CHURN.BUSY 1).setFld CHURN.DONE 0 with churn := { s.churn with unreg := some slot } }
  else s.dictDone slot 2

/-- READ. -/
def State.dictRead (s : State) : State :=
  let slot := s.fld CHURN.SLOT
  s.dictDone slot (if Table.has s.churn.dicts slot then 0 else 2)

end Sys2Proof.Machine
end

