-- ==== Sys2Proof/Machine/Dlog.lean ====
section
/-! DEFINITION. The damage log ring (R266 to R269). -/

namespace Sys2Proof.Machine

open Sys2Proof.Reg

/-- A damage log entry before it is numbered (Table 12-10). -/
structure DlogEntry where
  kind : Nat
  dflt : Bool := false
  nulled : Bool := false
  dropped : Bool := false
  failed : Bool := false
  tag : Nat := 0
  stage : Nat := 0
  column : Nat := 0xFFFF
  fileTag : Nat := 0
  off : Nat := 0
  row : Nat := 0
  count : Nat := 0
  detail : Nat := 0
  deriving DecidableEq, Repr, Inhabited

/-- The entry's bytes. -/
def State.dlogBytes (s : State) (e : DlogEntry) : Bytes :=
  leBytes 1 e.kind ++
  leBytes 1 (ofBool s.dlog.phase + 2 * ofBool e.dflt + 4 * ofBool e.nulled + 8 * ofBool e.dropped + 16 * ofBool e.failed) ++
  leBytes 2 e.tag ++ leBytes 2 e.stage ++ leBytes 2 e.column ++ leBytes 8 e.fileTag ++ leBytes 8 e.off ++ leBytes 8 e.row ++
  leBytes 8 e.count ++ leBytes 8 s.tide.now ++ leBytes 8 s.chrono ++ leBytes 4 s.dlog.seq ++ leBytes 2 s.node.id ++ leBytes 2 e.detail

/-- Slots of the ring. -/
def State.dlogDepth (s : State) : Nat := 2 ^ s.fld INTAKE.LOG_DEPTH

/-- The fill notice (R268). -/
def State.dlogNotice (s : State) : State :=
  s.noticeEval 4 (if s.bit INTAKE.ENABLE then occupancy (s.fld INTAKE.DLOG_HEAD) s.dlog.tail s.dlogDepth else 0) (s.fld INTAKE.MARK)
    (s.fld INTAKE.HYST) 0 INTAKE.CROSSED INTAKE.DLOG_CROSSINGS 0x070

/-- An entry that is not written. -/
def State.dlogDrop (s : State) : State := s.count INTAKE.DLOG_DROPPED 1

/-- An entry produced (R267). An entry that is dropped takes no SEQ. DEDUCED (log 16). -/
def State.dlogWrite (s : State) (e : DlogEntry) : State :=
  let base := s.fld INTAKE.DLOG_BASE
  let depth := s.dlogDepth
  let next := (s.dlog.tail + 1) % depth
  if !s.bit INTAKE.ENABLE || (spaceOf base == .host && (s.hostAway 0 || !s.host.p0Up)) then s.dlogDrop
  else if next = s.fld INTAKE.DLOG_HEAD then s.dlogDrop.raiseOwn 0x070 17
  else
    let a := base + 64 * s.dlog.tail
    if s.tierDown a then s.dlogDrop.raiseOwn 0x070 18
    else
      let s1 := s.writeOut 0 a (s.dlogBytes e)
      let s2 : State := { s1 with dlog := { tail := next, phase := if next = 0 then !s.dlog.phase else s.dlog.phase, seq := (s.dlog.seq + 1) % 2 ^ 32 } }
      let s3 := s2.dlogNotice
      if s.bit INTAKE.IRQ then s3.irqEvent 0 0x070 else s3

/-- Enabling the log: its checks and its start (R269). The ENABLE field already holds the written value. -/
def State.dlogEnable (s : State) (was : Bool) : State :=
  if s.bit INTAKE.ENABLE && !was then
    let base := s.fld INTAKE.DLOG_BASE
    let d := s.fld INTAKE.LOG_DEPTH
    if decide (4 ≤ d) && decide (d ≤ 16) && base % 4096 == 0 && engineMapped base (64 * 2 ^ d) then
      ({ s with dlog := {} }.setFld INTAKE.DLOG_HEAD 0).dlogNotice
    else (s.setFld INTAKE.ENABLE 0).raiseOwn 0x070 19
  else s.dlogNotice

/-- A write of DLOG_HEAD: from the present head to TAIL (R267). -/
def State.dlogHead (s : State) (req : Requester) (old : Nat) : State :=
  let v := s.fld INTAKE.DLOG_HEAD
  let depth := s.dlogDepth
  if decide (v < depth) && decide (occupancy old v depth ≤ occupancy old s.dlog.tail depth) then s.dlogNotice
  else (s.setFld INTAKE.DLOG_HEAD old).raiseBy req 0x070 20 0x118

end Sys2Proof.Machine
end

