-- ==== Sys2Proof/Machine/Intake.lean ====
section
/-! DEFINITION. The Intake stage (R248 to R265): survey, text, fixed records, files, concealment, damage. -/

namespace Sys2Proof.Machine

open Sys2Proof.Reg

/-! The parameter block (Tables 12-2, 12-3, 12-6, 12-8). -/

def ipTag (b : Bytes) (k : Nat) : Nat := leAt b (8 * k) 8
def ipLimit (b : Bytes) : Nat := leAt b 64 8
def ipQuiet (b : Bytes) : Bool := bitAt (byteAt b 72) 0
def ipRaw (b : Bytes) : Bool := bitAt (byteAt b 72) 1
def ipFlags (b : Bytes) : Nat := leAt b 80 4
def ipSparse (b : Bytes) : Bool := bitAt (ipFlags b) 0
def ipRecLen (b : Bytes) : Nat := leAt b 80 4
def ipVarlen (b : Bytes) : Bool := bitAt (byteAt b 84) 0
def ipBig (b : Bytes) : Bool := bitAt (byteAt b 84) 1
def ipOff (b : Bytes) (k : Nat) : Nat := leAt b (88 + 8 * k) 4
def ipSlot (b : Bytes) (k : Nat) : Nat := leAt b (92 + 8 * k) 2
def ipNull (b : Bytes) (k : Nat) : Nat := leAt b (94 + 8 * k) 2

/-- The columns of OUT0 and the schema index of each. -/
def intakeCols (p : Plan) (i : Nat) : List (Nat × List SchEntry) :=
  let sc := match (p.stage i).out_ 0 with
    | .vat o => p.schema o
    | .bind slot _ _ => (p.declSchema slot).getD []
    | _ => []
  let idx := match (p.stage i).out_ 0 with
    | .bind _ f n => selectCols (topEntries sc) f n
    | _ => topEntries sc
  idx.map fun k => (k, columnOf sc k)

def intakeInputs (st : Stage) : Nat := ((List.range 8).filter (fun k => (st.in_ k).given)).length

/-- Bytes that an entry takes in a fixed record (R261). -/
def fixBytes (slot : Nat) (c : List SchEntry) : Nat :=
  let e := c.headD default
  if tyStr e.ty then slot else if tyFixList e.ty then e.listSize * tyBytes ((c.drop 1).headD default).ty else tyBytes e.ty

/-- Whether a type can stand in a fixed record. -/
def fixOk (c : List SchEntry) : Bool :=
  let e := c.headD default
  tyStr e.ty || tyFixed e.ty || (tyFixList e.ty && tyFixed ((c.drop 1).headD default).ty)

/-- What is wrong with an Intake stage. -/
def checkIntake (p : Plan) (i : Nat) : List Flaw :=
  let st := p.stage i
  let b := p.block st
  let cols := intakeCols p i
  let bad (ok : Bool) (off : Nat) : List Flaw := parFlaw ok off 0x6E
  let heads := cols.map fun c => (c.2.headD default).ty
  let text := st.op == 3 || st.op == 4 || st.op == 5
  let len := match st.op with
    | 1 => 96
    | 3 => 112
    | 5 => 88 + 8 * cols.length
    | _ => 88
  recFlaw (decide (1 ≤ st.op) && decide (st.op ≤ 5)) 1 0x6E ++ recFlaw (decide (st.pLen = len)) 12 0x6E ++
  bad (decide (byteAt b 72 < 4)) 72 ++ bad (zeroFrom b 73 80) 73 ++
  (match st.op with
    | 1 => bad (decide (ipFlags b ≤ 1)) 80 ++ bad (zeroFrom b 92 96) 92
    | 3 =>
      let d := byteAt b 80
      bad (decide (d ≠ 13) && decide (d ≠ 10) && decide (d ≠ 0) && decide (d ≠ byteAt b 81)) 80 ++ bad (decide (byteAt b 82 ≤ 1)) 82 ++
      bad (decide (byteAt b 84 < 16)) 84 ++ bad (decide (byteAt b 85 ≤ 16)) 85 ++ bad (zeroFrom b 86 88) 86 ++ bad (zeroFrom b 92 96) 92
    | 5 =>
      bad (decide (1 ≤ ipRecLen b) && decide (ipRecLen b ≤ 65536)) 80 ++ bad (decide (byteAt b 84 < 4)) 84 ++ bad (zeroFrom b 85 88) 85 ++
      cols.zipIdx.flatMap fun e =>
        bad (fixOk e.1.2 && decide (ipOff b e.2 + fixBytes (ipSlot b e.2) e.1.2 ≤ ipRecLen b)) (88 + 8 * e.2) ++
        bad (tyStr (headTy e.1.2) || ipSlot b e.2 == 0) (92 + 8 * e.2) ++
        bad (decide (ipNull b e.2 < 8 * ipRecLen b) || ipNull b e.2 == 0xFFFF) (94 + 8 * e.2)
    | _ => bad (decide (ipFlags b ≤ 1)) 80 ++ bad (zeroFrom b 84 88) 84) ++
  ((List.range 8).flatMap fun k =>
    let x := st.in_ k
    inFlaw (match x with
      | .none => decide (0 < k)
      | .stage o r _ _ => !text && ipRaw b && (p.stage r).cls == 2 && (p.stage r).op == 3 && o == 0
      | .bind .. => p.isBind 2 x || (text && p.isBind 3 x)
      | _ => false) k ++
    inFlaw (!x.given || k == 0 || (st.in_ (k - 1)).given) k) ++
  outFlaw (p.isCols (st.out_ 0) && !(text && (cols.any fun c => hasDict c.2)) && !(st.op == 3 && heads.any tyList)) 0 ++
  outFlaw (if bitAt st.flags 0 then !(st.out_ 1).given else p.isCols (st.out_ 1) && oneCol (p.outCols i 1) 0x08) 1 ++ restNone st 8 2

/-! Values and damage. -/

/-- A damage event of a row (Table 12-9): KIND, the entry, the byte, DETAIL, data dropped. -/
structure Damage where
  kind : Nat
  col : Nat
  off : Nat
  detail : Nat := 0
  dropped : Bool := false
  /-- Places of the columns whose values it conceals. -/
  hides : List Nat := []
  deriving DecidableEq, Repr, Inhabited

/-- A value as a record gives it: there, concealed, or none in the file. -/
inductive Got1 where
  | val (v : Val)
  | hidden
  deriving DecidableEq, Repr

/-- A record read: its values by column, its damage. -/
structure Rec where
  vals : List Got1
  damage : List Damage := []
  deriving DecidableEq, Repr, Inhabited

/-- An entry's default. -/
def dfltVal (e : SchEntry) : Val := if tyStr e.ty then .str e.dfltBytes else .num (e.dflt % 256 ^ max 1 (tyWidth e.ty))

/-- A value with nulls of entries that take none replaced by their defaults, and how many were (R254). -/
def withDefaults : List SchEntry → Val → Val × Nat
  | [], v => (v, 0)
  | e :: rest, v =>
    match v with
    | .null => if e.nullable then (.null, 0) else if e.hasDefault then (dfltVal e, 1) else (.null, 0)
    | _ =>
      if tyList e.ty then
        let vs := (unchain v).map (withDefaults rest)
        (chainOf (vs.map (·.1)), vs.foldl (fun n x => n + x.2) 0)
      else (v, 0)

/-- What a concealed value is written as (R262). -/
def concealed (c : List SchEntry) : Val :=
  let e := c.headD default
  if e.hasDefault && !tyList e.ty then dfltVal e else .null

/-- A row made of a record: its values, the nulls that took defaults. -/
def rowOfRec (cols : List (Nat × List SchEntry)) (r : Rec) : List Val × Nat :=
  (List.zip cols r.vals).foldl (fun (acc : List Val × Nat) x =>
    match x.2 with
    | .hidden => (acc.1 ++ [concealed x.1.2], acc.2)
    | .val v => let y := withDefaults x.1.2 v; (acc.1 ++ [y.1], acc.2 + y.2)) ([], 0)

/-- Every column of a row concealed by one damage. -/
def wholeRow (cols : List (Nat × List SchEntry)) (kind off : Nat) : Rec :=
  { vals := cols.map fun _ => .hidden, damage := [{ kind := kind, col := 0xFFFF, off := off, hides := List.range cols.length }] }

def fieldMax : Nat := 0x4000000

/-! CSV (R257, R258). -/

/-- The field of a record for a column: its place in the record + 1, or 0 where the file has none. -/
abbrev ColMap := List Nat

/-- A field's value; none for FIELD_PARSE. -/
def csvValue (d : Dialect) (e : SchEntry) (f : CsvField) : Option Val :=
  if !f.quoted && ((!d.null.isEmpty && f.bytes == d.null) || (d.emptyNull && f.bytes.isEmpty)) then some .null
  else if !f.quoted && f.bytes.isEmpty then (if tyStr e.ty then some (.str []) else some .null)
  else parseText e f.bytes

/-- A CSV record as a row. `want` is the number of fields that a record should have. -/
def csvRow (d : Dialect) (cols : List (Nat × List SchEntry)) (map : ColMap) (want start : Nat) (r : CsvRec) : Rec :=
  let n := r.fields.length
  let badAt := n - 1
  let look (x : (Nat × List SchEntry) × Nat) : Got1 × List Damage :=
    let m := map.getD x.2 0
    let e := x.1.2.headD default
    if m = 0 then (.hidden, [])
    else if r.fin = .badQuote ∧ badAt ≤ m - 1 then (.hidden, [])
    else
      match r.fields[m - 1]? with
      | none => (.hidden, [])
      | some f =>
        if fieldMax < f.bytes.length then (.hidden, [{ kind := 7, col := x.1.1, off := start + f.off, hides := [x.2] }])
        else
          match csvValue d e f with
          | some v => (.val v, [])
          | none => (.hidden, [{ kind := 6, col := x.1.1, off := start + f.off, hides := [x.2] }])
  let got := cols.zipIdx.map look
  let at_ (p : Nat → Bool) : List Nat := (List.range cols.length).filter (fun k => decide (map.getD k 0 ≠ 0) && p (map.getD k 0 - 1))
  let ent (ks : List Nat) : Nat := match ks with | [] => 0xFFFF | k :: _ => ((cols.getD k default).1)
  let fin : List Damage :=
    if r.fin = .badQuote then
      [{ kind := 8, col := ent (at_ (fun m => m == badAt)), off := start + (r.fields.getLastD default).off, hides := at_ (fun m => decide (badAt ≤ m)) }]
    else
      let miss := at_ (fun m => decide (n ≤ m))
      (if miss.isEmpty then [] else [{ kind := 4, col := ent miss, off := start, detail := n, hides := miss }]) ++
      (if want < n then [{ kind := 5, col := 0xFFFF, off := start, detail := n, dropped := true }] else [])
  { vals := got.map (·.1), damage := fin ++ got.flatMap (·.2) }

/-! JSON Lines (R260). -/

/-- A scalar of JSON for an entry; none for FIELD_PARSE. -/
def jsonScalar (e : SchEntry) : Json → Option Val
  | .null => some .null
  | .lit t => parseText e t
  | .num t => parseText e t
  | .str t => parseText e t
  | _ => none

/-- A value of JSON for a column. -/
def jsonVal (c : List SchEntry) (v : Json) : Option Val :=
  let e := c.headD default
  match v with
  | .null => some .null
  | .arr xs =>
    if !tyList e.ty then none
    else if tyFixList e.ty && xs.length != e.listSize then none
    else
      let ys := xs.map (jsonScalar ((c.drop 1).headD default))
      if tyList (((c.drop 1).headD default).ty) || ys.any (·.isNone) then none else some (chainOf (ys.map (·.getD .null)))
  | .obj _ => none
  | x => if tyList e.ty then none else jsonScalar e x

/-- Members by their full names: those of inner objects with the outer name before them. -/
def jsonFlat (ms : List (Bytes × Nat × Json)) : List (Bytes × Nat × Json) :=
  ms.flatMap fun m =>
    match m.2.2 with
    | .obj inner => inner.map fun x => (m.1 ++ ascii [46] ++ x.1, x.2.1, x.2.2)
    | _ => [m]

/-- A line as a row. -/
def jsonRow (sparse : Bool) (cols : List (Nat × List SchEntry)) (start : Nat) (line : Bytes) : Rec :=
  if fieldMax < line.length then wholeRow cols 7 start
  else
    match jsonLine line with
    | none => wholeRow cols 9 start
    | some ms =>
      let all := jsonFlat ms
      -- the last occurrence of a name wins
      let flat := all.zipIdx.filterMap fun x => if (all.drop (x.2 + 1)).any (fun y => y.1 == x.1.1) then none else some x.1
      let place (rem : Nat) : Nat := start + (line.length - rem)
      let nameOf (x : Nat × List SchEntry) : Bytes := (x.2.headD default).name
      let got := cols.zipIdx.map fun x =>
        match flat.find? (fun m => m.1 == nameOf x.1) with
        | none => (Got1.hidden, true, ([] : List Damage))
        | some m =>
          match jsonVal x.1.2 m.2.2 with
          | some v => (.val v, false, [])
          | none => (.hidden, false,
              [{ kind := 6, col := x.1.1, off := place m.2.1, hides := [x.2], dropped := match m.2.2 with | .obj _ => true | _ => false }])
      let stray := flat.filter fun m => !cols.any (fun c => nameOf c == m.1)
      -- an object nested too deep that no entry is named after is a field that does not parse
      let deep := stray.filter fun m => match m.2.2 with | .obj _ => true | _ => false
      let long := stray.filter fun m => match m.2.2 with | .obj _ => false | _ => true
      let miss := (got.zipIdx.filter (fun g => g.1.2.1)).map (·.2)
      { vals := got.map (·.1)
        damage :=
          (if miss.isEmpty || sparse then [] else
            [{ kind := 4, col := (cols.getD (miss.headD 0) default).1, off := start, detail := flat.length, hides := miss }]) ++
          (if long.isEmpty || sparse then [] else [{ kind := 5, col := 0xFFFF, off := start, detail := flat.length, dropped := true }]) ++
          got.flatMap (·.2.2) ++ deep.map fun m => { kind := 6, col := 0xFFFF, off := place m.2.1, dropped := true } }

/-! Fixed records (R261). -/

/-- An element's bytes as a number; BOOL is true where they are not zero. -/
def fixNum (big : Bool) (ty : Nat) (b : Bytes) : Val :=
  let v := if big then beNat b else leNat b
  .num (if tyBool ty then ofBool (v != 0) else v)

/-- A slot's value. -/
def fixVal (b : Bytes) (k : Nat) (c : List SchEntry) (rec_ : Bytes) : Val :=
  let e := c.headD default
  let o := ipOff b k
  let nb := ipNull b k
  if nb ≠ 0xFFFF ∧ bitAt (byteAt rec_ (nb / 8)) (nb % 8) then .null
  else if tyStr e.ty then
    let x := sub rec_ o (ipSlot b k)
    .str (if e.ty = 0x10 ∨ e.ty = 0x11 then x.takeWhile (fun y => y != 0#8) else x)
  else if tyFixList e.ty then
    let ch := ((c.drop 1).headD default).ty
    let w := tyBytes ch
    chainOf ((List.range e.listSize).map fun j => fixNum (ipBig b) ch (sub rec_ (o + w * j) w))
  else fixNum (ipBig b) e.ty (sub rec_ o (tyBytes e.ty))

/-- A record's body as a row. -/
def fixRow (b : Bytes) (cols : List (Nat × List SchEntry)) (start : Nat) (body : Bytes) : Rec :=
  if fieldMax < body.length then wholeRow cols 7 start
  else
    let n := body.length
    let miss := (cols.zipIdx.filter fun x => decide (n < ipOff b x.2 + fixBytes (ipSlot b x.2) x.1.2)).map (·.2)
    let rl := ipRecLen b
    let there := ((cols.zipIdx.filter fun x => !miss.contains x.2).length)
    { vals := cols.zipIdx.map fun x => if miss.contains x.2 then .hidden else .val (fixVal b x.2 x.1.2 body)
      damage :=
        if n < rl then [{ kind := 4, col := (cols.getD (miss.headD cols.length) (0xFFFF, [])).1, off := start, detail := there, hides := miss }]
        else if rl < n then [{ kind := 5, col := 0xFFFF, off := start, detail := cols.length, dropped := true }]
        else [] }

/-! One record of a text input. -/

/-- A step through a text input: bytes taken, the row, if the bytes were a record; none where the record's end lies beyond the
bytes at hand. -/
structure TextStep where
  size : Nat
  row : Option Rec := none
  /-- A skipped line counts toward SKIP_ROWS. -/
  line : Bool := false
  deriving DecidableEq, Repr

/-- What the survey learned of an input: where its records begin, the fields of a record, the column map. -/
structure InputMap where
  start : Nat
  want : Nat
  map : ColMap
  deriving DecidableEq, Repr

/-- The next record of the input's bytes from `start` on. `final` says that the bytes reach the input's end. -/
def textStep (op : Nat) (b : Bytes) (cols : List (Nat × List SchEntry)) (im : InputMap) (skip : Nat) (cellar : Bool) (start : Nat)
    (bytes : Bytes) (final : Bool) : Option TextStep :=
  match op with
  | 3 =>
    let d := dialectOf b
    let l := lineLen bytes
    if final && cellar && bytes.all (fun c => c == 0#8) then some { size := bytes.length }
    else if 0 < skip then (if l.2 || final then some { size := l.1, line := true } else none)
    else if csvSkips d bytes then (if l.2 || final then some { size := l.1 } else none)
    else
      let r := csvRecord d bytes
      if !r.whole && !final then none
      else if r.fin = .cut then some { size := bytes.length, row := some (wholeRow cols 0x0C start) }
      else some { size := r.size, row := some (csvRow d cols im.map im.want start r) }
  | 4 =>
    let l := lineLen bytes
    if !l.2 && !final then none
    else
      let line := if l.2 then bytes.take (l.1 - 1) else bytes.take l.1
      let line := if line.getLast? = some 13#8 then line.dropLast else line
      if line.isEmpty then some { size := l.1 } else some { size := l.1, row := some (jsonRow (ipSparse b) cols start line) }
  | _ =>
    if ipVarlen b then
      let n := leAt bytes 0 4
      if bytes.length < 4 ∨ bytes.length < 4 + n then
        (if final then some { size := bytes.length, row := some (wholeRow cols 0x0C start) } else none)
      else some { size := 4 + n, row := some (fixRow b cols start (sub bytes 4 n)) }
    else
      let n := ipRecLen b
      if bytes.length < n then (if final then some { size := bytes.length, row := some (wholeRow cols 0x0C start) } else none)
      else some { size := n, row := some (fixRow b cols start (bytes.take n)) }

/-! Rows of a slice, with their damage gathered. -/

/-- What a slice has made so far: rows, identifiers, damage entries, concealed rows, events, defaulted nulls. -/
structure Batch where
  rows : List (List Val) := []
  entries : List DlogEntry := []
  concealed : Nat := 0
  events : Nat := 0
  defaulted : Nat := 0
  hurt : Bool := false
  /-- The concealed rows of the job pass DAMAGE_LIMIT. -/
  past : Bool := false
  deriving DecidableEq, Repr

/-- An entry joined to those of the slice: one of the same KIND and COLUMN whose rows it continues takes it in (R264). -/
def joinEntry (e : DlogEntry) : List DlogEntry → List DlogEntry
  | [] => [e]
  | x :: xs =>
    if x.kind = e.kind ∧ x.column = e.column ∧ x.fileTag = e.fileTag ∧ x.row ≤ e.row ∧ e.row ≤ x.row + x.count then
      { x with count := max x.count (e.row + e.count - x.row), dflt := x.dflt || e.dflt, nulled := x.nulled || e.nulled,
               dropped := x.dropped || e.dropped, failed := x.failed || e.failed } :: xs
    else x :: joinEntry e xs

/-- The log entry of a damage over rows. -/
def damageEntry (c : Ctx) (tag : Nat) (cols : List (Nat × List SchEntry)) (d : Damage) (file row count : Nat) : DlogEntry :=
  let hid := d.hides.map fun k => ((cols.getD k default).2)
  let hasD (x : List SchEntry) : Bool := (x.headD default).hasDefault && !tyList (headTy x)
  { kind := d.kind, dflt := hid.any hasD, nulled := hid.any (fun x => !hasD x), dropped := d.dropped, tag := tag, stage := c.stage,
    column := d.col, fileTag := file, off := d.off, row := row, count := count, detail := d.detail }

/-- One row joined to the slice; `before` is the concealed rows of the job before this slice. -/
def Batch.add (g : Batch) (c : Ctx) (tag file before : Nat) (cols : List (Nat × List SchEntry)) (r : Rec) (row : Nat) : Batch :=
  let y := rowOfRec cols r
  let con := r.vals.any (fun v => v == .hidden)
  let n := g.concealed + ofBool con
  let lim := ipLimit c.block
  let past := decide (lim ≠ 0) && con && decide (lim < before + n)
  let es := r.damage.map fun d => damageEntry c tag cols d file row 1
  -- a row over the limit whose only concealed values come from a missing column has that entry cross the limit
  let es := if past && es.isEmpty then [{ kind := 0x0D, tag := tag, stage := c.stage, column := 0xFFFF, fileTag := file, row := 0, count := row + 1 }] else es
  let es := if past then es.dropLast ++ [{ es.getLastD default with failed := true }] else es
  { rows := g.rows ++ [y.1], entries := es.foldl (fun xs e => joinEntry e xs) g.entries, concealed := n,
    events := g.events + r.damage.length, defaulted := g.defaulted + y.2, hurt := g.hurt || con || !r.damage.isEmpty, past := past }

/-- The entries of columns that an input does not have, written at its end (R254, R263). -/
def missingEntries (c : Ctx) (tag file rows : Nat) (cols : List (Nat × List SchEntry)) (map : ColMap) : List DlogEntry :=
  (cols.zipIdx.filter fun x => map.getD x.2 0 == 0).map fun x =>
    damageEntry c tag cols { kind := 0x0D, col := x.1.1, off := 0, hides := [x.2] } file 0 rows

/-! Engine numbers: 0 the input, 1 the byte, 2 the row in the file, 3 concealed rows, 4 lines still to skip, 5 group, 6 row of
the group; from 100 on, per input: start, fields, and by column the field + 1. -/

def inputKey (k : Nat) : Nat := 100 + 8192 * k
def mapOf (e : Eng) (k n : Nat) : InputMap :=
  let g (j : Nat) : Nat := Table.findD e.nums (inputKey k + j) 0
  ⟨g 0, g 1, (List.range n).map fun j => g (2 + j)⟩

/-- The concealed rows of a job so far. -/
def jobConcealed (job : Job) : Nat :=
  job.eng.foldl (fun n e => if (job.plan.stage e.1).cls = 1 then n + Table.findD e.2.nums 3 0 else n) 0

/-- Damage told to the page and the log; INTAKE_DAMAGE noted unless QUIET_DAMAGE (R265). -/
def State.intakeHurt (s : State) (c : Ctx) (g : Batch) : State :=
  let s1 := ((s.count (INTAKE.DAMAGE_EVENTS.on c.page) g.events).count (INTAKE.CONCEALED_ROWS.on c.page) g.concealed).count
    (INTAKE.NULL_DEFAULTED.on c.page) g.defaulted
  let s2 := if 0 < g.events then s1.raiseOwn c.page 16 else s1
  let s3 := g.entries.foldl (fun s e => s.dlogWrite e) s2
  if g.hurt && !ipQuiet c.block then s3.updJob c.job fun x => { x with note := if x.note = 0 then 0x7A else x.note } else s3

/-- A slice's rows handed on, its damage told, its place kept. -/
def State.intakeDone (s : State) (c : Ctx) (g : Batch) (e : Eng) (k firstRow bytes : Nat) (ended : Bool) : Ran :=
  let s1 := (s.intakeHurt c g).count (INTAKE.BYTES_IN.on c.page) bytes
  -- the rows of each instance are kept for ROWS_OUT, which counts them as they commit
  let own := 10 + (c.page - 0x070)
  let nums := Table.put e.nums own (Table.findD e.nums own 0 + g.rows.length)
  let e' := { e with consumed := e.consumed + g.rows.length, nums := Table.put nums 3 (Table.findD e.nums 3 0 + g.concealed) }
  let s2 := s1.setEng c.job c.stage e'
  if g.past then .failed s2 0x7B 0
  else
    let ids := (List.range g.rows.length).map fun j => [Val.num (k * 2 ^ 61 + firstRow + j)]
    Ran.with s2 (s2.appendOuts c [(0, g.rows), (1, ids)]) fun s3 => .done s3 ended

/-- Records of a text input, over `fuel` records, at most `left` rows, until `stop`. -/
def textRun (op : Nat) (c : Ctx) (tag file before : Nat) (cols : List (Nat × List SchEntry)) (im : InputMap) (cellar final : Bool) (stop : Nat) :
    Nat → Nat → Nat → Nat → Nat → Bytes → Batch → Batch × Nat × Nat × Nat
  | 0, _, pos, row, skip, _, g => (g, pos, row, skip)
  | f + 1, left, pos, row, skip, bytes, g =>
    if bytes.isEmpty ∨ left = 0 ∨ g.past ∨ stop ≤ pos then (g, pos, row, skip)
    else
      match textStep op c.block cols im skip cellar pos bytes final with
      | none => (g, pos, row, skip)
      | some t =>
        let rest := bytes.drop t.size
        match t.row with
        | none => textRun op c tag file before cols im cellar final stop f left (pos + t.size) row (skip - ofBool t.line) rest g
        | some r => textRun op c tag file before cols im cellar final stop f (left - 1) (pos + t.size) (row + 1) skip rest (g.add c tag file before cols r row)

/-- A slice over a text input: first with a few MiB, then with more where one record is longer. -/
def State.textSlice (s : State) (c : Ctx) (job : Job) (e : Eng) (k : Nat) : List Nat → Ran
  | [] => .done s false
  | win :: more =>
    let cols := intakeCols c.plan c.stage
    let im := mapOf e k cols.length
    let n (j : Nat) : Nat := Table.findD e.nums j 0
    let pos := n 1
    let size := s.inputSize job c k
    let len := min win (size - pos)
    Ran.with s (s.inputBytes job c k pos len) fun bytes =>
      let final := decide (size ≤ pos + len)
      let file := ipTag c.block k
      let multi := c.st.op == 3 && (dialectOf c.block).multiline
      let stop := if multi then pos + 0x4400000 else pos + 0x400000
      let r := textRun c.st.op c job.tag file (jobConcealed job) cols im (c.plan.isBind 3 (c.in_ k)) final stop (bytes.length + 1) (max 1 c.count)
        pos (n 2) (n 4) bytes {}
      if r.2.1 = pos ∧ !final then State.textSlice s c job e k more
      else
        let atEnd := decide (size ≤ r.2.1)
        let miss := if atEnd && c.st.op == 3 then missingEntries c job.tag file r.2.2.1 cols im.map else []
        let g := if atEnd && !r.1.past then { r.1 with entries := r.1.entries ++ miss, events := r.1.events + miss.length, hurt := r.1.hurt || !miss.isEmpty } else r.1
        let put (ns : Table Nat) (ps : List (Nat × Nat)) : Table Nat := ps.foldl (fun t p => Table.put t p.1 p.2) ns
        let next := if atEnd then
            [(0, k + 1), (1, (mapOf e (k + 1) 0).start), (2, 0), (4, (if c.st.op = 3 then (dialectOf c.block).skip else 0))]
          else [(1, r.2.1), (2, r.2.2.1), (4, r.2.2.2)]
        s.intakeDone c g { e with nums := put e.nums next } k (n 2) (r.2.1 - pos) (atEnd && decide (intakeInputs c.st ≤ k + 1))

/-! Files of pages and batches (R255, R256). -/

/-- Whether a file's types give a column: the same, or an integer or a float widened, or offsets widened (R254). -/
def mapsTo (f : List (Nat × Nat × Nat)) (c : List SchEntry) : Bool :=
  f.length == c.length && (List.zip f c).all fun x =>
    let a := x.1.1
    let t := x.2.ty
    (a == t && x.1.2.1 == x.2.param && (!tyFixList t || x.1.2.2 == x.2.listSize)) ||
    (decide (1 ≤ a) && decide (a ≤ t) && decide (t ≤ 4)) || (decide (5 ≤ a) && decide (a ≤ t) && decide (t ≤ 8)) || (a == 0x0B && t == 0x0C) ||
    (a == 0x10 && t == 0x11) || (a == 0x12 && t == 0x13) || (a == 0x15 && t == 0x16)

/-- A value of a file's type as one of the entry's. -/
def widenVal : List (Nat × Nat × Nat) → List SchEntry → Val → Val
  | f :: fs, e :: es, v =>
    match v with
    | .num x =>
      if f.1 = e.ty then v
      else if tySigned e.ty then .num (ofSigned (8 * tyWidth e.ty) (toSigned (8 * tyWidth f.1) x))
      else if tyFloat e.ty then .num (toF64 f.1 x)
      else v
    | _ => if tyList e.ty then chainOf ((unchain v).map (widenVal fs es)) else v
  | _, _, v => v

/-- The file's column for each column of the output, + 1. -/
def fileMap (parts : FileParts) (cols : List (Nat × List SchEntry)) : ColMap :=
  cols.map fun c => ((parts.cols.findIdx? fun f => f.name == (c.2.headD default).name).map (· + 1)).getD 0

/-- The row groups that the stage reads, with the rows before each. -/
def fileGroups (c : Ctx) (parts : FileParts) : List (FileGroup × Nat) :=
  let all := parts.groups.foldl (fun (acc : List (FileGroup × Nat) × Nat) g => (acc.1 ++ [(g, acc.2)], acc.2 + g.rows)) ([], 0)
  if c.st.op = 1 then
    let n := leAt c.block 88 4
    let r := all.1.drop (leAt c.block 84 4)
    if n = 0 then r else r.take n
  else all.1

/-- A row of a group. -/
def fileRow (parts : FileParts) (cols : List (Nat × List SchEntry)) (map : ColMap) (g : FileGroup) (j : Nat) : Rec :=
  let hits := g.damage.filter fun d => decide (d.first ≤ j) && decide (j < d.first + d.count)
  let hidden (m : Nat) : Bool := m == 0 || hits.any fun d => match d.col with | none => true | some k => k + 1 == m
  { vals := cols.zipIdx.map fun x =>
      let m := map.getD x.2 0
      if hidden m then .hidden
      else .val (widenVal ((parts.cols.getD (m - 1) default).types) x.1.2 ((g.cols.getD (m - 1) []).getD j .null))
    damage := hits.filterMap fun d =>
      let ks := (List.range cols.length).filter fun k => decide (map.getD k 0 ≠ 0) && (match d.col with | none => true | some f => map.getD k 0 == f + 1)
      if ks.isEmpty then none
      else some { kind := d.kind, col := match d.col with | none => 0xFFFF | some _ => (cols.getD (ks.headD 0) default).1, off := d.off, hides := ks } }

/-- The whole of an input decoded. -/
def State.filePart (s : State) (c : Ctx) (job : Job) (k : Nat) : Got FileParts :=
  (s.inputBytes job c k 0 (s.inputSize job c k)).bind fun b => .ok (Config.decodeFile c.st.op (ipFlags c.block) (ipRaw c.block) b)

/-- A slice over a row group or record batch; its units are rows for PARQUET and 65,536 rows for ARROW. -/
def State.fileSlice (s : State) (c : Ctx) (job : Job) (e : Eng) (k : Nat) : Ran :=
  Ran.with s (s.filePart c job k) fun parts =>
    let cols := intakeCols c.plan c.stage
    let map := fileMap parts cols
    let n (j : Nat) : Nat := Table.findD e.nums j 0
    let groups := fileGroups c parts
    let gi := n 5
    let cur := (groups.drop gi).head?
    let rows := (cur.map (·.1.rows)).getD 0
    let take := min (rows - n 6) (max 1 c.count * (if c.st.op = 1 then 1 else 65536))
    let file := ipTag c.block k
    let before := jobConcealed job
    let first := (cur.map (·.2)).getD 0 + n 6
    let g0 := match cur with
      | none => ({} : Batch)
      | some x => (List.range take).foldl (fun (g : Batch) j =>
          if g.past then g else g.add c job.tag file before cols (fileRow parts cols map x.1 (n 6 + j)) (x.2 + n 6 + j)) ({} : Batch)
    let groupEnd := decide (rows ≤ n 6 + take)
    let inputEnd := groupEnd && decide (groups.length ≤ gi + 1)
    let total := groups.foldl (fun m x => m + x.1.rows) 0
    let miss := if inputEnd then missingEntries c job.tag file total cols map else []
    let g := if g0.past then g0 else { g0 with entries := g0.entries ++ miss, events := g0.events + miss.length, hurt := g0.hurt || !miss.isEmpty }
    let next := if inputEnd then [(0, k + 1), (5, 0), (6, 0)] else if groupEnd then [(5, gi + 1), (6, 0)] else [(6, n 6 + take)]
    let put : Table Nat := next.foldl (fun t p => Table.put t p.1 p.2) e.nums
    s.intakeDone c g { e with nums := put } k first ((cur.map (·.1.bytes)).getD 0 * take / max 1 rows) (inputEnd && decide (intakeInputs c.st ≤ k + 1))

/-- An Intake slice: it never spans two inputs (R251). -/
def runIntake (s : State) (c : Ctx) : Ran :=
  match s.job? c.job with
  | none => .done s true
  | some job =>
    let e := job.engOf c.stage
    let k := Table.findD e.nums 0 0
    if c.st.op = 1 ∨ c.st.op = 2 then s.fileSlice c job e k
    else s.textSlice c job e k [0x400000, 0x4400000, s.inputSize job c k]

/-! The survey (R253). -/

/-- What the survey of an input finds: a limit or format failure with KIND, COLUMN and byte, or the input's map. -/
inductive Surveyed where
  | ok (m : InputMap)
  | bad (kind col off : Nat)
  deriving DecidableEq, Repr

/-- A file's survey: the reader's own failure, 4,096 columns, 2^32 rows, types that do not map. -/
def surveyFile (c : Ctx) (cols : List (Nat × List SchEntry)) (parts : FileParts) : Surveyed :=
  let map := fileMap parts cols
  match parts.fail with
  | some (k, col, off) =>
    let ent := match col with | none => 0xFFFF | some f => (((cols.zipIdx.find? fun x => map.getD x.2 0 == f + 1).map (·.1.1))).getD 0xFFFF
    .bad k ent off
  | none =>
    if 4096 < parts.cols.length then .bad 0x20 0xFFFF 0
    else if (fileGroups c parts).any (fun g => decide (2 ^ 32 < g.1.rows)) then .bad 0x20 0xFFFF 0
    else
      match cols.zipIdx.find? (fun x =>
        let m := map.getD x.2 0
        let f := parts.cols.getD (m - 1) default
        m != 0 && !(mapsTo f.types x.1.2 && (!hasDict x.1.2 || f.dict))) with
      | some x => .bad 0x21 x.1.1 0
      | none => .ok ⟨0, 0, map⟩

/-- A CSV input's survey: its header record (R254). -/
def surveyCsv (d : Dialect) (cols : List (Nat × List SchEntry)) (b : Bytes) : Surveyed :=
  if !d.header then .ok ⟨0, cols.length, (List.range cols.length).map (· + 1)⟩
  else
    let rec lead : Nat → Bytes → Nat → Nat
      | 0, _, o => o
      | f + 1, b, o => if !b.isEmpty && csvSkips d b then lead f (b.drop (lineLen b).1) (o + (lineLen b).1) else o
    let o := lead (b.length + 1) b 0
    let r := csvRecord d (b.drop o)
    let names := if (b.drop o).isEmpty then [] else r.fields.map (·.bytes)
    if 4096 < names.length then .bad 0x20 0xFFFF o
    else .ok ⟨o + r.size, names.length, cols.map fun c => ((names.findIdx? fun n => n == (c.2.headD default).name).map (· + 1)).getD 0⟩

/-- The survey of one input. -/
def State.surveyInput (s : State) (c : Ctx) (job : Job) (k : Nat) : Got Surveyed :=
  let cols := intakeCols c.plan c.stage
  match c.st.op with
  | 3 =>
    if (dialectOf c.block).header then
      (s.inputBytes job c k 0 (s.inputSize job c k)).bind fun b => .ok (surveyCsv (dialectOf c.block) cols b)
    else .ok (surveyCsv (dialectOf c.block) cols [])
  | 1 => (s.filePart c job k).bind fun p => .ok (surveyFile c cols p)
  | 2 => (s.filePart c job k).bind fun p => .ok (surveyFile c cols p)
  | _ => .ok (.ok ⟨0, cols.length, []⟩)

/-- The stage after its survey: every input's map kept, or its failure with the one log entry (R253). -/
def State.surveyAll (s : State) (c : Ctx) (job : Job) : Ran :=
  let e := job.engOf c.stage
  Ran.with s (Got.all (s.surveyInput c job) (List.range (intakeInputs c.st))) fun rs =>
    match rs.zipIdx.find? (fun r => match r.1 with | .bad .. => true | _ => false) with
    | some (.bad kind col off, k) =>
      let s1 := s.dlogWrite { kind := kind, failed := true, tag := job.tag, stage := c.stage, column := col, fileTag := ipTag c.block k, off := off }
      .failed s1 (if kind = 0x20 then 0x78 else 0x79)
        (if c.plan.isBind 2 (c.in_ k) then s.bindDetail job (job.bind (c.in_ k).slot) off else 0)
    | _ =>
      let nums := rs.zipIdx.foldl (fun t r =>
        match r.1 with
        | .ok m => (m.start :: m.want :: m.map).zipIdx.foldl (fun t x => Table.put t (inputKey r.2 + x.2) x.1) t
        | .bad .. => t) e.nums
      let first := match rs.head? with | some (.ok m) => m.start | _ => 0
      let nums := Table.put (Table.put nums 1 first) 4 (if c.st.op = 3 then (dialectOf c.block).skip else 0)
      .done (s.setEng c.job c.stage { e with phase := 1, nums := nums }) false

end Sys2Proof.Machine
end

