-- ==== Sys2Proof/Machine/LadleOps.lean ====
section
/-! DEFINITION. Embedding tables: shards and owners, rows and their arithmetic, the scatter log, the application of a step
(R380 to R383, R386, R388 to R392). -/

namespace Sys2Proof.Machine

open Sys2Proof.Reg

/-! Tables. -/

def State.ltable (s : State) (t : Nat) : Option LTable := Table.find? s.ladle.tables t

def State.updTable (s : State) (t : Nat) (f : LTable → LTable) : State :=
  s.modLadle fun l => { l with tables := Table.upd l.tables t f }

/-- The spacing of rows in a host or Cellar array (R383). -/
def LTable.stride (t : LTable) : Nat := roundUp t.rowSize 64

/-- The shard of a row (R381). -/
def LTable.shardOf (t : LTable) (row : Nat) : Nat := reduce (om64 (leBytes 8 row) t.seed) 65536

/-- A shard's owner (R381). -/
def LTable.owner (t : LTable) (shard : Nat) : Nat :=
  Table.findD t.owners shard (t.members.getD (shard * t.members.length / 65536) 0)

/-- This node answers for an owner: itself, or the node it hosts (R455). -/
def State.answersFor (s : State) (n : Nat) : Bool := n == s.node.id || s.twin.hosting == some n

/-- The members of the herd, ascending, this node among them. -/
def State.memberList (s : State) : List Nat :=
  sortBy (fun a b => decide (a ≤ b)) (if s.fabric.members.contains s.node.id then s.fabric.members else s.node.id :: s.fabric.members)

/-! Rows (R386, R390). -/

/-- The type code of FLOAT32. -/
def f32 : Nat := 0x0B

def addS (a b : Nat) : Nat := fpEnc f32 (fpAdd (fpOf f32 a) (fpOf f32 b))

/-- The greater of two values in the order of R295; the first where they are equal. -/
def maxS (a b : Nat) : Nat := if orderKey f32 a < orderKey f32 b then b else a

/-- A value divided by a count, in binary32. -/
def divCount (a n : Nat) : Nat :=
  match fpOf f32 a with
  | .fin neg m e => let r := ratOf m e; roundRat f32 neg r.1 (r.2 * n)
  | x => fpEnc f32 x

/-- The elements of a row in binary32. -/
def rowValues (dtype dim : Nat) (b : Bytes) : List Nat :=
  match dtype with
  | 0x0B => (List.range dim).map fun e => leAt b (4 * e) 4
  | 0x01 =>
    let scale := fpOf f32 (leAt b 0 4)
    (List.range dim).map fun e =>
      let q := toSigned 8 (byteAt b (4 + e))
      fpEnc f32 (fpMul scale (.fin (decide (q < 0)) q.natAbs 0))
  | t => (List.range dim).map fun e => fpEnc f32 (fpOf t (leAt b (2 * e) 2))

/-- The magnitude of a finite value, as a numerator over 2^149. -/
def finMag (v : Nat) : Option Nat :=
  match fpOf f32 v with
  | .fin _ m e => some (m * 2 ^ (e + 149).toNat)
  | _ => none

/-- An INT8 row (R390). DEDUCED (log 17): the quotient is taken exactly and rounded once. -/
def quantRow (vs : List Nat) : Bytes :=
  let m := vs.foldl (fun a v => match finMag v with | some x => max a x | none => a) 0
  if m = 0 then leBytes 4 0 ++ vs.map fun _ => 0#8
  else
    let scale := roundRat f32 false m (127 * 2 ^ 149)
    let sm := (finMag scale).getD 0
    leBytes 4 scale ++ vs.map fun v =>
      match fpOf f32 v, finMag v with
      | .fin neg _ _, some x =>
        if sm = 0 then BitVec.ofNat 8 (Config.tinyQuant v m)
        else
          let q := min 127 (roundDiv x sm)
          BitVec.ofNat 8 (if neg then 256 - q else q)
      | _, _ => 0#8

/-- Elements stored as a row: rounded to the type, INT8 requantised (R390). -/
def rowOfValues (dtype : Nat) (vs : List Nat) : Bytes :=
  match dtype with
  | 0x0B => vs.flatMap (leBytes 4)
  | 0x01 => quantRow vs
  | t => vs.flatMap fun v => leBytes 2 (fpEnc t (fpOf f32 v))

/-- One row after the sorted updates of a step (R390). -/
def combineRow (combine : Nat) (v : List Nat) (us : List (List Nat)) : List Nat :=
  if combine = 2 then us.getLastD v
  else us.foldl (fun v u => (List.zip v u).map fun x => if combine = 1 then addS x.1 x.2 else maxS x.1 x.2) v

/-! Access counts (R394). -/

def State.access (s : State) (t row n : Nat) : State :=
  (s.updTable t fun x =>
    let sh := x.shardOf row
    { x with rowHeat := Table.put x.rowHeat row (Table.findD x.rowHeat row 0 + n),
             shardHeat := Table.put x.shardHeat sh (Table.findD x.shardHeat sh 0 + n) }).modLadle fun l => { l with accesses := l.accesses + n }

/-- A row of a Skim-home table as it stands here. -/
def LTable.stored (t : LTable) (row : Nat) : Bytes := Table.findD t.data row t.dflt

/-- Skim MiB that the written rows of a table take. -/
def dataMib (size : Nat) (d : Table Bytes) : Nat := pagesMib (size * d.length)

/-- Rows of a Skim-home table written, where Skim has the pages (R382). -/
def State.putRows (s : State) (t : Nat) (rs : List (Nat × Bytes)) : Option State :=
  match s.ltable t with
  | none => some s
  | some x =>
    let d := rs.foldl (fun d r => Table.put d r.1 r.2) x.data
    let more := dataMib x.rowSize d - dataMib x.rowSize x.data
    if more ≤ s.skimFree ∨ more = 0 then
      some ((s.modTiers fun m => { m with skimOther := m.skimOther + more }).updTable t fun y => { y with data := d })
    else none

/-- Rows of a table dropped, with their pages and promoted copies. -/
def State.dropRows (s : State) (t : Nat) (p : Nat → Bool) : State :=
  match s.ltable t with
  | none => s
  | some x =>
    let d := x.data.filter fun e => !p e.1
    let less := dataMib x.rowSize x.data - dataMib x.rowSize d
    (s.modTiers fun m => { m with skimOther := m.skimOther - less }).updTable t fun y =>
      { y with data := d, promoted := y.promoted.filter (fun e => !p e.1) }

/-! Host-home and Cellar-home rows (R383). -/

/-- Host-home rows are substituted (R132, R134). -/
def State.substitutes (s : State) : Bool := s.hostAway 0 || s.bit ATTACH.SUBST

/-- Default rows substituted: counted, the first noted (R134). -/
def State.defaultRows (s : State) (n : Nat) : State :=
  if n = 0 then s
  else
    let s1 := (s.count ATTACH.DEFAULT_ROW_COUNT n).modSession fun x => { x with defaultRows := x.defaultRows + n }
    if s.bit ATTACH.SUBST then s1 else (s1.raiseOwn 0x00A 17).setFld ATTACH.SUBST 1

/-- The row of a table that this node owns, for a reader: Skim rows stand here, host rows are read through the bound array,
Cellar rows from its blocks (R383, R386). -/
def State.ownRow (s : State) (who : Reader) (_t : Nat) (x : LTable) (row : Nat) : Got Bytes :=
  match x.home, x.bind with
  | 1, _ => .ok (x.stored row)
  | _, none => .fail 0xB3 0
  | 2, some base =>
    if s.substitutes then .ok x.dflt
    else s.readMem ⟨who, 0, false⟩ (0xC00000000000 + base + row * x.stride) x.rowSize
  | _, some base =>
    let b : Bind := { kind := 3, herd := false, aux := 0, addr := base, len := 2 ^ 40, aux2 := 0 }
    let bs := s.cellarBlock base
    let off := row * x.stride
    let lo := off / bs
    let cnt := ceilDiv (off + x.rowSize) bs - lo
    let st := s.cellarStatus (base + lo) cnt
    let far : Far := .cellar (base / 2 ^ 56 % 16) (base / 2 ^ 48 % 256)
    let a := (b.addr % 2 ^ 48 + lo) * bs
    if st ≠ 0 then .fail st 0
    else if s.staged who far a (cnt * bs) then .ok (sub (s.stagedBytes who far a (cnt * bs)) (off - lo * bs) x.rowSize)
    else .need far a (cnt * bs)

/-! Gathered rows of other owners. -/

/-- Where bytes of a gathered row are kept for its reader. -/
def rowAt (row off : Nat) : Nat := row % 2 ^ 40 * 2 ^ 17 + off

/-- Bytes of each row that one request asks for: the whole row, or a piece of a longer one (R420). -/
def gatherPiece (size off : Nat) : Nat := min 4064 (size - off)

/-- The first piece of a row that is not staged. -/
def State.rowMissing (s : State) (who : Reader) (t row size : Nat) : Option Nat :=
  ((List.range (ceilDiv size 4064)).map (4064 * ·)).find? fun off => !s.staged who (.rows t 0 [row]) (rowAt row off) (gatherPiece size off)

/-- The values of rows for a reader, or what must be brought in first: rows of one shard in one request. -/
def State.gatherRows (s : State) (who : Reader) (t : Nat) (x : LTable) (rows : List Nat) : Got (List (Nat × Bytes)) :=
  let missing := rows.filter fun r => !s.answersFor (x.owner (x.shardOf r)) && (s.rowMissing who t r x.rowSize).isSome
  match missing with
  | [] =>
    Got.all (fun r =>
      (if s.answersFor (x.owner (x.shardOf r)) then s.ownRow who t x r
        else .ok (s.stagedBytes who (.rows t 0 [r]) (rowAt r 0) x.rowSize)).bind fun b => .ok (r, b)) rows
  | r :: _ =>
    let off := (s.rowMissing who t r x.rowSize).getD 0
    let len := gatherPiece x.rowSize off
    let sh := x.shardOf r
    let same := if x.rowSize ≤ 4064 then (missing.filter fun y => x.shardOf y == sh).eraseDups.take (4064 / max 1 len) else [r]
    .need (.rows t (x.owner sh) same) off len

/-! The scatter log. -/

/-- The job under which the log's spill pages are held. -/
def logJob : Nat := 2 ^ 40

/-- The log replaced, its pages following as spill (R389, R91); none where they cannot be had. -/
def State.setLog (s : State) (es : List LogEntry) : Option State :=
  let bytes := es.foldl (fun n e => n + 24 + 4 * e.vals.length) 0
  let want := pagesMib bytes
  let have_ := s.ladle.logSkim
  let s1 := s.modLadle fun l => { l with log := es, logSkim := want }
  if want ≤ have_ then
    some (s1.modTiers fun t => { t with skimSpill := if want = 0 then Table.drop t.skimSpill logJob else Table.put t.skimSpill logJob want }).spillNotices
  else s1.spillAlloc logJob (want - have_) false

/-- An update key (R390): tide, origin, seq. -/
def logLe (a b : LogEntry) : Bool :=
  decide (a.tide < b.tide) || (a.tide == b.tide && (decide (a.origin < b.origin) || (a.origin == b.origin && decide (a.seq ≤ b.seq))))

/-- The rows that a step's entries touch, ascending by table and row. -/
def touched (es : List LogEntry) : List (Nat × Nat) :=
  sortBy (fun a b => decide (a.1 < b.1) || (a.1 == b.1 && decide (a.2 ≤ b.2))) ((es.map fun e => (e.tbl, e.row)).eraseDups)

/-- A row's new bytes. -/
def newRow (x : LTable) (combine : Nat) (es : List LogEntry) (old : Bytes) : Bytes :=
  rowOfValues x.dtype (combineRow combine (rowValues x.dtype x.dim old) ((sortBy logLe es).map (·.vals)))

/-- What the application of a step leaves: the state, its status, the rows written, the commands to a drive that it waits for. -/
structure StepDone where
  s : State
  status : Nat := 0
  rows : List (Nat × Nat × Bytes) := []
  writes : Nat := 0
  deriving DecidableEq, Repr

/-- One row of a step applied (R390 to R392). `far` is the row as a host or Cellar array holds it. -/
def State.applyRow (a : StepDone) (step combine t row : Nat) (es : List LogEntry) (far : Bytes) : StepDone :=
  match a.s.ltable t with
  | none => a
  | some x =>
    match x.home, x.bind with
    | 1, _ =>
      let b := newRow x combine es (x.stored row)
      match a.s.putRows t [(row, b)] with
      | some s1 => { a with s := s1, rows := a.rows ++ [(t, row, b)] }
      | none => { a with status := 0x42 }
    | _, none => { a with status := 0xB3 }
    | 2, some base =>
      if a.s.hostAway 0 then
        { a with s := (a.s.count LADLE.DROPPED_SCATTERS es.length).count ATTACH.DROPPED_SCATTERS es.length }
      else
        let b := newRow x combine es far
        { a with s := a.s.writeOut 0 (0xC00000000000 + base + row * x.stride) b, rows := a.rows ++ [(t, row, b)] }
    | _, some base =>
      let d := base / 2 ^ 56 % 16
      let ns := base / 2 ^ 48 % 256
      let bs := a.s.cellarBlock base
      let off := row * x.stride
      let lba := base % 2 ^ 48 + off / bs
      let cnt := ceilDiv (off % bs + x.rowSize) bs
      let st := a.s.cellarStatus (base + off / bs) cnt
      if st ≠ 0 then { a with status := st }
      else
        -- `far` holds the blocks that the row lies in; the row's bytes are replaced in them
        let o := off % bs
        let b := newRow x combine es (sub far o x.rowSize)
        let blocks := fitTo (far.take o) o ++ b ++ (fitTo far (cnt * bs)).drop (o + b.length)
        let key := Table.fresh ((Table.find? a.s.tiers.drives d).elim [] (·.cmds)) 4096 0
        let s1 := (a.s.modTiers fun m => { m with drives := Table.upd m.drives d fun y =>
          { y with cmds := Table.put y.cmds key { why := .row step, nsid := ns, lba := lba, blocks := cnt, issuedAt := a.s.chrono } } })
        { a with s := (s1.count CELLAR.WRITE_CMDS 1).emit (.nvme d 1 ns lba cnt blocks), rows := a.rows ++ [(t, row, b)], writes := a.writes + 1 }

/-- The tables of entries advance their generation (R399). -/
def State.genStep (s : State) (ts : List Nat) : State :=
  ts.foldl (fun s t => s.updTable t fun x => { x with gen := (x.gen + 1) % 65536 }) s

/-- A step's entries applied to each row at once (R390). `far` gives the host and Cellar rows, in the order of `touched`. -/
def State.applyEntries (s : State) (step combine : Nat) (es : List LogEntry) (far : List Bytes) : StepDone :=
  let rows := touched es
  let isFar (r : Nat × Nat) : Bool := ((s.ltable r.1).map (·.home)).getD 1 != 1
  let go := rows.foldl (fun (a : StepDone × List Bytes) r =>
    if a.1.status ≠ 0 then a
    else (State.applyRow a.1 step combine r.1 r.2 (es.filter fun e => e.tbl == r.1 && e.row == r.2) (a.2.headD []),
          if isFar r then a.2.drop 1 else a.2)) ({ s := s }, far)
  { go.1 with s := go.1.s.genStep (rows.map (·.1)).eraseDups }

end Sys2Proof.Machine
end

