-- ==== Sys2Proof/Machine/Arrive.lean ====
section
/-! DEFINITION. How a target takes a request and answers it, at once or once its mirror is acknowledged (R418, R430, R452). -/

namespace Sys2Proof.Machine

open Sys2Proof.Reg

/-- The type that answers a request (Table 20-4). -/
def rspType (typ : Nat) : Nat := if typ = 1 then 0x81 else if typ = 2 ∨ typ = 4 then 0x82 else 0x83

/-- The mark of a request that is applied and whose answer still waits. -/
def unanswered : Nat := 0x1FF

/-- An engine request answered. -/
def State.reply (s : State) (p : Packet) (status a0 a1 : Nat) (payload : Bytes) : State :=
  s.answer p 0x83 status (rspBody p a0 a1 payload)

/-- The mark of a request whose answer has been given. -/
def State.marked (s : State) (p : Packet) (status : Nat) : State := s.markSeq p.dst p.src p.reqSeq status

/-- An acknowledgement of a change to mirrored state: held for the cut on a paired node (R452, last point). -/
def State.replyHeld (s : State) (p : Packet) (status a0 a1 : Nat) : State :=
  if s.holding then
    let h : HeldAck := ⟨s.twin.cutSeq + 1, { p with status := status, body := rspBody p a0 a1 [] }, s.twin.nextOut⟩
    s.modTwin fun t => { t with acks := t.acks ++ [h], nextOut := t.nextOut + 1 }
  else (s.marked p status).reply p status a0 a1 []

/-- Such an acknowledgement, with what the window records now. -/
def State.ackHeld (s : State) (p : Packet) (status : Nat) : State × Option Nat :=
  (s.replyHeld p status 0 0, if s.holding then none else some status)

/-- A resent copy of a request whose answer waits: the answer carries the newer GEN (R429). -/
def State.regen (s : State) (p : Packet) : State :=
  let up (q : Packet) : Packet := if q.src = p.src ∧ q.reqSeq = p.reqSeq ∧ q.tag = p.tag then { q with gen := p.gen } else q
  let held (h : HeldAccess) : HeldAccess := match h with | .far q => .far (up q) | x => x
  let s1 := (s.modTwin fun t => { t with acks := t.acks.map fun h => { h with pkt := up h.pkt } }).modHost fun h => { h with
    heldAccesses := h.heldAccesses.map held }
  let s2 := s1.modFabric fun f => { f with starts := f.starts.map up, kills := f.kills.map up }
  s2.modLadle fun l => { l with
    closings := l.closings.map fun c => { c with pkt := up c.pkt },
    moves := l.moves.map fun m => { m with prep := m.prep.map up } }

/-- A request that has arrived: applied once under the window; a copy is answered with the recorded status, a READ read
again (R430). `f` answers the status it recorded, none where its answer waits. -/
def State.onRequest (s : State) (p : Packet) (f : State → State × Option Nat) : State :=
  match s.arrival p.dst p.src p.reqSeq with
  | .below => s
  | .duplicate st =>
    if p.typ = 1 then (f s).1
    else
      let s1 := s.count ROUTE.DUP_REQUESTS 1
      if st = unanswered then s1.regen p
      else s1.answer p (rspType p.typ) st (if p.typ = 3 ∨ p.typ = 5 then rspBody p 0 0 [] else [])
  | .fresh =>
    let r := f s
    r.1.markSeq p.dst p.src p.reqSeq (r.2.getD unanswered)

/-- The job of a herd job identifier. -/
def State.jobByHerd (s : State) (id : Nat) : Option Nat :=
  (List.find? (fun e => e.2.herdId == id) s.work.jobs).map (·.1)

end Sys2Proof.Machine
end

