-- ==== Sys2Proof/Machine/Ladle.lean ====
section
/-! DEFINITION. Ladle's stage and its protocol: gather, scatter steps, the messages between owners (R384 to R391, R394,
R420). -/

namespace Sys2Proof.Machine

open Sys2Proof.Reg

/-! The parameter block (Table 19-2). -/

def lpId (b : Bytes) : Nat := leAt b 0 2
def lpVal (b : Bytes) : Nat := leAt b 2 2
def lpTime (b : Bytes) : Nat := leAt b 4 2
def lpPool (b : Bytes) : Nat := byteAt b 6
def lpCombine (b : Bytes) : Nat := byteAt b 7
def lpNodesOff (b : Bytes) : Nat := leAt b 8 4
def lpNodesLen (b : Bytes) : Nat := leAt b 12 4

/-- The node set of a SCATTER stage: the fetching node alone for NODESET_LEN 0 (R388). -/
def stepNodes (params b : Bytes) (herdId : Nat) : List Nat :=
  if lpNodesLen b = 0 then [herdId / 2 ^ 48] else nodeSet params (lpNodesOff b) (lpNodesLen b)

/-- A column that is one FIXED_LIST of `dim` elements of a type. -/
def fixedOf (c : List SchEntry) (dim ty : Nat) : Bool :=
  match c with
  | [l, e] => tyFixList l.ty && l.listSize == dim && e.ty == ty
  | _ => false

/-- Types of a row ID. -/
def idTy (ty : Nat) : Bool := ty == 0x04 || ty == 0x08

/-- A column of row IDs: scalars, or lists of them where rows are pooled (R385). -/
def idCol (c : List SchEntry) (pooled : Bool) : Bool :=
  match pooled, c with
  | false, [e] => idTy e.ty
  | true, [l, e] => tyVarList l.ty && idTy e.ty
  | _, _ => false

/-- What is wrong with a Ladle stage (R384, R385). A bad node set is named at NODESET_OFF, a column that does not fit at its
operand or its column field. -/
def checkLadle (s : State) (p : Plan) (binds : List Bind) (i : Nat) : List Flaw :=
  let st := p.stage i
  let b := p.block st
  let gather := st.op == 1
  let cols := p.inCols i 0
  let slot := (st.in_ 1).slot
  let dir := (p.decls.getD slot default).dir
  let tblOk := p.isBind 4 (st.in_ 1) && (if gather then dir == 0 else dir != 0)
  let tbl := s.ltable (binds.getD slot default).aux
  let nodes := nodeSet p.params (lpNodesOff b) (lpNodesLen b)
  let outCol := (p.outCols i 0).headD []
  let shape (x : LTable) : List Flaw :=
    parFlaw (decide (lpId b < cols.length)) 0 0x6E ++
    parFlaw (!decide (lpId b < cols.length) || idCol (cols.getD (lpId b) []) (gather && lpPool b != 0)) 0 0xB2 ++
    (if gather then
      recFlaw ((p.outCols i 0).length == 1 &&
        (fixedOf outCol x.dim 0x0B || (lpPool b == 0 && x.dtype != 1 && fixedOf outCol x.dim x.dtype))) (outOff 0) 0xB2
    else
      parFlaw (decide (lpVal b < cols.length)) 2 0x6E ++
      parFlaw (!decide (lpVal b < cols.length) || fixedOf (cols.getD (lpVal b) []) x.dim 0x0B) 2 0xB2 ++
      parFlaw (lpTime b == 0xFFFF || decide (lpTime b < cols.length)) 4 0x6E ++
      parFlaw (lpTime b == 0xFFFF || !decide (lpTime b < cols.length) ||
        (unitNs ((cols.getD (lpTime b) []).headD default)).isSome) 4 0xB2)
  recFlaw (decide (st.op = 1) || decide (st.op = 2)) 1 0x6E ++ recFlaw (decide (st.pLen = 32)) 12 0x6E ++
  inFlaw (p.isCols (st.in_ 0)) 0 ++ inFlaw tblOk 1 ++ restNone st 2 (if gather then 1 else 0) ++
  (if gather then outFlaw (p.isCols (st.out_ 0)) 0 else []) ++
  (match tbl with
    | none => if tblOk then bindFlaw false slot 4 0xB0 else []
    | some x => shape x) ++
  (if gather then
    parFlaw (decide (lpVal b = 0)) 2 0x6E ++ parFlaw (decide (lpTime b = 0)) 4 0x6E ++ parFlaw (decide (lpPool b ≤ 3)) 6 0x6E ++
    parFlaw (decide (lpCombine b = 0)) 7 0x6E ++ parFlaw (decide (lpNodesOff b = 0)) 8 0x6E ++ parFlaw (decide (lpNodesLen b = 0)) 12 0x6E
  else
    parFlaw (decide (lpPool b = 0)) 6 0x6E ++ parFlaw (decide (1 ≤ lpCombine b) && decide (lpCombine b ≤ 3)) 7 0x6E ++
    parFlaw (decide (lpNodesLen b ≤ 65536)) 12 0x6E ++
    parFlaw (decide (lpNodesOff b + 2 * lpNodesLen b ≤ p.params.length)) 8 0x6E ++
    parFlaw (strictlyRising nodes && nodes.all s.isMember) 8 0xB4) ++
  parFlaw (zeroFrom b 16 32) 16 0x6E

/-! Gather (R386, R387, R399). -/

/-- The row ID of a value of a type; none where it is negative or at least ROWS. -/
def rowIdOf (x : LTable) (ty : Nat) (v : Nat) : Option Nat :=
  if ty = 0x04 ∧ toSigned 64 v < 0 then none else if v < x.rows then some v else none

/-- The row IDs that an element of ID_COL holds. -/
def idsOf : Val → List Nat
  | .num v => [v]
  | .cons h t => (match h with | .num v => [v] | _ => []) ++ idsOf t
  | _ => []

/-- An output row of POOL NONE. -/
def plainRow (x : LTable) (outTy : Nat) (b : Bytes) : Val :=
  if outTy = x.dtype ∧ x.dtype ≠ 1 then
    let w := tyWidth outTy
    chainOf ((List.range x.dim).map fun e => .num (leAt b (w * e) w))
  else chainOf ((rowValues x.dtype x.dim b).map .num)

/-- A pooled output row (R386). -/
def pooledRow (x : LTable) (pool : Nat) (rows : List (List Nat)) : Val :=
  let zero := List.replicate x.dim 0
  match rows with
  | [] => if pool = 1 then chainOf (zero.map .num) else .null
  | r :: rest =>
    let add (a b : List Nat) : List Nat := (List.zip a b).map fun e => addS e.1 e.2
    let out :=
      if pool = 3 then rest.foldl (fun a b => (List.zip a b).map fun e => maxS e.1 e.2) r
      else
        let sum := rows.foldl add zero
        if pool = 2 then sum.map fun v => divCount v rows.length else sum
    chainOf (out.map .num)

/-- RUNAHEAD extents of a job returned. -/
def State.giveRunahead (s : State) (j n : Nat) : State :=
  s.modTiers fun t => { t with runaheadUsed := Table.put t.runaheadUsed j (Table.findD t.runaheadUsed j 0 - n) }

/-- Rows gathered ahead are used by the slice they belong to where the table has kept its generation, else discarded (R399). -/
def State.usePrefetch (s : State) (c : Ctx) (gen first count : Nat) : State :=
  match s.ladle.prefetched.find? (fun p => p.job == c.job && p.stage == c.stage) with
  | none => s
  | some p =>
    let s1 := (s.modLadle fun l => { l with prefetched := l.prefetched.filter fun q => !(q.job == c.job && q.stage == c.stage) }).giveRunahead c.job p.extents
    if p.gen = gen ∧ p.first = first ∧ p.count ≤ count then s1 else s1.count LADLE.PREFETCH_DISCARDS 1

/-- What reading a row at its owner counts: its access, and the default row of a lost host (R134, R394). -/
def State.readCounts (s : State) (t : Nat) (x : LTable) (rows : List Nat) : State :=
  let s1 := rows.foldl (fun s r => s.access t r 1) s
  if x.home = 2 ∧ s.substitutes then s1.defaultRows rows.length else s1

/-- A slice of GATHER. -/
def runGather (s : State) (c : Ctx) : Ran :=
  match s.job? c.job with
  | none => .done s true
  | some job =>
    let b := c.block
    let t := (job.bind (c.in_ 1).slot).aux
    match s.ltable t with
    | none => .failed s 0xB0 0
    | some x =>
      let e := job.engOf c.stage
      let av := inputLen job (c.in_ 0)
      let n := min c.count (av.1 - e.consumed)
      let ty := ((((c.inCols 0).getD (lpId b) [])).getLastD default).ty
      let outTy := (((c.outCols 0).headD []).getLastD default).ty
      Ran.with s (s.inputRows job c 0 e.consumed n) fun rows =>
        let vals := rows.map fun r => r.getD (lpId b) .null
        let ids := vals.map fun v => (idsOf v).map (rowIdOf x ty)
        if ids.any (fun l => l.any (·.isNone)) then .failed s 0xB1 0
        else
          let flat := ids.flatMap fun l => l.filterMap id
          let who := c.who
          Ran.with s (s.gatherRows who t x flat.eraseDups) fun got =>
            let find (r : Nat) : Bytes := (List.find? (fun g => g.1 == r) got).elim x.dflt (·.2)
            let out := (List.zip vals ids).map fun v =>
              match v.1 with
              | .null => Val.null
              | _ =>
                let rs := v.2.filterMap id
                if lpPool b = 0 then (match rs with | r :: _ => plainRow x outTy (find r) | [] => .null)
                else pooledRow x (lpPool b) (rs.map fun r => rowValues x.dtype x.dim (find r))
            Ran.with s (s.appendOuts c [(0, out.map fun v => [v])]) fun s1 =>
              let own := flat.filter fun r => s.answersFor (x.owner (x.shardOf r))
              let s2 := ((s1.readCounts t x own).usePrefetch c x.gen e.consumed n).count (LADLE.GATHER_ROWS.on c.page) flat.length
              let s3 := if x.home = 2 ∧ s.substitutes ∧ !own.isEmpty then s2.updJob c.job fun y => { y with note := 0x54 } else s2
              .done (s3.setEng c.job c.stage { e with consumed := e.consumed + n }) (!av.2 && decide (av.1 ≤ e.consumed + n))

/-! Updates (R388, R389). -/

/-- The name under which an owner and a coordinator keep a step: its job and stage (every message of a step carries both). -/
def stepKey (herdId stage : Nat) : Nat := herdId * 65536 + stage

/-- An update's record (R420). -/
def updateRecord (e : LogEntry) : Bytes :=
  let b := leBytes 8 e.row ++ leBytes 8 e.tide ++ leBytes 2 e.origin ++ zeros 2 ++ leBytes 4 e.seq ++ e.vals.flatMap (leBytes 4)
  fitTo b (roundUp b.length 8)

/-- A LOG_HANDOFF record (R420): the step ID, then the update. -/
def logRecord (e : LogEntry) : Bytes := leBytes 8 e.id ++ updateRecord e

/-- The name of a step of which only the step ID is known. -/
def idKey (id : Nat) : Nat := 2 ^ 128 + id

/-- JOB and STAGE of a step's messages. -/
def jobOfKey (k : Nat) : Nat := if k < 2 ^ 128 then k / 65536 else 0

def stageOfKey (k : Nat) : Nat := if k < 2 ^ 128 then k % 65536 else 0xFFFF

/-- A name stands for a step that has a key and an ID. -/
def ofStep (k id x : Nat) : Bool := x == k || x == idKey id

/-- The updates of a payload of records, over `n` records. -/
def updatesOf (step id t dim : Nat) (b : Bytes) : Nat → List LogEntry
  | 0 => []
  | n + 1 =>
    if b.length < 24 then []
    else
      let size := roundUp (24 + 4 * dim) 8
      ⟨step, t, leAt b 0 8, leAt b 8 8, leAt b 16 2, leAt b 20 4, (List.range dim).map fun k => leAt b (24 + 4 * k) 4, id⟩ ::
        updatesOf step id t dim (b.drop size) n

/-- Updates logged at their owner, each an access; none where no page can be had. -/
def State.logUpdates (s : State) (es : List LogEntry) : Option State :=
  (s.setLog (s.ladle.log ++ es)).map fun s1 => es.foldl (fun s e => s.access e.tbl e.row 1) s1

/-! Steps at the coordinator. -/

def State.step? (s : State) (k : Nat) : Option Step := Table.find? s.ladle.steps k

def State.setStep (s : State) (k : Nat) (x : Step) : State := s.modLadle fun l => { l with steps := Table.put l.steps k x }

/-- A node's SCATTER stage ends with its step, or fails with its status (R389). -/
def State.stepDoneHere (s : State) (herdId stage status : Nat) : State :=
  match s.jobByHerd herdId with
  | none => s
  | some j =>
    let page := 0x0C0
    if status = 0 then s.stageEnd j stage else (s.failJob j status stage 0 page).dropQueued j

/-- STEP_DONE sent to the set (R389, point 5). -/
def State.stepOver (s : State) (k : Nat) (x : Step) (id : Nat) : State :=
  let herdId := k / 65536
  let s1 := (x.set.filter fun n => n != s.node.id).foldl (fun s n =>
    (s.trySend (.stepDone k n) (enginePkt n 0x03 0x14 (engineBody herdId x.stage 0 0 id x.status []))).1) s
  (s1.modLadle fun l => { l with steps := Table.drop l.steps k }).stepDoneHere herdId x.stage x.status

/-- The step ID that this node knows for a step: the coordinator's own number; on another node of the set a free value, since no
message tells it. -/
def State.stepId (s : State) (k : Nat) : Nat × State :=
  match s.jobByHerd (k / 65536) with
  | none => let r := s.openNat; (r.1 % 2 ^ 64, r.2)
  | some j =>
    match s.job? j with
    | none => (0, s)
    | some job =>
      let stage := k % 65536
      let e := job.engOf stage
      match Table.find? e.nums 0 with
      | some n => (n, s)
      | none =>
        let nodes := stepNodes job.plan.params (job.plan.block (job.plan.stage stage)) job.herdId
        let keep (s : State) (v : Nat) : Nat × State := (v, s.setEng j stage { e with nums := Table.put e.nums 0 v })
        if nodes.headD 0 = s.node.id then
          keep (s.modLadle fun l => { l with nextStep := (l.nextStep + 1) % 2 ^ 48 }) (s.node.id * 2 ^ 48 + s.ladle.nextStep)
        else let r := s.openNat; keep r.2 (nodes.headD 0 * 2 ^ 48 + r.1 % 2 ^ 48)

/-- An owner's APPLIED, or its own application at the coordinator (R389, point 5). -/
def State.appliedHere (s : State) (k owner status : Nat) : State :=
  match s.step? k with
  | none => s
  | some x =>
    let x1 := { x with applied := if x.applied.contains owner then x.applied else x.applied ++ [owner],
                       status := if x.status = 0 then status else x.status }
    let s1 := s.setStep k x1
    if x1.owners.all x1.applied.contains then
      let r := s1.stepId k
      r.2.stepOver k x1 r.1
    else s1

/-! Owners apply a step. -/

/-- An owner answers STEP_CLOSE, or tells its own coordinator. -/
def State.answerClose (s : State) (c : Closing) : State :=
  let s1 := s.modLadle fun l => { l with closings := l.closings.filter fun x => x.step != c.step }
  if c.pkt.src = s.node.id then s1.appliedHere c.step s.node.id c.status
  else s1.replyHeld c.pkt c.status 0 0

/-- A wait of a closing has ended: a copy, a hand-over, a Cellar flush. -/
def State.closeReady (s : State) (step status : Nat) : State :=
  match s.ladle.closings.find? (fun c => c.step == step) with
  | none => s
  | some c =>
    let c1 := { c with waits := c.waits - 1, status := if c.status = 0 then status else c.status }
    if c1.waits = 0 then s.answerClose c1
    else s.modLadle fun l => { l with closings := l.closings.map fun x => if x.step = step then c1 else x }

/-- A record of SHARD_COPY: the row, whether it is promoted, its bytes (R420). -/
def copyRecord (promoted : Bool) (row : Nat) (b : Bytes) : Bytes :=
  let r := leBytes 8 (row + (if promoted then 2 ^ 63 else 0)) ++ b
  fitTo r (roundUp r.length 8)

/-- Rows of a migrating shard sent to its new owner (R396, point 2). -/
def State.sendCopy (s : State) (m : Move) (why : ReqWhy) (rows : List (Nat × Bytes)) (last : Bool) : State × Bool :=
  let x := s.ltable m.tbl
  let hot (r : Nat) : Bool := x.elim false fun x => Table.has x.promoted r
  s.sendRun why m.new 0x05 0x17 0 0xFFFF m.tbl (m.shard + (if last then 2 ^ 32 else 0)) m.id (rows.flatMap fun r => copyRecord (hot r.1) r.1 r.2)

/-- What an applied step still waits for: changed rows of migrating shards that their new owner must hold (R396), entries handed to
a new owner that must be applied there, writes to a drive. -/
def State.closeWaits (s : State) (step id combine : Nat) (rows : List (Nat × Nat × Bytes)) : State × Nat :=
  let copies := s.ladle.moves.filter fun m => m.old == s.node.id && m.new != s.node.id &&
    rows.any fun r => r.1 == m.tbl && (s.ltable m.tbl).elim false fun x => x.shardOf r.2.1 == m.shard
  let r1 := copies.foldl (fun (r : State × Nat) m =>
    let mine := rows.filter fun x => x.1 == m.tbl && (s.ltable m.tbl).elim false fun y => y.shardOf x.2.1 == m.shard
    let q := r.1.sendCopy m (.closeWait step) (mine.map fun x => x.2) false
    (q.1, r.2 + ofBool q.2)) (s, 0)
  let owners := ((s.ladle.handed.filter fun h => ofStep step id h.1).map (·.2)).eraseDups
  let r2 := owners.foldl (fun (r : State × Nat) n =>
    let q := r.1.trySend (.closeWait step) (enginePkt n 0x03 0x13 (engineBody (step / 65536) (step % 65536) 0 0 id combine []))
    (q.1, r.2 + ofBool q.2)) r1
  (r2.1.modLadle fun l => { l with handed := l.handed.filter fun h => !ofStep step id h.1 }, r2.2)

/-- STEP_CLOSE at an owner (R389 point 4, R390 to R392, R396). `far` holds the present contents of the touched rows of host and
Cellar homes. -/
def State.closeStep (s : State) (p : Packet) (far : List Bytes) : State :=
  let k := stepKey p.job p.stage
  let combine := p.arg1 % 256
  let es := s.ladle.log.filter fun e => ofStep k p.arg0 e.step
  let a := s.applyEntries k combine es far
  let s1 := (a.s.setLog (a.s.ladle.log.filter fun e => !ofStep k p.arg0 e.step)).getD a.s
  let w := s1.closeWaits k p.arg0 combine a.rows
  let c : Closing := ⟨k, p, w.2 + a.writes, a.status⟩
  let s2 := w.1.modLadle fun l => { l with closings := l.closings ++ [c] }
  if c.waits = 0 then s2.answerClose c else s2

/-- The touched rows of a step here include rows of host or Cellar homes. -/
def State.stepFar (s : State) (k : Nat) : Bool :=
  s.ladle.log.any fun e => ofStep k (s.stepId k).1 e.step && ((s.ltable e.tbl).map (·.home)).getD 1 != 1

/-- The coordinator closes a step once every node of the set has sent SENT (R389, point 3). Its own part follows as a message to
itself where it needs rows of the host or of a drive. -/
def State.closeAll (s : State) (k : Nat) (x : Step) : State :=
  let r := s.stepId k
  let id := r.1
  let herdId := k / 65536
  let s1 := r.2.setStep k { x with closed := true }
  let pkt (n : Nat) : Packet := enginePkt n 0x03 0x13 (engineBody herdId x.stage 0 0 id x.combine [])
  let others := x.owners.filter fun n => n != s.node.id
  let s2 := others.foldl (fun (s : State) n =>
    let q := s.trySend (.stepClose k n) (pkt n)
    if q.2 then q.1 else q.1.appliedHere k n 0xB5) s1
  let own : Packet := { pkt s.node.id with src := s.node.id }
  if x.owners.isEmpty then s2.stepOver k { x with closed := true } id
  else if x.owners.contains s.node.id then
    if s2.stepFar k then s2.emit (.delivered own) else s2.closeStep own []
  else s2

/-- SENT from a node of the set, with the owners it sent updates to (R389, point 2). -/
def State.sentHere (s : State) (herdId stage src : Nat) (owners : List Nat) : State :=
  match s.jobByHerd herdId with
  | none => s
  | some j =>
    match s.job? j with
    | none => s
    | some job =>
      let b := job.plan.block (job.plan.stage stage)
      let k := stepKey herdId stage
      let x : Step := (s.step? k).getD { job := herdId, stage := stage, combine := lpCombine b, set := stepNodes job.plan.params b herdId }
      let x1 := { x with sents := if x.sents.contains src then x.sents else x.sents ++ [src], owners := (x.owners ++ owners).eraseDups }
      let s1 := s.setStep k x1
      if !x1.closed && x1.set.all x1.sents.contains then s1.closeAll k x1 else s1

/-- The owner bitmap of SENT, and the owners of one. -/
def bitmapOf (owners : List Nat) : Bytes :=
  (List.range 8192).map fun i => BitVec.ofNat 8 ((List.range 8).foldl (fun v b => if owners.contains (8 * i + b) then v + 2 ^ b else v) 0)

def ownersOf (b : Bytes) : List Nat :=
  (b.zipIdx.filter fun e => e.1 != 0#8).flatMap fun e => (bitsSet e.1.toNat 8).map (8 * e.2 + ·)

/-- A node of the set whose updates are all acknowledged sends SENT (R389, point 2). -/
def State.maybeSent (s : State) (j stage : Nat) : State :=
  match s.job? j with
  | none => s
  | some job =>
    let e := job.engOf stage
    let mine (w : ReqWhy) : Bool := match w with
      | .update a b .. => a == j && b == stage
      | _ => false
    let open_ := s.fabric.reqs.any (fun q => mine q.2.why) || s.fabric.waitReqs.any fun q => mine q.why
    if e.phase ≠ waiting ∨ Table.findD e.nums 1 0 ≠ 0 ∨ open_ ∨ job.status ≠ 0 then s
    else
      let r := s.stepId (stepKey job.herdId stage)
      let s1 := r.2.updJob j fun x => { x with eng := Table.upd x.eng stage fun y => { y with nums := Table.put y.nums 1 1 } }
      let nodes := stepNodes job.plan.params (job.plan.block (job.plan.stage stage)) job.herdId
      let coord := nodes.headD s.node.id
      if coord = s.node.id then s1.sentHere job.herdId stage s.node.id e.tags
      else
        let q := s1.sendRun (.sent j stage) coord 0x05 0x12 job.herdId stage 0 r.1 nodes.length (bitmapOf e.tags)
        if q.2 then q.1 else (q.1.failJob j 0xB5 stage 0 0x0C0).dropQueued j

/-- The updates of rows of IN0 from index `first` on, and how many are skipped (R388); none for a row ID out of range. A null in
TIME_COL gives a free tide. -/
def updatesOfRows (s : State) (x : LTable) (c : Ctx) (job : Job) (t first : Nat) (rows : List (List Val)) :
    Option (List LogEntry × Nat) :=
  let b := c.block
  let idT := (((c.inCols 0).getD (lpId b) []).headD default).ty
  let timeE := ((c.inCols 0).getD (lpTime b) []).headD default
  rows.zipIdx.foldl (fun (o : Option (List LogEntry × Nat)) r =>
    match o with
    | none => none
    | some (es, sk) =>
      let vals := unchain (r.1.getD (lpVal b) .null)
      let nums := vals.filterMap fun v => match v with | .num n => some n | _ => none
      match r.1.getD (lpId b) .null, r.1.getD (lpVal b) .null with
      | .null, _ => some (es, sk + 1)
      | _, .null => some (es, sk + 1)
      | .num v, _ =>
        if nums.length ≠ vals.length then some (es, sk + 1)
        else
          match rowIdOf x idT v with
          | none => none
          | some row =>
            let tide := if lpTime b = 0xFFFF then job.tide
              else (eventTu timeE s.scale (r.1.getD (lpTime b) .null)).getD (Config.freeNat (s.free + r.2))
            some (es ++ [⟨stepKey job.herdId c.stage, t, row, tide, s.node.id, first + r.2, nums, 0⟩], sk)
      | _, _ => some (es, sk + 1)) (some ([], 0))

/-- Updates sent to an owner: logged here, or as a request; false where that cannot be done, with the status. -/
def State.sendUpdates (s : State) (j stage herdId t combine owner : Nat) (es : List LogEntry) : State × Nat :=
  if s.answersFor owner then
    let r := s.stepId (stepKey herdId stage)
    match r.2.logUpdates (es.map fun e => { e with id := r.1 }) with
    | some s1 => (s1, 0)
    | none => (s, 0x42)
  else
    let r := s.stepId (stepKey herdId stage)
    let payload := es.flatMap updateRecord
    let q := r.2.sendRun (.update j stage t combine payload) owner (if payload.length ≤ 4064 then 0x03 else 0x05) 0x11 herdId stage t r.1 combine payload
    (q.1.count LADLE.REMOTE_REQS 1, if q.2 then 0 else 0xB5)

/-- A slice of SCATTER: its updates sent; after the last one the stage waits for STEP_DONE (R400). -/
def runScatter (s : State) (c : Ctx) : Ran :=
  match s.job? c.job with
  | none => .done s true
  | some job =>
    let t := (job.bind (c.in_ 1).slot).aux
    match s.ltable t with
    | none => .failed s 0xB0 0
    | some x =>
      let b := c.block
      let e := job.engOf c.stage
      let av := inputLen job (c.in_ 0)
      let n := min c.count (av.1 - e.consumed)
      let last := !av.2 && decide (av.1 ≤ e.consumed + n)
      Ran.with s (s.inputRows job c 0 e.consumed n) fun rows =>
        match updatesOfRows s x c job t e.consumed rows with
        | none => .failed s 0xB1 0
        | some (es, skipped) =>
          let owners := (es.map fun u => x.owner (x.shardOf u.row)).eraseDups
          let unbound := x.home != 1 && x.bind.isNone && owners.any s.answersFor
          if unbound then .failed s 0xB3 0
          else
            let s0 := { s with free := s.free + rows.length }.count LADLE.SCATTER_SKIPPED skipped
            -- one message holds updates of one shard
            let groups := (es.map fun u => (x.owner (x.shardOf u.row), x.shardOf u.row)).eraseDups
            let r := groups.foldl (fun (r : State × Nat) g =>
              if r.2 ≠ 0 then r
              else r.1.sendUpdates c.job c.stage job.herdId t (lpCombine b) g.1 (es.filter fun u => x.shardOf u.row == g.2)) (s0, 0)
            if r.2 ≠ 0 then .failed r.1 r.2 0
            else
              let s1 := r.1.count (LADLE.SCATTER_UPDATES.on c.page) es.length
              let e1 := ((s1.job? c.job).map fun y => y.engOf c.stage).getD e
              let e2 := { e1 with consumed := e.consumed + n, phase := if last then waiting else e.phase, tags := (e1.tags ++ owners).eraseDups }
              let s2 := s1.setEng c.job c.stage e2
              .done (if last then s2.maybeSent c.job c.stage else s2) false

def runLadle (s : State) (c : Ctx) : Ran := if c.st.op = 1 then runGather s c else runScatter s c

/-! Requests at an owner (R397, R420). -/

/-- How a request for rows of a shard is met: here, passed on behind a stub, or answered with MOVED. -/
inductive OwnerWay where
  | here | pass (goal : Nat) | moved (goal : Nat)
  deriving DecidableEq, Repr

def State.ownerWay (s : State) (x : LTable) (shard : Nat) : OwnerWay :=
  let o := x.owner shard
  if s.answersFor o then .here else if Table.has x.stubs shard then .pass o else .moved o

/-- A request passed on to a shard's new owner. -/
def State.passOn (s : State) (p : Packet) (goal : Nat) : State :=
  let payload := p.body.drop 32
  ((s.count LADLE.FORWARDED 1).sendRun (.relay p) goal (if payload.length ≤ 4064 then 0x03 else 0x05) p.subtype p.job p.stage p.obj p.arg0 p.arg1
    payload).1

/-- A GATHER (R386, R420). `far` holds the rows asked for, in order, where the table's home is the host or a drive. -/
def State.gatherServe (s : State) (p : Packet) (far : List Bytes) : State × Option Nat :=
  match s.ltable p.obj with
  | none => (s.reply p 0xB0 0 0 [], some 0xB0)
  | some x =>
    let n := p.arg0 % 65536
    let ids := (List.range n).map fun k => leAt p.payload (8 * k) 8
    match s.ownerWay x (x.shardOf (ids.headD 0)) with
    | .pass o => (s.passOn p o, none)
    | .moved o => (s.reply p 0xB6 o 0 [], some 0xB6)
    | .here =>
      if x.home ≠ 1 ∧ x.bind = none then (s.reply p 0xB3 0 0 [], some 0xB3)
      else
        let row (e : Nat × Nat) : Bytes :=
          if x.home = 1 then x.stored e.1 else if x.home = 2 ∧ s.substitutes then x.dflt else fitTo (far.getD e.2 []) x.rowSize
        let off := p.arg1 % 2 ^ 32
        let len := p.arg1 / 2 ^ 32
        let body := ids.zipIdx.flatMap fun e => fitTo (sub (row e) off len) len
        ((s.readCounts p.obj x (if off = 0 then ids else [])).reply p 0 0 x.gen body, some 0)

/-- An UPDATE whose run is whole (R389, point 1). -/
def State.updateServe (s : State) (p : Packet) (payload : Bytes) : State × Option Nat :=
  match s.ltable p.obj with
  | none => (s.reply p 0xB0 0 0 [], some 0xB0)
  | some x =>
    let k := stepKey p.job p.stage
    let es := updatesOf k p.arg0 p.obj x.dim payload (payload.length / 24)
    match s.ownerWay x (x.shardOf ((es.map (·.row)).headD 0)) with
    | .pass o =>
      let s1 := s.modLadle fun l => { l with handed := if l.handed.contains (k, o) then l.handed else l.handed ++ [(k, o)] }
      (s1.passOn { p with body := p.body.take 32 ++ payload } o, none)
    | .moved o => (s.reply p 0xB6 o 0 [], some 0xB6)
    | .here =>
      if x.home ≠ 1 ∧ x.bind = none then (s.reply p 0xB3 0 0 [], some 0xB3)
      else
        match s.logUpdates es with
        | some s1 => s1.ackHeld p 0
        | none => (s.reply p 0x42 0 0 [], some 0x42)

/-- Run-ahead of a GATHER stage (R399): rows of the next slice are gathered into RUNAHEAD extents; the
access counts follow. `rows` is the number that the device prefetches. -/
def State.prefetch (s : State) (j stage rows : Nat) : State :=
  match s.job? j with
  | none => s
  | some job =>
    let st := job.plan.stage stage
    let b := job.plan.block st
    let t := (job.bind (st.in_ 1).slot).aux
    match s.ltable t with
    | none => s
    | some x =>
      let e := job.engOf stage
      let n := min rows (min (s.fld LADLE.PREFETCH_ROWS) ((inputLen job (st.in_ 0)).1 - e.consumed))
      let free := 16 * s.fld VAT.RUNAHEAD_MAX - sumTable s.tiers.runaheadUsed
      let idle := (pagesOf 0x0A).any fun p => s.accepts p && (s.pageSlices p).all fun y => y.2.state != .running
      let hostOk := x.home != 2 || s.fld HOSTIF.RUNAHEAD_HOST == 1
      let had := s.ladle.prefetched.any fun p => p.job == j && p.stage == stage
      if st.cls = 0x0A ∧ st.op = 1 ∧ bitAt st.flags 1 ∧ e.phase = 0 ∧ !job.ended.contains stage ∧ job.status = 0 ∧ 0 < n ∧ 0 < free ∧
          idle ∧ hostOk ∧ !had then
        let ty := ((((job.plan.inCols stage 0).getD (lpId b) [])).getLastD default).ty
        let vals : List Val := match st.in_ 0 with
          | .stage o r f c => (((job.outRows r o).drop e.consumed).take n).map fun row => (selectCols row f c).getD (lpId b) .null
          | _ => []
        let ids := vals.flatMap fun v => (idsOf v).filterMap (rowIdOf x ty)
        let own := ids.filter fun r => s.answersFor (x.owner (x.shardOf r))
        let far := (ids.filter fun r => !s.answersFor (x.owner (x.shardOf r))).eraseDups
        let s0 := own.foldl (fun (s : State) r => s.access t r 1) s
        -- rows of other owners, one row in a request
        let s1 := far.foldl (fun (s : State) r =>
          (s.trySend .prefetch (enginePkt (x.owner (x.shardOf r)) 0x03 0x10
            (engineBody job.herdId stage t 0 (1 + 2 ^ 63) (gatherPiece x.rowSize 0 * 2 ^ 32) (leBytes 8 r)))).1) s0
        let pf : Prefetch := ⟨j, stage, e.consumed, n, x.gen, 1⟩
        ((s1.modLadle fun l => { l with prefetched := l.prefetched ++ [pf] }).modTiers fun m =>
          { m with runaheadUsed := Table.put m.runaheadUsed j (Table.findD m.runaheadUsed j 0 + 1) }).count LADLE.PREFETCHED n
      else s

/-- A job's prefetches end with it. -/
def State.dropPrefetch (s : State) (j : Nat) : State :=
  s.modLadle fun l => { l with prefetched := l.prefetched.filter fun p => p.job != j }

end Sys2Proof.Machine
end

