-- ==== Sys2Proof/Machine/Tables.lean ====
section
/-! DEFINITION. Embedding tables over the herd: table commands, migration, epoch ends (R392 to R398, R402). -/

namespace Sys2Proof.Machine

open Sys2Proof.Reg

/-- A link has trained: it is SPARE, ACTIVE or RETRAINING. -/
def Link.trained (l : Link) : Bool := l.state == 2 || l.state == 3 || l.state == 5

/-- Some link of this node has trained. -/
def State.anyTrained (s : State) : Bool := s.fabric.links.any fun e => e.2.trained

/-- This node is the lead, or answers for it (R457); a module with no trained link that is in no herd is its own lead (R15). -/
def State.isLead (s : State) : Bool := (s.node.valid && s.answersFor s.herd.lead) || (!s.node.valid && !s.anyTrained)

/-- Other members than this node. -/
def State.others (s : State) : List Nat := s.memberList.filter fun n => n != s.node.id

/-- The first epoch boundary above a tide (R217). -/
def State.nextBoundary (s : State) (t : Nat) : Nat := (t / max 1 s.epochTu + 1) * max 1 s.epochTu

/-! Table commands (R402). -/

/-- A table made on this node (R380, R381). -/
def State.tblCreate (s : State) (t : Nat) (x : LTable) : State :=
  s.modLadle fun l => { l with tables := Table.put l.tables t x }

/-- A table removed with its rows, logs, copies and bindings. -/
def State.tblDestroy (s : State) (t : Nat) : State :=
  let s1 := s.dropRows t fun _ => true
  let s2 := s1.modLadle fun l => { l with
    tables := Table.drop l.tables t, moves := l.moves.filter fun m => m.tbl != t, changes := l.changes.filter fun c => c.tbl != t,
    migrations := l.migrations.filter fun m => m.2.tbl != t }
  (s2.setLog (s2.ladle.log.filter fun e => e.tbl != t)).getD s2

/-- Every promoted copy dropped; the generation advances (R392, R399). -/
def State.tblInvalidate (s : State) (t : Nat) : State :=
  s.updTable t fun x => { x with promoted := [], gen := (x.gen + 1) % 65536 }

/-- The payload of TABLE_CMD CREATE (Table 20-11). -/
def tablePayload (x : LTable) : Bytes :=
  leBytes 1 x.dtype ++ leBytes 1 x.home ++ zeros 2 ++ leBytes 4 x.dim ++ leBytes 8 x.rows ++ leBytes 8 x.seed ++ leBytes 2 x.quota ++
  zeros 6 ++ (if x.dflt.all (· == 0#8) then [] else x.dflt)

/-- A table of a TABLE_CMD payload. -/
def tableOf (members : List Nat) (b : Bytes) : LTable :=
  let size := rowSize (byteAt b 0) (leAt b 4 4)
  { dtype := byteAt b 0, home := byteAt b 1, dim := leAt b 4 4, rows := leAt b 8 8, seed := leAt b 16 8, quota := leAt b 24 2,
    dflt := fitTo (b.drop 32) size, members := members }

/-- The properties of CREATE are in range (Table 19-1). -/
def tableOk (dtype home dim rows : Nat) : Bool :=
  (dtype == 0x0B || dtype == 0x0A || dtype == 0x09 || dtype == 0x01) && decide (1 ≤ home) && decide (home ≤ 3) && decide (1 ≤ dim) &&
    decide (1 ≤ rows) && decide (rows ≤ 2 ^ 44) && decide (4 ≤ rowSize dtype dim) && decide (rowSize dtype dim ≤ 65536)

/-- A table command as a member applies it. -/
def State.tableCmd (s : State) (op t : Nat) (payload : Bytes) : State :=
  match op with
  | 1 => s.tblCreate t (tableOf s.memberList payload)
  | 2 => s.tblDestroy t
  | 5 => s.tblInvalidate t
  | _ => s

/-- A command of the lead starts: applied here, sent to every other member (R402). -/
def State.tblStart (s : State) (op t : Nat) (payload : Bytes) : State :=
  let s0 := ((s.setFld LADLE.BUSY 1).setFld LADLE.DONE 0).tableCmd op t payload
  let r := s.others.foldl (fun (r : State × List Nat) n =>
    let q := r.1.sendRun (.table n) n 0x05 0x1A 0 0xFFFF t op 0 payload
    (q.1, if q.2 then r.2 ++ [n] else r.2)) (s0, [])
  r.1.modLadle fun l => { l with cmd := some ⟨op, t, r.2, 0⟩ }

/-- A command ends at once with a result. -/
def State.tblResult (s : State) (res : Nat) : State := ((s.setFld LADLE.BUSY 0).setFld LADLE.DONE 1).setFld LADLE.RESULT res

/-- A member has applied the lead's command, or has left. -/
def State.tblHeard (s : State) (n : Nat) : State :=
  s.modLadle fun l => { l with cmd := l.cmd.map fun c => { c with missing := c.missing.filter fun m => m != n } }

/-- A table is bound by a job in flight on this node. -/
def State.tblInUse (s : State) (t : Nat) : Bool :=
  s.work.jobs.any fun e => e.2.binds.any fun b => b.kind == 4 && b.aux == t

/-! Migration (R395 to R397). -/

/-- The written rows of a shard held here. -/
def LTable.shardRows (x : LTable) (shard : Nat) : List (Nat × Bytes) := x.data.filter fun e => x.shardOf e.1 == shard

/-- PREP at an owner (R396, points 1 and 2). The old owner sends the shard's rows; the new one answers once they have come.
`far` holds the rows that the new owner copies from the old owner's host or Cellar array into its own. -/
def State.prepHere (s : State) (m : Move) (prep : Option Packet) (far : List (Nat × Bytes)) : State :=
  match s.ltable m.tbl with
  | none => s
  | some x =>
    let s1 := s.modLadle fun l => { l with moves := (l.moves.filter fun y => y.id != m.id) ++ [m] }
    if m.old = s.node.id then
      let rows := x.shardRows m.shard
      let s2 := (s1.sendCopy m (.shardCopy m.id) rows true).1
      match prep with
      | some p => (s2.marked p 0).reply p 0 0 0 []
      | none => s2.modLadle fun l => { l with migrations := Table.upd l.migrations m.id fun g => { g with oldOk := true } }
    else
      let s2 := s1.modLadle fun l => { l with moves := l.moves.map fun y => if y.id = m.id then { y with prep := prep } else y }
      match x.home, x.bind with
      | 2, some base => far.foldl (fun s r => s.writeOut 0 (0xC00000000000 + base + r.1 * x.stride) (fitTo r.2 x.rowSize)) s2
      | 3, some base =>
        far.foldl (fun (s : State) r =>
          let bs := s.cellarBlock base
          let off := r.1 * x.stride
          (s.count CELLAR.WRITE_CMDS 1).emit (.nvme (base / 2 ^ 56 % 16) 1 (base / 2 ^ 48 % 256) (base % 2 ^ 48 + off / bs)
            (ceilDiv (off % bs + x.rowSize) bs) (fitTo r.2 x.rowSize))) s2
      | _, _ => s2

/-- The records of a SHARD_COPY payload, over `n` records. -/
def copiesOf (size : Nat) (b : Bytes) : Nat → List (Nat × Bool × Bytes)
  | 0 => []
  | n + 1 =>
    if b.length < 8 then []
    else (leAt b 0 8 % 2 ^ 63, bitAt (leAt b 0 8) 63, sub b 8 size) :: copiesOf size (b.drop (roundUp (8 + size) 8)) n

/-- LOG_HANDOFF records of log entries (R420). -/
def handoffRecords (es : List LogEntry) : Bytes := es.flatMap logRecord

/-- An owner change takes effect on this node (R396 points 4 and 5, R397). -/
def State.changeOwner (s : State) (_t : Nat) (c : OwnerChange) : State :=
  match s.ltable c.tbl with
  | none => s
  | some x =>
    let me := s.node.id
    let move := s.ladle.moves.find? fun m => m.tbl == c.tbl && m.shard == c.shard
    let s1 := (s.updTable c.tbl fun y => { y with owners := Table.put y.owners c.shard c.new, gen := (y.gen + 1) % 65536 }).modLadle
      fun l => { l with moves := l.moves.filter fun m => !(m.tbl == c.tbl && m.shard == c.shard) }
    if c.old = me ∧ c.new ≠ me then
      let mine (e : LogEntry) : Bool := e.tbl == c.tbl && x.shardOf e.row == c.shard
      let es := s1.ladle.log.filter mine
      let steps := (es.map (·.step)).eraseDups
      let s2 := steps.foldl (fun (s : State) k =>
        (s.sendRun (.handoff k) c.new 0x05 0x19 (jobOfKey k) (stageOfKey k) c.tbl (c.shard + 2 ^ 32) 0 (handoffRecords (es.filter fun e => e.step == k))).1) s1
      let s3 := s2.modLadle fun l => { l with handed := (l.handed ++ steps.map fun k => (k, c.new)).eraseDups }
      let s4 := (s3.setLog (s3.ladle.log.filter fun e => !mine e)).getD s3
      let s5 := s4.dropRows c.tbl fun r => x.shardOf r == c.shard
      (s5.updTable c.tbl fun y => { y with stubs := Table.put y.stubs c.shard (c.effective + s.epochTu) }).count LADLE.MIGRATED_OUT 1
    else if c.new = me ∧ c.old ≠ me then
      let s2 := match move with
        | some m => ((s1.putRows c.tbl m.rows).getD s1).updTable c.tbl fun y =>
            { y with promoted := m.promoted.foldl (fun t r => Table.put t r 0) y.promoted }
        | none => s1
      if move.isSome then s2.count LADLE.MIGRATED_IN 1 else s2
    else s1

/-- COMMIT (R396, points 3 and 4): held until its tide, or applied at once where that has passed. -/
def State.commitHere (s : State) (eff : Nat) (c : OwnerChange) : State :=
  if eff ≤ s.tide.now then s.changeOwner eff c else s.modLadle fun l => { l with changes := l.changes ++ [c] }

/-- The lead sends COMMIT once both owners are ready (R396, point 3). -/
def State.maybeCommit (s : State) (id : Nat) : State :=
  match Table.find? s.ladle.migrations id with
  | none => s
  | some g =>
    if g.oldOk && g.newOk && g.effective.isNone then
      let eff := s.nextBoundary s.tide.now
      let s1 := s.modLadle fun l => { l with migrations := Table.drop l.migrations id }
      let s2 := s1.others.foldl (fun s n =>
        (s.trySend .commit (enginePkt n 0x03 0x18 (engineBody 0 0xFFFF g.tbl 0 (g.shard + g.new * 2 ^ 16 + g.old * 2 ^ 32) eff []))).1) s1
      s2.commitHere eff ⟨g.tbl, g.shard, g.new, g.old, eff⟩
    else s

/-- Rows of a migrating shard that have reached the new owner (R396, point 2). -/
def State.copyHere (s : State) (id tbl : Nat) (last : Bool) (payload : Bytes) : State :=
  match s.ladle.moves.find? (fun m => m.id == id), s.ltable tbl with
  | some m, some x =>
    let rs := copiesOf x.rowSize payload (payload.length / 8)
    let m1 := { m with
      rows := rs.foldl (fun (t : Table Bytes) (r : Nat × Bool × Bytes) => Table.put t r.1 r.2.2) m.rows
      promoted := (m.promoted ++ (rs.filter fun (r : Nat × Bool × Bytes) => r.2.1).map fun (r : Nat × Bool × Bytes) => r.1).eraseDups
      copied := m.copied || last }
    let m2 := if m1.copied then { m1 with prep := none } else m1
    let s1 := s.modLadle fun l => { l with moves := l.moves.map fun y => if y.id = id then m2 else y }
    if m1.copied then
      match m1.prep with
      | some p => (s1.marked p 0).reply p 0 0 0 []
      | none =>
        (s1.modLadle fun l => { l with migrations := Table.upd l.migrations id fun g => { g with newOk := true } }).maybeCommit id
    else s1
  | _, _ => s

/-- CANCEL at an owner: what the copy brought is forgotten (R396). -/
def State.cancelHere (s : State) (id : Nat) : State :=
  s.modLadle fun l => { l with moves := l.moves.filter fun m => m.id != id }

/-- The lead cancels a migration. -/
def State.cancelMove (s : State) (id : Nat) (g : Migration) : State :=
  let s1 := (s.modLadle fun l => { l with migrations := Table.drop l.migrations id }).count LADLE.MIGRATIONS_CANCELLED 1
  ([g.old, g.new].eraseDups).foldl (fun s n =>
    if n = s.node.id then s.cancelHere id
    else (s.trySend .commit (enginePkt n 0x03 0x1B (engineBody 0 0xFFFF g.tbl 0 0 id []))).1) s1

/-- The lead's plan (R395): loads by node, candidates by node, over `n` moves. -/
def planMoves (leaving : List Nat) (busy : List (Nat × Nat)) (ratio mean : Nat) :
    Nat → Table Nat → List LoadReport → List (Nat × Nat) → List (Nat × Nat × Nat × Nat)
  | 0, _, _, _ => []
  | n + 1, load, reps, moved =>
    match load.foldl (fun (b : Option (Nat × Nat)) e => match b with | none => some e | some x => if x.2 < e.2 then some e else some x) none,
      load.foldl (fun (b : Option (Nat × Nat)) e => match b with | none => some e | some x => if e.2 < x.2 then some e else some x) none with
    | some src, some dst =>
      if src.2 * 100 ≤ mean * ratio then []
      else
        let hot := ((reps.find? fun r => r.node == src.1).elim [] (·.hot)).filter fun h =>
          !moved.contains (h.1, h.2.1) && !busy.contains (h.1, h.2.1) && !leaving.contains src.1 && decide (h.2.2 < src.2 - dst.2)
        match hot with
        | [] => []
        | h :: _ =>
          (h.1, h.2.1, src.1, dst.1) ::
            planMoves leaving busy ratio mean n
              (Table.upd (Table.upd load src.1 fun v => v - h.2.2) dst.1 fun v => v + h.2.2) reps (moved ++ [(h.1, h.2.1)])
    | _, _ => []

/-- A planned migration starts: PREP to both owners (R396, point 1). -/
def State.startMove (s : State) (t shard old new : Nat) : State :=
  let id := s.ladle.nextMigration
  let g : Migration := { tbl := t, shard := shard, old := old, new := new, epoch := s.tide.now / max 1 s.epochTu }
  let m : Move := { id := id, tbl := t, shard := shard, old := old, new := new }
  let s1 := s.modLadle fun l => { l with migrations := Table.put l.migrations id g, nextMigration := id + 1 }
  [new, old].foldl (fun (s : State) n =>
    if n = s.node.id then s.prepHere m none []
    else (s.trySend (.prep id (n == new)) (enginePkt n 0x03 0x16
      (engineBody 0 0xFFFF t 0 (shard + old * 2 ^ 16 + new * 2 ^ 32) id []))).1) s1

/-- The lead plans once every member has reported for the epoch (R395). -/
def State.maybePlan (s : State) : State :=
  let ms := s.memberList
  if s.isLead && s.bit LADLE.MIGRATE && ms.all fun n => s.ladle.reports.any fun r => r.node == n then
    let reps := s.ladle.reports
    let load : Table Nat := reps.foldl (fun t r => Table.put t r.node r.total) []
    let mean := sumTable load / max 1 load.length
    let busy := s.ladle.migrations.map (fun g => (g.2.tbl, g.2.shard)) ++ s.ladle.changes.map (fun c => (c.tbl, c.shard))
    let plan := planMoves (s.herd.gone) busy (s.fld LADLE.MIGRATE_RATIO) mean (s.fld LADLE.MIGRATE_MAX) load reps []
    let s1 := s.modLadle fun l => { l with reports := [] }
    plan.foldl (fun s p => s.startMove p.1 p.2.1 p.2.2.1 p.2.2.2) s1
  else s

/-- A load report at the lead; one for an epoch that is no longer the last one is dropped (R395). -/
def State.loadHere (s : State) (epoch : Nat) (r : LoadReport) : State :=
  if s.isLead && epoch + 1 == s.tide.now / max 1 s.epochTu then
    (s.modLadle fun l => { l with reports := (l.reports.filter fun x => x.node != r.node) ++ [r] }).maybePlan
  else s

/-- This node's load in the epoch: the 16 hottest shards, ties to the lower table and shard (R394). -/
def State.loadReport (s : State) : LoadReport :=
  let all := s.ladle.tables.flatMap fun t => t.2.shardHeat.map fun h => (t.1, h.1, h.2)
  let le (a b : Nat × Nat × Nat) : Bool := decide (b.2.2 < a.2.2) || (a.2.2 == b.2.2 && (decide (a.1 < b.1) || (a.1 == b.1 && decide (a.2.1 ≤ b.2.1))))
  ⟨s.node.id, s.ladle.accesses, (sortBy le (all.filter fun h => h.2.2 != 0)).take 16⟩

/-- The payload of LOAD_REPORT (Table 20-11). -/
def loadPayload (r : LoadReport) : Bytes :=
  let e (h : Nat × Nat × Nat) : Bytes := leBytes 2 h.1 ++ leBytes 2 h.2.1 ++ zeros 4 ++ leBytes 8 h.2.2
  r.hot.flatMap e ++ (List.replicate (16 - r.hot.length) (leBytes 2 0xFFFF ++ zeros 14)).flatMap id

/-- A report of a LOAD_REPORT body. -/
def reportOf (src total : Nat) (b : Bytes) : LoadReport :=
  ⟨src, total, (List.range 16).filterMap fun i =>
    if leAt b (16 * i) 2 = 0xFFFF then none else some (leAt b (16 * i) 2, leAt b (16 * i + 2) 2, leAt b (16 * i + 8) 8)⟩

/-! Promotion (R393). -/

/-- Promotions and demotions of one table at an epoch end. Only rows of a Skim home are promoted, the hottest first; which rows
are chosen is the device's own choice (R393). -/
def State.promoteTable (s : State) (t : Nat) : State :=
  match s.ltable t with
  | none => s
  | some x =>
    let aged : Table Nat := x.promoted.map fun e => (e.1, if Table.findD x.rowHeat e.1 0 = 0 then e.2 + 1 else 0)
    let kept := aged.filter fun e => decide (e.2 < s.fld LADLE.DEMOTE_EPOCHS)
    let hot := sortBy (fun (a b : Nat × Nat) => decide (b.2 < a.2) || (a.2 == b.2 && decide (a.1 ≤ b.1)))
      (x.rowHeat.filter fun e => decide (s.fld LADLE.PROMOTE_MIN ≤ e.2) && Table.has x.data e.1 && !Table.has kept e.1)
    let room := min x.quota (x.promotedMib x.promoted + s.creamFree)
    let new := hot.foldl (fun (p : Table Nat) e => if x.promotedMib (Table.put p e.1 0) ≤ room then Table.put p e.1 0 else p) kept
    ((s.updTable t fun y => { y with promoted := new }).count LADLE.PROMOTIONS (new.length - kept.length)).count LADLE.DEMOTIONS
      (x.promoted.length - kept.length)

/-! Epoch ends (R217, class 4 of R216). -/

/-- Stubs that end at or before a tide. -/
def State.endStubs (s : State) (t : Nat) : State :=
  s.modLadle fun l => { l with tables := Table.each l.tables fun _ x => { x with stubs := x.stubs.filter fun e => decide (t < e.2) } }

/-- Owner changes whose tide has come. -/
def State.dueOwners (s : State) (t : Nat) : State :=
  let due := s.ladle.changes.filter fun c => decide (c.effective ≤ t)
  due.foldl (fun s c => s.changeOwner t c) (s.modLadle fun l => { l with changes := l.changes.filter fun c => decide (t < c.effective) })

/-- The end of epoch `k` at a node, at its boundary (R393 to R397). -/
def State.ladleEpoch (s : State) (k boundary : Nat) : State :=
  let s1 := ((s.endStubs boundary).dueOwners boundary)
  let s2 := s1.ladle.tables.foldl (fun s t => s.promoteTable t.1) s1
  let r := s2.loadReport
  let s3 := s2.modLadle fun l => { l with
    accesses := 0, tables := Table.each l.tables fun _ x => { x with rowHeat := [], shardHeat := [] }, reports := [] }
  -- a migration not committed by the second epoch end after its PREP is cancelled
  let late := s3.ladle.migrations.filter fun g => decide (g.2.epoch + 2 ≤ k + 1)
  let s4 := late.foldl (fun s g => s.cancelMove g.1 g.2) s3
  if s4.isLead then s4.loadHere k r
  else if s4.node.valid && s4.fabric.members.contains s4.herd.lead then
    (s4.trySend .load (enginePkt s4.herd.lead 0x03 0x15 (engineBody 0 0xFFFF 0 0 k r.total (loadPayload r)))).1
  else s4

/-- The shards of a lost node go to the remaining members in turn, the least loaded first, at the next epoch boundary (R398). -/
def State.reassign (s : State) (lost : Nat) : State :=
  let eff := s.nextBoundary s.tide.now
  let load (n : Nat) : Nat := (s.ladle.reports.find? fun r => r.node == n).elim 0 (·.total)
  let ms := sortBy (fun a b => decide (load a < load b) || (load a == load b && decide (a ≤ b))) (s.memberList.filter fun n => n != lost)
  let work := s.ladle.tables.flatMap fun t => ((List.range 65536).filter fun sh => t.2.owner sh == lost).map fun sh => (t.1, sh)
  let late := s.ladle.migrations.filter fun g => g.2.old == lost || g.2.new == lost
  let s0 := late.foldl (fun (s : State) g => s.cancelMove g.1 g.2) s
  if work.isEmpty || ms.isEmpty then s0
  else
    work.zipIdx.foldl (fun (s : State) w =>
      let n := ms.getD (w.2 % ms.length) s.node.id
      let s1 := (s.others.filter fun m => m != lost).foldl (fun (s : State) m =>
        (s.trySend .commit (enginePkt m 0x03 0x18 (engineBody 0 0xFFFF w.1.1 0 (w.1.2 + n * 2 ^ 16 + lost * 2 ^ 32) eff []))).1) s
      s1.commitHere eff ⟨w.1.1, w.1.2, n, lost, eff⟩) (s0.raiseOwn 0x0C0 16)

end Sys2Proof.Machine
end

