-- ==== Sys2Proof/Machine/Plans.lean ====
section
/-! DEFINITION. Plan images and their validation (R42, R74, R88, R229 to R246, R490, R494, R521). -/

namespace Sys2Proof.Machine

open Sys2Proof.Reg

/-! Reading an image. -/

/-- An operand (Table 11-8). -/
def operandOf (b : Bytes) : Operand :=
  let v := leAt b 8 8
  match byteAt b 0 with
  | 1 => .stage (byteAt b 1) (leAt b 2 2) (v % 2 ^ 32) (v / 2 ^ 32)
  | 2 => .bind (leAt b 2 2) (v % 2 ^ 32) (v / 2 ^ 32)
  | 3 => .imm v
  | 4 => .param (v % 2 ^ 32) (v / 2 ^ 32)
  | 5 => .vat (leAt b 4 4)
  | _ => .none

/-- A stage record (Table 11-6). -/
def stageOf (b : Bytes) : Stage :=
  { cls := byteAt b 0, op := byteAt b 1, flags := byteAt b 2, prio := byteAt b 5, codeBind := leAt b 6 2, pOff := leAt b 8 4,
    pLen := leAt b 12 4, leaveTicks := leAt b 16 4, scratchKib := leAt b 20 4,
    ins := (List.range (min 8 (byteAt b 3))).map fun k => operandOf (sub b (32 + 16 * k) 16),
    outs := (List.range (min 6 (byteAt b 4))).map fun k => operandOf (sub b (160 + 16 * k) 16) }

def declOff (img : Bytes) : Nat := leAt img 16 4
def stageOff (img : Bytes) : Nat := leAt img 20 4
def paramOff (img : Bytes) : Nat := leAt img 24 4
def stageAt (img : Bytes) (i : Nat) : Nat := stageOff img + 256 * i

/-- The plan that an image holds. -/
def planOf (addr : Nat) (img : Bytes) : Plan :=
  { addr := addr, gen := leAt img 4 2, planId := leAt img 32 8,
    decls := (List.range (leAt img 14 2)).map fun n =>
      let o := declOff img + 8 * n
      ⟨byteAt img o, byteAt img (o + 1), leAt img (o + 4) 4⟩
    stages := (List.range (leAt img 12 2)).map fun i => stageOf (sub img (stageAt img i) 256)
    params := sub img (paramOff img) (leAt img 28 4) }

/-- A binding entry (R240). A herd descriptor's addresses are in herd form (R241). -/
def bindOf (herd : Bool) (b : Bytes) : Bind :=
  { kind := byteAt b 0, herd := herd || bitAt (byteAt b 1) 0, aux := leAt b 4 4, addr := leAt b 8 8, len := leAt b 16 8, aux2 := leAt b 24 8 }

/-! Failures (R521). -/

/-- A failing field: which structure (0 the image, 1 the binding table), its offset there, the stage, the status. -/
structure Bad where
  rank : Nat
  off : Nat
  stage : Nat := 0xFFFF
  status : Nat
  deriving DecidableEq, Repr

/-- The failure that is reported: the lower structure, then the lower address. -/
def worst (bs : List Bad) : Option Bad :=
  bs.foldl (fun (o : Option Bad) b =>
    match o with
    | none => some b
    | some a => if b.rank < a.rank ∨ (b.rank = a.rank ∧ b.off < a.off) then some b else some a) none

/-- A failure of an image field where a condition fails. -/
def imgBad (ok : Bool) (off stage status : Nat) : List Bad := if ok then [] else [⟨0, off, stage, status⟩]

/-- Whether the bytes of a string from `lo` up to `hi` are zero. -/
def allZero (b : Bytes) (lo hi : Nat) : Bool := (sub b lo (hi - lo)).all (· == 0#8)

/-! Step 2: the header (R234, Table 11-12). -/

def headBad (h : Bytes) : List Bad :=
  let t := leAt h 8 4
  imgBad (decide (leAt h 0 4 = 0x4E414C50)) 0 0xFFFF 0x68 ++
  imgBad (decide (t % 64 = 0) && decide (512 ≤ t) && decide (t ≤ 4194304)) 8 0xFFFF 0x68

/-- The arrays of the image: their offset field, count field, start, length, alignment. -/
def arraysOf (img : Bytes) : List (Nat × Nat × Nat × Nat × Nat) :=
  [(16, 14, leAt img 16 4, 8 * leAt img 14 2, 1), (20, 12, leAt img 20 4, 256 * leAt img 12 2, 64), (24, 28, leAt img 24 4, leAt img 28 4, 64)]

def placeBad (total : Nat) (img : Bytes) : List Bad :=
  let one (a : Nat × Nat × Nat × Nat × Nat) : Option Nat :=
    if a.2.2.1 < 128 ∨ total ≤ a.2.2.1 ∨ a.2.2.1 % a.2.2.2.2 ≠ 0 then some a.1
    else if total < a.2.2.1 + a.2.2.2.1 then some a.2.1 else none
  let fits := (arraysOf img).filter fun a => (one a).isNone
  let doubled := fits.flatMap fun a => fits.filterMap fun b =>
    if a.1 < b.1 ∧ 0 < a.2.2.2.1 ∧ 0 < b.2.2.2.1 ∧ a.2.2.1 < b.2.2.1 + b.2.2.2.1 ∧ b.2.2.1 < a.2.2.1 + a.2.2.2.1 then
      some (if a.2.2.1 < b.2.2.1 then b.1 else a.1)
    else none
  ((arraysOf img).filterMap one ++ doubled).map fun o => ⟨0, o, 0xFFFF, 0x68⟩

def imageBad (img : Bytes) : List Bad :=
  placeBad (leAt img 8 4) img ++ imgBad (allZero img 6 8) 6 0xFFFF 0x68 ++ imgBad (allZero img 40 124) 40 0xFFFF 0x68 ++
  imgBad (crc32c (img.take 124 ++ zeros 4 ++ img.drop 128) == leAt img 124 4) 124 0xFFFF 0x68

/-! Step 4: limits. -/

/-- Ranges of a custom stage's operand: one for each buffer of a column, one for any other operand (R239). DESIGN CHOICE
(log 18): the spec does not say how many ranges a column takes. -/
def operandRanges (p : Plan) (i : Nat) (x : Operand) (cols : List (List SchEntry)) : Nat :=
  match x with
  | .none => 0
  | .imm _ => 0
  | x => if p.isCols x then cols.foldl (fun n c => c.foldl (fun n e => n + 1 + ofBool (tyOffsets e.ty) + ofBool (!tyList e.ty)) n) 0 + 0 * i else 1

def stageRanges (p : Plan) (i : Nat) : Nat :=
  let st := p.stage i
  (List.range st.ins.length).foldl (fun n k => n + operandRanges p i (st.in_ k) (p.inCols i k)) 0 +
  (List.range st.outs.length).foldl (fun n k => n + operandRanges p i (st.out_ k) (p.outCols i k)) 0 + ofBool (st.scratchKib != 0)

def limitBad (img : Bytes) (p : Plan) : List Bad :=
  let n := leAt img 12 2
  imgBad (decide (1 ≤ n) && decide (n ≤ 1024)) 12 0xFFFF 0x6A ++
  imgBad (decide (1 ≤ leAt img 14 2) && decide (leAt img 14 2 ≤ 256)) 14 0xFFFF 0x6A ++
  (List.range (min n 1024)).flatMap fun i =>
    let o := stageAt img i
    imgBad (decide (byteAt img (o + 3) ≤ 8)) (o + 3) i 0x6A ++ imgBad (decide (byteAt img (o + 4) ≤ 6)) (o + 4) i 0x6A ++
    imgBad (decide (byteAt img o ≠ 0x10) || decide (stageRanges p i ≤ 32)) (o + 3) i 0x6A

/-! Step 6: schemas (R231 to R233). -/

/-- A type that may stand under a DICT. -/
def dictChild (ty : Nat) : Bool := tyFixed ty || tyStr ty

/-- Failing offsets of one entry, without its place in the tree. -/
def entryBad (area : Bytes) (o strLen : Nat) : List Nat :=
  let ty := byteAt area o
  let par := byteAt area (o + 1)
  let fl := byteAt area (o + 2)
  let d := leAt area (o + 24) 8
  let f (ok : Bool) (k : Nat) : List Nat := if ok then [] else [o + k]
  f (decide (1 ≤ ty) && decide (ty ≤ 0x17)) 0 ++
  f (if ty = 0x0F then decide (par ≤ 3) else if tyDict ty then decide (1 ≤ par) && decide (par ≤ 8) else decide (par = 0)) 1 ++
  f (decide (fl ≤ 3) && !(bitAt fl 1 && (tyList ty || tyDict ty))) 2 ++ f (decide (byteAt area (o + 3) ≤ 4)) 3 ++
  f (allZero area (o + 6) (o + 8)) 6 ++ f (decide (leAt area (o + 8) 4 + leAt area (o + 12) 2 ≤ strLen)) 8 ++
  f (decide (leAt area (o + 12) 2 ≤ 255)) 12 ++ f (allZero area (o + 14) (o + 16)) 14 ++
  f (if tyFixList ty then decide (1 ≤ leAt area (o + 16) 4) && decide (leAt area (o + 16) 4 < 2 ^ 31) else decide (leAt area (o + 16) 4 = 0)) 16 ++
  f (allZero area (o + 20) (o + 24)) 20 ++
  f (if bitAt fl 1 then
      (if tyStr ty then decide (d / 2 ^ 32 ≤ 65535) && decide (d % 2 ^ 32 + d / 2 ^ 32 ≤ strLen)
       else if tyBool ty then decide (d ≤ 1) else decide (d < 2 ^ (8 * tyWidth ty)))
     else decide (d = 0)) 24

/-- Failing offsets of the tree of entries: PARENT and LEVEL of each, the child of each list or DICT. -/
def treeBad (area : Bytes) (e0 n : Nat) : List Nat :=
  (List.range n).flatMap fun i =>
    let o := e0 + 32 * i
    let prev := o - 32
    let ty := byteAt area o
    let pty := if i = 0 then 0 else byteAt area prev
    let kid := tyList pty || tyDict pty
    let f (ok : Bool) (k : Nat) : List Nat := if ok then [] else [o + k]
    f (decide (leAt area (o + 4) 2 = if kid then i - 1 else 0xFFFF)) 4 ++
    f (decide (byteAt area (o + 3) = if kid then byteAt area (prev + 3) + ofBool (tyList pty) else 0)) 3 ++
    f (!tyDict pty || dictChild ty) 0 ++ f (!(tyList ty || tyDict ty) || decide (i + 1 < n)) 0

/-- Top-level names: length 1 to 255, none equal to an earlier one. -/
def nameBad (area : Bytes) (e0 n : Nat) : List Nat :=
  let tops := (List.range n).filter fun i => leAt area (e0 + 32 * i + 4) 2 == 0xFFFF
  let name (i : Nat) : Bytes := sub area (e0 + 32 * n + leAt area (e0 + 32 * i + 8) 4) (leAt area (e0 + 32 * i + 12) 2)
  tops.flatMap fun i =>
    (if leAt area (e0 + 32 * i + 12) 2 = 0 then [e0 + 32 * i + 12] else []) ++
    (if tops.any fun k => decide (k < i) && name k == name i then [e0 + 32 * i + 8] else [])

/-- Failing offsets of a schema at an offset of the parameter area. -/
def schemaBad (area : Bytes) (o : Nat) : List Nat :=
  let n := leAt area (o + 6) 2
  let str := leAt area (o + 12) 4
  let f (ok : Bool) (k : Nat) : List Nat := if ok then [] else [o + k]
  let head := f (decide (leAt area o 4 = 0x414D4853)) 0 ++ f (decide (leAt area (o + 4) 2 = 1)) 4 ++
    f (decide (1 ≤ n) && decide (n ≤ 4096) && decide (o + 64 + 32 * n ≤ area.length)) 6 ++ f (allZero area (o + 10) (o + 12)) 10 ++
    f (decide (str ≤ 1048576) && (decide (area.length < o + 64 + 32 * n) || decide (o + 64 + 32 * n + str ≤ area.length))) 12 ++
    f (allZero area (o + 16) (o + 64)) 16
  if head.contains (o + 6) || head.contains (o + 12) then head
  else
    let e0 := o + 64
    let tops := ((List.range n).filter fun i => leAt area (e0 + 32 * i + 4) 2 == 0xFFFF).length
    head ++ f (decide (leAt area (o + 8) 2 = tops)) 8 ++ ((List.range n).flatMap fun i => entryBad area (e0 + 32 * i) str) ++
      treeBad area e0 n ++ nameBad area e0 n

/-- Every SCHEMA field that refers to a schema: its offset in the image, its stage, the schema's offset, whether it serves an
Intake output. -/
def schemaRefs (img : Bytes) (p : Plan) : List (Nat × Nat × Nat × Bool) :=
  (p.decls.zipIdx.filterMap fun d => if d.1.kind = 1 ∧ d.1.schema ≠ 0xFFFFFFFF then some (declOff img + 8 * d.2 + 4, 0xFFFF, d.1.schema, false) else none) ++
  p.stages.zipIdx.flatMap fun st => st.1.outs.zipIdx.filterMap fun x =>
    match x.1 with
    | .vat sc => some (stageAt img st.2 + outOff x.2 + 4, st.2, sc, st.1.cls == 1)
    | .bind slot _ _ =>
      let d := p.decls.getD slot default
      if st.1.cls = 1 ∧ slot < p.decls.length ∧ d.kind = 1 ∧ d.schema ≠ 0xFFFFFFFF then
        some (declOff img + 8 * slot + 4, 0xFFFF, d.schema, true) else none
    | _ => none

def schemasBad (img : Bytes) (p : Plan) : List Bad :=
  (schemaRefs img p).flatMap fun r =>
    let o := r.2.2.1
    if o % 64 ≠ 0 ∨ p.params.length < o + 64 then [⟨0, r.1, r.2.1, 0x6D⟩]
    else
      let bad := schemaBad p.params o
      let sc := p.schema o
      let soft := if r.2.2.2 && bad.isEmpty then
          (sc.zipIdx.filter fun e => !(e.1.nullable || e.1.hasDefault)).map fun e => o + 64 + 32 * e.2 + 2
        else []
      (bad ++ soft).map fun x => ⟨0, paramOff img + x, 0xFFFF, 0x6D⟩

/-! Step 7: stage records. -/

/-- A class that Table 11-7 lists. -/
def goodClass (c : Nat) : Bool := (decide (1 ≤ c) && decide (c ≤ 0x0A)) || c == 0x10

def stagesBad (img : Bytes) (p : Plan) : List Bad :=
  p.stages.zipIdx.flatMap fun x =>
    let st := x.1
    let o := stageAt img x.2
    let f (ok : Bool) (k : Nat) : List Bad := imgBad ok (o + k) x.2 0x68
    let cust := st.cls == 0x10
    let len := p.params.length
    let starts := decide (st.pOff % 8 = 0) && (decide (st.pOff < len) || (decide (st.pOff = len) && decide (st.pLen = 0)))
    f (goodClass st.cls) 0 ++ f (decide (st.flags < 8) && (cust || !bitAt st.flags 2)) 2 ++ f (decide (st.prio ≤ 63) || decide (st.prio = 255)) 5 ++
    f (if cust then decide (st.codeBind < p.decls.length) && (p.decls.getD st.codeBind default).kind == 6 else decide (st.codeBind = 0xFFFF)) 6 ++
    f starts 8 ++ f (!starts || decide (st.pOff + st.pLen ≤ len)) 12 ++ f (goodTicks st.leaveTicks) 16 ++
    f (decide (st.scratchKib ≤ if cust then 8192 else 0)) 20 ++ f (allZero img (o + 24) (o + 32)) 24

/-! Step 8: operands and the graph (R237, R238). -/

/-- The bytes of an operand fit its FORM. -/
def operandFits (b : Bytes) (input : Bool) : Bool :=
  let form := byteAt b 0
  let known := decide (form ≤ 5) && (if input then form != 5 else form == 0 || form == 2 || form == 5)
  known && (form == 1 || byteAt b 1 == 0) && (form == 1 || form == 2 || leAt b 2 2 == 0) && (form == 5 || leAt b 4 4 == 0xFFFFFFFF) &&
    (!(form == 0 || form == 5) || leAt b 8 8 == 0)

/-- A selection lies within `n` columns. -/
def inRange (n first count : Nat) : Bool := decide (first + count ≤ n)

/-- Columns of a slot's schema; a slot without one has SEL 0. -/
def slotSel (p : Plan) (slot first count : Nat) : Bool :=
  match p.declSchema slot with
  | some sc => inRange (topEntries sc).length first count
  | none => first == 0 && count == 0

/-- What an input operand of stage `i` must satisfy. -/
def inputOk (p : Plan) (i : Nat) : Operand → Bool
  | .stage o r f c =>
    decide (r < i) && decide (o < (p.stage r).outs.length) &&
      (match (p.stage r).out_ o with
        | .vat sc => inRange (topEntries (p.schema sc)).length f c
        | _ => false)
  | .bind slot f c =>
    let d := p.decls.getD slot default
    decide (slot < p.decls.length) && (d.kind == 4 || d.dir == 0 || d.dir == 2) && slotSel p slot f c
  | .param o l => decide (o + l ≤ p.params.length)
  | _ => true

/-- What an output operand must satisfy; a VAT output is read by a later stage. -/
def outputOk (p : Plan) (i k : Nat) : Operand → Bool
  | .bind slot f c =>
    let d := p.decls.getD slot default
    decide (slot < p.decls.length) && (d.dir == 1 || d.dir == 2) && slotSel p slot f c
  | .vat _ => (p.stages.drop (i + 1)).any fun st => st.ins.any fun x =>
      match x with
      | .stage o r _ _ => o == k && r == i
      | _ => false
  | _ => true

/-- Output operands that name a slot: their offsets and stages, ascending. -/
def namers (img : Bytes) (p : Plan) (slot : Nat) : List (Nat × Nat) :=
  p.stages.zipIdx.flatMap fun st => st.1.outs.zipIdx.filterMap fun x =>
    match x.1 with
    | .bind sl _ _ => if sl = slot then some (stageAt img st.2 + outOff x.2, st.2) else none
    | _ => none

/-- A TABLE slot is named by SCATTER's second input, so the rule on output operands does not reach it (R384). -/
def slotsBad (img : Bytes) (p : Plan) : List Bad :=
  p.decls.zipIdx.flatMap fun d =>
    if (d.1.dir = 1 ∨ d.1.dir = 2) ∧ d.1.kind ≠ 4 then
      match namers img p d.2 with
      | [] => [⟨0, declOff img + 8 * d.2, 0xFFFF, 0x6B⟩]
      | _ :: more => more.map fun x => ⟨0, x.1, x.2, 0x6B⟩
    else []

def graphBad (img : Bytes) (p : Plan) : List Bad :=
  (p.stages.zipIdx.flatMap fun x =>
    let o := stageAt img x.2
    let nin := x.1.ins.length
    let nout := x.1.outs.length
    ((List.range 8).flatMap fun k =>
      let b := sub img (o + inOff k) 16
      imgBad (operandFits b true && (decide (k < nin) || byteAt b 0 == 0) && (decide (nin ≤ k) || inputOk p x.2 (x.1.in_ k))) (o + inOff k) x.2 0x6B) ++
    ((List.range 6).flatMap fun k =>
      let b := sub img (o + outOff k) 16
      imgBad (operandFits b false && (decide (k < nout) || byteAt b 0 == 0) && (decide (nout ≤ k) || outputOk p x.2 k (x.1.out_ k))) (o + outOff k) x.2 0x6B)) ++
  slotsBad img p

/-! Step 9: each class's own rules (R239). -/

/-- What a class finds wrong with a stage. A custom stage's parameter block is its own. -/
def classFlaws (s : State) (p : Plan) (binds : List Bind) (i : Nat) : List Flaw :=
  match (p.stage i).cls with
  | 0x01 => checkIntake p i
  | 0x02 => checkChurn s p binds i
  | 0x03 => checkSeparator s p binds i
  | 0x04 => checkHash p i
  | 0x05 => checkStrainer s p binds i
  | 0x06 => checkPress s p i
  | 0x07 => checkRipener s p i
  | 0x08 => checkNormaliser s p binds i
  | 0x09 => checkCrate p binds i
  | 0x0A => checkLadle s p binds i
  | _ => []

def classesBad (s : State) (img : Bytes) (p : Plan) (binds : List Bind) : List Bad :=
  (List.range p.stages.length).flatMap fun i =>
    (classFlaws s p binds i).map fun f =>
      match f.place with
      | .record => ⟨0, stageAt img i + f.off, i, f.status⟩
      | .param => ⟨0, paramOff img + (p.stage i).pOff + f.off, i, f.status⟩
      | .bind slot => ⟨1, 32 * slot + f.off, 0xFFFF, f.status⟩

/-! Step 10: declarations and entries (R235, R240 to R242). -/

def declsBad (img : Bytes) (p : Plan) : List Bad :=
  p.decls.zipIdx.flatMap fun d =>
    let o := declOff img + 8 * d.2
    let k := d.1.kind
    imgBad (decide (1 ≤ k) && decide (k ≤ 7)) o 0xFFFF 0x6C ++
    imgBad (decide (d.1.dir ≤ 2) && (!(k == 5 || k == 6 || k == 7) || d.1.dir == 0) && (d.1.dir != 2 || k == 4)) (o + 1) 0xFFFF 0x6C ++
    imgBad (allZero img (o + 2) (o + 4)) (o + 2) 0xFFFF 0x6C ++
    imgBad ((k == 1) == (d.1.schema != 0xFFFFFFFF)) (o + 4) 0xFFFF 0x6C

/-- The column of a SOURCE binding exists, in a VAT output, with a type of event time (R242). -/
def sourceOk (p : Plan) (aux2 : Nat) : Bool :=
  let st := aux2 % 65536
  let o := aux2 / 2 ^ 16 % 256
  decide (aux2 / 2 ^ 24 % 256 = 0) && decide (st < p.stages.length) && decide (o < (p.stage st).outs.length) &&
    (match (p.stage st).out_ o with
      | .vat sc =>
        match (columnsOf (p.schema sc))[aux2 / 2 ^ 32]? with
        | some c => (unitNs (c.headD default)).isSome
        | none => false
      | _ => false)

def entriesBad (table : Bytes) (p : Plan) : List Bad :=
  p.decls.zipIdx.flatMap fun d =>
    let o := 32 * d.2
    let b := bindOf false (sub table o 32)
    let k := b.kind
    let f (ok : Bool) (x : Nat) : List Bad := if ok then [] else [⟨1, o + x, 0xFFFF, 0x6C⟩]
    let sc := (p.declSchema d.2).getD []
    f (decide (k = d.1.kind)) 0 ++
    f (decide (byteAt table (o + 1) ≤ 1) && (byteAt table (o + 1) == 0 || k == 1 || k == 2 || k == 6)) 1 ++ f (allZero table (o + 2) (o + 4)) 2 ++
    f (if k = 4 then decide (b.aux ≤ 4095) else if k = 5 then decide (b.aux ≤ 767) else k == 7 || b.aux == 0) 4 ++
    f (if k = 1 then decide (b.addr % 64 = 0) else if k = 3 then decide (b.addr < 2 ^ 60) && decide (1 ≤ b.addr / 2 ^ 48 % 256) && decide (b.addr / 2 ^ 48 % 256 ≤ 16)
       else k == 2 || k == 6 || b.addr == 0) 8 ++
    f (if k = 1 then decide (b.len = 64 + 64 * sc.length) else if k = 2 then decide (1 ≤ b.len) && decide (b.len ≤ 2 ^ 48)
       else if k = 3 ∨ k = 6 then decide (1 ≤ b.len) else b.len == 0) 16 ++
    f (if k = 5 then sourceOk p b.aux2 else b.aux2 == 0) 24

/-! Steps 11 and 12: addresses and directories (R229, R230). -/

/-- The first address of a range that is not mapped, as DETAIL has it. -/
def State.unmappedAt (s : State) (herd : Bool) (a len : Nat) : Option Nat :=
  match s.resolve herd a with
  | none => some a
  | some (n, l) =>
    if (match n with | some m => !s.fabric.members.contains m | none => false) then some a
    else if engineMapped l len then none
    else
      let at_ := firstUnmapped l
      some (match n with | some m => m * 2 ^ 48 + at_ | none => s.herdForm at_)

/-- Buffers of a directory of known length: their address and bytes (R227). -/
def dirSpans (sc : Schema) (dir : Bytes) (output : Bool) : List (Nat × Nat) :=
  sc.zipIdx.flatMap fun x =>
    let e := x.1
    let r := recAt dir x.2
    let w := if tyLarge e.ty then 8 else 4
    if output then
      (if r.validity = 0 then [] else [(r.validity, ceilDiv r.capElems 8)]) ++
      (if tyOffsets e.ty then [(r.offsets, (r.capElems + 1) * w)] else []) ++
      (if tyStr e.ty || tyList e.ty then [] else [(r.values, r.capBytes)])
    else if r.length = 0 then []
    else
      let n := r.first + r.length
      (if r.validity = 0 ∨ r.nulls = 0 then [] else [(r.validity, ceilDiv n 8)]) ++
      (if tyOffsets e.ty then [(r.offsets, (n + 1) * w)] else []) ++
      (if tyBool e.ty then [(r.values, ceilDiv n 8)] else if tyFixed e.ty then [(r.values, n * tyWidth e.ty)]
       else if tyDict e.ty then [(r.values, n * tyWidth e.param)] else [])

/-- Failing offsets of a directory. -/
def dirBad (sc : Schema) (dir : Bytes) (output : Bool) : List Nat :=
  let f (ok : Bool) (k : Nat) : List Nat := if ok then [] else [k]
  f (decide (leAt dir 0 4 = 0x5249444C)) 0 ++ f (decide (leAt dir 4 4 = sc.length)) 4 ++
  f (output || (topEntries sc).all fun t => (recAt dir t).length == leAt dir 8 8) 8 ++ f (allZero dir 16 64) 16 ++
  sc.zipIdx.flatMap fun x =>
    let o := 64 + 64 * x.2
    let r := recAt dir x.2
    f (!output || r.first == 0) (o + 16) ++ f (r.validity % 64 == 0) (o + 24) ++
    f (r.offsets % 64 == 0 && (tyOffsets x.1.ty || r.offsets == 0)) (o + 32) ++
    f (r.values % 64 == 0 && (!tyList x.1.ty || r.values == 0)) (o + 40) ++
    f (output || r.capElems == 0) (o + 48) ++ f (output || r.capBytes == 0) (o + 56)

/-! Step 14: signed images (R490, R494). -/

/-- What is wrong with a signed image of a kind: the offset of the failing field and the status. -/
def signedBad (kind : Nat) (maxLen : Nat) (key : Option Bytes) (minSvn : Nat) (img : Bytes) : Option (Nat × Nat) :=
  let h := img.take 512
  let body := sub img 512 (leAt h 12 4)
  let f (ok : Bool) (o : Nat) : List (Nat × Nat) := if ok then [] else [(o, 0xD0)]
  let fields := f (decide (leAt h 0 4 = 0x474D4953)) 0 ++ f (decide (leAt h 4 2 = 1)) 4 ++ f (decide (byteAt h 6 = kind)) 6 ++
    f (decide (byteAt h 7 ≤ if kind = 2 then 7 else 3)) 7 ++ f (kind == 2 || decide (leAt h 8 4 ≤ 64)) 8 ++
    f (decide (1 ≤ leAt h 12 4) && decide (leAt h 12 4 ≤ maxLen) && decide (512 + leAt h 12 4 ≤ img.length) &&
      (kind != 2 || decide (img.length = 512 + leAt h 12 4))) 12 ++
    f (kind != 2 || (decide (leAt h 24 4 < leAt h 12 4) && decide (leAt h 24 4 % 4 = 0))) 24 ++ f (kind == 1 || leAt h 28 4 == 0) 28 ++
    f (allZero h 176 512) 176
  match fields with
  | x :: _ => some x
  | [] =>
    if Config.sha384 body ≠ sub h 32 48 then some (0, 0xD0)
    else
      match key with
      | none => some (7, 0xD1)
      | some k =>
        if !Config.ecdsaVerify k (Config.sha384 (h.take 80)) (sub h 80 96) then some (0, 0xD1)
        else if leAt h 8 4 < minSvn then some (8, 0xD2) else none

/-- A CODE image under the stage keys. -/
def State.codeBad (s : State) (img : Bytes) : Option (Nat × Nat) :=
  let k := Table.find? s.rolar.keys (byteAt img 7)
  signedBad 2 8388608 (k.map (·.key)) (k.elim 0 (·.minSvn)) img

/-! What a job binds must be there (R42, R74, R88, R104). -/

/-- Why a job cannot run on the domains and instances as they are: 0, DOMAIN_OFF, TIER_DOWN or NO_INSTANCE. -/
def State.absent (s : State) (p : Plan) (binds : List Bind) : Nat :=
  let loc (b : Bind) : Option Nat :=
    if b.kind = 1 ∨ b.kind = 2 ∨ b.kind = 6 then (match s.resolve b.herd b.addr with | some (none, l) => some l | _ => none) else none
  let far (b : Bind) : Bool := (b.kind == 1 || b.kind == 2 || b.kind == 6) && (match s.resolve b.herd b.addr with | some (some _, _) => true | _ => false)
  let ls := binds.filterMap loc
  if !s.good 2 || ((ls.any fun l => spaceOf l == .cream) && !s.good 3) || ((ls.any fun l => spaceOf l == .skim) && !s.good 4) ||
      ((binds.any fun b => b.kind == 3 || far b) && !s.good 5) then 0x32
  else if ls.any s.tierDown then 0x46
  else if p.stages.any fun st => !s.classUp st.cls then 0x38
  else 0

/-! The whole validation (R243, R521). -/

/-- What validation gives: the plan and its bindings with their directories; a failure; a range to bring in first. -/
inductive Valid where
  | ok (plan : Plan) (binds : List Bind)
  | bad (status stage detail : Nat)
  | need (far : Far) (addr len : Nat)
  deriving DecidableEq, Repr

/-- The validation goes on with what an access gives. -/
def Valid.with {α : Type} (g : Got α) (f : α → Valid) : Valid :=
  match g with
  | .ok a => f a
  | .fail st d => .bad st 0xFFFF d
  | .need n a l => .need n a l

/-- The validation goes on where a step found nothing. `at_` gives the address of a field of each structure. -/
def Valid.step (at_ : Nat → Nat → Nat) (bs : List Bad) (k : Valid) : Valid :=
  match worst bs with
  | some b => .bad b.status b.stage (at_ b.rank b.off)
  | none => k

/-- A validation of a plan and a binding table whose bytes `rd` reads: an address, whether it is in herd form, a length. -/
def State.validate (s : State) (rd : Bool → Nat → Nat → Got Bytes) (herd : Bool) (pa ba nb : Nat) : Valid :=
  let hf (h : Bool) (a : Nat) : Nat := if h then a else s.herdForm a
  let at_ (rank off : Nat) : Nat := hf herd (if rank = 0 then pa + off else ba + off)
  let open_ (h : Bool) (a len : Nat) (k : Valid) : Valid :=
    match s.unmappedAt h a len with
    | some x => .bad 0x40 0xFFFF x
    | none => k
  if pa % 64 ≠ 0 then .bad 0x40 0xFFFF (hf herd pa)
  else
    open_ herd pa 128 (Valid.with (rd herd pa 128) fun h =>
      if ba % 64 ≠ 0 then .bad 0x40 0xFFFF (hf herd ba)
      else
        open_ herd ba (32 * nb) (Valid.with (rd herd ba (32 * nb)) fun table =>
          Valid.step at_ (headBad h)
            (open_ herd pa (leAt h 8 4) (Valid.with (rd herd (pa + 128) (leAt h 8 4 - 128)) fun rest =>
              let img := h ++ rest
              let p := planOf pa img
              let binds := (List.range nb).map fun n => bindOf herd (sub table (32 * n) 32)
              Valid.step at_ (imageBad img)
                (Valid.step at_ (imgBad (decide (leAt img 4 2 = 1)) 4 0xFFFF 0x69)
                  (Valid.step at_ (limitBad img p)
                    (Valid.step at_ (imgBad (decide (nb = leAt img 14 2)) 14 0xFFFF 0x6C)
                      (Valid.step at_ (schemasBad img p)
                        (Valid.step at_ (stagesBad img p)
                          (Valid.step at_ (graphBad img p)
                            (Valid.step at_ (classesBad s img p binds)
                              (Valid.step at_ (declsBad img p ++ entriesBad table p)
                                (match binds.findSome? (fun b =>
                                    if b.kind = 1 ∨ b.kind = 2 ∨ b.kind = 6 then s.unmappedAt b.herd b.addr b.len else none) with
                                 | some x => .bad 0x40 0xFFFF x
                                 | none =>
                                   Valid.with (Got.all (fun b =>
                                       if b.kind = 1 then (rd b.herd b.addr b.len).bind fun d => .ok { b with dir := d } else .ok b) binds) fun full =>
                                     let slots := full.zipIdx.filter fun b => b.1.kind == 1
                                     let out (k : Nat) : Bool := (p.decls.getD k default).dir == 1
                                     match slots.findSome? (fun b =>
                                         (dirSpans ((p.declSchema b.2).getD []) b.1.dir (out b.2)).findSome? fun sp =>
                                           if sp.2 = 0 then none else s.unmappedAt b.1.herd sp.1 (roundUp sp.2 64)) with
                                     | some x => .bad 0x40 0xFFFF x
                                     | none =>
                                       match slots.findSome? (fun b =>
                                           ((dirBad ((p.declSchema b.2).getD []) b.1.dir (out b.2)).foldl (fun (o : Option Nat) x =>
                                             some (match o with | some y => min x y | none => x)) none).map fun o => hf b.1.herd (b.1.addr + o)) with
                                       | some x => .bad 0x6F 0xFFFF x
                                       | none =>
                                         match full.zipIdx.find? (fun b => b.1.kind == 5 && !Table.has s.tide.sources b.1.aux) with
                                         | some b => .bad 0x60 0xFFFF (at_ 1 (32 * b.2 + 4))
                                         | none =>
                                           Valid.with (Got.all (fun (b : Bind) =>
                                               if b.kind = 6 then (rd b.herd b.addr b.len).bind fun c =>
                                                 match s.codeBad c with
                                                 | some x => .fail x.2 (hf b.herd (b.addr + x.1))
                                                 | none => .ok ()
                                               else .ok ()) full) fun _ =>
                                             if s.absent p full ≠ 0 then .bad (s.absent p full) 0xFFFF 0 else .ok p full)))))))))))))

/-- A validation whose reads go to memory. -/
def State.validateMem (s : State) (who : Reader) (fn : Nat) (herd : Bool) (pa ba nb : Nat) : Valid :=
  s.validate (fun h a n => s.readMem ⟨who, fn, h⟩ a n) herd pa ba nb

/-- A validation whose reads are met from a job image set: the descriptor, the binding table, the image and each directory, each on
a 64-byte boundary (Table 20-10). -/
def State.validateSet (s : State) (who : Reader) (set : Bytes) (herd : Bool) : Valid :=
  let raw := set.take 64
  let nb := dNbind raw
  let pa := dPlan raw
  let ba := dBind raw
  let iOff := 64 + roundUp (32 * nb) 64
  let total := leAt set (iOff + 8) 4
  let dirs := ((List.range nb).map fun n => bindOf herd (sub set (64 + 32 * n) 32)).filter fun b => b.kind == 1
  let places := (dirs.foldl (fun (r : List (Nat × Nat × Nat) × Nat) b => (r.1 ++ [(b.addr, b.len, r.2)], r.2 + roundUp b.len 64))
    (([] : List (Nat × Nat × Nat)), iOff + roundUp total 64)).1
  let rd (h : Bool) (a n : Nat) : Got Bytes :=
    if ba ≤ a ∧ a + n ≤ ba + 32 * nb then .ok (sub set (64 + (a - ba)) n)
    else if pa ≤ a ∧ a + n ≤ pa + total then .ok (sub set (iOff + (a - pa)) n)
    else
      match places.find? (fun p => p.1 == a && p.2.1 == n) with
      | some p => .ok (sub set p.2.2 n)
      | none => s.readMem ⟨who, 0, h⟩ a n
  s.validate rd herd pa ba nb

end Sys2Proof.Machine
end

