-- ==== Sys2Proof/Machine/Slices.lean ====
section
/-! DEFINITION. Reads that a slice, a validation or a survey waits for, slices, the life of a job (R43 to R47, R86, R97, R116 to R121,
R155, R168 to R170, R178, R243, R253). -/

namespace Sys2Proof.Machine

open Sys2Proof.Reg

/-! Issuing a read. -/

/-- The job and stage of a reader, and its function. -/
def State.readerOf (s : State) (who : Reader) : Nat × Nat × Nat :=
  match who with
  | .slice n =>
    match s.slice? n with
    | some x => ((s.job? x.job).elim (0, 0, 0) fun j => (j.herdId, x.stage, j.fn))
    | none => (0, 0, 0)
  | .desc n => (s.desc? n).elim (0, 0xFFFF, 0) fun d => (0, 0xFFFF, d.fn)
  | .job n => (s.job? n).elim (0, 0xFFFF, 0) fun j => (j.herdId, 0xFFFF, j.fn)

/-- Pages of a host range that the translation cache lacks, where the function uses ATS (R116). -/
def State.untranslated (s : State) (fn iova len : Nat) : List Nat :=
  if (s.func fn).ats then
    let lo := iova / 4096
    ((List.range ((iova + len - 1) / 4096 - lo + 1)).map (lo + ·)).filter fun p => !s.host.atc.contains (fn, p)
  else []

/-- A host read issued: at once, after the translations it needs, or held while the link is down and its loss not yet declared. -/
def State.issueHost (s : State) (who : Reader) (fn iova len : Nat) : State :=
  let id := s.host.nextRead
  let miss := s.untranslated fn iova len
  let s1 := s.modHost fun h => { h with
    reads := Table.put h.reads id ⟨who, fn, iova, len⟩, nextRead := id + 1,
    atsRequests := h.atsRequests ++ miss.map fun p => ⟨fn, p, id⟩ }
  if s.onPort0 fn && !s.host.p0Up then s1
  else if miss.isEmpty then s1.emit (.hostRead fn iova len)
  else
    -- at most 128 requests are outstanding: the first 128 of the list (R116)
    let now := miss.take (128 - s.host.atsRequests.length)
    (s1.count HOSTIF.ATS_REQUESTS now.length).emits (now.map fun p => .atsRequest fn p)

/-- What a reader waits for is brought in; the status where that cannot be. -/
def State.issueNeed (s : State) (who : Reader) (far : Far) (addr len : Nat) : State × Nat :=
  let r := s.readerOf who
  match far with
  | .host => (s.issueHost who r.2.2 addr len, 0)
  | .held => (s.snoopFor who addr len, 0)
  | .node n =>
    (List.range (ceilDiv len 4096)).foldl (fun (q : State × Nat) k =>
      let a := addr + 4096 * k
      let l := min 4096 (len - 4096 * k)
      let p := q.1.trySend (.farRead who a l) { dst := n, src := 0, typ := 1, addr := a, rlen := l }
      (p.1, if p.2 then q.2 else 0xB9)) (s, 0)
  | .cellar d ns =>
    match Table.find? s.tiers.drives d with
    | none => (s, 0x44)
    | some dr =>
      let bs := (Table.findD dr.namespaces ns ⟨false, 512, 0, 0⟩).block
      let id := Table.fresh dr.cmds 4096 0
      let c : DriveCmd := { why := .read who, nsid := ns, lba := addr / bs, blocks := len / bs, issuedAt := s.chrono }
      (((s.modTiers fun t => { t with drives := Table.upd t.drives d fun y => { y with cmds := Table.put y.cmds id c } }).count
        CELLAR.READ_CMDS 1).emit (.nvme d 2 ns (addr / bs) (len / bs) []), 0)
  | .rows t owner ids =>
    let page := match who with
      | .slice n => (s.slice? n).elim 0x0C0 (·.page)
      | _ => 0x0C0
    let body := engineBody r.1 r.2.1 t 0 ids.length (addr + len * 2 ^ 32) (ids.flatMap (leBytes 8))
    let p := s.trySend (.gather who t owner ids addr len false) (enginePkt owner 0x03 0x10 body)
    (p.1.count (LADLE.REMOTE_REQS.on page) 1, if p.2 then 0 else 0xB5)

/-! Running a slice. -/

/-- The class of a custom stage (Table 11-7). -/
def isCustom (cls : Nat) : Bool := cls == 0 || decide (0x0A < cls)

/-- A custom-stage slice's work is the stage's own code, which runs as its thread (R178, R192); the command STAGE_RETURN brings its end. -/
def runCustom (s : State) (c : Ctx) : Ran :=
  .done (s.threadAsk ⟨c.slice, (s.job? c.job).elim 63 fun j => slicePrio j c.stage, bitAt c.st.flags 2⟩) false

/-- The work of a slice by its engine class (Table 11-7). -/
def runStage (s : State) (c : Ctx) : Ran :=
  match c.st.cls with
  | 0x01 => runIntake s c
  | 0x02 => runChurn s c
  | 0x03 => runSeparator s c
  | 0x04 => runHash s c
  | 0x05 => runStrainer s c
  | 0x06 => runPress s c
  | 0x07 => runRipener s c
  | 0x08 => runNormaliser s c
  | 0x09 => runCrate s c
  | 0x0A => runLadle s c
  | _ => runCustom s c

/-- What a slice works with. -/
def State.sliceCtx (s : State) (id : Nat) : Option Ctx :=
  match s.slice? id with
  | none => none
  | some x => (s.job? x.job).map fun job =>
      { job := x.job, slice := id, stage := x.stage, page := x.page, st := job.plan.stage x.stage, plan := job.plan, first := x.first, count := x.count }

/-- A stage of a job has ended. -/
def State.markStage (s : State) (j st : Nat) : State :=
  s.updJob j fun x => { x with ended := if x.ended.contains st then x.ended else x.ended ++ [st] }

/-- The rows that a slice delivered told to the sources (R242). -/
def State.tellSources (s : State) (before : Job) (j st : Nat) : State :=
  match s.job? j with
  | none => s
  | some job =>
    (List.range 6).foldl (fun s o => s.deliver job st o ((job.outRows st o).drop (before.outRows st o).length)) s

/-- A slice that has its extents and its leave runs its work: in one step at its start, once every byte it reads has come. -/
def State.sliceGo (s : State) (id : Nat) : State :=
  match s.sliceCtx id, s.slice? id with
  | some c, some x =>
    if (s.page 0 x.page).injectSlice then
      ((s.setPage 0 x.page { s.page 0 x.page with injectSlice := false }).failSlice id 0xD9 0).placeAll
    else
      match s.job? c.job with
      | none => s
      | some job =>
        match runStage s c with
        | .done s1 ended =>
          let s2 := if ended then s1.markStage c.job c.stage else s1
          (s2.tellSources job c.job c.stage).updSlice id fun y => { y with ran := !isCustom c.st.cls, state := .running }
        | .failed s1 st d => (s1.failSlice id st d).placeAll
        | .need far a l =>
          let r := (s.setSliceState id .waitHost).issueNeed (.slice id) far a l
          if r.2 = 0 then r.1 else (r.1.failSlice id r.2 0).placeAll
  | _, _ => s

/-! Validation and the survey (R243, R253). -/

/-- A job made of a validated plan: its number and identifier on this node. -/
def State.newJob (s : State) (job : Job) : State × Nat :=
  let j := s.work.nextJob
  (s.modWork fun w => { w with jobs := Table.put w.jobs j job, nextJob := j + 1 }, j)

/-- The nodes of the node sets of a plan, without this node (R338, R388, R419). -/
def State.targetsOf (s : State) (p : Plan) (herdId : Nat) : List Nat :=
  ((p.stages.flatMap fun st =>
    let b := p.block st
    if st.cls = 6 ∧ ppShuffle b then nodeSet p.params (ppNodesOff b) (ppNodesLen b)
    else if st.cls = 0x0A ∧ st.op = 2 then stepNodes p.params b herdId else []).filter fun n => n != s.node.id).eraseDups

/-- The image set of a job, as JOB_IMAGE carries it (Table 20-10). -/
def imageSet (raw table image : Bytes) (binds : List Bind) : Bytes :=
  pad64 raw ++ pad64 table ++ pad64 image ++ (binds.filter fun b => b.kind == 1).flatMap fun b => pad64 b.dir

/-- A survey of an Intake stage waits before its slices. -/
def surveyDue (job : Job) : Bool := job.plan.stages.zipIdx.any fun x => x.1.cls == 1 && (job.engOf x.2).phase == 0 && !job.ended.contains x.2

/-- A job starts: its stores are bound, its parts sent to other nodes, its slices placed (R155, R243, R357, R419). -/
def State.startJob (s : State) (j : Nat) (image table raw : Bytes) : State :=
  match s.job? j with
  | none => s
  | some job =>
    let s1 := s.bindStores job.plan
    let ts := match job.origin with
      | .part .. => []
      | _ => s.targetsOf job.plan job.herdId
    let s2 := s1.updJob j fun x => { x with targets := ts }
    let set := imageSet raw table image job.binds
    let s3 := ts.foldl (fun (s : State) n =>
      let q := s.sendRun (.jobImage j) n 0x05 0x01 job.herdId 0xFFFF 0 set.length 0 set
      let r := q.1.trySend (.jobStart j) (enginePkt n 0x03 0x02 (engineBody job.herdId 0xFFFF 0 0 job.tide (job.prio + job.sliceUs * 2 ^ 16) []))
      if q.2 && r.2 then r.1
      else r.1.updJob j fun x => { x with parts := Table.put x.parts n ⟨0xB9, false, false, 0xFFFF, 0⟩ }) s2
    s3.placeSlices j

/-- The bytes of an image and a table that a validated job was made from. -/
def State.rawOf (s : State) (who : Reader) (fn : Nat) (herd : Bool) (pa ba nb : Nat) : Bytes × Bytes :=
  let rd (a n : Nat) : Bytes := match s.readMem ⟨who, fn, herd⟩ a n with | .ok b => b | _ => []
  let h := rd pa 128
  (h ++ rd (pa + 128) (leAt h 8 4 - 128), rd ba (32 * nb))

/-- A binding names a Cellar drive that is present and neither READY nor FAILED. -/
def State.driveStarting (s : State) (b : Bind) : Bool :=
  b.kind == 3 && (match Table.find? s.tiers.drives (b.addr / 2 ^ 56 % 16) with
    | some d => d.present && !d.ready && !d.failed
    | none => false)

/-- A RUN validated as far as its bytes have come; its job starts, or it ends with the failing check (R243). -/
def State.runValidate (s : State) (id : Nat) : State :=
  match s.desc? id with
  | none => s
  | some d =>
    let herd := dHerd d.raw
    match s.validateMem (.desc id) d.fn herd (dPlan d.raw) (dBind d.raw) (dNbind d.raw) with
    | .bad st stage det =>
      let s1 := match d.flow with
        | some f => s.flowEnd f.1 f.2 false
        | none => s
      ((s1.unstage (.desc id)).markEnded id st stage det false d.flow.isSome).ringSettle
    | .need far a l =>
      let r := s.issueNeed (.desc id) far a l
      if r.2 = 0 then r.1
      else
        let s1 := match d.flow with
          | some f => r.1.flowEnd f.1 f.2 false
          | none => r.1
        ((s1.unstage (.desc id)).markEnded id r.2 0xFFFF 0 false d.flow.isSome).ringSettle
    | .ok p binds =>
      if binds.any s.driveStarting then s.updDesc id fun x => { x with waitDrive := true } else
      let raw := s.rawOf (.desc id) d.fn herd (dPlan d.raw) (dBind d.raw) (dNbind d.raw)
      let n := s.work.nextJob
      let r := (s.unstage (.desc id)).newJob {
        origin := .ring id, herdId := s.node.id * 2 ^ 48 + n % 2 ^ 48, fn := d.fn, ring := d.ring, tag := dTag d.raw, prio := d.prio,
        sliceUs := d.sliceUs, leaveTicks := dLeaveTicks d.raw, herd := herd, plan := p, binds := binds, flow := d.flow, tide := d.tide }
      r.1.startJob r.2 raw.1 raw.2 d.raw

/-- The survey of a stage of a job, as far as its bytes have come (R253): its failure fails the job before any slice, and the survey of
the last Intake stage lets the slices start. -/
def State.surveyStage (s : State) (j i : Nat) : State :=
  match s.job? j with
  | none => s
  | some job =>
    if (job.plan.stage i).cls = 1 ∧ (job.engOf i).phase = 0 ∧ !job.ended.contains i ∧ job.status = 0 then
      let c : Ctx := { job := j, slice := 0, stage := i, page := 0x070, st := job.plan.stage i, plan := job.plan, first := 0, count := 0, survey := true }
      match s.surveyAll c job with
      | .done s1 _ => (if (s1.job? j).any surveyDue then s1 else s1.unstage (.job j)).placeSlices j
      | .failed s1 st d => ((s1.failJob j st i d 0x070).dropQueued j).unstage (.job j)
      | .need far a l =>
        let r := s.issueNeed (.job j) far a l
        if r.2 = 0 then r.1 else ((r.1.failJob j r.2 i 0 0x070).dropQueued j).unstage (.job j)
    else s

/-- The surveys of a job's Intake stages. -/
def State.survey (s : State) (j : Nat) : State :=
  (List.range ((s.job? j).elim 0 (·.plan.stages.length))).foldl (fun s i => s.surveyStage j i) s

/-! Parts of other nodes' jobs (R419). -/

/-- The reader that validates the part of a herd job. -/
def partReader (id : Nat) : Reader := .job (2 ^ 60 + id)

/-- A JOB_START answered: with OK, or with the validation's status, stage and DETAIL. -/
def State.partAnswer (s : State) (p : Packet) (status stage detail : Nat) : State :=
  let s1 := (s.unstage (partReader p.job)).modFabric fun f => { f with
    images := Table.drop f.images p.job, starts := f.starts.filter fun q => q != p }
  (s1.marked p status).reply p status stage detail []

/-- A part validated as far as its bytes have come: it starts, or JOB_START is answered with what fails. -/
def State.partValidate (s : State) (id : Nat) : State :=
  match s.fabric.starts.find? (fun p => p.job == id), Table.find? s.fabric.images id with
  | some p, some set =>
    let raw := set.take 64
    match s.validateSet (partReader id) set (dHerd raw) with
    | .bad st stage det => s.partAnswer p st stage det
    | .need far a l =>
      let r := s.issueNeed (partReader id) far a l
      if r.2 = 0 then r.1 else r.1.partAnswer p r.2 0xFFFF 0
    | .ok plan binds =>
      let r := (s.partAnswer p 0 0 0).newJob {
        origin := .part (id / 2 ^ 48) (id % 2 ^ 48), herdId := id, fn := 0, ring := 0, tag := dTag raw, prio := p.arg1 % 256,
        sliceUs := p.arg1 / 2 ^ 16 % 1024, leaveTicks := dLeaveTicks raw, herd := dHerd raw, plan := plan, binds := binds, tide := p.arg0 }
      r.1.startJob r.2 [] [] []
  | _, _ => s

/-- What validates a part could not be read. -/
def State.partUnread (s : State) (id status detail : Nat) : State :=
  match s.fabric.starts.find? (fun p => p.job == id) with
  | some p => s.partAnswer p status 0xFFFF detail
  | none => s

/-- A reader goes on once bytes have come for it. -/
def State.resume (s : State) (who : Reader) : State :=
  match who with
  | .slice n => (s.slice? n).elim s fun x => if x.state = .waitHost ∧ !x.ran then s.sliceGo n else s
  | .desc n => s.runValidate n
  | .job n => if 2 ^ 60 ≤ n then s.partValidate (n - 2 ^ 60) else if (s.job? n).any surveyDue then s.survey n else s.readyWords n

/-- A reader's access failed: its slice, its validation, its job's survey. -/
def State.readFailed (s : State) (who : Reader) (status detail : Nat) : State :=
  match who with
  | .slice n => (s.failSlice n status detail).placeAll
  | .desc n =>
    match s.desc? n with
    | none => s
    | some d =>
      let s1 := match d.flow with
        | some f => s.flowEnd f.1 f.2 false
        | none => s
      ((s1.unstage (.desc n)).markEnded n status 0xFFFF detail false d.flow.isSome).ringSettle
  | .job n => if 2 ^ 60 ≤ n then s.partUnread (n - 2 ^ 60) status detail else ((s.failJob n status 0xFFFF detail 0x070).dropQueued n).unstage (.job n)

/-! The end of a job (R155, R86, R91). -/

/-- Slices of a job that are in flight. -/
def State.jobBusy (s : State) (j : Nat) : Bool := s.work.slices.any fun e => e.2.job == j

/-- Commands at drives that a job's writes wait for. -/
def State.driveBusy (s : State) (j : Nat) : Bool :=
  s.tiers.drives.any fun d => d.2.cmds.any fun c => c.2.why == .write j || c.2.why == .flush j

/-- A write of whole blocks of a Cellar binding (R96, R97). -/
def State.cellarWrite (s : State) (j : Nat) (b : Bind) (bs : Bytes) : Got State :=
  if bs.isEmpty then .ok s
  else
    let size := s.cellarBlock b.addr
    let n := ceilDiv bs.length size
    let st := s.cellarStatus b.addr n
    let d := b.addr / 2 ^ 56 % 16
    let ns := b.addr / 2 ^ 48 % 256
    if st ≠ 0 then .fail st 0
    else
      let id := (Table.find? s.tiers.drives d).elim 0 fun x => Table.fresh x.cmds 4096 0
      let c : DriveCmd := { why := .write j, nsid := ns, lba := b.addr % 2 ^ 48, blocks := n, issuedAt := s.chrono }
      let s1 := (s.modTiers fun t => { t with drives := Table.upd t.drives d fun y => { y with cmds := Table.put y.cmds id c } }).updJob j
        fun x => { x with dirty := if x.dirty.contains (d * 256 + ns) then x.dirty else x.dirty ++ [d * 256 + ns] }
      .ok ((s1.count CELLAR.WRITE_CMDS 1).emit (.nvme d 1 ns (b.addr % 2 ^ 48) n (fitTo bs (n * size))))

/-- A flush of every namespace a job wrote, once its writes are done (R97). -/
def State.cellarFlush (s : State) (j : Nat) : State :=
  match s.job? j with
  | none => s
  | some job =>
    job.dirty.foldl (fun (s : State) k =>
      let d := k / 256
      let id := (Table.find? s.tiers.drives d).elim 0 fun x => Table.fresh x.cmds 4096 0
      let c : DriveCmd := { why := .flush j, nsid := k % 256, lba := 0, blocks := 0, issuedAt := s.chrono }
      (s.modTiers fun t => { t with drives := Table.upd t.drives d fun y => { y with cmds := Table.put y.cmds id c } }).emit
        (.nvme d 0 (k % 256) 0 0 [])) (s.updJob j fun x => { x with dirty := [] })

/-- The writes of one bound output at commit (R230). -/
def State.commitOut (s : State) (j : Nat) (job : Job) (st o : Nat) : Got State :=
  match (job.plan.stage st).out_ o with
  | .bind slot f _ =>
    let b := job.bind slot
    match b.kind with
    | 1 =>
      let rows := job.outRows st o
      let cols := job.plan.outCols st o
      let skip := ((columnsOf ((job.plan.declSchema slot).getD [])).take f).foldl (fun n c => n + c.length) 0
      let at_ := b.addr + 64 * skip
      let ws := (outputWrites at_ (b.dir.take 64 ++ b.dir.drop (64 + 64 * skip)) rows.length (layRows cols rows)).map fun w =>
        if w.1 = at_ + 8 then (b.addr + 8, w.2) else w
      let s1 := ws.foldl (fun s w => s.countHost j b.herd w.1 w.2.length) s
      s1.jobWrites j b.herd ws
    | 2 =>
      if b.resp then .ok s else
      let bs := Table.findD job.bytesOut (st * 8 + o) []
      (s.countHost j b.herd b.addr bs.length).jobWrite j b.herd b.addr bs
    | 3 => s.cellarWrite j b (Table.findD job.bytesOut (st * 8 + o) [])
    | _ => .ok s
  | _ => .ok s

/-- Every bound output written. -/
def State.commitAll (s : State) (j : Nat) (job : Job) : Got State :=
  (List.range job.plan.stages.length).foldl (fun g st =>
    (List.range 6).foldl (fun g o => g.bind fun s => s.commitOut j job st o) g) (.ok s)

/-- Everything that a job holds returns (R45, R86, R91, R339, R399). -/
def State.freeJob (s : State) (j : Nat) : State :=
  let handed := ((s.job? j).map fun x => sumTable x.handed).getD 0
  let s1 := ((((s.dropSlices j).leaveRelease j).spillFree j).giveExtents handed).dropPrefetch j
  let s2 := s1.modTiers fun t => { t with runaheadUsed := Table.drop t.runaheadUsed j, buildUsed := Table.drop t.buildUsed j }
  let s3 := s2.modStrainer fun x => { x with loads := x.loads.filter fun l => l.job != j }
  (s3.unstage (.job j)).modWork fun w => { w with jobs := Table.drop w.jobs j }

/-- The open contents of a failed job's outputs in device memory (R155: its output ranges are undefined). -/
def State.spoilOuts (s : State) (job : Job) : State :=
  job.plan.decls.zipIdx.foldl (fun (s : State) d =>
    let b := job.bind d.2
    if d.1.dir = 1 ∧ b.kind = 2 then
      match s.resolve b.herd b.addr with
      | some (none, l) => if spaceOf l = .host ∨ !engineMapped l b.len then s else let r := s.openBytes b.len; r.2.storeBytes l (fitTo r.1 b.len)
      | _ => s
    else s) s

/-- A job's status at its end: the note of a job that commits with one (R134, R266), else its failure. -/
def Job.endStatus (job : Job) : Nat := if job.status ≠ 0 then job.status else job.note

/-- RUN's DETAIL (Table 08-5): host-bound bytes of a job that committed, else the failure's. -/
def Job.endDetail (job : Job) : Nat := if job.status = 0 then job.hostBytes else job.detail

/-- Every part that runs elsewhere has ended (R419). -/
def Job.partsEnded (job : Job) : Bool := job.targets.all fun n => Table.has job.parts n

/-- The parts' results in a multi-node job: the first part to fail in ascending node ID gives the status (R419). -/
def State.withParts (s : State) (job : Job) : Job :=
  let own : Nat × PartResult := (s.node.id, ⟨job.endStatus, job.status == 0, job.multi, job.stage, job.endDetail⟩)
  let all := sortBy (fun (a b : Nat × PartResult) => decide (a.1 ≤ b.1)) (own :: job.parts)
  match all.find? (fun p => !p.2.committed) with
  | some p => { job with status := if p.2.status = 0 then 4 else p.2.status, stage := p.2.stage, detail := p.2.detail, multi := job.multi || all.any fun q => q.2.multi }
  | none =>
    let note := (all.find? fun p => p.2.status != 0).elim 0 (·.2.status)
    { job with note := note, hostBytes := (job.parts.foldl (fun n p => n + p.2.detail) job.hostBytes) }

/-- JOB_KILL to every other target that has not ended (R419). -/
def State.killParts (s : State) (j : Nat) (job : Job) (status : Nat) : State :=
  (job.targets.filter fun n => !Table.has job.parts n).foldl (fun (s : State) n =>
    (s.trySend (.jobKill j) (enginePkt n 0x03 0x04 (engineBody job.herdId 0xFFFF 0 0 status 0 []))).1) s

end Sys2Proof.Machine
end

