-- ==== Sys2Proof/Machine/ServeOps.lean ====
section
/-! DEFINITION. Serving: request rings, admission, responses and their doorbells, services (R465 to R483). -/

namespace Sys2Proof.Machine

open Sys2Proof.Reg

def State.serveRing (s : State) (r : Nat) : ServeRing := Table.findD s.serve.rings r {}
def State.setServeRing (s : State) (r : Nat) (x : ServeRing) : State := s.modServe fun v => { v with rings := Table.put v.rings r x }
def State.request? (s : State) (q : Nat) : Option Request := Table.find? s.serve.requests q
def State.updRequest (s : State) (q : Nat) (f : Request → Request) : State :=
  s.modServe fun v => { v with requests := Table.upd v.requests q f }

/-- A ring's registered regions, for requests and for transmission. -/
def State.reqRegion (s : State) (r : Nat) : Option Region := Table.find? s.tiers.regions (s.fld (SERVE.R_REQ_REGION.at r))
def State.txRegion (s : State) (r : Nat) : Option Region := Table.find? s.tiers.regions (s.fld (SERVE.R_TX_REGION.at r))
def State.reqDepth (s : State) (r : Nat) : Nat := 2 ^ s.fld (SERVE.R_LOG_DEPTH.at r)
def State.txDepth (s : State) (r : Nat) : Nat := 2 ^ s.fld (SERVE.R_TX_LOG_DEPTH.at r)
def State.txSlot (s : State) (r : Nat) : Nat := 2 ^ s.fld (SERVE.R_TX_LOG_SLOT.at r)

/-- Occupancy of the admission queue (R473). -/
def State.aqUsed (s : State) : Nat := (s.serve.requests.filter fun e => e.2.stored).length

/-- The fill notice of the admission queue; it has no counter of crossings (R473). -/
def State.aqNotice (s : State) : State :=
  let r := s.noticeStep 7 s.aqUsed (s.fld SERVE.MARK) (s.fld SERVE.HYST)
  if r.2 then (r.1.setFld SERVE.CROSSED 1).irqEvent 0 0x0E0 else r.1

/-- The first of a cause sets its BLOCK_ERR bit (R474). -/
def State.serveErr (s : State) (bit : Nat) : State := if (s.word 0 0x0E0 0x020).getLsbD bit then s else s.raiseOwn 0x0E0 bit

/-! The store (R467). -/

/-- MiB of the admission store. -/
def State.storeMib (s : State) : Nat := pagesMib (4096 * s.fld SERVE.QDEPTH)

/-- The store taken: in Cream, else in Skim; none where neither can hold it. -/
def State.takeStore (s : State) : Option State :=
  let n := s.storeMib
  ((s.takeCream n).map fun s1 => s1.modServe fun v => { v with store := some (n, true) }).or
    ((s.takeSkim n).map fun s1 => s1.modServe fun v => { v with store := some (n, false) })

/-- The store returned once serving has stopped and the queue is empty (R466). -/
def State.storeSettle (s : State) : State :=
  match s.serve.store with
  | none => s
  | some (n, cream) =>
    if s.bit SERVE.ENABLE ∨ s.aqUsed ≠ 0 then s
    else (if cream then s.giveCream n else s.giveSkim n).modServe fun v => { v with store := none }

/-! Responses (R475 to R481). -/

/-- The header of a response (Table 22-3). -/
def responseHeader (q : Request) (tide : Nat) : Bytes :=
  leBytes 1 q.status ++ leBytes 1 q.service ++ leBytes 1 q.ring ++ leBytes 1 0 ++ leBytes 4 q.payload.length ++ sub q.record 8 16 ++
  leBytes 8 tide ++ leBytes 2 q.stage ++ zeros 30

/-- The descriptor of a transmit slot: the ring's template with the address and the length patched (R477). -/
def State.txDescriptor (s : State) (r k len : Nat) : Bytes :=
  let size := s.fld (SERVE.R_DESC_SIZE.at r)
  let tpl := ((List.range 8).flatMap fun i => leBytes 8 (s.fld (SERVE.DESC_TPL.at (8 * r + i)))).take size
  let patch (b : Bytes) (off : Nat) (v : Bytes) : Bytes := b.take off ++ v ++ b.drop (off + v.length)
  let a := (s.fld (SERVE.R_TX_BUS_BASE.at r) + k * s.txSlot r) % 2 ^ 64
  patch (patch tpl (s.fld (SERVE.R_ADDR_OFF.at r)) (leBytes 8 a)) (s.fld (SERVE.R_LEN_OFF.at r))
    (leBytes (if s.fld (SERVE.R_LEN_WIDTH.at r) = 1 then 4 else 2) (64 + len))

/-- A response's device time counted (R480). -/
def State.countLat (s : State) (ns : Nat) : State :=
  s.count (if ns ≤ 10000 then SERVE.LAT_10 else if ns ≤ 20000 then SERVE.LAT_20 else if ns ≤ 40000 then SERVE.LAT_40 else SERVE.LAT_MORE) 1

/-- An adapter's doorbell, at once or held for the twin's cut (R123, R452). -/
def State.ringDoorbell (s : State) (addr width value : Nat) (since : List Nat) : State :=
  match s.cutTag TWIN.HOLD_SERVE with
  | some c => s.modTwin fun t => { t with outs := t.outs ++ [{ cut := c, fn := 0, addr := addr, bytes := leBytes width value, bell := true, since := since, no := t.nextOut }], nextOut := t.nextOut + 1 }
  | none => since.foldl (fun s t => s.countLat (s.chrono - t)) (s.emit (.doorbell addr width value))

/-- A request leaves the admission queue. -/
def State.dropRequest (s : State) (q : Nat) : State :=
  ((s.modServe fun v => { v with requests := Table.drop v.requests q }).aqNotice).storeSettle

/-- The request of a ring whose response is due: its oldest where it is ORDERED, else the oldest that has ended. -/
def State.dueResponse (s : State) (r : Nat) : Option (Nat × Request) :=
  let qs := s.serve.requests.filter fun e => e.2.ring == r
  if s.bit (SERVE.R_ORDERED.at r) then qs.head?.filter fun e => e.2.state == .answered
  else List.find? (fun (e : Nat × Request) => e.2.state == .answered) qs

/-- A transmit slot is free: the producer index after it would not reach the consumed index (R477). -/
def State.txFree (s : State) (r slot : Nat) : Bool := decide (slot + 1 < (s.serveRing r).head + s.txDepth r)

/-- One response written, without its doorbell. -/
def State.writeResponse (s : State) (id : Nat) (q : Request) : State :=
  match s.txRegion q.ring with
  | none => s.dropRequest id
  | some g =>
    let k := q.slot % s.txDepth q.ring
    let at_ := g.base + k * s.txSlot q.ring
    let s1 := if q.spoiled then let r := s.openBytes (s.txSlot q.ring - 64); r.2.storeBytes (at_ + 64) (fitTo r.1 (s.txSlot q.ring - 64)) else s
    let s2 := (s1.storeBytes (at_ + 64) q.payload).storeBytes at_ (responseHeader q s.tide.now)
    let s3 := (s2.writeOut 0 (s2.fld (SERVE.R_DESC_BASE.at q.ring) + k * s2.fld (SERVE.R_DESC_SIZE.at q.ring)) (s2.txDescriptor q.ring k q.payload.length))
    (s3.count SERVE.RESPONSES 1).dropRequest id

/-- The responses of a ring that are due and can be written, over `fuel` of them: the PROD times of those whose doorbell is still
to come, and the producer value. A response due while port 0's link is down is discarded (R481). -/
def State.respondGo (r : Nat) : Nat → State → List Nat → Option Nat → State × List Nat × Option Nat
  | 0, s, ts, v => (s, ts, v)
  | n + 1, s, ts, v =>
    match s.dueResponse r with
    | none => (s, ts, v)
    | some (id, q) =>
      if !s.host.p0Up then State.respondGo r n (((s.count SERVE.SHED_PATH 1).serveErr 18).dropRequest id) ts v
      else if s.txFree r q.slot then
        State.respondGo r n (s.writeResponse id q) (ts ++ [q.prodAt]) (some ((q.slot + 1) % s.txDepth r))
      else
        let x := s.serveRing r
        (if x.reading then s
         else (s.setServeRing r { x with reading := true }).emit (.hostRead 0 (iovaOf (s.fld (SERVE.R_HEAD_ADDR.at r))) 4), ts, v)

/-- A ring's responses brought up to date: those written together share one doorbell, which carries the last value (R477). -/
def State.serveSettle (s : State) (r : Nat) : State :=
  let x := State.respondGo r s.serve.requests.length s [] none
  match x.2.2 with
  | none => x.1
  | some v => x.1.ringDoorbell (x.1.fld (SERVE.R_DB_ADDR.at r)) (if x.1.fld (SERVE.R_DB_WIDTH.at r) = 1 then 8 else 4) v x.2.1

/-- A request ended with a status. -/
def State.answerRequest (s : State) (id status stage : Nat) (payload : Bytes) (spoiled : Bool) : State :=
  match s.request? id with
  | none => s
  | some q =>
    (s.updRequest id fun x => { x with
      state := .answered, status := status, stage := stage, payload := payload, spoiled := x.spoiled || spoiled }).serveSettle q.ring

/-- The job of a request. -/
def State.requestJob (s : State) (q : Nat) : Option (Nat × Job) :=
  List.find? (fun (e : Nat × Job) => e.2.origin == .serve q) s.work.jobs

/-- A request's job ended without a response of its own. -/
def State.dropRequestJob (s : State) (q : Nat) : State :=
  match s.requestJob q with
  | none => s
  | some (j, job) => (s.spoilOuts { job with binds := job.binds.map fun b => if b.resp then default else b }).freeJob j

/-- A request abandoned: its slices end, it is answered with SERVE_LATE and LEN 0 (R474). -/
def State.abandon (s : State) (id : Nat) : State :=
  match s.request? id with
  | none => s
  | some q =>
    ((((s.dropRequestJob id).count SERVE.SHED_LATE 1).serveErr 17).answerRequest id 0xC9 0xFFFF [] (q.state == .running)).placeAll

/-- A serving job ended (R475): its status, its failing stage, its payload where it committed. -/
def State.finishServe (s : State) (j id : Nat) (job : Job) : State :=
  let st := job.endStatus
  let pay := (List.range job.plan.stages.length).flatMap fun i => (List.range 6).flatMap fun o =>
    match (job.plan.stage i).out_ o with
    | .bind slot _ _ => if (job.bind slot).resp then Table.findD job.bytesOut (i * 8 + o) [] else []
    | _ => []
  let s1 := if job.status ≠ 0 then s.count SERVE.FAILED 1 else if st = 0x54 then s.count SERVE.DEFAULTED 1 else s
  (s1.freeJob j).answerRequest id st job.stage (if job.status = 0 then pay else []) (job.status ≠ 0)

/-! Admission (R471 to R473). -/

/-- A request's record meets Table 22-2 and names a registered service. -/
def State.goodRecord (s : State) (rec_ : Bytes) : Bool :=
  let len := leAt rec_ 0 2
  decide (32 ≤ len) && decide (len ≤ 4096) && byteAt rec_ 2 < 64 && byteAt rec_ 3 == 0 && allZero rec_ 24 32 &&
    (match Table.find? s.serve.services (byteAt rec_ 2) with
     | some v => !v.closing
     | none => false)

/-- The slot at CONS of a ring copied, judged, and its job started. -/
def State.admitNext (s : State) (r : Nat) (g : Region) : State :=
  let x := s.serveRing r
  let depth := s.reqDepth r
  let at_ := g.base + 0x1000 + x.cons * 0x1000
  let head := s.loadBytes at_ 32
  let len := leAt head 0 2
  let rec_ := s.loadBytes at_ (if 32 ≤ len ∧ len ≤ 4096 then len else 32)
  let cons := (x.cons + 1) % depth
  let t := Table.findD x.prodAt x.cons s.chrono
  let s1 := ((s.setServeRing r { x with cons := cons, txp := x.txp + 1, prodAt := Table.drop x.prodAt x.cons }).storeBytes (g.base + 8)
    (leBytes 8 cons)).count SERVE.REQUESTS 1
  let dl := if leAt head 4 4 = 0 then s.fld SERVE.DEF_DEADLINE_US else leAt head 4 4
  let q : Request := { ring := r, slot := x.txp, service := byteAt head 2, record := rec_, prodAt := t, deadline := t + dl * 1000 }
  let id := s.serve.next
  let put (q : Request) (s : State) : State := (s.modServe fun v => { v with requests := Table.put v.requests id q, next := id + 1 }).aqNotice
  if !s.goodRecord rec_ then ((put q s1).count SERVE.BAD_REQ 1).answerRequest id 0xCA 0xFFFF [] false
  else if s.fld SERVE.QDEPTH ≤ s.aqUsed then
    (((put { q with stored := false } s1).count SERVE.SHED_QFULL 1).serveErr 16).answerRequest id 0xC8 0xFFFF [] false
  else if (s.poisonIn at_ len).isSome ∨ (s.badWordIn at_ len).isSome then
    ((put q s1).count SERVE.FAILED 1).answerRequest id 0x41 0xFFFF [] false
  else
    match Table.find? s.serve.services q.service with
    | none => s1
    | some v =>
      let size := s.txSlot r
      let area := ((s.txRegion r).elim 0 (·.base)) + q.slot % s.txDepth r * size + 64
      let binds := v.binds.zipIdx.map fun b =>
        if b.2 = v.reqSlot then { b.1 with len := len - 32, body := some (rec_.drop 32) }
        else if b.2 = v.respSlot then { b.1 with addr := area, len := size - 64, resp := true } else b.1
      let s2 := put q s1
      let j := s2.newJob { origin := .serve id, herdId := s.node.id * 2 ^ 48 + s2.work.nextJob % 2 ^ 48, fn := 0, ring := 0, tag := 0,
                           prio := s.fld SERVE.PRIO, sliceUs := 16, leaveTicks := 0, herd := false, plan := v.plan, binds := binds, tide := s.tide.now }
      j.1.startJob j.2 [] [] []

/-! Request rings (R470, R472, R483). -/

/-- A ring's configuration passes the checks of ENABLE. -/
def State.ringOk (s : State) (r : Nat) : Bool :=
  let host (a : Nat) : Bool := spaceOf a == .host
  let size := s.fld (SERVE.R_DESC_SIZE.at r)
  let lw := if s.fld (SERVE.R_LEN_WIDTH.at r) = 1 then 4 else 2
  let within (v lo hi : Nat) : Bool := decide (lo ≤ v) && decide (v ≤ hi)
  (match s.reqRegion r with
   | some g => g.owner == 0 && g.peerWr && g.peerRd && decide (0x1000 * (s.reqDepth r + 2) ≤ g.len)
   | none => false) &&
  (match s.txRegion r with
   | some g => g.owner == 0 && g.peerRd && decide (s.txDepth r * s.txSlot r ≤ g.len)
   | none => false) &&
  within (s.fld (SERVE.R_LOG_DEPTH.at r)) 4 12 && within (s.fld (SERVE.R_TX_LOG_DEPTH.at r)) 4 12 && within (s.fld (SERVE.R_TX_LOG_SLOT.at r)) 7 16 &&
  host (s.fld (SERVE.R_DESC_BASE.at r)) && host (s.fld (SERVE.R_DB_ADDR.at r)) && host (s.fld (SERVE.R_HEAD_ADDR.at r)) &&
  (size == 16 || size == 32 || size == 64) && decide (s.fld (SERVE.R_ADDR_OFF.at r) + 8 ≤ size) && decide (s.fld (SERVE.R_LEN_OFF.at r) + lw ≤ size)

/-- An 8-byte write of PROD to the request region of an enabled ring (R472). -/
def State.takeProd (s : State) (r v : Nat) : State :=
  let x := s.serveRing r
  let depth := s.reqDepth r
  let new := v % 65536
  let grow := (new + depth - x.prod) % depth
  if depth ≤ new ∨ depth ≤ (x.prod + depth - x.cons) % depth + grow then s.raiseOwn 0x0E0 19
  else
    let ks := (List.range grow).map fun i => (x.prod + i) % depth
    s.setServeRing r { x with prod := new, prodAt := ks.foldl (fun t k => Table.put t k s.chrono) x.prodAt }

/-- The enabled ring whose PROD a write of 8 bytes at an address is. -/
def State.prodRing (s : State) (a n : Nat) : Option Nat :=
  if n = 8 then
    (List.range 16).find? fun r => s.bit (SERVE.R_ENABLE.at r) && (match s.reqRegion r with | some g => g.base == a | none => false)
  else none

/-- A ring ends without responses: its requests leave with it (R482). -/
def State.endServeRing (s : State) (r : Nat) : State :=
  let qs := s.serve.requests.filter fun e => e.2.ring == r
  let s1 := qs.foldl (fun (s : State) (e : Nat × Request) => (s.dropRequestJob e.1).dropRequest e.1) s
  (s1.setFld (SERVE.R_ENABLE.at r) 0).modServe fun v => { v with rings := Table.drop v.rings r }

/-! Services (R468, R469). -/

/-- RESULT of a service command, which ends it. -/
def State.svcResult (s : State) (res : Nat) : State := ((s.setFld SERVE.BUSY 0).setFld SERVE.DONE 1).setFld SERVE.RESULT res

/-- A stage that a service may hold (Table 22-1). -/
def serviceStage (reqSlot : Nat) (st : Stage) : Bool :=
  match st.cls with
  | 0x01 => (st.op == 4 || st.op == 5) && (match st.in_ 0 with | .bind slot _ _ => slot == reqSlot | _ => false) && !(st.in_ 1).given
  | 0x03 => true
  | 0x04 => true
  | 0x05 => st.op == 1
  | 0x07 => st.op == 4
  | 0x08 => true
  | 0x09 => st.op == 1
  | 0x0A => st.op == 1
  | 0x10 => st.flags % 2 == 0
  | _ => false

/-- The rules of R468 on a validated plan. -/
def goodService (p : Plan) (reqSlot respSlot : Nat) : Bool :=
  let writes (st : Stage) : Bool := st.outs.any fun o => match o with | .bind slot _ _ => slot == respSlot | _ => false
  let ws := p.stages.filter writes
  let d (k : Nat) : BDecl := p.decls.getD k default
  decide (reqSlot < p.decls.length) && decide (respSlot < p.decls.length) &&
  (d reqSlot).kind == 2 && (d reqSlot).dir == 0 && (d respSlot).kind == 2 && (d respSlot).dir == 1 &&
  p.stages.all (serviceStage reqSlot) && ws.length == 1 && ws.all (fun st => st.cls == 0x09 || st.cls == 0x10) &&
  p.stages.all (fun st => st.cls != 0x09 || st.out_ 1 == .none)

/-- Bytes of a local address, or of the host's memory as `host` gives it. -/
def State.bytesAt (s : State) (host : Memory) (a n : Nat) : Bytes :=
  if spaceOf a = .host then Memory.load host (iovaOf a) n else s.loadBytes a n

/-- REGISTER (R468). -/
def State.svcRegister (s : State) (host : Memory) : State :=
  let slot := s.fld SERVE.SVC
  let req := s.fld SERVE.REQ_SLOT
  let resp := s.fld SERVE.RESP_SLOT
  let nb := s.fld SERVE.NBIND
  let pa := s.fld SERVE.SVC_PLAN
  let ba := s.fld SERVE.SVC_BIND
  let entry (k : Nat) : Bytes := s.bytesAt host (ba + 32 * k) 32
  -- the entries that each request fills: BYTES with ADDR 0 and LEN 0
  let blank (k : Nat) : Bool := decide (k < nb) && byteAt (entry k) 0 == 2 && leAt (entry k) 8 8 == 0 && leAt (entry k) 16 8 == 0
  -- they take part in the checks of R243 as an entry that can be accessed
  let stand (k : Nat) (b : Bytes) : Bytes :=
    if (k = req ∨ k = resp) ∧ blank k then b.take 8 ++ leBytes 8 0x10000 ++ leBytes 8 64 ++ b.drop 24 else b
  let rd (h : Bool) (a n : Nat) : Got Bytes :=
    if !h && ba == a && n == 32 * nb then .ok ((List.range nb).flatMap fun k => stand k (entry k))
    else if spaceOf a = .host ∧ !h then .ok (Memory.load host (iovaOf a) n)
    else s.readMem ⟨.job 0, 0, h⟩ a n
  if Table.has s.serve.services slot then s.svcResult 1
  else
    match s.validate rd false pa ba nb with
    | .need .. => s.svcResult 4
    | .bad st stage _ => ((s.setFld SERVE.VSTATUS st).setFld SERVE.STAGE stage).svcResult 4
    | .ok p binds =>
      if !(blank req && blank resp && goodService p req resp) then s.svcResult 3
      else
        let size (v : Service) : Nat := 32 * v.binds.length + v.plan.params.length + 256 * v.plan.stages.length
        let v : Service := { plan := p, binds := binds, reqSlot := req, respSlot := resp }
        if 0x1000000 < s.serve.services.foldl (fun n e => n + size e.2) (size v) then s.svcResult 5
        else (s.modServe fun x => { x with services := Table.put x.services slot v }).svcResult 0

/-- A service has requests in flight. -/
def State.serviceBusy (s : State) (slot : Nat) : Bool := s.serve.requests.any fun e => e.2.service == slot && e.2.state == .running

/-- UNREGISTER begins: admission to the service stops (R469). -/
def State.svcUnregister (s : State) : State :=
  let slot := s.fld SERVE.SVC
  match Table.find? s.serve.services slot with
  | none => s.svcResult 2
  | some v =>
    (((s.modServe fun x => { x with services := Table.put x.services slot { v with closing := true }, unreg := some slot }).setFld SERVE.BUSY 1).setFld
      SERVE.DONE 0)

/-- READ: whether a slot is registered. -/
def State.svcRead (s : State) : State :=
  let has := Table.has s.serve.services (s.fld SERVE.SVC)
  (s.setFld SERVE.S_REG (ofBool has)).svcResult (if has then 0 else 2)

/-- What SVC_CMD does: a command whose OP is not 0 runs unless one runs already (R483). -/
def svcHook (host : Memory) : Hook := fun req page _ v s =>
  let op := bitsOf v 10 8
  if op = 0 then s
  else if s.bit SERVE.BUSY then s.raiseBy req page 21 0x110
  else if op = 1 then s.svcRegister host
  else if op = 2 then s.svcUnregister
  else if op = 3 then s.svcRead
  else s.svcResult 6

/-- Instances of a class in service. -/
def State.inService (s : State) (cls : Nat) : Nat := ((pagesOf cls).filter s.instanceUp).length

/-- RESERVE within its limits (R479). -/
def State.reserveOk (s : State) (v : Nat) : Bool :=
  [1, 3, 4, 7, 8, 9, 10].zipIdx.all fun c =>
    let n := v / 16 ^ c.2 % 16
    (decide (n = 0) || decide (n + 1 ≤ s.inService c.1)) &&
      decide (n ≤ if c.1 = 1 then 8 else if c.1 = 9 then 1 else if c.1 = 10 then 2 else 15)

/-- What SERVE_CFG does (R466, R467). -/
def serveCfgHook : Hook := fun req page _ v s =>
  let depth := bitsOf v 32 16
  let on := bitsOf v 0 0 = 1
  let held := s.bit SERVE.ENABLE || s.serve.store.isSome
  let s1 :=
    if depth = s.fld SERVE.QDEPTH then s
    else if held ∨ depth < 16 ∨ 65536 < depth then s.raiseBy req page 20 0x100
    else s.setFld SERVE.QDEPTH depth
  if on && !s1.bit SERVE.ENABLE then
    if s1.serve.store.isSome then (s1.setFld SERVE.ENABLE 1).placeAll
    else
      match s1.takeStore with
      | some s2 => (s2.setFld SERVE.ENABLE 1).placeAll
      | none => s1.raiseBy req page 20 0x100
  else if !on && s1.bit SERVE.ENABLE then ((s1.setFld SERVE.ENABLE 0).storeSettle).placeAll
  else s1

/-- What SERVE_RESERVE does. -/
def reserveHook : Hook := fun req page _ v s =>
  let n := bitsOf v 27 0
  if n = s.fld SERVE.RESERVE then s
  else if s.bit SERVE.ENABLE ∨ s.serve.store.isSome ∨ !s.reserveOk n then s.raiseBy req page 20 0x108
  else s.setFld SERVE.RESERVE n

/-- What a ring's first register does: ENABLE checks the ring; its other fields change only while ENABLE is 0 (R483). The word that
stood before is given. -/
def serveRingHook (r : Nat) : Hook := fun req page old v s =>
  let was := bitsOf old 57 57 = 1
  let on := bitsOf v 57 57 = 1
  let s0 := if was then s.setWord 0 0x0E0 (0x200 + 0x40 * r) old else s
  if was && on then (if old = v then s0 else s0.raiseBy req page 20 (0x200 + 0x40 * r))
  else if was then
    -- the ring stops: what it has copied is answered
    s0.setFld (SERVE.R_ENABLE.at r) 0
  else if on then
    if s0.ringOk r then
      let s1 := s0.setFld (SERVE.R_ENABLE.at r) 1
      if s1.serve.requests.any fun e => e.2.ring == r then s1 else s1.setServeRing r {}
    else s0.raiseBy req page 20 (0x200 + 0x40 * r)
  else s0

/-- A ring's other registers and its template: unchanged while the ring is enabled (R483). -/
def serveRingFixed (r off : Nat) : Hook := fun req page old v s =>
  if s.bit (SERVE.R_ENABLE.at r) ∧ old ≠ v then (s.setWord 0 0x0E0 off old).raiseBy req page 20 off else s

end Sys2Proof.Machine
end

