-- ==== Sys2Proof/Machine/Jobs.lean ====
section
/-! DEFINITION. Descriptors as they are fetched, slices from start to end, jobs from their last slice to their completion
(R150 to R155, R165 to R172, R189, R419). -/

namespace Sys2Proof.Machine

open Sys2Proof.Reg

/-! Fetching (R150, R165, R166). -/

/-- The lowest descriptor of a ring whose copy was discarded. -/
def State.staleDesc (s : State) (fn ring : Nat) : Option Nat :=
  (List.find? (fun (e : Nat × Desc) => e.2.fn == fn && e.2.ring == ring && !e.2.old && e.2.stale) s.work.descs).map (·.1)

/-- Whether a ring has a descriptor that can be read now. -/
def State.fetchable (s : State) (fn ring : Nat) : Bool :=
  let q := s.sq fn ring
  let able := q.enabled && !q.faulted && !q.reading && s.tiersReady && s.fnEnabled fn && !(s.func fn).d3hot && !s.hostAway fn &&
    !s.bit FAULT.NODE_FATAL && s.fld ROLAR.STATE == 1
  able && ((s.staleDesc fn ring).isSome ||
    (decide (q.head ≠ q.tail) && decide (q.inflight < s.ringFld fn ring RING.WINDOW) && decide (s.work.descs.length < 65536) &&
      -- member i of a chain is fetched once member i - 5 has ended
      (!q.lastChain || decide (q.chainLen < 5) || decide (q.chainLen ≤ q.chainEnded + 4))))

/-- The ring whose turn it is in the round robin. -/
def State.turnRing (s : State) : Option Nat :=
  let ks := (s.work.sqs.filter fun e => s.fetchable (e.1 / 64) (e.1 % 64)).map (·.1)
  match ks.find? fun k => decide (s.work.lastRing < k) with
  | some k => some k
  | none => ks.head?

/-- A ring's next descriptor read is issued. -/
def State.fetchDesc (s : State) (fn ring : Nat) : State :=
  if s.turnRing = some (ringKey fn ring) then
    let q := s.sq fn ring
    let again := s.staleDesc fn ring
    let slot := match again.bind s.desc? with
      | some d => d.seq % s.sqDepth fn ring
      | none => q.head
    let a := s.ringFld fn ring RING.SQ_BASE_ADDR + 64 * slot
    let s1 := (s.setSq fn ring { q with reading := true, again := again }).modWork fun w => { w with lastRing := ringKey fn ring }
    if s.ringFld fn ring RING.SQ_BASE_LOC = 1 then s1 else s1.emit (.hostRead fn a 64)
  else s

/-- A descriptor read has failed: the ring stops at the slot (R172). -/
def State.fetchFailed (s : State) (fn ring : Nat) : State :=
  (s.setSq fn ring { s.sq fn ring with reading := false, again := none, faulted := true }).raise fn (ringPage ring) 16 0xFF 0 (ringPage ring)

/-- What an accepted descriptor's flow makes of it: its status and DETAIL where it ends at once, else the item (R189). -/
def State.flowTake (s : State) (fn fl seq id : Nat) : Sum (Nat × Nat) State :=
  match Table.find? s.rennet.flows fl with
  | none => .inl (0x5C, 0)
  | some f =>
    if 3072 ≤ fl ∨ f.fn ≠ fn then .inl (0x5C, 0)
    else
      let d := (seq + 2 ^ 32 - f.next) % 2 ^ 32
      if 2 ^ 31 ≤ d then .inl (0x5D, 0)
      else if f.items.any (fun i => i.seq == seq) then .inl (0x5D, 1)
      else
        let f' := { f with items := f.items ++ [{ seq := seq, desc := id }] }
        .inr (s.modRennet fun r => { r with flows := Table.put r.flows fl f' })

/-- The parts of a descriptor that its bytes give. -/
def State.readDesc (s : State) (d : Desc) (raw : Bytes) : Desc :=
  let bad := badDesc d.fn raw
  { d with
    raw := raw, bad := bad, chain := bad != 1 && dChain raw, stale := false,
    prio := if dPrio raw = 0xFF then s.ringFld d.fn d.ring RING.PRIO else dPrio raw }

/-- A descriptor's place in its flow, taken as its bytes are decoded. -/
def State.joinFlow (s : State) (id : Nat) : State :=
  match s.desc? id with
  | none => s
  | some d =>
    if d.bad = 0 ∧ dType d.raw = 1 then
      match dFlow d.raw with
      | none => s
      | some (fl, seq) =>
        match s.flowTake d.fn fl seq id with
        | .inl x => s.markEnded id x.1 0xFFFF x.2 false false
        | .inr s1 => s1.updDesc id fun y => { y with flow := some (fl, seq), heldFlow := true }
    else s

/-- A new descriptor taken from the slot at HEAD. -/
def State.takeDesc (s : State) (fn ring : Nat) (raw : Bytes) : State :=
  let q := s.sq fn ring
  let id := s.work.nextDesc
  let d0 : Desc := {
    fn := fn, ring := ring, seq := q.seq, cq := s.ringFld fn ring RING.CQ_SEL, raw := raw, fetchedAt := s.chrono, tide := s.tide.now,
    unordered := s.ringFld fn ring RING.UNORDERED = 1, sliceUs := s.ringFld fn ring RING.SLICE_US,
    member := q.lastChain, predDone := q.lastChain && q.lastDone, skip := q.lastChain && q.lastDone && q.lastFailed }
  let d := s.readDesc d0 raw
  let q' := { q with
    head := (q.head + 1) % s.sqDepth fn ring, seq := (q.seq + 1) % 2 ^ 32, reading := false, again := none, inflight := q.inflight + 1,
    lastChain := d.chain, lastDone := false, lastFailed := false,
    chainLen := if q.lastChain then q.chainLen + 1 else if d.chain then 1 else 0,
    chainEnded := if q.lastChain then q.chainEnded else 0 }
  let s1 := (s.setSq fn ring q').countFn fn (RING.FETCHED.on (ringPage ring)) 1
  ((s1.modWork fun w => { w with descs := Table.put w.descs id d, nextDesc := id + 1 }).joinFlow id).ringSettle

/-- A discarded copy replaced by what memory holds now (R166). -/
def State.retakeDesc (s : State) (id : Nat) (raw : Bytes) : State :=
  match s.desc? id with
  | none => s
  | some d =>
    let q := s.sq d.fn d.ring
    let leave := match d.flow with
      | some f => s.modRennet fun r => { r with flows := Table.upd r.flows f.1 fun x => { x with items := x.items.filter fun i => i.desc != id } }
      | none => s
    let d' := { leave.readDesc d raw with flow := none, heldFlow := false }
    let last := decide ((d.seq + 1) % 2 ^ 32 = q.seq)
    let s1 := leave.setSq d.fn d.ring { q with reading := false, again := none, lastChain := if last then d'.chain else q.lastChain }
    let s2 := s1.modWork fun w => { w with descs := Table.each w.descs fun i (e : Desc) =>
      if i = id then d'
      else if e.fn = d.fn ∧ e.ring = d.ring ∧ e.old = d.old ∧ e.seq = (d.seq + 1) % 2 ^ 32 then { e with member := d'.chain }
      else e }
    (s2.joinFlow id).ringSettle

/-- A descriptor read has come back: its bytes, or its failure. -/
def State.fetchDone (s : State) (fn ring : Nat) (bytes : Bytes) (ok : Bool) : State :=
  let q := s.sq fn ring
  if !q.reading then s
  else
    let slot := match q.again.bind s.desc? with
      | some d => d.seq % s.sqDepth fn ring
      | none => q.head
    let off := s.ringFld fn ring RING.SQ_BASE_ADDR + 64 * slot
    let raw := if s.ringFld fn ring RING.SQ_BASE_LOC = 1 then Memory.load s.host.ringStore (storeKey fn off) 64 else fitTo bytes 64
    if !q.enabled then s.setSq fn ring { q with reading := false, again := none }
    else if !ok then s.fetchFailed fn ring
    else
      match q.again with
      | some id => s.retakeDesc id raw
      | none => s.takeDesc fn ring raw

/-- A descriptor of a type starts: the change that its start makes. -/
def State.startDesc (s : State) (id typ : Nat) (f : State → Desc → State) : State :=
  match s.desc? id with
  | none => s
  | some d =>
    if decide (dType d.raw = typ) && d.bad == 0 && s.mayStart id d then
      f (s.updDesc id fun x => { x with state := .started, startedAt := s.chrono }) d
    else s

/-! Slices (R86, R168 to R170). -/

/-- Memory errors that a slice's reads meet: the address, and whether the error is uncorrectable (R84, R89). -/
def State.memFlaw (s : State) (a : Nat) (ue : Bool) : State :=
  match spaceOf a with
  | .vat =>
    if ue then
      let w := a / 8 * 8
      s.modTiers fun t => { t with badWords := if t.badWords.contains w then t.badWords else w :: t.badWords }
    else ((s.count VAT.CE_COUNT 1).raiseOwn 0x060 16).corrected
  | .cream => if ue then s.tierUe (a / 64 * 64) else s.tierCe true
  | .skim => if ue then s.tierUe (a / 64 * 64) else s.tierCe false
  | _ => s

/-- The leave that a slice's heavy work needs, where the model knows that it is heavy: dynamic tables of Churn, a Press build,
writes of a Cellar binding (R44, R45). -/
def needsLeave (job : Job) (x : Slice) : Nat :=
  let st := job.plan.stage x.stage
  let cellar := st.outs.any fun o => match o with | .bind slot _ _ => (job.bind slot).kind == 3 | _ => false
  if st.cls = 2 ∧ st.op = 2 ∧ chDynamic (job.plan.block st) then 1
  else if st.cls = 6 ∧ (job.engOf x.stage).phase = 0 then 2
  else if cellar then 4
  else 0

/-- A slice may start: it is at the head of its instance, which is free, and it holds its leave. -/
def State.sliceMay (s : State) (id : Nat) (x : Slice) (job : Job) : Bool :=
  x.state == .queued && !x.ran && s.headSlice x.page == some id && s.instanceUp x.page && (s.page 0 x.page).resetAt.isNone &&
    (x.page == 0x051 || s.inFlight x.page == 0) &&
    (s.servingJob x.job || needsLeave job x == 0 || s.holdsLeave x.job (needsLeave job x) x.page)

/-- A slice runs with the extents it holds. -/
def State.sliceRun (s : State) (id : Nat) : State :=
  (s.updSlice id fun y => { y with state := .running, startedAt := s.chrono, wants := 0 }).sliceGo id

/-- A slice starts: the units it covers, those that its time reaches, the extents that its working set takes. -/
def State.sliceStart (s : State) (id units reach wants : Nat) (flaws : List (Nat × Bool)) : State :=
  match s.slice? id with
  | none => s
  | some x =>
    match s.job? x.job with
    | none => s
    | some job =>
      if s.sliceMay id x job then
        let n := max 1 units
        let done := max 1 (min n reach)
        let w := min 256 (max 1 wants)
        let s1 := flaws.foldl (fun s f => s.memFlaw f.1 f.2) s
        let first := (job.engOf x.stage).consumed
        let set (y : Slice) : Slice := { y with first := first, count := done, left := n - done }
        if s1.tiers.extentWaits.isEmpty ∧ w ≤ s1.sliceFree then
          ((s1.modTiers fun t => { t with sliceUsed := t.sliceUsed + w }).updSlice id fun y => { set y with extents := w }).sliceRun id
        else
          ((s1.count VAT.ALLOC_WAITS 1).modTiers fun t => { t with extentWaits := t.extentWaits ++ [id] }).updSlice id fun y =>
            { set y with state := .waitExtents, wants := w }
      else s

/-- The slice that has waited longest for extents gets them and starts (R86). -/
def State.extentGrant (s : State) : State :=
  match s.tiers.extentWaits with
  | [] => s
  | id :: rest =>
    match s.slice? id with
    | none => s.modTiers fun t => { t with extentWaits := rest }
    | some x =>
      if x.wants ≤ s.sliceFree then
        ((s.modTiers fun t => { t with sliceUsed := t.sliceUsed + x.wants, extentWaits := rest }).updSlice id fun y =>
          { y with extents := x.wants }).sliceRun id
      else s

/-- The stages that read a stage's output. -/
def consumers (p : Plan) (i : Nat) : List Nat :=
  (List.range p.stages.length).filter fun k => (p.stage k).ins.any fun o => match o with | .stage _ r _ _ => r == i | _ => false

/-- Output extents whose last consumer has ended return to the pool (R86). -/
def State.returnExtents (s : State) (j : Nat) : State :=
  match s.job? j with
  | none => s
  | some job =>
    job.handed.foldl (fun (s : State) e =>
      if (consumers job.plan e.1).all job.ended.contains then
        (s.giveExtents e.2).updJob j fun x => { x with handed := Table.drop x.handed e.1 }
      else s) s

/-- SLICE_SPLITS of an engine's page. -/
def splitsField (cls : Nat) : Option Field :=
  match cls with
  | 0x01 => some INTAKE.SLICE_SPLITS
  | 0x02 => some CHURN.SLICE_SPLITS
  | 0x03 => some SEPARATOR.SLICE_SPLITS
  | 0x04 => some HASH.SLICE_SPLITS
  | 0x05 => some STRAINER.SLICE_SPLITS
  | 0x06 => some PRESS.SLICE_SPLITS
  | 0x07 => some RIPENER.SLICE_SPLITS
  | 0x08 => some NORMALISER.SLICE_SPLITS
  | 0x09 => some CRATE.SLICE_SPLITS
  | 0x0A => some LADLE.SLICE_SPLITS
  | _ => none

/-- A slice that has run its work ends: the events of a FEED are applied, `keep` of its extents pass to its consumers, the job's next
slices join. -/
def State.sliceDone (s : State) (id keep : Nat) : State :=
  match s.slice? id, s.sliceCtx id with
  | some x, some c =>
    let end_ (s : State) : State :=
      let k := if (consumers c.plan c.stage).isEmpty then 0 else min keep x.extents
      let s1 := (s.updSlice id fun y => { y with extents := y.extents - k }).updJob c.job fun y =>
        { y with handed := if k = 0 then y.handed else Table.put y.handed c.stage (Table.findD y.handed c.stage 0 + k) }
      ((s1.endSlice id).returnExtents c.job).placeAll
    if c.st.cls = 7 ∧ c.st.op = 2 then
      match feedApply s c with
      | .done s1 _ => end_ s1
      | .failed s1 st d => (s1.failSlice id st d).placeAll
      | .need _ a l => s.snoopFor (.slice id) a l
    else end_ s
  | _, _ => s

/-- A slice ends with its work done. -/
def State.sliceEnd (s : State) (id keep : Nat) : State :=
  match s.slice? id with
  | none => s
  | some x => if x.ran ∧ x.left = 0 then s.sliceDone id keep else s

/-- A slice ends at its bound: what is left becomes a new slice at the back of its level (R170). -/
def State.sliceBound (s : State) (id keep : Nat) : State :=
  match s.slice? id with
  | none => s
  | some x =>
    if x.ran ∧ x.left ≠ 0 then
      let s1 := match (s.sliceCtx id).bind fun c => splitsField c.st.cls with
        | some f => s.count (f.on x.page) 1
        | none => s
      s1.sliceDone id keep
    else s

/-! The end of a job (R155, R419). -/

/-- PART_END of a part of another node's job (Table 20-10). -/
def State.sendPartEnd (s : State) (node : Nat) (job : Job) : State :=
  let a0 := job.endStatus % 256 + 256 * ofBool (job.status = 0) + 512 * ofBool job.multi + 2 ^ 16 * job.stage
  (s.trySend .partEnd (enginePkt node 0x03 0x03 (engineBody job.herdId 0xFFFF 0 0 a0 job.endDetail []))).1

/-- JOB_KILLs of a part that has ended are answered (Table 20-10). -/
def State.killsAnswered (s : State) (id : Nat) : State :=
  let ps := s.fabric.kills.filter fun p => p.job == id
  ps.foldl (fun (s : State) p => (s.marked p 0).reply p 0 0 0 []) (s.modFabric fun f => { f with kills := f.kills.filter fun p => p.job != id })

/-- A job whose work is over leaves: its end told to its ring, its request or the node that sent it. -/
def State.finishJob (s : State) (j : Nat) : State :=
  match s.job? j with
  | none => s
  | some own =>
    match own.origin with
    | .serve q => (s.finishServe j q own).placeAll
    | .part node _ => (((s.sendPartEnd node own).freeJob j).placeAll).killsAnswered own.herdId
    | .ring id =>
      let job := s.withParts own
      let ok := job.status = 0
      let s1 := match job.flow with
        | some f => s.flowEnd f.1 f.2 ok
        | none => s
      let s2 := s1.updDesc id fun d => { d with split := job.issued }
      let s3 := s2.markEnded id job.endStatus (if ok then 0xFFFF else job.stage) job.endDetail job.multi (!ok && job.flow.isSome)
      ((s3.freeJob j).ringSettle).placeAll

/-- A job that has written its outputs ends once they are visible: answers of other nodes, drive writes, their flushes (R97, R155); a
multi-node one once every part has ended (R419). -/
def State.jobSettle (s : State) (j : Nat) : State :=
  match s.job? j with
  | none => s
  | some job =>
    if !job.written ∨ s.jobRequests j ≠ 0 ∨ s.driveBusy j then s
    else if !job.dirty.isEmpty then s.cellarFlush j
    else if !job.partsEnded then s
    else s.finishJob j

/-- Every stage of a job has ended. -/
def Job.allEnded (job : Job) : Bool := (List.range job.plan.stages.length).all job.ended.contains

/-- Rows that an Intake stage delivers are counted as its job commits. -/
def State.intakeRows (s : State) (job : Job) : State :=
  (List.range job.plan.stages.length).foldl (fun s i =>
    if (job.plan.stage i).cls = 1 then
      (List.range 16).foldl (fun (s : State) k =>
        let n := Table.findD (job.engOf i).nums (10 + k) 0
        if n = 0 then s else s.count (INTAKE.ROWS_OUT.on (0x070 + k)) n) s
    else s) s

/-- A job that has failed is over once its slices in progress are: its outputs are open, its other parts are killed. -/
def State.jobFailed (s : State) (j : Nat) (job : Job) : State :=
  let s1 := (s.spoilOuts { job with binds := job.binds.map fun b => if b.resp then default else b }).killParts j job job.status
  (s1.updJob j fun x => { x with written := true, dirty := [], ready := [] }).jobSettle j

/-- A job's last slice has ended: it commits and ends, or ends with its failure. -/
def State.jobComplete (s : State) (j : Nat) : State :=
  match s.job? j with
  | none => s
  | some job =>
    if job.written ∨ s.jobBusy j then s
    else if job.status ≠ 0 then s.jobFailed j job
    else if !job.allEnded ∨ !job.ready.isEmpty then s
    else
      match s.commitAll j job with
      | .ok s1 =>
        match s1.job? j with
        | none => s1
        | some y =>
          if y.parkFull then
            let s2 := s1.failJob j 0x51 0xFFFF 0 0x00A
            match s2.job? j with
            | some z => s2.jobFailed j z
            | none => s2
          else (((s1.drainCommit y).intakeRows y).updJob j fun x => { x with written := true }).jobSettle j
      | .fail st d =>
        let s2 := s.failJob j st 0xFFFF d 0x051
        match s2.job? j with
        | some z => s2.jobFailed j z
        | none => s2
      | .need _ a l => s.snoopFor (.job j) a l

/-- A job killed at once with a status (R52, R140, R419). -/
def State.killJob (s : State) (j status : Nat) : State :=
  match s.job? j with
  | none => s
  | some job =>
    let s1 := s.dropSlices j
    let s2 := s1.modFabric fun f => { f with
        reqs := f.reqs.filter fun e => e.2.why != .jobWrite j, waitReqs := f.waitReqs.filter fun w => w.why != .jobWrite j }
    let s3 := (s2.spoilOuts { job with binds := job.binds.map fun b => if b.resp then default else b }).killParts j job status
    let s4 := s3.updJob j fun x => { x with status := if x.status = 0 then status else x.status, targets := [], written := true }
    s4.finishJob j

/-- A fetched descriptor whose job has not started, or which is no RUN, killed with a status. -/
def State.killDesc (s : State) (id status : Nat) : State :=
  match s.desc? id with
  | none => s
  | some d =>
    if d.state = .ended then s
    else
      match List.find? (fun (e : Nat × Job) => e.2.origin == .ring id) s.work.jobs with
      | some (j, _) => s.killJob j status
      | none =>
        let s1 := match d.flow with
          | some f => s.flowEnd f.1 f.2 false
          | none => s
        ((s1.unstage (.desc id)).markEnded id status 0xFFFF 0 false d.flow.isSome).ringSettle

end Sys2Proof.Machine
end

