-- ==== Sys2Proof/Machine/TwinOps.lean ====
section
/-! DEFINITION. The twin link, held outputs and their release, the loss of the twin (R448, R452 to R454). -/

namespace Sys2Proof.Machine

open Sys2Proof.Reg

/-- The link that TWIN_CFG.LINK names (R448, Table 02-12). -/
def State.twinLink (s : State) : Option Nat :=
  let n := if s.fld TWIN.LINK = 7 then s.fld GLOBAL.TWIN_SEL else s.fld TWIN.LINK
  if n < 6 then some n else if n = 7 then some 5 else none

/-- One output that waits for a cut. -/
inductive Held where
  | out (o : HeldWriteOut)
  | ack (h : HeldAck)
  | desc (id : Nat)

/-- The held outputs that may leave now, in the order in which they were produced (R452). -/
def State.heldNow (s : State) : List (Nat × Held) :=
  let os := (s.twin.outs.filter fun o => s.released (some o.cut)).map fun o => (o.no, Held.out o)
  let acks := (s.twin.acks.filter fun h => s.released (some h.cut)).map fun h => (h.no, Held.ack h)
  let ds := (s.work.descs.filter fun (e : Nat × Desc) => e.2.state == .ended && e.2.heldCut.isSome && s.released e.2.heldCut).map fun
    (e : Nat × Desc) => (e.2.heldNo, Held.desc e.1)
  sortBy (fun (a b : Nat × Held) => decide (a.1 ≤ b.1)) (os ++ acks ++ ds)

/-- A ready word leaves: into memory here, to its host or the park, to another node. -/
def State.sendReady (s : State) (o : HeldWriteOut) : State :=
  match o.node with
  | some n => (s.sendWrites (.jobWrite o.job) n o.addr o.bytes).1
  | none =>
    if spaceOf o.addr = .host ∧ s.hostAway o.fn then (s.parkWrite o.fn o.ring o.tag (iovaOf o.addr) o.bytes).getD s
    else s.writeOut o.fn o.addr o.bytes

/-- One held output leaves. -/
def State.letGo (s : State) : Held → State
  | .out o =>
    if o.bell then o.since.foldl (fun s t => s.countLat (s.chrono - t)) (s.emit (.doorbell o.addr o.bytes.length (leNat o.bytes)))
    else s.sendReady o
  | .ack h =>
    let p := h.pkt
    (s.answer p 0x83 p.status p.body).marked p p.status
  | .desc id =>
    let s1 := s.updDesc id fun d => { d with heldCut := none }
    match s1.desc? id with
    | none => s1
    | some d => if s1.writable id d then (if s1.parks d then s1.parkCompletion id d else s1.writeCompletion id d) else s1

/-- Every held output whose cut is acknowledged, or that is no longer held, leaves (R452, R454). -/
def State.releaseHeld (s : State) : State :=
  let hs := s.heldNow
  let s1 := (s.count TWIN.HELD_RELEASED hs.length).modTwin fun t => { t with
    outs := t.outs.filter fun o => !s.released (some o.cut), acks := t.acks.filter fun h => !s.released (some h.cut) }
  (hs.foldl (fun s h => s.letGo h.2) s1).ringSettle

/-- Outputs that wait (HELD of MIRROR_STAT). -/
def State.heldCount (s : State) : Nat :=
  s.twin.outs.length + s.twin.acks.length + (s.work.descs.filter fun (e : Nat × Desc) => e.2.state == .ended && e.2.heldCut.isSome).length

/-- Every MIRROR_CUT that waits ends with a status and a DETAIL (R453). -/
def State.endCuts (s : State) (p : CutWait → Bool) (status : Nat) (detail : CutWait → Nat) : State :=
  let ws := s.twin.waits.filter p
  ws.foldl (fun s w => s.endDesc w.desc status 0xFFFF (detail w) false) (s.modTwin fun t => { t with waits := t.waits.filter fun w => !p w })

/-- The pair is lost: DEGRADED (R454). -/
def State.degrade (s : State) : State :=
  if s.twin.paired && !s.twin.degraded then
    let s1 := ((s.modTwin fun t => { t with degraded := true, asked := false }).count TWIN.TWIN_LOSSES 1).raiseOwn 0x0DA 16
    let s2 := s1.modFabric fun f => { f with
      reqs := f.reqs.filter fun e => e.2.why != .mirror, waitReqs := f.waitReqs.filter fun w => w.why != .mirror }
    (s2.endCuts (fun _ => true) 0xC1 (fun _ => 0)).releaseHeld
  else s

end Sys2Proof.Machine
end

