-- ==== Sys2Proof/Machine/LinkOps.lean ====
section
/-! DEFINITION. Route changes, link states, training, CONFIG and AUTH, flits in and out (R404 to R413, R425 to R433). -/

namespace Sys2Proof.Machine

open Sys2Proof.Reg

/-- The page of a link. -/
def zpage (k : Nat) : Nat := 0xD0 + k

/-! Messages to the lead. -/

/-- The body of LINK_STATE (R432). -/
def linkStateBody (r : LinkReport) : Bytes :=
  leBytes 1 4 ++ leBytes 2 r.node ++ leBytes 1 r.face ++ leBytes 1 r.state ++ leBytes 2 r.partner ++ leBytes 1 r.partnerFace

def linkReportOf (b : Bytes) : LinkReport := ⟨leAt b 1 2, byteAt b 3, byteAt b 4, leAt b 5 2, byteAt b 7⟩

/-- The body of ROUTE_SET (R433). -/
def routeBody (c : RouteChange) : Bytes :=
  leBytes 1 5 ++ leBytes 1 c.kind ++ leBytes 2 0 ++ leBytes 4 c.epoch ++ leBytes 8 c.effective ++ leBytes 2 c.links.length ++
  c.links.flatMap fun e => leBytes 2 e.1 ++ leBytes 1 e.2 ++ leBytes 1 0

def routeOf (b : Bytes) : RouteChange :=
  ⟨byteAt b 1, leAt b 4 4, leAt b 8 8, (List.range (leAt b 16 2)).map fun i => (leAt b (18 + 4 * i) 2, byteAt b (20 + 4 * i))⟩

/-- The body of ROUTE_ACK (Table 20-13). -/
def routeAckBody (node epoch : Nat) : Bytes := leBytes 1 6 ++ leBytes 1 0 ++ leBytes 2 node ++ leBytes 4 epoch

/-- The body of LEAD_CLAIM (Table 21-4). -/
def claimBody (id x y z : Nat) : Bytes := leBytes 1 0x20 ++ leBytes 1 0 ++ leBytes 2 id ++ leBytes 1 x ++ leBytes 1 y ++ leBytes 1 z

/-- The body of HERD_FORM. -/
def formBody (lead sender x y z serial : Nat) : Bytes :=
  leBytes 1 0x21 ++ leBytes 1 0 ++ leBytes 2 lead ++ leBytes 2 sender ++ leBytes 1 x ++ leBytes 1 y ++ leBytes 1 z ++ zeros 3 ++ leBytes 4 serial

/-! Link states (R405, R409, R432). -/

/-- This node's link that a link of the map is: its − or + end lies here. -/
def State.ownFace (s : State) (n d : Nat) : Option Nat :=
  if n = s.node.id then some (2 * d) else if s.neighbour s.node.id d true = n then some (2 * d + 1) else none

/-- The name of this node's link in the map. -/
def State.linkName (s : State) (k : Nat) : Nat × Nat :=
  (if k % 2 = 0 then s.node.id else s.neighbour s.node.id (k / 2) true, k / 2)

/-- What this node tells the lead of a link. -/
def State.linkReport (s : State) (k st : Nat) : LinkReport :=
  let l := s.link k
  ⟨s.node.id, k, st, if l.partnerNodeValid then l.partnerNode else 0xFFFF, l.partnerFace⟩

/-- A link that the twin pair stands on has left ACTIVE (R454). -/
def State.twinLinkLeft (s : State) (k : Nat) : State := if s.twinLink = some k then s.degrade else s

/-- A link whose service was ended reads OOS once it is out of the map and its replay buffer is empty (R432). -/
def State.oosSettle (s : State) (k : Nat) : State :=
  let l := s.link k
  let n := s.linkName k
  if l.leaving && l.state != 4 && l.replay.isEmpty && !(s.node.valid && s.fabric.map.contains (n.1 * 4 + n.2)) then
    s.setLink k { l with state := 4, leaving := false, queue := [] }
  else s

/-- A link's service as an applied route change has it (R405, R433). -/
def State.serveLink (s : State) (k : Nat) (add : Bool) : State :=
  let l := s.link k
  if add then
    if l.leaving || l.partnerLevel != Config.protocolLevel then s
    else if l.state = 2 then (s.setLink k { l with state := 3 }).linkPump k l.queue.length
    else if l.state = 5 then s.setLink k { l with before := 3 }
    else s
  else if l.state = 3 then ((s.setLink k { l with state := 2 }).twinLinkLeft k).oosSettle k
  else if l.state = 5 then (s.setLink k { l with before := 2 }).oosSettle k
  else s.oosSettle k

/-- A route change applied (R433). -/
def State.applyRoute (s : State) (c : RouteChange) : State :=
  let keys := c.links.map fun e => e.1 * 4 + e.2
  let map := s.fabric.map.filter fun k => !keys.contains k
  let map' := if c.kind = 1 then keys.foldl (fun m k => if m.contains k then m else insertBy (fun a b => decide (a ≤ b)) k m) map else map
  let s1 := s.modFabric fun f => { f with map := map', pendingRoutes := f.pendingRoutes.filter fun r => r.epoch != c.epoch }
  let s2 := c.links.foldl (fun s e =>
    match s.ownFace e.1 e.2 with
    | some k => s.serveLink k (c.kind == 1)
    | none => s) s1
  (s2.setFld ROUTE.EPOCH (max c.epoch (s2.fld ROUTE.EPOCH))).setFld ROUTE.EPOCH_TIDE s2.tide.now

/-- A route change received or issued here: applied at once where its tide has come, else held for it. One EPOCH is taken once. -/
def State.routeHere (s : State) (c : RouteChange) : State :=
  if s.fabric.seenEpochs.contains c.epoch then s
  else
    let s1 := s.modFabric fun f => { f with seenEpochs := c.epoch :: f.seenEpochs }
    if c.effective ≤ s.tide.now then s1.applyRoute c
    else s1.modFabric fun f => { f with pendingRoutes := insertBy (fun a b => decide (a.epoch ≤ b.epoch)) c f.pendingRoutes }

/-- The lead issues a route change, 1,000 links at a time (R433). -/
def State.issueRoute (s : State) (kind eff : Nat) : Nat → List (Nat × Nat) → State
  | 0, _ => s
  | n + 1, links =>
    if links.isEmpty then s
    else
      let c : RouteChange := ⟨kind, s.fabric.nextEpoch, eff, links.take 1000⟩
      let os := s.others
      let s1 := s.modFabric fun f => { f with
        nextEpoch := f.nextEpoch + 1, routeWaits := if os.isEmpty then f.routeWaits else f.routeWaits ++ [⟨c, os⟩] }
      let s2 := os.foldl (fun s m => s.sendCtrl m (routeBody c)) s1
      (s2.routeHere c).issueRoute kind eff n (links.drop 1000)

/-- This node's ID, or the one it has derived and does not yet hold. -/
def State.ownId (s : State) : Nat := if s.node.valid then s.node.id else s.herd.derived.getD s.node.id

/-- HERD_FORM put on one of this node's links (R440, R443). -/
def State.formOn (s : State) (k : Nat) : State :=
  s.sendOnLink k 0xFFFF (formBody s.herd.lead s.ownId s.herd.shape.1 s.herd.shape.2.1 s.herd.shape.2.2 s.herd.serial)

/-- What the lead makes of a link's report: a removal, an addition once both ends are SPARE, a HERD_FORM to a node that is no
member (R432, R433, R443). -/
def State.linkHeard (s : State) (r : LinkReport) : State :=
  let s := s.modFabric fun f => { f with reports := (f.reports.filter fun x => !(x.node == r.node && x.face == r.face)) ++ [r] }
  let d := r.face / 2
  let neg := r.face % 2 == 1
  let far := s.neighbour r.node d neg
  let name := if neg then far else r.node
  let known := s.fabric.map.contains (name * 4 + d) ||
    s.fabric.pendingRoutes.any fun c => c.kind == 1 && c.links.contains (name, d)
  let mate := s.fabric.reports.any fun x =>
    x.node == far && x.face == (if neg then r.face - 1 else r.face + 1) && x.state == 2 && x.partner == r.node && x.partnerFace == r.face
  if r.state = 2 then
    if known then s
    else if s.fabric.members.contains far && r.partner == far then
      if mate then s.issueRoute 1 (s.nextBoundary s.tide.now) 1 [(name, d)] else s
    else if r.node = s.node.id then s.formOn r.face
    else s.sendCtrl r.node (formBody s.herd.lead r.node (s.size 0) (s.size 1) (s.size 2) 0)
  else if known then s.issueRoute 0 s.tide.now 1 [(name, d)]
  else s

/-- A change of a link among DOWN, SPARE and OOS told to the lead (R432). -/
def State.tellLink (s : State) (k st : Nat) : State :=
  if !s.node.valid then s
  else
    let r := s.linkReport k st
    if s.isLead then s.linkHeard r else s.sendCtrl s.herd.lead (linkStateBody r)

/-- A link goes DOWN: what its links held is lost, and the cause writes its record (R410). -/
def State.linkDrop (s : State) (k : Nat) (record : State → State) : State :=
  let l := s.link k
  if l.state = 0 ∨ l.state = 4 then s
  else
    let l' : Link := {
      lanesOk := l.lanesOk, polInv := l.polInv, eqStored := l.eqStored, fullTrain := l.fullTrain, leaving := l.leaving,
      downAt := s.chrono, mayTrain := false }
    let s1 := ((s.setLink k l').count (ZLINK.DOWNS.on (zpage k)) 1).raiseOwn (zpage k) 18
    let s2 := record s1
    let s3 := if l.state = 3 then s2.twinLinkLeft k else s2
    ((if l.trained then s3.tellLink k 0 else s3).oosSettle k)

/-- A link goes DOWN by a failure; one that had trained writes a class 2 record. -/
def State.linkDown (s : State) (k : Nat) : State :=
  s.linkDrop k fun s1 => if (s.link k).trained then s1.fault 2 0x13 0 (zpage k) 0 0 else s1

/-- The link starts to train (R405). -/
def State.linkTrain (s : State) (k : Nat) : State :=
  let l := s.link k
  if l.state == 0 && !l.leaving && !s.pageOos (zpage k) && bitAt s.pins.cables k && s.good 5 && s.power.released &&
    (l.mayTrain || decide (l.downAt + 1000000000 ≤ s.chrono)) then
    s.setLink k { l with state := 1, mayTrain := false, equalised := false, configured := false, secure := false,
                         authChain := [], authKey := [], authSig := [], authTotal := 0, gcmTx := 0, gcmRx := 0 }
  else s

/-- The payload of the active calibration slot. -/
def Cal.payload (c : Cal) : Bytes :=
  if c.active = 1 then (c.slotA.map (·.payload)).getD [] else if c.active = 2 then (c.slotB.map (·.payload)).getD [] else []

/-- Training results in effect; a write falls due where they differ from the active slot (R54). -/
def State.calLearn (s : State) (results : Bytes) (full : Bool) : State :=
  s.modCal fun c => { c with current := results, due := c.due || full || results != c.payload }

/-- The body of this end's CONFIG (R407). -/
def State.configBody (s : State) (k : Nat) : Bytes :=
  let flags := ofBool s.node.valid + 2 * s.fld (ZLINK.AUTH_REQ.on (zpage k)) + 4 * ofBool Config.authCapable
  leBytes 2 s.node.id ++ leBytes 1 flags ++ leBytes 1 k ++ fitTo Config.serial 16 ++ leBytes 4 Config.protocolLevel

/-- Equalisation has ended (R404, R406): the good lanes, the corrected polarities, whether the stored record matched, the results. -/
def State.trainingDone (s : State) (k lanes pol : Nat) (stored : Bool) (results : Bytes) : State :=
  let l := s.link k
  if l.state = 1 ∧ !l.equalised then
    let used := stored && !l.fullTrain
    let l' := { l with lanesOk := lanes % 256, polInv := pol % 256, eqStored := used, fullTrain := false }
    if lanes % 256 = 255 then
      let s1 := (s.setLink k { l' with equalised := true }).calLearn results (!used)
      s1.linkCtrl k 2 (s1.configBody k)
    else (s.setLink k l').linkDown k
  else s

/-- This node may become the lead (R438). -/
def State.candidate (s : State) : Bool :=
  let id := s.fld HERD.REQ_ID
  s.herd.cand && s.bit HERD.ID_SET && decide (coord id 0 < s.fld HERD.SIZE_X) && decide (coord id 1 < s.fld HERD.SIZE_Y) &&
    decide (coord id 2 < s.fld HERD.SIZE_Z)

/-- This node's claim. -/
def State.claim (s : State) : Bytes := claimBody (s.fld HERD.REQ_ID) (s.fld HERD.SIZE_X) (s.fld HERD.SIZE_Y) (s.fld HERD.SIZE_Z)

/-- A link has trained: SPARE, with every credit (R405, R411); a forming candidate claims on it (R439), and a node that is in no herd and
meets a member becomes SPARE (R443, R446). One whose protocol level differs is held SPARE and is not reported (R407). -/
def State.linkSpare (s : State) (k : Nat) : State :=
  let l := s.link k
  let s0 := s.setLink k { l with state := 2, credits := [], owed := [], partials := [] }
  let s1 :=
    if l.partnerNodeValid && ((s.fld HERD.STATE == 0 && s.herd.serial == 0) || s.fld HERD.STATE == 4) then
      (s0.setFld HERD.STATE 2).modHerd fun h => { h with parent := none, derived := none }
    else s0
  let s2 := if s1.fld HERD.STATE = 0 ∧ !s1.herd.formed ∧ s1.herd.serial = 0 ∧ s1.candidate then s1.sendOnLink k 0xFFFF s1.claim else s1
  if l.partnerLevel = Config.protocolLevel then s2.tellLink k 2 else s2

/-- A link fails to authenticate (R413). -/
def State.authFail (s : State) (k : Nat) : State := (s.raiseOwn (zpage k) 20).linkDown k

/-- The flits of an AUTH item (R423). -/
def authFlits (item : Nat) (data : Bytes) : List Bytes :=
  (pieces 228 (data.length + 1) data).zipIdx.map fun e =>
    leBytes 1 item ++ leBytes 2 e.2 ++ leBytes 2 e.1.length ++ leBytes 2 data.length ++ fitTo e.1 228

def State.sendAuth (s : State) (k item : Nat) (data : Bytes) : State := (authFlits item data).foldl (fun s b => s.linkCtrl k 3 b) s

/-- The secret from which the alias key of the running images comes (R486): its name is the two signed headers. -/
def State.aliasSeed (s : State) : Bytes := s.rolar.rolarHdr ++ s.rolar.runtimeHdr

/-- Authentication begins: this end's chain, ephemeral key and, once it has the partner's key, its signature (R413). -/
def State.authStart (s : State) (k : Nat) : State :=
  let own := fitTo (Config.ephemeral s.free) 97
  let s1 := { s with free := s.free + 1 }.setLink k { s.link k with configured := true, authOwn := own }
  (s1.sendAuth k 0 (Config.certChain s.aliasSeed)).sendAuth k 1 own

/-- A CONFIG flit (R407). -/
def State.configFlit (s : State) (k : Nat) (b : Bytes) : State :=
  let l := s.link k
  if l.state = 1 ∧ l.equalised ∧ !l.configured then
    let fl := byteAt b 2
    let l' := { l with
      partnerValid := true, partnerNode := leAt b 0 2, partnerNodeValid := bitAt fl 0, partnerAuthReq := bitAt fl 1,
      partnerAuthCapable := bitAt fl 2, partnerFace := byteAt b 3 % 8, partnerSerial := sub b 4 16, partnerLevel := leAt b 20 4 }
    let s1 := s.setLink k l'
    let face := if k % 2 = 0 then k + 1 else k - 1
    if byteAt b 3 ≠ face then (s1.raiseOwn (zpage k) 19).linkDown k
    else if s.bit (ZLINK.AUTH_REQ.on (zpage k)) || bitAt fl 1 then
      if !Config.authCapable then (s1.sendAuth k 3 [3#8]).authFail k
      else if !bitAt fl 2 then s1.authFail k
      else s1.authStart k
    else (s1.setLink k { l' with configured := true }).linkSpare k
  else s

/-- What an end signs: the digest of both keys and both serial numbers (R423). -/
def authDigest (key1 key2 ser1 ser2 : Bytes) : Bytes := Config.sha384 (key1 ++ key2 ++ fitTo ser1 16 ++ fitTo ser2 16)

/-- An AUTH flit, from its ITEM on (R413, R423): the item grows; this end signs once it has the partner's key; the partner's chain and
signature are checked once all three items are whole, and then keys are in force. -/
def State.authFlit (s : State) (k : Nat) (b : Bytes) : State :=
  let l := s.link k
  if l.state = 1 ∧ l.configured then
    let item := byteAt b 0
    let total := leAt b 5 2
    let data := sub b 7 (min 228 (leAt b 3 2))
    let l' :=
      if item = 0 then { l with authChain := l.authChain ++ data, authTotal := total }
      else if item = 1 then { l with authKey := l.authKey ++ data }
      else if item = 2 then { l with authSig := l.authSig ++ data }
      else l
    if item = 3 then s.authFail k
    else
      let s1 := s.setLink k l'
      let s2 := if item = 1 ∧ l'.authKey.length = 97 then
          s1.sendAuth k 2 (Config.aliasSign s.aliasSeed (authDigest l'.authOwn l'.authKey Config.serial l'.partnerSerial))
        else s1
      if decide (0 < l'.authTotal) && decide (l'.authTotal ≤ l'.authChain.length) && l'.authKey.length == 97 && l'.authSig.length == 96 then
        match Config.chainKey l'.authChain with
        | none => (s2.sendAuth k 3 [1#8]).authFail k
        | some pub =>
          if Config.ecdsaVerify pub (authDigest l'.authKey l'.authOwn l'.partnerSerial Config.serial) l'.authSig then
            (s2.setLink k { s2.link k with secure := true, gcmTx := 0, gcmRx := 0 }).linkSpare k
          else (s2.sendAuth k 3 [2#8]).authFail k
      else s2
  else s

/-! Retraining (R410). -/

/-- A link enters RETRAINING, telling its partner where it starts the retrain itself. -/
def State.retrain (s : State) (k : Nat) (tell : Bool) : State :=
  let l := s.link k
  if l.state = 2 ∨ l.state = 3 then
    let s1 := if tell then s.linkCtrl k 4 [] else s
    let s2 := s1.setLink k { s1.link k with before := l.state, retrainAt := s.chrono, state := 5 }
    let s3 := (s2.count (ZLINK.RETRAINS.on (zpage k)) 1).raiseOwn (zpage k) 17
    if l.state = 3 then s3.twinLinkLeft k else s3
  else s

/-- Flits of the replay buffer sent again, from the first that `p` holds of (R409). A flit whose eighth replay has failed starts a retrain. -/
def State.replay (s : State) (k : Nat) (p : LinkFlit → Bool) : State :=
  let l := s.link k
  let old := l.replay.takeWhile fun f => !p f
  let again := l.replay.drop old.length
  if again.isEmpty then s
  else if again.any fun f => decide (8 ≤ f.tries) then s.retrain k true
  else
    let s1 := s.setLink k { l with replay := old ++ again.map fun f => { f with tries := f.tries + 1 }, ackAt := s.chrono }
    let s2 := ((s1.count (ZLINK.RETRIES.on (zpage k)) 1).count (ZLINK.FLITS_TX.on (zpage k)) again.length).corrected
    again.foldl (fun s f => s.emit (if f.ctrl then .linkCtrl k (byteAt f.payload 0) (f.payload.drop 1) else .flit k f.seq l.ack 0 0)) s2

/-- A retrain has succeeded: the link is as before, with new keys, and replays (R410, R413). -/
def State.retrained (s : State) (k : Nat) : State :=
  let l := s.link k
  if l.state = 5 ∧ s.chrono < l.retrainAt + 2000000 then
    let s1 := s.setLink k { l with state := l.before, gcmTx := 0, gcmRx := 0, nakSent := false, replay := l.replay.map fun f => { f with tries := 0 } }
    ((s1.replay k fun _ => true).linkPump k l.queue.length).oosSettle k
  else s

/-! Flits received (R408, R409, R411). -/

/-- The flits that an ACK covers leave the replay buffer. -/
def State.takeAck (s : State) (k ack : Nat) : State :=
  let l := s.link k
  match l.replay.findIdx? fun f => f.seq == ack with
  | none => s
  | some i => (s.setLink k { l with replay := l.replay.drop (i + 1), ackAt := s.chrono }).oosSettle k

/-- A flit is discarded; the first of a gap is answered with a NAK. -/
def State.sendNak (s : State) (k : Nat) : State :=
  let l := s.link k
  if l.nakSent then s else (s.setLink k { l with nakSent := true }).linkCtrl k 1 (leBytes 2 l.rxSeq)

/-- A whole message that came in on a link: broadcasts and messages for other nodes go on, what is for this node is delivered (R425 to
R427). A SPARE link carries only messages of the herd's formation (R405). -/
def State.messageIn (s : State) (k cls flits : Nat) (p : Packet) : State :=
  let s := if s.twinLink = some k then s.modTwin fun t => { t with heardAt := s.chrono } else s
  let l := s.link k
  if l.state = 2 then
    if p.typ == 0x10 && decide (0x20 ≤ byteAt p.body 0) && decide (byteAt p.body 0 < 0x40) then s.emit (.delivered p) else s
  else if bitAt p.route 3 then
    let n := (s.bcastLinks p.dst).length
    ((s.count ROUTE.TRANSIT_FLITS (flits * n)).broadcast p.dst p.body).emit (.delivered p)
  else if p.dst = s.node.id ∨ s.place p.dst = s.node.id then s.emit (.delivered p)
  else (s.count ROUTE.TRANSIT_FLITS flits).forward p (if nextDim s.node.id (s.place p.dst) = k / 2 then cls else 0)

/-- A DATA flit accepted in order. -/
def State.flitIn (s : State) (k : Nat) (f : Flit) : State :=
  let l := s.link k
  let pair := f.vc % 4 * 2 + f.cls % 2
  let sofar := (if f.sop then [] else Table.findD l.partials pair []) ++ f.payload
  let l' := { l with
    rxSeq := (l.rxSeq + 1) % 65536, nakSent := false, gcmRx := l.gcmRx + ofBool l.secure,
    owed := Table.put l.owed pair (Table.findD l.owed pair 0 + 1),
    partials := if f.eop then Table.drop l.partials pair else Table.put l.partials pair sofar }
  let s1 := (s.setLink k l').count (ZLINK.FLITS_RX.on (zpage k)) 1
  let s2 := if f.eop then s1.messageIn k (f.cls % 2) (ceilDiv sofar.length 236) (packetOf sofar) else s1
  let c := (s2.link k).credit0
  (s2.setLink k (s2.link k).paid).emit (.idle k (s2.link k).ack c.1 c.2)

/-- A flit received (R408, R409, R413). -/
def State.flitReceive (s : State) (k : Nat) (f : Flit) : State :=
  let l := s.link k
  if l.state = 2 ∨ l.state = 3 then
    if !f.crcOk then ((s.count (ZLINK.CRC_ERRORS.on (zpage k)) 1).raiseOwn (zpage k) 16).sendNak k
    else if l.secure && f.kind == 1 && !f.tagOk then (s.count (ZLINK.TAG_FAILS.on (zpage k)) 1).sendNak k
    else
      let pair := f.creditVc % 8
      let l' := if f.creditN = 0 then l else { l with credits := Table.put l.credits pair (min 64 (l.credit pair + f.creditN)) }
      let s1 := (s.setLink k l').takeAck k f.ack
      let s2 := if f.kind = 1 then (if f.seq = l.rxSeq then s1.flitIn k f else s1.sendNak k) else s1
      s2.linkPump k (s2.link k).queue.length
  else s

/-- A NAK names the SEQ that the partner expects (R409). -/
def State.nak (s : State) (k seq : Nat) : State :=
  if (s.link k).state = 2 ∨ (s.link k).state = 3 then s.replay k fun f => f.seq == seq else s

/-- The ACK has not advanced for 10 µs (R409). -/
def State.ackTimeout (s : State) (k : Nat) : State :=
  let l := s.link k
  if (l.state = 2 ∨ l.state = 3) ∧ !l.replay.isEmpty ∧ l.ackAt + 10000 ≤ s.chrono then s.replay k fun _ => true else s

/-- A link's service ended or given back by OUT_OF_SERVICE (R405, R432). -/
def State.linkService (s : State) (k : Nat) (out : Bool) : State :=
  let l := s.link k
  if out then
    if l.state = 4 ∨ l.leaving then s
    else ((s.setLink k { l with leaving := true }).tellLink k 4).oosSettle k
  else if l.state = 4 then (s.setLink k { l with state := 0, downAt := s.chrono, mayTrain := false }).tellLink k 0
  else s.setLink k { l with leaving := false }

end Sys2Proof.Machine
end

