-- ==== Sys2Proof/Machine/MirrorOps.lean ====
section
/-! DEFINITION. The images in which a node mirrors its state to its twin (R139, R140, R449, R450, Table 21-8). -/

namespace Sys2Proof.Machine

open Sys2Proof.Reg

def pad8 (b : Bytes) : Bytes := fitTo b (roundUp b.length 8)

/-! The session ledger and the park (KIND 1). -/

/-- A park record as it lies in the park (R138). -/
def parkBytes (r : ParkRec) : Bytes :=
  let h := leBytes 1 (if r.completion then 2 else 1) ++ leBytes 1 (ofBool r.split + 2 * ofBool r.poisoned) ++ leBytes 1 r.fn ++ leBytes 1 r.ring ++
    leBytes 4 r.payload.length ++ leBytes 8 r.iova ++ leBytes 8 r.seq ++ leBytes 2 r.tag ++ zeros 6
  fitTo (h ++ r.payload) (recBytes r)

/-- The pairs that hold records or old jobs, ascending. -/
def State.ledgerPairs (s : State) : List Nat :=
  let ks := s.host.session.park.map (fun r => ringKey r.fn r.ring) ++
    (s.work.descs.filter fun (e : Nat × Desc) => e.2.old).map fun (e : Nat × Desc) => ringKey e.2.fn e.2.ring
  sortBy (fun a b => decide (a ≤ b)) ks.eraseDups

/-- The ledger header (Table 07-3). -/
def State.ledgerHeader (s : State) : Bytes :=
  let x := s.host.session
  let b := leBytes 4 0x53454C44 ++ leBytes 2 1 ++ leBytes 1 s.session ++ leBytes 1 (s.fld ATTACH.LOSS_CAUSE) ++ leBytes 8 x.id ++ leBytes 8 x.lossChrono ++
    leBytes 8 x.lossTide ++ leBytes 8 x.lastBeat.toNat ++ leBytes 8 x.lastBeatAt ++ leBytes 8 x.park.length ++
    leBytes 8 (x.park.foldl (fun n r => n + recBytes r) 0) ++ leBytes 8 x.defaultRows ++ leBytes 2 s.ledgerPairs.length ++ zeros 50
  b ++ leBytes 4 (crc32c b)

/-- A pair's ring record (R140). -/
def State.ringRecord (s : State) (pair : Nat) : Bytes :=
  let rs := s.pairRecords pair
  if rs.isEmpty ∧ s.oldJobs pair = 0 then zeros 32
  else
    let next := (rs.head?.map (·.seq)).getD (Table.findD s.host.session.nextSeq pair 0)
    leBytes 1 (pair / 64) ++ leBytes 1 (pair % 64) ++ leBytes 1 (ofBool (s.host.session.ordered.contains pair)) ++ leBytes 1 0 ++ leBytes 4 rs.length ++
    leBytes 8 next ++ leBytes 8 (rs.foldl (fun n r => n + recBytes r) 0) ++ leBytes 4 (s.oldJobs pair) ++ zeros 4

def State.ledgerImage (s : State) : Bytes :=
  let ps := s.ledgerPairs
  s.ledgerHeader ++ ps.flatMap s.ringRecord ++ ps.flatMap fun p => (s.pairRecords p).flatMap parkBytes

/-! Window stores (KIND 2). -/

/-- One aggregate state. -/
def aggImage (g : AggSpec) : AggSt → Bytes
  | .count n => leBytes 8 n
  | .sumI n x => leBytes 8 n ++ leBytes 16 (ofSigned 128 x)
  | .sumF n x nan p m => leBytes 8 n ++ leBytes 8 (ofBool nan + 2 * ofBool p + 4 * ofBool m) ++ leBytes 272 (ofSigned 2176 x)
  | .ext v => leBytes 4 (ofBool (v != .null)) ++ leBytes 4 (valBytes g.ty v).length ++ pad8 (valBytes g.ty v)
  | .var n mean m2 => leBytes 8 n ++ leBytes 8 mean ++ leBytes 8 m2
  | .pick t n v =>
    leBytes 4 (ofBool (v != .null)) ++ leBytes 4 (valBytes g.ty v).length ++ leBytes 8 t ++ leBytes 8 n ++ pad8 (valBytes g.ty v)
  | .hll rs => (List.range (2 ^ g.a)).map fun i => BitVec.ofNat 8 (Table.findD rs i 0)
  | .topk cs =>
    leBytes 4 cs.length ++ leBytes 4 0 ++ cs.flatMap fun c =>
      leBytes 8 c.2.1 ++ leBytes 8 c.2.2 ++ leBytes 8 (keyhash [(g.ty, c.1)] 0) ++ leBytes 4 (valBytes g.ty c.1).length ++ leBytes 4 0 ++ pad8 (valBytes g.ty c.1)
  | .quant cs => leBytes 4 cs.length ++ leBytes 4 0 ++ cs.flatMap fun c => leBytes 8 c.1 ++ leBytes 8 c.2

/-- A group key: each column's null flag, length and bytes. -/
def groupImage (gt : List Nat) (vs : List Val) : Bytes :=
  (List.zip gt vs).flatMap fun e =>
    let b := valBytes e.1 e.2
    leBytes 1 (ofBool (e.2 == .null)) ++ zeros 3 ++ leBytes 4 b.length ++ pad8 b

/-- A window record. -/
def windowImage (p : RipSpec) (gt : List Nat) (state rev : Nat) (x : Pane) : Bytes :=
  let k := groupImage gt x.group
  let a := (List.zip p.aggs x.aggs).flatMap fun e => aggImage e.1 e.2
  leBytes 8 x.start ++ leBytes 8 x.end_ ++ leBytes 2 rev ++ leBytes 1 state ++ leBytes 1 0 ++ leBytes 4 k.length ++ leBytes 4 a.length ++ leBytes 4 0 ++ k ++ a

/-- The image of a window store. -/
def State.storeImage (s : State) (st : WinStore) : Bytes :=
  let p := st.spec
  let gt := p.groups.map fun g => st.tys.getD g 0
  let ps := st.params.getD []
  let rev (x : Pane) : Nat := (((st.revs.find? fun r => r.win == x.idx && r.group == x.group).map (·.rev)).getD 0) % 65536
  let kind (x : Pane) : Nat := if p.kind = 1 then 3 else if x.end_ ≤ s.tide.now then 1 else 0
  leBytes 1 st.tier ++ leBytes 1 (ofBool st.params.isSome) ++ zeros 2 ++ leBytes 4 st.quota ++ leBytes 4 ps.length ++ zeros 4 ++ leBytes 8 st.arrivals ++
  zeros 40 ++ pad8 ps ++ st.queued.flatMap (fun q => windowImage p gt 2 q.1 q.2) ++ st.panes.flatMap fun x => windowImage p gt (kind x) (rev x) x

/-! Strainer (KIND 3). -/

/-- A LOAD entry record (Table 15-4). -/
def loadRecord (bank i units : Nat) (e : StrEntry) : Bytes :=
  leBytes 2 i ++ leBytes 1 bank ++ leBytes 1 (ofBool e.valid) ++ leBytes 2 e.prio ++ leBytes 1 units ++ zeros 9 ++
  (List.range 4).flatMap fun k => leBytes 8 (e.data.getD k 0) ++ leBytes 8 (e.mask.getD k 0)

def State.strainerImage (s : State) : Bytes :=
  (List.range 32).flatMap (fun b => leBytes 8 (s.word 0 0x0A0 (0x300 + 8 * b)).toNat) ++
  (List.range 32).flatMap fun b => (s.bank b).entries.flatMap fun e => if e.2.valid then loadRecord b e.1 (s.bankUnits b) e.2 else []

/-! Ladle (KIND 4): the row records, the log records. -/

def State.ladleRows (s : State) (x : LTable) : List Bytes :=
  let mine (r : Nat) : Bool := s.answersFor (x.owner (x.shardOf r))
  let rs := ((x.data.map (·.1)) ++ (x.promoted.map (·.1)).filter fun r => !Table.has x.data r).filter mine
  rs.map fun r => copyRecord (Table.has x.promoted r) r (x.stored r)

def State.ladleLog (s : State) (t : Nat) : List Bytes := (s.ladle.log.filter fun e => e.tbl == t).map logRecord

/-! Flows, windows and keeper, lead state (KIND 5 to 7). -/

def flowsImage (fs : Table Flow) : Bytes :=
  fs.flatMap fun f =>
    leBytes 2 f.1 ++ leBytes 1 f.2.fn ++ leBytes 1 0 ++ leBytes 4 f.2.next ++ leBytes 4 f.2.items.length ++ zeros 4 ++
    pad8 (f.2.items.flatMap fun i => leBytes 4 i.seq)

def windowsImage (keeper : Nat) (ws : Table Window) : Bytes :=
  leBytes 8 keeper ++ ws.flatMap fun w =>
    let st (i : Nat) : Option Nat := (Table.find? w.2.marks ((w.2.greatest + 2 ^ 32 - i) % 2 ^ 32)).filter fun m => decide (m < 256)
    leBytes 2 w.1 ++ zeros 2 ++ leBytes 4 w.2.greatest ++
    ((List.range 512).map fun b => BitVec.ofNat 8 ((List.range 8).foldl (fun v i => v + if (st (8 * b + i)).isSome then 2 ^ i else 0) 0)) ++
    (List.range 4096).map fun i => BitVec.ofNat 8 ((st i).getD 0)

/-- A report message (Table 10-4). -/
def reportBytes (node : Nat) (r : Report) : Bytes :=
  let b := leBytes 1 2 ++ leBytes 1 1 ++ leBytes 2 node ++ leBytes 4 r.beatSeq ++ leBytes 8 r.localWm ++ leBytes 8 r.keeper ++ zeros 4
  b ++ leBytes 4 (crc32c b)

/-- The BEAT_SEQ of the last beat that this node sent or applied. -/
def State.lastBeatSeq (s : State) : Nat := s.tide.lastSeq.getD s.tide.shownSeq

def State.leadImage (s : State) : Bytes :=
  let ms := s.memberList
  leBytes 4 (s.fld ROUTE.EPOCH) ++ leBytes 4 s.lastBeatSeq ++ leBytes 4 (s.herd.lastSet.getD 0) ++ leBytes 4 ms.length ++ leBytes 4 s.fabric.map.length ++
  leBytes 4 s.tide.reports.length ++ zeros 8 ++ ms.flatMap (fun m => leBytes 2 m ++ leBytes 2 (Table.findD s.herd.aliases m 0xFFFF)) ++
  s.fabric.map.flatMap (fun k => leBytes 2 (k / 4) ++ leBytes 1 (k % 4) ++ leBytes 1 3) ++ s.tide.reports.flatMap fun r => reportBytes r.1 r.2

/-! Press build partitions (KIND 8). -/

/-- The build rows of a job's shuffled joins that the twin has not got: by stage, from a count of each origin on. -/
def State.pressNew (_s : State) (job : Job) (sent : Table Nat) : List (Nat × List (List Val)) :=
  job.joins.filterMap fun e =>
    let st := job.plan.stage e.1
    if ppShuffle (job.plan.block st) then some (e.1, e.2.build.flatMap fun o => o.2.drop (Table.findD sent (e.1 * 65536 + o.1) 0)) else none

/-- How many build rows of each origin there are. -/
def pressCounts (job : Job) : Table Nat :=
  job.joins.foldl (fun t e => e.2.build.foldl (fun t o => Table.put t (e.1 * 65536 + o.1) o.2.length) t) []

/-- The image of such rows: partition by partition, one row block each. -/
def pressImage (job : Job) (news : List (Nat × List (List Val))) : Bytes :=
  news.flatMap fun e =>
    let b := job.plan.block (job.plan.stage e.1)
    let cols := job.plan.inCols e.1 1
    let tys := cols.map colTy
    let part (r : List Val) : Nat := partOf (keyhash (buildKeys b tys r) (ppSeed b))
    let ps := sortBy (fun a b => decide (a ≤ b)) (e.2.map part).eraseDups
    ps.flatMap fun p => leBytes 2 p ++ zeros 6 ++ rowBlock cols (e.2.filter fun r => part r == p)

/-! What a cut carries (R450, R451). -/

/-- A run of a cut: kind, object, DELETE, CLEAR_LOG, payload. -/
structure CutRun where
  kind : Nat
  obj : Nat
  delete : Bool := false
  clearLog : Bool := false
  payload : Bytes := []
  deriving DecidableEq, Repr

/-- The key under which `Twin.sent` keeps a table's log beside its rows. -/
def logKind : Nat := 104

/-- The objects of this node as they stand, of the kinds that are replaced whole. -/
def State.wholeObjects (s : State) : List MirrorObj :=
  [⟨1, 0, s.ledgerImage⟩] ++ s.stores.map (fun e => ⟨2, e.1, s.storeImage e.2⟩) ++ [⟨3, 0, s.strainerImage⟩] ++
  [⟨5, 0, flowsImage s.rennet.flows⟩, ⟨6, 0, windowsImage s.tide.now s.fabric.windows⟩] ++ if s.isLead then [⟨7, 0, s.leadImage⟩] else []

/-- The length of the records in front of which a length stands. -/
def joinRecs (rs : List Bytes) : Bytes := rs.flatMap fun r => leBytes 4 r.length ++ r

def splitRecs : Nat → Bytes → List Bytes
  | 0, _ => []
  | n + 1, b => if b.length < 4 then [] else sub b 4 (leAt b 0 4) :: splitRecs n (b.drop (4 + leAt b 0 4))

def sentOf (os : List MirrorObj) (kind obj : Nat) : Option Bytes := (os.find? fun o => o.kind == kind && o.obj == obj).map (·.image)

/-- The runs of the next cut, and what has then been sent of each object. -/
def State.cutRuns (s : State) : List CutRun × List MirrorObj :=
  let old := s.twin.sent
  let whole := s.wholeObjects
  let runs1 := (whole.filter fun o => sentOf old o.kind o.obj != some o.image).map fun o => ({ kind := o.kind, obj := o.obj, payload := o.image } : CutRun)
  let gone := (old.filter fun o => o.kind != logKind && o.kind != 8 && o.kind != 4 && !whole.any fun x => x.kind == o.kind && x.obj == o.obj).map
    fun o => ({ kind := o.kind, obj := o.obj, delete := true } : CutRun)
  let tabs := s.ladle.tables.map fun t =>
    let rows := s.ladleRows t.2
    let logs := s.ladleLog t.1
    let was := (sentOf old 4 t.1).elim [] fun b => splitRecs b.length b
    let wasLog := (sentOf old logKind t.1).elim [] fun b => splitRecs b.length b
    let more := wasLog.isPrefixOf logs
    let clear := !more || (sentOf old 4 t.1).isNone
    let body := (rows.filter fun r => !was.contains r).flatten ++ (if more then logs.drop wasLog.length else logs).flatten
    let run : List CutRun := if body.isEmpty && !clear then [] else [{ kind := 4, obj := t.1, clearLog := clear, payload := body }]
    (run, [(⟨4, t.1, joinRecs rows⟩ : MirrorObj), ⟨logKind, t.1, joinRecs logs⟩])
  let goneTabs := (old.filter fun o => o.kind == 4 && !Table.has s.ladle.tables o.obj).map fun o => ({ kind := 4, obj := o.obj, delete := true } : CutRun)
  let jobs := if s.bit TWIN.MIRROR_PRESS then s.work.jobs.filter fun (e : Nat × Job) => !e.2.joins.isEmpty else []
  let press := jobs.map fun (e : Nat × Job) =>
    let was : Table Nat := (sentOf old 8 e.2.herdId).elim [] fun b => (splitRecs b.length b).map fun r => (leAt r 0 8, leAt r 8 8)
    let img := pressImage e.2 (s.pressNew e.2 was)
    let run : List CutRun := if img.isEmpty then [] else [{ kind := 8, obj := e.2.herdId, payload := img }]
    (run, [(⟨8, e.2.herdId, joinRecs ((pressCounts e.2).map fun c => leBytes 8 c.1 ++ leBytes 8 c.2)⟩ : MirrorObj)])
  let gonePress := (old.filter fun o => o.kind == 8 && !jobs.any fun (e : Nat × Job) => e.2.herdId == o.obj).map
    fun o => ({ kind := 8, obj := o.obj, delete := true } : CutRun)
  (runs1 ++ gone ++ tabs.flatMap (·.1) ++ goneTabs ++ press.flatMap (·.1) ++ gonePress,
    whole ++ tabs.flatMap (·.2) ++ press.flatMap (·.2))

end Sys2Proof.Machine
end

