-- ==== Sys2Proof/Machine/HostedOps.lean ====
section
/-! DEFINITION. Cuts as they arrive at the twin, the mirror it keeps, what it restores of the node it hosts, and the return of that
state (R422, R451, R454 to R458). -/

namespace Sys2Proof.Machine

open Sys2Proof.Reg

/-! The mirror. -/

/-- The flags of a MIRROR run's ARG0 (R421). -/
def mirrorKind (a0 : Nat) : Nat := a0 / 2 ^ 32 % 256
def mirrorDelete (a0 : Nat) : Bool := bitAt a0 40
def mirrorClear (a0 : Nat) : Bool := bitAt a0 41

/-- How many row records a KIND 4 image begins with: the greatest number for which both parts hold whole records with row IDs in
range, which is how the image is read (log 19). -/
def rowCount (x : LTable) (b : Bytes) : Nat :=
  let a := roundUp (8 + x.rowSize) 8
  let c := 8 + roundUp (24 + 4 * x.dim) 8
  let ok (m : Nat) : Bool :=
    let rest := b.length - m * a
    decide (m * a ≤ b.length) && rest % c == 0 && (List.range m).all (fun i => decide (leAt b (i * a) 8 % 2 ^ 63 < x.rows)) &&
      (List.range (rest / c)).all fun i => decide (leAt b (m * a + i * c + 8) 8 < x.rows)
  ((List.range (b.length / max 1 a + 1)).reverse.find? ok).getD 0

/-- A KIND 4 image's row records and log records. -/
def splitTable (x : LTable) (b : Bytes) : List Bytes × List Bytes :=
  let a := roundUp (8 + x.rowSize) 8
  let c := 8 + roundUp (24 + 4 * x.dim) 8
  let m := rowCount x b
  ((List.range m).map fun i => sub b (i * a) a, (List.range ((b.length - m * a) / c)).map fun i => sub b (m * a + i * c) c)

/-- One run of a cut applied to the mirror (R422). -/
def State.mirrorOne (s : State) (mirror : List MirrorObj) (r : MirrorObj) : List MirrorObj :=
  let kind := r.kind % 256
  let del := bitAt r.kind 8
  let clear := bitAt r.kind 9
  let rest := mirror.filter fun o => !((o.kind == kind || (kind == 4 && o.kind == logKind)) && o.obj == r.obj)
  let was (k : Nat) : Bytes := (sentOf mirror k r.obj).getD []
  if del then rest
  else if kind = 4 then
    match s.ltable r.obj with
    | none => mirror
    | some x =>
      let new := splitTable x r.image
      let id (b : Bytes) : Nat := leAt b 0 8 % 2 ^ 63
      let old := (splitRecs (was 4).length (was 4)).filter fun b => !new.1.any fun c => id c == id b
      let logs := if clear then [] else splitRecs (was logKind).length (was logKind)
      rest ++ [⟨4, r.obj, joinRecs (old ++ new.1)⟩, ⟨logKind, r.obj, joinRecs (logs ++ new.2)⟩]
  else if kind = 8 then rest ++ [⟨8, r.obj, was 8 ++ r.image⟩]
  else rest ++ [⟨kind, r.obj, r.image⟩]

/-- MiB of Skim that a mirror takes. -/
def mirrorMib (m : List MirrorObj) : Nat := pagesMib (m.foldl (fun n o => n + o.image.length) 0)

/-- The body of TWIN_ACK. -/
def twinAckBody (cut : Nat) : Bytes := leBytes 1 0x31 ++ zeros 3 ++ leBytes 4 cut

/-- TWIN_CUT: the whole cut applied in one step and acknowledged, where every record is here and the quota and Skim hold it
(R451, R454). -/
def State.twinCut (s : State) (k cut tide bytes : Nat) : State :=
  let runs := s.twin.incoming
  let got := runs.foldl (fun n r => n + r.image.length) 0
  let drop (s : State) : State := s.modTwin fun t => { t with incoming := [], runs := [] }
  if s.twin.full ∨ got ≠ bytes then drop s
  else
    let m := runs.foldl s.mirrorOne s.twin.mirror
    let now := mirrorMib m
    let was := mirrorMib s.twin.mirror
    if s.fld TWIN.MIRROR_QUOTA < now ∨ s.skimFree + was < now then
      (drop (s.modTwin fun t => { t with full := true })).raiseOwn 0x0DA 17
    else
      let s1 := (drop s).modTiers fun t => { t with skimOther := t.skimOther + now - was }
      (s1.modTwin fun t => { t with mirror := m, appliedCut := cut, appliedTide := tide }).sendOnLink k s.twin.partner (twinAckBody cut)

/-! What the images hold. -/

/-- A type for a value of a length, where the image does not name one (log 20). -/
def guessTy (n : Nat) : Nat := if n = 1 then 5 else if n = 2 then 6 else if n = 4 then 7 else if n = 8 then 8 else 0x13

def guessVal (b : Bytes) : Val := if guessTy b.length = 0x13 then .str b else .num (leNat b)

/-- The columns of a group key's image, over `n` columns, and what follows. -/
def groupOf : Nat → Bytes → List Val
  | 0, _ => []
  | n + 1, b =>
    let len := leAt b 4 4
    (if byteAt b 0 = 1 then Val.null else guessVal (sub b 8 len)) :: groupOf n (b.drop (8 + roundUp len 8))

/-- One aggregate state of an image, the bytes it takes; `float` says how a SUM is read. -/
def aggOfImage (float : Bool) (g : AggSpec) (b : Bytes) : AggSt × Nat :=
  let val (o : Nat) : Val := if leAt b 0 4 = 1 then guessVal (sub b o (leAt b 4 4)) else .null
  match g.fn with
  | 1 => (.count (leAt b 0 8), 8)
  | 2 | 5 =>
    if g.fn = 5 ∨ float then
      (.sumF (leAt b 0 8) (toSigned 2176 (leAt b 16 272)) (bitAt (leAt b 8 8) 0) (bitAt (leAt b 8 8) 1) (bitAt (leAt b 8 8) 2), 288)
    else (.sumI (leAt b 0 8) (toSigned 128 (leAt b 8 16)), 24)
  | 3 | 4 => (.ext (val 8), 8 + roundUp (leAt b 4 4) 8)
  | 6 => (.var (leAt b 0 8) (leAt b 8 8) (leAt b 16 8), 24)
  | 7 | 8 => (.pick (leAt b 8 8) (leAt b 16 8) (val 24), 24 + roundUp (leAt b 4 4) 8)
  | 9 => (.hll ((List.range (2 ^ g.a)).foldl (fun t i => if byteAt b i = 0 then t else Table.put t i (byteAt b i)) []), 2 ^ g.a)
  | 10 =>
    let r := (List.range (leAt b 0 4)).foldl (fun (a : List (Val × Nat × Nat) × Nat) _ =>
      let c := b.drop a.2
      let len := leAt c 24 4
      (a.1 ++ [(guessVal (sub c 32 len), leAt c 0 8, leAt c 8 8)], a.2 + 32 + roundUp len 8)) ([], 8)
    (.topk r.1, r.2)
  | _ =>
    (.quant ((List.range (leAt b 0 4)).foldl (fun t i => Table.put t (leAt b (8 + 16 * i) 8) (leAt b (16 + 16 * i) 8)) []), 8 + 16 * leAt b 0 4)

def aggsOfImage (float : Bool) : List AggSpec → Bytes → List AggSt × Nat
  | [], _ => ([], 0)
  | g :: gs, b =>
    let x := aggOfImage float g b
    let n := roundUp x.2 8
    let r := aggsOfImage float gs (b.drop n)
    (x.1 :: r.1, n + r.2)

/-- The window records of a store's image, over `n` records: state, REV, window. -/
def windowsOfImage (p : RipSpec) : Nat → Bytes → List (Nat × Nat × Pane)
  | 0, _ => []
  | n + 1, b =>
    if b.length < 32 then []
    else
      let k := leAt b 20 4
      let a := leAt b 24 4
      let img := sub b (32 + k) a
      let plain := aggsOfImage false p.aggs img
      let aggs := if plain.2 = a then plain.1 else (aggsOfImage true p.aggs img).1
      let start := leAt b 0 8
      let end_ := leAt b 8 8
      (byteAt b 18, leAt b 16 2, ⟨if p.kind = 2 then 0 else p.paneOf start, start, end_, groupOf p.ngroup (sub b 32 k), aggs⟩) ::
        windowsOfImage p n (b.drop (32 + k + a))

/-- A window store from its image. -/
def storeOfImage (b : Bytes) : WinStore :=
  let params := sub b 64 (leAt b 8 4)
  let body := b.drop (64 + roundUp params.length 8)
  let p := ripSpec params []
  let ws := windowsOfImage p (body.length / 32 + 1) body
  let tys (x : Pane) : List (Nat × Nat) := (List.zip p.groups x.group).map fun e => (e.1, match e.2 with | .str _ => 0x13 | _ => 8)
  let known := (ws.head?).elim [] fun w => tys w.2.2
  let width := (p.groups ++ p.aggs.map (·.col)).foldl (fun n c => if c = 0xFFFF then n else max n (c + 1)) 0
  let cols := (List.range width).map fun c => [entryOf (((known.find? fun e => e.1 == c).map (·.2)).getD 8)]
  let queued := (ws.filter fun w => w.1 == 2).map fun w => (w.2.1, w.2.2)
  { tier := byteAt b 0, quota := leAt b 4 4, params := if byteAt b 1 = 1 then some params else none, cols := some cols,
    panes := (ws.filter fun w => w.1 != 2).map fun w => w.2.2, queued := queued,
    revs := (ws.filter fun w => w.1 == 1).map fun w => ⟨w.2.2.idx, w.2.2.group, w.2.1⟩,
    queue := queued.map fun q => (p.row ⟨q.2.idx, q.2.start, q.2.end_, q.2.group, q.2.aggs⟩ q.1).1,
    arrivals := leAt b 16 8 }

/-- Park records of an image, over `n` records. -/
def parkOfImage : Nat → Bytes → List ParkRec
  | 0, _ => []
  | n + 1, b =>
    if b.length < 64 then []
    else
      let len := leAt b 4 4
      ⟨byteAt b 0 == 2, bitAt (byteAt b 1) 0, bitAt (byteAt b 1) 1, byteAt b 2, byteAt b 3, leAt b 8 8, leAt b 16 8, leAt b 24 2, sub b 32 len⟩ ::
        parkOfImage n (b.drop (roundUp (32 + len) 64))

/-- The flows of an image, over `n` flows. -/
def flowsOfImage : Nat → Bytes → Table Flow
  | 0, _ => []
  | n + 1, b =>
    if b.length < 16 then []
    else
      let acc := leAt b 8 4
      Table.put (flowsOfImage n (b.drop (16 + roundUp (4 * acc) 8))) (leAt b 0 2)
        { fn := byteAt b 2, next := leAt b 4 4, items := (List.range acc).map fun i => { seq := leAt b (16 + 4 * i) 4, desc := 0, ended := some false } }

/-- The windows of an image, over `n` sources. -/
def windowsTable : Nat → Bytes → Table Window
  | 0, _ => []
  | n + 1, b =>
    if b.length < 4616 then []
    else
      let g := leAt b 4 4
      let marks := (List.range 4096).foldl (fun (t : Table Nat) i =>
        if bitAt (byteAt b (8 + i / 8)) (i % 8) then Table.put t ((g + 2 ^ 32 - i) % 2 ^ 32) (byteAt b (520 + i)) else t) []
      Table.put (windowsTable n (b.drop 4616)) (leAt b 0 2) ⟨g, marks⟩

/-- Log entries of LOG_HANDOFF records of a table. -/
def logsOfRecords (t dim : Nat) (rs : List Bytes) : List LogEntry := rs.flatMap fun r => updatesOf (idKey (leAt r 0 8)) (leAt r 0 8) t dim (r.drop 8) 1

/-! Hosting (R455, R456). -/

/-- Accepted items released from the head of a hosted flow as tombstones (R455). -/
def hostedRelease : Nat → Flow → Flow × Nat
  | 0, f => (f, 0)
  | n + 1, f =>
    if f.items.any fun i => i.seq == f.next then
      let r := hostedRelease n { f with next := (f.next + 1) % 2 ^ 32, items := f.items.filter fun i => i.seq != f.next }
      (r.1, r.2 + 1)
    else (f, 0)

/-- Rows and logs of a mirrored table joined to this node's. -/
def State.joinTables (s : State) (mirror : List MirrorObj) : State :=
  s.ladle.tables.foldl (fun (s : State) t =>
    let x := t.2
    let rows := (sentOf mirror 4 t.1).elim [] fun b => splitRecs b.length b
    let logs := (sentOf mirror logKind t.1).elim [] fun b => splitRecs b.length b
    let put := rows.map fun r => (leAt r 0 8 % 2 ^ 63, sub r 8 x.rowSize)
    let hot := (rows.filter fun r => bitAt (leAt r 0 8) 63).map fun r => leAt r 0 8 % 2 ^ 63
    let s1 := (s.putRows t.1 put).getD s
    let s2 := s1.updTable t.1 fun y => { y with promoted := hot.foldl (fun p r => Table.put p r 0) y.promoted }
    (s2.setLog (s2.ladle.log ++ logsOfRecords t.1 x.dim logs)).getD s2) s

/-- The build rows of the lost node's part of a shuffled join that this node goes on with (R456): the join was fetched on another
node, this node has a part of it and has begun to probe. -/
def State.joinPress (s : State) (p : Nat) (mirror : List MirrorObj) : State :=
  s.work.jobs.foldl (fun (s : State) (e : Nat × Job) =>
    let job := e.2
    match sentOf mirror 8 job.herdId with
    | none => s
    | some img =>
      if job.herdId / 2 ^ 48 = p then s
      else
        job.joins.foldl (fun (s : State) j =>
          if (job.engOf j.1).phase = 0 then s
          else
            let cols := job.plan.inCols j.1 1
            -- the image's blocks, partition by partition
            let rec go : Nat → Bytes → List (List Val)
              | 0, _ => []
              | n + 1, b =>
                if b.length < 40 then []
                else
                  let count := (cols.flatMap id).length
                  let ps := blockPieces count (b.drop 8)
                  let rows := leAt b 8 8
                  let size := ps.foldl (fun n q => n + 32 + q.validity.length + q.offsets.length + q.values.length) 0
                  blockRows cols rows (b.drop 8) ++ go n (b.drop (8 + size))
            let rows := go 256 img
            s.setJoin e.1 j.1 { j.2 with build := Table.put j.2.build p (Table.findD j.2.build p [] ++ rows) }) s) s

/-- This node answers for a lost node from now on, from the last cut that it acknowledged (R455, R457). -/
def State.hostNode (s : State) (p : Nat) : State :=
  let m := s.twin.mirror
  let img (k : Nat) : Bytes := (sentOf m k 0).getD []
  let ledger := img 1
  let fl := (flowsOfImage (img 5).length (img 5)).map fun f => (f.1, hostedRelease f.2.items.length f.2)
  let keeper := leAt (img 6) 0 8
  let h : Hosted := {
    windows := windowsTable (img 6).length ((img 6).drop 8), keeper := keeper, flows := fl.map fun f => (f.1, f.2.1),
    stores := (m.filter fun o => o.kind == 2).foldl (fun t o => Table.put t o.obj (storeOfImage o.image)) [],
    session := 2, sessionId := leAt ledger 8 8,
    park := parkOfImage ledger.length (ledger.drop (128 + 32 * leAt ledger 72 2)) }
  let s1 := { s with hosted := h }.modTwin fun t => { t with hosting := some p }
  let s2 := fl.foldl (fun (s : State) f => s.count RENNET.TOMBSTONES f.2.2) s1
  let s3 := (((s2.joinTables m).joinPress p m).count TWIN.TAKEOVERS 1).raiseOwn 0x0DA 18
  s3.faultRecord ⟨3, 0x23, 0, 0, 0x0F0, p, 0, 0, 0, 0, 0⟩

/-- Windows of the hosted node's stores that the tide closes (R456). -/
def State.hostedTide (s : State) (lo hi : Nat) : State :=
  if s.twin.hosting.isNone then s
  else
    let stores := Table.each s.hosted.stores fun _ st =>
      if st.params.isNone then st
      else
        let p := st.spec
        (p.advance (p.groups.map fun g => st.tys.getD g 0) s.free lo hi st).1
    { s with hosted := { s.hosted with stores := stores }, free := s.free + 1 }

/-! Handing the state back (R458). -/

/-- The ledger image of the hosted node. -/
def State.hostedLedger (s : State) : Bytes :=
  let h := s.hosted
  let ps := sortBy (fun a b => decide (a ≤ b)) ((h.park.map fun r => ringKey r.fn r.ring).eraseDups)
  let b := leBytes 4 0x53454C44 ++ leBytes 2 1 ++ leBytes 1 h.session ++ leBytes 1 2 ++ leBytes 8 h.sessionId ++ zeros 32 ++ leBytes 8 h.park.length ++
    leBytes 8 (h.park.foldl (fun n r => n + recBytes r) 0) ++ zeros 8 ++ leBytes 2 ps.length ++ zeros 50
  let mine (p : Nat) : List ParkRec := h.park.filter fun r => ringKey r.fn r.ring == p
  let rec_ (p : Nat) : Bytes :=
    leBytes 1 (p / 64) ++ leBytes 1 (p % 64) ++ zeros 2 ++ leBytes 4 (mine p).length ++ leBytes 8 (((mine p).head?.map (·.seq)).getD 0) ++
    leBytes 8 ((mine p).foldl (fun n r => n + recBytes r) 0) ++ zeros 8
  b ++ leBytes 4 (crc32c b) ++ ps.flatMap rec_ ++ ps.flatMap fun p => (mine p).flatMap parkBytes

/-- The runs that give the hosted node its state back. -/
def State.returnRuns (s : State) (p : Nat) : List CutRun :=
  let rows (t : Nat × LTable) : List Nat := (t.2.data.map (·.1)).filter fun r => t.2.owner (t.2.shardOf r) == p
  [{ kind := 1, obj := 0, payload := s.hostedLedger }] ++
  s.hosted.stores.map (fun e => { kind := 2, obj := e.1, payload := s.storeImage e.2 }) ++
  [{ kind := 3, obj := 0, payload := (sentOf s.twin.mirror 3 0).getD [] }] ++
  s.ladle.tables.map (fun t =>
    { kind := 4, obj := t.1, clearLog := true,
      payload := (rows t).flatMap (fun r => copyRecord (Table.has t.2.promoted r) r (t.2.stored r)) ++
        ((s.ladle.log.filter fun e => e.tbl == t.1 && t.2.owner (t.2.shardOf e.row) == p).map logRecord).flatten }) ++
  [{ kind := 5, obj := 0, payload := flowsImage s.hosted.flows }, { kind := 6, obj := 0, payload := windowsImage s.tide.now s.hosted.windows }]

/-- A MIRROR run put on the twin link, whatever its state, as requests to the partner (R448, R458). -/
def State.sendMirror (s : State) (k dst cut : Nat) (r : CutRun) : State :=
  let a0 := cut % 2 ^ 32 + r.kind % 256 * 2 ^ 32 + ofBool r.delete * 2 ^ 40 + ofBool r.clearLog * 2 ^ 41
  let ps := runPieces 5 r.payload
  ps.zipIdx.foldl (fun (s : State) e =>
    let more := if e.2 + 1 < ps.length then 0x80000000 else 0
    let tag := Table.fresh s.fabric.reqs 65536 (s.fabric.nextTag % 65536) % 65536
    let seq := Table.findD s.fabric.nextSeq dst 0
    let p : Packet := {
      dst := dst, src := s.node.id, typ := 5, subtype := 0x30, tag := tag, reqSeq := seq,
      body := engineBody 0 0xFFFF 0 (e.2 + more) a0 r.obj e.1 }
    let s1 := (s.count ROUTE.REQUESTS 1).modFabric fun f => { f with
      reqs := Table.put f.reqs tag { pkt := p, sentAt := s.chrono, why := .mirror }, nextTag := (tag + 1) % 65536,
      nextSeq := Table.put f.nextSeq dst ((seq + 1) % 2 ^ 32) }
    ((s1.emit (.packet k p)).count TWIN.CUT_BYTES e.1.length).linkSend k (flitsOf (s1.link k).secure 0 p)) s

/-- The transfer of the hosted node's state begins (R458, point 1). -/
def State.startReturn (s : State) (p : Nat) : State :=
  match s.twinLink with
  | none => s
  | some k => (s.returnRuns p).foldl (fun s r => s.sendMirror k p 0 r) (s.modTwin fun t => { t with handback := some p })

/-- This node stops answering for the node it hosted (R458, point 3). -/
def State.stopHosting (s : State) (p : Nat) : State :=
  if s.twin.hosting = some p then
    let s1 := { s with hosted := {} }.modTwin fun t => { t with hosting := none, handback := none, mirror := [], appliedCut := 0 }
    let s2 := s1.modTiers fun t => { t with skimOther := t.skimOther - mirrorMib s.twin.mirror }
    s2.ladle.tables.foldl (fun (s : State) t =>
      let s1 := s.dropRows t.1 fun r => t.2.owner (t.2.shardOf r) == p
      (s1.setLog (s1.ladle.log.filter fun e => !(e.tbl == t.1 && t.2.owner (t.2.shardOf e.row) == p))).getD s1) s2
  else s

/-- A node that was hosted takes up the state that its twin handed back (R458, point 3). -/
def State.resumeState (s : State) : State :=
  let m := s.twin.incoming.foldl s.mirrorOne []
  if m.isEmpty then s
  else
    let img (k : Nat) : Bytes := (sentOf m k 0).getD []
    let ledger := img 1
    let park := parkOfImage ledger.length (ledger.drop (128 + 32 * leAt ledger 72 2))
    let flows := (flowsOfImage (img 5).length (img 5)).map fun f => (f.1, { f.2 with items := [] })
    let s1 := s.modTwin fun t => { t with incoming := [], runs := [] }
    let s2 := (s1.modRennet fun r => { r with flows := flows }).modFabric fun f => { f with windows := windowsTable (img 6).length ((img 6).drop 8) }
    let s3 := (((s2.setFld ATTACH.STATE 2).setFld ATTACH.LOSS_CAUSE 2).modSession fun x => { x with
      id := leAt ledger 8 8, nextSeq := park.foldl (fun t r => Table.put t (ringKey r.fn r.ring) (r.seq + 1)) x.nextSeq }).setPark park
    let s4 := (m.filter fun o => o.kind == 2).foldl (fun (s : State) o => s.setStore o.obj (storeOfImage o.image)) s3
    let cfg := img 3
    let s5 := if cfg.length < 256 then s4 else
      (List.range 32).foldl (fun (s : State) b => s.setWord 0 0x0A0 (0x300 + 8 * b) (BitVec.ofNat 64 (leAt cfg (8 * b) 8))) s4
    let s6 := (List.range ((cfg.length - 256) / 80)).foldl (fun (s : State) i =>
      let r := sub cfg (256 + 80 * i) 80
      let b := byteAt r 2 % 32
      let e : StrEntry := ⟨true, leAt r 4 2, (List.range 4).map fun k => leAt r (16 + 16 * k) 8, (List.range 4).map fun k => leAt r (24 + 16 * k) 8⟩
      s.setBank b { s.bank b with entries := Table.put (s.bank b).entries (leAt r 0 2) e }) s5
    s6.joinTables m

end Sys2Proof.Machine
end

