-- ==== Sys2Proof/Machine/HerdOps.lean ====
section
/-! DEFINITION. Herd membership: formation, election, joining and leaving, membership sets, twin pairs (R438 to R448, R458, R460, R461). -/

namespace Sys2Proof.Machine

open Sys2Proof.Reg

/-! Messages of formation (R439 to R441, R461). -/

/-- A size of the herd's shape as the lead gives it. -/
def Herd.size (h : Herd) (d : Nat) : Nat := if d = 0 then h.shape.1 else if d = 1 then h.shape.2.1 else h.shape.2.2

/-- One step from a node in the herd's shape. -/
def Herd.step (h : Herd) (n d : Nat) (neg : Bool) : Nat :=
  let z := max 1 (h.size d)
  withCoord n d (if neg then (coord n d + z - 1) % z else (coord n d + 1) % z)

/-- The node at the far end of a face. -/
def State.mateOf (s : State) (k : Nat) : Nat := s.herd.step s.ownId (k / 2) (k % 2 == 1)

/-- Links in a state. -/
def State.linksIn (s : State) (st : Nat) : List Nat := (List.range 6).filter fun k => (s.link k).state == st

/-- A tide-and-control message of a source put straight on one link (R405). -/
def State.sendFrom (s : State) (k dst src : Nat) (body : Bytes) : State :=
  let l := s.link k
  let p : Packet := { dst := dst, src := src, typ := 0x10, body := body }
  if l.state = 2 ∨ l.state = 3 then (s.emit (.packet k p)).linkSend k (flitsOf l.secure 0 p) else s

/-- A message toward the lead: by its route from a member, by the parent face before (R441). -/
def State.sendUp (s : State) (src : Nat) (body : Bytes) : State :=
  if s.node.valid then
    match s.route s.herd.lead with
    | some r => s.forward { dst := s.herd.lead, src := src, typ := 0x10, route := r, body := body } 0
    | none => s
  else
    match s.herd.parent with
    | some k => s.sendFrom k s.herd.lead src body
    | none => s

/-- What this node's JOIN says: its trained links' partners (R441). -/
def State.ownJoin (s : State) : Joined :=
  ⟨s.ownId, s.herd.serial, s.tide.now, (List.range 6).map fun k => if (s.link k).trained then s.mateOf k else 0xFFFF⟩

/-- The body of JOIN. -/
def joinBody (j : Joined) : Bytes :=
  leBytes 1 0x22 ++ leBytes 1 0 ++ leBytes 2 j.node ++ leBytes 4 j.serial ++ leBytes 8 j.keeper ++ j.partners.flatMap fun p => leBytes 2 p

def joinOf (b : Bytes) : Joined := ⟨leAt b 2 2, leAt b 4 4, leAt b 8 8, (List.range 6).map fun i => leAt b (16 + 2 * i) 2⟩

/-- Parts of a list, at most `n` elements each, over `fuel` parts. -/
def chunks {α : Type} (n : Nat) : Nat → List α → List (List α)
  | 0, _ => []
  | k + 1, l => if l.length ≤ n then [l] else l.take n :: chunks n k (l.drop n)

/-- The bodies of a membership set's parts (Table 21-4): member entries, then link entries, 1,000 in a part. -/
def setBodies (m : MemberSet) : List Bytes :=
  let items := m.entries.map (fun e => (false, e)) ++ m.links.map fun e => (true, e)
  let ps := chunks 1000 (items.length + 1) items
  ps.zipIdx.map fun p =>
    let es := p.1.filter fun e => !e.1
    let ls := p.1.filter fun e => e.1
    leBytes 1 0x23 ++ leBytes 1 m.kind ++ leBytes 2 (ofBool (p.2 + 1 == ps.length)) ++ leBytes 4 m.seq ++ leBytes 8 m.effective ++
    leBytes 2 es.length ++ leBytes 2 ls.length ++ leBytes 2 p.2 ++ zeros 2 ++ leBytes 4 m.serial ++ zeros 4 ++
    (es.flatMap fun e => leBytes 2 e.2.1 ++ leBytes 2 e.2.2) ++ (ls.flatMap fun e => leBytes 2 e.2.1 ++ leBytes 1 e.2.2 ++ leBytes 1 0)

def setPartOf (b : Bytes) : SetPart :=
  let n := leAt b 16 2
  ⟨leAt b 4 4, leAt b 20 2, bitAt (byteAt b 2) 0,
    { kind := byteAt b 1, seq := leAt b 4 4, effective := leAt b 8 8, serial := leAt b 24 4,
      entries := (List.range n).map fun i => (leAt b (32 + 4 * i) 2, leAt b (34 + 4 * i) 2),
      links := (List.range (leAt b 18 2)).map fun i => (leAt b (32 + 4 * n + 4 * i) 2, byteAt b (34 + 4 * n + 4 * i)) }⟩

/-- The body of MEMBER_ACK. -/
def memberAckBody (seq part : Nat) : Bytes := leBytes 1 0x24 ++ zeros 3 ++ leBytes 4 seq ++ leBytes 2 part

/-- The body of BOOT_REQ (R461). -/
def bootReqBody (node : Nat) : Bytes := leBytes 1 0x28 ++ leBytes 1 0 ++ leBytes 2 node ++ zeros 10

/-! Twin pairs (R448, R460). -/

/-- The body of TWIN_PAIR. -/
def pairBody (node partner link : Nat) : Bytes := leBytes 1 0x32 ++ leBytes 1 0 ++ leBytes 2 node ++ leBytes 2 partner ++ leBytes 1 link

/-- The pair forms on this node: its first cut carries its whole state (R450, R460). -/
def State.pairForm (s : State) (partner : Nat) : State :=
  let s1 := s.modTiers fun t => { t with skimOther := t.skimOther - (if s.twin.hosting.isNone then mirrorMib s.twin.mirror else 0) }
  s1.modTwin fun t => { t with
    paired := true, degraded := false, asked := true, partner := partner, unacked := 0, sent := [], incoming := [], runs := [], full := false,
    mirror := if t.hosting.isNone then [] else t.mirror, heardAt := s.chrono }

/-- A node's report of its pair reaches the lead: with the other end's matching report, each end is told of the other's (R448). -/
def State.pairHeard (s : State) (node partner link : Nat) : State :=
  let s1 := s.modTwin fun t => { t with reported := Table.put t.reported node (partner * 8 + link) }
  match Table.find? s1.twin.reported partner with
  | none => s1
  | some v =>
    if v % 2 ^ 32 / 8 = node ∧ v % 8 = link / 2 * 2 + (1 - link % 2) then
      [(node, partner, v % 8), (partner, node, link)].foldl (fun (s : State) e =>
        if e.1 = s.node.id then s.pairForm e.2.1 else s.sendCtrl e.1 (pairBody e.2.1 e.1 e.2.2)) s1
    else s1.raiseOwn 0x0DA 19

/-- A report that no other end has matched for a beat period: one end only names the link (R448). -/
def State.pairCheck (s : State) : State :=
  s.twin.reported.foldl (fun (s : State) e =>
    let age := e.2 / 2 ^ 32
    let mate := Table.findD s.twin.reported (e.2 % 2 ^ 32 / 8) (2 ^ 32)
    if mate % 2 ^ 32 / 8 = e.1 ∧ mate ≠ 2 ^ 32 ∨ 2 ≤ age then s
    else
      let s1 := s.modTwin fun t => { t with reported := Table.put t.reported e.1 (e.2 + 2 ^ 32) }
      if age = 1 then s1.raiseOwn 0x0DA 19 else s1) s

/-- A member whose twin link is ACTIVE reports the pair to the lead once. -/
def State.pairSettle (s : State) : State :=
  match s.twinLink with
  | none => s
  | some k =>
    let l := s.link k
    if s.fld HERD.STATE = 3 ∧ l.state = 3 ∧ !s.twin.asked ∧ (!s.twin.paired ∨ s.twin.degraded) then
      let mate := s.mateOf k
      let s1 := s.modTwin fun t => { t with asked := true }
      if s.isLead then s1.pairHeard s.node.id mate k else s1.sendCtrl s.herd.lead (pairBody s.node.id mate k)
    else s

/-! Membership sets (R441, R443, R444, R458, R461). -/

/-- This node becomes a member under an ID (R441). -/
def State.becomeMember (s : State) (id : Nat) : State :=
  let s1 := { s with node := ⟨id, true⟩ }.setFld HERD.STATE 3
  let s2 := (((s1.setFld ROUTE.SIZE_X (s.herd.size 0)).setFld ROUTE.SIZE_Y (s.herd.size 1)).setFld ROUTE.SIZE_Z (s.herd.size 2)).setFld ROUTE.SHAPE_VALID 1
  s2.modHerd fun h => { h with formed := true, derived := some id, waitJoins := none, electAt := none, lowest := none, offer := none, serial := 0 }

/-- This node is a herd of one, under an ID (R15, R442). -/
def State.becomeAlone (s : State) (id : Nat) : State :=
  let s1 := { s with node := ⟨id, true⟩ }.setFld HERD.STATE 1
  (s1.modHerd fun h => { h with
    formed := true, derived := none, parent := none, lead := id, joins := [], spares := [], parts := [], pendingSets := [], waits := [],
    aliases := [], waitJoins := none, electAt := none, lowest := none, serial := 0 }).modFabric fun f => { f with
      members := [id], map := [], pendingRoutes := [], routeWaits := [] }

/-- Node IDs in ascending order, each once. -/
def idSort (l : List Nat) : List Nat := sortBy (fun a b => decide (a ≤ b)) l.eraseDups

/-- The twin's alias host entries of a set. -/
def hostsOf (m : MemberSet) : List (Nat × Nat) := m.entries.filter fun e => e.2 != 0xFFFF

/-- A member's first report is awaited from the next beat on (R209, R444). -/
def State.awaitReports (s : State) (ns : List Nat) : State :=
  s.modTide fun t => { t with reports := t.reports.filter fun e => !ns.contains e.1 }

/-- A membership set takes effect (R441, R443, R444, R447, R455, R458). -/
def State.applySet (s : State) (m : MemberSet) : State :=
  let ids := m.entries.map (·.1)
  let s0 := s.modHerd fun h => { h with lastSet := some m.seq, pendingSets := h.pendingSets.filter fun x => x.seq != m.seq }
  match m.kind with
  | 0 =>
    if !ids.contains s.ownId then s0
    else
      let keys := idSort (m.links.map fun e => e.1 * 4 + e.2)
      let s1 := (s0.becomeMember s.ownId).modFabric fun f => { f with members := idSort ids, map := keys }
      let s2 := (s1.modHerd fun h => { h with aliases := (hostsOf m).foldl (fun t e => Table.put t e.1 e.2) [] }).modTide fun t => { t with
        lastSeq := none, reports := [] }
      let s3 := m.links.foldl (fun s e =>
        match s.ownFace e.1 e.2 with
        | some k => s.serveLink k true
        | none => s) s2
      (s3.modTwin fun t => { t with reported := [], asked := false }).pairSettle
  | 1 =>
    let me := ids.contains s.ownId && s.fld HERD.STATE == 2
    let s1 := if me then (s0.becomeMember s.ownId).modTide fun t => { t with lastSeq := none } else s0
    let news := ids.filter fun n => !s.fabric.members.contains n || Table.has s.herd.aliases n
    let s2 := (s1.modFabric fun f => { f with members := idSort (f.members ++ ids) }).modHerd fun h => { h with
      aliases := (hostsOf m).foldl (fun t e => Table.put t e.1 e.2) (h.aliases.filter fun e => !ids.contains e.1) }
    let s3 := news.foldl (fun s n => s.stopHosting n) s2
    let s4 :=
      if me then
        let ks := (s3.linksIn 2).filter fun k => ids.contains (s3.mateOf k)
        let s4 := s3.modFabric fun f => { f with map := idSort (f.map ++ ks.map fun k => let n := s3.linkName k; n.1 * 4 + n.2) }
        (ks.foldl (fun (s : State) k => s.serveLink k true) s4).resumeState
      else s3
    let s5 := if s4.isLead && !me then (s4.awaitReports news).count HERD.JOINS news.length else s4
    (s5.modTwin fun t => { t with reported := t.reported.filter fun e => !news.contains e.1 }).pairSettle
  | 2 =>
    if ids.contains s.node.id then
      let s1 := (s0.linksIn 3).foldl (fun (s : State) k => s.serveLink k false) s0
      s1.degrade.becomeAlone 0
    else
      let s1 := if ids.contains s.twin.partner && s.twin.paired then s0.degrade else s0
      let s2 := (s1.modFabric fun f => { f with members := f.members.filter fun n => !ids.contains n }).modHerd fun h => { h with
        aliases := h.aliases.filter fun e => !ids.contains e.1 && !ids.contains e.2, gone := h.gone.filter fun n => !ids.contains n,
        joins := h.joins.filter fun j => !ids.contains j.node,
        waits := h.waits.map fun w => { w with missing := w.missing.filter fun x => !ids.contains x.2 } }
      let s3 := s2.modFabric fun f => { f with routeWaits := f.routeWaits.map fun w => { w with missing := w.missing.filter fun n => !ids.contains n } }
      let s4 := (s3.modTwin fun t => { t with reported := t.reported.filter fun e => !ids.contains e.1 }).awaitReports ids
      let s5 := if (hostsOf m).isEmpty then s4 else s4.fault 4 0x32 0 0x0F0 0 ((hostsOf m).headD (0, 0)).1
      if s5.isLead then ids.foldl (fun s n => (s.tblHeard n).reassign n) s5 else s5
  | _ =>
    let s1 := s0.modHerd fun h => { h with aliases := (hostsOf m).foldl (fun t e => Table.put t e.1 e.2) h.aliases, gone := h.gone.filter fun n => !ids.contains n }
    m.entries.foldl (fun (s : State) e => if e.2 = s.node.id ∧ s.twin.hosting ≠ some e.1 then s.degrade.hostNode e.1 else s) s1

/-- Whether a set that is whole takes effect at a tide: FORM and ALIAS on receipt, an ADD that admits this node on receipt, others at
their tide. -/
def State.setDue (s : State) (t : Nat) (m : MemberSet) : Bool :=
  m.kind == 0 || m.kind == 3 || decide (m.effective ≤ t) || (m.kind == 1 && s.fld HERD.STATE == 2)

/-- Whole sets applied in ascending MSET_SEQ as they fall due, over `fuel` sets. -/
def State.setSettle (t : Nat) : Nat → State → State
  | 0, s => s
  | n + 1, s =>
    match s.herd.pendingSets with
    | [] => s
    | m :: _ =>
      let inTurn := match s.herd.lastSet with
        | none => true
        | some l => m.seq == l + 1 || m.kind == 0
      if inTurn && s.setDue t m then State.setSettle t n (s.applySet m) else s

/-- A whole set held, once, until it takes effect. -/
def State.holdSet (s : State) (m : MemberSet) : State :=
  let old := match s.herd.lastSet with
    | none => false
    | some l => decide (m.seq ≤ l)
  if old || s.herd.pendingSets.any (fun x => x.seq == m.seq) then s
  else
    let s1 := s.modHerd fun h => { h with pendingSets := insertBy (fun a b => decide (a.seq ≤ b.seq)) m h.pendingSets }
    State.setSettle s1.tide.now s1.herd.pendingSets.length s1

/-- Parts sent to nodes: hop by hop on SPARE links, and by route. -/
def State.sendParts (s : State) (m : MemberSet) (hop : Bool) (tos : List Nat) (parts : List Nat) : State :=
  let bs := setBodies m
  parts.foldl (fun (s : State) i =>
    let b := bs.getD i []
    let s1 := if hop then (s.linksIn 2).foldl (fun (s : State) k => s.sendFrom k (s.mateOf k) s.ownId b) s else s
    tos.foldl (fun s n => s.sendCtrl n b) s1) s

/-- The lead issues a membership set: it sends every part and keeps those that are not acknowledged (R461). -/
def State.issueSet (s : State) (kind eff : Nat) (entries links : List (Nat × Nat)) : State :=
  let m : MemberSet := { kind := kind, seq := s.herd.nextSet, effective := eff, serial := if kind = 0 then s.herd.serial else 0,
                         entries := entries, links := links }
  let parts := List.range (setBodies m).length
  let all := if kind = 0 then (entries.map (·.1)).filter fun n => n != s.ownId
    else if kind = 1 then idSort (s.others ++ (entries.map (·.1)).filter fun n => n != s.node.id) else s.others
  let missing := parts.flatMap fun p => all.map fun n => (p, n)
  let s1 := s.modHerd fun h => { h with nextSet := h.nextSet + 1, waits := if missing.isEmpty then h.waits else h.waits ++ [⟨m, missing⟩] }
  let byRoute := if kind = 0 ∧ m.serial = 0 then [] else all
  (s1.sendParts m (decide (kind ≤ 1)) byRoute parts).holdSet m

/-- Parts without an acknowledgement sent again (R461). -/
def State.resendSets (s : State) : State :=
  s.herd.waits.foldl (fun (s : State) w =>
    let parts := (w.missing.map (·.1)).eraseDups
    parts.foldl (fun (s : State) p =>
      let tos := (w.missing.filter fun e => e.1 == p).map (·.2)
      s.sendParts w.set (decide (w.set.kind ≤ 1)) (if w.set.kind = 0 ∧ w.set.serial = 0 then [] else tos) [p]) s) s

/-- Route changes without an acknowledgement sent again (R433). -/
def State.resendRoutes (s : State) : State :=
  s.fabric.routeWaits.foldl (fun (s : State) w => w.missing.foldl (fun s n => s.sendCtrl n (routeBody w.change)) s) s

/-- Every link of the map whose ends are both among some nodes, and the links of joined nodes among them, by the joins' partners (R441). -/
def joinLinks (h : Herd) (js : List Joined) : List (Nat × Nat) :=
  js.flatMap fun j => (List.range 3).filterMap fun d =>
    let far := j.partners.getD (2 * d) 0xFFFF
    if far == h.step j.node d false && js.any (fun x => x.node == far && x.partners.getD (2 * d + 1) 0xFFFF == j.node) then some (j.node, d) else none

/-- The lead ends its wait for JOINs: MEMBER_SET FORM, and after a herd reset the removal of those that did not join (R441, R447). -/
def State.sendForm (s : State) : State :=
  let js := s.ownJoin :: s.herd.joins.filter fun j => j.node != s.ownId
  let ids := idSort (js.map (·.node))
  let again := s.herd.serial != 0
  let links := (joinLinks s.herd js).filter fun e => !again || s.fabric.map.contains (e.1 * 4 + e.2)
  let old := s.fabric.members.filter fun n => !ids.contains n
  let oldLinks := (s.fabric.map.filter fun k => old.contains (k / 4) || old.contains (s.herd.step (k / 4) (k % 4) false)).map fun k => (k / 4, k % 4)
  let s1 := (s.modHerd fun h => { h with waitJoins := none }).issueSet 0 0 (ids.map fun n => (n, 0xFFFF)) links
  if again && !old.isEmpty then
    let eff := s1.tide.now
    let s2 := s1.issueRoute 0 eff (oldLinks.length + 1) oldLinks
    (s2.count HERD.MEMBERS_LOST old.length).issueSet 2 eff (old.map fun n => (n, 0xFFFF)) []
  else s1

/-! Losing and admitting members (R443, R444, R458). -/

/-- The links of a node in the map. -/
def State.linksOfNode (s : State) (n : Nat) : List (Nat × Nat) :=
  (s.fabric.map.filter fun k => k / 4 == n || s.neighbour (k / 4) (k % 4) false == n).map fun k => (k / 4, k % 4)

/-- A member leaves the herd (R444). -/
def State.removeNode (s : State) (n : Nat) : State :=
  let links := s.linksOfNode n
  let eff := s.tide.now
  let s1 := (s.modHerd fun h => { h with gone := (h.gone ++ [n]).eraseDups }).issueRoute 0 eff (links.length + 1) links
  s1.issueSet 2 eff [(n, 0xFFFF)] []

/-- Both twins of a pair leave together; the set names each one's twin beside it (R459, PAIR_LOST). -/
def State.removePair (s : State) (a b : Nat) : State :=
  let links := (s.linksOfNode a ++ s.linksOfNode b).eraseDups
  let eff := s.tide.now
  let s1 := (s.modHerd fun h => { h with gone := (h.gone ++ [a, b]).eraseDups }).issueRoute 0 eff (links.length + 1) links
  s1.issueSet 2 eff [(a, b), (b, a)] []

/-- A lost member's twin, where the lead knows a pair (R448). -/
def State.twinOf (s : State) (n : Nat) : Option Nat :=
  match Table.find? s.twin.reported n with
  | none => none
  | some v =>
    let m := v % 2 ^ 32 / 8
    if (Table.find? s.twin.reported m).any (fun w => w % 2 ^ 32 / 8 == n) && s.fabric.members.contains m && !Table.has s.herd.aliases m
    then some m else none

/-- The lead's check of every member as it sends beat `n` (R444): a lost one with a twin is hosted there, any other leaves. -/
def State.lossCheck (s : State) (n : Nat) : State :=
  let late (m : Nat) : Bool :=
    match Table.find? s.tide.reports m with
    | some r => decide (r.beatSeq + s.fld HERD.LOSS_BEATS < n)
    | none => decide (s.fld HERD.LOSS_BEATS < n)
  let lost := s.others.filter fun m => late m && !Table.has s.herd.aliases m && !s.herd.gone.contains m
  let s1 := lost.foldl (fun (s : State) m =>
    let s1 := s.count HERD.MEMBERS_LOST 1
    -- the host of a lost member that is lost itself takes that member with it
    match List.find? (fun (e : Nat × Nat) => e.2 == m) s.herd.aliases, s.twinOf m with
    | some e, _ => s1.removePair m e.1
    | none, some t => if lost.contains t then (if s.herd.gone.contains m then s1 else s1.removePair m t) else s1.issueSet 3 s.tide.now [(m, t)] []
    | none, none => s1.removeNode m) s
  s1

/-- The lead admits a node that has joined: its links and itself at the next epoch boundary (R443, R458). -/
def State.admitNode (s : State) (n : Nat) : State :=
  match s.herd.spares.find? fun j => j.node == n with
  | none => s
  | some j =>
    let eff := s.nextBoundary s.tide.now
    let s1 := s.modHerd fun h => { h with spares := h.spares.filter fun x => x.node != n, joins := (h.joins.filter fun x => x.node != n) ++ [j] }
    let own := (List.range 6).filterMap fun k =>
      let far := j.partners.getD k 0xFFFF
      if far == s.herd.step n (k / 2) (k % 2 == 1) && s.fabric.members.contains far then some (if k % 2 = 0 then n else far, k / 2) else none
    let links := (s.fabric.map.map fun k => (k / 4, k % 4)) ++ own.filter fun e => !s.fabric.map.contains (e.1 * 4 + e.2)
    let members := idSort (s.memberList ++ [n])
    let s2 := s1.issueRoute 1 eff (links.length + 1) links
    let s3 := s2.modFabric fun f => { f with routeWaits := f.routeWaits.map fun w =>
      if w.change.effective = eff ∧ w.change.kind = 1 then { w with missing := idSort (n :: w.missing) } else w }
    s3.issueSet 1 eff (members.map fun m => (m, if m = n then 0xFFFF else (Table.find? s.herd.aliases m).getD 0xFFFF)) []

/-- A JOIN at the lead (R441, R443, R447, R458). -/
def State.joinHeard (s : State) (j : Joined) : State :=
  if s.herd.waitJoins.isSome && j.serial == s.herd.serial then
    s.modHerd fun h => { h with joins := (h.joins.filter fun x => x.node != j.node) ++ [j] }
  else if s.fld HERD.STATE = 3 ∧ j.serial = 0 then
    let s1 := s.modHerd fun h => { h with spares := (h.spares.filter fun x => x.node != j.node) ++ [j] }
    match Table.find? s.herd.aliases j.node with
    | some t => if t = s.node.id then s1.startReturn j.node else s1.sendCtrl t (joinBody j)
    | none => if s.bit HERD.AUTO_ADMIT then s1.admitNode j.node else s1
  else s

/-! Formation and election (R439 to R442, R445). -/

/-- A claim passed on, on every SPARE link of a forming node, or every ACTIVE link during an election, but the one it came by. -/
def State.relayClaim (s : State) (from_ : Nat) (body : Bytes) : State :=
  let st := if s.fld HERD.STATE = 3 then 3 else 2
  ((s.linksIn st).filter fun k => k != from_).foldl (fun (s : State) k =>
    s.sendFrom k (if st = 3 then s.mateOf k else 0xFFFF) s.ownId body) s

/-- A LEAD_CLAIM arrives (R439, R445). -/
def State.claimHeard (s : State) (k : Nat) (b : Bytes) : State :=
  let id := leAt b 2 2
  let lower := match s.herd.lowest with
    | none => true
    | some l => decide (id < l)
  if !lower then s
  else
    let s1 := s.modHerd fun h => { h with lowest := some id }
    if s.fld HERD.STATE = 0 ∧ s.herd.serial = 0 then s1.relayClaim k b
    else if s.fld HERD.STATE = 3 ∧ id ≠ s.node.id then
      (s1.relayClaim k b).sendCtrl id (leBytes 1 0x25 ++ leBytes 1 0 ++ leBytes 2 s.node.id ++ zeros 4 ++ leBytes 8 s.tide.now)
    else s1

/-- This node's own claim begins an election (R445). -/
def State.startElection (s : State) : State :=
  let s1 := s.modHerd fun h => { h with electAt := some s.chrono, electAcks := [] }
  if s.herd.lowest.any fun l => decide (l < s.node.id) then s1
  else (s1.modHerd fun h => { h with lowest := some s.node.id }).relayClaim 6 s.claim

/-- The election's winner becomes the lead; members that did not answer are lost, the old lead leaves (R445). -/
def State.winElection (s : State) : State :=
  let old := s.herd.lead
  let next := (s.herd.lastSet.elim 0 (· + 1))
  let s1 := s.modHerd fun h => { h with
    lead := s.node.id, electAt := none, lowest := none, nextSet := next, pendingSets := [], waits := [],
    joins := (h.electAcks.map fun e => ⟨e.1, 0, e.2, []⟩) }
  let s2 := (s1.modTide fun t => { t with lastSeq := none, sendSeq := 0, reports := [] }).modFabric fun f => { f with
    nextEpoch := f.seenEpochs.foldl max s.fabric.nextEpoch + 1, routeWaits := [] }
  let lost := s.others.filter fun n => n != old && !Table.has s.herd.electAcks n
  let s3 := (lost.foldl (fun (s : State) n => (s.count HERD.MEMBERS_LOST 1).removeNode n) s2)
  if s.fabric.members.contains old then s3.removeNode old else s3

/-- This node takes its ID from the first HERD_FORM (R440): the face it came by, its body. -/
def State.derive (s : State) (k : Nat) (b : Bytes) : State :=
  let h1 : Herd := { s.herd with shape := (byteAt b 6, byteAt b 7, byteAt b 8) }
  let id := h1.step (leAt b 4 2) (k / 2) (k % 2 == 0)
  let refuse (s : State) : State := (s.setFld HERD.STATE 5).raiseOwn 0x0D9 16
  match s.herd.derived with
  | some d => if d = id then s else refuse s
  | none =>
    if s.bit HERD.ID_SET ∧ s.fld HERD.REQ_ID ≠ id then refuse s
    else
      let s1 := s.modHerd fun h => { h with
        parent := some k, derived := some id, lead := leAt b 2 2, shape := h1.shape, serial := leAt b 12 4, offer := none, joins := [] }
      let s2 := ((s1.linksIn 2).filter fun j => j != k).foldl (fun s j => s.formOn j) s1
      let s3 := (s2.sendUp id (joinBody s2.ownJoin)).modHerd fun h => { h with serial := 0 }
      if s3.fld GLOBAL.BOOT_SRC = 1 ∧ s3.fld ROLAR.STATE = 0 ∧ !s3.herd.bootAsked then
        (s3.sendUp id (bootReqBody id)).modHerd fun h => { h with bootAsked := true }
      else s3

/-- A HERD_FORM arrives (R440, R442, R443). -/
def State.formHeard (s : State) (k : Nat) (b : Bytes) : State :=
  match s.fld HERD.STATE with
  | 0 => if s.herd.serial = 0 then s.derive k b else s
  | 2 => s.derive k b
  | 1 => s.modHerd fun h => { h with offer := some (k, b) }
  | 3 => if s.node.id = leAt b 4 2 ∧ k = 6 then (s.linksIn 2).foldl (fun s j => s.formOn j) s else s
  | _ => s

/-- FORM_MS in ns. -/
def State.formNs (s : State) : Nat := s.fld HERD.FORM_MS * 1000000

/-- FORM_MS has passed (R439, R441, R442, R445): the lead's wait for JOINs ends, else an election ends, else the formation. -/
def State.formExpire (s : State) : State :=
  let due (t : Option Nat) : Bool := t.any fun t => decide (t + s.formNs ≤ s.chrono)
  if due s.herd.waitJoins then s.sendForm
  else if due s.herd.electAt then
    if s.herd.lowest = some s.node.id then s.winElection else s.modHerd fun h => { h with electAt := none }
  else if s.fld HERD.STATE = 0 ∧ !s.herd.formed ∧ s.herd.serial = 0 ∧ s.herd.formAt + s.formNs ≤ s.chrono then
    let id := s.fld HERD.REQ_ID
    let s1 := s.modHerd fun h => { h with formed := true }
    if !s.anyTrained then s1.becomeAlone 0
    else if s.candidate && s.herd.derived.isNone && s.herd.lowest.all (fun l => decide (id ≤ l)) then
      let s2 := s1.modHerd fun h => { h with
        lead := id, derived := some id, shape := (s.fld HERD.SIZE_X, s.fld HERD.SIZE_Y, s.fld HERD.SIZE_Z), joins := [], waitJoins := some s.chrono }
      (s2.linksIn 2).foldl (fun s k => s.formOn k) s2
    else s1
  else s

end Sys2Proof.Machine
end

