-- ==== Sys2Proof/Machine/TideOps.lean ====
section
/-! DEFINITION. Cuts taken, beats, reports, epoch pulses, and what happens as the tide passes (R209 to R220, R451, R457, R510). -/

namespace Sys2Proof.Machine

open Sys2Proof.Reg

/-! Cuts (R451, R454). -/

/-- The body of TWIN_CUT. -/
def twinCutBody (cut tide bytes : Nat) : Bytes := leBytes 1 0x30 ++ zeros 3 ++ leBytes 4 cut ++ leBytes 8 tide ++ leBytes 8 bytes

/-- A cut is due at the beat just applied (R451). -/
def State.cutDue (s : State) : Bool :=
  s.twin.paired && !s.twin.degraded &&
    (decide (s.tide.lastSeq.getD 0 % max 1 (s.fld TWIN.CUT_BEATS) = 0) ||
      s.twin.waits.any fun w => w.cut.isNone && decide (w.minTide ≤ s.tide.now))

/-- A cut: the runs that changed since the last one, then TWIN_CUT. A twin that has acknowledged none of the last LOSS_BEATS + 1 cuts is
lost (R454). -/
def State.takeCut (s : State) : State :=
  match s.twinLink with
  | none => s
  | some k =>
    if s.fld HERD.LOSS_BEATS + 1 ≤ s.twin.unacked then s.degrade
    else
      let cut := s.twin.cutSeq + 1
      let r := s.cutRuns
      let bytes := r.1.foldl (fun n x => n + x.payload.length) 0
      let s1 := r.1.foldl (fun (s : State) x => s.sendMirror k s.twin.partner cut x) s
      (s1.sendOnLink k s.twin.partner (twinCutBody cut s.tide.now bytes)).modTwin fun t => { t with
        cutSeq := cut, sent := r.2, cutTides := Table.put t.cutTides cut s.tide.now, unacked := t.unacked + 1,
        waits := t.waits.map fun w => if w.cut.isNone ∧ w.minTide ≤ s.tide.now then { w with cut := some (cut, s.tide.now) } else w }

/-- TWIN_ACK for a cut: held outputs leave and MIRROR_CUTs end (R451 to R453). -/
def State.twinAck (s : State) (cut : Nat) : State :=
  if s.twin.acked < cut ∧ cut ≤ s.twin.cutSeq then
    let n := cut - s.twin.acked
    let s1 := (s.modTwin fun t => { t with
      acked := cut, unacked := t.cutSeq - cut, cutTides := t.cutTides.filter fun e => decide (cut < e.1) }).count TWIN.CUTS n
    let hit (w : CutWait) : Bool := w.cut.any fun c => decide (c.1 ≤ cut)
    let s2 := (s1.modFabric fun f => { f with reqs := f.reqs.filter fun e => !(e.2.why == .mirror && decide (e.2.pkt.arg0 % 2 ^ 32 ≤ cut)) })
    s2.releaseHeld.endCuts hit 0 fun w => (w.cut.elim 0 (·.2))
  else s

/-! TIDE_OUT (R215) and alarms (R218). -/

/-- A rising edge of TIDE_OUT; one less than 200 ns after the previous edge is merged into it. -/
def State.tideOutEdge (s : State) (at_ : Nat) : State :=
  if s.tide.lastOut.any fun t => decide (at_ < t + 200) then s
  else (s.emit (.tideOut at_)).modTide fun t => { t with lastOut := some at_ }

def State.alarm (s : State) (n : Nat) : Alarm := Table.findD s.tide.alarms n {}

/-- An alarm fires. -/
def State.fireAlarm (s : State) (n : Nat) : State :=
  let a := s.alarm n
  let s1 := s.modTide fun t => { t with alarms := Table.put t.alarms n { a with arm := false } }
  let f := TIDE.ALARM_FIRED.at (n / 64)
  let s2 := (s1.setFld f (s1.fld f + 2 ^ (n % 64) * (1 - s1.fld f / 2 ^ (n % 64) % 2))).count TIDE.ALARMS_FIRED 1
  let s3 := if a.irq then s2.irqEvent 0 0x058 else s2
  let s4 := if a.ctr then (s3.ctrDec a.ctrId 1).rennetSettle else s3
  if a.out && s4.fld TIDE.OUT_SEL == 2 then s4.tideOutEdge s4.chrono else s4

/-! Checkpoints (R510). -/

/-- A checkpoint at a tide value. -/
def State.checkpoint (s : State) (t : Nat) : State :=
  let s1 := s.fault 0 0x40 0 0x0F0 0 t
  let s2 := if s1.bit FAULT.CKPT_CTR_VALID then (s1.ctrDec (s1.fld FAULT.CKPT_CTR_ID) 1).rennetSettle else s1
  (s2.irqEvent 0 0x0F0).count FAULT.CHECKPOINTS 1

/-! Events as the tide passes (R216, R217). -/

/-- The values `base` + k × `step` above `lo` and no greater than `hi`. -/
def stepsIn (base step lo hi : Nat) : List Nat :=
  if step = 0 then []
  else
    let first := if lo < base then base else base + ((lo - base) / step + 1) * step
    if hi < first then [] else (List.range ((hi - first) / step + 1)).map fun i => first + i * step

/-- WAIT_TIDE descriptors that wait for a tide no greater than `t`, in fetch order (R157). -/
def State.tideWaits (s : State) (t : Nat) : List Nat :=
  (s.work.descs.filter fun (e : Nat × Desc) =>
    e.2.state == .started && dType e.2.raw == 3 && decide (leAt e.2.raw 8 8 ≤ t)).map fun (e : Nat × Desc) => e.1

/-- The tide values above `lo` up to `hi` at which something is scheduled. -/
def State.tideValues (s : State) (lo hi : Nat) : List Nat :=
  let inside (t : Nat) : Bool := decide (lo < t) && decide (t ≤ hi)
  let vs := (s.fabric.pendingRoutes.map (·.effective)).filter inside ++ (s.herd.pendingSets.map (·.effective)).filter inside ++
    stepsIn 0 (max 1 s.epochTu) lo hi ++ stepsIn (s.fld FAULT.CKPT_BASE) (s.fld FAULT.CKPT_STEP) lo hi ++
    ((s.tide.alarms.filter fun e => e.2.arm).map fun e => e.2.tide).filter inside ++
    ((s.work.descs.map fun (e : Nat × Desc) => leAt e.2.raw 8 8).filter inside) ++ [hi]
  idSort vs

/-- The windows that close as the tide passes from `lo` to `hi` (class 5). -/
def State.closeWindows (s : State) (lo hi : Nat) : State := if hi ≤ lo then s else (s.ripenerTide lo hi).hostedTide lo hi

/-- The events at one tide value, in class order; `lo` is the value before it, `last` that it is the beat's tide. -/
def State.tideAt (s : State) (lo t : Nat) (last : Bool) : State :=
  let s0 := if lo < t then s.closeWindows lo (t - 1) else s
  let routes := s0.fabric.pendingRoutes.filter fun c => decide (c.effective ≤ t)
  let s1 := routes.foldl (fun s c => s.applyRoute c) s0
  let s2 := (State.setSettle t s1.herd.pendingSets.length s1).pairSettle
  let s3 := if last && s2.cutDue then s2.takeCut else s2
  let e := max 1 s3.epochTu
  let s4 := if t % e = 0 ∧ 0 < t ∧ lo < t then s3.ladleEpoch (t / e - 1) t else s3
  let s5 := if lo < t then s4.closeWindows (t - 1) t else s4
  let s6 := if lo < t ∧ (stepsIn (s5.fld FAULT.CKPT_BASE) (s5.fld FAULT.CKPT_STEP) (t - 1) t).contains t then s5.checkpoint t else s5
  let as := (s6.tide.alarms.filter fun a => a.2.arm && decide (a.2.tide ≤ t)).map (·.1)
  let s7 := as.foldl (fun s n => s.fireAlarm n) s6
  (s7.tideWaits t).foldl (fun s id => s.endDesc id 0 0xFFFF 0 false) s7

/-- The tide raised from `lo` to `hi` with every event on the way, in ascending order. -/
def State.tideEvents (s : State) (lo hi : Nat) : State :=
  let vs := if hi = lo then [hi] else s.tideValues lo hi
  (vs.foldl (fun (r : State × Nat) t => (r.1.tideAt r.2 t (t == hi), t)) (s, lo)).1

/-! Beats and reports (R211 to R213). -/

/-- A beat's fields (Table 10-3). -/
structure Beat where
  lead : Nat
  seq : Nat
  tide : Nat
  chrono : Nat
  periodUs : Nat
  scale : Nat
  pulse : Bool
  mode : Nat
  gate : Bool
  epochTu : Nat
  deriving DecidableEq, Repr

/-- The bytes of a beat. -/
def beatBytes (b : Beat) : Bytes :=
  let body := leBytes 1 1 ++ leBytes 1 1 ++ leBytes 2 b.lead ++ leBytes 4 b.seq ++ leBytes 8 b.tide ++ leBytes 8 b.chrono ++
    leBytes 4 b.periodUs ++ leBytes 1 b.scale ++ leBytes 1 (ofBool b.pulse + 2 * b.mode + 8 * ofBool b.gate) ++ zeros 2 ++
    leBytes 8 b.epochTu ++ zeros 20
  body ++ leBytes 4 (crc32c body)

/-- A beat read from its bytes; none where CRC, MSG, VERSION or a reserved field is wrong. -/
def beatOf (b : Bytes) : Option Beat :=
  let f := byteAt b 29
  if b.length = 64 ∧ byteAt b 0 = 1 ∧ byteAt b 1 = 1 ∧ byteAt b 28 < 16 ∧ f < 16 ∧ zeroFrom b 30 32 ∧ zeroFrom b 40 60 ∧
      leAt b 60 4 = crc32c (b.take 60) then
    some ⟨leAt b 2 2, leAt b 4 4, leAt b 8 8, leAt b 16 8, leAt b 24 4, byteAt b 28, bitAt f 0, f / 2 % 4, bitAt f 3, leAt b 32 8⟩
  else none

/-- A node's report of the beat it has just applied. -/
def State.report (s : State) (seq : Nat) : Report := ⟨seq, s.localWm, s.tide.now⟩

/-- A beat takes effect on this node (R204, R213, R216): the tide rises, every event on the way, then the report. -/
def State.applyBeat (s : State) (b : Beat) : State :=
  let lo := s.tide.now
  let hi := max lo (min tideMax b.tide)
  let fresh := s.tide.lastSeq.isNone
  let s1 := s.modTide fun t => { t with
    now := hi, herdScale := if lo = 0 ∧ 0 < hi then b.scale else t.herdScale, herdEpochTu := if lo = 0 ∧ 0 < hi then b.epochTu else t.herdEpochTu,
    herdMode := b.mode, herdGate := b.gate, lastSeq := some b.seq, shownSeq := b.seq, periodUs := b.periodUs, appliedAt := some s.chrono,
    lost := false }
  let s2 := s1.count TIDE.BEATS_APPLIED 1
  let s3 := if fresh then s2.count HERD.LEAD_CHANGES 1 else s2
  let s4 := if s3.fld TIDE.OUT_SEL = 1 then s3.tideOutEdge s3.chrono else s3
  let s5 := (s4.modHerd fun h => { h with lowest := none, electAt := none }).tideEvents lo hi
  let s6 := s5.lagNotice
  if s6.isLead || s6.bit FAULT.NODE_FATAL then s6
  else s6.sendCtrl s6.herd.lead (reportBytes s6.node.id (s6.report b.seq))

/-- A beat arrives (R213, R445). The first beat of an election's winner is a beat of a new lead. -/
def State.beatArrives (s : State) (raw : Bytes) : State :=
  match beatOf raw with
  | none => s.raiseOwn 0x058 16
  | some b =>
    let won := s.fld HERD.STATE == 3 && s.herd.lowest == some b.lead && b.lead != s.herd.lead
    if b.lead ≠ s.herd.lead ∧ !won then s.raiseOwn 0x058 16
    else if 0 < s.tide.now ∧ (b.scale ≠ s.tide.herdScale ∨ b.epochTu ≠ s.tide.herdEpochTu) then s.raiseOwn 0x058 17
    else
      let s1 :=
        if won then
          let s1 := (s.modHerd fun h => { h with lead := b.lead }).modTide fun t => { t with lastSeq := none }
          s1.fault 4 0x30 0 0x0F0 0 s.herd.lead
        else s
      let d := (b.seq + 2 ^ 32 - s1.tide.lastSeq.getD 0 % 2 ^ 32) % 2 ^ 32
      if s1.tide.lastSeq.isSome && (d == 0 || decide (2 ^ 31 ≤ d)) then s1.count TIDE.STALE_BEATS 1
      else s1.applyBeat b

/-- A report arrives at the lead (R213). -/
def State.reportArrives (s : State) (b : Bytes) : State :=
  let n := leAt b 2 2
  if s.isLead && s.fabric.members.contains n && b.length == 32 && byteAt b 0 == 2 && byteAt b 1 == 1 && leAt b 28 4 == crc32c (b.take 28) then
    s.modTide fun t => { t with reports := Table.put t.reports n ⟨leAt b 4 4, leAt b 8 8, leAt b 16 8⟩ }
  else s

/-! The lead (R209 to R214). -/

/-- The next grid boundary above a tide (R214). -/
def State.gridAbove (s : State) (t : Nat) : Nat :=
  let base := s.fld TIDE.PULSE_BASE
  let step := max 1 (s.fld TIDE.PULSE_STEP)
  if t < base then base else base + ((t - base) / step + 1) * step

/-- Members whose reports count: all but this node and those that a twin hosts. -/
def State.reporters (s : State) : List Nat := s.others.filter fun n => !Table.has s.herd.aliases n

/-- The candidate of Table 10-2 and the node whose value it is. -/
def State.candidateTide (s : State) : Option (Nat × Nat) :=
  if s.fld TIDE.MODE = 1 then
    let rs := s.reporters.map fun n => (n, (Table.find? s.tide.reports n).map (·.localWm))
    if rs.any fun r => r.2.isNone then none
    else
      let all := (s.node.id, s.localWm) :: rs.map fun r => (r.1, r.2.getD noWm)
      (all.filter fun r => r.2 != noWm).foldl (fun (m : Option (Nat × Nat)) r =>
        match m with
        | none => some (r.2, r.1)
        | some b => if r.2 < b.1 then some (r.2, r.1) else m) none
  else if s.fld TIDE.MODE = 2 then some (s.tide.hostTide, s.herd.lead)
  else none

/-- The greatest KEEPER that the lead knows of (R209, R445). -/
def State.keepers (s : State) : Nat :=
  s.herd.electAcks.foldl (fun n e => max n e.2) (s.tide.reports.foldl (fun n e => max n e.2.keeper) 0)

/-- The tide of the lead's next beat from a tide (R209). -/
def State.newTide (s : State) (t : Nat) : Nat :=
  let gated := s.bit TIDE.GATE && (s.fld TIDE.MODE == 1 || s.fld TIDE.MODE == 2)
  let cap := if gated then min tideMax (s.gridAbove t - 1) else tideMax
  max (max t (min (s.candidateTide.elim 0 (·.1)) cap)) (min tideMax s.keepers)

/-- The lead forms a beat from a tide, sends it, checks its members, sends again what is not acknowledged, and applies the beat (R211 to R213,
R433, R444, R461). -/
def State.sendBeat (s : State) (t : Nat) (pulse : Bool) : State :=
  let new := s.newTide t
  let b : Beat := {
    lead := s.herd.lead, seq := s.tide.sendSeq % 2 ^ 32, tide := new, chrono := s.chrono, periodUs := s.fld TIDE.BEAT_US,
    scale := s.scale, pulse := pulse, mode := s.fld TIDE.MODE, gate := s.bit TIDE.GATE, epochTu := s.epochTu }
  let s1 := s.broadcast s.node.id (beatBytes b)
  let s2 := s1.modTide fun x => { x with sendSeq := (x.sendSeq + 1) % 2 ^ 32, holder := (s.candidateTide.elim s.herd.lead (·.2)) }
  ((((s2.lossCheck b.seq).resendSets).resendRoutes).pairCheck).applyBeat b

/-- An epoch pulse that the lead takes (R214). -/
def State.takePulse (s : State) : State :=
  let mode := s.fld TIDE.MODE
  if s.isLead && (mode == 3 || ((mode == 1 || mode == 2) && s.bit TIDE.GATE)) then
    let s1 := s.count TIDE.PULSES_TAKEN 1
    let s2 := if s1.fld TIDE.OUT_SEL = 3 then s1.tideOutEdge (s1.chrono + 1000) else s1
    s2.sendBeat (min tideMax (s2.gridAbove s2.tide.now)) true
  else s

/-- BEAT_US in ns. -/
def State.beatNs (s : State) : Nat := s.fld TIDE.BEAT_US * 1000

/-! Loss of the lead (R220, R445, R446, R457). -/

/-- A node that is not the lead has applied no beat for a span of beat periods. -/
def State.quietFor (s : State) (periods : Nat) : Bool :=
  s.tide.appliedAt.any fun t => decide (t + periods * (s.tide.periodUs * 1000) ≤ s.chrono)

/-- Beats are lost (R220); a candidate that is not the lead's own twin claims (R445). -/
def State.beatLost (s : State) : State :=
  if s.node.valid && !s.isLead && !s.tide.lost && s.quietFor (s.fld TIDE.BEAT_LOSS) then
    let had := (s.word 0 0x058 0x020).getLsbD 19
    let masked := (s.word 0 0x058 0x028).getLsbD 19
    let s1 := ((s.modTide fun t => { t with lost := true }).count TIDE.BEAT_LOSSES 1).raiseOwn 0x058 19
    let s2 := if had || masked then s1.irqEvent 0 0x058 else s1
    if s2.fld HERD.STATE = 3 ∧ s2.candidate ∧ !(s2.twin.paired && s2.twin.partner == s2.herd.lead) then s2.startElection else s2
  else s

/-- A member that stands alone (R446). -/
def State.isolate (s : State) : State :=
  if s.fld HERD.STATE = 3 ∧ !s.isLead ∧ (s.linksIn 3).isEmpty ∧ s.quietFor (s.fld TIDE.BEAT_LOSS) then
    (s.setFld HERD.STATE 4).raiseOwn 0x0D9 17
  else s

/-- The lead's twin takes over as the lead (R457): it goes on from the mirrored lead state. -/
def State.takeOver (s : State) : State :=
  let lead := s.herd.lead
  let n := s.fld HERD.LOSS_BEATS + 1
  let other := (s.linksIn 3).any fun k => some k != s.twinLink
  if s.twin.paired && s.twin.partner == lead && s.twin.hosting.isNone && !s.isLead && s.quietFor n &&
      decide (s.twin.heardAt + n * (s.tide.periodUs * 1000) ≤ s.chrono) && other then
    let img := (sentOf s.twin.mirror 7 0).getD []
    let nm := leAt img 12 4
    let nl := leAt img 16 4
    let o := 32 + 4 * nm + 4 * nl
    let reports := (List.range (leAt img 20 4)).foldl (fun (t : Table Report) i =>
      let r := sub img (o + 32 * i) 32
      if leAt r 2 2 = s.node.id then t else Table.put t (leAt r 2 2) ⟨leAt r 4 4, leAt r 8 8, leAt r 16 8⟩) []
    let s1 := s.degrade.hostNode lead
    let s2 := s1.modTide fun t => { t with sendSeq := (leAt img 4 4 + 65536) % 2 ^ 32, reports := reports }
    let s3 := (s2.modHerd fun h => { h with nextSet := leAt img 8 4 + 1, aliases := Table.put h.aliases lead s.node.id }).modFabric fun f => { f with
      nextEpoch := leAt img 0 4 + 1 }
    s3.issueSet 3 s3.tide.now [(lead, s.node.id)] []
  else s

end Sys2Proof.Machine
end

