-- ==== Sys2Proof/Machine/RolarOps.lean ====
section
/-! DEFINITION. Rolar: signed images, boot, rollback fuses, lockdown, stage keys, measurements, management answers (chapter 23). -/

namespace Sys2Proof.Machine

open Sys2Proof.Reg

/-! Signed firmware (R490, R491). -/

/-- The firmware key that an image names, where it is not revoked. -/
def State.firmwareKey (s : State) (img : Bytes) : Option Bytes :=
  let k := byteAt img 7
  if k < 4 ∧ !bitAt s.rolar.revoked k then some (Config.firmwareKey k) else none

/-- A firmware image is valid: KIND 1 RUNTIME, 3 ROLAR. -/
def State.imageValid (s : State) (kind : Nat) (img : Bytes) : Bool :=
  (signedBad kind (if kind = 1 then 16776704 else 4193792) (s.firmwareKey img) s.rolar.fuses img).isNone

/-- The flash slot that a pair boots from: the valid image with the greater SVN, then VERSION, then the first. -/
def State.bootSlot (s : State) (kind first : Nat) : Option Nat :=
  let img (k : Nat) : Bytes := Table.findD s.rolar.flash k []
  let ok (k : Nat) : Bool := s.imageValid kind (img k)
  let rank (k : Nat) : Nat := leAt (img k) 8 4 * 2 ^ 64 + leAt (img k) 16 8
  if ok first && ok (first + 1) then some (if rank first < rank (first + 1) then first + 1 else first)
  else if ok first then some first
  else if ok (first + 1) then some (first + 1) else none

/-- An image is refused (VERIFY_FAILS, VERIFY_FAIL). -/
def State.verifyFail (s : State) (n : Nat) : State := if n = 0 then s else (s.count ROLAR.VERIFY_FAILS n).raiseOwn 0x001 16

/-- The node tells the lead that its runtime runs again after a herd reset (R447). -/
def State.rejoin (s : State) : State :=
  if s.fld HERD.STATE = 0 ∧ s.herd.serial ≠ 0 ∧ s.herd.lead ≠ s.node.id then s.sendUp s.node.id (joinBody s.ownJoin) else s

/-- The runtime starts from an image (R486, R491): its source (0 RECOVERY, 1 LEAD, 2 HOST, 3 FLASH), its slot. -/
def State.startRuntime (s : State) (img : Bytes) (src slot : Nat) (fallback : Bool) : State :=
  let s1 := s.modRolar fun r => { r with runtimeHdr := img.take 512, runtime := img.take (512 + leAt img 12 4) }
  let s2 := (((s1.setFld ROLAR.STATE 1).setFld ROLAR.SRC src).setFld ROLAR.BOOT_SLOT slot).setFld ROLAR.FALLBACK (ofBool fallback)
  ((s2.setFld ROLAR.RUN_SVN (leAt img 8 4)).setFld ROLAR.RUN_VERSION (leAt img 16 8)).setFld ROLAR.GEN_MASK (leAt img 28 4)

/-- A boot from the runtime pair in flash; without a valid image Rolar waits (R491, R492). -/
def State.flashBoot (s : State) (fallback : Bool) : State :=
  let held := ([2, 3].filter fun k => !(Table.findD s.rolar.flash k []).isEmpty && !s.imageValid 1 (Table.findD s.rolar.flash k [])).length
  let s1 := s.verifyFail held
  match s.bootSlot 1 2 with
  | some k => s1.startRuntime (Table.findD s.rolar.flash k []) 3 (k - 2) fallback
  | none => (s1.setFld ROLAR.STATE 2).setFld ROLAR.FALLBACK (ofBool fallback)

/-- Rolar boots the runtime (R491). After a herd reset the image that ran starts again. -/
def State.runtimeBoot (s : State) : State :=
  if s.fld ROLAR.STATE ≠ 0 then s
  else if s.herd.serial ≠ 0 ∧ !s.rolar.runtime.isEmpty then (s.setFld ROLAR.STATE 1).rejoin
  else if s.fld GLOBAL.BOOT_SRC = 3 then s.flashBoot false
  else if s.fld GLOBAL.BOOT_SRC = 0 then s.setFld ROLAR.STATE 2
  else s

/-- An image delivered by a host or by the lead: run where it is valid. -/
def State.deliveredBoot (s : State) (img : Bytes) (src : Nat) : State :=
  if s.imageValid 1 img then s.startRuntime img src 0 false
  else if src = 1 then (s.verifyFail 1).flashBoot true
  else (s.verifyFail 1).setFld ROLAR.STATE 2

/-! Delivery from the lead (R461, R492). -/

/-- The bodies of BOOT_DATA for a node. -/
def bootBodies (node : Nat) (img : Bytes) : List Bytes :=
  (pieces 4032 (img.length + 1) img).zipIdx.map fun e =>
    leBytes 1 0x29 ++ leBytes 1 0 ++ leBytes 2 node ++ leBytes 8 (4032 * e.2) ++ leBytes 2 e.1.length ++ zeros 2 ++ leBytes 4 img.length ++
    zeros 44 ++ e.1

/-- BOOT_REQ arrives on a link: the lead answers with its own image, every other node passes it on toward the lead. -/
def State.bootReq (s : State) (k : Nat) (p : Packet) : State :=
  if s.ownId = s.herd.lead ∧ s.herd.derived.isSome ∨ s.isLead then
    (bootBodies (leAt p.body 2 2) s.rolar.runtime).foldl (fun (s : State) b =>
      if (s.link k).state = 2 then s.sendFrom k 0xFFFF s.ownId b else s.sendCtrl p.src b) s
  else s.sendUp (if s.node.valid then s.node.id else p.src) p.body

/-- BOOT_DATA arrives on a link (R461, R492). -/
def State.bootData (s : State) (k : Nat) (p : Packet) : State :=
  let b := p.body
  let node := leAt b 2 2
  if node ≠ s.ownId then
    let ks := (s.linksIn 2).filter fun j => j != k && (if s.node.valid then s.mateOf j == node else some j != s.herd.parent)
    ks.foldl (fun (s : State) j => s.sendFrom j 0xFFFF s.ownId b) s
  else if s.herd.bootAsked && s.fld ROLAR.STATE == 0 && leAt b 4 8 == s.herd.boot.length then
    let img := s.herd.boot ++ sub b 64 (leAt b 12 2)
    let s1 := s.modHerd fun h => { h with boot := img, bootTotal := leAt b 16 4, bootAt := some s.chrono }
    if leAt b 16 4 ≤ img.length then (s1.modHerd fun h => { h with boot := [], bootAsked := false }).deliveredBoot img 1 else s1
  else s

/-- The lead cannot or does not deliver: Rolar boots from flash (R492). -/
def State.bootFallback (s : State) : State :=
  let alone := s.fld HERD.STATE == 1 || (s.herd.formed && s.herd.derived.isSome && s.herd.lead == s.ownId)
  let none' := s.herd.bootAt.isNone && decide (s.pins.releaseAt + s.formNs + 10000000000 ≤ s.chrono)
  let stalled := s.herd.bootAt.any fun t => decide (t + 1000000000 ≤ s.chrono)
  if s.fld GLOBAL.BOOT_SRC == 1 && s.fld ROLAR.STATE == 0 && (alone || none' || stalled) then
    (s.modHerd fun h => { h with boot := [], bootAsked := false, bootAt := none }).flashBoot true
  else s

/-! Rollback fuses (R493). -/

/-- FUSE_SVN that a COMMIT works toward. -/
def State.commitTarget (s : State) : Nat := min 64 (min (s.fld ROLAR.RUN_SVN) (leAt s.rolar.rolarHdr 8 4))

/-- COMMIT written. -/
def State.commitFuses (s : State) : State :=
  if s.rolar.commit.isSome ∨ s.commitTarget ≤ s.rolar.fuses then s
  else (s.modRolar fun r => { r with commit := some s.commitTarget }).setFld ROLAR.COMMIT 1

/-- A fuse bit has finished programming, or has failed. -/
def State.fuseDone (s : State) (ok : Bool) : State :=
  match s.rolar.commit with
  | none => s
  | some t =>
    if ok then
      let s1 := (s.modRolar fun r => { r with fuses := r.fuses + 1 }).count ROLAR.FUSE_BLOWS 1
      if t ≤ s1.rolar.fuses then (s1.modRolar fun r => { r with commit := none }).setFld ROLAR.COMMIT 0 else s1
    else ((s.modRolar fun r => { r with commit := none }).setFld ROLAR.COMMIT 0).raiseOwn 0x001 17

/-! Lockdown (R498). -/

/-- PG_LOCK of a page set, in every function's copy of a RING page. -/
def State.lockPage (s : State) (p : Nat) : State :=
  if firstPage p = 0x010 then (List.range 32).foldl (fun (s : State) fn => s.setFldFn fn (HDR.LOCK.on p) 1) s
  else s.setFld (HDR.LOCK.on p) 1

/-- The populated pages that LOCK_SET0 to LOCK_SET3 name, and page 0x001. -/
def State.lockNamed (s : State) : List Nat :=
  (List.range 256).filter fun p => (blockOf p).isSome && (p == 1 || bitAt (s.fld (ROLAR.LOCK_SET.at (p / 64))) (p % 64))

/-- A lockdown: 1 written, 2 by the deadline. -/
def State.lockdown (s : State) (by_ : Nat) : State :=
  let s1 := s.lockNamed.foldl (fun s p => s.lockPage p) s
  let s2 := if s1.bit ROLAR.DONE then s1 else s1.setFld ROLAR.BY by_
  (s2.setFld ROLAR.DONE 1).setFld ROLAR.LOCKDOWN 1

/-! Stage keys (R494, R499, R500). -/

/-- A key command ends with a result. -/
def State.keyResult (s : State) (res : Nat) : State := (((s.setFld ROLAR.BUSY 0).setFld ROLAR.KDONE 1).setFld ROLAR.RESULT res)

/-- A command that a locked page refuses. -/
def State.keyLocked (s : State) (req : Requester) : State := (s.keyResult 4).raiseBy req 0x001 1 0x160

/-- A job in flight uses a CODE image of a stage-key slot. -/
def State.keyInUse (s : State) (slot : Nat) : Bool :=
  s.work.jobs.any fun e => e.2.binds.any fun b =>
    b.kind == 6 && (match s.resolve b.herd b.addr with
      | some (none, l) => byteAt (s.loadBytes l 8) 7 == slot
      | _ => false)

/-- LOAD of a key, whose bytes are those at KEY_ADDR, or the given ones where that lies in the host window. -/
def State.keyLoad (s : State) (req : Requester) (host : Bytes) : State :=
  let slot := s.fld ROLAR.KEY_SLOT
  let a := s.fld ROLAR.KEY_ADDR
  if s.locked 0 0x001 then s.keyLocked req
  else if Table.has s.rolar.keys slot then s.keyResult 1
  else
    let mapped := engineMapped a 96
    let key := if spaceOf a = .host then fitTo host 96 else s.loadBytes a 96
    if !mapped || !Config.onP384 key then s.keyResult 3
    else (s.modRolar fun r => { r with keys := Table.put r.keys slot ⟨s.fld ROLAR.MIN_SVN, key⟩ }).keyResult 0

def State.keyRevoke (s : State) (req : Requester) : State :=
  let slot := s.fld ROLAR.KEY_SLOT
  if s.locked 0 0x001 then s.keyLocked req
  else if !Table.has s.rolar.keys slot then s.keyResult 2
  else if s.keyInUse slot then s.keyResult 1
  else (s.modRolar fun r => { r with keys := Table.drop r.keys slot }).keyResult 0

def State.keyRead (s : State) : State := if Table.has s.rolar.keys (s.fld ROLAR.KEY_SLOT) then s.keyResult 0 else s.keyResult 2

/-! SPDM (R487 to R489). -/

/-- An answer on DOE or on M1. A packet sent whole on M1 ends its resends (R497). -/
def State.answerMgmt (s : State) (code : Nat) (b : Bytes) : State :=
  (s.emit (.mgmt code b)).modRolar fun r => { r with resends := 0 }

/-- An SPDM ERROR. -/
def State.spdmError (s : State) (e : Nat) : State := s.answerMgmt 0x7F [BitVec.ofNat 8 e]

/-- How far a transport's negotiation has come. -/
def State.spdmStep (s : State) (doe : Bool) : Nat := if doe then s.rolar.doeStep else s.rolar.mctpStep

def State.setSpdmStep (s : State) (doe : Bool) (n : Nat) : State :=
  s.modRolar fun r => if doe then { r with doeStep := n } else { r with mctpStep := n }

/-- A request that needs the negotiation to have come to step `n`: answered by `f`, else with UnexpectedRequest. -/
def State.spdmAfter (s : State) (doe : Bool) (n : Nat) (f : State → State) : State :=
  if n ≤ s.spdmStep doe then f s else s.spdmError 4

/-- The slot 0 chain. -/
def State.chain (s : State) : Bytes := Config.certChain s.aliasSeed

/-- A signature with the alias key over what SPDM has the responder sign. -/
def State.sign (s : State) (transcript : Bytes) : Bytes := Config.aliasSign s.aliasSeed transcript

/-- PG_LOCK of every populated page, ascending. -/
def State.lockBytes (s : State) : Bytes :=
  ((List.range 256).filter fun p => (blockOf p).isSome).map fun p => BitVec.ofNat 8 (s.fld (HDR.LOCK.on p))

/-- The first 4 bytes of the SHA-384 of a stage key. -/
def keyTag (k : StageKey) : Nat := leAt (Config.sha384 k.key) 0 4

/-- KEY_INFO of a slot. -/
def State.keyInfo (s : State) (i : Nat) : Nat :=
  match Table.find? s.rolar.keys i with
  | none => 0
  | some k => k.minSvn + keyTag k * 2 ^ 32

/-- The bytes of a measurement (Table 23-2); the ROM's are an open constant. -/
def State.measurement (s : State) (i : Nat) : Option Bytes :=
  match i with
  | 1 => some Config.rom
  | 2 => some s.rolar.rolarHdr
  | 3 => some s.rolar.runtimeHdr
  | 4 => some (leBytes 8 (s.fld ROLAR.RUN_VERSION) ++ leBytes 4 (s.fld ROLAR.RUN_SVN) ++ leBytes 4 (s.fld ROLAR.GEN_MASK))
  | 5 => some (leBytes 8 (s.word 0 0x001 0x138).toNat ++ ((List.range 4).flatMap fun k => leBytes 8 (s.fld (ROLAR.LOCK_SET.at k))) ++ s.lockBytes)
  | 6 => some (leBytes 4 s.rolar.fuses ++ leBytes 4 s.rolar.revoked)
  | 7 => some (((List.range 8).flatMap fun i => leBytes 8 (s.keyInfo i)) ++ s.rolar.keys.flatMap fun e => e.2.key)
  | _ => none

/-- GET_MEASUREMENTS: one index, or all of them (0xFF), raw or as digests, and the signature. -/
def State.measure (s : State) (index : Nat) (raw : Bool) (transcript : Bytes) : State :=
  let one (i : Nat) : Bytes := (s.measurement i).elim [] fun b => if raw then b else Config.sha384 b
  let is := if index = 0xFF then [1, 2, 3, 4, 5, 6, 7] else [index]
  if is.all fun i => (s.measurement i).isSome then s.answerMgmt 0x60 (is.flatMap one ++ s.sign transcript)
  else s.spdmError 1

/-- A session that a request names. -/
def State.spdmSession (s : State) (doe : Bool) (id : Nat) : Option SpdmSession :=
  s.rolar.sessions.find? fun x => x.doe == doe && x.id == id

def State.dropSession (s : State) (doe : Bool) (id : Nat) : State :=
  s.modRolar fun r => { r with sessions := r.sessions.filter fun x => !(x.doe == doe && x.id == id) }

/-- FINISH (R489): a session is established; over DOE it sets AUTH_OK. -/
def State.spdmFinish (s : State) (doe : Bool) (id : Nat) (ok : Bool) : State :=
  match s.spdmSession doe id with
  | none => s.spdmError 2
  | some x =>
    if x.done then s.spdmError 4
    else if ok then
      let s1 := (s.modRolar fun r => { r with sessions := r.sessions.map fun y => if y = x then { y with done := true } else y }).count ROLAR.SESSIONS 1
      (if doe then s1.setFld ATTACH.AUTH_OK 1 else s1).answerMgmt 0x65 []
    else (((s.dropSession doe id).raiseOwn 0x001 18).spdmError 6)

/-- A request within an established session. -/
def State.inSession (s : State) (doe : Bool) (id : Nat) (f : State → State) : State :=
  match s.spdmSession doe id with
  | none => s.spdmError 2
  | some x => if x.done then f s else s.spdmError 4

end Sys2Proof.Machine
end

