-- ==== Sys2Proof/Machine/Tiers.lean ====
section
/-! DEFINITION. Registered regions, tiers that go out of service, Cellar drives (R87 to R101). -/

namespace Sys2Proof.Machine

open Sys2Proof.Reg

/-! Regions (R99 to R101, R108, R112). -/

/-- Where a region of a tier may lie: first address, end, grain. The Vat's SYSTEM pool is its lowest 16 MiB (R85). -/
def tierRange : Tier → Nat × Nat × Nat
  | .vat => (0x01000000, 0x10000000, 0x10000)
  | .cream => (0x001000000000, 0x004000000000, 0x200000)
  | .skim => (0x010000000000, 0x020000000000, 0x200000)

/-- No region lies in a range. -/
def State.rangeFree (s : State) (a len : Nat) : Bool :=
  s.tiers.regions.all fun e => decide (a + len ≤ e.2.base) || decide (e.2.base + roundUp e.2.len (tierRange e.2.tier).2.2 ≤ a)

/-- A base is one that a region of a tier may have. -/
def State.baseOk (s : State) (t : Tier) (len a : Nat) : Bool :=
  let r := tierRange t
  let n := roundUp len r.2.2
  decide (r.1 ≤ a) && decide (a + n ≤ r.2.1) && decide (a % r.2.2 = 0) && s.rangeFree a n

/-- Where a region is put: at `want` where it may lie there, else at the first place that takes it. -/
def State.regionBase (s : State) (t : Tier) (len want : Nat) : Option Nat :=
  if s.baseOk t len want then some want
  else
    let ends := s.tiers.regions.filterMap fun e => if e.2.tier = t then some (e.2.base + roundUp e.2.len (tierRange t).2.2) else none
    ((tierRange t).1 :: sortBy (fun a b => decide (a ≤ b)) ends).find? (s.baseOk t len)

/-- Bytes of a function's BAR4 (R108). -/
def State.bar4Size (s : State) (fn : Nat) : Nat := (s.func fn).bar4.getD (if fn = 0 then 2 ^ 38 else 2 ^ 34)

/-- CXL.mem is enabled and the HDM decoder is committed. -/
def State.cxlMem (s : State) : Bool := s.host.cxl && s.host.hdm.isSome

/-- The tier of a descriptor's TIER field. -/
def tierOf (n : Nat) : Tier := if n = 0 then .vat else if n = 1 then .cream else .skim
def tierCode : Tier → Nat
  | .vat => 0
  | .cream => 1
  | .skim => 2

/-- REGION_Dn. -/
def State.regionD (s : State) (n : Nat) : Nat := s.fld (VAT.REGION_D.at n)

/-- Whether the descriptor registers hold a descriptor that keeps its rules (R99, R112). -/
def State.regionDescOk (s : State) (fn : Nat) : Bool :=
  let len := s.regionD 1
  let d3 := s.regionD 3
  decide (s.regionD 0 < 2 ^ 48) && decide (len % 4096 = 0) && decide (4096 ≤ len) && decide (len ≤ 2 ^ 38) &&
    (decide (d3 % 4 ≠ 0) || decide (len % 65536 = 0)) && decide (s.regionD 2 % 4096 = 0) &&
    decide (d3 % 4 ≠ 3) && !bitAt d3 7 && decide (d3 / 2 ^ 13 % 8 = 0) && decide (d3 < 2 ^ 32) &&
    (!bitAt d3 2 || (decide (fn = 0) && s.cxlMem))

/-- The aperture overlaps another region of the function, or runs past its BAR4. -/
def State.apertureBad (s : State) (fn : Nat) : Bool :=
  let a := s.regionD 2
  let n := s.regionD 1
  decide (s.bar4Size fn < a + n) ||
    s.tiers.regions.any fun e => e.2.owner == fn && decide (a < e.2.aperture + e.2.len) && decide (e.2.aperture < a + n)

/-- The tier, or the Vat's REGION pool, has room for a region. -/
def State.regionRoom (s : State) (t : Tier) (len : Nat) : Bool :=
  match t with
  | .vat => decide (s.regionExtents + ceilDiv len 0x10000 ≤ 16 * s.fld VAT.REGION_MAX)
  | .cream => s.tiersReady && decide (pagesMib len ≤ s.creamFree)
  | .skim => s.tiersReady && decide (pagesMib len ≤ s.skimFree)

/-- What ALLOC answers, with the base it takes (R100). -/
def State.allocResult (s : State) (fn slot want : Nat) : Nat × Nat :=
  let t := tierOf (s.regionD 3 % 4)
  if Table.has s.tiers.regions slot then (4, 0)
  else if !s.regionDescOk fn then (2, 0)
  else if s.apertureBad fn then (3, 0)
  else if !s.regionRoom t (s.regionD 1) then (1, 0)
  else
    match s.regionBase t (s.regionD 1) want with
    | none => (1, 0)
    | some a => (0, a)

/-- The region that the descriptor registers describe. -/
def State.newRegion (s : State) (fn base : Nat) : Region :=
  let d3 := s.regionD 3
  { base := base, len := s.regionD 1, aperture := s.regionD 2, tier := tierOf (d3 % 4), lineCoherent := bitAt d3 2,
    hostWr := bitAt d3 3, peerWr := bitAt d3 4, peerRd := bitAt d3 5, zero := bitAt d3 6, owner := fn, tag := d3 / 2 ^ 16 % 2 ^ 16 }

/-- A local range touches a region. -/
def Region.touches (g : Region) (a len : Nat) : Bool := decide (g.base < a + len) && decide (a < g.base + g.len)

/-- A job in flight binds a region. -/
def State.regionBound (s : State) (g : Region) : Bool :=
  s.work.jobs.any fun e => e.2.binds.any fun b =>
    decide (b.kind ≠ 3) && (match s.resolve (e.2.herd || b.herd) b.addr with
      | some (none, l) => decide (b.len ≠ 0) && g.touches l b.len
      | _ => false)

/-- What FREE and READ answer (R100). -/
def State.freeResult (s : State) (fn slot : Nat) (free : Bool) : Nat :=
  match Table.find? s.tiers.regions slot with
  | none => 6
  | some g => if fn ≠ 0 ∧ fn ≠ g.owner then 5 else if free && s.regionBound g then 4 else 0

/-- REGION_STAT at the end of a command. -/
def State.regionResult (s : State) (res : Nat) : State := ((s.setFld VAT.BUSY 0).setFld VAT.DONE 1).setFld VAT.RESULT res

/-- A region command starts (R100). ALLOC takes its slot and memory now; every command ends with REGION_CMD_DONE. -/
def State.regionStart (s : State) (fn op slot want : Nat) : State :=
  let s1 := (s.setFld VAT.BUSY 1).setFld VAT.DONE 0
  if op = 1 then
    let r := s.allocResult fn slot want
    let g := s.newRegion fn r.2
    if r.1 = 0 then
      s1.modTiers fun t => { t with
        regions := Table.put t.regions slot g,
        regionCmd := some { slot := slot, result := 0, op := 1, zero := if g.zero then some (g.base, g.len) else none } }
    else s1.modTiers fun t => { t with regionCmd := some { slot := slot, result := r.1, op := 1 } }
  else
    let r := s.freeResult fn slot (op == 2)
    s1.modTiers fun t => { t with regionCmd := some { slot := slot, result := r, op := op } }

/-- A write of REGION_CMD (R100): `want` is the base that the device's own choice would take for an ALLOC. -/
def regionHook (want : Nat) : Hook := fun req _ old seen s =>
  let op := bitsOf seen 18 16
  if s.bit VAT.BUSY then (s.setWord 0 0x060 0x130 old).setFld VAT.REFUSED 1
  else if op = 0 then s
  else if 4 ≤ op then s.regionResult 7
  else s.regionStart (viewOf req) op (bitsOf seen 9 0) want

/-- D3 of a region's descriptor. -/
def Region.d3 (g : Region) : Nat :=
  tierCode g.tier + 4 * ofBool g.lineCoherent + 8 * ofBool g.hostWr + 16 * ofBool g.peerWr + 32 * ofBool g.peerRd +
    64 * ofBool g.zero + 256 * g.owner + 2 ^ 16 * g.tag

/-- A region's descriptor in the descriptor registers. -/
def State.showRegion (s : State) (g : Region) : State :=
  (((s.setFld (VAT.REGION_D.at 0) g.base).setFld (VAT.REGION_D.at 1) g.len).setFld (VAT.REGION_D.at 2) g.aperture).setFld
    (VAT.REGION_D.at 3) g.d3

/-- A region removed (R101): its memory returns, its contents are open, the host's hold on its lines is gone. Contents that
are open read as memory that nothing has written (log 2). -/
def State.dropRegion (s : State) (slot : Nat) : State :=
  match Table.find? s.tiers.regions slot with
  | none => s
  | some g =>
    let lines (l : Nat) : Bool := decide (g.base ≤ l) && decide (l < g.base + g.len)
    ((s.clearMem g.base (g.base + g.len)).modTiers fun t => { t with
      regions := Table.drop t.regions slot, poison := t.poison.filter fun l => !lines l }).modHost fun h => { h with
      snoopFilter := h.snoopFilter.filter fun l => !lines l, snoops := h.snoops.filter fun n => !lines n.line }

/-- The region command in hand ends: what it did shows. -/
def State.regionDone (s : State) : State :=
  match s.tiers.regionCmd with
  | none => s
  | some c =>
    let s1 := s.modTiers fun t => { t with regionCmd := none }
    if c.result ≠ 0 then s1.regionResult c.result
    else if c.op = 2 then (s1.dropRegion c.slot).regionResult 0
    else
      match Table.find? s.tiers.regions c.slot with
      | none => s1.regionResult 6
      | some g =>
        let s2 := match c.zero with
          | some z => s1.clearMem z.1 (z.1 + z.2)
          | none => s1
        (s2.showRegion g).regionResult 0

/-! The Vat's pools (R87). -/

/-- A write of VAT_CFG: applied under its conditions, else ignored (R87). -/
def vatCfgHook : Hook := fun req page _ seen s =>
  let r := bitsOf seen 7 0
  let b := bitsOf seen 15 8
  let g := bitsOf seen 23 16
  if s.work.slices.isEmpty && !s.bit VAT.BUSY && s.regionExtents == 0 && decide (r ≤ 64) && decide (b ≤ 192) && decide (g ≤ 64) && decide (r + b + g ≤ 208) then
    ((s.setFld VAT.RUNAHEAD_MAX r).setFld VAT.BUILD_MAX b).setFld VAT.REGION_MAX g
  else s.raiseBy req page 18 0x100

/-! A tier out of service (R88). -/

/-- Whether a job binds memory of a tier. -/
def State.bindsTier (s : State) (job : Job) (sp : Space) : Bool :=
  job.binds.any fun b => decide (b.kind ≠ 3) && (match s.resolve (job.herd || b.herd) b.addr with
    | some (none, l) => spaceOf l == sp
    | _ => false)

/-- A tier leaves service: its record, and its jobs complete with TIER_DOWN (R88). -/
def State.tierOut (s : State) (cream : Bool) (flags : Nat) : State :=
  let s1 := (s.raiseOwn (if cream then 0x061 else 0x062) 18).unitFault 0 (if cream then 0x061 else 0x062) 0x12 flags 0x46
  (s1.work.jobs.filter fun e => s1.bindsTier e.2 (if cream then .cream else .skim)).foldl (fun s e => s.killJob e.1 0x46) s1

/-- A stack of Cream or a channel of Skim fails (R88). -/
def State.tierFail (s : State) (cream : Bool) (unit : Nat) : State :=
  (s.modTiers fun t => if cream then { t with creamUnits := withBit t.creamUnits unit false }
    else { t with skimUnits := withBit t.skimUnits unit false }).tierOut cream 0

/-! Drives (R93 to R98). -/

def State.drive? (s : State) (d : Nat) : Option Drive := Table.find? s.tiers.drives d
def State.setDrive (s : State) (d : Nat) (x : Drive) : State := s.modTiers fun t => { t with drives := Table.put t.drives d x }
def State.updDrive (s : State) (d : Nat) (f : Drive → Drive) : State := s.modTiers fun t => { t with drives := Table.upd t.drives d f }

/-- CELLAR_CFG.MODE. -/
def State.cellarMode (s : State) : Nat := s.fld CELLAR.MODE

/-- C1 works: out of reset, its domain on. -/
def State.c1Up (s : State) : Bool := s.tiers.c1Out && s.good 5

/-- What a drive command was for fails with CELLAR_IO_ERROR (R98). -/
def State.driveWhyFailed (s : State) (w : DriveWhy) : State :=
  match w with
  | .read who => s.readFailed who 0x43 0
  | .write j | .flush j =>
    let s1 := s.failJob j 0x43 0xFFFF 0 0x063
    (s1.job? j).elim s1 fun job => if job.written then s1.jobFailed j job else s1
  | .row k | .rowFlush k => s.closeReady k 0x43

/-- Every command outstanding at a drive fails. -/
def State.driveCmdsFail (s : State) (d : Nat) : State :=
  match s.drive? d with
  | none => s
  | some x => x.cmds.foldl (fun s c => s.driveWhyFailed c.2.why) (s.updDrive d fun y => { y with cmds := [] })

/-- RUNs that wait for drives are tried again. -/
def State.driveWake (s : State) : State :=
  (s.work.descs.filter fun e => e.2.waitDrive).foldl (fun s e => (s.updDesc e.1 fun x => { x with waitDrive := false }).runValidate e.1) s

/-- A drive that the device finds present, as though it had just arrived. -/
def State.driveArrives (s : State) (d bdf : Nat) : State :=
  s.setDrive d { (s.drive? d).getD {} with present := true, bdf := bdf, ready := false, failed := false, resets := [], oosSeen := false }

/-- A drive removed: its commands fail, its Skim page returns (R95, R98). -/
def State.driveRemoved (s : State) (d : Nat) : State :=
  match s.drive? d with
  | none => s
  | some x =>
    let s1 := (s.updDrive d fun y => { y with present := false, ready := false, wantsPage := false, hasPage := false, namespaces := [] }).driveCmdsFail d
    let s2 := if x.hasPage then s1.giveSkim 2 else s1
    (s2.raiseOwn 0x063 18).driveWake

/-- A drive is brought up with its queues (R94, R95): its namespaces by NSID, its transfer limit and its link. -/
def State.driveUp (s : State) (d : Nat) (ns : List (Nat × Namespace)) (xfer width gen : Nat) : State :=
  match s.drive? d with
  | none => s
  | some x =>
    if !x.present || x.ready || x.failed || !s.c1Up || !s.tiers.cellarLink || bitAt (s.fld CELLAR.DRIVE_OOS) d then s
    else
      match if x.hasPage then some s else s.takeSkim 2 with
      | none => s.updDrive d fun y => { y with wantsPage := true }
      | some s1 =>
        let good (e : Nat × Namespace) : Bool :=
          decide (1 ≤ e.1) && decide (e.1 ≤ 16) && e.2.active && decide (e.2.metadata = 0) && (decide (e.2.block = 512) || decide (e.2.block = 4096))
        let s2 := s1.updDrive d fun y => { y with
          ready := true, wantsPage := false, hasPage := true, maxXfer := min 20 xfer, width := width, gen := gen,
          namespaces := (ns.filter good).foldl (fun t e => Table.put t e.1 e.2) [] }
        (if ns.all good then s2 else s2.raiseOwn 0x063 20).driveWake

/-- A drive command is aborted at its timeout (R98, point 1). -/
def State.driveTimeout (s : State) (d c : Nat) : State :=
  match (s.drive? d).bind fun x => Table.find? x.cmds c with
  | none => s
  | some k =>
    if k.abortAt.isSome ∨ s.chrono < k.issuedAt + s.fld CELLAR.CMD_TIMEOUT * 1000000 then s
    else
      (((s.count CELLAR.TIMEOUTS 1).raiseOwn 0x063 16).updDrive d fun x => { x with
        cmds := Table.upd x.cmds c fun y => { y with abortAt := some s.chrono } }).emit (.nvmeAbort d c)

/-- An Abort timed out: the controller is reset; the third reset within 60 s marks the drive FAILED (R98, points 2 to 4). -/
def State.driveAbortTimeout (s : State) (d c : Nat) : State :=
  match (s.drive? d).bind fun x => (Table.find? x.cmds c).bind (·.abortAt) with
  | none => s
  | some t =>
    if s.chrono < t + s.fld CELLAR.CMD_TIMEOUT * 1000000 then s
    else
      let s1 := (s.count CELLAR.CTRL_RESETS 1).emit (.nvmeReset d)
      let s2 := (s1.updDrive d fun x => { x with
        ready := false, resets := (x.resets.filter fun r => decide (s.chrono < r + 60000000000)) ++ [s.chrono] }).driveCmdsFail d
      if 3 ≤ ((s2.drive? d).elim 0 fun x => x.resets.length) then
        ((s2.updDrive d fun x => { x with failed := true }).raiseOwn 0x063 19).driveWake
      else s2

/-- A drive command ends well: what it was for goes on. -/
def State.driveOk (s : State) (d : Nat) (k : DriveCmd) (data : Bytes) : State :=
  match k.why with
  | .read who =>
    let bs := ((s.drive? d).bind fun x => Table.find? x.namespaces k.nsid).elim 512 (·.block)
    (s.stage who (.cellar d k.nsid) (k.lba * bs) (fitTo data (k.blocks * bs))).resume who
  | .write j | .flush j => s.jobSettle j
  | .row n =>
    -- the last row of a namespace is followed by its flush, which APPLIED waits for (R392)
    if (s.drive? d).any fun x => x.cmds.any fun c => c.2.why == .row n && c.2.nsid == k.nsid then s.closeReady n 0
    else
      let id := (s.drive? d).elim 0 fun x => Table.fresh x.cmds 4096 0
      (s.updDrive d fun x => { x with cmds := Table.put x.cmds id { why := .rowFlush n, nsid := k.nsid, lba := 0, blocks := 0, issuedAt := s.chrono } }).emit
        (.nvme d 0 k.nsid 0 0 [])
  | .rowFlush n => s.closeReady n 0

/-- A drive command completes with an NVMe status (R98). -/
def State.driveDone (s : State) (d c status : Nat) (data : Bytes) : State :=
  match (s.drive? d).bind fun x => Table.find? x.cmds c with
  | none => s
  | some k =>
    let s1 := s.updDrive d fun x => { x with cmds := Table.drop x.cmds c }
    if status = 0 then s1.driveOk d k data
    else ((s1.count CELLAR.IO_ERRORS 1).raiseOwn 0x063 17).driveWhyFailed k.why

/-- A write of CELLAR_CFG.MODE (R104); a drive already present is found at once in four-drive mode. -/
def cellarModeHook : Hook := fun _ _ old seen s =>
  let m := bitsOf seen 1 0
  if bitsOf old 1 0 = 0 ∧ (m = 1 ∨ m = 2) then
    let s1 := (s.setFld CELLAR.MODE m).modTiers fun t => { t with c1Out := true }
    if m = 1 then ((List.range 4).filter fun d => bitAt s.pins.drives d).foldl (fun s d => s.driveArrives d 0) s1 else s1
  else s

/-- A change of CPRSNTd_N in four-drive mode (R93, R98). -/
def State.drivePin (s : State) (d : Nat) (low : Bool) : State :=
  let was := bitAt s.pins.drives d
  let s1 := s.modPins fun p => { p with drives := withBit p.drives d low }
  if s.cellarMode ≠ 1 ∨ was = low then s1
  else if low then s1.driveArrives d 0
  else s1.driveRemoved d

/-- Endpoints behind the switch, in ascending bus, device and function order, take numbers (R93): those absent release theirs, new
ones take the lowest free. -/
def State.switchScan (s : State) (found : List Nat) : State :=
  let gone := s.tiers.drives.filter fun e => !found.contains e.2.bdf
  let s1 := gone.foldl (fun (s : State) e => (if e.2.present then s.driveRemoved e.1 else s).modTiers fun t => { t with drives := Table.drop t.drives e.1 }) s
  found.foldl (fun (s : State) b =>
    if s.tiers.drives.any (fun e => e.2.bdf == b) then s
    else
      let d := Table.fresh s.tiers.drives 16 0;
      (if d < 16 then s.driveArrives d b else s)) s1

/-- The C1 link trains up (R93). -/
def State.cellarLinkUp (s : State) (found : List Nat) : State :=
  if !s.c1Up || s.tiers.cellarLink then s
  else
    let s1 := s.modTiers fun t => { t with cellarLink := true }
    if s.cellarMode = 2 then s1.switchScan found else s1

/-- A write of CELLAR_CTRL: DRIVE_OOS holds drives out of service and returns failed ones; RESCAN (R93, R98). `found` are the
endpoints that a rescan finds. -/
def cellarCtrlHook (found : List Nat) : Hook := fun _ _ old seen s =>
  let was := bitsOf old 15 0
  let now := bitsOf seen 15 0
  let s1 := s.setFld CELLAR.DRIVE_OOS now
  let next (d : Nat) (x : Drive) : Drive :=
    if bitAt now d then { x with oosSeen := x.oosSeen || x.failed }
    else if bitAt was d && x.failed && x.oosSeen then { x with failed := false, ready := false, resets := [], oosSeen := false }
    else x
  let s2 := s1.modTiers fun t => { t with drives := Table.each t.drives next }
  if bitAt seen.toNat 32 && s.cellarMode == 2 && s.tiers.cellarLink then s2.switchScan found else s2

/-- C1 goes down: its domain is off. -/
def State.cellarDown (s : State) : State :=
  (s.tiers.drives.filter fun e => e.2.present).foldl (fun s e => s.driveRemoved e.1) (s.modTiers fun t => { t with cellarLink := false })

end Sys2Proof.Machine
end

