-- ==== Sys2Proof/Machine/Resets.lean ====
section
/-! DEFINITION. Resets, the power domains that software switches, the calibration store (R29, R41, R42, R49 to R54, R73, R427, R447). -/

namespace Sys2Proof.Machine

open Sys2Proof.Reg

/-! What a reset does to registers, and which of two wins. -/

/-- Registers of the pages that `p` names after a reset of a kind. -/
def State.resetRegs (s : State) (k : Kind) (p : Nat → Nat → Bool) : State :=
  { s with regs := Table.each s.regs fun e w => if p (keyFn e) (keyPage e) then resetOf k (keyPage e) (keyOff e) w else w }

/-- The strength of a reset kind: C, W, H, F, B (chapter 03, "When things coincide"). -/
def rankOf : Kind → Nat
  | .cold => 4
  | .warm => 3
  | .herd => 2
  | .func => 1
  | .block => 0

/-- A stronger reset of the same instant absorbs one of this kind. -/
def State.absorbs (s : State) (k : Kind) : Bool :=
  match s.power.lastReset with
  | some (t, r) => decide (t = s.chrono) && decide (rankOf k < r)
  | none => false

/-- A weaker reset of the same instant came before one of this kind. -/
def State.afterWeaker (s : State) (k : Kind) : Bool :=
  match s.power.lastReset with
  | some (t, r) => decide (t = s.chrono) && decide (r < rankOf k)
  | none => false

/-- A reset of a kind takes place, unless a stronger one of the same instant absorbs it (R56: ALSO_WEAKER). -/
def State.resetOr (s : State) (k : Kind) (f : State → State) : State :=
  if s.absorbs k then s.setFld RESET.ALSO_WEAKER 1
  else
    let weak := s.afterWeaker k
    let s1 := (f s).modPower fun p => { p with lastReset := some (s.chrono, rankOf k) }
    if weak then s1.setFld RESET.ALSO_WEAKER 1 else s1

/-! Warm reset (R50, R51). -/

/-- What a cold or warm reset leaves of Rolar: its identity, fuses, images and revocations; the running runtime, stage keys
and DOE sessions are gone. -/
def Rolar.restarted (r : Rolar) : Rolar :=
  { flash := r.flash, rolarHdr := r.rolarHdr, fuses := r.fuses, revoked := r.revoked, eid := r.eid, cutShort := r.cutShort || r.commit.isSome,
    sessions := r.sessions.filter fun x => !x.doe, mctpStep := r.mctpStep }

/-- A slot write that a reset or a loss of power cuts short leaves an invalid slot (R54). -/
def Cal.cut (c : Cal) : Cal :=
  match c.writing with
  | none => { c with due := false, save := false }
  | some w =>
    if w.slot = 1 then { c with slotA := none, validA := false, writing := none, due := false, save := false }
    else { c with slotB := none, validB := false, writing := none, due := false, save := false }

/-- A warm reset takes effect (R51, Table 03-5): its cause; the module waits for its release. -/
def State.warmReset (s : State) (cause : Nat) : State :=
  if !s.power.released then
    -- a cause of the same instant with a lower code is the one that CAUSE reports (R56)
    if s.power.lastReset = some (s.chrono, 3) ∧ cause < s.fld RESET.CAUSE then s.setFld RESET.CAUSE cause else s
  else
    s.resetOr .warm fun s =>
      let s1 := s.resetRegs .warm fun _ _ => true
      let s2 := { s1 with
        pages := [], notices := [], leave := {}, mem := [], tiers := {}, host := {}, work := {}, rennet := {}, node := {}, twin := {},
        strainer := {}, dlog := {}, churn := {}, ladle := {}, herd := {}, hosted := {}, serve := {}, stores := [], fatalAt := none
        fabric := { lastSerial := s.fabric.lastSerial, nextSerial := s.fabric.nextSerial },
        tide := { now := s.tide.now, herdScale := s.tide.herdScale, herdEpochTu := s.tide.herdEpochTu, herdMode := s.tide.herdMode },
        rolar := s.rolar.restarted, cal := s.cal.cut, power := { s.power with released := false } }
      (s2.count RESET.WARM_COUNT 1).setFld RESET.CAUSE cause

/-! Cold reset (R41, R50, R51). -/

/-- The module without supply: what it keeps is the calibration store, fuses, revocations and the images in flash. -/
def State.coldOff (s : State) : State :=
  { State.reset with
    pending := s.pending, free := s.free, out := s.out, regs := [], cal := { s.cal.cut with validA := false, validB := false, active := 0, current := [] },
    rolar := { flash := s.rolar.flash, fuses := s.rolar.fuses, revoked := s.rolar.revoked, cutShort := s.rolar.cutShort || s.rolar.commit.isSome },
    pins := { s.pins with modPg := false, perst0Since := none, tideLast := none },
    power := { p54v := s.power.p54v, dieTemp := s.power.dieTemp, retention := s.power.retention, undervoltage := true,
               good := 0, started := 0, released := false } }

/-! Module reset release (R28 to R30, R48, R53). -/

/-- A calibration slot is valid (R53). -/
def CalSlot.valid (c : CalSlot) : Bool :=
  decide (c.magic = 0x4C414343) && decide (1 ≤ c.gen) && decide (c.gen ≤ 0xFFFFFFFE) && decide (16 ≤ c.len) && decide (c.len ≤ 2097136) &&
    decide (c.payload.length = c.len) && decide (c.crc = crc32c (leBytes 4 c.magic ++ leBytes 4 c.gen ++ leBytes 4 c.len ++ c.payload))

def slotValid (c : Option CalSlot) : Bool := c.elim false CalSlot.valid
def slotGen (c : Option CalSlot) : Nat := c.elim 0 (·.gen)

/-- The slot in use: the valid one with the greater GEN, slot A where they are equal (R53). -/
def Cal.chosen (c : Cal) : Nat :=
  let a := slotValid c.slotA
  let b := slotValid c.slotB
  if a && b then (if slotGen c.slotA < slotGen c.slotB then 2 else 1) else if a then 1 else if b then 2 else 0

/-- ACTIVE_GEN. -/
def Cal.gen (c : Cal) : Nat := if c.active = 1 then slotGen c.slotA else if c.active = 2 then slotGen c.slotB else 0

/-- The store as the release finds it (R53, R57). -/
def State.calFind (s : State) (readable : Bool) : State :=
  let a := readable && slotValid s.cal.slotA
  let b := readable && slotValid s.cal.slotB
  let s1 := s.modCal fun c => { c with validA := a, validB := b, active := if readable then c.chosen else 0, readable := readable }
  let s2 := if readable then s1.count CALSTORE.INVALID_FOUND (ofBool (!a) + ofBool (!b)) else s1.setFld CALSTORE.FLASH_FAIL 1
  if a || b then s2 else s2.setFld CALSTORE.FULL_TRAINING 1

/-- Supervisors at release: an input inside its band starts its supervisor asserted, and SUPV_STAT records it (R48). -/
def State.supervisorsStart (s : State) : State :=
  let p := s.power.p54v
  let t := s.power.dieTemp
  let low := decide (p < 4850)
  let lowIn := decide (4800 < p) && low
  let ov := decide (6100 < p)
  let ovIn := ov && decide (p < 6200)
  let thr := decide (900 < t)
  let thrIn := thr && decide (t < 950)
  let trip := s.power.trip || decide (1050 ≤ t)
  let mark (s : State) (b : Bool) (f : Field) : State := if b then s.setFld f 1 else s
  let s1 := s.modPower fun x => { x with lowBand := low, overvoltage := ov, throttle := thr, trip := trip }
  let s2 := mark (mark s1 (lowIn || ovIn) LEAVE.SUPPLY_IN_BAND_START) thrIn LEAVE.THERMAL_IN_BAND_START
  mark (mark (mark (mark s2 low LEAVE.LOWBAND_SEEN) ov LEAVE.OV_SEEN) thr LEAVE.THROTTLE_SEEN) (trip && !s.power.trip) LEAVE.TRIP_SEEN

/-- A fuse bit whose programming was cut short is blown again before it counts (R493). -/
def State.fuseReblow (s : State) : State :=
  if s.rolar.cutShort then (s.modRolar fun r => { r with cutShort := false, fuses := r.fuses + 1 }).count ROLAR.FUSE_BLOWS 1 else s

/-- Module reset is released (R28 to R30, R53): straps sampled, TIDE_IN taken as a level, the calibration store found, the
supervisors started. -/
def State.release (s : State) (readable : Bool) : State :=
  if s.power.released || !s.pins.modPg || !bitAt s.power.good 0 then s
  else
    let sample := s.pins.straps / 128
    let s1 := s.setWord 0 0x000 0x118 (BitVec.ofNat 64 s.pins.straps)
    let s2 := if sample ≠ s.pins.mAs then (s1.modPins fun p => { p with mAs := sample }).setFld GLOBAL.STRAP_CHANGED 1 else s1
    let s3 := (s2.setFld GLOBAL.TIDE_IN_AT_RELEASE (ofBool s.pins.tideIn)).modPins fun p => { p with
      tideArmed := !p.tideIn, releaseAt := s.chrono, perst0Since := none }
    let s4 := ((s3.calFind readable).supervisorsStart).fuseReblow
    { s4 with
      herd := { s4.herd with cand := bitAt s.pins.straps 0, formAt := s.chrono }
      power := { s4.power with released := true, started := if s4.heldOff then 1 else s4.power.good } }

/-! Calibration writes (R54). -/

/-- Calibration writes are blocked: WRITE_DISABLE, an unreadable flash, the last generation. -/
def State.calBlocked (s : State) : Bool := s.bit CALSTORE.WRITE_DISABLE || !s.cal.readable || s.cal.exhausted

/-- A slot write starts: to the slot that is not active, with the next generation. -/
def State.calStart (s : State) (auto : Bool) : State :=
  if s.calBlocked then s
  else if s.cal.gen = 0xFFFFFFFE then s.modCal fun c => { c with exhausted := true, due := false, save := false }
  else
    let gen := s.cal.gen + 1
    -- a payload is at least 16 bytes long; its format is the device's own
    let pay := fitTo s.cal.current (max 16 s.cal.current.length)
    let head := leBytes 4 0x4C414343 ++ leBytes 4 gen ++ leBytes 4 pay.length
    let data : CalSlot := ⟨0x4C414343, gen, pay.length, crc32c (head ++ pay), pay⟩
    let slot := if s.cal.active = 1 then 2 else 1
    s.modCal fun c => { c with
      writing := some ⟨slot, data⟩, due := false, save := false, lastAuto := if auto then some s.chrono else c.lastAuto
      slotA := if slot = 1 then none else c.slotA
      slotB := if slot = 2 then none else c.slotB }

/-- A deferred automatic write starts once it is due: 60 s after the last one, none in progress. -/
def State.calDue (s : State) : State :=
  let spaced := match s.cal.lastAuto with
    | none => true
    | some t => decide (t + 60000000000 ≤ s.chrono)
  if s.cal.due && s.cal.writing.isNone && spaced then s.calStart true else s

/-- SAVE_NOW: a write at once, or merged into the one that follows the write in progress. -/
def State.saveNow (s : State) : State :=
  if s.cal.writing.isSome then s.modCal fun c => { c with save := true } else s.calStart false

/-- CAL_CTRL's write. -/
def calCtrlHook : Hook := fun _ _ _ seen s => if bitAt seen.toNat 0 then s.saveNow else s

/-- A slot write ends: whole and valid, its slot becomes active at once; or the flash failed to program. -/
def State.calEnd (s : State) (ok : Bool) : State :=
  match s.cal.writing with
  | none => s
  | some w =>
    let good := ok && w.data.valid
    let s1 := s.modCal fun c => { c with
      writing := none
      slotA := if w.slot = 1 then (if ok then some w.data else none) else c.slotA
      slotB := if w.slot = 2 then (if ok then some w.data else none) else c.slotB
      validA := if w.slot = 1 then good else c.validA
      validB := if w.slot = 2 then good else c.validB
      active := if good then w.slot else c.active }
    let s2 := if ok then s1.count CALSTORE.WRITES 1 else s1.setFld CALSTORE.FLASH_FAIL 1
    if s2.cal.save then s2.calStart false else s2

/-! Jobs, descriptors and rings of a function (R50, R101). -/

/-- Jobs of a function, and what it fetched and did not end, killed (R52). -/
def State.killFn (s : State) (p : Nat → Bool) (status : Nat) : State :=
  let s1 := (s.work.jobs.filter fun e => p e.2.fn && (match e.2.origin with | .ring _ => true | _ => false)).foldl
    (fun s e => s.killJob e.1 status) s
  (s1.work.descs.filter fun e => p e.2.fn && e.2.state != .ended).foldl (fun s e => s.killDesc e.1 status) s1

/-- The rings of a function removed, with the completions that they still owe. -/
def State.dropRings (s : State) (fn : Nat) : State :=
  s.modWork fun w => { w with
    sqs := w.sqs.filter fun e => e.1 / 64 != fn, cqs := w.cqs.filter fun e => e.1 / 64 != fn
    descs := w.descs.filter fun e => e.2.fn != fn || e.2.old }

/-- A function's jobs, rings, regions and configuration are gone: a function-level reset of it, or its being disabled. -/
def State.fnGone (s : State) (fn : Nat) : State :=
  let s1 := ((s.killFn (· == fn) 0x33).dropRings fn).resetRegs .func fun f _ => f == fn && fn != 0
  let gone := s1.tiers.regions.filter fun e => e.2.owner == fn
  let s2 := (List.range 16).foldl (fun (s : State) r =>
    if (s.bit (SERVE.R_ENABLE.at r)) && gone.any (fun e => e.1 == s.fld (SERVE.R_REQ_REGION.at r) || e.1 == s.fld (SERVE.R_TX_REGION.at r))
    then s.endServeRing r else s) s1
  -- lines that the host holds of the regions are invalidated first
  let s3 := gone.foldl (fun (s : State) e =>
    ((s.host.snoopFilter.filter fun l => e.2.touches l 64).foldl (fun s l => (s.count COHERENCE.BISNP_SENT 1).emit (.snoop l)) s).dropRegion e.1) s2
  (s3.modHost fun h => { h with fns := Table.drop h.fns fn }).clearRings fn

/-- A function-level reset (R51, R106, R107). -/
def State.flr (s : State) (fn : Nat) : State :=
  s.resetOr .func fun s =>
    let s1 := s.fnGone fn
    let s2 :=
      if fn = 0 then
        let s3 := (List.range 31).foldl (fun (s : State) v => if s.fnEnabled (v + 1) && s.onPort0 (v + 1) then s.fnGone (v + 1) else s) s1
        let s4 := s3.resetRegs .func fun f _ => f == 0
        s4.modHost fun h => { h with
          numVfs := 0, atc := [], atsRequests := [], invalidations := [], hcache := [], snoopFilter := [], snoops := [], heldAccesses := []
          hdm := none, cxlCache := false, bias := none }
      else s1
    (s2.count RESET.FLR_COUNT 1).ringSettle

/-! Block reset (R51, R73). -/

/-- Pages on which a block reset, ENABLE, QUIESCE and OUT_OF_SERVICE have no effect. -/
def isFixedPage (page : Nat) : Bool := decide (page < 5)

/-- A block reset of a RING page: every descriptor fetched from its ring is killed, HEAD takes TAIL (chapter 08). -/
def State.ringBlock (s : State) (fn ring : Nat) : State :=
  let mine (id : Nat) : Bool := (s.desc? id).any fun (d : Desc) => d.fn == fn && d.ring == ring && !d.old
  let s1 := (s.work.jobs.filter fun (e : Nat × Job) => match e.2.origin with
    | .ring id => mine id
    | _ => false).foldl (fun (s : State) e => s.killJob e.1 0x33) s
  let s2 := (s1.work.descs.filter fun (e : Nat × Desc) => e.2.fn == fn && e.2.ring == ring && !e.2.old && e.2.state != .ended).foldl
    (fun (s : State) e => s.killDesc e.1 0x33) s1
  let q := s2.sq fn ring
  if Table.has s2.work.sqs (ringKey fn ring) then
    s2.setSq fn ring { q with head := q.tail, lastChain := false, lastDone := false, lastFailed := false, reading := false, again := none }
  else s2

/-- A block reset of the RENNET page (chapter 09): jobs that hold an item of a host flow, or whose thread waits on a host counter, are
killed; host flows are closed and host counters disarmed. Completions that a closed flow held are released. -/
def State.rennetBlock (s : State) : State :=
  let waits (j : Nat) : Bool := s.rennet.threads.any fun (e : Nat × Thread) =>
    e.2.waitOn.any (fun w => decide (w.1 < 1024)) && (s.slice? e.1).any fun (x : Slice) => x.job == j
  let hit := s.work.jobs.filter fun (e : Nat × Job) => e.2.flow.any (fun f => decide (f.1 < 3072)) || waits e.1
  let s1 := hit.foldl (fun (s : State) e => s.killJob e.1 0x33) s
  let items := (s1.rennet.flows.filter fun e => decide (e.1 < 3072)).flatMap fun e => e.2.items.map (·.desc)
  let s2 := items.foldl (fun (s : State) d => s.updDesc d fun x => { x with heldFlow := false }) s1
  let s3 := s2.modRennet fun r => { r with flows := r.flows.filter fun e => decide (3072 ≤ e.1) }
  (((s3.rennet.counters.filter fun e => decide (e.1 < 1024)).foldl (fun (s : State) e => s.disarm e.1) s3).ringSettle).rennetSettle

/-- A block reset of the TIDE page (chapter 10): alarms disarmed, sources closed, jobs with an attached event-time column killed. -/
def State.tideBlock (s : State) : State :=
  let hit := s.work.jobs.filter fun (e : Nat × Job) => e.2.binds.any fun b => b.kind == 5
  ((hit.foldl (fun (s : State) e => s.killJob e.1 0x33) s).modTide fun t => { t with alarms := [], sources := [] }).lagNotice

/-- What a block reset of a page does beside its registers and its slices. -/
def State.blockEffect (s : State) (fn page : Nat) : State :=
  let b := firstPage page
  if b = 0x010 then s.ringBlock fn (page - 0x010)
  else if b = 0x050 then s.rennetBlock
  else if b = 0x058 then s.tideBlock
  else if b = 0x0E0 then (s.serve.requests.filter fun e => e.2.state == .running).foldl (fun s e => s.abandon e.1) s
  else if b = 0x0D0 then
    let k := page - 0xD0
    let s1 := s.linkDown k
    s1.setLink k { s1.link k with mayTrain := true }
  else s

/-- A block reset starts (R73): the instance's slices end with KILLED_RESET, its registers are reset. -/
def State.blockReset (s : State) (fn page : Nat) : State :=
  let r := s.page fn page
  if isFixedPage page || r.resetAt.isSome || r.faulted then s
  else
    s.resetOr .block fun s =>
      let s1 := s.setPage fn page { s.page fn page with resetAt := some s.chrono }
      let s2 := if fn = 0 then (s1.pageSlices page).foldl (fun s e => s.failSlice e.1 0x33 0) s1 else s1
      ((s2.blockEffect fn page).resetRegs .block fun f p => f == fn && p == page).placeAll

/-- A block reset that did not end in time is a block fault (R73, R502): the held writes are discarded. -/
def State.blockTimeout (s : State) (fn page : Nat) : State :=
  let r := s.page fn page
  match r.resetAt with
  | none => s
  | some t =>
    if s.chrono < t + 100000 then s
    else
      let s1 := r.held.foldl (fun (s : State) (h : HeldWrite) => s.raiseBy h.by_ page 0 h.off) (s.setPage fn page { r with
        resetAt := none, held := [], faulted := true, syncWait := [] })
      let s2 := s1.unitFault fn page 0x11 0 0xD8
      r.syncWait.foldl (fun s q => s.emit (.readReg q page 0x048 (BitVec.ofNat 64 (s.fldFn fn (HDR.WRITES.on page))))) s2

/-! Herd reset (R51, R427, R447). -/

/-- Every pair and mirror of this node ends: what was held leaves, the mirror's memory returns. -/
def State.endPair (s : State) : State :=
  let back := if s.twin.hosting.isNone then mirrorMib s.twin.mirror else 0
  let s1 := (s.modTiers fun t => { t with skimOther := t.skimOther - back }).modTwin fun t => { t with paired := false, degraded := false }
  let s2 := (s1.endCuts (fun _ => true) 0x33 (fun _ => 0)).releaseHeld
  { s2 with twin := { cutSeq := s.twin.cutSeq, acked := s.twin.acked } }

/-- A window store closed: its pages return. -/
def State.closeStore (s : State) (id : Nat) : State :=
  match Table.find? s.stores id with
  | none => s
  | some x => ({ s with stores := Table.drop s.stores id }.tierShift x.tier x.used 0).stateNotice

/-- A herd reset applied to this node (R50, R427, R447). -/
def State.herdApply (s : State) (serial : Nat) : State :=
  s.resetOr .herd fun s =>
    let s0 := s.fault 4 0x31 0 0x003 0 serial
    let s1 := (s0.work.jobs).foldl (fun s e => s.killJob e.1 0x33) s0
    let s2 := (s1.work.descs.filter fun e => e.2.state != .ended).foldl (fun s e => s.killDesc e.1 0x33) s1
    let s3 := s2.endPair
    let s4 := (s3.ladle.tables.foldl (fun (s : State) e => s.tblDestroy e.1) s3)
    let s5 := ((s4.setLog []).getD s4)
    let s6 := s5.stores.foldl (fun (s : State) e => s.closeStore e.1) s5
    let s7 := (s6.resetRegs .herd fun _ _ => true).clearMem 0 0x10000000
    let s8 := { s7 with
      tiers := { s7.tiers with badWords := [], sliceUsed := 0, extentWaits := [], runaheadUsed := [], buildUsed := [] }
      work := { s7.work with
        descs := Table.each s7.work.descs fun _ (d : Desc) => { d with heldFlow := false }, nextJob := 0, staged := [], stagedRanges := [] }
      host := { s7.host with reads := [], atsRequests := [], biasWaits := [] }
      leave := {}, rennet := {}, strainer := {}, churn := {}, ladle := {}, hosted := {}
      tide := { s7.tide with sources := [], alarms := [], lastSeq := none, reports := [], lost := false }
      fabric := { s7.fabric with reqs := [], waitReqs := [], windows := [], runs := [], images := [], starts := [], kills := [], routeWaits := [], lastSerial := some serial }
      herd := { s7.herd with
        serial := serial, joins := [], spares := [], parts := [], pendingSets := [], waits := [], gone := [], electAt := none
        lowest := none, waitJoins := if s7.isLead then some s.chrono else none, boot := [], bootTotal := 0, bootAt := none, bootAsked := false } }
    let s9 := ((s8.setFld HERD.STATE 0).setFld ROLAR.STATE 0).count RESET.HERD_COUNT 1
    (((s9.setFld RESET.CAUSE 8).setFld RESET.ALSO_WEAKER 0)).ringSettle

/-- The body of HERD_RESET (Table 20-13). -/
def herdResetBody (serial : Nat) : Bytes := leBytes 1 3 ++ zeros 3 ++ leBytes 4 serial

/-- The lead starts a herd reset: the first of four copies (R427). -/
def State.herdReset (s : State) : State :=
  if s.fabric.resetCopies ≠ 0 then s
  else
    let n := s.fabric.nextSerial
    (s.broadcast s.node.id (herdResetBody n)).modFabric fun f => { f with nextSerial := (n + 1) % 2 ^ 32, resetCopies := 3 }

/-- The next copy of a herd reset, at a beat period; the lead applies it after the fourth. -/
def State.herdResetCopy (s : State) : State :=
  if s.fabric.resetCopies = 0 then s
  else
    let n := (s.fabric.nextSerial + 2 ^ 32 - 1) % 2 ^ 32
    let s1 := (s.broadcast s.node.id (herdResetBody n)).modFabric fun f => { f with resetCopies := f.resetCopies - 1 }
    if s.fabric.resetCopies = 1 then s1.herdApply n else s1

/-- RESET_CTRL's write (R51). -/
def resetCtrlHook : Hook := fun _ _ _ seen s =>
  if bitAt seen.toNat 0 then s.warmReset 7
  else if bitAt seen.toNat 1 then (if s.isLead then s.herdReset else s.setFld RESET.HERD_REQ_REFUSED 1)
  else s

/-! Domains that software switches (R42). -/

/-- Cream may be switched off. -/
def State.pd3Idle (s : State) : Bool :=
  !s.work.jobs.any (fun e => s.bindsTier e.2 .cream) && s.tiers.creamSpill.isEmpty &&
    !s.tiers.regions.any (fun e => e.2.tier == .cream) && !s.stores.any (fun e => e.2.tier == 1) &&
    (match s.serve.store with | some (_, true) => false | _ => true)

/-- A job uses the links or C1. -/
def State.usesLinks (s : State) (job : Job) : Bool :=
  !job.targets.isEmpty || (match job.origin with | .part .. => true | _ => false) ||
    job.binds.any fun b => b.kind == 3 || (match s.resolve (job.herd || b.herd) b.addr with | some (some _, _) => true | _ => false)

/-- The links and C1 may be switched off. -/
def State.pd5Idle (s : State) : Bool := !s.work.jobs.any fun e => s.usesLinks e.2

/-- Cream goes off: its contents are open, promoted copies are dropped. -/
def State.pd3Down (s : State) : State :=
  let s1 := s.ladle.tables.foldl (fun (s : State) e => s.updTable e.1 fun x => { x with promoted := [] }) s
  { s1.clearMem 0x001000000000 0x004000000000 with
    tiers := { s1.tiers with poison := s1.tiers.poison.filter fun l => spaceOf l != .cream, creamUnits := 0 }
    power := { s1.power with good := withBit s1.power.good 3 false } }

/-- The links and C1 go off: every link is down, the node leaves its herd. -/
def State.pd5Down (s : State) : State :=
  let s1 := (List.range 6).foldl (fun (s : State) k => s.linkDown k) s
  let s2 := s1.cellarDown
  (if s2.node.valid then s2.becomeAlone s2.node.id else s2).modPower fun p => { p with good := withBit p.good 5 false }

/-- PD_CTRL's write (R42). -/
def pdCtrlHook : Hook := fun _ _ old seen s =>
  let one (s : State) (d : Nat) (f : Field) (idle : Bool) (down : State → State) : State :=
    let was := bitAt old.toNat d
    let now := bitAt seen.toNat d
    if now && !was then
      if idle then (down s).setFld f 1 else s.setFld LEAVE.OFF_REFUSED 1
    else if was && !now then s.setFld f 0
    else s
  let s1 := one s 3 LEAVE.PD3_OFF s.pd3Idle State.pd3Down
  one s1 5 LEAVE.PD5_OFF s1.pd5Idle State.pd5Down

/-- A domain that is wanted on again is up, retrained from the calibration store (R42): PD3 or PD5. -/
def State.retrainedDomain (s : State) (d : Nat) : State :=
  let off := if d = 3 then s.bit LEAVE.PD3_OFF else s.bit LEAVE.PD5_OFF
  if (d = 3 ∨ d = 5) ∧ s.power.released ∧ !s.heldOff ∧ !bitAt s.power.good d ∧ !off ∧ bitAt s.power.started d then
    let s1 := s.modPower fun p => { p with good := withBit p.good d true }
    if d = 3 then s1.modTiers fun t => { t with creamUnits := 0xF }
    else (List.range 6).foldl (fun (s : State) k => s.setLink k { s.link k with mayTrain := true }) s1
  else s

end Sys2Proof.Machine
end

