-- ==== Sys2Proof/Machine/Live.lean ====
section
/-! DEFINITION. What a register reads: its stored fields, and the fields that show present state (R60 to R65, R73, R517). -/

namespace Sys2Proof.Machine

open Sys2Proof.Reg

/-- A mask with bit `k` for each `k` below `n` that `p` holds of. -/
def maskOf (n : Nat) (p : Nat → Bool) : Nat := (List.range n).foldl (fun v k => if p k then v + 2 ^ k else v) 0

/-- A watermark notice. -/
def State.notice (s : State) (id : Nat) : Notice := Table.findD s.notices id {}

/-- Values that header fields show now. -/
abbrev Shown := List (Field × Nat)

/-- BLOCK_CAP by the block's first page. A block whose chapter defines no bit reads 0. DEDUCED (log 23). -/
def blockCap (page : Nat) : Nat :=
  match firstPage page with
  | 0x070 => 0x3E + (if page = 0x070 then 0x10000 else 0)
  | 0x080 => 0x1FE + (if page = 0x080 then 0x10000 else 0)
  | 0x088 => 0x3E + 64 * 0x10000
  | 0x098 => 0x3E
  | 0x0A0 => 6
  | 0x0A8 => 0x3E
  | 0x0AC => 0x1E
  | 0x0B0 => 0x3FFE
  | 0x0B8 => 2
  | 0x0C0 => 6
  | _ => 0

/-- The leave class of a page. -/
def leaveClass (page : Nat) : Nat := (blockOf page).elim 0 (·.cls)

/-- The page that shows a class's grants and requests: the block's first for a per-node class (R44, R46). -/
def State.leaveHeld (s : State) (page : Nat) : Nat :=
  min 255 (s.leave.grants.filter (fun g => decide (g.page = page) && decide (g.cls = leaveClass page))).length

/-- PG_ID and PG_CAP. -/
def headConst (page : Nat) : Shown :=
  let first := firstPage page
  let nctr := (blockOf page).elim 0 fun b => if page = b.first then b.nctr else b.nctrRest
  [(HDR.PAGE, page), (HDR.BLOCK, first), (HDR.INSTANCE, page - first), (HDR.BLOCK_VER, 1), (HDR.HDR_VER, 1),
   (HDR.LEAVE_USER, ofBool (leaveClass page != 0)), (HDR.FUNC_PAGE, ofBool (first == 0x10)), (HDR.INJECT, 1), (HDR.NCTR, nctr),
   (HDR.BLOCK_CAP, blockCap page)]

/-- A page's instance is out of service: held so by software once it has drained, or failed (R73, R502). -/
def State.showsOos (s : State) (fn page : Nat) : Bool :=
  (s.page fn page).unitFail || (!isFixedPage page && decide (s.fldFn fn (HDR.OUT_OF_SERVICE.on page) = 1) && decide (s.inFlight page = 0)
    && (decide (firstPage page ≠ 0x0D0) || decide ((s.link (page - 0x0D0)).state = 4)))

/-- PG_CTRL, PG_STAT, ERR_INJECT and LEAVE_CLASS. ENABLED follows ENABLE, and stays while slices run. DEDUCED (log 23). -/
def State.headShown (s : State) (fn page : Nat) : Shown :=
  let r := s.page fn page
  let n := s.inFlight page
  let fixed := isFixedPage page
  [(HDR.BLOCK_RESET, ofBool (r.resetAt.isSome || r.faulted)),
   (HDR.ENABLED, ofBool (fixed || decide (s.fldFn fn (HDR.ENABLE.on page) = 1) || decide (0 < n))),
   (HDR.QUIESCED, ofBool (!fixed && decide (s.fldFn fn (HDR.QUIESCE.on page) = 1) && decide (n = 0))), (HDR.BUSY, ofBool (decide (0 < n))),
   (HDR.OOS, ofBool (s.showsOos fn page)), (HDR.LOCKED, ofBool (s.locked fn page)), (HDR.INFLIGHT, min 255 n),
   (HDR.IRQ_PENDING, r.pending), (HDR.INJ_PENDING, ofBool r.inject.isSome), (HDR.CLASS, leaveClass page),
   (HDR.HELD, s.leaveHeld page),
   (HDR.WAITING, ofBool (s.leave.queue.any (fun e => decide (e.page = page) && decide (e.cls = leaveClass page))))]

/-- ERR_SUMMARYk of a view: pages that it presents whose unmasked sticky bits are not all 0 (R68). -/
def State.errSummary (s : State) (req : Requester) (k : Nat) : Nat :=
  maskOf 64 fun n =>
    let p := 64 * k + n
    let fn := ownerOf req p
    presents req p && (s.word fn p 0x020 &&& ~~~(s.word fn p 0x028)) != 0#64

/-- Page 0x000. -/
def State.liveGlobal (s : State) (req : Requester) : Shown :=
  [(GLOBAL.PART, 0x6400), (GLOBAL.STEPPING, 0x10), (GLOBAL.CHRONO, s.chrono), (GLOBAL.NODE_ID, s.node.id),
   (GLOBAL.NODE_VALID, ofBool s.node.valid), (GLOBAL.IS_LEAD, ofBool s.isLead), (GLOBAL.M_AS, s.pins.mAs), (GLOBAL.LIVE, s.pins.straps),
   (GLOBAL.TIDE_IN_LEVEL, ofBool s.pins.tideIn), (GLOBAL.PWR_BRAKE_LEVEL, ofBool s.pins.brakeLow),
   (GLOBAL.PERST0_LEVEL, ofBool s.pins.perst0Low), (GLOBAL.PERST1_LEVEL, ofBool s.pins.perst1Low)] ++
  (List.range 4).map (fun k => (GLOBAL.PRESENT.at k, presentWord (decide (viewOf req = 0)) k)) ++
  (List.range 4).map (fun k => (GLOBAL.ERR_SUMMARY.at k, s.errSummary req k))

/-- Pages 0x001 to 0x004. -/
def State.liveNode (s : State) (page : Nat) : Shown :=
  match page with
  | 0x001 => [(ROLAR.FUSE_SVN, s.rolar.fuses), (ROLAR.FW_REVOKED, s.rolar.revoked), (ROLAR.KEYS_VALID, maskOf 8 fun k => Table.has s.rolar.keys k)] ++
      (List.range 8).flatMap (fun k =>
        [(ROLAR.KEY_MIN_SVN.at k, s.keyInfo k % 2 ^ 32), (ROLAR.KEY_TAG.at k, s.keyInfo k / 2 ^ 32)])
  | 0x002 => [(LEAVE.EFFECTIVE, s.effectiveBudget), (LEAVE.HELD, heldLeave s.leave.grants), (LEAVE.QUEUED, s.leave.queue.length),
      (LEAVE.FLOOR_BRAKE, ofBool s.pins.brakeLow), (LEAVE.FLOOR_LOWBAND, ofBool s.power.lowBand),
      (LEAVE.FLOOR_THERMAL, ofBool s.power.throttle), (LEAVE.PACING, ofBool s.leave.pacing),
      (LEAVE.CLASS_COST, (List.range 6).foldl (fun v n => v + leaveCost (n + 1) * 256 ^ n) 0), (LEAVE.PD_GOOD, maskOf 6 s.good),
      (LEAVE.P54V, s.power.p54v), (LEAVE.DIE_TEMP, ofSigned 16 s.power.dieTemp), (LEAVE.POWER, Config.draw s.chrono % 2 ^ 16)]
  | 0x003 => [(RESET.TRIP_LATCHED, ofBool s.power.trip)]
  | 0x004 => [(CALSTORE.ACTIVE, s.cal.active), (CALSTORE.A_VALID, ofBool s.cal.validA), (CALSTORE.B_VALID, ofBool s.cal.validB),
      (CALSTORE.WRITING, ofBool s.cal.writing.isSome), (CALSTORE.GEN_EXHAUSTED, ofBool s.cal.exhausted), (CALSTORE.ACTIVE_GEN, s.cal.gen)]
  | _ => []

/-- Pages 0x008 to 0x00A. -/
def State.liveHost (s : State) (page : Nat) : Shown :=
  let h := s.host
  match page with
  | 0x008 => [(HOSTIF.P0_UP, ofBool h.p0Up), (HOSTIF.P1_UP, ofBool h.p1Up), (HOSTIF.P0_GEN, h.p0Gen), (HOSTIF.P0_WIDTH, h.p0Width),
      (HOSTIF.P1_GEN, h.p1Gen), (HOSTIF.P1_WIDTH, h.p1Width), (HOSTIF.FLIT, ofBool h.flit), (HOSTIF.CXL_ACTIVE, ofBool h.cxl),
      (HOSTIF.CXL_CACHE, ofBool (h.cxl && h.cxlCache)), (HOSTIF.CXL_MEM, ofBool s.cxlMem), (HOSTIF.NUM_VFS, h.numVfs), (HOSTIF.X8X8, ofBool s.x8x8)]
  | 0x009 => [(COHERENCE.BUSY, ofBool h.bias.isSome), (COHERENCE.SF_USED, h.snoopFilter.length), (COHERENCE.HCACHE_USED, h.hcache.length)]
  | 0x00A =>
    let n := s.notice 3
    let head := s.ledgerHeader
    let rec_ := s.ringRecord (ringKey (s.fld ATTACH.SEL_FUNC) (s.fld ATTACH.SEL_RING))
    [(ATTACH.PARK_MIB, s.parkMib), (ATTACH.LEVEL, ofBool n.level), (ATTACH.ARMED, ofBool n.armed), (ATTACH.HB_ARMED, ofBool h.session.armedAt.isSome)] ++
    (List.range 16).map (fun k => (ATTACH.LEDGER_H.at k, leAt head (8 * k) 8)) ++ (List.range 4).map (fun k => (ATTACH.LEDGER_P.at k, leAt rec_ (8 * k) 8))
  | _ => []

/-- A RING page as a function sees it. -/
def State.liveRing (s : State) (fn page : Nat) : Shown :=
  let q := s.sq fn (page - 0x10)
  let c := s.cq fn (page - 0x10)
  let n := s.notice (1000 + ringKey fn (page - 0x10))
  let on (f : Field) : Field := f.on page
  [(on RING.SQ_HEAD, q.head), (on RING.SQ_TAIL, q.tail), (on RING.INFLIGHT, q.inflight), (on RING.SQ_ACTIVE, ofBool (q.enabled || decide (0 < q.inflight))),
   (on RING.FAULTED, ofBool q.faulted), (on RING.CQ_HEAD, c.head), (on RING.CQ_TAIL, c.tail), (on RING.PHASE, ofBool c.phase),
   (on RING.CQ_ACTIVE, ofBool c.enabled), (on RING.FULL, ofBool c.full), (on RING.LEVEL, ofBool n.level), (on RING.ARMED, ofBool n.armed)]

/-- Pages 0x051 and 0x058. -/
def State.liveTime (s : State) (page : Nat) : Shown :=
  match page with
  | 0x051 => [(CTLCORE.CORE_OK, maskOf 16 s.coreUp), (CTLCORE.CORE_FAILED, s.rennet.coresFailed)]
  | 0x058 =>
    let t := s.tide
    let n := s.notice 6
    let a := s.alarm (s.fld TIDE.ALARM_SEL)
    [(TIDE.VALUE, t.now), (TIDE.STARTED, ofBool (t.now != 0)), (TIDE.HERD_MODE, t.herdMode), (TIDE.HERD_GATE, ofBool t.herdGate),
     (TIDE.HERD_SCALE, t.herdScale), (TIDE.HOLDER, t.holder), (TIDE.BEAT_SEQ, t.shownSeq), (TIDE.LOCAL_WM, s.localWm), (TIDE.LAG_TU, s.lagTu),
     (TIDE.LEVEL, ofBool n.level), (TIDE.ARMED, ofBool n.armed), (TIDE.HERD_EPOCH_TU, t.herdEpochTu), (TIDE.ALARM_TIDE, a.tide),
     (TIDE.ARM, ofBool a.arm), (TIDE.IRQ, ofBool a.irq), (TIDE.CTR, ofBool a.ctr), (TIDE.OUT, ofBool a.out), (TIDE.CTR_ID, a.ctrId)]
  | _ => []

/-- A tier's page. -/
def State.liveTier (s : State) (cream : Bool) : Shown :=
  let n := s.notice (if cream then 1 else 2)
  if cream then
    [(CREAM.UNITS_OK, s.tiers.creamUnits), (CREAM.USED, s.creamUsed), (CREAM.SPILL_MIB, s.creamSpillMib), (CREAM.LEVEL, ofBool n.level), (CREAM.ARMED, ofBool n.armed)]
  else
    [(SKIM.UNITS_OK, s.tiers.skimUnits), (SKIM.USED, s.skimUsed), (SKIM.SPILL_MIB, s.skimSpillMib), (SKIM.LEVEL, ofBool n.level), (SKIM.ARMED, ofBool n.armed)]

/-- Pages 0x060 to 0x063. -/
def State.liveMemory (s : State) (page : Nat) : Shown :=
  match page with
  | 0x060 => [(VAT.SLICE_FREE, s.sliceFree), (VAT.RUNAHEAD_USED, sumTable s.tiers.runaheadUsed), (VAT.BUILD_USED, sumTable s.tiers.buildUsed),
      (VAT.REGION_USED, s.regionExtents)]
  | 0x061 => s.liveTier true
  | 0x062 => s.liveTier false
  | 0x063 =>
    let has (p : Drive → Bool) (d : Nat) : Bool := (s.drive? d).any p
    let sel := (s.drive? (s.fld CELLAR.DRIVE_SEL)).getD {}
    let ns (k : Nat) : Option Namespace := Table.find? sel.namespaces (k + 1)
    [(CELLAR.PRESENT, maskOf 16 (has (·.present))), (CELLAR.READY, maskOf 16 (has (·.ready))), (CELLAR.FAILED, maskOf 16 (has (·.failed))),
     (CELLAR.LINK_UP, ofBool s.tiers.cellarLink), (CELLAR.NS_MASK, maskOf 16 fun k => (ns k).isSome),
     (CELLAR.NS_4K, maskOf 16 fun k => (ns k).any fun (x : Namespace) => x.block == 4096), (CELLAR.MAX_XFER, sel.maxXfer),
     (CELLAR.LINK_WIDTH, sel.width), (CELLAR.LINK_GEN, sel.gen)] ++
    (List.range 16).map (fun k => (CELLAR.NS_BLOCKS.at k, (ns k).elim 0 (·.blocks)))
  | _ => []

/-- A Press page. -/
def State.livePress (s : State) (page : Nat) : Shown :=
  let running (phase : Nat → Bool) : Bool := (s.pageSlices page).any fun (e : Nat × Slice) =>
    decide (e.2.state = .running) && (s.job? e.2.job).any fun (j : Job) => phase (j.engOf e.2.stage).phase
  let joins := s.work.jobs.flatMap fun (e : Nat × Job) => (e.2.joins.filter (fun (x : Nat × Join) => decide (x.2.page = page))).map fun x => (e.2, x)
  let waits := joins.any fun (e : Job × Nat × Join) =>
    decide ((e.1.engOf e.2.1).phase = waiting) && e.2.2.builtOwn && !e.2.2.probedOwn && decide (e.2.2.buildMarks.length < e.1.targets.length)
  let holders := s.work.jobs.filter fun (e : Nat × Job) => e.2.joins.any fun (x : Nat × Join) => decide (x.2.page = page) && !x.2.parts.isEmpty
  [(PRESS.BUILDING.on page, ofBool (running (· == 0))), (PRESS.PROBING.on page, ofBool (running (fun p => p != 0 && p != waiting))),
   (PRESS.WAIT_BUILD.on page, ofBool waits), (PRESS.JOBS.on page, min 255 holders.length)]

/-- Pages of the engines. -/
def State.liveEngine (s : State) (page : Nat) : Shown :=
  match page with
  | 0x070 =>
    let n := s.notice 4
    let on := s.bit INTAKE.ENABLE
    [(INTAKE.TAIL, s.dlog.tail), (INTAKE.PHASE, ofBool s.dlog.phase), (INTAKE.ACTIVE, ofBool on),
     (INTAKE.FULL, ofBool (on && decide (occupancy (s.fld INTAKE.DLOG_HEAD) s.dlog.tail s.dlogDepth + 1 = s.dlogDepth))),
     (INTAKE.LEVEL, ofBool n.level), (INTAKE.ARMED, ofBool n.armed), (INTAKE.NEXT_SEQ, s.dlog.seq)]
  | 0x080 => [(CHURN.DICT_USED, s.dictBytes)]
  | 0x098 =>
    let lane := leBytes (s.fld HASH.PROBE_LEN) (s.fld HASH.PROBE_LANE)
    [(HASH.PROBE_OM64, om64 lane (s.fld HASH.PROBE_SEED)), (HASH.PROBE_CRC, crc32c lane)]
  | 0x0AC =>
    let n := s.notice 5
    [(RIPENER.LEVEL, ofBool n.level), (RIPENER.ARMED, ofBool n.armed), (RIPENER.STATE_MIB, s.stateMib)]
  | _ => if firstPage page = 0x0A8 then s.livePress page else []

/-- A link's page. -/
def State.liveLink (s : State) (page : Nat) : Shown :=
  let l := s.link (page - 0x0D0)
  let on (f : Field) : Field := f.on page
  [(on ZLINK.STATE, l.state), (on ZLINK.LANES_OK, l.lanesOk), (on ZLINK.POL_INV, l.polInv), (on ZLINK.SECURE, ofBool l.secure),
   (on ZLINK.EQ_STORED, ofBool l.eqStored), (on ZLINK.PARTNER_VALID, ofBool l.partnerValid), (on ZLINK.PARTNER_FACE, l.partnerFace),
   (on ZLINK.PARTNER_NODE, l.partnerNode)]

/-- TWIN_STAT.STATE: HOSTING, else DEGRADED, PAIRED, PAIRING while the pair is reported, NONE. -/
def State.twinState (s : State) : Nat :=
  if s.twin.hosting.isSome then 4 else if s.twin.degraded then 3 else if s.twin.paired then 2 else if s.twin.asked then 1 else 0

/-- Pages 0x0D8 to 0x0F0. -/
def State.liveHerd (s : State) (page : Nat) : Shown :=
  match page with
  | 0x0D8 => [(ROUTE.PENDING, ofBool (!s.fabric.pendingRoutes.isEmpty))]
  | 0x0D9 => [(HERD.LEAD_ID, s.herd.lead), (HERD.MEMBERS, max 1 s.fabric.members.length)]
  | 0x0DA => [(TWIN.STATE, s.twinState), (TWIN.PARTNER, s.twin.partner), (TWIN.ACKED_CUT, s.twin.acked), (TWIN.HELD, s.heldCount),
      (TWIN.MIRROR_MIB, mirrorMib s.twin.mirror), (TWIN.ALIAS_ID, s.twin.hosting.getD 0), (TWIN.ALIAS_VALID, ofBool s.twin.hosting.isSome)]
  | 0x0E0 =>
    let n := s.notice 7
    [(SERVE.LEVEL, ofBool n.level), (SERVE.ARMED, ofBool n.armed), (SERVE.AQ_USED, s.aqUsed)] ++
    (List.range 16).flatMap (fun r =>
      let x := s.serveRing r
      [(SERVE.R_PROD.at r, x.prod), (SERVE.R_CONS.at r, x.cons), (SERVE.R_TXP.at r, x.txp % s.txDepth r)])
  | 0x0F0 => [(FAULT.FAULT_N_LOW, ofBool s.faultPinLow)]
  | _ => []

/-- The fields of a page that show present state, as a requester sees them. -/
def State.shown (s : State) (req : Requester) (page : Nat) : Shown :=
  if page = 0 then s.liveGlobal req
  else if page < 5 then s.liveNode page
  else if page < 0x00B then s.liveHost page
  else if firstPage page = 0x010 then s.liveRing (viewOf req) page
  else if page < 0x059 then s.liveTime page
  else if page < 0x064 then s.liveMemory page
  else if firstPage page = 0x0D0 then s.liveLink page
  else if page < 0x0D0 then s.liveEngine page
  else s.liveHerd page

/-- A register's word with the fields that show present state. -/
def State.shownWord (s : State) (req : Requester) (page off : Nat) : Word :=
  let fn := ownerOf req page
  let fs := if isHeader off then headConst page ++ s.headShown fn page else s.shown req page
  (fs.filter (fun e => decide (e.1.off = off))).foldl (fun w e => putBits w e.1.hi e.1.lo e.2) (s.word fn page off)

/-- What a 64-bit read of a register returns, where its page answers: 0 above the header while the page's block reset runs or
has failed (R73), else its word. A page that does not answer, or whose access a host function may not make, reads 0, as does an offset
that no table defines (R60). -/
def State.readWord (s : State) (req : Requester) (page off : Nat) : Word :=
  let r := s.page (ownerOf req page) page
  if !presents req page || !s.answers page then 0#64
  else if decide (0x100 ≤ off) && (r.resetAt.isSome || r.faulted) then 0#64
  else if (fieldsAt page off).isEmpty then 0#64
  else s.shownWord req page off

/-- A 64-bit register read: one that the requester's view does not present is counted (R60). -/
def State.readReg (s : State) (req : Requester) (page off : Nat) : State :=
  let s1 := if presents req page then s else s.unmapped req page off
  s1.emit (.readReg req page off (s.readWord req page off))

end Sys2Proof.Machine
end

