-- ==== Sys2Proof/Machine/HostOps.lean ====
section
/-! DEFINITION. The host ports and the host session: links down and up, host loss, claims (R107, R130 to R143, R520). -/

namespace Sys2Proof.Machine

open Sys2Proof.Reg

/-! Links of the host ports. -/

/-- The cause of a loss occurs now (R130); a link-down prevails over an expiry that is not declared yet. -/
def State.lossDue (s : State) (c : LossCause) : State :=
  s.modSession fun x => { x with due := some c, lossChrono := s.chrono, lossTide := s.tide.now }

/-- What a port 0 link-down takes of the configuration of its functions (R131). -/
def State.port0Config (s : State) : State :=
  let keep (f : Nat) : Bool := !s.onPort0 f
  s.modHost fun h => { h with
    fns := h.fns.filter fun e => keep e.1, numVfs := 0, hdm := none, cxlCache := false, hcache := []
    atc := h.atc.filter fun e => keep e.1, atsRequests := h.atsRequests.filter fun a => keep a.fn
    invalidations := h.invalidations.filter fun e => keep e.1 }

/-- Reads that lose their port: those of serving rings, and descriptor reads from host memory, are no longer awaited. -/
def State.port0Reads (s : State) : State :=
  let s1 := s.modServe fun v => { v with rings := Table.each v.rings fun _ (x : ServeRing) => { x with reading := false } }
  let lost (k : Nat) (q : Sq) : Sq :=
    if (s.onPort0 (k / 64) && s.fldFn (k / 64) (RING.SQ_BASE_LOC.on (ringPage (k % 64))) == 0) then { q with reading := false } else q
  s1.modWork fun w => { w with sqs := Table.each w.sqs lost }

/-- The port 0 link goes down (R130, R131, R520): its configuration is lost; host loss is due. -/
def State.port0Down (s : State) : State :=
  if !s.host.p0Up then s
  else
    let s1 := ((s.modHost fun h => { h with p0Up := false, p0Gen := 0, p0Width := 0, flit := false, cxl := false }).count HOSTIF.LINK_DOWNS 1).raiseOwn 0x008 20
    (s1.port0Config.port0Reads).lossDue .linkDown

/-- The port 1 link goes down: a function-level reset of function 31 (R107). -/
def State.port1Down (s : State) : State :=
  if !s.host.p1Up then s
  else
    (((s.modHost fun h => { h with p1Up := false, p1Gen := 0, p1Width := 0 }).count HOSTIF.LINK_DOWNS 1).raiseOwn 0x008 20).flr 31

/-- The port 0 link trains up. -/
def State.port0Up (s : State) (gen width : Nat) (flit cxl : Bool) : State :=
  if s.host.p0Up || !s.power.released || s.pins.perst0Low || !s.good 1 then s
  else s.modHost fun h => { h with p0Up := true, p0EverUp := true, p0Gen := gen, p0Width := width, flit := flit, cxl := cxl }

/-- The port 1 link trains up, in x8x8 mode. -/
def State.port1Up (s : State) (gen width : Nat) : State :=
  if s.host.p1Up || !s.power.released || !s.x8x8 || s.pins.perst1Low || !s.good 1 then s
  else s.modHost fun h => { h with p1Up := true, p1Gen := gen, p1Width := width }

/-! The session (R130 to R143). -/

/-- A heartbeat of the physical function. -/
def heartbeatHook : Hook := fun req page _ v s =>
  let s1 := s.setWord 0 page 0x100 v
  match req with
  | .fn 0 => s1.modSession fun x => { x with lastBeat := v, lastBeatAt := s.chrono }
  | _ => s1

/-- HB_SPAN in ns. -/
def State.hbSpan (s : State) : Nat := s.fld ATTACH.HB_SPAN * 1000000

/-- The heartbeat span has run out with the monitor armed. -/
def State.heartbeatExpire (s : State) : State :=
  match s.host.session.armedAt, s.host.session.due with
  | some a, none =>
    if max a s.host.session.lastBeatAt + s.hbSpan ≤ s.chrono then s.lossDue .heartbeat else s
  | _, _ => s

/-- CLAIM's RESULT (Table 07-4). DESIGN CHOICE (log 24): the order of the checks. -/
def State.claimResult (s : State) : Nat :=
  if s.session = 1 then 3
  else if s.bit ATTACH.AUTH_REQUIRED && !s.bit ATTACH.AUTH_OK then 1
  else if s.fld ATTACH.CLAIM_ID ≠ s.host.session.id then 2
  else 0

/-- The rings of the port 0 functions removed (R141, step 2): what they fetched runs on and completes into the park. -/
def State.removeRings (s : State) : State :=
  let p (k : Nat) : Bool := s.onPort0 (k / 64)
  let off (s : State) (k : Nat) : State :=
    ((s.setFldFn (k / 64) (RING.SQ_ENABLE.on (ringPage (k % 64))) 0).setFldFn (k / 64) (RING.CQ_ENABLE.on (ringPage (k % 64))) 0)
  let keys := (s.work.sqs.map (·.1) ++ s.work.cqs.map (·.1)).filter p
  let s1 := keys.foldl off s
  let s2 := s1.modWork fun w => { w with
    sqs := w.sqs.filter fun e => !p e.1, cqs := w.cqs.filter fun e => !p e.1
    descs := Table.each w.descs fun _ (d : Desc) => if s.onPort0 d.fn then { d with old := true } else d }
  { s2 with pages := Table.each s2.pages fun k (r : PageRun) =>
      if decide (firstPage (k % 0x4000) = 0x10) && s.onPort0 (k / 0x4000) then { r with pending := 0 } else r }

/-- A CLAIM (R141). A pair that holds nothing numbers its records from 0 again in the new session (R137). DEDUCED (log 24). -/
def State.claimSession (s : State) (req : Requester) : State :=
  let res := s.claimResult
  let s1 := s.setFld ATTACH.RESULT res
  if res ≠ 0 then s1.raiseBy req 0x00A 19 0x138
  else
    let s2 := (s1.count ATTACH.CLAIMS 1).modSession fun x => { x with
      id := (x.id + 1) % 2 ^ 64, armedAt := some s.chrono, defaultRows := 0 }
    let s3 := s2.removeRings
    let s4 := s3.modSession fun x => { x with
      nextSeq := x.nextSeq.filter fun e => !(s3.pairRecords e.1).isEmpty || s3.oldJobs e.1 != 0 }
    (s4.setFld ATTACH.STATE (if s4.pairsLeft then 3 else 1)).ringSettle

/-- A DISCARD (R143). -/
def State.discardPark (s : State) : State := if s.session = 3 then (s.setPark []).sessionSettle else s

/-- ATTACH_CTRL's write: a claim, a discard, the end of substitution (R134). -/
def attachCtrlHook : Hook := fun req _ _ v s =>
  let s1 := if v.getLsbD 0 then s.claimSession req else s
  let s2 := if v.getLsbD 1 then s1.discardPark else s1
  if v.getLsbD 2 then s2.setFld ATTACH.SUBST 0 else s2

/-- MARK and HYST of the park. -/
def parkWmHook : Hook := fun _ _ _ _ s => s.setPark s.host.session.park

/-- The effect of each register of the ATTACH page. -/
def attachHook (off : Nat) : Hook :=
  match off with
  | 0x100 => heartbeatHook
  | 0x118 => parkWmHook
  | 0x138 => attachCtrlHook
  | _ => noHook

/-- Readers whose host reads the loss ends, each once: they go on as R132 has it. -/
def State.lossReaders (s : State) : List Reader :=
  (s.host.reads.filter fun e => s.onPort0 e.2.fn).foldl (fun l e => if l.contains e.2.who then l else l ++ [e.2.who]) []

/-- Host loss is declared (R130, R132, R520): STATE is LOST, and what was held until now goes on. -/
def State.declareLoss (s : State) : State :=
  match s.host.session.due with
  | none => s
  | some c =>
    let held := s.host.session.held
    let loud := (s.word 0 0x00A 0x020 ||| s.word 0 0x00A 0x028).getLsbD 16
    let s1 := (s.count ATTACH.LOSSES 1).raiseOwn 0x00A 16
    let s2 := if loud then s1.irqEvent 0 0x00A else s1
    let s3 := ((s2.setFld ATTACH.STATE 2).setFld ATTACH.LOSS_CAUSE (match c with | .heartbeat => 1 | .linkDown => 2)).setFld ATTACH.AUTH_OK 0
    let s4 := s3.modSession fun x => { x with due := none, armedAt := none, held := [] }
    let who := s4.lossReaders
    let s5 := s4.modHost fun h => { h with
      reads := h.reads.filter fun e => !s4.onPort0 e.2.fn, atsRequests := h.atsRequests.filter fun a => !s4.onPort0 a.fn }
    let s6 := who.foldl (fun (s : State) w => s.resume w) s5
    held.foldl (fun (s : State) (h : HeldWrite) => s.regWrite h.by_ 0x00A h.off h.value (attachHook h.off)) s6.ringSettle

end Sys2Proof.Machine
end

