-- ==== Sys2Proof/Machine/Edges.lean ====
section
/-! DEFINITION. The pins, straps, cables and the supply (chapters 02 and 03; rows P54V_RISE to THERMAL_TRIP, TIDE_IN_FALL, CABLE_SEATED and their
neighbours of the table). -/

namespace Sys2Proof.Machine

open Sys2Proof.Reg

/-- PD1 to PD5 lose what they hold while they are held off (R49): every job is lost, the host link is down. -/
def State.domainsLost (s : State) : State :=
  { s with
    mem := [], tiers := {}, host := {}, work := {}, rennet := {}, node := {}, fabric := { lastSerial := s.fabric.lastSerial, nextSerial := s.fabric.nextSerial }
    twin := {}, strainer := {}, dlog := {}, churn := {}, ladle := {}, herd := {}, hosted := {}, serve := {}, stores := [], leave := {} }.setFld
      LEAVE.TIERS_READY 0

/-- The floor causes have changed: what waits for leave is looked at again (R43, R46, R47). -/
def State.floorChanged (s : State) : State := if s.power.released then s.leaveSettle else s

/-- P54V_RISE: the input crosses 46.0 V rising; PD0 starts (R48, R51). CAUSE tells power-on from undervoltage by the retention flag. -/
def execP54vRise (now level : Nat) (s : State) : Host.Outcome State Fault Refusal :=
  let s := s.at now
  .next (if s.power.undervoltage ∧ 4600 ≤ level then
    (s.modPower fun p => { p with p54v := level, undervoltage := false, good := 1, retention := false }).setFld RESET.CAUSE (if s.power.retention then 2 else 1)
  else s)

/-- MOD_PG_ASSERT: PD0 is good, the calibration store is read; M_AS is sampled, Rolar runs from its own flash pair (R30, R486). -/
def execModPgAssert (now : Nat) (s : State) : Host.Outcome State Fault Refusal :=
  let s := s.at now
  .next (if s.pins.modPg || s.power.undervoltage || !bitAt s.power.good 0 then s
  else
    let slot := (s.bootSlot 3 0).getD 0
    let hdr := ((Table.find? s.rolar.flash slot).getD []).take 512
    let s1 := s.modPins fun p => { p with modPg := true, mAs := p.straps / 128 }
    (s1.modRolar fun r => { r with rolarHdr := hdr }).setFld ROLAR.ROLAR_SLOT slot)

/-- MODULE_RESET_RELEASE: straps are sampled and the module leaves reset (R28, R29). -/
def execModuleResetRelease (now : Nat) (readable : Bool) (s : State) : Host.Outcome State Fault Refusal :=
  .next ((s.at now).release readable)

/-- STRAP_CHANGED: the levels change; nothing samples them now (R28). Within 1 ms of the release the sampled value is the old or the new level,
which of them is open. -/
def execStrapChanged (now levels : Nat) (s : State) : Host.Outcome State Fault Refusal :=
  let s := s.at now
  .next (
    let s1 := s.modPins fun p => { p with straps := levels % 512 }
    if s.pins.straps = levels % 512 then s
    else if s.power.released ∧ s.chrono < s.pins.releaseAt + 1000000 then
      let r := s1.openNat
      let s2 := if r.1 % 2 = 1 then (r.2.setWord 0 0x000 0x118 (BitVec.ofNat 64 (levels % 512))).modHerd fun h => { h with cand := bitAt levels 0 } else r.2
      s2.setFld GLOBAL.STRAP_CHANGED 1
    else if s.pins.modPg then s1.setFld GLOBAL.STRAP_CHANGED 1 else s1)

/-- A RESET_N low that the device takes (R49, R51). -/
def State.resetPin (s : State) : State :=
  if s.power.trip ∧ s.power.dieTemp < 900 then (s.modPower fun p => { p with trip := false, good := 1, started := 1 }).warmReset 6 else s.warmReset 3

/-- RESET_N_PULSE: a low of `width` ns ends. At least 10 µs is a warm reset, less than 1 µs nothing; between them it is open (R34, R51). -/
def execResetNPulse (now width : Nat) (s : State) : Host.Outcome State Fault Refusal :=
  let s := s.at now
  .next (if s.power.undervoltage ∨ width < 1000 then s
  else if 10000 ≤ width then s.resetPin
  else
    let r := s.openNat
    if r.1 % 2 = 1 then r.2.resetPin else r.2)

/-- PERST0_N_LEVEL: a low holds the host port 0 PHY (R20). -/
def execPerst0NLevel (now : Nat) (low : Bool) (s : State) : Host.Outcome State Fault Refusal :=
  let s := s.at now
  .next (if low = s.pins.perst0Low then s
  else
    let since := if low && s.power.released then some s.chrono else none
    let s1 := s.modPins fun p => { p with perst0Low := low, perst0Since := since }
    if low then s1.port0Down else s1)

/-- PERST0_WARM_RESET: the low has lasted 100 µs since the release (R20). -/
def execPerst0WarmReset (now : Nat) (s : State) : Host.Outcome State Fault Refusal :=
  let s := s.at now
  .next (match s.pins.perst0Since with
    | some t =>
      if s.pins.perst0Low ∧ t + 100000 ≤ s.chrono then (s.modPins fun p => { p with perst0Since := none }).warmReset 4 else s
    | none => s)

/-- PERST1_N_LEVEL: a low holds the host port 1 PHY in x8x8 mode (R20). -/
def execPerst1NLevel (now : Nat) (low : Bool) (s : State) : Host.Outcome State Fault Refusal :=
  let s := (s.at now).modPins fun p => { p with perst1Low := low }
  .next (if low && s.x8x8 then s.port1Down else s)

/-- PWR_BRAKE_N: the 350 W floor begins or ends (R43). -/
def execPwrBrakeN (now : Nat) (low : Bool) (s : State) : Host.Outcome State Fault Refusal :=
  let s := s.at now
  .next (
    let since := if low && !s.pins.brakeLow then s.chrono else s.pins.brakeSince
    (s.modPins fun p => { p with brakeLow := low, brakeSince := since }).floorChanged)

/-- TIDE_IN_RISE: an edge that keeps its spacing is stamped and is an epoch pulse (R29, R35, R214); a sooner one is dropped. -/
def execTideInRise (now : Nat) (s : State) : Host.Outcome State Fault Refusal :=
  let s := s.at now
  .next (if s.pins.tideIn then s
  else
    let s1 := s.modPins fun p => { p with tideIn := true, tideSince := s.chrono }
    if !s.power.released || !s.pins.tideArmed then s1
    else
      match s.pins.tideLast with
      | some t =>
        if s.chrono < t + 10000 then s1.setFld GLOBAL.TIDE_IN_FAST 1
        else ((s1.modPins fun p => { p with tideLast := some s.chrono }).setFld TIDE.PULSE_STAMP s.chrono).takePulse
      | none => ((s1.modPins fun p => { p with tideLast := some s.chrono }).setFld TIDE.PULSE_STAMP s.chrono).takePulse)

/-- TIDE_IN_FALL: the input deasserts, so that its next rising edge is an event (R29, R32). -/
def execTideInFall (now : Nat) (s : State) : Host.Outcome State Fault Refusal :=
  .next ((s.at now).modPins fun p => { p with tideIn := false, tideArmed := true })

/-- STUCK_SPAN_EXPIRE: an input has been asserted for longer than STUCK_SPAN (R32). -/
def execStuckSpanExpire (now : Nat) (brake : Bool) (s : State) : Host.Outcome State Fault Refusal :=
  let s := s.at now
  .next (
    let on := if brake then s.pins.brakeLow else s.pins.tideIn
    let since := max s.pins.releaseAt (if brake then s.pins.brakeSince else s.pins.tideSince)
    if s.power.released && on && decide (since + s.fld GLOBAL.STUCK_SPAN * 1000000000 ≤ s.chrono) then
      s.setFld (if brake then GLOBAL.PWR_BRAKE_STUCK else GLOBAL.TIDE_IN_STUCK) 1
    else s)

/-- STUCK_CLEAR: a write of PIN_STAT; its RW1C bits clear (R32, R38). -/
def execStuckClear (now : Nat) (req : Requester) (value : Word) (s : State) : Host.Outcome State Fault Refusal :=
  .next ((s.at now).regWrite req 0x000 0x120 value noHook)

/-- ZK_PRSNT_N: a cable is taken out; its link is down at once (R432). -/
def execZkPrsntN (now link : Nat) (s : State) : Host.Outcome State Fault Refusal :=
  if 6 ≤ link then .fault .noSuchUnit
  else
    let s := (s.at now).modPins fun p => { p with cables := withBit p.cables link false }
    .next (if s.power.released then s.linkDown link else s)

/-- CABLE_SEATED: a cable is seated, so that its link may train (R405). -/
def execCableSeated (now link : Nat) (s : State) : Host.Outcome State Fault Refusal :=
  if 6 ≤ link then .fault .noSuchUnit
  else .next ((s.at now).modPins fun p => { p with cables := withBit p.cables link true })

/-- CPRSNT_N: a drive's presence pin changes, in four-drive mode (R93). -/
def execCprsntN (now drive : Nat) (low : Bool) (s : State) : Host.Outcome State Fault Refusal :=
  if 4 ≤ drive then .fault .noSuchUnit else .next ((s.at now).drivePin drive low)

/-- M1_BUS_TIMEOUT: M_SCL was low for `lowMs` ms; the bus interface is reset, and the packet in hand is given up (R36). -/
def execM1BusTimeout (now lowMs : Nat) (s : State) : Host.Outcome State Fault Refusal :=
  let s := s.at now
  .next (if s.pins.modPg ∧ 25 ≤ lowMs then s.modRolar fun r => { r with resends := 0 } else s)

/-- UNDERVOLTAGE: the input is at 44.0 V or below: a cold reset, the retention flag set (R48, R51). -/
def execUndervoltage (now level : Nat) (s : State) : Host.Outcome State Fault Refusal :=
  let s := s.at now
  .next (if 4400 < level then s
  else if s.power.undervoltage then s.modPower fun p => { p with p54v := level }
  else (s.modPower fun p => { p with p54v := level, retention := decide (1200 ≤ level) }).coldOff)

/-- RETENTION_FLAG_LOST: the input is below 12.0 V (R51). -/
def execRetentionFlagLost (now level : Nat) (s : State) : Host.Outcome State Fault Refusal :=
  let s := s.at now
  .next (if 1200 ≤ level then s
  else if s.power.undervoltage then s.modPower fun p => { p with p54v := level, retention := false }
  else (s.modPower fun p => { p with p54v := level, retention := false }).coldOff)

/-- LOW_BAND: the low-band supervisor follows the input: 48.0 V falling, 48.5 V rising (R48). -/
def execLowBand (now level : Nat) (s : State) : Host.Outcome State Fault Refusal :=
  let s := s.at now
  .next (if s.power.undervoltage then s
  else
    let s1 := s.modPower fun p => { p with p54v := level }
    if level ≤ 4800 then ((s1.modPower fun p => { p with lowBand := true }).setFld LEAVE.LOWBAND_SEEN 1).floorChanged
    else if 4850 ≤ level then (s1.modPower fun p => { p with lowBand := false }).floorChanged
    else s1)

/-- OVERVOLTAGE: the input reaches 62.0 V: PD1 to PD5 are held off (R48, R49). -/
def execOvervoltage (now level : Nat) (s : State) : Host.Outcome State Fault Refusal :=
  let s := s.at now
  .next (if s.power.undervoltage ∨ level < 6200 then s
  else
    let s1 := (s.modPower fun p => { p with p54v := level, overvoltage := true }).setFld LEAVE.OV_SEEN 1
    if s.power.released && !s.heldOff then s1.domainsLost else s1)

/-- OV_RELEASE: the input falls to 61.0 V; with no trip latched the domains restart in a warm reset (R48, R49). -/
def execOvRelease (now level : Nat) (s : State) : Host.Outcome State Fault Refusal :=
  let s := s.at now
  .next (if !s.power.overvoltage || decide (6100 < level) then s
  else
    let s1 := s.modPower fun p => { p with p54v := level, overvoltage := false }
    if s.power.trip then s1 else (s1.modPower fun p => { p with good := 1, started := 1 }).warmReset 5)

/-- THERMAL_THROTTLE: the throttle follows the die: 95 °C rising, 90 °C falling, in units of 0.1 °C (R48). -/
def execThermalThrottle (now : Nat) (temp : Int) (s : State) : Host.Outcome State Fault Refusal :=
  let s := s.at now
  .next (
    let s1 := s.modPower fun p => { p with dieTemp := temp }
    if s.power.undervoltage then s1
    else if 950 ≤ temp then ((s1.modPower fun p => { p with throttle := true }).setFld LEAVE.THROTTLE_SEEN 1).floorChanged
    else if temp ≤ 900 then (s1.modPower fun p => { p with throttle := false }).floorChanged
    else s1)

/-- THERMAL_TRIP: the die reaches 105 °C: the trip latches, PD1 to PD5 are held off, a node fault is recorded (R49, R502). -/
def execThermalTrip (now : Nat) (temp : Int) (s : State) : Host.Outcome State Fault Refusal :=
  let s := s.at now
  .next (if s.power.undervoltage || s.power.trip || decide (temp < 1050) then s
  else
    let s1 := ((s.modPower fun p => { p with dieTemp := temp, trip := true, throttle := true }).setFld LEAVE.TRIP_SEEN 1).setFld LEAVE.THROTTLE_SEEN 1
    let s2 := s1.nodeFatal 0x22 0
    if s.power.released && !s.heldOff then s2.domainsLost else s2)

end Sys2Proof.Machine
end

