-- ==== Sys2Proof/Machine/PowerCmds.lean ====
section
/-! DEFINITION. Power domains, leave, the calibration store and the resets (chapter 03; rows PD_SWITCH_ON to BLOCK_RESET_TIMEOUT but
BLOCK_RESET_END, and SUSTAINED_BUDGET_WRITE). -/

namespace Sys2Proof.Machine

open Sys2Proof.Reg

/-- The domains that must be on before domain `d` starts, in the order of Table 03-2. -/
def beforeDomain : Nat → List Nat
  | 2 => [1, 3, 4]
  | 3 => [1]
  | 4 => [1]
  | 5 => [1, 2, 3, 4]
  | _ => []

/-- Software holds a domain off (R42). -/
def State.switchedOff (s : State) (d : Nat) : Bool := (d == 3 && s.bit LEAVE.PD3_OFF) || (d == 5 && s.bit LEAVE.PD5_OFF)

/-- Domain `d` switches on: its pages answer from now on (R41, R519). -/
def State.domainOn (s : State) (d : Nat) : State :=
  if s.power.undervoltage || s.heldOff || !bitAt s.power.good 0 || bitAt s.power.good d || s.switchedOff d || !(beforeDomain d).all (bitAt s.power.good)
  then s
  else s.modPower fun p => { p with good := withBit p.good d true, started := withBit p.started d true }

/-- PD_SWITCH_ON: a domain's step of the power-up sequence (R41). -/
def execPdSwitchOn (now domain : Nat) (s : State) : Host.Outcome State Fault Refusal :=
  if 6 ≤ domain then .fault .noSuchUnit else .next ((s.at now).domainOn domain)

/-- TIERS_READY: step 6 of Table 03-2 (R41). `results` are the training results, the masks the stacks of Cream and the channels of Skim
that trained; a unit that did not takes its tier out of service (R88). -/
def execTiersReady (now : Nat) (results : Bytes) (cream skim : Nat) (s : State) : Host.Outcome State Fault Refusal :=
  let s := s.at now
  .next (if !s.power.released || s.tiersReady || !(List.range 6).all s.good then s
  else
    let full := s.cal.active == 0
    let s1 := ((s.modTiers fun t => { t with creamUnits := 0xF, skimUnits := 0xFFFF }).calLearn results full).setFld LEAVE.TIERS_READY 1
    let s2 := (List.range 4).foldl (fun (s : State) u => if bitAt cream u then s else s.tierFail true u) s1
    let s3 := (List.range 16).foldl (fun (s : State) u => if bitAt skim u then s else s.tierFail false u) s2
    s3.leaveSettle.calDue.ringSettle)

/-- The word of PD_CTRL with one bit changed. -/
def State.pdCtrlWord (s : State) (bit : Nat) (off : Bool) : Word := putBits (s.word 0 0x002 0x120) bit bit (ofBool off)

/-- PD3_OFF: a write of PD_CTRL that changes PD3_OFF (R42). -/
def execPd3Off (now : Nat) (req : Requester) (off : Bool) (s : State) : Host.Outcome State Fault Refusal :=
  let s := s.at now
  .next (s.regWrite req 0x002 0x120 (s.pdCtrlWord 3 off) pdCtrlHook)

/-- PD5_OFF: a write of PD_CTRL that changes PD5_OFF (R42). -/
def execPd5Off (now : Nat) (req : Requester) (off : Bool) (s : State) : Host.Outcome State Fault Refusal :=
  let s := s.at now
  .next (s.regWrite req 0x002 0x120 (s.pdCtrlWord 5 off) pdCtrlHook)

/-- PD_RETRAINED: a domain that is wanted on again has retrained (R42). -/
def execPdRetrained (now domain : Nat) (s : State) : Host.Outcome State Fault Refusal :=
  if 6 ≤ domain then .fault .noSuchUnit else .next ((s.at now).retrainedDomain domain)

/-- The page under which a class's grant is kept: the slice's instance, or the first page of the block of a per-node class (R44). -/
def leavePage (cls page : Nat) : Nat :=
  match cls with
  | 3 => 0x0C0
  | 4 => 0x063
  | 5 => 0x070
  | 6 => 0x0B8
  | _ => page

/-- The timeout of a request, in ticks: the descriptor's, the stage's, else DEF_TIMEOUT (R46). -/
def State.leaveTicksOf (s : State) (job : Job) (stage : Nat) : Nat :=
  let st := (job.plan.stage stage).leaveTicks
  if job.leaveTicks ≠ 0 then job.leaveTicks else if st ≠ 0 then st else s.fld LEAVE.DEF_TIMEOUT

/-- LEAVE_REQUEST: leave of a class is asked for a slice before its heavy work (R44 to R46): of its page's class, or class 4 for
writes to drives. -/
def execLeaveRequest (now slice cls : Nat) (s : State) : Host.Outcome State Fault Refusal :=
  let s := s.at now
  .next (match s.slice? slice with
    | none => s
    | some x =>
      match s.job? x.job with
      | none => s
      | some job =>
        let page := leavePage cls x.page
        if !s.power.released || x.state != .queued || !(cls == 4 || (cls != 0 && cls == leaveClass x.page)) || s.holdsLeave x.job cls page then s
        else
          match s.leaveDecide cls with
          | .full => ((s.count LEAVE.QFULL 1).failSlice slice 0x31 0).placeAll
          | _ => s.leaveAsk cls page slice x.job (s.leaveTicksOf job x.stage))

/-- LEAVE_RELEASE: a job's heavy operation of a class has ended (R45); no slice of the job that needs the class runs. -/
def execLeaveRelease (now job cls : Nat) (s : State) : Host.Outcome State Fault Refusal :=
  let s := s.at now
  .next (
    let busy : Bool := match s.job? job with
      | none => false
      | some j => s.work.slices.any fun (e : Nat × Slice) => decide (e.2.job = job) && decide (e.2.state = .running) && decide (needsLeave j e.2 = cls)
    if busy then s else s.leaveDrop job cls)

/-- LEAVE_TIMEOUT: a slice's wait reaches its tick; the slice completes with LEAVE_TIMEOUT (R46). -/
def execLeaveTimeout (now slice : Nat) (s : State) : Host.Outcome State Fault Refusal :=
  let s := s.at now
  .next (match s.leaveTick slice with
    | none => s
    | some t =>
      if s.chrono < t * 10000 then s
      else ((((s.leaveUnwait slice).count LEAVE.TIMEOUTS 1).failSlice slice 0x30 0).leaveSettle).placeAll)

/-- CAL_WRITE_DUE: a deferred automatic calibration write starts once its spacing has passed (R54). -/
def execCalWriteDue (now : Nat) (s : State) : Host.Outcome State Fault Refusal :=
  let s := s.at now
  .next (if s.power.released then s.calDue else s)

/-- SAVE_NOW: a write of CAL_CTRL.SAVE_NOW (R54). -/
def execSaveNow (now : Nat) (req : Requester) (value : Word) (s : State) : Host.Outcome State Fault Refusal :=
  .next ((s.at now).regWrite req 0x004 0x108 (putBits value 0 0 1) calCtrlHook)

/-- CAL_WRITE_END: a slot write ends; `ok` tells whether the flash took it (R54). -/
def execCalWriteEnd (now : Nat) (ok : Bool) (s : State) : Host.Outcome State Fault Refusal :=
  .next ((s.at now).calEnd ok)

/-- WARM_REQ: a write of RESET_CTRL.WARM_REQ (R51). -/
def execWarmReq (now : Nat) (req : Requester) (s : State) : Host.Outcome State Fault Refusal :=
  .next ((s.at now).regWrite req 0x003 0x108 1#64 resetCtrlHook)

/-- HERD_REQ: a write of RESET_CTRL.HERD_REQ: on the lead a herd reset starts, elsewhere it is refused (R51, R427). -/
def execHerdReq (now : Nat) (req : Requester) (s : State) : Host.Outcome State Fault Refusal :=
  .next ((s.at now).regWrite req 0x003 0x108 2#64 resetCtrlHook)

/-- HERD_RESET: a copy of the broadcast is delivered here; the first of a serial applies (R427). The link has forwarded it. -/
def execHerdReset (now : Nat) (p : Packet) (s : State) : Host.Outcome State Fault Refusal :=
  let s := s.at now
  .next (
    let serial := leAt p.body 4 4
    if !s.power.released || s.fabric.lastSerial == some serial || s.isLead then s else s.herdApply serial)

/-- FUNCTION_LEVEL_RESET: a PCIe function-level reset of a function (R51). -/
def execFunctionLevelReset (now fn : Nat) (s : State) : Host.Outcome State Fault Refusal :=
  let s := s.at now
  if 32 ≤ fn then .fault .noSuchUnit else .next (if s.power.released && s.fnEnabled fn then s.flr fn else s)

/-- Slices that are queued at an instance which takes no slice join another one (R73, R74). -/
def State.unqueue (s : State) (page : Nat) : State :=
  if s.accepts page then s.placeAll
  else
    (s.modWork fun w => { w with slices := w.slices.filter fun e => !(e.2.page == page && e.2.state == .queued && !e.2.ran) }).placeAll

/-- A write of PG_CTRL: ENABLE, QUIESCE and OUT_OF_SERVICE steer placement, BLOCK_RESET starts a block reset; on the pages below 5 none has
an effect (R73). A link's service follows OUT_OF_SERVICE (R432). -/
def pgCtrlHook : Hook := fun req page old seen s =>
  if isFixedPage page then s
  else
    let oos := bitAt seen.toNat 3
    let s1 := if oos != bitAt old.toNat 3 && firstPage page == 0x0D0 then s.linkService (page - 0x0D0) oos else s
    let s2 := s1.unqueue page
    if bitAt seen.toNat 1 then s2.blockReset (ownerOf req page) page else s2

/-- BLOCK_RESET: a write of PG_CTRL.BLOCK_RESET on a page, its other fields at their present values (R51, R73). -/
def execBlockReset (now : Nat) (req : Requester) (page : Nat) (s : State) : Host.Outcome State Fault Refusal :=
  let s := s.at now
  .next (s.regWrite req page 0x010 (putBits (s.word (ownerOf req page) page 0x010) 1 1 1) pgCtrlHook)

/-- A write of LEAVE_CFG: the pool follows the budget (R43, R46, R47). -/
def leaveCfgHook : Hook := fun _ _ _ _ s => s.floorChanged

/-- SUSTAINED_BUDGET_WRITE: a write of SUSTAINED_BUDGET (R43). -/
def execSustainedBudgetWrite (now : Nat) (req : Requester) (watts : Nat) (s : State) : Host.Outcome State Fault Refusal :=
  let s := s.at now
  .next (s.regWrite req 0x002 0x100 (putBits (s.word 0 0x002 0x100) 9 0 watts) leaveCfgHook)

end Sys2Proof.Machine
end

