-- ==== Sys2Proof/Machine/PageCmds.lean ====
section
/-! DEFINITION. The common page header: locks, page control, injection, capture, interrupts (chapter 04; rows UNMAPPED_ACCESS to
MOD_TIME_EXPIRE). Writes of registers without a row of their own, and the end of a block reset, stand in the file of the hook table. -/

namespace Sys2Proof.Machine

open Sys2Proof.Reg

/-- UNMAPPED_ACCESS: an access to a page that the requester's view does not present: a read returns zero, a write is ignored, UNMAPPED
sets (R60). -/
def execUnmappedAccess (now : Nat) (req : Requester) (page off : Nat) (read : Bool) (s : State) : Host.Outcome State Fault Refusal :=
  let s := s.at now
  .next (if presents req page then s
  else
    let s1 := s.unmapped req page off
    if read then s1.emit (.readReg req page off 0#64) else s1)

/-- A write of PG_LOCK: LOCK sets (R66). -/
def pgLockHook : Hook := fun req page _ seen s => if bitAt seen.toNat 0 then s.setFldFn (ownerOf req page) (HDR.LOCK.on page) 1 else s

/-- PG_LOCK: a write of PG_LOCK.LOCK (R66). -/
def execPgLock (now : Nat) (req : Requester) (page : Nat) (s : State) : Host.Outcome State Fault Refusal :=
  .next ((s.at now).regWrite req page 0x040 1#64 pgLockHook)

/-- The word of PG_CTRL with one bit changed and no block reset. -/
def State.pgCtrlWord (s : State) (req : Requester) (page bit : Nat) (on : Bool) : Word :=
  putBits (putBits (s.word (ownerOf req page) page 0x010) bit bit (ofBool on)) 1 1 0

/-- PG_CTRL_ENABLE: a write of PG_CTRL.ENABLE (R73). -/
def execPgCtrlEnable (now : Nat) (req : Requester) (page : Nat) (on : Bool) (s : State) : Host.Outcome State Fault Refusal :=
  let s := s.at now
  .next (s.regWrite req page 0x010 (s.pgCtrlWord req page 0 on) pgCtrlHook)

/-- PG_CTRL_QUIESCE: a write of PG_CTRL.QUIESCE (R73). -/
def execPgCtrlQuiesce (now : Nat) (req : Requester) (page : Nat) (on : Bool) (s : State) : Host.Outcome State Fault Refusal :=
  let s := s.at now
  .next (s.regWrite req page 0x010 (s.pgCtrlWord req page 2 on) pgCtrlHook)

/-- PG_CTRL_OUT_OF_SERVICE: a write of PG_CTRL.OUT_OF_SERVICE (R73). -/
def execPgCtrlOutOfService (now : Nat) (req : Requester) (page : Nat) (on : Bool) (s : State) : Host.Outcome State Fault Refusal :=
  let s := s.at now
  .next (s.regWrite req page 0x010 (s.pgCtrlWord req page 3 on) pgCtrlHook)

/-- PG_SYNC: a read of PG_SYNC; it waits while a block reset holds a write of the requester (R71, R72). -/
def execPgSync (now : Nat) (req : Requester) (page : Nat) (s : State) : Host.Outcome State Fault Refusal :=
  let s := s.at now
  let fn := ownerOf req page
  let r := s.page fn page
  .next (if presents req page && s.answers page && r.held.any (fun h => h.by_ == req) then
    s.setPage fn page { r with syncWait := r.syncWait ++ [req] }
  else s.readReg req page 0x048)

/-- The ERR_STICKY bits that a page implements above the common five: its first BLOCK_ERR bit is 16; on some blocks they stand on the first
page alone. -/
def blockErrs (page : Nat) : Nat :=
  match firstPage page with
  | 0x000 => 1
  | 0x001 => 4
  | 0x008 => 6
  | 0x009 => 2
  | 0x00A => 4
  | 0x010 => 3
  | 0x050 => 2
  | 0x051 => 3
  | 0x058 => 6
  | 0x060 => 3
  | 0x061 => 3
  | 0x062 => 3
  | 0x063 => 5
  | 0x070 => 5
  | 0x080 => 4
  | 0x088 => 1
  | 0x0A0 => 6
  | 0x0A8 => 2
  | 0x0AC => 3
  | 0x0C0 => if page = 0x0C0 then 2 else 0
  | 0x0D0 => 5
  | 0x0D8 => 2
  | 0x0D9 => 3
  | 0x0DA => 4
  | 0x0E0 => 6
  | 0x0F0 => 3
  | _ => 0

/-- Whether a page implements an ERR_STICKY bit (R70). -/
def implementsErr (page n : Nat) : Bool := decide (n < 5) || (decide (16 ≤ n) && decide (n < 16 + blockErrs page))

/-- A write of ERR_INJECT: FIRE schedules one occurrence of the error that INJ_INDEX names (R70). -/
def errInjectHook : Hook := fun req page _ seen s =>
  let n := bitsOf seen 5 0
  if bitAt seen.toNat 8 && implementsErr page n then
    let fn := ownerOf req page
    s.setPage fn page { s.page fn page with inject := some n }
  else s

/-- ERR_INJECT_FIRE: a write of ERR_INJECT with FIRE and an index (R70). -/
def execErrInjectFire (now : Nat) (req : Requester) (page index : Nat) (s : State) : Host.Outcome State Fault Refusal :=
  .next ((s.at now).regWrite req page 0x038 (BitVec.ofNat 64 (index % 64 + 0x100)) errInjectHook)

/-- INJECTION_DELIVERED: the page's pending injection is delivered: its bit sets with SOURCE 0xFF, and INJECTED (R70). DESIGN CHOICE (log 25): no
chapter says what else an injected BLOCK_ERR bit does. -/
def execInjectionDelivered (now fn page : Nat) (s : State) : Host.Outcome State Fault Refusal :=
  let s := s.at now
  let r := s.page fn page
  .next (match r.inject with
    | none => s
    | some n => ((s.setPage fn page { r with inject := none }).raise fn page n 0xFF 0 page).setSticky fn page 2)

/-- A write of ERR_FIRST: VALID clears the capture (R69). -/
def errFirstHook : Hook := fun req page _ seen s =>
  let fn := ownerOf req page
  if bitAt seen.toNat 8 then ((s.setWord fn page 0x030 0#64).setWord fn page 0x0F0 0#64).setWord fn page 0x0F8 0#64 else s

/-- ERR_FIRST_CLEAR: writing 1 to ERR_FIRST.VALID (R69). -/
def execErrFirstClear (now : Nat) (req : Requester) (page : Nat) (s : State) : Host.Outcome State Fault Refusal :=
  .next ((s.at now).regWrite req page 0x030 0x100#64 errFirstHook)

/-- Slices on a page end with BLOCK_FAULT as its unit leaves service (R502). -/
def State.blockFault (s : State) (fn page cause flags : Nat) : State :=
  let s1 := s.unitFault fn page cause flags 0xD8
  let s2 := if fn = 0 then ((s1.pageSlices page).filter fun e => e.2.state != .queued).foldl (fun s e => s.failSlice e.1 0xD8 0) s1 else s1
  s2.unqueue page

/-- Pages on which an uncorrected register error is a node fault (R503). -/
def fatalPages : List Nat := [0x000, 0x001, 0x002, 0x003, 0x004, 0x008, 0x050, 0x0F0]

/-- REG_PARITY: a parity error in a page's register storage, corrected from the copy or not (R70, R503). -/
def execRegParity (now fn page : Nat) (fixed : Bool) (s : State) : Host.Outcome State Fault Refusal :=
  let s := s.at now
  .next (if !s.answers page then s
  else
    let s1 := s.raise fn page 3 0xFF 0 page
    if fixed then s1.corrected
    else if fatalPages.contains page then s1.nodeFatal 0x10 0
    else s1.blockFault fn page 0x10 0)

/-- A write of IRQ_ROUTE: pending messages go out where the route now can deliver (R75). -/
def irqRouteHook : Hook := fun req page _ _ s => s.irqSettle (ownerOf req page) page

/-- IRQ_ROUTE: a write of IRQ_ROUTE (R75). -/
def execIrqRoute (now : Nat) (req : Requester) (page : Nat) (value : Word) (s : State) : Host.Outcome State Fault Refusal :=
  .next ((s.at now).regWrite req page 0x058 value irqRouteHook)

/-- MOD_TIME_EXPIRE: MOD_TIME has passed since the oldest pending event (R75). -/
def execModTimeExpire (now fn page : Nat) (s : State) : Host.Outcome State Fault Refusal :=
  let s := s.at now
  .next (if s.answers page then s.irqSettle fn page else s)

/-- The effect of the header registers of every page. -/
def headHook (off : Nat) : Hook :=
  match off with
  | 0x010 => pgCtrlHook
  | 0x030 => errFirstHook
  | 0x038 => errInjectHook
  | 0x040 => pgLockHook
  | 0x058 => irqRouteHook
  | _ => noHook

end Sys2Proof.Machine
end

