-- ==== Sys2Proof/Machine/TierCmds.lean ====
section
/-! DEFINITION. Memory, regions and the Cellar (chapter 05; rows VAT_CFG to DRIVE_LOST and CELLAR_LINK_UP), with the two rows that start
work on an instance: SLICE_START and EXTENT_GRANT. -/

namespace Sys2Proof.Machine

open Sys2Proof.Reg

/-- VAT_CFG: a write of VAT_CFG (R87). -/
def execVatCfg (now : Nat) (req : Requester) (value : Word) (s : State) : Host.Outcome State Fault Refusal :=
  .next ((s.at now).regWrite req 0x060 0x100 value vatCfgHook)

/-- EXTENT_GRANT: slices that wait for SLICE extents take them in the order in which their waits began (R86). -/
def execExtentGrant (now : Nat) (s : State) : Host.Outcome State Fault Refusal :=
  let s := s.at now
  .next (if s.power.released then s.extentGrant else s)

/-- SLICE_START: a queued slice starts on its instance with its working set (R86, R169). `units` and `reach` are the amounts of work and
of input that the device's split gives the slice, `wants` the extents of its working set, `flaws` the uncorrected lines that it meets. -/
def execSliceStart (now id units reach wants : Nat) (flaws : List (Nat × Bool)) (s : State) : Host.Outcome State Fault Refusal :=
  let s := s.at now
  .next (if s.power.released then s.sliceStart id units reach wants flaws else s)

/-- UNIT_FAIL: a stack of Cream or a channel of Skim fails (R88). -/
def execUnitFail (now : Nat) (cream : Bool) (unit : Nat) (s : State) : Host.Outcome State Fault Refusal :=
  if (if cream then 4 else 16) ≤ unit then .fault .noSuchUnit
  else
    let s := s.at now
    .next (if s.power.released then s.tierFail cream unit else s)

/-- SCRUB_PASS: the patrol scrub of a tier completes a pass that met `ces` corrected errors and an uncorrected error in each of the
lines `ues` (R89, R90). -/
def execScrubPass (now : Nat) (cream : Bool) (ces : Nat) (ues : List Nat) (s : State) : Host.Outcome State Fault Refusal :=
  let s := s.at now
  let page := if cream then 0x061 else 0x062
  .next (if !s.power.released || !s.tiersReady || !s.answers page then s
  else
    let s1 := (List.range ces).foldl (fun (s : State) _ => s.tierCe cream) s
    let mine (l : Nat) : Bool := l % 64 = 0 && spaceOf l == (if cream then .cream else .skim)
    let s2 := (ues.filter mine).foldl (fun (s : State) l => s.tierUe l) s1
    if cream then s2.count CREAM.SCRUB_PASSES 1 else s2.count SKIM.SCRUB_PASSES 1)

/-- REGION_ALLOC: a write of REGION_CMD with OP ALLOC (R100). `want` is the base that the device's own choice would take. -/
def execRegionAlloc (now : Nat) (req : Requester) (slot want : Nat) (s : State) : Host.Outcome State Fault Refusal :=
  .next ((s.at now).regWrite req 0x060 0x130 (BitVec.ofNat 64 (slot % 1024 + 1 * 65536)) (regionHook want))

/-- REGION_FREE: a write of REGION_CMD with OP FREE (R100, R101). -/
def execRegionFree (now : Nat) (req : Requester) (slot : Nat) (s : State) : Host.Outcome State Fault Refusal :=
  .next ((s.at now).regWrite req 0x060 0x130 (BitVec.ofNat 64 (slot % 1024 + 2 * 65536)) (regionHook 0))

/-- REGION_READ: a write of REGION_CMD with OP READ (R100). -/
def execRegionRead (now : Nat) (req : Requester) (slot : Nat) (s : State) : Host.Outcome State Fault Refusal :=
  .next ((s.at now).regWrite req 0x060 0x130 (BitVec.ofNat 64 (slot % 1024 + 3 * 65536)) (regionHook 0))

/-- REGION_CMD_DONE: the region command in hand ends (R100, R102). -/
def execRegionCmdDone (now : Nat) (s : State) : Host.Outcome State Fault Refusal :=
  .next (s.at now).regionDone

/-- CELLAR_MODE: a write of CELLAR_CFG.MODE (R93, R104). -/
def execCellarMode (now : Nat) (req : Requester) (mode : Nat) (s : State) : Host.Outcome State Fault Refusal :=
  let s := s.at now
  .next (s.regWrite req 0x063 0x100 (putBits (s.word 0 0x063 0x100) 1 0 mode) cellarModeHook)

/-- DRIVE_BRING_UP: a drive that is present comes up with its queues once its Skim page is available (R94, R95). `ns` are the namespaces
that the drive reports, `xfer` its transfer limit, `width` and `gen` its link. -/
def execDriveBringUp (now d : Nat) (ns : List (Nat × Namespace)) (xfer width gen : Nat) (s : State) : Host.Outcome State Fault Refusal :=
  if 16 ≤ d then .fault .noSuchUnit else .next ((s.at now).driveUp d ns xfer width gen)

/-- RESCAN: a write of CELLAR_CTRL.RESCAN (R93); `found` are the endpoints behind the switch. -/
def execRescan (now : Nat) (req : Requester) (found : List Nat) (s : State) : Host.Outcome State Fault Refusal :=
  let s := s.at now
  .next (s.regWrite req 0x063 0x110 (putBits (s.word 0 0x063 0x110) 32 32 1) (cellarCtrlHook found))

/-- DRIVE_OOS: a write of CELLAR_CTRL.DRIVE_OOS (R98). -/
def execDriveOos (now : Nat) (req : Requester) (mask : Nat) (s : State) : Host.Outcome State Fault Refusal :=
  let s := s.at now
  .next (s.regWrite req 0x063 0x110 (putBits (putBits (s.word 0 0x063 0x110) 32 32 0) 15 0 mask) (cellarCtrlHook []))

/-- CELLAR_CMD_TIMEOUT: a drive command is still outstanding after CMD_TIMEOUT and is aborted (R98). -/
def execCellarCmdTimeout (now d c : Nat) (s : State) : Host.Outcome State Fault Refusal :=
  if 16 ≤ d then .fault .noSuchUnit else .next ((s.at now).driveTimeout d c)

/-- ABORT_TIMEOUT: an Abort times out and the drive's controller is reset (R98). -/
def execAbortTimeout (now d c : Nat) (s : State) : Host.Outcome State Fault Refusal :=
  if 16 ≤ d then .fault .noSuchUnit else .next ((s.at now).driveAbortTimeout d c)

/-- CELLAR_CMD_COMPLETE: a drive command completes with an NVMe status and the bytes it read (R96 to R98). -/
def execCellarCmdComplete (now d c status : Nat) (data : Bytes) (s : State) : Host.Outcome State Fault Refusal :=
  if 16 ≤ d then .fault .noSuchUnit else .next ((s.at now).driveDone d c status data)

/-- DRIVE_LOST: a drive stops being present or its link goes down (R98). -/
def execDriveLost (now d : Nat) (s : State) : Host.Outcome State Fault Refusal :=
  if 16 ≤ d then .fault .noSuchUnit else .next ((s.at now).driveRemoved d)

/-- CELLAR_LINK_UP: the C1 link, or the switch's upstream link, trains up (R93); `found` are the endpoints behind the switch. -/
def execCellarLinkUp (now : Nat) (found : List Nat) (s : State) : Host.Outcome State Fault Refusal :=
  .next ((s.at now).cellarLinkUp found)

end Sys2Proof.Machine
end

