-- ==== Sys2Proof/Machine/RingCmds.lean ====
section
/-! DEFINITION. Rings, descriptors and slices (chapter 08; rows SQ_DOORBELL to SQ_RETRY). -/

namespace Sys2Proof.Machine

open Sys2Proof.Reg

/-! Enabling and disabling rings (R147, R171). -/

/-- The ring of a RING page. -/
def ringOf (page : Nat) : Nat := page - 0x010

/-- A range of the ring storage area meets no enabled ring of the function. -/
def State.storageFree (s : State) (fn a len : Nat) : Bool :=
  let apart (b l : Nat) : Bool := decide (a + len ≤ b) || decide (b + l ≤ a)
  (List.range 64).all fun r =>
    (!(s.sq fn r).enabled || s.ringFld fn r RING.SQ_BASE_LOC == 0 || apart (s.ringFld fn r RING.SQ_BASE_ADDR) (64 * s.sqDepth fn r)) &&
    (!(s.cq fn r).enabled || s.ringFld fn r RING.CQ_BASE_LOC == 0 || apart (s.ringFld fn r RING.CQ_BASE_ADDR) (32 * s.cqDepth fn r))

/-- A base is valid (R147), and where it names ring storage Skim has the pages (log 26). -/
def State.baseValid (s : State) (fn loc addr len : Nat) : Bool :=
  addr % 4096 == 0 &&
    (if loc = 0 then decide (addr + len ≤ 2 ^ 46)
     else decide (0x100000 ≤ addr) && decide (addr + len ≤ 0x10000000) && s.storageFree fn addr len && decide (pagesMib len ≤ s.skimFree))

/-- The checks that enable a submission ring. -/
def State.sqOk (s : State) (fn ring : Nat) : Bool :=
  let f (x : Field) : Nat := s.ringFld fn ring x
  decide (4 ≤ f RING.LOG_DEPTH) && decide (f RING.LOG_DEPTH ≤ 16) &&
    s.baseValid fn (f RING.SQ_BASE_LOC) (f RING.SQ_BASE_ADDR) (64 * s.sqDepth fn ring) &&
    decide (1 ≤ f RING.WINDOW) && decide (f RING.WINDOW ≤ 4096) && decide (f RING.PRIO ≤ 63) &&
    decide (16 ≤ f RING.SLICE_US) && decide (f RING.SLICE_US ≤ 256) && (s.cq fn (f RING.CQ_SEL)).enabled

def State.cqOk (s : State) (fn ring : Nat) : Bool :=
  let f (x : Field) : Nat := s.ringFld fn ring x
  decide (4 ≤ f RING.CQ_LOG_DEPTH) && decide (f RING.CQ_LOG_DEPTH ≤ 16) &&
    s.baseValid fn (f RING.CQ_BASE_LOC) (f RING.CQ_BASE_ADDR) (32 * s.cqDepth fn ring)

/-- A submission ring enabled: HEAD, TAIL and SEQ at 0. What was fetched before goes on. -/
def State.sqStart (s : State) (fn ring : Nat) : State :=
  let mib := if s.ringFld fn ring RING.SQ_BASE_LOC = 1 then pagesMib (64 * s.sqDepth fn ring) else 0
  (s.setSq fn ring { enabled := true, inflight := (s.sq fn ring).inflight, mib := mib }).setFldFn fn (RING.SQ_ENABLE.on (ringPage ring)) 1

/-- Fetching stops; what was not fetched is abandoned (R171). -/
def State.sqStop (s : State) (fn ring : Nat) : State :=
  (s.setSq fn ring { s.sq fn ring with enabled := false, faulted := false, mib := 0 }).setFldFn fn (RING.SQ_ENABLE.on (ringPage ring)) 0

def State.cqStart (s : State) (fn ring : Nat) : State :=
  let mib := if s.ringFld fn ring RING.CQ_BASE_LOC = 1 then pagesMib (32 * s.cqDepth fn ring) else 0
  ((s.setCq fn ring { enabled := true, mib := mib }).setFldFn fn (RING.CQ_ENABLE.on (ringPage ring)) 1).cqNotice fn ring

def State.cqStop (s : State) (fn ring : Nat) : State :=
  ((s.setCq fn ring {}).setFldFn fn (RING.CQ_ENABLE.on (ringPage ring)) 0).cqNotice fn ring

/-- A submission ring that is enabled or active names a completion ring. -/
def State.cqNamed (s : State) (fn ring : Nat) : Bool :=
  s.work.sqs.any (fun (e : Nat × Sq) => decide (e.1 / 64 = fn) && (e.2.enabled || decide (0 < e.2.inflight)) &&
    s.ringFld fn (e.1 % 64) RING.CQ_SEL == ring) ||
  s.work.descs.any (fun (e : Nat × Desc) => e.2.fn == fn && e.2.cq == ring && !e.2.old)

/-- SQ_CTRL's write (R171, R172). -/
def sqCtrlHook : Hook := fun req page _ seen s =>
  let fn := ownerOf req page
  let ring := ringOf page
  let q := s.sq fn ring
  let on := bitAt seen.toNat 0
  let s1 :=
    if on && !q.enabled then (if s.sqOk fn ring then s.sqStart fn ring else s.raiseBy req page 18 0x110)
    else if !on && q.enabled then s.sqStop fn ring
    else s
  let s2 := if bitAt seen.toNat 1 then s1.setSq fn ring { s1.sq fn ring with faulted := false } else s1
  s2.ringSettle

/-- CQ_CTRL's write (R171). -/
def cqCtrlHook : Hook := fun req page _ seen s =>
  let fn := ownerOf req page
  let ring := ringOf page
  let on := bitAt seen.toNat 0
  if on && !(s.cq fn ring).enabled then (if s.cqOk fn ring then s.cqStart fn ring else s.raiseBy req page 18 0x130)
  else if !on && (s.cq fn ring).enabled then (if s.cqNamed fn ring then s.raiseBy req page 18 0x130 else s.cqStop fn ring)
  else s

/-- A configuration register of a ring: ignored while its ring is enabled (R171). -/
def ringConfigHook (off : Nat) : Hook := fun req page old _ s =>
  let fn := ownerOf req page
  let ring := ringOf page
  if if off < 0x120 then (s.sq fn ring).enabled else (s.cq fn ring).enabled then (s.setWord fn page off old).raiseBy req page 18 off else s

/-- MARK and HYST of a completion ring (R173). -/
def cqWmHook : Hook := fun req page _ _ s => s.cqNotice (ownerOf req page) (ringOf page)

/-- The effect of each register of a RING page. -/
def ringHook (off : Nat) : Hook :=
  if off = 0x110 then sqCtrlHook
  else if off = 0x130 then cqCtrlHook
  else if off = 0x140 then cqWmHook
  else if off = 0x100 ∨ off = 0x108 ∨ off = 0x120 ∨ off = 0x128 then ringConfigHook off
  else noHook

/-! Doorbells (R110, R111, R148, R149). -/

/-- A doorbell write narrower than 64 bits. -/
def State.narrowDoorbell (s : State) (fn off : Nat) : State :=
  (s.count HOSTIF.NARROW_DOORBELL_COUNT 1).raise 0 0x008 19 fn (off % 0x1000) 0x008

/-- A submission doorbell (R148). -/
def State.sqDoorbell (s : State) (fn ring v : Nat) : State :=
  let q := s.sq fn ring
  let d := s.sqDepth fn ring
  if q.enabled && decide (v < d) && decide ((v + d - q.tail) % d ≤ (q.head + 2 * d - 1 - q.tail) % d) then s.setSq fn ring { q with tail := v }
  else s.raise fn (ringPage ring) 17 fn 0 (ringPage ring)

/-- A completion head doorbell (R149): freed places may let held completions be written. -/
def State.cqDoorbell (s : State) (fn ring v : Nat) : State :=
  let q := s.cq fn ring
  let d := s.cqDepth fn ring
  if q.enabled && decide (v < d) && decide ((v + d - q.head) % d ≤ (q.tail + d - q.head) % d) then
    let full := decide ((q.tail + 1) % d = v)
    ((s.setCq fn ring { q with head := v, full := full }).cqNotice fn ring).ringSettle
  else s.raise fn (ringPage ring) 17 fn 0 (ringPage ring)

/-- A function's BAR2 answers. -/
def State.bar2 (s : State) (fn ring : Nat) : Bool := s.power.released && s.fnEnabled fn && s.answers (ringPage ring)

/-- SQ_DOORBELL: a submission doorbell (R125, R148). `stores` are the requester's earlier writes to the function's ring storage area,
which have landed when the doorbell acts (log 26). -/
def execSqDoorbell (now fn ring value : Nat) (narrow : Bool) (stores : List (Nat × Bytes)) (s : State) : Host.Outcome State Fault Refusal :=
  if 32 ≤ fn ∨ 64 ≤ ring then .fault .noSuchUnit
  else
    let s := s.at now
    .next (if !s.bar2 fn ring then s
    else
      let inside (e : Nat × Bytes) : Bool := decide (0x100000 ≤ e.1) && decide (e.1 + e.2.length ≤ 0x10000000)
      let s1 := (stores.filter inside).foldl (fun (s : State) e => s.storeRing fn e.1 e.2) s
      if narrow then s1.narrowDoorbell fn (0x40 * ring) else s1.sqDoorbell fn ring value)

/-- CQ_HEAD_DOORBELL: a completion head doorbell (R149). -/
def execCqHeadDoorbell (now fn ring value : Nat) (narrow : Bool) (s : State) : Host.Outcome State Fault Refusal :=
  if 32 ≤ fn ∨ 64 ≤ ring then .fault .noSuchUnit
  else
    let s := s.at now
    .next (if !s.bar2 fn ring then s else if narrow then s.narrowDoorbell fn (0x1000 + 0x40 * ring) else s.cqDoorbell fn ring value)

/-! Fetching (R150, R172). -/

/-- DESC_FETCH: the read of a ring's next descriptor is issued (R150). -/
def execDescFetch (now fn ring : Nat) (s : State) : Host.Outcome State Fault Refusal :=
  if 32 ≤ fn ∨ 64 ≤ ring then .fault .noSuchUnit
  else
    let s := s.at now
    .next (if s.power.released then s.fetchDesc fn ring else s)

/-- What a failed descriptor read records beside the ring's own fault: poison or a timeout of a host read, an uncorrected error of ring
storage (R89, R121, R172). The address of the storage's own page is open. -/
def State.fetchFlaw (s : State) (fn ring status : Nat) : State :=
  if s.ringFld fn ring RING.SQ_BASE_LOC = 1 then
    let r := s.openNat
    (((r.2.count SKIM.UE_COUNT 1).raiseOwn 0x062 17).setFld SKIM.UE_ADDR (r.1 % 2 ^ 48)).setFld SKIM.UE_VALID 1
  else if status = 2 then (s.count HOSTIF.POISON_COUNT 1).raiseOwn 0x008 17
  else if status = 3 then s.raiseOwn 0x008 21
  else s

/-- DESC_FETCH_DONE: a descriptor read completes with its 64 bytes, or fails: status 1 refused by the host, 2 poisoned, 3 timed out (R150,
R172). A descriptor in ring storage is what the storage holds. -/
def execDescFetchDone (now fn ring : Nat) (bytes : Bytes) (status : Nat) (s : State) : Host.Outcome State Fault Refusal :=
  if 32 ≤ fn ∨ 64 ≤ ring then .fault .noSuchUnit
  else
    let s := s.at now
    .next (if !(s.sq fn ring).reading then s
      else if status = 0 then s.fetchDone fn ring bytes true
      else (s.fetchFlaw fn ring status).fetchDone fn ring bytes false)

/-! Descriptors start (R154 to R160). -/

/-- RUN: the plan is validated as far as its bytes are here, and the job starts (R155, R243). -/
def execRun (now id : Nat) (s : State) : Host.Outcome State Fault Refusal :=
  .next ((s.at now).startDesc id 1 fun s _ => s.runValidate id)

/-- FENCE: it holds what follows until what it covers has completed (R156). -/
def execFence (now id : Nat) (s : State) : Host.Outcome State Fault Refusal :=
  .next ((s.at now).startDesc id 2 fun s _ => s.ringSettle)

/-- WAIT_TIDE: it holds what follows until the tide reaches TIDE (R157). -/
def execWaitTide (now id : Nat) (s : State) : Host.Outcome State Fault Refusal :=
  .next ((s.at now).startDesc id 3 fun s d => if leAt d.raw 8 8 ≤ s.tide.now then s.endDesc id 0 0xFFFF 0 false else s)

/-- WAIT_TIDE_TIMEOUT: the first tick at or after its start plus TIMEOUT ticks (R157). -/
def execWaitTideTimeout (now id : Nat) (s : State) : Host.Outcome State Fault Refusal :=
  let s := s.at now
  .next (match s.desc? id with
    | none => s
    | some d =>
      let t := leAt d.raw 16 4
      if decide (d.state = .started) && dType d.raw == 3 && t != 0 && decide ((tickAfter d.startedAt + t) * 10000 ≤ s.chrono) then
        s.endDesc id 3 0xFFFF 0 false
      else s)

/-- SIGNAL: it acts once every descriptor fetched earlier from its ring has ended (R158). -/
def execSignal (now id : Nat) (s : State) : Host.Outcome State Fault Refusal :=
  .next ((s.at now).startDesc id 4 fun s _ => s.ringSettle)

/-- MIRROR_CUT: a cut is asked of the first beat at or above MIN_TIDE; a node without a pair answers TWIN_NONE (R159, R453). -/
def execMirrorCut (now id : Nat) (s : State) : Host.Outcome State Fault Refusal :=
  .next ((s.at now).startDesc id 5 fun s d =>
    if s.twin.paired && !s.twin.degraded then s.modTwin fun t => { t with waits := t.waits ++ [⟨id, leAt d.raw 8 8, none⟩] }
    else s.endDesc id 0xC0 0xFFFF 0 false)

/-- The records of a pair that fit a destination, in order, and the bytes they take (R142). -/
def drainFit : Nat → List ParkRec → List ParkRec
  | _, [] => []
  | left, r :: rs => if recBytes r ≤ left then r :: drainFit (left - recBytes r) rs else []

/-- The bytes of a drain: whole records, then an END header where 32 bytes remain. The END header's PARK_SEQ and JOB_TAG are open: the spec
gives END no record sequence and no job (log 26). -/
def State.drainBytes (s : State) (pair len : Nat) (rs : List ParkRec) : Bytes × State :=
  let data := rs.flatMap parkBytes
  if data.length + 32 ≤ len then
    let r := s.openBytes 10
    (data ++ zeros 2 ++ leBytes 1 (pair / 64) ++ leBytes 1 (pair % 64) ++ zeros 12 ++ fitTo r.1 10 ++ zeros 6, r.2)
  else (data, s)

/-- A drain of an old pair into host memory (R142, R160). While the host is away nothing is written, and the records stay. -/
def State.parkDrain (s : State) (id : Nat) (d : Desc) : State :=
  let pair := ringKey (byteAt d.raw 8) (byteAt d.raw 9)
  let dest := leAt d.raw 16 8
  let len := leAt d.raw 24 8
  if dHerd d.raw || decide (spaceOf dest ≠ .host) || (decide (len ≠ 0) && !sameSpace dest len) then s.endDesc id 0x40 0xFFFF 0 false
  else if len < 0x100000 then s.endDesc id 0x53 0xFFFF 0 false
  else
    let all := s.pairRecords pair
    let rs := drainFit len all
    let r := s.drainBytes pair len rs
    let s1 := if s.hostAway d.fn then r.2 else r.2.writeOut d.fn dest r.1
    let upTo : Nat := match rs.getLast? with
      | some x => x.seq + 1
      | none => 0
    let s2 := s1.modSession fun x => { x with drains := Table.put x.drains id ⟨pair, upTo⟩ }
    let more := decide (rs.length < all.length) || decide (0 < s.oldJobs pair)
    s2.endDesc id (if more then 0x52 else 0) 0xFFFF r.1.length false

/-- PARK_DRAIN: an old pair's records are written into host memory (R142, R160). A misaligned destination is an operand outside its range. -/
def execParkDrain (now id : Nat) (s : State) : Host.Outcome State Fault Refusal :=
  .next ((s.at now).startDesc id 6 fun s d => if leAt d.raw 16 8 % 64 ≠ 0 then s.endDesc id 1 0xFFFF 0 false else s.parkDrain id d)

/-- NOP: it does nothing and completes with OK (R160). -/
def execNop (now id : Nat) (s : State) : Host.Outcome State Fault Refusal :=
  .next ((s.at now).startDesc id 7 fun s _ => s.endDesc id 0 0xFFFF 0 false)

/-! Jobs and slices (R155, R169, R170). -/

/-- JOB_COMPLETE: a job whose stages have ended commits its outputs, or ends with its failure; its completion falls due (R155). -/
def execJobComplete (now job : Nat) (s : State) : Host.Outcome State Fault Refusal :=
  .next ((s.at now).jobComplete job)

/-- SLICE_END: a slice that has done its work ends; `keep` of its extents pass to the stages that read its output (R86, R170). -/
def execSliceEnd (now id keep : Nat) (s : State) : Host.Outcome State Fault Refusal :=
  .next ((s.at now).sliceEnd id keep)

/-- SLICE_BOUND: a slice ends at its bound, and what is left becomes a new slice (R170). -/
def execSliceBound (now id keep : Nat) (s : State) : Host.Outcome State Fault Refusal :=
  .next ((s.at now).sliceBound id keep)

/-! Ring control (R171, R172). -/

/-- SQ_ENABLE: a write of SQ_CTRL.ENABLE (R171). -/
def execSqEnable (now : Nat) (req : Requester) (ring : Nat) (on : Bool) (s : State) : Host.Outcome State Fault Refusal :=
  if 64 ≤ ring then .fault .noSuchUnit else .next ((s.at now).regWrite req (ringPage ring) 0x110 (BitVec.ofNat 64 (ofBool on)) sqCtrlHook)

/-- CQ_ENABLE: a write of CQ_CTRL.ENABLE (R171). -/
def execCqEnable (now : Nat) (req : Requester) (ring : Nat) (on : Bool) (s : State) : Host.Outcome State Fault Refusal :=
  if 64 ≤ ring then .fault .noSuchUnit else .next ((s.at now).regWrite req (ringPage ring) 0x130 (BitVec.ofNat 64 (ofBool on)) cqCtrlHook)

/-- SQ_RETRY: a write of SQ_CTRL.RETRY (R172). -/
def execSqRetry (now : Nat) (req : Requester) (ring : Nat) (s : State) : Host.Outcome State Fault Refusal :=
  if 64 ≤ ring then .fault .noSuchUnit
  else
    let s := s.at now
    .next (s.regWrite req (ringPage ring) 0x110 (putBits (s.word (ownerOf req (ringPage ring)) (ringPage ring) 0x110) 1 1 1) sqCtrlHook)

end Sys2Proof.Machine
end

