-- ==== Sys2Proof/Machine/RennetCmds.lean ====
section
/-! DEFINITION. Rennet calls of custom stages, copies, counters, flows and cores (chapter 09; rows RN_WAIT to L2_UE). -/

namespace Sys2Proof.Machine

open Sys2Proof.Reg

/-- SLICE_US of a thread's job, in µs. -/
def State.sliceUsOf (s : State) (t : Nat) : Nat := ((s.slice? t).bind fun x => s.job? x.job).elim 64 (·.sliceUs)

/-- Core time in ns that a thread has had since its last dispatch from the tail of its level, up to now (R181). -/
def State.turnTime (s : State) (th : Thread) : Nat := th.sinceTail + if th.core.isSome then s.chrono - th.dispatchedAt else 0

/-- A running thread makes a call, or returns: a copy that failed before ends its slice with the copy's status (R197). -/
def State.rnCall (s : State) (t : Nat) (f : State → Thread → State) : State :=
  match s.thread? t with
  | none => s
  | some th =>
    if th.state ≠ .running then s
    else if th.copyFail ≠ 0 then (s.failSlice t th.copyFail 0).placeAll
    else f s th

/-- A call's return value in a0. -/
def State.rnRet (s : State) (t : Nat) (th : Thread) (v : Word) : State := s.setThread t { th with a0 := v }

/-- A call's return value that the spec does not state. -/
def State.rnOpen (s : State) (t : Nat) : State :=
  let r := s.openNat
  match r.2.thread? t with
  | none => r.2
  | some th => r.2.setThread t { th with a0 := BitVec.ofNat 64 r.1 }

/-- Counters that a thread may use: those it allocated, and host counters that its plan names (R197). -/
def mayUse (th : Thread) (ctr : Nat) (named : Bool) : Bool := th.owned.contains ctr || (named && decide (ctr < 1024))

/-- All ones, as a0 returns it. -/
def allOnes64 : Word := BitVec.allOnes 64

/-- RN_WAIT: rn_wait (R185, R196). `named` tells whether the plan names the counter. -/
def execRnWait (now t ctr ticks : Nat) (named : Bool) (s : State) : Host.Outcome State Fault Refusal :=
  .next ((s.at now).rnCall t fun s th =>
    let give (r : WaitResult) : State := s.setThread t { th with result := some r, a0 := waitCode r }
    if !mayUse th ctr named then give .invalid
    else
      match Table.find? s.rennet.counters ctr with
      | none => give .invalid
      | some .zero => give .byCount
      | some (.armed _) => if ticks = 0 then give .byTimeout else s.waitThread t th ctr (ticks % 2 ^ 32))

/-- The first entry of the delay list is a thread's, and its tick has begun (R186). -/
def State.wakeDue (s : State) (t : Nat) : Bool :=
  s.rennet.delays.head?.any fun (d : Delay) => d.thread == t && decide (d.tick * 10000 ≤ s.chrono)

/-- RN_WAIT_TIMEOUT: a wait reaches its tick and returns BY_TIMEOUT (R185). -/
def execRnWaitTimeout (now t : Nat) (s : State) : Host.Outcome State Fault Refusal :=
  let s := s.at now
  .next (match s.thread? t with
    | none => s
    | some th => if th.state = .waiting ∧ s.wakeDue t then (s.wakeThread t .byTimeout).rennetSettle else s)

/-- RN_DELAY: rn_delay (R186, R196). -/
def execRnDelay (now t ticks : Nat) (s : State) : Host.Outcome State Fault Refusal :=
  .next ((s.at now).rnCall t fun s th =>
    let off := { th.offCore s.chrono with a0 := 0#64 }
    if ticks = 0 then (s.readyTail t off).rennetSettle
    else ((s.setThread t { off with state := .delayed }).addDelay (tickAfter s.chrono + ticks) t).rennetSettle)

/-- DELAY_WAKE: a delayed thread's tick has begun (R186). -/
def execDelayWake (now t : Nat) (s : State) : Host.Outcome State Fault Refusal :=
  let s := s.at now
  .next (match s.thread? t with
    | none => s
    | some th =>
      if th.state = .delayed ∧ s.wakeDue t then
        ((s.modRennet fun r => { r with delays := r.delays.drop 1 }).readyTail t th).rennetSettle
      else s)

/-- The counter that rn_ctr_alloc gives: a free choice among those from 1,024 on that are free (R196, log 27); 65,536 where
none is. -/
def State.ctrPick (s : State) : Nat :=
  let c := Table.fresh s.rennet.counters 64512 (1024 + Config.freeNat s.free % 64512)
  if c < 65536 then c else Table.fresh s.rennet.counters 64512 1024

/-- RN_CTR_ALLOC: rn_ctr_alloc (R196). -/
def execRnCtrAlloc (now t count : Nat) (s : State) : Host.Outcome State Fault Refusal :=
  .next ((s.at now).rnCall t fun s th =>
    let n := count % 2 ^ 32
    let c := s.ctrPick
    if n = 0 ∨ 16 ≤ th.owned.length ∨ 65536 ≤ c then s.rnRet t th allOnes64
    else (s.useOpen.setCounter c (.armed n)).setThread t { th with owned := th.owned ++ [c], a0 := BitVec.ofNat 64 c })

/-- RN_CTR_SUB: rn_ctr_sub (R183, R196). -/
def execRnCtrSub (now t ctr amount : Nat) (named : Bool) (s : State) : Host.Outcome State Fault Refusal :=
  .next ((s.at now).rnCall t fun s th =>
    if mayUse th ctr named then ((s.rnRet t th 0#64).ctrDec ctr (amount % 2 ^ 32)).rennetSettle else s.rnRet t th 2#64)

/-- RN_CTR_FREE: rn_ctr_free (R196, R197). Its return value is open. -/
def execRnCtrFree (now t ctr : Nat) (named : Bool) (s : State) : Host.Outcome State Fault Refusal :=
  .next ((s.at now).rnCall t fun s th =>
    if mayUse th ctr named then ((s.setThread t { th with owned := th.owned.filter fun c => c != ctr }).disarm ctr).rnOpen t
    else s.rnOpen t)

/-! Copies (R183, R196, R197). -/

def State.copy? (s : State) (id : Nat) : Option Copy := Table.find? s.rennet.copies id

def State.updCopy (s : State) (id : Nat) (f : Copy → Copy) : State :=
  s.modRennet fun r => { r with copies := Table.upd r.copies id f }

/-- The first failure of a copy. -/
def Copy.failed (c : Copy) (status : Nat) : Copy := if c.status = 0 then { c with status := status } else c

/-- Reads that a copy's source needs: of another node in READs of at most 4,096 bytes, of host memory. -/
def State.copyReads (s : State) (id : Nat) (c : Copy) : State :=
  match s.resolve c.srcHerd c.src with
  | none => s.updCopy id fun c => c.failed 0x40
  | some (none, a) =>
    if spaceOf a = .host then s.emit (.hostRead c.fn (iovaOf a) c.len)
    else if !engineMapped a c.len then s.updCopy id fun c => c.failed 0x40
    else s
  | some (some n, a) =>
    if !s.fabric.members.contains n then s.updCopy id fun c => c.failed 0x40
    else
      (List.range (ceilDiv c.len 4096)).foldl (fun (s : State) i =>
        let r := s.trySend (.copyRead id) { dst := n, src := 0, typ := 1, addr := a + 4096 * i, rlen := min 4096 (c.len - 4096 * i) }
        if r.2 then r.1.updCopy id fun c => { c with asked := c.asked + 1 } else r.1.updCopy id fun c => c.failed 0xB9) s

/-- RN_COPY: rn_copy (R196). `inside` tells whether both spans lie in the stage's ranges and the destination's may be written, the other
two whether an address is in herd form. -/
def execRnCopy (now t dst src len ctr : Nat) (inside srcHerd dstHerd : Bool) (s : State) : Host.Outcome State Fault Refusal :=
  .next ((s.at now).rnCall t fun s th =>
    if !inside then s.rnRet t th 2#64
    else
      let id := s.rennet.nextCopy
      let fn := ((s.slice? t).bind fun x => s.job? x.job).elim 0 (·.fn)
      let c : Copy := { slice := t, fn := fn, src := src, srcHerd := srcHerd, dst := dst, dstHerd := dstHerd, len := len, ctr := ctr }
      ((s.rnRet t th 0#64).modRennet fun r => { r with copies := Table.put r.copies id c, nextCopy := id + 1 }).copyReads id c)

/-- The bytes that a copy's source holds: of device memory, what its READs brought, what the host's completion brought. -/
def State.copyBytes (s : State) (c : Copy) (data : Bytes) : Bytes :=
  match s.resolve c.srcHerd c.src with
  | some (none, a) => if spaceOf a = .host then fitTo data c.len else s.loadBytes a c.len
  | _ => Memory.load c.got 0 c.len

/-- The data of a copy written to its destination, or the status with which that fails. -/
def State.copyWrite (s : State) (id : Nat) (c : Copy) (bs : Bytes) : State :=
  match s.resolve c.dstHerd c.dst with
  | none => s.updCopy id fun c => c.failed 0x40
  | some (none, a) =>
    if spaceOf a ≠ .host ∧ !engineMapped a c.len then s.updCopy id fun c => c.failed 0x40
    else
      match (s.slice? c.slice).bind fun x => (s.job? x.job).map fun j => (x.job, j) with
      | some (j, job) => if spaceOf a = .host then s.jobHostWrite j job a bs else s.storeBytes a bs
      | none => s
  | some (some n, a) =>
    if !s.fabric.members.contains n then s.updCopy id fun c => c.failed 0x40
    else
      let r := s.sendWrites (.copyWrite id) n a bs
      let sent := ceilDiv bs.length (if bs.length ≤ 4096 then 4096 else 16384)
      if r.2 then r.1.updCopy id fun c => { c with asked := sent } else r.1.updCopy id fun c => c.failed 0xB9

/-- A source that holds a poisoned line or a bad word. -/
def State.copyPoisoned (s : State) (c : Copy) : Bool :=
  match s.resolve c.srcHerd c.src with
  | some (none, a) => decide (spaceOf a ≠ .host) && ((s.poisonIn a c.len).isSome || (s.badWordIn a c.len).isSome)
  | _ => false

/-- A copy is over: its counter is decremented whatever its status, its thread learns of a failure (R183, R197). -/
def State.copyOver (s : State) (id : Nat) (c : Copy) : State :=
  let s1 := s.modRennet fun r => { r with copies := Table.drop r.copies id }
  let s2 := match s1.thread? c.slice with
    | some th => if c.status ≠ 0 ∧ th.copyFail = 0 then s1.setThread c.slice { th with copyFail := c.status } else s1
    | none => s1
  (s2.ctrDec c.ctr 1).rennetSettle

/-- COPY_COMPLETE: the copy engine has what it asked for: it writes the data, or, with the data written, the copy completes (R183).
`status` and `data` are what a read of host memory ended with. A copy whose slice has ended completes without a result (R197). -/
def execCopyComplete (now id status : Nat) (data : Bytes) (s : State) : Host.Outcome State Fault Refusal :=
  let s := s.at now
  .next (match s.copy? id with
    | none => s
    | some c =>
      if c.asked ≠ 0 then s
      else if c.moved || c.status ≠ 0 then s.copyOver id c
      else if (s.thread? c.slice).isNone then s.copyOver id c
      else if status ≠ 0 then s.copyOver id (c.failed status)
      else if s.copyPoisoned c then s.copyOver id (c.failed 0x41)
      else
        let s1 := (s.copyWrite id c (s.copyBytes c data)).updCopy id fun c => { c with moved := true }
        match s1.copy? id with
        | some d => if d.asked = 0 then s1.copyOver id d else s1
        | none => s1)

/-! The other calls (R196, R198). -/

/-- RN_BUDGET: rn_budget returns the ns left before quantum expiry (R181, R196). -/
def execRnBudget (now t : Nat) (s : State) : Host.Outcome State Fault Refusal :=
  .next ((s.at now).rnCall t fun s th => s.rnRet t th (BitVec.ofNat 64 ((s.sliceUsOf t + 2) * 1000 - s.turnTime th)))

/-- RN_TIDE: rn_tide returns the tide in tu, 0 before it starts (R196). -/
def execRnTide (now t : Nat) (s : State) : Host.Outcome State Fault Refusal :=
  .next ((s.at now).rnCall t fun s th => s.rnRet t th (BitVec.ofNat 64 s.tide.now))

/-- ECALL_UNKNOWN: an unknown call number returns all ones (R196). -/
def execEcallUnknown (now t : Nat) (s : State) : Host.Outcome State Fault Refusal :=
  .next ((s.at now).rnCall t fun s th => s.rnRet t th allOnes64)

/-- FENCE_I: the thread's instruction copy of its execution scratch is refreshed with what the scratch holds (R198). -/
def execFenceI (now t : Nat) (content : Bytes) (s : State) : Host.Outcome State Fault Refusal :=
  let s := s.at now
  .next (match s.thread? t with
    | none => s
    | some th => if th.state = .running ∧ th.exec then s.setThread t { th with icopy := content.take 16384 } else s)

/-! The end of a stage's code (R181, R192, R195). -/

/-- Memory that a stage's code wrote in its ranges. -/
def State.stageWrites (s : State) (ws : List (Nat × Bytes)) : State :=
  (ws.filter fun w => engineMapped w.1 w.2.length && decide (spaceOf w.1 ≠ .host)).foldl (fun (s : State) w => s.storeBytes w.1 w.2) s

/-- A custom stage's slice is finished: its rows are taken from its input, and the stage ends with it. -/
def State.customDone (s : State) (c : Ctx) : State :=
  match s.job? c.job with
  | none => s
  | some job =>
    let e := job.engOf c.stage
    let rows := match unitInput c.st e with
      | some k => inputLen job (c.in_ k)
      | none => (0, false)
    let s1 := s.setEng c.job c.stage { e with consumed := e.consumed + c.count }
    let s2 := if !rows.2 && decide (rows.1 ≤ e.consumed + c.count) then s1.markStage c.job c.stage else s1
    ((s2.tellSources job c.job c.stage).updSlice c.slice fun y => { y with ran := true }).threadEnd c.slice

/-- STAGE_RETURN: a custom stage's entry returns with `a0`: 0 DONE, 1 MORE, else a failure (R192). `cursor` is CURSOR as the stage left it,
`outs` the rows it appended to its outputs, `writes` what it stored in its ranges. -/
def execStageReturn (now t : Nat) (a0 cursor : Word) (outs : List (Nat × List (List Val))) (writes : List (Nat × Bytes)) (s : State) :
    Host.Outcome State Fault Refusal :=
  .next ((s.at now).rnCall t fun s th =>
    match s.sliceCtx t with
    | none => s
    | some c =>
      if a0 ≠ 0#64 ∧ a0 ≠ 1#64 then (s.failSlice t 0x5A 0).placeAll
      else
        match (s.stageWrites writes).appendOuts c outs with
        | .fail st d => (s.failSlice t st d).placeAll
        | .need .. => s
        | .ok s1 =>
          if a0 = 0#64 then s1.customDone c
          else (s1.readyTail t { th.offCore s.chrono with a0 := a0, cursor := cursor }).rennetSettle)

/-- STAGE_FAULT: a custom stage takes an exception; DETAIL is the faulting address in herd form (R195). -/
def execStageFault (now t addr : Nat) (s : State) : Host.Outcome State Fault Refusal :=
  let s := s.at now
  .next (match s.thread? t with
    | none => s
    | some th =>
      if th.state = .running then ((s.count CTLCORE.STAGE_FAULTS 1).failSlice t 0x58 (s.node.id * 2 ^ 48 + addr % 2 ^ 48)).placeAll else s)

/-- QUANTUM_EXPIRY: a thread has run SLICE_US + 2 µs and goes to the tail of its level (R181). -/
def execQuantumExpiry (now t : Nat) (s : State) : Host.Outcome State Fault Refusal :=
  let s := s.at now
  .next (match s.thread? t with
    | none => s
    | some th =>
      if th.state = .running ∧ (s.sliceUsOf t + 2) * 1000 ≤ s.turnTime th then (s.readyTail t (th.offCore s.chrono)).rennetSettle else s)

/-- STAGE_OVERRUN: a slice's core time reaches STAGE_LIMIT × SLICE_US (R181). -/
def execStageOverrun (now t : Nat) (s : State) : Host.Outcome State Fault Refusal :=
  let s := s.at now
  .next (match s.thread? t with
    | none => s
    | some th =>
      if th.state = .running ∧ s.fld RENNET.STAGE_LIMIT * s.sliceUsOf t * 1000 ≤ (th.offCore s.chrono).used then
        ((s.count CTLCORE.STAGE_OVERRUNS 1).failSlice t 0x59 0).placeAll
      else s)

/-! Host counters and flows (R182 to R191, R200). -/

/-- The end of a RENNET command. -/
def State.rennetResult (s : State) (r : Nat) : State := (s.setFld RENNET.RESULT r).setFld RENNET.DONE 1

/-- CTR_CMD's write. Commands complete in the step that takes them. -/
def ctrCmdHook : Hook := fun req page _ seen s =>
  let op := bitsOf seen 18 16
  let c := bitsOf seen 9 0
  let n := bitsOf seen 63 32
  if op = 0 then s
  else if !s.tiersReady then s.raiseBy req page 17 0x108
  else
    match op, Table.find? s.rennet.counters c with
    | 1, some (.armed _) => s.rennetResult 1
    | 1, _ => if n = 0 then s.rennetResult 4 else (s.setCounter c (.armed n)).rennetResult 0
    | 2, none => s.rennetResult 2
    | 2, some _ => ((s.ctrDec c n).rennetSettle).rennetResult 0
    | 3, none => s.rennetResult 2
    | 3, some _ => (s.disarm c).rennetResult 0
    | _, _ => s.rennetResult 5

/-- FLOW_CMD's write. -/
def flowCmdHook : Hook := fun req page _ seen s =>
  let op := bitsOf seen 26 24
  let fl := bitsOf seen 11 0
  let fn := bitsOf seen 20 16
  let v := bitsOf seen 63 32
  if op = 0 then s
  else if !s.tiersReady then s.raiseBy req page 17 0x110
  else if 3 < op then s.rennetResult 5
  else if 3071 < fl then s.rennetResult 4
  else
    match op, Table.find? s.rennet.flows fl with
    | 1, some _ => s.rennetResult 1
    | 1, none => (s.modRennet fun r => { r with flows := Table.put r.flows fl ⟨fn, v, []⟩ }).rennetResult 0
    | _, none => s.rennetResult 2
    | 2, some f =>
      if f.items.isEmpty then (s.modRennet fun r => { r with flows := Table.drop r.flows fl }).rennetResult 0 else s.rennetResult 3
    | _, some f =>
      let d := (v + 2 ^ 32 - f.next) % 2 ^ 32
      if 2 ^ 31 ≤ d ∨ f.items.any (fun i => decide ((i.seq + 2 ^ 32 - f.next) % 2 ^ 32 < d)) then s.rennetResult 3
      else
        let s1 := s.modRennet fun r => { r with flows := Table.put r.flows fl { f with next := v } }
        ((s1.flowRelease fl (f.items.length + 1)).ringSettle).rennetResult 0

/-- A word of CTR_CMD. -/
def ctrWord (op ctr count : Nat) : Word := BitVec.ofNat 64 (ctr % 1024 + op * 2 ^ 16 + count % 2 ^ 32 * 2 ^ 32)

/-- CTR_ARM: a write of CTR_CMD with OP ARM (R200). -/
def execCtrArm (now : Nat) (req : Requester) (ctr count : Nat) (s : State) : Host.Outcome State Fault Refusal :=
  .next ((s.at now).regWrite req 0x050 0x108 (ctrWord 1 ctr count) ctrCmdHook)

/-- CTR_SUB: a write of CTR_CMD with OP SUB (R200). -/
def execCtrSub (now : Nat) (req : Requester) (ctr count : Nat) (s : State) : Host.Outcome State Fault Refusal :=
  .next ((s.at now).regWrite req 0x050 0x108 (ctrWord 2 ctr count) ctrCmdHook)

/-- CTR_DISARM: a write of CTR_CMD with OP DISARM (R200). -/
def execCtrDisarm (now : Nat) (req : Requester) (ctr : Nat) (s : State) : Host.Outcome State Fault Refusal :=
  .next ((s.at now).regWrite req 0x050 0x108 (ctrWord 3 ctr 0) ctrCmdHook)

/-- A word of FLOW_CMD. -/
def flowWord (op flow fn value : Nat) : Word :=
  BitVec.ofNat 64 (flow % 4096 + fn % 32 * 2 ^ 16 + op * 2 ^ 24 + value % 2 ^ 32 * 2 ^ 32)

/-- FLOW_OPEN: a write of FLOW_CMD with FOP OPEN (R200). -/
def execFlowOpen (now : Nat) (req : Requester) (flow fn value : Nat) (s : State) : Host.Outcome State Fault Refusal :=
  .next ((s.at now).regWrite req 0x050 0x110 (flowWord 1 flow fn value) flowCmdHook)

/-- FLOW_CLOSE: a write of FLOW_CMD with FOP CLOSE (R200). -/
def execFlowClose (now : Nat) (req : Requester) (flow : Nat) (s : State) : Host.Outcome State Fault Refusal :=
  .next ((s.at now).regWrite req 0x050 0x110 (flowWord 2 flow 0 0) flowCmdHook)

/-- FLOW_ADVANCE: a write of FLOW_CMD with FOP ADVANCE (R191, R200). -/
def execFlowAdvance (now : Nat) (req : Requester) (flow value : Nat) (s : State) : Host.Outcome State Fault Refusal :=
  .next ((s.at now).regWrite req 0x050 0x110 (flowWord 3 flow 0 value) flowCmdHook)

/-! Cores (R201, R503, R504). -/

/-- Cores in service with a CORE_OOS mask. -/
def State.coresLeft (s : State) (oos : Nat) : Nat :=
  ((List.range 16).filter fun n => !bitAt oos n && !bitAt s.rennet.coresFailed n).length

/-- Threads on cores that are out of service return to the head of their level, and the cores in service take the next (R180, R201). -/
def State.coresChanged (s : State) : State :=
  ((s.running.filter fun e => e.2.core.any fun c => !s.coreUp c).foldl (fun (s : State) e => s.readyHead e.1 (e.2.offCore s.chrono)) s).rennetSettle

/-- CORE_OOS's write. -/
def coreOosHook : Hook := fun req page _ seen s =>
  let m := bitsOf seen 15 0
  if s.coresLeft m < 2 then (if s.locked 0 page then s.raiseBy req page 1 0x100 else s.setFld CTLCORE.CORE_REFUSED 1)
  else (s.setFld CTLCORE.CORE_OOS m).coresChanged

/-- CORE_OOS: a write of CORE_OOS (R201). -/
def execCoreOos (now : Nat) (req : Requester) (mask : Nat) (s : State) : Host.Outcome State Fault Refusal :=
  .next ((s.at now).regWrite req 0x051 0x100 (BitVec.ofNat 64 (mask % 65536)) coreOosHook)

/-- CORE_FAIL: a core fails; its stage slice ends with CORE_FAULT, and so do the jobs whose runtime state it held (R503, R504). -/
def execCoreFail (now core : Nat) (jobs : List Nat) (s : State) : Host.Outcome State Fault Refusal :=
  if 16 ≤ core then .fault .noSuchUnit
  else
    let s := s.at now
    .next (if !s.power.released || bitAt s.rennet.coresFailed core then s
    else
      let on := (s.running.filter fun e => e.2.core = some core).map (·.1)
      let s1 := (s.modRennet fun r => { r with coresFailed := withBit r.coresFailed core true }).raiseOwn 0x051 18
      let s2 := if s1.coresLeft (s1.fld CTLCORE.CORE_OOS) < 2 then s1.nodeFatal 0x20 0
        else s1.faultRecord ⟨2, 0x12, 0, 0, 0x051, s1.node.id, 0, 0, 0, 0, 0⟩
      let s3 := on.foldl (fun (s : State) t => s.failSlice t 0x5B 0) s2
      ((jobs.foldl (fun (s : State) j => s.killJob j 0x5B) s3).rennetSettle).placeAll)

/-- L2_UE: an uncorrected error of the L2: in the data of a stage its slice ends with MEM_UNCORRECTED, in runtime data it is a class 3
fault (R201, R504). -/
def execL2Ue (now : Nat) (slice : Option Nat) (s : State) : Host.Outcome State Fault Refusal :=
  let s := s.at now
  .next (if !s.power.released then s
  else
    let s1 := (s.count CTLCORE.L2_UE_COUNT 1).raiseOwn 0x051 17
    match slice with
    | none => s1.nodeFatal 0x21 0
    | some t => if (s1.thread? t).isSome then (s1.failSlice t 0x41 0).placeAll else s1)

end Sys2Proof.Machine
end

