-- ==== Sys2Proof/Machine/ReqOps.lean ====
section
/-! DEFINITION. How this node's requests end: their responses, their timeouts, and what each was for (R428 to R430). -/

namespace Sys2Proof.Machine

open Sys2Proof.Reg

/-- Whether a reader still awaits something: answers of other nodes, of the host, of a drive. -/
def State.stillReads (s : State) (who : Reader) : Bool :=
  let mine (w : ReqWhy) : Bool := match w with
    | .farRead x .. => x == who
    | .gather x .. => x == who
    | _ => false
  s.fabric.reqs.any (fun (e : Nat × Req) => mine e.2.why) || s.fabric.waitReqs.any (fun w => mine w.why) ||
    s.host.reads.any (fun (e : Nat × HostRead) => e.2.who == who) ||
    s.tiers.drives.any fun (e : Nat × Drive) => e.2.cmds.any fun (c : Nat × DriveCmd) => c.2.why == .read who

/-- A reader goes on once nothing it asked for is still to come. -/
def State.goOn (s : State) (who : Reader) : State := if s.stillReads who then s else s.resume who

/-- A write or flush of a job failed; a job whose outputs are written is over. -/
def State.jobWriteFailed (s : State) (j status detail page : Nat) : State :=
  let s1 := s.failJob j status 0xFFFF detail page
  (s1.job? j).elim s1 fun job => if job.written then s1.jobFailed j job else s1.dropQueued j

/-- The part of a job on another node has ended (R419). A part that ends without committing ends the others and this node's own part. -/
def State.partEnded (s : State) (j n : Nat) (r : PartResult) : State :=
  match s.job? j with
  | none => s
  | some job =>
    if Table.has job.parts n then s
    else
      let s1 := s.updJob j fun x => { x with parts := Table.put x.parts n r }
      if r.committed then s1.jobSettle j
      else
        let st := if r.status = 0 then 4 else r.status
        let s2 := s1.killParts j { job with parts := Table.put job.parts n r } st
        let s3 := if job.status = 0 ∧ !job.written then (s2.updJob j fun x => { x with status := st, stage := r.stage, detail := r.detail }).dropQueued j
          else s2
        ((s3.jobComplete j).jobSettle j).placeAll

/-- A migrating shard's owner did not answer PREP (R396). -/
def State.prepFailed (s : State) (id : Nat) : State :=
  match Table.find? s.ladle.migrations id with
  | some g => s.cancelMove id g
  | none => s

/-- An owner has answered PREP. -/
def State.prepDone (s : State) (id : Nat) (toNew : Bool) : State :=
  (s.modLadle fun l => { l with migrations := Table.upd l.migrations id fun g =>
    if toNew then { g with newOk := true } else { g with oldOk := true } }).maybeCommit id

/-- This node learns from MOVED who owns a shard (R397). -/
def State.learnOwner (s : State) (t shard owner : Nat) : State :=
  (s.updTable t fun x => { x with owners := Table.put x.owners shard owner }).count LADLE.MOVED_RETRIES 1

/-- What a reader gathered of one row is forgotten. -/
def State.unstageRow (s : State) (who : Reader) (t row : Nat) : State :=
  let lo := farKey who (.rows t 0 [row]) (rowAt row 0)
  s.modWork fun w => { w with
    staged := Memory.clear w.staged lo (lo + 2 ^ 17),
    stagedRanges := w.stagedRanges.filter fun r => decide (r.1 < lo) || decide (lo + 2 ^ 17 ≤ r.1) }

/-- A piece of a row that an owner answered, with the generation of its table there: pieces of one row with different generations are
asked for again (R420). The generation is kept behind the row's bytes. -/
def State.gathered (s : State) (who : Reader) (t row off gen : Nat) (bs : Bytes) : State :=
  let key := Far.rows t 0 [row]
  let had := s.staged who key (rowAt row 65536) 2
  let s1 := if had && leAt (s.stagedBytes who key (rowAt row 65536) 2) 0 2 != gen % 65536 then s.unstageRow who t row else s
  (s1.stage who key (rowAt row 65536) (leBytes 2 gen)).stage who key (rowAt row off) bs

/-- GATHER's response (R386, R387, R397, R420). A request that failed is sent again once where a twin answers for the owner by now. -/
def State.gatherEnd (s : State) (who : Reader) (t owner : Nat) (ids : List Nat) (off len : Nat) (again : Bool) (status : Nat) (p : Option Packet) : State :=
  let body := engineBody (s.readerOf who).1 (s.readerOf who).2.1 t 0 ids.length (off + len * 2 ^ 32) (ids.flatMap (leBytes 8))
  if status = 0 then
    match p with
    | none => s
    | some q =>
      let s1 := ids.zipIdx.foldl (fun (s : State) e => s.gathered who t e.1 off (q.arg1 % 65536) (fitTo (sub q.payload (len * e.2) len) len)) s
      s1.goOn who
  else if status = 0xB6 then
    let o := p.elim owner fun q => q.arg0 % 65536
    let s1 := match s.ltable t with
      | some x => s.learnOwner t (x.shardOf (ids.headD 0)) o
      | none => s
    if s1.answersFor o then s1.goOn who
    else
      let r := s1.trySend (.gather who t o ids off len again) (enginePkt o 0x03 0x10 body)
      if r.2 then r.1 else r.1.readFailed who 0xB5 0
  else if status = 0xB8 ∨ status = 0xB9 then
    if !again && s.place owner != owner then
      let r := s.trySend (.gather who t owner ids off len true) (enginePkt owner 0x03 0x10 body)
      if r.2 then r.1 else r.1.readFailed who 0xB5 0
    else s.readFailed who 0xB5 0
  else s.readFailed who status 0

/-- UPDATE's response (R389, R397). -/
def State.updateEnd (s : State) (j stage t combine : Nat) (payload : Bytes) (r : Req) (status : Nat) (p : Option Packet) : State :=
  let fails (s : State) (st : Nat) : State := (s.failJob j st stage 0 0x0C0).dropQueued j
  if status = 0 then s.maybeSent j stage
  else if status = 0xB6 then
    match p, s.ltable t, s.job? j with
    | some q, some x, some job =>
      let s1 := s.learnOwner t (x.shardOf (leAt payload 0 8)) (q.arg0 % 65536)
      let es := updatesOf (stepKey job.herdId stage) 0 t x.dim payload (payload.length / 24)
      let sent := s1.sendUpdates j stage job.herdId t combine (q.arg0 % 65536) es
      if sent.2 = 0 then sent.1.maybeSent j stage else fails sent.1 sent.2
    | _, _, _ => s
  else fails s (if status = 0xB8 ∨ status = 0xB9 then 0xB5 else if r.pkt.more then 0xB5 else status)

/-- A copy's request has ended. -/
def State.copyReqEnd (s : State) (id : Nat) (r : Req) (status : Nat) (p : Option Packet) : State :=
  match s.copy? id with
  | none => s
  | some c =>
    let base := match s.resolve c.srcHerd c.src with
      | some x => x.2
      | none => 0
    let bs := p.elim [] fun q => fitTo q.body r.pkt.rlen
    s.updCopy id fun c =>
      let c1 := if status = 0 then c else c.failed status
      { c1 with asked := c1.asked - 1, got := if status = 0 ∧ r.pkt.typ = 1 then Memory.store c1.got (r.pkt.addr - base) bs else c1.got }

/-- What a request was for goes on: with the answer's status and the answer, or with FABRIC_TIMEOUT or FABRIC_UNREACHABLE and none. -/
def State.reqEnd (s : State) (r : Req) (status : Nat) (p : Option Packet) : State :=
  let n := r.pkt.dst
  let at_ := n * 2 ^ 48 + r.pkt.addr % 2 ^ 48
  let pressFails (s : State) (j : Nat) : State := ((s.failJob j 0x9B 0xFFFF 0 0x0A8).dropQueued j).placeAll
  match r.why with
  | .signal d => s.endDesc d status 0xFFFF 0 false
  | .farRead who a l =>
    if status = 0 then (s.stage who (.node n) a (fitTo (p.elim [] (·.body)) l)).goOn who else s.readFailed who status at_
  | .jobWrite j => if status = 0 then (s.readyWords j).jobSettle j else s.jobWriteFailed j status at_ 0x0D8
  | .copyRead id | .copyWrite id => s.copyReqEnd id r status p
  | .jobImage _ => s
  | .jobStart j =>
    if status = 0 then s
    else s.partEnded j n ⟨status, false, false, p.elim 0xFFFF (·.arg0 % 65536), p.elim 0 (·.arg1)⟩
  | .jobKill j => if status = 0xB8 ∨ status = 0xB9 then s.partEnded j n ⟨status, false, false, 0xFFFF, 0⟩ else s
  | .partEnd => s
  | .rows j | .endBuild j | .endProbe j => if status = 0 then s else pressFails s j
  | .gather who t o ids off len again => s.gatherEnd who t o ids off len again status p
  | .prefetch => s
  | .update j stage t combine payload => s.updateEnd j stage t combine payload r status p
  | .sent j stage => if status = 0 then s else ((s.failJob j 0xB5 stage 0 0x0C0).dropQueued j).placeAll
  | .stepClose k owner => s.appliedHere k owner (if status = 0xB8 ∨ status = 0xB9 then 0xB5 else status)
  | .stepDone .. => s
  | .closeWait k => s.closeReady k (if status = 0xB8 ∨ status = 0xB9 then 0xB5 else status)
  | .table m => if status = 0 then s.tblHeard m else s
  | .prep id toNew => if status = 0 then s.prepDone id toNew else s.prepFailed id
  | .shardCopy _ | .commit | .handoff _ | .load | .mirror => s
  | .relay q =>
    if r.pkt.more then s
    else
      match p with
      | some a => (s.answer q 0x83 status (rspBody q a.arg0 a.arg1 a.payload)).marked q status
      | none => s

/-- Waiting requests that may be sent now are sent, in order; one whose destination has no route any more fails. -/
def State.reqPump (s : State) : State :=
  s.fabric.waitReqs.foldl (fun (s : State) w =>
    let first := (s.fabric.waitReqs.find? fun x => x.pkt.dst == w.pkt.dst) == some w
    if !first || s.mustWait w.pkt.dst then s
    else
      let s1 := s.modFabric fun f => { f with waitReqs := removeFirst w f.waitReqs }
      match s1.sendNow w.why w.pkt with
      | some s2 => s2
      | none => ((s1.count ROUTE.UNREACHABLE 1).raiseOwn 0x0D8 16).reqEnd { pkt := w.pkt, sentAt := s.chrono, why := w.why } 0xB9 none) s

/-- A request leaves the list of outstanding ones. -/
def State.reqGone (s : State) (tag : Nat) : State := s.modFabric fun f => { f with reqs := Table.drop f.reqs tag }

/-- A response arrives (R429): accepted where its SRC, TAG and GEN match an outstanding request, else discarded. -/
def State.response (s : State) (p : Packet) : State :=
  match Table.find? s.fabric.reqs p.tag with
  | none => s.count ROUTE.LATE_DISCARDS 1
  | some r =>
    if r.pkt.dst = p.src ∧ r.pkt.gen = p.gen ∧ rspType r.pkt.typ = p.typ then
      let s1 := if r.resent then (s.reqGone p.tag).corrected else s.reqGone p.tag
      (s1.reqEnd r p.status (some p)).reqPump
    else s.count ROUTE.LATE_DISCARDS 1

/-- E2E_TIMEOUT_MS in ns. -/
def State.e2eNs (s : State) : Nat := s.fld ROUTE.E2E_TIMEOUT_MS * 1000000

/-- A request's timer expires (R428): it is resent once where a route exists, else it fails. MIRROR requests go over the twin link alone. -/
def State.e2eTimeout (s : State) (tag : Nat) : State :=
  match Table.find? s.fabric.reqs tag with
  | none => s
  | some r =>
    if s.chrono < r.sentAt + s.e2eNs then s
    else
      let s0 := s.count ROUTE.TIMEOUTS 1
      let p := { r.pkt with gen := (r.pkt.gen + 1) % 256, flags := 1 }
      let again : Option State :=
        if r.resent then none
        else
          match r.why with
          | .mirror => s0.twinLink.map fun k => s0.linkSend k (flitsOf (s0.link k).secure 0 p)
          | _ => s0.sendPacket p
      match again with
      | some s1 =>
        ((s1.count ROUTE.RESENDS 1).count ROUTE.REQUESTS 1).modFabric fun f => { f with
          reqs := Table.put f.reqs tag { r with pkt := p, sentAt := s.chrono, resent := true } }
      | none =>
        let s1 := if r.resent then s0 else (s0.count ROUTE.UNREACHABLE 1).raiseOwn 0x0D8 16
        ((s1.reqGone tag).reqEnd r (if r.resent then 0xB8 else 0xB9) none).reqPump

end Sys2Proof.Machine
end

