-- ==== Sys2Proof/Machine/BiasOps.lean ====
section
/-! DEFINITION. The bias command (R113, R114). -/

namespace Sys2Proof.Machine

open Sys2Proof.Reg

/-- RESULT of a bias command (Table 06-4), checked before the first flip. -/
def State.biasResult (s : State) (op region page count : Nat) : Nat :=
  match Table.find? s.tiers.regions region with
  | none => 1
  | some g =>
    let n := if op = 3 then 1 else count
    if g.owner ≠ 0 then 2
    else if g.len / 4096 < page + n then 3
    else if g.lineCoherent then 4
    else if n = 0 ∨ 64 < n ∨ 3 < op then 5
    else 0

/-- A bias command ends at once. -/
def State.biasEnd (s : State) (r : Nat) : State := (s.setFld COHERENCE.RESULT r).setFld COHERENCE.DONE 1

/-- A bias command starts on its pages: to the device, every line that the host holds of them is asked back. -/
def State.biasStart (s : State) (c : BiasCmd) (g : Region) : State :=
  let s1 := (s.modHost fun h => { h with bias := some c }).setFld COHERENCE.DONE 0
  if c.toDevice then
    (s.heldLines (g.base + c.page * 4096) (c.count * 4096)).foldl (fun (s : State) l => s.snoopLine l .bias) s1
  else s1

/-- BIAS_CMD's write (R114): refused while a command runs. -/
def biasHook : Hook := fun _ _ old seen s =>
  let op := bitsOf seen 14 12
  let region := bitsOf seen 9 0
  let page := bitsOf seen 57 32
  let count := bitsOf seen 22 16
  if s.host.bias.isSome then (if op = 0 then s.setWord 0 0x009 0x100 old else (s.setWord 0 0x009 0x100 old).setFld COHERENCE.REFUSED 1)
  else if op = 0 then s
  else
    let r := s.biasResult op region page count
    match Table.find? s.tiers.regions region with
    | none => s.biasEnd 1
    | some g =>
      if r ≠ 0 then s.biasEnd r
      else if op = 3 then (s.setFld COHERENCE.QUERY_HOST (ofBool (g.hostPages.contains page))).biasEnd 0
      else s.biasStart ⟨region, page, count, op == 1⟩ g

end Sys2Proof.Machine
end

