-- ==== Sys2Proof/Machine/TideCmds.lean ====
section
/-! DEFINITION. The tide's commands: beats, reports, the TIDE page's registers (chapter 10; rows BEAT_SEND to BEAT_LOST,
TIDE_MODE_WRITE). -/

namespace Sys2Proof.Machine

open Sys2Proof.Reg

/-- TIDE_CFG's write (R204, R211): SCALE is fixed once the tide runs; periodic beats start one period after MODE leaves OFF (log 29). -/
def tideCfgHook : Hook := fun req page old seen s =>
  let sc := bitsOf seen 7 4
  let s1 :=
    if sc = s.fld TIDE.SCALE then s
    else if s.tide.now ≠ 0 then s.raiseBy req page 21 0x100
    else if sc ≤ 9 then s.setFld TIDE.SCALE sc
    else s
  if bitsOf old 1 0 = 0 ∧ s1.fld TIDE.MODE ≠ 0 then s1.modTide fun t => { t with lastBeatSent := s1.chrono } else s1

/-- EPOCH_TU's write (R204). -/
def epochTuHook : Hook := fun req page _ seen s =>
  let v := seen.toNat
  if v = s.fld TIDE.EPOCH_TU then s
  else if s.tide.now ≠ 0 then s.raiseBy req page 21 0x118
  else if 1 ≤ v ∧ v ≤ 2 ^ 48 then s.setFld TIDE.EPOCH_TU v
  else s

/-- HOST_TIDE's write (R210). -/
def hostTideHook : Hook := fun req page _ seen s =>
  let v := seen.toNat
  if req = .fn 0 ∧ s.isLead = true ∧ s.fld TIDE.MODE = 2 ∧ s.tide.now ≤ v ∧ v ≤ tideMax then
    (s.setFld TIDE.HOST_TIDE v).modTide fun t => { t with hostTide := v }
  else s.raiseBy req page 18 0x120

/-- LAG_MARK's and LAG_HYST's write (R219). -/
def lagWmHook : Hook := fun _ _ _ _ s => s.lagNotice

/-- A write of an alarm register: only the control cores make one (R218). -/
def alarmBy (f : Requester → Nat → Word → State → State) : Hook := fun req page _ seen s =>
  match req with
  | .cores => f req page seen s
  | _ => s

/-- ALARM_SEL's write. -/
def alarmSelHook : Hook := alarmBy fun _ _ seen s => s.setFld TIDE.ALARM_SEL (bitsOf seen 7 0)

/-- The selected alarm with a change. -/
def State.updAlarm (s : State) (f : Alarm → Alarm) : State :=
  let n := s.fld TIDE.ALARM_SEL
  s.modTide fun t => { t with alarms := Table.put t.alarms n (f (s.alarm n)) }

/-- ALARM_TIDE's write. -/
def alarmTideHook : Hook := alarmBy fun req page seen s =>
  if (s.alarm (s.fld TIDE.ALARM_SEL)).arm then s.raiseBy req page 21 0x188
  else s.updAlarm fun a => { a with tide := seen.toNat }

/-- ALARM_CTRL's write: an alarm armed at or below the present tide fires at once (R216, R218). -/
def alarmCtrlHook : Hook := alarmBy fun req page seen s =>
  let n := s.fld TIDE.ALARM_SEL
  let arm := seen.getLsbD 0
  if (s.alarm n).arm && arm then s.raiseBy req page 21 0x190
  else
    let s1 := s.updAlarm fun a =>
      { a with arm := arm, irq := seen.getLsbD 1, ctr := seen.getLsbD 2, out := seen.getLsbD 3, ctrId := bitsOf seen 31 16 }
    if arm && decide ((s1.alarm n).tide ≤ s1.tide.now) then s1.fireAlarm n else s1

/-- A source command's result (Table 10-8). -/
def State.srcResult (s : State) (r : Nat) : State := (s.setFld TIDE.DONE 1).setFld TIDE.RESULT r

/-- A job in flight has an event-time column attached to a source. -/
def State.sourceHeld (s : State) (id : Nat) : Bool :=
  s.work.jobs.any fun (e : Nat × Job) => e.2.binds.any fun b => b.kind == 5 && b.aux == id

/-- What READ shows of a source. -/
def State.srcShown (s : State) (x : Option Source) : State :=
  let bit (p : Source → Bool) : Nat := ofBool (x.any p)
  ((s.setFld TIDE.S_OPEN (bit fun _ => true)).setFld TIDE.S_IDLE (bit (·.idle))).setFld TIDE.SRC_WM (x.elim 0 (·.w))

/-- SRC_CMD's write (R205 to R207). Where several results of Table 10-8 hold, the model takes BAD_OP, then RANGE, then the others. -/
def srcCmdHook : Hook := fun _ _ _ seen s =>
  let op := bitsOf seen 18 16
  let id := bitsOf seen 9 0
  let ms := bitsOf seen 47 32
  let arg := s.fld TIDE.SRC_ARG
  if op = 0 then s
  else if 6 < op then s.srcResult 4
  else if 767 < id ∨ (op = 1 ∧ (ms < 1 ∨ 60000 < ms ∨ 2 ^ 62 < arg)) then s.srcResult 3
  else
    match op, Table.find? s.tide.sources id with
    | 1, some _ => s.srcResult 1
    | 1, none => ((s.setSource id { delay := arg, idleMs := ms, heard := s.chrono }).lagNotice).srcResult 0
    | 6, x => (s.srcShown x).srcResult 0
    | _, none => s.srcResult 2
    | 2, some _ =>
      if s.sourceHeld id then s.srcResult 1
      else ((s.modTide fun t => { t with sources := Table.drop t.sources id }).lagNotice).srcResult 0
    | 3, some _ => (s.sourceHears id 0 arg).srcResult 0
    | 4, some x => ((s.setSource id { x with idle := true }).lagNotice).srcResult 0
    | _, some x => (((s.setSource id { x with idle := false, heard := s.chrono }).sourceWake x).lagNotice).srcResult 0

/-! Commands. -/

/-- BEAT_SEND: the lead's beat period expires (R211); a herd reset's copies go at beat periods (R427). -/
def execBeatSend (now : Nat) (s : State) : Host.Outcome State Fault Refusal :=
  let s := s.at now
  .next (
    let due := s.tide.lastBeatSent + s.beatNs
    if s.power.released && s.isLead && decide (0 < s.beatNs ∧ due ≤ s.chrono) then
      let late := (s.chrono - s.tide.lastBeatSent) / s.beatNs
      let s1 := (s.modTide fun t => { t with lastBeatSent := t.lastBeatSent + late * s.beatNs }).herdResetCopy
      if s1.fld TIDE.MODE = 0 then s1 else s1.sendBeat s1.tide.now false
    else s)

/-- BEAT_APPLY: a beat arrives (R213). -/
def execBeatApply (now : Nat) (raw : Bytes) (s : State) : Host.Outcome State Fault Refusal :=
  let s := s.at now
  .next (if s.power.released then s.beatArrives raw else s)

/-- REPORT_RECEIVE: a report arrives (R213). -/
def execReportReceive (now : Nat) (raw : Bytes) (s : State) : Host.Outcome State Fault Refusal :=
  let s := s.at now
  .next (if s.power.released then s.reportArrives raw else s)

/-- HOST_TIDE: a write of HOST_TIDE (R210). -/
def execHostTide (now : Nat) (req : Requester) (value : Word) (s : State) : Host.Outcome State Fault Refusal :=
  .next ((s.at now).regWrite req 0x058 0x120 value hostTideHook)

/-- ALARM_ARM: a write of ALARM_CTRL (R218). -/
def execAlarmArm (now : Nat) (req : Requester) (arm irq ctr out : Bool) (ctrId : Nat) (s : State) : Host.Outcome State Fault Refusal :=
  let w := ofBool arm + 2 * ofBool irq + 4 * ofBool ctr + 8 * ofBool out + ctrId % 65536 * 65536
  .next ((s.at now).regWrite req 0x058 0x190 (BitVec.ofNat 64 w) alarmCtrlHook)

/-- A word of SRC_CMD. -/
def srcWord (op id ms : Nat) : Word := BitVec.ofNat 64 (id % 1024 + op * 2 ^ 16 + ms % 65536 * 2 ^ 32)

/-- A write of SRC_CMD that leaves IDLE_MS as it is. -/
def State.srcCmd (s : State) (req : Requester) (op id : Nat) : State :=
  s.regWrite req 0x058 0x1A0 (srcWord op id (s.fld TIDE.IDLE_MS)) srcCmdHook

/-- SRC_OPEN: SRC_CMD OPEN; DELAY stands in SRC_ARG (R205). -/
def execSrcOpen (now : Nat) (req : Requester) (source idleMs : Nat) (s : State) : Host.Outcome State Fault Refusal :=
  .next ((s.at now).regWrite req 0x058 0x1A0 (srcWord 1 source idleMs) srcCmdHook)

/-- SRC_CLOSE: SRC_CMD CLOSE (R205). -/
def execSrcClose (now : Nat) (req : Requester) (source : Nat) (s : State) : Host.Outcome State Fault Refusal :=
  .next ((s.at now).srcCmd req 2 source)

/-- SRC_LOW: SRC_CMD LOW; the low watermark stands in SRC_ARG (R206). -/
def execSrcLow (now : Nat) (req : Requester) (source : Nat) (s : State) : Host.Outcome State Fault Refusal :=
  .next ((s.at now).srcCmd req 3 source)

/-- SRC_IDLE: SRC_CMD IDLE (R207). -/
def execSrcIdle (now : Nat) (req : Requester) (source : Nat) (s : State) : Host.Outcome State Fault Refusal :=
  .next ((s.at now).srcCmd req 4 source)

/-- SRC_ACTIVE: SRC_CMD ACTIVE (R207). -/
def execSrcActive (now : Nat) (req : Requester) (source : Nat) (s : State) : Host.Outcome State Fault Refusal :=
  .next ((s.at now).srcCmd req 5 source)

/-- SRC_READ: SRC_CMD READ (R205). -/
def execSrcRead (now : Nat) (req : Requester) (source : Nat) (s : State) : Host.Outcome State Fault Refusal :=
  .next ((s.at now).srcCmd req 6 source)

/-- SOURCE_IDLE_EXPIRE: no row and no low watermark reached a source for IDLE_MS (R207). -/
def execSourceIdleExpire (now source : Nat) (s : State) : Host.Outcome State Fault Refusal :=
  let s := s.at now
  .next (match Table.find? s.tide.sources source with
    | none => s
    | some x =>
      if !x.idle && decide (x.heard + x.idleMs * 1000000 ≤ s.chrono) then (s.setSource source { x with idle := true }).lagNotice else s)

/-- BEAT_LOST: no beat was applied for BEAT_LOSS periods (R220). -/
def execBeatLost (now : Nat) (s : State) : Host.Outcome State Fault Refusal :=
  .next ((s.at now).beatLost)

/-- TIDE_MODE_WRITE: a write of TIDE_CFG.MODE, the other fields as they are (R211). -/
def execTideModeWrite (now : Nat) (req : Requester) (mode : Nat) (s : State) : Host.Outcome State Fault Refusal :=
  let s := s.at now
  .next (s.regWrite req 0x058 0x100 (putBits (s.word 0 0x058 0x100) 1 0 mode) tideCfgHook)

end Sys2Proof.Machine
end

