-- ==== Sys2Proof/Machine/EngineCmds.lean ====
section
/-! DEFINITION. Commands of Intake, Churn's dictionaries, the hash probe, Strainer, Press and the window stores (chapters 12 to 17;
rows INTAKE_SURVEY to STORE_CLEAR). -/

namespace Sys2Proof.Machine

open Sys2Proof.Reg

/-! Intake (R253, R267 to R269). -/

/-- INTAKE_SURVEY: the surveys of a job's Intake stages (R253). -/
def execIntakeSurvey (now job : Nat) (s : State) : Host.Outcome State Fault Refusal :=
  .next ((s.at now).survey job)

/-- DLOG_HEAD's write. -/
def dlogHeadHook : Hook := fun req _ old seen s => (s.setFld INTAKE.DLOG_HEAD (bitsOf seen 15 0)).dlogHead req (bitsOf old 15 0)

/-- DLOG_CTRL's write. -/
def dlogCtrlHook : Hook := fun _ _ old seen s => (s.setFld INTAKE.ENABLE (bitsOf seen 0 0)).dlogEnable (old.getLsbD 0)

/-- DLOG_BASE, DLOG_CFG and DLOG_WM are written only while the log is disabled (R269). -/
def dlogConfigHook (off : Nat) : Hook := fun req page old _ s =>
  if s.bit INTAKE.ENABLE then (s.setWord 0 page off old).raiseBy req page 19 off else s.dlogNotice

/-- DLOG_HEAD: a write of DLOG_HEAD (R267). -/
def execDlogHead (now : Nat) (req : Requester) (head : Nat) (s : State) : Host.Outcome State Fault Refusal :=
  .next ((s.at now).regWrite req 0x070 0x118 (BitVec.ofNat 64 (head % 65536)) dlogHeadHook)

/-- DLOG_ENABLE: a write of DLOG_CTRL.ENABLE (R269). -/
def execDlogEnable (now : Nat) (req : Requester) (enable : Bool) (s : State) : Host.Outcome State Fault Refusal :=
  .next ((s.at now).regWrite req 0x070 0x110 (BitVec.ofNat 64 (ofBool enable)) dlogCtrlHook)

/-! Dictionaries (R276, R290). -/

/-- DICT_CMD's write. -/
def dictCmdHook : Hook := fun _ _ _ seen s =>
  let op := bitsOf seen 10 8
  if op = 0 then s
  else if s.bit CHURN.BUSY then s.setFld CHURN.REFUSED 1
  else match op with
    | 1 => s.dictRegister
    | 2 => s.dictUnregister
    | 3 => s.dictRead
    | _ =>
      -- Table 13-9 names no result for a reserved OP (log 30)
      let r := s.openNat
      r.2.dictDone (s.fld CHURN.SLOT) (r.1 % 16)

/-- A word of DICT_CMD. -/
def dictWord (op slot : Nat) : Word := BitVec.ofNat 64 (slot % 64 + op * 256)

/-- DICT_REGISTER: DICT_CMD REGISTER of the bytes at DICT_ADDR (R276). -/
def execDictRegister (now : Nat) (req : Requester) (slot : Nat) (s : State) : Host.Outcome State Fault Refusal :=
  .next ((s.at now).regWrite req 0x080 0x108 (dictWord 1 slot) dictCmdHook)

/-- DICT_UNREGISTER: DICT_CMD UNREGISTER (R276). -/
def execDictUnregister (now : Nat) (req : Requester) (slot : Nat) (s : State) : Host.Outcome State Fault Refusal :=
  .next ((s.at now).regWrite req 0x080 0x108 (dictWord 2 slot) dictCmdHook)

/-- DICT_UNREGISTER_DONE: no frame that resolved the slot is still being decoded (R276). -/
def execDictUnregisterDone (now : Nat) (s : State) : Host.Outcome State Fault Refusal :=
  .next ((s.at now).dictSettle)

/-- DICT_READ: DICT_CMD READ (R290). -/
def execDictRead (now : Nat) (req : Requester) (slot : Nat) (s : State) : Host.Outcome State Fault Refusal :=
  .next ((s.at now).regWrite req 0x080 0x108 (dictWord 3 slot) dictCmdHook)

/-! The hash probe (R309). -/

/-- PROBE_OM64: a read of PROBE_OM64 (R309). -/
def execProbeOm64 (now : Nat) (req : Requester) (s : State) : Host.Outcome State Fault Refusal :=
  .next ((s.at now).readReg req 0x098 0x118)

/-- PROBE_CRC: a read of PROBE_CRC (R309). -/
def execProbeCrc (now : Nat) (req : Requester) (s : State) : Host.Outcome State Fault Refusal :=
  .next ((s.at now).readReg req 0x098 0x120)

/-! Strainer's windows (R318, R327). -/

/-- A window's field: the host window's or the firmware window's. -/
def winField (fw : Bool) (f : Field) : Field := if fw then { f with off := f.off + 0x100 } else f

/-- A window command's end. -/
def State.winResult (s : State) (fw : Bool) (r : Nat) : State :=
  (s.setFld (winField fw STRAINER.W_DONE) 1).setFld (winField fw STRAINER.W_RESULT) r

/-- The words of a window's units. -/
def State.winWords (s : State) (fw : Bool) (f : Field) : List Nat := (List.range 4).map fun k => s.fld (winField fw (f.at k))

/-- A window's words set. -/
def State.setWinWords (s : State) (fw : Bool) (f : Field) (ws : List Nat) : State :=
  ws.zipIdx.foldl (fun s w => s.setFld (winField fw (f.at w.2)) w.1) s

/-- Words of an entry, those beyond the bank's width 0. -/
def winUnitsOf (n : Nat) (ws : List Nat) : List Nat := ws.zipIdx.map fun w => if w.2 < n then w.1 else 0

/-- The first match's fields. -/
def State.winHit (s : State) (fw : Bool) (m : Option Match) : State :=
  match m with
  | none => s.setFld (winField fw STRAINER.W_HIT) 0
  | some m =>
    ((((s.setFld (winField fw STRAINER.W_HIT) 1).setFld (winField fw STRAINER.W_HIT_PRIO) m.1).setFld
      (winField fw STRAINER.W_HIT_BANK) m.2.1).setFld (winField fw STRAINER.W_HIT_INDEX) m.2.2)

/-- A window command on the entry that SEL names. -/
def State.winEntry (s : State) (fw : Bool) (op : Nat) : State :=
  let b := s.fld (winField fw STRAINER.W_SEL_BANK)
  let i := s.fld (winField fw STRAINER.W_SEL_INDEX)
  let n := s.bankUnits b
  let path := if fw then 1 else 2
  if s.bankOos b then s.winResult fw 3
  else if s.bankEntries b ≤ i then s.winResult fw 1
  else if op ≠ 2 ∧ fw = false ∧ s.bit (STRAINER.HOST_WP.at b) then (s.raiseOwn 0x0A0 19).winResult fw 4
  else
    let e := s.strEntry b i
    match op with
    | 1 =>
      let x : StrEntry := {
        valid := s.bit (winField fw STRAINER.W_ENTRY_VALID), prio := s.fld (winField fw STRAINER.W_ENTRY_PRIO),
        data := winUnitsOf n (s.winWords fw STRAINER.W_DATA), mask := winUnitsOf n (s.winWords fw STRAINER.W_MASK) }
      (s.strWrite b i path x).winResult fw 0
    | 2 =>
      let s1 := ((s.bankTouch b).count STRAINER.UPDATES 1).setFld (winField fw STRAINER.W_ENTRY_VALID) (ofBool e.valid)
      (((s1.setFld (winField fw STRAINER.W_ENTRY_PRIO) e.prio).setWinWords fw STRAINER.W_DATA e.data).setWinWords fw STRAINER.W_MASK
        e.mask).winResult fw 0
    | _ => (s.strWrite b i path { e with valid := false }).winResult fw 0

/-- A window's SEARCH. -/
def State.winSearch (s : State) (fw : Bool) (units : Nat) : State :=
  let banks := s.fld (winField fw STRAINER.W_BMASK)
  let n := 2 ^ units
  if 3 ≤ units then s.winResult fw 5
  else if (bitsSet banks 32).any s.bankOos then s.winResult fw 3
  else if banks = 0 ∨ (bitsSet banks 32).any (fun b => s.bankUnits b != n) then s.winResult fw 2
  else
    let key := (s.winWords fw STRAINER.W_DATA).take n
    ((s.countSearches banks 1).winHit fw (s.searchBanks banks key)).winResult fw 0

/-- W_CMD's write. -/
def strCmdHook (fw : Bool) : Hook := fun req page _ seen s =>
  let op := bitsOf seen 2 0
  if op = 0 then s
  else if s.bit (winField fw STRAINER.W_BUSY) then s.raiseBy req page 20 (if fw then 0x208 else 0x108)
  else if 4 < op then s.winResult fw 5
  else if op = 4 then s.winSearch fw (s.fld (winField fw STRAINER.W_CMD_UNITS))
  else s.winEntry fw op

/-- A write to the firmware window by another requester than the control cores is ignored (R327). -/
def fwOnly (off : Nat) (h : Hook) : Hook := fun req page old seen s =>
  match req with
  | .cores => h req page old seen s
  | _ => s.setWord 0 page off old

/-- BANK_CFG's write (R319, R326): a new WIDTH first, then OOS. -/
def bankCfgHook (b : Nat) : Hook := fun req page _ seen s =>
  let w := bitsOf seen 1 0
  let s1 :=
    if w = s.fld (STRAINER.WIDTH.at b) ∨ 2 < w then s
    else if s.bankLoading b then s.raiseBy req page 21 (0x300 + 8 * b)
    else (s.bankClear b).setFld (STRAINER.WIDTH.at b) w
  s1.setFld (STRAINER.OOS.at b) (bitsOf seen 4 4)

/-- The effect of each register of the STRAINER page. -/
def strainerHook (off : Nat) : Hook :=
  if off = 0x108 then strCmdHook false
  else if off = 0x208 then fwOnly off (strCmdHook true)
  else if 0x200 ≤ off ∧ off ≤ 0x260 then fwOnly off noHook
  else if 0x300 ≤ off ∧ off < 0x400 then bankCfgHook ((off - 0x300) / 8)
  else noHook

/-- A write of a window's CMD with an OP and UNITS. -/
def State.winCmd (s : State) (req : Requester) (fw : Bool) (op units : Nat) : State :=
  let off := if fw then 0x208 else 0x108
  s.regWrite req 0x0A0 off (BitVec.ofNat 64 (op + units % 4 * 256)) (strainerHook off)

/-- UNITS of a window as it stands. -/
def State.winUnits (s : State) (fw : Bool) : Nat := s.fld (winField fw STRAINER.W_CMD_UNITS)

/-- STRAINER_WRITE: a window WRITE (R327). -/
def execStrainerWrite (now : Nat) (req : Requester) (fw : Bool) (s : State) : Host.Outcome State Fault Refusal :=
  let s := s.at now
  .next (s.winCmd req fw 1 (s.winUnits fw))

/-- STRAINER_READ: a window READ (R327). -/
def execStrainerRead (now : Nat) (req : Requester) (fw : Bool) (s : State) : Host.Outcome State Fault Refusal :=
  let s := s.at now
  .next (s.winCmd req fw 2 (s.winUnits fw))

/-- STRAINER_INVALIDATE: a window INVALIDATE (R327). -/
def execStrainerInvalidate (now : Nat) (req : Requester) (fw : Bool) (s : State) : Host.Outcome State Fault Refusal :=
  let s := s.at now
  .next (s.winCmd req fw 3 (s.winUnits fw))

/-- STRAINER_SEARCH: a window SEARCH with a key width (R327). -/
def execStrainerSearch (now : Nat) (req : Requester) (fw : Bool) (units : Nat) (s : State) : Host.Outcome State Fault Refusal :=
  .next ((s.at now).winCmd req fw 4 units)

/-- A write of BANK_CFG of a bank with a change of its word. -/
def State.bankCfg (s : State) (req : Requester) (b hi lo v : Nat) : State :=
  s.regWrite req 0x0A0 (0x300 + 8 * b) (putBits (s.word 0 0x0A0 (0x300 + 8 * b)) hi lo v) (bankCfgHook b)

/-- BANK_CFG_WIDTH: a write of a bank's WIDTH (R319). -/
def execBankCfgWidth (now : Nat) (req : Requester) (bank width : Nat) (s : State) : Host.Outcome State Fault Refusal :=
  if 32 ≤ bank then .fault .noSuchUnit else .next ((s.at now).bankCfg req bank 1 0 width)

/-- BANK_CFG_OOS: a write of a bank's OOS (R326). -/
def execBankCfgOos (now : Nat) (req : Requester) (bank : Nat) (oos : Bool) (s : State) : Host.Outcome State Fault Refusal :=
  if 32 ≤ bank then .fault .noSuchUnit else .next ((s.at now).bankCfg req bank 4 4 (ofBool oos))

/-- SCRUB_STEP: a bank compares one entry with its shadow (R325). `flawed` says that a unit differed from a correct shadow, `dead` that the
shadow cannot be corrected. -/
def execScrubStep (now bank : Nat) (flawed dead : Bool) (s : State) : Host.Outcome State Fault Refusal :=
  let s := s.at now
  if 32 ≤ bank then .fault .noSuchUnit
  else .next (
    if !s.power.released || s.bankOos bank then s
    else
      let i := (s.bank bank).scrubAt % s.bankEntries bank
      let s0 := s.bankTouch bank
      let s1 := s0.setBank bank { s0.bank bank with scrubAt := (i + 1) % s.bankEntries bank }
      if dead then
        ((((s1.setFld (STRAINER.FAILED.at bank) 1).setFld STRAINER.UE_INDEX i).setFld STRAINER.UE_BANK bank).raiseOwn 0x0A0 18).faultRecord ⟨2, 0x12, 0, 0, 0x0A0, s.node.id, 0, 0, 0, 0, 0⟩
      else if flawed then (s1.count STRAINER.SCRUB_CORRECTED 1).raiseOwn 0x0A0 17
      else s1)

/-- LOAD_WRITE_PASS: a LOAD writes its next records (R323). -/
def execLoadWritePass (now job stage records : Nat) (s : State) : Host.Outcome State Fault Refusal :=
  .next ((s.at now).loadPass job stage records)

/-! Press (R337, R339, R341, R421). -/

/-- PARTITION_RELOAD: the next spilled partition of a join is loaded back (R337). -/
def execPartitionReload (now job stage : Nat) (s : State) : Host.Outcome State Fault Refusal :=
  .next ((s.at now).reloadPart job stage)

/-- RUNAHEAD_PROBE: rows of the next probe slice are probed ahead (R341). -/
def execRunaheadProbe (now job stage rows : Nat) (s : State) : Host.Outcome State Fault Refusal :=
  .next ((s.at now).probeAhead job stage rows)

/-- A request of a shuffled join that has arrived is answered OK; rows of a job that is over, or has failed, are dropped. -/
def State.pressServe (s : State) (p : Packet) (f : State → Nat → Bytes → State) : State :=
  if !s.power.released then s
  else s.onRequest p fun s =>
    let r := s.joinRun p
    let s1 :=
      match r.2, (s.jobByHerd p.job).bind fun j => (s.job? j).map fun job => (j, job) with
      | some payload, some (j, job) => if job.status = 0 then f r.1 j payload else r.1
      | _, _ => r.1
    if p.subtype = 0x20 ∧ p.arg0 % 2 = 0 ∧ s1.bit TWIN.MIRROR_PRESS then s1.ackHeld p 0 else (s1.reply p 0 0 0 [], some 0)

/-- ROWS: a row block of a shuffled join arrives (R339, R421). -/
def execRows (now : Nat) (p : Packet) (s : State) : Host.Outcome State Fault Refusal :=
  .next ((s.at now).pressServe p fun s j payload => s.rowsArrive j p.stage p.src (p.arg0 % 2) (p.arg0 / 2 ^ 32) p.arg1 payload)

/-- END_BUILD: the build side's end mark of an origin arrives (R339, R421). -/
def execEndBuild (now : Nat) (p : Packet) (s : State) : Host.Outcome State Fault Refusal :=
  .next ((s.at now).pressServe p fun s j _ => s.markArrive j p.stage p.src 0 p.arg0)

/-- END_PROBE: the probe side's end mark of an origin arrives (R339, R421). -/
def execEndProbe (now : Nat) (p : Packet) (s : State) : Host.Outcome State Fault Refusal :=
  .next ((s.at now).pressServe p fun s j _ => s.markArrive j p.stage p.src 1 p.arg0)

/-! Window stores (R362). -/

/-- A job in flight binds a window store. -/
def State.storeHeld (s : State) (id : Nat) : Bool :=
  s.work.jobs.any fun (e : Nat × Job) => e.2.plan.stages.zipIdx.any fun x =>
    x.1.cls == 7 && x.1.op != 1 && byteAt (e.2.plan.block x.1) 5 == id

/-- A store command's result. -/
def State.storeResult (s : State) (r : Nat) : State := (s.setFld RIPENER.DONE 1).setFld RIPENER.RESULT r

/-- The windows that a store has open or keeps. -/
def WinStore.windows (st : WinStore) : Nat := st.panes.length

/-- What READ shows of a store. -/
def State.storeShown (s : State) (x : Option WinStore) : State :=
  let n (f : WinStore → Nat) : Nat := x.elim 0 f
  (((((s.setFld RIPENER.S_OPEN (n fun _ => 1)).setFld RIPENER.S_BOUND (n fun w => ofBool w.params.isSome)).setFld RIPENER.USED
    (n fun w => min w.used 0x1FFFF)).setFld RIPENER.OPEN_WINDOWS (n fun w => min w.windows 0xFFFFFFFF)).setFld RIPENER.QUEUED_ROWS
    (n fun w => min w.queue.length 0xFFFFFFFF))

/-- STORE_CMD's write. -/
def storeCmdHook : Hook := fun req page _ seen s =>
  let op := bitsOf seen 10 8
  let id := bitsOf seen 7 0
  let tier := bitsOf seen 17 16
  let quota := bitsOf seen 48 32
  if op = 0 then s
  else if !s.tiersReady then s.raiseBy req page 18 0x100
  else
    match op, Table.find? s.stores id with
    | 1, some _ => s.storeResult 1
    | 1, none =>
      if (tier ≠ 1 ∧ tier ≠ 2) ∨ quota < 1 ∨ 65536 < quota then s.storeResult 3
      else if s.tierFree tier < quota then s.storeResult 4
      else (s.setStore id { tier := tier, quota := quota }).storeResult 0
    | 2, some _ => if s.storeHeld id then s.storeResult 1 else (s.closeStore id).storeResult 0
    | 3, x => (s.storeShown x).storeResult 0
    | 4, some x => if s.storeHeld id then s.storeResult 1 else (s.setStore id { tier := x.tier, quota := x.quota }).storeResult 0
    | 5, _ | 6, _ | 7, _ => s.storeResult 5
    | _, _ => s.storeResult 2

/-- STATE_WM's write. -/
def stateWmHook : Hook := fun _ _ _ _ s => s.stateNotice

/-- A word of STORE_CMD with TIER and QUOTA as they stand. -/
def State.storeWord (s : State) (op id : Nat) : Word :=
  BitVec.ofNat 64 (id % 256 + op * 256 + s.fld RIPENER.TIER * 2 ^ 16 + s.fld RIPENER.QUOTA * 2 ^ 32)

/-- STORE_OPEN: STORE_CMD OPEN in a tier with a quota (R362). -/
def execStoreOpen (now : Nat) (req : Requester) (store tier quota : Nat) (s : State) : Host.Outcome State Fault Refusal :=
  .next ((s.at now).regWrite req 0x0AC 0x100
    (BitVec.ofNat 64 (store % 256 + 256 + tier % 4 * 2 ^ 16 + quota % 2 ^ 17 * 2 ^ 32)) storeCmdHook)

/-- STORE_CLOSE: STORE_CMD CLOSE (R362). -/
def execStoreClose (now : Nat) (req : Requester) (store : Nat) (s : State) : Host.Outcome State Fault Refusal :=
  let s := s.at now
  .next (s.regWrite req 0x0AC 0x100 (s.storeWord 2 store) storeCmdHook)

/-- STORE_READ: STORE_CMD READ (R362). -/
def execStoreRead (now : Nat) (req : Requester) (store : Nat) (s : State) : Host.Outcome State Fault Refusal :=
  let s := s.at now
  .next (s.regWrite req 0x0AC 0x100 (s.storeWord 3 store) storeCmdHook)

/-- STORE_CLEAR: STORE_CMD CLEAR (R362). -/
def execStoreClear (now : Nat) (req : Requester) (store : Nat) (s : State) : Host.Outcome State Fault Refusal :=
  let s := s.at now
  .next (s.regWrite req 0x0AC 0x100 (s.storeWord 4 store) storeCmdHook)

end Sys2Proof.Machine
end

