-- ==== Sys2Proof/Machine/LadleCmds.lean ====
section
/-! DEFINITION. Commands of the embedding tables and messages of gathers, steps and migrations (chapter 19; rows TBL_CREATE to PREFETCH). -/

namespace Sys2Proof.Machine

open Sys2Proof.Reg

/-! Table commands (R402, Table 19-4). Where several results hold, the model takes BAD_OP, NOT_LEAD, then the others in the order of the table. -/

/-- CREATE: `host` holds the default row where it lies in host memory, `room` says that the device can store it and the shard maps. -/
def State.tblMake (s : State) (t : Nat) (host : Option Bytes) (room : Bool) : State :=
  let dtype := s.fld LADLE.DTYPE
  let dim := s.fld LADLE.DIM
  let a := s.fld LADLE.DEFAULT_ADDR
  let size := rowSize dtype dim
  if (s.ltable t).isSome then s.tblResult 1
  else if !tableOk dtype (s.fld LADLE.HOME) dim (s.fld LADLE.ROWS) then s.tblResult 3
  else if !room then s.tblResult 5
  else
    let r : Bytes × State :=
      if a = 0 then (zeros size, s)
      else if spaceOf a = .host then
        match host with
        | some b => (fitTo b size, s)
        | none => s.openBytes size
      else (s.loadBytes a size, s)
    let x : LTable := {
      dtype := dtype, dim := dim, home := s.fld LADLE.HOME, rows := s.fld LADLE.ROWS, seed := s.fld LADLE.SEED, quota := s.fld LADLE.CREAM_QUOTA,
      dflt := r.1, members := r.2.memberList }
    r.2.tblStart 1 t (tablePayload x)

/-- BIND of a table on this node (R383). A Cellar address needs a namespace from 1 to 16 and zero reserved bits, a host array must lie in the
host window. DEDUCED (log 31). -/
def State.tblBind (s : State) (t : Nat) : State :=
  let a := s.fld LADLE.BIND_ADDR
  match s.ltable t with
  | none => s.tblResult 2
  | some x =>
    let fits : Bool := match x.home with
      | 2 => decide (a + x.rows * x.stride ≤ 0x400000000000)
      | 3 => decide (a < 2 ^ 60) && decide (1 ≤ a / 2 ^ 48 % 256) && decide (a / 2 ^ 48 % 256 ≤ 16)
      | _ => false
    if fits then (s.updTable t fun y => { y with bind := some a }).tblResult 0 else s.tblResult 3

/-- READ and SHARD. -/
def State.tblShow (s : State) (t : Nat) : State :=
  let x := s.ltable t
  ((s.setFld LADLE.T_EXISTS (ofBool x.isSome)).setFld LADLE.T_BOUND (ofBool (x.any fun (y : LTable) => y.bind.isSome))).tblResult
    (if x.isSome then 0 else 2)

def State.tblOwner (s : State) (t : Nat) : State :=
  match s.ltable t with
  | none => s.tblResult 2
  | some x => (s.setFld LADLE.OWNER (x.owner (s.fld LADLE.SHARD))).tblResult 0

/-- TBL_CMD's write. -/
def tblCmdHook (host : Option Bytes) (room : Bool) : Hook := fun req page _ seen s =>
  let op := bitsOf seen 18 16
  let t := bitsOf seen 11 0
  if op = 0 then s
  else if s.bit LADLE.BUSY || !s.tiersReady then s.raiseBy req page 17 0x100
  else
    match op with
    | 3 => s.tblShow t
    | 4 => s.tblBind t
    | 6 => s.tblOwner t
    | 7 => s.tblResult 6
    | _ =>
      if !s.isLead then s.tblResult 4
      else if op = 1 then s.tblMake t host room
      else if op = 2 ∧ s.tblInUse t then s.tblResult 1
      else if (s.ltable t).isNone then s.tblResult 2
      else s.tblStart op t []

/-- A word of TBL_CMD. -/
def tblWord (op t : Nat) : Word := BitVec.ofNat 64 (t % 4096 + op * 2 ^ 16)

/-- A write of TBL_CMD. -/
def State.tblCmd (s : State) (req : Requester) (op t : Nat) : State := s.regWrite req 0x0C0 0x100 (tblWord op t) (tblCmdHook none true)

/-- TBL_CREATE: TBL_CMD CREATE (R402). -/
def execTblCreate (now : Nat) (req : Requester) (table : Nat) (host : Option Bytes) (room : Bool) (s : State) : Host.Outcome State Fault Refusal :=
  .next ((s.at now).regWrite req 0x0C0 0x100 (tblWord 1 table) (tblCmdHook host room))

/-- TBL_DESTROY: TBL_CMD DESTROY (R402). -/
def execTblDestroy (now : Nat) (req : Requester) (table : Nat) (s : State) : Host.Outcome State Fault Refusal :=
  .next ((s.at now).tblCmd req 2 table)

/-- TBL_READ: TBL_CMD READ (R402). -/
def execTblRead (now : Nat) (req : Requester) (table : Nat) (s : State) : Host.Outcome State Fault Refusal :=
  .next ((s.at now).tblCmd req 3 table)

/-- TBL_BIND: TBL_CMD BIND (R383). -/
def execTblBind (now : Nat) (req : Requester) (table : Nat) (s : State) : Host.Outcome State Fault Refusal :=
  .next ((s.at now).tblCmd req 4 table)

/-- TBL_INVALIDATE: TBL_CMD INVALIDATE (R402). -/
def execTblInvalidate (now : Nat) (req : Requester) (table : Nat) (s : State) : Host.Outcome State Fault Refusal :=
  .next ((s.at now).tblCmd req 5 table)

/-- TBL_SHARD: TBL_CMD SHARD (R402). -/
def execTblShard (now : Nat) (req : Requester) (table : Nat) (s : State) : Host.Outcome State Fault Refusal :=
  .next ((s.at now).tblCmd req 6 table)

/-- TBL_CMD_DONE: every member has applied the lead's command (R402). -/
def execTblCmdDone (now : Nat) (s : State) : Host.Outcome State Fault Refusal :=
  let s := s.at now
  .next (match s.ladle.cmd with
    | none => s
    | some c => if c.missing.isEmpty then (s.modLadle fun l => { l with cmd := none }).tblResult c.result else s)

/-! Messages (R389, R394, R396, R420). -/

/-- An engine request that has arrived, its run joined (R418): `f` takes its whole payload; the messages of a run before the last are
answered OK. -/
def State.engineServe (s : State) (p : Packet) (f : State → Bytes → State × Option Nat) : State :=
  if !s.power.released then s
  else s.onRequest p fun s =>
    let r := s.joinRun p
    match r.2 with
    | none => (r.1.reply p 0 0 0 [], some 0)
    | some payload => f r.1 payload

/-- A request answered OK once it is applied. -/
def State.okServe (s : State) (p : Packet) (f : State → Bytes → State) : State :=
  s.engineServe p fun s payload => ((f s payload).reply p 0 0 0 [], some 0)

/-- GATHER: a request for rows (R386, R420). `far` holds the rows, in order, of a table whose home is the host or a drive. -/
def execGather (now : Nat) (p : Packet) (far : List Bytes) (s : State) : Host.Outcome State Fault Refusal :=
  .next ((s.at now).engineServe p fun s _ => s.gatherServe p far)

/-- UPDATE: updates reach their owner (R389, R420). -/
def execUpdate (now : Nat) (p : Packet) (s : State) : Host.Outcome State Fault Refusal :=
  .next ((s.at now).engineServe p fun s payload => s.updateServe p payload)

/-- SENT: a node of the set has sent its updates (R389). -/
def execSent (now : Nat) (p : Packet) (s : State) : Host.Outcome State Fault Refusal :=
  .next ((s.at now).okServe p fun s payload => s.sentHere p.job p.stage p.src (ownersOf payload))

/-- STEP_CLOSE: an owner applies a step (R389 to R392). `far` holds the touched rows of host and Cellar homes. -/
def execStepClose (now : Nat) (p : Packet) (far : List Bytes) (s : State) : Host.Outcome State Fault Refusal :=
  .next ((s.at now).engineServe p fun s _ => (s.closeStep p far, none))

/-- APPLIED: an owner's answer to STEP_CLOSE reaches the coordinator (R389). -/
def execApplied (now : Nat) (p : Packet) (s : State) : Host.Outcome State Fault Refusal :=
  let s := s.at now
  .next (if s.power.released && p.subtype == 0x13 then s.response p else s)

/-- STEP_DONE: a step is over (R389). -/
def execStepDone (now : Nat) (p : Packet) (s : State) : Host.Outcome State Fault Refusal :=
  .next ((s.at now).okServe p fun s _ => s.stepDoneHere p.job p.stage (p.arg1 % 256))

/-- LOAD_REPORT: a node's load reaches the lead (R394). -/
def execLoadReport (now : Nat) (p : Packet) (s : State) : Host.Outcome State Fault Refusal :=
  .next ((s.at now).okServe p fun s payload => s.loadHere p.arg0 (reportOf p.src p.arg1 payload))

/-- PREP: a migration starts at an owner (R396). `far` holds the rows of the old owner's array that the new owner copies. -/
def execPrep (now : Nat) (p : Packet) (far : List (Nat × Bytes)) (s : State) : Host.Outcome State Fault Refusal :=
  .next ((s.at now).engineServe p fun s _ =>
    let m : Move := { id := p.arg1, tbl := p.obj, shard := p.arg0 % 65536, old := p.arg0 / 2 ^ 16 % 65536, new := p.arg0 / 2 ^ 32 % 65536 }
    if (s.ltable p.obj).isNone then (s.reply p 0xB0 0 0 [], some 0xB0)
    else (s.prepHere m (some p) far, if m.old = s.node.id then some 0 else none))

/-- SHARD_COPY: rows of a migrating shard arrive (R396). -/
def execShardCopy (now : Nat) (p : Packet) (s : State) : Host.Outcome State Fault Refusal :=
  .next ((s.at now).okServe p fun s payload => s.copyHere p.arg1 p.obj (bitAt p.arg0 32) payload)

/-- COMMIT: a shard's new owner and its EFFECTIVE tide (R396). -/
def execCommit (now : Nat) (p : Packet) (s : State) : Host.Outcome State Fault Refusal :=
  .next ((s.at now).okServe p fun s _ =>
    s.commitHere p.arg1 ⟨p.obj, p.arg0 % 65536, p.arg0 / 2 ^ 16 % 65536, p.arg0 / 2 ^ 32 % 65536, p.arg1⟩)

/-- The log entries of LOG_HANDOFF records, over `n` records. -/
def handoffOf (job stage t dim : Nat) (b : Bytes) : Nat → List LogEntry
  | 0 => []
  | n + 1 =>
    if b.length < 32 then []
    else
      let id := leAt b 0 8
      let k := if stage = 0xFFFF then idKey id else stepKey job stage
      updatesOf k id t dim (b.drop 8) 1 ++ handoffOf job stage t dim (b.drop (8 + roundUp (24 + 4 * dim) 8)) n

/-- LOG_HANDOFF: unapplied log entries reach a shard's new owner, which merges them (R396). -/
def execLogHandoff (now : Nat) (p : Packet) (s : State) : Host.Outcome State Fault Refusal :=
  .next ((s.at now).engineServe p fun s payload =>
    match s.ltable p.obj with
    | none => (s.reply p 0xB0 0 0 [], some 0xB0)
    | some x =>
      match s.setLog (s.ladle.log ++ handoffOf p.job p.stage p.obj x.dim payload (payload.length / 32)) with
      | some s1 => s1.ackHeld p 0
      | none => (s.reply p 0x42 0 0 [], some 0x42))

/-- TABLE_CMD: a member applies the lead's table command (R402, R420). -/
def execTableCmd (now : Nat) (p : Packet) (s : State) : Host.Outcome State Fault Refusal :=
  .next ((s.at now).engineServe p fun s payload =>
    let op := p.arg0 % 256
    let s1 := s.tableCmd op p.obj payload
    if op = 1 then (s1.reply p 0 0 0 [], some 0) else s1.ackHeld p 0)

/-- CANCEL: a migration is cancelled (R396). -/
def execCancel (now : Nat) (p : Packet) (s : State) : Host.Outcome State Fault Refusal :=
  .next ((s.at now).okServe p fun s _ => s.cancelHere p.arg1)

/-- PREFETCH: rows of a GATHER stage's next slice are gathered ahead (R399). -/
def execPrefetch (now job stage rows : Nat) (s : State) : Host.Outcome State Fault Refusal :=
  .next ((s.at now).prefetch job stage rows)

end Sys2Proof.Machine
end

