-- ==== Sys2Proof/Machine/HerdCmds.lean ====
section
/-! DEFINITION. Messages of membership, twins and boot delivery, and the HERD and TWIN pages (chapter 21; rows LEAD_CLAIM to BOOT_FALLBACK,
MEMBER_SET_RESEND, HANDBACK_TRANSFER_DONE). -/

namespace Sys2Proof.Machine

open Sys2Proof.Reg

/-- This node is the lead, or forms a herd as its lead. -/
def State.actsAsLead (s : State) : Bool := s.isLead || (s.herd.derived.isSome && s.ownId == s.herd.lead)

/-- A message takes effect only while module reset is released. -/
def State.whileUp (s : State) (f : State → State) : State := if s.power.released then f s else s

/-- LEAD_CLAIM: a claim arrives on a link (R439, R445). -/
def execLeadClaim (now link : Nat) (p : Packet) (s : State) : Host.Outcome State Fault Refusal :=
  if 6 ≤ link then .fault .noSuchUnit else .next ((s.at now).whileUp fun s => s.claimHeard link p.body)

/-- FORM_MS_EXPIRE: FORM_MS has passed (R439, R441, R442, R445). -/
def execFormMsExpire (now : Nat) (s : State) : Host.Outcome State Fault Refusal :=
  .next ((s.at now).whileUp fun s => s.formExpire)

/-- HERD_FORM: a HERD_FORM arrives on a link, or by route as link 6 (R440, R447). -/
def execHerdForm (now link : Nat) (p : Packet) (s : State) : Host.Outcome State Fault Refusal :=
  if 7 ≤ link then .fault .noSuchUnit else .next ((s.at now).whileUp fun s => s.formHeard link p.body)

/-- JOIN: the lead hears it; the twin that hosts the node begins the return of its state; other nodes pass it on (R441, R458). -/
def execJoin (now : Nat) (p : Packet) (s : State) : Host.Outcome State Fault Refusal :=
  .next ((s.at now).whileUp fun s =>
    let j := joinOf p.body
    if s.actsAsLead then s.joinHeard j
    else if s.twin.hosting = some j.node then s.startReturn j.node
    else s.sendUp p.src p.body)

/-- The whole set that parts make up, once PART 0 to the part with LAST are here. -/
def wholeSet (parts : List SetPart) : Option MemberSet :=
  let ps := sortBy (fun (a b : SetPart) => decide (a.part ≤ b.part)) parts
  match ps.getLast? with
  | none => none
  | some l =>
    if l.last && decide (ps.length = l.part + 1) then
      ps.head?.map fun h => { h.body with entries := ps.flatMap (·.body.entries), links := ps.flatMap (·.body.links) }
    else none

/-- MEMBER_SET: a part of a membership set arrives on a link: acknowledged, passed on along SPARE links during formation, and the whole set
held until it takes effect (R441, R443, R461). -/
def execMemberSet (now link : Nat) (p : Packet) (s : State) : Host.Outcome State Fault Refusal :=
  if 6 ≤ link then .fault .noSuchUnit else .next ((s.at now).whileUp fun s =>
    let x := setPartOf p.body
    let known := s.herd.parts.any (fun y => y.seq == x.seq && y.part == x.part) || s.herd.lastSet.any (fun l => decide (x.seq ≤ l)) ||
      s.herd.pendingSets.any fun m => m.seq == x.seq
    let s1 := s.sendUp s.ownId (memberAckBody x.seq x.part)
    if known then s1
    else
      let hop := x.body.kind = 0 ∨ (x.body.kind = 1 ∧ s.fld HERD.STATE = 3)
      let s2 := if hop then ((s1.linksIn 2).filter fun j => j != link).foldl (fun (s : State) j => s.sendFrom j (s.mateOf j) s.ownId p.body) s1
        else s1
      let s3 := s2.modHerd fun h => { h with parts := h.parts ++ [x] }
      match wholeSet (s3.herd.parts.filter fun y => y.seq == x.seq) with
      | none => s3
      | some m => (s3.modHerd fun h => { h with parts := h.parts.filter fun y => y.seq != x.seq }).holdSet m)

/-- MEMBER_ACK: a member has a part of a set (R461); before the herd is formed it is passed on toward the lead. -/
def execMemberAck (now : Nat) (p : Packet) (s : State) : Host.Outcome State Fault Refusal :=
  .next ((s.at now).whileUp fun s =>
    let seq := leAt p.body 4 4
    let part := leAt p.body 8 2
    if s.actsAsLead then
      s.modHerd fun h => { h with waits := (h.waits.map fun w =>
        if w.set.seq = seq then { w with missing := w.missing.filter fun e => !(e.1 == part && e.2 == p.src) } else w).filter fun w =>
          !w.missing.isEmpty }
    else s.sendUp p.src p.body)

/-- ELECT_ACK: a member's answer to this node's claim, with its KEEPER (R445). -/
def execElectAck (now : Nat) (p : Packet) (s : State) : Host.Outcome State Fault Refusal :=
  .next ((s.at now).whileUp fun s =>
    if s.herd.electAt.isSome then
      s.modHerd fun h => { h with electAcks := Table.put h.electAcks (leAt p.body 2 2) (leAt p.body 8 8) }
    else s)

/-- LEAVE: the lead removes the node (R444). -/
def execLeave (now : Nat) (p : Packet) (s : State) : Host.Outcome State Fault Refusal :=
  .next ((s.at now).whileUp fun s => if s.isLead then s.removeNode (leAt p.body 2 2) else s)

/-- LEAD_TAKEOVER: the lead's twin has heard nothing for the loss span (R457). -/
def execLeadTakeover (now : Nat) (s : State) : Host.Outcome State Fault Refusal :=
  .next ((s.at now).whileUp fun s => s.takeOver)

/-- ISOLATED: a member has neither an ACTIVE link nor a beat (R446). -/
def execIsolated (now : Nat) (s : State) : Host.Outcome State Fault Refusal :=
  .next ((s.at now).whileUp fun s => s.isolate)

/-- TWIN_PAIR: a node's report of its pair reaches the lead, or the lead's answer a twin (R448). -/
def execTwinPair (now : Nat) (p : Packet) (s : State) : Host.Outcome State Fault Refusal :=
  .next ((s.at now).whileUp fun s =>
    let node := leAt p.body 2 2
    let partner := leAt p.body 4 2
    if s.isLead then s.pairHeard node partner (byteAt p.body 6)
    else if partner = s.node.id then s.pairForm node
    else s)

/-- An engine answer put on a link, whatever its routes (R448). -/
def State.replyLink (s : State) (k : Nat) (p : Packet) : State :=
  let r : Packet := { dst := p.src, src := p.dst, typ := 0x83, gen := p.gen, tag := p.tag, reqSeq := p.reqSeq, subtype := p.subtype, body := rspBody p 0 0 [] }
  (s.emit (.packet k r)).linkSend k (flitsOf (s.link k).secure 0 r)

/-- MIRROR: a message of a run of the partner's state arrives on the twin link; the whole run is held for its cut (R422, R451). -/
def execMirror (now link : Nat) (p : Packet) (s : State) : Host.Outcome State Fault Refusal :=
  .next ((s.at now).whileUp fun s =>
    if s.twinLink ≠ some link then s
    else
      match s.arrival p.dst p.src p.reqSeq with
      | .below => s
      | .duplicate _ => (s.count ROUTE.DUP_REQUESTS 1).replyLink link p
      | .fresh =>
        let r := s.joinRun p
        let s1 := match r.2 with
          | none => r.1
          | some image => r.1.modTwin fun t => { t with incoming := t.incoming ++ [MirrorObj.mk (p.arg0 / 2 ^ 32 % 1024) p.arg1 image] }
        (s1.replyLink link p).marked p 0)

/-- TWIN_CUT: the partner's cut is whole: the mirror takes it and it is acknowledged (R451). -/
def execTwinCut (now link : Nat) (p : Packet) (s : State) : Host.Outcome State Fault Refusal :=
  .next ((s.at now).whileUp fun s =>
    if s.twin.paired && s.twinLink == some link then s.twinCut link (leAt p.body 4 4) (leAt p.body 8 8) (leAt p.body 16 8) else s)

/-- TWIN_ACK: the partner has applied a cut of this node (R452). -/
def execTwinAck (now link : Nat) (p : Packet) (s : State) : Host.Outcome State Fault Refusal :=
  .next ((s.at now).whileUp fun s => if s.twinLink = some link then s.twinAck (leAt p.body 4 4) else s)

/-! HERD_CTRL (R442 to R444, R462). -/

/-- The body of LEAVE. -/
def leaveBody (node : Nat) : Bytes := leBytes 1 0x26 ++ zeros 1 ++ leBytes 2 node

/-- JOIN written: an ALONE node without a job in flight takes up the herd's offer, or waits for one (R442). -/
def State.herdJoin (s : State) (req : Requester) : State :=
  if s.fld HERD.STATE ≠ 1 then s
  else if !s.work.jobs.isEmpty then s.raiseBy req 0x0D9 18 0x118
  else
    let s1 : State := { s with node := ⟨s.node.id, false⟩ }
    match s.herd.offer with
    | some o => (s1.setFld HERD.STATE 2).derive o.1 o.2
    | none => s1.setFld HERD.STATE 0

/-- LEAVE written by a member. -/
def State.herdLeave (s : State) : State :=
  if s.fld HERD.STATE ≠ 3 then s
  else if s.isLead then s.removeNode s.node.id
  else s.sendUp s.node.id (leaveBody s.node.id)

/-- HERD_CTRL's write: one that sets neither JOIN nor LEAVE writes ADMIT_ID. -/
def herdCtrlHook : Hook := fun req page _ seen s =>
  let join := seen.getLsbD 0
  let leave := seen.getLsbD 1
  if !join && !leave then
    if s.isLead then s.admitNode (bitsOf seen 31 16) else s.raiseBy req page 18 0x118
  else
    let s1 := if join then s.herdJoin req else s
    if leave then s1.herdLeave else s1

/-- TWIN_CFG's write: a member whose twin link is ACTIVE reports the pair (R448). -/
def twinCfgHook : Hook := fun _ _ old _ s =>
  if bitsOf old 2 0 = s.fld TWIN.LINK then s else (s.modTwin fun t => { t with asked := t.paired }).pairSettle

/-- HERD_JOIN: a write of HERD_CTRL.JOIN (R442). -/
def execHerdJoin (now : Nat) (req : Requester) (s : State) : Host.Outcome State Fault Refusal :=
  .next ((s.at now).regWrite req 0x0D9 0x118 1#64 herdCtrlHook)

/-- HERD_LEAVE: a write of HERD_CTRL.LEAVE (R444). -/
def execHerdLeave (now : Nat) (req : Requester) (s : State) : Host.Outcome State Fault Refusal :=
  .next ((s.at now).regWrite req 0x0D9 0x118 2#64 herdCtrlHook)

/-- ADMIT_ID: a write of HERD_CTRL.ADMIT_ID (R443, R462). -/
def execAdmitId (now : Nat) (req : Requester) (node : Nat) (s : State) : Host.Outcome State Fault Refusal :=
  .next ((s.at now).regWrite req 0x0D9 0x118 (BitVec.ofNat 64 (node % 65536 * 65536)) herdCtrlHook)

/-! Boot delivery (R461, R492). -/

/-- BOOT_REQ: a request for the runtime image arrives on a link. -/
def execBootReq (now link : Nat) (p : Packet) (s : State) : Host.Outcome State Fault Refusal :=
  if 6 ≤ link then .fault .noSuchUnit else .next ((s.at now).whileUp fun s => s.bootReq link p)

/-- BOOT_DATA: a chunk of the runtime image arrives on a link. -/
def execBootData (now link : Nat) (p : Packet) (s : State) : Host.Outcome State Fault Refusal :=
  if 6 ≤ link then .fault .noSuchUnit else .next ((s.at now).whileUp fun s => s.bootData link p)

/-- BOOT_FALLBACK: the lead's delivery has failed or has timed out. -/
def execBootFallback (now : Nat) (s : State) : Host.Outcome State Fault Refusal :=
  .next ((s.at now).whileUp fun s => s.bootFallback)

/-- MEMBER_SET_RESEND: during formation the lead sends again what is not acknowledged (R461). -/
def execMemberSetResend (now : Nat) (s : State) : Host.Outcome State Fault Refusal :=
  .next ((s.at now).whileUp fun s => if s.actsAsLead then s.resendSets else s)

/-- HANDBACK_TRANSFER_DONE: a hosted node's state has reached it, and the lead admits it again (R458). -/
def execHandbackTransferDone (now node : Nat) (s : State) : Host.Outcome State Fault Refusal :=
  .next ((s.at now).whileUp fun s => if s.isLead && Table.has s.herd.aliases node then s.admitNode node else s)

end Sys2Proof.Machine
end

