-- ==== Sys2Proof/Machine/ServeCmds.lean ====
section
/-! DEFINITION. Serving's commands (chapter 22; rows SERVE_ENABLE to SVC_READ). -/

namespace Sys2Proof.Machine

open Sys2Proof.Reg

/-- AQ_WM's write. -/
def aqWmHook : Hook := fun _ _ _ _ s => s.aqNotice

/-- The effect of each register of the SERVE page. `host` holds what a service's plan and bindings are where they lie in host memory. -/
def servePageHook (host : Memory) (off : Nat) : Hook :=
  if off = 0x100 then serveCfgHook
  else if off = 0x108 then reserveHook
  else if off = 0x110 then svcHook host
  else if off = 0x130 then aqWmHook
  else if 0x200 ≤ off ∧ off < 0x600 then
    (if (off - 0x200) % 0x40 = 0 then serveRingHook ((off - 0x200) / 0x40) else serveRingFixed ((off - 0x200) / 0x40) off)
  else if 0x600 ≤ off ∧ off < 0xA00 then serveRingFixed ((off - 0x600) / 0x40) off
  else noHook

/-- SERVE_ENABLE: a write of SERVE_CFG.ENABLE, the other fields as they are (R466, R467). -/
def execServeEnable (now : Nat) (req : Requester) (enable : Bool) (s : State) : Host.Outcome State Fault Refusal :=
  let s := s.at now
  .next (s.regWrite req 0x0E0 0x100 (putBits (s.word 0 0x0E0 0x100) 0 0 (ofBool enable)) (servePageHook [] 0x100))

/-- SERVE_RING_ENABLE: a write of a request ring's ENABLE, the other fields as they are (R483). -/
def execServeRingEnable (now : Nat) (req : Requester) (ring : Nat) (enable : Bool) (s : State) : Host.Outcome State Fault Refusal :=
  if 16 ≤ ring then .fault .noSuchUnit
  else
    let s := s.at now
    let off := 0x200 + 0x40 * ring
    .next (s.regWrite req 0x0E0 off (putBits (s.word 0 0x0E0 off) 57 57 (ofBool enable)) (servePageHook [] off))

/-- PROD: an 8-byte write of PROD to an enabled ring's request region (R472). -/
def execProd (now ring value : Nat) (s : State) : Host.Outcome State Fault Refusal :=
  if 16 ≤ ring then .fault .noSuchUnit
  else
    let s := s.at now
    .next (match s.reqRegion ring with
      | some g =>
        if s.power.released && s.host.p0Up && s.bit (SERVE.R_ENABLE.at ring) then (s.storeBytes g.base (leBytes 8 value)).takeProd ring value else s
      | none => s)

/-- ADMISSION: the slot at CONS of a ring is copied (R473). -/
def execAdmission (now ring : Nat) (s : State) : Host.Outcome State Fault Refusal :=
  if 16 ≤ ring then .fault .noSuchUnit
  else
    let s := s.at now
    let x := s.serveRing ring
    .next (match s.reqRegion ring with
      | some g =>
        if s.power.released && s.bit SERVE.ENABLE && s.bit (SERVE.R_ENABLE.at ring) && x.prod != x.cons then s.admitNext ring g else s
      | none => s)

/-- REQUEST_DEADLINE: a request is unanswered at its deadline (R474). -/
def execRequestDeadline (now request : Nat) (s : State) : Host.Outcome State Fault Refusal :=
  let s := s.at now
  .next (match s.request? request with
    | some q => if q.deadline ≤ s.chrono ∧ q.status ≠ 0xCA ∧ q.status ≠ 0xC8 then s.abandon request else s
    | none => s)

/-- TX_SLOT_FREE: the adapter's consumed index at HEAD_ADDR has been read (R477). -/
def execTxSlotFree (now ring head : Nat) (s : State) : Host.Outcome State Fault Refusal :=
  if 16 ≤ ring then .fault .noSuchUnit
  else
    let s := s.at now
    let x := s.serveRing ring
    let d := s.txDepth ring
    .next (if x.reading && s.host.p0Up then
      (s.setServeRing ring { x with reading := false, head := x.head + (head % d + d - x.head % d) % d }).serveSettle ring
    else s)

/-- A word of SVC_CMD with its other fields as they stand. -/
def State.svcWord (s : State) (op slot : Nat) : Word :=
  BitVec.ofNat 64 (slot % 64 + op * 256 + s.fld SERVE.REQ_SLOT * 2 ^ 16 + s.fld SERVE.RESP_SLOT * 2 ^ 24 + s.fld SERVE.NBIND * 2 ^ 32)

/-- SVC_REGISTER: SVC_CMD REGISTER of the plan at SVC_PLAN and the bindings at SVC_BIND; `host` holds the bytes of those that lie in host
memory (R468). -/
def execSvcRegister (now : Nat) (req : Requester) (slot reqSlot respSlot nbind : Nat) (host : List (Nat × Byte)) (s : State) :
    Host.Outcome State Fault Refusal :=
  let w := slot % 64 + 256 + reqSlot % 256 * 2 ^ 16 + respSlot % 256 * 2 ^ 24 + nbind % 512 * 2 ^ 32
  .next ((s.at now).regWrite req 0x0E0 0x110 (BitVec.ofNat 64 w) (svcHook host))

/-- SVC_UNREGISTER: SVC_CMD UNREGISTER (R469). -/
def execSvcUnregister (now : Nat) (req : Requester) (slot : Nat) (s : State) : Host.Outcome State Fault Refusal :=
  let s := s.at now
  .next (s.regWrite req 0x0E0 0x110 (s.svcWord 2 slot) (svcHook []))

/-- SVC_UNREGISTER_DONE: the service has no request in flight (R469). -/
def execSvcUnregisterDone (now : Nat) (s : State) : Host.Outcome State Fault Refusal :=
  let s := s.at now
  .next (match s.serve.unreg with
    | none => s
    | some slot =>
      if s.serviceBusy slot then s
      else (s.modServe fun x => { x with services := Table.drop x.services slot, unreg := none }).svcResult 0)

/-- SVC_READ: SVC_CMD READ (R483). -/
def execSvcRead (now : Nat) (req : Requester) (slot : Nat) (s : State) : Host.Outcome State Fault Refusal :=
  let s := s.at now
  .next (s.regWrite req 0x0E0 0x110 (s.svcWord 3 slot) (svcHook []))

end Sys2Proof.Machine
end

