-- ==== Sys2Proof/Machine/RolarCmds.lean ====
section
/-! DEFINITION. Commands of Rolar: boot, fuses, locks, stage keys, SPDM, and management on M1 (chapter 23; rows RUNTIME_BOOT to ARB_LOST). -/

namespace Sys2Proof.Machine

open Sys2Proof.Reg

/-- The module's management answers: on M1 from MOD_PG on, on DOE while host port 0 is up (R487, R495). An answer on DOE leaves the resends
of M1's packet as they are. -/
def State.mgmt (s : State) (doe : Bool) (f : State → State) : State :=
  if s.pins.modPg && (!doe || s.host.p0Up) then
    (if doe then (f s).modRolar fun r => { r with resends := s.rolar.resends } else f s)
  else s

/-- M1 answers these only once the runtime runs (R495). -/
def State.mgmtRun (s : State) (f : State → State) : State := if s.pins.modPg && decide (s.fld ROLAR.STATE = 1) then f s else s

/-- BOOT_GO's write: a host boot of BOOT_LEN bytes at BOOT_ADDR, an address in the host window, whose bytes are given (R491). -/
def bootGoHook (image : Bytes) : Hook := fun _ _ _ seen s =>
  if bitAt seen.toNat 32 ∧ s.fld GLOBAL.BOOT_SRC = 2 ∧ s.fld ROLAR.STATE ≠ 1 then
    s.deliveredBoot (if spaceOf (s.fld ROLAR.BOOT_ADDR) = .host then image.take (s.fld ROLAR.BOOT_LEN) else []) 2
  else s

/-- ROLLBACK_CTRL's write. -/
def rollbackHook : Hook := fun _ _ _ seen s => if bitAt seen.toNat 0 then s.commitFuses else s

/-- LOCK_CTRL's write. -/
def lockCtrlHook : Hook := fun _ _ _ seen s => if bitAt seen.toNat 0 then s.lockdown 1 else s

/-- KEY_CMD's write; a command ends in it, so BUSY never reads 1 (R499). -/
def keyCmdHook (host : Bytes) : Hook := fun req _ _ seen s =>
  match bitsOf seen 10 8 with
  | 0 => s
  | 1 => s.keyLoad req host
  | 2 => s.keyRevoke req
  | 3 => s.keyRead
  | _ => s.keyResult 5

/-- The effect of page 0x001's registers; `host` holds host memory that a command names. -/
def rolarHook (host : Bytes) (off : Nat) : Hook :=
  match off with
  | 0x120 => bootGoHook host
  | 0x128 => rollbackHook
  | 0x130 => lockCtrlHook
  | 0x160 => keyCmdHook host
  | _ => noHook

/-! Boot, fuses, locks (R491, R493, R498). -/

/-- RUNTIME_BOOT: Rolar verifies and boots the runtime image from its boot source, or waits (R491). -/
def execRuntimeBoot (now : Nat) (s : State) : Host.Outcome State Fault Refusal :=
  .next ((s.at now).whileUp fun s => s.runtimeBoot)

/-- BOOT_GO: a write of BOOT_GO starts a host boot; `image` is what host memory holds at BOOT_ADDR (R491). -/
def execBootGo (now : Nat) (req : Requester) (image : Bytes) (s : State) : Host.Outcome State Fault Refusal :=
  let s := s.at now
  .next (s.regWrite req 0x001 0x120 (BitVec.ofNat 64 (s.fld ROLAR.BOOT_LEN + 2 ^ 32)) (bootGoHook image))

/-- ROLLBACK_COMMIT: a write of COMMIT (R493). -/
def execRollbackCommit (now : Nat) (req : Requester) (s : State) : Host.Outcome State Fault Refusal :=
  .next ((s.at now).regWrite req 0x001 0x128 1#64 rollbackHook)

/-- FUSE_BLOW_DONE: a fuse bit has finished programming, or has failed (R493). -/
def execFuseBlowDone (now : Nat) (ok : Bool) (s : State) : Host.Outcome State Fault Refusal :=
  .next ((s.at now).fuseDone ok)

/-- LOCKDOWN: a write of LOCK_CTRL.LOCKDOWN (R498). -/
def execLockdown (now : Nat) (req : Requester) (s : State) : Host.Outcome State Fault Refusal :=
  let s := s.at now
  .next (s.regWrite req 0x001 0x130 (BitVec.ofNat 64 (s.fld ROLAR.LOCK_DEADLINE_MS * 2 ^ 16 + 1)) lockCtrlHook)

/-- LOCK_DEADLINE: LOCK_DEADLINE_MS after release no LOCKDOWN has been written (R498). -/
def execLockDeadline (now : Nat) (s : State) : Host.Outcome State Fault Refusal :=
  let s := s.at now
  let ms := s.fld ROLAR.LOCK_DEADLINE_MS
  .next (if s.power.released && ms != 0 && !s.bit ROLAR.DONE && decide (s.pins.releaseAt + ms * 1000000 ≤ s.chrono) then s.lockdown 2 else s)

/-! Stage keys (R494, R499). -/

/-- A word of KEY_CMD. -/
def keyWord (op slot minSvn : Nat) : Word := BitVec.ofNat 64 (slot % 8 + op * 256 + minSvn % 2 ^ 32 * 2 ^ 32)

/-- KEY_LOAD: KEY_CMD LOAD; `host` holds the key's bytes where KEY_ADDR lies in host memory. -/
def execKeyLoad (now : Nat) (req : Requester) (slot minSvn : Nat) (host : Bytes) (s : State) : Host.Outcome State Fault Refusal :=
  .next ((s.at now).regWrite req 0x001 0x160 (keyWord 1 slot minSvn) (keyCmdHook host))

/-- KEY_REVOKE: KEY_CMD REVOKE. -/
def execKeyRevoke (now : Nat) (req : Requester) (slot : Nat) (s : State) : Host.Outcome State Fault Refusal :=
  let s := s.at now
  .next (s.regWrite req 0x001 0x160 (keyWord 2 slot (s.fld ROLAR.MIN_SVN)) (keyCmdHook []))

/-- KEY_READ: KEY_CMD READ. -/
def execKeyRead (now : Nat) (req : Requester) (slot : Nat) (s : State) : Host.Outcome State Fault Refusal :=
  let s := s.at now
  .next (s.regWrite req 0x001 0x160 (keyWord 3 slot (s.fld ROLAR.MIN_SVN)) (keyCmdHook []))

/-! SPDM (R487 to R489). Response codes and error codes: PRESUMED (log 32). -/

/-- GET_VERSION: answered with 1.3 alone; the negotiation begins again. -/
def execGetVersion (now : Nat) (doe : Bool) (s : State) : Host.Outcome State Fault Refusal :=
  .next ((s.at now).mgmt doe fun s => (s.setSpdmStep doe 1).answerMgmt 0x04 [0x13])

/-- GET_CAPABILITIES. -/
def execGetCapabilities (now : Nat) (doe : Bool) (s : State) : Host.Outcome State Fault Refusal :=
  .next ((s.at now).mgmt doe fun s => s.spdmAfter doe 1 fun s => (s.setSpdmStep doe 2).answerMgmt 0x61 [])

/-- NEGOTIATE_ALGORITHMS: the algorithms of Table 23-1 where the request offers them. -/
def execNegotiateAlgorithms (now : Nat) (doe offered : Bool) (s : State) : Host.Outcome State Fault Refusal :=
  .next ((s.at now).mgmt doe fun s => s.spdmAfter doe 2 fun s =>
    if offered then (s.setSpdmStep doe 3).answerMgmt 0x63 [] else s.spdmError 1)

/-- GET_DIGESTS: the digest of the slot 0 chain. -/
def execGetDigests (now : Nat) (doe : Bool) (s : State) : Host.Outcome State Fault Refusal :=
  .next ((s.at now).mgmt doe fun s => s.spdmAfter doe 3 fun s => s.answerMgmt 0x01 (Config.sha384 s.chain))

/-- GET_CERTIFICATE: a portion of the slot 0 chain. -/
def execGetCertificate (now : Nat) (doe : Bool) (slot off len : Nat) (s : State) : Host.Outcome State Fault Refusal :=
  .next ((s.at now).mgmt doe fun s => s.spdmAfter doe 3 fun s =>
    if slot = 0 ∧ off ≤ s.chain.length then s.answerMgmt 0x02 ((s.chain.drop off).take len) else s.spdmError 1)

/-- CHALLENGE: the chain's digest, and a signature with the alias key over what SPDM has the responder sign. -/
def execChallenge (now : Nat) (doe : Bool) (slot : Nat) (transcript : Bytes) (s : State) : Host.Outcome State Fault Refusal :=
  .next ((s.at now).mgmt doe fun s => s.spdmAfter doe 3 fun s =>
    if slot = 0 then s.answerMgmt 0x03 (Config.sha384 s.chain ++ s.sign transcript) else s.spdmError 1)

/-- GET_MEASUREMENTS: an index of Table 23-2 or all of them, as digests or raw, signed (R488). -/
def execGetMeasurements (now : Nat) (doe : Bool) (index : Nat) (raw : Bool) (transcript : Bytes) (s : State) :
    Host.Outcome State Fault Refusal :=
  .next ((s.at now).mgmt doe fun s => s.spdmAfter doe 3 fun s => s.measure index raw transcript)

/-- KEY_EXCHANGE: a session begins; at most 4 at once over both transports. -/
def execKeyExchange (now : Nat) (doe : Bool) (id : Nat) (transcript : Bytes) (s : State) : Host.Outcome State Fault Refusal :=
  .next ((s.at now).mgmt doe fun s => s.spdmAfter doe 3 fun s =>
    if 4 ≤ s.rolar.sessions.length then s.spdmError 0x0A
    else if (s.spdmSession doe id).isSome then s.spdmError 1
    else
      let r := s.openBytes 96
      (r.2.modRolar fun x => { x with sessions := x.sessions ++ [{ id := id, doe := doe, done := false }] }).answerMgmt 0x64 (r.1 ++ s.sign transcript))

/-- FINISH: a session completes or fails; over DOE with the physical function it sets AUTH_OK (R489). -/
def execFinish (now : Nat) (doe : Bool) (id : Nat) (ok : Bool) (s : State) : Host.Outcome State Fault Refusal :=
  .next ((s.at now).mgmt doe fun s => s.spdmFinish doe id ok)

/-- HEARTBEAT: keeps a session alive. -/
def execHeartbeat (now : Nat) (doe : Bool) (id : Nat) (s : State) : Host.Outcome State Fault Refusal :=
  .next ((s.at now).mgmt doe fun s => s.inSession doe id fun s => s.answerMgmt 0x68 [])

/-- KEY_UPDATE: a session's keys move on. -/
def execKeyUpdate (now : Nat) (doe : Bool) (id : Nat) (s : State) : Host.Outcome State Fault Refusal :=
  .next ((s.at now).mgmt doe fun s => s.inSession doe id fun s =>
    (s.modRolar fun r => { r with sessions := r.sessions.map fun x =>
      if x.doe == doe && x.id == id then { x with updates := x.updates + 1 } else x }).answerMgmt 0x69 [])

/-- END_SESSION: a session ends. -/
def execEndSession (now : Nat) (doe : Bool) (id : Nat) (s : State) : Host.Outcome State Fault Refusal :=
  .next ((s.at now).mgmt doe fun s => s.inSession doe id fun s => (s.dropSession doe id).answerMgmt 0x6C [])

/-- SPDM_UNSUPPORTED: a request outside the subset. -/
def execSpdmUnsupported (now : Nat) (doe : Bool) (s : State) : Host.Outcome State Fault Refusal :=
  .next ((s.at now).mgmt doe fun s => s.spdmError 7)

/-! MCTP and PLDM on M1 (R495). Answer layouts: PRESUMED (log 32). -/

/-- SET_ENDPOINT_ID: the bus owner assigns an endpoint ID; 0x00 and 0xFF are none. -/
def execSetEndpointId (now eid : Nat) (s : State) : Host.Outcome State Fault Refusal :=
  .next ((s.at now).mgmt false fun s =>
    if eid = 0 ∨ 255 ≤ eid then s.answerMgmt 0x101 [0x02]
    else (s.modRolar fun r => { r with eid := eid }).answerMgmt 0x101 [0x00, BitVec.ofNat 8 eid])

/-- GET_ENDPOINT_ID. -/
def execGetEndpointId (now : Nat) (s : State) : Host.Outcome State Fault Refusal :=
  .next ((s.at now).mgmt false fun s => s.answerMgmt 0x102 [0x00, BitVec.ofNat 8 s.rolar.eid])

/-- GET_MCTP_VERSION_SUPPORT: the versions of a message type, which the spec does not state; a type outside Table 23-4 has none. -/
def execGetMctpVersionSupport (now type : Nat) (s : State) : Host.Outcome State Fault Refusal :=
  .next ((s.at now).mgmt false fun s =>
    if [0x00, 0x01, 0x05, 0x06].contains type then (let r := s.openBytes 4; r.2.answerMgmt 0x104 ([0x00, 0x01] ++ r.1)) else s.answerMgmt 0x104 [0x80])

/-- GET_MESSAGE_TYPE_SUPPORT: the types of Table 23-4. -/
def execGetMessageTypeSupport (now : Nat) (s : State) : Host.Outcome State Fault Refusal :=
  .next ((s.at now).mgmt false fun s => s.answerMgmt 0x105 [0x00, 0x04, 0x00, 0x01, 0x05, 0x06])

/-- The PLDM types that Table 23-4 names, as a mask of 8 bytes. -/
def pldmTypes : Bytes := leBytes 8 (2 ^ 0 + 2 ^ 2 + 2 ^ 5 + 2 ^ 63)

/-- PLDM_BASE: a PLDM type 0 command: SetTID, GetTID, GetPLDMTypes; the versions and command masks that the others answer are open. -/
def execPldmBase (now cmd arg : Nat) (s : State) : Host.Outcome State Fault Refusal :=
  .next ((s.at now).mgmt false fun s =>
    match cmd with
    | 1 => (s.modRolar fun r => { r with tid := arg % 256 }).answerMgmt 0x201 [0x00]
    | 2 => s.answerMgmt 0x202 [0x00, BitVec.ofNat 8 s.rolar.tid]
    | 3 => let r := s.openBytes 4; r.2.answerMgmt 0x203 (0x00 :: r.1)
    | 4 => s.answerMgmt 0x204 (0x00 :: pldmTypes)
    | 5 => let r := s.openBytes 32; r.2.answerMgmt 0x205 (0x00 :: r.1)
    | _ => s.answerMgmt (0x200 + cmd % 256) [0x05])

/-- A sensor's reading: P54V, DIE_TEMP and POWER of the LEAVE page, and the state of FAULT_N. -/
def State.sensor (s : State) (n : Nat) : Option Nat :=
  match n with
  | 0 => some (s.fld LEAVE.P54V)
  | 1 => some (s.fld LEAVE.DIE_TEMP)
  | 2 => some (Config.draw s.chrono % 2 ^ 16)
  | 3 => some (ofBool s.faultPinLow)
  | _ => none

/-- PLDM_SENSOR_READ: a numeric or state sensor, once the runtime runs. -/
def execPldmSensorRead (now sensor : Nat) (s : State) : Host.Outcome State Fault Refusal :=
  .next ((s.at now).mgmtRun fun s =>
    match s.sensor sensor with
    | some v => s.answerMgmt 0x211 (0x00 :: leBytes 2 v)
    | none => s.answerMgmt 0x211 [0x80])

/-- POLL_FOR_PLATFORM_EVENT_MESSAGE: the oldest pending event; the last one polled ends the alert (R36, R495). -/
def execPollForPlatformEventMessage (now : Nat) (s : State) : Host.Outcome State Fault Refusal :=
  .next ((s.at now).mgmtRun fun s =>
    match s.platformEvents with
    | [] => s.answerMgmt 0x20B [0x00]
    | e :: es => { s with platformEvents := es }.answerMgmt 0x20B (0x00 :: leBytes 2 e))

/-- The flash slot that an update may write: the one of the pair that does not run. DESIGN CHOICE (log 33): where no image of the pair runs,
the one that would not be booted. -/
def State.inactiveSlot (s : State) (runtime : Bool) : Nat :=
  if runtime then
    let used := if s.fld ROLAR.STATE = 1 ∧ s.fld ROLAR.SRC = 3 then some (2 + s.fld ROLAR.BOOT_SLOT) else s.bootSlot 1 2
    if used = some 2 then 3 else 2
  else if s.fld ROLAR.ROLAR_SLOT = 0 then 1 else 0

/-- PLDM_FIRMWARE_UPDATE: an image as far as it was sent is written into the inactive slot of a pair; while Rolar waits, a valid runtime image
starts (R491, R495). -/
def execPldmFirmwareUpdate (now : Nat) (runtime : Bool) (image : Bytes) (s : State) : Host.Outcome State Fault Refusal :=
  .next ((s.at now).mgmt false fun s =>
    if (if runtime then 0x1000000 else 0x400000) < image.length then s.answerMgmt 0x51A [0x80]
    else
      let slot := s.inactiveSlot runtime
      let s1 := s.modRolar fun r => { r with flash := Table.put r.flash slot image }
      let s2 := if runtime && s1.fld ROLAR.STATE == 2 && s1.power.released then
          (if s1.imageValid 1 image then s1.startRuntime image 0 0 false else s1.verifyFail 1)
        else s1
      s2.answerMgmt 0x51A [0x00])

/-- A packet sent whole on M1 ends its resends (R497). -/
def State.m1Sent (s : State) : State := s.modRolar fun r => { r with resends := 0 }

/-- READ_REG: 8 bytes of a register, read as the control cores (R496). A read of PG_SYNC waits as R71 has it. -/
def execReadReg (now page off : Nat) (s : State) : Host.Outcome State Fault Refusal :=
  .next ((s.at now).mgmtRun fun s =>
    let r := s.page 0 page
    if off % 8 ≠ 0 ∨ 0x1000 ≤ off then (s.badWidth .m1 page off).m1Sent
    else if off = 0x048 ∧ presents .m1 page ∧ s.answers page ∧ r.held.any (fun h => h.by_ == .m1) then
      s.setPage 0 page { r with syncWait := r.syncWait ++ [.m1] }
    else (s.readReg .m1 page off).m1Sent)

/-- ARB_LOST: the device loses arbitration while it sends: it resends the packet at most 4 times, then drops it (R497). -/
def execArbLost (now : Nat) (s : State) : Host.Outcome State Fault Refusal :=
  .next ((s.at now).mgmt false fun s =>
    let s1 := s.count ROLAR.ARB_LOST 1
    if 4 ≤ s.rolar.resends then (s1.count ROLAR.ARB_DROPS 1).modRolar fun r => { r with resends := 0 }
    else s1.modRolar fun r => { r with resends := r.resends + 1 })

end Sys2Proof.Machine
end

