-- ==== Sys2Proof/Machine/FaultCmds.lean ====
section
/-! DEFINITION. Commands of the FAULT page (chapter 24; rows AUTO_WARM to FINJ_FIRE). -/

namespace Sys2Proof.Machine

open Sys2Proof.Reg

/-- A fault record as Table 24-2 lays it out. -/
def FaultRec.bytes (r : FaultRec) : Bytes :=
  leBytes 1 r.cls ++ leBytes 1 r.cause ++ leBytes 1 r.flags ++ leBytes 1 r.status ++ leBytes 2 r.page ++ leBytes 2 r.node ++ leBytes 4 r.seq ++
    leBytes 2 r.tag ++ zeros 2 ++ leBytes 8 r.tide ++ leBytes 8 r.detail ++ leBytes 8 r.chrono

/-- The five words of a record copied into FREC0 to FREC4. -/
def State.putFrec (s : State) (b : Bytes) : State :=
  (List.range 5).foldl (fun s k => s.setFld (FAULT.FREC.at k) (leAt b (8 * k) 8)) s

/-- POP (R514). -/
def State.popFault (s : State) : State :=
  match s.faults with
  | [] => s.putFrec (zeros 40)
  | r :: rs => ({ s with faults := rs }.setFld FAULT.QCOUNT rs.length).putFrec r.bytes

/-- FAULT_CTRL's write: ACK (R508), POP (R514). -/
def faultCtrlHook : Hook := fun _ _ _ seen s =>
  let s1 := if bitAt seen.toNat 0 then s.setFld FAULT.PENDING_CLASS 0 else s
  if bitAt seen.toNat 1 then s1.popFault else s1

/-- Whether a page's unit can leave service at a class 2 fault (R503). -/
def canLeaveService (page : Nat) : Bool := (blockOf page).isSome && !fatalPages.contains page

/-- The fault that FINJ.FIRE delivers (Table 24-6). -/
def State.injectFault (s : State) (kind page : Nat) : State :=
  let link := decide (0x0D0 ≤ page) && decide (page ≤ 0x0D5)
  match kind with
  | 1 => if decide (0x070 ≤ page) && decide (page ≤ 0x0C7) && (blockOf page).isSome then
      s.setPage 0 page { s.page 0 page with injectSlice := true } else s
  | 2 =>
    if page = 0x061 ∨ page = 0x062 then s.tierOut (page = 0x061) 1
    else if link then (s.unitFault 0 page 0x12 1 0).linkDrop (page - 0x0D0) id
    else if canLeaveService page then s.blockFault 0 page 0x12 1
    else s
  | 3 => if page = 0x0F0 then s.nodeFatal 0x21 1 else s
  | 4 => if link then
      s.linkDrop (page - 0x0D0) fun s => s.faultRecord ⟨2, 0x13, 1, 0, page, s.node.id, 0, 0, 0, 0, 0⟩ else s
  | _ => s

/-- FINJ's write (R513). -/
def finjHook : Hook := fun req _ _ seen s =>
  if bitAt seen.toNat 32 then
    if s.bit FAULT.INJ_ENABLE then s.injectFault (s.fld FAULT.FINJ_KIND) (s.fld FAULT.FINJ_PAGE) else s.raiseBy req 0x0F0 18 0x130
  else s

/-- The effect of page 0x0F0's registers. -/
def faultHook (off : Nat) : Hook :=
  match off with
  | 0x110 => faultCtrlHook
  | 0x130 => finjHook
  | _ => noHook

/-- AUTO_WARM: 10 ms after a class 3 record with AUTO_WARM set the device requests a warm reset (R506). -/
def execAutoWarm (now : Nat) (s : State) : Host.Outcome State Fault Refusal :=
  let s := s.at now
  .next (match s.fatalAt with
    | some t => if s.power.released && s.bit FAULT.AUTO_WARM && decide (t + 10000000 ≤ s.chrono) then s.warmReset 7 else s
    | none => s)

/-- FAULT_ACK: a write of FAULT_CTRL.ACK (R508). -/
def execFaultAck (now : Nat) (req : Requester) (s : State) : Host.Outcome State Fault Refusal :=
  .next ((s.at now).regWrite req 0x0F0 0x110 1#64 faultCtrlHook)

/-- POP: a write of FAULT_CTRL.POP (R514). -/
def execPop (now : Nat) (req : Requester) (s : State) : Host.Outcome State Fault Refusal :=
  .next ((s.at now).regWrite req 0x0F0 0x110 2#64 faultCtrlHook)

/-- FINJ_FIRE: a write of FINJ with FIRE (R513). -/
def execFinjFire (now : Nat) (req : Requester) (kind page : Nat) (s : State) : Host.Outcome State Fault Refusal :=
  .next ((s.at now).regWrite req 0x0F0 0x130 (BitVec.ofNat 64 (kind % 8 + page % 4096 * 2 ^ 16 + 2 ^ 32)) finjHook)

end Sys2Proof.Machine
end

