-- ==== Sys2Proof/Machine/HookTable.lean ====
section
/-! DEFINITION. What a write of any register does beside storing its fields, and the commands that write registers in general (R59 to R78;
rows REG_WRITE, WATERMARK_MARK_WRITE, WRITE_REG). -/

namespace Sys2Proof.Machine

open Sys2Proof.Reg

/-- LINK_CFG's write: FULL_TRAIN asks the next training for full equalisation (R406). -/
def linkCfgHook : Hook := fun _ page _ seen s =>
  if bitAt seen.toNat 1 then s.setLink (page - 0x0D0) { s.link (page - 0x0D0) with fullTrain := true } else s

/-- QUERY_DST's write: QUERY_RES shows the route of R425 from this node (R436). -/
def queryDstHook : Hook := fun _ _ _ seen s =>
  let d := bitsOf seen 15 0
  match (if s.node.valid then s.route d else none) with
  | some bits => ((s.setFld ROUTE.REACHABLE 1).setFld ROUTE.NEG bits).setFld ROUTE.HOPS (s.hops (s.place d) bits)
  | none => ((s.setFld ROUTE.REACHABLE 0).setFld ROUTE.NEG 0).setFld ROUTE.HOPS 0

/-- MARK and HYST of a tier. -/
def spillWmHook : Hook := fun _ _ _ _ s => s.spillNotices

/-- The effect of page 0x058's registers. -/
def tideHook (off : Nat) : Hook :=
  match off with
  | 0x100 => tideCfgHook
  | 0x118 => epochTuHook
  | 0x120 => hostTideHook
  | 0x148 => lagWmHook
  | 0x150 => lagWmHook
  | 0x180 => alarmSelHook
  | 0x188 => alarmTideHook
  | 0x190 => alarmCtrlHook
  | 0x1A0 => srcCmdHook
  | _ => noHook

/-- The effect of page 0x070's registers. -/
def intakeHook (off : Nat) : Hook :=
  match off with
  | 0x110 => dlogCtrlHook
  | 0x118 => dlogHeadHook
  | 0x100 => dlogConfigHook 0x100
  | 0x108 => dlogConfigHook 0x108
  | 0x128 => dlogConfigHook 0x128
  | _ => noHook

/-- The host memory that ROLAR's commands name. -/
def rolarHost (sup : Supply) (off : Nat) (s : State) : Bytes :=
  if off = 0x120 then Memory.load sup.host (s.fld ROLAR.BOOT_ADDR) (s.fld ROLAR.BOOT_LEN) else Memory.load sup.host (s.fld ROLAR.KEY_ADDR) 96

/-- The default row of a table to be created, where it lies in host memory: at most 4,096 elements of 8 bytes. -/
def defaultRow (sup : Supply) (s : State) : Option Bytes :=
  let a := s.fld LADLE.DEFAULT_ADDR
  if spaceOf a = .host then some (Memory.load sup.host a 32768) else none

/-- The effect of a block's own registers. -/
def blockHook (sup : Supply) (page off : Nat) : Hook :=
  match page, off with
  | 0x001, _ => fun req p old seen s => rolarHook (rolarHost sup off s) off req p old seen s
  | 0x002, 0x100 => leaveCfgHook
  | 0x002, 0x120 => pdCtrlHook
  | 0x003, 0x108 => resetCtrlHook
  | 0x004, 0x108 => calCtrlHook
  | 0x009, 0x100 => biasHook
  | 0x00A, _ => attachHook off
  | 0x050, 0x108 => ctrCmdHook
  | 0x050, 0x110 => flowCmdHook
  | 0x051, 0x100 => coreOosHook
  | 0x058, _ => tideHook off
  | 0x060, 0x100 => vatCfgHook
  | 0x060, 0x130 => regionHook sup.base
  | 0x061, 0x110 => spillWmHook
  | 0x062, 0x110 => spillWmHook
  | 0x063, 0x100 => cellarModeHook
  | 0x063, 0x110 => cellarCtrlHook sup.found
  | 0x070, _ => intakeHook off
  | 0x080, 0x108 => dictCmdHook
  | 0x0A0, _ => strainerHook off
  | 0x0AC, 0x100 => storeCmdHook
  | 0x0AC, 0x118 => stateWmHook
  | 0x0C0, 0x100 => fun req p old seen s => tblCmdHook (defaultRow sup s) sup.room req p old seen s
  | 0x0D8, 0x120 => queryDstHook
  | 0x0D9, 0x118 => herdCtrlHook
  | 0x0DA, 0x100 => twinCfgHook
  | 0x0E0, _ => servePageHook sup.host off
  | 0x0F0, _ => faultHook off
  | _, _ =>
    if firstPage page = 0x010 then ringHook off
    else if firstPage page = 0x0D0 ∧ off = 0x100 then linkCfgHook
    else noHook

/-- The effect of any register. -/
def hookOf (sup : Supply) (page off : Nat) : Hook := if isHeader off then headHook off else blockHook sup page off

/-- A 64-bit register write with the register's effect. -/
def State.writeReg (s : State) (sup : Supply) (req : Requester) (page off : Nat) (v : Word) : State :=
  s.regWrite req page off v (hookOf sup page off)

/-- A write request to the pages at a byte address of BAR0: one register, or several in ascending order; a part of a register, and an access
of at most 8 bytes that is not one whole register, is ignored (R63, R65). -/
def State.writeBar0 (s : State) (sup : Supply) (req : Requester) (a : Nat) (bs : Bytes) : State :=
  let last := (a + bs.length - 1) / 8
  if bs.isEmpty then s
  else if decide (bs.length ≤ 8) && !(decide (bs.length = 8) && decide (a % 8 = 0)) then s.badWidth req (a / 4096) (a % 4096)
  else
    (List.range (last - a / 8 + 1)).foldl (fun (s : State) i =>
      let r := (a / 8 + i) * 8
      if a ≤ r ∧ r + 8 ≤ a + bs.length then
        s.writeReg sup req (r / 4096) (r % 4096) (BitVec.ofNat 64 (leAt bs (r - a) 8))
      else s.badWidth req (r / 4096) (r % 4096)) s

/-- REG_WRITE: a write request of a requester to the register pages (R59 to R67, R76). -/
def execRegWrite (now : Nat) (req : Requester) (page off : Nat) (bytes : Bytes) (supply : Supply) (s : State) :
    Host.Outcome State Fault Refusal :=
  .next ((s.at now).writeBar0 supply req (page * 4096 + off) bytes)

/-- A MARK and a HYST in their places. -/
def wmWord (m h : Field) (mark hyst : Nat) : Word := putBits (putBits 0#64 m.hi m.lo mark) h.hi h.lo hyst

/-- WATERMARK_MARK_WRITE: a write of a watermark's MARK and HYST (R92, R136, R173, R219, R268, R362, R473). -/
def execWatermarkMarkWrite (now : Nat) (req : Requester) (which : Watermark) (mark hyst : Nat) (s : State) : Host.Outcome State Fault Refusal :=
  let s := s.at now
  let go (page off : Nat) (v : Word) (s : State) : State := s.writeReg {} req page off v
  match which with
  | .cream => .next (go 0x061 0x110 (wmWord CREAM.MARK CREAM.HYST mark hyst) s)
  | .skim => .next (go 0x062 0x110 (wmWord SKIM.MARK SKIM.HYST mark hyst) s)
  | .park => .next (go 0x00A 0x118 (wmWord ATTACH.MARK ATTACH.HYST mark hyst) s)
  | .damageLog => .next (go 0x070 0x128 (wmWord INTAKE.MARK INTAKE.HYST mark hyst) s)
  | .stores => .next (go 0x0AC 0x118 (wmWord RIPENER.MARK RIPENER.HYST mark hyst) s)
  | .lag => .next (go 0x058 0x150 (BitVec.ofNat 64 hyst) (go 0x058 0x148 (BitVec.ofNat 64 mark) s))
  | .admission => .next (go 0x0E0 0x130 (wmWord SERVE.MARK SERVE.HYST mark hyst) s)
  | .completion ring =>
    if 64 ≤ ring then .fault .noSuchUnit
    else .next (go (ringPage ring) 0x140 (wmWord RING.MARK RING.HYST mark hyst) s)

/-- Registers that WRITE_REG reaches (R496). -/
def m1Writes (page off : Nat) : Bool :=
  [0x000, 0x002, 0x0D9, 0x0DA].contains page || (page == 0x001 && [0x128, 0x130, 0x140, 0x148, 0x150, 0x158].contains off)

/-- WRITE_REG: 8 bytes written to a register as the control cores, where R496 allows it, else ERROR_INVALID_DATA. -/
def execWriteReg (now page off : Nat) (value : Word) (s : State) : Host.Outcome State Fault Refusal :=
  .next ((s.at now).mgmtRun fun s =>
    if !m1Writes page off then s.answerMgmt 0x3F02 [0x02]
    else if off % 8 ≠ 0 ∨ 0x1000 ≤ off then (s.badWidth .m1 page off).answerMgmt 0x3F02 [0x00]
    else (s.writeReg {} .m1 page off value).answerMgmt 0x3F02 [0x00])

end Sys2Proof.Machine
end

