-- ==== Sys2Proof/Machine/FarOps.lean ====
section
/-! DEFINITION. Accesses from outside to this node's memory and register image: BAR4, HDM, other nodes; those that wait for lines the host holds
or for pages under flip (R82, R112 to R115, R121, R122, R415; rows READ, WRITE, BULK_WRITE, BLOCK_RESET_END, BLOCK_RESET_TIMEOUT). -/

namespace Sys2Proof.Machine

open Sys2Proof.Reg

/-! BAR4 (R108, R122, R125). -/

/-- The region of a function that a range of its BAR4 lies in. DEDUCED (log 34): a range that no one region holds whole hits none. -/
def State.hitRegion (s : State) (fn off len : Nat) : Option Region :=
  (List.find? (fun (e : Nat × Region) =>
    e.2.owner == fn && decide (e.2.aperture ≤ off) && decide (off + len ≤ e.2.aperture + e.2.len)) s.tiers.regions).map (·.2)

/-- Whether a requester may reach a region through BAR4: an adapter by its entry's FUNC and PEER_WR or PEER_RD, any other by HOST_WR. -/
def State.bar4Allowed (s : State) (reqId : Nat) (g : Region) (write : Bool) : Bool :=
  let peers := (List.range 16).filter fun i => s.bit (HOSTIF.PEER_VALID.at i) && s.fld (HOSTIF.PEER_REQ_ID.at i) == reqId
  if peers.isEmpty then !write || g.hostWr
  else peers.any fun i => s.fld (HOSTIF.PEER_FUNC.at i) == g.owner && (if write then g.peerWr else g.peerRd)

/-- A request that hits no region or lacks the right (R122). -/
def State.bar4Deny (s : State) (fn len : Nat) (write : Bool) : State :=
  (if write then s else s.emit (.busData (zeros len) false)).accessDenied fn 0 0x008

/-- Every line that a range touches is poisoned (R121). -/
def State.poisonRange (s : State) (a len : Nat) : State :=
  let ls := (List.range ((a + len - 1) / 64 - a / 64 + 1)).map fun i => (a / 64 + i) * 64
  s.modTiers fun t => { t with poison := (ls.filter fun l => !t.poison.contains l) ++ t.poison }

/-- A range read for a requester outside: poison is passed on, an uncorrectable Vat word is counted (R84, R89, R121). -/
def State.readOut (s : State) (a len : Nat) : Bytes × Bool × State :=
  (s.loadBytes a len, (s.badWordIn a len).isSome || (s.poisonIn a len).isSome, (s.badWordIn a len).elim s fun w => s.vatUe w)

/-- A write from outside: stored, its lines poisoned where it carries poison. -/
def State.writeIn (s : State) (a : Nat) (bs : Bytes) (poisoned : Bool) : State :=
  let s1 := s.storeBytes a bs
  if poisoned then s1.poisonRange a bs.length else s1

/-- A BAR4 request served: 8 bytes written at the PROD of a serving ring announce its requests (R472). -/
def State.serveBar4 (s : State) (a len : Nat) (data : Option Bytes) (poisoned : Bool) : State :=
  match data with
  | none =>
    let r := s.readOut a len
    r.2.2.emit (.busData r.1 r.2.1)
  | some b =>
    let s1 := s.writeIn a b poisoned
    match (if poisoned then none else s1.prodRing a b.length) with
    | some r => s1.takeProd r (leNat b)
    | none => s1

/-! HDM (R112, R113, R115). -/

/-- The region of the physical function that a line of memory lies in, and whether its page is in host bias or the region line-coherent. -/
def State.hdmTracked (s : State) (a : Nat) : Bool :=
  s.tiers.regions.any fun (e : Nat × Region) =>
    decide (e.2.base ≤ a) && decide (a < e.2.base + e.2.len) && (e.2.lineCoherent || e.2.hostPages.contains ((a - e.2.base) / 4096))

/-- An HDM access waits: its page is under flip, or its line is being asked back. -/
def State.hdmHeld (s : State) (a : Nat) : Bool := s.flipping a 64 || s.host.snoops.any fun n => n.line == a

/-- A line that the host may now hold: tracked, the oldest line asked back where the filter is full (R115). -/
def State.track (s : State) (a : Nat) : State :=
  if s.host.snoopFilter.contains a then s
  else
    let s1 := match s.host.snoopFilter with
      | l :: _ => if 4194304 ≤ s.host.snoopFilter.length then (s.snoopLine l .evict).count COHERENCE.SF_EVICTIONS 1 else s
      | [] => s
    s1.modHost fun h => { h with snoopFilter := h.snoopFilter ++ [a] }

/-- An HDM access to a line served. -/
def State.serveHdm (s : State) (a : Nat) (data : Option Bytes) (poisoned : Bool) : State :=
  let tracked := s.hdmTracked a
  let s1 := if tracked then s else (s.count COHERENCE.BIAS_VIOLATIONS 1).raiseOwn 0x009 16
  match data with
  | some b => s1.writeIn a (fitTo b 64) poisoned
  | none =>
    let s2 := if tracked then s1.track a else s1
    let r := s2.readOut a 64
    r.2.2.emit (.busData r.1 r.2.1)

/-! Requests of other nodes (R415). -/

/-- The image offset of a local address. -/
def imageOff (a : Nat) : Nat := a - 0x40000000

/-- A read of the register image, under the rules of R63 and R65. -/
def State.imageRead (s : State) (req : Requester) (a n : Nat) : Bytes × State :=
  let reg (s : State) (r : Nat) : Bytes × State :=
    (leBytes 8 (s.readWord req (r / 4096) (r % 4096)).toNat,
      if presents req (r / 4096) then s else s.unmapped req (r / 4096) (r % 4096))
  if n = 4 ∧ a % 4 = 0 then (let x := reg s (a / 8 * 8); (sub x.1 (a % 8) 4, x.2))
  else if n < 8 ∨ (n = 8 ∧ a % 8 ≠ 0) then (zeros n, s.badWidth req (a / 4096) (a % 4096))
  else
    (List.range ((a + n - 1) / 8 - a / 8 + 1)).foldl (fun (x : Bytes × State) i =>
      let r := (a / 8 + i) * 8
      let lo := max a r
      let hi := min (a + n) (r + 8)
      if hi - lo = 8 then (let y := reg x.2 r; (x.1 ++ y.1, y.2))
      else (x.1 ++ zeros (hi - lo), x.2.badWidth req (r / 4096) (r % 4096))) ([], s)

/-- A read of the image covers the PG_SYNC of a page whose block reset holds a write of the requester (R71). -/
def State.imageHeld (s : State) (req : Requester) (a n : Nat) : Bool :=
  (List.range (n / 8 + 1)).any fun i =>
    let r := (a / 8 + i) * 8
    r % 4096 == 0x048 && decide (a ≤ r) && decide (r + 4 ≤ a + n) && (s.page (ownerOf req (r / 4096)) (r / 4096)).held.any fun h => h.by_ == req

/-- A READ, WRITE or BULK_WRITE answered with a status and bytes. -/
def State.farAnswer (s : State) (p : Packet) (status : Nat) (body : Bytes) : State × Option Nat :=
  (s.answer p (rspType p.typ) status body, some status)

/-- Bytes that a request asks for or carries. -/
def farLen (p : Packet) : Nat := if p.typ = 1 then p.rlen else p.body.length

/-- A request of another node waits: for lines that the host holds, or for writes that a block reset holds. -/
def State.farHeld (s : State) (p : Packet) : Bool :=
  if spaceOf p.addr = .image then p.typ == 1 && s.imageHeld (.remote p.src) (imageOff p.addr) p.rlen
  else spaceOf p.addr != .host && s.heldIn p.addr (farLen p)

/-- A request to this node's memory, image or host served. `far` is what host memory holds at the address. -/
def State.farServe (s : State) (sup : Supply) (far : Bytes) (p : Packet) : State × Option Nat :=
  let n := farLen p
  if p.dst ≠ s.node.id then s.farAnswer p 0xC2 []
  else if n = 0 ∨ (p.typ = 1 ∧ 4096 < n) then s.farAnswer p 0x01 []
  else if spaceOf p.addr = .image ∧ sameSpace p.addr n then
    (if p.typ = 1 then (let r := s.imageRead (.remote p.src) (imageOff p.addr) n; r.2.farAnswer p 0 r.1)
     else (s.writeBar0 sup (.remote p.src) (imageOff p.addr) p.body).farAnswer p 0 [])
  else if !engineMapped p.addr n then s.farAnswer p 0x40 []
  else if spaceOf p.addr = .host then
    (if s.hostReadStatus 0 ≠ 0 then s.farAnswer p (s.hostReadStatus 0) []
     else if p.typ = 1 then s.farAnswer p 0 (fitTo far n)
     else (s.writeOut 0 p.addr p.body).farAnswer p 0 [])
  else if s.tierDown p.addr then s.farAnswer p 0x46 []
  else if p.typ = 1 then
    (let r := s.readOut p.addr n; if r.2.1 then r.2.2.farAnswer p 0x41 [] else r.2.2.farAnswer p 0 r.1)
  else (s.storeBytes p.addr p.body).farAnswer p 0 []

/-- A READ, WRITE or BULK_WRITE arrives (R430): one that must wait is held. -/
def State.farArrive (s : State) (sup : Supply) (far : Bytes) (p : Packet) : State :=
  if !s.power.released then s
  else s.onRequest p fun s =>
    if p.dst = s.node.id ∧ s.farHeld p then
      let lines := if spaceOf p.addr = .image then [] else s.heldLines p.addr (farLen p)
      ((lines.foldl (fun (s : State) l => s.snoopLine l .held) s).modHost fun h => { h with heldAccesses := h.heldAccesses ++ [.far p] }, none)
    else s.farServe sup far p

/-! Held accesses (R114). -/

/-- A read of a region's sync word waits for the writes to the region before it (R125). -/
def State.syncHeld (s : State) (before : List HeldAccess) (a len : Nat) : Bool :=
  s.tiers.regions.any fun (e : Nat × Region) =>
    let end_ := e.2.base + e.2.len
    decide (end_ - 8 < a + len) && decide (a < end_) && before.any fun h => match h with
      | .bar4 b _ (some _) _ => decide (e.2.base ≤ b) && decide (b < end_)
      | _ => false

/-- Whether an access still waits, behind those that stay held before it. -/
def State.stillHeld (s : State) (before : List HeldAccess) (h : HeldAccess) : Bool :=
  match h with
  | .bar4 a n data _ => s.heldIn a n || (data.isNone && s.syncHeld before a n)
  | .hdm a _ _ => s.hdmHeld a
  | .far p => s.farHeld p

/-- A held access served. -/
def State.serveHeldOne (s : State) (h : HeldAccess) : State :=
  match h with
  | .bar4 a n data poisoned => s.serveBar4 a n data poisoned
  | .hdm a data poisoned => s.serveHdm a data poisoned
  | .far p =>
    let r := s.farServe {} [] p
    r.1.marked p (r.2.getD 0)

/-- Held accesses that need wait no longer, in arrival order. -/
def State.serveHeld (s : State) : State :=
  s.host.heldAccesses.foldl (fun (s : State) h =>
    if s.stillHeld s.host.heldAccesses h then s.modHost fun x => { x with heldAccesses := x.heldAccesses ++ [h] } else s.serveHeldOne h)
    (s.modHost fun h => { h with heldAccesses := [] })

/-- An access to a range of BAR4 by a requester ID (R122). -/
def State.bar4 (s : State) (fn reqId off len : Nat) (data : Option Bytes) (poisoned : Bool) : State :=
  if len = 0 ∨ s.bar4Size fn < off + len then s
  else
    match s.hitRegion fn off len with
    | none => s.bar4Deny fn len data.isSome
    | some g =>
      let a := g.base + (off - g.aperture)
      if !s.bar4Allowed reqId g data.isSome then s.bar4Deny fn len data.isSome
      else if s.stillHeld s.host.heldAccesses (.bar4 a len data poisoned) then
        ((s.heldLines a len).foldl (fun (s : State) l => s.snoopLine l .held) s).modHost fun h => { h with
          heldAccesses := h.heldAccesses ++ [.bar4 a len data poisoned] }
      else s.serveBar4 a len data poisoned

/-! Commands. -/

/-- READ: another node reads this node's memory, image or host (R415, R430). `far` is what host memory holds at the address. -/
def execRead (now : Nat) (p : Packet) (far : Bytes) (s : State) : Host.Outcome State Fault Refusal :=
  .next ((s.at now).farArrive {} far p)

/-- WRITE: another node writes this node's memory, image or host (R415, R430). -/
def execWrite (now : Nat) (p : Packet) (supply : Supply) (s : State) : Host.Outcome State Fault Refusal :=
  .next ((s.at now).farArrive supply [] p)

/-- BULK_WRITE: a write on the bulk channel (R415, R430). -/
def execBulkWrite (now : Nat) (p : Packet) (supply : Supply) (s : State) : Host.Outcome State Fault Refusal :=
  let s := s.at now
  .next (s.farArrive supply [] p)

/-- BLOCK_RESET_END: a block reset ends: the writes it held are applied in arrival order, then PG_SYNC reads that waited return (R71, R73). -/
def execBlockResetEnd (now fn page : Nat) (supply : Supply) (s : State) : Host.Outcome State Fault Refusal :=
  let s := s.at now
  let r := s.page fn page
  .next (match r.resetAt with
    | none => s
    | some t =>
      if t + 100000 ≤ s.chrono then s
      else
        let s1 := s.setPage fn page { r with resetAt := none, held := [], syncWait := [] }
        let s2 := r.held.foldl (fun (s : State) (h : HeldWrite) => s.writeReg supply h.by_ page h.off h.value) s1.placeAll
        (r.syncWait.foldl (fun (s : State) q => s.readReg q page 0x048) s2).serveHeld)

/-- BLOCK_RESET_TIMEOUT: a block reset has not ended within 100 µs (R73, R502). -/
def execBlockResetTimeout (now fn page : Nat) (s : State) : Host.Outcome State Fault Refusal :=
  .next (((s.at now).blockTimeout fn page).serveHeld)

end Sys2Proof.Machine
end

