-- ==== Sys2Proof/Machine/HostCmds.lean ====
section
/-! DEFINITION. Commands of the host edge: bias, HDM, BAR4, translation, host reads and snoops, links, configuration (chapter 06; rows
BIAS_TO_DEVICE to PORT0_LINK_UP, PORT1_LINK_UP to BISNP_RESPONSE). -/

namespace Sys2Proof.Machine

open Sys2Proof.Reg

/-! Bias (R114). -/

/-- A word of BIAS_CMD. -/
def biasWord (op region page count : Nat) : Word :=
  BitVec.ofNat 64 (region % 1024 + op * 2 ^ 12 + count % 128 * 2 ^ 16 + page % 2 ^ 26 * 2 ^ 32)

/-- BIAS_TO_DEVICE: BIAS_CMD TO_DEVICE. -/
def execBiasToDevice (now : Nat) (req : Requester) (region page count : Nat) (s : State) : Host.Outcome State Fault Refusal :=
  .next ((s.at now).regWrite req 0x009 0x100 (biasWord 1 region page count) biasHook)

/-- BIAS_TO_HOST: BIAS_CMD TO_HOST. -/
def execBiasToHost (now : Nat) (req : Requester) (region page count : Nat) (s : State) : Host.Outcome State Fault Refusal :=
  .next ((s.at now).regWrite req 0x009 0x100 (biasWord 2 region page count) biasHook)

/-- BIAS_QUERY: BIAS_CMD QUERY of one page. -/
def execBiasQuery (now : Nat) (req : Requester) (region page : Nat) (s : State) : Host.Outcome State Fault Refusal :=
  .next ((s.at now).regWrite req 0x009 0x100 (biasWord 3 region page 1) biasHook)

/-- A reader goes on once nothing it waits for is to come, snoops and page flips included. -/
def State.goOnFree (s : State) (who : Reader) : State :=
  if s.host.biasWaits.contains who || s.host.snoops.any fun n => n.whys.contains (.access who) then s else s.goOn who

/-- The pages of a bias command in their new state. -/
def flipPages (b : BiasCmd) (host : List Nat) : List Nat :=
  let ps := (List.range b.count).map (b.page + ·)
  if b.toDevice then host.filter fun p => !ps.contains p else host ++ ps.filter fun p => !host.contains p

/-- BIAS_FLIP_DONE: a bias command finishes flipping its pages, once the host holds no line of those that go to device bias; what waited for
them goes on under the new bias (R114). -/
def execBiasFlipDone (now : Nat) (s : State) : Host.Outcome State Fault Refusal :=
  let s := s.at now
  .next (match s.host.bias with
    | none => s
    | some b =>
      match Table.find? s.tiers.regions b.region with
      | none => (s.modHost fun h => { h with bias := none }).biasEnd 0
      | some g =>
        if b.toDevice && !(s.heldLines (g.base + b.page * 4096) (b.count * 4096)).isEmpty then s
        else
          let who := s.host.biasWaits
          let s1 := s.modTiers fun t => { t with regions := Table.put t.regions b.region { g with hostPages := flipPages b g.hostPages } }
          let s2 := ((s1.modHost fun h => { h with bias := none, biasWaits := [] }).count COHERENCE.BIAS_FLIPS b.count).biasEnd 0
          (who.foldl (fun (s : State) w => s.goOnFree w) s2).serveHeld)

/-! Requests of the host and of adapters (R112 to R115, R121, R122, R125). -/

/-- HOST_HDM_ACCESS: a CXL.mem access of the host to the line of a host physical address (R112, R113). DEDUCED (log 34): an address that hits no
region of the physical function is answered as a BAR4 request that hits none. -/
def execHostHdmAccess (now hpa : Nat) (data : Option Bytes) (poisoned : Bool) (s : State) : Host.Outcome State Fault Refusal :=
  let s := s.at now
  .next (match s.host.hdm with
    | none => s
    | some base =>
      let o := (hpa - base) / 64 * 64
      if !s.power.released || !s.host.p0Up || decide (hpa < base) || decide (s.bar4Size 0 ≤ o) then s
      else
        match s.hitRegion 0 o 64 with
        | none => s.bar4Deny 0 64 data.isSome
        | some g =>
          let a := g.base + (o - g.aperture)
          if s.hdmHeld a then s.modHost fun h => { h with heldAccesses := h.heldAccesses ++ [.hdm a data poisoned] }
          else s.serveHdm a data poisoned)

/-- Requests reach a function through its port. -/
def State.reaches (s : State) (fn : Nat) : Bool :=
  s.power.released && s.fnEnabled fn && (if s.onPort0 fn then s.host.p0Up else s.host.p1Up)

/-- BAR4_ACCESS: a read or write through a function's BAR4 by a requester ID: served under the region's rights, held, or denied (R122). -/
def execBar4Access (now fn reqId off len : Nat) (data : Option Bytes) (poisoned : Bool) (s : State) : Host.Outcome State Fault Refusal :=
  if 32 ≤ fn then .fault .noSuchUnit
  else
    let s := s.at now
    .next (if s.reaches fn then s.bar4 fn reqId off (match data with | some b => b.length | none => len) data poisoned else s)

/-- SYNC_WORD_READ: a read of bytes of a region's sync word, its last 8 bytes, after the writes to the region before it (R125). -/
def execSyncWordRead (now fn reqId off len : Nat) (s : State) : Host.Outcome State Fault Refusal :=
  if 32 ≤ fn then .fault .noSuchUnit
  else
    let s := s.at now
    .next (if s.reaches fn then s.bar4 fn reqId off len none false else s)

/-! Translation (R116, R117, R120). -/

/-- A host range touches a 4 KiB page. -/
def HostRead.touches (r : HostRead) (page : Nat) : Bool := decide (r.iova / 4096 ≤ page) && decide (page * 4096 < r.iova + r.len)

/-- ATS_INVALIDATION: the translation of a page is forgotten; its completion waits for the reads in flight that use it (R120). -/
def execAtsInvalidation (now fn page : Nat) (s : State) : Host.Outcome State Fault Refusal :=
  if 32 ≤ fn then .fault .noSuchUnit
  else
    let s := s.at now
    .next (if !s.reaches fn then s
    else (s.count HOSTIF.ATS_INVALIDATIONS 1).modHost fun h => { h with
      atc := h.atc.filter fun e => e != (fn, page), invalidations := h.invalidations ++ [(fn, page)] })

/-- ATS_INVALIDATION_COMPLETE: every read that used the translation has completed (R120). -/
def execAtsInvalidationComplete (now fn page : Nat) (s : State) : Host.Outcome State Fault Refusal :=
  if 32 ≤ fn then .fault .noSuchUnit
  else
    let s := s.at now
    let used := s.host.reads.any fun (e : Nat × HostRead) => e.2.fn == fn && e.2.touches page && !s.host.atsRequests.any fun a => a.read == e.1
    .next (if s.host.invalidations.contains (fn, page) && !used then
      (s.modHost fun h => { h with invalidations := h.invalidations.filter fun e => e != (fn, page) }).emit (.atsDone fn page)
    else s)

/-- A host read that failed: its reader ends with the status, and what else it asked of the host is no longer awaited. -/
def State.hostFailed (s : State) (r : HostRead) (status : Nat) : State :=
  let gone := (s.host.reads.filter fun (e : Nat × HostRead) => e.2.who == r.who).map (·.1)
  let s1 := s.modHost fun h => { h with
    reads := h.reads.filter fun (e : Nat × HostRead) => e.2.who != r.who, atsRequests := h.atsRequests.filter fun a => !gone.contains a.read }
  s1.readFailed r.who status (s1.herdForm (0xC00000000000 + r.iova))

/-- Translation requests that come among the first 128 of the list go out (R116). -/
def State.atsPump (s : State) (before : List Ats) : State :=
  let out := (s.host.atsRequests.take 128).filter fun a => !(before.take 128).contains a
  (s.count HOSTIF.ATS_REQUESTS out.length).emits (out.map fun a => .atsRequest a.fn a.page)

/-- ATS_TRANSLATION_DONE: a translation fills the cache of 8,192 entries, and a read whose translations are all here is issued; without
permission the read fails and nothing of it is made (R116, R117). -/
def execAtsTranslationDone (now fn page : Nat) (granted : Bool) (s : State) : Host.Outcome State Fault Refusal :=
  if 32 ≤ fn then .fault .noSuchUnit
  else
    let s := s.at now
    .next (match (s.host.atsRequests.take 128).find? fun a => a.fn == fn && a.page == page with
      | none => s
      | some a =>
        match Table.find? s.host.reads a.read with
        | none => (s.modHost fun h => { h with atsRequests := removeFirst a h.atsRequests }).atsPump s.host.atsRequests
        | some r =>
          if !s.reaches fn then s
          else if granted then
            let atc := (s.host.atc.filter fun e => e != (fn, page)) ++ [(fn, page)]
            let s1 := (s.modHost fun h => { h with
              atsRequests := removeFirst a h.atsRequests, atc := atc.drop (atc.length - 8192) }).atsPump s.host.atsRequests
            if s1.host.atsRequests.any fun b => b.read == a.read then s1 else s1.emit (.hostRead fn r.iova r.len)
          else (((s.count HOSTIF.TRANSLATION_FAULTS 1).raiseOwn 0x008 16).hostFailed r 0x48).atsPump s.host.atsRequests)

/-! Host reads (R118, R121, R520). -/

/-- A host read that has been sent and is still awaited. -/
def State.sentRead? (s : State) (read : Nat) : Option HostRead :=
  match Table.find? s.host.reads read with
  | some r => if s.reaches r.fn && !s.host.atsRequests.any (fun a => a.read == read) then some r else none
  | none => none

/-- The lines of a host read in the host-line cache of 65,536 lines (R118). -/
def State.hcacheFill (s : State) (iova len : Nat) : State :=
  if s.bit HOSTIF.HCACHE_EN && s.host.cxl && s.host.cxlCache then
    let ls := ((List.range ((iova + len - 1) / 64 - iova / 64 + 1)).map fun i => (iova / 64 + i) * 64).filter fun l => !s.host.hcache.contains l
    let all := s.host.hcache ++ ls
    (s.modHost fun h => { h with hcache := all.drop (all.length - 65536) }).count COHERENCE.HCACHE_FILLS ls.length
  else s

/-- HOST_READ_COMPLETE: a read completes with data (status 0), with Unsupported Request or Completer Abort (1), or with poison (2) (R117,
R121). -/
def execHostReadComplete (now read status : Nat) (data : Bytes) (s : State) : Host.Outcome State Fault Refusal :=
  let s := s.at now
  .next (match s.sentRead? read with
    | none => s
    | some r =>
      match status with
      | 0 =>
        let s1 := (s.modHost fun h => { h with reads := Table.drop h.reads read }).hcacheFill r.iova r.len
        (s1.stage r.who .host r.iova (fitTo data r.len)).goOn r.who
      | 1 => s.hostFailed r 0x48
      | _ => ((s.count HOSTIF.POISON_COUNT 1).raiseOwn 0x008 17).hostFailed r 0x49)

/-- HOST_TIMEOUT: a read reaches the completion timeout of its function (R121). -/
def execHostTimeout (now read : Nat) (s : State) : Host.Outcome State Fault Refusal :=
  let s := s.at now
  .next (match s.sentRead? read with
    | none => s
    | some r => (s.raiseOwn 0x008 21).hostFailed r 0x4A)

/-- HOST_SNOOP: a host snoop of a line, by host I/O virtual address, is answered from the host-line cache; one that invalidates takes it out
(R118). -/
def execHostSnoop (now line : Nat) (invalidate : Bool) (s : State) : Host.Outcome State Fault Refusal :=
  let s := s.at now
  let l := line / 64 * 64
  .next (if !s.power.released || !s.host.p0Up || !s.host.cxl || !s.host.cxlCache then s
  else
    let s1 := if invalidate then s.modHost fun h => { h with hcache := h.hcache.filter fun x => x != l } else s
    (s1.count COHERENCE.HCACHE_SNOOPS 1).emit (.snoopAnswer l (s.host.hcache.contains l)))

/-! Back-invalidation snoops (R113 to R115, R128). -/

/-- What waited for a snoop goes on. -/
def State.snoopEnded (s : State) (n : Snoop) : State :=
  (n.whys.foldl (fun (s : State) w => match w with
    | .access who => s.goOnFree who
    | _ => s) s).serveHeld

/-- The outstanding snoop of a line. -/
def State.snoop? (s : State) (line : Nat) : Option Snoop := s.host.snoops.find? fun n => n.line == line

/-- BISNP_RESPONSE: the host answers a back-invalidation snoop, writing the line back where it was dirty (R113, R115). -/
def execBisnpResponse (now line : Nat) (dirty : Option Bytes) (s : State) : Host.Outcome State Fault Refusal :=
  let s := s.at now
  .next (match s.snoop? line with
    | none => s
    | some n =>
      let s1 := s.modHost fun h => { h with snoops := h.snoops.filter fun x => x.line != line }
      (dirty.elim s1 fun b => s1.storeBytes line (fitTo b 64)).snoopEnded n)

/-- BI_TIMEOUT: a snoop is unanswered for 50 ms: the line is poisoned and the readers that wait for it end with HOST_TIMEOUT (R128). -/
def execBiTimeout (now line : Nat) (s : State) : Host.Outcome State Fault Refusal :=
  let s := s.at now
  .next (match s.snoop? line with
    | none => s
    | some n =>
      if s.chrono < n.sentAt + 50000000 then s
      else
        let s1 := (s.modHost fun h => { h with snoops := h.snoops.filter fun x => x.line != line }).raiseOwn 0x009 17
        let s2 := n.whys.foldl (fun (s : State) w => match w with
          | .access who => s.readFailed who 0x4A (s.herdForm line)
          | _ => s) (s1.poisonRange line 64)
        s2.serveHeld)

/-! Links and configuration (R75, R106 to R108, R112, R131, R520). -/

/-- PORT0_LINK_DOWN: the port 0 link goes down (R130, R131). -/
def execPort0LinkDown (now : Nat) (s : State) : Host.Outcome State Fault Refusal := .next ((s.at now).port0Down)

/-- PORT0_LINK_UP: the port 0 link trains up, with its generation, lanes, Flit mode and whether CXL was negotiated. -/
def execPort0LinkUp (now gen width : Nat) (flit cxl : Bool) (s : State) : Host.Outcome State Fault Refusal :=
  .next ((s.at now).port0Up gen width flit cxl)

/-- PORT1_LINK_DOWN: a function-level reset of function 31 (R107). -/
def execPort1LinkDown (now : Nat) (s : State) : Host.Outcome State Fault Refusal := .next ((s.at now).port1Down)

/-- PORT1_LINK_UP: the port 1 link trains up (R107). -/
def execPort1LinkUp (now gen width : Nat) (s : State) : Host.Outcome State Fault Refusal := .next ((s.at now).port1Up gen width)

/-- Routes and rings take note of a changed function: waiting messages and fetches go on where they now can (R75). -/
def State.fnChanged (s : State) : State :=
  (s.pages.foldl (fun (s : State) e => s.irqSettle (e.1 / 0x4000) (e.1 % 0x4000)) s).ringSettle

/-- Virtual functions enabled or disabled: those that go are reset (R107, R517). -/
def State.setVfs (s : State) (n : Nat) : State :=
  let n := min n (if s.x8x8 then 30 else 31)
  let gone := (List.range 32).filter fun f => decide (n < f) && decide (f ≤ s.host.numVfs)
  (gone.foldl (fun (s : State) f => s.fnGone f) s).modHost fun h => { h with numVfs := n }

/-- BAR4 of a function after a Resizable BAR write: a power of two from 1 GiB to 256 GiB, else as it was (R108). -/
def bar4Choice (gib : Nat) (old : Option Nat) : Option Nat :=
  if [1, 2, 4, 8, 16, 32, 64, 128, 256].contains gib then some (gib * 2 ^ 30) else old

/-- CONFIGURATION_WRITE: a host configuration write leaves a function as given (R106 to R108, R116). -/
def execConfigurationWrite (now : Nat) (write : ConfigWrite) (s : State) : Host.Outcome State Fault Refusal :=
  if 32 ≤ write.fn then .fault .noSuchUnit
  else
    let s := s.at now
    .next (if !s.reaches write.fn then s
    else
      let fn := write.fn
      let f := s.func fn
      let s1 := s.modHost fun h => { h with
        fns := Table.put h.fns fn { f with busMaster := write.busMaster, ats := write.ats, d3hot := write.d3hot, bar4 := bar4Choice write.bar4 f.bar4 }
        atc := if write.ats then h.atc else h.atc.filter fun e => e.1 != fn }
      let s2 := if fn = 0 then (s1.setVfs write.numVfs).modHost fun h => { h with
          cxlCache := write.cxlCache && h.cxl, hcache := if write.cxlCache && h.cxl then h.hcache else [] } else s1
      s2.fnChanged)

/-- MSIX_TABLE_WRITE: a host write to the MSI-X table or the function mask (R75, R110). -/
def execMsixTableWrite (now fn : Nat) (write : MsixWrite) (s : State) : Host.Outcome State Fault Refusal :=
  if 32 ≤ fn then .fault .noSuchUnit
  else
    let s := s.at now
    .next (if !s.reaches fn then s
    else
      let f := s.func fn
      match write with
      | .functionMask m => (s.modHost fun h => { h with fns := Table.put h.fns fn { f with masked := m } }).fnChanged
      | .entry v addr data m =>
        if (if fn = 0 then 2048 else 64) ≤ v then s
        else (s.modHost fun h => { h with
          fns := Table.put h.fns fn { f with vectors := Table.put f.vectors v { addr := addr, data := data, masked := m } } }).fnChanged)

/-- HDM_DECODER_COMMIT: the host commits the HDM decoder at a base, and CXL_MEM becomes 1 (R112). -/
def execHdmDecoderCommit (now base : Nat) (s : State) : Host.Outcome State Fault Refusal :=
  let s := s.at now
  .next (if s.power.released && s.host.p0Up && s.host.cxl then s.modHost fun h => { h with hdm := some base } else s)

/-! Host loss (R130 to R143; rows HOST_HEARTBEAT to HOST_TIER_RESUME). -/

/-- HOST_HEARTBEAT: a write of HOST_HEARTBEAT; that of the physical function restarts the span (R130). -/
def execHostHeartbeat (now : Nat) (req : Requester) (value : Word) (s : State) : Host.Outcome State Fault Refusal :=
  .next ((s.at now).regWrite req 0x00A 0x100 value heartbeatHook)

/-- HB_SPAN_EXPIRE: the heartbeat span runs out with the monitor armed (R130). -/
def execHbSpanExpire (now : Nat) (s : State) : Host.Outcome State Fault Refusal := .next ((s.at now).heartbeatExpire)

/-- HOST_LOSS: host loss is declared (R130, R132). -/
def execHostLoss (now : Nat) (s : State) : Host.Outcome State Fault Refusal := .next ((s.at now).declareLoss)

/-- CLAIM: a write of ATTACH_CTRL.CLAIM (R141). -/
def execClaim (now : Nat) (req : Requester) (s : State) : Host.Outcome State Fault Refusal :=
  .next ((s.at now).regWrite req 0x00A 0x138 1#64 attachCtrlHook)

/-- DISCARD: a write of ATTACH_CTRL.DISCARD (R143). -/
def execDiscard (now : Nat) (req : Requester) (s : State) : Host.Outcome State Fault Refusal :=
  .next ((s.at now).regWrite req 0x00A 0x138 2#64 attachCtrlHook)

/-- HOST_TIER_RESUME: a write of ATTACH_CTRL.HOST_TIER_RESUME (R134). -/
def execHostTierResume (now : Nat) (req : Requester) (s : State) : Host.Outcome State Fault Refusal :=
  .next ((s.at now).regWrite req 0x00A 0x138 4#64 attachCtrlHook)

end Sys2Proof.Machine
end

