-- ==== Sys2Proof/Machine/LinkCmds.lean ====
section
/-! DEFINITION. Commands of the links (R405 to R413, R435; rows LINK_TRAIN to FULL_TRAIN, LANE_LOCK_LOST). -/

namespace Sys2Proof.Machine

open Sys2Proof.Reg

/-- A control flit has come in order: it takes its SEQ, and it is counted (R408, R409). -/
def State.ctrlIn (s : State) (k : Nat) : State :=
  let l := s.link k
  if l.state = 0 ∨ l.state = 4 then s
  else (s.setLink k { l with rxSeq := (l.rxSeq + 1) % 65536, nakSent := false }).count (ZLINK.FLITS_RX.on (zpage k)) 1

/-- LINK_TRAIN: a link that is DOWN starts training (R405). -/
def execLinkTrain (now link : Nat) (s : State) : Host.Outcome State Fault Refusal :=
  if 6 ≤ link then .fault .noSuchUnit else .next ((s.at now).linkTrain link)

/-- TRAINING_DONE: equalisation ends with the good lanes, the corrected polarities, whether the stored record matched, and its results (R404,
R406). -/
def execTrainingDone (now link lanes pol : Nat) (stored : Bool) (results : Bytes) (s : State) : Host.Outcome State Fault Refusal :=
  if 6 ≤ link then .fault .noSuchUnit else .next ((s.at now).trainingDone link lanes pol stored results)

/-- CONFIG: the partner's CONFIG flit (R407). -/
def execConfig (now link : Nat) (body : Bytes) (s : State) : Host.Outcome State Fault Refusal :=
  if 6 ≤ link then .fault .noSuchUnit else .next (((s.at now).ctrlIn link).configFlit link body)

/-- AUTH: an AUTH flit of the partner, from its ITEM on (R413, R423). -/
def execAuth (now link : Nat) (body : Bytes) (s : State) : Host.Outcome State Fault Refusal :=
  if 6 ≤ link then .fault .noSuchUnit else .next (((s.at now).ctrlIn link).authFlit link body)

/-- FLIT_RECEIVE: an IDLE or DATA flit (R408, R409, R411, R413). -/
def execFlitReceive (now link : Nat) (flit : Flit) (s : State) : Host.Outcome State Fault Refusal :=
  if 6 ≤ link then .fault .noSuchUnit else .next ((s.at now).flitReceive link flit)

/-- NAK: a NAK names the SEQ that the partner expects (R409). -/
def execNak (now link seq : Nat) (s : State) : Host.Outcome State Fault Refusal :=
  if 6 ≤ link then .fault .noSuchUnit else .next (((s.at now).ctrlIn link).nak link seq)

/-- ACK_TIMEOUT: the ACK has not advanced for 10 µs (R409). -/
def execAckTimeout (now link : Nat) (s : State) : Host.Outcome State Fault Refusal :=
  if 6 ≤ link then .fault .noSuchUnit else .next ((s.at now).ackTimeout link)

/-- RETRAIN_REQ: the partner starts a retrain (R410). -/
def execRetrainReq (now link : Nat) (s : State) : Host.Outcome State Fault Refusal :=
  if 6 ≤ link then .fault .noSuchUnit else .next (((s.at now).ctrlIn link).retrain link false)

/-- RETRAIN_DONE: a retrain succeeds within 2 ms (R410). -/
def execRetrainDone (now link : Nat) (s : State) : Host.Outcome State Fault Refusal :=
  if 6 ≤ link then .fault .noSuchUnit else .next ((s.at now).retrained link)

/-- RETRAIN_TIMEOUT: 2 ms without success take the link DOWN (R410). -/
def execRetrainTimeout (now link : Nat) (s : State) : Host.Outcome State Fault Refusal :=
  if 6 ≤ link then .fault .noSuchUnit
  else
    let s := s.at now
    .next (if (s.link link).state = 5 ∧ (s.link link).retrainAt + 2000000 ≤ s.chrono then s.linkDown link else s)

/-- FULL_TRAIN: a write of LINK_CFG.FULL_TRAIN (R406). -/
def execFullTrain (now : Nat) (req : Requester) (link : Nat) (s : State) : Host.Outcome State Fault Refusal :=
  if 6 ≤ link then .fault .noSuchUnit
  else
    let s := s.at now
    .next (s.regWrite req (zpage link) 0x100 (putBits (s.word 0 (zpage link) 0x100) 1 1 1) linkCfgHook)

/-- LANE_LOCK_LOST: this end's receiver loses lane lock (R410). -/
def execLaneLockLost (now link : Nat) (s : State) : Host.Outcome State Fault Refusal :=
  if 6 ≤ link then .fault .noSuchUnit else .next ((s.at now).retrain link true)

end Sys2Proof.Machine
end

