-- ==== Sys2Proof/Machine/MsgCmds.lean ====
section
/-! DEFINITION. Responses, route changes and the dispatch of jobs over several nodes (R419, R428 to R436; rows RESPONSE_RECEIVE to JOB_KILL). -/

namespace Sys2Proof.Machine

open Sys2Proof.Reg

/-- RESPONSE_RECEIVE: a response arrives (R429). -/
def execResponseReceive (now : Nat) (p : Packet) (s : State) : Host.Outcome State Fault Refusal :=
  .next ((s.at now).whileUp fun s => s.response p)

/-- E2E_TIMEOUT: the timer of a request runs out (R428). -/
def execE2eTimeout (now tag : Nat) (s : State) : Host.Outcome State Fault Refusal :=
  .next ((s.at now).whileUp fun s => s.e2eTimeout tag)

/-- LINK_STATE: the lead hears of a link's end (R432, R433). -/
def execLinkState (now : Nat) (p : Packet) (s : State) : Host.Outcome State Fault Refusal :=
  .next ((s.at now).whileUp fun s => if s.isLead then s.linkHeard (linkReportOf p.body) else s)

/-- ROUTE_SET: acknowledged to the lead, held for its tide or applied (R433). -/
def execRouteSet (now : Nat) (p : Packet) (s : State) : Host.Outcome State Fault Refusal :=
  .next ((s.at now).whileUp fun s =>
    let c := routeOf p.body
    (s.sendCtrl p.src (routeAckBody s.node.id c.epoch)).routeHere c)

/-- ROUTE_ACK: a member has acknowledged an EPOCH (R433). -/
def execRouteAck (now : Nat) (p : Packet) (s : State) : Host.Outcome State Fault Refusal :=
  .next ((s.at now).whileUp fun s => s.modFabric fun f => { f with
    routeWaits := (f.routeWaits.map fun w =>
      if w.change.epoch = leAt p.body 4 4 then { w with missing := w.missing.filter fun n => n != leAt p.body 2 2 } else w).filter fun w =>
        !w.missing.isEmpty })

/-- QUERY_DST: a write of QUERY_DST (R436). -/
def execQueryDst (now : Nat) (req : Requester) (node : Nat) (s : State) : Host.Outcome State Fault Refusal :=
  .next ((s.at now).regWrite req 0x0D8 0x120 (BitVec.ofNat 64 (node % 65536)) queryDstHook)

/-- JOB_IMAGE: the image set of another node's job, once its run is whole (R419). -/
def execJobImage (now : Nat) (p : Packet) (s : State) : Host.Outcome State Fault Refusal :=
  let s := s.at now
  let s1 := s.engineServe p fun s payload =>
    ((s.modFabric fun f => { f with images := Table.put f.images p.job payload }).reply p 0 0 0 [], some 0)
  .next (if Table.has s.fabric.images p.job then s1 else s1.partValidate p.job)

/-- JOB_START: the part is validated and starts, once its image set is here too (R243, R419). -/
def execJobStart (now : Nat) (p : Packet) (s : State) : Host.Outcome State Fault Refusal :=
  let s := s.at now
  let s1 := s.engineServe p fun s _ => (s.modFabric fun f => { f with starts := f.starts ++ [p] }, none)
  .next (if s1.fabric.starts.length = s.fabric.starts.length then s1 else s1.partValidate p.job)

/-- PART_END: a part has ended (R419). ARG0 holds its status, COMMITTED, MULTI_ERR and the stage, ARG1 its bytes or its DETAIL. -/
def execPartEnd (now : Nat) (p : Packet) (s : State) : Host.Outcome State Fault Refusal :=
  .next ((s.at now).okServe p fun s _ =>
    match s.jobByHerd p.job with
    | some j => s.partEnded j p.src {
        status := p.arg0 % 256, committed := bitAt p.arg0 8, multi := bitAt p.arg0 9, stage := p.arg0 / 2 ^ 16 % 65536, detail := p.arg1 }
    | none => s)

/-- The part of another node's job, if it runs here. -/
def State.partOf (s : State) (id : Nat) : Option Nat :=
  (List.find? (fun (e : Nat × Job) => e.2.herdId == id && (match e.2.origin with | .part .. => true | _ => false)) s.work.jobs).map (·.1)

/-- JOB_KILL: a part ends with a status; one that has not started does not start, its JOB_START answered with that status (R419). -/
def execJobKill (now : Nat) (p : Packet) (s : State) : Host.Outcome State Fault Refusal :=
  let s := s.at now
  let s1 := s.engineServe p fun s _ => (s.modFabric fun f => { f with kills := f.kills ++ [p] }, none)
  .next (if s1.fabric.kills.length = s.fabric.kills.length then s1
  else
    match s1.partOf p.job with
    | some j => s1.killJob j (p.arg0 % 256)
    | none =>
      let s2 := s1.partUnread p.job (p.arg0 % 256) 0
      (s2.modFabric fun f => { f with images := Table.drop f.images p.job }).killsAnswered p.job)

end Sys2Proof.Machine
end

