-- ==== Sys2Proof/Machine/Dispatch.lean ====
section
/-! DEFINITION. Which meaning each command has. -/

namespace Sys2Proof.Machine

def exec (i : Instr) (s : State) : Host.Outcome State Fault Refusal :=
  match i with
  | .p54vRise now level => Sys2Proof.Machine.execP54vRise now level s
  | .modPgAssert now => Sys2Proof.Machine.execModPgAssert now s
  | .moduleResetRelease now readable => Sys2Proof.Machine.execModuleResetRelease now readable s
  | .strapChanged now levels => Sys2Proof.Machine.execStrapChanged now levels s
  | .resetNPulse now width => Sys2Proof.Machine.execResetNPulse now width s
  | .perst0NLevel now low => Sys2Proof.Machine.execPerst0NLevel now low s
  | .perst0WarmReset now => Sys2Proof.Machine.execPerst0WarmReset now s
  | .perst1NLevel now low => Sys2Proof.Machine.execPerst1NLevel now low s
  | .pwrBrakeN now low => Sys2Proof.Machine.execPwrBrakeN now low s
  | .tideInRise now => Sys2Proof.Machine.execTideInRise now s
  | .stuckSpanExpire now brake => Sys2Proof.Machine.execStuckSpanExpire now brake s
  | .zkPrsntN now link => Sys2Proof.Machine.execZkPrsntN now link s
  | .cprsntN now drive low => Sys2Proof.Machine.execCprsntN now drive low s
  | .m1BusTimeout now lowMs => Sys2Proof.Machine.execM1BusTimeout now lowMs s
  | .undervoltage now level => Sys2Proof.Machine.execUndervoltage now level s
  | .lowBand now level => Sys2Proof.Machine.execLowBand now level s
  | .overvoltage now level => Sys2Proof.Machine.execOvervoltage now level s
  | .ovRelease now level => Sys2Proof.Machine.execOvRelease now level s
  | .thermalThrottle now temp => Sys2Proof.Machine.execThermalThrottle now temp s
  | .thermalTrip now temp => Sys2Proof.Machine.execThermalTrip now temp s
  | .pdSwitchOn now domain => Sys2Proof.Machine.execPdSwitchOn now domain s
  | .tiersReady now results cream skim => Sys2Proof.Machine.execTiersReady now results cream skim s
  | .pd3Off now req off => Sys2Proof.Machine.execPd3Off now req off s
  | .pd5Off now req off => Sys2Proof.Machine.execPd5Off now req off s
  | .pdRetrained now domain => Sys2Proof.Machine.execPdRetrained now domain s
  | .leaveRequest now slice cls => Sys2Proof.Machine.execLeaveRequest now slice cls s
  | .leaveRelease now job cls => Sys2Proof.Machine.execLeaveRelease now job cls s
  | .leaveTimeout now slice => Sys2Proof.Machine.execLeaveTimeout now slice s
  | .calWriteDue now => Sys2Proof.Machine.execCalWriteDue now s
  | .saveNow now req value => Sys2Proof.Machine.execSaveNow now req value s
  | .calWriteEnd now ok => Sys2Proof.Machine.execCalWriteEnd now ok s
  | .warmReq now req => Sys2Proof.Machine.execWarmReq now req s
  | .herdReq now req => Sys2Proof.Machine.execHerdReq now req s
  | .herdReset now p => Sys2Proof.Machine.execHerdReset now p s
  | .functionLevelReset now fn => Sys2Proof.Machine.execFunctionLevelReset now fn s
  | .blockReset now req page => Sys2Proof.Machine.execBlockReset now req page s
  | .blockResetEnd now fn page supply => Sys2Proof.Machine.execBlockResetEnd now fn page supply s
  | .blockResetTimeout now fn page => Sys2Proof.Machine.execBlockResetTimeout now fn page s
  | .regWrite now req page off bytes supply => Sys2Proof.Machine.execRegWrite now req page off bytes supply s
  | .unmappedAccess now req page off read => Sys2Proof.Machine.execUnmappedAccess now req page off read s
  | .pgLock now req page => Sys2Proof.Machine.execPgLock now req page s
  | .pgCtrlEnable now req page on => Sys2Proof.Machine.execPgCtrlEnable now req page on s
  | .pgCtrlQuiesce now req page on => Sys2Proof.Machine.execPgCtrlQuiesce now req page on s
  | .pgCtrlOutOfService now req page on => Sys2Proof.Machine.execPgCtrlOutOfService now req page on s
  | .pgSync now req page => Sys2Proof.Machine.execPgSync now req page s
  | .errInjectFire now req page index => Sys2Proof.Machine.execErrInjectFire now req page index s
  | .injectionDelivered now fn page => Sys2Proof.Machine.execInjectionDelivered now fn page s
  | .errFirstClear now req page => Sys2Proof.Machine.execErrFirstClear now req page s
  | .regParity now fn page fixed => Sys2Proof.Machine.execRegParity now fn page fixed s
  | .irqRoute now req page value => Sys2Proof.Machine.execIrqRoute now req page value s
  | .modTimeExpire now fn page => Sys2Proof.Machine.execModTimeExpire now fn page s
  | .vatCfg now req value => Sys2Proof.Machine.execVatCfg now req value s
  | .extentGrant now => Sys2Proof.Machine.execExtentGrant now s
  | .sliceStart now id units reach wants flaws => Sys2Proof.Machine.execSliceStart now id units reach wants flaws s
  | .unitFail now cream unit => Sys2Proof.Machine.execUnitFail now cream unit s
  | .scrubPass now cream ces ues => Sys2Proof.Machine.execScrubPass now cream ces ues s
  | .regionAlloc now req slot want => Sys2Proof.Machine.execRegionAlloc now req slot want s
  | .regionFree now req slot => Sys2Proof.Machine.execRegionFree now req slot s
  | .regionRead now req slot => Sys2Proof.Machine.execRegionRead now req slot s
  | .regionCmdDone now => Sys2Proof.Machine.execRegionCmdDone now s
  | .cellarMode now req mode => Sys2Proof.Machine.execCellarMode now req mode s
  | .driveBringUp now d ns xfer width gen => Sys2Proof.Machine.execDriveBringUp now d ns xfer width gen s
  | .rescan now req found => Sys2Proof.Machine.execRescan now req found s
  | .driveOos now req mask => Sys2Proof.Machine.execDriveOos now req mask s
  | .cellarCmdTimeout now d c => Sys2Proof.Machine.execCellarCmdTimeout now d c s
  | .abortTimeout now d c => Sys2Proof.Machine.execAbortTimeout now d c s
  | .cellarCmdComplete now d c status data => Sys2Proof.Machine.execCellarCmdComplete now d c status data s
  | .driveLost now d => Sys2Proof.Machine.execDriveLost now d s
  | .biasToDevice now req region page count => Sys2Proof.Machine.execBiasToDevice now req region page count s
  | .biasToHost now req region page count => Sys2Proof.Machine.execBiasToHost now req region page count s
  | .biasQuery now req region page => Sys2Proof.Machine.execBiasQuery now req region page s
  | .biasFlipDone now => Sys2Proof.Machine.execBiasFlipDone now s
  | .hostHdmAccess now hpa data poisoned => Sys2Proof.Machine.execHostHdmAccess now hpa data poisoned s
  | .bar4Access now fn reqId off len data poisoned => Sys2Proof.Machine.execBar4Access now fn reqId off len data poisoned s
  | .syncWordRead now fn reqId off len => Sys2Proof.Machine.execSyncWordRead now fn reqId off len s
  | .atsInvalidation now fn page => Sys2Proof.Machine.execAtsInvalidation now fn page s
  | .atsInvalidationComplete now fn page => Sys2Proof.Machine.execAtsInvalidationComplete now fn page s
  | .hostReadComplete now read status data => Sys2Proof.Machine.execHostReadComplete now read status data s
  | .hostTimeout now read => Sys2Proof.Machine.execHostTimeout now read s
  | .hostSnoop now line invalidate => Sys2Proof.Machine.execHostSnoop now line invalidate s
  | .biTimeout now line => Sys2Proof.Machine.execBiTimeout now line s
  | .port1LinkDown now => Sys2Proof.Machine.execPort1LinkDown now s
  | .port0LinkDown now => Sys2Proof.Machine.execPort0LinkDown now s
  | .port0LinkUp now gen width flit cxl => Sys2Proof.Machine.execPort0LinkUp now gen width flit cxl s
  | .hostHeartbeat now req value => Sys2Proof.Machine.execHostHeartbeat now req value s
  | .hbSpanExpire now => Sys2Proof.Machine.execHbSpanExpire now s
  | .hostLoss now => Sys2Proof.Machine.execHostLoss now s
  | .claim now req => Sys2Proof.Machine.execClaim now req s
  | .discard now req => Sys2Proof.Machine.execDiscard now req s
  | .hostTierResume now req => Sys2Proof.Machine.execHostTierResume now req s
  | .sqDoorbell now fn ring value narrow stores => Sys2Proof.Machine.execSqDoorbell now fn ring value narrow stores s
  | .cqHeadDoorbell now fn ring value narrow => Sys2Proof.Machine.execCqHeadDoorbell now fn ring value narrow s
  | .descFetch now fn ring => Sys2Proof.Machine.execDescFetch now fn ring s
  | .descFetchDone now fn ring bytes status => Sys2Proof.Machine.execDescFetchDone now fn ring bytes status s
  | .run now id => Sys2Proof.Machine.execRun now id s
  | .fence now id => Sys2Proof.Machine.execFence now id s
  | .waitTide now id => Sys2Proof.Machine.execWaitTide now id s
  | .waitTideTimeout now id => Sys2Proof.Machine.execWaitTideTimeout now id s
  | .signal now id => Sys2Proof.Machine.execSignal now id s
  | .mirrorCut now id => Sys2Proof.Machine.execMirrorCut now id s
  | .parkDrain now id => Sys2Proof.Machine.execParkDrain now id s
  | .nop now id => Sys2Proof.Machine.execNop now id s
  | .jobComplete now job => Sys2Proof.Machine.execJobComplete now job s
  | .sliceEnd now id keep => Sys2Proof.Machine.execSliceEnd now id keep s
  | .sliceBound now id keep => Sys2Proof.Machine.execSliceBound now id keep s
  | .sqEnable now req ring on => Sys2Proof.Machine.execSqEnable now req ring on s
  | .cqEnable now req ring on => Sys2Proof.Machine.execCqEnable now req ring on s
  | .sqRetry now req ring => Sys2Proof.Machine.execSqRetry now req ring s
  | .rnWait now t ctr ticks named => Sys2Proof.Machine.execRnWait now t ctr ticks named s
  | .rnWaitTimeout now t => Sys2Proof.Machine.execRnWaitTimeout now t s
  | .rnDelay now t ticks => Sys2Proof.Machine.execRnDelay now t ticks s
  | .delayWake now t => Sys2Proof.Machine.execDelayWake now t s
  | .rnCtrAlloc now t count => Sys2Proof.Machine.execRnCtrAlloc now t count s
  | .rnCtrSub now t ctr amount named => Sys2Proof.Machine.execRnCtrSub now t ctr amount named s
  | .rnCtrFree now t ctr named => Sys2Proof.Machine.execRnCtrFree now t ctr named s
  | .rnCopy now t dst src len ctr inside srcHerd dstHerd => Sys2Proof.Machine.execRnCopy now t dst src len ctr inside srcHerd dstHerd s
  | .rnBudget now t => Sys2Proof.Machine.execRnBudget now t s
  | .rnTide now t => Sys2Proof.Machine.execRnTide now t s
  | .ecallUnknown now t => Sys2Proof.Machine.execEcallUnknown now t s
  | .copyComplete now id status data => Sys2Proof.Machine.execCopyComplete now id status data s
  | .stageReturn now t a0 cursor outs writes => Sys2Proof.Machine.execStageReturn now t a0 cursor outs writes s
  | .stageFault now t addr => Sys2Proof.Machine.execStageFault now t addr s
  | .fenceI now t content => Sys2Proof.Machine.execFenceI now t content s
  | .quantumExpiry now t => Sys2Proof.Machine.execQuantumExpiry now t s
  | .stageOverrun now t => Sys2Proof.Machine.execStageOverrun now t s
  | .ctrArm now req ctr count => Sys2Proof.Machine.execCtrArm now req ctr count s
  | .ctrSub now req ctr count => Sys2Proof.Machine.execCtrSub now req ctr count s
  | .ctrDisarm now req ctr => Sys2Proof.Machine.execCtrDisarm now req ctr s
  | .flowOpen now req flow fn value => Sys2Proof.Machine.execFlowOpen now req flow fn value s
  | .flowClose now req flow => Sys2Proof.Machine.execFlowClose now req flow s
  | .flowAdvance now req flow value => Sys2Proof.Machine.execFlowAdvance now req flow value s
  | .coreOos now req mask => Sys2Proof.Machine.execCoreOos now req mask s
  | .coreFail now core jobs => Sys2Proof.Machine.execCoreFail now core jobs s
  | .l2Ue now slice => Sys2Proof.Machine.execL2Ue now slice s
  | .beatSend now => Sys2Proof.Machine.execBeatSend now s
  | .beatApply now raw => Sys2Proof.Machine.execBeatApply now raw s
  | .reportReceive now raw => Sys2Proof.Machine.execReportReceive now raw s
  | .hostTide now req value => Sys2Proof.Machine.execHostTide now req value s
  | .alarmArm now req arm irq ctr out ctrId => Sys2Proof.Machine.execAlarmArm now req arm irq ctr out ctrId s
  | .srcOpen now req source idleMs => Sys2Proof.Machine.execSrcOpen now req source idleMs s
  | .srcClose now req source => Sys2Proof.Machine.execSrcClose now req source s
  | .srcLow now req source => Sys2Proof.Machine.execSrcLow now req source s
  | .srcIdle now req source => Sys2Proof.Machine.execSrcIdle now req source s
  | .srcActive now req source => Sys2Proof.Machine.execSrcActive now req source s
  | .srcRead now req source => Sys2Proof.Machine.execSrcRead now req source s
  | .sourceIdleExpire now source => Sys2Proof.Machine.execSourceIdleExpire now source s
  | .beatLost now => Sys2Proof.Machine.execBeatLost now s
  | .intakeSurvey now job => Sys2Proof.Machine.execIntakeSurvey now job s
  | .dlogHead now req head => Sys2Proof.Machine.execDlogHead now req head s
  | .dlogEnable now req enable => Sys2Proof.Machine.execDlogEnable now req enable s
  | .dictRegister now req slot => Sys2Proof.Machine.execDictRegister now req slot s
  | .dictUnregister now req slot => Sys2Proof.Machine.execDictUnregister now req slot s
  | .dictUnregisterDone now => Sys2Proof.Machine.execDictUnregisterDone now s
  | .dictRead now req slot => Sys2Proof.Machine.execDictRead now req slot s
  | .probeOm64 now req => Sys2Proof.Machine.execProbeOm64 now req s
  | .probeCrc now req => Sys2Proof.Machine.execProbeCrc now req s
  | .strainerWrite now req fw => Sys2Proof.Machine.execStrainerWrite now req fw s
  | .strainerRead now req fw => Sys2Proof.Machine.execStrainerRead now req fw s
  | .strainerInvalidate now req fw => Sys2Proof.Machine.execStrainerInvalidate now req fw s
  | .strainerSearch now req fw units => Sys2Proof.Machine.execStrainerSearch now req fw units s
  | .bankCfgWidth now req bank width => Sys2Proof.Machine.execBankCfgWidth now req bank width s
  | .bankCfgOos now req bank oos => Sys2Proof.Machine.execBankCfgOos now req bank oos s
  | .scrubStep now bank flawed dead => Sys2Proof.Machine.execScrubStep now bank flawed dead s
  | .loadWritePass now job stage records => Sys2Proof.Machine.execLoadWritePass now job stage records s
  | .partitionReload now job stage => Sys2Proof.Machine.execPartitionReload now job stage s
  | .runaheadProbe now job stage rows => Sys2Proof.Machine.execRunaheadProbe now job stage rows s
  | .rows now p => Sys2Proof.Machine.execRows now p s
  | .endBuild now p => Sys2Proof.Machine.execEndBuild now p s
  | .endProbe now p => Sys2Proof.Machine.execEndProbe now p s
  | .storeOpen now req store tier quota => Sys2Proof.Machine.execStoreOpen now req store tier quota s
  | .storeClose now req store => Sys2Proof.Machine.execStoreClose now req store s
  | .storeRead now req store => Sys2Proof.Machine.execStoreRead now req store s
  | .storeClear now req store => Sys2Proof.Machine.execStoreClear now req store s
  | .tblCreate now req table host room => Sys2Proof.Machine.execTblCreate now req table host room s
  | .tblDestroy now req table => Sys2Proof.Machine.execTblDestroy now req table s
  | .tblRead now req table => Sys2Proof.Machine.execTblRead now req table s
  | .tblBind now req table => Sys2Proof.Machine.execTblBind now req table s
  | .tblInvalidate now req table => Sys2Proof.Machine.execTblInvalidate now req table s
  | .tblShard now req table => Sys2Proof.Machine.execTblShard now req table s
  | .tblCmdDone now => Sys2Proof.Machine.execTblCmdDone now s
  | .gather now p far => Sys2Proof.Machine.execGather now p far s
  | .update now p => Sys2Proof.Machine.execUpdate now p s
  | .sent now p => Sys2Proof.Machine.execSent now p s
  | .stepClose now p far => Sys2Proof.Machine.execStepClose now p far s
  | .applied now p => Sys2Proof.Machine.execApplied now p s
  | .stepDone now p => Sys2Proof.Machine.execStepDone now p s
  | .loadReport now p => Sys2Proof.Machine.execLoadReport now p s
  | .prep now p far => Sys2Proof.Machine.execPrep now p far s
  | .shardCopy now p => Sys2Proof.Machine.execShardCopy now p s
  | .commit now p => Sys2Proof.Machine.execCommit now p s
  | .logHandoff now p => Sys2Proof.Machine.execLogHandoff now p s
  | .tableCmd now p => Sys2Proof.Machine.execTableCmd now p s
  | .cancel now p => Sys2Proof.Machine.execCancel now p s
  | .prefetch now job stage rows => Sys2Proof.Machine.execPrefetch now job stage rows s
  | .linkTrain now link => Sys2Proof.Machine.execLinkTrain now link s
  | .trainingDone now link lanes pol stored results => Sys2Proof.Machine.execTrainingDone now link lanes pol stored results s
  | .config now link body => Sys2Proof.Machine.execConfig now link body s
  | .auth now link body => Sys2Proof.Machine.execAuth now link body s
  | .flitReceive now link flit => Sys2Proof.Machine.execFlitReceive now link flit s
  | .nak now link seq => Sys2Proof.Machine.execNak now link seq s
  | .ackTimeout now link => Sys2Proof.Machine.execAckTimeout now link s
  | .retrainReq now link => Sys2Proof.Machine.execRetrainReq now link s
  | .retrainDone now link => Sys2Proof.Machine.execRetrainDone now link s
  | .retrainTimeout now link => Sys2Proof.Machine.execRetrainTimeout now link s
  | .fullTrain now req link => Sys2Proof.Machine.execFullTrain now req link s
  | .read now p far => Sys2Proof.Machine.execRead now p far s
  | .write now p supply => Sys2Proof.Machine.execWrite now p supply s
  | .bulkWrite now p supply => Sys2Proof.Machine.execBulkWrite now p supply s
  | .responseReceive now p => Sys2Proof.Machine.execResponseReceive now p s
  | .e2eTimeout now tag => Sys2Proof.Machine.execE2eTimeout now tag s
  | .linkState now p => Sys2Proof.Machine.execLinkState now p s
  | .routeSet now p => Sys2Proof.Machine.execRouteSet now p s
  | .routeAck now p => Sys2Proof.Machine.execRouteAck now p s
  | .queryDst now req node => Sys2Proof.Machine.execQueryDst now req node s
  | .jobImage now p => Sys2Proof.Machine.execJobImage now p s
  | .jobStart now p => Sys2Proof.Machine.execJobStart now p s
  | .partEnd now p => Sys2Proof.Machine.execPartEnd now p s
  | .jobKill now p => Sys2Proof.Machine.execJobKill now p s
  | .leadClaim now link p => Sys2Proof.Machine.execLeadClaim now link p s
  | .formMsExpire now => Sys2Proof.Machine.execFormMsExpire now s
  | .herdForm now link p => Sys2Proof.Machine.execHerdForm now link p s
  | .join now p => Sys2Proof.Machine.execJoin now p s
  | .memberSet now link p => Sys2Proof.Machine.execMemberSet now link p s
  | .memberAck now p => Sys2Proof.Machine.execMemberAck now p s
  | .electAck now p => Sys2Proof.Machine.execElectAck now p s
  | .leave now p => Sys2Proof.Machine.execLeave now p s
  | .leadTakeover now => Sys2Proof.Machine.execLeadTakeover now s
  | .isolated now => Sys2Proof.Machine.execIsolated now s
  | .twinPair now p => Sys2Proof.Machine.execTwinPair now p s
  | .mirror now link p => Sys2Proof.Machine.execMirror now link p s
  | .twinCut now link p => Sys2Proof.Machine.execTwinCut now link p s
  | .twinAck now link p => Sys2Proof.Machine.execTwinAck now link p s
  | .herdJoin now req => Sys2Proof.Machine.execHerdJoin now req s
  | .herdLeave now req => Sys2Proof.Machine.execHerdLeave now req s
  | .admitId now req node => Sys2Proof.Machine.execAdmitId now req node s
  | .bootReq now link p => Sys2Proof.Machine.execBootReq now link p s
  | .bootData now link p => Sys2Proof.Machine.execBootData now link p s
  | .bootFallback now => Sys2Proof.Machine.execBootFallback now s
  | .serveEnable now req enable => Sys2Proof.Machine.execServeEnable now req enable s
  | .serveRingEnable now req ring enable => Sys2Proof.Machine.execServeRingEnable now req ring enable s
  | .prod now ring value => Sys2Proof.Machine.execProd now ring value s
  | .admission now ring => Sys2Proof.Machine.execAdmission now ring s
  | .requestDeadline now request => Sys2Proof.Machine.execRequestDeadline now request s
  | .txSlotFree now ring head => Sys2Proof.Machine.execTxSlotFree now ring head s
  | .svcRegister now req slot reqSlot respSlot nbind host => Sys2Proof.Machine.execSvcRegister now req slot reqSlot respSlot nbind host s
  | .svcUnregister now req slot => Sys2Proof.Machine.execSvcUnregister now req slot s
  | .svcUnregisterDone now => Sys2Proof.Machine.execSvcUnregisterDone now s
  | .svcRead now req slot => Sys2Proof.Machine.execSvcRead now req slot s
  | .runtimeBoot now => Sys2Proof.Machine.execRuntimeBoot now s
  | .bootGo now req image => Sys2Proof.Machine.execBootGo now req image s
  | .rollbackCommit now req => Sys2Proof.Machine.execRollbackCommit now req s
  | .fuseBlowDone now ok => Sys2Proof.Machine.execFuseBlowDone now ok s
  | .lockdown now req => Sys2Proof.Machine.execLockdown now req s
  | .lockDeadline now => Sys2Proof.Machine.execLockDeadline now s
  | .keyLoad now req slot minSvn host => Sys2Proof.Machine.execKeyLoad now req slot minSvn host s
  | .keyRevoke now req slot => Sys2Proof.Machine.execKeyRevoke now req slot s
  | .keyRead now req slot => Sys2Proof.Machine.execKeyRead now req slot s
  | .getVersion now doe => Sys2Proof.Machine.execGetVersion now doe s
  | .getCapabilities now doe => Sys2Proof.Machine.execGetCapabilities now doe s
  | .negotiateAlgorithms now doe offered => Sys2Proof.Machine.execNegotiateAlgorithms now doe offered s
  | .getDigests now doe => Sys2Proof.Machine.execGetDigests now doe s
  | .getCertificate now doe slot off len => Sys2Proof.Machine.execGetCertificate now doe slot off len s
  | .challenge now doe slot transcript => Sys2Proof.Machine.execChallenge now doe slot transcript s
  | .getMeasurements now doe index raw transcript => Sys2Proof.Machine.execGetMeasurements now doe index raw transcript s
  | .keyExchange now doe id transcript => Sys2Proof.Machine.execKeyExchange now doe id transcript s
  | .finish now doe id ok => Sys2Proof.Machine.execFinish now doe id ok s
  | .heartbeat now doe id => Sys2Proof.Machine.execHeartbeat now doe id s
  | .keyUpdate now doe id => Sys2Proof.Machine.execKeyUpdate now doe id s
  | .endSession now doe id => Sys2Proof.Machine.execEndSession now doe id s
  | .spdmUnsupported now doe => Sys2Proof.Machine.execSpdmUnsupported now doe s
  | .setEndpointId now eid => Sys2Proof.Machine.execSetEndpointId now eid s
  | .getEndpointId now => Sys2Proof.Machine.execGetEndpointId now s
  | .getMctpVersionSupport now type => Sys2Proof.Machine.execGetMctpVersionSupport now type s
  | .getMessageTypeSupport now => Sys2Proof.Machine.execGetMessageTypeSupport now s
  | .pldmBase now cmd arg => Sys2Proof.Machine.execPldmBase now cmd arg s
  | .pldmSensorRead now sensor => Sys2Proof.Machine.execPldmSensorRead now sensor s
  | .pollForPlatformEventMessage now => Sys2Proof.Machine.execPollForPlatformEventMessage now s
  | .pldmFirmwareUpdate now runtime image => Sys2Proof.Machine.execPldmFirmwareUpdate now runtime image s
  | .readReg now page off => Sys2Proof.Machine.execReadReg now page off s
  | .writeReg now page off value => Sys2Proof.Machine.execWriteReg now page off value s
  | .arbLost now => Sys2Proof.Machine.execArbLost now s
  | .autoWarm now => Sys2Proof.Machine.execAutoWarm now s
  | .faultAck now req => Sys2Proof.Machine.execFaultAck now req s
  | .pop now req => Sys2Proof.Machine.execPop now req s
  | .finjFire now req kind page => Sys2Proof.Machine.execFinjFire now req kind page s
  | .retentionFlagLost now level => Sys2Proof.Machine.execRetentionFlagLost now level s
  | .tideInFall now => Sys2Proof.Machine.execTideInFall now s
  | .stuckClear now req value => Sys2Proof.Machine.execStuckClear now req value s
  | .cableSeated now link => Sys2Proof.Machine.execCableSeated now link s
  | .port1LinkUp now gen width => Sys2Proof.Machine.execPort1LinkUp now gen width s
  | .configurationWrite now w => Sys2Proof.Machine.execConfigurationWrite now w s
  | .msixTableWrite now fn w => Sys2Proof.Machine.execMsixTableWrite now fn w s
  | .hdmDecoderCommit now base => Sys2Proof.Machine.execHdmDecoderCommit now base s
  | .atsTranslationDone now fn page granted => Sys2Proof.Machine.execAtsTranslationDone now fn page granted s
  | .bisnpResponse now line dirty => Sys2Proof.Machine.execBisnpResponse now line dirty s
  | .sustainedBudgetWrite now req watts => Sys2Proof.Machine.execSustainedBudgetWrite now req watts s
  | .tideModeWrite now req mode => Sys2Proof.Machine.execTideModeWrite now req mode s
  | .watermarkMarkWrite now req which mark hyst => Sys2Proof.Machine.execWatermarkMarkWrite now req which mark hyst s
  | .cellarLinkUp now found => Sys2Proof.Machine.execCellarLinkUp now found s
  | .laneLockLost now link => Sys2Proof.Machine.execLaneLockLost now link s
  | .memberSetResend now => Sys2Proof.Machine.execMemberSetResend now s
  | .handbackTransferDone now node => Sys2Proof.Machine.execHandbackTransferDone now node s

end Sys2Proof.Machine
end

