-- ==== Sys2Proof/WellFormed.lean ====
section
/-! DEFINITION. Which commands are well formed: their operands name units that the module has, and their fields have the widths that the spec
gives them. -/

namespace Sys2Proof

/-- A requester: a function below 32 (R59, R106), a node ID of 16 bits (R424). -/
def Requester.wf : Requester → Bool
  | .cores => true
  | .m1 => true
  | .remote node => decide (node < 65536)
  | .fn n => decide (n < 32)

/-- A message whose header fields fit Table 20-3, its body the limit of R414. -/
def Packet.wf (p : Packet) : Bool :=
  decide (p.dst < 65536) && decide (p.src < 65536) && decide (p.typ < 256) && decide (p.route < 16) && decide (p.reqSeq < 2 ^ 32) &&
    decide (p.gen < 256) && decide (p.flags < 2) && decide (p.tag < 65536) && decide (p.addr < 2 ^ 48) && decide (p.status < 256) &&
    decide (p.subtype < 256) && decide (p.rlen < 65536) && decide (p.body.length ≤ if p.typ = 4 ∨ p.typ = 5 then 16384 else 4096)

/-- A watermark of a ring that exists. -/
def Watermark.wf : Watermark → Bool
  | .completion ring => decide (ring < 64)
  | .cream | .skim | .park | .damageLog | .stores | .lag | .admission => true

/-- A configuration write of a function that exists. -/
def ConfigWrite.wf (w : ConfigWrite) : Bool := decide (w.fn < 32)

/-- A command is well formed. -/
def Instr.wf : Instr → Bool
  | .p54vRise _ _ => true
  | .modPgAssert _ => true
  | .moduleResetRelease _ _ => true
  | .strapChanged _ _ => true
  | .resetNPulse _ _ => true
  | .perst0NLevel _ _ => true
  | .perst0WarmReset _ => true
  | .perst1NLevel _ _ => true
  | .pwrBrakeN _ _ => true
  | .tideInRise _ => true
  | .stuckSpanExpire _ _ => true
  | .zkPrsntN _ link => decide (link < 6)
  | .cprsntN _ drive _ => decide (drive < 4)
  | .m1BusTimeout _ _ => true
  | .undervoltage _ _ => true
  | .lowBand _ _ => true
  | .overvoltage _ _ => true
  | .ovRelease _ _ => true
  | .thermalThrottle _ _ => true
  | .thermalTrip _ _ => true
  | .pdSwitchOn _ domain => decide (domain < 6)
  | .tiersReady _ _ _ _ => true
  | .pd3Off _ req _ => req.wf
  | .pd5Off _ req _ => req.wf
  | .pdRetrained _ domain => decide (domain < 6)
  | .leaveRequest _ _ _ => true
  | .leaveRelease _ _ _ => true
  | .leaveTimeout _ _ => true
  | .calWriteDue _ => true
  | .saveNow _ req _ => req.wf
  | .calWriteEnd _ _ => true
  | .warmReq _ req => req.wf
  | .herdReq _ req => req.wf
  | .herdReset _ p => p.wf
  | .functionLevelReset _ fn => decide (fn < 32)
  | .blockReset _ req _ => req.wf
  | .blockResetEnd _ _ _ _ => true
  | .blockResetTimeout _ _ _ => true
  | .regWrite _ req _ _ _ _ => req.wf
  | .unmappedAccess _ req _ _ _ => req.wf
  | .pgLock _ req _ => req.wf
  | .pgCtrlEnable _ req _ _ => req.wf
  | .pgCtrlQuiesce _ req _ _ => req.wf
  | .pgCtrlOutOfService _ req _ _ => req.wf
  | .pgSync _ req _ => req.wf
  | .errInjectFire _ req _ _ => req.wf
  | .injectionDelivered _ _ _ => true
  | .errFirstClear _ req _ => req.wf
  | .regParity _ _ _ _ => true
  | .irqRoute _ req _ _ => req.wf
  | .modTimeExpire _ _ _ => true
  | .vatCfg _ req _ => req.wf
  | .extentGrant _ => true
  | .sliceStart _ _ _ _ _ _ => true
  | .unitFail _ cream unit => decide (unit < (if cream then 4 else 16))
  | .scrubPass _ _ _ _ => true
  | .regionAlloc _ req _ _ => req.wf
  | .regionFree _ req _ => req.wf
  | .regionRead _ req _ => req.wf
  | .regionCmdDone _ => true
  | .cellarMode _ req _ => req.wf
  | .driveBringUp _ d _ _ _ _ => decide (d < 16)
  | .rescan _ req _ => req.wf
  | .driveOos _ req _ => req.wf
  | .cellarCmdTimeout _ d _ => decide (d < 16)
  | .abortTimeout _ d _ => decide (d < 16)
  | .cellarCmdComplete _ d _ _ _ => decide (d < 16)
  | .driveLost _ d => decide (d < 16)
  | .biasToDevice _ req _ _ _ => req.wf
  | .biasToHost _ req _ _ _ => req.wf
  | .biasQuery _ req _ _ => req.wf
  | .biasFlipDone _ => true
  | .hostHdmAccess _ _ _ _ => true
  | .bar4Access _ fn _ _ _ _ _ => decide (fn < 32)
  | .syncWordRead _ fn _ _ _ => decide (fn < 32)
  | .atsInvalidation _ fn _ => decide (fn < 32)
  | .atsInvalidationComplete _ fn _ => decide (fn < 32)
  | .hostReadComplete _ _ _ _ => true
  | .hostTimeout _ _ => true
  | .hostSnoop _ _ _ => true
  | .biTimeout _ _ => true
  | .port1LinkDown _ => true
  | .port0LinkDown _ => true
  | .port0LinkUp _ _ _ _ _ => true
  | .hostHeartbeat _ req _ => req.wf
  | .hbSpanExpire _ => true
  | .hostLoss _ => true
  | .claim _ req => req.wf
  | .discard _ req => req.wf
  | .hostTierResume _ req => req.wf
  | .sqDoorbell _ fn ring _ _ _ => decide (fn < 32) && decide (ring < 64)
  | .cqHeadDoorbell _ fn ring _ _ => decide (fn < 32) && decide (ring < 64)
  | .descFetch _ fn ring => decide (fn < 32) && decide (ring < 64)
  | .descFetchDone _ fn ring _ _ => decide (fn < 32) && decide (ring < 64)
  | .run _ _ => true
  | .fence _ _ => true
  | .waitTide _ _ => true
  | .waitTideTimeout _ _ => true
  | .signal _ _ => true
  | .mirrorCut _ _ => true
  | .parkDrain _ _ => true
  | .nop _ _ => true
  | .jobComplete _ _ => true
  | .sliceEnd _ _ _ => true
  | .sliceBound _ _ _ => true
  | .sqEnable _ req ring _ => decide (ring < 64) && req.wf
  | .cqEnable _ req ring _ => decide (ring < 64) && req.wf
  | .sqRetry _ req ring => decide (ring < 64) && req.wf
  | .rnWait _ _ _ _ _ => true
  | .rnWaitTimeout _ _ => true
  | .rnDelay _ _ _ => true
  | .delayWake _ _ => true
  | .rnCtrAlloc _ _ _ => true
  | .rnCtrSub _ _ _ _ _ => true
  | .rnCtrFree _ _ _ _ => true
  | .rnCopy _ _ _ _ _ _ _ _ _ => true
  | .rnBudget _ _ => true
  | .rnTide _ _ => true
  | .ecallUnknown _ _ => true
  | .copyComplete _ _ _ _ => true
  | .stageReturn _ _ _ _ _ _ => true
  | .stageFault _ _ _ => true
  | .fenceI _ _ _ => true
  | .quantumExpiry _ _ => true
  | .stageOverrun _ _ => true
  | .ctrArm _ req _ _ => req.wf
  | .ctrSub _ req _ _ => req.wf
  | .ctrDisarm _ req _ => req.wf
  | .flowOpen _ req _ _ _ => req.wf
  | .flowClose _ req _ => req.wf
  | .flowAdvance _ req _ _ => req.wf
  | .coreOos _ req _ => req.wf
  | .coreFail _ core _ => decide (core < 16)
  | .l2Ue _ _ => true
  | .beatSend _ => true
  | .beatApply _ _ => true
  | .reportReceive _ _ => true
  | .hostTide _ req _ => req.wf
  | .alarmArm _ req _ _ _ _ _ => req.wf
  | .srcOpen _ req _ _ => req.wf
  | .srcClose _ req _ => req.wf
  | .srcLow _ req _ => req.wf
  | .srcIdle _ req _ => req.wf
  | .srcActive _ req _ => req.wf
  | .srcRead _ req _ => req.wf
  | .sourceIdleExpire _ _ => true
  | .beatLost _ => true
  | .intakeSurvey _ _ => true
  | .dlogHead _ req _ => req.wf
  | .dlogEnable _ req _ => req.wf
  | .dictRegister _ req _ => req.wf
  | .dictUnregister _ req _ => req.wf
  | .dictUnregisterDone _ => true
  | .dictRead _ req _ => req.wf
  | .probeOm64 _ req => req.wf
  | .probeCrc _ req => req.wf
  | .strainerWrite _ req _ => req.wf
  | .strainerRead _ req _ => req.wf
  | .strainerInvalidate _ req _ => req.wf
  | .strainerSearch _ req _ _ => req.wf
  | .bankCfgWidth _ req bank _ => decide (bank < 32) && req.wf
  | .bankCfgOos _ req bank _ => decide (bank < 32) && req.wf
  | .scrubStep _ bank _ _ => decide (bank < 32)
  | .loadWritePass _ _ _ _ => true
  | .partitionReload _ _ _ => true
  | .runaheadProbe _ _ _ _ => true
  | .rows _ p => p.wf
  | .endBuild _ p => p.wf
  | .endProbe _ p => p.wf
  | .storeOpen _ req _ _ _ => req.wf
  | .storeClose _ req _ => req.wf
  | .storeRead _ req _ => req.wf
  | .storeClear _ req _ => req.wf
  | .tblCreate _ req _ _ _ => req.wf
  | .tblDestroy _ req _ => req.wf
  | .tblRead _ req _ => req.wf
  | .tblBind _ req _ => req.wf
  | .tblInvalidate _ req _ => req.wf
  | .tblShard _ req _ => req.wf
  | .tblCmdDone _ => true
  | .gather _ p _ => p.wf
  | .update _ p => p.wf
  | .sent _ p => p.wf
  | .stepClose _ p _ => p.wf
  | .applied _ p => p.wf
  | .stepDone _ p => p.wf
  | .loadReport _ p => p.wf
  | .prep _ p _ => p.wf
  | .shardCopy _ p => p.wf
  | .commit _ p => p.wf
  | .logHandoff _ p => p.wf
  | .tableCmd _ p => p.wf
  | .cancel _ p => p.wf
  | .prefetch _ _ _ _ => true
  | .linkTrain _ link => decide (link < 6)
  | .trainingDone _ link _ _ _ _ => decide (link < 6)
  | .config _ link _ => decide (link < 6)
  | .auth _ link _ => decide (link < 6)
  | .flitReceive _ link _ => decide (link < 6)
  | .nak _ link _ => decide (link < 6)
  | .ackTimeout _ link => decide (link < 6)
  | .retrainReq _ link => decide (link < 6)
  | .retrainDone _ link => decide (link < 6)
  | .retrainTimeout _ link => decide (link < 6)
  | .fullTrain _ req link => decide (link < 6) && req.wf
  | .read _ p _ => p.wf
  | .write _ p _ => p.wf
  | .bulkWrite _ p _ => p.wf
  | .responseReceive _ p => p.wf
  | .e2eTimeout _ _ => true
  | .linkState _ p => p.wf
  | .routeSet _ p => p.wf
  | .routeAck _ p => p.wf
  | .queryDst _ req _ => req.wf
  | .jobImage _ p => p.wf
  | .jobStart _ p => p.wf
  | .partEnd _ p => p.wf
  | .jobKill _ p => p.wf
  | .leadClaim _ link p => decide (link < 6) && p.wf
  | .formMsExpire _ => true
  | .herdForm _ link p => decide (link < 7) && p.wf
  | .join _ p => p.wf
  | .memberSet _ link p => decide (link < 6) && p.wf
  | .memberAck _ p => p.wf
  | .electAck _ p => p.wf
  | .leave _ p => p.wf
  | .leadTakeover _ => true
  | .isolated _ => true
  | .twinPair _ p => p.wf
  | .mirror _ _ p => p.wf
  | .twinCut _ _ p => p.wf
  | .twinAck _ _ p => p.wf
  | .herdJoin _ req => req.wf
  | .herdLeave _ req => req.wf
  | .admitId _ req _ => req.wf
  | .bootReq _ link p => decide (link < 6) && p.wf
  | .bootData _ link p => decide (link < 6) && p.wf
  | .bootFallback _ => true
  | .serveEnable _ req _ => req.wf
  | .serveRingEnable _ req ring _ => decide (ring < 16) && req.wf
  | .prod _ ring _ => decide (ring < 16)
  | .admission _ ring => decide (ring < 16)
  | .requestDeadline _ _ => true
  | .txSlotFree _ ring _ => decide (ring < 16)
  | .svcRegister _ req _ _ _ _ _ => req.wf
  | .svcUnregister _ req _ => req.wf
  | .svcUnregisterDone _ => true
  | .svcRead _ req _ => req.wf
  | .runtimeBoot _ => true
  | .bootGo _ req _ => req.wf
  | .rollbackCommit _ req => req.wf
  | .fuseBlowDone _ _ => true
  | .lockdown _ req => req.wf
  | .lockDeadline _ => true
  | .keyLoad _ req _ _ _ => req.wf
  | .keyRevoke _ req _ => req.wf
  | .keyRead _ req _ => req.wf
  | .getVersion _ _ => true
  | .getCapabilities _ _ => true
  | .negotiateAlgorithms _ _ _ => true
  | .getDigests _ _ => true
  | .getCertificate _ _ _ _ _ => true
  | .challenge _ _ _ _ => true
  | .getMeasurements _ _ _ _ _ => true
  | .keyExchange _ _ _ _ => true
  | .finish _ _ _ _ => true
  | .heartbeat _ _ _ => true
  | .keyUpdate _ _ _ => true
  | .endSession _ _ _ => true
  | .spdmUnsupported _ _ => true
  | .setEndpointId _ _ => true
  | .getEndpointId _ => true
  | .getMctpVersionSupport _ _ => true
  | .getMessageTypeSupport _ => true
  | .pldmBase _ _ _ => true
  | .pldmSensorRead _ _ => true
  | .pollForPlatformEventMessage _ => true
  | .pldmFirmwareUpdate _ _ _ => true
  | .readReg _ _ _ => true
  | .writeReg _ _ _ _ => true
  | .arbLost _ => true
  | .autoWarm _ => true
  | .faultAck _ req => req.wf
  | .pop _ req => req.wf
  | .finjFire _ req _ _ => req.wf
  | .retentionFlagLost _ _ => true
  | .tideInFall _ => true
  | .stuckClear _ req _ => req.wf
  | .cableSeated _ link => decide (link < 6)
  | .port1LinkUp _ _ _ => true
  | .configurationWrite _ w => w.wf
  | .msixTableWrite _ fn _ => decide (fn < 32)
  | .hdmDecoderCommit _ _ => true
  | .atsTranslationDone _ fn _ _ => decide (fn < 32)
  | .bisnpResponse _ _ _ => true
  | .sustainedBudgetWrite _ req _ => req.wf
  | .tideModeWrite _ req _ => req.wf
  | .watermarkMarkWrite _ req which _ _ => which.wf && req.wf
  | .cellarLinkUp _ _ => true
  | .laneLockLost _ link => decide (link < 6)
  | .memberSetResend _ => true
  | .handbackTransferDone _ _ => true

end Sys2Proof
end

