-- ==== Sys2Proof/Safety.lean ====
section
/-! DEFINITION. What claims call a safe state and a safe step. -/

namespace Sys2Proof.Machine

/-- Memory, ring storage and the register store are in their canonical forms, so that equal contents are equal data. -/
def State.canonical (s : State) : Bool := Memory.wf s.mem && Memory.wf s.host.ringStore && Table.rising s.regs

/-- Every command that waits names only units the module has (`Instr.wf`). -/
def State.queueWf (s : State) : Bool := s.pending.all Instr.wf

/-- The invariant of every step: canonical data, a queue of well-formed commands. -/
def State.inv (s : State) : Bool := s.canonical && s.queueWf

/-- A step is safe when it answers a next state: neither a fault nor a refusal. -/
def safeStep (s : State) : Prop := ∃ t, step s = .next t

/-- What no command does to the rest of the module: the queue stays as it is, outputs that have left are not taken back, an open value is
never used twice, canonical data stay canonical. -/
structure Keeps (s t : State) : Prop where
  pending : t.pending = s.pending
  out : ∃ os, t.out = s.out ++ os
  free : s.free ≤ t.free
  canonical : s.canonical = true → t.canonical = true

/-- A write of the requester reaches the register and takes effect: the page is presented and answers, the requester may write, neither an undeclared
host loss nor a block reset holds the write (R59 to R76, R109, R519). -/
def State.takes (s : State) (req : Requester) (page off : Nat) : Prop := s.writeWay req page off = .applied

/-- The register takes the write, and its page is not locked. -/
def State.opens (s : State) (req : Requester) (page off : Nat) : Prop := s.takes req page off ∧ s.locked (ownerOf req page) page = false

/-- The state that a register write leaves before the register's own effect: its plain fields stored under the access codes and the lock, PG_SYNC
counted. -/
def State.stored (s : State) (req : Requester) (page off : Nat) (v : Word) : State := s.regWrite req page off v noHook

/-- A register write that reaches the module at a time takes effect on an open page, and `u` is the state it leaves before the register's own
effect. -/
def State.lands (s : State) (now : Nat) (req : Requester) (page off : Nat) (v : Word) (u : State) : Prop :=
  (s.at now).opens req page off ∧ u = (s.at now).stored req page off v

/-- A request that has arrived whole for the first time takes effect on `u`, with the joined payload `bytes` of its run (R418, R430). -/
def State.arrives (s : State) (now : Nat) (p : Packet) (u : State) (bytes : Bytes) : Prop :=
  s.power.released = true ∧ s.arrival p.dst p.src p.reqSeq = .fresh ∧ (s.at now).joinRun p = (u, some bytes)

/-- The parts of the state beside the queue, the outputs and the count of open values. -/
inductive Part where
  | chrono | regs | pages | notices | pins | power | leave | cal | mem
  | tiers | host | work | rennet | tide | node | fabric | twin | strainer
  | dlog | churn | ladle | herd | hosted | serve | rolar | stores | faults
  | fatalAt | platformEvents
  deriving DecidableEq, Repr

/-- A part is the same in two states. -/
def Part.same : Part → State → State → Prop
  | .chrono, s, t => t.chrono = s.chrono
  | .regs, s, t => t.regs = s.regs
  | .pages, s, t => t.pages = s.pages
  | .notices, s, t => t.notices = s.notices
  | .pins, s, t => t.pins = s.pins
  | .power, s, t => t.power = s.power
  | .leave, s, t => t.leave = s.leave
  | .cal, s, t => t.cal = s.cal
  | .mem, s, t => t.mem = s.mem
  | .tiers, s, t => t.tiers = s.tiers
  | .host, s, t => t.host = s.host
  | .work, s, t => t.work = s.work
  | .rennet, s, t => t.rennet = s.rennet
  | .tide, s, t => t.tide = s.tide
  | .node, s, t => t.node = s.node
  | .fabric, s, t => t.fabric = s.fabric
  | .twin, s, t => t.twin = s.twin
  | .strainer, s, t => t.strainer = s.strainer
  | .dlog, s, t => t.dlog = s.dlog
  | .churn, s, t => t.churn = s.churn
  | .ladle, s, t => t.ladle = s.ladle
  | .herd, s, t => t.herd = s.herd
  | .hosted, s, t => t.hosted = s.hosted
  | .serve, s, t => t.serve = s.serve
  | .rolar, s, t => t.rolar = s.rolar
  | .stores, s, t => t.stores = s.stores
  | .faults, s, t => t.faults = s.faults
  | .fatalAt, s, t => t.fatalAt = s.fatalAt
  | .platformEvents, s, t => t.platformEvents = s.platformEvents

end Sys2Proof.Machine

namespace Sys2Proof

/-- The chronometer reading at which a command takes effect. -/
def Instr.now : Instr → Nat
  | .p54vRise now _ => now
  | .modPgAssert now => now
  | .moduleResetRelease now _ => now
  | .strapChanged now _ => now
  | .resetNPulse now _ => now
  | .perst0NLevel now _ => now
  | .perst0WarmReset now => now
  | .perst1NLevel now _ => now
  | .pwrBrakeN now _ => now
  | .tideInRise now => now
  | .stuckSpanExpire now _ => now
  | .zkPrsntN now _ => now
  | .cprsntN now _ _ => now
  | .m1BusTimeout now _ => now
  | .undervoltage now _ => now
  | .lowBand now _ => now
  | .overvoltage now _ => now
  | .ovRelease now _ => now
  | .thermalThrottle now _ => now
  | .thermalTrip now _ => now
  | .pdSwitchOn now _ => now
  | .tiersReady now _ _ _ => now
  | .pd3Off now _ _ => now
  | .pd5Off now _ _ => now
  | .pdRetrained now _ => now
  | .leaveRequest now _ _ => now
  | .leaveRelease now _ _ => now
  | .leaveTimeout now _ => now
  | .calWriteDue now => now
  | .saveNow now _ _ => now
  | .calWriteEnd now _ => now
  | .warmReq now _ => now
  | .herdReq now _ => now
  | .herdReset now _ => now
  | .functionLevelReset now _ => now
  | .blockReset now _ _ => now
  | .blockResetEnd now _ _ _ => now
  | .blockResetTimeout now _ _ => now
  | .regWrite now _ _ _ _ _ => now
  | .unmappedAccess now _ _ _ _ => now
  | .pgLock now _ _ => now
  | .pgCtrlEnable now _ _ _ => now
  | .pgCtrlQuiesce now _ _ _ => now
  | .pgCtrlOutOfService now _ _ _ => now
  | .pgSync now _ _ => now
  | .errInjectFire now _ _ _ => now
  | .injectionDelivered now _ _ => now
  | .errFirstClear now _ _ => now
  | .regParity now _ _ _ => now
  | .irqRoute now _ _ _ => now
  | .modTimeExpire now _ _ => now
  | .vatCfg now _ _ => now
  | .extentGrant now => now
  | .sliceStart now _ _ _ _ _ => now
  | .unitFail now _ _ => now
  | .scrubPass now _ _ _ => now
  | .regionAlloc now _ _ _ => now
  | .regionFree now _ _ => now
  | .regionRead now _ _ => now
  | .regionCmdDone now => now
  | .cellarMode now _ _ => now
  | .driveBringUp now _ _ _ _ _ => now
  | .rescan now _ _ => now
  | .driveOos now _ _ => now
  | .cellarCmdTimeout now _ _ => now
  | .abortTimeout now _ _ => now
  | .cellarCmdComplete now _ _ _ _ => now
  | .driveLost now _ => now
  | .biasToDevice now _ _ _ _ => now
  | .biasToHost now _ _ _ _ => now
  | .biasQuery now _ _ _ => now
  | .biasFlipDone now => now
  | .hostHdmAccess now _ _ _ => now
  | .bar4Access now _ _ _ _ _ _ => now
  | .syncWordRead now _ _ _ _ => now
  | .atsInvalidation now _ _ => now
  | .atsInvalidationComplete now _ _ => now
  | .hostReadComplete now _ _ _ => now
  | .hostTimeout now _ => now
  | .hostSnoop now _ _ => now
  | .biTimeout now _ => now
  | .port1LinkDown now => now
  | .port0LinkDown now => now
  | .port0LinkUp now _ _ _ _ => now
  | .hostHeartbeat now _ _ => now
  | .hbSpanExpire now => now
  | .hostLoss now => now
  | .claim now _ => now
  | .discard now _ => now
  | .hostTierResume now _ => now
  | .sqDoorbell now _ _ _ _ _ => now
  | .cqHeadDoorbell now _ _ _ _ => now
  | .descFetch now _ _ => now
  | .descFetchDone now _ _ _ _ => now
  | .run now _ => now
  | .fence now _ => now
  | .waitTide now _ => now
  | .waitTideTimeout now _ => now
  | .signal now _ => now
  | .mirrorCut now _ => now
  | .parkDrain now _ => now
  | .nop now _ => now
  | .jobComplete now _ => now
  | .sliceEnd now _ _ => now
  | .sliceBound now _ _ => now
  | .sqEnable now _ _ _ => now
  | .cqEnable now _ _ _ => now
  | .sqRetry now _ _ => now
  | .rnWait now _ _ _ _ => now
  | .rnWaitTimeout now _ => now
  | .rnDelay now _ _ => now
  | .delayWake now _ => now
  | .rnCtrAlloc now _ _ => now
  | .rnCtrSub now _ _ _ _ => now
  | .rnCtrFree now _ _ _ => now
  | .rnCopy now _ _ _ _ _ _ _ _ => now
  | .rnBudget now _ => now
  | .rnTide now _ => now
  | .ecallUnknown now _ => now
  | .copyComplete now _ _ _ => now
  | .stageReturn now _ _ _ _ _ => now
  | .stageFault now _ _ => now
  | .fenceI now _ _ => now
  | .quantumExpiry now _ => now
  | .stageOverrun now _ => now
  | .ctrArm now _ _ _ => now
  | .ctrSub now _ _ _ => now
  | .ctrDisarm now _ _ => now
  | .flowOpen now _ _ _ _ => now
  | .flowClose now _ _ => now
  | .flowAdvance now _ _ _ => now
  | .coreOos now _ _ => now
  | .coreFail now _ _ => now
  | .l2Ue now _ => now
  | .beatSend now => now
  | .beatApply now _ => now
  | .reportReceive now _ => now
  | .hostTide now _ _ => now
  | .alarmArm now _ _ _ _ _ _ => now
  | .srcOpen now _ _ _ => now
  | .srcClose now _ _ => now
  | .srcLow now _ _ => now
  | .srcIdle now _ _ => now
  | .srcActive now _ _ => now
  | .srcRead now _ _ => now
  | .sourceIdleExpire now _ => now
  | .beatLost now => now
  | .intakeSurvey now _ => now
  | .dlogHead now _ _ => now
  | .dlogEnable now _ _ => now
  | .dictRegister now _ _ => now
  | .dictUnregister now _ _ => now
  | .dictUnregisterDone now => now
  | .dictRead now _ _ => now
  | .probeOm64 now _ => now
  | .probeCrc now _ => now
  | .strainerWrite now _ _ => now
  | .strainerRead now _ _ => now
  | .strainerInvalidate now _ _ => now
  | .strainerSearch now _ _ _ => now
  | .bankCfgWidth now _ _ _ => now
  | .bankCfgOos now _ _ _ => now
  | .scrubStep now _ _ _ => now
  | .loadWritePass now _ _ _ => now
  | .partitionReload now _ _ => now
  | .runaheadProbe now _ _ _ => now
  | .rows now _ => now
  | .endBuild now _ => now
  | .endProbe now _ => now
  | .storeOpen now _ _ _ _ => now
  | .storeClose now _ _ => now
  | .storeRead now _ _ => now
  | .storeClear now _ _ => now
  | .tblCreate now _ _ _ _ => now
  | .tblDestroy now _ _ => now
  | .tblRead now _ _ => now
  | .tblBind now _ _ => now
  | .tblInvalidate now _ _ => now
  | .tblShard now _ _ => now
  | .tblCmdDone now => now
  | .gather now _ _ => now
  | .update now _ => now
  | .sent now _ => now
  | .stepClose now _ _ => now
  | .applied now _ => now
  | .stepDone now _ => now
  | .loadReport now _ => now
  | .prep now _ _ => now
  | .shardCopy now _ => now
  | .commit now _ => now
  | .logHandoff now _ => now
  | .tableCmd now _ => now
  | .cancel now _ => now
  | .prefetch now _ _ _ => now
  | .linkTrain now _ => now
  | .trainingDone now _ _ _ _ _ => now
  | .config now _ _ => now
  | .auth now _ _ => now
  | .flitReceive now _ _ => now
  | .nak now _ _ => now
  | .ackTimeout now _ => now
  | .retrainReq now _ => now
  | .retrainDone now _ => now
  | .retrainTimeout now _ => now
  | .fullTrain now _ _ => now
  | .read now _ _ => now
  | .write now _ _ => now
  | .bulkWrite now _ _ => now
  | .responseReceive now _ => now
  | .e2eTimeout now _ => now
  | .linkState now _ => now
  | .routeSet now _ => now
  | .routeAck now _ => now
  | .queryDst now _ _ => now
  | .jobImage now _ => now
  | .jobStart now _ => now
  | .partEnd now _ => now
  | .jobKill now _ => now
  | .leadClaim now _ _ => now
  | .formMsExpire now => now
  | .herdForm now _ _ => now
  | .join now _ => now
  | .memberSet now _ _ => now
  | .memberAck now _ => now
  | .electAck now _ => now
  | .leave now _ => now
  | .leadTakeover now => now
  | .isolated now => now
  | .twinPair now _ => now
  | .mirror now _ _ => now
  | .twinCut now _ _ => now
  | .twinAck now _ _ => now
  | .herdJoin now _ => now
  | .herdLeave now _ => now
  | .admitId now _ _ => now
  | .bootReq now _ _ => now
  | .bootData now _ _ => now
  | .bootFallback now => now
  | .serveEnable now _ _ => now
  | .serveRingEnable now _ _ _ => now
  | .prod now _ _ => now
  | .admission now _ => now
  | .requestDeadline now _ => now
  | .txSlotFree now _ _ => now
  | .svcRegister now _ _ _ _ _ _ => now
  | .svcUnregister now _ _ => now
  | .svcUnregisterDone now => now
  | .svcRead now _ _ => now
  | .runtimeBoot now => now
  | .bootGo now _ _ => now
  | .rollbackCommit now _ => now
  | .fuseBlowDone now _ => now
  | .lockdown now _ => now
  | .lockDeadline now => now
  | .keyLoad now _ _ _ _ => now
  | .keyRevoke now _ _ => now
  | .keyRead now _ _ => now
  | .getVersion now _ => now
  | .getCapabilities now _ => now
  | .negotiateAlgorithms now _ _ => now
  | .getDigests now _ => now
  | .getCertificate now _ _ _ _ => now
  | .challenge now _ _ _ => now
  | .getMeasurements now _ _ _ _ => now
  | .keyExchange now _ _ _ => now
  | .finish now _ _ _ => now
  | .heartbeat now _ _ => now
  | .keyUpdate now _ _ => now
  | .endSession now _ _ => now
  | .spdmUnsupported now _ => now
  | .setEndpointId now _ => now
  | .getEndpointId now => now
  | .getMctpVersionSupport now _ => now
  | .getMessageTypeSupport now => now
  | .pldmBase now _ _ => now
  | .pldmSensorRead now _ => now
  | .pollForPlatformEventMessage now => now
  | .pldmFirmwareUpdate now _ _ => now
  | .readReg now _ _ => now
  | .writeReg now _ _ _ => now
  | .arbLost now => now
  | .autoWarm now => now
  | .faultAck now _ => now
  | .pop now _ => now
  | .finjFire now _ _ _ => now
  | .retentionFlagLost now _ => now
  | .tideInFall now => now
  | .stuckClear now _ _ => now
  | .cableSeated now _ => now
  | .port1LinkUp now _ _ => now
  | .configurationWrite now _ => now
  | .msixTableWrite now _ _ => now
  | .hdmDecoderCommit now _ => now
  | .atsTranslationDone now _ _ _ => now
  | .bisnpResponse now _ _ => now
  | .sustainedBudgetWrite now _ _ => now
  | .tideModeWrite now _ _ => now
  | .watermarkMarkWrite now _ _ _ _ => now
  | .cellarLinkUp now _ => now
  | .laneLockLost now _ => now
  | .memberSetResend now => now
  | .handbackTransferDone now _ => now

/-- The parts of the state that a command leaves as they are, whatever its operands and the state: the frame of each command. Its time apart, a command
changes no part that stands here. -/
def Instr.leaves : Instr → List Machine.Part
  | .p54vRise .. => [.chrono, .pages, .notices, .pins, .leave, .cal, .mem, .tiers, .host, .work, .rennet, .tide, .node, .fabric, .twin, .strainer,
      .dlog, .churn, .ladle, .herd, .hosted, .serve, .rolar, .stores, .faults, .fatalAt, .platformEvents]
  | .modPgAssert .. => [.chrono, .pages, .notices, .power, .leave, .cal, .mem, .tiers, .host, .work, .rennet, .tide, .node, .fabric, .twin,
      .strainer, .dlog, .churn, .ladle, .herd, .hosted, .serve, .stores, .faults, .fatalAt, .platformEvents]
  | .moduleResetRelease .. => [.chrono, .pages, .notices, .leave, .mem, .tiers, .host, .work, .rennet, .tide, .node, .fabric, .twin, .strainer,
      .dlog, .churn, .ladle, .hosted, .serve, .stores, .faults, .fatalAt, .platformEvents]
  | .strapChanged .. => [.chrono, .pages, .notices, .power, .leave, .cal, .mem, .tiers, .host, .work, .rennet, .tide, .node, .fabric, .twin,
      .strainer, .dlog, .churn, .ladle, .hosted, .serve, .rolar, .stores, .faults, .fatalAt, .platformEvents]
  | .resetNPulse .. => [.chrono, .pins, .faults, .platformEvents]
  | .perst0NLevel .. => [.chrono, .notices, .power, .leave, .cal, .mem, .tiers, .rennet, .tide, .node, .fabric, .twin, .strainer, .dlog, .churn,
      .ladle, .herd, .hosted, .rolar, .stores, .faults, .fatalAt, .platformEvents]
  | .perst0WarmReset .. => [.chrono, .faults, .platformEvents]
  | .perst1NLevel .. => [.chrono, .cal, .tide, .node, .dlog, .churn, .herd, .rolar, .stores, .faults, .fatalAt, .platformEvents]
  | .pwrBrakeN .. => [.chrono, .pages, .notices, .power, .cal, .mem, .tiers, .host, .rennet, .tide, .node, .fabric, .twin, .strainer, .dlog,
      .churn, .ladle, .herd, .hosted, .serve, .rolar, .stores, .faults, .fatalAt, .platformEvents]
  | .tideInRise .. => [.chrono, .power, .leave, .cal, .dlog, .churn, .serve, .rolar, .fatalAt]
  | .stuckSpanExpire .. => [.chrono, .pages, .notices, .pins, .power, .leave, .cal, .mem, .tiers, .host, .work, .rennet, .tide, .node, .fabric,
      .twin, .strainer, .dlog, .churn, .ladle, .herd, .hosted, .serve, .rolar, .stores, .faults, .fatalAt, .platformEvents]
  | .zkPrsntN .. => [.chrono, .power, .leave, .cal, .tide, .node, .strainer, .dlog, .churn, .ladle, .herd, .serve, .rolar, .stores, .fatalAt]
  | .cprsntN .. => [.chrono, .power, .cal, .tide, .node, .dlog, .churn, .herd, .rolar, .fatalAt]
  | .m1BusTimeout .. => [.chrono, .regs, .pages, .notices, .pins, .power, .leave, .cal, .mem, .tiers, .host, .work, .rennet, .tide, .node, .fabric,
      .twin, .strainer, .dlog, .churn, .ladle, .herd, .hosted, .serve, .stores, .faults, .fatalAt, .platformEvents]
  | .undervoltage .. => []
  | .lowBand .. => [.chrono, .pages, .notices, .pins, .cal, .mem, .tiers, .host, .rennet, .tide, .node, .fabric, .twin, .strainer, .dlog, .churn,
      .ladle, .herd, .hosted, .serve, .rolar, .stores, .faults, .fatalAt, .platformEvents]
  | .overvoltage .. => [.chrono, .pages, .notices, .pins, .cal, .tide, .rolar, .faults, .fatalAt, .platformEvents]
  | .ovRelease .. => [.chrono, .pins, .faults, .platformEvents]
  | .thermalThrottle .. => [.chrono, .pages, .notices, .pins, .cal, .mem, .tiers, .host, .rennet, .tide, .node, .fabric, .twin, .strainer, .dlog,
      .churn, .ladle, .herd, .hosted, .serve, .rolar, .stores, .faults, .fatalAt, .platformEvents]
  | .thermalTrip .. => [.chrono, .notices, .pins, .cal, .tide, .rolar]
  | .pdSwitchOn .. => [.chrono, .regs, .pages, .notices, .pins, .leave, .cal, .mem, .tiers, .host, .work, .rennet, .tide, .node, .fabric, .twin,
      .strainer, .dlog, .churn, .ladle, .herd, .hosted, .serve, .rolar, .stores, .faults, .fatalAt, .platformEvents]
  | .tiersReady .. => [.chrono, .pins, .power, .tide, .node, .dlog, .churn, .herd, .rolar, .stores, .fatalAt]
  | .pd3Off .. => [.chrono, .pins, .cal, .tide, .dlog, .churn, .rolar, .fatalAt]
  | .pd5Off .. => [.chrono, .pins, .cal, .tide, .dlog, .churn, .rolar, .fatalAt]
  | .pdRetrained .. => [.chrono, .regs, .pages, .notices, .pins, .leave, .cal, .mem, .host, .work, .rennet, .tide, .node, .twin, .strainer, .dlog,
      .churn, .ladle, .herd, .hosted, .serve, .rolar, .stores, .faults, .fatalAt, .platformEvents]
  | .leaveRequest .. => [.chrono, .notices, .pins, .power, .cal, .mem, .tide, .node, .fabric, .twin, .strainer, .dlog, .churn, .ladle, .herd,
      .hosted, .serve, .rolar, .stores, .fatalAt]
  | .leaveRelease .. => [.chrono, .pages, .notices, .pins, .power, .cal, .mem, .tiers, .host, .rennet, .tide, .node, .fabric, .twin, .strainer,
      .dlog, .churn, .ladle, .herd, .hosted, .serve, .rolar, .stores, .faults, .fatalAt, .platformEvents]
  | .leaveTimeout .. => [.chrono, .notices, .pins, .power, .cal, .mem, .tide, .node, .fabric, .twin, .strainer, .dlog, .churn, .ladle, .herd,
      .hosted, .serve, .rolar, .stores, .fatalAt]
  | .calWriteDue .. => [.chrono, .regs, .pages, .notices, .pins, .power, .leave, .mem, .tiers, .host, .work, .rennet, .tide, .node, .fabric, .twin,
      .strainer, .dlog, .churn, .ladle, .herd, .hosted, .serve, .rolar, .stores, .faults, .fatalAt, .platformEvents]
  | .saveNow .. => [.chrono, .notices, .pins, .power, .leave, .mem, .tiers, .work, .rennet, .tide, .node, .fabric, .twin, .strainer, .dlog, .churn,
      .ladle, .herd, .hosted, .serve, .rolar, .stores, .faults, .fatalAt, .platformEvents]
  | .calWriteEnd .. => [.chrono, .pages, .notices, .pins, .power, .leave, .mem, .tiers, .host, .work, .rennet, .tide, .node, .fabric, .twin,
      .strainer, .dlog, .churn, .ladle, .herd, .hosted, .serve, .rolar, .stores, .faults, .fatalAt, .platformEvents]
  | .warmReq .. => [.chrono, .pins, .faults, .platformEvents]
  | .herdReq .. => [.chrono, .pins, .faults, .platformEvents]
  | .herdReset .. => [.chrono, .pins, .cal, .node, .dlog, .rolar, .fatalAt]
  | .functionLevelReset .. => [.chrono, .pins, .cal, .tide, .node, .dlog, .churn, .herd, .rolar, .stores, .faults, .fatalAt, .platformEvents]
  | .blockReset .. => [.chrono, .pins, .cal, .node, .dlog, .churn, .herd, .rolar, .stores, .fatalAt]
  | .blockResetEnd .. => [.chrono, .pins]
  | .blockResetTimeout .. => [.chrono, .pins]
  | .regWrite .. => [.chrono, .pins]
  | .unmappedAccess .. => [.chrono, .notices, .pins, .power, .leave, .cal, .mem, .tiers, .host, .work, .rennet, .tide, .node, .fabric, .twin,
      .strainer, .dlog, .churn, .ladle, .herd, .hosted, .serve, .rolar, .stores, .faults, .fatalAt, .platformEvents]
  | .pgLock .. => [.chrono, .notices, .pins, .power, .leave, .cal, .mem, .tiers, .work, .rennet, .tide, .node, .fabric, .twin, .strainer, .dlog,
      .churn, .ladle, .herd, .hosted, .serve, .rolar, .stores, .faults, .fatalAt, .platformEvents]
  | .pgCtrlEnable .. => [.chrono, .pins, .cal, .node, .dlog, .churn, .herd, .rolar, .stores, .fatalAt]
  | .pgCtrlQuiesce .. => [.chrono, .pins, .cal, .node, .dlog, .churn, .herd, .rolar, .stores, .fatalAt]
  | .pgCtrlOutOfService .. => [.chrono, .pins, .cal, .node, .dlog, .churn, .herd, .rolar, .stores, .fatalAt]
  | .pgSync .. => [.chrono, .notices, .pins, .power, .leave, .cal, .mem, .tiers, .host, .work, .rennet, .tide, .node, .fabric, .twin, .strainer,
      .dlog, .churn, .ladle, .herd, .hosted, .serve, .rolar, .stores, .faults, .fatalAt, .platformEvents]
  | .errInjectFire .. => [.chrono, .notices, .pins, .power, .leave, .cal, .mem, .tiers, .work, .rennet, .tide, .node, .fabric, .twin, .strainer,
      .dlog, .churn, .ladle, .herd, .hosted, .serve, .rolar, .stores, .faults, .fatalAt, .platformEvents]
  | .injectionDelivered .. => [.chrono, .notices, .pins, .power, .leave, .cal, .mem, .tiers, .host, .work, .rennet, .tide, .node, .fabric, .twin,
      .strainer, .dlog, .churn, .ladle, .herd, .hosted, .serve, .rolar, .stores, .faults, .fatalAt, .platformEvents]
  | .errFirstClear .. => [.chrono, .notices, .pins, .power, .leave, .cal, .mem, .tiers, .work, .rennet, .tide, .node, .fabric, .twin, .strainer,
      .dlog, .churn, .ladle, .herd, .hosted, .serve, .rolar, .stores, .faults, .fatalAt, .platformEvents]
  | .regParity .. => [.chrono, .notices, .pins, .power, .cal, .mem, .tide, .node, .fabric, .twin, .strainer, .dlog, .churn, .ladle, .herd, .hosted,
      .serve, .rolar, .stores]
  | .irqRoute .. => [.chrono, .notices, .pins, .power, .leave, .cal, .mem, .tiers, .work, .rennet, .tide, .node, .fabric, .twin, .strainer, .dlog,
      .churn, .ladle, .herd, .hosted, .serve, .rolar, .stores, .faults, .fatalAt, .platformEvents]
  | .modTimeExpire .. => [.chrono, .regs, .notices, .pins, .power, .leave, .cal, .mem, .tiers, .host, .work, .rennet, .tide, .node, .fabric, .twin,
      .strainer, .dlog, .churn, .ladle, .herd, .hosted, .serve, .rolar, .stores, .faults, .fatalAt, .platformEvents]
  | .vatCfg .. => [.chrono, .notices, .pins, .power, .leave, .cal, .mem, .tiers, .work, .rennet, .tide, .node, .fabric, .twin, .strainer, .dlog,
      .churn, .ladle, .herd, .hosted, .serve, .rolar, .stores, .faults, .fatalAt, .platformEvents]
  | .extentGrant .. => [.chrono, .pins, .power, .cal, .node, .churn, .herd, .serve, .rolar, .stores, .fatalAt]
  | .sliceStart .. => [.chrono, .pins, .power, .cal, .node, .churn, .herd, .serve, .rolar, .stores, .fatalAt]
  | .unitFail .. => [.chrono, .pins, .power, .cal, .tide, .node, .dlog, .churn, .herd, .rolar, .stores, .fatalAt]
  | .scrubPass .. => [.chrono, .notices, .pins, .power, .leave, .cal, .mem, .host, .work, .rennet, .tide, .node, .fabric, .twin, .strainer, .dlog,
      .churn, .ladle, .herd, .hosted, .serve, .rolar, .stores, .faults, .fatalAt, .platformEvents]
  | .regionAlloc .. => [.chrono, .notices, .pins, .power, .leave, .cal, .mem, .work, .rennet, .tide, .node, .fabric, .twin, .strainer, .dlog,
      .churn, .ladle, .herd, .hosted, .serve, .rolar, .stores, .faults, .fatalAt, .platformEvents]
  | .regionFree .. => [.chrono, .notices, .pins, .power, .leave, .cal, .mem, .work, .rennet, .tide, .node, .fabric, .twin, .strainer, .dlog,
      .churn, .ladle, .herd, .hosted, .serve, .rolar, .stores, .faults, .fatalAt, .platformEvents]
  | .regionRead .. => [.chrono, .notices, .pins, .power, .leave, .cal, .mem, .work, .rennet, .tide, .node, .fabric, .twin, .strainer, .dlog,
      .churn, .ladle, .herd, .hosted, .serve, .rolar, .stores, .faults, .fatalAt, .platformEvents]
  | .regionCmdDone .. => [.chrono, .pages, .notices, .pins, .power, .leave, .cal, .work, .rennet, .tide, .node, .fabric, .twin, .strainer, .dlog,
      .churn, .ladle, .herd, .hosted, .serve, .rolar, .stores, .faults, .fatalAt, .platformEvents]
  | .cellarMode .. => [.chrono, .notices, .pins, .power, .leave, .cal, .mem, .work, .rennet, .tide, .node, .fabric, .twin, .strainer, .dlog,
      .churn, .ladle, .herd, .hosted, .serve, .rolar, .stores, .faults, .fatalAt, .platformEvents]
  | .driveBringUp .. => [.chrono, .pins, .power, .leave, .cal, .tide, .node, .strainer, .dlog, .churn, .ladle, .herd, .hosted, .serve, .rolar,
      .faults, .fatalAt, .platformEvents]
  | .rescan .. => [.chrono, .pins, .power, .cal, .tide, .node, .dlog, .churn, .herd, .rolar, .fatalAt]
  | .driveOos .. => [.chrono, .pins, .power, .cal, .tide, .node, .dlog, .churn, .herd, .rolar, .fatalAt]
  | .cellarCmdTimeout .. => [.chrono, .notices, .pins, .power, .leave, .cal, .mem, .host, .work, .rennet, .tide, .node, .fabric, .twin, .strainer,
      .dlog, .churn, .ladle, .herd, .hosted, .serve, .rolar, .stores, .faults, .fatalAt, .platformEvents]
  | .abortTimeout .. => [.chrono, .pins, .power, .cal, .tide, .node, .dlog, .churn, .herd, .rolar, .fatalAt]
  | .cellarCmdComplete .. => [.chrono, .pins, .power, .cal, .node, .churn, .herd, .rolar, .fatalAt]
  | .driveLost .. => [.chrono, .pins, .power, .cal, .tide, .node, .dlog, .churn, .herd, .rolar, .fatalAt]
  | .biasToDevice .. => [.chrono, .notices, .pins, .power, .leave, .cal, .mem, .tiers, .work, .rennet, .tide, .node, .fabric, .twin, .strainer,
      .dlog, .churn, .ladle, .herd, .hosted, .serve, .rolar, .stores, .faults, .fatalAt, .platformEvents]
  | .biasToHost .. => [.chrono, .notices, .pins, .power, .leave, .cal, .mem, .tiers, .work, .rennet, .tide, .node, .fabric, .twin, .strainer,
      .dlog, .churn, .ladle, .herd, .hosted, .serve, .rolar, .stores, .faults, .fatalAt, .platformEvents]
  | .biasQuery .. => [.chrono, .notices, .pins, .power, .leave, .cal, .mem, .tiers, .work, .rennet, .tide, .node, .fabric, .twin, .strainer, .dlog,
      .churn, .ladle, .herd, .hosted, .serve, .rolar, .stores, .faults, .fatalAt, .platformEvents]
  | .biasFlipDone .. => [.chrono, .pins]
  | .hostHdmAccess .. => [.chrono, .notices, .pins, .power, .leave, .cal, .work, .rennet, .tide, .node, .fabric, .twin, .strainer, .dlog, .churn,
      .ladle, .herd, .hosted, .serve, .rolar, .stores, .faults, .fatalAt, .platformEvents]
  | .bar4Access .. => [.chrono, .notices, .pins, .power, .leave, .cal, .work, .rennet, .tide, .node, .fabric, .twin, .strainer, .dlog, .churn,
      .ladle, .herd, .hosted, .rolar, .stores, .faults, .fatalAt, .platformEvents]
  | .syncWordRead .. => [.chrono, .notices, .pins, .power, .leave, .cal, .work, .rennet, .tide, .node, .fabric, .twin, .strainer, .dlog, .churn,
      .ladle, .herd, .hosted, .rolar, .stores, .faults, .fatalAt, .platformEvents]
  | .atsInvalidation .. => [.chrono, .pages, .notices, .pins, .power, .leave, .cal, .mem, .tiers, .work, .rennet, .tide, .node, .fabric, .twin,
      .strainer, .dlog, .churn, .ladle, .herd, .hosted, .serve, .rolar, .stores, .faults, .fatalAt, .platformEvents]
  | .atsInvalidationComplete .. => [.chrono, .regs, .pages, .notices, .pins, .power, .leave, .cal, .mem, .tiers, .work, .rennet, .tide, .node,
      .fabric, .twin, .strainer, .dlog, .churn, .ladle, .herd, .hosted, .serve, .rolar, .stores, .faults, .fatalAt, .platformEvents]
  | .hostReadComplete .. => [.chrono, .pins, .power, .cal, .node, .churn, .herd, .serve, .rolar, .fatalAt]
  | .hostTimeout .. => [.chrono, .pins, .power, .cal, .tide, .node, .strainer, .dlog, .churn, .ladle, .herd, .serve, .rolar, .stores, .fatalAt]
  | .hostSnoop .. => [.chrono, .pages, .notices, .pins, .power, .leave, .cal, .mem, .tiers, .work, .rennet, .tide, .node, .fabric, .twin,
      .strainer, .dlog, .churn, .ladle, .herd, .hosted, .serve, .rolar, .stores, .faults, .fatalAt, .platformEvents]
  | .biTimeout .. => [.chrono, .pins]
  | .port1LinkDown .. => [.chrono, .pins, .cal, .tide, .node, .dlog, .churn, .herd, .rolar, .stores, .faults, .fatalAt, .platformEvents]
  | .port0LinkDown .. => [.chrono, .notices, .pins, .power, .leave, .cal, .mem, .tiers, .rennet, .tide, .node, .fabric, .twin, .strainer, .dlog,
      .churn, .ladle, .herd, .hosted, .rolar, .stores, .faults, .fatalAt, .platformEvents]
  | .port0LinkUp .. => [.chrono, .regs, .pages, .notices, .pins, .power, .leave, .cal, .mem, .tiers, .work, .rennet, .tide, .node, .fabric, .twin,
      .strainer, .dlog, .churn, .ladle, .herd, .hosted, .serve, .rolar, .stores, .faults, .fatalAt, .platformEvents]
  | .hostHeartbeat .. => [.chrono, .notices, .pins, .power, .leave, .cal, .mem, .tiers, .work, .rennet, .tide, .node, .fabric, .twin, .strainer,
      .dlog, .churn, .ladle, .herd, .hosted, .serve, .rolar, .stores, .faults, .fatalAt, .platformEvents]
  | .hbSpanExpire .. => [.chrono, .regs, .pages, .notices, .pins, .power, .leave, .cal, .mem, .tiers, .work, .rennet, .tide, .node, .fabric, .twin,
      .strainer, .dlog, .churn, .ladle, .herd, .hosted, .serve, .rolar, .stores, .faults, .fatalAt, .platformEvents]
  | .hostLoss .. => [.chrono, .pins, .power, .cal, .node, .churn, .herd, .serve, .rolar, .fatalAt]
  | .claim .. => [.chrono, .pins, .power, .leave, .cal, .tide, .node, .strainer, .dlog, .churn, .ladle, .herd, .hosted, .serve, .rolar, .stores,
      .faults, .fatalAt, .platformEvents]
  | .discard .. => [.chrono, .pins, .power, .leave, .cal, .tide, .node, .strainer, .dlog, .churn, .ladle, .herd, .hosted, .serve, .rolar, .stores,
      .faults, .fatalAt, .platformEvents]
  | .hostTierResume .. => [.chrono, .pins, .power, .leave, .cal, .tide, .node, .strainer, .dlog, .churn, .ladle, .herd, .hosted, .serve, .rolar,
      .stores, .faults, .fatalAt, .platformEvents]
  | .sqDoorbell .. => [.chrono, .notices, .pins, .power, .leave, .cal, .mem, .tiers, .rennet, .tide, .node, .fabric, .twin, .strainer, .dlog,
      .churn, .ladle, .herd, .hosted, .serve, .rolar, .stores, .faults, .fatalAt, .platformEvents]
  | .cqHeadDoorbell .. => [.chrono, .pins, .power, .leave, .cal, .tide, .node, .strainer, .dlog, .churn, .ladle, .herd, .hosted, .serve, .rolar,
      .stores, .faults, .fatalAt, .platformEvents]
  | .descFetch .. => [.chrono, .regs, .pages, .notices, .pins, .power, .leave, .cal, .mem, .tiers, .host, .rennet, .tide, .node, .fabric, .twin,
      .strainer, .dlog, .churn, .ladle, .herd, .hosted, .serve, .rolar, .stores, .faults, .fatalAt, .platformEvents]
  | .descFetchDone .. => [.chrono, .pins, .power, .leave, .cal, .tide, .node, .strainer, .dlog, .churn, .ladle, .herd, .hosted, .serve, .rolar,
      .stores, .faults, .fatalAt, .platformEvents]
  | .run .. => [.chrono, .pins, .power, .leave, .cal, .tide, .node, .strainer, .dlog, .churn, .ladle, .herd, .hosted, .serve, .rolar, .faults,
      .fatalAt, .platformEvents]
  | .fence .. => [.chrono, .pins, .power, .leave, .cal, .tide, .node, .strainer, .dlog, .churn, .ladle, .herd, .hosted, .serve, .rolar, .stores,
      .faults, .fatalAt, .platformEvents]
  | .waitTide .. => [.chrono, .pins, .power, .leave, .cal, .tide, .node, .strainer, .dlog, .churn, .ladle, .herd, .hosted, .serve, .rolar, .stores,
      .faults, .fatalAt, .platformEvents]
  | .waitTideTimeout .. => [.chrono, .pins, .power, .leave, .cal, .tide, .node, .strainer, .dlog, .churn, .ladle, .herd, .hosted, .serve, .rolar,
      .stores, .faults, .fatalAt, .platformEvents]
  | .signal .. => [.chrono, .pins, .power, .leave, .cal, .tide, .node, .strainer, .dlog, .churn, .ladle, .herd, .hosted, .serve, .rolar, .stores,
      .faults, .fatalAt, .platformEvents]
  | .mirrorCut .. => [.chrono, .pins, .power, .leave, .cal, .tide, .node, .strainer, .dlog, .churn, .ladle, .herd, .hosted, .serve, .rolar,
      .stores, .faults, .fatalAt, .platformEvents]
  | .parkDrain .. => [.chrono, .pins, .power, .leave, .cal, .tide, .node, .strainer, .dlog, .churn, .ladle, .herd, .hosted, .serve, .rolar,
      .stores, .faults, .fatalAt, .platformEvents]
  | .nop .. => [.chrono, .pins, .power, .leave, .cal, .tide, .node, .strainer, .dlog, .churn, .ladle, .herd, .hosted, .serve, .rolar, .stores,
      .faults, .fatalAt, .platformEvents]
  | .jobComplete .. => [.chrono, .pins, .power, .cal, .tide, .node, .dlog, .churn, .herd, .rolar, .fatalAt]
  | .sliceEnd .. => [.chrono, .pins, .power, .cal, .mem, .tide, .node, .fabric, .twin, .strainer, .dlog, .churn, .ladle, .herd, .hosted, .serve,
      .rolar, .fatalAt]
  | .sliceBound .. => [.chrono, .pins, .power, .cal, .mem, .tide, .node, .fabric, .twin, .strainer, .dlog, .churn, .ladle, .herd, .hosted, .serve,
      .rolar, .fatalAt]
  | .sqEnable .. => [.chrono, .pins, .power, .leave, .cal, .tide, .node, .strainer, .dlog, .churn, .ladle, .herd, .hosted, .serve, .rolar, .stores,
      .faults, .fatalAt, .platformEvents]
  | .cqEnable .. => [.chrono, .pins, .power, .leave, .cal, .mem, .tiers, .rennet, .tide, .node, .fabric, .twin, .strainer, .dlog, .churn, .ladle,
      .herd, .hosted, .serve, .rolar, .stores, .faults, .fatalAt, .platformEvents]
  | .sqRetry .. => [.chrono, .pins, .power, .leave, .cal, .tide, .node, .strainer, .dlog, .churn, .ladle, .herd, .hosted, .serve, .rolar, .stores,
      .faults, .fatalAt, .platformEvents]
  | .rnWait .. => [.chrono, .notices, .pins, .power, .cal, .mem, .tide, .node, .fabric, .twin, .strainer, .dlog, .churn, .ladle, .herd, .hosted,
      .serve, .rolar, .stores, .fatalAt]
  | .rnWaitTimeout .. => [.chrono, .regs, .pages, .notices, .pins, .power, .leave, .cal, .mem, .tiers, .host, .work, .tide, .node, .fabric, .twin,
      .strainer, .dlog, .churn, .ladle, .herd, .hosted, .serve, .rolar, .stores, .faults, .fatalAt, .platformEvents]
  | .rnDelay .. => [.chrono, .notices, .pins, .power, .cal, .mem, .tide, .node, .fabric, .twin, .strainer, .dlog, .churn, .ladle, .herd, .hosted,
      .serve, .rolar, .stores, .fatalAt]
  | .delayWake .. => [.chrono, .regs, .pages, .notices, .pins, .power, .leave, .cal, .mem, .tiers, .host, .work, .tide, .node, .fabric, .twin,
      .strainer, .dlog, .churn, .ladle, .herd, .hosted, .serve, .rolar, .stores, .faults, .fatalAt, .platformEvents]
  | .rnCtrAlloc .. => [.chrono, .notices, .pins, .power, .cal, .mem, .tide, .node, .fabric, .twin, .strainer, .dlog, .churn, .ladle, .herd,
      .hosted, .serve, .rolar, .stores, .fatalAt]
  | .rnCtrSub .. => [.chrono, .notices, .pins, .power, .cal, .mem, .tide, .node, .fabric, .twin, .strainer, .dlog, .churn, .ladle, .herd, .hosted,
      .serve, .rolar, .stores, .fatalAt]
  | .rnCtrFree .. => [.chrono, .notices, .pins, .power, .cal, .mem, .tide, .node, .fabric, .twin, .strainer, .dlog, .churn, .ladle, .herd, .hosted,
      .serve, .rolar, .stores, .fatalAt]
  | .rnCopy .. => [.chrono, .notices, .pins, .power, .cal, .mem, .tide, .node, .twin, .strainer, .dlog, .churn, .ladle, .herd, .hosted, .serve,
      .rolar, .stores, .fatalAt]
  | .rnBudget .. => [.chrono, .notices, .pins, .power, .cal, .mem, .tide, .node, .fabric, .twin, .strainer, .dlog, .churn, .ladle, .herd, .hosted,
      .serve, .rolar, .stores, .fatalAt]
  | .rnTide .. => [.chrono, .notices, .pins, .power, .cal, .mem, .tide, .node, .fabric, .twin, .strainer, .dlog, .churn, .ladle, .herd, .hosted,
      .serve, .rolar, .stores, .fatalAt]
  | .ecallUnknown .. => [.chrono, .notices, .pins, .power, .cal, .mem, .tide, .node, .fabric, .twin, .strainer, .dlog, .churn, .ladle, .herd,
      .hosted, .serve, .rolar, .stores, .fatalAt]
  | .copyComplete .. => [.chrono, .pins, .power, .leave, .cal, .tide, .node, .twin, .strainer, .dlog, .churn, .ladle, .herd, .hosted, .serve,
      .rolar, .stores, .faults, .fatalAt, .platformEvents]
  | .stageReturn .. => [.chrono, .pins, .power, .cal, .node, .fabric, .twin, .strainer, .dlog, .churn, .ladle, .herd, .hosted, .serve, .rolar,
      .stores, .fatalAt]
  | .stageFault .. => [.chrono, .notices, .pins, .power, .cal, .mem, .tide, .node, .fabric, .twin, .strainer, .dlog, .churn, .ladle, .herd,
      .hosted, .serve, .rolar, .stores, .fatalAt]
  | .fenceI .. => [.chrono, .regs, .pages, .notices, .pins, .power, .leave, .cal, .mem, .tiers, .host, .work, .tide, .node, .fabric, .twin,
      .strainer, .dlog, .churn, .ladle, .herd, .hosted, .serve, .rolar, .stores, .faults, .fatalAt, .platformEvents]
  | .quantumExpiry .. => [.chrono, .regs, .pages, .notices, .pins, .power, .leave, .cal, .mem, .tiers, .host, .work, .tide, .node, .fabric, .twin,
      .strainer, .dlog, .churn, .ladle, .herd, .hosted, .serve, .rolar, .stores, .faults, .fatalAt, .platformEvents]
  | .stageOverrun .. => [.chrono, .notices, .pins, .power, .cal, .mem, .tide, .node, .fabric, .twin, .strainer, .dlog, .churn, .ladle, .herd,
      .hosted, .serve, .rolar, .stores, .fatalAt]
  | .ctrArm .. => [.chrono, .notices, .pins, .power, .leave, .cal, .mem, .tiers, .work, .tide, .node, .fabric, .twin, .strainer, .dlog, .churn,
      .ladle, .herd, .hosted, .serve, .rolar, .stores, .faults, .fatalAt, .platformEvents]
  | .ctrSub .. => [.chrono, .notices, .pins, .power, .leave, .cal, .mem, .tiers, .work, .tide, .node, .fabric, .twin, .strainer, .dlog, .churn,
      .ladle, .herd, .hosted, .serve, .rolar, .stores, .faults, .fatalAt, .platformEvents]
  | .ctrDisarm .. => [.chrono, .notices, .pins, .power, .leave, .cal, .mem, .tiers, .work, .tide, .node, .fabric, .twin, .strainer, .dlog, .churn,
      .ladle, .herd, .hosted, .serve, .rolar, .stores, .faults, .fatalAt, .platformEvents]
  | .flowOpen .. => [.chrono, .pins, .power, .leave, .cal, .tide, .node, .strainer, .dlog, .churn, .ladle, .herd, .hosted, .serve, .rolar, .stores,
      .faults, .fatalAt, .platformEvents]
  | .flowClose .. => [.chrono, .pins, .power, .leave, .cal, .tide, .node, .strainer, .dlog, .churn, .ladle, .herd, .hosted, .serve, .rolar,
      .stores, .faults, .fatalAt, .platformEvents]
  | .flowAdvance .. => [.chrono, .pins, .power, .leave, .cal, .tide, .node, .strainer, .dlog, .churn, .ladle, .herd, .hosted, .serve, .rolar,
      .stores, .faults, .fatalAt, .platformEvents]
  | .coreOos .. => [.chrono, .notices, .pins, .power, .leave, .cal, .mem, .tiers, .work, .tide, .node, .fabric, .twin, .strainer, .dlog, .churn,
      .ladle, .herd, .hosted, .serve, .rolar, .stores, .faults, .fatalAt, .platformEvents]
  | .coreFail .. => [.chrono, .pins, .power, .cal, .tide, .node, .dlog, .churn, .herd, .rolar, .stores]
  | .l2Ue .. => [.chrono, .notices, .pins, .power, .cal, .mem, .tide, .node, .fabric, .twin, .strainer, .dlog, .churn, .ladle, .herd, .hosted,
      .serve, .rolar, .stores]
  | .beatSend .. => [.chrono, .pins, .cal, .dlog, .rolar, .fatalAt]
  | .beatApply .. => [.chrono, .pins, .power, .leave, .cal, .dlog, .churn, .serve, .rolar, .fatalAt]
  | .reportReceive .. => [.chrono, .regs, .pages, .notices, .pins, .power, .leave, .cal, .mem, .tiers, .host, .work, .rennet, .node, .fabric,
      .twin, .strainer, .dlog, .churn, .ladle, .herd, .hosted, .serve, .rolar, .stores, .faults, .fatalAt, .platformEvents]
  | .hostTide .. => [.chrono, .notices, .pins, .power, .leave, .cal, .mem, .tiers, .work, .rennet, .node, .fabric, .twin, .strainer, .dlog, .churn,
      .ladle, .herd, .hosted, .serve, .rolar, .stores, .faults, .fatalAt, .platformEvents]
  | .alarmArm .. => [.chrono, .notices, .pins, .power, .leave, .cal, .mem, .tiers, .work, .node, .fabric, .twin, .strainer, .dlog, .churn, .ladle,
      .herd, .hosted, .serve, .rolar, .stores, .faults, .fatalAt, .platformEvents]
  | .srcOpen .. => [.chrono, .pins, .power, .leave, .cal, .mem, .tiers, .work, .rennet, .node, .fabric, .twin, .strainer, .dlog, .churn, .ladle,
      .herd, .hosted, .serve, .rolar, .stores, .faults, .fatalAt, .platformEvents]
  | .srcClose .. => [.chrono, .pins, .power, .leave, .cal, .mem, .tiers, .work, .rennet, .node, .fabric, .twin, .strainer, .dlog, .churn, .ladle,
      .herd, .hosted, .serve, .rolar, .stores, .faults, .fatalAt, .platformEvents]
  | .srcLow .. => [.chrono, .pins, .power, .leave, .cal, .mem, .tiers, .work, .rennet, .node, .fabric, .twin, .strainer, .dlog, .churn, .ladle,
      .herd, .hosted, .serve, .rolar, .stores, .faults, .fatalAt, .platformEvents]
  | .srcIdle .. => [.chrono, .pins, .power, .leave, .cal, .mem, .tiers, .work, .rennet, .node, .fabric, .twin, .strainer, .dlog, .churn, .ladle,
      .herd, .hosted, .serve, .rolar, .stores, .faults, .fatalAt, .platformEvents]
  | .srcActive .. => [.chrono, .pins, .power, .leave, .cal, .mem, .tiers, .work, .rennet, .node, .fabric, .twin, .strainer, .dlog, .churn, .ladle,
      .herd, .hosted, .serve, .rolar, .stores, .faults, .fatalAt, .platformEvents]
  | .srcRead .. => [.chrono, .pins, .power, .leave, .cal, .mem, .tiers, .work, .rennet, .node, .fabric, .twin, .strainer, .dlog, .churn, .ladle,
      .herd, .hosted, .serve, .rolar, .stores, .faults, .fatalAt, .platformEvents]
  | .sourceIdleExpire .. => [.chrono, .pins, .power, .leave, .cal, .mem, .tiers, .host, .work, .rennet, .node, .fabric, .twin, .strainer, .dlog,
      .churn, .ladle, .herd, .hosted, .serve, .rolar, .stores, .faults, .fatalAt, .platformEvents]
  | .beatLost .. => [.chrono, .notices, .pins, .power, .leave, .cal, .mem, .tiers, .host, .work, .rennet, .node, .twin, .strainer, .dlog, .churn,
      .ladle, .hosted, .serve, .rolar, .stores, .faults, .fatalAt, .platformEvents]
  | .intakeSurvey .. => [.chrono, .pins, .power, .cal, .tide, .node, .twin, .strainer, .churn, .ladle, .herd, .hosted, .serve, .rolar, .stores,
      .fatalAt]
  | .dlogHead .. => [.chrono, .pins, .power, .leave, .cal, .mem, .tiers, .work, .rennet, .tide, .node, .fabric, .twin, .strainer, .dlog, .churn,
      .ladle, .herd, .hosted, .serve, .rolar, .stores, .faults, .fatalAt, .platformEvents]
  | .dlogEnable .. => [.chrono, .pins, .power, .leave, .cal, .mem, .tiers, .work, .rennet, .tide, .node, .fabric, .twin, .strainer, .churn, .ladle,
      .herd, .hosted, .serve, .rolar, .stores, .faults, .fatalAt, .platformEvents]
  | .dictRegister .. => [.chrono, .notices, .pins, .power, .leave, .cal, .mem, .work, .rennet, .tide, .node, .fabric, .twin, .strainer, .dlog,
      .ladle, .herd, .hosted, .serve, .rolar, .stores, .faults, .fatalAt, .platformEvents]
  | .dictUnregister .. => [.chrono, .notices, .pins, .power, .leave, .cal, .mem, .work, .rennet, .tide, .node, .fabric, .twin, .strainer, .dlog,
      .ladle, .herd, .hosted, .serve, .rolar, .stores, .faults, .fatalAt, .platformEvents]
  | .dictUnregisterDone .. => [.chrono, .pages, .notices, .pins, .power, .leave, .cal, .mem, .host, .work, .rennet, .tide, .node, .fabric, .twin,
      .strainer, .dlog, .ladle, .herd, .hosted, .serve, .rolar, .stores, .faults, .fatalAt, .platformEvents]
  | .dictRead .. => [.chrono, .notices, .pins, .power, .leave, .cal, .mem, .work, .rennet, .tide, .node, .fabric, .twin, .strainer, .dlog, .ladle,
      .herd, .hosted, .serve, .rolar, .stores, .faults, .fatalAt, .platformEvents]
  | .probeOm64 .. => [.chrono, .notices, .pins, .power, .leave, .cal, .mem, .tiers, .host, .work, .rennet, .tide, .node, .fabric, .twin, .strainer,
      .dlog, .churn, .ladle, .herd, .hosted, .serve, .rolar, .stores, .faults, .fatalAt, .platformEvents]
  | .probeCrc .. => [.chrono, .notices, .pins, .power, .leave, .cal, .mem, .tiers, .host, .work, .rennet, .tide, .node, .fabric, .twin, .strainer,
      .dlog, .churn, .ladle, .herd, .hosted, .serve, .rolar, .stores, .faults, .fatalAt, .platformEvents]
  | .strainerWrite .. => [.chrono, .notices, .pins, .power, .leave, .cal, .mem, .tiers, .work, .rennet, .tide, .node, .fabric, .twin, .dlog,
      .churn, .ladle, .herd, .hosted, .serve, .rolar, .stores, .faults, .fatalAt, .platformEvents]
  | .strainerRead .. => [.chrono, .notices, .pins, .power, .leave, .cal, .mem, .tiers, .work, .rennet, .tide, .node, .fabric, .twin, .dlog, .churn,
      .ladle, .herd, .hosted, .serve, .rolar, .stores, .faults, .fatalAt, .platformEvents]
  | .strainerInvalidate .. => [.chrono, .notices, .pins, .power, .leave, .cal, .mem, .tiers, .work, .rennet, .tide, .node, .fabric, .twin, .dlog,
      .churn, .ladle, .herd, .hosted, .serve, .rolar, .stores, .faults, .fatalAt, .platformEvents]
  | .strainerSearch .. => [.chrono, .notices, .pins, .power, .leave, .cal, .mem, .tiers, .work, .rennet, .tide, .node, .fabric, .twin, .dlog,
      .churn, .ladle, .herd, .hosted, .serve, .rolar, .stores, .faults, .fatalAt, .platformEvents]
  | .bankCfgWidth .. => [.chrono, .notices, .pins, .power, .leave, .cal, .mem, .tiers, .work, .rennet, .tide, .node, .fabric, .twin, .dlog, .churn,
      .ladle, .herd, .hosted, .serve, .rolar, .stores, .faults, .fatalAt, .platformEvents]
  | .bankCfgOos .. => [.chrono, .notices, .pins, .power, .leave, .cal, .mem, .tiers, .work, .rennet, .tide, .node, .fabric, .twin, .dlog, .churn,
      .ladle, .herd, .hosted, .serve, .rolar, .stores, .faults, .fatalAt, .platformEvents]
  | .scrubStep .. => [.chrono, .notices, .pins, .power, .leave, .cal, .mem, .tiers, .host, .work, .rennet, .tide, .node, .fabric, .twin, .dlog,
      .churn, .ladle, .herd, .hosted, .serve, .rolar, .stores, .fatalAt]
  | .loadWritePass .. => [.chrono, .notices, .pins, .power, .cal, .mem, .tide, .node, .fabric, .twin, .dlog, .churn, .ladle, .herd, .hosted,
      .serve, .rolar, .stores, .fatalAt]
  | .partitionReload .. => [.chrono, .pins, .power, .cal, .mem, .tide, .node, .fabric, .twin, .strainer, .dlog, .churn, .ladle, .herd, .hosted,
      .serve, .rolar, .stores, .fatalAt]
  | .runaheadProbe .. => [.chrono, .pages, .notices, .pins, .power, .leave, .cal, .mem, .host, .rennet, .tide, .node, .fabric, .twin, .strainer,
      .dlog, .churn, .ladle, .herd, .hosted, .serve, .rolar, .stores, .faults, .fatalAt, .platformEvents]
  | .rows .. => [.chrono, .pins, .power, .cal, .mem, .tide, .node, .strainer, .dlog, .churn, .herd, .serve, .rolar, .stores, .fatalAt]
  | .endBuild .. => [.chrono, .notices, .pins, .power, .cal, .mem, .tide, .node, .strainer, .dlog, .churn, .herd, .serve, .rolar, .stores, .fatalAt]
  | .endProbe .. => [.chrono, .notices, .pins, .power, .cal, .mem, .tide, .node, .strainer, .dlog, .churn, .herd, .serve, .rolar, .stores, .fatalAt]
  | .storeOpen .. => [.chrono, .pins, .power, .leave, .cal, .mem, .work, .rennet, .tide, .node, .fabric, .twin, .strainer, .dlog, .churn, .ladle,
      .herd, .hosted, .serve, .rolar, .faults, .fatalAt, .platformEvents]
  | .storeClose .. => [.chrono, .pins, .power, .leave, .cal, .mem, .work, .rennet, .tide, .node, .fabric, .twin, .strainer, .dlog, .churn, .ladle,
      .herd, .hosted, .serve, .rolar, .faults, .fatalAt, .platformEvents]
  | .storeRead .. => [.chrono, .pins, .power, .leave, .cal, .mem, .work, .rennet, .tide, .node, .fabric, .twin, .strainer, .dlog, .churn, .ladle,
      .herd, .hosted, .serve, .rolar, .faults, .fatalAt, .platformEvents]
  | .storeClear .. => [.chrono, .pins, .power, .leave, .cal, .mem, .work, .rennet, .tide, .node, .fabric, .twin, .strainer, .dlog, .churn, .ladle,
      .herd, .hosted, .serve, .rolar, .faults, .fatalAt, .platformEvents]
  | .tblCreate .. => [.chrono, .pins, .power, .leave, .cal, .mem, .work, .rennet, .tide, .node, .twin, .strainer, .dlog, .churn, .herd, .hosted,
      .serve, .rolar, .stores, .faults, .fatalAt, .platformEvents]
  | .tblDestroy .. => [.chrono, .pins, .power, .leave, .cal, .mem, .work, .rennet, .tide, .node, .twin, .strainer, .dlog, .churn, .herd, .hosted,
      .serve, .rolar, .stores, .faults, .fatalAt, .platformEvents]
  | .tblRead .. => [.chrono, .pins, .power, .leave, .cal, .mem, .work, .rennet, .tide, .node, .twin, .strainer, .dlog, .churn, .herd, .hosted,
      .serve, .rolar, .stores, .faults, .fatalAt, .platformEvents]
  | .tblBind .. => [.chrono, .pins, .power, .leave, .cal, .mem, .work, .rennet, .tide, .node, .twin, .strainer, .dlog, .churn, .herd, .hosted,
      .serve, .rolar, .stores, .faults, .fatalAt, .platformEvents]
  | .tblInvalidate .. => [.chrono, .pins, .power, .leave, .cal, .mem, .work, .rennet, .tide, .node, .twin, .strainer, .dlog, .churn, .herd,
      .hosted, .serve, .rolar, .stores, .faults, .fatalAt, .platformEvents]
  | .tblShard .. => [.chrono, .pins, .power, .leave, .cal, .mem, .work, .rennet, .tide, .node, .twin, .strainer, .dlog, .churn, .herd, .hosted,
      .serve, .rolar, .stores, .faults, .fatalAt, .platformEvents]
  | .tblCmdDone .. => [.chrono, .pages, .notices, .pins, .power, .leave, .cal, .mem, .tiers, .host, .work, .rennet, .tide, .node, .fabric, .twin,
      .strainer, .dlog, .churn, .herd, .hosted, .serve, .rolar, .stores, .faults, .fatalAt, .platformEvents]
  | .gather .. => [.chrono, .notices, .pins, .power, .leave, .cal, .mem, .tiers, .work, .rennet, .tide, .node, .strainer, .dlog, .churn, .herd,
      .serve, .rolar, .stores, .faults, .fatalAt, .platformEvents]
  | .update .. => [.chrono, .pins, .power, .leave, .cal, .mem, .work, .rennet, .tide, .node, .strainer, .dlog, .churn, .herd, .serve, .rolar,
      .stores, .faults, .fatalAt, .platformEvents]
  | .sent .. => [.chrono, .pins, .power, .cal, .tide, .node, .strainer, .dlog, .churn, .herd, .serve, .rolar, .stores, .fatalAt]
  | .stepClose .. => [.chrono, .pins, .power, .cal, .tide, .node, .strainer, .dlog, .churn, .herd, .serve, .rolar, .stores, .fatalAt]
  | .applied .. => [.chrono, .pins, .power, .cal, .node, .churn, .herd, .rolar, .fatalAt]
  | .stepDone .. => [.chrono, .notices, .pins, .power, .cal, .mem, .tide, .node, .strainer, .dlog, .churn, .herd, .serve, .rolar, .stores, .fatalAt]
  | .loadReport .. => [.chrono, .notices, .pins, .power, .leave, .cal, .work, .rennet, .tide, .node, .strainer, .dlog, .churn, .herd, .serve,
      .rolar, .stores, .faults, .fatalAt, .platformEvents]
  | .prep .. => [.chrono, .notices, .pins, .power, .leave, .cal, .work, .rennet, .tide, .node, .strainer, .dlog, .churn, .herd, .serve, .rolar,
      .stores, .faults, .fatalAt, .platformEvents]
  | .shardCopy .. => [.chrono, .pins, .power, .leave, .cal, .mem, .work, .rennet, .tide, .node, .strainer, .dlog, .churn, .herd, .serve, .rolar,
      .stores, .faults, .fatalAt, .platformEvents]
  | .commit .. => [.chrono, .pins, .power, .leave, .cal, .mem, .work, .rennet, .tide, .node, .strainer, .dlog, .churn, .herd, .serve, .rolar,
      .stores, .faults, .fatalAt, .platformEvents]
  | .logHandoff .. => [.chrono, .pins, .power, .leave, .cal, .mem, .work, .rennet, .tide, .node, .strainer, .dlog, .churn, .herd, .serve, .rolar,
      .stores, .faults, .fatalAt, .platformEvents]
  | .tableCmd .. => [.chrono, .pins, .power, .leave, .cal, .mem, .work, .rennet, .tide, .node, .strainer, .dlog, .churn, .herd, .serve, .rolar,
      .stores, .faults, .fatalAt, .platformEvents]
  | .cancel .. => [.chrono, .pages, .notices, .pins, .power, .leave, .cal, .mem, .tiers, .work, .rennet, .tide, .node, .strainer, .dlog, .churn,
      .herd, .serve, .rolar, .stores, .faults, .fatalAt, .platformEvents]
  | .prefetch .. => [.chrono, .notices, .pins, .power, .leave, .cal, .mem, .host, .work, .rennet, .tide, .node, .twin, .strainer, .dlog, .churn,
      .herd, .hosted, .serve, .rolar, .stores, .faults, .fatalAt, .platformEvents]
  | .linkTrain .. => [.chrono, .regs, .pages, .notices, .pins, .power, .leave, .cal, .mem, .tiers, .host, .work, .rennet, .tide, .node, .twin,
      .strainer, .dlog, .churn, .ladle, .herd, .hosted, .serve, .rolar, .stores, .faults, .fatalAt, .platformEvents]
  | .trainingDone .. => [.chrono, .pins, .power, .leave, .tide, .node, .strainer, .dlog, .churn, .ladle, .herd, .serve, .rolar, .stores, .fatalAt]
  | .config .. => [.chrono, .pins, .power, .leave, .cal, .tide, .node, .strainer, .dlog, .churn, .ladle, .serve, .rolar, .stores, .fatalAt]
  | .auth .. => [.chrono, .pins, .power, .leave, .cal, .tide, .node, .strainer, .dlog, .churn, .ladle, .serve, .rolar, .stores, .fatalAt]
  | .flitReceive .. => [.chrono, .notices, .pins, .power, .leave, .cal, .mem, .tiers, .host, .work, .rennet, .tide, .node, .strainer, .dlog,
      .churn, .ladle, .herd, .hosted, .serve, .rolar, .stores, .faults, .fatalAt, .platformEvents]
  | .nak .. => [.chrono, .pins, .power, .leave, .cal, .tide, .node, .strainer, .dlog, .churn, .ladle, .herd, .serve, .rolar, .stores, .faults,
      .fatalAt, .platformEvents]
  | .ackTimeout .. => [.chrono, .pins, .power, .leave, .cal, .tide, .node, .strainer, .dlog, .churn, .ladle, .herd, .serve, .rolar, .stores,
      .faults, .fatalAt, .platformEvents]
  | .retrainReq .. => [.chrono, .pins, .power, .leave, .cal, .tide, .node, .strainer, .dlog, .churn, .ladle, .herd, .serve, .rolar, .stores,
      .faults, .fatalAt, .platformEvents]
  | .retrainDone .. => [.chrono, .pins, .power, .leave, .cal, .tide, .node, .strainer, .dlog, .churn, .ladle, .herd, .serve, .rolar, .stores,
      .faults, .fatalAt, .platformEvents]
  | .retrainTimeout .. => [.chrono, .pins, .power, .leave, .cal, .tide, .node, .strainer, .dlog, .churn, .ladle, .herd, .serve, .rolar, .stores,
      .fatalAt]
  | .fullTrain .. => [.chrono, .notices, .pins, .power, .leave, .cal, .mem, .tiers, .work, .rennet, .tide, .node, .twin, .strainer, .dlog, .churn,
      .ladle, .herd, .hosted, .serve, .rolar, .stores, .faults, .fatalAt, .platformEvents]
  | .read .. => [.chrono, .pins]
  | .write .. => [.chrono, .pins]
  | .bulkWrite .. => [.chrono, .pins]
  | .responseReceive .. => [.chrono, .pins, .power, .cal, .node, .churn, .herd, .rolar, .fatalAt]
  | .e2eTimeout .. => [.chrono, .pins, .power, .cal, .node, .churn, .herd, .rolar, .fatalAt]
  | .linkState .. => [.chrono, .pins, .power, .leave, .cal, .tide, .node, .strainer, .dlog, .churn, .ladle, .herd, .serve, .rolar, .stores,
      .faults, .fatalAt, .platformEvents]
  | .routeSet .. => [.chrono, .pins, .power, .leave, .cal, .tide, .node, .strainer, .dlog, .churn, .ladle, .herd, .serve, .rolar, .stores, .faults,
      .fatalAt, .platformEvents]
  | .routeAck .. => [.chrono, .regs, .pages, .notices, .pins, .power, .leave, .cal, .mem, .tiers, .host, .work, .rennet, .tide, .node, .twin,
      .strainer, .dlog, .churn, .ladle, .herd, .hosted, .serve, .rolar, .stores, .faults, .fatalAt, .platformEvents]
  | .queryDst .. => [.chrono, .notices, .pins, .power, .leave, .cal, .mem, .tiers, .work, .rennet, .tide, .node, .fabric, .twin, .strainer, .dlog,
      .churn, .ladle, .herd, .hosted, .serve, .rolar, .stores, .faults, .fatalAt, .platformEvents]
  | .jobImage .. => [.chrono, .pins, .power, .leave, .cal, .mem, .rennet, .tide, .node, .strainer, .dlog, .churn, .herd, .serve, .rolar, .faults,
      .fatalAt, .platformEvents]
  | .jobStart .. => [.chrono, .pins, .power, .leave, .cal, .mem, .rennet, .tide, .node, .strainer, .dlog, .churn, .herd, .serve, .rolar, .faults,
      .fatalAt, .platformEvents]
  | .partEnd .. => [.chrono, .pins, .power, .cal, .tide, .node, .dlog, .churn, .herd, .rolar, .fatalAt]
  | .jobKill .. => [.chrono, .pins, .power, .cal, .tide, .node, .dlog, .churn, .herd, .rolar, .stores, .faults, .fatalAt, .platformEvents]
  | .leadClaim .. => [.chrono, .pages, .notices, .pins, .power, .leave, .cal, .mem, .tiers, .host, .work, .rennet, .tide, .node, .twin, .strainer,
      .dlog, .churn, .ladle, .hosted, .serve, .rolar, .stores, .faults, .fatalAt, .platformEvents]
  | .formMsExpire .. => [.chrono, .pins, .power, .leave, .cal, .dlog, .churn, .serve, .rolar, .fatalAt]
  | .herdForm .. => [.chrono, .notices, .pins, .power, .leave, .cal, .mem, .tiers, .host, .work, .rennet, .tide, .node, .twin, .strainer, .dlog,
      .churn, .ladle, .hosted, .serve, .rolar, .stores, .faults, .fatalAt, .platformEvents]
  | .join .. => [.chrono, .pins, .power, .leave, .cal, .dlog, .churn, .serve, .rolar, .fatalAt]
  | .memberSet .. => [.chrono, .pins, .power, .leave, .cal, .dlog, .churn, .serve, .rolar, .fatalAt]
  | .memberAck .. => [.chrono, .pages, .notices, .pins, .power, .leave, .cal, .mem, .tiers, .host, .work, .rennet, .tide, .node, .twin, .strainer,
      .dlog, .churn, .ladle, .hosted, .serve, .rolar, .stores, .faults, .fatalAt, .platformEvents]
  | .electAck .. => [.chrono, .regs, .pages, .notices, .pins, .power, .leave, .cal, .mem, .tiers, .host, .work, .rennet, .tide, .node, .fabric,
      .twin, .strainer, .dlog, .churn, .ladle, .hosted, .serve, .rolar, .stores, .faults, .fatalAt, .platformEvents]
  | .leave .. => [.chrono, .pins, .power, .leave, .cal, .dlog, .churn, .serve, .rolar, .fatalAt]
  | .leadTakeover .. => [.chrono, .pins, .power, .leave, .cal, .dlog, .churn, .serve, .rolar, .fatalAt]
  | .isolated .. => [.chrono, .notices, .pins, .power, .leave, .cal, .mem, .tiers, .host, .work, .rennet, .tide, .node, .fabric, .twin, .strainer,
      .dlog, .churn, .ladle, .herd, .hosted, .serve, .rolar, .stores, .faults, .fatalAt, .platformEvents]
  | .twinPair .. => [.chrono, .notices, .pins, .power, .leave, .cal, .mem, .host, .work, .rennet, .tide, .node, .strainer, .dlog, .churn, .ladle,
      .herd, .hosted, .serve, .rolar, .stores, .faults, .fatalAt, .platformEvents]
  | .mirror .. => [.chrono, .pages, .notices, .pins, .power, .leave, .cal, .mem, .tiers, .host, .work, .rennet, .tide, .node, .strainer, .dlog,
      .churn, .ladle, .herd, .serve, .rolar, .stores, .faults, .fatalAt, .platformEvents]
  | .twinCut .. => [.chrono, .notices, .pins, .power, .leave, .cal, .mem, .host, .work, .rennet, .tide, .node, .strainer, .dlog, .churn, .ladle,
      .herd, .hosted, .serve, .rolar, .stores, .faults, .fatalAt, .platformEvents]
  | .twinAck .. => [.chrono, .pins, .power, .leave, .cal, .tide, .node, .strainer, .dlog, .churn, .ladle, .herd, .serve, .rolar, .stores, .faults,
      .fatalAt, .platformEvents]
  | .herdJoin .. => [.chrono, .pins, .power, .leave, .cal, .dlog, .churn, .serve, .rolar, .fatalAt]
  | .herdLeave .. => [.chrono, .pins, .power, .leave, .cal, .dlog, .churn, .serve, .rolar, .fatalAt]
  | .admitId .. => [.chrono, .pins, .power, .leave, .cal, .dlog, .churn, .serve, .rolar, .fatalAt]
  | .bootReq .. => [.chrono, .pages, .notices, .pins, .power, .leave, .cal, .mem, .tiers, .host, .work, .rennet, .tide, .node, .twin, .strainer,
      .dlog, .churn, .ladle, .herd, .hosted, .serve, .rolar, .stores, .faults, .fatalAt, .platformEvents]
  | .bootData .. => [.chrono, .notices, .pins, .power, .leave, .cal, .mem, .tiers, .host, .work, .rennet, .tide, .node, .twin, .strainer, .dlog,
      .churn, .ladle, .hosted, .serve, .stores, .faults, .fatalAt, .platformEvents]
  | .bootFallback .. => [.chrono, .notices, .pins, .power, .leave, .cal, .mem, .tiers, .host, .work, .rennet, .tide, .node, .fabric, .twin,
      .strainer, .dlog, .churn, .ladle, .hosted, .serve, .stores, .faults, .fatalAt, .platformEvents]
  | .serveEnable .. => [.chrono, .pins, .power, .leave, .cal, .mem, .rennet, .tide, .node, .fabric, .twin, .strainer, .dlog, .churn, .ladle, .herd,
      .hosted, .rolar, .stores, .faults, .fatalAt, .platformEvents]
  | .serveRingEnable .. => [.chrono, .pins, .power, .leave, .cal, .mem, .rennet, .tide, .node, .fabric, .twin, .strainer, .dlog, .churn, .ladle,
      .herd, .hosted, .rolar, .stores, .faults, .fatalAt, .platformEvents]
  | .prod .. => [.chrono, .notices, .pins, .power, .leave, .cal, .host, .work, .rennet, .tide, .node, .fabric, .twin, .strainer, .dlog, .churn,
      .ladle, .herd, .hosted, .rolar, .stores, .faults, .fatalAt, .platformEvents]
  | .admission .. => [.chrono, .pins, .power, .leave, .cal, .rennet, .tide, .node, .strainer, .dlog, .churn, .ladle, .herd, .hosted, .rolar,
      .faults, .fatalAt, .platformEvents]
  | .requestDeadline .. => [.chrono, .pins, .power, .cal, .tide, .node, .fabric, .dlog, .churn, .herd, .hosted, .rolar, .stores, .faults, .fatalAt,
      .platformEvents]
  | .txSlotFree .. => [.chrono, .pins, .power, .leave, .cal, .work, .rennet, .tide, .node, .fabric, .strainer, .dlog, .churn, .ladle, .herd,
      .hosted, .rolar, .stores, .faults, .fatalAt, .platformEvents]
  | .svcRegister .. => [.chrono, .notices, .pins, .power, .leave, .cal, .mem, .tiers, .work, .rennet, .tide, .node, .fabric, .twin, .strainer,
      .dlog, .churn, .ladle, .herd, .hosted, .rolar, .stores, .faults, .fatalAt, .platformEvents]
  | .svcUnregister .. => [.chrono, .notices, .pins, .power, .leave, .cal, .mem, .tiers, .work, .rennet, .tide, .node, .fabric, .twin, .strainer,
      .dlog, .churn, .ladle, .herd, .hosted, .rolar, .stores, .faults, .fatalAt, .platformEvents]
  | .svcUnregisterDone .. => [.chrono, .pages, .notices, .pins, .power, .leave, .cal, .mem, .tiers, .host, .work, .rennet, .tide, .node, .fabric,
      .twin, .strainer, .dlog, .churn, .ladle, .herd, .hosted, .rolar, .stores, .faults, .fatalAt, .platformEvents]
  | .svcRead .. => [.chrono, .notices, .pins, .power, .leave, .cal, .mem, .tiers, .work, .rennet, .tide, .node, .fabric, .twin, .strainer, .dlog,
      .churn, .ladle, .herd, .hosted, .rolar, .stores, .faults, .fatalAt, .platformEvents]
  | .runtimeBoot .. => [.chrono, .notices, .pins, .power, .leave, .cal, .mem, .tiers, .host, .work, .rennet, .tide, .node, .twin, .strainer, .dlog,
      .churn, .ladle, .herd, .hosted, .serve, .stores, .faults, .fatalAt, .platformEvents]
  | .bootGo .. => [.chrono, .notices, .pins, .power, .leave, .cal, .mem, .tiers, .work, .rennet, .tide, .node, .fabric, .twin, .strainer, .dlog,
      .churn, .ladle, .herd, .hosted, .serve, .stores, .faults, .fatalAt, .platformEvents]
  | .rollbackCommit .. => [.chrono, .notices, .pins, .power, .leave, .cal, .mem, .tiers, .work, .rennet, .tide, .node, .fabric, .twin, .strainer,
      .dlog, .churn, .ladle, .herd, .hosted, .serve, .stores, .faults, .fatalAt, .platformEvents]
  | .fuseBlowDone .. => [.chrono, .notices, .pins, .power, .leave, .cal, .mem, .tiers, .host, .work, .rennet, .tide, .node, .fabric, .twin,
      .strainer, .dlog, .churn, .ladle, .herd, .hosted, .serve, .stores, .faults, .fatalAt, .platformEvents]
  | .lockdown .. => [.chrono, .notices, .pins, .power, .leave, .cal, .mem, .tiers, .work, .rennet, .tide, .node, .fabric, .twin, .strainer, .dlog,
      .churn, .ladle, .herd, .hosted, .serve, .rolar, .stores, .faults, .fatalAt, .platformEvents]
  | .lockDeadline .. => [.chrono, .pages, .notices, .pins, .power, .leave, .cal, .mem, .tiers, .host, .work, .rennet, .tide, .node, .fabric, .twin,
      .strainer, .dlog, .churn, .ladle, .herd, .hosted, .serve, .rolar, .stores, .faults, .fatalAt, .platformEvents]
  | .keyLoad .. => [.chrono, .notices, .pins, .power, .leave, .cal, .mem, .tiers, .work, .rennet, .tide, .node, .fabric, .twin, .strainer, .dlog,
      .churn, .ladle, .herd, .hosted, .serve, .stores, .faults, .fatalAt, .platformEvents]
  | .keyRevoke .. => [.chrono, .notices, .pins, .power, .leave, .cal, .mem, .tiers, .work, .rennet, .tide, .node, .fabric, .twin, .strainer, .dlog,
      .churn, .ladle, .herd, .hosted, .serve, .stores, .faults, .fatalAt, .platformEvents]
  | .keyRead .. => [.chrono, .notices, .pins, .power, .leave, .cal, .mem, .tiers, .work, .rennet, .tide, .node, .fabric, .twin, .strainer, .dlog,
      .churn, .ladle, .herd, .hosted, .serve, .stores, .faults, .fatalAt, .platformEvents]
  | .getVersion .. => [.chrono, .regs, .pages, .notices, .pins, .power, .leave, .cal, .mem, .tiers, .host, .work, .rennet, .tide, .node, .fabric,
      .twin, .strainer, .dlog, .churn, .ladle, .herd, .hosted, .serve, .stores, .faults, .fatalAt, .platformEvents]
  | .getCapabilities .. => [.chrono, .regs, .pages, .notices, .pins, .power, .leave, .cal, .mem, .tiers, .host, .work, .rennet, .tide, .node,
      .fabric, .twin, .strainer, .dlog, .churn, .ladle, .herd, .hosted, .serve, .stores, .faults, .fatalAt, .platformEvents]
  | .negotiateAlgorithms .. => [.chrono, .regs, .pages, .notices, .pins, .power, .leave, .cal, .mem, .tiers, .host, .work, .rennet, .tide, .node,
      .fabric, .twin, .strainer, .dlog, .churn, .ladle, .herd, .hosted, .serve, .stores, .faults, .fatalAt, .platformEvents]
  | .getDigests .. => [.chrono, .regs, .pages, .notices, .pins, .power, .leave, .cal, .mem, .tiers, .host, .work, .rennet, .tide, .node, .fabric,
      .twin, .strainer, .dlog, .churn, .ladle, .herd, .hosted, .serve, .stores, .faults, .fatalAt, .platformEvents]
  | .getCertificate .. => [.chrono, .regs, .pages, .notices, .pins, .power, .leave, .cal, .mem, .tiers, .host, .work, .rennet, .tide, .node,
      .fabric, .twin, .strainer, .dlog, .churn, .ladle, .herd, .hosted, .serve, .stores, .faults, .fatalAt, .platformEvents]
  | .challenge .. => [.chrono, .regs, .pages, .notices, .pins, .power, .leave, .cal, .mem, .tiers, .host, .work, .rennet, .tide, .node, .fabric,
      .twin, .strainer, .dlog, .churn, .ladle, .herd, .hosted, .serve, .stores, .faults, .fatalAt, .platformEvents]
  | .getMeasurements .. => [.chrono, .regs, .pages, .notices, .pins, .power, .leave, .cal, .mem, .tiers, .host, .work, .rennet, .tide, .node,
      .fabric, .twin, .strainer, .dlog, .churn, .ladle, .herd, .hosted, .serve, .stores, .faults, .fatalAt, .platformEvents]
  | .keyExchange .. => [.chrono, .regs, .pages, .notices, .pins, .power, .leave, .cal, .mem, .tiers, .host, .work, .rennet, .tide, .node, .fabric,
      .twin, .strainer, .dlog, .churn, .ladle, .herd, .hosted, .serve, .stores, .faults, .fatalAt, .platformEvents]
  | .finish .. => [.chrono, .notices, .pins, .power, .leave, .cal, .mem, .tiers, .host, .work, .rennet, .tide, .node, .fabric, .twin, .strainer,
      .dlog, .churn, .ladle, .herd, .hosted, .serve, .stores, .faults, .fatalAt, .platformEvents]
  | .heartbeat .. => [.chrono, .regs, .pages, .notices, .pins, .power, .leave, .cal, .mem, .tiers, .host, .work, .rennet, .tide, .node, .fabric,
      .twin, .strainer, .dlog, .churn, .ladle, .herd, .hosted, .serve, .stores, .faults, .fatalAt, .platformEvents]
  | .keyUpdate .. => [.chrono, .regs, .pages, .notices, .pins, .power, .leave, .cal, .mem, .tiers, .host, .work, .rennet, .tide, .node, .fabric,
      .twin, .strainer, .dlog, .churn, .ladle, .herd, .hosted, .serve, .stores, .faults, .fatalAt, .platformEvents]
  | .endSession .. => [.chrono, .regs, .pages, .notices, .pins, .power, .leave, .cal, .mem, .tiers, .host, .work, .rennet, .tide, .node, .fabric,
      .twin, .strainer, .dlog, .churn, .ladle, .herd, .hosted, .serve, .stores, .faults, .fatalAt, .platformEvents]
  | .spdmUnsupported .. => [.chrono, .regs, .pages, .notices, .pins, .power, .leave, .cal, .mem, .tiers, .host, .work, .rennet, .tide, .node,
      .fabric, .twin, .strainer, .dlog, .churn, .ladle, .herd, .hosted, .serve, .stores, .faults, .fatalAt, .platformEvents]
  | .setEndpointId .. => [.chrono, .regs, .pages, .notices, .pins, .power, .leave, .cal, .mem, .tiers, .host, .work, .rennet, .tide, .node,
      .fabric, .twin, .strainer, .dlog, .churn, .ladle, .herd, .hosted, .serve, .stores, .faults, .fatalAt, .platformEvents]
  | .getEndpointId .. => [.chrono, .regs, .pages, .notices, .pins, .power, .leave, .cal, .mem, .tiers, .host, .work, .rennet, .tide, .node,
      .fabric, .twin, .strainer, .dlog, .churn, .ladle, .herd, .hosted, .serve, .stores, .faults, .fatalAt, .platformEvents]
  | .getMctpVersionSupport .. => [.chrono, .regs, .pages, .notices, .pins, .power, .leave, .cal, .mem, .tiers, .host, .work, .rennet, .tide, .node,
      .fabric, .twin, .strainer, .dlog, .churn, .ladle, .herd, .hosted, .serve, .stores, .faults, .fatalAt, .platformEvents]
  | .getMessageTypeSupport .. => [.chrono, .regs, .pages, .notices, .pins, .power, .leave, .cal, .mem, .tiers, .host, .work, .rennet, .tide, .node,
      .fabric, .twin, .strainer, .dlog, .churn, .ladle, .herd, .hosted, .serve, .stores, .faults, .fatalAt, .platformEvents]
  | .pldmBase .. => [.chrono, .regs, .pages, .notices, .pins, .power, .leave, .cal, .mem, .tiers, .host, .work, .rennet, .tide, .node, .fabric,
      .twin, .strainer, .dlog, .churn, .ladle, .herd, .hosted, .serve, .stores, .faults, .fatalAt, .platformEvents]
  | .pldmSensorRead .. => [.chrono, .regs, .pages, .notices, .pins, .power, .leave, .cal, .mem, .tiers, .host, .work, .rennet, .tide, .node,
      .fabric, .twin, .strainer, .dlog, .churn, .ladle, .herd, .hosted, .serve, .stores, .faults, .fatalAt, .platformEvents]
  | .pollForPlatformEventMessage .. => [.chrono, .regs, .pages, .notices, .pins, .power, .leave, .cal, .mem, .tiers, .host, .work, .rennet, .tide,
      .node, .fabric, .twin, .strainer, .dlog, .churn, .ladle, .herd, .hosted, .serve, .stores, .faults, .fatalAt]
  | .pldmFirmwareUpdate .. => [.chrono, .notices, .pins, .power, .leave, .cal, .mem, .tiers, .host, .work, .rennet, .tide, .node, .fabric, .twin,
      .strainer, .dlog, .churn, .ladle, .herd, .hosted, .serve, .stores, .faults, .fatalAt, .platformEvents]
  | .readReg .. => [.chrono, .notices, .pins, .power, .leave, .cal, .mem, .tiers, .host, .work, .rennet, .tide, .node, .fabric, .twin, .strainer,
      .dlog, .churn, .ladle, .herd, .hosted, .serve, .stores, .faults, .fatalAt, .platformEvents]
  | .writeReg .. => [.chrono, .pins]
  | .arbLost .. => [.chrono, .pages, .notices, .pins, .power, .leave, .cal, .mem, .tiers, .host, .work, .rennet, .tide, .node, .fabric, .twin,
      .strainer, .dlog, .churn, .ladle, .herd, .hosted, .serve, .stores, .faults, .fatalAt, .platformEvents]
  | .autoWarm .. => [.chrono, .pins, .faults, .platformEvents]
  | .faultAck .. => [.chrono, .notices, .pins, .power, .leave, .cal, .mem, .tiers, .work, .rennet, .tide, .node, .fabric, .twin, .strainer, .dlog,
      .churn, .ladle, .herd, .hosted, .serve, .rolar, .stores, .fatalAt, .platformEvents]
  | .pop .. => [.chrono, .notices, .pins, .power, .leave, .cal, .mem, .tiers, .work, .rennet, .tide, .node, .fabric, .twin, .strainer, .dlog,
      .churn, .ladle, .herd, .hosted, .serve, .rolar, .stores, .fatalAt, .platformEvents]
  | .finjFire .. => [.chrono, .pins, .power, .cal, .tide, .node, .dlog, .churn, .herd, .rolar, .stores]
  | .retentionFlagLost .. => []
  | .tideInFall .. => [.chrono, .regs, .pages, .notices, .power, .leave, .cal, .mem, .tiers, .host, .work, .rennet, .tide, .node, .fabric, .twin,
      .strainer, .dlog, .churn, .ladle, .herd, .hosted, .serve, .rolar, .stores, .faults, .fatalAt, .platformEvents]
  | .stuckClear .. => [.chrono, .notices, .pins, .power, .leave, .cal, .mem, .tiers, .work, .rennet, .tide, .node, .fabric, .twin, .strainer,
      .dlog, .churn, .ladle, .herd, .hosted, .serve, .rolar, .stores, .faults, .fatalAt, .platformEvents]
  | .cableSeated .. => [.chrono, .regs, .pages, .notices, .power, .leave, .cal, .mem, .tiers, .host, .work, .rennet, .tide, .node, .fabric, .twin,
      .strainer, .dlog, .churn, .ladle, .herd, .hosted, .serve, .rolar, .stores, .faults, .fatalAt, .platformEvents]
  | .port1LinkUp .. => [.chrono, .regs, .pages, .notices, .pins, .power, .leave, .cal, .mem, .tiers, .work, .rennet, .tide, .node, .fabric, .twin,
      .strainer, .dlog, .churn, .ladle, .herd, .hosted, .serve, .rolar, .stores, .faults, .fatalAt, .platformEvents]
  | .configurationWrite .. => [.chrono, .pins, .power, .cal, .tide, .node, .dlog, .churn, .herd, .rolar, .stores, .faults, .fatalAt, .platformEvents]
  | .msixTableWrite .. => [.chrono, .pins, .power, .leave, .cal, .tide, .node, .strainer, .dlog, .churn, .ladle, .herd, .hosted, .serve, .rolar,
      .stores, .faults, .fatalAt, .platformEvents]
  | .hdmDecoderCommit .. => [.chrono, .regs, .pages, .notices, .pins, .power, .leave, .cal, .mem, .tiers, .work, .rennet, .tide, .node, .fabric,
      .twin, .strainer, .dlog, .churn, .ladle, .herd, .hosted, .serve, .rolar, .stores, .faults, .fatalAt, .platformEvents]
  | .atsTranslationDone .. => [.chrono, .pins, .power, .cal, .tide, .node, .strainer, .dlog, .churn, .ladle, .herd, .serve, .rolar, .stores,
      .fatalAt]
  | .bisnpResponse .. => [.chrono, .pins]
  | .sustainedBudgetWrite .. => [.chrono, .notices, .pins, .power, .cal, .mem, .tiers, .rennet, .tide, .node, .fabric, .twin, .strainer, .dlog,
      .churn, .ladle, .herd, .hosted, .serve, .rolar, .stores, .faults, .fatalAt, .platformEvents]
  | .tideModeWrite .. => [.chrono, .notices, .pins, .power, .leave, .cal, .mem, .tiers, .work, .rennet, .node, .fabric, .twin, .strainer, .dlog,
      .churn, .ladle, .herd, .hosted, .serve, .rolar, .stores, .faults, .fatalAt, .platformEvents]
  | .watermarkMarkWrite .. => [.chrono, .pins]
  | .cellarLinkUp .. => [.chrono, .pins, .power, .cal, .tide, .node, .dlog, .churn, .herd, .rolar, .fatalAt]
  | .laneLockLost .. => [.chrono, .pins, .power, .leave, .cal, .tide, .node, .strainer, .dlog, .churn, .ladle, .herd, .serve, .rolar, .stores,
      .faults, .fatalAt, .platformEvents]
  | .memberSetResend .. => [.chrono, .pages, .notices, .pins, .power, .leave, .cal, .mem, .tiers, .host, .work, .rennet, .tide, .node, .twin,
      .strainer, .dlog, .churn, .ladle, .herd, .hosted, .serve, .rolar, .stores, .faults, .fatalAt, .platformEvents]
  | .handbackTransferDone .. => [.chrono, .pins, .power, .leave, .cal, .dlog, .churn, .serve, .rolar, .fatalAt]

end Sys2Proof
end

