-- ==== Sys2Proof/Certificates/Slice0/Obligations.lean ====
section
/-! DEFINITION. The statements for the provers: steps and invariants, frames, and for every command where it completes and what it leaves, chapter by
chapter of the specification. A state `u` with `s.lands now req page off v u` is the one that a register write leaves before the register's own
effect. -/

section
set_option maxRecDepth 8000
open Sys2Proof Sys2Proof.Machine Sys2Proof.Reg

/-- A step takes the command at the front of the queue and answers what `exec` answers for it with the rest of the queue in place. With no command
waiting a step changes nothing: that clause is the model's choice (log 1, DESIGN CHOICE). -/
def Obligations.StepRunsFrontCommand : Prop :=
  (∀ (s : State) (c : Instr) (rest : List Instr), s.pending = c :: rest → step s = exec c { s with pending := rest }) ∧
  (∀ s : State, s.pending = [] → step s = .next s)

/-- The state after reset meets the invariant of `StepKeepsInvariant`. -/
def Obligations.ResetMeetsInvariant : Prop :=
 State.reset.inv = true

/-- From every state with canonical data and a queue of well-formed commands a step answers a next state, which is such a state again; the step takes
one command off the queue, takes back nothing that has left the module and uses no open value twice. -/
def Obligations.StepKeepsInvariant : Prop :=
  ∀ s : State, s.inv = true → ∃ t, step s = .next t ∧ t.inv = true ∧ t.pending = s.pending.drop 1 ∧ (∃ os, t.out = s.out ++ os) ∧ s.free ≤ t.free

/-- A well-formed command answers a next state in every state; an event of a unit that the module does not have faults as such, on each command that
names a unit by number. Draws on R41, R42, R51, R98, R150, R319, R405, R409, R432, R503, R504. -/
def Obligations.WellFormedCommandsAnswer : Prop :=
  (∀ (c : Instr) (s : State), c.wf = true → ∃ t, exec c s = .next t) ∧
  (∀ (s : State) (now n : Nat),
    (6 ≤ n → exec (.zkPrsntN now n) s = .fault .noSuchUnit ∧ exec (.cableSeated now n) s = .fault .noSuchUnit ∧
      exec (.linkTrain now n) s = .fault .noSuchUnit ∧ exec (.ackTimeout now n) s = .fault .noSuchUnit ∧
      exec (.pdSwitchOn now n) s = .fault .noSuchUnit ∧ exec (.pdRetrained now n) s = .fault .noSuchUnit) ∧
    (16 ≤ n → exec (.driveLost now n) s = .fault .noSuchUnit ∧ ∀ jobs, exec (.coreFail now n jobs) s = .fault .noSuchUnit) ∧
    (32 ≤ n → exec (.functionLevelReset now n) s = .fault .noSuchUnit ∧ (∀ r, exec (.descFetch now n r) s = .fault .noSuchUnit) ∧
      ∀ w, exec (.bankCfgWidth now .cores n w) s = .fault .noSuchUnit) ∧
    (64 ≤ n → ∀ fn, exec (.descFetch now fn n) s = .fault .noSuchUnit))

/-- The frame of every command: it changes none of the parts that `Instr.leaves` lists for it, and moves the chronometer to its own time and nowhere
else where that table lists `chrono`; it never touches the queue. -/
def Obligations.CommandFrames : Prop :=
  ∀ (c : Instr) (s t : State), exec c s = .next t → t.pending = s.pending ∧ ∀ p ∈ c.leaves, p.same (s.at c.now) t

/-- Memory: two memories in canonical form that read the same at every address are equal; storing bytes keeps the form, each stored byte is read back,
and every other address reads as before. -/
def Obligations.MemoryReadsAndWrites : Prop :=
  (∀ m n : Memory, Memory.wf m = true → Memory.wf n = true → (∀ a, Memory.read m a = Memory.read n a) → m = n) ∧
  (∀ (m : Memory) (a : Nat) (bs : Bytes), Memory.wf m = true →
    Memory.wf (Memory.store m a bs) = true ∧ (∀ i b, bs[i]? = some b → Memory.read (Memory.store m a bs) (a + i) = b) ∧
      ∀ x, x < a ∨ a + bs.length ≤ x → Memory.read (Memory.store m a bs) x = Memory.read m x)

/-- Straps, pins and cables: what each event on them does where it takes effect. Draws on R28, R30, R36, R93, R405, R432, R486. -/
def Obligations.PinEvents : Prop :=
  (∀ (s : State) (now : Nat), s.pins.modPg = false → s.power.undervoltage = false → bitAt s.power.good 0 = true →
    ∃ t, exec (.modPgAssert now) s = .next t ∧ t.pins.modPg = true ∧ t.pins.mAs = s.pins.straps / 128 ∧
      t.fld ROLAR.ROLAR_SLOT = ((s.bootSlot 3 0).getD 0) % 2 ^ (ROLAR.ROLAR_SLOT.hi + 1 - ROLAR.ROLAR_SLOT.lo)) ∧
  (∀ (s : State) (now levels : Nat), s.pins.straps ≠ levels % 512 → s.pins.modPg = true →
    s.pins.releaseAt + 1000000 ≤ max s.chrono now →
    ∃ t, exec (.strapChanged now levels) s = .next t ∧ t.pins.straps = levels % 512 ∧ t.fld GLOBAL.STRAP_CHANGED = 1 ∧
      t.word 0 0x000 0x118 = s.word 0 0x000 0x118) ∧
  (∀ (s : State) (now link : Nat), link < 6 → ∃ t, exec (.cableSeated now link) s = .next t ∧
      t = (s.at now).modPins fun p => { p with cables := withBit p.cables link true }) ∧
  (∀ (s : State) (now link : Nat), link < 6 → s.power.released = true →
    exec (.zkPrsntN now link) s = .next (((s.at now).modPins fun p => { p with cables := withBit p.cables link false }).linkDown link)) ∧
  (∀ (s : State) (now drive : Nat) (low : Bool), drive < 4 → s.cellarMode ≠ 1 →
    exec (.cprsntN now drive low) s = .next ((s.at now).modPins fun p => { p with drives := withBit p.drives drive low })) ∧
  (∀ (s : State) (now drive : Nat), drive < 4 → s.cellarMode = 1 → bitAt s.pins.drives drive = false →
    exec (.cprsntN now drive true) s =
      .next (((s.at now).modPins fun p => { p with drives := withBit p.drives drive true }).driveArrives drive 0)) ∧
  (∀ (s : State) (now drive : Nat), drive < 4 → s.cellarMode = 1 → bitAt s.pins.drives drive = true →
    exec (.cprsntN now drive false) s =
      .next (((s.at now).modPins fun p => { p with drives := withBit p.drives drive false }).driveRemoved drive)) ∧
  (∀ (s : State) (now ms : Nat), s.pins.modPg = true → 25 ≤ ms → ∃ t, exec (.m1BusTimeout now ms) s = .next t ∧
      t = (s.at now).modRolar fun r => { r with resends := 0 })

/-- The inputs TIDE_IN, PWR_BRAKE_N, PERST0_N, PERST1_N and RESET_N. Draws on R20, R29, R32, R34, R35, R43, R51, R214. -/
def Obligations.InputEvents : Prop :=
  (∀ (s : State) (now : Nat), ∃ t, exec (.tideInFall now) s = .next t ∧ t.pins.tideIn = false ∧ t.pins.tideArmed = true) ∧
  (∀ (s : State) (now : Nat), s.pins.tideIn = false → s.power.released = true → s.pins.tideArmed = true →
    (∀ l, s.pins.tideLast = some l → l + 10000 ≤ max s.chrono now) →
    ∃ u : State, u.pins.tideIn = true ∧ u.pins.tideLast = some (max s.chrono now) ∧ u.fld TIDE.PULSE_STAMP = max s.chrono now % 2 ^ 64 ∧
      exec (.tideInRise now) s = .next u.takePulse) ∧
  (∀ (s : State) (now l : Nat), s.pins.tideIn = false → s.power.released = true → s.pins.tideArmed = true → s.pins.tideLast = some l →
    max s.chrono now < l + 10000 →
    ∃ t, exec (.tideInRise now) s = .next t ∧ t.fld GLOBAL.TIDE_IN_FAST = 1 ∧ t.pins.tideLast = some l ∧ t.tide = s.tide) ∧
  (∀ (s : State) (now : Nat), s.power.released = true → s.pins.tideIn = true →
    max s.pins.releaseAt s.pins.tideSince + s.fld GLOBAL.STUCK_SPAN * 1000000000 ≤ max s.chrono now →
    ∃ t, exec (.stuckSpanExpire now false) s = .next t ∧ t.fld GLOBAL.TIDE_IN_STUCK = 1 ∧ t.alertLow = true) ∧
  (∀ (s : State) (now : Nat), s.power.released = true → s.pins.brakeLow = true →
    max s.pins.releaseAt s.pins.brakeSince + s.fld GLOBAL.STUCK_SPAN * 1000000000 ≤ max s.chrono now →
    ∃ t, exec (.stuckSpanExpire now true) s = .next t ∧ t.fld GLOBAL.PWR_BRAKE_STUCK = 1 ∧ t.alertLow = true) ∧
  (∀ (s : State) (now : Nat) (low : Bool), ∃ t, exec (.pwrBrakeN now low) s = .next t ∧ t.pins.brakeLow = low) ∧
  (∀ (s : State) (now : Nat) (low : Bool), s.pins.perst0Low ≠ low → s.host.p0Up = false →
    ∃ t, exec (.perst0NLevel now low) s = .next t ∧ t.pins.perst0Low = low ∧
      t.pins.perst0Since = if low && s.power.released then some (max s.chrono now) else none) ∧
  (∀ (s : State) (now since : Nat), s.pins.perst0Since = some since → s.pins.perst0Low = true → since + 100000 ≤ max s.chrono now →
    exec (.perst0WarmReset now) s = .next (((s.at now).modPins fun p => { p with perst0Since := none }).warmReset 4)) ∧
  (∀ (s : State) (now : Nat), ∃ t, exec (.perst1NLevel now false) s = .next t ∧ t = (s.at now).modPins fun p => { p with perst1Low := false }) ∧
  (∀ (s : State) (now : Nat), s.x8x8 = true →
    exec (.perst1NLevel now true) s = .next (((s.at now).modPins fun p => { p with perst1Low := true }).port1Down)) ∧
  (∀ (s : State) (now width : Nat), s.power.undervoltage = false → 10000 ≤ width → ¬(s.power.trip = true ∧ s.power.dieTemp < 900) →
    exec (.resetNPulse now width) s = .next ((s.at now).warmReset 3)) ∧
  (∀ (s : State) (now width : Nat), s.power.undervoltage = false → 10000 ≤ width → s.power.trip = true → s.power.dieTemp < 900 →
    exec (.resetNPulse now width) s =
      .next (((s.at now).modPower fun p => { p with trip := false, good := 1, started := 1 }).warmReset 6))

/-- The supply and the die temperature. Draws on R48, R49, R51, R502. -/
def Obligations.SupplyEvents : Prop :=
  (∀ (s : State) (now level : Nat), s.power.undervoltage = true → 4600 ≤ level → ∃ t, exec (.p54vRise now level) s = .next t ∧
      t.power.undervoltage = false ∧ t.power.good = 1 ∧ t.power.retention = false ∧ t.fld RESET.CAUSE = if s.power.retention then 2 else 1) ∧
  (∀ (s : State) (now level : Nat), s.power.undervoltage = false → level ≤ 4400 → ∃ t, exec (.undervoltage now level) s = .next t ∧
      t.power.undervoltage = true ∧ t.power.retention = decide (1200 ≤ level) ∧ t.power.good = 0 ∧ t.power.released = false ∧ t.pins.modPg = false ∧
      t.regs = [] ∧ t.mem = [] ∧ t.work = {} ∧ t.tide = {} ∧ t.rolar.fuses = s.rolar.fuses ∧ t.rolar.revoked = s.rolar.revoked ∧
      t.rolar.flash = s.rolar.flash) ∧
  (∀ (s : State) (now level : Nat), s.power.undervoltage = true → level < 1200 → ∃ t, exec (.retentionFlagLost now level) s = .next t ∧
      t.power.retention = false) ∧
  (∀ (s : State) (now level : Nat), s.power.undervoltage = false → level ≤ 4800 → ∃ t, exec (.lowBand now level) s = .next t ∧
      t.power.lowBand = true ∧ t.power.p54v = level) ∧
  (∀ (s : State) (now level : Nat), s.power.undervoltage = false → 4850 ≤ level → ∃ t, exec (.lowBand now level) s = .next t ∧
      t.power.lowBand = false) ∧
  (∀ (s : State) (now level : Nat), s.power.undervoltage = false → 6200 ≤ level → ∃ t, exec (.overvoltage now level) s = .next t ∧
      t.power.overvoltage = true ∧ t.heldOff = true ∧ t.fld LEAVE.OV_SEEN = 1 ∧
      (s.power.released = true → s.heldOff = false → t.work = {} ∧ t.mem = [] ∧ t.host = {} ∧ t.rennet = {} ∧ t.tiersReady = false)) ∧
  (∀ (s : State) (now level : Nat), s.power.overvoltage = true → level ≤ 6100 → s.power.trip = true → ∃ t, exec (.ovRelease now level) s = .next t ∧
      t.power.overvoltage = false ∧ t.power.trip = true ∧ t.regs = s.regs ∧ t.work = s.work) ∧
  (∀ (s : State) (now level : Nat), s.power.overvoltage = true → level ≤ 6100 → s.power.trip = false →
    exec (.ovRelease now level) s = .next (((s.at now).modPower fun p => { p with
      p54v := level, overvoltage := false, good := 1, started := 1 }).warmReset 5)) ∧
  (∀ (s : State) (now : Nat) (temp : Int), s.power.undervoltage = false → 950 ≤ temp → ∃ t, exec (.thermalThrottle now temp) s = .next t ∧
      t.power.throttle = true ∧ t.power.dieTemp = temp) ∧
  (∀ (s : State) (now : Nat) (temp : Int), s.power.undervoltage = false → temp ≤ 900 → ∃ t, exec (.thermalThrottle now temp) s = .next t ∧
      t.power.throttle = false) ∧
  (∀ (s : State) (now : Nat) (temp : Int), s.power.undervoltage = false → s.power.trip = false → 1050 ≤ temp →
    ∃ t, exec (.thermalTrip now temp) s = .next t ∧ t.power.trip = true ∧ t.heldOff = true ∧ t.faultPinLow = true ∧
      (s.power.released = true → s.heldOff = false → t.work = {} ∧ t.mem = [] ∧ t.tiersReady = false))

/-- Power domains: a domain's step of the power-up sequence, TIERS_READY, the switching of PD3 and PD5 by software and their retraining. Draws on R41,
R42, R88. -/
def Obligations.PowerDomains : Prop :=
  (∀ (s : State) (now d : Nat), d < 6 → s.power.undervoltage = false → s.heldOff = false → bitAt s.power.good 0 = true → bitAt s.power.good d = false →
    s.switchedOff d = false → (beforeDomain d).all (bitAt s.power.good) = true →
    ∃ t, exec (.pdSwitchOn now d) s = .next t ∧
      t = (s.at now).modPower fun p => { p with good := withBit p.good d true, started := withBit p.started d true }) ∧
  (∀ (s : State) (now : Nat) (results : Bytes), s.power.released = true → s.tiersReady = false → (List.range 6).all s.good = true →
    ∃ u : State, u.tiersReady = true ∧ u.tiers.creamUnits = 0xF ∧ u.tiers.skimUnits = 0xFFFF ∧ u.cal.current = results ∧ u.work = s.work ∧
      exec (.tiersReady now results 0xF 0xFFFF) s = .next u.leaveSettle.calDue.ringSettle) ∧
  (∀ (s u : State) (now : Nat) (req : Requester), (s.at now).opens req 0x002 0x120 → bitAt (s.word 0 0x002 0x120).toNat 3 = false →
    bitAt (s.word 0 0x002 0x120).toNat 5 = false → u = (s.at now).stored req 0x002 0x120 (s.pdCtrlWord 3 true) → u.pd3Idle = true →
    ∃ t, exec (.pd3Off now req true) s = .next t ∧ t = u.pd3Down.setFld LEAVE.PD3_OFF 1) ∧
  (∀ (s u : State) (now : Nat) (req : Requester), (s.at now).opens req 0x002 0x120 → bitAt (s.word 0 0x002 0x120).toNat 3 = false →
    bitAt (s.word 0 0x002 0x120).toNat 5 = false → u = (s.at now).stored req 0x002 0x120 (s.pdCtrlWord 3 true) → u.pd3Idle = false →
    ∃ t, exec (.pd3Off now req true) s = .next t ∧ t = u.setFld LEAVE.OFF_REFUSED 1) ∧
  (∀ (s u : State) (now : Nat) (req : Requester), (s.at now).opens req 0x002 0x120 → bitAt (s.word 0 0x002 0x120).toNat 3 = false →
    bitAt (s.word 0 0x002 0x120).toNat 5 = false → u = (s.at now).stored req 0x002 0x120 (s.pdCtrlWord 5 true) → u.pd5Idle = true →
    ∃ t, exec (.pd5Off now req true) s = .next t ∧ t = u.pd5Down.setFld LEAVE.PD5_OFF 1) ∧
  (∀ (s : State) (now : Nat), s.power.released = true → s.heldOff = false → bitAt s.power.good 3 = false → s.bit LEAVE.PD3_OFF = false →
    bitAt s.power.started 3 = true → ∃ t, exec (.pdRetrained now 3) s = .next t ∧
      t = ((s.at now).modPower fun p => { p with good := withBit p.good 3 true }).modTiers fun x => { x with creamUnits := 0xF })

/-- Leave: a request granted at once or queued, the end of a grant, a timeout, a new budget; the calibration store: an automatic write that is due or
too early, SAVE_NOW, the end of a write, its flash failure. Draws on R43, R44, R45, R46, R54. -/
def Obligations.LeaveAndCalibration : Prop :=
  (∀ (s : State) (now slice cls : Nat) (x : Slice) (job : Job), s.slice? slice = some x → s.job? x.job = some job → s.power.released = true →
    x.state = .queued → (cls = 4 ∨ (cls ≠ 0 ∧ cls = leaveClass x.page)) → s.holdsLeave x.job cls (leavePage cls x.page) = false →
    (s.at now).leaveDecide cls = .granted →
    ∃ t, exec (.leaveRequest now slice cls) s = .next t ∧ t.leave.grants = s.leave.grants ++ [⟨cls, leavePage cls x.page, [x.job]⟩] ∧
      t.leave.queue = s.leave.queue ∧ t.work = s.work) ∧
  (∀ (s : State) (now slice cls : Nat) (x : Slice) (job : Job), s.slice? slice = some x → s.job? x.job = some job → s.power.released = true →
    x.state = .queued → (cls = 4 ∨ (cls ≠ 0 ∧ cls = leaveClass x.page)) → s.holdsLeave x.job cls (leavePage cls x.page) = false →
    (s.at now).leaveDecide cls = .queued →
    ∃ t, exec (.leaveRequest now slice cls) s = .next t ∧ t.leave.grants = s.leave.grants ∧
      t.leave.queue = s.leave.queue ++ [⟨cls, leavePage cls x.page, [⟨slice, x.job, tickAfter (max s.chrono now) + s.leaveTicksOf job x.stage⟩]⟩] ∧
      t.slice? slice = some { x with state := .waitLeave }) ∧
  (∀ (s : State) (now job cls : Nat), s.job? job = none → ∃ t, exec (.leaveRelease now job cls) s = .next t ∧ t = (s.at now).leaveDrop job cls) ∧
  (∀ (s : State) (now slice tick : Nat), s.leaveTick slice = some tick → tick * 10000 ≤ max s.chrono now →
    ∃ t, exec (.leaveTimeout now slice) s = .next t ∧
      t = (((((s.at now).leaveUnwait slice).count LEAVE.TIMEOUTS 1).failSlice slice 0x30 0).leaveSettle).placeAll) ∧
  (∀ (s u : State) (now watts : Nat) (req : Requester), (s.at now).opens req 0x002 0x100 →
    u = (s.at now).stored req 0x002 0x100 (putBits (s.word 0 0x002 0x100) 9 0 watts) → u.power.released = true →
    ∃ t, exec (.sustainedBudgetWrite now req watts) s = .next t ∧ t = u.leaveSettle) ∧
  (∀ (s : State) (now : Nat), s.power.released = true → s.cal.due = true → s.cal.writing = none → s.cal.lastAuto = none → s.calBlocked = false →
    s.cal.gen ≠ 0xFFFFFFFE → ∃ t w, exec (.calWriteDue now) s = .next t ∧ t.cal.writing = some w ∧ w.slot = (if s.cal.active = 1 then 2 else 1) ∧
      w.data.gen = s.cal.gen + 1 ∧ t.cal.lastAuto = some (max s.chrono now) ∧ t.cal.due = false) ∧
  (∀ (s : State) (now last : Nat), s.power.released = true → s.cal.lastAuto = some last → max s.chrono now < last + 60000000000 →
    ∃ t, exec (.calWriteDue now) s = .next t ∧ t = s.at now) ∧
  (∀ (s u : State) (now : Nat) (req : Requester) (v : Word), (s.at now).opens req 0x004 0x108 →
    u = (s.at now).stored req 0x004 0x108 (putBits v 0 0 1) → u.cal.writing = none →
    ∃ t, exec (.saveNow now req v) s = .next t ∧ t = u.calStart false) ∧
  (∀ (s : State) (now : Nat) (w : CalWrite), s.cal.writing = some w → s.cal.save = false → w.slot = 2 → w.data.valid = true →
    ∃ t, exec (.calWriteEnd now true) s = .next t ∧ t.cal.active = 2 ∧ t.cal.slotB = some w.data ∧ t.cal.validB = true ∧
      t.cal.slotA = s.cal.slotA ∧ t.cal.writing = none) ∧
  (∀ (s : State) (now : Nat) (w : CalWrite), s.cal.writing = some w → s.cal.save = false → w.slot = 2 →
    ∃ t, exec (.calWriteEnd now false) s = .next t ∧ t.cal.active = s.cal.active ∧ t.cal.slotB = none ∧ t.cal.validB = false ∧
      t.fld CALSTORE.FLASH_FAIL = 1)

/-- Resets: the release of module reset, the causes of a warm reset, herd resets, function-level and block resets. Draws on R28, R29, R51, R427, R506. -/
def Obligations.Resets : Prop :=
  (∀ (s : State) (now : Nat) (readable : Bool), s.power.released = false → s.pins.modPg = true → bitAt s.power.good 0 = true →
    ∃ t, exec (.moduleResetRelease now readable) s = .next t ∧ t.power.released = true ∧ t.pins.releaseAt = max s.chrono now ∧
      t.herd.cand = bitAt s.pins.straps 0 ∧ t.pins.tideArmed = !s.pins.tideIn) ∧
  (∀ (s : State) (now : Nat) (readable : Bool), s.power.released = true → exec (.moduleResetRelease now readable) s = .next (s.at now)) ∧
  (∀ (s u : State) (now : Nat) (req : Requester), (s.at now).opens req 0x003 0x108 → u = (s.at now).stored req 0x003 0x108 1#64 →
    ∃ t, exec (.warmReq now req) s = .next t ∧ t = u.warmReset 7) ∧
  (∀ (s u : State) (now : Nat) (req : Requester), (s.at now).opens req 0x003 0x108 → u = (s.at now).stored req 0x003 0x108 2#64 →
    u.isLead = true → u.fabric.resetCopies = 0 → ∃ t, exec (.herdReq now req) s = .next t ∧ t.fabric.resetCopies = 3 ∧
      t.fabric.nextSerial = (u.fabric.nextSerial + 1) % 2 ^ 32) ∧
  (∀ (s u : State) (now : Nat) (req : Requester), (s.at now).opens req 0x003 0x108 → u = (s.at now).stored req 0x003 0x108 2#64 →
    u.isLead = false → ∃ t, exec (.herdReq now req) s = .next t ∧ t.fld RESET.HERD_REQ_REFUSED = 1 ∧ t.fabric = s.fabric) ∧
  (∀ (s : State) (now : Nat) (p : Packet), s.power.released = true → s.fabric.lastSerial ≠ some (leAt p.body 4 4) → s.isLead = false →
    ∃ t, exec (.herdReset now p) s = .next t ∧ t = (s.at now).herdApply (leAt p.body 4 4)) ∧
  (∀ (s : State) (now : Nat) (p : Packet), s.fabric.lastSerial = some (leAt p.body 4 4) → exec (.herdReset now p) s = .next (s.at now)) ∧
  (∀ (s : State) (now fn : Nat), fn < 32 → s.power.released = true → s.fnEnabled fn = true →
    ∃ t, exec (.functionLevelReset now fn) s = .next t ∧ t = (s.at now).flr fn) ∧
  (∀ (s : State) (now at_ : Nat), s.fatalAt = some at_ → s.power.released = true → s.bit FAULT.AUTO_WARM = true →
    at_ + 10000000 ≤ max s.chrono now → ∃ t, exec (.autoWarm now) s = .next t ∧ t = (s.at now).warmReset 7) ∧
  (∀ (s : State) (cause : Nat), s.power.released = true → s.absorbs .warm = false → s.afterWeaker .warm = false →
    (s.warmReset cause).power.released = false ∧ (s.warmReset cause).work = {} ∧ (s.warmReset cause).host = {} ∧ (s.warmReset cause).fatalAt = none ∧
      (s.warmReset cause).tide.now = s.tide.now ∧ (s.warmReset cause).rolar.fuses = s.rolar.fuses ∧ (s.warmReset cause).faults = s.faults ∧
      (s.warmReset cause).pins = s.pins ∧ (cause < 16 → (s.warmReset cause).fld RESET.CAUSE = cause))

/-- Block resets: a reset starts, ends with its held writes applied in the order of their arrival, or times out as a block fault. Draws on R51, R71,
R73, R502. -/
def Obligations.BlockResets : Prop :=
  (∀ (s u : State) (now page : Nat) (req : Requester), (s.at now).opens req page 0x010 → isFixedPage page = false → firstPage page ≠ 0x0D0 →
    u = ((s.at now).stored req page 0x010 (putBits (s.word (ownerOf req page) page 0x010) 1 1 1)).unqueue page →
    ∃ t, exec (.blockReset now req page) s = .next t ∧ t = u.blockReset (ownerOf req page) page) ∧
  (∀ (s : State) (now fn page began : Nat) (supply : Supply), (s.page fn page).resetAt = some began → max s.chrono now < began + 100000 →
    ∃ u : State, u = (s.at now).setPage fn page { s.page fn page with resetAt := none, held := [], syncWait := [] } ∧
      exec (.blockResetEnd now fn page supply) s = .next (((s.page fn page).syncWait.foldl (fun (x : State) q => x.readReg q page 0x048)
        ((s.page fn page).held.foldl (fun (x : State) (h : HeldWrite) => x.writeReg supply h.by_ page h.off h.value) u.placeAll)).serveHeld)) ∧
  (∀ (s : State) (now fn page began : Nat), (s.page fn page).resetAt = some began → began + 100000 ≤ max s.chrono now →
    (s.page fn page).held = [] → (s.page fn page).syncWait = [] → s.host.heldAccesses = [] →
    ∃ t, exec (.blockResetTimeout now fn page) s = .next t ∧ (t.page fn page).faulted = true ∧ (t.page fn page).resetAt = none)

/-- What becomes of a write, whatever its register's effect: a page that the view does not present, a page of a domain that is off, a register that the
function may not write, a page of a faulted block, a block reset, an undeclared host loss on page ATTACH; else it is applied, and on a page that is
not locked the register's effect acts on the stored fields. -/
def Obligations.RegisterWriteWays : Prop :=
  ∀ (s : State) (req : Requester) (page off : Nat) (v : Word) (hook : Hook),
    (presents req page = false → s.regWrite req page off v hook = s.unmapped req page off) ∧
    (presents req page = true → s.answers page = false → s.regWrite req page off v hook = s) ∧
    (presents req page = true → s.answers page = true → mayWrite req page off = false →
      s.regWrite req page off v hook = s.accessDenied (sourceOf req) page off) ∧
    (presents req 0x00A = true → s.answers 0x00A = true → mayWrite req 0x00A off = true → s.host.session.due.isSome = true →
      ∃ t, s.regWrite req 0x00A off v hook = t ∧ t.host.session.held = s.host.session.held ++ [⟨req, off, v⟩] ∧ t.regs = s.regs ∧ t.out = s.out) ∧
    (page ≠ 0x00A → presents req page = true → s.answers page = true → mayWrite req page off = true → 0x100 ≤ off →
      (s.page (ownerOf req page) page).faulted = true → s.regWrite req page off v hook = s.raiseBy req page 0 off) ∧
    (page ≠ 0x00A → presents req page = true → s.answers page = true → mayWrite req page off = true → 0x100 ≤ off →
      (s.page (ownerOf req page) page).faulted = false → (s.page (ownerOf req page) page).resetAt.isSome = true →
      ∃ t, s.regWrite req page off v hook = t ∧ t.regs = s.regs ∧
        (t.page (ownerOf req page) page).held = (s.page (ownerOf req page) page).held ++ [⟨req, off, v⟩]) ∧
    (s.opens req page off → (fieldsAt page off).all (fun f => f.acc = .ro) = false →
      s.regWrite req page off v hook = hook req page (s.word (ownerOf req page) page off) v (s.stored req page off v) ∧
      (s.stored req page off v).fldFn (ownerOf req page) (HDR.WRITES.on page) = (s.fldFn (ownerOf req page) (HDR.WRITES.on page) + 1) % 2 ^ 32) ∧
    (s.takes req page off → (fieldsAt page off).all (fun f => f.acc = .ro) = true → s.regWrite req page off v hook = s)

/-- What a write does to each field of a register by its access code: RO, WO and W1S keep the stored bits, RW takes a value within its bounds and keeps
its own for one outside, RWL does so on an unlocked page and keeps its value on a locked one, RW1C loses the bits written 1; bits of no field keep
their value. The fields of every register lie within its 64 bits and do not overlap. -/
def Obligations.FieldsByAccessCode : Prop :=
  (∀ (locked : Bool) (old v : Word) (fs : List Field), fs.Pairwise (fun f g => f.hi < g.lo ∨ g.hi < f.lo) → (∀ f ∈ fs, f.lo ≤ f.hi ∧ f.hi < 64) →
    (∀ f ∈ fs, (f.acc = .ro ∨ f.acc = .wo ∨ f.acc = .w1s → bitsOf (fieldWrite locked old v fs).stored f.hi f.lo = bitsOf old f.hi f.lo) ∧
      (f.acc = .rw ∨ (f.acc = .rwl ∧ locked = false) → bitsOf (fieldWrite locked old v fs).stored f.hi f.lo =
        if Machine.Rule.allows f.rule (bitsOf v f.hi f.lo) then bitsOf v f.hi f.lo else bitsOf old f.hi f.lo) ∧
      (f.acc = .rwl → locked = true → bitsOf (fieldWrite locked old v fs).stored f.hi f.lo = bitsOf old f.hi f.lo) ∧
      (f.acc = .rw1c → f.rule ≠ .special → bitsOf (fieldWrite locked old v fs).stored f.hi f.lo = bitsOf (old &&& ~~~v) f.hi f.lo)) ∧
    (∀ i < 64, (∀ f ∈ fs, i < f.lo ∨ f.hi < i) → (fieldWrite locked old v fs).stored.getLsbD i = old.getLsbD i) ∧
    ((fieldWrite locked old v fs).lockedHit = true → locked = true)) ∧
  (∀ page off : Nat, (fieldsAt page off).Pairwise (fun f g => f.hi < g.lo ∨ g.hi < f.lo) ∧ ∀ f ∈ fieldsAt page off, f.lo ≤ f.hi ∧ f.hi < 64)

/-- Plain accesses: REG_WRITE of one whole register and an access that is not; reads of the hash probe, which return the hash and the CRC of what the
probe holds and change nothing else. Draws on R59, R76, R309. -/
def Obligations.PlainAccesses : Prop :=
  (∀ (s : State) (now page off : Nat) (req : Requester) (bs : Bytes) (supply : Supply), bs.length = 8 → off % 8 = 0 → off < 4096 →
    exec (.regWrite now req page off bs supply) s =
      .next ((s.at now).regWrite req page off (BitVec.ofNat 64 (leAt bs 0 8)) (hookOf supply page off))) ∧
  (∀ (s : State) (now page off : Nat) (req : Requester) (bs : Bytes) (supply : Supply), bs ≠ [] → bs.length ≤ 8 → (bs.length < 8 ∨ off % 8 ≠ 0) →
    off < 4096 → presents req page = true → s.answers page = true →
    exec (.regWrite now req page off bs supply) s = .next ((s.at now).raiseBy req page 0 off)) ∧
  (∀ (s : State) (now : Nat) (req : Requester), presents req 0x098 = true →
    exec (.probeOm64 now req) s = .next ((s.at now).emit (.readReg req 0x098 0x118 ((s.at now).readWord req 0x098 0x118)))) ∧
  (∀ (s : State) (now : Nat) (req : Requester), presents req 0x098 = true →
    exec (.probeCrc now req) s = .next ((s.at now).emit (.readReg req 0x098 0x120 ((s.at now).readWord req 0x098 0x120)))) ∧
  (∀ (s : State) (now fn : Nat), presents (.fn fn) 0x098 = false →
    exec (.probeOm64 now (.fn fn)) s = .next (((s.at now).unmapped (.fn fn) 0x098 0x118).emit (.readReg (.fn fn) 0x098 0x118 0#64)))

/-- Page control: LOCK, ENABLE, QUIESCE, OUT_OF_SERVICE, PG_SYNC. Draws on R66, R71, R72, R73. -/
def Obligations.PageControl : Prop :=
  (∀ (s u : State) (now page : Nat) (req : Requester), s.lands now req page 0x040 1#64 u →
    exec (.pgLock now req page) s = .next (u.setFldFn (ownerOf req page) (HDR.LOCK.on page) 1)) ∧
  (∀ (s : State) (fn page : Nat), (s.setFldFn fn (HDR.LOCK.on page) 1).locked fn page = true) ∧
  (∀ (s u : State) (now page : Nat) (req : Requester) (on : Bool), isFixedPage page = false →
    s.lands now req page 0x010 (putBits (putBits (s.word (ownerOf req page) page 0x010) 0 0 (ofBool on)) 1 1 0) u →
    exec (.pgCtrlEnable now req page on) s =
      .next (u.unqueue page)) ∧
  (∀ (s u : State) (now page : Nat) (req : Requester) (on : Bool), isFixedPage page = false →
    s.lands now req page 0x010 (putBits (putBits (s.word (ownerOf req page) page 0x010) 2 2 (ofBool on)) 1 1 0) u →
    exec (.pgCtrlQuiesce now req page on) s = .next (u.unqueue page)) ∧
  (∀ (s u : State) (now page : Nat) (req : Requester) (on : Bool), isFixedPage page = false → firstPage page ≠ 0x0D0 →
    s.lands now req page 0x010 (putBits (putBits (s.word (ownerOf req page) page 0x010) 3 3 (ofBool on)) 1 1 0) u →
    exec (.pgCtrlOutOfService now req page on) s = .next (u.unqueue page)) ∧
  (∀ (s u : State) (now page : Nat) (req : Requester) (on : Bool), isFixedPage page = false → firstPage page = 0x0D0 →
    bitAt (s.word (ownerOf req page) page 0x010).toNat 3 ≠ on →
    s.lands now req page 0x010 (putBits (putBits (s.word (ownerOf req page) page 0x010) 3 3 (ofBool on)) 1 1 0) u →
    exec (.pgCtrlOutOfService now req page on) s = .next ((u.linkService (page - 0x0D0) on).unqueue page)) ∧
  (∀ (s u : State) (now page : Nat) (req : Requester) (on : Bool), isFixedPage page = true →
    s.lands now req page 0x010 (putBits (putBits (s.word (ownerOf req page) page 0x010) 3 3 (ofBool on)) 1 1 0) u →
    exec (.pgCtrlOutOfService now req page on) s = .next u) ∧
  (∀ (s : State) (page : Nat), s.accepts page = false → s.work.jobs = [] →
    s.unqueue page = s.modWork fun w => { w with slices := w.slices.filter fun e => !(e.2.page == page && e.2.state == .queued && !e.2.ran) }) ∧
  (∀ (s : State) (now page : Nat) (req : Requester), presents req page = true → s.answers page = true →
    (s.page (ownerOf req page) page).held.any (fun h => h.by_ == req) = true →
    ∃ t, exec (.pgSync now req page) s = .next t ∧ t.out = s.out ∧
      (t.page (ownerOf req page) page).syncWait = (s.page (ownerOf req page) page).syncWait ++ [req]) ∧
  (∀ (s : State) (now page : Nat) (req : Requester), (s.page (ownerOf req page) page).held = [] →
    exec (.pgSync now req page) s = .next ((s.at now).readReg req page 0x048))

/-- Errors of a page: an injection scheduled and delivered, a capture cleared, register parity, what raising an error does; its interrupts: a route
written, the time of the oldest pending event, the count. Draws on R69, R70, R75, R503. -/
def Obligations.PageErrorsAndInterrupts : Prop :=
  (∀ (s u : State) (now page index : Nat) (req : Requester), implementsErr page (index % 64) = true →
    s.lands now req page 0x038 (BitVec.ofNat 64 (index % 64 + 0x100)) u →
    ∃ t, exec (.errInjectFire now req page index) s = .next t ∧ (t.page (ownerOf req page) page).inject = some (index % 64) ∧ t.regs = u.regs) ∧
  (∀ (s u : State) (now page index : Nat) (req : Requester), implementsErr page (index % 64) = false →
    s.lands now req page 0x038 (BitVec.ofNat 64 (index % 64 + 0x100)) u → exec (.errInjectFire now req page index) s = .next u) ∧
  (∀ (s : State) (now fn page n : Nat), (s.page fn page).inject = some n →
    ∃ u : State, u = (s.at now).setPage fn page { s.page fn page with inject := none } ∧
      exec (.injectionDelivered now fn page) s = .next ((u.raise fn page n 0xFF 0 page).setSticky fn page 2)) ∧
  (∀ (s u : State) (now page : Nat) (req : Requester), s.lands now req page 0x030 0x100#64 u →
    ∃ t, exec (.errFirstClear now req page) s = .next t ∧ t.word (ownerOf req page) page 0x030 = 0#64 ∧
      t.word (ownerOf req page) page 0x0F0 = 0#64 ∧ t.word (ownerOf req page) page 0x0F8 = 0#64 ∧ t.pages = u.pages) ∧
  (∀ (s : State) (now fn page : Nat), s.answers page = true →
    exec (.regParity now fn page true) s = .next (((s.at now).raise fn page 3 0xFF 0 page).corrected)) ∧
  (∀ (s : State) (now fn page : Nat), s.answers page = true → page ∈ fatalPages →
    exec (.regParity now fn page false) s = .next (((s.at now).raise fn page 3 0xFF 0 page).nodeFatal 0x10 0)) ∧
  (∀ (s : State) (now fn page : Nat), s.answers page = true → page ∉ fatalPages →
    exec (.regParity now fn page false) s = .next (((s.at now).raise fn page 3 0xFF 0 page).blockFault fn page 0x10 0)) ∧
  (∀ (s : State) (fn page n source off accPage : Nat), n < 64 → off < 4096 → page < 0x4000 → source < 256 → accPage < 65536 →
    (s.word fn page 0x028).getLsbD n = false → s.fldFn fn (HDR.VALID.on page) = 0 →
    ((s.raise fn page n source off accPage).word fn page 0x020).getLsbD n = true ∧
    (s.raise fn page n source off accPage).fldFn fn (HDR.VALID.on page) = 1 ∧
    bitsOf ((s.raise fn page n source off accPage).word fn page 0x030) 5 0 = n ∧
    bitsOf ((s.raise fn page n source off accPage).word fn page 0x030) 23 16 = source ∧
    bitsOf ((s.raise fn page n source off accPage).word fn page 0x030) 43 32 = off ∧
    bitsOf ((s.raise fn page n source off accPage).word fn page 0x030) 63 48 = accPage) ∧
  (∀ (s : State) (fn page n source off accPage : Nat), (s.word fn page 0x028).getLsbD n = true →
    s.raise fn page n source off accPage = s.setSticky fn page n) ∧
  (∀ (s u : State) (now page : Nat) (req : Requester) (v : Word), s.lands now req page 0x058 v u →
    exec (.irqRoute now req page v) s = .next (u.irqSettle (ownerOf req page) page)) ∧
  (∀ (s : State) (now fn page able : Nat), s.answers page = true → s.canDeliver fn page = true → 0 < (s.page fn page).pending →
    (s.page fn page).ableAt = some able →
    max (s.page fn page).oldest able + s.fldFn fn (HDR.MOD_TIME.on page) * 1000 ≤ max s.chrono now →
    ∃ t, exec (.modTimeExpire now fn page) s = .next t ∧ t.out = s.out ++ [s.irqMessage fn page] ∧ (t.page fn page).pending = 0 ∧ t.regs = s.regs) ∧
  (∀ (s : State) (now fn page able : Nat), s.answers page = true → s.canDeliver fn page = true → (s.page fn page).ableAt = some able →
    (s.page fn page).pending < max 1 (s.fldFn fn (HDR.MOD_EVENTS.on page)) →
    max s.chrono now < max (s.page fn page).oldest able + s.fldFn fn (HDR.MOD_TIME.on page) * 1000 →
    ∃ t, exec (.modTimeExpire now fn page) s = .next t ∧ t.out = s.out ∧ (t.page fn page).pending = (s.page fn page).pending) ∧
  (∀ (s : State) (fn page : Nat), s.canDeliver fn page = false → (s.irqSettle fn page).out = s.out)

/-- The Vat, slices on their extents, the tiers: VAT_CFG, EXTENT_GRANT, SLICE_START, UNIT_FAIL, SCRUB_PASS. Draws on R86, R87, R88, R89, R90, R169. -/
def Obligations.MemoryAndExtents : Prop :=
  (∀ (s u : State) (now : Nat) (req : Requester) (v : Word), s.lands now req 0x060 0x100 v u → u.work.slices = [] → u.bit VAT.BUSY = false →
    u.regionExtents = 0 → bitsOf v 7 0 ≤ 64 → bitsOf v 15 8 ≤ 192 → bitsOf v 23 16 ≤ 64 → bitsOf v 7 0 + bitsOf v 15 8 + bitsOf v 23 16 ≤ 208 →
    ∃ t, exec (.vatCfg now req v) s = .next t ∧ t.fld VAT.RUNAHEAD_MAX = bitsOf v 7 0 ∧ t.fld VAT.BUILD_MAX = bitsOf v 15 8 ∧
      t.fld VAT.REGION_MAX = bitsOf v 23 16 ∧ t.mem = s.mem ∧ t.work = s.work) ∧
  (∀ (s u : State) (now : Nat) (req : Requester) (v : Word), s.lands now req 0x060 0x100 v u → u.work.slices ≠ [] →
    exec (.vatCfg now req v) s = .next (u.raiseBy req 0x060 18 0x100)) ∧
  (∀ (s : State) (now id : Nat) (rest : List Nat) (x : Slice), s.power.released = true → s.tiers.extentWaits = id :: rest → s.slice? id = some x →
    x.wants ≤ s.sliceFree →
    exec (.extentGrant now) s = .next ((((s.at now).modTiers fun t => { t with sliceUsed := t.sliceUsed + x.wants, extentWaits := rest }).updSlice id
      fun y => { y with extents := x.wants }).sliceRun id)) ∧
  (∀ (s : State) (now id : Nat) (rest : List Nat) (x : Slice), s.power.released = true → s.tiers.extentWaits = id :: rest → s.slice? id = some x →
    s.sliceFree < x.wants → exec (.extentGrant now) s = .next (s.at now)) ∧
  (∀ (s : State) (now id units reach wants : Nat) (x : Slice) (job : Job), s.power.released = true → s.slice? id = some x → s.job? x.job = some job →
    (s.at now).sliceMay id x job = true → s.tiers.extentWaits = [] → min 256 (max 1 wants) ≤ s.sliceFree →
    exec (.sliceStart now id units reach wants []) s =
      .next ((((s.at now).modTiers fun t => { t with sliceUsed := t.sliceUsed + min 256 (max 1 wants) }).updSlice id fun y => { y with
        first := (job.engOf x.stage).consumed, count := max 1 (min (max 1 units) reach), left := max 1 units - max 1 (min (max 1 units) reach),
        extents := min 256 (max 1 wants) }).sliceRun id)) ∧
  (∀ (s : State) (now id units reach wants : Nat) (x : Slice) (job : Job), s.power.released = true → s.slice? id = some x → s.job? x.job = some job →
    (s.at now).sliceMay id x job = true → s.sliceFree < min 256 (max 1 wants) →
    ∃ t y, exec (.sliceStart now id units reach wants []) s = .next t ∧ t.slice? id = some y ∧ y.state = .waitExtents ∧ y.wants = min 256 (max 1 wants) ∧
      t.tiers.extentWaits = s.tiers.extentWaits ++ [id] ∧ t.tiers.sliceUsed = s.tiers.sliceUsed) ∧
  (∀ (s : State) (now unit : Nat), s.power.released = true → unit < 4 →
    exec (.unitFail now true unit) s =
      .next (((s.at now).modTiers fun t => { t with creamUnits := withBit t.creamUnits unit false }).tierOut true 0)) ∧
  (∀ (s : State) (now unit : Nat), s.power.released = true → unit < 16 →
    exec (.unitFail now false unit) s =
      .next (((s.at now).modTiers fun t => { t with skimUnits := withBit t.skimUnits unit false }).tierOut false 0)) ∧
  (∀ (s : State) (now : Nat), s.power.released = true → s.tiersReady = true → s.answers 0x061 = true →
    exec (.scrubPass now true 0 []) s = .next ((s.at now).count CREAM.SCRUB_PASSES 1)) ∧
  (∀ (s : State) (now line : Nat), s.power.released = true → s.tiersReady = true → s.answers 0x062 = true → line % 64 = 0 → spaceOf line = .skim →
    ∃ t, exec (.scrubPass now false 1 [line]) s = .next t ∧ line ∈ t.tiers.poison ∧ t.fld SKIM.UE_ADDR = line ∧ t.fld SKIM.UE_VALID = 1 ∧
      t.mem = s.mem)

/-- Regions: a command taken, refused while one runs, its end. Draws on R100, R101, R102. -/
def Obligations.RegionCommands : Prop :=
  (∀ (s u : State) (now slot want : Nat) (req : Requester), s.lands now req 0x060 0x130 (BitVec.ofNat 64 (slot % 1024 + 1 * 65536)) u →
    u.bit VAT.BUSY = false → (u.allocResult (viewOf req) (slot % 1024) want).1 = 0 →
    ∃ t g, exec (.regionAlloc now req slot want) s = .next t ∧ Table.find? t.tiers.regions (slot % 1024) = some g ∧
      g.base = (u.allocResult (viewOf req) (slot % 1024) want).2 ∧ g.owner = viewOf req ∧ g.len = u.regionD 1 ∧ t.bit VAT.BUSY = true ∧
      t.bit VAT.DONE = false ∧ t.mem = s.mem) ∧
  (∀ (s u : State) (now slot want : Nat) (req : Requester), s.lands now req 0x060 0x130 (BitVec.ofNat 64 (slot % 1024 + 1 * 65536)) u →
    u.bit VAT.BUSY = false → (u.allocResult (viewOf req) (slot % 1024) want).1 ≠ 0 →
    ∃ t, exec (.regionAlloc now req slot want) s = .next t ∧ t.tiers.regions = s.tiers.regions ∧
      t.tiers.regionCmd = some { slot := slot % 1024, result := (u.allocResult (viewOf req) (slot % 1024) want).1, op := 1 }) ∧
  (∀ (s u : State) (now slot want : Nat) (req : Requester), s.lands now req 0x060 0x130 (BitVec.ofNat 64 (slot % 1024 + 1 * 65536)) u →
    u.bit VAT.BUSY = true → ∃ t, exec (.regionAlloc now req slot want) s = .next t ∧ t.bit VAT.REFUSED = true ∧ t.tiers = s.tiers) ∧
  (∀ (s u : State) (now slot : Nat) (req : Requester), s.lands now req 0x060 0x130 (BitVec.ofNat 64 (slot % 1024 + 2 * 65536)) u →
    u.bit VAT.BUSY = false → ∃ t, exec (.regionFree now req slot) s = .next t ∧
      t.tiers.regionCmd = some { slot := slot % 1024, result := u.freeResult (viewOf req) (slot % 1024) true, op := 2 } ∧
      t.tiers.regions = s.tiers.regions ∧ t.bit VAT.BUSY = true) ∧
  (∀ (s u : State) (now slot : Nat) (req : Requester), s.lands now req 0x060 0x130 (BitVec.ofNat 64 (slot % 1024 + 3 * 65536)) u →
    u.bit VAT.BUSY = false → ∃ t, exec (.regionRead now req slot) s = .next t ∧
      t.tiers.regionCmd = some { slot := slot % 1024, result := u.freeResult (viewOf req) (slot % 1024) false, op := 3 } ∧
      t.tiers.regions = s.tiers.regions ∧ t.bit VAT.BUSY = true) ∧
  (∀ (s : State) (now : Nat) (c : RegionCmd), s.tiers.regionCmd = some c → c.result ≠ 0 → c.result < 16 →
    ∃ t, exec (.regionCmdDone now) s = .next t ∧ t.bit VAT.BUSY = false ∧ t.bit VAT.DONE = true ∧ t.fld VAT.RESULT = c.result ∧
      t.tiers.regions = s.tiers.regions ∧ t.mem = s.mem) ∧
  (∀ (s : State) (now : Nat) (c : RegionCmd) (g : Region), s.tiers.regionCmd = some c → c.result = 0 → c.op = 2 →
    Table.find? s.tiers.regions c.slot = some g → 
    ∃ t, exec (.regionCmdDone now) s = .next t ∧ Table.find? t.tiers.regions c.slot = none ∧ t.bit VAT.DONE = true ∧ t.fld VAT.RESULT = 0 ∧
      ∀ a, a < g.base ∨ g.base + g.len ≤ a → Memory.read t.mem a = Memory.read s.mem a) ∧
  (∀ (s : State) (now : Nat) (c : RegionCmd) (g : Region), s.tiers.regionCmd = some c → c.result = 0 → c.op = 3 → c.zero = none →
    Table.find? s.tiers.regions c.slot = some g →
    ∃ t, exec (.regionCmdDone now) s = .next t ∧ t.regionD 1 = g.len % 2 ^ 64 ∧ t.fld VAT.RESULT = 0 ∧ t.tiers.regions = s.tiers.regions ∧ t.mem = s.mem)

/-- The Cellar: its mode, drives that arrive, come up, leave and fail, their commands. Draws on R93, R94, R95, R96, R97, R98, R104. -/
def Obligations.CellarDrives : Prop :=
  (∀ (s u : State) (now : Nat) (req : Requester), s.lands now req 0x063 0x100 (putBits (s.word 0 0x063 0x100) 1 0 2) u →
    bitsOf (s.word 0 0x063 0x100) 1 0 = 0 → ∃ t, exec (.cellarMode now req 2) s = .next t ∧ t.cellarMode = 2 ∧ t.tiers.c1Out = true ∧
      t.tiers.drives = s.tiers.drives) ∧
  (∀ (s u : State) (now mode : Nat) (req : Requester), s.lands now req 0x063 0x100 (putBits (s.word 0 0x063 0x100) 1 0 mode) u →
    bitsOf (s.word 0 0x063 0x100) 1 0 ≠ 0 → exec (.cellarMode now req mode) s = .next u) ∧
  (∀ (s : State) (now d xfer width gen : Nat) (x : Drive), d < 16 → s.drive? d = some x → x.present = true → x.ready = false → x.failed = false →
    s.c1Up = true → s.tiers.cellarLink = true → bitAt (s.fld CELLAR.DRIVE_OOS) d = false → x.hasPage = false → 2 ≤ s.skimFree →
    ∃ u : State, exec (.driveBringUp now d [] xfer width gen) s = .next u.driveWake ∧ u.tiers.skimOther = s.tiers.skimOther + 2 ∧
      u.drive? d = some { x with ready := true, wantsPage := false, hasPage := true, maxXfer := min 20 xfer, width := width, gen := gen, namespaces := [] }) ∧
  (∀ (s : State) (now d xfer width gen : Nat) (x : Drive), d < 16 → s.drive? d = some x → x.present = true → x.ready = false → x.failed = false →
    s.c1Up = true → s.tiers.cellarLink = true → bitAt (s.fld CELLAR.DRIVE_OOS) d = false → x.hasPage = false → s.skimFree < 2 →
    ∃ t, exec (.driveBringUp now d [] xfer width gen) s = .next t ∧ t.drive? d = some { x with wantsPage := true }) ∧
  (∀ (s u : State) (now : Nat) (req : Requester) (found : List Nat),
    s.lands now req 0x063 0x110 (putBits (s.word 0 0x063 0x110) 32 32 1) u → s.cellarMode = 2 → s.tiers.cellarLink = true → s.tiers.drives = [] →
    ∃ w : State, exec (.rescan now req found) s = .next (w.switchScan found) ∧ w.tiers.drives = [] ∧ w.mem = s.mem) ∧
  (∀ (s : State) (found : Nat), s.tiers.drives = [] →
    (s.switchScan [found]).drive? 0 = some { present := true, bdf := found, ready := false, failed := false }) ∧
  (∀ (s u : State) (now mask d : Nat) (req : Requester) (x : Drive),
    s.lands now req 0x063 0x110 (putBits (putBits (s.word 0 0x063 0x110) 32 32 0) 15 0 mask) u → s.drive? d = some x → d < 16 → bitAt mask d = true →
    ∃ t, exec (.driveOos now req mask) s = .next t ∧ t.fld CELLAR.DRIVE_OOS = mask % 65536 ∧
      t.drive? d = some { x with oosSeen := x.oosSeen || x.failed }) ∧
  (∀ (s : State) (now d c : Nat) (x : Drive) (k : DriveCmd), d < 16 → s.drive? d = some x → Table.find? x.cmds c = some k → k.abortAt = none →
    k.issuedAt + s.fld CELLAR.CMD_TIMEOUT * 1000000 ≤ max s.chrono now →
    ∃ t y, exec (.cellarCmdTimeout now d c) s = .next t ∧ t.out = (((s.at now).count CELLAR.TIMEOUTS 1).raiseOwn 0x063 16).out ++ [.nvmeAbort d c] ∧
      t.drive? d = some y ∧ Table.find? y.cmds c = some { k with abortAt := some (max s.chrono now) } ∧ t.work = s.work) ∧
  (∀ (s : State) (now d c at_ : Nat) (x : Drive) (k : DriveCmd), d < 16 → s.drive? d = some x → Table.find? x.cmds c = some k →
    k.abortAt = some at_ → at_ + s.fld CELLAR.CMD_TIMEOUT * 1000000 ≤ max s.chrono now →
    ∃ u : State, u = (((((s.at now).count CELLAR.CTRL_RESETS 1).emit (.nvmeReset d)).updDrive d fun y => { y with
        ready := false, resets := (y.resets.filter fun r => decide (max s.chrono now < r + 60000000000)) ++ [max s.chrono now] }).driveCmdsFail d) ∧
      exec (.abortTimeout now d c) s = .next (if 3 ≤ ((u.drive? d).elim 0 fun y => y.resets.length) then
        ((u.updDrive d fun y => { y with failed := true }).raiseOwn 0x063 19).driveWake else u)) ∧
  (∀ (s : State) (now d c status : Nat) (data : Bytes) (x : Drive) (k : DriveCmd), d < 16 → s.drive? d = some x → Table.find? x.cmds c = some k →
    status ≠ 0 → exec (.cellarCmdComplete now d c status data) s =
      .next (((((s.at now).updDrive d fun y => { y with cmds := Table.drop y.cmds c }).count CELLAR.IO_ERRORS 1).raiseOwn 0x063 17).driveWhyFailed k.why)) ∧
  (∀ (s : State) (now d c j : Nat) (data : Bytes) (x : Drive) (k : DriveCmd), d < 16 → s.drive? d = some x → Table.find? x.cmds c = some k →
    k.why = .write j → exec (.cellarCmdComplete now d c 0 data) s =
      .next (((s.at now).updDrive d fun y => { y with cmds := Table.drop y.cmds c }).jobSettle j)) ∧
  (∀ (s : State) (now d : Nat) (x : Drive), d < 16 → s.drive? d = some x →
    ∃ w : State, w = ((s.at now).updDrive d fun y => { y with
        present := false, ready := false, wantsPage := false, hasPage := false, namespaces := [] }).driveCmdsFail d ∧
      exec (.driveLost now d) s = .next (((if x.hasPage then w.giveSkim 2 else w).raiseOwn 0x063 18).driveWake)) ∧
  (∀ (s : State) (d : Nat) (x : Drive), s.drive? d = some x → x.cmds = [] → s.driveCmdsFail d = s.updDrive d fun y => { y with cmds := [] }) ∧
  (∀ (s : State) (now : Nat) (found : List Nat), s.c1Up = true → s.tiers.cellarLink = false → s.cellarMode ≠ 2 →
    exec (.cellarLinkUp now found) s = .next ((s.at now).modTiers fun t => { t with cellarLink := true })) ∧
  (∀ (s : State) (now : Nat) (found : List Nat), s.c1Up = true → s.tiers.cellarLink = false → s.cellarMode = 2 →
    exec (.cellarLinkUp now found) s = .next (((s.at now).modTiers fun t => { t with cellarLink := true }).switchScan found))

/-- Bias: a command that flips pages, a query, a refusal, the end of a flip. Draws on R114. -/
def Obligations.BiasCommands : Prop :=
  (∀ (s u : State) (now region page count : Nat) (req : Requester) (g : Region), s.lands now req 0x009 0x100 (biasWord 1 region page count) u →
    u.host.bias = none → Table.find? u.tiers.regions (region % 1024) = some g → u.biasResult 1 (region % 1024) (page % 2 ^ 26) (count % 128) = 0 →
    ∃ t w : State, exec (.biasToDevice now req region page count) s = .next t ∧ w.host.bias = some ⟨region % 1024, page % 2 ^ 26, count % 128, true⟩ ∧
      w.bit COHERENCE.DONE = false ∧ w.host.snoopFilter = u.host.snoopFilter ∧
      t = (u.heldLines (g.base + page % 2 ^ 26 * 4096) (count % 128 * 4096)).foldl (fun x l => x.snoopLine l .bias) w) ∧
  (∀ (s u : State) (now region page count : Nat) (req : Requester) (g : Region), s.lands now req 0x009 0x100 (biasWord 2 region page count) u →
    u.host.bias = none → Table.find? u.tiers.regions (region % 1024) = some g → u.biasResult 2 (region % 1024) (page % 2 ^ 26) (count % 128) = 0 →
    ∃ t, exec (.biasToHost now req region page count) s = .next t ∧ t.host.bias = some ⟨region % 1024, page % 2 ^ 26, count % 128, false⟩ ∧
      t.bit COHERENCE.DONE = false ∧ t.tiers = s.tiers ∧ t.host.snoops = s.host.snoops) ∧
  (∀ (s u : State) (now region page : Nat) (req : Requester) (g : Region), s.lands now req 0x009 0x100 (biasWord 3 region page 1) u →
    u.host.bias = none → Table.find? u.tiers.regions (region % 1024) = some g → u.biasResult 3 (region % 1024) (page % 2 ^ 26) 1 = 0 →
    ∃ t, exec (.biasQuery now req region page) s = .next t ∧ t.bit COHERENCE.QUERY_HOST = g.hostPages.contains (page % 2 ^ 26) ∧
      t.bit COHERENCE.DONE = true ∧ t.fld COHERENCE.RESULT = 0 ∧ t.host = s.host ∧ t.tiers = s.tiers) ∧
  (∀ (s u : State) (now region page : Nat) (req : Requester), s.lands now req 0x009 0x100 (biasWord 3 region page 1) u →
    u.host.bias.isSome = true →
    ∃ t, exec (.biasQuery now req region page) s = .next t ∧ t.bit COHERENCE.REFUSED = true ∧ t.host = s.host) ∧
  (∀ (s : State) (now : Nat) (b : BiasCmd) (g : Region), s.host.bias = some b → Table.find? s.tiers.regions b.region = some g →
    (b.toDevice && !(s.heldLines (g.base + b.page * 4096) (b.count * 4096)).isEmpty) = false → s.host.biasWaits = [] → s.host.heldAccesses = [] →
    ∃ t, exec (.biasFlipDone now) s = .next t ∧ t.host.bias = none ∧ t.bit COHERENCE.DONE = true ∧ t.fld COHERENCE.RESULT = 0 ∧
      t.tiers.regions = Table.put s.tiers.regions b.region { g with hostPages := flipPages b g.hostPages } ∧ t.mem = s.mem) ∧
  (∀ (s : State) (now : Nat) (b : BiasCmd) (g : Region), s.host.bias = some b → Table.find? s.tiers.regions b.region = some g → b.toDevice = true →
    (s.heldLines (g.base + b.page * 4096) (b.count * 4096)).isEmpty = false → exec (.biasFlipDone now) s = .next (s.at now))

/-- Accesses of the host and of adapters: through HDM, through BAR4, a sync word; where none of the rights or regions is there, the denial. Draws on R4,
R112, R113, R122, R125. -/
def Obligations.HostAccesses : Prop :=
  (∀ (s : State) (now hpa base : Nat) (data : Option Bytes) (poisoned : Bool) (g : Region), s.host.hdm = some base → s.power.released = true →
    s.host.p0Up = true → base ≤ hpa → (hpa - base) / 64 * 64 < s.bar4Size 0 → s.hitRegion 0 ((hpa - base) / 64 * 64) 64 = some g →
    s.hdmHeld (g.base + ((hpa - base) / 64 * 64 - g.aperture)) = false →
    exec (.hostHdmAccess now hpa data poisoned) s = .next ((s.at now).serveHdm (g.base + ((hpa - base) / 64 * 64 - g.aperture)) data poisoned)) ∧
  (∀ (s : State) (now hpa base : Nat) (data : Option Bytes) (poisoned : Bool) (g : Region), s.host.hdm = some base → s.power.released = true →
    s.host.p0Up = true → base ≤ hpa → (hpa - base) / 64 * 64 < s.bar4Size 0 → s.hitRegion 0 ((hpa - base) / 64 * 64) 64 = some g →
    s.hdmHeld (g.base + ((hpa - base) / 64 * 64 - g.aperture)) = true →
    ∃ t, exec (.hostHdmAccess now hpa data poisoned) s = .next t ∧ t.mem = s.mem ∧ t.out = s.out ∧
      t.host.heldAccesses = s.host.heldAccesses ++ [.hdm (g.base + ((hpa - base) / 64 * 64 - g.aperture)) data poisoned]) ∧
  (∀ (s : State) (now fn reqId off : Nat) (b : Bytes) (poisoned : Bool) (g : Region), fn < 32 → s.reaches fn = true → b ≠ [] →
    off + b.length ≤ s.bar4Size fn → s.hitRegion fn off b.length = some g → s.bar4Allowed reqId g true = true →
    s.stillHeld s.host.heldAccesses (.bar4 (g.base + (off - g.aperture)) b.length (some b) poisoned) = false →
    exec (.bar4Access now fn reqId off b.length (some b) poisoned) s =
      .next ((s.at now).serveBar4 (g.base + (off - g.aperture)) b.length (some b) poisoned)) ∧
  (∀ (s : State) (now fn reqId off : Nat) (b : Bytes) (poisoned : Bool), fn < 32 → s.reaches fn = true → b ≠ [] →
    off + b.length ≤ s.bar4Size fn → s.hitRegion fn off b.length = none →
    exec (.bar4Access now fn reqId off b.length (some b) poisoned) s = .next ((s.at now).accessDenied fn 0 0x008)) ∧
  (∀ (s : State) (now fn reqId off len : Nat) (g : Region), fn < 32 → s.reaches fn = true → 0 < len → off + len ≤ s.bar4Size fn →
    s.hitRegion fn off len = some g → s.bar4Allowed reqId g false = false →
    ∃ t, exec (.bar4Access now fn reqId off len none false) s = .next t ∧ t.mem = s.mem ∧ t.out.take (s.out.length + 1) = s.out ++ [.busData (zeros len) false]) ∧
  (∀ (s : State) (now fn reqId off len : Nat) (g : Region), fn < 32 → s.reaches fn = true → 0 < len → off + len ≤ s.bar4Size fn →
    s.hitRegion fn off len = some g → s.bar4Allowed reqId g false = true →
    s.stillHeld s.host.heldAccesses (.bar4 (g.base + (off - g.aperture)) len none false) = false →
    ∃ t, exec (.syncWordRead now fn reqId off len) s = .next t ∧
      t = ((s.at now).readOut (g.base + (off - g.aperture)) len).2.2.emit
        (.busData ((s.at now).readOut (g.base + (off - g.aperture)) len).1 ((s.at now).readOut (g.base + (off - g.aperture)) len).2.1)) ∧
  (∀ (s : State) (fn off len : Nat) (g : Region), s.hitRegion fn off len = some g → g.owner = fn ∧ g.aperture ≤ off ∧ off + len ≤ g.aperture + g.len)

/-- Translation: an invalidation forgets the page and completes after the reads that used it; a translation that is granted, one that is not. Draws on
R116, R117, R120. -/
def Obligations.Translation : Prop :=
  (∀ (s : State) (now fn page : Nat), fn < 32 → s.reaches fn = true → ∃ t, exec (.atsInvalidation now fn page) s = .next t ∧
    t.host.atc = s.host.atc.filter (fun e => e != (fn, page)) ∧ t.host.invalidations = s.host.invalidations ++ [(fn, page)] ∧
    t.host.reads = s.host.reads ∧ t.out = s.out) ∧
  (∀ (s : State) (now fn page : Nat), fn < 32 → s.host.invalidations.contains (fn, page) = true →
    (s.host.reads.any fun (e : Nat × HostRead) => e.2.fn == fn && e.2.touches page && !s.host.atsRequests.any fun a => a.read == e.1) = false →
    ∃ t, exec (.atsInvalidationComplete now fn page) s = .next t ∧ t.out = s.out ++ [.atsDone fn page] ∧
      t.host.invalidations = s.host.invalidations.filter (fun e => e != (fn, page)) ∧ t.regs = s.regs) ∧
  (∀ (s : State) (now fn page : Nat), fn < 32 →
    (s.host.reads.any fun (e : Nat × HostRead) => e.2.fn == fn && e.2.touches page && !s.host.atsRequests.any fun a => a.read == e.1) = true →
    exec (.atsInvalidationComplete now fn page) s = .next (s.at now)) ∧
  (∀ (s : State) (now fn page : Nat) (a : Ats) (r : HostRead), fn < 32 → s.reaches fn = true → a.fn = fn → a.page = page →
    s.host.atsRequests = [a] → Table.find? s.host.reads a.read = some r → s.host.atc.length < 8192 →
    ∃ t, exec (.atsTranslationDone now fn page true) s = .next t ∧ t.out = s.out ++ [.hostRead fn r.iova r.len] ∧ t.host.atsRequests = [] ∧
      t.host.atc = (s.host.atc.filter fun e => e != (fn, page)) ++ [(fn, page)] ∧ t.host.reads = s.host.reads) ∧
  (∀ (s : State) (now fn page : Nat) (a : Ats) (r : HostRead), fn < 32 → s.reaches fn = true →
    ((s.host.atsRequests.take 128).find? fun a => a.fn == fn && a.page == page) = some a → Table.find? s.host.reads a.read = some r →
    exec (.atsTranslationDone now fn page false) s =
      .next (((((s.at now).count HOSTIF.TRANSLATION_FAULTS 1).raiseOwn 0x008 16).hostFailed r 0x48).atsPump s.host.atsRequests))

/-- Host reads and snoops: a read that completes, one that fails or times out; the host-line cache; the answer of a back-invalidation snoop. Draws on
R113, R115, R117, R118, R121, R128. -/
def Obligations.HostReadsAndSnoops : Prop :=
  (∀ (s : State) (now read : Nat) (data : Bytes) (r : HostRead), s.sentRead? read = some r →
    ∃ u : State, u = ((s.at now).modHost fun h => { h with reads := Table.drop h.reads read }).hcacheFill r.iova r.len ∧
      exec (.hostReadComplete now read 0 data) s = .next ((u.stage r.who .host r.iova (fitTo data r.len)).goOn r.who)) ∧
  (∀ (s : State) (now read : Nat) (data : Bytes) (r : HostRead), s.sentRead? read = some r →
    exec (.hostReadComplete now read 1 data) s = .next ((s.at now).hostFailed r 0x48) ∧
    exec (.hostReadComplete now read 2 data) s = .next ((((s.at now).count HOSTIF.POISON_COUNT 1).raiseOwn 0x008 17).hostFailed r 0x49)) ∧
  (∀ (s : State) (now read : Nat) (r : HostRead), s.sentRead? read = some r →
    exec (.hostTimeout now read) s = .next (((s.at now).raiseOwn 0x008 21).hostFailed r 0x4A)) ∧
  (∀ (s : State) (now line : Nat), s.power.released = true → s.host.p0Up = true → s.host.cxl = true → s.host.cxlCache = true →
    ∃ t, exec (.hostSnoop now line true) s = .next t ∧ t.out = s.out ++ [.snoopAnswer (line / 64 * 64) (s.host.hcache.contains (line / 64 * 64))] ∧
      t.host.hcache = s.host.hcache.filter (fun x => x != line / 64 * 64)) ∧
  (∀ (s : State) (now line : Nat) (n : Snoop) (b : Bytes), s.snoop? line = some n → n.whys = [] → s.host.heldAccesses = [] →
    b.length = 64 → ∃ t, exec (.bisnpResponse now line (some b)) s = .next t ∧ t.snoop? line = none ∧
      (∀ i v, b[i]? = some v → Memory.read t.mem (line + i) = v) ∧
      ∀ a, a < line ∨ line + 64 ≤ a → Memory.read t.mem a = Memory.read s.mem a) ∧
  (∀ (s : State) (now line : Nat) (n : Snoop), s.snoop? line = some n →
    ∃ u : State, u = (s.at now).modHost (fun h => { h with snoops := h.snoops.filter fun x => x.line != line }) ∧ u.mem = s.mem ∧
      exec (.bisnpResponse now line none) s = .next (u.snoopEnded n)) ∧
  (∀ (s : State) (now line : Nat) (n : Snoop), s.snoop? line = some n → n.whys = [] → s.host.heldAccesses = [] → n.sentAt + 50000000 ≤ max s.chrono now →
    line % 64 = 0 → ∃ t, exec (.biTimeout now line) s = .next t ∧ t.snoop? line = none ∧ line ∈ t.tiers.poison ∧ t.mem = s.mem) ∧
  (∀ (s : State) (now line : Nat) (n : Snoop), s.snoop? line = some n → max s.chrono now < n.sentAt + 50000000 →
    exec (.biTimeout now line) s = .next (s.at now))

/-- The links of the host ports, and what the host configures. Draws on R75, R106, R107, R108, R110, R112, R116, R130, R131. -/
def Obligations.HostLinks : Prop :=
  (∀ (s : State) (now : Nat), s.host.p0Up = true → ∃ t, exec (.port0LinkDown now) s = .next t ∧ t.host.p0Up = false ∧
    t.host.session.due = some .linkDown ∧ t.host.session.lossChrono = max s.chrono now ∧ t.host.session.lossTide = s.tide.now ∧
    t.host.numVfs = 0 ∧ t.host.hdm = none ∧ t.host.hcache = [] ∧ t.tiers = s.tiers ∧ t.mem = s.mem) ∧
  (∀ (s : State) (now gen width : Nat) (flit cxl : Bool), s.host.p0Up = false → s.power.released = true → s.pins.perst0Low = false → s.good 1 = true →
    exec (.port0LinkUp now gen width flit cxl) s = .next ((s.at now).modHost fun h => { h with
      p0Up := true, p0EverUp := true, p0Gen := gen, p0Width := width, flit := flit, cxl := cxl })) ∧
  (∀ (s : State) (now : Nat), s.host.p1Up = true →
    exec (.port1LinkDown now) s = .next (((((s.at now).modHost fun h => { h with p1Up := false, p1Gen := 0, p1Width := 0 }).count HOSTIF.LINK_DOWNS 1).raiseOwn
      0x008 20).flr 31)) ∧
  (∀ (s : State) (now gen width : Nat), s.host.p1Up = false → s.power.released = true → s.x8x8 = true → s.pins.perst1Low = false → s.good 1 = true →
    exec (.port1LinkUp now gen width) s = .next ((s.at now).modHost fun h => { h with p1Up := true, p1Gen := gen, p1Width := width })) ∧
  (∀ (s : State) (now : Nat) (w : ConfigWrite), w.fn < 32 → w.fn ≠ 0 → s.reaches w.fn = true →
    ∃ u : State, exec (.configurationWrite now w) s = .next u.fnChanged ∧
      u.func w.fn = { s.func w.fn with busMaster := w.busMaster, ats := w.ats, d3hot := w.d3hot, bar4 := bar4Choice w.bar4 (s.func w.fn).bar4 } ∧
      (∀ f, f ≠ w.fn → u.func f = s.func f) ∧ u.host.numVfs = s.host.numVfs) ∧
  (∀ (s : State) (now fn : Nat) (m : Bool), fn < 32 → s.reaches fn = true →
    ∃ u : State, exec (.msixTableWrite now fn (.functionMask m)) s = .next u.fnChanged ∧ u.func fn = { s.func fn with masked := m }) ∧
  (∀ (s : State) (now fn v addr data : Nat) (m : Bool), fn < 32 → s.reaches fn = true → v < (if fn = 0 then 2048 else 64) →
    ∃ u : State, exec (.msixTableWrite now fn (.entry v addr data m)) s = .next u.fnChanged ∧
      Table.find? (u.func fn).vectors v = some ⟨addr, data, m⟩) ∧
  (∀ (s : State) (now base : Nat), s.power.released = true → s.host.p0Up = true → s.host.cxl = true →
    exec (.hdmDecoderCommit now base) s = .next ((s.at now).modHost fun h => { h with hdm := some base }))

/-- Host loss: the heartbeat, the span's expiry, the declaration, a claim, a discard, the end of substitution. Draws on R130, R132, R134, R141, R143. -/
def Obligations.HostLossSession : Prop :=
  (∀ (s u : State) (now : Nat) (v : Word), s.lands now (.fn 0) 0x00A 0x100 v u →
    ∃ t, exec (.hostHeartbeat now (.fn 0) v) s = .next t ∧ t.word 0 0x00A 0x100 = v ∧ t.host.session.lastBeat = v ∧
      t.host.session.lastBeatAt = max s.chrono now) ∧
  (∀ (s u : State) (now : Nat) (v : Word), s.lands now .cores 0x00A 0x100 v u →
    ∃ t, exec (.hostHeartbeat now .cores v) s = .next t ∧ t.word 0 0x00A 0x100 = v ∧ t.host.session = s.host.session) ∧
  (∀ (s : State) (now armed : Nat), s.host.session.armedAt = some armed → s.host.session.due = none →
    max armed s.host.session.lastBeatAt + s.fld ATTACH.HB_SPAN * 1000000 ≤ max s.chrono now →
    ∃ t, exec (.hbSpanExpire now) s = .next t ∧ t.host.session.due = some .heartbeat ∧ t.host.session.lossChrono = max s.chrono now ∧
      t.host.session.lossTide = s.tide.now ∧ t.regs = s.regs) ∧
  (∀ (s : State) (now armed : Nat), s.host.session.armedAt = some armed →
    max s.chrono now < max armed s.host.session.lastBeatAt + s.fld ATTACH.HB_SPAN * 1000000 → exec (.hbSpanExpire now) s = .next (s.at now)) ∧
  (∀ (s : State) (now : Nat) (c : LossCause), s.host.session.due = some c → s.host.session.held = [] → s.host.reads = [] → s.work = {} →
    ∃ t, exec (.hostLoss now) s = .next t ∧ t.fld ATTACH.STATE = 2 ∧ t.fld ATTACH.LOSS_CAUSE = (match c with | .heartbeat => 1 | .linkDown => 2) ∧
      t.fld ATTACH.AUTH_OK = 0 ∧ t.host.session.due = none ∧ t.host.session.armedAt = none ∧ t.mem = s.mem) ∧
  (∀ (s u : State) (now : Nat) (req : Requester), s.lands now req 0x00A 0x138 1#64 u → exec (.claim now req) s = .next (u.claimSession req)) ∧
  (∀ (s : State) (req : Requester), s.claimResult ≠ 0 → s.claimResult < 16 → ∃ t, s.claimSession req = t ∧ t.fld ATTACH.RESULT = s.claimResult ∧
    t.fld ATTACH.STATE = s.fld ATTACH.STATE ∧ t.host = s.host ∧ t.work = s.work) ∧
  (∀ (s u : State) (now : Nat) (req : Requester), s.lands now req 0x00A 0x138 2#64 u → u.session = 3 → u.work.descs = [] →
    ∃ t, exec (.discard now req) s = .next t ∧ t.host.session.park = [] ∧ t.session = 1) ∧
  (∀ (s u : State) (now : Nat) (req : Requester), s.lands now req 0x00A 0x138 2#64 u → u.session ≠ 3 → exec (.discard now req) s = .next u) ∧
  (∀ (s u : State) (now : Nat) (req : Requester), s.lands now req 0x00A 0x138 4#64 u →
    exec (.hostTierResume now req) s = .next (u.setFld ATTACH.SUBST 0))

/-- Doorbells and fetching: a doorbell taken or refused, a narrow one, a fetch issued, a descriptor read that comes back. Draws on R125, R148, R149,
R150, R172. -/
def Obligations.RingDoorbells : Prop :=
  (∀ (s : State) (now fn ring v : Nat), fn < 32 → ring < 64 → s.bar2 fn ring = true → (s.sq fn ring).enabled = true → v < s.sqDepth fn ring →
    (v + s.sqDepth fn ring - (s.sq fn ring).tail) % s.sqDepth fn ring ≤
      ((s.sq fn ring).head + 2 * s.sqDepth fn ring - 1 - (s.sq fn ring).tail) % s.sqDepth fn ring →
    ∃ t, exec (.sqDoorbell now fn ring v false []) s = .next t ∧ t.sq fn ring = { s.sq fn ring with tail := v } ∧ t.regs = s.regs ∧ t.host = s.host) ∧
  (∀ (s : State) (now fn ring v a : Nat) (bs : Bytes), fn < 32 → ring < 64 → s.bar2 fn ring = true → (s.sq fn ring).enabled = true →
    s.sqDepth fn ring ≤ v → 0x100000 ≤ a → a + bs.length ≤ 0x10000000 →
    exec (.sqDoorbell now fn ring v false [(a, bs)]) s = .next (((s.at now).storeRing fn a bs).raise fn (ringPage ring) 17 fn 0 (ringPage ring))) ∧
  (∀ (s : State) (now fn ring v : Nat), fn < 32 → ring < 64 → s.bar2 fn ring = true →
    exec (.sqDoorbell now fn ring v true []) s = .next ((s.at now).narrowDoorbell fn (0x40 * ring)) ∧
    exec (.cqHeadDoorbell now fn ring v true) s = .next ((s.at now).narrowDoorbell fn (0x1000 + 0x40 * ring))) ∧
  (∀ (s : State) (fn off : Nat), ∃ t, s.narrowDoorbell fn off = t ∧ t.work = s.work ∧ t.host = s.host ∧ t.mem = s.mem) ∧
  (∀ (s : State) (now fn ring : Nat), fn < 32 → ring < 64 → s.power.released = true → (s.at now).turnRing = some (ringKey fn ring) →
    (s.at now).staleDesc fn ring = none → s.ringFld fn ring RING.SQ_BASE_LOC ≠ 1 →
    ∃ t, exec (.descFetch now fn ring) s = .next t ∧ t.sq fn ring = { s.sq fn ring with reading := true, again := none } ∧
      t.out = s.out ++ [.hostRead fn (s.ringFld fn ring RING.SQ_BASE_ADDR + 64 * (s.sq fn ring).head) 64] ∧ t.work.lastRing = ringKey fn ring) ∧
  (∀ (s : State) (now fn ring : Nat) (bytes : Bytes), fn < 32 → ring < 64 → (s.sq fn ring).reading = true → (s.sq fn ring).enabled = true →
    (s.sq fn ring).again = none → s.ringFld fn ring RING.SQ_BASE_LOC ≠ 1 →
    exec (.descFetchDone now fn ring bytes 0) s = .next ((s.at now).takeDesc fn ring (fitTo bytes 64))) ∧
  (∀ (s : State) (now fn ring st : Nat) (bytes : Bytes), fn < 32 → ring < 64 → (s.sq fn ring).reading = true → st ≠ 0 →
    exec (.descFetchDone now fn ring bytes st) s = .next (((s.at now).fetchFlaw fn ring st).fetchDone fn ring bytes false)) ∧
  (∀ (s : State) (now fn ring : Nat) (bytes : Bytes), fn < 32 → ring < 64 → (s.sq fn ring).reading = false →
    exec (.descFetchDone now fn ring bytes 0) s = .next (s.at now))

/-- Descriptors start, each type with its effect; one that may not start yet changes nothing. Draws on R142, R155, R156, R157, R158, R159, R160, R243,
R453. -/
def Obligations.DescriptorsStart : Prop :=
  (∀ (s : State) (now id : Nat) (d : Desc), s.desc? id = some d → d.bad = 0 → (s.at now).mayStart id d = true →
    ∃ u : State, u = (s.at now).updDesc id (fun x => { x with state := .started, startedAt := max s.chrono now }) ∧
      (dType d.raw = 1 → exec (.run now id) s = .next (u.runValidate id)) ∧
      (dType d.raw = 2 → exec (.fence now id) s = .next u.ringSettle) ∧
      (dType d.raw = 3 → exec (.waitTide now id) s = .next (if leAt d.raw 8 8 ≤ s.tide.now then u.endDesc id 0 0xFFFF 0 false else u)) ∧
      (dType d.raw = 4 → exec (.signal now id) s = .next u.ringSettle) ∧
      (dType d.raw = 5 → s.twin.paired = true → s.twin.degraded = false →
        exec (.mirrorCut now id) s = .next (u.modTwin fun t => { t with waits := t.waits ++ [⟨id, leAt d.raw 8 8, none⟩] })) ∧
      (dType d.raw = 5 → s.twin.paired = false → exec (.mirrorCut now id) s = .next (u.endDesc id 0xC0 0xFFFF 0 false)) ∧
      (dType d.raw = 6 → leAt d.raw 16 8 % 64 = 0 → exec (.parkDrain now id) s = .next (u.parkDrain id d)) ∧
      (dType d.raw = 6 → leAt d.raw 16 8 % 64 ≠ 0 → exec (.parkDrain now id) s = .next (u.endDesc id 1 0xFFFF 0 false)) ∧
      (dType d.raw = 7 → exec (.nop now id) s = .next (u.endDesc id 0 0xFFFF 0 false))) ∧
  (∀ (s : State) (now id : Nat) (d : Desc), s.desc? id = some d → (s.at now).mayStart id d = false → exec (.nop now id) s = .next (s.at now)) ∧
  (∀ (s : State) (now id : Nat) (d : Desc), s.desc? id = some d → d.state = .started → dType d.raw = 3 → leAt d.raw 16 4 ≠ 0 →
    (tickAfter d.startedAt + leAt d.raw 16 4) * 10000 ≤ max s.chrono now →
    exec (.waitTideTimeout now id) s = .next ((s.at now).endDesc id 3 0xFFFF 0 false)) ∧
  (∀ (s : State) (now id : Nat) (d : Desc), s.desc? id = some d → leAt d.raw 16 4 = 0 → exec (.waitTideTimeout now id) s = .next (s.at now))

/-- Jobs and slices end: a failed job, a job whose outputs are all committed, a slice with its work done, a slice at its bound. Draws on R86, R155,
R170. -/
def Obligations.JobsAndSlicesEnd : Prop :=
  (∀ (s : State) (now j : Nat) (job : Job), s.job? j = some job → job.written = false → (s.at now).jobBusy j = false → job.status ≠ 0 →
    exec (.jobComplete now j) s = .next ((s.at now).jobFailed j job)) ∧
  (∀ (s u : State) (now j : Nat) (job y : Job), s.job? j = some job → job.written = false → (s.at now).jobBusy j = false → job.status = 0 →
    job.allEnded = true → job.ready = [] → (s.at now).commitAll j job = .ok u → u.job? j = some y → y.parkFull = false →
    exec (.jobComplete now j) s = .next ((((u.drainCommit y).intakeRows y).updJob j fun x => { x with written := true }).jobSettle j)) ∧
  (∀ (s : State) (now j : Nat) (job : Job), s.job? j = some job → job.written = false → job.status = 0 → job.allEnded = false →
    exec (.jobComplete now j) s = .next (s.at now)) ∧
  (∀ (s : State) (now id keep : Nat) (x : Slice), s.slice? id = some x → x.ran = true → x.left = 0 →
    exec (.sliceEnd now id keep) s = .next ((s.at now).sliceDone id keep)) ∧
  (∀ (s : State) (now id keep : Nat) (x : Slice), s.slice? id = some x → x.ran = true → x.left ≠ 0 →
    exec (.sliceEnd now id keep) s = .next (s.at now)) ∧
  (∀ (s : State) (now id keep : Nat) (x : Slice), s.slice? id = some x → x.ran = true → x.left ≠ 0 →
    exec (.sliceBound now id keep) s = .next ((match ((s.at now).sliceCtx id).bind fun c => splitsField c.st.cls with
      | some f => (s.at now).count (f.on x.page) 1
      | none => s.at now).sliceDone id keep))

/-- Ring control: a submission ring and a completion ring enabled, refused, disabled; a retry. Draws on R171, R172. -/
def Obligations.RingControl : Prop :=
  (∀ (s u : State) (now ring : Nat) (req : Requester), ring < 64 → s.lands now req (ringPage ring) 0x110 1#64 u →
    (u.sq (viewOf req) ring).enabled = false → u.sqOk (viewOf req) ring = true →
    exec (.sqEnable now req ring true) s = .next (u.sqStart (viewOf req) ring).ringSettle) ∧
  (∀ (s u : State) (now ring : Nat) (req : Requester), ring < 64 → s.lands now req (ringPage ring) 0x110 1#64 u →
    (u.sq (viewOf req) ring).enabled = false → u.sqOk (viewOf req) ring = false →
    exec (.sqEnable now req ring true) s = .next (u.raiseBy req (ringPage ring) 18 0x110).ringSettle) ∧
  (∀ (s u : State) (now ring : Nat) (req : Requester), ring < 64 → s.lands now req (ringPage ring) 0x110 0#64 u →
    (u.sq (viewOf req) ring).enabled = true → exec (.sqEnable now req ring false) s = .next (u.sqStop (viewOf req) ring).ringSettle) ∧
  (∀ (s : State) (fn ring : Nat), ring < 64 → (s.sqStart fn ring).ringFld fn ring RING.SQ_ENABLE = 1 ∧
    ((s.sqStart fn ring).sq fn ring).enabled = true ∧ ((s.sqStart fn ring).sq fn ring).head = 0 ∧ ((s.sqStart fn ring).sq fn ring).tail = 0 ∧
    ((s.sqStart fn ring).sq fn ring).seq = 0 ∧ ((s.sqStart fn ring).sq fn ring).inflight = (s.sq fn ring).inflight ∧
    (s.sqStop fn ring).ringFld fn ring RING.SQ_ENABLE = 0 ∧ ((s.sqStop fn ring).sq fn ring).enabled = false ∧ (s.sqStop fn ring).work.descs = s.work.descs) ∧
  (∀ (s u : State) (now ring : Nat) (req : Requester), ring < 64 → s.lands now req (ringPage ring) 0x130 1#64 u →
    (u.cq (viewOf req) ring).enabled = false → u.cqOk (viewOf req) ring = true →
    exec (.cqEnable now req ring true) s = .next (u.cqStart (viewOf req) ring)) ∧
  (∀ (s u : State) (now ring : Nat) (req : Requester), ring < 64 → s.lands now req (ringPage ring) 0x130 0#64 u →
    (u.cq (viewOf req) ring).enabled = true → u.cqNamed (viewOf req) ring = true →
    exec (.cqEnable now req ring false) s = .next (u.raiseBy req (ringPage ring) 18 0x130)) ∧
  (∀ (s u : State) (now ring : Nat) (req : Requester), ring < 64 → s.lands now req (ringPage ring) 0x130 0#64 u →
    (u.cq (viewOf req) ring).enabled = true → u.cqNamed (viewOf req) ring = false →
    exec (.cqEnable now req ring false) s = .next (u.cqStop (viewOf req) ring)) ∧
  (∀ (s u : State) (now ring : Nat) (req : Requester), ring < 64 →
    s.lands now req (ringPage ring) 0x110 (putBits (s.word (viewOf req) (ringPage ring) 0x110) 1 1 1) u → (u.sq (viewOf req) ring).enabled = true →
    bitAt (s.word (viewOf req) (ringPage ring) 0x110).toNat 0 = true →
    exec (.sqRetry now req ring) s = .next (u.setSq (viewOf req) ring { u.sq (viewOf req) ring with faulted := false }).ringSettle)

/-- Waits and delays of a running thread, the ticks that end them, and a thread's counters: allocated, decremented, freed. Draws on R183, R185, R186,
R196, R197. -/
def Obligations.ThreadWaitsAndCounters : Prop :=
  (∀ (s : State) (now t ctr ticks : Nat) (named : Bool) (th : Thread), s.thread? t = some th → th.state = .running → th.copyFail = 0 →
    (mayUse th ctr named = false → exec (.rnWait now t ctr ticks named) s =
      .next ((s.at now).setThread t { th with result := some .invalid, a0 := waitCode .invalid })) ∧
    (mayUse th ctr named = true → Table.find? s.rennet.counters ctr = some .zero → exec (.rnWait now t ctr ticks named) s =
      .next ((s.at now).setThread t { th with result := some .byCount, a0 := waitCode .byCount })) ∧
    (∀ n, mayUse th ctr named = true → Table.find? s.rennet.counters ctr = some (.armed n) → ticks = 0 → exec (.rnWait now t ctr ticks named) s =
      .next ((s.at now).setThread t { th with result := some .byTimeout, a0 := waitCode .byTimeout })) ∧
    (∀ n, mayUse th ctr named = true → Table.find? s.rennet.counters ctr = some (.armed n) → ticks ≠ 0 → exec (.rnWait now t ctr ticks named) s =
      .next ((s.at now).waitThread t th ctr (ticks % 2 ^ 32)))) ∧
  (∀ (s : State) (now t : Nat) (th : Thread), s.thread? t = some th → th.state = .waiting → (s.at now).wakeDue t = true →
    exec (.rnWaitTimeout now t) s = .next ((s.at now).wakeThread t .byTimeout).rennetSettle) ∧
  (∀ (s : State) (now t : Nat) (th : Thread), s.thread? t = some th → th.state = .waiting → (s.at now).wakeDue t = false →
    exec (.rnWaitTimeout now t) s = .next (s.at now)) ∧
  (∀ (s : State) (now t : Nat) (th : Thread), s.thread? t = some th → th.state = .running → th.copyFail = 0 →
    exec (.rnDelay now t 0) s = .next ((s.at now).readyTail t { th.offCore (max s.chrono now) with a0 := 0#64 }).rennetSettle) ∧
  (∀ (s : State) (now t ticks : Nat) (th : Thread), s.thread? t = some th → th.state = .running → th.copyFail = 0 → ticks ≠ 0 →
    exec (.rnDelay now t ticks) s = .next (((s.at now).setThread t { th.offCore (max s.chrono now) with a0 := 0#64, state := .delayed }).addDelay
      (tickAfter (max s.chrono now) + ticks) t).rennetSettle) ∧
  (∀ (s : State) (now t : Nat) (th : Thread), s.thread? t = some th → th.state = .delayed → (s.at now).wakeDue t = true →
    exec (.delayWake now t) s = .next (((s.at now).modRennet fun r => { r with delays := r.delays.drop 1 }).readyTail t th).rennetSettle) ∧
  (∀ (s : State) (now t : Nat) (th : Thread), s.thread? t = some th → th.state = .running → th.copyFail ≠ 0 →
    exec (.rnTide now t) s = .next ((s.at now).failSlice t th.copyFail 0).placeAll) ∧
  (∀ (s : State) (now t count : Nat) (th : Thread), s.thread? t = some th → th.state = .running → th.copyFail = 0 → count % 2 ^ 32 ≠ 0 →
    th.owned.length < 16 → (∃ c, 1024 ≤ c ∧ c < 65536 ∧ Table.has s.rennet.counters c = false) →
    1024 ≤ s.ctrPick ∧ s.ctrPick < 65536 ∧ Table.has s.rennet.counters s.ctrPick = false ∧
    ∃ u, exec (.rnCtrAlloc now t count) s = .next u ∧
      Table.find? u.rennet.counters s.ctrPick = some (.armed (count % 2 ^ 32)) ∧
      u.thread? t = some { th with
        owned := th.owned ++ [s.ctrPick], a0 := BitVec.ofNat 64 s.ctrPick } ∧
      u.regs = s.regs ∧ u.mem = s.mem) ∧
  (∀ (s : State) (now t count : Nat) (th : Thread), s.thread? t = some th → th.state = .running → th.copyFail = 0 →
    (count % 2 ^ 32 = 0 ∨ 16 ≤ th.owned.length) →
    exec (.rnCtrAlloc now t count) s = .next ((s.at now).setThread t { th with a0 := BitVec.allOnes 64 })) ∧
  (∀ (s : State) (now t ctr amount : Nat) (named : Bool) (th : Thread), s.thread? t = some th → th.state = .running → th.copyFail = 0 →
    mayUse th ctr named = true →
    exec (.rnCtrSub now t ctr amount named) s = .next (((s.at now).setThread t { th with a0 := 0#64 }).ctrDec ctr (amount % 2 ^ 32)).rennetSettle) ∧
  (∀ (s : State) (now t ctr amount : Nat) (named : Bool) (th : Thread), s.thread? t = some th → th.state = .running → th.copyFail = 0 →
    mayUse th ctr named = false → exec (.rnCtrSub now t ctr amount named) s = .next ((s.at now).setThread t { th with a0 := 2#64 })) ∧
  (∀ (s : State) (now t ctr : Nat) (named : Bool) (th : Thread), s.thread? t = some th → th.state = .running → th.copyFail = 0 →
    mayUse th ctr named = true → exec (.rnCtrFree now t ctr named) s =
      .next ((((s.at now).setThread t { th with owned := th.owned.filter fun c => c != ctr }).disarm ctr).rnOpen t)) ∧
  (∀ (s : State) (ctr c n : Nat), Table.find? s.rennet.counters ctr = some (.armed c) → n < c →
    Table.find? (s.ctrDec ctr n).rennet.counters ctr = some (.armed (c - n)) ∧ (s.ctrDec ctr n).regs = s.regs) ∧
  (∀ (s : State) (ctr c : Nat), Table.find? s.rennet.counters ctr = some (.armed c) →
    s.ctrDec ctr c = (s.setCounter ctr .zero).wakeWaiters ctr .byCount) ∧
  (∀ (s : State) (ctr c n : Nat), Table.find? s.rennet.counters ctr = some (.armed c) → c < n →
    s.ctrDec ctr n = ((s.setCounter ctr .zero).ctrUnderflow).wakeWaiters ctr .byCount)

/-- Copies of a thread, and the calls that only return a value. Draws on R181, R183, R196, R197, R198. -/
def Obligations.ThreadCalls : Prop :=
  (∀ (s : State) (now t dst src len ctr : Nat) (sh dh : Bool) (th : Thread), s.thread? t = some th → th.state = .running → th.copyFail = 0 →
    exec (.rnCopy now t dst src len ctr false sh dh) s = .next ((s.at now).setThread t { th with a0 := 2#64 })) ∧
  (∀ (s : State) (now t dst src len ctr : Nat) (sh dh : Bool) (th : Thread), s.thread? t = some th → th.state = .running → th.copyFail = 0 →
    ∃ (u : State) (c : Copy), u.copy? s.rennet.nextCopy = some c ∧ c.slice = t ∧ c.src = src ∧ c.dst = dst ∧ c.len = len ∧ c.ctr = ctr ∧
      u.rennet.nextCopy = s.rennet.nextCopy + 1 ∧ u.thread? t = some { th with a0 := 0#64 } ∧ u.mem = s.mem ∧
      exec (.rnCopy now t dst src len ctr true sh dh) s = .next (u.copyReads s.rennet.nextCopy c)) ∧
  (∀ (s : State) (now t : Nat) (th : Thread), s.thread? t = some th → th.state = .running → th.copyFail = 0 →
    exec (.rnBudget now t) s =
      .next ((s.at now).setThread t { th with a0 := BitVec.ofNat 64 ((s.sliceUsOf t + 2) * 1000 - (s.at now).turnTime th) }) ∧
    exec (.rnTide now t) s = .next ((s.at now).setThread t { th with a0 := BitVec.ofNat 64 s.tide.now }) ∧
    exec (.ecallUnknown now t) s = .next ((s.at now).setThread t { th with a0 := BitVec.allOnes 64 })) ∧
  (∀ (s : State) (now id st : Nat) (data : Bytes) (c : Copy), s.copy? id = some c → c.asked = 0 → c.moved = true →
    exec (.copyComplete now id st data) s = .next ((s.at now).copyOver id c)) ∧
  (∀ (s : State) (now id st : Nat) (data : Bytes) (c : Copy), s.copy? id = some c → c.asked = 0 → c.moved = false → c.status = 0 →
    (s.thread? c.slice).isSome = true → st ≠ 0 → exec (.copyComplete now id st data) s = .next ((s.at now).copyOver id (c.failed st))) ∧
  (∀ (s u : State) (now id : Nat) (data : Bytes) (c : Copy), s.copy? id = some c → c.asked = 0 → c.moved = false → c.status = 0 →
    (s.thread? c.slice).isSome = true → (s.at now).copyPoisoned c = false →
    u = (((s.at now).copyWrite id c ((s.at now).copyBytes c data)).updCopy id fun x => { x with moved := true }) →
    (u.copy? id).all (fun d => d.asked != 0) = true → exec (.copyComplete now id 0 data) s = .next u) ∧
  (∀ (s : State) (now t : Nat) (content : Bytes) (th : Thread), s.thread? t = some th → th.state = .running → th.exec = true →
    exec (.fenceI now t content) s = .next ((s.at now).setThread t { th with icopy := content.take 16384 }))

/-- The end of a stage's code, its faults and its bounds. Draws on R181, R192, R195. -/
def Obligations.StageCode : Prop :=
  (∀ (s : State) (now t : Nat) (a0 cursor : Word) (th : Thread) (c : Ctx) (outs : List (Nat × List (List Val))) (ws : List (Nat × Bytes)),
    s.thread? t = some th → th.state = .running → th.copyFail = 0 → (s.at now).sliceCtx t = some c → a0 ≠ 0#64 → a0 ≠ 1#64 →
    exec (.stageReturn now t a0 cursor outs ws) s = .next ((s.at now).failSlice t 0x5A 0).placeAll) ∧
  (∀ (s u : State) (now t : Nat) (cursor : Word) (th : Thread) (c : Ctx) (outs : List (Nat × List (List Val))) (ws : List (Nat × Bytes)),
    s.thread? t = some th → th.state = .running → th.copyFail = 0 → (s.at now).sliceCtx t = some c →
    ((s.at now).stageWrites ws).appendOuts c outs = .ok u →
    exec (.stageReturn now t 0#64 cursor outs ws) s = .next (u.customDone c) ∧
    exec (.stageReturn now t 1#64 cursor outs ws) s =
      .next (u.readyTail t { th.offCore (max s.chrono now) with a0 := 1#64, cursor := cursor }).rennetSettle) ∧
  (∀ (s : State) (now t addr : Nat) (th : Thread), s.thread? t = some th → th.state = .running →
    exec (.stageFault now t addr) s =
      .next (((s.at now).count CTLCORE.STAGE_FAULTS 1).failSlice t 0x58 (s.node.id * 2 ^ 48 + addr % 2 ^ 48)).placeAll) ∧
  (∀ (s : State) (now t : Nat) (th : Thread), s.thread? t = some th → th.state = .running →
    (s.sliceUsOf t + 2) * 1000 ≤ (s.at now).turnTime th →
    exec (.quantumExpiry now t) s = .next ((s.at now).readyTail t (th.offCore (max s.chrono now))).rennetSettle) ∧
  (∀ (s : State) (now t : Nat) (th : Thread), s.thread? t = some th → th.state = .running →
    (s.at now).turnTime th < (s.sliceUsOf t + 2) * 1000 → exec (.quantumExpiry now t) s = .next (s.at now)) ∧
  (∀ (s : State) (now t : Nat) (th : Thread), s.thread? t = some th → th.state = .running →
    s.fld RENNET.STAGE_LIMIT * s.sliceUsOf t * 1000 ≤ (th.offCore (max s.chrono now)).used →
    exec (.stageOverrun now t) s = .next (((s.at now).count CTLCORE.STAGE_OVERRUNS 1).failSlice t 0x59 0).placeAll)

/-- Host counters, flows and the control cores. Draws on R191, R200, R201, R503, R504. -/
def Obligations.HostCounters : Prop :=
  (∀ (s u : State) (now ctr n : Nat) (req : Requester), s.lands now req 0x050 0x108 (ctrWord 1 ctr n) u → u.tiersReady = true →
    (∀ k, Table.find? u.rennet.counters (ctr % 1024) ≠ some (.armed k)) → n % 2 ^ 32 ≠ 0 →
    ∃ t, exec (.ctrArm now req ctr n) s = .next t ∧ Table.find? t.rennet.counters (ctr % 1024) = some (.armed (n % 2 ^ 32)) ∧
      t.fld RENNET.RESULT = 0 ∧ t.fld RENNET.DONE = 1 ∧ t.work = s.work) ∧
  (∀ (s u : State) (now ctr n k : Nat) (req : Requester), s.lands now req 0x050 0x108 (ctrWord 1 ctr n) u → u.tiersReady = true →
    Table.find? u.rennet.counters (ctr % 1024) = some (.armed k) → ∃ t, exec (.ctrArm now req ctr n) s = .next t ∧ t.rennet = s.rennet ∧
      t.fld RENNET.RESULT = 1) ∧
  (∀ (s u : State) (now ctr n : Nat) (c : Counter) (req : Requester), s.lands now req 0x050 0x108 (ctrWord 2 ctr n) u → u.tiersReady = true →
    Table.find? u.rennet.counters (ctr % 1024) = some c →
    exec (.ctrSub now req ctr n) s = .next (((u.ctrDec (ctr % 1024) (n % 2 ^ 32)).rennetSettle).rennetResult 0)) ∧
  (∀ (s u : State) (now ctr : Nat) (c : Counter) (req : Requester), s.lands now req 0x050 0x108 (ctrWord 3 ctr 0) u → u.tiersReady = true →
    Table.find? u.rennet.counters (ctr % 1024) = some c →
    exec (.ctrDisarm now req ctr) s = .next ((u.disarm (ctr % 1024)).rennetResult 0)) ∧
  (∀ (s u : State) (now flow fn v : Nat) (req : Requester), s.lands now req 0x050 0x110 (flowWord 1 flow fn v) u → u.tiersReady = true →
    flow % 4096 ≤ 3071 → Table.find? u.rennet.flows (flow % 4096) = none →
    ∃ t, exec (.flowOpen now req flow fn v) s = .next t ∧ Table.find? t.rennet.flows (flow % 4096) = some ⟨fn % 32, v % 2 ^ 32, []⟩ ∧
      t.fld RENNET.RESULT = 0) ∧
  (∀ (s u : State) (now flow : Nat) (f : Flow) (req : Requester), s.lands now req 0x050 0x110 (flowWord 2 flow 0 0) u → u.tiersReady = true →
    flow % 4096 ≤ 3071 → Table.find? u.rennet.flows (flow % 4096) = some f →
    (f.items = [] → ∃ t, exec (.flowClose now req flow) s = .next t ∧ Table.find? t.rennet.flows (flow % 4096) = none ∧ t.fld RENNET.RESULT = 0) ∧
    (f.items ≠ [] → ∃ t, exec (.flowClose now req flow) s = .next t ∧ t.rennet = s.rennet ∧ t.fld RENNET.RESULT = 3)) ∧
  (∀ (s u : State) (now flow v : Nat) (f : Flow) (req : Requester), s.lands now req 0x050 0x110 (flowWord 3 flow 0 v) u → u.tiersReady = true →
    flow % 4096 ≤ 3071 → Table.find? u.rennet.flows (flow % 4096) = some f → (v % 2 ^ 32 + 2 ^ 32 - f.next) % 2 ^ 32 < 2 ^ 31 →
    f.items.any (fun i => decide ((i.seq + 2 ^ 32 - f.next) % 2 ^ 32 < (v % 2 ^ 32 + 2 ^ 32 - f.next) % 2 ^ 32)) = false →
    ∃ w : State, w = u.modRennet (fun r => { r with flows := Table.put r.flows (flow % 4096) { f with next := v % 2 ^ 32 } }) ∧
      exec (.flowAdvance now req flow v) s = .next (((w.flowRelease (flow % 4096) (f.items.length + 1)).ringSettle).rennetResult 0)) ∧
  (∀ (s u : State) (now mask : Nat) (req : Requester), s.lands now req 0x051 0x100 (BitVec.ofNat 64 (mask % 65536)) u → 2 ≤ u.coresLeft (mask % 65536) →
    exec (.coreOos now req mask) s = .next (u.setFld CTLCORE.CORE_OOS (mask % 65536)).coresChanged) ∧
  (∀ (s u : State) (now mask : Nat) (req : Requester), s.lands now req 0x051 0x100 (BitVec.ofNat 64 (mask % 65536)) u → u.coresLeft (mask % 65536) < 2 →
    u.locked 0 0x051 = false → exec (.coreOos now req mask) s = .next (u.setFld CTLCORE.CORE_REFUSED 1)) ∧
  (∀ (s : State) (now core : Nat), core < 16 → s.power.released = true → bitAt s.rennet.coresFailed core = false →
    ∃ u : State, u = ((s.at now).modRennet fun r => { r with coresFailed := withBit r.coresFailed core true }).raiseOwn 0x051 18 ∧
      exec (.coreFail now core []) s = .next (((((s.running.filter fun e => e.2.core = some core).map (·.1)).foldl (fun x t => x.failSlice t 0x5B 0)
        (if u.coresLeft (u.fld CTLCORE.CORE_OOS) < 2 then u.nodeFatal 0x20 0
          else u.faultRecord ⟨2, 0x12, 0, 0, 0x051, u.node.id, 0, 0, 0, 0, 0⟩)).rennetSettle).placeAll)) ∧
  (∀ (s : State) (now : Nat), s.power.released = true →
    exec (.l2Ue now none) s = .next ((((s.at now).count CTLCORE.L2_UE_COUNT 1).raiseOwn 0x051 17).nodeFatal 0x21 0)) ∧
  (∀ (s : State) (now t : Nat) (th : Thread), s.power.released = true → s.thread? t = some th →
    exec (.l2Ue now (some t)) s = .next ((((s.at now).count CTLCORE.L2_UE_COUNT 1).raiseOwn 0x051 17).failSlice t 0x41 0).placeAll)

/-- Beats and reports: a beat sent by the lead, one that arrives, a report, the loss of beats. Draws on R211, R213, R220, R427. -/
def Obligations.BeatsAndReports : Prop :=
  (∀ (s : State) (now : Nat), s.power.released = true → (s.at now).isLead = true → 0 < s.beatNs → s.tide.lastBeatSent + s.beatNs ≤ max s.chrono now →
    s.fabric.resetCopies = 0 → s.fld TIDE.MODE ≠ 0 →
    ∃ u : State, u = (s.at now).modTide (fun t => { t with
        lastBeatSent := t.lastBeatSent + (max s.chrono now - s.tide.lastBeatSent) / s.beatNs * s.beatNs }) ∧
      exec (.beatSend now) s = .next (u.sendBeat u.tide.now false)) ∧
  (∀ (s : State) (now : Nat), max s.chrono now < s.tide.lastBeatSent + s.beatNs → exec (.beatSend now) s = .next (s.at now)) ∧
  (∀ (s : State) (now : Nat) (raw : Bytes), s.power.released = true → beatOf raw = none →
    exec (.beatApply now raw) s = .next ((s.at now).raiseOwn 0x058 16)) ∧
  (∀ (s : State) (now : Nat) (raw : Bytes) (b : Beat), s.power.released = true → beatOf raw = some b → b.lead = s.herd.lead →
    0 < s.tide.now → b.scale ≠ s.tide.herdScale → exec (.beatApply now raw) s = .next ((s.at now).raiseOwn 0x058 17)) ∧
  (∀ (s : State) (now last : Nat) (raw : Bytes) (b : Beat), s.power.released = true → beatOf raw = some b → b.lead = s.herd.lead →
    (s.tide.now = 0 ∨ (b.scale = s.tide.herdScale ∧ b.epochTu = s.tide.herdEpochTu)) → s.tide.lastSeq = some last →
    (b.seq + 2 ^ 32 - last % 2 ^ 32) % 2 ^ 32 ≠ 0 → (b.seq + 2 ^ 32 - last % 2 ^ 32) % 2 ^ 32 < 2 ^ 31 →
    exec (.beatApply now raw) s = .next ((s.at now).applyBeat b)) ∧
  (∀ (s : State) (now last : Nat) (raw : Bytes) (b : Beat), s.power.released = true → beatOf raw = some b → b.lead = s.herd.lead →
    (s.tide.now = 0 ∨ (b.scale = s.tide.herdScale ∧ b.epochTu = s.tide.herdEpochTu)) → s.tide.lastSeq = some last →
    (b.seq + 2 ^ 32 - last % 2 ^ 32) % 2 ^ 32 = 0 → exec (.beatApply now raw) s = .next ((s.at now).count TIDE.STALE_BEATS 1)) ∧
  (∀ (b : Beat), b.lead < 2 ^ 16 → b.seq < 2 ^ 32 → b.tide < 2 ^ 64 → b.chrono < 2 ^ 64 → b.periodUs < 2 ^ 32 → b.scale < 16 → b.mode < 4 →
    b.epochTu < 2 ^ 64 → beatOf (beatBytes b) = some b) ∧
  (∀ (s : State) (now : Nat) (raw : Bytes), s.power.released = true → s.isLead = true → s.fabric.members.contains (leAt raw 2 2) = true →
    raw.length = 32 → byteAt raw 0 = 2 → byteAt raw 1 = 1 → leAt raw 28 4 = crc32c (raw.take 28) →
    ∃ t, exec (.reportReceive now raw) s = .next t ∧
      Table.find? t.tide.reports (leAt raw 2 2) = some ⟨leAt raw 4 4, leAt raw 8 8, leAt raw 16 8⟩ ∧ t.tide.now = s.tide.now ∧ t.regs = s.regs) ∧
  (∀ (s : State) (now : Nat) (raw : Bytes), s.power.released = true → s.isLead = false →
    exec (.reportReceive now raw) s = .next (s.at now)) ∧
  (∀ (s : State) (now : Nat), s.node.valid = true → s.isLead = false → s.tide.lost = false → (s.at now).quietFor (s.fld TIDE.BEAT_LOSS) = true →
    (s.word 0 0x058 0x020).getLsbD 19 = false → (s.word 0 0x058 0x028).getLsbD 19 = false → s.fld HERD.STATE ≠ 3 →
    ∃ t, exec (.beatLost now) s = .next t ∧ t.tide.lost = true ∧ t.tide.now = s.tide.now ∧ bitAt (t.word 0 0x058 0x020).toNat 19 = true) ∧
  (∀ (s : State) (now : Nat), s.tide.lost = true → exec (.beatLost now) s = .next (s.at now))

/-- The tide's registers: HOST_TIDE, the mode, an alarm. Draws on R210, R211, R218. -/
def Obligations.TideRegisters : Prop :=
  (∀ (s u : State) (now : Nat) (v : Word), s.lands now (.fn 0) 0x058 0x120 v u → u.isLead = true → u.fld TIDE.MODE = 2 → u.tide.now ≤ v.toNat →
    v.toNat ≤ tideMax → ∃ t, exec (.hostTide now (.fn 0) v) s = .next t ∧ t.fld TIDE.HOST_TIDE = v.toNat ∧ t.tide.hostTide = v.toNat ∧
      t.tide.now = s.tide.now) ∧
  (∀ (s u : State) (now : Nat) (req : Requester) (v : Word), s.lands now req 0x058 0x120 v u → (req ≠ .fn 0 ∨ u.isLead = false ∨ u.fld TIDE.MODE ≠ 2 ∨
    v.toNat < u.tide.now ∨ tideMax < v.toNat) → exec (.hostTide now req v) s = .next (u.raiseBy req 0x058 18 0x120)) ∧
  (∀ (s u : State) (now mode : Nat) (req : Requester), s.lands now req 0x058 0x100 (putBits (s.word 0 0x058 0x100) 1 0 mode) u →
    bitsOf (s.word 0 0x058 0x100) 7 4 = u.fld TIDE.SCALE →
    exec (.tideModeWrite now req mode) s =
      .next (if bitsOf (s.word 0 0x058 0x100) 1 0 = 0 ∧ u.fld TIDE.MODE ≠ 0 then u.modTide fun t => { t with lastBeatSent := u.chrono } else u)) ∧
  (∀ (s u : State) (now ctrId : Nat) (irq ctr out : Bool),
    s.lands now .cores 0x058 0x190 (BitVec.ofNat 64 (ofBool true + 2 * ofBool irq + 4 * ofBool ctr + 8 * ofBool out + ctrId % 65536 * 65536)) u →
    (u.alarm (u.fld TIDE.ALARM_SEL)).arm = false → u.tide.now < (u.alarm (u.fld TIDE.ALARM_SEL)).tide →
    ∃ t, exec (.alarmArm now .cores true irq ctr out ctrId) s = .next t ∧ t.regs = u.regs ∧
      t.alarm (u.fld TIDE.ALARM_SEL) = { u.alarm (u.fld TIDE.ALARM_SEL) with arm := true, irq := irq, ctr := ctr, out := out, ctrId := ctrId % 65536 }) ∧
  (∀ (s u : State) (now ctrId : Nat) (irq ctr out : Bool),
    s.lands now .cores 0x058 0x190 (BitVec.ofNat 64 (ofBool true + 2 * ofBool irq + 4 * ofBool ctr + 8 * ofBool out + ctrId % 65536 * 65536)) u →
    (u.alarm (u.fld TIDE.ALARM_SEL)).arm = false → (u.alarm (u.fld TIDE.ALARM_SEL)).tide ≤ u.tide.now →
    ∃ w : State, exec (.alarmArm now .cores true irq ctr out ctrId) s = .next (w.fireAlarm (u.fld TIDE.ALARM_SEL)) ∧
      (w.alarm (u.fld TIDE.ALARM_SEL)).arm = true ∧ w.tide.now = s.tide.now) ∧
  (∀ (s u : State) (now n ctrId : Nat) (irq ctr out : Bool),
    s.lands now (.fn n) 0x058 0x190 (BitVec.ofNat 64 (ofBool true + 2 * ofBool irq + 4 * ofBool ctr + 8 * ofBool out + ctrId % 65536 * 65536)) u →
    exec (.alarmArm now (.fn n) true irq ctr out ctrId) s = .next u)

/-- Sources of event time: opened, closed, heard, idle, active, read, idle by time. Draws on R205, R206, R207. -/
def Obligations.TideSources : Prop :=
  (∀ (s u : State) (now id ms : Nat) (req : Requester), s.lands now req 0x058 0x1A0 (srcWord 1 id ms) u → id % 1024 ≤ 767 → 1 ≤ ms % 65536 →
    ms % 65536 ≤ 60000 → u.fld TIDE.SRC_ARG ≤ 2 ^ 62 → Table.find? u.tide.sources (id % 1024) = none →
    ∃ t, exec (.srcOpen now req id ms) s = .next t ∧ t.fld TIDE.RESULT = 0 ∧ t.fld TIDE.DONE = 1 ∧
      Table.find? t.tide.sources (id % 1024) = some { delay := u.fld TIDE.SRC_ARG, idleMs := ms % 65536, heard := max s.chrono now }) ∧
  (∀ (s u : State) (now id ms : Nat) (req : Requester), s.lands now req 0x058 0x1A0 (srcWord 1 id ms) u → 767 < id % 1024 →
    ∃ t, exec (.srcOpen now req id ms) s = .next t ∧ t.fld TIDE.RESULT = 3 ∧ t.tide = s.tide) ∧
  (∀ (s u : State) (now id : Nat) (req : Requester) (x : Source), s.lands now req 0x058 0x1A0 (srcWord 2 id (s.fld TIDE.IDLE_MS)) u →
    id % 1024 ≤ 767 → Table.find? u.tide.sources (id % 1024) = some x → u.sourceHeld (id % 1024) = false →
    ∃ t, exec (.srcClose now req id) s = .next t ∧ t.fld TIDE.RESULT = 0 ∧ Table.find? t.tide.sources (id % 1024) = none) ∧
  (∀ (s u : State) (now id : Nat) (req : Requester) (x : Source), s.lands now req 0x058 0x1A0 (srcWord 2 id (s.fld TIDE.IDLE_MS)) u →
    id % 1024 ≤ 767 → Table.find? u.tide.sources (id % 1024) = some x → u.sourceHeld (id % 1024) = true →
    ∃ t, exec (.srcClose now req id) s = .next t ∧ t.fld TIDE.RESULT = 1 ∧ t.tide = s.tide) ∧
  (∀ (s u : State) (now id : Nat) (req : Requester) (x : Source), s.lands now req 0x058 0x1A0 (srcWord 3 id (s.fld TIDE.IDLE_MS)) u →
    id % 1024 ≤ 767 → Table.find? u.tide.sources (id % 1024) = some x →
    exec (.srcLow now req id) s = .next ((u.sourceHears (id % 1024) 0 (u.fld TIDE.SRC_ARG)).srcResult 0)) ∧
  (∀ (s u : State) (now id : Nat) (req : Requester) (x : Source), s.lands now req 0x058 0x1A0 (srcWord 4 id (s.fld TIDE.IDLE_MS)) u →
    id % 1024 ≤ 767 → Table.find? u.tide.sources (id % 1024) = some x →
    ∃ t, exec (.srcIdle now req id) s = .next t ∧ Table.find? t.tide.sources (id % 1024) = some { x with idle := true } ∧ t.fld TIDE.RESULT = 0) ∧
  (∀ (s u : State) (now id : Nat) (req : Requester) (x : Source), s.lands now req 0x058 0x1A0 (srcWord 5 id (s.fld TIDE.IDLE_MS)) u →
    id % 1024 ≤ 767 → Table.find? u.tide.sources (id % 1024) = some x →
    exec (.srcActive now req id) s =
      .next ((((u.setSource (id % 1024) { x with idle := false, heard := max s.chrono now }).sourceWake x).lagNotice).srcResult 0)) ∧
  (∀ (s u : State) (now id : Nat) (req : Requester) (x : Source), s.lands now req 0x058 0x1A0 (srcWord 6 id (s.fld TIDE.IDLE_MS)) u →
    id % 1024 ≤ 767 → Table.find? u.tide.sources (id % 1024) = some x →
    ∃ t, exec (.srcRead now req id) s = .next t ∧ t.fld TIDE.S_OPEN = 1 ∧ t.fld TIDE.S_IDLE = ofBool x.idle ∧ t.fld TIDE.SRC_WM = x.w % 2 ^ 64 ∧
      t.fld TIDE.RESULT = 0 ∧ t.tide = s.tide) ∧
  (∀ (s : State) (now id : Nat) (x : Source), Table.find? s.tide.sources id = some x → x.idle = false → x.heard + x.idleMs * 1000000 ≤ max s.chrono now →
    ∃ t, exec (.sourceIdleExpire now id) s = .next t ∧ Table.find? t.tide.sources id = some { x with idle := true } ∧ t.tide.now = s.tide.now) ∧
  (∀ (s : State) (now id : Nat) (x : Source), Table.find? s.tide.sources id = some x → max s.chrono now < x.heard + x.idleMs * 1000000 →
    exec (.sourceIdleExpire now id) s = .next (s.at now)) ∧
  (∀ (s u : State) (now id : Nat) (req : Requester), s.lands now req 0x058 0x1A0 (srcWord 3 id (s.fld TIDE.IDLE_MS)) u → id % 1024 ≤ 767 →
    Table.find? u.tide.sources (id % 1024) = none → ∃ t, exec (.srcLow now req id) s = .next t ∧ t.fld TIDE.RESULT = 2 ∧ t.tide = s.tide)

/-- The surveys of a job, the damage log's head and enable, its entries. Draws on R253, R267, R269. -/
def Obligations.IntakeLog : Prop :=
  (∀ (s : State) (now j : Nat) (job : Job), s.job? j = some job →
    exec (.intakeSurvey now j) s = .next ((List.range job.plan.stages.length).foldl (fun x i => x.surveyStage j i) (s.at now))) ∧
  (∀ (s : State) (now j : Nat), s.job? j = none → exec (.intakeSurvey now j) s = .next (s.at now)) ∧
  (∀ (s u : State) (now head : Nat) (req : Requester), s.lands now req 0x070 0x118 (BitVec.ofNat 64 (head % 65536)) u →
    head % 65536 < u.dlogDepth →
    occupancy (bitsOf (s.word 0 0x070 0x118) 15 0) (head % 65536) u.dlogDepth ≤ occupancy (bitsOf (s.word 0 0x070 0x118) 15 0) u.dlog.tail u.dlogDepth →
    ∃ t, exec (.dlogHead now req head) s = .next t ∧ t.fld INTAKE.DLOG_HEAD = head % 65536 ∧ t.dlog = s.dlog ∧ t.mem = s.mem) ∧
  (∀ (s u : State) (now head : Nat) (req : Requester), s.lands now req 0x070 0x118 (BitVec.ofNat 64 (head % 65536)) u → u.dlogDepth ≤ head % 65536 →
    ∃ t, exec (.dlogHead now req head) s = .next t ∧ t.fld INTAKE.DLOG_HEAD = bitsOf (s.word 0 0x070 0x118) 15 0 ∧
      bitAt (t.word 0 0x070 0x020).toNat 20 = true) ∧
  (∀ (s u : State) (now : Nat) (req : Requester), s.lands now req 0x070 0x110 1#64 u → (s.word 0 0x070 0x110).getLsbD 0 = false →
    4 ≤ u.fld INTAKE.LOG_DEPTH → u.fld INTAKE.LOG_DEPTH ≤ 16 → u.fld INTAKE.DLOG_BASE % 4096 = 0 →
    engineMapped (u.fld INTAKE.DLOG_BASE) (64 * 2 ^ u.fld INTAKE.LOG_DEPTH) = true →
    ∃ t, exec (.dlogEnable now req true) s = .next t ∧ t.bit INTAKE.ENABLE = true ∧ t.dlog = {} ∧ t.fld INTAKE.DLOG_HEAD = 0) ∧
  (∀ (s u : State) (now : Nat) (req : Requester), s.lands now req 0x070 0x110 1#64 u → (s.word 0 0x070 0x110).getLsbD 0 = false →
    u.fld INTAKE.LOG_DEPTH < 4 → ∃ t, exec (.dlogEnable now req true) s = .next t ∧ t.bit INTAKE.ENABLE = false ∧ t.dlog = s.dlog) ∧
  (∀ (s : State) (e : DlogEntry), (s.dlogBytes e).length = 64)

/-- Dictionary commands: registered, refused, unregistered once no frame uses it, read. Draws on R276, R290. -/
def Obligations.Dictionaries : Prop :=
  (∀ (s u : State) (now slot : Nat) (req : Requester), s.lands now req 0x080 0x108 (dictWord 1 slot) u → u.bit CHURN.BUSY = false →
    exec (.dictRegister now req slot) s = .next u.dictRegister) ∧
  (∀ (s u : State) (now slot : Nat) (req : Requester), s.lands now req 0x080 0x108 (dictWord 1 slot) u → u.bit CHURN.BUSY = true →
    exec (.dictRegister now req slot) s = .next (u.setFld CHURN.REFUSED 1)) ∧
  (∀ (s : State), Table.has s.churn.dicts (s.fld CHURN.SLOT) = true →
    ∃ t, s.dictRegister = t ∧ t.fld CHURN.RESULT = 1 ∧ t.bit CHURN.DONE = true ∧ t.bit CHURN.BUSY = false ∧ t.churn = s.churn) ∧
  (∀ (s : State), Table.has s.churn.dicts (s.fld CHURN.SLOT) = false → 8 ≤ s.fld CHURN.DICT_LEN → s.fld CHURN.DICT_LEN ≤ 1048576 →
    sameSpace (s.fld CHURN.DICT_ADDR) (s.fld CHURN.DICT_LEN) = true → spaceOf (s.fld CHURN.DICT_ADDR) = .vat →
    leAt (s.loadBytes (s.fld CHURN.DICT_ADDR) (s.fld CHURN.DICT_LEN)) 0 4 = 0xEC30A437 →
    leAt (s.loadBytes (s.fld CHURN.DICT_ADDR) (s.fld CHURN.DICT_LEN)) 4 4 ≠ 0 →
    s.churn.dicts.any (fun e => e.2.id == leAt (s.loadBytes (s.fld CHURN.DICT_ADDR) (s.fld CHURN.DICT_LEN)) 4 4) = false →
    s.dictBytes + s.fld CHURN.DICT_LEN ≤ 0x4000000 →
    pagesMib (s.dictBytes + s.fld CHURN.DICT_LEN) - pagesMib s.dictBytes ≤ s.skimFree →
    ∃ t, s.dictRegister = t ∧ t.fld CHURN.RESULT = 0 ∧ t.bit CHURN.DONE = true ∧ Table.find? t.churn.dicts (s.fld CHURN.SLOT) =
      some ⟨leAt (s.loadBytes (s.fld CHURN.DICT_ADDR) (s.fld CHURN.DICT_LEN)) 4 4, s.loadBytes (s.fld CHURN.DICT_ADDR) (s.fld CHURN.DICT_LEN)⟩) ∧
  (∀ (s u : State) (now slot : Nat) (req : Requester), s.lands now req 0x080 0x108 (dictWord 2 slot) u → u.bit CHURN.BUSY = false →
    Table.has u.churn.dicts (u.fld CHURN.SLOT) = true →
    ∃ t, exec (.dictUnregister now req slot) s = .next t ∧ t.bit CHURN.BUSY = true ∧ t.bit CHURN.DONE = false ∧
      t.churn.unreg = some (u.fld CHURN.SLOT) ∧ t.churn.dicts = s.churn.dicts) ∧
  (∀ (s : State) (now slot : Nat), s.churn.unreg = some slot → s.dictInUse slot = false →
    ∃ t, exec (.dictUnregisterDone now) s = .next t ∧ t.churn.unreg = none ∧ Table.find? t.churn.dicts slot = none ∧ t.bit CHURN.BUSY = false ∧
      t.bit CHURN.DONE = true ∧ t.fld CHURN.RESULT = 0) ∧
  (∀ (s : State) (now slot : Nat), s.churn.unreg = some slot → s.dictInUse slot = true → exec (.dictUnregisterDone now) s = .next (s.at now)) ∧
  (∀ (s u : State) (now slot : Nat) (req : Requester), s.lands now req 0x080 0x108 (dictWord 3 slot) u → u.bit CHURN.BUSY = false →
    ∃ t, exec (.dictRead now req slot) s = .next t ∧ t.fld CHURN.RESULT = (if Table.has u.churn.dicts (u.fld CHURN.SLOT) then 0 else 2) ∧
      t.bit CHURN.DONE = true ∧ t.churn = s.churn)

/-- The window commands of the host and of the control cores. Draws on R327. -/
def Obligations.StrainerWindows : Prop :=
  (∀ (s u : State) (now : Nat) (req : Requester), s.lands now req 0x0A0 0x108 (BitVec.ofNat 64 (1 + s.winUnits false % 4 * 256)) u →
    u.bit STRAINER.W_BUSY = false → exec (.strainerWrite now req false) s = .next (u.winEntry false 1)) ∧
  (∀ (s u : State) (now : Nat) (req : Requester), s.lands now req 0x0A0 0x108 (BitVec.ofNat 64 (2 + s.winUnits false % 4 * 256)) u →
    u.bit STRAINER.W_BUSY = false → exec (.strainerRead now req false) s = .next (u.winEntry false 2)) ∧
  (∀ (s u : State) (now : Nat) (req : Requester), s.lands now req 0x0A0 0x108 (BitVec.ofNat 64 (3 + s.winUnits false % 4 * 256)) u →
    u.bit STRAINER.W_BUSY = false → exec (.strainerInvalidate now req false) s = .next (u.winEntry false 3)) ∧
  (∀ (s u : State) (now units : Nat) (req : Requester), s.lands now req 0x0A0 0x108 (BitVec.ofNat 64 (4 + units % 4 * 256)) u →
    u.bit STRAINER.W_BUSY = false →
    exec (.strainerSearch now req false units) s = .next (u.winSearch false (u.fld STRAINER.W_CMD_UNITS))) ∧
  (∀ (s u : State) (now : Nat), s.lands now .cores 0x0A0 0x208 (BitVec.ofNat 64 (1 + s.winUnits true % 4 * 256)) u →
    u.bit (winField true STRAINER.W_BUSY) = false → exec (.strainerWrite now .cores true) s = .next (u.winEntry true 1)) ∧
  (∀ (s u : State) (now : Nat) (req : Requester), s.lands now req 0x0A0 0x208 (BitVec.ofNat 64 (1 + s.winUnits true % 4 * 256)) u → req ≠ .cores →
    exec (.strainerWrite now req true) s = .next (u.setWord 0 0x0A0 0x208 (s.word 0 0x0A0 0x208))) ∧
  (∀ (s : State) (op b i : Nat), b = s.fld STRAINER.W_SEL_BANK → i = s.fld STRAINER.W_SEL_INDEX → s.bankOos b = false → i < s.bankEntries b →
    (op = 2 ∨ s.bit (STRAINER.HOST_WP.at b) = false) →
    (op = 1 → s.winEntry false op = (s.strWrite b i 2 {
      valid := s.bit STRAINER.W_ENTRY_VALID, prio := s.fld STRAINER.W_ENTRY_PRIO,
      data := winUnitsOf (s.bankUnits b) (s.winWords false STRAINER.W_DATA),
      mask := winUnitsOf (s.bankUnits b) (s.winWords false STRAINER.W_MASK) }).winResult false 0) ∧
    (op = 3 → s.winEntry false op = (s.strWrite b i 2 { s.strEntry b i with valid := false }).winResult false 0) ∧
    (op = 2 → ∃ t, s.winEntry false op = t ∧ t.fld STRAINER.W_ENTRY_PRIO = (s.strEntry b i).prio % 2 ^ 16 ∧
      t.bit STRAINER.W_ENTRY_VALID = (s.strEntry b i).valid ∧ t.fld STRAINER.W_RESULT = 0 ∧ t.mem = s.mem)) ∧
  (∀ (s : State) (op : Nat), s.bankOos (s.fld STRAINER.W_SEL_BANK) = true → ∃ t, s.winEntry false op = t ∧ t.fld STRAINER.W_RESULT = 3 ∧
    t.strainer = s.strainer) ∧
  (∀ (s : State), s.bankOos (s.fld STRAINER.W_SEL_BANK) = false → s.fld STRAINER.W_SEL_INDEX < s.bankEntries (s.fld STRAINER.W_SEL_BANK) →
    s.bit (STRAINER.HOST_WP.at (s.fld STRAINER.W_SEL_BANK)) = true →
    ∃ t, s.winEntry false 1 = t ∧ t.fld STRAINER.W_RESULT = 4 ∧ t.strainer = s.strainer ∧ bitAt (t.word 0 0x0A0 0x020).toNat 19 = true)

/-- Entries of Strainer banks: what a write leaves, which match of a search prevails; banks: their width, their service, a scrub step, a pass of a LOAD.
Draws on R319, R323, R325, R326. -/
def Obligations.StrainerBanks : Prop :=
  (∀ (s : State) (b i path : Nat) (e : StrEntry), ((s.bankTouch b).bank b).writes.filter (fun w => w.1 == i && w.2 != path) = [] →
    (s.strWrite b i path e).strEntry b i = e ∧ (∀ j, j ≠ i → (s.strWrite b i path e).strEntry b j = s.strEntry b j) ∧
    ∀ c, c ≠ b → (s.strWrite b i path e).bank c = s.bank c) ∧
  (∀ (s : State) (banks : Nat) (key : List Nat) (m : Match), s.searchBanks banks key = some m →
    m.2.1 ∈ bitsSet banks 32 ∧ ∃ e, (m.2.2, e) ∈ (s.bank m.2.1).entries ∧ matchesKey e key = true ∧ e.prio = m.1) ∧
  (∀ (s : State) (banks : Nat) (key : List Nat), s.searchBanks banks key = none →
    ∀ b ∈ bitsSet banks 32, ∀ e ∈ (s.bank b).entries, matchesKey e.2 key = false) ∧
  (∀ (s : State) (banks : Nat) (key : List Nat) (m : Match), s.searchBanks banks key = some m →
    ∀ b ∈ bitsSet banks 32, ∀ e ∈ (s.bank b).entries, matchesKey e.2 key = true → better (e.2.prio, b, e.1) m = false) ∧
  (∀ (s u : State) (now b w : Nat) (req : Requester), b < 32 →
    s.lands now req 0x0A0 (0x300 + 8 * b) (putBits (s.word 0 0x0A0 (0x300 + 8 * b)) 1 0 w) u → w ≤ 2 → u.fld (STRAINER.WIDTH.at b) ≠ w →
    u.bankLoading b = false →
    ∃ t, exec (.bankCfgWidth now req b w) s = .next t ∧ t.fld (STRAINER.WIDTH.at b) = w ∧ (t.bank b).entries = [] ∧ t.fld (STRAINER.VALID_COUNT.at b) = 0 ∧
      ∀ c, c ≠ b → t.bank c = s.bank c) ∧
  (∀ (s u : State) (now b w : Nat) (req : Requester), b < 32 →
    s.lands now req 0x0A0 (0x300 + 8 * b) (putBits (s.word 0 0x0A0 (0x300 + 8 * b)) 1 0 w) u → w ≤ 2 → u.fld (STRAINER.WIDTH.at b) ≠ w →
    u.bankLoading b = true →
    ∃ t, exec (.bankCfgWidth now req b w) s = .next t ∧ t.fld (STRAINER.WIDTH.at b) = u.fld (STRAINER.WIDTH.at b) ∧ t.strainer = s.strainer ∧
      bitAt (t.word 0 0x0A0 0x020).toNat 21 = true) ∧
  (∀ (s u : State) (now b : Nat) (oos : Bool) (req : Requester), b < 32 →
    s.lands now req 0x0A0 (0x300 + 8 * b) (putBits (s.word 0 0x0A0 (0x300 + 8 * b)) 4 4 (ofBool oos)) u →
    bitsOf (s.word 0 0x0A0 (0x300 + 8 * b)) 1 0 = u.fld (STRAINER.WIDTH.at b) →
    exec (.bankCfgOos now req b oos) s = .next (u.setFld (STRAINER.OOS.at b) (ofBool oos))) ∧
  (∀ (s : State) (now b : Nat) (flawed dead : Bool), b < 32 → s.power.released = true → s.bankOos b = false →
    ∃ (w x : State), exec (.scrubStep now b flawed dead) s = .next w ∧
      ((x.bank b).scrubAt = ((s.bank b).scrubAt % s.bankEntries b + 1) % s.bankEntries b) ∧ (x.bank b).entries = (s.bank b).entries ∧
      x.regs = s.regs ∧ x.mem = s.mem ∧ (∀ c, c ≠ b → x.bank c = s.bank c) ∧
      (dead = false → flawed = false → w = x) ∧ (dead = false → flawed = true → w = (x.count STRAINER.SCRUB_CORRECTED 1).raiseOwn 0x0A0 17) ∧
      (dead = true → w = ((((x.setFld (STRAINER.FAILED.at b) 1).setFld STRAINER.UE_INDEX ((s.bank b).scrubAt % s.bankEntries b)).setFld STRAINER.UE_BANK
        b).raiseOwn 0x0A0 18).faultRecord ⟨2, 0x12, 0, 0, 0x0A0, s.node.id, 0, 0, 0, 0, 0⟩)) ∧
  (∀ (s : State) (now b : Nat) (flawed dead : Bool), b < 32 → s.bankOos b = true → exec (.scrubStep now b flawed dead) s = .next (s.at now)) ∧
  (∀ (s w : State) (now j st n done : Nat) (l : StrLoad) (job : Job), s.loadTurn j st = some l → s.job? j = some job →
    (bitsSet l.banks 32).any s.bankOos = false →
    (s.at now).loadWrites (Table.findD (job.engOf st).texts 0 []) (job.engOf st).consumed n = (w, done) →
    done < (Table.findD (job.engOf st).texts 0 []).length / 80 →
    exec (.loadWritePass now j st n) s = .next (w.setEng j st { job.engOf st with consumed := done })) ∧
  (∀ (s : State) (now j st n : Nat), s.loadTurn j st = none → exec (.loadWritePass now j st n) s = .next (s.at now))

/-- A join's partitions, its probes ahead, and what arrives of a shuffled join. Draws on R337, R339, R341, R421. -/
def Obligations.JoinCommands : Prop :=
  (∀ (s : State) (now j st : Nat) (c : Ctx), (s.at now).stageCtx j st = some c → (s.join j st).reloads = [] →
    exec (.partitionReload now j st) s = .next (s.at now)) ∧
  (∀ (s : State) (now j st p : Nat) (rest : List Nat) (c : Ctx), (s.at now).stageCtx j st = some c → (s.join j st).reloads = p :: rest →
    ∃ (u : State) (held : List (Nat × List Val)), (u.join j st).reloads = rest ∧ (Table.findD (u.join j st).parts p {}).spilled = false ∧
      (u.join j st).gen = (s.join j st).gen + 1 ∧ (∀ r ∈ held, r ∈ (s.join j st).held) ∧ u.mem = s.mem ∧
      exec (.partitionReload now j st) s = .next (match u.probeRows c held with
        | .done w _ => if rest.isEmpty then w.stageEnd j st else w
        | .failed w status d => (w.failJob j status st d c.page).dropQueued j
        | .need .. => s.at now)) ∧
  (∀ (s : State) (now j st rows : Nat) (job : Job), s.job? j = some job → (job.plan.stage st).cls = 6 → bitAt (job.plan.stage st).flags 1 = true →
    (job.engOf st).phase = 1 → (s.join j st).ahead = none → 0 < min rows (min (s.fld PRESS.SPEC_ROWS)
      ((inputLen job ((job.plan.stage st).in_ 0)).1 - (job.engOf st).consumed)) →
    sumTable s.tiers.runaheadUsed < 16 * s.fld VAT.RUNAHEAD_MAX → s.work.slices = [] →
    ∃ t, exec (.runaheadProbe now j st rows) s = .next t ∧ (t.join j st).ahead = some ⟨(job.engOf st).consumed,
        min rows (min (s.fld PRESS.SPEC_ROWS) ((inputLen job ((job.plan.stage st).in_ 0)).1 - (job.engOf st).consumed)), (s.join j st).gen, 1⟩ ∧
      Table.findD t.tiers.runaheadUsed j 0 = Table.findD s.tiers.runaheadUsed j 0 + 1) ∧
  (∀ (s : State) (now j st rows : Nat) (job : Job), s.job? j = some job → (job.engOf st).phase ≠ 1 →
    exec (.runaheadProbe now j st rows) s = .next (s.at now)) ∧
  (∀ (s u : State) (now j : Nat) (p : Packet) (job : Job) (bytes : Bytes), s.power.released = true → s.arrival p.dst p.src p.reqSeq = .fresh →
    (s.at now).joinRun p = (u, some bytes) → u.jobByHerd p.job = some j → u.job? j = some job → job.status = 0 →
    ¬(p.subtype = 0x20 ∧ p.arg0 % 2 = 0 ∧
      (u.rowsArrive j p.stage p.src (p.arg0 % 2) (p.arg0 / 2 ^ 32) p.arg1 bytes).bit TWIN.MIRROR_PRESS = true) →
    exec (.rows now p) s = .next (((u.rowsArrive j p.stage p.src (p.arg0 % 2) (p.arg0 / 2 ^ 32) p.arg1 bytes).reply p 0 0 0 []).markSeq
      p.dst p.src p.reqSeq 0)) ∧
  (∀ (s u : State) (now j : Nat) (p : Packet) (job : Job) (bytes : Bytes), s.power.released = true → s.arrival p.dst p.src p.reqSeq = .fresh →
    (s.at now).joinRun p = (u, some bytes) → u.jobByHerd p.job = some j → u.job? j = some job → job.status = 0 → p.subtype ≠ 0x20 →
    exec (.endBuild now p) s = .next (((u.markArrive j p.stage p.src 0 p.arg0).reply p 0 0 0 []).markSeq p.dst p.src p.reqSeq 0)) ∧
  (∀ (s u : State) (now j : Nat) (p : Packet) (job : Job) (bytes : Bytes), s.power.released = true → s.arrival p.dst p.src p.reqSeq = .fresh →
    (s.at now).joinRun p = (u, some bytes) → u.jobByHerd p.job = some j → u.job? j = some job → job.status = 0 → p.subtype ≠ 0x20 →
    exec (.endProbe now p) s = .next (((u.markArrive j p.stage p.src 1 p.arg0).reply p 0 0 0 []).markSeq p.dst p.src p.reqSeq 0)) ∧
  (∀ (s : State) (now : Nat) (p : Packet), s.power.released = true → s.arrival p.dst p.src p.reqSeq = .below →
    exec (.rows now p) s = .next (s.at now) ∧ exec (.endBuild now p) s = .next (s.at now) ∧ exec (.endProbe now p) s = .next (s.at now))

/-- Window stores: opened, closed, read, cleared; the results that refuse. Draws on R362. -/
def Obligations.WindowStores : Prop :=
  (∀ (s u : State) (now id tier quota : Nat) (req : Requester),
    s.lands now req 0x0AC 0x100 (BitVec.ofNat 64 (id % 256 + 256 + tier % 4 * 2 ^ 16 + quota % 2 ^ 17 * 2 ^ 32)) u → u.tiersReady = true →
    Table.find? u.stores (id % 256) = none → (tier % 4 = 1 ∨ tier % 4 = 2) → 1 ≤ quota % 2 ^ 17 → quota % 2 ^ 17 ≤ 65536 →
    quota % 2 ^ 17 ≤ u.tierFree (tier % 4) →
    ∃ t, exec (.storeOpen now req id tier quota) s = .next t ∧ Table.find? t.stores (id % 256) = some { tier := tier % 4, quota := quota % 2 ^ 17 } ∧
      t.fld RIPENER.RESULT = 0 ∧ t.bit RIPENER.DONE = true ∧ t.work = s.work) ∧
  (∀ (s u : State) (now id tier quota : Nat) (x : WinStore) (req : Requester),
    s.lands now req 0x0AC 0x100 (BitVec.ofNat 64 (id % 256 + 256 + tier % 4 * 2 ^ 16 + quota % 2 ^ 17 * 2 ^ 32)) u → u.tiersReady = true →
    Table.find? u.stores (id % 256) = some x →
    ∃ t, exec (.storeOpen now req id tier quota) s = .next t ∧ t.stores = s.stores ∧ t.fld RIPENER.RESULT = 1) ∧
  (∀ (s u : State) (now id tier quota : Nat) (req : Requester),
    s.lands now req 0x0AC 0x100 (BitVec.ofNat 64 (id % 256 + 256 + tier % 4 * 2 ^ 16 + quota % 2 ^ 17 * 2 ^ 32)) u → u.tiersReady = false →
    exec (.storeOpen now req id tier quota) s = .next (u.raiseBy req 0x0AC 18 0x100)) ∧
  (∀ (s u : State) (now id : Nat) (x : WinStore) (req : Requester), s.lands now req 0x0AC 0x100 (s.storeWord 2 id) u → u.tiersReady = true →
    Table.find? u.stores (id % 256) = some x → u.storeHeld (id % 256) = false →
    ∃ t, exec (.storeClose now req id) s = .next t ∧ Table.find? t.stores (id % 256) = none ∧ t.fld RIPENER.RESULT = 0) ∧
  (∀ (s u : State) (now id : Nat) (x : WinStore) (req : Requester), s.lands now req 0x0AC 0x100 (s.storeWord 2 id) u → u.tiersReady = true →
    Table.find? u.stores (id % 256) = some x → u.storeHeld (id % 256) = true →
    ∃ t, exec (.storeClose now req id) s = .next t ∧ t.stores = s.stores ∧ t.fld RIPENER.RESULT = 1) ∧
  (∀ (s u : State) (now id : Nat) (req : Requester), s.lands now req 0x0AC 0x100 (s.storeWord 3 id) u → u.tiersReady = true →
    ∃ t, exec (.storeRead now req id) s = .next t ∧ t.bit RIPENER.S_OPEN = (Table.find? u.stores (id % 256)).isSome ∧ t.fld RIPENER.RESULT = 0 ∧
      t.stores = s.stores ∧ t.mem = s.mem) ∧
  (∀ (s u : State) (now id : Nat) (x : WinStore) (req : Requester), s.lands now req 0x0AC 0x100 (s.storeWord 4 id) u → u.tiersReady = true →
    Table.find? u.stores (id % 256) = some x → u.storeHeld (id % 256) = false →
    ∃ t, exec (.storeClear now req id) s = .next t ∧ Table.find? t.stores (id % 256) = some { tier := x.tier, quota := x.quota } ∧ t.fld RIPENER.RESULT = 0) ∧
  (∀ (s u : State) (now id : Nat) (req : Requester), s.lands now req 0x0AC 0x100 (s.storeWord 4 id) u → u.tiersReady = true →
    Table.find? u.stores (id % 256) = none → ∃ t, exec (.storeClear now req id) s = .next t ∧ t.stores = s.stores ∧ t.fld RIPENER.RESULT = 2)

/-- Table commands of the registers, and the end of a command of the lead. Draws on R383, R402. -/
def Obligations.TableCommands : Prop :=
  (∀ (s u : State) (now t : Nat) (host : Option Bytes) (room : Bool) (req : Requester), s.lands now req 0x0C0 0x100 (tblWord 1 t) u →
    u.bit LADLE.BUSY = false → u.tiersReady = true → u.isLead = true →
    exec (.tblCreate now req t host room) s = .next (u.tblMake (t % 4096) host room)) ∧
  (∀ (s : State) (t : Nat) (host : Option Bytes), s.ltable t = none → tableOk (s.fld LADLE.DTYPE) (s.fld LADLE.HOME) (s.fld LADLE.DIM) (s.fld LADLE.ROWS) = true →
    s.fld LADLE.DEFAULT_ADDR = 0 →
    s.tblMake t host true = s.tblStart 1 t (tablePayload {
      dtype := s.fld LADLE.DTYPE, dim := s.fld LADLE.DIM, home := s.fld LADLE.HOME, rows := s.fld LADLE.ROWS, seed := s.fld LADLE.SEED,
      quota := s.fld LADLE.CREAM_QUOTA, dflt := zeros (rowSize (s.fld LADLE.DTYPE) (s.fld LADLE.DIM)), members := s.memberList })) ∧
  (∀ (s : State) (t : Nat) (host : Option Bytes), s.ltable t = none → tableOk (s.fld LADLE.DTYPE) (s.fld LADLE.HOME) (s.fld LADLE.DIM) (s.fld LADLE.ROWS) = false →
    ∃ w, s.tblMake t host true = w ∧ w.fld LADLE.RESULT = 3 ∧ w.bit LADLE.DONE = true ∧ w.ladle = s.ladle) ∧
  (∀ (s u : State) (now t : Nat) (req : Requester), s.lands now req 0x0C0 0x100 (tblWord 2 t) u → u.bit LADLE.BUSY = false → u.tiersReady = true →
    u.isLead = true → u.tblInUse (t % 4096) = false → (u.ltable (t % 4096)).isSome = true →
    exec (.tblDestroy now req t) s = .next (u.tblStart 2 (t % 4096) [])) ∧
  (∀ (s u : State) (now t : Nat) (req : Requester), s.lands now req 0x0C0 0x100 (tblWord 2 t) u → u.bit LADLE.BUSY = false → u.tiersReady = true →
    u.isLead = false → ∃ w, exec (.tblDestroy now req t) s = .next w ∧ w.fld LADLE.RESULT = 4 ∧ w.ladle = s.ladle) ∧
  (∀ (s u : State) (now t : Nat) (req : Requester), s.lands now req 0x0C0 0x100 (tblWord 3 t) u → u.bit LADLE.BUSY = false → u.tiersReady = true →
    ∃ w, exec (.tblRead now req t) s = .next w ∧ w.bit LADLE.T_EXISTS = (u.ltable (t % 4096)).isSome ∧
      w.fld LADLE.RESULT = (if (u.ltable (t % 4096)).isSome then 0 else 2) ∧ w.ladle = s.ladle) ∧
  (∀ (s u : State) (now t : Nat) (x : LTable) (req : Requester), s.lands now req 0x0C0 0x100 (tblWord 4 t) u → u.bit LADLE.BUSY = false →
    u.tiersReady = true → u.ltable (t % 4096) = some x → x.home = 2 → u.fld LADLE.BIND_ADDR + x.rows * x.stride ≤ 0x400000000000 →
    ∃ w, exec (.tblBind now req t) s = .next w ∧ w.ltable (t % 4096) = some { x with bind := some (u.fld LADLE.BIND_ADDR) } ∧ w.fld LADLE.RESULT = 0) ∧
  (∀ (s u : State) (now t : Nat) (req : Requester), s.lands now req 0x0C0 0x100 (tblWord 5 t) u → u.bit LADLE.BUSY = false → u.tiersReady = true →
    u.isLead = true → (u.ltable (t % 4096)).isSome = true → exec (.tblInvalidate now req t) s = .next (u.tblStart 5 (t % 4096) [])) ∧
  (∀ (s u : State) (now t : Nat) (x : LTable) (req : Requester), s.lands now req 0x0C0 0x100 (tblWord 6 t) u → u.bit LADLE.BUSY = false →
    u.tiersReady = true → u.ltable (t % 4096) = some x → exec (.tblShard now req t) s =
      .next ((u.setFld LADLE.OWNER (x.owner (u.fld LADLE.SHARD))).tblResult 0)) ∧
  (∀ (s u : State) (now t : Nat) (req : Requester), s.lands now req 0x0C0 0x100 (tblWord 3 t) u → u.bit LADLE.BUSY = true →
    exec (.tblRead now req t) s = .next (u.raiseBy req 0x0C0 17 0x100)) ∧
  (∀ (s : State) (now : Nat) (c : TblCmd), s.ladle.cmd = some c → c.missing = [] → c.result < 16 →
    ∃ w, exec (.tblCmdDone now) s = .next w ∧ w.ladle.cmd = none ∧ w.bit LADLE.BUSY = false ∧ w.bit LADLE.DONE = true ∧
      w.fld LADLE.RESULT = c.result ∧ w.ladle.tables = s.ladle.tables) ∧
  (∀ (s : State) (now : Nat) (c : TblCmd), s.ladle.cmd = some c → c.missing ≠ [] → exec (.tblCmdDone now) s = .next (s.at now))

/-- Messages of gathers and of steps, from their whole arrival on. Draws on R386, R389, R390, R391, R392, R420. -/
def Obligations.StepMessages : Prop :=
  (∀ (s u : State) (now : Nat) (p : Packet) (bytes : Bytes), s.arrives now p u bytes →
    (∀ far, exec (.gather now p far) s = .next ((u.gatherServe p far).1.markSeq p.dst p.src p.reqSeq ((u.gatherServe p far).2.getD unanswered))) ∧
    exec (.update now p) s = .next ((u.updateServe p bytes).1.markSeq p.dst p.src p.reqSeq ((u.updateServe p bytes).2.getD unanswered)) ∧
    exec (.sent now p) s = .next (((u.sentHere p.job p.stage p.src (ownersOf bytes)).reply p 0 0 0 []).markSeq p.dst p.src p.reqSeq 0) ∧
    (∀ far, exec (.stepClose now p far) s = .next ((u.closeStep p far).markSeq p.dst p.src p.reqSeq unanswered)) ∧
    exec (.stepDone now p) s = .next (((u.stepDoneHere p.job p.stage (p.arg1 % 256)).reply p 0 0 0 []).markSeq p.dst p.src p.reqSeq 0)) ∧
  (∀ (s : State) (now : Nat) (p : Packet), s.power.released = true → p.subtype = 0x13 → exec (.applied now p) s = .next ((s.at now).response p)) ∧
  (∀ (s : State) (p : Packet) (far : List Bytes), s.ltable p.obj = none → s.gatherServe p far = (s.reply p 0xB0 0 0 [], some 0xB0)) ∧
  (∀ (s : State) (p : Packet) (far : List Bytes) (x : LTable), s.ltable p.obj = some x → x.home = 1 → p.arg0 % 65536 = 1 →
    s.ownerWay x (x.shardOf (leAt p.payload 0 8)) = .here → p.arg1 % 2 ^ 32 ≠ 0 →
    s.gatherServe p far = ((s.readCounts p.obj x []).reply p 0 0 x.gen
      (fitTo (sub (x.stored (leAt p.payload 0 8)) (p.arg1 % 2 ^ 32) (p.arg1 / 2 ^ 32)) (p.arg1 / 2 ^ 32)), some 0)) ∧
  (∀ (s : State) (now : Nat) (p : Packet), s.arrival p.dst p.src p.reqSeq = .below → exec (.update now p) s = .next (s.at now))

/-- Messages of loads and migrations, and rows gathered ahead. Draws on R394, R396, R399, R402, R420. -/
def Obligations.MigrationMessages : Prop :=
  (∀ (s u : State) (now : Nat) (p : Packet) (bytes : Bytes), s.arrives now p u bytes →
    exec (.loadReport now p) s = .next (((u.loadHere p.arg0 (reportOf p.src p.arg1 bytes)).reply p 0 0 0 []).markSeq p.dst p.src p.reqSeq 0) ∧
    exec (.shardCopy now p) s = .next (((u.copyHere p.arg1 p.obj (bitAt p.arg0 32) bytes).reply p 0 0 0 []).markSeq p.dst p.src p.reqSeq 0) ∧
    exec (.commit now p) s = .next (((u.commitHere p.arg1 ⟨p.obj, p.arg0 % 65536, p.arg0 / 2 ^ 16 % 65536, p.arg0 / 2 ^ 32 % 65536, p.arg1⟩).reply
      p 0 0 0 []).markSeq p.dst p.src p.reqSeq 0) ∧
    exec (.cancel now p) s = .next (((u.cancelHere p.arg1).reply p 0 0 0 []).markSeq p.dst p.src p.reqSeq 0) ∧
    (∀ far, u.ltable p.obj = none → exec (.prep now p far) s = .next ((u.reply p 0xB0 0 0 []).markSeq p.dst p.src p.reqSeq 0xB0)) ∧
    (∀ far, (u.ltable p.obj).isSome = true → p.arg0 / 2 ^ 16 % 65536 ≠ u.node.id → exec (.prep now p far) s =
      .next ((u.prepHere { id := p.arg1, tbl := p.obj, shard := p.arg0 % 65536, old := p.arg0 / 2 ^ 16 % 65536, new := p.arg0 / 2 ^ 32 % 65536 }
        (some p) far).markSeq p.dst p.src p.reqSeq unanswered)) ∧
    (∀ (x : LTable) (w : State), u.ltable p.obj = some x →
      u.setLog (u.ladle.log ++ handoffOf p.job p.stage p.obj x.dim bytes (bytes.length / 32)) = some w →
      exec (.logHandoff now p) s = .next ((w.ackHeld p 0).1.markSeq p.dst p.src p.reqSeq ((w.ackHeld p 0).2.getD unanswered))) ∧
    (p.arg0 % 256 = 1 → exec (.tableCmd now p) s =
      .next (((u.tableCmd 1 p.obj bytes).reply p 0 0 0 []).markSeq p.dst p.src p.reqSeq 0)) ∧
    (p.arg0 % 256 ≠ 1 → exec (.tableCmd now p) s = .next (((u.tableCmd (p.arg0 % 256) p.obj bytes).ackHeld p 0).1.markSeq p.dst p.src p.reqSeq
      ((((u.tableCmd (p.arg0 % 256) p.obj bytes).ackHeld p 0).2).getD unanswered)))) ∧
  (∀ (s : State) (id : Nat), (s.cancelHere id).ladle.moves = s.ladle.moves.filter (fun m => m.id != id) ∧ (s.cancelHere id).mem = s.mem) ∧
  (∀ (s : State) (eff : Nat) (c : OwnerChange), s.tide.now < eff → (s.commitHere eff c).ladle.changes = s.ladle.changes ++ [c] ∧
    (s.commitHere eff c).ladle.tables = s.ladle.tables) ∧
  (∀ (s : State) (now j st rows : Nat) (job : Job), s.job? j = some job → job.status ≠ 0 → exec (.prefetch now j st rows) s = .next (s.at now)) ∧
  (∀ (s : State) (now j st rows n : Nat) (job : Job) (x : LTable), s.job? j = some job → s.ltable (job.bind ((job.plan.stage st).in_ 1).slot).aux = some x →
    n = min rows (min (s.fld LADLE.PREFETCH_ROWS) ((inputLen job ((job.plan.stage st).in_ 0)).1 - (job.engOf st).consumed)) →
    (job.plan.stage st).cls = 0x0A → (job.plan.stage st).op = 1 → bitAt (job.plan.stage st).flags 1 = true → (job.engOf st).phase = 0 →
    job.ended.contains st = false → job.status = 0 → 0 < n → sumTable s.tiers.runaheadUsed < 16 * s.fld VAT.RUNAHEAD_MAX →
    ((pagesOf 0x0A).any fun p => s.accepts p && (s.pageSlices p).all fun y => y.2.state != .running) = true →
    (x.home ≠ 2 ∨ s.fld HOSTIF.RUNAHEAD_HOST = 1) → (s.ladle.prefetched.any fun p => p.job == j && p.stage == st) = false →
    ∃ w, exec (.prefetch now j st rows) s = .next w ∧ Table.findD w.tiers.runaheadUsed j 0 = Table.findD s.tiers.runaheadUsed j 0 + 1 ∧
      (⟨j, st, (job.engOf st).consumed, n, x.gen, 1⟩ : Prefetch) ∈ w.ladle.prefetched ∧ w.mem = s.mem)

/-- A link trains: its start, the end of equalisation, CONFIG and AUTH. Draws on R404, R405, R406, R407, R413, R423. -/
def Obligations.LinkTraining : Prop :=
  (∀ (s : State) (now k : Nat), k < 6 → (s.link k).state = 0 → (s.link k).leaving = false → s.pageOos (zpage k) = false → bitAt s.pins.cables k = true →
    s.good 5 = true → s.power.released = true → ((s.link k).mayTrain = true ∨ (s.link k).downAt + 1000000000 ≤ max s.chrono now) →
    ∃ t, exec (.linkTrain now k) s = .next t ∧ t = (s.at now).setLink k { s.link k with
      state := 1, mayTrain := false, equalised := false, configured := false, secure := false, authChain := [], authKey := [], authSig := [],
      authTotal := 0, gcmTx := 0, gcmRx := 0 }) ∧
  (∀ (s : State) (now k : Nat), k < 6 → (s.link k).state ≠ 0 → exec (.linkTrain now k) s = .next (s.at now)) ∧
  (∀ (s : State) (now k pol : Nat) (stored : Bool) (results : Bytes), k < 6 → (s.link k).state = 1 → (s.link k).equalised = false →
    ∃ u : State, u = ((s.at now).setLink k { s.link k with
        lanesOk := 255, polInv := pol % 256, eqStored := stored && !(s.link k).fullTrain, fullTrain := false, equalised := true }).calLearn results
          (!(stored && !(s.link k).fullTrain)) ∧
      exec (.trainingDone now k 255 pol stored results) s = .next (u.linkCtrl k 2 (u.configBody k))) ∧
  (∀ (s : State) (now k lanes pol : Nat) (stored : Bool) (results : Bytes), k < 6 → (s.link k).state = 1 → (s.link k).equalised = false →
    lanes % 256 ≠ 255 → exec (.trainingDone now k lanes pol stored results) s = .next (((s.at now).setLink k { s.link k with
      lanesOk := lanes % 256, polInv := pol % 256, eqStored := stored && !(s.link k).fullTrain, fullTrain := false }).linkDown k)) ∧
  (∀ (s u : State) (now k : Nat) (b : Bytes), k < 6 → u = (s.at now).ctrlIn k → (u.link k).state = 1 → (u.link k).equalised = true →
    (u.link k).configured = false → ∃ l : Link, l.partnerNode = leAt b 0 2 ∧ l.partnerFace = byteAt b 3 % 8 ∧ l.partnerSerial = sub b 4 16 ∧
      l.partnerLevel = leAt b 20 4 ∧ l.partnerNodeValid = bitAt (byteAt b 2) 0 ∧ l.state = 1 ∧
      (byteAt b 3 ≠ (if k % 2 = 0 then k + 1 else k - 1) →
        exec (.config now k b) s = .next (((u.setLink k l).raiseOwn (zpage k) 19).linkDown k)) ∧
      (byteAt b 3 = (if k % 2 = 0 then k + 1 else k - 1) → u.bit (ZLINK.AUTH_REQ.on (zpage k)) = false → bitAt (byteAt b 2) 1 = false →
        exec (.config now k b) s = .next (((u.setLink k l).setLink k { l with configured := true }).linkSpare k))) ∧
  (∀ (s u : State) (now k : Nat) (b : Bytes), k < 6 → u = (s.at now).ctrlIn k → (u.link k).state = 1 → (u.link k).configured = true → byteAt b 0 = 3 →
    exec (.auth now k b) s = .next (u.authFail k)) ∧
  (∀ (s u : State) (now k : Nat) (b : Bytes), k < 6 → u = (s.at now).ctrlIn k → (u.link k).state = 1 → (u.link k).configured = true → byteAt b 0 = 0 →
    leAt b 5 2 = 0 → exec (.auth now k b) s = .next (u.setLink k { u.link k with
      authChain := (u.link k).authChain ++ sub b 7 (min 228 (leAt b 3 2)), authTotal := 0 })) ∧
  (∀ (s u : State) (now k : Nat) (req : Requester), k < 6 →
    s.lands now req (zpage k) 0x100 (putBits (s.word 0 (zpage k) 0x100) 1 1 1) u →
    exec (.fullTrain now req k) s = .next (u.setLink k { u.link k with fullTrain := true }))

/-- A trained link: flits in and out of order, NAK and time, retraining, and what takes the link DOWN. Draws on R408, R409, R410, R411, R413. -/
def Obligations.LinkTraffic : Prop :=
  (∀ (s : State) (now k : Nat) (f : Flit), k < 6 → (s.link k).state = 3 → f.crcOk = false →
    exec (.flitReceive now k f) s = .next ((((s.at now).count (ZLINK.CRC_ERRORS.on (zpage k)) 1).raiseOwn (zpage k) 16).sendNak k)) ∧
  (∀ (s : State) (now k : Nat) (f : Flit), k < 6 → (s.link k).state = 3 → f.crcOk = true → (s.link k).secure = true → f.kind = 1 → f.tagOk = false →
    exec (.flitReceive now k f) s = .next (((s.at now).count (ZLINK.TAG_FAILS.on (zpage k)) 1).sendNak k)) ∧
  (∀ (s u : State) (now k : Nat) (f : Flit), k < 6 → (s.link k).state = 3 → f.crcOk = true → f.kind = 1 → f.tagOk = true → f.creditN = 0 →
    u = ((s.at now).setLink k (s.link k)).takeAck k f.ack →
    (f.seq = (s.link k).rxSeq → exec (.flitReceive now k f) s = .next ((u.flitIn k f).linkPump k ((u.flitIn k f).link k).queue.length)) ∧
    (f.seq ≠ (s.link k).rxSeq → exec (.flitReceive now k f) s = .next ((u.sendNak k).linkPump k ((u.sendNak k).link k).queue.length))) ∧
  (∀ (s : State) (now k : Nat) (f : Flit), k < 6 → (s.link k).state ≠ 2 → (s.link k).state ≠ 3 → exec (.flitReceive now k f) s = .next (s.at now)) ∧
  (∀ (s u : State) (now k seq : Nat), k < 6 → u = (s.at now).ctrlIn k → (u.link k).state = 3 →
    exec (.nak now k seq) s = .next (u.replay k fun f => f.seq == seq)) ∧
  (∀ (s : State) (now k : Nat), k < 6 → (s.link k).state = 3 → (s.link k).replay ≠ [] → (s.link k).ackAt + 10000 ≤ max s.chrono now →
    exec (.ackTimeout now k) s = .next ((s.at now).replay k fun _ => true)) ∧
  (∀ (s : State) (now k : Nat), k < 6 → max s.chrono now < (s.link k).ackAt + 10000 → exec (.ackTimeout now k) s = .next (s.at now)) ∧
  (∀ (s : State) (k : Nat) (f : LinkFlit), (s.link k).replay = [f] → f.tries < 8 → f.ctrl = false →
    ∃ t, (s.replay k fun _ => true) = t ∧ t.out = s.out ++ [.flit k f.seq (s.link k).ack 0 0] ∧
      (t.link k).replay = [{ f with tries := f.tries + 1 }] ∧ (t.link k).ackAt = s.chrono) ∧
  (∀ (s : State) (k : Nat) (f : LinkFlit), (s.link k).replay = [f] → 8 ≤ f.tries → (s.replay k fun _ => true) = s.retrain k true) ∧
  (∀ (s u : State) (now k : Nat), k < 6 → u = (s.at now).ctrlIn k → (u.link k).state = 2 →
    ∃ t, exec (.retrainReq now k) s = .next t ∧ (t.link k).state = 5 ∧ (t.link k).before = 2 ∧ (t.link k).retrainAt = max s.chrono now) ∧
  (∀ (s : State) (now k : Nat), k < 6 → (s.link k).state = 2 →
    ∃ t, exec (.laneLockLost now k) s = .next t ∧ (t.link k).state = 5 ∧ (t.link k).before = 2 ∧ (t.link k).retrainAt = max s.chrono now ∧
      t.out.take (s.out.length + 1) = s.out ++ [.linkCtrl k 4 []]) ∧
  (∀ (s : State) (now k : Nat), k < 6 → (s.link k).state = 5 → max s.chrono now < (s.link k).retrainAt + 2000000 → (s.link k).replay = [] →
    (s.link k).queue = [] → (s.link k).leaving = false →
    ∃ t, exec (.retrainDone now k) s = .next t ∧ (t.link k).state = (s.link k).before ∧ (t.link k).gcmTx = 0 ∧ (t.link k).gcmRx = 0) ∧
  (∀ (s : State) (now k : Nat), k < 6 → (s.link k).state = 5 → (s.link k).retrainAt + 2000000 ≤ max s.chrono now →
    exec (.retrainTimeout now k) s = .next ((s.at now).linkDown k)) ∧
  (∀ (s : State) (k : Nat), (s.link k).state ≠ 0 → (s.link k).state ≠ 4 → (s.link k).state ≠ 3 → (s.link k).trained = false → (s.link k).leaving = false →
    ((s.linkDown k).link k).state = 0 ∧ ((s.linkDown k).link k).downAt = s.chrono ∧ ((s.linkDown k).link k).replay = [] ∧
      ((s.linkDown k).link k).queue = [] ∧ (s.linkDown k).mem = s.mem)

/-- READ, WRITE and BULK_WRITE at their target; responses, timeouts, and routes at a member and at the lead. Jobs of several nodes: their images, parts
and ends. Draws on R243, R415, R419, R428, R429, R430, R432, R433, R436. -/
def Obligations.FabricRequests : Prop :=
  (∀ (s : State) (now : Nat) (p : Packet) (far : Bytes) (sup : Supply), s.power.released = true → s.arrival p.dst p.src p.reqSeq = .fresh →
    (s.at now).farHeld p = false →
    exec (.read now p far) s = .next (((s.at now).farServe {} far p).1.markSeq p.dst p.src p.reqSeq (((s.at now).farServe {} far p).2.getD unanswered)) ∧
    exec (.write now p sup) s = .next (((s.at now).farServe sup [] p).1.markSeq p.dst p.src p.reqSeq (((s.at now).farServe sup [] p).2.getD unanswered)) ∧
    exec (.bulkWrite now p sup) s = .next (((s.at now).farServe sup [] p).1.markSeq p.dst p.src p.reqSeq
      (((s.at now).farServe sup [] p).2.getD unanswered))) ∧
  (∀ (s : State) (now : Nat) (p : Packet) (sup : Supply), s.power.released = true → s.arrival p.dst p.src p.reqSeq = .below →
    exec (.write now p sup) s = .next (s.at now) ∧ exec (.bulkWrite now p sup) s = .next (s.at now)) ∧
  (∀ (s : State) (now st : Nat) (p : Packet) (sup : Supply), s.power.released = true → s.arrival p.dst p.src p.reqSeq = .duplicate st →
    (p.typ = 2 ∨ p.typ = 4) → st < 256 → exec (.write now p sup) s = .next (((s.at now).count ROUTE.DUP_REQUESTS 1).answer p 0x82 st [])) ∧
  (∀ (s : State) (now st : Nat) (p : Packet) (far : Bytes), s.power.released = true → s.arrival p.dst p.src p.reqSeq = .duplicate st → p.typ = 1 →
    (s.at now).farHeld p = false → exec (.read now p far) s = .next ((s.at now).farServe {} far p).1) ∧
  (∀ (s : State) (sup : Supply) (far : Bytes) (p : Packet), p.dst = s.node.id → (p.typ = 2 ∨ p.typ = 4) → p.body ≠ [] →
    engineMapped p.addr p.body.length = true → spaceOf p.addr ≠ .host → s.tierDown p.addr = false →
    s.farServe sup far p = ((s.storeBytes p.addr p.body).answer p 0x82 0 [], some 0)) ∧
  (∀ (s : State) (sup : Supply) (far : Bytes) (p : Packet), p.dst ≠ s.node.id → s.farServe sup far p = (s.answer p (rspType p.typ) 0xC2 [], some 0xC2)) ∧
  (∀ (s : State) (now : Nat) (p : Packet), s.power.released = true → Table.find? s.fabric.reqs p.tag = none →
    exec (.responseReceive now p) s = .next ((s.at now).count ROUTE.LATE_DISCARDS 1)) ∧
  (∀ (s : State) (now : Nat) (p : Packet) (r : Req), s.power.released = true → Table.find? s.fabric.reqs p.tag = some r →
    (r.pkt.dst ≠ p.src ∨ r.pkt.gen ≠ p.gen ∨ rspType r.pkt.typ ≠ p.typ → exec (.responseReceive now p) s = .next ((s.at now).count ROUTE.LATE_DISCARDS 1)) ∧
    (r.pkt.dst = p.src → r.pkt.gen = p.gen → rspType r.pkt.typ = p.typ → r.resent = false →
      exec (.responseReceive now p) s = .next ((((s.at now).reqGone p.tag).reqEnd r p.status (some p)).reqPump))) ∧
  (∀ (s : State) (now tag : Nat) (r : Req), s.power.released = true → Table.find? s.fabric.reqs tag = some r →
    (max s.chrono now < r.sentAt + s.e2eNs → exec (.e2eTimeout now tag) s = .next (s.at now)) ∧
    (r.sentAt + s.e2eNs ≤ max s.chrono now → r.resent = true →
      exec (.e2eTimeout now tag) s = .next (((((s.at now).count ROUTE.TIMEOUTS 1).reqGone tag).reqEnd r 0xB8 none).reqPump))) ∧
  (∀ (s : State) (now : Nat) (p : Packet), s.power.released = true → s.isLead = true →
    exec (.linkState now p) s = .next ((s.at now).linkHeard (linkReportOf p.body))) ∧
  (∀ (s : State) (now : Nat) (p : Packet), s.power.released = true →
    exec (.routeSet now p) s = .next (((s.at now).sendCtrl p.src (routeAckBody s.node.id (leAt p.body 4 4))).routeHere (routeOf p.body))) ∧
  (∀ (s : State) (c : RouteChange), s.fabric.seenEpochs.contains c.epoch = true → s.routeHere c = s) ∧
  (∀ (s : State) (c : RouteChange), s.fabric.seenEpochs.contains c.epoch = false → s.tide.now < c.effective →
    (s.routeHere c).fabric.pendingRoutes = insertBy (fun a b => decide (a.epoch ≤ b.epoch)) c s.fabric.pendingRoutes ∧
      (s.routeHere c).fabric.map = s.fabric.map) ∧
  (∀ (s : State) (now : Nat) (p : Packet), s.power.released = true → ∃ t, exec (.routeAck now p) s = .next t ∧
    t.fabric.routeWaits = (s.fabric.routeWaits.map fun w =>
      if w.change.epoch = leAt p.body 4 4 then { w with missing := w.missing.filter fun n => n != leAt p.body 2 2 } else w).filter fun w =>
        !w.missing.isEmpty) ∧
  (∀ (s u : State) (now n bits : Nat) (req : Requester), s.lands now req 0x0D8 0x120 (BitVec.ofNat 64 (n % 65536)) u → u.node.valid = true →
    u.route (n % 65536) = some bits → exec (.queryDst now req n) s =
      .next (((u.setFld ROUTE.REACHABLE 1).setFld ROUTE.NEG bits).setFld ROUTE.HOPS (u.hops (u.place (n % 65536)) bits))) ∧
  (∀ (s u : State) (now : Nat) (p : Packet) (bytes : Bytes), s.arrives now p u bytes →
    (Table.has s.fabric.images p.job = false → exec (.jobImage now p) s =
      .next ((((u.modFabric fun f => { f with images := Table.put f.images p.job bytes }).reply p 0 0 0 []).markSeq p.dst p.src p.reqSeq 0).partValidate
        p.job)) ∧
    exec (.jobStart now p) s = .next (((u.modFabric fun f => { f with starts := f.starts ++ [p] }).markSeq p.dst p.src p.reqSeq unanswered).partValidate
      p.job) ∧
    (∀ j, u.jobByHerd p.job = some j → exec (.partEnd now p) s = .next (((u.partEnded j p.src {
        status := p.arg0 % 256, committed := bitAt p.arg0 8, multi := bitAt p.arg0 9, stage := p.arg0 / 2 ^ 16 % 65536, detail := p.arg1 }).reply
          p 0 0 0 []).markSeq p.dst p.src p.reqSeq 0)) ∧
    (u.jobByHerd p.job = none → exec (.partEnd now p) s = .next ((u.reply p 0 0 0 []).markSeq p.dst p.src p.reqSeq 0)) ∧
    (∀ w : State, w = (u.modFabric fun f => { f with kills := f.kills ++ [p] }).markSeq p.dst p.src p.reqSeq unanswered →
      (∀ j, w.partOf p.job = some j → exec (.jobKill now p) s = .next (w.killJob j (p.arg0 % 256))) ∧
      (w.partOf p.job = none → exec (.jobKill now p) s =
        .next (((w.partUnread p.job (p.arg0 % 256) 0).modFabric fun f => { f with images := Table.drop f.images p.job }).killsAnswered p.job)))) ∧
  (∀ (s : State) (id : Nat), Table.find? s.fabric.images id = none → s.partValidate id = s) ∧
  (∀ (s : State) (id : Nat), s.fabric.starts.find? (fun p => p.job == id) = none → s.partValidate id = s) ∧
  (∀ (s : State) (j n : Nat) (r : PartResult) (job : Job), s.job? j = some job → Table.has job.parts n = true → s.partEnded j n r = s) ∧
  (∀ (s : State) (j n : Nat) (r : PartResult) (job : Job), s.job? j = some job → Table.has job.parts n = false → r.committed = true →
    s.partEnded j n r = (s.updJob j fun x => { x with parts := Table.put x.parts n r }).jobSettle j)

/-- Formation and membership: claims, forms, sets and their acknowledgements, the herd's commands. Draws on R439, R440, R441, R442, R443, R444, R445,
R446, R447, R457, R458, R461, R462. -/
def Obligations.HerdMembership : Prop :=
  (∀ (s : State) (now k : Nat) (p : Packet), s.power.released = true → k < 6 →
    exec (.leadClaim now k p) s = .next ((s.at now).claimHeard k p.body)) ∧
  (∀ (s : State) (k l : Nat) (b : Bytes), s.herd.lowest = some l → l ≤ leAt b 2 2 → s.claimHeard k b = s) ∧
  (∀ (s : State) (k : Nat) (b : Bytes), s.herd.lowest = none → s.fld HERD.STATE = 0 → s.herd.serial = 0 →
    s.claimHeard k b = (s.modHerd fun h => { h with lowest := some (leAt b 2 2) }).relayClaim k b) ∧
  (∀ (s : State) (now : Nat), s.power.released = true → exec (.formMsExpire now) s = .next ((s.at now).formExpire)) ∧
  (∀ (s : State), s.herd.waitJoins = none → s.herd.electAt = none → s.fld HERD.STATE = 0 → s.herd.formed = false → s.herd.serial = 0 →
    s.herd.formAt + s.fld HERD.FORM_MS * 1000000 ≤ s.chrono → s.anyTrained = false →
    ∃ t, s.formExpire = t ∧ t.fld HERD.STATE = 1 ∧ t.node = ⟨0, true⟩ ∧ t.herd.lead = 0 ∧ t.fabric.members = [0] ∧ t.fabric.map = []) ∧
  (∀ (s : State) (now k : Nat) (p : Packet), s.power.released = true → k < 7 → exec (.herdForm now k p) s = .next ((s.at now).formHeard k p.body)) ∧
  (∀ (s : State) (k d : Nat) (b : Bytes), s.herd.derived = some d →
    d ≠ ({ s.herd with shape := (byteAt b 6, byteAt b 7, byteAt b 8) } : Herd).step (leAt b 4 2) (k / 2) (k % 2 == 0) →
    s.derive k b = (s.setFld HERD.STATE 5).raiseOwn 0x0D9 16) ∧
  (∀ (s : State) (now : Nat) (p : Packet), s.power.released = true →
    (s.actsAsLead = true → exec (.join now p) s = .next ((s.at now).joinHeard (joinOf p.body))) ∧
    (s.actsAsLead = false → s.twin.hosting = some (leAt p.body 2 2) → exec (.join now p) s = .next ((s.at now).startReturn (leAt p.body 2 2))) ∧
    (s.actsAsLead = false → s.twin.hosting ≠ some (leAt p.body 2 2) → exec (.join now p) s = .next ((s.at now).sendUp p.src p.body))) ∧
  (∀ (s : State) (now k : Nat) (p : Packet), s.power.released = true → k < 6 →
    s.herd.lastSet = some (leAt p.body 4 4) →
    exec (.memberSet now k p) s = .next ((s.at now).sendUp s.ownId (memberAckBody (leAt p.body 4 4) (leAt p.body 20 2)))) ∧
  (∀ (s u : State) (now k : Nat) (p : Packet), s.power.released = true → k < 6 → byteAt p.body 1 ≠ 0 → byteAt p.body 1 ≠ 1 →
    s.herd.lastSet = none → s.herd.pendingSets = [] → s.herd.parts = [] → bitAt (byteAt p.body 2) 0 = true → leAt p.body 20 2 = 0 →
    u = (s.at now).sendUp s.ownId (memberAckBody (leAt p.body 4 4) 0) → u.herd = s.herd →
    ∃ v : State, v = (u.modHerd fun h => { h with parts := [] }) ∧ exec (.memberSet now k p) s = .next (v.holdSet (setPartOf p.body).body)) ∧
  (∀ (s : State) (now : Nat) (p : Packet), s.power.released = true → s.actsAsLead = true →
    ∃ t, exec (.memberAck now p) s = .next t ∧ t.herd.waits = (s.herd.waits.map fun w =>
      if w.set.seq = leAt p.body 4 4 then { w with missing := w.missing.filter fun e => !(e.1 == leAt p.body 8 2 && e.2 == p.src) } else w).filter
        fun w => !w.missing.isEmpty) ∧
  (∀ (s : State) (now : Nat) (p : Packet), s.power.released = true → s.herd.electAt.isSome = true → exec (.electAck now p) s =
    .next ((s.at now).modHerd fun h => { h with electAcks := Table.put h.electAcks (leAt p.body 2 2) (leAt p.body 8 8) })) ∧
  (∀ (s : State) (now : Nat) (p : Packet), s.power.released = true → s.isLead = true →
    exec (.leave now p) s = .next ((s.at now).removeNode (leAt p.body 2 2))) ∧
  (∀ (s : State) (now : Nat), s.power.released = true → s.actsAsLead = true → exec (.memberSetResend now) s = .next ((s.at now).resendSets)) ∧
  (∀ (s : State) (now n : Nat), s.power.released = true → s.isLead = true → Table.has s.herd.aliases n = true →
    exec (.handbackTransferDone now n) s = .next ((s.at now).admitNode n)) ∧
  (∀ (s : State) (now : Nat), s.power.released = true → s.fld HERD.STATE = 3 → s.isLead = false → s.linksIn 3 = [] →
    (s.at now).quietFor (s.fld TIDE.BEAT_LOSS) = true →
    exec (.isolated now) s = .next (((s.at now).setFld HERD.STATE 4).raiseOwn 0x0D9 17)) ∧
  (∀ (s : State) (now : Nat), s.power.released = true → s.twin.paired = false → exec (.leadTakeover now) s = .next (s.at now)) ∧
  (∀ (s u : State) (now : Nat) (req : Requester), s.lands now req 0x0D9 0x118 1#64 u → u.fld HERD.STATE = 1 → u.work.jobs = [] → u.herd.offer = none →
    exec (.herdJoin now req) s = .next ({ u with node := ⟨u.node.id, false⟩ }.setFld HERD.STATE 0)) ∧
  (∀ (s u : State) (now : Nat) (req : Requester), s.lands now req 0x0D9 0x118 1#64 u → u.fld HERD.STATE = 1 → u.work.jobs ≠ [] →
    exec (.herdJoin now req) s = .next (u.raiseBy req 0x0D9 18 0x118)) ∧
  (∀ (s u : State) (now : Nat) (req : Requester), s.lands now req 0x0D9 0x118 2#64 u → u.fld HERD.STATE = 3 →
    exec (.herdLeave now req) s = .next (if u.isLead then u.removeNode u.node.id else u.sendUp u.node.id (leaveBody u.node.id))) ∧
  (∀ (s u : State) (now n : Nat) (req : Requester), s.lands now req 0x0D9 0x118 (BitVec.ofNat 64 (n % 65536 * 65536)) u →
    exec (.admitId now req n) s = .next (if u.isLead then u.admitNode (n % 65536) else u.raiseBy req 0x0D9 18 0x118))

/-- Twin pairs, their cuts and acknowledgements; the runtime image from the lead and the return to flash. Draws on R422, R448, R451, R452. -/
def Obligations.TwinsAndBoot : Prop :=
  (∀ (s : State) (now : Nat) (p : Packet), s.power.released = true → exec (.twinPair now p) s =
    .next (if s.isLead then (s.at now).pairHeard (leAt p.body 2 2) (leAt p.body 4 2) (byteAt p.body 6)
      else if leAt p.body 4 2 = s.node.id then (s.at now).pairForm (leAt p.body 2 2) else s.at now)) ∧
  (∀ (s : State) (partner : Nat), ∃ t, s.pairForm partner = t ∧ t.twin.paired = true ∧ t.twin.degraded = false ∧ t.twin.partner = partner ∧
    t.twin.sent = [] ∧ t.twin.incoming = [] ∧ t.twin.heardAt = s.chrono) ∧
  (∀ (s : State) (now k : Nat) (p : Packet), s.power.released = true → s.twinLink ≠ some k → exec (.mirror now k p) s = .next (s.at now)) ∧
  (∀ (s u : State) (now k : Nat) (p : Packet) (bytes : Bytes), s.arrives now p u bytes → s.twinLink = some k →
    exec (.mirror now k p) s = .next (((u.modTwin fun t => { t with
      incoming := t.incoming ++ [MirrorObj.mk (p.arg0 / 2 ^ 32 % 1024) p.arg1 bytes] }).replyLink k p).marked p 0)) ∧
  (∀ (s : State) (now k : Nat) (p : Packet), s.power.released = true → s.twin.paired = true → s.twinLink = some k → exec (.twinCut now k p) s =
    .next ((s.at now).twinCut k (leAt p.body 4 4) (leAt p.body 8 8) (leAt p.body 16 8))) ∧
  (∀ (s : State) (k cut tide bytes : Nat), s.twin.incoming.foldl (fun n r => n + r.image.length) 0 ≠ bytes →
    s.twinCut k cut tide bytes = s.modTwin fun t => { t with incoming := [], runs := [] }) ∧
  (∀ (s : State) (k cut tide bytes : Nat), s.twin.full = false → s.twin.incoming.foldl (fun n r => n + r.image.length) 0 = bytes →
    s.fld TWIN.MIRROR_QUOTA < mirrorMib (s.twin.incoming.foldl s.mirrorOne s.twin.mirror) →
    s.twinCut k cut tide bytes = (s.modTwin fun t => { t with full := true, incoming := [], runs := [] }).raiseOwn 0x0DA 17) ∧
  (∀ (s : State) (now k : Nat) (p : Packet), s.power.released = true → s.twinLink = some k →
    exec (.twinAck now k p) s = .next ((s.at now).twinAck (leAt p.body 4 4))) ∧
  (∀ (s : State) (cut : Nat), cut ≤ s.twin.acked ∨ s.twin.cutSeq < cut → s.twinAck cut = s) ∧
  (∀ (s : State) (now k : Nat) (p : Packet), s.power.released = true → k < 6 →
    exec (.bootReq now k p) s = .next ((s.at now).bootReq k p) ∧ exec (.bootData now k p) s = .next ((s.at now).bootData k p)) ∧
  (∀ (s : State) (k : Nat) (p : Packet), s.isLead = false → s.herd.derived = none →
    s.bootReq k p = s.sendUp (if s.node.valid then s.node.id else p.src) p.body) ∧
  (∀ (s : State) (k : Nat) (p : Packet), leAt p.body 2 2 = s.ownId → s.herd.bootAsked = true → s.fld ROLAR.STATE = 0 →
    leAt p.body 4 8 = s.herd.boot.length → s.herd.boot.length + (sub p.body 64 (leAt p.body 12 2)).length < leAt p.body 16 4 →
    s.bootData k p = s.modHerd fun h => { h with
      boot := s.herd.boot ++ sub p.body 64 (leAt p.body 12 2), bootTotal := leAt p.body 16 4, bootAt := some s.chrono }) ∧
  (∀ (s : State) (now : Nat), s.power.released = true → exec (.bootFallback now) s = .next ((s.at now).bootFallback)) ∧
  (∀ (s : State), s.fld GLOBAL.BOOT_SRC = 1 → s.fld ROLAR.STATE = 0 → s.fld HERD.STATE = 1 →
    s.bootFallback = (s.modHerd fun h => { h with boot := [], bootAsked := false, bootAt := none }).flashBoot true) ∧
  (∀ (s : State), s.fld GLOBAL.BOOT_SRC ≠ 1 → s.bootFallback = s)

/-- Serving's registers, its request rings, admission, deadlines, transmit slots and services. Draws on R466, R467, R468, R469, R472, R473, R474, R477,
R483. -/
def Obligations.Serving : Prop :=
  (∀ (s u w : State) (now : Nat) (req : Requester), s.lands now req 0x0E0 0x100 (putBits (s.word 0 0x0E0 0x100) 0 0 1) u →
    u.bit SERVE.ENABLE = false → u.serve.store = none → u.takeStore = some w →
    exec (.serveEnable now req true) s = .next ((w.setFld SERVE.ENABLE 1).placeAll)) ∧
  (∀ (s u : State) (now : Nat) (req : Requester), s.lands now req 0x0E0 0x100 (putBits (s.word 0 0x0E0 0x100) 0 0 1) u →
    u.bit SERVE.ENABLE = false → u.serve.store = none → u.takeStore = none →
    exec (.serveEnable now req true) s = .next (u.raiseBy req 0x0E0 20 0x100)) ∧
  (∀ (s u : State) (now : Nat) (req : Requester), s.lands now req 0x0E0 0x100 (putBits (s.word 0 0x0E0 0x100) 0 0 0) u →
    u.bit SERVE.ENABLE = true → exec (.serveEnable now req false) s = .next (((u.setFld SERVE.ENABLE 0).storeSettle).placeAll)) ∧
  (∀ (s u : State) (now r : Nat) (req : Requester), r < 16 → bitsOf (s.word 0 0x0E0 (0x200 + 0x40 * r)) 57 57 = 0 →
    s.lands now req 0x0E0 (0x200 + 0x40 * r) (putBits (s.word 0 0x0E0 (0x200 + 0x40 * r)) 57 57 1) u →
    (u.ringOk r = true → u.serve.requests = [] →
      exec (.serveRingEnable now req r true) s = .next ((u.setFld (SERVE.R_ENABLE.at r) 1).setServeRing r {})) ∧
    (u.ringOk r = false → exec (.serveRingEnable now req r true) s = .next (u.raiseBy req 0x0E0 20 (0x200 + 0x40 * r)))) ∧
  (∀ (s u : State) (now r : Nat) (req : Requester), r < 16 → bitsOf (s.word 0 0x0E0 (0x200 + 0x40 * r)) 57 57 = 1 →
    s.lands now req 0x0E0 (0x200 + 0x40 * r) (putBits (s.word 0 0x0E0 (0x200 + 0x40 * r)) 57 57 0) u →
    exec (.serveRingEnable now req r false) s =
      .next ((u.setWord 0 0x0E0 (0x200 + 0x40 * r) (s.word 0 0x0E0 (0x200 + 0x40 * r))).setFld (SERVE.R_ENABLE.at r) 0)) ∧
  (∀ (s : State) (now r v : Nat) (g : Region), r < 16 → s.reqRegion r = some g → s.power.released = true → s.host.p0Up = true →
    s.bit (SERVE.R_ENABLE.at r) = true → exec (.prod now r v) s = .next (((s.at now).storeBytes g.base (leBytes 8 v)).takeProd r v)) ∧
  (∀ (s : State) (r v : Nat), s.reqDepth r ≤ v % 65536 → s.takeProd r v = s.raiseOwn 0x0E0 19) ∧
  (∀ (s : State) (r v : Nat), v % 65536 < s.reqDepth r → ((s.serveRing r).prod + s.reqDepth r - (s.serveRing r).cons) % s.reqDepth r +
      (v % 65536 + s.reqDepth r - (s.serveRing r).prod) % s.reqDepth r < s.reqDepth r →
    ((s.takeProd r v).serveRing r).prod = v % 65536 ∧ ((s.takeProd r v).serveRing r).cons = (s.serveRing r).cons ∧ (s.takeProd r v).regs = s.regs) ∧
  (∀ (s : State) (now r : Nat) (g : Region), r < 16 → s.reqRegion r = some g → s.power.released = true → s.bit SERVE.ENABLE = true →
    s.bit (SERVE.R_ENABLE.at r) = true → (s.serveRing r).prod ≠ (s.serveRing r).cons →
    exec (.admission now r) s = .next ((s.at now).admitNext r g)) ∧
  (∀ (s : State) (now r : Nat), r < 16 → (s.serveRing r).prod = (s.serveRing r).cons → exec (.admission now r) s = .next (s.at now)) ∧
  (∀ (s : State) (now id : Nat) (q : Request), s.request? id = some q → q.deadline ≤ max s.chrono now → q.status ≠ 0xCA → q.status ≠ 0xC8 →
    exec (.requestDeadline now id) s = .next ((s.at now).abandon id)) ∧
  (∀ (s : State) (now id : Nat) (q : Request), s.request? id = some q → max s.chrono now < q.deadline →
    exec (.requestDeadline now id) s = .next (s.at now)) ∧
  (∀ (s : State) (now r head : Nat), r < 16 → (s.serveRing r).reading = true → s.host.p0Up = true → exec (.txSlotFree now r head) s =
    .next (((s.at now).setServeRing r { s.serveRing r with
      reading := false
      head := (s.serveRing r).head + (head % s.txDepth r + s.txDepth r - (s.serveRing r).head % s.txDepth r) % s.txDepth r }).serveSettle r)) ∧
  (∀ (s u : State) (now slot rq rs nb : Nat) (req : Requester) (host : List (Nat × Byte)),
    s.lands now req 0x0E0 0x110 (BitVec.ofNat 64 (slot % 64 + 256 + rq % 256 * 2 ^ 16 + rs % 256 * 2 ^ 24 + nb % 512 * 2 ^ 32)) u →
    (u.bit SERVE.BUSY = false → exec (.svcRegister now req slot rq rs nb host) s = .next (u.svcRegister host)) ∧
    (u.bit SERVE.BUSY = true → exec (.svcRegister now req slot rq rs nb host) s = .next (u.raiseBy req 0x0E0 21 0x110))) ∧
  (∀ (s : State) (host : Memory), Table.has s.serve.services (s.fld SERVE.SVC) = true → s.svcRegister host = s.svcResult 1) ∧
  (∀ (s u : State) (now slot : Nat) (req : Requester), s.lands now req 0x0E0 0x110 ((s.at now).svcWord 2 slot) u → u.bit SERVE.BUSY = false →
    exec (.svcUnregister now req slot) s = .next u.svcUnregister) ∧
  (∀ (s : State), Table.find? s.serve.services (s.fld SERVE.SVC) = none → s.svcUnregister = s.svcResult 2) ∧
  (∀ (s : State) (now slot : Nat), s.serve.unreg = some slot → s.serviceBusy slot = false → exec (.svcUnregisterDone now) s =
    .next (((s.at now).modServe fun x => { x with services := Table.drop x.services slot, unreg := none }).svcResult 0)) ∧
  (∀ (s : State) (now slot : Nat), s.serve.unreg = some slot → s.serviceBusy slot = true → exec (.svcUnregisterDone now) s = .next (s.at now)) ∧
  (∀ (s u : State) (now slot : Nat) (req : Requester), s.lands now req 0x0E0 0x110 ((s.at now).svcWord 3 slot) u → u.bit SERVE.BUSY = false →
    exec (.svcRead now req slot) s = .next ((u.setFld SERVE.S_REG (ofBool (Table.has u.serve.services (u.fld SERVE.SVC)))).svcResult
      (if Table.has u.serve.services (u.fld SERVE.SVC) then 0 else 2))) ∧
  (∀ (s : State) (res : Nat), res < 16 → (s.svcResult res).fld SERVE.RESULT = res ∧ (s.svcResult res).bit SERVE.BUSY = false ∧
    (s.svcResult res).bit SERVE.DONE = true)

/-- Boot, rollback fuses, lockdown, stage keys. Draws on R491, R493, R498. -/
def Obligations.RolarCommands : Prop :=
  (∀ (s : State) (now : Nat), s.power.released = true → exec (.runtimeBoot now) s = .next ((s.at now).runtimeBoot)) ∧
  (∀ (s : State), s.fld ROLAR.STATE ≠ 0 → s.runtimeBoot = s) ∧
  (∀ (s : State), s.fld ROLAR.STATE = 0 → s.herd.serial = 0 →
    (s.fld GLOBAL.BOOT_SRC = 3 → s.runtimeBoot = s.flashBoot false) ∧ (s.fld GLOBAL.BOOT_SRC = 0 → s.runtimeBoot = s.setFld ROLAR.STATE 2)) ∧
  (∀ (s : State) (fb : Bool), s.rolar.flash = [] → s.imageValid 1 [] = false → s.flashBoot fb = (s.setFld ROLAR.STATE 2).setFld ROLAR.FALLBACK (ofBool fb)) ∧
  (∀ (s : State) (img : Bytes) (src slot : Nat) (fb : Bool), src < 4 → slot < 2 → (s.startRuntime img src slot fb).fld ROLAR.STATE = 1 ∧
    (s.startRuntime img src slot fb).fld ROLAR.SRC = src ∧ (s.startRuntime img src slot fb).fld ROLAR.BOOT_SLOT = slot ∧
    (s.startRuntime img src slot fb).rolar.runtimeHdr = img.take 512) ∧
  (∀ (s u : State) (now : Nat) (req : Requester) (image : Bytes), s.lands now req 0x001 0x120 (BitVec.ofNat 64 (s.fld ROLAR.BOOT_LEN + 2 ^ 32)) u →
    u.fld GLOBAL.BOOT_SRC = 2 → u.fld ROLAR.STATE ≠ 1 → spaceOf (u.fld ROLAR.BOOT_ADDR) = .host →
    exec (.bootGo now req image) s = .next (u.deliveredBoot (image.take (u.fld ROLAR.BOOT_LEN)) 2)) ∧
  (∀ (s u : State) (now : Nat) (req : Requester) (image : Bytes), s.lands now req 0x001 0x120 (BitVec.ofNat 64 (s.fld ROLAR.BOOT_LEN + 2 ^ 32)) u →
    u.fld GLOBAL.BOOT_SRC ≠ 2 ∨ u.fld ROLAR.STATE = 1 → exec (.bootGo now req image) s = .next u) ∧
  (∀ (s u : State) (now : Nat) (req : Requester), s.lands now req 0x001 0x128 1#64 u → exec (.rollbackCommit now req) s = .next u.commitFuses) ∧
  (∀ (s : State), s.rolar.commit = none → s.rolar.fuses < s.commitTarget →
    s.commitFuses.rolar.commit = some s.commitTarget ∧ s.commitFuses.fld ROLAR.COMMIT = 1 ∧ s.commitFuses.rolar.fuses = s.rolar.fuses) ∧
  (∀ (s : State), s.commitTarget ≤ 64) ∧
  (∀ (s : State) (now t : Nat), s.rolar.commit = some t → ∃ w, exec (.fuseBlowDone now true) s = .next w ∧ w.rolar.fuses = s.rolar.fuses + 1 ∧
    w.rolar.commit = (if t ≤ s.rolar.fuses + 1 then none else some t)) ∧
  (∀ (s : State) (now t : Nat), s.rolar.commit = some t → ∃ w, exec (.fuseBlowDone now false) s = .next w ∧ w.rolar.fuses = s.rolar.fuses ∧
    w.rolar.commit = none) ∧
  (∀ (s u : State) (now : Nat) (req : Requester), s.lands now req 0x001 0x130 (BitVec.ofNat 64 (s.fld ROLAR.LOCK_DEADLINE_MS * 2 ^ 16 + 1)) u →
    exec (.lockdown now req) s = .next (u.lockdown 1)) ∧
  (∀ (s : State) (now : Nat), s.power.released = true → s.fld ROLAR.LOCK_DEADLINE_MS ≠ 0 → s.bit ROLAR.DONE = false →
    (s.pins.releaseAt + s.fld ROLAR.LOCK_DEADLINE_MS * 1000000 ≤ max s.chrono now → exec (.lockDeadline now) s = .next ((s.at now).lockdown 2)) ∧
    (max s.chrono now < s.pins.releaseAt + s.fld ROLAR.LOCK_DEADLINE_MS * 1000000 → exec (.lockDeadline now) s = .next (s.at now))) ∧
  (∀ (s : State) (b : Nat), b < 4 → (s.lockdown b).locked 0 0x001 = true ∧ (s.lockdown b).bit ROLAR.DONE = true ∧
    (s.bit ROLAR.DONE = false → (s.lockdown b).fld ROLAR.BY = b)) ∧
  (∀ (s u : State) (now slot svn : Nat) (req : Requester) (host : Bytes), s.lands now req 0x001 0x160 (keyWord 1 slot svn) u →
    exec (.keyLoad now req slot svn host) s = .next (u.keyLoad req host)) ∧
  (∀ (s : State) (req : Requester) (host : Bytes), s.locked 0 0x001 = false → Table.has s.rolar.keys (s.fld ROLAR.KEY_SLOT) = true →
    s.keyLoad req host = s.keyResult 1) ∧
  (∀ (s : State) (req : Requester) (host : Bytes), s.locked 0 0x001 = false → Table.has s.rolar.keys (s.fld ROLAR.KEY_SLOT) = false →
    engineMapped (s.fld ROLAR.KEY_ADDR) 96 = true → spaceOf (s.fld ROLAR.KEY_ADDR) = .host →
    Table.find? (s.keyLoad req host).rolar.keys (s.fld ROLAR.KEY_SLOT) =
      if Config.onP384 (fitTo host 96) then some ⟨s.fld ROLAR.MIN_SVN, fitTo host 96⟩ else none) ∧
  (∀ (s u : State) (now slot : Nat) (req : Requester), s.lands now req 0x001 0x160 (keyWord 2 slot (s.fld ROLAR.MIN_SVN)) u →
    exec (.keyRevoke now req slot) s = .next (u.keyRevoke req)) ∧
  (∀ (s : State) (req : Requester), s.locked 0 0x001 = false → Table.has s.rolar.keys (s.fld ROLAR.KEY_SLOT) = true →
    s.keyRevoke req = (if s.keyInUse (s.fld ROLAR.KEY_SLOT) then s
      else s.modRolar fun r => { r with keys := Table.drop r.keys (s.fld ROLAR.KEY_SLOT) }).keyResult (if s.keyInUse (s.fld ROLAR.KEY_SLOT) then 1 else 0)) ∧
  (∀ (s u : State) (now slot : Nat) (req : Requester), s.lands now req 0x001 0x160 (keyWord 3 slot (s.fld ROLAR.MIN_SVN)) u →
    exec (.keyRead now req slot) s = .next (u.keyResult (if Table.has u.rolar.keys (u.fld ROLAR.KEY_SLOT) then 0 else 2)))

/-- Management on M1 and DOE: SPDM, MCTP, PLDM, register access, lost arbitration. Draws on R36, R71, R488, R489, R491, R495, R496, R497. -/
def Obligations.Management : Prop :=
  (∀ (s : State) (now e id : Nat) (doe o ok : Bool) (t b : Bytes), s.pins.modPg = false →
    exec (.getVersion now doe) s = .next (s.at now) ∧ exec (.finish now doe id ok) s = .next (s.at now) ∧
    exec (.challenge now doe e t) s = .next (s.at now) ∧ exec (.setEndpointId now e) s = .next (s.at now) ∧
    exec (.pldmFirmwareUpdate now o b) s = .next (s.at now)) ∧
  (∀ (s u : State) (now : Nat), u = s.at now → s.pins.modPg = true →
    (exec (.getVersion now false) s = .next ((u.setSpdmStep false 1).answerMgmt 0x04 [0x13])) ∧
    (1 ≤ s.rolar.mctpStep → exec (.getCapabilities now false) s = .next ((u.setSpdmStep false 2).answerMgmt 0x61 [])) ∧
    (s.rolar.mctpStep < 1 → exec (.getCapabilities now false) s = .next (u.spdmError 4)) ∧
    (2 ≤ s.rolar.mctpStep → exec (.negotiateAlgorithms now false true) s = .next ((u.setSpdmStep false 3).answerMgmt 0x63 []) ∧
      exec (.negotiateAlgorithms now false false) s = .next (u.spdmError 1)) ∧
    (3 ≤ s.rolar.mctpStep → exec (.getDigests now false) s = .next (u.answerMgmt 0x01 (Config.sha384 u.chain)) ∧
      (∀ off len, off ≤ u.chain.length → exec (.getCertificate now false 0 off len) s = .next (u.answerMgmt 0x02 ((u.chain.drop off).take len))) ∧
      (∀ tr, exec (.challenge now false 0 tr) s = .next (u.answerMgmt 0x03 (Config.sha384 u.chain ++ u.sign tr))) ∧
      (∀ i raw tr, exec (.getMeasurements now false i raw tr) s = .next (u.measure i raw tr)) ∧
      (∀ id tr, 4 ≤ s.rolar.sessions.length → exec (.keyExchange now false id tr) s = .next (u.spdmError 0x0A)) ∧
      (∀ id tr, s.rolar.sessions = [] → ∃ w, exec (.keyExchange now false id tr) s = .next w ∧
        w.rolar.sessions = [{ id := id, doe := false, done := false }])) ∧
    (exec (.spdmUnsupported now false) s = .next (u.spdmError 7)) ∧
    (∀ id ok, u.spdmSession false id = none → exec (.finish now false id ok) s = .next (u.spdmError 2) ∧
      exec (.heartbeat now false id) s = .next (u.spdmError 2) ∧ exec (.keyUpdate now false id) s = .next (u.spdmError 2) ∧
      exec (.endSession now false id) s = .next (u.spdmError 2)) ∧
    (∀ id x, u.spdmSession false id = some x → x.done = true → exec (.heartbeat now false id) s = .next (u.answerMgmt 0x68 []) ∧
      exec (.endSession now false id) s = .next ((u.dropSession false id).answerMgmt 0x6C []) ∧
      ∃ w, exec (.keyUpdate now false id) s = .next w ∧ w.rolar.sessions = s.rolar.sessions.map fun y =>
        if y.doe == false && y.id == id then { y with updates := y.updates + 1 } else y)) ∧
  (∀ (s : State) (now id : Nat) (x : SpdmSession), s.pins.modPg = true → s.host.p0Up = true → s.spdmSession true id = some x → x.done = false →
    ∃ w, exec (.finish now true id true) s = .next w ∧ w.bit ATTACH.AUTH_OK = true ∧ w.rolar.resends = s.rolar.resends) ∧
  (∀ (s u : State) (now : Nat), u = s.at now → s.pins.modPg = true →
    (∀ e, e = 0 ∨ 255 ≤ e → exec (.setEndpointId now e) s = .next (u.answerMgmt 0x101 [0x02])) ∧
    (∀ e, 0 < e → e < 255 → ∃ w, exec (.setEndpointId now e) s = .next w ∧ w.rolar.eid = e) ∧
    exec (.getEndpointId now) s = .next (u.answerMgmt 0x102 [0x00, BitVec.ofNat 8 s.rolar.eid]) ∧
    (∀ y, y ∉ [0x00, 0x01, 0x05, 0x06] → exec (.getMctpVersionSupport now y) s = .next (u.answerMgmt 0x104 [0x80])) ∧
    exec (.getMessageTypeSupport now) s = .next (u.answerMgmt 0x105 [0x00, 0x04, 0x00, 0x01, 0x05, 0x06]) ∧
    (∀ arg, ∃ w, exec (.pldmBase now 1 arg) s = .next w ∧ w.rolar.tid = arg % 256) ∧
    (∀ runtime image, ∃ w, exec (.pldmFirmwareUpdate now runtime image) s = .next w) ∧
    (s.rolar.resends < 4 → ∃ w, exec (.arbLost now) s = .next w ∧ w.rolar.resends = s.rolar.resends + 1) ∧
    (4 ≤ s.rolar.resends → ∃ w, exec (.arbLost now) s = .next w ∧ w.rolar.resends = 0 ∧
      w = (((u.count ROLAR.ARB_LOST 1).count ROLAR.ARB_DROPS 1).modRolar fun r => { r with resends := 0 }))) ∧
  (∀ (s u : State) (now : Nat), u = s.at now → s.pins.modPg = true → s.fld ROLAR.STATE = 1 →
    exec (.pldmSensorRead now 1) s = .next (u.answerMgmt 0x211 (0x00 :: leBytes 2 (s.fld LEAVE.DIE_TEMP))) ∧
    (∀ n, 4 ≤ n → exec (.pldmSensorRead now n) s = .next (u.answerMgmt 0x211 [0x80])) ∧
    (∀ e es, s.platformEvents = e :: es →
      exec (.pollForPlatformEventMessage now) s = .next ({ u with platformEvents := es }.answerMgmt 0x20B (0x00 :: leBytes 2 e))) ∧
    (∀ page off, off % 8 = 0 → off < 0x1000 → off ≠ 0x048 → exec (.readReg now page off) s = .next ((u.readReg .m1 page off).m1Sent)) ∧
    (∀ page off v, m1Writes page off = false → exec (.writeReg now page off v) s = .next (u.answerMgmt 0x3F02 [0x02])) ∧
    (∀ page off v, m1Writes page off = true → off % 8 = 0 → off < 0x1000 →
      exec (.writeReg now page off v) s = .next ((u.writeReg {} .m1 page off v).answerMgmt 0x3F02 [0x00]))) ∧
  (∀ (s : State) (now : Nat), s.fld ROLAR.STATE ≠ 1 → exec (.pollForPlatformEventMessage now) s = .next (s.at now))

/-- The fault queue and its acknowledgement, injected faults, stuck inputs, marks of watermarks. Draws on R32, R38, R92, R136, R173, R219, R268, R362,
R473, R508, R513, R514. -/
def Obligations.FaultsAndMarks : Prop :=
  (∀ (s u : State) (now : Nat) (req : Requester), s.lands now req 0x0F0 0x110 1#64 u →
    ∃ t, exec (.faultAck now req) s = .next t ∧ t.fld FAULT.PENDING_CLASS = 0 ∧ t.fld FAULT.NODE_FATAL = u.fld FAULT.NODE_FATAL ∧ t.faults = u.faults) ∧
  (∀ (s u : State) (now : Nat) (r : FaultRec) (rs : List FaultRec) (req : Requester), s.lands now req 0x0F0 0x110 2#64 u → u.faults = r :: rs →
    rs.length < 64 → ∃ t, exec (.pop now req) s = .next t ∧ t.faults = rs ∧ t.fld FAULT.QCOUNT = rs.length ∧
      t.word 0 0x0F0 0x200 = BitVec.ofNat 64 (leAt r.bytes 0 8)) ∧
  (∀ (s u : State) (now : Nat) (req : Requester), s.lands now req 0x0F0 0x110 2#64 u → u.faults = [] →
    ∃ t, exec (.pop now req) s = .next t ∧ t.faults = [] ∧ (∀ k, k < 5 → t.word 0 0x0F0 (0x200 + 8 * k) = 0#64)) ∧
  (∀ (s u : State) (now kind page : Nat) (req : Requester),
    s.lands now req 0x0F0 0x130 (BitVec.ofNat 64 (kind % 8 + page % 4096 * 2 ^ 16 + 2 ^ 32)) u →
    (u.bit FAULT.INJ_ENABLE = false → exec (.finjFire now req kind page) s = .next (u.raiseBy req 0x0F0 18 0x130)) ∧
    (u.bit FAULT.INJ_ENABLE = true → exec (.finjFire now req kind page) s = .next (u.injectFault (kind % 8) (page % 4096)))) ∧
  (∀ (s : State), s.injectFault 3 0x0F0 = s.nodeFatal 0x21 1) ∧
  (∀ (s : State) (cause flags : Nat), (s.nodeFatal cause flags).fatalAt = some s.chrono) ∧
  (∀ (s : State) (r : FaultRec), r.cls < 5 → s.faults.length < 64 → ∃ q, (s.faultRecord r).faults = s.faults ++ [q] ∧
    q = { r with seq := s.fld FAULT.NEXT_SEQ, tide := s.tide.now, chrono := s.chrono } ∧
    (s.fld FAULT.NEXT_SEQ + 1 < 2 ^ 32 → (s.faultRecord r).fld FAULT.NEXT_SEQ = s.fld FAULT.NEXT_SEQ + 1)) ∧
  (∀ (s : State) (now : Nat) (req : Requester) (v : Word), exec (.stuckClear now req v) s = .next ((s.at now).stored req 0x000 0x120 v)) ∧
  (∀ (s : State) (now mark hyst ring : Nat) (req : Requester),
    exec (.watermarkMarkWrite now req .cream mark hyst) s = .next ((s.at now).writeReg {} req 0x061 0x110 (wmWord CREAM.MARK CREAM.HYST mark hyst)) ∧
    exec (.watermarkMarkWrite now req .lag mark hyst) s =
      .next (((s.at now).writeReg {} req 0x058 0x148 (BitVec.ofNat 64 mark)).writeReg {} req 0x058 0x150 (BitVec.ofNat 64 hyst)) ∧
    (ring < 64 → exec (.watermarkMarkWrite now req (.completion ring) mark hyst) s =
      .next ((s.at now).writeReg {} req (ringPage ring) 0x140 (wmWord RING.MARK RING.HYST mark hyst))))

/-- R60: an access to a page that the requester's view does not present reads zero and is ignored as a write; either way UNMAPPED sets and
UNMAPPED_COUNT increments. An offset of a presented page that no table defines reads zero, and a write to it changes nothing. -/
def Obligations.UnmappedAccesses : Prop :=
  (∀ (s : State) (now page off : Nat) (req : Requester), presents req page = false →
    (∃ t, exec (.unmappedAccess now req page off true) s = .next t ∧ Output.readReg req page off 0#64 ∈ t.out ∧
      (t.word 0 0x000 0x020).getLsbD 16 = true ∧ t.fld GLOBAL.UNMAPPED_COUNT = min (2 ^ 64 - 1) (s.fld GLOBAL.UNMAPPED_COUNT + 1)) ∧
    (∃ t, exec (.unmappedAccess now req page off false) s = .next t ∧ (t.word 0 0x000 0x020).getLsbD 16 = true ∧
      t.fld GLOBAL.UNMAPPED_COUNT = min (2 ^ 64 - 1) (s.fld GLOBAL.UNMAPPED_COUNT + 1) ∧ t.mem = s.mem ∧ t.work = s.work ∧
      ∀ fn p o, p ≠ 0 → p < 0x4000 → o < 0x1000 → t.word fn p o = s.word fn p o) ∧
    (∀ (bs : Bytes) (supply : Supply), bs.length = 8 → off % 8 = 0 → off < 4096 → ∃ t, exec (.regWrite now req page off bs supply) s = .next t ∧
      (t.word 0 0x000 0x020).getLsbD 16 = true ∧ t.fld GLOBAL.UNMAPPED_COUNT = min (2 ^ 64 - 1) (s.fld GLOBAL.UNMAPPED_COUNT + 1) ∧
      t.mem = s.mem ∧ t.work = s.work ∧ ∀ fn p o, p ≠ 0 → p < 0x4000 → o < 0x1000 → t.word fn p o = s.word fn p o)) ∧
  (∀ (s : State) (req : Requester) (page off : Nat), presents req page = true → fieldsAt page off = [] →
    s.readWord req page off = 0#64 ∧ (s.takes req page off → ∀ (v : Word) (hook : Hook), s.regWrite req page off v hook = s))

/-- R149: a 64-bit write of a completion head doorbell sets HEAD to a value that lies cyclically from the present HEAD to the present TAIL; any other
value, and any write to a disabled ring, is ignored and sets BAD_DOORBELL. -/
def Obligations.CompletionHeadDoorbells : Prop :=
  ∀ (s : State) (now fn ring v : Nat), fn < 32 → ring < 64 → s.bar2 fn ring = true →
    ((s.cq fn ring).enabled = true → v < s.cqDepth fn ring →
      (v + s.cqDepth fn ring - (s.cq fn ring).head) % s.cqDepth fn ring ≤
        ((s.cq fn ring).tail + s.cqDepth fn ring - (s.cq fn ring).head) % s.cqDepth fn ring →
      ∃ u : State, exec (.cqHeadDoorbell now fn ring v false) s = .next u.ringSettle ∧ u.mem = s.mem ∧
        u.cq fn ring = { s.cq fn ring with head := v, full := decide (((s.cq fn ring).tail + 1) % s.cqDepth fn ring = v) }) ∧
    ((s.cq fn ring).enabled = false ∨ s.cqDepth fn ring ≤ v ∨
      ((s.cq fn ring).tail + s.cqDepth fn ring - (s.cq fn ring).head) % s.cqDepth fn ring <
        (v + s.cqDepth fn ring - (s.cq fn ring).head) % s.cqDepth fn ring →
      ∃ t, exec (.cqHeadDoorbell now fn ring v false) s = .next t ∧ t.work = s.work ∧ t.mem = s.mem ∧ t.host = s.host ∧
        (t.word fn (ringPage ring) 0x020).getLsbD 17 = true)

/-- R186: the threads that wait on a counter become ready, each at the tail of its level, in the order their waits began, when the counter becomes ZERO. -/
def Obligations.CounterZeroWakesWaiters : Prop :=
  (∀ (s : State) (ctr c n : Nat), Table.find? s.rennet.counters ctr = some (.armed c) → c ≤ n →
    ∃ w : State, s.ctrDec ctr n = w.rennetSettle ∧ Table.find? w.rennet.counters ctr = some .zero ∧
      (∀ lv, Table.findD w.rennet.ready lv [] =
        Table.findD s.rennet.ready lv [] ++ (s.waitersOf ctr).filter fun t => (s.thread? t).any fun th => th.level == lv) ∧
      ∀ t ∈ s.waitersOf ctr, (s.thread? t).isSome = true → ∃ th, w.thread? t = some th ∧ th.state = .ready) ∧
  (∀ (s : State) (ctr : Nat), ∃ l : List (Nat × Nat), l.map (·.2) = s.waitersOf ctr ∧ l.Pairwise (fun a b => a.1 ≤ b.1) ∧
    ∀ e, e ∈ l ↔ ∃ th, (e.2, th) ∈ s.rennet.threads ∧ th.waitOn = some (ctr, e.1))

/-- R508: PENDING_CLASS is the highest class of the records since the last ACK; FAULT_N is low exactly while one of the three causes holds; ACK clears
PENDING_CLASS and keeps NODE_FATAL; a record of a class at or above PIN_CLASS raises one platform event and one interrupt event. -/
def Obligations.FaultPinAndClass : Prop :=
  (∀ (s : State) (r : FaultRec), r.cls < 8 → (s.faultRecord r).fld FAULT.PENDING_CLASS = max (s.fld FAULT.PENDING_CLASS) r.cls ∧
    (s.fld FAULT.PIN_CLASS ≤ r.cls → ∃ (u : State) (e : Nat), s.faultRecord r = u.irqEvent 0 0x0F0 ∧
      (s.faultRecord r).platformEvents = s.platformEvents ++ [e] ∧ (s.faults.length < 64 → u.pages = s.pages ∧ u.out = s.out)) ∧
    (r.cls < s.fld FAULT.PIN_CLASS → (s.faultRecord r).platformEvents = s.platformEvents ∧
      (s.faults.length < 64 → (s.faultRecord r).pages = s.pages))) ∧
  (∀ (s : State), s.faultPinLow = true ↔
    s.fld FAULT.PIN_CLASS ≤ s.fld FAULT.PENDING_CLASS ∨ s.bit FAULT.NODE_FATAL = true ∨ s.power.trip = true) ∧
  (∀ (s u : State) (now : Nat) (req : Requester), s.lands now req 0x0F0 0x110 1#64 u →
    ∃ t, exec (.faultAck now req) s = .next t ∧ t.fld FAULT.PENDING_CLASS = 0 ∧ t.bit FAULT.NODE_FATAL = u.bit FAULT.NODE_FATAL)

end
end

