-- ==== Sys2Proof/Laws/Table.lean ====
section
/-! SUPPORT. Laws of sparse tables and of memory: reads after writes, and that every operation keeps the canonical form. -/

namespace Sys2Proof

variable {β : Type}

theorem Table.risingFrom_mono {t : Table β} {a b : Nat} (h : b ≤ a) : Table.risingFrom a t = true → Table.risingFrom b t = true := by
  cases t with
  | nil => intro _; rfl
  | cons e t =>
    simp only [Table.risingFrom, Bool.and_eq_true, decide_eq_true_eq]
    exact fun ⟨h1, h2⟩ => ⟨by omega, h2⟩

theorem Table.risingFrom_put {t : Table β} {lo k : Nat} {v : β} (hk : lo ≤ k) (h : Table.risingFrom lo t = true) :
    Table.risingFrom lo (Table.put t k v) = true := by
  induction t generalizing lo with
  | nil => simp [Table.put, Table.risingFrom, hk]
  | cons e t ih =>
    obtain ⟨k', v'⟩ := e
    simp only [Table.risingFrom, Bool.and_eq_true, decide_eq_true_eq] at h
    unfold Table.put
    split
    · rename_i h1
      simp only [Table.risingFrom, Bool.and_eq_true, decide_eq_true_eq]
      exact ⟨hk, by omega, h.2⟩
    · split
      · rename_i h2
        subst h2
        simpa [Table.risingFrom] using h
      · simp only [Table.risingFrom, Bool.and_eq_true, decide_eq_true_eq]
        exact ⟨h.1, ih (by omega) h.2⟩

theorem Table.rising_put {t : Table β} {k : Nat} {v : β} (h : Table.rising t = true) : Table.rising (Table.put t k v) = true :=
  Table.risingFrom_put (Nat.zero_le k) h

theorem Table.risingFrom_filter {t : Table β} {lo : Nat} (p : Nat × β → Bool) (h : Table.risingFrom lo t = true) :
    Table.risingFrom lo (t.filter p) = true := by
  induction t generalizing lo with
  | nil => rfl
  | cons e t ih =>
    obtain ⟨k, v⟩ := e
    simp only [Table.risingFrom, Bool.and_eq_true, decide_eq_true_eq] at h
    rw [List.filter_cons]
    split
    · simp only [Table.risingFrom, Bool.and_eq_true, decide_eq_true_eq]
      exact ⟨h.1, ih h.2⟩
    · exact ih (Table.risingFrom_mono (by omega) h.2)

theorem Table.drop_eq_filter (t : Table β) (k : Nat) : Table.drop t k = t.filter fun e => decide (e.1 ≠ k) := by
  induction t with
  | nil => rfl
  | cons e t ih =>
    obtain ⟨k', v⟩ := e
    unfold Table.drop
    split <;> simp_all

theorem Table.rising_drop {t : Table β} {k : Nat} (h : Table.rising t = true) : Table.rising (Table.drop t k) = true := by
  rw [Table.drop_eq_filter]; exact Table.risingFrom_filter _ h

theorem Table.risingFrom_each {γ : Type} {t : Table β} {lo : Nat} (f : Nat → β → γ) (h : Table.risingFrom lo t = true) :
    Table.risingFrom lo (t.map fun e => (e.1, f e.1 e.2)) = true := by
  induction t generalizing lo with
  | nil => rfl
  | cons e t ih =>
    simp only [Table.risingFrom, Bool.and_eq_true, decide_eq_true_eq, List.map_cons] at h ⊢
    exact ⟨h.1, ih h.2⟩

theorem Table.rising_each {t : Table β} {f : Nat → β → β} (h : Table.rising t = true) : Table.rising (Table.each t f) = true :=
  Table.risingFrom_each f h

/-! Reads after writes. -/

@[simp] theorem Table.find?_put_self (t : Table β) (k : Nat) (v : β) : Table.find? (Table.put t k v) k = some v := by
  induction t with
  | nil => simp [Table.put, Table.find?]
  | cons e t ih =>
    obtain ⟨k', v'⟩ := e
    unfold Table.put
    split
    · simp [Table.find?]
    · split
      · simp [Table.find?]
      · rename_i h1 h2
        simp [Table.find?, ih, Ne.symm h2]

theorem Table.find?_put_other (t : Table β) {k j : Nat} (v : β) (h : k ≠ j) : Table.find? (Table.put t k v) j = Table.find? t j := by
  induction t with
  | nil => simp [Table.put, Table.find?, h]
  | cons e t ih =>
    obtain ⟨k', v'⟩ := e
    unfold Table.put
    split
    · simp [Table.find?, h]
    · split
      · rename_i h2
        simp [Table.find?, h, ← h2]
      · simp [Table.find?, ih]

@[simp] theorem Table.findD_put_self (t : Table β) (k : Nat) (v d : β) : Table.findD (Table.put t k v) k d = v := by
  simp [Table.findD]

theorem Table.findD_put_other (t : Table β) {k j : Nat} (v d : β) (h : k ≠ j) :
    Table.findD (Table.put t k v) j d = Table.findD t j d := by
  simp [Table.findD, Table.find?_put_other t v h]

@[simp] theorem Table.find?_drop_self (t : Table β) (k : Nat) : Table.find? (Table.drop t k) k = none := by
  induction t with
  | nil => rfl
  | cons e t ih =>
    obtain ⟨k', v⟩ := e
    unfold Table.drop
    split
    · exact ih
    · rename_i h
      simp [Table.find?, h, ih]

theorem Table.find?_drop_other (t : Table β) {k j : Nat} (h : k ≠ j) : Table.find? (Table.drop t k) j = Table.find? t j := by
  induction t with
  | nil => rfl
  | cons e t ih =>
    obtain ⟨k', v⟩ := e
    unfold Table.drop
    split
    · rename_i h2
      have : k' ≠ j := by omega
      simp [Table.find?, ih, this]
    · simp [Table.find?, ih]

/-! Memory. -/

theorem Table.all_put {t : Table β} {k : Nat} {v : β} (p : Nat × β → Bool) (hv : p (k, v) = true) (h : t.all p = true) :
    (Table.put t k v).all p = true := by
  induction t with
  | nil => simp [Table.put, hv]
  | cons e t ih =>
    obtain ⟨k', v'⟩ := e
    simp only [List.all_cons, Bool.and_eq_true] at h
    unfold Table.put
    split
    · simp only [List.all_cons, Bool.and_eq_true]; exact ⟨hv, h.1, h.2⟩
    · split
      · simp only [List.all_cons, Bool.and_eq_true]; exact ⟨hv, h.2⟩
      · simp only [List.all_cons, Bool.and_eq_true]; exact ⟨h.1, ih h.2⟩

theorem Memory.wf_filter {m : Memory} (p : Host.Cell → Bool) (h : Memory.wf m = true) : Memory.wf (m.filter p) = true := by
  simp only [Memory.wf, Bool.and_eq_true] at h ⊢
  refine ⟨Table.risingFrom_filter p h.1, ?_⟩
  rw [List.all_eq_true] at h ⊢
  intro x hx
  exact h.2 x (List.mem_filter.1 hx).1

theorem Memory.wf_write {m : Memory} {a : Nat} {b : Byte} (h : Memory.wf m = true) : Memory.wf (Memory.write m a b) = true := by
  unfold Memory.write
  split
  · rw [Table.drop_eq_filter]; exact Memory.wf_filter _ h
  · rename_i hb
    simp only [Memory.wf, Bool.and_eq_true] at h ⊢
    exact ⟨Table.rising_put h.1, Table.all_put _ (by simpa using hb) h.2⟩

theorem Memory.wf_store {m : Memory} {a : Nat} {bs : Bytes} (h : Memory.wf m = true) : Memory.wf (Memory.store m a bs) = true := by
  induction bs generalizing m a with
  | nil => exact h
  | cons b bs ih => exact ih (Memory.wf_write h)

theorem Memory.wf_clear {m : Memory} {lo hi : Nat} (h : Memory.wf m = true) : Memory.wf (Memory.clear m lo hi) = true :=
  Memory.wf_filter _ h

@[simp] theorem Memory.wf_nil : Memory.wf [] = true := rfl

@[simp] theorem Memory.read_write_self (m : Memory) (a : Nat) (b : Byte) : Memory.read (Memory.write m a b) a = b := by
  unfold Memory.read Memory.write
  split
  · rename_i h; simp [Table.findD, h]
  · simp

theorem Memory.read_write_other (m : Memory) {a c : Nat} (b : Byte) (h : a ≠ c) :
    Memory.read (Memory.write m a b) c = Memory.read m c := by
  unfold Memory.read Memory.write
  split
  · simp [Table.findD, Table.find?_drop_other m h]
  · exact Table.findD_put_other m b _ h

/-- A byte outside the stored bytes reads as before. -/
theorem Memory.read_store_outside (m : Memory) (a : Nat) (bs : Bytes) (c : Nat) (h : c < a ∨ a + bs.length ≤ c) :
    Memory.read (Memory.store m a bs) c = Memory.read m c := by
  induction bs generalizing m a with
  | nil => rfl
  | cons b bs ih =>
    simp only [List.length_cons] at h
    rw [Memory.store, ih _ _ (by omega), Memory.read_write_other _ _ (by omega)]

/-- A stored byte reads as it was stored. -/
theorem Memory.read_store_inside (m : Memory) (a : Nat) (bs : Bytes) (i : Nat) (h : i < bs.length) :
    Memory.read (Memory.store m a bs) (a + i) = bs[i] := by
  induction bs generalizing m a i with
  | nil => simp at h
  | cons b bs ih =>
    cases i with
    | zero => rw [Memory.store, Memory.read_store_outside _ _ _ _ (by omega)]; simp
    | succ i =>
      have := ih (Memory.write m a b) (a + 1) i (by simpa using h)
      rw [Memory.store]
      simpa [Nat.add_assoc, Nat.add_comm 1 i] using this

/-! The least free key. -/

/-- The number that `fresh` gives is not below its start. -/
theorem Table.fresh_ge {β : Type} (t : Table β) (f n : Nat) : n ≤ Table.fresh t f n := by
  induction f generalizing n with
  | zero => exact Nat.le_refl _
  | succ f ih =>
    unfold Table.fresh
    split
    · exact Nat.le_of_succ_le (ih _)
    · exact Nat.le_refl _

/-- The number that `fresh` gives is free, where the fuel reaches it. -/
theorem Table.fresh_free {β : Type} (t : Table β) (f n : Nat) (h : Table.fresh t f n < n + f) :
    Table.has t (Table.fresh t f n) = false := by
  induction f generalizing n with
  | zero => simp [Table.fresh] at h
  | succ f ih =>
    unfold Table.fresh at h ⊢
    split
    next hc => rw [if_pos hc] at h; exact ih _ (by omega)
    next hc => simpa using hc

/-- No free number lies below the one that `fresh` gives. -/
theorem Table.fresh_le {β : Type} (t : Table β) (f n c : Nat) (h1 : n ≤ c) (h2 : c < n + f) (h : Table.has t c = false) :
    Table.fresh t f n ≤ c := by
  induction f generalizing n with
  | zero => omega
  | succ f ih =>
    unfold Table.fresh
    split
    next hc =>
      have : n ≠ c := by intro e; subst e; simp [h] at hc
      exact ih _ (by omega) (by omega)
    next hc => exact h1

end Sys2Proof
end

