-- ==== Sys2Proof/Laws/Frame.lean ====
section
/-! SUPPORT. What an operation leaves alone: `Frame m s t` says that `t` keeps of `s` what `Keeps` says and every part whose bit in the mask `m`
is 0. Here stand the rules by which it passes through what meanings are made of. A lemma `X_frame` of the files after this one says of the
operation `X` which parts it can change: those of its mask. -/

namespace Sys2Proof.Machine

/-- The bit of a part in a mask. -/
def Part.index : Part → Nat
  | .chrono => 0
  | .regs => 1
  | .pages => 2
  | .notices => 3
  | .pins => 4
  | .power => 5
  | .leave => 6
  | .cal => 7
  | .mem => 8
  | .tiers => 9
  | .host => 10
  | .work => 11
  | .rennet => 12
  | .tide => 13
  | .node => 14
  | .fabric => 15
  | .twin => 16
  | .strainer => 17
  | .dlog => 18
  | .churn => 19
  | .ladle => 20
  | .herd => 21
  | .hosted => 22
  | .serve => 23
  | .rolar => 24
  | .stores => 25
  | .faults => 26
  | .fatalAt => 27
  | .platformEvents => 28

/-- What `Keeps` says, and every part whose bit in `m` is 0 is the same. -/
structure Frame (m : Nat) (s t : State) : Prop where
  keeps : Keeps s t
  parts : ∀ p : Part, m.testBit p.index = false → p.same s t

theorem Keeps.refl (s : State) : Keeps s s := ⟨rfl, ⟨[], by simp⟩, Nat.le_refl _, id⟩

theorem Keeps.trans {a b c : State} (h : Keeps a b) (g : Keeps b c) : Keeps a c := by
  refine ⟨g.pending.trans h.pending, ?_, Nat.le_trans h.free g.free, fun x => g.canonical (h.canonical x)⟩
  obtain ⟨x, hx⟩ := h.out
  obtain ⟨y, hy⟩ := g.out
  exact ⟨x ++ y, by rw [hy, hx, List.append_assoc]⟩

theorem Part.same_refl (p : Part) (s : State) : p.same s s := by cases p <;> rfl

theorem Part.same_trans {p : Part} {a b c : State} (h : p.same a b) (g : p.same b c) : p.same a c := by
  cases p <;> exact Eq.trans g h

theorem Frame.refl {m : Nat} (s : State) : Frame m s s := ⟨Keeps.refl s, fun p _ => p.same_refl s⟩

theorem Frame.trans {m : Nat} {a b c : State} (h : Frame m a b) (g : Frame m b c) : Frame m a c :=
  ⟨h.keeps.trans g.keeps, fun p hp => Part.same_trans (h.parts p hp) (g.parts p hp)⟩

/-! Masks. -/

theorem mask_sub {a b m : Nat} (h : a ||| b = b) (g : b ||| m = m) : a ||| m = m := by rw [← g, ← Nat.or_assoc, h]

theorem mask_bit {a m i : Nat} (h : a ||| m = m) (hi : a.testBit i = true) : m.testBit i = true := by rw [← h, Nat.testBit_or, hi, Bool.true_or]

/-- A value of a part is unchanged, or the mask has the part's bit. -/
structure Kept {α : Sort _} (m n : Nat) (x y : α) : Prop where
  or : x = y ∨ n ||| m = m

theorem Kept.rfl {α : Sort _} {m n : Nat} {x : α} : Kept m n x x := ⟨.inl (Eq.refl _)⟩

theorem Kept.mask {α : Sort _} {m n : Nat} {x y : α} (h : n ||| m = m) : Kept m n x y := ⟨.inr h⟩

theorem Kept.get {α : Sort _} {m n i : Nat} {x y : α} (k : Kept m n x y) (hn : n.testBit i = true) (h : m.testBit i = false) : x = y := by
  cases k.or with
  | inl e => exact e
  | inr e => rw [mask_bit e hn] at h; cases h

/-! Structure. -/

theorem Frame.ite {m : Nat} {s0 a b : State} {c : Prop} [Decidable c] (h : Frame m s0 a) (g : Frame m s0 b) : Frame m s0 (if c then a else b) := by
  split
  · exact h
  · exact g

theorem Frame.foldl {m : Nat} {α : Type} {s0 s : State} {f : State → α → State} {l : List α}
    (hf : ∀ s x, Frame m s0 s → Frame m s0 (f s x)) (h : Frame m s0 s) : Frame m s0 (l.foldl f s) := by
  induction l generalizing s with
  | nil => exact h
  | cons x l ih => exact ih (hf s x h)

theorem Frame.foldlFst {m : Nat} {α β : Type} {s0 : State} {p : State × β} {f : State × β → α → State × β} {l : List α}
    (hf : ∀ p x, Frame m s0 p.1 → Frame m s0 (f p x).1) (h : Frame m s0 p.1) : Frame m s0 (l.foldl f p).1 := by
  induction l generalizing p with
  | nil => exact h
  | cons x l ih => exact ih (hf p x h)

theorem Frame.foldlSnd {m : Nat} {α β : Type} {s0 : State} {p : β × State} {f : β × State → α → β × State} {l : List α}
    (hf : ∀ p x, Frame m s0 p.2 → Frame m s0 (f p x).2) (h : Frame m s0 p.2) : Frame m s0 (l.foldl f p).2 := by
  induction l generalizing p with
  | nil => exact h
  | cons x l ih => exact ih (hf p x h)

/-- A fold whose states stand in a part `π` of what it carries. -/
theorem Frame.foldlOn {m : Nat} {α β : Type} {s0 : State} (π : β → State) {p : β} {f : β → α → β} {l : List α}
    (hf : ∀ p x, Frame m s0 (π p) → Frame m s0 (π (f p x))) (h : Frame m s0 (π p)) : Frame m s0 (π (l.foldl f p)) := by
  induction l generalizing p with
  | nil => exact h
  | cons x l ih => exact ih (hf p x h)

/-- What an optional result keeps: every state that it holds. -/
structure FrameOpt {α : Type} (m : Nat) (s0 : State) (π : α → State) (o : Option α) : Prop where
  holds : ∀ a, o = some a → Frame m s0 (π a)

theorem FrameOpt.none {m : Nat} {α : Type} {s0 : State} {π : α → State} : FrameOpt m s0 π none := ⟨fun _ h => by cases h⟩

theorem FrameOpt.some {m : Nat} {α : Type} {s0 : State} {π : α → State} {a : α} (h : Frame m s0 (π a)) : FrameOpt m s0 π (some a) :=
  ⟨fun _ e => by cases e; exact h⟩

theorem FrameOpt.some' {m : Nat} {s0 a : State} (h : Frame m s0 a) : FrameOpt m s0 id (Option.some a) := FrameOpt.some h

theorem FrameOpt.get {m : Nat} {α : Type} {s0 : State} {π : α → State} {o : Option α} {a : α} (e : o = Option.some a) (h : FrameOpt m s0 π o) :
    Frame m s0 (π a) := h.holds a e

theorem FrameOpt.getD {m : Nat} {s0 d : State} {o : Option State} (h : FrameOpt m s0 id o) (g : Frame m s0 d) : Frame m s0 (o.getD d) := by
  cases o with
  | none => exact g
  | some a => exact h.holds a rfl

theorem FrameOpt.ite {m : Nat} {α : Type} {s0 : State} {π : α → State} {a b : Option α} {c : Prop} [Decidable c] (h : FrameOpt m s0 π a)
    (g : FrameOpt m s0 π b) : FrameOpt m s0 π (if c then a else b) := by
  split
  · exact h
  · exact g

theorem FrameOpt.map {m : Nat} {α β : Type} {s0 : State} {π : β → State} {f : α → β} {o : Option α}
    (h : ∀ a, Frame m s0 (π (f a))) : FrameOpt m s0 π (o.map f) := by
  cases o with
  | none => exact FrameOpt.none
  | some a => exact FrameOpt.some (h a)

theorem FrameOpt.mapFrame {m : Nat} {α β : Type} {s0 : State} {π : β → State} {ρ : α → State} {f : α → β} {o : Option α} (ho : FrameOpt m s0 ρ o)
    (h : ∀ a, Frame m s0 (ρ a) → Frame m s0 (π (f a))) : FrameOpt m s0 π (o.map f) := by
  cases o with
  | none => exact FrameOpt.none
  | some a => exact FrameOpt.some (h a (ho.holds a rfl))

theorem FrameOpt.mapFrame' {m : Nat} {β : Type} {s0 : State} {π : β → State} {f : State → β} {o : Option State} (ho : FrameOpt m s0 id o)
    (h : ∀ a, Frame m s0 a → Frame m s0 (π (f a))) : FrameOpt m s0 π (o.map f) := FrameOpt.mapFrame ho h

theorem FrameOpt.bindFrame {m : Nat} {α β : Type} {s0 : State} {π : β → State} {ρ : α → State} {f : α → Option β} {o : Option α} (ho : FrameOpt m s0 ρ o)
    (h : ∀ a, Frame m s0 (ρ a) → FrameOpt m s0 π (f a)) : FrameOpt m s0 π (o.bind f) := by
  cases o with
  | none => exact FrameOpt.none
  | some a => exact h a (ho.holds a rfl)

theorem FrameOpt.bindFrame' {m : Nat} {β : Type} {s0 : State} {π : β → State} {f : State → Option β} {o : Option State} (ho : FrameOpt m s0 id o)
    (h : ∀ a, Frame m s0 a → FrameOpt m s0 π (f a)) : FrameOpt m s0 π (o.bind f) := FrameOpt.bindFrame ho h

theorem FrameOpt.or {m : Nat} {α : Type} {s0 : State} {π : α → State} {a b : Option α} (h : FrameOpt m s0 π a) (g : FrameOpt m s0 π b) :
    FrameOpt m s0 π (a.or b) := by
  cases a with
  | none => exact g
  | some a => exact h

theorem FrameOpt.findSome {m : Nat} {α β : Type} {s0 : State} {π : β → State} {f : α → Option β} {l : List α} (h : ∀ a, FrameOpt m s0 π (f a)) :
    FrameOpt m s0 π (l.findSome? f) := by
  induction l with
  | nil => exact FrameOpt.none
  | cons a l ih =>
    rw [List.findSome?_cons]
    split
    · rename_i b e
      exact FrameOpt.some ((h a).holds b e)
    · exact ih

theorem FrameOpt.foldl {m : Nat} {α β : Type} {s0 : State} {π : β → State} {f : Option β → α → Option β} {l : List α} {o : Option β}
    (hf : ∀ o x, FrameOpt m s0 π o → FrameOpt m s0 π (f o x)) (h : FrameOpt m s0 π o) : FrameOpt m s0 π (l.foldl f o) := by
  induction l generalizing o with
  | nil => exact h
  | cons x l ih => exact ih (hf o x h)

theorem Frame.elim {m : Nat} {α : Type} {s0 d : State} {o : Option α} {f : α → State} (hf : ∀ a, Frame m s0 (f a)) (h : Frame m s0 d) :
    Frame m s0 (o.elim d f) := by
  cases o with
  | none => exact h
  | some a => exact hf a

/-- What an access keeps. -/
structure FrameGot {α : Type} (m : Nat) (s0 : State) (π : α → State) (g : Got α) : Prop where
  holds : ∀ a, g = .ok a → Frame m s0 (π a)

theorem FrameGot.ok {m : Nat} {α : Type} {s0 : State} {π : α → State} {a : α} (h : Frame m s0 (π a)) : FrameGot m s0 π (.ok a) :=
  ⟨fun _ e => by cases e; exact h⟩

theorem FrameGot.ok' {m : Nat} {s0 a : State} (h : Frame m s0 a) : FrameGot m s0 id (.ok a) := FrameGot.ok h

theorem FrameGot.fail {m : Nat} {α : Type} {s0 : State} {π : α → State} {x y : Nat} : FrameGot m s0 π (.fail x y) := ⟨fun _ e => by cases e⟩

theorem FrameGot.need {m : Nat} {α : Type} {s0 : State} {π : α → State} {f : Far} {x y : Nat} : FrameGot m s0 π (.need f x y) :=
  ⟨fun _ e => by cases e⟩

theorem FrameOpt.get' {m : Nat} {s0 t : State} {o : Option State} (e : o = Option.some t) (h : FrameOpt m s0 id o) : Frame m s0 t := h.holds t e

theorem FrameOpt.getFst {m : Nat} {α : Type} {s0 : State} {o : Option (State × α)} {p : State × α} (e : o = Option.some p) (h : FrameOpt m s0 Prod.fst o) :
    Frame m s0 p.1 := h.holds p e

theorem FrameGot.getFst {m : Nat} {α : Type} {s0 : State} {o : Got (State × α)} {p : State × α} (e : o = .ok p) (h : FrameGot m s0 Prod.fst o) :
    Frame m s0 p.1 := h.holds p e

theorem FrameGot.get' {m : Nat} {s0 t : State} {o : Got State} (e : o = .ok t) (h : FrameGot m s0 id o) : Frame m s0 t := h.holds t e

theorem FrameGot.get {m : Nat} {α : Type} {s0 : State} {π : α → State} {g : Got α} {a : α} (e : g = .ok a) (h : FrameGot m s0 π g) :
    Frame m s0 (π a) := h.holds a e

theorem FrameGot.ite {m : Nat} {α : Type} {s0 : State} {π : α → State} {a b : Got α} {c : Prop} [Decidable c] (h : FrameGot m s0 π a)
    (g : FrameGot m s0 π b) : FrameGot m s0 π (if c then a else b) := by
  split
  · exact h
  · exact g

theorem FrameGot.bind {m : Nat} {α β : Type} {s0 : State} {π : β → State} {g : Got α} {f : α → Got β}
    (h : ∀ a, FrameGot m s0 π (f a)) : FrameGot m s0 π (g.bind f) := by
  cases g with
  | ok a => exact h a
  | fail x y => exact FrameGot.fail
  | need n a l => exact FrameGot.need

/-- An access whose value is a state that the rest starts from. -/
theorem FrameGot.bindFrame {m : Nat} {α β : Type} {s0 : State} {π : β → State} {ρ : α → State} {g : Got α} {f : α → Got β}
    (hg : FrameGot m s0 ρ g) (h : ∀ a, Frame m s0 (ρ a) → FrameGot m s0 π (f a)) : FrameGot m s0 π (g.bind f) := by
  cases g with
  | ok a => exact h a (hg.holds a rfl)
  | fail x y => exact FrameGot.fail
  | need n a l => exact FrameGot.need

theorem FrameGot.bindFrame' {m : Nat} {β : Type} {s0 : State} {π : β → State} {g : Got State} {f : State → Got β}
    (hg : FrameGot m s0 id g) (h : ∀ a, Frame m s0 a → FrameGot m s0 π (f a)) : FrameGot m s0 π (g.bind f) := FrameGot.bindFrame hg h

theorem FrameGot.foldl {m : Nat} {α β : Type} {s0 : State} {π : β → State} {f : Got β → α → Got β} {l : List α} {o : Got β}
    (hf : ∀ o x, FrameGot m s0 π o → FrameGot m s0 π (f o x)) (h : FrameGot m s0 π o) : FrameGot m s0 π (l.foldl f o) := by
  induction l generalizing o with
  | nil => exact h
  | cons x l ih => exact ih (hf o x h)

/-- What a stage's work keeps. -/
structure FrameRan (m : Nat) (s0 : State) (r : Ran) : Prop where
  ofDone : ∀ s b, r = .done s b → Frame m s0 s
  ofFailed : ∀ s x y, r = .failed s x y → Frame m s0 s

theorem FrameRan.done {m : Nat} {s0 s : State} {b : Bool} (h : Frame m s0 s) : FrameRan m s0 (.done s b) :=
  ⟨fun _ _ e => by cases e; exact h, fun _ _ _ e => by cases e⟩

theorem FrameRan.failed {m : Nat} {s0 s : State} {x y : Nat} (h : Frame m s0 s) : FrameRan m s0 (.failed s x y) :=
  ⟨fun _ _ e => (by cases e), fun _ _ _ e => (by cases e; exact h)⟩

theorem FrameRan.need {m : Nat} {s0 : State} {f : Far} {x y : Nat} : FrameRan m s0 (.need f x y) :=
  ⟨fun _ _ e => (by cases e), fun _ _ _ e => (by cases e)⟩

theorem FrameRan.getDone {m : Nat} {s0 s : State} {r : Ran} {b : Bool} (e : r = .done s b) (h : FrameRan m s0 r) : Frame m s0 s := h.ofDone _ _ e

theorem FrameRan.getFailed {m : Nat} {s0 s : State} {r : Ran} {x y : Nat} (e : r = .failed s x y) (h : FrameRan m s0 r) : Frame m s0 s :=
  h.ofFailed _ _ _ e

theorem FrameRan.ite {m : Nat} {s0 : State} {a b : Ran} {c : Prop} [Decidable c] (h : FrameRan m s0 a) (g : FrameRan m s0 b) :
    FrameRan m s0 (if c then a else b) := by
  split
  · exact h
  · exact g

theorem FrameRan.with {m : Nat} {α : Type} {s0 s : State} {g : Got α} {f : α → Ran} (hf : ∀ a, FrameRan m s0 (f a)) (h : Frame m s0 s) :
    FrameRan m s0 (Ran.with s g f) := by
  cases g with
  | ok a => exact hf a
  | fail x y => exact FrameRan.failed h
  | need n a l => exact FrameRan.need

/-- Work that goes on from the state that an access gives. -/
theorem FrameRan.withFrame {m : Nat} {α : Type} {s0 s : State} {π : α → State} {g : Got α} {f : α → Ran} (hg : FrameGot m s0 π g)
    (hf : ∀ a, Frame m s0 (π a) → FrameRan m s0 (f a)) (h : Frame m s0 s) : FrameRan m s0 (Ran.with s g f) := by
  cases g with
  | ok a => exact hf a (hg.holds a rfl)
  | fail x y => exact FrameRan.failed h
  | need n a l => exact FrameRan.need

theorem FrameRan.withFrame' {m : Nat} {s0 s : State} {g : Got State} {f : State → Ran} (hg : FrameGot m s0 id g)
    (hf : ∀ a, Frame m s0 a → FrameRan m s0 (f a)) (h : Frame m s0 s) : FrameRan m s0 (Ran.with s g f) := FrameRan.withFrame hg hf h

/-- What a meaning keeps: the next state, where there is one. -/
structure FrameOut (m : Nat) (s0 : State) (o : Host.Outcome State Fault Refusal) : Prop where
  holds : ∀ t, o = .next t → Frame m s0 t

theorem FrameOut.next {m : Nat} {s0 t : State} (h : Frame m s0 t) : FrameOut m s0 (.next t) := ⟨fun _ e => by cases e; exact h⟩

theorem FrameOut.ite {m : Nat} {s0 : State} {a b : Host.Outcome State Fault Refusal} {c : Prop} [Decidable c] (h : FrameOut m s0 a)
    (g : FrameOut m s0 b) : FrameOut m s0 (if c then a else b) := by
  split
  · exact h
  · exact g

theorem FrameOut.fault {m : Nat} {s0 : State} {f : Fault} : FrameOut m s0 (.fault f) := ⟨fun _ e => by cases e⟩

theorem Frame.fstEq {m : Nat} {α : Type} {s0 t : State} {p : State × α} {b : α} (e : p = (t, b)) (h : Frame m s0 p.1) : Frame m s0 t := by
  subst e; exact h

theorem Frame.sndEq {m : Nat} {α : Type} {s0 t : State} {p : α × State} {b : α} (e : p = (b, t)) (h : Frame m s0 p.2) : Frame m s0 t := by
  subst e; exact h

theorem Frame.ofId {m : Nat} {s0 s : State} (h : Frame m s0 s) : Frame m s0 (id s) := h

theorem Frame.ofEq {m : Nat} {s0 x v : State} (e : x = v) (h : Frame m s0 v) : Frame m s0 x := e ▸ h

theorem Frame.ofEq1 {m : Nat} {α : Type} {s0 : State} {x v : State × α} (e : x = v) (h : Frame m s0 v.1) : Frame m s0 x.1 := e ▸ h

theorem Frame.ofEq2 {m : Nat} {α : Type} {s0 : State} {x v : α × State} (e : x = v) (h : Frame m s0 v.2) : Frame m s0 x.2 := e ▸ h

theorem Frame.ofEq22 {m : Nat} {α β : Type} {s0 : State} {x v : α × β × State} (e : x = v) (h : Frame m s0 v.2.2) : Frame m s0 x.2.2 := e ▸ h

theorem Frame.ofEqS {m : Nat} {s0 : State} {x v : StepDone} (e : x = v) (h : Frame m s0 v.s) : Frame m s0 x.s := e ▸ h

theorem FrameGot.ofEq {m : Nat} {s0 : State} {x v : Got State} (e : x = v) (h : FrameGot m s0 id v) : FrameGot m s0 id x := e ▸ h

theorem FrameOpt.ofEq {m : Nat} {s0 : State} {x v : Option State} (e : x = v) (h : FrameOpt m s0 id v) : FrameOpt m s0 id x := e ▸ h

theorem FrameRan.ofEq {m : Nat} {s0 : State} {x v : Ran} (e : x = v) (h : FrameRan m s0 v) : FrameRan m s0 x := e ▸ h

/-! Changes of parts. -/

/-- A step that keeps what `Keeps` says and each part but those of the mask. -/
theorem Frame.step {m : Nat} {s0 s t : State} (hk : Keeps s t) (hchrono : Kept m 1 t.chrono s.chrono) (hregs : Kept m 2 t.regs s.regs) (hpages : Kept m 4 t.pages s.pages) (hnotices : Kept m 8 t.notices s.notices) (hpins : Kept m 16 t.pins s.pins) (hpower : Kept m 32 t.power s.power) (hleave : Kept m 64 t.leave s.leave) (hcal : Kept m 128 t.cal s.cal) (hmem : Kept m 256 t.mem s.mem) (htiers : Kept m 512 t.tiers s.tiers) (hhost : Kept m 1024 t.host s.host) (hwork : Kept m 2048 t.work s.work) (hrennet : Kept m 4096 t.rennet s.rennet) (htide : Kept m 8192 t.tide s.tide) (hnode : Kept m 16384 t.node s.node) (hfabric : Kept m 32768 t.fabric s.fabric) (htwin : Kept m 65536 t.twin s.twin) (hstrainer : Kept m 131072 t.strainer s.strainer) (hdlog : Kept m 262144 t.dlog s.dlog) (hchurn : Kept m 524288 t.churn s.churn) (hladle : Kept m 1048576 t.ladle s.ladle) (hherd : Kept m 2097152 t.herd s.herd) (hhosted : Kept m 4194304 t.hosted s.hosted) (hserve : Kept m 8388608 t.serve s.serve) (hrolar : Kept m 16777216 t.rolar s.rolar) (hstores : Kept m 33554432 t.stores s.stores) (hfaults : Kept m 67108864 t.faults s.faults) (hfatalAt : Kept m 134217728 t.fatalAt s.fatalAt) (hplatformEvents : Kept m 268435456 t.platformEvents s.platformEvents)
    (h : Frame m s0 s) : Frame m s0 t := by
  refine h.trans ⟨hk, fun p hp => ?_⟩
  cases p
  · exact hchrono.get (by decide) hp
  · exact hregs.get (by decide) hp
  · exact hpages.get (by decide) hp
  · exact hnotices.get (by decide) hp
  · exact hpins.get (by decide) hp
  · exact hpower.get (by decide) hp
  · exact hleave.get (by decide) hp
  · exact hcal.get (by decide) hp
  · exact hmem.get (by decide) hp
  · exact htiers.get (by decide) hp
  · exact hhost.get (by decide) hp
  · exact hwork.get (by decide) hp
  · exact hrennet.get (by decide) hp
  · exact htide.get (by decide) hp
  · exact hnode.get (by decide) hp
  · exact hfabric.get (by decide) hp
  · exact htwin.get (by decide) hp
  · exact hstrainer.get (by decide) hp
  · exact hdlog.get (by decide) hp
  · exact hchurn.get (by decide) hp
  · exact hladle.get (by decide) hp
  · exact hherd.get (by decide) hp
  · exact hhosted.get (by decide) hp
  · exact hserve.get (by decide) hp
  · exact hrolar.get (by decide) hp
  · exact hstores.get (by decide) hp
  · exact hfaults.get (by decide) hp
  · exact hfatalAt.get (by decide) hp
  · exact hplatformEvents.get (by decide) hp

/-- A change of parts that `Keeps` does not speak of. -/
theorem Keeps.upd {s t : State} (hp : t.pending = s.pending) (ho : t.out = s.out) (hf : s.free ≤ t.free)
    (hm : Memory.wf s.mem = true → Memory.wf t.mem = true) (hr : Table.rising s.regs = true → Table.rising t.regs = true)
    (hh : Memory.wf s.host.ringStore = true → Memory.wf t.host.ringStore = true) : Keeps s t := by
  refine ⟨hp, ⟨[], by simp [ho]⟩, hf, ?_⟩
  unfold State.canonical
  simp only [Bool.and_eq_true]
  exact fun x => ⟨⟨hm x.1.1, hh x.1.2⟩, hr x.2⟩

/-- A state whose queue, outputs, open values, registers and memory are those of `s`. -/
theorem Frame.lit {m : Nat} {s0 s : State} {chrono : Nat} {pages : Table PageRun} {notices : Table Notice} {pins : Pins} {power : Power} {leave : Leave} {cal : Cal} {tiers : Mem} {host : HostSide} {work : Work} {rennet : Rennet} {tide : Tide} {node : Node} {fabric : Fabric} {twin : Twin} {strainer : Strainer} {dlog : Dlog} {churn : ChurnSide} {ladle : Ladle} {herd : Herd} {hosted : Hosted} {serve : Serve} {rolar : Rolar} {stores : Table WinStore} {faults : List FaultRec} {fatalAt : Option Nat} {platformEvents : List Nat}
    (hh : host.ringStore = s.host.ringStore) (hchrono : Kept m 1 chrono s.chrono) (hpages : Kept m 4 pages s.pages) (hnotices : Kept m 8 notices s.notices) (hpins : Kept m 16 pins s.pins) (hpower : Kept m 32 power s.power) (hleave : Kept m 64 leave s.leave) (hcal : Kept m 128 cal s.cal) (htiers : Kept m 512 tiers s.tiers) (hhost : Kept m 1024 host s.host) (hwork : Kept m 2048 work s.work) (hrennet : Kept m 4096 rennet s.rennet) (htide : Kept m 8192 tide s.tide) (hnode : Kept m 16384 node s.node) (hfabric : Kept m 32768 fabric s.fabric) (htwin : Kept m 65536 twin s.twin) (hstrainer : Kept m 131072 strainer s.strainer) (hdlog : Kept m 262144 dlog s.dlog) (hchurn : Kept m 524288 churn s.churn) (hladle : Kept m 1048576 ladle s.ladle) (hherd : Kept m 2097152 herd s.herd) (hhosted : Kept m 4194304 hosted s.hosted) (hserve : Kept m 8388608 serve s.serve) (hrolar : Kept m 16777216 rolar s.rolar) (hstores : Kept m 33554432 stores s.stores) (hfaults : Kept m 67108864 faults s.faults) (hfatalAt : Kept m 134217728 fatalAt s.fatalAt) (hplatformEvents : Kept m 268435456 platformEvents s.platformEvents)
    (h : Frame m s0 s) : Frame m s0 ⟨s.pending, chrono, s.free, s.out, s.regs, pages, notices, pins, power, leave, cal, s.mem, tiers, host, work, rennet, tide, node, fabric, twin, strainer, dlog, churn, ladle, herd, hosted, serve, rolar, stores, faults, fatalAt, platformEvents⟩ :=
  Frame.step (s := s) (Keeps.upd rfl rfl (Nat.le_refl _) id id (fun x => hh ▸ x)) hchrono Kept.rfl hpages hnotices hpins hpower hleave hcal Kept.rfl htiers hhost hwork hrennet htide hnode hfabric htwin hstrainer hdlog hchurn hladle hherd hhosted hserve hrolar hstores hfaults hfatalAt hplatformEvents h

/-- The same with all memory lost. -/
theorem Frame.litLost {m : Nat} {s0 s : State} {chrono : Nat} {pages : Table PageRun} {notices : Table Notice} {pins : Pins} {power : Power} {leave : Leave} {cal : Cal} {tiers : Mem} {host : HostSide} {work : Work} {rennet : Rennet} {tide : Tide} {node : Node} {fabric : Fabric} {twin : Twin} {strainer : Strainer} {dlog : Dlog} {churn : ChurnSide} {ladle : Ladle} {herd : Herd} {hosted : Hosted} {serve : Serve} {rolar : Rolar} {stores : Table WinStore} {faults : List FaultRec} {fatalAt : Option Nat} {platformEvents : List Nat}
    (hh : Memory.wf host.ringStore = true) (hchrono : Kept m 1 chrono s.chrono) (hpages : Kept m 4 pages s.pages) (hnotices : Kept m 8 notices s.notices) (hpins : Kept m 16 pins s.pins) (hpower : Kept m 32 power s.power) (hleave : Kept m 64 leave s.leave) (hcal : Kept m 128 cal s.cal) (htiers : Kept m 512 tiers s.tiers) (hhost : Kept m 1024 host s.host) (hwork : Kept m 2048 work s.work) (hrennet : Kept m 4096 rennet s.rennet) (htide : Kept m 8192 tide s.tide) (hnode : Kept m 16384 node s.node) (hfabric : Kept m 32768 fabric s.fabric) (htwin : Kept m 65536 twin s.twin) (hstrainer : Kept m 131072 strainer s.strainer) (hdlog : Kept m 262144 dlog s.dlog) (hchurn : Kept m 524288 churn s.churn) (hladle : Kept m 1048576 ladle s.ladle) (hherd : Kept m 2097152 herd s.herd) (hhosted : Kept m 4194304 hosted s.hosted) (hserve : Kept m 8388608 serve s.serve) (hrolar : Kept m 16777216 rolar s.rolar) (hstores : Kept m 33554432 stores s.stores) (hfaults : Kept m 67108864 faults s.faults) (hfatalAt : Kept m 134217728 fatalAt s.fatalAt) (hplatformEvents : Kept m 268435456 platformEvents s.platformEvents) (hmem : 256 ||| m = m)
    (h : Frame m s0 s) : Frame m s0 ⟨s.pending, chrono, s.free, s.out, s.regs, pages, notices, pins, power, leave, cal, [], tiers, host, work, rennet, tide, node, fabric, twin, strainer, dlog, churn, ladle, herd, hosted, serve, rolar, stores, faults, fatalAt, platformEvents⟩ :=
  Frame.step (s := s) (Keeps.upd rfl rfl (Nat.le_refl _) (fun _ => rfl) id (fun _ => hh)) hchrono Kept.rfl hpages hnotices hpins hpower hleave hcal (Kept.mask hmem) htiers hhost hwork hrennet htide hnode hfabric htwin hstrainer hdlog hchurn hladle hherd hhosted hserve hrolar hstores hfaults hfatalAt hplatformEvents h

/-- The same with open values used. -/
theorem Frame.litUsed {m : Nat} {s0 s : State} {n : Nat} {chrono : Nat} {pages : Table PageRun} {notices : Table Notice} {pins : Pins} {power : Power} {leave : Leave} {cal : Cal} {tiers : Mem} {host : HostSide} {work : Work} {rennet : Rennet} {tide : Tide} {node : Node} {fabric : Fabric} {twin : Twin} {strainer : Strainer} {dlog : Dlog} {churn : ChurnSide} {ladle : Ladle} {herd : Herd} {hosted : Hosted} {serve : Serve} {rolar : Rolar} {stores : Table WinStore} {faults : List FaultRec} {fatalAt : Option Nat} {platformEvents : List Nat}
    (hh : host.ringStore = s.host.ringStore) (hchrono : Kept m 1 chrono s.chrono) (hpages : Kept m 4 pages s.pages) (hnotices : Kept m 8 notices s.notices) (hpins : Kept m 16 pins s.pins) (hpower : Kept m 32 power s.power) (hleave : Kept m 64 leave s.leave) (hcal : Kept m 128 cal s.cal) (htiers : Kept m 512 tiers s.tiers) (hhost : Kept m 1024 host s.host) (hwork : Kept m 2048 work s.work) (hrennet : Kept m 4096 rennet s.rennet) (htide : Kept m 8192 tide s.tide) (hnode : Kept m 16384 node s.node) (hfabric : Kept m 32768 fabric s.fabric) (htwin : Kept m 65536 twin s.twin) (hstrainer : Kept m 131072 strainer s.strainer) (hdlog : Kept m 262144 dlog s.dlog) (hchurn : Kept m 524288 churn s.churn) (hladle : Kept m 1048576 ladle s.ladle) (hherd : Kept m 2097152 herd s.herd) (hhosted : Kept m 4194304 hosted s.hosted) (hserve : Kept m 8388608 serve s.serve) (hrolar : Kept m 16777216 rolar s.rolar) (hstores : Kept m 33554432 stores s.stores) (hfaults : Kept m 67108864 faults s.faults) (hfatalAt : Kept m 134217728 fatalAt s.fatalAt) (hplatformEvents : Kept m 268435456 platformEvents s.platformEvents)
    (h : Frame m s0 s) : Frame m s0 ⟨s.pending, chrono, s.free + n, s.out, s.regs, pages, notices, pins, power, leave, cal, s.mem, tiers, host, work, rennet, tide, node, fabric, twin, strainer, dlog, churn, ladle, herd, hosted, serve, rolar, stores, faults, fatalAt, platformEvents⟩ :=
  Frame.step (s := s) (Keeps.upd rfl rfl (Nat.le_add_right _ _) id id (fun x => hh ▸ x)) hchrono Kept.rfl hpages hnotices hpins hpower hleave hcal Kept.rfl htiers hhost hwork hrennet htide hnode hfabric htwin hstrainer hdlog hchurn hladle hherd hhosted hserve hrolar hstores hfaults hfatalAt hplatformEvents h

theorem State.setWord_frame {m : Nat} {s0 s : State} {fn page off : Nat} {w : Word} (hm : 2 ||| m = m) (h : Frame m s0 s) :
    Frame m s0 (s.setWord fn page off w) :=
  Frame.step (s := s) (Keeps.upd rfl rfl (Nat.le_refl _) id Table.rising_put id) Kept.rfl (Kept.mask hm) Kept.rfl Kept.rfl Kept.rfl Kept.rfl Kept.rfl Kept.rfl Kept.rfl Kept.rfl Kept.rfl Kept.rfl Kept.rfl Kept.rfl Kept.rfl Kept.rfl Kept.rfl Kept.rfl Kept.rfl Kept.rfl Kept.rfl Kept.rfl Kept.rfl Kept.rfl Kept.rfl Kept.rfl Kept.rfl Kept.rfl Kept.rfl h

theorem State.emits_frame {m : Nat} {s0 s : State} {os : List Output} (_hm : 0 ||| m = m) (h : Frame m s0 s) : Frame m s0 (s.emits os) :=
  Frame.step (s := s) ⟨rfl, ⟨os, rfl⟩, Nat.le_refl _, id⟩ Kept.rfl Kept.rfl Kept.rfl Kept.rfl Kept.rfl Kept.rfl Kept.rfl Kept.rfl Kept.rfl Kept.rfl Kept.rfl Kept.rfl Kept.rfl Kept.rfl Kept.rfl Kept.rfl Kept.rfl Kept.rfl Kept.rfl Kept.rfl Kept.rfl Kept.rfl Kept.rfl Kept.rfl Kept.rfl Kept.rfl Kept.rfl Kept.rfl Kept.rfl h

theorem State.emit_frame {m : Nat} {s0 s : State} {o : Output} (_hm : 0 ||| m = m) (h : Frame m s0 s) : Frame m s0 (s.emit o) :=
  Frame.step (s := s) ⟨rfl, ⟨[o], rfl⟩, Nat.le_refl _, id⟩ Kept.rfl Kept.rfl Kept.rfl Kept.rfl Kept.rfl Kept.rfl Kept.rfl Kept.rfl Kept.rfl Kept.rfl Kept.rfl Kept.rfl Kept.rfl Kept.rfl Kept.rfl Kept.rfl Kept.rfl Kept.rfl Kept.rfl Kept.rfl Kept.rfl Kept.rfl Kept.rfl Kept.rfl Kept.rfl Kept.rfl Kept.rfl Kept.rfl Kept.rfl h

theorem State.modHost_ringStore {m : Nat} {s0 s : State} {f : HostSide → HostSide} (hm : 1024 ||| m = m)
    (hf : Memory.wf s.host.ringStore = true → Memory.wf (f s.host).ringStore = true) (h : Frame m s0 s) : Frame m s0 (s.modHost f) :=
  Frame.step (s := s) (Keeps.upd rfl rfl (Nat.le_refl _) id id hf) Kept.rfl Kept.rfl Kept.rfl Kept.rfl Kept.rfl Kept.rfl Kept.rfl Kept.rfl Kept.rfl Kept.rfl (Kept.mask hm) Kept.rfl Kept.rfl Kept.rfl Kept.rfl Kept.rfl Kept.rfl Kept.rfl Kept.rfl Kept.rfl Kept.rfl Kept.rfl Kept.rfl Kept.rfl Kept.rfl Kept.rfl Kept.rfl Kept.rfl Kept.rfl h

theorem State.modHost_frame {m : Nat} {s0 s : State} {f : HostSide → HostSide} (hm : 1024 ||| m = m)
    (hf : (f s.host).ringStore = s.host.ringStore) (h : Frame m s0 s) : Frame m s0 (s.modHost f) :=
  State.modHost_ringStore hm (fun x => hf ▸ x) h

end Sys2Proof.Machine
end

