-- ==== Sys2Proof/Laws/FrameOps.lean ====
section
/-! SUPPORT. Which parts each operation of registers, memory, alarms, links and rings can change: one lemma per operation of Machine/Ops, Access, MemoryOps, LeaveOps, RennetOps, FabricOps, RingOps. -/

namespace Sys2Proof.Machine

open Sys2Proof.Reg

/-! Machine/Ops.lean. -/

theorem State.modPins_frame {m : Nat} {s0 s : State} {a2 : _} (hm : 16 ||| m = m) (h : Frame m s0 s) : Frame m s0 (State.modPins s a2) := by
  unfold State.modPins
  repeat' first
    | with_reducible assumption
    | with_reducible exact Kept.rfl
    | exact Kept.mask (mask_sub rfl hm)
    | with_reducible refine Frame.lit rfl ?_ ?_ ?_ ?_ ?_ ?_ ?_ ?_ ?_ ?_ ?_ ?_ ?_ ?_ ?_ ?_ ?_ ?_ ?_ ?_ ?_ ?_ ?_ ?_ ?_ ?_ ?_ ?_

theorem State.modPower_frame {m : Nat} {s0 s : State} {a2 : _} (hm : 32 ||| m = m) (h : Frame m s0 s) : Frame m s0 (State.modPower s a2) := by
  unfold State.modPower
  repeat' first
    | with_reducible assumption
    | with_reducible exact Kept.rfl
    | exact Kept.mask (mask_sub rfl hm)
    | with_reducible refine Frame.lit rfl ?_ ?_ ?_ ?_ ?_ ?_ ?_ ?_ ?_ ?_ ?_ ?_ ?_ ?_ ?_ ?_ ?_ ?_ ?_ ?_ ?_ ?_ ?_ ?_ ?_ ?_ ?_ ?_

theorem State.modLeave_frame {m : Nat} {s0 s : State} {a2 : _} (hm : 64 ||| m = m) (h : Frame m s0 s) : Frame m s0 (State.modLeave s a2) := by
  unfold State.modLeave
  repeat' first
    | with_reducible assumption
    | with_reducible exact Kept.rfl
    | exact Kept.mask (mask_sub rfl hm)
    | with_reducible refine Frame.lit rfl ?_ ?_ ?_ ?_ ?_ ?_ ?_ ?_ ?_ ?_ ?_ ?_ ?_ ?_ ?_ ?_ ?_ ?_ ?_ ?_ ?_ ?_ ?_ ?_ ?_ ?_ ?_ ?_

theorem State.modCal_frame {m : Nat} {s0 s : State} {a2 : _} (hm : 128 ||| m = m) (h : Frame m s0 s) : Frame m s0 (State.modCal s a2) := by
  unfold State.modCal
  repeat' first
    | with_reducible assumption
    | with_reducible exact Kept.rfl
    | exact Kept.mask (mask_sub rfl hm)
    | with_reducible refine Frame.lit rfl ?_ ?_ ?_ ?_ ?_ ?_ ?_ ?_ ?_ ?_ ?_ ?_ ?_ ?_ ?_ ?_ ?_ ?_ ?_ ?_ ?_ ?_ ?_ ?_ ?_ ?_ ?_ ?_

theorem State.modTiers_frame {m : Nat} {s0 s : State} {a2 : _} (hm : 512 ||| m = m) (h : Frame m s0 s) : Frame m s0 (State.modTiers s a2) := by
  unfold State.modTiers
  repeat' first
    | with_reducible assumption
    | with_reducible exact Kept.rfl
    | exact Kept.mask (mask_sub rfl hm)
    | with_reducible refine Frame.lit rfl ?_ ?_ ?_ ?_ ?_ ?_ ?_ ?_ ?_ ?_ ?_ ?_ ?_ ?_ ?_ ?_ ?_ ?_ ?_ ?_ ?_ ?_ ?_ ?_ ?_ ?_ ?_ ?_

theorem State.modSession_frame {m : Nat} {s0 s : State} {a2 : _} (hm : 1024 ||| m = m) (h : Frame m s0 s) : Frame m s0 (State.modSession s a2) := by
  unfold State.modSession
  repeat' first
    | with_reducible assumption
    | ((try lift_lets -underBinder); intro x; clear_value (e : x = _); (have _f : HostSide := x; subst e))
    | with_reducible exact Kept.rfl
    | exact Kept.mask (mask_sub rfl hm)
    | with_reducible refine Frame.lit rfl ?_ ?_ ?_ ?_ ?_ ?_ ?_ ?_ ?_ ?_ ?_ ?_ ?_ ?_ ?_ ?_ ?_ ?_ ?_ ?_ ?_ ?_ ?_ ?_ ?_ ?_ ?_ ?_

theorem State.modWork_frame {m : Nat} {s0 s : State} {a2 : _} (hm : 2048 ||| m = m) (h : Frame m s0 s) : Frame m s0 (State.modWork s a2) := by
  unfold State.modWork
  repeat' first
    | with_reducible assumption
    | with_reducible exact Kept.rfl
    | exact Kept.mask (mask_sub rfl hm)
    | with_reducible refine Frame.lit rfl ?_ ?_ ?_ ?_ ?_ ?_ ?_ ?_ ?_ ?_ ?_ ?_ ?_ ?_ ?_ ?_ ?_ ?_ ?_ ?_ ?_ ?_ ?_ ?_ ?_ ?_ ?_ ?_

theorem State.modRennet_frame {m : Nat} {s0 s : State} {a2 : _} (hm : 4096 ||| m = m) (h : Frame m s0 s) : Frame m s0 (State.modRennet s a2) := by
  unfold State.modRennet
  repeat' first
    | with_reducible assumption
    | with_reducible exact Kept.rfl
    | exact Kept.mask (mask_sub rfl hm)
    | with_reducible refine Frame.lit rfl ?_ ?_ ?_ ?_ ?_ ?_ ?_ ?_ ?_ ?_ ?_ ?_ ?_ ?_ ?_ ?_ ?_ ?_ ?_ ?_ ?_ ?_ ?_ ?_ ?_ ?_ ?_ ?_

theorem State.modTide_frame {m : Nat} {s0 s : State} {a2 : _} (hm : 8192 ||| m = m) (h : Frame m s0 s) : Frame m s0 (State.modTide s a2) := by
  unfold State.modTide
  repeat' first
    | with_reducible assumption
    | with_reducible exact Kept.rfl
    | exact Kept.mask (mask_sub rfl hm)
    | with_reducible refine Frame.lit rfl ?_ ?_ ?_ ?_ ?_ ?_ ?_ ?_ ?_ ?_ ?_ ?_ ?_ ?_ ?_ ?_ ?_ ?_ ?_ ?_ ?_ ?_ ?_ ?_ ?_ ?_ ?_ ?_

theorem State.modFabric_frame {m : Nat} {s0 s : State} {a2 : _} (hm : 32768 ||| m = m) (h : Frame m s0 s) : Frame m s0 (State.modFabric s a2) := by
  unfold State.modFabric
  repeat' first
    | with_reducible assumption
    | with_reducible exact Kept.rfl
    | exact Kept.mask (mask_sub rfl hm)
    | with_reducible refine Frame.lit rfl ?_ ?_ ?_ ?_ ?_ ?_ ?_ ?_ ?_ ?_ ?_ ?_ ?_ ?_ ?_ ?_ ?_ ?_ ?_ ?_ ?_ ?_ ?_ ?_ ?_ ?_ ?_ ?_

theorem State.modStrainer_frame {m : Nat} {s0 s : State} {a2 : _} (hm : 131072 ||| m = m) (h : Frame m s0 s) : Frame m s0 (State.modStrainer s a2) := by
  unfold State.modStrainer
  repeat' first
    | with_reducible assumption
    | with_reducible exact Kept.rfl
    | exact Kept.mask (mask_sub rfl hm)
    | with_reducible refine Frame.lit rfl ?_ ?_ ?_ ?_ ?_ ?_ ?_ ?_ ?_ ?_ ?_ ?_ ?_ ?_ ?_ ?_ ?_ ?_ ?_ ?_ ?_ ?_ ?_ ?_ ?_ ?_ ?_ ?_

theorem State.modLadle_frame {m : Nat} {s0 s : State} {a2 : _} (hm : 1048576 ||| m = m) (h : Frame m s0 s) : Frame m s0 (State.modLadle s a2) := by
  unfold State.modLadle
  repeat' first
    | with_reducible assumption
    | with_reducible exact Kept.rfl
    | exact Kept.mask (mask_sub rfl hm)
    | with_reducible refine Frame.lit rfl ?_ ?_ ?_ ?_ ?_ ?_ ?_ ?_ ?_ ?_ ?_ ?_ ?_ ?_ ?_ ?_ ?_ ?_ ?_ ?_ ?_ ?_ ?_ ?_ ?_ ?_ ?_ ?_

theorem State.modHerd_frame {m : Nat} {s0 s : State} {a2 : _} (hm : 2097152 ||| m = m) (h : Frame m s0 s) : Frame m s0 (State.modHerd s a2) := by
  unfold State.modHerd
  repeat' first
    | with_reducible assumption
    | with_reducible exact Kept.rfl
    | exact Kept.mask (mask_sub rfl hm)
    | with_reducible refine Frame.lit rfl ?_ ?_ ?_ ?_ ?_ ?_ ?_ ?_ ?_ ?_ ?_ ?_ ?_ ?_ ?_ ?_ ?_ ?_ ?_ ?_ ?_ ?_ ?_ ?_ ?_ ?_ ?_ ?_

theorem State.modServe_frame {m : Nat} {s0 s : State} {a2 : _} (hm : 8388608 ||| m = m) (h : Frame m s0 s) : Frame m s0 (State.modServe s a2) := by
  unfold State.modServe
  repeat' first
    | with_reducible assumption
    | with_reducible exact Kept.rfl
    | exact Kept.mask (mask_sub rfl hm)
    | with_reducible refine Frame.lit rfl ?_ ?_ ?_ ?_ ?_ ?_ ?_ ?_ ?_ ?_ ?_ ?_ ?_ ?_ ?_ ?_ ?_ ?_ ?_ ?_ ?_ ?_ ?_ ?_ ?_ ?_ ?_ ?_

theorem State.modRolar_frame {m : Nat} {s0 s : State} {a2 : _} (hm : 16777216 ||| m = m) (h : Frame m s0 s) : Frame m s0 (State.modRolar s a2) := by
  unfold State.modRolar
  repeat' first
    | with_reducible assumption
    | with_reducible exact Kept.rfl
    | exact Kept.mask (mask_sub rfl hm)
    | with_reducible refine Frame.lit rfl ?_ ?_ ?_ ?_ ?_ ?_ ?_ ?_ ?_ ?_ ?_ ?_ ?_ ?_ ?_ ?_ ?_ ?_ ?_ ?_ ?_ ?_ ?_ ?_ ?_ ?_ ?_ ?_

theorem State.modTwin_frame {m : Nat} {s0 s : State} {a2 : _} (hm : 65536 ||| m = m) (h : Frame m s0 s) : Frame m s0 (State.modTwin s a2) := by
  unfold State.modTwin
  repeat' first
    | with_reducible assumption
    | with_reducible exact Kept.rfl
    | exact Kept.mask (mask_sub rfl hm)
    | with_reducible refine Frame.lit rfl ?_ ?_ ?_ ?_ ?_ ?_ ?_ ?_ ?_ ?_ ?_ ?_ ?_ ?_ ?_ ?_ ?_ ?_ ?_ ?_ ?_ ?_ ?_ ?_ ?_ ?_ ?_ ?_

theorem State.at_frame {m : Nat} {s0 s : State} {a2 : _} (hm : 1 ||| m = m) (h : Frame m s0 s) : Frame m s0 (State.at s a2) := by
  unfold State.at
  repeat' first
    | with_reducible assumption
    | with_reducible exact Kept.rfl
    | exact Kept.mask (mask_sub rfl hm)
    | with_reducible refine Frame.lit rfl ?_ ?_ ?_ ?_ ?_ ?_ ?_ ?_ ?_ ?_ ?_ ?_ ?_ ?_ ?_ ?_ ?_ ?_ ?_ ?_ ?_ ?_ ?_ ?_ ?_ ?_ ?_ ?_

theorem State.useOpen_frame {m : Nat} {s0 s : State} (_hm : 0 ||| m = m) (h : Frame m s0 s) : Frame m s0 (State.useOpen s) := by
  unfold State.useOpen
  repeat' with_reducible first
    | assumption
    | exact Kept.rfl
    | refine Frame.litUsed rfl ?_ ?_ ?_ ?_ ?_ ?_ ?_ ?_ ?_ ?_ ?_ ?_ ?_ ?_ ?_ ?_ ?_ ?_ ?_ ?_ ?_ ?_ ?_ ?_ ?_ ?_ ?_ ?_

theorem State.openNat_frame {m : Nat} {s0 s : State} (_hm : 0 ||| m = m) (h : Frame m s0 s) : Frame m s0 (State.openNat s).2 := by
  unfold State.openNat
  repeat' with_reducible first
    | assumption
    | exact Kept.rfl
    | refine Frame.litUsed rfl ?_ ?_ ?_ ?_ ?_ ?_ ?_ ?_ ?_ ?_ ?_ ?_ ?_ ?_ ?_ ?_ ?_ ?_ ?_ ?_ ?_ ?_ ?_ ?_ ?_ ?_ ?_ ?_

theorem State.openBytes_frame {m : Nat} {s0 s : State} {a2 : _} (_hm : 0 ||| m = m) (h : Frame m s0 s) : Frame m s0 (State.openBytes s a2).2 := by
  unfold State.openBytes
  repeat' with_reducible first
    | assumption
    | exact Kept.rfl
    | refine Frame.litUsed rfl ?_ ?_ ?_ ?_ ?_ ?_ ?_ ?_ ?_ ?_ ?_ ?_ ?_ ?_ ?_ ?_ ?_ ?_ ?_ ?_ ?_ ?_ ?_ ?_ ?_ ?_ ?_ ?_

theorem State.setFldFn_frame {m : Nat} {s0 s : State} {a2 a3 a4 : _} (hm : 2 ||| m = m) (h : Frame m s0 s) : Frame m s0 (State.setFldFn s a2 a3 a4) := by
  unfold State.setFldFn
  repeat' with_reducible first
    | assumption
    | apply State.setWord_frame

theorem State.setFld_frame {m : Nat} {s0 s : State} {a2 a3 : _} (hm : 2 ||| m = m) (h : Frame m s0 s) : Frame m s0 (State.setFld s a2 a3) := by
  unfold State.setFld
  repeat' with_reducible first
    | assumption
    | apply State.setFldFn_frame

theorem State.countFn_frame {m : Nat} {s0 s : State} {a2 a3 a4 : _} (hm : 2 ||| m = m) (h : Frame m s0 s) : Frame m s0 (State.countFn s a2 a3 a4) := by
  unfold State.countFn
  repeat' with_reducible first
    | assumption
    | apply State.setFldFn_frame

theorem State.count_frame {m : Nat} {s0 s : State} {a2 a3 : _} (hm : 2 ||| m = m) (h : Frame m s0 s) : Frame m s0 (State.count s a2 a3) := by
  unfold State.count
  repeat' with_reducible first
    | assumption
    | apply State.countFn_frame

theorem State.setPage_frame {m : Nat} {s0 s : State} {a2 a3 a4 : _} (hm : 4 ||| m = m) (h : Frame m s0 s) : Frame m s0 (State.setPage s a2 a3 a4) := by
  unfold State.setPage
  repeat' first
    | with_reducible assumption
    | with_reducible exact Kept.rfl
    | exact Kept.mask (mask_sub rfl hm)
    | with_reducible refine Frame.lit rfl ?_ ?_ ?_ ?_ ?_ ?_ ?_ ?_ ?_ ?_ ?_ ?_ ?_ ?_ ?_ ?_ ?_ ?_ ?_ ?_ ?_ ?_ ?_ ?_ ?_ ?_ ?_ ?_

theorem State.irqSettle_frame {m : Nat} {s0 s : State} {a2 a3 : _} (hm : 4 ||| m = m) (h : Frame m s0 s) : Frame m s0 (State.irqSettle s a2 a3) := by
  unfold State.irqSettle
  repeat' first
    | with_reducible assumption
    | ((try lift_lets -underBinder); intro x; clear_value (e : x = _); skip)
    | exact mask_sub rfl hm
    | with_reducible apply State.setPage_frame
    | with_reducible apply State.emit_frame
    | with_reducible apply Frame.ite

theorem State.irqEvent_frame {m : Nat} {s0 s : State} {a2 a3 : _} (hm : 4 ||| m = m) (h : Frame m s0 s) : Frame m s0 (State.irqEvent s a2 a3) := by
  unfold State.irqEvent
  repeat' first
    | with_reducible assumption
    | ((try lift_lets -underBinder); intro x; clear_value (e : x = _); skip)
    | with_reducible apply State.setPage_frame
    | with_reducible apply State.irqSettle_frame

theorem State.setSticky_frame {m : Nat} {s0 s : State} {a2 a3 a4 : _} (hm : 6 ||| m = m) (h : Frame m s0 s) : Frame m s0 (State.setSticky s a2 a3 a4) := by
  unfold State.setSticky
  repeat' first
    | with_reducible assumption
    | ((try lift_lets -underBinder); intro x; clear_value (e : x = _); first | refine (fun hx : Frame m s0 x => ?_) (Frame.ofEq e ?_) | skip)
    | exact mask_sub rfl hm
    | with_reducible apply State.setWord_frame
    | with_reducible apply State.countFn_frame
    | with_reducible apply State.irqEvent_frame
    | with_reducible apply Frame.ite

theorem State.raise_frame {m : Nat} {s0 s : State} {a2 a3 a4 a5 a6 a7 : _} (hm : 6 ||| m = m) (h : Frame m s0 s) : Frame m s0 (State.raise s a2 a3 a4 a5 a6 a7) := by
  unfold State.raise
  repeat' first
    | with_reducible assumption
    | ((try lift_lets -underBinder); intro x; clear_value (e : x = _); first | refine (fun hx : Frame m s0 x => ?_) (Frame.ofEq e ?_) | skip)
    | exact mask_sub rfl hm
    | with_reducible apply State.setWord_frame
    | with_reducible apply State.setSticky_frame
    | with_reducible apply Frame.ite

theorem State.raiseBy_frame {m : Nat} {s0 s : State} {a2 a3 a4 a5 : _} (hm : 6 ||| m = m) (h : Frame m s0 s) : Frame m s0 (State.raiseBy s a2 a3 a4 a5) := by
  unfold State.raiseBy
  repeat' with_reducible first
    | assumption
    | apply State.raise_frame

theorem State.raiseOwn_frame {m : Nat} {s0 s : State} {a2 a3 : _} (hm : 6 ||| m = m) (h : Frame m s0 s) : Frame m s0 (State.raiseOwn s a2 a3) := by
  unfold State.raiseOwn
  repeat' with_reducible first
    | assumption
    | apply State.raise_frame

theorem State.noticeStep_frame {m : Nat} {s0 s : State} {a2 a3 a4 a5 : _} (hm : 8 ||| m = m) (h : Frame m s0 s) : Frame m s0 (State.noticeStep s a2 a3 a4 a5).1 := by
  unfold State.noticeStep
  repeat' first
    | with_reducible assumption
    | ((try lift_lets -underBinder); intro x; clear_value (e : x = _); skip)
    | with_reducible exact Kept.rfl
    | exact Kept.mask (mask_sub rfl hm)
    | with_reducible refine Frame.lit rfl ?_ ?_ ?_ ?_ ?_ ?_ ?_ ?_ ?_ ?_ ?_ ?_ ?_ ?_ ?_ ?_ ?_ ?_ ?_ ?_ ?_ ?_ ?_ ?_ ?_ ?_ ?_ ?_

theorem State.noticeEval_frame {m : Nat} {s0 s : State} {a2 a3 a4 a5 a6 a7 a8 a9 : _} (hm : 14 ||| m = m) (h : Frame m s0 s) : Frame m s0 (State.noticeEval s a2 a3 a4 a5 a6 a7 a8 a9) := by
  unfold State.noticeEval
  repeat' first
    | with_reducible assumption
    | ((try lift_lets -underBinder); intro x; clear_value (e : x = _); refine (fun hx : Frame m s0 x.1 => ?_) (Frame.ofEq1 e ?_))
    | exact mask_sub rfl hm
    | with_reducible apply State.countFn_frame
    | with_reducible apply State.setFldFn_frame
    | with_reducible apply State.irqEvent_frame
    | with_reducible apply State.noticeStep_frame
    | with_reducible apply Frame.ite

theorem State.noticeArm_frame {m : Nat} {s0 s : State} {a2 a3 a4 : _} (hm : 8 ||| m = m) (h : Frame m s0 s) : Frame m s0 (State.noticeArm s a2 a3 a4) := by
  unfold State.noticeArm
  repeat' first
    | with_reducible assumption
    | with_reducible exact Kept.rfl
    | exact Kept.mask (mask_sub rfl hm)
    | with_reducible refine Frame.lit rfl ?_ ?_ ?_ ?_ ?_ ?_ ?_ ?_ ?_ ?_ ?_ ?_ ?_ ?_ ?_ ?_ ?_ ?_ ?_ ?_ ?_ ?_ ?_ ?_ ?_ ?_ ?_ ?_

theorem State.corrected_frame {m : Nat} {s0 s : State} (hm : 2 ||| m = m) (h : Frame m s0 s) : Frame m s0 (State.corrected s) := by
  unfold State.corrected
  repeat' with_reducible first
    | assumption
    | apply State.count_frame

theorem State.faultRecord_frame {m : Nat} {s0 s : State} {a2 : _} (hm : 335544326 ||| m = m) (h : Frame m s0 s) : Frame m s0 (State.faultRecord s a2) := by
  unfold State.faultRecord
  repeat' first
    | with_reducible assumption
    | ((try lift_lets -underBinder); intro x; clear_value (e : x = _); first | refine (fun hx : Frame m s0 x => ?_) (Frame.ofEq e ?_) | skip)
    | exact mask_sub rfl hm
    | with_reducible exact Kept.rfl
    | exact Kept.mask (mask_sub rfl hm)
    | intro x
    | with_reducible apply State.raiseOwn_frame
    | with_reducible apply State.setFld_frame
    | with_reducible apply State.irqEvent_frame
    | with_reducible apply State.count_frame
    | with_reducible apply Frame.ite
    | with_reducible refine Frame.lit rfl ?_ ?_ ?_ ?_ ?_ ?_ ?_ ?_ ?_ ?_ ?_ ?_ ?_ ?_ ?_ ?_ ?_ ?_ ?_ ?_ ?_ ?_ ?_ ?_ ?_ ?_ ?_ ?_

theorem State.fault_frame {m : Nat} {s0 s : State} {a2 a3 a4 a5 a6 a7 : _} (hm : 335544326 ||| m = m) (h : Frame m s0 s) : Frame m s0 (State.fault s a2 a3 a4 a5 a6 a7) := by
  unfold State.fault
  repeat' with_reducible first
    | assumption
    | apply State.faultRecord_frame

theorem State.nodeFatal_frame {m : Nat} {s0 s : State} {a2 a3 : _} (hm : 469762054 ||| m = m) (h : Frame m s0 s) : Frame m s0 (State.nodeFatal s a2 a3) := by
  unfold State.nodeFatal
  repeat' first
    | with_reducible assumption
    | ((try lift_lets -underBinder); intro x; clear_value (e : x = _); refine (fun hx : Frame m s0 x => ?_) (Frame.ofEq e ?_))
    | exact mask_sub rfl hm
    | with_reducible exact Kept.rfl
    | exact Kept.mask (mask_sub rfl hm)
    | with_reducible apply State.raiseOwn_frame
    | with_reducible apply State.setFld_frame
    | with_reducible apply State.faultRecord_frame
    | with_reducible refine Frame.lit rfl ?_ ?_ ?_ ?_ ?_ ?_ ?_ ?_ ?_ ?_ ?_ ?_ ?_ ?_ ?_ ?_ ?_ ?_ ?_ ?_ ?_ ?_ ?_ ?_ ?_ ?_ ?_ ?_

theorem State.unitFault_frame {m : Nat} {s0 s : State} {a2 a3 a4 a5 a6 : _} (hm : 335544326 ||| m = m) (h : Frame m s0 s) : Frame m s0 (State.unitFault s a2 a3 a4 a5 a6) := by
  unfold State.unitFault
  repeat' first
    | with_reducible assumption
    | ((try lift_lets -underBinder); intro x; clear_value (e : x = _); first | refine (fun hx : Frame m s0 x => ?_) (Frame.ofEq e ?_) | skip)
    | exact mask_sub rfl hm
    | with_reducible apply State.setPage_frame
    | with_reducible apply State.faultRecord_frame

/-! Machine/Access.lean. -/

theorem noHook_frame {m : Nat} {s0 s : State} {a1 a2 a3 a4 : _} (_hm : 0 ||| m = m) (h : Frame m s0 s) : Frame m s0 (noHook a1 a2 a3 a4 s) := by
  unfold noHook
  repeat' with_reducible assumption

theorem State.unmapped_frame {m : Nat} {s0 s : State} {a2 a3 a4 : _} (hm : 6 ||| m = m) (h : Frame m s0 s) : Frame m s0 (State.unmapped s a2 a3 a4) := by
  unfold State.unmapped
  repeat' first
    | with_reducible assumption
    | exact mask_sub rfl hm
    | with_reducible apply State.raise_frame
    | with_reducible apply State.count_frame

theorem State.accessDenied_frame {m : Nat} {s0 s : State} {a2 a3 a4 : _} (hm : 6 ||| m = m) (h : Frame m s0 s) : Frame m s0 (State.accessDenied s a2 a3 a4) := by
  unfold State.accessDenied
  repeat' first
    | with_reducible assumption
    | exact mask_sub rfl hm
    | with_reducible apply State.raise_frame
    | with_reducible apply State.count_frame

theorem State.applyWrite_frame {m : Nat} {s0 s : State} {req page off v hook} (hh : ∀ req page old v s, Frame m s0 s → Frame m s0 (hook req page old v s)) (hm : 6 ||| m = m) (h : Frame m s0 s) : Frame m s0 (s.applyWrite req page off v hook) := by
  unfold State.applyWrite
  repeat' first
    | with_reducible assumption
    | ((try lift_lets -underBinder); intro x; clear_value (e : x = _); first | refine (fun hx : Frame m s0 x => ?_) (Frame.ofEq e ?_) | skip)
    | exact mask_sub rfl hm
    | intro x
    | with_reducible apply hh
    | with_reducible apply State.setWord_frame
    | with_reducible apply State.raiseBy_frame
    | with_reducible apply State.setFldFn_frame
    | with_reducible apply Frame.ite
    | with_reducible refine Frame.foldl ?_ ?_

theorem State.regWrite_frame {m : Nat} {s0 s : State} {req page off v hook} (hh : ∀ req page old v s, Frame m s0 s → Frame m s0 (hook req page old v s)) (hm : 1030 ||| m = m) (h : Frame m s0 s) : Frame m s0 (s.regWrite req page off v hook) := by
  unfold State.regWrite
  repeat' first
    | with_reducible assumption
    | ((try lift_lets -underBinder); intro x; clear_value (e : x = _); first | (have _f : HostSide := x; subst e) | skip)
    | exact mask_sub rfl hm
    | with_reducible exact Kept.rfl
    | exact Kept.mask (mask_sub rfl hm)
    | with_reducible apply State.unmapped_frame
    | with_reducible apply State.setPage_frame
    | with_reducible apply State.accessDenied_frame
    | with_reducible apply State.raiseBy_frame
    | with_reducible apply State.applyWrite_frame
    | split
    | with_reducible refine Frame.lit rfl ?_ ?_ ?_ ?_ ?_ ?_ ?_ ?_ ?_ ?_ ?_ ?_ ?_ ?_ ?_ ?_ ?_ ?_ ?_ ?_ ?_ ?_ ?_ ?_ ?_ ?_ ?_ ?_

theorem State.badWidth_frame {m : Nat} {s0 s : State} {a2 a3 a4 : _} (hm : 6 ||| m = m) (h : Frame m s0 s) : Frame m s0 (State.badWidth s a2 a3 a4) := by
  unfold State.badWidth
  repeat' with_reducible first
    | assumption
    | apply State.unmapped_frame
    | apply State.raiseBy_frame
    | apply Frame.ite

/-! Machine/MemoryOps.lean. -/

theorem State.storeBytes_frame {m : Nat} {s0 s : State} {a bs} (hm : 768 ||| m = m) (h : Frame m s0 s) : Frame m s0 (s.storeBytes a bs) :=
  Frame.step (s := s) (Keeps.upd rfl rfl (Nat.le_refl _) Memory.wf_store id id) Kept.rfl Kept.rfl Kept.rfl Kept.rfl Kept.rfl Kept.rfl Kept.rfl Kept.rfl (Kept.mask (mask_sub rfl hm)) (Kept.mask (mask_sub rfl hm)) Kept.rfl Kept.rfl Kept.rfl Kept.rfl Kept.rfl Kept.rfl Kept.rfl Kept.rfl Kept.rfl Kept.rfl Kept.rfl Kept.rfl Kept.rfl Kept.rfl Kept.rfl Kept.rfl Kept.rfl Kept.rfl Kept.rfl h

theorem State.clearMem_frame {m : Nat} {s0 s : State} {a b} (hm : 256 ||| m = m) (h : Frame m s0 s) : Frame m s0 (s.clearMem a b) :=
  Frame.step (s := s) (Keeps.upd rfl rfl (Nat.le_refl _) Memory.wf_clear id id) Kept.rfl Kept.rfl Kept.rfl Kept.rfl Kept.rfl Kept.rfl Kept.rfl Kept.rfl (Kept.mask (mask_sub rfl hm)) Kept.rfl Kept.rfl Kept.rfl Kept.rfl Kept.rfl Kept.rfl Kept.rfl Kept.rfl Kept.rfl Kept.rfl Kept.rfl Kept.rfl Kept.rfl Kept.rfl Kept.rfl Kept.rfl Kept.rfl Kept.rfl Kept.rfl Kept.rfl h

theorem State.vatUe_frame {m : Nat} {s0 s : State} {a2 : _} (hm : 6 ||| m = m) (h : Frame m s0 s) : Frame m s0 (State.vatUe s a2) := by
  unfold State.vatUe
  repeat' first
    | with_reducible assumption
    | exact mask_sub rfl hm
    | with_reducible apply State.raiseOwn_frame
    | with_reducible apply State.setFld_frame
    | with_reducible apply State.count_frame

theorem State.tierCe_frame {m : Nat} {s0 s : State} {a2 : _} (hm : 6 ||| m = m) (h : Frame m s0 s) : Frame m s0 (State.tierCe s a2) := by
  unfold State.tierCe
  repeat' first
    | with_reducible assumption
    | exact mask_sub rfl hm
    | with_reducible apply State.raiseOwn_frame
    | with_reducible apply State.corrected_frame
    | with_reducible apply State.count_frame
    | with_reducible apply Frame.ite

theorem State.tierUe_frame {m : Nat} {s0 s : State} {a2 : _} (hm : 518 ||| m = m) (h : Frame m s0 s) : Frame m s0 (State.tierUe s a2) := by
  unfold State.tierUe
  repeat' first
    | with_reducible assumption
    | ((try lift_lets -underBinder); intro x; clear_value (e : x = _); first | refine (fun hx : Frame m s0 x => ?_) (Frame.ofEq e ?_) | skip)
    | exact mask_sub rfl hm
    | with_reducible exact Kept.rfl
    | exact Kept.mask (mask_sub rfl hm)
    | with_reducible apply State.raiseOwn_frame
    | with_reducible apply State.setFld_frame
    | with_reducible apply State.count_frame
    | with_reducible apply Frame.ite
    | split
    | with_reducible refine Frame.lit rfl ?_ ?_ ?_ ?_ ?_ ?_ ?_ ?_ ?_ ?_ ?_ ?_ ?_ ?_ ?_ ?_ ?_ ?_ ?_ ?_ ?_ ?_ ?_ ?_ ?_ ?_ ?_ ?_

theorem State.writeOut_frame {m : Nat} {s0 s : State} {a2 a3 a4 : _} (hm : 1792 ||| m = m) (h : Frame m s0 s) : Frame m s0 (State.writeOut s a2 a3 a4) := by
  unfold State.writeOut
  repeat' first
    | with_reducible assumption
    | ((try lift_lets -underBinder); intro x; clear_value (e : x = _); first | (have _f : HostSide := x; subst e) | skip)
    | exact mask_sub rfl hm
    | with_reducible exact Kept.rfl
    | exact Kept.mask (mask_sub rfl hm)
    | with_reducible apply State.storeBytes_frame
    | with_reducible apply State.emit_frame
    | with_reducible apply Frame.ite
    | with_reducible refine Frame.lit rfl ?_ ?_ ?_ ?_ ?_ ?_ ?_ ?_ ?_ ?_ ?_ ?_ ?_ ?_ ?_ ?_ ?_ ?_ ?_ ?_ ?_ ?_ ?_ ?_ ?_ ?_ ?_ ?_

theorem State.spillNotices_frame {m : Nat} {s0 s : State} (hm : 14 ||| m = m) (h : Frame m s0 s) : Frame m s0 (State.spillNotices s) := by
  unfold State.spillNotices
  repeat' first
    | with_reducible assumption
    | ((try lift_lets -underBinder); intro x; clear_value (e : x = _); refine (fun hx : Frame m s0 x => ?_) (Frame.ofEq e ?_))
    | with_reducible apply State.noticeEval_frame

theorem State.spillAlloc_frame {m : Nat} {s0 s : State} {a2 a3 a4 : _} (hm : 526 ||| m = m) (h : Frame m s0 s) : FrameOpt m s0 id (State.spillAlloc s a2 a3 a4) := by
  unfold State.spillAlloc
  repeat' first
    | with_reducible assumption
    | ((try lift_lets -underBinder); intro x; clear_value (e : x = _); skip)
    | exact mask_sub rfl hm
    | with_reducible exact Kept.rfl
    | exact Kept.mask (mask_sub rfl hm)
    | with_reducible apply State.spillNotices_frame
    | with_reducible exact FrameOpt.none
    | with_reducible refine FrameOpt.some' ?_
    | with_reducible refine FrameOpt.ite ?_ ?_
    | with_reducible refine Frame.lit rfl ?_ ?_ ?_ ?_ ?_ ?_ ?_ ?_ ?_ ?_ ?_ ?_ ?_ ?_ ?_ ?_ ?_ ?_ ?_ ?_ ?_ ?_ ?_ ?_ ?_ ?_ ?_ ?_

theorem State.spillFree_frame {m : Nat} {s0 s : State} {a2 : _} (hm : 526 ||| m = m) (h : Frame m s0 s) : Frame m s0 (State.spillFree s a2) := by
  unfold State.spillFree
  repeat' first
    | with_reducible assumption
    | ((try lift_lets -underBinder); intro x; clear_value (e : x = _); skip)
    | exact mask_sub rfl hm
    | with_reducible exact Kept.rfl
    | exact Kept.mask (mask_sub rfl hm)
    | with_reducible apply State.spillNotices_frame
    | with_reducible refine Frame.lit rfl ?_ ?_ ?_ ?_ ?_ ?_ ?_ ?_ ?_ ?_ ?_ ?_ ?_ ?_ ?_ ?_ ?_ ?_ ?_ ?_ ?_ ?_ ?_ ?_ ?_ ?_ ?_ ?_

theorem State.takeSkim_frame {m : Nat} {s0 s : State} {a2 : _} (hm : 512 ||| m = m) (h : Frame m s0 s) : FrameOpt m s0 id (State.takeSkim s a2) := by
  unfold State.takeSkim
  repeat' first
    | with_reducible assumption
    | ((try lift_lets -underBinder); intro x; clear_value (e : x = _); skip)
    | with_reducible exact Kept.rfl
    | exact Kept.mask (mask_sub rfl hm)
    | with_reducible exact FrameOpt.none
    | with_reducible refine FrameOpt.some' ?_
    | with_reducible refine FrameOpt.ite ?_ ?_
    | with_reducible refine Frame.lit rfl ?_ ?_ ?_ ?_ ?_ ?_ ?_ ?_ ?_ ?_ ?_ ?_ ?_ ?_ ?_ ?_ ?_ ?_ ?_ ?_ ?_ ?_ ?_ ?_ ?_ ?_ ?_ ?_

theorem State.giveSkim_frame {m : Nat} {s0 s : State} {a2 : _} (hm : 512 ||| m = m) (h : Frame m s0 s) : Frame m s0 (State.giveSkim s a2) := by
  unfold State.giveSkim
  repeat' first
    | with_reducible assumption
    | ((try lift_lets -underBinder); intro x; clear_value (e : x = _); skip)
    | with_reducible exact Kept.rfl
    | exact Kept.mask (mask_sub rfl hm)
    | with_reducible refine Frame.lit rfl ?_ ?_ ?_ ?_ ?_ ?_ ?_ ?_ ?_ ?_ ?_ ?_ ?_ ?_ ?_ ?_ ?_ ?_ ?_ ?_ ?_ ?_ ?_ ?_ ?_ ?_ ?_ ?_

theorem State.takeCream_frame {m : Nat} {s0 s : State} {a2 : _} (hm : 512 ||| m = m) (h : Frame m s0 s) : FrameOpt m s0 id (State.takeCream s a2) := by
  unfold State.takeCream
  repeat' first
    | with_reducible assumption
    | ((try lift_lets -underBinder); intro x; clear_value (e : x = _); skip)
    | with_reducible exact Kept.rfl
    | exact Kept.mask (mask_sub rfl hm)
    | with_reducible exact FrameOpt.none
    | with_reducible refine FrameOpt.some' ?_
    | with_reducible refine FrameOpt.ite ?_ ?_
    | with_reducible refine Frame.lit rfl ?_ ?_ ?_ ?_ ?_ ?_ ?_ ?_ ?_ ?_ ?_ ?_ ?_ ?_ ?_ ?_ ?_ ?_ ?_ ?_ ?_ ?_ ?_ ?_ ?_ ?_ ?_ ?_

theorem State.giveCream_frame {m : Nat} {s0 s : State} {a2 : _} (hm : 512 ||| m = m) (h : Frame m s0 s) : Frame m s0 (State.giveCream s a2) := by
  unfold State.giveCream
  repeat' first
    | with_reducible assumption
    | ((try lift_lets -underBinder); intro x; clear_value (e : x = _); skip)
    | with_reducible exact Kept.rfl
    | exact Kept.mask (mask_sub rfl hm)
    | with_reducible refine Frame.lit rfl ?_ ?_ ?_ ?_ ?_ ?_ ?_ ?_ ?_ ?_ ?_ ?_ ?_ ?_ ?_ ?_ ?_ ?_ ?_ ?_ ?_ ?_ ?_ ?_ ?_ ?_ ?_ ?_

/-! Machine/LeaveOps.lean. -/

theorem State.setSliceState_frame {m : Nat} {s0 s : State} {a2 a3 : _} (hm : 2048 ||| m = m) (h : Frame m s0 s) : Frame m s0 (State.setSliceState s a2 a3) := by
  unfold State.setSliceState
  repeat' with_reducible first
    | assumption
    | apply State.modWork_frame

theorem State.paceSettle_frame {m : Nat} {s0 s : State} (hm : 66 ||| m = m) (h : Frame m s0 s) : Frame m s0 (State.paceSettle s) := by
  unfold State.paceSettle
  repeat' first
    | with_reducible assumption
    | ((try lift_lets -underBinder); intro x; clear_value (e : x = _); first | refine (fun hx : Frame m s0 x => ?_) (Frame.ofEq e ?_) | skip)
    | exact mask_sub rfl hm
    | with_reducible exact Kept.rfl
    | exact Kept.mask (mask_sub rfl hm)
    | with_reducible apply State.count_frame
    | with_reducible apply Frame.ite
    | with_reducible refine Frame.lit rfl ?_ ?_ ?_ ?_ ?_ ?_ ?_ ?_ ?_ ?_ ?_ ?_ ?_ ?_ ?_ ?_ ?_ ?_ ?_ ?_ ?_ ?_ ?_ ?_ ?_ ?_ ?_ ?_

theorem State.leaveSettle_frame {m : Nat} {s0 s : State} (hm : 2114 ||| m = m) (h : Frame m s0 s) : Frame m s0 (State.leaveSettle s) := by
  unfold State.leaveSettle
  repeat' first
    | with_reducible assumption
    | ((try lift_lets -underBinder); intro x; clear_value (e : x = _); first | refine (fun hx : Frame m s0 x => ?_) (Frame.ofEq e ?_) | skip)
    | exact mask_sub rfl hm
    | with_reducible exact Kept.rfl
    | exact Kept.mask (mask_sub rfl hm)
    | intro x
    | with_reducible apply State.setSliceState_frame
    | with_reducible apply State.paceSettle_frame
    | with_reducible apply State.count_frame
    | with_reducible apply Frame.ite
    | with_reducible refine Frame.foldl ?_ ?_
    | with_reducible refine Frame.lit rfl ?_ ?_ ?_ ?_ ?_ ?_ ?_ ?_ ?_ ?_ ?_ ?_ ?_ ?_ ?_ ?_ ?_ ?_ ?_ ?_ ?_ ?_ ?_ ?_ ?_ ?_ ?_ ?_

theorem State.leaveRelease_frame {m : Nat} {s0 s : State} {a2 : _} (hm : 2114 ||| m = m) (h : Frame m s0 s) : Frame m s0 (State.leaveRelease s a2) := by
  unfold State.leaveRelease
  repeat' first
    | with_reducible assumption
    | ((try lift_lets -underBinder); intro x; clear_value (e : x = _); skip)
    | with_reducible exact Kept.rfl
    | exact Kept.mask (mask_sub rfl hm)
    | with_reducible apply State.leaveSettle_frame
    | with_reducible refine Frame.lit rfl ?_ ?_ ?_ ?_ ?_ ?_ ?_ ?_ ?_ ?_ ?_ ?_ ?_ ?_ ?_ ?_ ?_ ?_ ?_ ?_ ?_ ?_ ?_ ?_ ?_ ?_ ?_ ?_

theorem State.leaveUnwait_frame {m : Nat} {s0 s : State} {a2 : _} (hm : 64 ||| m = m) (h : Frame m s0 s) : Frame m s0 (State.leaveUnwait s a2) := by
  unfold State.leaveUnwait
  repeat' first
    | with_reducible assumption
    | ((try lift_lets -underBinder); intro x; clear_value (e : x = _); skip)
    | with_reducible exact Kept.rfl
    | exact Kept.mask (mask_sub rfl hm)
    | with_reducible refine Frame.lit rfl ?_ ?_ ?_ ?_ ?_ ?_ ?_ ?_ ?_ ?_ ?_ ?_ ?_ ?_ ?_ ?_ ?_ ?_ ?_ ?_ ?_ ?_ ?_ ?_ ?_ ?_ ?_ ?_

theorem State.leaveAsk_frame {m : Nat} {s0 s : State} {a2 a3 a4 a5 a6 : _} (hm : 2114 ||| m = m) (h : Frame m s0 s) : Frame m s0 (State.leaveAsk s a2 a3 a4 a5 a6) := by
  unfold State.leaveAsk
  repeat' first
    | with_reducible assumption
    | ((try lift_lets -underBinder); intro x; clear_value (e : x = _); skip)
    | exact mask_sub rfl hm
    | with_reducible apply State.setSliceState_frame
    | with_reducible apply State.count_frame
    | with_reducible apply State.modLeave_frame
    | split

/-! Machine/RennetOps.lean. -/

theorem State.setThread_frame {m : Nat} {s0 s : State} {a2 a3 : _} (hm : 4096 ||| m = m) (h : Frame m s0 s) : Frame m s0 (State.setThread s a2 a3) := by
  unfold State.setThread
  repeat' with_reducible first
    | assumption
    | apply State.modRennet_frame

theorem State.readyTail_frame {m : Nat} {s0 s : State} {a2 a3 : _} (hm : 4096 ||| m = m) (h : Frame m s0 s) : Frame m s0 (State.readyTail s a2 a3) := by
  unfold State.readyTail
  repeat' with_reducible first
    | assumption
    | apply State.modRennet_frame
    | apply State.setThread_frame

theorem State.readyHead_frame {m : Nat} {s0 s : State} {a2 a3 : _} (hm : 4096 ||| m = m) (h : Frame m s0 s) : Frame m s0 (State.readyHead s a2 a3) := by
  unfold State.readyHead
  repeat' with_reducible first
    | assumption
    | apply State.modRennet_frame
    | apply State.setThread_frame

theorem State.dispatch_frame {m : Nat} {s0 s : State} {a2 a3 a4 : _} (hm : 4096 ||| m = m) (h : Frame m s0 s) : Frame m s0 (State.dispatch s a2 a3 a4) := by
  unfold State.dispatch
  repeat' first
    | with_reducible assumption
    | with_reducible apply State.modRennet_frame
    | with_reducible apply State.setThread_frame
    | split

theorem State.rennetGo_frame {m : Nat} {s0 s : State} {n} (hm : 4096 ||| m = m) (h : Frame m s0 s) : Frame m s0 (State.rennetGo n s) := by
  induction n generalizing s with
  | zero =>
    unfold State.rennetGo
    repeat' with_reducible assumption
  | succ n ih =>
    unfold State.rennetGo
    repeat' first
      | with_reducible assumption
      | with_reducible apply ih
      | with_reducible apply State.readyHead_frame
      | with_reducible apply State.dispatch_frame
      | split

theorem State.rennetSettle_frame {m : Nat} {s0 s : State} (hm : 4096 ||| m = m) (h : Frame m s0 s) : Frame m s0 (State.rennetSettle s) := by
  unfold State.rennetSettle
  repeat' with_reducible first
    | assumption
    | apply State.rennetGo_frame

theorem State.wakeThread_frame {m : Nat} {s0 s : State} {a2 a3 : _} (hm : 4096 ||| m = m) (h : Frame m s0 s) : Frame m s0 (State.wakeThread s a2 a3) := by
  unfold State.wakeThread
  repeat' first
    | with_reducible assumption
    | with_reducible apply State.modRennet_frame
    | with_reducible apply State.readyTail_frame
    | split

theorem State.wakeWaiters_frame {m : Nat} {s0 s : State} {a2 a3 : _} (hm : 4096 ||| m = m) (h : Frame m s0 s) : Frame m s0 (State.wakeWaiters s a2 a3) := by
  unfold State.wakeWaiters
  repeat' first
    | with_reducible assumption
    | intro x
    | with_reducible apply State.rennetSettle_frame
    | with_reducible apply State.wakeThread_frame
    | with_reducible refine Frame.foldl ?_ ?_

theorem State.setCounter_frame {m : Nat} {s0 s : State} {a2 a3 : _} (hm : 4096 ||| m = m) (h : Frame m s0 s) : Frame m s0 (State.setCounter s a2 a3) := by
  unfold State.setCounter
  repeat' with_reducible first
    | assumption
    | apply State.modRennet_frame

theorem State.disarm_frame {m : Nat} {s0 s : State} {a2 : _} (hm : 4096 ||| m = m) (h : Frame m s0 s) : Frame m s0 (State.disarm s a2) := by
  unfold State.disarm
  repeat' with_reducible first
    | assumption
    | apply State.modRennet_frame
    | apply State.wakeWaiters_frame

theorem State.ctrUnderflow_frame {m : Nat} {s0 s : State} (hm : 6 ||| m = m) (h : Frame m s0 s) : Frame m s0 (State.ctrUnderflow s) := by
  unfold State.ctrUnderflow
  repeat' first
    | with_reducible assumption
    | exact mask_sub rfl hm
    | with_reducible apply State.raiseOwn_frame
    | with_reducible apply State.count_frame

theorem State.ctrDec_frame {m : Nat} {s0 s : State} {a2 a3 : _} (hm : 4102 ||| m = m) (h : Frame m s0 s) : Frame m s0 (State.ctrDec s a2 a3) := by
  unfold State.ctrDec
  repeat' first
    | with_reducible assumption
    | exact mask_sub rfl hm
    | with_reducible apply State.setCounter_frame
    | with_reducible apply State.ctrUnderflow_frame
    | with_reducible apply State.wakeWaiters_frame
    | with_reducible apply Frame.ite
    | split

theorem State.addDelay_frame {m : Nat} {s0 s : State} {a2 a3 : _} (hm : 4096 ||| m = m) (h : Frame m s0 s) : Frame m s0 (State.addDelay s a2 a3) := by
  unfold State.addDelay
  repeat' with_reducible first
    | assumption
    | apply State.modRennet_frame

theorem State.waitThread_frame {m : Nat} {s0 s : State} {a2 a3 a4 a5 : _} (hm : 4096 ||| m = m) (h : Frame m s0 s) : Frame m s0 (State.waitThread s a2 a3 a4 a5) := by
  unfold State.waitThread
  repeat' first
    | with_reducible assumption
    | ((try lift_lets -underBinder); intro x; clear_value (e : x = _); first | refine (fun hx : Frame m s0 x => ?_) (Frame.ofEq e ?_) | skip)
    | with_reducible apply State.modRennet_frame
    | with_reducible apply State.addDelay_frame
    | with_reducible apply State.rennetSettle_frame
    | with_reducible apply State.setThread_frame
    | with_reducible apply Frame.ite

theorem State.threadNew_frame {m : Nat} {s0 s : State} {a2 : _} (hm : 4096 ||| m = m) (h : Frame m s0 s) : Frame m s0 (State.threadNew s a2) := by
  unfold State.threadNew
  repeat' first
    | with_reducible assumption
    | ((try lift_lets -underBinder); intro x; clear_value (e : x = _); refine (fun hx : Frame m s0 x.2 => ?_) (Frame.ofEq2 e ?_))
    | exact mask_sub rfl hm
    | with_reducible apply State.rennetSettle_frame
    | with_reducible apply State.readyTail_frame
    | with_reducible apply State.openBytes_frame
    | split

theorem State.threadAsk_frame {m : Nat} {s0 s : State} {a2 : _} (hm : 4098 ||| m = m) (h : Frame m s0 s) : Frame m s0 (State.threadAsk s a2) := by
  unfold State.threadAsk
  repeat' first
    | with_reducible assumption
    | exact mask_sub rfl hm
    | with_reducible apply State.modRennet_frame
    | with_reducible apply State.threadNew_frame
    | with_reducible apply State.count_frame
    | with_reducible apply Frame.ite

theorem State.tcbServe_frame {m : Nat} {s0 s : State} (hm : 4096 ||| m = m) (h : Frame m s0 s) : Frame m s0 (State.tcbServe s) := by
  unfold State.tcbServe
  repeat' first
    | with_reducible assumption
    | intro x
    | with_reducible apply State.modRennet_frame
    | with_reducible apply State.threadNew_frame
    | with_reducible apply Frame.ite
    | with_reducible refine Frame.foldl ?_ ?_

theorem State.threadEnd_frame {m : Nat} {s0 s : State} {a2 : _} (hm : 4096 ||| m = m) (h : Frame m s0 s) : Frame m s0 (State.threadEnd s a2) := by
  unfold State.threadEnd
  repeat' first
    | with_reducible assumption
    | ((try lift_lets -underBinder); intro x; clear_value (e : x = _); refine (fun hx : Frame m s0 x => ?_) (Frame.ofEq e ?_))
    | intro x
    | with_reducible apply State.modRennet_frame
    | with_reducible apply State.tcbServe_frame
    | with_reducible apply State.disarm_frame
    | with_reducible apply State.rennetSettle_frame
    | with_reducible refine Frame.foldl ?_ ?_
    | split

/-! Machine/FabricOps.lean. -/

theorem State.setLink_frame {m : Nat} {s0 s : State} {a2 a3 : _} (hm : 32768 ||| m = m) (h : Frame m s0 s) : Frame m s0 (State.setLink s a2 a3) := by
  unfold State.setLink
  repeat' with_reducible first
    | assumption
    | apply State.modFabric_frame

theorem State.linkPump_frame {m : Nat} {s0 s : State} {k n} (hm : 32770 ||| m = m) (h : Frame m s0 s) : Frame m s0 (s.linkPump k n) := by
  induction n generalizing s with
  | zero =>
    unfold State.linkPump
    repeat' with_reducible assumption
  | succ n ih =>
    unfold State.linkPump
    repeat' first
      | with_reducible assumption
      | ((try lift_lets -underBinder); intro x; clear_value (e : x = _); first | refine (fun hx : Frame m s0 x => ?_) (Frame.ofEq e ?_) | skip)
      | exact mask_sub rfl hm
      | with_reducible apply ih
      | with_reducible apply State.setLink_frame
      | with_reducible apply State.count_frame
      | with_reducible apply State.emit_frame
      | with_reducible apply Frame.ite
      | split

theorem State.linkSend_frame {m : Nat} {s0 s : State} {a2 a3 : _} (hm : 32770 ||| m = m) (h : Frame m s0 s) : Frame m s0 (State.linkSend s a2 a3) := by
  unfold State.linkSend
  repeat' first
    | with_reducible assumption
    | ((try lift_lets -underBinder); intro x; clear_value (e : x = _); skip)
    | exact mask_sub rfl hm
    | with_reducible apply State.linkPump_frame
    | with_reducible apply State.setLink_frame

theorem State.linkCtrl_frame {m : Nat} {s0 s : State} {a2 a3 a4 : _} (hm : 32770 ||| m = m) (h : Frame m s0 s) : Frame m s0 (State.linkCtrl s a2 a3 a4) := by
  unfold State.linkCtrl
  repeat' first
    | with_reducible assumption
    | ((try lift_lets -underBinder); intro x; clear_value (e : x = _); skip)
    | exact mask_sub rfl hm
    | with_reducible apply State.setLink_frame
    | with_reducible apply State.count_frame
    | with_reducible apply State.emit_frame

theorem State.forward_frame {m : Nat} {s0 s : State} {a2 a3 : _} (hm : 32770 ||| m = m) (h : Frame m s0 s) : Frame m s0 (State.forward s a2 a3) := by
  unfold State.forward
  repeat' first
    | with_reducible assumption
    | ((try lift_lets -underBinder); intro x; clear_value (e : x = _); skip)
    | exact mask_sub rfl hm
    | with_reducible apply State.linkSend_frame
    | with_reducible apply State.count_frame
    | with_reducible apply State.emit_frame
    | with_reducible apply Frame.ite

theorem State.sendPacket_frame {m : Nat} {s0 s : State} {a2 : _} (hm : 32770 ||| m = m) (h : Frame m s0 s) : FrameOpt m s0 id (State.sendPacket s a2) := by
  unfold State.sendPacket
  repeat' first
    | with_reducible assumption
    | with_reducible apply State.forward_frame
    | with_reducible exact FrameOpt.none
    | with_reducible refine FrameOpt.some' ?_
    | split

theorem State.sendCtrl_frame {m : Nat} {s0 s : State} {a2 a3 : _} (hm : 32770 ||| m = m) (h : Frame m s0 s) : Frame m s0 (State.sendCtrl s a2 a3) := by
  unfold State.sendCtrl
  repeat' with_reducible first
    | assumption
    | apply State.sendPacket_frame
    | refine FrameOpt.getD ?_ ?_

theorem State.sendOnLink_frame {m : Nat} {s0 s : State} {a2 a3 a4 : _} (hm : 32770 ||| m = m) (h : Frame m s0 s) : Frame m s0 (State.sendOnLink s a2 a3 a4) := by
  unfold State.sendOnLink
  repeat' first
    | with_reducible assumption
    | ((try lift_lets -underBinder); intro x; clear_value (e : x = _); skip)
    | exact mask_sub rfl hm
    | with_reducible apply State.linkSend_frame
    | with_reducible apply State.emit_frame
    | with_reducible apply Frame.ite

theorem State.broadcast_frame {m : Nat} {s0 s : State} {a2 a3 : _} (hm : 32770 ||| m = m) (h : Frame m s0 s) : Frame m s0 (State.broadcast s a2 a3) := by
  unfold State.broadcast
  repeat' first
    | with_reducible assumption
    | ((try lift_lets -underBinder); intro x; clear_value (e : x = _); skip)
    | exact mask_sub rfl hm
    | intro x
    | with_reducible apply State.linkSend_frame
    | with_reducible apply State.emit_frame
    | with_reducible refine Frame.foldl ?_ ?_

theorem State.sendNow_frame {m : Nat} {s0 s : State} {a2 a3 : _} (hm : 32770 ||| m = m) (h : Frame m s0 s) : FrameOpt m s0 id (State.sendNow s a2 a3) := by
  unfold State.sendNow
  repeat' first
    | with_reducible assumption
    | ((try lift_lets -underBinder); intro x; clear_value (e : x = _); skip)
    | exact mask_sub rfl hm
    | with_reducible apply State.sendPacket_frame
    | with_reducible apply State.modFabric_frame
    | with_reducible apply State.count_frame
    | with_reducible exact FrameOpt.none
    | with_reducible refine FrameOpt.some' ?_
    | split
    | with_reducible refine FrameOpt.get' (by assumption) ?_

theorem State.sendReq_frame {m : Nat} {s0 s : State} {a2 a3 : _} (hm : 32770 ||| m = m) (h : Frame m s0 s) : FrameOpt m s0 id (State.sendReq s a2 a3) := by
  unfold State.sendReq
  repeat' first
    | with_reducible assumption
    | exact mask_sub rfl hm
    | intro x
    | with_reducible apply State.sendNow_frame
    | with_reducible apply State.modFabric_frame
    | with_reducible refine Frame.ofId ?_
    | with_reducible refine FrameOpt.ite ?_ ?_
    | with_reducible refine FrameOpt.map ?_

theorem State.trySend_frame {m : Nat} {s0 s : State} {a2 a3 : _} (hm : 32774 ||| m = m) (h : Frame m s0 s) : Frame m s0 (State.trySend s a2 a3).1 := by
  unfold State.trySend
  repeat' first
    | with_reducible assumption
    | exact mask_sub rfl hm
    | with_reducible apply State.sendReq_frame
    | with_reducible apply State.raiseOwn_frame
    | with_reducible apply State.count_frame
    | split
    | with_reducible refine FrameOpt.get' (by assumption) ?_

theorem State.sendRun_frame {m : Nat} {s0 s : State} {a2 a3 a4 a5 a6 a7 a8 a9 a10 a11 : _} (hm : 32774 ||| m = m) (h : Frame m s0 s) : Frame m s0 (State.sendRun s a2 a3 a4 a5 a6 a7 a8 a9 a10 a11).1 := by
  unfold State.sendRun
  repeat' first
    | with_reducible assumption
    | ((try lift_lets -underBinder); intro x; clear_value (e : x = _); first | refine (fun hx : Frame m s0 x.1 => ?_) (Frame.ofEq1 e ?_) | skip)
    | intro x
    | with_reducible apply State.trySend_frame
    | with_reducible refine Frame.foldlFst ?_ ?_

theorem State.answer_frame {m : Nat} {s0 s : State} {a2 a3 a4 a5 : _} (hm : 32770 ||| m = m) (h : Frame m s0 s) : Frame m s0 (State.answer s a2 a3 a4 a5) := by
  unfold State.answer
  repeat' first
    | with_reducible assumption
    | with_reducible apply State.forward_frame
    | split

theorem State.markSeq_frame {m : Nat} {s0 s : State} {a2 a3 a4 a5 : _} (hm : 4227072 ||| m = m) (h : Frame m s0 s) : Frame m s0 (State.markSeq s a2 a3 a4 a5) := by
  unfold State.markSeq
  repeat' first
    | with_reducible assumption
    | ((try lift_lets -underBinder); intro x; clear_value (e : x = _); skip)
    | exact mask_sub rfl hm
    | with_reducible exact Kept.rfl
    | exact Kept.mask (mask_sub rfl hm)
    | with_reducible apply State.modFabric_frame
    | with_reducible apply Frame.ite
    | with_reducible refine Frame.lit rfl ?_ ?_ ?_ ?_ ?_ ?_ ?_ ?_ ?_ ?_ ?_ ?_ ?_ ?_ ?_ ?_ ?_ ?_ ?_ ?_ ?_ ?_ ?_ ?_ ?_ ?_ ?_ ?_

theorem State.joinRun_frame {m : Nat} {s0 s : State} {a2 : _} (hm : 32768 ||| m = m) (h : Frame m s0 s) : Frame m s0 (State.joinRun s a2).1 := by
  unfold State.joinRun
  repeat' first
    | with_reducible assumption
    | ((try lift_lets -underBinder); intro x; clear_value (e : x = _); first | (have _f := fun a => x a; subst e) | skip)
    | with_reducible apply State.modFabric_frame
    | split

/-! Machine/RingOps.lean. -/

theorem State.setSq_frame {m : Nat} {s0 s : State} {a2 a3 a4 : _} (hm : 2048 ||| m = m) (h : Frame m s0 s) : Frame m s0 (State.setSq s a2 a3 a4) := by
  unfold State.setSq
  repeat' with_reducible first
    | assumption
    | apply State.modWork_frame

theorem State.setCq_frame {m : Nat} {s0 s : State} {a2 a3 a4 : _} (hm : 2048 ||| m = m) (h : Frame m s0 s) : Frame m s0 (State.setCq s a2 a3 a4) := by
  unfold State.setCq
  repeat' with_reducible first
    | assumption
    | apply State.modWork_frame

theorem State.updDesc_frame {m : Nat} {s0 s : State} {a2 a3 : _} (hm : 2048 ||| m = m) (h : Frame m s0 s) : Frame m s0 (State.updDesc s a2 a3) := by
  unfold State.updDesc
  repeat' with_reducible first
    | assumption
    | apply State.modWork_frame

theorem State.cqNotice_frame {m : Nat} {s0 s : State} {a2 a3 : _} (hm : 14 ||| m = m) (h : Frame m s0 s) : Frame m s0 (State.cqNotice s a2 a3) := by
  unfold State.cqNotice
  repeat' first
    | with_reducible assumption
    | ((try lift_lets -underBinder); intro x; clear_value (e : x = _); skip)
    | with_reducible apply State.noticeEval_frame

theorem State.setPark_frame {m : Nat} {s0 s : State} {a2 : _} (hm : 1550 ||| m = m) (h : Frame m s0 s) : Frame m s0 (State.setPark s a2) := by
  unfold State.setPark
  repeat' first
    | with_reducible assumption
    | ((try lift_lets -underBinder); intro x; clear_value (e : x = _); refine (fun hx : Frame m s0 x => ?_) (Frame.ofEq e ?_))
    | exact mask_sub rfl hm
    | with_reducible apply State.modSession_frame
    | with_reducible apply State.modTiers_frame
    | with_reducible apply State.noticeEval_frame

theorem State.parkRecord_frame {m : Nat} {s0 s : State} {a2 : _} (hm : 1550 ||| m = m) (h : Frame m s0 s) : Frame m s0 (State.parkRecord s a2) := by
  unfold State.parkRecord
  repeat' first
    | with_reducible assumption
    | ((try lift_lets -underBinder); intro x; clear_value (e : x = _); skip)
    | exact mask_sub rfl hm
    | with_reducible apply State.modSession_frame
    | with_reducible apply State.setPark_frame

theorem State.parkWrite_frame {m : Nat} {s0 s : State} {a2 a3 a4 a5 a6 : _} (hm : 1550 ||| m = m) (h : Frame m s0 s) : FrameOpt m s0 id (State.parkWrite s a2 a3 a4 a5 a6) := by
  unfold State.parkWrite
  repeat' first
    | with_reducible assumption
    | intro x
    | with_reducible apply State.parkRecord_frame
    | with_reducible exact FrameOpt.get' rfl (by assumption)
    | with_reducible refine FrameOpt.foldl ?_ ?_
    | with_reducible exact FrameOpt.none
    | with_reducible refine FrameOpt.some' ?_
    | with_reducible refine FrameOpt.ite ?_ ?_
    | split

theorem State.sessionSettle_frame {m : Nat} {s0 s : State} (hm : 2 ||| m = m) (h : Frame m s0 s) : Frame m s0 (State.sessionSettle s) := by
  unfold State.sessionSettle
  repeat' with_reducible first
    | assumption
    | apply State.setFld_frame
    | apply Frame.ite

theorem State.storeRing_frame {m : Nat} {s0 s : State} {fn a bs} (hm : 1024 ||| m = m) (h : Frame m s0 s) : Frame m s0 (s.storeRing fn a bs) := State.modHost_ringStore (mask_sub rfl hm) Memory.wf_store h

theorem State.clearRings_frame {m : Nat} {s0 s : State} {fn} (hm : 1024 ||| m = m) (h : Frame m s0 s) : Frame m s0 (s.clearRings fn) := State.modHost_ringStore (mask_sub rfl hm) Memory.wf_clear h

theorem State.ringWrite_frame {m : Nat} {s0 s : State} {a2 a3 a4 a5 : _} (hm : 1792 ||| m = m) (h : Frame m s0 s) : Frame m s0 (State.ringWrite s a2 a3 a4 a5) := by
  unfold State.ringWrite
  repeat' first
    | with_reducible assumption
    | exact mask_sub rfl hm
    | with_reducible apply State.writeOut_frame
    | with_reducible apply State.storeRing_frame
    | with_reducible apply Frame.ite

theorem State.dropDesc_frame {m : Nat} {s0 s : State} {a2 a3 : _} (hm : 2050 ||| m = m) (h : Frame m s0 s) : Frame m s0 (State.dropDesc s a2 a3) := by
  unfold State.dropDesc
  repeat' first
    | with_reducible assumption
    | ((try lift_lets -underBinder); intro x; clear_value (e : x = _); first | refine (fun hx : Frame m s0 x => ?_) (Frame.ofEq e ?_) | skip)
    | exact mask_sub rfl hm
    | with_reducible apply State.setSq_frame
    | with_reducible apply State.sessionSettle_frame
    | with_reducible apply State.modWork_frame
    | with_reducible apply Frame.ite

theorem State.drainDone_frame {m : Nat} {s0 s : State} {a2 a3 : _} (hm : 1550 ||| m = m) (h : Frame m s0 s) : Frame m s0 (State.drainDone s a2 a3) := by
  unfold State.drainDone
  repeat' first
    | with_reducible assumption
    | ((try lift_lets -underBinder); intro x; clear_value (e : x = _); refine (fun hx : Frame m s0 x => ?_) (Frame.ofEq e ?_))
    | exact mask_sub rfl hm
    | with_reducible apply State.modSession_frame
    | with_reducible apply State.sessionSettle_frame
    | with_reducible apply State.setPark_frame
    | with_reducible apply Frame.ite
    | split

theorem State.parkCompletion_frame {m : Nat} {s0 s : State} {a2 a3 : _} (hm : 3598 ||| m = m) (h : Frame m s0 s) : Frame m s0 (State.parkCompletion s a2 a3) := by
  unfold State.parkCompletion
  repeat' first
    | with_reducible assumption
    | ((try lift_lets -underBinder); intro x; clear_value (e : x = _); skip)
    | exact mask_sub rfl hm
    | with_reducible apply State.drainDone_frame
    | with_reducible apply State.parkRecord_frame
    | with_reducible apply State.dropDesc_frame

theorem State.writeCompletion_frame {m : Nat} {s0 s : State} {a2 a3 : _} (hm : 3854 ||| m = m) (h : Frame m s0 s) : Frame m s0 (State.writeCompletion s a2 a3) := by
  unfold State.writeCompletion
  repeat' first
    | with_reducible assumption
    | ((try lift_lets -underBinder); intro x; clear_value (e : x = _); first | refine (fun hx : Frame m s0 x => ?_) (Frame.ofEq e ?_) | skip)
    | exact mask_sub rfl hm
    | with_reducible apply State.setCq_frame
    | with_reducible apply State.ringWrite_frame
    | with_reducible apply State.drainDone_frame
    | with_reducible apply State.dropDesc_frame
    | with_reducible apply State.countFn_frame
    | with_reducible apply State.irqEvent_frame
    | with_reducible apply State.cqNotice_frame
    | with_reducible apply Frame.ite

theorem State.markEnded_frame {m : Nat} {s0 s : State} {a2 a3 a4 a5 a6 a7 : _} (hm : 67584 ||| m = m) (h : Frame m s0 s) : Frame m s0 (State.markEnded s a2 a3 a4 a5 a6 a7) := by
  unfold State.markEnded
  repeat' first
    | with_reducible assumption
    | ((try lift_lets -underBinder); intro x; clear_value (e : x = _); first | refine (fun hx : Frame m s0 x => ?_) (Frame.ofEq e ?_) | (have _f := fun a => x a; subst e) | skip)
    | exact mask_sub rfl hm
    | with_reducible apply State.setSq_frame
    | with_reducible apply State.modWork_frame
    | with_reducible apply State.modTwin_frame
    | with_reducible apply Frame.ite
    | split

theorem State.flowRelease_frame {m : Nat} {s0 s : State} {k n} (hm : 6146 ||| m = m) (h : Frame m s0 s) : Frame m s0 (s.flowRelease k n) := by
  induction n generalizing s with
  | zero =>
    unfold State.flowRelease
    repeat' with_reducible assumption
  | succ n ih =>
    unfold State.flowRelease
    repeat' first
      | with_reducible assumption
      | ((try lift_lets -underBinder); intro x; clear_value (e : x = _); first | refine (fun hx : Frame m s0 x => ?_) (Frame.ofEq e ?_) | skip)
      | exact mask_sub rfl hm
      | with_reducible apply ih
      | with_reducible apply State.modRennet_frame
      | with_reducible apply State.updDesc_frame
      | with_reducible apply State.count_frame
      | with_reducible apply Frame.ite
      | split

theorem State.flowEnd_frame {m : Nat} {s0 s : State} {a2 a3 a4 : _} (hm : 6146 ||| m = m) (h : Frame m s0 s) : Frame m s0 (State.flowEnd s a2 a3 a4) := by
  unfold State.flowEnd
  repeat' first
    | with_reducible assumption
    | ((try lift_lets -underBinder); intro x; clear_value (e : x = _); skip)
    | exact mask_sub rfl hm
    | with_reducible apply State.modRennet_frame
    | with_reducible apply State.flowRelease_frame
    | split

theorem State.signalAct_frame {m : Nat} {s0 s : State} {a2 a3 : _} (hm : 38670 ||| m = m) (h : Frame m s0 s) : Frame m s0 (State.signalAct s a2 a3).1 := by
  unfold State.signalAct
  repeat' first
    | with_reducible assumption
    | ((try lift_lets -underBinder); intro x; clear_value (e : x = _); first | refine (fun hx : Frame m s0 x.1 => ?_) (Frame.ofEq1 e ?_) | skip)
    | exact mask_sub rfl hm
    | with_reducible apply State.parkWrite_frame
    | with_reducible apply State.writeOut_frame
    | with_reducible apply State.count_frame
    | with_reducible apply State.trySend_frame
    | with_reducible apply State.ctrDec_frame
    | split
    | with_reducible refine FrameOpt.get' (by assumption) ?_

theorem State.ringStep_frame {m : Nat} {s0 s : State} (hm : 106254 ||| m = m) (h : Frame m s0 s) : FrameOpt m s0 id (State.ringStep s) := by
  unfold State.ringStep
  repeat' first
    | with_reducible assumption
    | ((try lift_lets -underBinder); intro x; clear_value (e : x = _); first | refine (fun hx : Frame m s0 x => ?_) (Frame.ofEq e ?_) | refine (fun hx : Frame m s0 x.1 => ?_) (Frame.ofEq1 e ?_) | skip)
    | exact mask_sub rfl hm
    | intro x
    | with_reducible apply State.signalAct_frame
    | with_reducible apply State.markEnded_frame
    | with_reducible apply State.flowEnd_frame
    | with_reducible apply State.updDesc_frame
    | with_reducible apply State.parkCompletion_frame
    | with_reducible apply State.writeCompletion_frame
    | with_reducible apply Frame.ite
    | with_reducible refine FrameOpt.findSome ?_
    | with_reducible exact FrameOpt.none
    | with_reducible refine FrameOpt.some' ?_
    | with_reducible refine FrameOpt.ite ?_ ?_
    | split

theorem State.ringGo_frame {m : Nat} {s0 s : State} {n} (hm : 106254 ||| m = m) (h : Frame m s0 s) : Frame m s0 (State.ringGo n s) := by
  induction n generalizing s with
  | zero =>
    unfold State.ringGo
    repeat' with_reducible assumption
  | succ n ih =>
    unfold State.ringGo
    repeat' first
      | with_reducible assumption
      | with_reducible apply ih
      | with_reducible apply State.ringStep_frame
      | split
      | with_reducible refine FrameOpt.get' (by assumption) ?_

theorem State.ringSettle_frame {m : Nat} {s0 s : State} (hm : 106254 ||| m = m) (h : Frame m s0 s) : Frame m s0 (State.ringSettle s) := by
  unfold State.ringSettle
  repeat' with_reducible first
    | assumption
    | apply State.ringGo_frame

theorem State.endDesc_frame {m : Nat} {s0 s : State} {a2 a3 a4 a5 a6 : _} (hm : 106254 ||| m = m) (h : Frame m s0 s) : Frame m s0 (State.endDesc s a2 a3 a4 a5 a6) := by
  unfold State.endDesc
  repeat' first
    | with_reducible assumption
    | exact mask_sub rfl hm
    | with_reducible apply State.markEnded_frame
    | with_reducible apply State.ringSettle_frame

end Sys2Proof.Machine
end

