-- ==== Sys2Proof/Laws/Bits.lean ====
section
/-! SUPPORT. What putting a field into a word does to it and to the fields beside it. -/

namespace Sys2Proof

/-! A field of a word: read after it is put, and others untouched. -/

theorem toNat_fieldMask {hi lo : Nat} (h : hi < 64) : (fieldMask hi lo).toNat = (2 ^ (hi + 1 - lo) - 1) * 2 ^ lo := by
  unfold fieldMask
  rw [BitVec.toNat_ofNat]
  apply Nat.mod_eq_of_lt
  by_cases hl : lo ≤ hi
  · have : 2 ^ (hi + 1 - lo) * 2 ^ lo = 2 ^ (hi + 1) := by rw [← Nat.pow_add]; congr 1; omega
    have h2 : 2 ^ (hi + 1) ≤ 2 ^ 64 := Nat.pow_le_pow_right (by decide) (by omega)
    have h3 : 0 < 2 ^ lo := Nat.two_pow_pos lo
    rw [Nat.sub_mul, this]; omega
  · have : hi + 1 - lo = 0 := by omega
    simp [this]

theorem getLsbD_fieldMask {hi lo i : Nat} (h : hi < 64) : (fieldMask hi lo).getLsbD i = (decide (lo ≤ i) && decide (i ≤ hi)) := by
  rw [← BitVec.testBit_toNat, toNat_fieldMask h, Nat.testBit_mul_two_pow, Nat.testBit_two_pow_sub_one]
  by_cases hl : lo ≤ i <;> simp [hl]
  omega

theorem getLsbD_putBits {w : Word} {hi lo v i : Nat} (h : hi < 64) :
    (putBits w hi lo v).getLsbD i = if lo ≤ i ∧ i ≤ hi then v.testBit (i - lo) else w.getLsbD i := by
  unfold putBits
  simp only [BitVec.getLsbD_or, BitVec.getLsbD_and, BitVec.getLsbD_not, getLsbD_fieldMask h, BitVec.getLsbD_ofNat, Nat.testBit_mul_two_pow, Nat.testBit_mod_two_pow]
  by_cases h1 : lo ≤ i <;> by_cases h2 : i ≤ hi
  · have : i < 64 := by omega
    have : i - lo < hi + 1 - lo := by omega
    simp [*]
  · by_cases h3 : i < 64
    · have : ¬ (i - lo < hi + 1 - lo) := by omega
      simp [*]
    · have : w.getLsbD i = false := BitVec.getLsbD_of_ge w i (by omega)
      simp [*]
  · by_cases h3 : i < 64
    · simp [*]
    · have : w.getLsbD i = false := BitVec.getLsbD_of_ge w i (by omega)
      simp [*]
  · by_cases h3 : i < 64
    · simp [*]
    · have : w.getLsbD i = false := BitVec.getLsbD_of_ge w i (by omega)
      simp [*]

theorem testBit_bitsOf {w : Word} {hi lo i : Nat} : (bitsOf w hi lo).testBit i = (decide (i < hi + 1 - lo) && w.getLsbD (i + lo)) := by
  unfold bitsOf
  rw [Nat.testBit_mod_two_pow, Nat.testBit_div_two_pow, BitVec.testBit_toNat]

/-- A field reads as what was put into it, modulo its width. -/
@[simp] theorem bitsOf_putBits_self {w : Word} {hi lo v : Nat} (h : hi < 64) : bitsOf (putBits w hi lo v) hi lo = v % 2 ^ (hi + 1 - lo) := by
  apply Nat.eq_of_testBit_eq
  intro i
  rw [testBit_bitsOf, getLsbD_putBits h, Nat.testBit_mod_two_pow]
  by_cases hi' : i < hi + 1 - lo
  · have : lo ≤ i + lo ∧ i + lo ≤ hi := by omega
    simp [hi', this]
  · simp [hi']

/-- A field that shares no bit with the one put is untouched. -/
theorem bitsOf_putBits_other {w : Word} {hi lo v hi' lo' : Nat} (h : hi < 64) (d : hi < lo' ∨ hi' < lo) :
    bitsOf (putBits w hi lo v) hi' lo' = bitsOf w hi' lo' := by
  apply Nat.eq_of_testBit_eq
  intro i
  rw [testBit_bitsOf, testBit_bitsOf, getLsbD_putBits h]
  by_cases hx : i < hi' + 1 - lo'
  · have : ¬ (lo ≤ i + lo' ∧ i + lo' ≤ hi) := by omega
    simp [this]
  · simp [hx]

end Sys2Proof
end

