-- ==== Sys2Proof/Laws/State.lean ====
section
/-! SUPPORT. One lemma per update and part of the state: what the update leaves, what it sets. Then registers and fields read after they are set. -/

namespace Sys2Proof.Machine

open Sys2Proof.Reg

/-! State.modPins. -/

@[simp] theorem State.modPins_pending (s : State) (f : Pins → Pins) : (s.modPins f).pending = s.pending := rfl
@[simp] theorem State.modPins_chrono (s : State) (f : Pins → Pins) : (s.modPins f).chrono = s.chrono := rfl
@[simp] theorem State.modPins_free (s : State) (f : Pins → Pins) : (s.modPins f).free = s.free := rfl
@[simp] theorem State.modPins_out (s : State) (f : Pins → Pins) : (s.modPins f).out = s.out := rfl
@[simp] theorem State.modPins_regs (s : State) (f : Pins → Pins) : (s.modPins f).regs = s.regs := rfl
@[simp] theorem State.modPins_pages (s : State) (f : Pins → Pins) : (s.modPins f).pages = s.pages := rfl
@[simp] theorem State.modPins_notices (s : State) (f : Pins → Pins) : (s.modPins f).notices = s.notices := rfl
@[simp] theorem State.modPins_pins (s : State) (f : Pins → Pins) : (s.modPins f).pins = f s.pins := rfl
@[simp] theorem State.modPins_power (s : State) (f : Pins → Pins) : (s.modPins f).power = s.power := rfl
@[simp] theorem State.modPins_leave (s : State) (f : Pins → Pins) : (s.modPins f).leave = s.leave := rfl
@[simp] theorem State.modPins_cal (s : State) (f : Pins → Pins) : (s.modPins f).cal = s.cal := rfl
@[simp] theorem State.modPins_mem (s : State) (f : Pins → Pins) : (s.modPins f).mem = s.mem := rfl
@[simp] theorem State.modPins_tiers (s : State) (f : Pins → Pins) : (s.modPins f).tiers = s.tiers := rfl
@[simp] theorem State.modPins_host (s : State) (f : Pins → Pins) : (s.modPins f).host = s.host := rfl
@[simp] theorem State.modPins_work (s : State) (f : Pins → Pins) : (s.modPins f).work = s.work := rfl
@[simp] theorem State.modPins_rennet (s : State) (f : Pins → Pins) : (s.modPins f).rennet = s.rennet := rfl
@[simp] theorem State.modPins_tide (s : State) (f : Pins → Pins) : (s.modPins f).tide = s.tide := rfl
@[simp] theorem State.modPins_node (s : State) (f : Pins → Pins) : (s.modPins f).node = s.node := rfl
@[simp] theorem State.modPins_fabric (s : State) (f : Pins → Pins) : (s.modPins f).fabric = s.fabric := rfl
@[simp] theorem State.modPins_twin (s : State) (f : Pins → Pins) : (s.modPins f).twin = s.twin := rfl
@[simp] theorem State.modPins_strainer (s : State) (f : Pins → Pins) : (s.modPins f).strainer = s.strainer := rfl
@[simp] theorem State.modPins_dlog (s : State) (f : Pins → Pins) : (s.modPins f).dlog = s.dlog := rfl
@[simp] theorem State.modPins_churn (s : State) (f : Pins → Pins) : (s.modPins f).churn = s.churn := rfl
@[simp] theorem State.modPins_ladle (s : State) (f : Pins → Pins) : (s.modPins f).ladle = s.ladle := rfl
@[simp] theorem State.modPins_herd (s : State) (f : Pins → Pins) : (s.modPins f).herd = s.herd := rfl
@[simp] theorem State.modPins_hosted (s : State) (f : Pins → Pins) : (s.modPins f).hosted = s.hosted := rfl
@[simp] theorem State.modPins_serve (s : State) (f : Pins → Pins) : (s.modPins f).serve = s.serve := rfl
@[simp] theorem State.modPins_rolar (s : State) (f : Pins → Pins) : (s.modPins f).rolar = s.rolar := rfl
@[simp] theorem State.modPins_stores (s : State) (f : Pins → Pins) : (s.modPins f).stores = s.stores := rfl
@[simp] theorem State.modPins_faults (s : State) (f : Pins → Pins) : (s.modPins f).faults = s.faults := rfl
@[simp] theorem State.modPins_fatalAt (s : State) (f : Pins → Pins) : (s.modPins f).fatalAt = s.fatalAt := rfl
@[simp] theorem State.modPins_platformEvents (s : State) (f : Pins → Pins) : (s.modPins f).platformEvents = s.platformEvents := rfl

/-! State.modPower. -/

@[simp] theorem State.modPower_pending (s : State) (f : Power → Power) : (s.modPower f).pending = s.pending := rfl
@[simp] theorem State.modPower_chrono (s : State) (f : Power → Power) : (s.modPower f).chrono = s.chrono := rfl
@[simp] theorem State.modPower_free (s : State) (f : Power → Power) : (s.modPower f).free = s.free := rfl
@[simp] theorem State.modPower_out (s : State) (f : Power → Power) : (s.modPower f).out = s.out := rfl
@[simp] theorem State.modPower_regs (s : State) (f : Power → Power) : (s.modPower f).regs = s.regs := rfl
@[simp] theorem State.modPower_pages (s : State) (f : Power → Power) : (s.modPower f).pages = s.pages := rfl
@[simp] theorem State.modPower_notices (s : State) (f : Power → Power) : (s.modPower f).notices = s.notices := rfl
@[simp] theorem State.modPower_pins (s : State) (f : Power → Power) : (s.modPower f).pins = s.pins := rfl
@[simp] theorem State.modPower_power (s : State) (f : Power → Power) : (s.modPower f).power = f s.power := rfl
@[simp] theorem State.modPower_leave (s : State) (f : Power → Power) : (s.modPower f).leave = s.leave := rfl
@[simp] theorem State.modPower_cal (s : State) (f : Power → Power) : (s.modPower f).cal = s.cal := rfl
@[simp] theorem State.modPower_mem (s : State) (f : Power → Power) : (s.modPower f).mem = s.mem := rfl
@[simp] theorem State.modPower_tiers (s : State) (f : Power → Power) : (s.modPower f).tiers = s.tiers := rfl
@[simp] theorem State.modPower_host (s : State) (f : Power → Power) : (s.modPower f).host = s.host := rfl
@[simp] theorem State.modPower_work (s : State) (f : Power → Power) : (s.modPower f).work = s.work := rfl
@[simp] theorem State.modPower_rennet (s : State) (f : Power → Power) : (s.modPower f).rennet = s.rennet := rfl
@[simp] theorem State.modPower_tide (s : State) (f : Power → Power) : (s.modPower f).tide = s.tide := rfl
@[simp] theorem State.modPower_node (s : State) (f : Power → Power) : (s.modPower f).node = s.node := rfl
@[simp] theorem State.modPower_fabric (s : State) (f : Power → Power) : (s.modPower f).fabric = s.fabric := rfl
@[simp] theorem State.modPower_twin (s : State) (f : Power → Power) : (s.modPower f).twin = s.twin := rfl
@[simp] theorem State.modPower_strainer (s : State) (f : Power → Power) : (s.modPower f).strainer = s.strainer := rfl
@[simp] theorem State.modPower_dlog (s : State) (f : Power → Power) : (s.modPower f).dlog = s.dlog := rfl
@[simp] theorem State.modPower_churn (s : State) (f : Power → Power) : (s.modPower f).churn = s.churn := rfl
@[simp] theorem State.modPower_ladle (s : State) (f : Power → Power) : (s.modPower f).ladle = s.ladle := rfl
@[simp] theorem State.modPower_herd (s : State) (f : Power → Power) : (s.modPower f).herd = s.herd := rfl
@[simp] theorem State.modPower_hosted (s : State) (f : Power → Power) : (s.modPower f).hosted = s.hosted := rfl
@[simp] theorem State.modPower_serve (s : State) (f : Power → Power) : (s.modPower f).serve = s.serve := rfl
@[simp] theorem State.modPower_rolar (s : State) (f : Power → Power) : (s.modPower f).rolar = s.rolar := rfl
@[simp] theorem State.modPower_stores (s : State) (f : Power → Power) : (s.modPower f).stores = s.stores := rfl
@[simp] theorem State.modPower_faults (s : State) (f : Power → Power) : (s.modPower f).faults = s.faults := rfl
@[simp] theorem State.modPower_fatalAt (s : State) (f : Power → Power) : (s.modPower f).fatalAt = s.fatalAt := rfl
@[simp] theorem State.modPower_platformEvents (s : State) (f : Power → Power) : (s.modPower f).platformEvents = s.platformEvents := rfl

/-! State.modLeave. -/

@[simp] theorem State.modLeave_pending (s : State) (f : Leave → Leave) : (s.modLeave f).pending = s.pending := rfl
@[simp] theorem State.modLeave_chrono (s : State) (f : Leave → Leave) : (s.modLeave f).chrono = s.chrono := rfl
@[simp] theorem State.modLeave_free (s : State) (f : Leave → Leave) : (s.modLeave f).free = s.free := rfl
@[simp] theorem State.modLeave_out (s : State) (f : Leave → Leave) : (s.modLeave f).out = s.out := rfl
@[simp] theorem State.modLeave_regs (s : State) (f : Leave → Leave) : (s.modLeave f).regs = s.regs := rfl
@[simp] theorem State.modLeave_pages (s : State) (f : Leave → Leave) : (s.modLeave f).pages = s.pages := rfl
@[simp] theorem State.modLeave_notices (s : State) (f : Leave → Leave) : (s.modLeave f).notices = s.notices := rfl
@[simp] theorem State.modLeave_pins (s : State) (f : Leave → Leave) : (s.modLeave f).pins = s.pins := rfl
@[simp] theorem State.modLeave_power (s : State) (f : Leave → Leave) : (s.modLeave f).power = s.power := rfl
@[simp] theorem State.modLeave_leave (s : State) (f : Leave → Leave) : (s.modLeave f).leave = f s.leave := rfl
@[simp] theorem State.modLeave_cal (s : State) (f : Leave → Leave) : (s.modLeave f).cal = s.cal := rfl
@[simp] theorem State.modLeave_mem (s : State) (f : Leave → Leave) : (s.modLeave f).mem = s.mem := rfl
@[simp] theorem State.modLeave_tiers (s : State) (f : Leave → Leave) : (s.modLeave f).tiers = s.tiers := rfl
@[simp] theorem State.modLeave_host (s : State) (f : Leave → Leave) : (s.modLeave f).host = s.host := rfl
@[simp] theorem State.modLeave_work (s : State) (f : Leave → Leave) : (s.modLeave f).work = s.work := rfl
@[simp] theorem State.modLeave_rennet (s : State) (f : Leave → Leave) : (s.modLeave f).rennet = s.rennet := rfl
@[simp] theorem State.modLeave_tide (s : State) (f : Leave → Leave) : (s.modLeave f).tide = s.tide := rfl
@[simp] theorem State.modLeave_node (s : State) (f : Leave → Leave) : (s.modLeave f).node = s.node := rfl
@[simp] theorem State.modLeave_fabric (s : State) (f : Leave → Leave) : (s.modLeave f).fabric = s.fabric := rfl
@[simp] theorem State.modLeave_twin (s : State) (f : Leave → Leave) : (s.modLeave f).twin = s.twin := rfl
@[simp] theorem State.modLeave_strainer (s : State) (f : Leave → Leave) : (s.modLeave f).strainer = s.strainer := rfl
@[simp] theorem State.modLeave_dlog (s : State) (f : Leave → Leave) : (s.modLeave f).dlog = s.dlog := rfl
@[simp] theorem State.modLeave_churn (s : State) (f : Leave → Leave) : (s.modLeave f).churn = s.churn := rfl
@[simp] theorem State.modLeave_ladle (s : State) (f : Leave → Leave) : (s.modLeave f).ladle = s.ladle := rfl
@[simp] theorem State.modLeave_herd (s : State) (f : Leave → Leave) : (s.modLeave f).herd = s.herd := rfl
@[simp] theorem State.modLeave_hosted (s : State) (f : Leave → Leave) : (s.modLeave f).hosted = s.hosted := rfl
@[simp] theorem State.modLeave_serve (s : State) (f : Leave → Leave) : (s.modLeave f).serve = s.serve := rfl
@[simp] theorem State.modLeave_rolar (s : State) (f : Leave → Leave) : (s.modLeave f).rolar = s.rolar := rfl
@[simp] theorem State.modLeave_stores (s : State) (f : Leave → Leave) : (s.modLeave f).stores = s.stores := rfl
@[simp] theorem State.modLeave_faults (s : State) (f : Leave → Leave) : (s.modLeave f).faults = s.faults := rfl
@[simp] theorem State.modLeave_fatalAt (s : State) (f : Leave → Leave) : (s.modLeave f).fatalAt = s.fatalAt := rfl
@[simp] theorem State.modLeave_platformEvents (s : State) (f : Leave → Leave) : (s.modLeave f).platformEvents = s.platformEvents := rfl

/-! State.modCal. -/

@[simp] theorem State.modCal_pending (s : State) (f : Cal → Cal) : (s.modCal f).pending = s.pending := rfl
@[simp] theorem State.modCal_chrono (s : State) (f : Cal → Cal) : (s.modCal f).chrono = s.chrono := rfl
@[simp] theorem State.modCal_free (s : State) (f : Cal → Cal) : (s.modCal f).free = s.free := rfl
@[simp] theorem State.modCal_out (s : State) (f : Cal → Cal) : (s.modCal f).out = s.out := rfl
@[simp] theorem State.modCal_regs (s : State) (f : Cal → Cal) : (s.modCal f).regs = s.regs := rfl
@[simp] theorem State.modCal_pages (s : State) (f : Cal → Cal) : (s.modCal f).pages = s.pages := rfl
@[simp] theorem State.modCal_notices (s : State) (f : Cal → Cal) : (s.modCal f).notices = s.notices := rfl
@[simp] theorem State.modCal_pins (s : State) (f : Cal → Cal) : (s.modCal f).pins = s.pins := rfl
@[simp] theorem State.modCal_power (s : State) (f : Cal → Cal) : (s.modCal f).power = s.power := rfl
@[simp] theorem State.modCal_leave (s : State) (f : Cal → Cal) : (s.modCal f).leave = s.leave := rfl
@[simp] theorem State.modCal_cal (s : State) (f : Cal → Cal) : (s.modCal f).cal = f s.cal := rfl
@[simp] theorem State.modCal_mem (s : State) (f : Cal → Cal) : (s.modCal f).mem = s.mem := rfl
@[simp] theorem State.modCal_tiers (s : State) (f : Cal → Cal) : (s.modCal f).tiers = s.tiers := rfl
@[simp] theorem State.modCal_host (s : State) (f : Cal → Cal) : (s.modCal f).host = s.host := rfl
@[simp] theorem State.modCal_work (s : State) (f : Cal → Cal) : (s.modCal f).work = s.work := rfl
@[simp] theorem State.modCal_rennet (s : State) (f : Cal → Cal) : (s.modCal f).rennet = s.rennet := rfl
@[simp] theorem State.modCal_tide (s : State) (f : Cal → Cal) : (s.modCal f).tide = s.tide := rfl
@[simp] theorem State.modCal_node (s : State) (f : Cal → Cal) : (s.modCal f).node = s.node := rfl
@[simp] theorem State.modCal_fabric (s : State) (f : Cal → Cal) : (s.modCal f).fabric = s.fabric := rfl
@[simp] theorem State.modCal_twin (s : State) (f : Cal → Cal) : (s.modCal f).twin = s.twin := rfl
@[simp] theorem State.modCal_strainer (s : State) (f : Cal → Cal) : (s.modCal f).strainer = s.strainer := rfl
@[simp] theorem State.modCal_dlog (s : State) (f : Cal → Cal) : (s.modCal f).dlog = s.dlog := rfl
@[simp] theorem State.modCal_churn (s : State) (f : Cal → Cal) : (s.modCal f).churn = s.churn := rfl
@[simp] theorem State.modCal_ladle (s : State) (f : Cal → Cal) : (s.modCal f).ladle = s.ladle := rfl
@[simp] theorem State.modCal_herd (s : State) (f : Cal → Cal) : (s.modCal f).herd = s.herd := rfl
@[simp] theorem State.modCal_hosted (s : State) (f : Cal → Cal) : (s.modCal f).hosted = s.hosted := rfl
@[simp] theorem State.modCal_serve (s : State) (f : Cal → Cal) : (s.modCal f).serve = s.serve := rfl
@[simp] theorem State.modCal_rolar (s : State) (f : Cal → Cal) : (s.modCal f).rolar = s.rolar := rfl
@[simp] theorem State.modCal_stores (s : State) (f : Cal → Cal) : (s.modCal f).stores = s.stores := rfl
@[simp] theorem State.modCal_faults (s : State) (f : Cal → Cal) : (s.modCal f).faults = s.faults := rfl
@[simp] theorem State.modCal_fatalAt (s : State) (f : Cal → Cal) : (s.modCal f).fatalAt = s.fatalAt := rfl
@[simp] theorem State.modCal_platformEvents (s : State) (f : Cal → Cal) : (s.modCal f).platformEvents = s.platformEvents := rfl

/-! State.modTiers. -/

@[simp] theorem State.modTiers_pending (s : State) (f : Mem → Mem) : (s.modTiers f).pending = s.pending := rfl
@[simp] theorem State.modTiers_chrono (s : State) (f : Mem → Mem) : (s.modTiers f).chrono = s.chrono := rfl
@[simp] theorem State.modTiers_free (s : State) (f : Mem → Mem) : (s.modTiers f).free = s.free := rfl
@[simp] theorem State.modTiers_out (s : State) (f : Mem → Mem) : (s.modTiers f).out = s.out := rfl
@[simp] theorem State.modTiers_regs (s : State) (f : Mem → Mem) : (s.modTiers f).regs = s.regs := rfl
@[simp] theorem State.modTiers_pages (s : State) (f : Mem → Mem) : (s.modTiers f).pages = s.pages := rfl
@[simp] theorem State.modTiers_notices (s : State) (f : Mem → Mem) : (s.modTiers f).notices = s.notices := rfl
@[simp] theorem State.modTiers_pins (s : State) (f : Mem → Mem) : (s.modTiers f).pins = s.pins := rfl
@[simp] theorem State.modTiers_power (s : State) (f : Mem → Mem) : (s.modTiers f).power = s.power := rfl
@[simp] theorem State.modTiers_leave (s : State) (f : Mem → Mem) : (s.modTiers f).leave = s.leave := rfl
@[simp] theorem State.modTiers_cal (s : State) (f : Mem → Mem) : (s.modTiers f).cal = s.cal := rfl
@[simp] theorem State.modTiers_mem (s : State) (f : Mem → Mem) : (s.modTiers f).mem = s.mem := rfl
@[simp] theorem State.modTiers_tiers (s : State) (f : Mem → Mem) : (s.modTiers f).tiers = f s.tiers := rfl
@[simp] theorem State.modTiers_host (s : State) (f : Mem → Mem) : (s.modTiers f).host = s.host := rfl
@[simp] theorem State.modTiers_work (s : State) (f : Mem → Mem) : (s.modTiers f).work = s.work := rfl
@[simp] theorem State.modTiers_rennet (s : State) (f : Mem → Mem) : (s.modTiers f).rennet = s.rennet := rfl
@[simp] theorem State.modTiers_tide (s : State) (f : Mem → Mem) : (s.modTiers f).tide = s.tide := rfl
@[simp] theorem State.modTiers_node (s : State) (f : Mem → Mem) : (s.modTiers f).node = s.node := rfl
@[simp] theorem State.modTiers_fabric (s : State) (f : Mem → Mem) : (s.modTiers f).fabric = s.fabric := rfl
@[simp] theorem State.modTiers_twin (s : State) (f : Mem → Mem) : (s.modTiers f).twin = s.twin := rfl
@[simp] theorem State.modTiers_strainer (s : State) (f : Mem → Mem) : (s.modTiers f).strainer = s.strainer := rfl
@[simp] theorem State.modTiers_dlog (s : State) (f : Mem → Mem) : (s.modTiers f).dlog = s.dlog := rfl
@[simp] theorem State.modTiers_churn (s : State) (f : Mem → Mem) : (s.modTiers f).churn = s.churn := rfl
@[simp] theorem State.modTiers_ladle (s : State) (f : Mem → Mem) : (s.modTiers f).ladle = s.ladle := rfl
@[simp] theorem State.modTiers_herd (s : State) (f : Mem → Mem) : (s.modTiers f).herd = s.herd := rfl
@[simp] theorem State.modTiers_hosted (s : State) (f : Mem → Mem) : (s.modTiers f).hosted = s.hosted := rfl
@[simp] theorem State.modTiers_serve (s : State) (f : Mem → Mem) : (s.modTiers f).serve = s.serve := rfl
@[simp] theorem State.modTiers_rolar (s : State) (f : Mem → Mem) : (s.modTiers f).rolar = s.rolar := rfl
@[simp] theorem State.modTiers_stores (s : State) (f : Mem → Mem) : (s.modTiers f).stores = s.stores := rfl
@[simp] theorem State.modTiers_faults (s : State) (f : Mem → Mem) : (s.modTiers f).faults = s.faults := rfl
@[simp] theorem State.modTiers_fatalAt (s : State) (f : Mem → Mem) : (s.modTiers f).fatalAt = s.fatalAt := rfl
@[simp] theorem State.modTiers_platformEvents (s : State) (f : Mem → Mem) : (s.modTiers f).platformEvents = s.platformEvents := rfl

/-! State.modHost. -/

@[simp] theorem State.modHost_pending (s : State) (f : HostSide → HostSide) : (s.modHost f).pending = s.pending := rfl
@[simp] theorem State.modHost_chrono (s : State) (f : HostSide → HostSide) : (s.modHost f).chrono = s.chrono := rfl
@[simp] theorem State.modHost_free (s : State) (f : HostSide → HostSide) : (s.modHost f).free = s.free := rfl
@[simp] theorem State.modHost_out (s : State) (f : HostSide → HostSide) : (s.modHost f).out = s.out := rfl
@[simp] theorem State.modHost_regs (s : State) (f : HostSide → HostSide) : (s.modHost f).regs = s.regs := rfl
@[simp] theorem State.modHost_pages (s : State) (f : HostSide → HostSide) : (s.modHost f).pages = s.pages := rfl
@[simp] theorem State.modHost_notices (s : State) (f : HostSide → HostSide) : (s.modHost f).notices = s.notices := rfl
@[simp] theorem State.modHost_pins (s : State) (f : HostSide → HostSide) : (s.modHost f).pins = s.pins := rfl
@[simp] theorem State.modHost_power (s : State) (f : HostSide → HostSide) : (s.modHost f).power = s.power := rfl
@[simp] theorem State.modHost_leave (s : State) (f : HostSide → HostSide) : (s.modHost f).leave = s.leave := rfl
@[simp] theorem State.modHost_cal (s : State) (f : HostSide → HostSide) : (s.modHost f).cal = s.cal := rfl
@[simp] theorem State.modHost_mem (s : State) (f : HostSide → HostSide) : (s.modHost f).mem = s.mem := rfl
@[simp] theorem State.modHost_tiers (s : State) (f : HostSide → HostSide) : (s.modHost f).tiers = s.tiers := rfl
@[simp] theorem State.modHost_host (s : State) (f : HostSide → HostSide) : (s.modHost f).host = f s.host := rfl
@[simp] theorem State.modHost_work (s : State) (f : HostSide → HostSide) : (s.modHost f).work = s.work := rfl
@[simp] theorem State.modHost_rennet (s : State) (f : HostSide → HostSide) : (s.modHost f).rennet = s.rennet := rfl
@[simp] theorem State.modHost_tide (s : State) (f : HostSide → HostSide) : (s.modHost f).tide = s.tide := rfl
@[simp] theorem State.modHost_node (s : State) (f : HostSide → HostSide) : (s.modHost f).node = s.node := rfl
@[simp] theorem State.modHost_fabric (s : State) (f : HostSide → HostSide) : (s.modHost f).fabric = s.fabric := rfl
@[simp] theorem State.modHost_twin (s : State) (f : HostSide → HostSide) : (s.modHost f).twin = s.twin := rfl
@[simp] theorem State.modHost_strainer (s : State) (f : HostSide → HostSide) : (s.modHost f).strainer = s.strainer := rfl
@[simp] theorem State.modHost_dlog (s : State) (f : HostSide → HostSide) : (s.modHost f).dlog = s.dlog := rfl
@[simp] theorem State.modHost_churn (s : State) (f : HostSide → HostSide) : (s.modHost f).churn = s.churn := rfl
@[simp] theorem State.modHost_ladle (s : State) (f : HostSide → HostSide) : (s.modHost f).ladle = s.ladle := rfl
@[simp] theorem State.modHost_herd (s : State) (f : HostSide → HostSide) : (s.modHost f).herd = s.herd := rfl
@[simp] theorem State.modHost_hosted (s : State) (f : HostSide → HostSide) : (s.modHost f).hosted = s.hosted := rfl
@[simp] theorem State.modHost_serve (s : State) (f : HostSide → HostSide) : (s.modHost f).serve = s.serve := rfl
@[simp] theorem State.modHost_rolar (s : State) (f : HostSide → HostSide) : (s.modHost f).rolar = s.rolar := rfl
@[simp] theorem State.modHost_stores (s : State) (f : HostSide → HostSide) : (s.modHost f).stores = s.stores := rfl
@[simp] theorem State.modHost_faults (s : State) (f : HostSide → HostSide) : (s.modHost f).faults = s.faults := rfl
@[simp] theorem State.modHost_fatalAt (s : State) (f : HostSide → HostSide) : (s.modHost f).fatalAt = s.fatalAt := rfl
@[simp] theorem State.modHost_platformEvents (s : State) (f : HostSide → HostSide) : (s.modHost f).platformEvents = s.platformEvents := rfl

/-! State.modWork. -/

@[simp] theorem State.modWork_pending (s : State) (f : Work → Work) : (s.modWork f).pending = s.pending := rfl
@[simp] theorem State.modWork_chrono (s : State) (f : Work → Work) : (s.modWork f).chrono = s.chrono := rfl
@[simp] theorem State.modWork_free (s : State) (f : Work → Work) : (s.modWork f).free = s.free := rfl
@[simp] theorem State.modWork_out (s : State) (f : Work → Work) : (s.modWork f).out = s.out := rfl
@[simp] theorem State.modWork_regs (s : State) (f : Work → Work) : (s.modWork f).regs = s.regs := rfl
@[simp] theorem State.modWork_pages (s : State) (f : Work → Work) : (s.modWork f).pages = s.pages := rfl
@[simp] theorem State.modWork_notices (s : State) (f : Work → Work) : (s.modWork f).notices = s.notices := rfl
@[simp] theorem State.modWork_pins (s : State) (f : Work → Work) : (s.modWork f).pins = s.pins := rfl
@[simp] theorem State.modWork_power (s : State) (f : Work → Work) : (s.modWork f).power = s.power := rfl
@[simp] theorem State.modWork_leave (s : State) (f : Work → Work) : (s.modWork f).leave = s.leave := rfl
@[simp] theorem State.modWork_cal (s : State) (f : Work → Work) : (s.modWork f).cal = s.cal := rfl
@[simp] theorem State.modWork_mem (s : State) (f : Work → Work) : (s.modWork f).mem = s.mem := rfl
@[simp] theorem State.modWork_tiers (s : State) (f : Work → Work) : (s.modWork f).tiers = s.tiers := rfl
@[simp] theorem State.modWork_host (s : State) (f : Work → Work) : (s.modWork f).host = s.host := rfl
@[simp] theorem State.modWork_work (s : State) (f : Work → Work) : (s.modWork f).work = f s.work := rfl
@[simp] theorem State.modWork_rennet (s : State) (f : Work → Work) : (s.modWork f).rennet = s.rennet := rfl
@[simp] theorem State.modWork_tide (s : State) (f : Work → Work) : (s.modWork f).tide = s.tide := rfl
@[simp] theorem State.modWork_node (s : State) (f : Work → Work) : (s.modWork f).node = s.node := rfl
@[simp] theorem State.modWork_fabric (s : State) (f : Work → Work) : (s.modWork f).fabric = s.fabric := rfl
@[simp] theorem State.modWork_twin (s : State) (f : Work → Work) : (s.modWork f).twin = s.twin := rfl
@[simp] theorem State.modWork_strainer (s : State) (f : Work → Work) : (s.modWork f).strainer = s.strainer := rfl
@[simp] theorem State.modWork_dlog (s : State) (f : Work → Work) : (s.modWork f).dlog = s.dlog := rfl
@[simp] theorem State.modWork_churn (s : State) (f : Work → Work) : (s.modWork f).churn = s.churn := rfl
@[simp] theorem State.modWork_ladle (s : State) (f : Work → Work) : (s.modWork f).ladle = s.ladle := rfl
@[simp] theorem State.modWork_herd (s : State) (f : Work → Work) : (s.modWork f).herd = s.herd := rfl
@[simp] theorem State.modWork_hosted (s : State) (f : Work → Work) : (s.modWork f).hosted = s.hosted := rfl
@[simp] theorem State.modWork_serve (s : State) (f : Work → Work) : (s.modWork f).serve = s.serve := rfl
@[simp] theorem State.modWork_rolar (s : State) (f : Work → Work) : (s.modWork f).rolar = s.rolar := rfl
@[simp] theorem State.modWork_stores (s : State) (f : Work → Work) : (s.modWork f).stores = s.stores := rfl
@[simp] theorem State.modWork_faults (s : State) (f : Work → Work) : (s.modWork f).faults = s.faults := rfl
@[simp] theorem State.modWork_fatalAt (s : State) (f : Work → Work) : (s.modWork f).fatalAt = s.fatalAt := rfl
@[simp] theorem State.modWork_platformEvents (s : State) (f : Work → Work) : (s.modWork f).platformEvents = s.platformEvents := rfl

/-! State.modRennet. -/

@[simp] theorem State.modRennet_pending (s : State) (f : Rennet → Rennet) : (s.modRennet f).pending = s.pending := rfl
@[simp] theorem State.modRennet_chrono (s : State) (f : Rennet → Rennet) : (s.modRennet f).chrono = s.chrono := rfl
@[simp] theorem State.modRennet_free (s : State) (f : Rennet → Rennet) : (s.modRennet f).free = s.free := rfl
@[simp] theorem State.modRennet_out (s : State) (f : Rennet → Rennet) : (s.modRennet f).out = s.out := rfl
@[simp] theorem State.modRennet_regs (s : State) (f : Rennet → Rennet) : (s.modRennet f).regs = s.regs := rfl
@[simp] theorem State.modRennet_pages (s : State) (f : Rennet → Rennet) : (s.modRennet f).pages = s.pages := rfl
@[simp] theorem State.modRennet_notices (s : State) (f : Rennet → Rennet) : (s.modRennet f).notices = s.notices := rfl
@[simp] theorem State.modRennet_pins (s : State) (f : Rennet → Rennet) : (s.modRennet f).pins = s.pins := rfl
@[simp] theorem State.modRennet_power (s : State) (f : Rennet → Rennet) : (s.modRennet f).power = s.power := rfl
@[simp] theorem State.modRennet_leave (s : State) (f : Rennet → Rennet) : (s.modRennet f).leave = s.leave := rfl
@[simp] theorem State.modRennet_cal (s : State) (f : Rennet → Rennet) : (s.modRennet f).cal = s.cal := rfl
@[simp] theorem State.modRennet_mem (s : State) (f : Rennet → Rennet) : (s.modRennet f).mem = s.mem := rfl
@[simp] theorem State.modRennet_tiers (s : State) (f : Rennet → Rennet) : (s.modRennet f).tiers = s.tiers := rfl
@[simp] theorem State.modRennet_host (s : State) (f : Rennet → Rennet) : (s.modRennet f).host = s.host := rfl
@[simp] theorem State.modRennet_work (s : State) (f : Rennet → Rennet) : (s.modRennet f).work = s.work := rfl
@[simp] theorem State.modRennet_rennet (s : State) (f : Rennet → Rennet) : (s.modRennet f).rennet = f s.rennet := rfl
@[simp] theorem State.modRennet_tide (s : State) (f : Rennet → Rennet) : (s.modRennet f).tide = s.tide := rfl
@[simp] theorem State.modRennet_node (s : State) (f : Rennet → Rennet) : (s.modRennet f).node = s.node := rfl
@[simp] theorem State.modRennet_fabric (s : State) (f : Rennet → Rennet) : (s.modRennet f).fabric = s.fabric := rfl
@[simp] theorem State.modRennet_twin (s : State) (f : Rennet → Rennet) : (s.modRennet f).twin = s.twin := rfl
@[simp] theorem State.modRennet_strainer (s : State) (f : Rennet → Rennet) : (s.modRennet f).strainer = s.strainer := rfl
@[simp] theorem State.modRennet_dlog (s : State) (f : Rennet → Rennet) : (s.modRennet f).dlog = s.dlog := rfl
@[simp] theorem State.modRennet_churn (s : State) (f : Rennet → Rennet) : (s.modRennet f).churn = s.churn := rfl
@[simp] theorem State.modRennet_ladle (s : State) (f : Rennet → Rennet) : (s.modRennet f).ladle = s.ladle := rfl
@[simp] theorem State.modRennet_herd (s : State) (f : Rennet → Rennet) : (s.modRennet f).herd = s.herd := rfl
@[simp] theorem State.modRennet_hosted (s : State) (f : Rennet → Rennet) : (s.modRennet f).hosted = s.hosted := rfl
@[simp] theorem State.modRennet_serve (s : State) (f : Rennet → Rennet) : (s.modRennet f).serve = s.serve := rfl
@[simp] theorem State.modRennet_rolar (s : State) (f : Rennet → Rennet) : (s.modRennet f).rolar = s.rolar := rfl
@[simp] theorem State.modRennet_stores (s : State) (f : Rennet → Rennet) : (s.modRennet f).stores = s.stores := rfl
@[simp] theorem State.modRennet_faults (s : State) (f : Rennet → Rennet) : (s.modRennet f).faults = s.faults := rfl
@[simp] theorem State.modRennet_fatalAt (s : State) (f : Rennet → Rennet) : (s.modRennet f).fatalAt = s.fatalAt := rfl
@[simp] theorem State.modRennet_platformEvents (s : State) (f : Rennet → Rennet) : (s.modRennet f).platformEvents = s.platformEvents := rfl

/-! State.modTide. -/

@[simp] theorem State.modTide_pending (s : State) (f : Tide → Tide) : (s.modTide f).pending = s.pending := rfl
@[simp] theorem State.modTide_chrono (s : State) (f : Tide → Tide) : (s.modTide f).chrono = s.chrono := rfl
@[simp] theorem State.modTide_free (s : State) (f : Tide → Tide) : (s.modTide f).free = s.free := rfl
@[simp] theorem State.modTide_out (s : State) (f : Tide → Tide) : (s.modTide f).out = s.out := rfl
@[simp] theorem State.modTide_regs (s : State) (f : Tide → Tide) : (s.modTide f).regs = s.regs := rfl
@[simp] theorem State.modTide_pages (s : State) (f : Tide → Tide) : (s.modTide f).pages = s.pages := rfl
@[simp] theorem State.modTide_notices (s : State) (f : Tide → Tide) : (s.modTide f).notices = s.notices := rfl
@[simp] theorem State.modTide_pins (s : State) (f : Tide → Tide) : (s.modTide f).pins = s.pins := rfl
@[simp] theorem State.modTide_power (s : State) (f : Tide → Tide) : (s.modTide f).power = s.power := rfl
@[simp] theorem State.modTide_leave (s : State) (f : Tide → Tide) : (s.modTide f).leave = s.leave := rfl
@[simp] theorem State.modTide_cal (s : State) (f : Tide → Tide) : (s.modTide f).cal = s.cal := rfl
@[simp] theorem State.modTide_mem (s : State) (f : Tide → Tide) : (s.modTide f).mem = s.mem := rfl
@[simp] theorem State.modTide_tiers (s : State) (f : Tide → Tide) : (s.modTide f).tiers = s.tiers := rfl
@[simp] theorem State.modTide_host (s : State) (f : Tide → Tide) : (s.modTide f).host = s.host := rfl
@[simp] theorem State.modTide_work (s : State) (f : Tide → Tide) : (s.modTide f).work = s.work := rfl
@[simp] theorem State.modTide_rennet (s : State) (f : Tide → Tide) : (s.modTide f).rennet = s.rennet := rfl
@[simp] theorem State.modTide_tide (s : State) (f : Tide → Tide) : (s.modTide f).tide = f s.tide := rfl
@[simp] theorem State.modTide_node (s : State) (f : Tide → Tide) : (s.modTide f).node = s.node := rfl
@[simp] theorem State.modTide_fabric (s : State) (f : Tide → Tide) : (s.modTide f).fabric = s.fabric := rfl
@[simp] theorem State.modTide_twin (s : State) (f : Tide → Tide) : (s.modTide f).twin = s.twin := rfl
@[simp] theorem State.modTide_strainer (s : State) (f : Tide → Tide) : (s.modTide f).strainer = s.strainer := rfl
@[simp] theorem State.modTide_dlog (s : State) (f : Tide → Tide) : (s.modTide f).dlog = s.dlog := rfl
@[simp] theorem State.modTide_churn (s : State) (f : Tide → Tide) : (s.modTide f).churn = s.churn := rfl
@[simp] theorem State.modTide_ladle (s : State) (f : Tide → Tide) : (s.modTide f).ladle = s.ladle := rfl
@[simp] theorem State.modTide_herd (s : State) (f : Tide → Tide) : (s.modTide f).herd = s.herd := rfl
@[simp] theorem State.modTide_hosted (s : State) (f : Tide → Tide) : (s.modTide f).hosted = s.hosted := rfl
@[simp] theorem State.modTide_serve (s : State) (f : Tide → Tide) : (s.modTide f).serve = s.serve := rfl
@[simp] theorem State.modTide_rolar (s : State) (f : Tide → Tide) : (s.modTide f).rolar = s.rolar := rfl
@[simp] theorem State.modTide_stores (s : State) (f : Tide → Tide) : (s.modTide f).stores = s.stores := rfl
@[simp] theorem State.modTide_faults (s : State) (f : Tide → Tide) : (s.modTide f).faults = s.faults := rfl
@[simp] theorem State.modTide_fatalAt (s : State) (f : Tide → Tide) : (s.modTide f).fatalAt = s.fatalAt := rfl
@[simp] theorem State.modTide_platformEvents (s : State) (f : Tide → Tide) : (s.modTide f).platformEvents = s.platformEvents := rfl

/-! State.modFabric. -/

@[simp] theorem State.modFabric_pending (s : State) (f : Fabric → Fabric) : (s.modFabric f).pending = s.pending := rfl
@[simp] theorem State.modFabric_chrono (s : State) (f : Fabric → Fabric) : (s.modFabric f).chrono = s.chrono := rfl
@[simp] theorem State.modFabric_free (s : State) (f : Fabric → Fabric) : (s.modFabric f).free = s.free := rfl
@[simp] theorem State.modFabric_out (s : State) (f : Fabric → Fabric) : (s.modFabric f).out = s.out := rfl
@[simp] theorem State.modFabric_regs (s : State) (f : Fabric → Fabric) : (s.modFabric f).regs = s.regs := rfl
@[simp] theorem State.modFabric_pages (s : State) (f : Fabric → Fabric) : (s.modFabric f).pages = s.pages := rfl
@[simp] theorem State.modFabric_notices (s : State) (f : Fabric → Fabric) : (s.modFabric f).notices = s.notices := rfl
@[simp] theorem State.modFabric_pins (s : State) (f : Fabric → Fabric) : (s.modFabric f).pins = s.pins := rfl
@[simp] theorem State.modFabric_power (s : State) (f : Fabric → Fabric) : (s.modFabric f).power = s.power := rfl
@[simp] theorem State.modFabric_leave (s : State) (f : Fabric → Fabric) : (s.modFabric f).leave = s.leave := rfl
@[simp] theorem State.modFabric_cal (s : State) (f : Fabric → Fabric) : (s.modFabric f).cal = s.cal := rfl
@[simp] theorem State.modFabric_mem (s : State) (f : Fabric → Fabric) : (s.modFabric f).mem = s.mem := rfl
@[simp] theorem State.modFabric_tiers (s : State) (f : Fabric → Fabric) : (s.modFabric f).tiers = s.tiers := rfl
@[simp] theorem State.modFabric_host (s : State) (f : Fabric → Fabric) : (s.modFabric f).host = s.host := rfl
@[simp] theorem State.modFabric_work (s : State) (f : Fabric → Fabric) : (s.modFabric f).work = s.work := rfl
@[simp] theorem State.modFabric_rennet (s : State) (f : Fabric → Fabric) : (s.modFabric f).rennet = s.rennet := rfl
@[simp] theorem State.modFabric_tide (s : State) (f : Fabric → Fabric) : (s.modFabric f).tide = s.tide := rfl
@[simp] theorem State.modFabric_node (s : State) (f : Fabric → Fabric) : (s.modFabric f).node = s.node := rfl
@[simp] theorem State.modFabric_fabric (s : State) (f : Fabric → Fabric) : (s.modFabric f).fabric = f s.fabric := rfl
@[simp] theorem State.modFabric_twin (s : State) (f : Fabric → Fabric) : (s.modFabric f).twin = s.twin := rfl
@[simp] theorem State.modFabric_strainer (s : State) (f : Fabric → Fabric) : (s.modFabric f).strainer = s.strainer := rfl
@[simp] theorem State.modFabric_dlog (s : State) (f : Fabric → Fabric) : (s.modFabric f).dlog = s.dlog := rfl
@[simp] theorem State.modFabric_churn (s : State) (f : Fabric → Fabric) : (s.modFabric f).churn = s.churn := rfl
@[simp] theorem State.modFabric_ladle (s : State) (f : Fabric → Fabric) : (s.modFabric f).ladle = s.ladle := rfl
@[simp] theorem State.modFabric_herd (s : State) (f : Fabric → Fabric) : (s.modFabric f).herd = s.herd := rfl
@[simp] theorem State.modFabric_hosted (s : State) (f : Fabric → Fabric) : (s.modFabric f).hosted = s.hosted := rfl
@[simp] theorem State.modFabric_serve (s : State) (f : Fabric → Fabric) : (s.modFabric f).serve = s.serve := rfl
@[simp] theorem State.modFabric_rolar (s : State) (f : Fabric → Fabric) : (s.modFabric f).rolar = s.rolar := rfl
@[simp] theorem State.modFabric_stores (s : State) (f : Fabric → Fabric) : (s.modFabric f).stores = s.stores := rfl
@[simp] theorem State.modFabric_faults (s : State) (f : Fabric → Fabric) : (s.modFabric f).faults = s.faults := rfl
@[simp] theorem State.modFabric_fatalAt (s : State) (f : Fabric → Fabric) : (s.modFabric f).fatalAt = s.fatalAt := rfl
@[simp] theorem State.modFabric_platformEvents (s : State) (f : Fabric → Fabric) : (s.modFabric f).platformEvents = s.platformEvents := rfl

/-! State.modStrainer. -/

@[simp] theorem State.modStrainer_pending (s : State) (f : Strainer → Strainer) : (s.modStrainer f).pending = s.pending := rfl
@[simp] theorem State.modStrainer_chrono (s : State) (f : Strainer → Strainer) : (s.modStrainer f).chrono = s.chrono := rfl
@[simp] theorem State.modStrainer_free (s : State) (f : Strainer → Strainer) : (s.modStrainer f).free = s.free := rfl
@[simp] theorem State.modStrainer_out (s : State) (f : Strainer → Strainer) : (s.modStrainer f).out = s.out := rfl
@[simp] theorem State.modStrainer_regs (s : State) (f : Strainer → Strainer) : (s.modStrainer f).regs = s.regs := rfl
@[simp] theorem State.modStrainer_pages (s : State) (f : Strainer → Strainer) : (s.modStrainer f).pages = s.pages := rfl
@[simp] theorem State.modStrainer_notices (s : State) (f : Strainer → Strainer) : (s.modStrainer f).notices = s.notices := rfl
@[simp] theorem State.modStrainer_pins (s : State) (f : Strainer → Strainer) : (s.modStrainer f).pins = s.pins := rfl
@[simp] theorem State.modStrainer_power (s : State) (f : Strainer → Strainer) : (s.modStrainer f).power = s.power := rfl
@[simp] theorem State.modStrainer_leave (s : State) (f : Strainer → Strainer) : (s.modStrainer f).leave = s.leave := rfl
@[simp] theorem State.modStrainer_cal (s : State) (f : Strainer → Strainer) : (s.modStrainer f).cal = s.cal := rfl
@[simp] theorem State.modStrainer_mem (s : State) (f : Strainer → Strainer) : (s.modStrainer f).mem = s.mem := rfl
@[simp] theorem State.modStrainer_tiers (s : State) (f : Strainer → Strainer) : (s.modStrainer f).tiers = s.tiers := rfl
@[simp] theorem State.modStrainer_host (s : State) (f : Strainer → Strainer) : (s.modStrainer f).host = s.host := rfl
@[simp] theorem State.modStrainer_work (s : State) (f : Strainer → Strainer) : (s.modStrainer f).work = s.work := rfl
@[simp] theorem State.modStrainer_rennet (s : State) (f : Strainer → Strainer) : (s.modStrainer f).rennet = s.rennet := rfl
@[simp] theorem State.modStrainer_tide (s : State) (f : Strainer → Strainer) : (s.modStrainer f).tide = s.tide := rfl
@[simp] theorem State.modStrainer_node (s : State) (f : Strainer → Strainer) : (s.modStrainer f).node = s.node := rfl
@[simp] theorem State.modStrainer_fabric (s : State) (f : Strainer → Strainer) : (s.modStrainer f).fabric = s.fabric := rfl
@[simp] theorem State.modStrainer_twin (s : State) (f : Strainer → Strainer) : (s.modStrainer f).twin = s.twin := rfl
@[simp] theorem State.modStrainer_strainer (s : State) (f : Strainer → Strainer) : (s.modStrainer f).strainer = f s.strainer := rfl
@[simp] theorem State.modStrainer_dlog (s : State) (f : Strainer → Strainer) : (s.modStrainer f).dlog = s.dlog := rfl
@[simp] theorem State.modStrainer_churn (s : State) (f : Strainer → Strainer) : (s.modStrainer f).churn = s.churn := rfl
@[simp] theorem State.modStrainer_ladle (s : State) (f : Strainer → Strainer) : (s.modStrainer f).ladle = s.ladle := rfl
@[simp] theorem State.modStrainer_herd (s : State) (f : Strainer → Strainer) : (s.modStrainer f).herd = s.herd := rfl
@[simp] theorem State.modStrainer_hosted (s : State) (f : Strainer → Strainer) : (s.modStrainer f).hosted = s.hosted := rfl
@[simp] theorem State.modStrainer_serve (s : State) (f : Strainer → Strainer) : (s.modStrainer f).serve = s.serve := rfl
@[simp] theorem State.modStrainer_rolar (s : State) (f : Strainer → Strainer) : (s.modStrainer f).rolar = s.rolar := rfl
@[simp] theorem State.modStrainer_stores (s : State) (f : Strainer → Strainer) : (s.modStrainer f).stores = s.stores := rfl
@[simp] theorem State.modStrainer_faults (s : State) (f : Strainer → Strainer) : (s.modStrainer f).faults = s.faults := rfl
@[simp] theorem State.modStrainer_fatalAt (s : State) (f : Strainer → Strainer) : (s.modStrainer f).fatalAt = s.fatalAt := rfl
@[simp] theorem State.modStrainer_platformEvents (s : State) (f : Strainer → Strainer) : (s.modStrainer f).platformEvents = s.platformEvents := rfl

/-! State.modLadle. -/

@[simp] theorem State.modLadle_pending (s : State) (f : Ladle → Ladle) : (s.modLadle f).pending = s.pending := rfl
@[simp] theorem State.modLadle_chrono (s : State) (f : Ladle → Ladle) : (s.modLadle f).chrono = s.chrono := rfl
@[simp] theorem State.modLadle_free (s : State) (f : Ladle → Ladle) : (s.modLadle f).free = s.free := rfl
@[simp] theorem State.modLadle_out (s : State) (f : Ladle → Ladle) : (s.modLadle f).out = s.out := rfl
@[simp] theorem State.modLadle_regs (s : State) (f : Ladle → Ladle) : (s.modLadle f).regs = s.regs := rfl
@[simp] theorem State.modLadle_pages (s : State) (f : Ladle → Ladle) : (s.modLadle f).pages = s.pages := rfl
@[simp] theorem State.modLadle_notices (s : State) (f : Ladle → Ladle) : (s.modLadle f).notices = s.notices := rfl
@[simp] theorem State.modLadle_pins (s : State) (f : Ladle → Ladle) : (s.modLadle f).pins = s.pins := rfl
@[simp] theorem State.modLadle_power (s : State) (f : Ladle → Ladle) : (s.modLadle f).power = s.power := rfl
@[simp] theorem State.modLadle_leave (s : State) (f : Ladle → Ladle) : (s.modLadle f).leave = s.leave := rfl
@[simp] theorem State.modLadle_cal (s : State) (f : Ladle → Ladle) : (s.modLadle f).cal = s.cal := rfl
@[simp] theorem State.modLadle_mem (s : State) (f : Ladle → Ladle) : (s.modLadle f).mem = s.mem := rfl
@[simp] theorem State.modLadle_tiers (s : State) (f : Ladle → Ladle) : (s.modLadle f).tiers = s.tiers := rfl
@[simp] theorem State.modLadle_host (s : State) (f : Ladle → Ladle) : (s.modLadle f).host = s.host := rfl
@[simp] theorem State.modLadle_work (s : State) (f : Ladle → Ladle) : (s.modLadle f).work = s.work := rfl
@[simp] theorem State.modLadle_rennet (s : State) (f : Ladle → Ladle) : (s.modLadle f).rennet = s.rennet := rfl
@[simp] theorem State.modLadle_tide (s : State) (f : Ladle → Ladle) : (s.modLadle f).tide = s.tide := rfl
@[simp] theorem State.modLadle_node (s : State) (f : Ladle → Ladle) : (s.modLadle f).node = s.node := rfl
@[simp] theorem State.modLadle_fabric (s : State) (f : Ladle → Ladle) : (s.modLadle f).fabric = s.fabric := rfl
@[simp] theorem State.modLadle_twin (s : State) (f : Ladle → Ladle) : (s.modLadle f).twin = s.twin := rfl
@[simp] theorem State.modLadle_strainer (s : State) (f : Ladle → Ladle) : (s.modLadle f).strainer = s.strainer := rfl
@[simp] theorem State.modLadle_dlog (s : State) (f : Ladle → Ladle) : (s.modLadle f).dlog = s.dlog := rfl
@[simp] theorem State.modLadle_churn (s : State) (f : Ladle → Ladle) : (s.modLadle f).churn = s.churn := rfl
@[simp] theorem State.modLadle_ladle (s : State) (f : Ladle → Ladle) : (s.modLadle f).ladle = f s.ladle := rfl
@[simp] theorem State.modLadle_herd (s : State) (f : Ladle → Ladle) : (s.modLadle f).herd = s.herd := rfl
@[simp] theorem State.modLadle_hosted (s : State) (f : Ladle → Ladle) : (s.modLadle f).hosted = s.hosted := rfl
@[simp] theorem State.modLadle_serve (s : State) (f : Ladle → Ladle) : (s.modLadle f).serve = s.serve := rfl
@[simp] theorem State.modLadle_rolar (s : State) (f : Ladle → Ladle) : (s.modLadle f).rolar = s.rolar := rfl
@[simp] theorem State.modLadle_stores (s : State) (f : Ladle → Ladle) : (s.modLadle f).stores = s.stores := rfl
@[simp] theorem State.modLadle_faults (s : State) (f : Ladle → Ladle) : (s.modLadle f).faults = s.faults := rfl
@[simp] theorem State.modLadle_fatalAt (s : State) (f : Ladle → Ladle) : (s.modLadle f).fatalAt = s.fatalAt := rfl
@[simp] theorem State.modLadle_platformEvents (s : State) (f : Ladle → Ladle) : (s.modLadle f).platformEvents = s.platformEvents := rfl

/-! State.modHerd. -/

@[simp] theorem State.modHerd_pending (s : State) (f : Herd → Herd) : (s.modHerd f).pending = s.pending := rfl
@[simp] theorem State.modHerd_chrono (s : State) (f : Herd → Herd) : (s.modHerd f).chrono = s.chrono := rfl
@[simp] theorem State.modHerd_free (s : State) (f : Herd → Herd) : (s.modHerd f).free = s.free := rfl
@[simp] theorem State.modHerd_out (s : State) (f : Herd → Herd) : (s.modHerd f).out = s.out := rfl
@[simp] theorem State.modHerd_regs (s : State) (f : Herd → Herd) : (s.modHerd f).regs = s.regs := rfl
@[simp] theorem State.modHerd_pages (s : State) (f : Herd → Herd) : (s.modHerd f).pages = s.pages := rfl
@[simp] theorem State.modHerd_notices (s : State) (f : Herd → Herd) : (s.modHerd f).notices = s.notices := rfl
@[simp] theorem State.modHerd_pins (s : State) (f : Herd → Herd) : (s.modHerd f).pins = s.pins := rfl
@[simp] theorem State.modHerd_power (s : State) (f : Herd → Herd) : (s.modHerd f).power = s.power := rfl
@[simp] theorem State.modHerd_leave (s : State) (f : Herd → Herd) : (s.modHerd f).leave = s.leave := rfl
@[simp] theorem State.modHerd_cal (s : State) (f : Herd → Herd) : (s.modHerd f).cal = s.cal := rfl
@[simp] theorem State.modHerd_mem (s : State) (f : Herd → Herd) : (s.modHerd f).mem = s.mem := rfl
@[simp] theorem State.modHerd_tiers (s : State) (f : Herd → Herd) : (s.modHerd f).tiers = s.tiers := rfl
@[simp] theorem State.modHerd_host (s : State) (f : Herd → Herd) : (s.modHerd f).host = s.host := rfl
@[simp] theorem State.modHerd_work (s : State) (f : Herd → Herd) : (s.modHerd f).work = s.work := rfl
@[simp] theorem State.modHerd_rennet (s : State) (f : Herd → Herd) : (s.modHerd f).rennet = s.rennet := rfl
@[simp] theorem State.modHerd_tide (s : State) (f : Herd → Herd) : (s.modHerd f).tide = s.tide := rfl
@[simp] theorem State.modHerd_node (s : State) (f : Herd → Herd) : (s.modHerd f).node = s.node := rfl
@[simp] theorem State.modHerd_fabric (s : State) (f : Herd → Herd) : (s.modHerd f).fabric = s.fabric := rfl
@[simp] theorem State.modHerd_twin (s : State) (f : Herd → Herd) : (s.modHerd f).twin = s.twin := rfl
@[simp] theorem State.modHerd_strainer (s : State) (f : Herd → Herd) : (s.modHerd f).strainer = s.strainer := rfl
@[simp] theorem State.modHerd_dlog (s : State) (f : Herd → Herd) : (s.modHerd f).dlog = s.dlog := rfl
@[simp] theorem State.modHerd_churn (s : State) (f : Herd → Herd) : (s.modHerd f).churn = s.churn := rfl
@[simp] theorem State.modHerd_ladle (s : State) (f : Herd → Herd) : (s.modHerd f).ladle = s.ladle := rfl
@[simp] theorem State.modHerd_herd (s : State) (f : Herd → Herd) : (s.modHerd f).herd = f s.herd := rfl
@[simp] theorem State.modHerd_hosted (s : State) (f : Herd → Herd) : (s.modHerd f).hosted = s.hosted := rfl
@[simp] theorem State.modHerd_serve (s : State) (f : Herd → Herd) : (s.modHerd f).serve = s.serve := rfl
@[simp] theorem State.modHerd_rolar (s : State) (f : Herd → Herd) : (s.modHerd f).rolar = s.rolar := rfl
@[simp] theorem State.modHerd_stores (s : State) (f : Herd → Herd) : (s.modHerd f).stores = s.stores := rfl
@[simp] theorem State.modHerd_faults (s : State) (f : Herd → Herd) : (s.modHerd f).faults = s.faults := rfl
@[simp] theorem State.modHerd_fatalAt (s : State) (f : Herd → Herd) : (s.modHerd f).fatalAt = s.fatalAt := rfl
@[simp] theorem State.modHerd_platformEvents (s : State) (f : Herd → Herd) : (s.modHerd f).platformEvents = s.platformEvents := rfl

/-! State.modServe. -/

@[simp] theorem State.modServe_pending (s : State) (f : Serve → Serve) : (s.modServe f).pending = s.pending := rfl
@[simp] theorem State.modServe_chrono (s : State) (f : Serve → Serve) : (s.modServe f).chrono = s.chrono := rfl
@[simp] theorem State.modServe_free (s : State) (f : Serve → Serve) : (s.modServe f).free = s.free := rfl
@[simp] theorem State.modServe_out (s : State) (f : Serve → Serve) : (s.modServe f).out = s.out := rfl
@[simp] theorem State.modServe_regs (s : State) (f : Serve → Serve) : (s.modServe f).regs = s.regs := rfl
@[simp] theorem State.modServe_pages (s : State) (f : Serve → Serve) : (s.modServe f).pages = s.pages := rfl
@[simp] theorem State.modServe_notices (s : State) (f : Serve → Serve) : (s.modServe f).notices = s.notices := rfl
@[simp] theorem State.modServe_pins (s : State) (f : Serve → Serve) : (s.modServe f).pins = s.pins := rfl
@[simp] theorem State.modServe_power (s : State) (f : Serve → Serve) : (s.modServe f).power = s.power := rfl
@[simp] theorem State.modServe_leave (s : State) (f : Serve → Serve) : (s.modServe f).leave = s.leave := rfl
@[simp] theorem State.modServe_cal (s : State) (f : Serve → Serve) : (s.modServe f).cal = s.cal := rfl
@[simp] theorem State.modServe_mem (s : State) (f : Serve → Serve) : (s.modServe f).mem = s.mem := rfl
@[simp] theorem State.modServe_tiers (s : State) (f : Serve → Serve) : (s.modServe f).tiers = s.tiers := rfl
@[simp] theorem State.modServe_host (s : State) (f : Serve → Serve) : (s.modServe f).host = s.host := rfl
@[simp] theorem State.modServe_work (s : State) (f : Serve → Serve) : (s.modServe f).work = s.work := rfl
@[simp] theorem State.modServe_rennet (s : State) (f : Serve → Serve) : (s.modServe f).rennet = s.rennet := rfl
@[simp] theorem State.modServe_tide (s : State) (f : Serve → Serve) : (s.modServe f).tide = s.tide := rfl
@[simp] theorem State.modServe_node (s : State) (f : Serve → Serve) : (s.modServe f).node = s.node := rfl
@[simp] theorem State.modServe_fabric (s : State) (f : Serve → Serve) : (s.modServe f).fabric = s.fabric := rfl
@[simp] theorem State.modServe_twin (s : State) (f : Serve → Serve) : (s.modServe f).twin = s.twin := rfl
@[simp] theorem State.modServe_strainer (s : State) (f : Serve → Serve) : (s.modServe f).strainer = s.strainer := rfl
@[simp] theorem State.modServe_dlog (s : State) (f : Serve → Serve) : (s.modServe f).dlog = s.dlog := rfl
@[simp] theorem State.modServe_churn (s : State) (f : Serve → Serve) : (s.modServe f).churn = s.churn := rfl
@[simp] theorem State.modServe_ladle (s : State) (f : Serve → Serve) : (s.modServe f).ladle = s.ladle := rfl
@[simp] theorem State.modServe_herd (s : State) (f : Serve → Serve) : (s.modServe f).herd = s.herd := rfl
@[simp] theorem State.modServe_hosted (s : State) (f : Serve → Serve) : (s.modServe f).hosted = s.hosted := rfl
@[simp] theorem State.modServe_serve (s : State) (f : Serve → Serve) : (s.modServe f).serve = f s.serve := rfl
@[simp] theorem State.modServe_rolar (s : State) (f : Serve → Serve) : (s.modServe f).rolar = s.rolar := rfl
@[simp] theorem State.modServe_stores (s : State) (f : Serve → Serve) : (s.modServe f).stores = s.stores := rfl
@[simp] theorem State.modServe_faults (s : State) (f : Serve → Serve) : (s.modServe f).faults = s.faults := rfl
@[simp] theorem State.modServe_fatalAt (s : State) (f : Serve → Serve) : (s.modServe f).fatalAt = s.fatalAt := rfl
@[simp] theorem State.modServe_platformEvents (s : State) (f : Serve → Serve) : (s.modServe f).platformEvents = s.platformEvents := rfl

/-! State.modRolar. -/

@[simp] theorem State.modRolar_pending (s : State) (f : Rolar → Rolar) : (s.modRolar f).pending = s.pending := rfl
@[simp] theorem State.modRolar_chrono (s : State) (f : Rolar → Rolar) : (s.modRolar f).chrono = s.chrono := rfl
@[simp] theorem State.modRolar_free (s : State) (f : Rolar → Rolar) : (s.modRolar f).free = s.free := rfl
@[simp] theorem State.modRolar_out (s : State) (f : Rolar → Rolar) : (s.modRolar f).out = s.out := rfl
@[simp] theorem State.modRolar_regs (s : State) (f : Rolar → Rolar) : (s.modRolar f).regs = s.regs := rfl
@[simp] theorem State.modRolar_pages (s : State) (f : Rolar → Rolar) : (s.modRolar f).pages = s.pages := rfl
@[simp] theorem State.modRolar_notices (s : State) (f : Rolar → Rolar) : (s.modRolar f).notices = s.notices := rfl
@[simp] theorem State.modRolar_pins (s : State) (f : Rolar → Rolar) : (s.modRolar f).pins = s.pins := rfl
@[simp] theorem State.modRolar_power (s : State) (f : Rolar → Rolar) : (s.modRolar f).power = s.power := rfl
@[simp] theorem State.modRolar_leave (s : State) (f : Rolar → Rolar) : (s.modRolar f).leave = s.leave := rfl
@[simp] theorem State.modRolar_cal (s : State) (f : Rolar → Rolar) : (s.modRolar f).cal = s.cal := rfl
@[simp] theorem State.modRolar_mem (s : State) (f : Rolar → Rolar) : (s.modRolar f).mem = s.mem := rfl
@[simp] theorem State.modRolar_tiers (s : State) (f : Rolar → Rolar) : (s.modRolar f).tiers = s.tiers := rfl
@[simp] theorem State.modRolar_host (s : State) (f : Rolar → Rolar) : (s.modRolar f).host = s.host := rfl
@[simp] theorem State.modRolar_work (s : State) (f : Rolar → Rolar) : (s.modRolar f).work = s.work := rfl
@[simp] theorem State.modRolar_rennet (s : State) (f : Rolar → Rolar) : (s.modRolar f).rennet = s.rennet := rfl
@[simp] theorem State.modRolar_tide (s : State) (f : Rolar → Rolar) : (s.modRolar f).tide = s.tide := rfl
@[simp] theorem State.modRolar_node (s : State) (f : Rolar → Rolar) : (s.modRolar f).node = s.node := rfl
@[simp] theorem State.modRolar_fabric (s : State) (f : Rolar → Rolar) : (s.modRolar f).fabric = s.fabric := rfl
@[simp] theorem State.modRolar_twin (s : State) (f : Rolar → Rolar) : (s.modRolar f).twin = s.twin := rfl
@[simp] theorem State.modRolar_strainer (s : State) (f : Rolar → Rolar) : (s.modRolar f).strainer = s.strainer := rfl
@[simp] theorem State.modRolar_dlog (s : State) (f : Rolar → Rolar) : (s.modRolar f).dlog = s.dlog := rfl
@[simp] theorem State.modRolar_churn (s : State) (f : Rolar → Rolar) : (s.modRolar f).churn = s.churn := rfl
@[simp] theorem State.modRolar_ladle (s : State) (f : Rolar → Rolar) : (s.modRolar f).ladle = s.ladle := rfl
@[simp] theorem State.modRolar_herd (s : State) (f : Rolar → Rolar) : (s.modRolar f).herd = s.herd := rfl
@[simp] theorem State.modRolar_hosted (s : State) (f : Rolar → Rolar) : (s.modRolar f).hosted = s.hosted := rfl
@[simp] theorem State.modRolar_serve (s : State) (f : Rolar → Rolar) : (s.modRolar f).serve = s.serve := rfl
@[simp] theorem State.modRolar_rolar (s : State) (f : Rolar → Rolar) : (s.modRolar f).rolar = f s.rolar := rfl
@[simp] theorem State.modRolar_stores (s : State) (f : Rolar → Rolar) : (s.modRolar f).stores = s.stores := rfl
@[simp] theorem State.modRolar_faults (s : State) (f : Rolar → Rolar) : (s.modRolar f).faults = s.faults := rfl
@[simp] theorem State.modRolar_fatalAt (s : State) (f : Rolar → Rolar) : (s.modRolar f).fatalAt = s.fatalAt := rfl
@[simp] theorem State.modRolar_platformEvents (s : State) (f : Rolar → Rolar) : (s.modRolar f).platformEvents = s.platformEvents := rfl

/-! State.modTwin. -/

@[simp] theorem State.modTwin_pending (s : State) (f : Twin → Twin) : (s.modTwin f).pending = s.pending := rfl
@[simp] theorem State.modTwin_chrono (s : State) (f : Twin → Twin) : (s.modTwin f).chrono = s.chrono := rfl
@[simp] theorem State.modTwin_free (s : State) (f : Twin → Twin) : (s.modTwin f).free = s.free := rfl
@[simp] theorem State.modTwin_out (s : State) (f : Twin → Twin) : (s.modTwin f).out = s.out := rfl
@[simp] theorem State.modTwin_regs (s : State) (f : Twin → Twin) : (s.modTwin f).regs = s.regs := rfl
@[simp] theorem State.modTwin_pages (s : State) (f : Twin → Twin) : (s.modTwin f).pages = s.pages := rfl
@[simp] theorem State.modTwin_notices (s : State) (f : Twin → Twin) : (s.modTwin f).notices = s.notices := rfl
@[simp] theorem State.modTwin_pins (s : State) (f : Twin → Twin) : (s.modTwin f).pins = s.pins := rfl
@[simp] theorem State.modTwin_power (s : State) (f : Twin → Twin) : (s.modTwin f).power = s.power := rfl
@[simp] theorem State.modTwin_leave (s : State) (f : Twin → Twin) : (s.modTwin f).leave = s.leave := rfl
@[simp] theorem State.modTwin_cal (s : State) (f : Twin → Twin) : (s.modTwin f).cal = s.cal := rfl
@[simp] theorem State.modTwin_mem (s : State) (f : Twin → Twin) : (s.modTwin f).mem = s.mem := rfl
@[simp] theorem State.modTwin_tiers (s : State) (f : Twin → Twin) : (s.modTwin f).tiers = s.tiers := rfl
@[simp] theorem State.modTwin_host (s : State) (f : Twin → Twin) : (s.modTwin f).host = s.host := rfl
@[simp] theorem State.modTwin_work (s : State) (f : Twin → Twin) : (s.modTwin f).work = s.work := rfl
@[simp] theorem State.modTwin_rennet (s : State) (f : Twin → Twin) : (s.modTwin f).rennet = s.rennet := rfl
@[simp] theorem State.modTwin_tide (s : State) (f : Twin → Twin) : (s.modTwin f).tide = s.tide := rfl
@[simp] theorem State.modTwin_node (s : State) (f : Twin → Twin) : (s.modTwin f).node = s.node := rfl
@[simp] theorem State.modTwin_fabric (s : State) (f : Twin → Twin) : (s.modTwin f).fabric = s.fabric := rfl
@[simp] theorem State.modTwin_twin (s : State) (f : Twin → Twin) : (s.modTwin f).twin = f s.twin := rfl
@[simp] theorem State.modTwin_strainer (s : State) (f : Twin → Twin) : (s.modTwin f).strainer = s.strainer := rfl
@[simp] theorem State.modTwin_dlog (s : State) (f : Twin → Twin) : (s.modTwin f).dlog = s.dlog := rfl
@[simp] theorem State.modTwin_churn (s : State) (f : Twin → Twin) : (s.modTwin f).churn = s.churn := rfl
@[simp] theorem State.modTwin_ladle (s : State) (f : Twin → Twin) : (s.modTwin f).ladle = s.ladle := rfl
@[simp] theorem State.modTwin_herd (s : State) (f : Twin → Twin) : (s.modTwin f).herd = s.herd := rfl
@[simp] theorem State.modTwin_hosted (s : State) (f : Twin → Twin) : (s.modTwin f).hosted = s.hosted := rfl
@[simp] theorem State.modTwin_serve (s : State) (f : Twin → Twin) : (s.modTwin f).serve = s.serve := rfl
@[simp] theorem State.modTwin_rolar (s : State) (f : Twin → Twin) : (s.modTwin f).rolar = s.rolar := rfl
@[simp] theorem State.modTwin_stores (s : State) (f : Twin → Twin) : (s.modTwin f).stores = s.stores := rfl
@[simp] theorem State.modTwin_faults (s : State) (f : Twin → Twin) : (s.modTwin f).faults = s.faults := rfl
@[simp] theorem State.modTwin_fatalAt (s : State) (f : Twin → Twin) : (s.modTwin f).fatalAt = s.fatalAt := rfl
@[simp] theorem State.modTwin_platformEvents (s : State) (f : Twin → Twin) : (s.modTwin f).platformEvents = s.platformEvents := rfl

/-! State.modSession. -/

@[simp] theorem State.modSession_pending (s : State) (f : Session → Session) : (s.modSession f).pending = s.pending := rfl
@[simp] theorem State.modSession_chrono (s : State) (f : Session → Session) : (s.modSession f).chrono = s.chrono := rfl
@[simp] theorem State.modSession_free (s : State) (f : Session → Session) : (s.modSession f).free = s.free := rfl
@[simp] theorem State.modSession_out (s : State) (f : Session → Session) : (s.modSession f).out = s.out := rfl
@[simp] theorem State.modSession_regs (s : State) (f : Session → Session) : (s.modSession f).regs = s.regs := rfl
@[simp] theorem State.modSession_pages (s : State) (f : Session → Session) : (s.modSession f).pages = s.pages := rfl
@[simp] theorem State.modSession_notices (s : State) (f : Session → Session) : (s.modSession f).notices = s.notices := rfl
@[simp] theorem State.modSession_pins (s : State) (f : Session → Session) : (s.modSession f).pins = s.pins := rfl
@[simp] theorem State.modSession_power (s : State) (f : Session → Session) : (s.modSession f).power = s.power := rfl
@[simp] theorem State.modSession_leave (s : State) (f : Session → Session) : (s.modSession f).leave = s.leave := rfl
@[simp] theorem State.modSession_cal (s : State) (f : Session → Session) : (s.modSession f).cal = s.cal := rfl
@[simp] theorem State.modSession_mem (s : State) (f : Session → Session) : (s.modSession f).mem = s.mem := rfl
@[simp] theorem State.modSession_tiers (s : State) (f : Session → Session) : (s.modSession f).tiers = s.tiers := rfl
@[simp] theorem State.modSession_host (s : State) (f : Session → Session) : (s.modSession f).host = { s.host with session := f s.host.session } := rfl
@[simp] theorem State.modSession_work (s : State) (f : Session → Session) : (s.modSession f).work = s.work := rfl
@[simp] theorem State.modSession_rennet (s : State) (f : Session → Session) : (s.modSession f).rennet = s.rennet := rfl
@[simp] theorem State.modSession_tide (s : State) (f : Session → Session) : (s.modSession f).tide = s.tide := rfl
@[simp] theorem State.modSession_node (s : State) (f : Session → Session) : (s.modSession f).node = s.node := rfl
@[simp] theorem State.modSession_fabric (s : State) (f : Session → Session) : (s.modSession f).fabric = s.fabric := rfl
@[simp] theorem State.modSession_twin (s : State) (f : Session → Session) : (s.modSession f).twin = s.twin := rfl
@[simp] theorem State.modSession_strainer (s : State) (f : Session → Session) : (s.modSession f).strainer = s.strainer := rfl
@[simp] theorem State.modSession_dlog (s : State) (f : Session → Session) : (s.modSession f).dlog = s.dlog := rfl
@[simp] theorem State.modSession_churn (s : State) (f : Session → Session) : (s.modSession f).churn = s.churn := rfl
@[simp] theorem State.modSession_ladle (s : State) (f : Session → Session) : (s.modSession f).ladle = s.ladle := rfl
@[simp] theorem State.modSession_herd (s : State) (f : Session → Session) : (s.modSession f).herd = s.herd := rfl
@[simp] theorem State.modSession_hosted (s : State) (f : Session → Session) : (s.modSession f).hosted = s.hosted := rfl
@[simp] theorem State.modSession_serve (s : State) (f : Session → Session) : (s.modSession f).serve = s.serve := rfl
@[simp] theorem State.modSession_rolar (s : State) (f : Session → Session) : (s.modSession f).rolar = s.rolar := rfl
@[simp] theorem State.modSession_stores (s : State) (f : Session → Session) : (s.modSession f).stores = s.stores := rfl
@[simp] theorem State.modSession_faults (s : State) (f : Session → Session) : (s.modSession f).faults = s.faults := rfl
@[simp] theorem State.modSession_fatalAt (s : State) (f : Session → Session) : (s.modSession f).fatalAt = s.fatalAt := rfl
@[simp] theorem State.modSession_platformEvents (s : State) (f : Session → Session) : (s.modSession f).platformEvents = s.platformEvents := rfl

/-! State.at. -/

@[simp] theorem State.at_pending (s : State) (now : Nat) : (s.at now).pending = s.pending := rfl
@[simp] theorem State.at_chrono (s : State) (now : Nat) : (s.at now).chrono = max s.chrono now := rfl
@[simp] theorem State.at_free (s : State) (now : Nat) : (s.at now).free = s.free := rfl
@[simp] theorem State.at_out (s : State) (now : Nat) : (s.at now).out = s.out := rfl
@[simp] theorem State.at_regs (s : State) (now : Nat) : (s.at now).regs = s.regs := rfl
@[simp] theorem State.at_pages (s : State) (now : Nat) : (s.at now).pages = s.pages := rfl
@[simp] theorem State.at_notices (s : State) (now : Nat) : (s.at now).notices = s.notices := rfl
@[simp] theorem State.at_pins (s : State) (now : Nat) : (s.at now).pins = s.pins := rfl
@[simp] theorem State.at_power (s : State) (now : Nat) : (s.at now).power = s.power := rfl
@[simp] theorem State.at_leave (s : State) (now : Nat) : (s.at now).leave = s.leave := rfl
@[simp] theorem State.at_cal (s : State) (now : Nat) : (s.at now).cal = s.cal := rfl
@[simp] theorem State.at_mem (s : State) (now : Nat) : (s.at now).mem = s.mem := rfl
@[simp] theorem State.at_tiers (s : State) (now : Nat) : (s.at now).tiers = s.tiers := rfl
@[simp] theorem State.at_host (s : State) (now : Nat) : (s.at now).host = s.host := rfl
@[simp] theorem State.at_work (s : State) (now : Nat) : (s.at now).work = s.work := rfl
@[simp] theorem State.at_rennet (s : State) (now : Nat) : (s.at now).rennet = s.rennet := rfl
@[simp] theorem State.at_tide (s : State) (now : Nat) : (s.at now).tide = s.tide := rfl
@[simp] theorem State.at_node (s : State) (now : Nat) : (s.at now).node = s.node := rfl
@[simp] theorem State.at_fabric (s : State) (now : Nat) : (s.at now).fabric = s.fabric := rfl
@[simp] theorem State.at_twin (s : State) (now : Nat) : (s.at now).twin = s.twin := rfl
@[simp] theorem State.at_strainer (s : State) (now : Nat) : (s.at now).strainer = s.strainer := rfl
@[simp] theorem State.at_dlog (s : State) (now : Nat) : (s.at now).dlog = s.dlog := rfl
@[simp] theorem State.at_churn (s : State) (now : Nat) : (s.at now).churn = s.churn := rfl
@[simp] theorem State.at_ladle (s : State) (now : Nat) : (s.at now).ladle = s.ladle := rfl
@[simp] theorem State.at_herd (s : State) (now : Nat) : (s.at now).herd = s.herd := rfl
@[simp] theorem State.at_hosted (s : State) (now : Nat) : (s.at now).hosted = s.hosted := rfl
@[simp] theorem State.at_serve (s : State) (now : Nat) : (s.at now).serve = s.serve := rfl
@[simp] theorem State.at_rolar (s : State) (now : Nat) : (s.at now).rolar = s.rolar := rfl
@[simp] theorem State.at_stores (s : State) (now : Nat) : (s.at now).stores = s.stores := rfl
@[simp] theorem State.at_faults (s : State) (now : Nat) : (s.at now).faults = s.faults := rfl
@[simp] theorem State.at_fatalAt (s : State) (now : Nat) : (s.at now).fatalAt = s.fatalAt := rfl
@[simp] theorem State.at_platformEvents (s : State) (now : Nat) : (s.at now).platformEvents = s.platformEvents := rfl

/-! State.useOpen. -/

@[simp] theorem State.useOpen_pending (s : State) : s.useOpen.pending = s.pending := rfl
@[simp] theorem State.useOpen_chrono (s : State) : s.useOpen.chrono = s.chrono := rfl
@[simp] theorem State.useOpen_free (s : State) : s.useOpen.free = s.free + 1 := rfl
@[simp] theorem State.useOpen_out (s : State) : s.useOpen.out = s.out := rfl
@[simp] theorem State.useOpen_regs (s : State) : s.useOpen.regs = s.regs := rfl
@[simp] theorem State.useOpen_pages (s : State) : s.useOpen.pages = s.pages := rfl
@[simp] theorem State.useOpen_notices (s : State) : s.useOpen.notices = s.notices := rfl
@[simp] theorem State.useOpen_pins (s : State) : s.useOpen.pins = s.pins := rfl
@[simp] theorem State.useOpen_power (s : State) : s.useOpen.power = s.power := rfl
@[simp] theorem State.useOpen_leave (s : State) : s.useOpen.leave = s.leave := rfl
@[simp] theorem State.useOpen_cal (s : State) : s.useOpen.cal = s.cal := rfl
@[simp] theorem State.useOpen_mem (s : State) : s.useOpen.mem = s.mem := rfl
@[simp] theorem State.useOpen_tiers (s : State) : s.useOpen.tiers = s.tiers := rfl
@[simp] theorem State.useOpen_host (s : State) : s.useOpen.host = s.host := rfl
@[simp] theorem State.useOpen_work (s : State) : s.useOpen.work = s.work := rfl
@[simp] theorem State.useOpen_rennet (s : State) : s.useOpen.rennet = s.rennet := rfl
@[simp] theorem State.useOpen_tide (s : State) : s.useOpen.tide = s.tide := rfl
@[simp] theorem State.useOpen_node (s : State) : s.useOpen.node = s.node := rfl
@[simp] theorem State.useOpen_fabric (s : State) : s.useOpen.fabric = s.fabric := rfl
@[simp] theorem State.useOpen_twin (s : State) : s.useOpen.twin = s.twin := rfl
@[simp] theorem State.useOpen_strainer (s : State) : s.useOpen.strainer = s.strainer := rfl
@[simp] theorem State.useOpen_dlog (s : State) : s.useOpen.dlog = s.dlog := rfl
@[simp] theorem State.useOpen_churn (s : State) : s.useOpen.churn = s.churn := rfl
@[simp] theorem State.useOpen_ladle (s : State) : s.useOpen.ladle = s.ladle := rfl
@[simp] theorem State.useOpen_herd (s : State) : s.useOpen.herd = s.herd := rfl
@[simp] theorem State.useOpen_hosted (s : State) : s.useOpen.hosted = s.hosted := rfl
@[simp] theorem State.useOpen_serve (s : State) : s.useOpen.serve = s.serve := rfl
@[simp] theorem State.useOpen_rolar (s : State) : s.useOpen.rolar = s.rolar := rfl
@[simp] theorem State.useOpen_stores (s : State) : s.useOpen.stores = s.stores := rfl
@[simp] theorem State.useOpen_faults (s : State) : s.useOpen.faults = s.faults := rfl
@[simp] theorem State.useOpen_fatalAt (s : State) : s.useOpen.fatalAt = s.fatalAt := rfl
@[simp] theorem State.useOpen_platformEvents (s : State) : s.useOpen.platformEvents = s.platformEvents := rfl

/-! State.emit. -/

@[simp] theorem State.emit_pending (s : State) (o : Output) : (s.emit o).pending = s.pending := rfl
@[simp] theorem State.emit_chrono (s : State) (o : Output) : (s.emit o).chrono = s.chrono := rfl
@[simp] theorem State.emit_free (s : State) (o : Output) : (s.emit o).free = s.free := rfl
@[simp] theorem State.emit_out (s : State) (o : Output) : (s.emit o).out = s.out ++ [o] := rfl
@[simp] theorem State.emit_regs (s : State) (o : Output) : (s.emit o).regs = s.regs := rfl
@[simp] theorem State.emit_pages (s : State) (o : Output) : (s.emit o).pages = s.pages := rfl
@[simp] theorem State.emit_notices (s : State) (o : Output) : (s.emit o).notices = s.notices := rfl
@[simp] theorem State.emit_pins (s : State) (o : Output) : (s.emit o).pins = s.pins := rfl
@[simp] theorem State.emit_power (s : State) (o : Output) : (s.emit o).power = s.power := rfl
@[simp] theorem State.emit_leave (s : State) (o : Output) : (s.emit o).leave = s.leave := rfl
@[simp] theorem State.emit_cal (s : State) (o : Output) : (s.emit o).cal = s.cal := rfl
@[simp] theorem State.emit_mem (s : State) (o : Output) : (s.emit o).mem = s.mem := rfl
@[simp] theorem State.emit_tiers (s : State) (o : Output) : (s.emit o).tiers = s.tiers := rfl
@[simp] theorem State.emit_host (s : State) (o : Output) : (s.emit o).host = s.host := rfl
@[simp] theorem State.emit_work (s : State) (o : Output) : (s.emit o).work = s.work := rfl
@[simp] theorem State.emit_rennet (s : State) (o : Output) : (s.emit o).rennet = s.rennet := rfl
@[simp] theorem State.emit_tide (s : State) (o : Output) : (s.emit o).tide = s.tide := rfl
@[simp] theorem State.emit_node (s : State) (o : Output) : (s.emit o).node = s.node := rfl
@[simp] theorem State.emit_fabric (s : State) (o : Output) : (s.emit o).fabric = s.fabric := rfl
@[simp] theorem State.emit_twin (s : State) (o : Output) : (s.emit o).twin = s.twin := rfl
@[simp] theorem State.emit_strainer (s : State) (o : Output) : (s.emit o).strainer = s.strainer := rfl
@[simp] theorem State.emit_dlog (s : State) (o : Output) : (s.emit o).dlog = s.dlog := rfl
@[simp] theorem State.emit_churn (s : State) (o : Output) : (s.emit o).churn = s.churn := rfl
@[simp] theorem State.emit_ladle (s : State) (o : Output) : (s.emit o).ladle = s.ladle := rfl
@[simp] theorem State.emit_herd (s : State) (o : Output) : (s.emit o).herd = s.herd := rfl
@[simp] theorem State.emit_hosted (s : State) (o : Output) : (s.emit o).hosted = s.hosted := rfl
@[simp] theorem State.emit_serve (s : State) (o : Output) : (s.emit o).serve = s.serve := rfl
@[simp] theorem State.emit_rolar (s : State) (o : Output) : (s.emit o).rolar = s.rolar := rfl
@[simp] theorem State.emit_stores (s : State) (o : Output) : (s.emit o).stores = s.stores := rfl
@[simp] theorem State.emit_faults (s : State) (o : Output) : (s.emit o).faults = s.faults := rfl
@[simp] theorem State.emit_fatalAt (s : State) (o : Output) : (s.emit o).fatalAt = s.fatalAt := rfl
@[simp] theorem State.emit_platformEvents (s : State) (o : Output) : (s.emit o).platformEvents = s.platformEvents := rfl

/-! State.emits. -/

@[simp] theorem State.emits_pending (s : State) (os : List Output) : (s.emits os).pending = s.pending := rfl
@[simp] theorem State.emits_chrono (s : State) (os : List Output) : (s.emits os).chrono = s.chrono := rfl
@[simp] theorem State.emits_free (s : State) (os : List Output) : (s.emits os).free = s.free := rfl
@[simp] theorem State.emits_out (s : State) (os : List Output) : (s.emits os).out = s.out ++ os := rfl
@[simp] theorem State.emits_regs (s : State) (os : List Output) : (s.emits os).regs = s.regs := rfl
@[simp] theorem State.emits_pages (s : State) (os : List Output) : (s.emits os).pages = s.pages := rfl
@[simp] theorem State.emits_notices (s : State) (os : List Output) : (s.emits os).notices = s.notices := rfl
@[simp] theorem State.emits_pins (s : State) (os : List Output) : (s.emits os).pins = s.pins := rfl
@[simp] theorem State.emits_power (s : State) (os : List Output) : (s.emits os).power = s.power := rfl
@[simp] theorem State.emits_leave (s : State) (os : List Output) : (s.emits os).leave = s.leave := rfl
@[simp] theorem State.emits_cal (s : State) (os : List Output) : (s.emits os).cal = s.cal := rfl
@[simp] theorem State.emits_mem (s : State) (os : List Output) : (s.emits os).mem = s.mem := rfl
@[simp] theorem State.emits_tiers (s : State) (os : List Output) : (s.emits os).tiers = s.tiers := rfl
@[simp] theorem State.emits_host (s : State) (os : List Output) : (s.emits os).host = s.host := rfl
@[simp] theorem State.emits_work (s : State) (os : List Output) : (s.emits os).work = s.work := rfl
@[simp] theorem State.emits_rennet (s : State) (os : List Output) : (s.emits os).rennet = s.rennet := rfl
@[simp] theorem State.emits_tide (s : State) (os : List Output) : (s.emits os).tide = s.tide := rfl
@[simp] theorem State.emits_node (s : State) (os : List Output) : (s.emits os).node = s.node := rfl
@[simp] theorem State.emits_fabric (s : State) (os : List Output) : (s.emits os).fabric = s.fabric := rfl
@[simp] theorem State.emits_twin (s : State) (os : List Output) : (s.emits os).twin = s.twin := rfl
@[simp] theorem State.emits_strainer (s : State) (os : List Output) : (s.emits os).strainer = s.strainer := rfl
@[simp] theorem State.emits_dlog (s : State) (os : List Output) : (s.emits os).dlog = s.dlog := rfl
@[simp] theorem State.emits_churn (s : State) (os : List Output) : (s.emits os).churn = s.churn := rfl
@[simp] theorem State.emits_ladle (s : State) (os : List Output) : (s.emits os).ladle = s.ladle := rfl
@[simp] theorem State.emits_herd (s : State) (os : List Output) : (s.emits os).herd = s.herd := rfl
@[simp] theorem State.emits_hosted (s : State) (os : List Output) : (s.emits os).hosted = s.hosted := rfl
@[simp] theorem State.emits_serve (s : State) (os : List Output) : (s.emits os).serve = s.serve := rfl
@[simp] theorem State.emits_rolar (s : State) (os : List Output) : (s.emits os).rolar = s.rolar := rfl
@[simp] theorem State.emits_stores (s : State) (os : List Output) : (s.emits os).stores = s.stores := rfl
@[simp] theorem State.emits_faults (s : State) (os : List Output) : (s.emits os).faults = s.faults := rfl
@[simp] theorem State.emits_fatalAt (s : State) (os : List Output) : (s.emits os).fatalAt = s.fatalAt := rfl
@[simp] theorem State.emits_platformEvents (s : State) (os : List Output) : (s.emits os).platformEvents = s.platformEvents := rfl

/-! State.setWord. -/

@[simp] theorem State.setWord_pending (s : State) (fn page off : Nat) (w : Word) : (s.setWord fn page off w).pending = s.pending := rfl
@[simp] theorem State.setWord_chrono (s : State) (fn page off : Nat) (w : Word) : (s.setWord fn page off w).chrono = s.chrono := rfl
@[simp] theorem State.setWord_free (s : State) (fn page off : Nat) (w : Word) : (s.setWord fn page off w).free = s.free := rfl
@[simp] theorem State.setWord_out (s : State) (fn page off : Nat) (w : Word) : (s.setWord fn page off w).out = s.out := rfl
@[simp] theorem State.setWord_regs (s : State) (fn page off : Nat) (w : Word) : (s.setWord fn page off w).regs = Table.put s.regs (key fn page off) w := rfl
@[simp] theorem State.setWord_pages (s : State) (fn page off : Nat) (w : Word) : (s.setWord fn page off w).pages = s.pages := rfl
@[simp] theorem State.setWord_notices (s : State) (fn page off : Nat) (w : Word) : (s.setWord fn page off w).notices = s.notices := rfl
@[simp] theorem State.setWord_pins (s : State) (fn page off : Nat) (w : Word) : (s.setWord fn page off w).pins = s.pins := rfl
@[simp] theorem State.setWord_power (s : State) (fn page off : Nat) (w : Word) : (s.setWord fn page off w).power = s.power := rfl
@[simp] theorem State.setWord_leave (s : State) (fn page off : Nat) (w : Word) : (s.setWord fn page off w).leave = s.leave := rfl
@[simp] theorem State.setWord_cal (s : State) (fn page off : Nat) (w : Word) : (s.setWord fn page off w).cal = s.cal := rfl
@[simp] theorem State.setWord_mem (s : State) (fn page off : Nat) (w : Word) : (s.setWord fn page off w).mem = s.mem := rfl
@[simp] theorem State.setWord_tiers (s : State) (fn page off : Nat) (w : Word) : (s.setWord fn page off w).tiers = s.tiers := rfl
@[simp] theorem State.setWord_host (s : State) (fn page off : Nat) (w : Word) : (s.setWord fn page off w).host = s.host := rfl
@[simp] theorem State.setWord_work (s : State) (fn page off : Nat) (w : Word) : (s.setWord fn page off w).work = s.work := rfl
@[simp] theorem State.setWord_rennet (s : State) (fn page off : Nat) (w : Word) : (s.setWord fn page off w).rennet = s.rennet := rfl
@[simp] theorem State.setWord_tide (s : State) (fn page off : Nat) (w : Word) : (s.setWord fn page off w).tide = s.tide := rfl
@[simp] theorem State.setWord_node (s : State) (fn page off : Nat) (w : Word) : (s.setWord fn page off w).node = s.node := rfl
@[simp] theorem State.setWord_fabric (s : State) (fn page off : Nat) (w : Word) : (s.setWord fn page off w).fabric = s.fabric := rfl
@[simp] theorem State.setWord_twin (s : State) (fn page off : Nat) (w : Word) : (s.setWord fn page off w).twin = s.twin := rfl
@[simp] theorem State.setWord_strainer (s : State) (fn page off : Nat) (w : Word) : (s.setWord fn page off w).strainer = s.strainer := rfl
@[simp] theorem State.setWord_dlog (s : State) (fn page off : Nat) (w : Word) : (s.setWord fn page off w).dlog = s.dlog := rfl
@[simp] theorem State.setWord_churn (s : State) (fn page off : Nat) (w : Word) : (s.setWord fn page off w).churn = s.churn := rfl
@[simp] theorem State.setWord_ladle (s : State) (fn page off : Nat) (w : Word) : (s.setWord fn page off w).ladle = s.ladle := rfl
@[simp] theorem State.setWord_herd (s : State) (fn page off : Nat) (w : Word) : (s.setWord fn page off w).herd = s.herd := rfl
@[simp] theorem State.setWord_hosted (s : State) (fn page off : Nat) (w : Word) : (s.setWord fn page off w).hosted = s.hosted := rfl
@[simp] theorem State.setWord_serve (s : State) (fn page off : Nat) (w : Word) : (s.setWord fn page off w).serve = s.serve := rfl
@[simp] theorem State.setWord_rolar (s : State) (fn page off : Nat) (w : Word) : (s.setWord fn page off w).rolar = s.rolar := rfl
@[simp] theorem State.setWord_stores (s : State) (fn page off : Nat) (w : Word) : (s.setWord fn page off w).stores = s.stores := rfl
@[simp] theorem State.setWord_faults (s : State) (fn page off : Nat) (w : Word) : (s.setWord fn page off w).faults = s.faults := rfl
@[simp] theorem State.setWord_fatalAt (s : State) (fn page off : Nat) (w : Word) : (s.setWord fn page off w).fatalAt = s.fatalAt := rfl
@[simp] theorem State.setWord_platformEvents (s : State) (fn page off : Nat) (w : Word) : (s.setWord fn page off w).platformEvents = s.platformEvents := rfl

/-! State.setFldFn. -/

@[simp] theorem State.setFldFn_pending (s : State) (fn : Nat) (f : Field) (v : Nat) : (s.setFldFn fn f v).pending = s.pending := rfl
@[simp] theorem State.setFldFn_chrono (s : State) (fn : Nat) (f : Field) (v : Nat) : (s.setFldFn fn f v).chrono = s.chrono := rfl
@[simp] theorem State.setFldFn_free (s : State) (fn : Nat) (f : Field) (v : Nat) : (s.setFldFn fn f v).free = s.free := rfl
@[simp] theorem State.setFldFn_out (s : State) (fn : Nat) (f : Field) (v : Nat) : (s.setFldFn fn f v).out = s.out := rfl
@[simp] theorem State.setFldFn_pages (s : State) (fn : Nat) (f : Field) (v : Nat) : (s.setFldFn fn f v).pages = s.pages := rfl
@[simp] theorem State.setFldFn_notices (s : State) (fn : Nat) (f : Field) (v : Nat) : (s.setFldFn fn f v).notices = s.notices := rfl
@[simp] theorem State.setFldFn_pins (s : State) (fn : Nat) (f : Field) (v : Nat) : (s.setFldFn fn f v).pins = s.pins := rfl
@[simp] theorem State.setFldFn_power (s : State) (fn : Nat) (f : Field) (v : Nat) : (s.setFldFn fn f v).power = s.power := rfl
@[simp] theorem State.setFldFn_leave (s : State) (fn : Nat) (f : Field) (v : Nat) : (s.setFldFn fn f v).leave = s.leave := rfl
@[simp] theorem State.setFldFn_cal (s : State) (fn : Nat) (f : Field) (v : Nat) : (s.setFldFn fn f v).cal = s.cal := rfl
@[simp] theorem State.setFldFn_mem (s : State) (fn : Nat) (f : Field) (v : Nat) : (s.setFldFn fn f v).mem = s.mem := rfl
@[simp] theorem State.setFldFn_tiers (s : State) (fn : Nat) (f : Field) (v : Nat) : (s.setFldFn fn f v).tiers = s.tiers := rfl
@[simp] theorem State.setFldFn_host (s : State) (fn : Nat) (f : Field) (v : Nat) : (s.setFldFn fn f v).host = s.host := rfl
@[simp] theorem State.setFldFn_work (s : State) (fn : Nat) (f : Field) (v : Nat) : (s.setFldFn fn f v).work = s.work := rfl
@[simp] theorem State.setFldFn_rennet (s : State) (fn : Nat) (f : Field) (v : Nat) : (s.setFldFn fn f v).rennet = s.rennet := rfl
@[simp] theorem State.setFldFn_tide (s : State) (fn : Nat) (f : Field) (v : Nat) : (s.setFldFn fn f v).tide = s.tide := rfl
@[simp] theorem State.setFldFn_node (s : State) (fn : Nat) (f : Field) (v : Nat) : (s.setFldFn fn f v).node = s.node := rfl
@[simp] theorem State.setFldFn_fabric (s : State) (fn : Nat) (f : Field) (v : Nat) : (s.setFldFn fn f v).fabric = s.fabric := rfl
@[simp] theorem State.setFldFn_twin (s : State) (fn : Nat) (f : Field) (v : Nat) : (s.setFldFn fn f v).twin = s.twin := rfl
@[simp] theorem State.setFldFn_strainer (s : State) (fn : Nat) (f : Field) (v : Nat) : (s.setFldFn fn f v).strainer = s.strainer := rfl
@[simp] theorem State.setFldFn_dlog (s : State) (fn : Nat) (f : Field) (v : Nat) : (s.setFldFn fn f v).dlog = s.dlog := rfl
@[simp] theorem State.setFldFn_churn (s : State) (fn : Nat) (f : Field) (v : Nat) : (s.setFldFn fn f v).churn = s.churn := rfl
@[simp] theorem State.setFldFn_ladle (s : State) (fn : Nat) (f : Field) (v : Nat) : (s.setFldFn fn f v).ladle = s.ladle := rfl
@[simp] theorem State.setFldFn_herd (s : State) (fn : Nat) (f : Field) (v : Nat) : (s.setFldFn fn f v).herd = s.herd := rfl
@[simp] theorem State.setFldFn_hosted (s : State) (fn : Nat) (f : Field) (v : Nat) : (s.setFldFn fn f v).hosted = s.hosted := rfl
@[simp] theorem State.setFldFn_serve (s : State) (fn : Nat) (f : Field) (v : Nat) : (s.setFldFn fn f v).serve = s.serve := rfl
@[simp] theorem State.setFldFn_rolar (s : State) (fn : Nat) (f : Field) (v : Nat) : (s.setFldFn fn f v).rolar = s.rolar := rfl
@[simp] theorem State.setFldFn_stores (s : State) (fn : Nat) (f : Field) (v : Nat) : (s.setFldFn fn f v).stores = s.stores := rfl
@[simp] theorem State.setFldFn_faults (s : State) (fn : Nat) (f : Field) (v : Nat) : (s.setFldFn fn f v).faults = s.faults := rfl
@[simp] theorem State.setFldFn_fatalAt (s : State) (fn : Nat) (f : Field) (v : Nat) : (s.setFldFn fn f v).fatalAt = s.fatalAt := rfl
@[simp] theorem State.setFldFn_platformEvents (s : State) (fn : Nat) (f : Field) (v : Nat) : (s.setFldFn fn f v).platformEvents = s.platformEvents := rfl

/-! State.setFld. -/

@[simp] theorem State.setFld_pending (s : State) (f : Field) (v : Nat) : (s.setFld f v).pending = s.pending := rfl
@[simp] theorem State.setFld_chrono (s : State) (f : Field) (v : Nat) : (s.setFld f v).chrono = s.chrono := rfl
@[simp] theorem State.setFld_free (s : State) (f : Field) (v : Nat) : (s.setFld f v).free = s.free := rfl
@[simp] theorem State.setFld_out (s : State) (f : Field) (v : Nat) : (s.setFld f v).out = s.out := rfl
@[simp] theorem State.setFld_pages (s : State) (f : Field) (v : Nat) : (s.setFld f v).pages = s.pages := rfl
@[simp] theorem State.setFld_notices (s : State) (f : Field) (v : Nat) : (s.setFld f v).notices = s.notices := rfl
@[simp] theorem State.setFld_pins (s : State) (f : Field) (v : Nat) : (s.setFld f v).pins = s.pins := rfl
@[simp] theorem State.setFld_power (s : State) (f : Field) (v : Nat) : (s.setFld f v).power = s.power := rfl
@[simp] theorem State.setFld_leave (s : State) (f : Field) (v : Nat) : (s.setFld f v).leave = s.leave := rfl
@[simp] theorem State.setFld_cal (s : State) (f : Field) (v : Nat) : (s.setFld f v).cal = s.cal := rfl
@[simp] theorem State.setFld_mem (s : State) (f : Field) (v : Nat) : (s.setFld f v).mem = s.mem := rfl
@[simp] theorem State.setFld_tiers (s : State) (f : Field) (v : Nat) : (s.setFld f v).tiers = s.tiers := rfl
@[simp] theorem State.setFld_host (s : State) (f : Field) (v : Nat) : (s.setFld f v).host = s.host := rfl
@[simp] theorem State.setFld_work (s : State) (f : Field) (v : Nat) : (s.setFld f v).work = s.work := rfl
@[simp] theorem State.setFld_rennet (s : State) (f : Field) (v : Nat) : (s.setFld f v).rennet = s.rennet := rfl
@[simp] theorem State.setFld_tide (s : State) (f : Field) (v : Nat) : (s.setFld f v).tide = s.tide := rfl
@[simp] theorem State.setFld_node (s : State) (f : Field) (v : Nat) : (s.setFld f v).node = s.node := rfl
@[simp] theorem State.setFld_fabric (s : State) (f : Field) (v : Nat) : (s.setFld f v).fabric = s.fabric := rfl
@[simp] theorem State.setFld_twin (s : State) (f : Field) (v : Nat) : (s.setFld f v).twin = s.twin := rfl
@[simp] theorem State.setFld_strainer (s : State) (f : Field) (v : Nat) : (s.setFld f v).strainer = s.strainer := rfl
@[simp] theorem State.setFld_dlog (s : State) (f : Field) (v : Nat) : (s.setFld f v).dlog = s.dlog := rfl
@[simp] theorem State.setFld_churn (s : State) (f : Field) (v : Nat) : (s.setFld f v).churn = s.churn := rfl
@[simp] theorem State.setFld_ladle (s : State) (f : Field) (v : Nat) : (s.setFld f v).ladle = s.ladle := rfl
@[simp] theorem State.setFld_herd (s : State) (f : Field) (v : Nat) : (s.setFld f v).herd = s.herd := rfl
@[simp] theorem State.setFld_hosted (s : State) (f : Field) (v : Nat) : (s.setFld f v).hosted = s.hosted := rfl
@[simp] theorem State.setFld_serve (s : State) (f : Field) (v : Nat) : (s.setFld f v).serve = s.serve := rfl
@[simp] theorem State.setFld_rolar (s : State) (f : Field) (v : Nat) : (s.setFld f v).rolar = s.rolar := rfl
@[simp] theorem State.setFld_stores (s : State) (f : Field) (v : Nat) : (s.setFld f v).stores = s.stores := rfl
@[simp] theorem State.setFld_faults (s : State) (f : Field) (v : Nat) : (s.setFld f v).faults = s.faults := rfl
@[simp] theorem State.setFld_fatalAt (s : State) (f : Field) (v : Nat) : (s.setFld f v).fatalAt = s.fatalAt := rfl
@[simp] theorem State.setFld_platformEvents (s : State) (f : Field) (v : Nat) : (s.setFld f v).platformEvents = s.platformEvents := rfl

/-! State.countFn. -/

@[simp] theorem State.countFn_pending (s : State) (fn : Nat) (f : Field) (n : Nat) : (s.countFn fn f n).pending = s.pending := rfl
@[simp] theorem State.countFn_chrono (s : State) (fn : Nat) (f : Field) (n : Nat) : (s.countFn fn f n).chrono = s.chrono := rfl
@[simp] theorem State.countFn_free (s : State) (fn : Nat) (f : Field) (n : Nat) : (s.countFn fn f n).free = s.free := rfl
@[simp] theorem State.countFn_out (s : State) (fn : Nat) (f : Field) (n : Nat) : (s.countFn fn f n).out = s.out := rfl
@[simp] theorem State.countFn_pages (s : State) (fn : Nat) (f : Field) (n : Nat) : (s.countFn fn f n).pages = s.pages := rfl
@[simp] theorem State.countFn_notices (s : State) (fn : Nat) (f : Field) (n : Nat) : (s.countFn fn f n).notices = s.notices := rfl
@[simp] theorem State.countFn_pins (s : State) (fn : Nat) (f : Field) (n : Nat) : (s.countFn fn f n).pins = s.pins := rfl
@[simp] theorem State.countFn_power (s : State) (fn : Nat) (f : Field) (n : Nat) : (s.countFn fn f n).power = s.power := rfl
@[simp] theorem State.countFn_leave (s : State) (fn : Nat) (f : Field) (n : Nat) : (s.countFn fn f n).leave = s.leave := rfl
@[simp] theorem State.countFn_cal (s : State) (fn : Nat) (f : Field) (n : Nat) : (s.countFn fn f n).cal = s.cal := rfl
@[simp] theorem State.countFn_mem (s : State) (fn : Nat) (f : Field) (n : Nat) : (s.countFn fn f n).mem = s.mem := rfl
@[simp] theorem State.countFn_tiers (s : State) (fn : Nat) (f : Field) (n : Nat) : (s.countFn fn f n).tiers = s.tiers := rfl
@[simp] theorem State.countFn_host (s : State) (fn : Nat) (f : Field) (n : Nat) : (s.countFn fn f n).host = s.host := rfl
@[simp] theorem State.countFn_work (s : State) (fn : Nat) (f : Field) (n : Nat) : (s.countFn fn f n).work = s.work := rfl
@[simp] theorem State.countFn_rennet (s : State) (fn : Nat) (f : Field) (n : Nat) : (s.countFn fn f n).rennet = s.rennet := rfl
@[simp] theorem State.countFn_tide (s : State) (fn : Nat) (f : Field) (n : Nat) : (s.countFn fn f n).tide = s.tide := rfl
@[simp] theorem State.countFn_node (s : State) (fn : Nat) (f : Field) (n : Nat) : (s.countFn fn f n).node = s.node := rfl
@[simp] theorem State.countFn_fabric (s : State) (fn : Nat) (f : Field) (n : Nat) : (s.countFn fn f n).fabric = s.fabric := rfl
@[simp] theorem State.countFn_twin (s : State) (fn : Nat) (f : Field) (n : Nat) : (s.countFn fn f n).twin = s.twin := rfl
@[simp] theorem State.countFn_strainer (s : State) (fn : Nat) (f : Field) (n : Nat) : (s.countFn fn f n).strainer = s.strainer := rfl
@[simp] theorem State.countFn_dlog (s : State) (fn : Nat) (f : Field) (n : Nat) : (s.countFn fn f n).dlog = s.dlog := rfl
@[simp] theorem State.countFn_churn (s : State) (fn : Nat) (f : Field) (n : Nat) : (s.countFn fn f n).churn = s.churn := rfl
@[simp] theorem State.countFn_ladle (s : State) (fn : Nat) (f : Field) (n : Nat) : (s.countFn fn f n).ladle = s.ladle := rfl
@[simp] theorem State.countFn_herd (s : State) (fn : Nat) (f : Field) (n : Nat) : (s.countFn fn f n).herd = s.herd := rfl
@[simp] theorem State.countFn_hosted (s : State) (fn : Nat) (f : Field) (n : Nat) : (s.countFn fn f n).hosted = s.hosted := rfl
@[simp] theorem State.countFn_serve (s : State) (fn : Nat) (f : Field) (n : Nat) : (s.countFn fn f n).serve = s.serve := rfl
@[simp] theorem State.countFn_rolar (s : State) (fn : Nat) (f : Field) (n : Nat) : (s.countFn fn f n).rolar = s.rolar := rfl
@[simp] theorem State.countFn_stores (s : State) (fn : Nat) (f : Field) (n : Nat) : (s.countFn fn f n).stores = s.stores := rfl
@[simp] theorem State.countFn_faults (s : State) (fn : Nat) (f : Field) (n : Nat) : (s.countFn fn f n).faults = s.faults := rfl
@[simp] theorem State.countFn_fatalAt (s : State) (fn : Nat) (f : Field) (n : Nat) : (s.countFn fn f n).fatalAt = s.fatalAt := rfl
@[simp] theorem State.countFn_platformEvents (s : State) (fn : Nat) (f : Field) (n : Nat) : (s.countFn fn f n).platformEvents = s.platformEvents := rfl

/-! State.count. -/

@[simp] theorem State.count_pending (s : State) (f : Field) (n : Nat) : (s.count f n).pending = s.pending := rfl
@[simp] theorem State.count_chrono (s : State) (f : Field) (n : Nat) : (s.count f n).chrono = s.chrono := rfl
@[simp] theorem State.count_free (s : State) (f : Field) (n : Nat) : (s.count f n).free = s.free := rfl
@[simp] theorem State.count_out (s : State) (f : Field) (n : Nat) : (s.count f n).out = s.out := rfl
@[simp] theorem State.count_pages (s : State) (f : Field) (n : Nat) : (s.count f n).pages = s.pages := rfl
@[simp] theorem State.count_notices (s : State) (f : Field) (n : Nat) : (s.count f n).notices = s.notices := rfl
@[simp] theorem State.count_pins (s : State) (f : Field) (n : Nat) : (s.count f n).pins = s.pins := rfl
@[simp] theorem State.count_power (s : State) (f : Field) (n : Nat) : (s.count f n).power = s.power := rfl
@[simp] theorem State.count_leave (s : State) (f : Field) (n : Nat) : (s.count f n).leave = s.leave := rfl
@[simp] theorem State.count_cal (s : State) (f : Field) (n : Nat) : (s.count f n).cal = s.cal := rfl
@[simp] theorem State.count_mem (s : State) (f : Field) (n : Nat) : (s.count f n).mem = s.mem := rfl
@[simp] theorem State.count_tiers (s : State) (f : Field) (n : Nat) : (s.count f n).tiers = s.tiers := rfl
@[simp] theorem State.count_host (s : State) (f : Field) (n : Nat) : (s.count f n).host = s.host := rfl
@[simp] theorem State.count_work (s : State) (f : Field) (n : Nat) : (s.count f n).work = s.work := rfl
@[simp] theorem State.count_rennet (s : State) (f : Field) (n : Nat) : (s.count f n).rennet = s.rennet := rfl
@[simp] theorem State.count_tide (s : State) (f : Field) (n : Nat) : (s.count f n).tide = s.tide := rfl
@[simp] theorem State.count_node (s : State) (f : Field) (n : Nat) : (s.count f n).node = s.node := rfl
@[simp] theorem State.count_fabric (s : State) (f : Field) (n : Nat) : (s.count f n).fabric = s.fabric := rfl
@[simp] theorem State.count_twin (s : State) (f : Field) (n : Nat) : (s.count f n).twin = s.twin := rfl
@[simp] theorem State.count_strainer (s : State) (f : Field) (n : Nat) : (s.count f n).strainer = s.strainer := rfl
@[simp] theorem State.count_dlog (s : State) (f : Field) (n : Nat) : (s.count f n).dlog = s.dlog := rfl
@[simp] theorem State.count_churn (s : State) (f : Field) (n : Nat) : (s.count f n).churn = s.churn := rfl
@[simp] theorem State.count_ladle (s : State) (f : Field) (n : Nat) : (s.count f n).ladle = s.ladle := rfl
@[simp] theorem State.count_herd (s : State) (f : Field) (n : Nat) : (s.count f n).herd = s.herd := rfl
@[simp] theorem State.count_hosted (s : State) (f : Field) (n : Nat) : (s.count f n).hosted = s.hosted := rfl
@[simp] theorem State.count_serve (s : State) (f : Field) (n : Nat) : (s.count f n).serve = s.serve := rfl
@[simp] theorem State.count_rolar (s : State) (f : Field) (n : Nat) : (s.count f n).rolar = s.rolar := rfl
@[simp] theorem State.count_stores (s : State) (f : Field) (n : Nat) : (s.count f n).stores = s.stores := rfl
@[simp] theorem State.count_faults (s : State) (f : Field) (n : Nat) : (s.count f n).faults = s.faults := rfl
@[simp] theorem State.count_fatalAt (s : State) (f : Field) (n : Nat) : (s.count f n).fatalAt = s.fatalAt := rfl
@[simp] theorem State.count_platformEvents (s : State) (f : Field) (n : Nat) : (s.count f n).platformEvents = s.platformEvents := rfl

/-! State.setPage. -/

@[simp] theorem State.setPage_pending (s : State) (fn page : Nat) (r : PageRun) : (s.setPage fn page r).pending = s.pending := rfl
@[simp] theorem State.setPage_chrono (s : State) (fn page : Nat) (r : PageRun) : (s.setPage fn page r).chrono = s.chrono := rfl
@[simp] theorem State.setPage_free (s : State) (fn page : Nat) (r : PageRun) : (s.setPage fn page r).free = s.free := rfl
@[simp] theorem State.setPage_out (s : State) (fn page : Nat) (r : PageRun) : (s.setPage fn page r).out = s.out := rfl
@[simp] theorem State.setPage_regs (s : State) (fn page : Nat) (r : PageRun) : (s.setPage fn page r).regs = s.regs := rfl
@[simp] theorem State.setPage_pages (s : State) (fn page : Nat) (r : PageRun) : (s.setPage fn page r).pages = Table.put s.pages (pageKey fn page) r := rfl
@[simp] theorem State.setPage_notices (s : State) (fn page : Nat) (r : PageRun) : (s.setPage fn page r).notices = s.notices := rfl
@[simp] theorem State.setPage_pins (s : State) (fn page : Nat) (r : PageRun) : (s.setPage fn page r).pins = s.pins := rfl
@[simp] theorem State.setPage_power (s : State) (fn page : Nat) (r : PageRun) : (s.setPage fn page r).power = s.power := rfl
@[simp] theorem State.setPage_leave (s : State) (fn page : Nat) (r : PageRun) : (s.setPage fn page r).leave = s.leave := rfl
@[simp] theorem State.setPage_cal (s : State) (fn page : Nat) (r : PageRun) : (s.setPage fn page r).cal = s.cal := rfl
@[simp] theorem State.setPage_mem (s : State) (fn page : Nat) (r : PageRun) : (s.setPage fn page r).mem = s.mem := rfl
@[simp] theorem State.setPage_tiers (s : State) (fn page : Nat) (r : PageRun) : (s.setPage fn page r).tiers = s.tiers := rfl
@[simp] theorem State.setPage_host (s : State) (fn page : Nat) (r : PageRun) : (s.setPage fn page r).host = s.host := rfl
@[simp] theorem State.setPage_work (s : State) (fn page : Nat) (r : PageRun) : (s.setPage fn page r).work = s.work := rfl
@[simp] theorem State.setPage_rennet (s : State) (fn page : Nat) (r : PageRun) : (s.setPage fn page r).rennet = s.rennet := rfl
@[simp] theorem State.setPage_tide (s : State) (fn page : Nat) (r : PageRun) : (s.setPage fn page r).tide = s.tide := rfl
@[simp] theorem State.setPage_node (s : State) (fn page : Nat) (r : PageRun) : (s.setPage fn page r).node = s.node := rfl
@[simp] theorem State.setPage_fabric (s : State) (fn page : Nat) (r : PageRun) : (s.setPage fn page r).fabric = s.fabric := rfl
@[simp] theorem State.setPage_twin (s : State) (fn page : Nat) (r : PageRun) : (s.setPage fn page r).twin = s.twin := rfl
@[simp] theorem State.setPage_strainer (s : State) (fn page : Nat) (r : PageRun) : (s.setPage fn page r).strainer = s.strainer := rfl
@[simp] theorem State.setPage_dlog (s : State) (fn page : Nat) (r : PageRun) : (s.setPage fn page r).dlog = s.dlog := rfl
@[simp] theorem State.setPage_churn (s : State) (fn page : Nat) (r : PageRun) : (s.setPage fn page r).churn = s.churn := rfl
@[simp] theorem State.setPage_ladle (s : State) (fn page : Nat) (r : PageRun) : (s.setPage fn page r).ladle = s.ladle := rfl
@[simp] theorem State.setPage_herd (s : State) (fn page : Nat) (r : PageRun) : (s.setPage fn page r).herd = s.herd := rfl
@[simp] theorem State.setPage_hosted (s : State) (fn page : Nat) (r : PageRun) : (s.setPage fn page r).hosted = s.hosted := rfl
@[simp] theorem State.setPage_serve (s : State) (fn page : Nat) (r : PageRun) : (s.setPage fn page r).serve = s.serve := rfl
@[simp] theorem State.setPage_rolar (s : State) (fn page : Nat) (r : PageRun) : (s.setPage fn page r).rolar = s.rolar := rfl
@[simp] theorem State.setPage_stores (s : State) (fn page : Nat) (r : PageRun) : (s.setPage fn page r).stores = s.stores := rfl
@[simp] theorem State.setPage_faults (s : State) (fn page : Nat) (r : PageRun) : (s.setPage fn page r).faults = s.faults := rfl
@[simp] theorem State.setPage_fatalAt (s : State) (fn page : Nat) (r : PageRun) : (s.setPage fn page r).fatalAt = s.fatalAt := rfl
@[simp] theorem State.setPage_platformEvents (s : State) (fn page : Nat) (r : PageRun) : (s.setPage fn page r).platformEvents = s.platformEvents := rfl

/-! Registers read after a change of another part. -/

@[simp] theorem State.modPins_word (s : State) (f : Pins → Pins) (fn' page' off' : Nat) : (s.modPins f).word fn' page' off' = s.word fn' page' off' := rfl
@[simp] theorem State.modPins_fldFn (s : State) (f : Pins → Pins) (fn' : Nat) (g : Field) : (s.modPins f).fldFn fn' g = s.fldFn fn' g := rfl
@[simp] theorem State.modPins_fld (s : State) (f : Pins → Pins) (g : Field) : (s.modPins f).fld g = s.fld g := rfl
@[simp] theorem State.modPins_bit (s : State) (f : Pins → Pins) (g : Field) : (s.modPins f).bit g = s.bit g := rfl
@[simp] theorem State.modPins_page (s : State) (f : Pins → Pins) (fn' page' : Nat) : (s.modPins f).page fn' page' = s.page fn' page' := rfl
@[simp] theorem State.modPower_word (s : State) (f : Power → Power) (fn' page' off' : Nat) : (s.modPower f).word fn' page' off' = s.word fn' page' off' := rfl
@[simp] theorem State.modPower_fldFn (s : State) (f : Power → Power) (fn' : Nat) (g : Field) : (s.modPower f).fldFn fn' g = s.fldFn fn' g := rfl
@[simp] theorem State.modPower_fld (s : State) (f : Power → Power) (g : Field) : (s.modPower f).fld g = s.fld g := rfl
@[simp] theorem State.modPower_bit (s : State) (f : Power → Power) (g : Field) : (s.modPower f).bit g = s.bit g := rfl
@[simp] theorem State.modPower_page (s : State) (f : Power → Power) (fn' page' : Nat) : (s.modPower f).page fn' page' = s.page fn' page' := rfl
@[simp] theorem State.modLeave_word (s : State) (f : Leave → Leave) (fn' page' off' : Nat) : (s.modLeave f).word fn' page' off' = s.word fn' page' off' := rfl
@[simp] theorem State.modLeave_fldFn (s : State) (f : Leave → Leave) (fn' : Nat) (g : Field) : (s.modLeave f).fldFn fn' g = s.fldFn fn' g := rfl
@[simp] theorem State.modLeave_fld (s : State) (f : Leave → Leave) (g : Field) : (s.modLeave f).fld g = s.fld g := rfl
@[simp] theorem State.modLeave_bit (s : State) (f : Leave → Leave) (g : Field) : (s.modLeave f).bit g = s.bit g := rfl
@[simp] theorem State.modLeave_page (s : State) (f : Leave → Leave) (fn' page' : Nat) : (s.modLeave f).page fn' page' = s.page fn' page' := rfl
@[simp] theorem State.modCal_word (s : State) (f : Cal → Cal) (fn' page' off' : Nat) : (s.modCal f).word fn' page' off' = s.word fn' page' off' := rfl
@[simp] theorem State.modCal_fldFn (s : State) (f : Cal → Cal) (fn' : Nat) (g : Field) : (s.modCal f).fldFn fn' g = s.fldFn fn' g := rfl
@[simp] theorem State.modCal_fld (s : State) (f : Cal → Cal) (g : Field) : (s.modCal f).fld g = s.fld g := rfl
@[simp] theorem State.modCal_bit (s : State) (f : Cal → Cal) (g : Field) : (s.modCal f).bit g = s.bit g := rfl
@[simp] theorem State.modCal_page (s : State) (f : Cal → Cal) (fn' page' : Nat) : (s.modCal f).page fn' page' = s.page fn' page' := rfl
@[simp] theorem State.modTiers_word (s : State) (f : Mem → Mem) (fn' page' off' : Nat) : (s.modTiers f).word fn' page' off' = s.word fn' page' off' := rfl
@[simp] theorem State.modTiers_fldFn (s : State) (f : Mem → Mem) (fn' : Nat) (g : Field) : (s.modTiers f).fldFn fn' g = s.fldFn fn' g := rfl
@[simp] theorem State.modTiers_fld (s : State) (f : Mem → Mem) (g : Field) : (s.modTiers f).fld g = s.fld g := rfl
@[simp] theorem State.modTiers_bit (s : State) (f : Mem → Mem) (g : Field) : (s.modTiers f).bit g = s.bit g := rfl
@[simp] theorem State.modTiers_page (s : State) (f : Mem → Mem) (fn' page' : Nat) : (s.modTiers f).page fn' page' = s.page fn' page' := rfl
@[simp] theorem State.modHost_word (s : State) (f : HostSide → HostSide) (fn' page' off' : Nat) : (s.modHost f).word fn' page' off' = s.word fn' page' off' := rfl
@[simp] theorem State.modHost_fldFn (s : State) (f : HostSide → HostSide) (fn' : Nat) (g : Field) : (s.modHost f).fldFn fn' g = s.fldFn fn' g := rfl
@[simp] theorem State.modHost_fld (s : State) (f : HostSide → HostSide) (g : Field) : (s.modHost f).fld g = s.fld g := rfl
@[simp] theorem State.modHost_bit (s : State) (f : HostSide → HostSide) (g : Field) : (s.modHost f).bit g = s.bit g := rfl
@[simp] theorem State.modHost_page (s : State) (f : HostSide → HostSide) (fn' page' : Nat) : (s.modHost f).page fn' page' = s.page fn' page' := rfl
@[simp] theorem State.modWork_word (s : State) (f : Work → Work) (fn' page' off' : Nat) : (s.modWork f).word fn' page' off' = s.word fn' page' off' := rfl
@[simp] theorem State.modWork_fldFn (s : State) (f : Work → Work) (fn' : Nat) (g : Field) : (s.modWork f).fldFn fn' g = s.fldFn fn' g := rfl
@[simp] theorem State.modWork_fld (s : State) (f : Work → Work) (g : Field) : (s.modWork f).fld g = s.fld g := rfl
@[simp] theorem State.modWork_bit (s : State) (f : Work → Work) (g : Field) : (s.modWork f).bit g = s.bit g := rfl
@[simp] theorem State.modWork_page (s : State) (f : Work → Work) (fn' page' : Nat) : (s.modWork f).page fn' page' = s.page fn' page' := rfl
@[simp] theorem State.modRennet_word (s : State) (f : Rennet → Rennet) (fn' page' off' : Nat) : (s.modRennet f).word fn' page' off' = s.word fn' page' off' := rfl
@[simp] theorem State.modRennet_fldFn (s : State) (f : Rennet → Rennet) (fn' : Nat) (g : Field) : (s.modRennet f).fldFn fn' g = s.fldFn fn' g := rfl
@[simp] theorem State.modRennet_fld (s : State) (f : Rennet → Rennet) (g : Field) : (s.modRennet f).fld g = s.fld g := rfl
@[simp] theorem State.modRennet_bit (s : State) (f : Rennet → Rennet) (g : Field) : (s.modRennet f).bit g = s.bit g := rfl
@[simp] theorem State.modRennet_page (s : State) (f : Rennet → Rennet) (fn' page' : Nat) : (s.modRennet f).page fn' page' = s.page fn' page' := rfl
@[simp] theorem State.modTide_word (s : State) (f : Tide → Tide) (fn' page' off' : Nat) : (s.modTide f).word fn' page' off' = s.word fn' page' off' := rfl
@[simp] theorem State.modTide_fldFn (s : State) (f : Tide → Tide) (fn' : Nat) (g : Field) : (s.modTide f).fldFn fn' g = s.fldFn fn' g := rfl
@[simp] theorem State.modTide_fld (s : State) (f : Tide → Tide) (g : Field) : (s.modTide f).fld g = s.fld g := rfl
@[simp] theorem State.modTide_bit (s : State) (f : Tide → Tide) (g : Field) : (s.modTide f).bit g = s.bit g := rfl
@[simp] theorem State.modTide_page (s : State) (f : Tide → Tide) (fn' page' : Nat) : (s.modTide f).page fn' page' = s.page fn' page' := rfl
@[simp] theorem State.modFabric_word (s : State) (f : Fabric → Fabric) (fn' page' off' : Nat) : (s.modFabric f).word fn' page' off' = s.word fn' page' off' := rfl
@[simp] theorem State.modFabric_fldFn (s : State) (f : Fabric → Fabric) (fn' : Nat) (g : Field) : (s.modFabric f).fldFn fn' g = s.fldFn fn' g := rfl
@[simp] theorem State.modFabric_fld (s : State) (f : Fabric → Fabric) (g : Field) : (s.modFabric f).fld g = s.fld g := rfl
@[simp] theorem State.modFabric_bit (s : State) (f : Fabric → Fabric) (g : Field) : (s.modFabric f).bit g = s.bit g := rfl
@[simp] theorem State.modFabric_page (s : State) (f : Fabric → Fabric) (fn' page' : Nat) : (s.modFabric f).page fn' page' = s.page fn' page' := rfl
@[simp] theorem State.modStrainer_word (s : State) (f : Strainer → Strainer) (fn' page' off' : Nat) : (s.modStrainer f).word fn' page' off' = s.word fn' page' off' := rfl
@[simp] theorem State.modStrainer_fldFn (s : State) (f : Strainer → Strainer) (fn' : Nat) (g : Field) : (s.modStrainer f).fldFn fn' g = s.fldFn fn' g := rfl
@[simp] theorem State.modStrainer_fld (s : State) (f : Strainer → Strainer) (g : Field) : (s.modStrainer f).fld g = s.fld g := rfl
@[simp] theorem State.modStrainer_bit (s : State) (f : Strainer → Strainer) (g : Field) : (s.modStrainer f).bit g = s.bit g := rfl
@[simp] theorem State.modStrainer_page (s : State) (f : Strainer → Strainer) (fn' page' : Nat) : (s.modStrainer f).page fn' page' = s.page fn' page' := rfl
@[simp] theorem State.modLadle_word (s : State) (f : Ladle → Ladle) (fn' page' off' : Nat) : (s.modLadle f).word fn' page' off' = s.word fn' page' off' := rfl
@[simp] theorem State.modLadle_fldFn (s : State) (f : Ladle → Ladle) (fn' : Nat) (g : Field) : (s.modLadle f).fldFn fn' g = s.fldFn fn' g := rfl
@[simp] theorem State.modLadle_fld (s : State) (f : Ladle → Ladle) (g : Field) : (s.modLadle f).fld g = s.fld g := rfl
@[simp] theorem State.modLadle_bit (s : State) (f : Ladle → Ladle) (g : Field) : (s.modLadle f).bit g = s.bit g := rfl
@[simp] theorem State.modLadle_page (s : State) (f : Ladle → Ladle) (fn' page' : Nat) : (s.modLadle f).page fn' page' = s.page fn' page' := rfl
@[simp] theorem State.modHerd_word (s : State) (f : Herd → Herd) (fn' page' off' : Nat) : (s.modHerd f).word fn' page' off' = s.word fn' page' off' := rfl
@[simp] theorem State.modHerd_fldFn (s : State) (f : Herd → Herd) (fn' : Nat) (g : Field) : (s.modHerd f).fldFn fn' g = s.fldFn fn' g := rfl
@[simp] theorem State.modHerd_fld (s : State) (f : Herd → Herd) (g : Field) : (s.modHerd f).fld g = s.fld g := rfl
@[simp] theorem State.modHerd_bit (s : State) (f : Herd → Herd) (g : Field) : (s.modHerd f).bit g = s.bit g := rfl
@[simp] theorem State.modHerd_page (s : State) (f : Herd → Herd) (fn' page' : Nat) : (s.modHerd f).page fn' page' = s.page fn' page' := rfl
@[simp] theorem State.modServe_word (s : State) (f : Serve → Serve) (fn' page' off' : Nat) : (s.modServe f).word fn' page' off' = s.word fn' page' off' := rfl
@[simp] theorem State.modServe_fldFn (s : State) (f : Serve → Serve) (fn' : Nat) (g : Field) : (s.modServe f).fldFn fn' g = s.fldFn fn' g := rfl
@[simp] theorem State.modServe_fld (s : State) (f : Serve → Serve) (g : Field) : (s.modServe f).fld g = s.fld g := rfl
@[simp] theorem State.modServe_bit (s : State) (f : Serve → Serve) (g : Field) : (s.modServe f).bit g = s.bit g := rfl
@[simp] theorem State.modServe_page (s : State) (f : Serve → Serve) (fn' page' : Nat) : (s.modServe f).page fn' page' = s.page fn' page' := rfl
@[simp] theorem State.modRolar_word (s : State) (f : Rolar → Rolar) (fn' page' off' : Nat) : (s.modRolar f).word fn' page' off' = s.word fn' page' off' := rfl
@[simp] theorem State.modRolar_fldFn (s : State) (f : Rolar → Rolar) (fn' : Nat) (g : Field) : (s.modRolar f).fldFn fn' g = s.fldFn fn' g := rfl
@[simp] theorem State.modRolar_fld (s : State) (f : Rolar → Rolar) (g : Field) : (s.modRolar f).fld g = s.fld g := rfl
@[simp] theorem State.modRolar_bit (s : State) (f : Rolar → Rolar) (g : Field) : (s.modRolar f).bit g = s.bit g := rfl
@[simp] theorem State.modRolar_page (s : State) (f : Rolar → Rolar) (fn' page' : Nat) : (s.modRolar f).page fn' page' = s.page fn' page' := rfl
@[simp] theorem State.modTwin_word (s : State) (f : Twin → Twin) (fn' page' off' : Nat) : (s.modTwin f).word fn' page' off' = s.word fn' page' off' := rfl
@[simp] theorem State.modTwin_fldFn (s : State) (f : Twin → Twin) (fn' : Nat) (g : Field) : (s.modTwin f).fldFn fn' g = s.fldFn fn' g := rfl
@[simp] theorem State.modTwin_fld (s : State) (f : Twin → Twin) (g : Field) : (s.modTwin f).fld g = s.fld g := rfl
@[simp] theorem State.modTwin_bit (s : State) (f : Twin → Twin) (g : Field) : (s.modTwin f).bit g = s.bit g := rfl
@[simp] theorem State.modTwin_page (s : State) (f : Twin → Twin) (fn' page' : Nat) : (s.modTwin f).page fn' page' = s.page fn' page' := rfl
@[simp] theorem State.modSession_word (s : State) (f : Session → Session) (fn' page' off' : Nat) : (s.modSession f).word fn' page' off' = s.word fn' page' off' := rfl
@[simp] theorem State.modSession_fldFn (s : State) (f : Session → Session) (fn' : Nat) (g : Field) : (s.modSession f).fldFn fn' g = s.fldFn fn' g := rfl
@[simp] theorem State.modSession_fld (s : State) (f : Session → Session) (g : Field) : (s.modSession f).fld g = s.fld g := rfl
@[simp] theorem State.modSession_bit (s : State) (f : Session → Session) (g : Field) : (s.modSession f).bit g = s.bit g := rfl
@[simp] theorem State.modSession_page (s : State) (f : Session → Session) (fn' page' : Nat) : (s.modSession f).page fn' page' = s.page fn' page' := rfl
@[simp] theorem State.at_word (s : State) (now : Nat) (fn' page' off' : Nat) : (s.at now).word fn' page' off' = s.word fn' page' off' := rfl
@[simp] theorem State.at_fldFn (s : State) (now : Nat) (fn' : Nat) (g : Field) : (s.at now).fldFn fn' g = s.fldFn fn' g := rfl
@[simp] theorem State.at_fld (s : State) (now : Nat) (g : Field) : (s.at now).fld g = s.fld g := rfl
@[simp] theorem State.at_bit (s : State) (now : Nat) (g : Field) : (s.at now).bit g = s.bit g := rfl
@[simp] theorem State.at_page (s : State) (now : Nat) (fn' page' : Nat) : (s.at now).page fn' page' = s.page fn' page' := rfl
@[simp] theorem State.useOpen_word (s : State) (fn' page' off' : Nat) : s.useOpen.word fn' page' off' = s.word fn' page' off' := rfl
@[simp] theorem State.useOpen_fldFn (s : State) (fn' : Nat) (g : Field) : s.useOpen.fldFn fn' g = s.fldFn fn' g := rfl
@[simp] theorem State.useOpen_fld (s : State) (g : Field) : s.useOpen.fld g = s.fld g := rfl
@[simp] theorem State.useOpen_bit (s : State) (g : Field) : s.useOpen.bit g = s.bit g := rfl
@[simp] theorem State.useOpen_page (s : State) (fn' page' : Nat) : s.useOpen.page fn' page' = s.page fn' page' := rfl
@[simp] theorem State.emit_word (s : State) (o : Output) (fn' page' off' : Nat) : (s.emit o).word fn' page' off' = s.word fn' page' off' := rfl
@[simp] theorem State.emit_fldFn (s : State) (o : Output) (fn' : Nat) (g : Field) : (s.emit o).fldFn fn' g = s.fldFn fn' g := rfl
@[simp] theorem State.emit_fld (s : State) (o : Output) (g : Field) : (s.emit o).fld g = s.fld g := rfl
@[simp] theorem State.emit_bit (s : State) (o : Output) (g : Field) : (s.emit o).bit g = s.bit g := rfl
@[simp] theorem State.emit_page (s : State) (o : Output) (fn' page' : Nat) : (s.emit o).page fn' page' = s.page fn' page' := rfl
@[simp] theorem State.emits_word (s : State) (os : List Output) (fn' page' off' : Nat) : (s.emits os).word fn' page' off' = s.word fn' page' off' := rfl
@[simp] theorem State.emits_fldFn (s : State) (os : List Output) (fn' : Nat) (g : Field) : (s.emits os).fldFn fn' g = s.fldFn fn' g := rfl
@[simp] theorem State.emits_fld (s : State) (os : List Output) (g : Field) : (s.emits os).fld g = s.fld g := rfl
@[simp] theorem State.emits_bit (s : State) (os : List Output) (g : Field) : (s.emits os).bit g = s.bit g := rfl
@[simp] theorem State.emits_page (s : State) (os : List Output) (fn' page' : Nat) : (s.emits os).page fn' page' = s.page fn' page' := rfl
@[simp] theorem State.setWord_page (s : State) (fn page off : Nat) (w : Word) (fn' page' : Nat) : (s.setWord fn page off w).page fn' page' = s.page fn' page' := rfl
@[simp] theorem State.setFldFn_page (s : State) (fn : Nat) (f : Field) (v : Nat) (fn' page' : Nat) : (s.setFldFn fn f v).page fn' page' = s.page fn' page' := rfl
@[simp] theorem State.setFld_page (s : State) (f : Field) (v : Nat) (fn' page' : Nat) : (s.setFld f v).page fn' page' = s.page fn' page' := rfl
@[simp] theorem State.countFn_page (s : State) (fn : Nat) (f : Field) (n : Nat) (fn' page' : Nat) : (s.countFn fn f n).page fn' page' = s.page fn' page' := rfl
@[simp] theorem State.count_page (s : State) (f : Field) (n : Nat) (fn' page' : Nat) : (s.count f n).page fn' page' = s.page fn' page' := rfl
@[simp] theorem State.setPage_word (s : State) (fn page : Nat) (r : PageRun) (fn' page' off' : Nat) : (s.setPage fn page r).word fn' page' off' = s.word fn' page' off' := rfl
@[simp] theorem State.setPage_fldFn (s : State) (fn page : Nat) (r : PageRun) (fn' : Nat) (g : Field) : (s.setPage fn page r).fldFn fn' g = s.fldFn fn' g := rfl
@[simp] theorem State.setPage_fld (s : State) (fn page : Nat) (r : PageRun) (g : Field) : (s.setPage fn page r).fld g = s.fld g := rfl
@[simp] theorem State.setPage_bit (s : State) (fn page : Nat) (r : PageRun) (g : Field) : (s.setPage fn page r).bit g = s.bit g := rfl

/-! Registers and fields read after they are set. -/

@[simp] theorem State.setWord_word_self (s : State) (fn page off : Nat) (w : Word) : (s.setWord fn page off w).word fn page off = w := by
  simp [State.word, State.setWord]

/-- Another register keeps its word. -/
theorem State.setWord_word_other (s : State) {fn page off fn' page' off' : Nat} (w : Word) (h : key fn page off ≠ key fn' page' off') :
    (s.setWord fn page off w).word fn' page' off' = s.word fn' page' off' := by
  simp [State.word, State.setWord, Table.findD_put_other _ _ _ h]

/-- A field reads as what was set, modulo its width. -/
theorem State.setFldFn_self (s : State) (fn : Nat) (f : Field) (v : Nat) (h : f.hi < 64) :
    (s.setFldFn fn f v).fldFn fn f = v % 2 ^ (f.hi + 1 - f.lo) := by
  simp [State.fldFn, State.setFldFn, bitsOf_putBits_self h]

/-- A field beside it in the same register is untouched. -/
theorem State.setFldFn_beside (s : State) (fn : Nat) {f g : Field} (v : Nat) (hp : g.page = f.page) (ho : g.off = f.off) (h : f.hi < 64)
    (d : f.hi < g.lo ∨ g.hi < f.lo) : (s.setFldFn fn f v).fldFn fn g = s.fldFn fn g := by
  simp [State.fldFn, State.setFldFn, hp, ho, bitsOf_putBits_other h d]

/-- A field of another register is untouched. -/
theorem State.setFldFn_elsewhere (s : State) {fn fn' : Nat} {f g : Field} (v : Nat) (h : key fn f.page f.off ≠ key fn' g.page g.off) :
    (s.setFldFn fn f v).fldFn fn' g = s.fldFn fn' g := by
  simp [State.fldFn, State.setFldFn, State.setWord_word_other _ _ h]

/-- A field of a shared page reads as what was set, modulo its width. -/
theorem State.setFld_self (s : State) (f : Field) (v : Nat) (h : f.hi < 64) : (s.setFld f v).fld f = v % 2 ^ (f.hi + 1 - f.lo) :=
  s.setFldFn_self 0 f v h

theorem State.setFld_beside (s : State) {f g : Field} (v : Nat) (hp : g.page = f.page) (ho : g.off = f.off) (h : f.hi < 64)
    (d : f.hi < g.lo ∨ g.hi < f.lo) : (s.setFld f v).fld g = s.fld g :=
  s.setFldFn_beside 0 v hp ho h d

theorem State.setFld_elsewhere (s : State) {f g : Field} (v : Nat) (h : key 0 f.page f.off ≠ key 0 g.page g.off) :
    (s.setFld f v).fld g = s.fld g :=
  s.setFldFn_elsewhere v h

/-- A counter grows by what is counted, up to all ones (R78). -/
theorem State.count_self (s : State) (f : Field) (n : Nat) (h : f.hi < 64) : (s.count f n).fld f = satAdd (s.fld f) n % 2 ^ (f.hi + 1 - f.lo) :=
  s.setFldFn_self 0 f _ h

theorem State.setPage_page_self (s : State) (fn page : Nat) (r : PageRun) : (s.setPage fn page r).page fn page = r := by
  simp [State.page, State.setPage]

/-! Register writes (R59 to R76). -/

/-- A write that reaches its register. -/
theorem State.regWrite_takes {s : State} {req : Requester} {page off : Nat} (v : Word) (hook : Hook) (h : s.takes req page off) :
    s.regWrite req page off v hook = s.applyWrite req page off v hook := by
  unfold State.takes at h
  unfold State.regWrite
  rw [h]

/-- A register's own effect acts on the state with the write's fields stored. -/
theorem State.regWrite_hook {s : State} {req : Requester} {page off : Nat} (v : Word) (hook : Hook) (h : s.takes req page off)
    (ha : (fieldsAt page off).all (fun f => f.acc = .ro) = false) :
    s.regWrite req page off v hook = hook req page (s.word (ownerOf req page) page off)
      (fieldWrite (s.locked (ownerOf req page) page) (s.word (ownerOf req page) page off) v (fieldsAt page off)).seen
      (s.stored req page off v) := by
  unfold State.stored
  rw [State.regWrite_takes v hook h, State.regWrite_takes v noHook h]
  unfold State.applyWrite noHook
  simp only [ha, Bool.false_eq_true, if_false]

/-- On a page that is not locked, a register's own effect sees the word as it was written. -/
theorem fieldWrite_seen (old v : Word) (fs : List Field) : (fieldWrite false old v fs).seen = v := by
  unfold fieldWrite
  suffices h : ∀ (w : FieldWrite), w.seen = v → (fs.foldl (fieldStep false v) w).seen = v from h _ rfl
  induction fs with
  | nil => exact fun _ h => h
  | cons f fs ih =>
    intro w h
    refine ih _ ?_
    unfold fieldStep
    cases f.acc <;> simp <;> repeat' first | exact h | split

/-- A write to an unlocked page of a register with a field that software may write. -/
theorem State.regWrite_unlocked {s : State} {req : Requester} {page off : Nat} (v : Word) (hook : Hook) (h : s.opens req page off)
    (ha : (fieldsAt page off).all (fun f => f.acc = .ro) = false) :
    s.regWrite req page off v hook = hook req page (s.word (ownerOf req page) page off) v (s.stored req page off v) := by
  rw [State.regWrite_hook v hook h.1 ha, h.2, fieldWrite_seen]

end Sys2Proof.Machine
end

