-- ==== Sys2Proof/Laws/Access.lean ====
section
/-! SUPPORT. What register writes, errors and counters leave unchanged, as the provers cite it: one lemma per shared operation. -/

namespace Sys2Proof.Machine

open Sys2Proof.Reg

/-! Parts that an operation keeps, read off its frame. -/

theorem Frame.part {m : Nat} {s t : State} (h : Frame m s t) (p : Part) (hp : m.testBit p.index = false) : p.same s t := h.parts p hp

/-! Fields apart. -/

/-- Two fields of shared pages that share no bit: other registers, or other bits of one register. -/
def fieldApart (f g : Field) : Bool :=
  decide (key 0 f.page f.off ≠ key 0 g.page g.off) ||
    (decide (f.hi < 64) && decide (g.page = f.page) && decide (g.off = f.off) && (decide (f.hi < g.lo) || decide (g.hi < f.lo)))

theorem State.setFld_apart (s : State) {f g : Field} (v : Nat) (h : fieldApart f g = true) : (s.setFld f v).fld g = s.fld g := by
  unfold fieldApart at h
  simp only [Bool.or_eq_true, Bool.and_eq_true, decide_eq_true_eq] at h
  rcases h with h | ⟨⟨⟨h1, h2⟩, h3⟩, h4⟩
  · exact s.setFld_elsewhere v h
  · exact s.setFld_beside v h2 h3 h1 h4

theorem State.setFld_bit_apart (s : State) {f g : Field} (v : Nat) (h : fieldApart f g = true) : (s.setFld f v).bit g = s.bit g := by
  simp only [State.bit, s.setFld_apart v h]

theorem State.setFld_bit_self (s : State) (f : Field) (v : Nat) (h : f.hi < 64) : (s.setFld f v).bit f = (v % 2 ^ (f.hi + 1 - f.lo) != 0) := by
  simp only [State.bit, s.setFld_self f v h]

theorem State.count_apart (s : State) {f g : Field} (n : Nat) (h : fieldApart f g = true) : (s.count f n).fld g = s.fld g :=
  s.setFld_apart _ h

theorem State.count_bit_apart (s : State) {f g : Field} (n : Nat) (h : fieldApart f g = true) : (s.count f n).bit g = s.bit g :=
  s.setFld_bit_apart _ h

/-- A register other than the field's keeps its word. -/
theorem State.setFld_word_other (s : State) {f : Field} {fn' page' off' : Nat} (v : Nat) (h : key 0 f.page f.off ≠ key fn' page' off') :
    (s.setFld f v).word fn' page' off' = s.word fn' page' off' :=
  s.setWord_word_other _ h

theorem State.word_of_regs {s t : State} (h : t.regs = s.regs) (fn page off : Nat) : t.word fn page off = s.word fn page off := by
  simp only [State.word, h]

theorem State.fldFn_of_regs {s t : State} (h : t.regs = s.regs) (fn : Nat) (f : Field) : t.fldFn fn f = s.fldFn fn f := by
  simp only [State.fldFn, State.word_of_regs h]

theorem State.fld_of_regs {s t : State} (h : t.regs = s.regs) (f : Field) : t.fld f = s.fld f := State.fldFn_of_regs h 0 f

theorem State.bit_of_regs {s t : State} (h : t.regs = s.regs) (f : Field) : t.bit f = s.bit f := by
  simp only [State.bit, State.fld_of_regs h]

/-! Interrupt events and errors. -/

theorem State.irqEvent_regs (s : State) (fn page : Nat) : (s.irqEvent fn page).regs = s.regs :=
  (State.irqEvent_frame (m := 4) rfl (Frame.refl s)).part .regs rfl

/-- A header register that errors of a page set: ERR_STICKY, ERR_FIRST, the counter of events and the two stamps. -/
def errorOff (off : Nat) : Bool := [0x020, 0x030, HDR.ERR_EVENTS.off, 0x0F0, 0x0F8].contains off

theorem State.setSticky_word (s : State) (fn page n : Nat) {fn' page' off' : Nat}
    (h : key fn page 0x020 ≠ key fn' page' off' ∧ key fn page HDR.ERR_EVENTS.off ≠ key fn' page' off') :
    (s.setSticky fn page n).word fn' page' off' = s.word fn' page' off' := by
  have base : ((s.setWord fn page 0x020 (s.word fn page 0x020 ||| BitVec.ofNat 64 (2 ^ n))).countFn fn (HDR.ERR_EVENTS.on page) 1).word fn' page' off' =
      s.word fn' page' off' := by
    unfold State.countFn State.setFldFn
    exact (State.setWord_word_other _ _ h.2).trans (State.setWord_word_other _ _ h.1)
  unfold State.setSticky
  simp only []
  split
  · exact base
  · rw [State.word_of_regs (State.irqEvent_regs _ _ _), base]

/-- An error on a page leaves every register as it is but the five that errors set there. -/
theorem State.raise_word (s : State) (fn page n source off accPage : Nat) {fn' page' off' : Nat}
    (h : ∀ o, errorOff o = true → key fn page o ≠ key fn' page' off') :
    (s.raise fn page n source off accPage).word fn' page' off' = s.word fn' page' off' := by
  have hs (s : State) (n : Nat) : (s.setSticky fn page n).word fn' page' off' = s.word fn' page' off' :=
    s.setSticky_word fn page n ⟨h _ rfl, h _ rfl⟩
  unfold State.raise
  simp only []
  split
  · exact hs _ _
  · split
    · rw [hs, hs]
    · rw [State.setWord_word_other _ _ (h _ rfl), State.setWord_word_other _ _ (h _ rfl), State.setWord_word_other _ _ (h _ rfl), hs]

/-- Keys of registers name function, page and offset. -/
theorem key_inj {fn page off fn' page' off' : Nat} (hp : page < 0x4000) (ho : off < 0x1000) (hp' : page' < 0x4000) (ho' : off' < 0x1000)
    (h : key fn page off = key fn' page' off') : fn = fn' ∧ page = page' ∧ off = off' := by
  unfold key at h
  omega

/-- An error on a page leaves the fields of its block as they are, and those of other pages. -/
theorem State.raise_fld (s : State) (page n source off accPage : Nat) {g : Field} (hp : page < 0x4000) (hg : g.page < 0x4000) (ho : g.off < 0x1000)
    (h : errorOff g.off = false) : (s.raise 0 page n source off accPage).fld g = s.fld g := by
  unfold State.fld State.fldFn
  rw [State.raise_word]
  intro o he hk
  have : o < 0x1000 := by
    unfold errorOff at he
    simp only [List.contains_eq_mem, List.mem_cons, List.not_mem_nil, or_false, decide_eq_true_eq] at he
    rcases he with rfl | rfl | rfl | rfl | rfl <;> decide
  obtain ⟨_, _, rfl⟩ := key_inj hp this hg ho hk
  rw [h] at he
  cases he

theorem State.raiseOwn_fld (s : State) (page n : Nat) {g : Field} (hp : page < 0x4000) (hg : g.page < 0x4000) (ho : g.off < 0x1000)
    (h : errorOff g.off = false) : (s.raiseOwn page n).fld g = s.fld g := s.raise_fld page n _ _ _ hp hg ho h

/-! Register writes. -/

/-- A write that takes effect on an open page: its register's own effect acts on the stored fields and sees the word as written. -/
theorem State.lands_hook {s u : State} {now : Nat} {req : Requester} {page off : Nat} {v : Word} (hook : Hook) (h : s.lands now req page off v u)
    (ha : (fieldsAt page off).all (fun f => f.acc = .ro) = false) :
    (s.at now).regWrite req page off v hook = hook req page (s.word (ownerOf req page) page off) v u := by
  rw [State.regWrite_unlocked v hook h.1 ha, ← h.2]
  rfl

/-- Storing a register's fields changes registers, pages and what an undeclared host loss holds, and nothing else. -/
theorem State.stored_frame (s : State) (req : Requester) (page off : Nat) (v : Word) : Frame 1030 s (s.stored req page off v) :=
  State.regWrite_frame (fun _ _ _ _ _ h => h) rfl (Frame.refl s)

theorem State.lands_frame {s u : State} {now : Nat} {req : Requester} {page off : Nat} {v : Word} (h : s.lands now req page off v u) :
    Frame 1030 (s.at now) u := by
  rw [h.2]
  exact State.stored_frame _ _ _ _ _

/-- A page that a write takes effect on is one the module has. -/
theorem State.takes_block {s : State} {req : Requester} {page off : Nat} (h : s.takes req page off) : ∃ b, blockOf page = some b := by
  unfold State.takes State.writeWay at h
  cases hb : blockOf page with
  | some b => exact ⟨b, rfl⟩
  | none => simp [presents, hb] at h

end Sys2Proof.Machine
end

