-- ==== Sys2Proof/Laws/FrameStages.lean ====
section
/-! SUPPORT. Which parts each operation of the stages of plans can change: one lemma per operation of Machine/StrainerOps, Columns, JobOps, JobWrite, Separator, StrainerStage, Press, TideBase, Ripener, Normaliser, Crate, Churn, Dlog, Intake, LadleOps, Arrive, Ladle. -/

namespace Sys2Proof.Machine

open Sys2Proof.Reg

/-! Machine/StrainerOps.lean. -/

theorem State.setBank_frame {m : Nat} {s0 s : State} {a2 a3 : _} (hm : 131072 ||| m = m) (h : Frame m s0 s) : Frame m s0 (State.setBank s a2 a3) := by
  unfold State.setBank
  repeat' with_reducible first
    | assumption
    | apply State.modStrainer_frame

theorem State.countSearches_frame {m : Nat} {s0 s : State} {a2 a3 : _} (hm : 2 ||| m = m) (h : Frame m s0 s) : Frame m s0 (State.countSearches s a2 a3) := by
  unfold State.countSearches
  repeat' first
    | with_reducible assumption
    | ((try lift_lets -underBinder); intro x; clear_value (e : x = _); first | refine (fun hx : Frame m s0 x => ?_) (Frame.ofEq e ?_) | skip)
    | with_reducible apply State.count_frame
    | with_reducible apply Frame.ite

theorem State.bankCount_frame {m : Nat} {s0 s : State} {a2 : _} (hm : 2 ||| m = m) (h : Frame m s0 s) : Frame m s0 (State.bankCount s a2) := by
  unfold State.bankCount
  repeat' with_reducible first
    | assumption
    | apply State.setFld_frame

theorem State.bankTouch_frame {m : Nat} {s0 s : State} {a2 : _} (hm : 131072 ||| m = m) (h : Frame m s0 s) : Frame m s0 (State.bankTouch s a2) := by
  unfold State.bankTouch
  repeat' first
    | with_reducible assumption
    | ((try lift_lets -underBinder); intro x; clear_value (e : x = _); skip)
    | with_reducible apply State.setBank_frame
    | with_reducible apply Frame.ite

theorem State.strWrite_frame {m : Nat} {s0 s : State} {a2 a3 a4 a5 : _} (hm : 131078 ||| m = m) (h : Frame m s0 s) : Frame m s0 (State.strWrite s a2 a3 a4 a5) := by
  unfold State.strWrite
  repeat' first
    | with_reducible assumption
    | ((try lift_lets -underBinder); intro x; clear_value (e : x = _); first | refine (fun hx : Frame m s0 x => ?_) (Frame.ofEq e ?_) | skip)
    | exact mask_sub rfl hm
    | with_reducible apply State.bankCount_frame
    | with_reducible apply State.raiseOwn_frame
    | with_reducible apply State.setFld_frame
    | with_reducible apply State.setBank_frame
    | with_reducible apply State.count_frame
    | with_reducible apply State.bankTouch_frame
    | with_reducible apply Frame.ite

theorem State.bankClear_frame {m : Nat} {s0 s : State} {a2 : _} (hm : 131074 ||| m = m) (h : Frame m s0 s) : Frame m s0 (State.bankClear s a2) := by
  unfold State.bankClear
  repeat' first
    | with_reducible assumption
    | ((try lift_lets -underBinder); intro x; clear_value (e : x = _); first | refine (fun hx : Frame m s0 x => ?_) (Frame.ofEq e ?_) | skip)
    | exact mask_sub rfl hm
    | with_reducible apply State.setFld_frame
    | with_reducible apply State.setBank_frame
    | with_reducible apply State.count_frame
    | with_reducible apply State.bankTouch_frame

/-! Machine/Columns.lean. -/

theorem State.stage_frame {m : Nat} {s0 s : State} {a2 a3 a4 a5 : _} (hm : 2048 ||| m = m) (h : Frame m s0 s) : Frame m s0 (State.stage s a2 a3 a4 a5) := by
  unfold State.stage
  repeat' with_reducible first
    | assumption
    | apply State.modWork_frame

theorem State.unstage_frame {m : Nat} {s0 s : State} {a2 : _} (hm : 2048 ||| m = m) (h : Frame m s0 s) : Frame m s0 (State.unstage s a2) := by
  unfold State.unstage
  repeat' first
    | with_reducible assumption
    | ((try lift_lets -underBinder); intro x; clear_value (e : x = _); skip)
    | with_reducible apply State.modWork_frame

theorem State.snoopLine_frame {m : Nat} {s0 s : State} {a2 a3 : _} (hm : 1026 ||| m = m) (h : Frame m s0 s) : Frame m s0 (State.snoopLine s a2 a3) := by
  unfold State.snoopLine
  repeat' first
    | with_reducible assumption
    | exact mask_sub rfl hm
    | with_reducible apply State.count_frame
    | with_reducible apply State.modHost_frame
    | with_reducible apply State.emit_frame
    | with_reducible apply Frame.ite
    | exact Eq.refl _

theorem State.snoopFor_frame {m : Nat} {s0 s : State} {a2 a3 a4 : _} (hm : 1026 ||| m = m) (h : Frame m s0 s) : Frame m s0 (State.snoopFor s a2 a3 a4) := by
  unfold State.snoopFor
  repeat' first
    | with_reducible assumption
    | ((try lift_lets -underBinder); intro x; clear_value (e : x = _); refine (fun hx : Frame m s0 x => ?_) (Frame.ofEq e ?_))
    | exact mask_sub rfl hm
    | intro x
    | with_reducible apply State.snoopLine_frame
    | with_reducible apply State.modHost_frame
    | with_reducible apply Frame.ite
    | exact Eq.refl _
    | with_reducible refine Frame.foldl ?_ ?_

/-! Machine/JobOps.lean. -/

theorem State.updJob_frame {m : Nat} {s0 s : State} {a2 a3 : _} (hm : 2048 ||| m = m) (h : Frame m s0 s) : Frame m s0 (State.updJob s a2 a3) := by
  unfold State.updJob
  repeat' with_reducible first
    | assumption
    | apply State.modWork_frame

theorem State.updSlice_frame {m : Nat} {s0 s : State} {a2 a3 : _} (hm : 2048 ||| m = m) (h : Frame m s0 s) : Frame m s0 (State.updSlice s a2 a3) := by
  unfold State.updSlice
  repeat' with_reducible first
    | assumption
    | apply State.modWork_frame

theorem State.setEng_frame {m : Nat} {s0 s : State} {a2 a3 a4 : _} (hm : 2048 ||| m = m) (h : Frame m s0 s) : Frame m s0 (State.setEng s a2 a3 a4) := by
  unfold State.setEng
  repeat' with_reducible first
    | assumption
    | apply State.updJob_frame

theorem State.appendOut_frame {m : Nat} {s0 s : State} {a2 a3 a4 : _} (hm : 2048 ||| m = m) (h : Frame m s0 s) : FrameGot m s0 id (State.appendOut s a2 a3 a4) := by
  unfold State.appendOut
  repeat' first
    | with_reducible assumption
    | ((try lift_lets -underBinder); intro x; clear_value (e : x = _); skip)
    | with_reducible apply State.updJob_frame
    | with_reducible refine FrameGot.ok' ?_
    | with_reducible exact FrameGot.fail
    | with_reducible refine FrameGot.ite ?_ ?_
    | split

theorem State.appendOuts_frame {m : Nat} {s0 s : State} {a2 a3 : _} (hm : 2048 ||| m = m) (h : Frame m s0 s) : FrameGot m s0 id (State.appendOuts s a2 a3) := by
  unfold State.appendOuts
  repeat' first
    | with_reducible assumption
    | intro x
    | with_reducible apply State.appendOut_frame
    | with_reducible refine FrameGot.bindFrame' (by assumption) ?_
    | with_reducible refine FrameGot.ok' ?_
    | with_reducible refine FrameGot.foldl ?_ ?_

theorem State.appendBytes_frame {m : Nat} {s0 s : State} {a2 a3 a4 : _} (hm : 2048 ||| m = m) (h : Frame m s0 s) : Frame m s0 (State.appendBytes s a2 a3 a4) := by
  unfold State.appendBytes
  repeat' with_reducible first
    | assumption
    | apply State.updJob_frame

theorem State.rowWise_frame {m : Nat} {s0 s : State} {a2 a3 a4 : _} (hm : 2048 ||| m = m) (h : Frame m s0 s) : FrameRan m s0 (State.rowWise s a2 a3 a4) := by
  unfold State.rowWise
  repeat' first
    | with_reducible assumption
    | ((try lift_lets -underBinder); intro x; clear_value (e : x = _); skip)
    | intro x
    | with_reducible apply State.setEng_frame
    | with_reducible refine FrameRan.withFrame' (State.appendOuts_frame (mask_sub rfl hm) ?_) ?_ ?_
    | with_reducible refine FrameRan.done ?_
    | split
    | with_reducible refine FrameRan.with ?_ ?_

theorem State.placeStage_frame {m : Nat} {s0 s : State} {a2 a3 a4 : _} (hm : 2048 ||| m = m) (h : Frame m s0 s) : Frame m s0 (State.placeStage s a2 a3 a4) := by
  unfold State.placeStage
  repeat' first
    | with_reducible assumption
    | exact mask_sub rfl hm
    | with_reducible apply State.useOpen_frame
    | ((try lift_lets -underBinder); intro x; clear_value (e : x = _); skip)
    | with_reducible apply State.modWork_frame
    | with_reducible apply Frame.ite
    | split

theorem State.placeSlices_frame {m : Nat} {s0 s : State} {a2 : _} (hm : 2048 ||| m = m) (h : Frame m s0 s) : Frame m s0 (State.placeSlices s a2) := by
  unfold State.placeSlices
  repeat' first
    | with_reducible assumption
    | intro x
    | with_reducible apply State.placeStage_frame
    | with_reducible apply Frame.ite
    | with_reducible refine Frame.foldl ?_ ?_
    | split

theorem State.placeAll_frame {m : Nat} {s0 s : State} (hm : 2048 ||| m = m) (h : Frame m s0 s) : Frame m s0 (State.placeAll s) := by
  unfold State.placeAll
  repeat' first
    | with_reducible assumption
    | intro x
    | with_reducible apply State.placeSlices_frame
    | with_reducible refine Frame.foldl ?_ ?_

theorem State.sliceGone_frame {m : Nat} {s0 s : State} {a2 : _} (hm : 2048 ||| m = m) (h : Frame m s0 s) : Frame m s0 (State.sliceGone s a2) := by
  unfold State.sliceGone
  repeat' with_reducible first
    | assumption
    | apply State.modWork_frame

theorem State.failJob_frame {m : Nat} {s0 s : State} {a2 a3 a4 a5 a6 : _} (hm : 335546374 ||| m = m) (h : Frame m s0 s) : Frame m s0 (State.failJob s a2 a3 a4 a5 a6) := by
  unfold State.failJob
  repeat' first
    | with_reducible assumption
    | ((try lift_lets -underBinder); intro x; clear_value (e : x = _); refine (fun hx : Frame m s0 x => ?_) (Frame.ofEq e ?_))
    | exact mask_sub rfl hm
    | with_reducible apply State.updJob_frame
    | with_reducible apply State.faultRecord_frame
    | with_reducible apply Frame.ite
    | split

theorem State.giveExtents_frame {m : Nat} {s0 s : State} {a2 : _} (hm : 512 ||| m = m) (h : Frame m s0 s) : Frame m s0 (State.giveExtents s a2) := by
  unfold State.giveExtents
  repeat' with_reducible first
    | assumption
    | apply State.modTiers_frame

theorem State.endSlice_frame {m : Nat} {s0 s : State} {a2 : _} (hm : 7744 ||| m = m) (h : Frame m s0 s) : Frame m s0 (State.endSlice s a2) := by
  unfold State.endSlice
  repeat' first
    | with_reducible assumption
    | ((try lift_lets -underBinder); intro x; clear_value (e : x = _); refine (fun hx : Frame m s0 x => ?_) (Frame.ofEq e ?_))
    | exact mask_sub rfl hm
    | with_reducible apply State.sliceGone_frame
    | with_reducible apply State.modTiers_frame
    | with_reducible apply State.giveExtents_frame
    | with_reducible apply State.threadEnd_frame
    | with_reducible apply State.leaveUnwait_frame
    | with_reducible apply State.unstage_frame
    | with_reducible apply State.modHost_frame
    | exact Eq.refl _
    | split

theorem State.dropQueued_frame {m : Nat} {s0 s : State} {a2 : _} (hm : 7744 ||| m = m) (h : Frame m s0 s) : Frame m s0 (State.dropQueued s a2) := by
  unfold State.dropQueued
  repeat' first
    | with_reducible assumption
    | intro x
    | with_reducible apply State.endSlice_frame
    | with_reducible refine Frame.foldl ?_ ?_

theorem State.dropSlices_frame {m : Nat} {s0 s : State} {a2 : _} (hm : 7744 ||| m = m) (h : Frame m s0 s) : Frame m s0 (State.dropSlices s a2) := by
  unfold State.dropSlices
  repeat' first
    | with_reducible assumption
    | intro x
    | with_reducible apply State.endSlice_frame
    | with_reducible refine Frame.foldl ?_ ?_

theorem State.failSlice_frame {m : Nat} {s0 s : State} {a2 a3 a4 : _} (hm : 335552070 ||| m = m) (h : Frame m s0 s) : Frame m s0 (State.failSlice s a2 a3 a4) := by
  unfold State.failSlice
  repeat' first
    | with_reducible assumption
    | ((try lift_lets -underBinder); intro x; clear_value (e : x = _); first | refine (fun hx : Frame m s0 x => ?_) (Frame.ofEq e ?_) | skip)
    | exact mask_sub rfl hm
    | with_reducible apply State.failJob_frame
    | with_reducible apply State.vatUe_frame
    | with_reducible apply State.dropQueued_frame
    | with_reducible apply State.endSlice_frame
    | with_reducible apply Frame.ite
    | split

/-! Machine/JobWrite.lean. -/

theorem State.jobHostWrite_frame {m : Nat} {s0 s : State} {a2 a3 a4 a5 : _} (hm : 3854 ||| m = m) (h : Frame m s0 s) : Frame m s0 (State.jobHostWrite s a2 a3 a4 a5) := by
  unfold State.jobHostWrite
  repeat' first
    | with_reducible assumption
    | exact mask_sub rfl hm
    | with_reducible apply State.parkWrite_frame
    | with_reducible apply State.raiseOwn_frame
    | with_reducible apply State.updJob_frame
    | with_reducible apply State.writeOut_frame
    | with_reducible apply State.count_frame
    | with_reducible apply Frame.ite
    | split
    | with_reducible refine FrameOpt.get' (by assumption) ?_

theorem State.sendWrites_frame {m : Nat} {s0 s : State} {a2 a3 a4 a5 : _} (hm : 32774 ||| m = m) (h : Frame m s0 s) : Frame m s0 (State.sendWrites s a2 a3 a4 a5).1 := by
  unfold State.sendWrites
  repeat' first
    | with_reducible assumption
    | ((try lift_lets -underBinder); intro x; clear_value (e : x = _); first | refine (fun hx : Frame m s0 x.1 => ?_) (Frame.ofEq1 e ?_) | skip)
    | intro x
    | with_reducible apply State.trySend_frame
    | with_reducible refine Frame.foldlFst ?_ ?_

theorem State.jobWrite_frame {m : Nat} {s0 s : State} {a2 a3 a4 a5 : _} (hm : 36622 ||| m = m) (h : Frame m s0 s) : FrameGot m s0 id (State.jobWrite s a2 a3 a4 a5) := by
  unfold State.jobWrite
  repeat' first
    | with_reducible assumption
    | ((try lift_lets -underBinder); intro x; clear_value (e : x = _); refine (fun hx : Frame m s0 x.1 => ?_) (Frame.ofEq1 e ?_))
    | exact mask_sub rfl hm
    | with_reducible apply State.jobHostWrite_frame
    | with_reducible apply State.sendWrites_frame
    | with_reducible apply State.storeBytes_frame
    | with_reducible refine FrameGot.ok' ?_
    | with_reducible exact FrameGot.fail
    | with_reducible exact FrameGot.need
    | with_reducible refine FrameGot.ite ?_ ?_
    | split

theorem State.jobWrites_frame {m : Nat} {s0 s : State} {a2 a3 a4 : _} (hm : 36622 ||| m = m) (h : Frame m s0 s) : FrameGot m s0 id (State.jobWrites s a2 a3 a4) := by
  unfold State.jobWrites
  repeat' first
    | with_reducible assumption
    | intro x
    | with_reducible apply State.jobWrite_frame
    | with_reducible refine FrameGot.bindFrame' (by assumption) ?_
    | with_reducible refine FrameGot.ok' ?_
    | with_reducible refine FrameGot.foldl ?_ ?_

theorem State.countHost_frame {m : Nat} {s0 s : State} {a2 a3 a4 a5 : _} (hm : 2048 ||| m = m) (h : Frame m s0 s) : Frame m s0 (State.countHost s a2 a3 a4 a5) := by
  unfold State.countHost
  repeat' with_reducible first
    | assumption
    | apply State.updJob_frame
    | apply Frame.ite

theorem State.readyWord_frame {m : Nat} {s0 s : State} {a2 a3 a4 a5 a6 : _} (hm : 102158 ||| m = m) (h : Frame m s0 s) : FrameGot m s0 id (State.readyWord s a2 a3 a4 a5 a6) := by
  unfold State.readyWord
  repeat' first
    | with_reducible assumption
    | ((try lift_lets -underBinder); intro x; clear_value (e : x = _); skip)
    | exact mask_sub rfl hm
    | intro x
    | with_reducible apply State.modTwin_frame
    | with_reducible apply State.count_frame
    | with_reducible refine FrameGot.bindFrame' (State.jobWrite_frame (mask_sub rfl hm) ?_) ?_
    | with_reducible refine FrameGot.ok' ?_
    | split

theorem State.readyWords_frame {m : Nat} {s0 s : State} {a2 : _} (hm : 102158 ||| m = m) (h : Frame m s0 s) : Frame m s0 (State.readyWords s a2) := by
  unfold State.readyWords
  repeat' first
    | with_reducible assumption
    | ((try lift_lets -underBinder); intro x; clear_value (e : x = _); refine (fun hx : Frame m s0 x => ?_) (Frame.ofEq e ?_))
    | exact mask_sub rfl hm
    | intro x
    | with_reducible apply State.updJob_frame
    | with_reducible apply State.snoopFor_frame
    | with_reducible apply State.readyWord_frame
    | with_reducible apply State.count_frame
    | with_reducible apply Frame.ite
    | with_reducible refine Frame.foldl ?_ ?_
    | split
    | with_reducible refine FrameGot.get' (by assumption) ?_

/-! Machine/Separator.lean. -/

theorem sepCount_frame {m : Nat} {s0 s : State} {a2 a3 a4 a5 a6 : _} (hm : 2 ||| m = m) (h : Frame m s0 s) : Frame m s0 (sepCount s a2 a3 a4 a5 a6) := by
  unfold sepCount
  repeat' with_reducible first
    | assumption
    | apply State.count_frame

theorem runProgram_frame {m : Nat} {s0 s : State} {a2 : _} (hm : 2054 ||| m = m) (h : Frame m s0 s) : FrameRan m s0 (runProgram s a2) := by
  unfold runProgram
  repeat' first
    | with_reducible assumption
    | ((try lift_lets -underBinder); intro x; clear_value (e : x = _); first | refine (fun hx : Frame m s0 x => ?_) (Frame.ofEq e ?_) | (have _f := fun a => x a; subst e) | skip)
    | exact mask_sub rfl hm
    | intro x
    | with_reducible apply State.countSearches_frame
    | with_reducible apply sepCount_frame
    | with_reducible apply State.raiseOwn_frame
    | with_reducible apply State.setEng_frame
    | with_reducible refine FrameRan.withFrame' (State.appendOut_frame (mask_sub rfl hm) ?_) ?_ ?_
    | with_reducible refine FrameRan.done ?_
    | with_reducible refine FrameRan.failed ?_
    | split
    | with_reducible refine FrameRan.with ?_ ?_

theorem runPartition_frame {m : Nat} {s0 s : State} {a2 : _} (hm : 2050 ||| m = m) (h : Frame m s0 s) : FrameRan m s0 (runPartition s a2) := by
  unfold runPartition
  repeat' first
    | with_reducible assumption
    | ((try lift_lets -underBinder); intro x; clear_value (e : x = _); first | refine (fun hx : Frame m s0 x => ?_) (Frame.ofEq e ?_) | skip)
    | exact mask_sub rfl hm
    | intro x
    | with_reducible apply sepCount_frame
    | with_reducible apply State.setEng_frame
    | with_reducible refine FrameRan.withFrame' (State.appendOuts_frame (mask_sub rfl hm) ?_) ?_ ?_
    | with_reducible refine FrameRan.done ?_
    | split
    | with_reducible refine FrameRan.with ?_ ?_

theorem runKeep_frame {m : Nat} {s0 s : State} {a2 : _} (hm : 2050 ||| m = m) (h : Frame m s0 s) : FrameRan m s0 (runKeep s a2) := by
  unfold runKeep
  repeat' first
    | with_reducible assumption
    | ((try lift_lets -underBinder); intro x; clear_value (e : x = _); first | refine (fun hx : Frame m s0 x => ?_) (Frame.ofEq e ?_) | (have _f := fun a => x a; subst e) | skip)
    | exact mask_sub rfl hm
    | intro x
    | with_reducible apply sepCount_frame
    | with_reducible apply State.setEng_frame
    | with_reducible refine FrameRan.withFrame' (State.appendOut_frame (mask_sub rfl hm) ?_) ?_ ?_
    | with_reducible refine FrameRan.done ?_
    | split
    | with_reducible refine FrameRan.with ?_ ?_

theorem runSeparator_frame {m : Nat} {s0 s : State} {a2 : _} (hm : 2054 ||| m = m) (h : Frame m s0 s) : FrameRan m s0 (runSeparator s a2) := by
  unfold runSeparator
  repeat' first
    | with_reducible assumption
    | exact mask_sub rfl hm
    | with_reducible apply runKeep_frame
    | with_reducible apply runProgram_frame
    | with_reducible apply runPartition_frame
    | with_reducible refine FrameRan.ite ?_ ?_

theorem runHash_frame {m : Nat} {s0 s : State} {a2 : _} (hm : 2050 ||| m = m) (h : Frame m s0 s) : FrameRan m s0 (runHash s a2) := by
  unfold runHash
  repeat' first
    | with_reducible assumption
    | ((try lift_lets -underBinder); intro x; clear_value (e : x = _); first | refine (fun hx : Frame m s0 x => ?_) (Frame.ofEq e ?_) | skip)
    | exact mask_sub rfl hm
    | intro x
    | with_reducible apply State.setEng_frame
    | with_reducible apply State.count_frame
    | with_reducible refine FrameRan.withFrame' (State.appendOuts_frame (mask_sub rfl hm) ?_) ?_ ?_
    | with_reducible refine FrameRan.done ?_
    | split
    | with_reducible refine FrameRan.with ?_ ?_

/-! Machine/StrainerStage.lean. -/

theorem runSearch_frame {m : Nat} {s0 s : State} {a2 : _} (hm : 2050 ||| m = m) (h : Frame m s0 s) : FrameRan m s0 (runSearch s a2) := by
  unfold runSearch
  repeat' first
    | with_reducible assumption
    | ((try lift_lets -underBinder); intro x; clear_value (e : x = _); first | refine (fun hx : Frame m s0 x => ?_) (Frame.ofEq e ?_) | (have _f := fun a => x a; subst e) | skip)
    | exact mask_sub rfl hm
    | intro x
    | with_reducible apply State.countSearches_frame
    | with_reducible apply State.setEng_frame
    | with_reducible refine FrameRan.withFrame' (State.appendOuts_frame (mask_sub rfl hm) ?_) ?_ ?_
    | with_reducible refine FrameRan.done ?_
    | with_reducible refine FrameRan.failed ?_
    | with_reducible refine FrameRan.ite ?_ ?_
    | split
    | with_reducible refine FrameRan.with ?_ ?_

theorem runLoad_frame {m : Nat} {s0 s : State} {a2 : _} (hm : 133120 ||| m = m) (h : Frame m s0 s) : FrameRan m s0 (runLoad s a2) := by
  unfold runLoad
  repeat' first
    | with_reducible assumption
    | ((try lift_lets -underBinder); intro x; clear_value (e : x = _); first | refine (fun hx : Frame m s0 x => ?_) (Frame.ofEq e ?_) | skip)
    | exact mask_sub rfl hm
    | intro x
    | with_reducible apply State.setEng_frame
    | with_reducible apply State.modStrainer_frame
    | with_reducible apply Frame.ite
    | with_reducible refine FrameRan.done ?_
    | with_reducible refine FrameRan.failed ?_
    | with_reducible refine FrameRan.ite ?_ ?_
    | split
    | with_reducible refine FrameRan.with ?_ ?_

theorem State.loadWrites_frame {m : Nat} {s0 s : State} {r d n} (hm : 131078 ||| m = m) (h : Frame m s0 s) : Frame m s0 (s.loadWrites r d n).1 := by
  induction n generalizing s with
  | zero =>
    unfold State.loadWrites
    repeat' with_reducible assumption
  | succ n ih =>
    unfold State.loadWrites
    repeat' first
      | with_reducible assumption
      | ((try lift_lets -underBinder); intro x; clear_value (e : x = _); first | refine (fun hx : Frame m s0 x.1 => ?_) (Frame.ofEq1 e ?_) | skip)
      | with_reducible apply ih
      | with_reducible apply State.strWrite_frame
      | split

theorem State.loadPass_frame {m : Nat} {s0 s : State} {a2 a3 a4 : _} (hm : 335683142 ||| m = m) (h : Frame m s0 s) : Frame m s0 (State.loadPass s a2 a3 a4) := by
  unfold State.loadPass
  repeat' first
    | with_reducible assumption
    | ((try lift_lets -underBinder); intro x; clear_value (e : x = _); first | refine (fun hx : Frame m s0 x => ?_) (Frame.ofEq e ?_) | refine (fun hx : Frame m s0 x.1 => ?_) (Frame.ofEq1 e ?_) | (have _f := fun a => x a; subst e) | skip)
    | exact mask_sub rfl hm
    | with_reducible apply State.failJob_frame
    | with_reducible apply State.updJob_frame
    | with_reducible apply State.setEng_frame
    | with_reducible apply State.dropQueued_frame
    | with_reducible apply State.loadWrites_frame
    | with_reducible apply State.modStrainer_frame
    | with_reducible apply State.placeSlices_frame
    | with_reducible apply Frame.ite
    | split

theorem runStrainer_frame {m : Nat} {s0 s : State} {a2 : _} (hm : 133122 ||| m = m) (h : Frame m s0 s) : FrameRan m s0 (runStrainer s a2) := by
  unfold runStrainer
  repeat' first
    | with_reducible assumption
    | exact mask_sub rfl hm
    | with_reducible apply runLoad_frame
    | with_reducible apply runSearch_frame
    | with_reducible refine FrameRan.ite ?_ ?_

/-! Machine/Press.lean. -/

theorem State.setJoin_frame {m : Nat} {s0 s : State} {a2 a3 a4 : _} (hm : 2048 ||| m = m) (h : Frame m s0 s) : Frame m s0 (State.setJoin s a2 a3 a4) := by
  unfold State.setJoin
  repeat' with_reducible first
    | assumption
    | apply State.updJob_frame

theorem State.takeBuild_frame {m : Nat} {s0 s : State} {a2 a3 : _} (hm : 512 ||| m = m) (h : Frame m s0 s) : Frame m s0 (State.takeBuild s a2 a3) := by
  unfold State.takeBuild
  repeat' with_reducible first
    | assumption
    | apply State.modTiers_frame

theorem State.giveBuild_frame {m : Nat} {s0 s : State} {a2 a3 : _} (hm : 512 ||| m = m) (h : Frame m s0 s) : Frame m s0 (State.giveBuild s a2 a3) := by
  unfold State.giveBuild
  repeat' with_reducible first
    | assumption
    | apply State.modTiers_frame

theorem State.creamBack_frame {m : Nat} {s0 s : State} {a2 a3 : _} (hm : 526 ||| m = m) (h : Frame m s0 s) : Frame m s0 (State.creamBack s a2 a3) := by
  unfold State.creamBack
  repeat' first
    | with_reducible assumption
    | exact mask_sub rfl hm
    | with_reducible apply State.modTiers_frame
    | with_reducible apply State.spillNotices_frame

theorem State.skimFor_frame {m : Nat} {s0 s : State} {a2 a3 a4 : _} (hm : 526 ||| m = m) (h : Frame m s0 s) : FrameOpt m s0 Prod.fst (State.skimFor s a2 a3 a4) := by
  unfold State.skimFor
  repeat' first
    | with_reducible assumption
    | ((try lift_lets -underBinder); intro x; clear_value (e : x = _); skip)
    | intro x
    | with_reducible refine FrameOpt.mapFrame' (State.spillAlloc_frame (mask_sub rfl hm) ?_) ?_
    | with_reducible refine FrameOpt.some ?_
    | with_reducible refine FrameOpt.ite ?_ ?_

theorem State.spillCount_frame {m : Nat} {s0 s : State} {a2 a3 a4 a5 : _} (hm : 6 ||| m = m) (h : Frame m s0 s) : Frame m s0 (State.spillCount s a2 a3 a4 a5) := by
  unfold State.spillCount
  repeat' first
    | with_reducible assumption
    | ((try lift_lets -underBinder); intro x; clear_value (e : x = _); refine (fun hx : Frame m s0 x => ?_) (Frame.ofEq e ?_))
    | exact mask_sub rfl hm
    | with_reducible apply State.raiseOwn_frame
    | with_reducible apply State.count_frame
    | with_reducible apply Frame.ite

theorem State.partGrow_frame {m : Nat} {s0 s : State} {a2 a3 a4 a5 a6 : _} (hm : 526 ||| m = m) (h : Frame m s0 s) : FrameOpt m s0 Prod.fst (State.partGrow s a2 a3 a4 a5 a6) := by
  unfold State.partGrow
  repeat' first
    | with_reducible assumption
    | ((try lift_lets -underBinder); intro x; clear_value (e : x = _); skip)
    | exact mask_sub rfl hm
    | intro x
    | with_reducible apply State.takeBuild_frame
    | with_reducible apply State.giveBuild_frame
    | with_reducible apply State.creamBack_frame
    | with_reducible apply State.spillCount_frame
    | with_reducible refine FrameOpt.mapFrame (ρ := Prod.fst) (State.skimFor_frame (mask_sub rfl hm) ?_) ?_
    | with_reducible refine FrameOpt.mapFrame' (State.spillAlloc_frame (mask_sub rfl hm) ?_) ?_
    | with_reducible refine FrameOpt.some ?_
    | with_reducible refine FrameOpt.ite ?_ ?_

theorem State.placeRow_frame {m : Nat} {s0 s : State} {a2 a3 a4 a5 a6 a7 a8 : _} (hm : 2574 ||| m = m) (h : Frame m s0 s) : FrameOpt m s0 id (State.placeRow s a2 a3 a4 a5 a6 a7 a8) := by
  unfold State.placeRow
  repeat' first
    | with_reducible assumption
    | ((try lift_lets -underBinder); intro x; clear_value (e : x = _); skip)
    | exact mask_sub rfl hm
    | intro x
    | with_reducible apply State.count_frame
    | with_reducible apply State.setJoin_frame
    | with_reducible refine FrameOpt.mapFrame (ρ := Prod.fst) (State.partGrow_frame (mask_sub rfl hm) ?_) ?_
    | with_reducible refine Frame.ofId ?_

theorem State.placeRows_frame {m : Nat} {s0 s : State} {a2 a3 a4 a5 a6 a7 a8 : _} (hm : 2574 ||| m = m) (h : Frame m s0 s) : FrameOpt m s0 id (State.placeRows s a2 a3 a4 a5 a6 a7 a8) := by
  unfold State.placeRows
  repeat' first
    | with_reducible assumption
    | intro x
    | with_reducible apply State.placeRow_frame
    | with_reducible refine FrameOpt.bindFrame' (by assumption) ?_
    | with_reducible refine FrameOpt.foldl ?_ ?_
    | with_reducible refine FrameOpt.some' ?_

theorem State.handOn_frame {m : Nat} {s0 s : State} {a2 a3 : _} (hm : 2050 ||| m = m) (h : Frame m s0 s) : FrameGot m s0 id (State.handOn s a2 a3) := by
  unfold State.handOn
  repeat' first
    | with_reducible assumption
    | ((try lift_lets -underBinder); intro x; clear_value (e : x = _); skip)
    | exact mask_sub rfl hm
    | with_reducible apply State.appendOut_frame
    | with_reducible apply State.count_frame
    | with_reducible apply State.setJoin_frame
    | with_reducible refine FrameGot.ite ?_ ?_

theorem State.probeRows_frame {m : Nat} {s0 s : State} {a2 a3 : _} (hm : 2574 ||| m = m) (h : Frame m s0 s) : FrameRan m s0 (State.probeRows s a2 a3) := by
  unfold State.probeRows
  repeat' first
    | with_reducible assumption
    | ((try lift_lets -underBinder); intro x; clear_value (e : x = _); first | refine (fun hx : Frame m s0 x => ?_) (Frame.ofEq e ?_) | (have _f := fun a => x a; subst e) | skip)
    | exact mask_sub rfl hm
    | intro x
    | with_reducible apply State.spillAlloc_frame
    | with_reducible apply State.setFld_frame
    | with_reducible apply State.count_frame
    | with_reducible apply State.setJoin_frame
    | with_reducible refine FrameRan.withFrame' (State.handOn_frame (mask_sub rfl hm) ?_) ?_ ?_
    | with_reducible refine FrameOpt.some' ?_
    | with_reducible refine FrameOpt.ite ?_ ?_
    | with_reducible refine FrameRan.done ?_
    | with_reducible refine FrameRan.failed ?_
    | with_reducible refine FrameRan.ite ?_ ?_
    | split
    | with_reducible refine FrameOpt.get' (by assumption) ?_

theorem State.sendRows_frame {m : Nat} {s0 s : State} {a2 a3 a4 a5 a6 : _} (hm : 34822 ||| m = m) (h : Frame m s0 s) : Frame m s0 (State.sendRows s a2 a3 a4 a5 a6) := by
  unfold State.sendRows
  repeat' first
    | with_reducible assumption
    | ((try lift_lets -underBinder); intro x; clear_value (e : x = _); first | refine (fun hx : Frame m s0 x.1 => ?_) (Frame.ofEq1 e ?_) | (have _f := fun a => x a; subst e) | skip)
    | exact mask_sub rfl hm
    | with_reducible apply State.sendRun_frame
    | with_reducible apply State.count_frame
    | with_reducible apply State.setJoin_frame
    | with_reducible apply Frame.ite

theorem State.sendMarks_frame {m : Nat} {s0 s : State} {a2 a3 : _} (hm : 32774 ||| m = m) (h : Frame m s0 s) : Frame m s0 (State.sendMarks s a2 a3) := by
  unfold State.sendMarks
  repeat' first
    | with_reducible assumption
    | ((try lift_lets -underBinder); intro x; clear_value (e : x = _); skip)
    | intro x
    | with_reducible apply State.trySend_frame
    | with_reducible refine Frame.foldl ?_ ?_

theorem State.buildDone_frame {m : Nat} {s0 s : State} {a2 : _} (hm : 2048 ||| m = m) (h : Frame m s0 s) : Frame m s0 (State.buildDone s a2) := by
  unfold State.buildDone
  repeat' first
    | with_reducible assumption
    | ((try lift_lets -underBinder); intro x; clear_value (e : x = _); skip)
    | with_reducible apply State.setEng_frame
    | with_reducible apply Frame.ite

theorem State.leaveDrop_frame {m : Nat} {s0 s : State} {a2 a3 : _} (hm : 2114 ||| m = m) (h : Frame m s0 s) : Frame m s0 (State.leaveDrop s a2 a3) := by
  unfold State.leaveDrop
  repeat' first
    | with_reducible assumption
    | ((try lift_lets -underBinder); intro x; clear_value (e : x = _); skip)
    | with_reducible exact Kept.rfl
    | exact Kept.mask (mask_sub rfl hm)
    | with_reducible apply State.leaveSettle_frame
    | with_reducible refine Frame.lit rfl ?_ ?_ ?_ ?_ ?_ ?_ ?_ ?_ ?_ ?_ ?_ ?_ ?_ ?_ ?_ ?_ ?_ ?_ ?_ ?_ ?_ ?_ ?_ ?_ ?_ ?_ ?_ ?_

theorem runBuild_frame {m : Nat} {s0 s : State} {a2 a3 a4 : _} (hm : 35406 ||| m = m) (h : Frame m s0 s) : FrameRan m s0 (runBuild s a2 a3 a4) := by
  unfold runBuild
  repeat' first
    | with_reducible assumption
    | ((try lift_lets -underBinder); intro x; clear_value (e : x = _); first | refine (fun hx : Frame m s0 x => ?_) (Frame.ofEq e ?_) | (have _f := fun a => x a; subst e) | skip)
    | exact mask_sub rfl hm
    | intro x
    | with_reducible apply State.sendMarks_frame
    | with_reducible apply State.setEng_frame
    | with_reducible apply State.placeRows_frame
    | with_reducible apply State.leaveDrop_frame
    | with_reducible apply State.sendRows_frame
    | with_reducible apply State.buildDone_frame
    | with_reducible apply State.setJoin_frame
    | with_reducible refine Frame.foldl ?_ ?_
    | with_reducible refine FrameRan.done ?_
    | with_reducible refine FrameRan.failed ?_
    | split
    | with_reducible refine FrameOpt.get' (by assumption) ?_
    | with_reducible refine FrameRan.with ?_ ?_

theorem State.probeDone_frame {m : Nat} {s0 s : State} {a2 : _} (hm : 2048 ||| m = m) (h : Frame m s0 s) : Frame m s0 (State.probeDone s a2).1 := by
  unfold State.probeDone
  repeat' first
    | with_reducible assumption
    | ((try lift_lets -underBinder); intro x; clear_value (e : x = _); skip)
    | with_reducible apply State.setEng_frame
    | with_reducible apply State.setJoin_frame
    | split

theorem State.useAhead_frame {m : Nat} {s0 s : State} {a2 a3 a4 : _} (hm : 2562 ||| m = m) (h : Frame m s0 s) : Frame m s0 (State.useAhead s a2 a3 a4) := by
  unfold State.useAhead
  repeat' first
    | with_reducible assumption
    | ((try lift_lets -underBinder); intro x; clear_value (e : x = _); first | refine (fun hx : Frame m s0 x => ?_) (Frame.ofEq e ?_) | skip)
    | exact mask_sub rfl hm
    | with_reducible apply State.modTiers_frame
    | with_reducible apply State.count_frame
    | with_reducible apply State.setJoin_frame
    | with_reducible apply Frame.ite
    | split

theorem runProbe_frame {m : Nat} {s0 s : State} {a2 a3 a4 : _} (hm : 35342 ||| m = m) (h : Frame m s0 s) : FrameRan m s0 (runProbe s a2 a3 a4) := by
  unfold runProbe
  repeat' first
    | with_reducible assumption
    | ((try lift_lets -underBinder); intro x; clear_value (e : x = _); first | refine (fun hx : Frame m s0 x => ?_) (Frame.ofEq e ?_) | refine (fun hx : Frame m s0 x.1 => ?_) (Frame.ofEq1 e ?_) | (have _f := fun a => x a; subst e) | skip)
    | exact mask_sub rfl hm
    | intro x
    | with_reducible apply State.sendMarks_frame
    | with_reducible apply State.setEng_frame
    | with_reducible apply State.probeDone_frame
    | with_reducible apply State.useAhead_frame
    | with_reducible apply State.probeRows_frame
    | with_reducible apply State.sendRows_frame
    | with_reducible apply State.setJoin_frame
    | with_reducible refine Frame.foldl ?_ ?_
    | with_reducible refine FrameRan.done ?_
    | split
    | with_reducible refine FrameRan.getDone (by assumption) ?_
    | with_reducible refine FrameRan.with ?_ ?_

theorem runPress_frame {m : Nat} {s0 s : State} {a2 : _} (hm : 35406 ||| m = m) (h : Frame m s0 s) : FrameRan m s0 (runPress s a2) := by
  unfold runPress
  repeat' first
    | with_reducible assumption
    | ((try lift_lets -underBinder); intro x; clear_value (e : x = _); skip)
    | exact mask_sub rfl hm
    | with_reducible apply runProbe_frame
    | with_reducible apply runBuild_frame
    | with_reducible refine FrameRan.done ?_
    | with_reducible refine FrameRan.ite ?_ ?_
    | split

theorem State.stageEnd_frame {m : Nat} {s0 s : State} {a2 a3 : _} (hm : 2048 ||| m = m) (h : Frame m s0 s) : Frame m s0 (State.stageEnd s a2 a3) := by
  unfold State.stageEnd
  repeat' with_reducible first
    | assumption
    | apply State.updJob_frame
    | apply State.placeSlices_frame

theorem State.reloadPart_frame {m : Nat} {s0 s : State} {a2 a3 : _} (hm : 335552078 ||| m = m) (h : Frame m s0 s) : Frame m s0 (State.reloadPart s a2 a3) := by
  unfold State.reloadPart
  repeat' first
    | with_reducible assumption
    | ((try lift_lets -underBinder); intro x; clear_value (e : x = _); first | refine (fun hx : Frame m s0 x => ?_) (Frame.ofEq e ?_) | (have _f := fun a => x a; subst e) | skip)
    | exact mask_sub rfl hm
    | with_reducible apply State.failJob_frame
    | with_reducible apply State.raiseOwn_frame
    | with_reducible apply State.setFld_frame
    | with_reducible apply State.stageEnd_frame
    | with_reducible apply State.dropQueued_frame
    | with_reducible apply State.probeRows_frame
    | with_reducible apply State.setJoin_frame
    | with_reducible apply Frame.ite
    | split
    | with_reducible refine FrameRan.getDone (by assumption) ?_
    | with_reducible refine FrameRan.getFailed (by assumption) ?_

theorem State.probeAhead_frame {m : Nat} {s0 s : State} {a2 a3 a4 : _} (hm : 2562 ||| m = m) (h : Frame m s0 s) : Frame m s0 (State.probeAhead s a2 a3 a4) := by
  unfold State.probeAhead
  repeat' first
    | with_reducible assumption
    | ((try lift_lets -underBinder); intro x; clear_value (e : x = _); skip)
    | exact mask_sub rfl hm
    | with_reducible apply State.modTiers_frame
    | with_reducible apply State.count_frame
    | with_reducible apply State.setJoin_frame
    | with_reducible apply Frame.ite
    | split

theorem State.rowsArrive_frame {m : Nat} {s0 s : State} {a2 a3 a4 a5 a6 a7 a8 : _} (hm : 335552078 ||| m = m) (h : Frame m s0 s) : Frame m s0 (State.rowsArrive s a2 a3 a4 a5 a6 a7 a8) := by
  unfold State.rowsArrive
  repeat' first
    | with_reducible assumption
    | ((try lift_lets -underBinder); intro x; clear_value (e : x = _); first | refine (fun hx : Frame m s0 x => ?_) (Frame.ofEq e ?_) | (have _f := fun a => x a; subst e) | skip)
    | exact mask_sub rfl hm
    | with_reducible apply State.failJob_frame
    | with_reducible apply State.spillAlloc_frame
    | with_reducible apply State.placeRows_frame
    | with_reducible apply State.dropQueued_frame
    | with_reducible apply State.probeRows_frame
    | with_reducible apply State.count_frame
    | with_reducible apply State.setJoin_frame
    | with_reducible apply Frame.ite
    | split
    | with_reducible refine FrameOpt.get' (by assumption) ?_
    | with_reducible refine FrameRan.getDone (by assumption) ?_
    | with_reducible refine FrameRan.getFailed (by assumption) ?_

theorem State.markArrive_frame {m : Nat} {s0 s : State} {a2 a3 a4 a5 a6 : _} (hm : 335552070 ||| m = m) (h : Frame m s0 s) : Frame m s0 (State.markArrive s a2 a3 a4 a5 a6) := by
  unfold State.markArrive
  repeat' first
    | with_reducible assumption
    | ((try lift_lets -underBinder); intro x; clear_value (e : x = _); first | refine (fun hx : Frame m s0 x => ?_) (Frame.ofEq e ?_) | refine (fun hx : Frame m s0 x.1 => ?_) (Frame.ofEq1 e ?_) | skip)
    | exact mask_sub rfl hm
    | with_reducible apply State.failJob_frame
    | with_reducible apply State.probeDone_frame
    | with_reducible apply State.stageEnd_frame
    | with_reducible apply State.dropQueued_frame
    | with_reducible apply State.buildDone_frame
    | with_reducible apply State.setJoin_frame
    | with_reducible apply State.placeSlices_frame
    | with_reducible apply Frame.ite
    | split

/-! Machine/TideBase.lean. -/

theorem State.lagNotice_frame {m : Nat} {s0 s : State} (hm : 14 ||| m = m) (h : Frame m s0 s) : Frame m s0 (State.lagNotice s) := by
  unfold State.lagNotice
  repeat' with_reducible first
    | assumption
    | apply State.noticeEval_frame

theorem State.setSource_frame {m : Nat} {s0 s : State} {a2 a3 : _} (hm : 8192 ||| m = m) (h : Frame m s0 s) : Frame m s0 (State.setSource s a2 a3) := by
  unfold State.setSource
  repeat' with_reducible first
    | assumption
    | apply State.modTide_frame

theorem State.sourceWake_frame {m : Nat} {s0 s : State} {a2 : _} (hm : 6 ||| m = m) (h : Frame m s0 s) : Frame m s0 (State.sourceWake s a2) := by
  unfold State.sourceWake
  repeat' with_reducible first
    | assumption
    | apply State.raiseOwn_frame
    | apply Frame.ite

theorem State.sourceHears_frame {m : Nat} {s0 s : State} {a2 a3 a4 : _} (hm : 8206 ||| m = m) (h : Frame m s0 s) : Frame m s0 (State.sourceHears s a2 a3 a4) := by
  unfold State.sourceHears
  repeat' first
    | with_reducible assumption
    | ((try lift_lets -underBinder); intro x; clear_value (e : x = _); skip)
    | exact mask_sub rfl hm
    | with_reducible apply State.setSource_frame
    | with_reducible apply State.lagNotice_frame
    | with_reducible apply State.sourceWake_frame
    | split

theorem State.deliver_frame {m : Nat} {s0 s : State} {a2 a3 a4 a5 : _} (hm : 8206 ||| m = m) (h : Frame m s0 s) : Frame m s0 (State.deliver s a2 a3 a4 a5) := by
  unfold State.deliver
  repeat' first
    | with_reducible assumption
    | ((try lift_lets -underBinder); intro x; clear_value (e : x = _); skip)
    | intro x
    | with_reducible apply State.sourceHears_frame
    | with_reducible apply Frame.ite
    | with_reducible refine Frame.foldl ?_ ?_

/-! Machine/Ripener.lean. -/

theorem State.stateNotice_frame {m : Nat} {s0 s : State} (hm : 14 ||| m = m) (h : Frame m s0 s) : Frame m s0 (State.stateNotice s) := by
  unfold State.stateNotice
  repeat' with_reducible first
    | assumption
    | apply State.noticeEval_frame

theorem State.tierShift_frame {m : Nat} {s0 s : State} {a2 a3 a4 : _} (hm : 512 ||| m = m) (h : Frame m s0 s) : Frame m s0 (State.tierShift s a2 a3 a4) := by
  unfold State.tierShift
  repeat' with_reducible first
    | assumption
    | apply State.modTiers_frame

theorem State.setStore_frame {m : Nat} {s0 s : State} {a2 a3 : _} (hm : 33554958 ||| m = m) (h : Frame m s0 s) : Frame m s0 (State.setStore s a2 a3) := by
  unfold State.setStore
  repeat' first
    | with_reducible assumption
    | ((try lift_lets -underBinder); intro x; clear_value (e : x = _); skip)
    | exact mask_sub rfl hm
    | with_reducible exact Kept.rfl
    | exact Kept.mask (mask_sub rfl hm)
    | with_reducible apply State.stateNotice_frame
    | with_reducible apply State.tierShift_frame
    | with_reducible refine Frame.lit rfl ?_ ?_ ?_ ?_ ?_ ?_ ?_ ?_ ?_ ?_ ?_ ?_ ?_ ?_ ?_ ?_ ?_ ?_ ?_ ?_ ?_ ?_ ?_ ?_ ?_ ?_ ?_ ?_

theorem State.bindStores_frame {m : Nat} {s0 s : State} {a2 : _} (hm : 33554958 ||| m = m) (h : Frame m s0 s) : Frame m s0 (State.bindStores s a2) := by
  unfold State.bindStores
  repeat' first
    | with_reducible assumption
    | ((try lift_lets -underBinder); intro x; clear_value (e : x = _); skip)
    | intro x
    | with_reducible apply State.setStore_frame
    | with_reducible apply Frame.ite
    | with_reducible refine Frame.foldl ?_ ?_
    | split

theorem State.ripCount_frame {m : Nat} {s0 s : State} {a2 a3 a4 a5 : _} (hm : 6 ||| m = m) (h : Frame m s0 s) : Frame m s0 (State.ripCount s a2 a3 a4 a5) := by
  unfold State.ripCount
  repeat' first
    | with_reducible assumption
    | ((try lift_lets -underBinder); intro x; clear_value (e : x = _); refine (fun hx : Frame m s0 x => ?_) (Frame.ofEq e ?_))
    | exact mask_sub rfl hm
    | with_reducible apply State.raiseOwn_frame
    | with_reducible apply State.useOpen_frame
    | with_reducible apply State.count_frame
    | with_reducible apply Frame.ite

theorem runAgg_frame {m : Nat} {s0 s : State} {a2 : _} (hm : 2054 ||| m = m) (h : Frame m s0 s) : FrameRan m s0 (runAgg s a2) := by
  unfold runAgg
  repeat' first
    | with_reducible assumption
    | ((try lift_lets -underBinder); intro x; clear_value (e : x = _); first | refine (fun hx : Frame m s0 x => ?_) (Frame.ofEq e ?_) | skip)
    | exact mask_sub rfl hm
    | intro x
    | with_reducible apply State.updJob_frame
    | with_reducible apply State.setEng_frame
    | with_reducible apply State.ripCount_frame
    | with_reducible apply State.count_frame
    | with_reducible refine FrameRan.withFrame' (State.appendOuts_frame (mask_sub rfl hm) ?_) ?_ ?_
    | with_reducible refine FrameRan.done ?_
    | split
    | with_reducible refine FrameRan.with ?_ ?_

theorem runFeed_frame {m : Nat} {s0 s : State} {a2 : _} (hm : 2048 ||| m = m) (h : Frame m s0 s) : FrameRan m s0 (runFeed s a2) := by
  unfold runFeed
  repeat' first
    | with_reducible assumption
    | ((try lift_lets -underBinder); intro x; clear_value (e : x = _); skip)
    | intro x
    | with_reducible apply State.setEng_frame
    | with_reducible refine FrameRan.done ?_
    | split
    | with_reducible refine FrameRan.with ?_ ?_

theorem feedApply_frame {m : Nat} {s0 s : State} {a2 : _} (hm : 33557006 ||| m = m) (h : Frame m s0 s) : FrameRan m s0 (feedApply s a2) := by
  unfold feedApply
  repeat' first
    | with_reducible assumption
    | ((try lift_lets -underBinder); intro x; clear_value (e : x = _); first | refine (fun hx : Frame m s0 x => ?_) (Frame.ofEq e ?_) | skip)
    | exact mask_sub rfl hm
    | intro x
    | with_reducible apply State.raiseOwn_frame
    | with_reducible apply State.setEng_frame
    | with_reducible apply State.setStore_frame
    | with_reducible apply State.ripCount_frame
    | with_reducible refine FrameRan.withFrame' (State.appendOut_frame (mask_sub rfl hm) ?_) ?_ ?_
    | with_reducible refine FrameRan.done ?_
    | with_reducible refine FrameRan.failed ?_
    | with_reducible refine FrameRan.ite ?_ ?_
    | split

theorem runDrain_frame {m : Nat} {s0 s : State} {a2 : _} (hm : 2048 ||| m = m) (h : Frame m s0 s) : FrameRan m s0 (runDrain s a2) := by
  unfold runDrain
  repeat' first
    | with_reducible assumption
    | ((try lift_lets -underBinder); intro x; clear_value (e : x = _); skip)
    | intro x
    | with_reducible apply State.setEng_frame
    | with_reducible refine FrameRan.withFrame' (State.appendOut_frame (mask_sub rfl hm) ?_) ?_ ?_
    | with_reducible refine FrameRan.done ?_
    | with_reducible refine FrameRan.failed ?_
    | split

theorem State.drainCommit_frame {m : Nat} {s0 s : State} {a2 : _} (hm : 33554958 ||| m = m) (h : Frame m s0 s) : Frame m s0 (State.drainCommit s a2) := by
  unfold State.drainCommit
  repeat' first
    | with_reducible assumption
    | ((try lift_lets -underBinder); intro x; clear_value (e : x = _); skip)
    | intro x
    | with_reducible apply State.setStore_frame
    | with_reducible apply Frame.ite
    | with_reducible refine Frame.foldl ?_ ?_
    | split

theorem runReadStage_frame {m : Nat} {s0 s : State} {a2 : _} (hm : 2054 ||| m = m) (h : Frame m s0 s) : FrameRan m s0 (runReadStage s a2) := by
  unfold runReadStage
  repeat' first
    | with_reducible assumption
    | ((try lift_lets -underBinder); intro x; clear_value (e : x = _); first | refine (fun hx : Frame m s0 x => ?_) (Frame.ofEq e ?_) | skip)
    | exact mask_sub rfl hm
    | intro x
    | with_reducible apply State.raiseOwn_frame
    | with_reducible apply State.setEng_frame
    | with_reducible apply State.count_frame
    | with_reducible refine FrameRan.withFrame' (State.appendOut_frame (mask_sub rfl hm) ?_) ?_ ?_
    | with_reducible apply Frame.ite
    | with_reducible refine FrameRan.done ?_
    | with_reducible refine FrameRan.failed ?_
    | split
    | with_reducible refine FrameRan.with ?_ ?_

theorem runRipener_frame {m : Nat} {s0 s : State} {a2 : _} (hm : 2054 ||| m = m) (h : Frame m s0 s) : FrameRan m s0 (runRipener s a2) := by
  unfold runRipener
  repeat' first
    | with_reducible assumption
    | exact mask_sub rfl hm
    | with_reducible apply runDrain_frame
    | with_reducible apply runFeed_frame
    | with_reducible apply runAgg_frame
    | with_reducible apply runReadStage_frame
    | split

theorem State.ripenerTide_frame {m : Nat} {s0 s : State} {a2 a3 : _} (hm : 33557006 ||| m = m) (h : Frame m s0 s) : Frame m s0 (State.ripenerTide s a2 a3) := by
  unfold State.ripenerTide
  repeat' first
    | with_reducible assumption
    | ((try lift_lets -underBinder); intro x; clear_value (e : x = _); first | refine (fun hx : Frame m s0 x => ?_) (Frame.ofEq e ?_) | (have _f := fun a => x a; subst e) | skip)
    | exact mask_sub rfl hm
    | intro x
    | with_reducible apply State.raiseOwn_frame
    | with_reducible apply State.updJob_frame
    | with_reducible apply State.useOpen_frame
    | with_reducible apply State.setStore_frame
    | with_reducible apply State.count_frame
    | with_reducible apply Frame.ite
    | with_reducible refine Frame.foldl ?_ ?_

/-! Machine/Normaliser.lean. -/

theorem runNormaliser_frame {m : Nat} {s0 s : State} {a2 : _} (hm : 2050 ||| m = m) (h : Frame m s0 s) : FrameRan m s0 (runNormaliser s a2) := by
  unfold runNormaliser
  repeat' first
    | with_reducible assumption
    | ((try lift_lets -underBinder); intro x; clear_value (e : x = _); first | refine (fun hx : Frame m s0 x => ?_) (Frame.ofEq e ?_) | skip)
    | exact mask_sub rfl hm
    | intro x
    | with_reducible apply State.countSearches_frame
    | with_reducible apply State.setEng_frame
    | with_reducible apply State.count_frame
    | with_reducible refine FrameRan.withFrame' (State.appendOut_frame (mask_sub rfl hm) ?_) ?_ ?_
    | with_reducible apply Frame.ite
    | with_reducible refine FrameRan.done ?_
    | with_reducible refine FrameRan.failed ?_
    | with_reducible refine FrameRan.ite ?_ ?_
    | split
    | with_reducible refine FrameRan.with ?_ ?_

/-! Machine/Crate.lean. -/

theorem State.crateBatch_frame {m : Nat} {s0 s : State} {a2 a3 a4 a5 : _} (hm : 36622 ||| m = m) (h : Frame m s0 s) : FrameGot m s0 id (State.crateBatch s a2 a3 a4 a5) := by
  unfold State.crateBatch
  repeat' first
    | with_reducible assumption
    | ((try lift_lets -underBinder); intro x; clear_value (e : x = _); first | refine (fun hx : Frame m s0 x => ?_) (Frame.ofEq e ?_) | refine (fun hx : FrameGot m s0 id x => ?_) (FrameGot.ofEq e ?_) | skip)
    | exact mask_sub rfl hm
    | intro x
    | with_reducible apply State.updJob_frame
    | with_reducible apply State.appendBytes_frame
    | with_reducible apply State.jobWrites_frame
    | with_reducible apply State.countHost_frame
    | with_reducible apply State.count_frame
    | with_reducible refine FrameGot.bindFrame' (by assumption) ?_
    | with_reducible apply Frame.ite
    | with_reducible refine FrameGot.ok' ?_
    | with_reducible exact FrameGot.fail
    | with_reducible refine FrameGot.ite ?_ ?_

theorem State.crateBatches_frame {m : Nat} {s0 s : State} {c job last n k rows} (hm : 36622 ||| m = m) (h : Frame m s0 s) : FrameGot m s0 Prod.fst (State.crateBatches s c job last n k rows) := by
  induction n generalizing s k rows with
  | zero =>
    unfold State.crateBatches
    exact FrameGot.ok h
  | succ n ih =>
    unfold State.crateBatches
    lift_lets
    intro b
    split
    · exact FrameGot.bindFrame (ρ := id) (State.crateBatch_frame (mask_sub rfl hm) h) fun a ha => ih ha
    · exact FrameGot.ok h

theorem runCrate_frame {m : Nat} {s0 s : State} {a2 : _} (hm : 102158 ||| m = m) (h : Frame m s0 s) : FrameRan m s0 (runCrate s a2) := by
  unfold runCrate
  repeat' first
    | with_reducible assumption
    | ((try lift_lets -underBinder); intro x; clear_value (e : x = _); skip)
    | exact mask_sub rfl hm
    | intro x
    | with_reducible apply State.setEng_frame
    | with_reducible apply State.readyWords_frame
    | with_reducible refine FrameRan.withFrame (π := Prod.fst) (State.crateBatches_frame (mask_sub rfl hm) ?_) ?_ ?_
    | with_reducible refine FrameRan.done ?_
    | split
    | with_reducible refine FrameRan.with ?_ ?_

/-! Machine/Churn.lean. -/

theorem State.churnError_frame {m : Nat} {s0 s : State} {a2 a3 : _} (hm : 6 ||| m = m) (h : Frame m s0 s) : Frame m s0 (State.churnError s a2 a3) := by
  unfold State.churnError
  repeat' first
    | with_reducible assumption
    | exact mask_sub rfl hm
    | with_reducible apply State.raiseOwn_frame
    | with_reducible apply State.count_frame
    | split

theorem State.churnEnd_frame {m : Nat} {s0 s : State} {a2 a3 a4 : _} (hm : 2054 ||| m = m) (h : Frame m s0 s) : FrameRan m s0 (State.churnEnd s a2 a3 a4) := by
  unfold State.churnEnd
  repeat' first
    | with_reducible assumption
    | ((try lift_lets -underBinder); intro x; clear_value (e : x = _); first | refine (fun hx : Frame m s0 x => ?_) (Frame.ofEq e ?_) | (have _f := fun a => x a; subst e) | skip)
    | exact mask_sub rfl hm
    | intro x
    | with_reducible apply State.churnError_frame
    | with_reducible apply State.appendBytes_frame
    | with_reducible apply State.count_frame
    | with_reducible refine FrameRan.withFrame' (State.appendOut_frame (mask_sub rfl hm) ?_) ?_ ?_
    | with_reducible apply Frame.ite
    | with_reducible refine FrameRan.done ?_
    | with_reducible refine FrameRan.failed ?_
    | with_reducible refine FrameRan.ite ?_ ?_

theorem runChurn_frame {m : Nat} {s0 s : State} {a2 : _} (hm : 2054 ||| m = m) (h : Frame m s0 s) : FrameRan m s0 (runChurn s a2) := by
  unfold runChurn
  repeat' first
    | with_reducible assumption
    | ((try lift_lets -underBinder); intro x; clear_value (e : x = _); first | (have _f := fun a => x a; subst e) | skip)
    | exact mask_sub rfl hm
    | intro x
    | with_reducible apply State.setEng_frame
    | with_reducible apply State.churnEnd_frame
    | with_reducible refine FrameRan.done ?_
    | with_reducible refine FrameRan.ite ?_ ?_
    | split
    | with_reducible refine FrameRan.with ?_ ?_

theorem State.setDicts_frame {m : Nat} {s0 s : State} {a2 : _} (hm : 524800 ||| m = m) (h : Frame m s0 s) : Frame m s0 (State.setDicts s a2) := by
  unfold State.setDicts
  repeat' first
    | with_reducible assumption
    | ((try lift_lets -underBinder); intro x; clear_value (e : x = _); first | refine (fun hx : Frame m s0 x => ?_) (Frame.ofEq e ?_) | skip)
    | exact mask_sub rfl hm
    | with_reducible exact Kept.rfl
    | exact Kept.mask (mask_sub rfl hm)
    | with_reducible apply State.modTiers_frame
    | with_reducible refine Frame.lit rfl ?_ ?_ ?_ ?_ ?_ ?_ ?_ ?_ ?_ ?_ ?_ ?_ ?_ ?_ ?_ ?_ ?_ ?_ ?_ ?_ ?_ ?_ ?_ ?_ ?_ ?_ ?_ ?_

theorem State.dictDone_frame {m : Nat} {s0 s : State} {a2 a3 : _} (hm : 2 ||| m = m) (h : Frame m s0 s) : Frame m s0 (State.dictDone s a2 a3) := by
  unfold State.dictDone
  repeat' first
    | with_reducible assumption
    | ((try lift_lets -underBinder); intro x; clear_value (e : x = _); skip)
    | with_reducible apply State.setFld_frame

theorem State.dictRegister_frame {m : Nat} {s0 s : State} (hm : 524802 ||| m = m) (h : Frame m s0 s) : Frame m s0 (State.dictRegister s) := by
  unfold State.dictRegister
  repeat' first
    | with_reducible assumption
    | ((try lift_lets -underBinder); intro x; clear_value (e : x = _); skip)
    | exact mask_sub rfl hm
    | with_reducible apply State.dictDone_frame
    | with_reducible apply State.setDicts_frame
    | with_reducible apply Frame.ite

theorem State.dictSettle_frame {m : Nat} {s0 s : State} (hm : 524802 ||| m = m) (h : Frame m s0 s) : Frame m s0 (State.dictSettle s) := by
  unfold State.dictSettle
  repeat' first
    | with_reducible assumption
    | ((try lift_lets -underBinder); intro x; clear_value (e : x = _); first | refine (fun hx : Frame m s0 x => ?_) (Frame.ofEq e ?_) | skip)
    | exact mask_sub rfl hm
    | with_reducible exact Kept.rfl
    | exact Kept.mask (mask_sub rfl hm)
    | with_reducible apply State.dictDone_frame
    | with_reducible apply State.setDicts_frame
    | with_reducible apply Frame.ite
    | split
    | with_reducible refine Frame.lit rfl ?_ ?_ ?_ ?_ ?_ ?_ ?_ ?_ ?_ ?_ ?_ ?_ ?_ ?_ ?_ ?_ ?_ ?_ ?_ ?_ ?_ ?_ ?_ ?_ ?_ ?_ ?_ ?_

theorem State.dictUnregister_frame {m : Nat} {s0 s : State} (hm : 524290 ||| m = m) (h : Frame m s0 s) : Frame m s0 (State.dictUnregister s) := by
  unfold State.dictUnregister
  repeat' first
    | with_reducible assumption
    | ((try lift_lets -underBinder); intro x; clear_value (e : x = _); first | refine (fun hx : Frame m s0 x => ?_) (Frame.ofEq e ?_) | skip)
    | exact mask_sub rfl hm
    | with_reducible exact Kept.rfl
    | exact Kept.mask (mask_sub rfl hm)
    | with_reducible apply State.setFld_frame
    | with_reducible apply State.dictDone_frame
    | with_reducible apply Frame.ite
    | with_reducible refine Frame.lit rfl ?_ ?_ ?_ ?_ ?_ ?_ ?_ ?_ ?_ ?_ ?_ ?_ ?_ ?_ ?_ ?_ ?_ ?_ ?_ ?_ ?_ ?_ ?_ ?_ ?_ ?_ ?_ ?_

theorem State.dictRead_frame {m : Nat} {s0 s : State} (hm : 2 ||| m = m) (h : Frame m s0 s) : Frame m s0 (State.dictRead s) := by
  unfold State.dictRead
  repeat' first
    | with_reducible assumption
    | ((try lift_lets -underBinder); intro x; clear_value (e : x = _); skip)
    | with_reducible apply State.dictDone_frame

/-! Machine/Dlog.lean. -/

theorem State.dlogNotice_frame {m : Nat} {s0 s : State} (hm : 14 ||| m = m) (h : Frame m s0 s) : Frame m s0 (State.dlogNotice s) := by
  unfold State.dlogNotice
  repeat' with_reducible first
    | assumption
    | apply State.noticeEval_frame

theorem State.dlogDrop_frame {m : Nat} {s0 s : State} (hm : 2 ||| m = m) (h : Frame m s0 s) : Frame m s0 (State.dlogDrop s) := by
  unfold State.dlogDrop
  repeat' with_reducible first
    | assumption
    | apply State.count_frame

theorem State.dlogWrite_frame {m : Nat} {s0 s : State} {a2 : _} (hm : 263950 ||| m = m) (h : Frame m s0 s) : Frame m s0 (State.dlogWrite s a2) := by
  unfold State.dlogWrite
  repeat' first
    | with_reducible assumption
    | ((try lift_lets -underBinder); intro x; clear_value (e : x = _); first | refine (fun hx : Frame m s0 x => ?_) (Frame.ofEq e ?_) | skip)
    | exact mask_sub rfl hm
    | with_reducible exact Kept.rfl
    | exact Kept.mask (mask_sub rfl hm)
    | with_reducible apply State.dlogNotice_frame
    | with_reducible apply State.raiseOwn_frame
    | with_reducible apply State.dlogDrop_frame
    | with_reducible apply State.writeOut_frame
    | with_reducible apply State.irqEvent_frame
    | with_reducible apply Frame.ite
    | split
    | with_reducible refine Frame.lit rfl ?_ ?_ ?_ ?_ ?_ ?_ ?_ ?_ ?_ ?_ ?_ ?_ ?_ ?_ ?_ ?_ ?_ ?_ ?_ ?_ ?_ ?_ ?_ ?_ ?_ ?_ ?_ ?_

theorem State.dlogEnable_frame {m : Nat} {s0 s : State} {a2 : _} (hm : 262158 ||| m = m) (h : Frame m s0 s) : Frame m s0 (State.dlogEnable s a2) := by
  unfold State.dlogEnable
  repeat' first
    | with_reducible assumption
    | ((try lift_lets -underBinder); intro x; clear_value (e : x = _); skip)
    | exact mask_sub rfl hm
    | with_reducible exact Kept.rfl
    | exact Kept.mask (mask_sub rfl hm)
    | with_reducible apply State.dlogNotice_frame
    | with_reducible apply State.raiseOwn_frame
    | with_reducible apply State.setFld_frame
    | with_reducible apply Frame.ite
    | with_reducible refine Frame.lit rfl ?_ ?_ ?_ ?_ ?_ ?_ ?_ ?_ ?_ ?_ ?_ ?_ ?_ ?_ ?_ ?_ ?_ ?_ ?_ ?_ ?_ ?_ ?_ ?_ ?_ ?_ ?_ ?_

theorem State.dlogHead_frame {m : Nat} {s0 s : State} {a2 a3 : _} (hm : 14 ||| m = m) (h : Frame m s0 s) : Frame m s0 (State.dlogHead s a2 a3) := by
  unfold State.dlogHead
  repeat' first
    | with_reducible assumption
    | ((try lift_lets -underBinder); intro x; clear_value (e : x = _); skip)
    | exact mask_sub rfl hm
    | with_reducible apply State.dlogNotice_frame
    | with_reducible apply State.setFld_frame
    | with_reducible apply State.raiseBy_frame
    | with_reducible apply Frame.ite

/-! Machine/Intake.lean. -/

theorem State.intakeHurt_frame {m : Nat} {s0 s : State} {a2 a3 : _} (hm : 265998 ||| m = m) (h : Frame m s0 s) : Frame m s0 (State.intakeHurt s a2 a3) := by
  unfold State.intakeHurt
  repeat' first
    | with_reducible assumption
    | ((try lift_lets -underBinder); intro x; clear_value (e : x = _); refine (fun hx : Frame m s0 x => ?_) (Frame.ofEq e ?_))
    | exact mask_sub rfl hm
    | intro x
    | with_reducible apply State.raiseOwn_frame
    | with_reducible apply State.dlogWrite_frame
    | with_reducible apply State.updJob_frame
    | with_reducible apply State.count_frame
    | with_reducible apply Frame.ite
    | with_reducible refine Frame.foldl ?_ ?_

theorem State.intakeDone_frame {m : Nat} {s0 s : State} {a2 a3 a4 a5 a6 a7 a8 : _} (hm : 265998 ||| m = m) (h : Frame m s0 s) : FrameRan m s0 (State.intakeDone s a2 a3 a4 a5 a6 a7 a8) := by
  unfold State.intakeDone
  repeat' first
    | with_reducible assumption
    | ((try lift_lets -underBinder); intro x; clear_value (e : x = _); first | refine (fun hx : Frame m s0 x => ?_) (Frame.ofEq e ?_) | skip)
    | exact mask_sub rfl hm
    | intro x
    | with_reducible apply State.intakeHurt_frame
    | with_reducible apply State.setEng_frame
    | with_reducible apply State.count_frame
    | with_reducible refine FrameRan.withFrame' (State.appendOuts_frame (mask_sub rfl hm) ?_) ?_ ?_
    | with_reducible refine FrameRan.done ?_
    | with_reducible refine FrameRan.failed ?_
    | with_reducible refine FrameRan.ite ?_ ?_

theorem State.textSlice_frame {m : Nat} {s0 s : State} {c job e k ws} (hm : 265998 ||| m = m) (h : Frame m s0 s) : FrameRan m s0 (State.textSlice s c job e k ws) := by
  induction ws with
  | nil =>
    unfold State.textSlice
    exact FrameRan.done h
  | cons w ws ih =>
    unfold State.textSlice
    repeat' first
      | with_reducible assumption
      | ((try lift_lets -underBinder); intro x; clear_value (e : x = _); first | (have _f := fun a => x a; subst e) | skip)
      | intro x
      | with_reducible apply State.intakeDone_frame
      | with_reducible refine FrameRan.ite ?_ ?_
      | split
      | with_reducible refine FrameRan.with ?_ ?_

theorem State.fileSlice_frame {m : Nat} {s0 s : State} {a2 a3 a4 a5 : _} (hm : 265998 ||| m = m) (h : Frame m s0 s) : FrameRan m s0 (State.fileSlice s a2 a3 a4 a5) := by
  unfold State.fileSlice
  repeat' first
    | with_reducible assumption
    | ((try lift_lets -underBinder); intro x; clear_value (e : x = _); first | (have _f := fun a => x a; subst e) | skip)
    | intro x
    | with_reducible apply State.intakeDone_frame
    | split
    | with_reducible refine FrameRan.with ?_ ?_

theorem runIntake_frame {m : Nat} {s0 s : State} {a2 : _} (hm : 265998 ||| m = m) (h : Frame m s0 s) : FrameRan m s0 (runIntake s a2) := by
  unfold runIntake
  repeat' first
    | with_reducible assumption
    | ((try lift_lets -underBinder); intro x; clear_value (e : x = _); skip)
    | with_reducible apply State.textSlice_frame
    | with_reducible apply State.fileSlice_frame
    | with_reducible refine FrameRan.done ?_
    | with_reducible refine FrameRan.ite ?_ ?_
    | split

theorem State.surveyAll_frame {m : Nat} {s0 s : State} {a2 a3 : _} (hm : 265998 ||| m = m) (h : Frame m s0 s) : FrameRan m s0 (State.surveyAll s a2 a3) := by
  unfold State.surveyAll
  repeat' first
    | with_reducible assumption
    | ((try lift_lets -underBinder); intro x; clear_value (e : x = _); first | refine (fun hx : Frame m s0 x => ?_) (Frame.ofEq e ?_) | skip)
    | exact mask_sub rfl hm
    | intro x
    | with_reducible apply State.dlogWrite_frame
    | with_reducible apply State.setEng_frame
    | with_reducible refine FrameRan.done ?_
    | with_reducible refine FrameRan.failed ?_
    | split
    | with_reducible refine FrameRan.with ?_ ?_

/-! Machine/LadleOps.lean. -/

theorem State.updTable_frame {m : Nat} {s0 s : State} {a2 a3 : _} (hm : 1048576 ||| m = m) (h : Frame m s0 s) : Frame m s0 (State.updTable s a2 a3) := by
  unfold State.updTable
  repeat' with_reducible first
    | assumption
    | apply State.modLadle_frame

theorem State.access_frame {m : Nat} {s0 s : State} {a2 a3 a4 : _} (hm : 1048576 ||| m = m) (h : Frame m s0 s) : Frame m s0 (State.access s a2 a3 a4) := by
  unfold State.access
  repeat' with_reducible first
    | assumption
    | apply State.updTable_frame
    | apply State.modLadle_frame

theorem State.putRows_frame {m : Nat} {s0 s : State} {a2 a3 : _} (hm : 1049088 ||| m = m) (h : Frame m s0 s) : FrameOpt m s0 id (State.putRows s a2 a3) := by
  unfold State.putRows
  repeat' first
    | with_reducible assumption
    | ((try lift_lets -underBinder); intro x; clear_value (e : x = _); skip)
    | exact mask_sub rfl hm
    | with_reducible apply State.updTable_frame
    | with_reducible apply State.modTiers_frame
    | with_reducible exact FrameOpt.none
    | with_reducible refine FrameOpt.some' ?_
    | with_reducible refine FrameOpt.ite ?_ ?_
    | split

theorem State.dropRows_frame {m : Nat} {s0 s : State} {a2 a3 : _} (hm : 1049088 ||| m = m) (h : Frame m s0 s) : Frame m s0 (State.dropRows s a2 a3) := by
  unfold State.dropRows
  repeat' first
    | with_reducible assumption
    | ((try lift_lets -underBinder); intro x; clear_value (e : x = _); skip)
    | exact mask_sub rfl hm
    | with_reducible apply State.updTable_frame
    | with_reducible apply State.modTiers_frame
    | split

theorem State.defaultRows_frame {m : Nat} {s0 s : State} {a2 : _} (hm : 1030 ||| m = m) (h : Frame m s0 s) : Frame m s0 (State.defaultRows s a2) := by
  unfold State.defaultRows
  repeat' first
    | with_reducible assumption
    | ((try lift_lets -underBinder); intro x; clear_value (e : x = _); refine (fun hx : Frame m s0 x => ?_) (Frame.ofEq e ?_))
    | exact mask_sub rfl hm
    | with_reducible apply State.modSession_frame
    | with_reducible apply State.raiseOwn_frame
    | with_reducible apply State.setFld_frame
    | with_reducible apply State.count_frame
    | with_reducible apply Frame.ite

theorem State.setLog_frame {m : Nat} {s0 s : State} {a2 : _} (hm : 1049102 ||| m = m) (h : Frame m s0 s) : FrameOpt m s0 id (State.setLog s a2) := by
  unfold State.setLog
  repeat' first
    | with_reducible assumption
    | ((try lift_lets -underBinder); intro x; clear_value (e : x = _); first | refine (fun hx : Frame m s0 x => ?_) (Frame.ofEq e ?_) | skip)
    | exact mask_sub rfl hm
    | with_reducible apply State.modTiers_frame
    | with_reducible apply State.spillAlloc_frame
    | with_reducible apply State.spillNotices_frame
    | with_reducible apply State.modLadle_frame
    | with_reducible refine FrameOpt.some' ?_
    | with_reducible refine FrameOpt.ite ?_ ?_

theorem State.genStep_frame {m : Nat} {s0 s : State} {a2 : _} (hm : 1048576 ||| m = m) (h : Frame m s0 s) : Frame m s0 (State.genStep s a2) := by
  unfold State.genStep
  repeat' first
    | with_reducible assumption
    | intro x
    | with_reducible apply State.updTable_frame
    | with_reducible refine Frame.foldl ?_ ?_

theorem State.applyRow_frame {m : Nat} {s0 : State} {a : StepDone} {step combine t row es far} (hm : 1050370 ||| m = m) (h : Frame m s0 a.s) :
    Frame m s0 (State.applyRow a step combine t row es far).s := by
  unfold State.applyRow
  repeat' first
    | with_reducible assumption
    | ((try lift_lets -underBinder); intro x; clear_value (e : x = _); first | refine (fun hx : Frame m s0 x => ?_) (Frame.ofEq e ?_) | skip)
    | exact mask_sub rfl hm
    | with_reducible apply State.putRows_frame
    | with_reducible apply State.count_frame
    | with_reducible apply State.writeOut_frame
    | with_reducible apply State.emit_frame
    | with_reducible apply State.modTiers_frame
    | split
    | with_reducible refine FrameOpt.get' (by assumption) ?_

theorem State.applyEntries_frame {m : Nat} {s0 s : State} {step combine es far} (hm : 1050370 ||| m = m) (h : Frame m s0 s) :
    Frame m s0 (State.applyEntries s step combine es far).s := by
  refine State.genStep_frame (mask_sub rfl hm) ?_
  refine Frame.foldlOn (fun (a : StepDone × List Sys2Proof.Bytes) => a.1.s) ?_ h
  intro p x hp
  dsimp only
  split
  · exact hp
  · exact State.applyRow_frame hm hp

/-! Machine/Arrive.lean. -/

theorem State.reply_frame {m : Nat} {s0 s : State} {a2 a3 a4 a5 a6 : _} (hm : 32770 ||| m = m) (h : Frame m s0 s) : Frame m s0 (State.reply s a2 a3 a4 a5 a6) := by
  unfold State.reply
  repeat' with_reducible first
    | assumption
    | apply State.answer_frame

theorem State.marked_frame {m : Nat} {s0 s : State} {a2 a3 : _} (hm : 4227072 ||| m = m) (h : Frame m s0 s) : Frame m s0 (State.marked s a2 a3) := by
  unfold State.marked
  repeat' with_reducible first
    | assumption
    | apply State.markSeq_frame

theorem State.replyHeld_frame {m : Nat} {s0 s : State} {a2 a3 a4 a5 : _} (hm : 4292610 ||| m = m) (h : Frame m s0 s) : Frame m s0 (State.replyHeld s a2 a3 a4 a5) := by
  unfold State.replyHeld
  repeat' first
    | with_reducible assumption
    | ((try lift_lets -underBinder); intro x; clear_value (e : x = _); skip)
    | exact mask_sub rfl hm
    | with_reducible apply State.reply_frame
    | with_reducible apply State.marked_frame
    | with_reducible apply State.modTwin_frame
    | with_reducible apply Frame.ite

theorem State.ackHeld_frame {m : Nat} {s0 s : State} {a2 a3 : _} (hm : 4292610 ||| m = m) (h : Frame m s0 s) : Frame m s0 (State.ackHeld s a2 a3).1 := by
  unfold State.ackHeld
  repeat' with_reducible first
    | assumption
    | apply State.replyHeld_frame

theorem State.regen_frame {m : Nat} {s0 s : State} {a2 : _} (hm : 1147904 ||| m = m) (h : Frame m s0 s) : Frame m s0 (State.regen s a2) := by
  unfold State.regen
  repeat' first
    | with_reducible assumption
    | ((try lift_lets -underBinder); intro x; clear_value (e : x = _); first | refine (fun hx : Frame m s0 x => ?_) (Frame.ofEq e ?_) | (have _f := fun a => x a; subst e))
    | exact mask_sub rfl hm
    | with_reducible apply State.modFabric_frame
    | with_reducible apply State.modLadle_frame
    | with_reducible apply State.modTwin_frame
    | with_reducible apply State.modHost_frame
    | exact Eq.refl _

theorem State.onRequest_frame {m : Nat} {s0 s : State} {p f} (hf : ∀ s, Frame m s0 s → Frame m s0 (f s).1) (hm : 5342210 ||| m = m) (h : Frame m s0 s) : Frame m s0 (s.onRequest p f) := by
  unfold State.onRequest
  repeat' first
    | with_reducible assumption
    | ((try lift_lets -underBinder); intro x; clear_value (e : x = _); first | refine (fun hx : Frame m s0 x => ?_) (Frame.ofEq e ?_) | refine (fun hx : Frame m s0 x.1 => ?_) (Frame.ofEq1 e ?_))
    | exact mask_sub rfl hm
    | with_reducible apply hf
    | with_reducible apply State.markSeq_frame
    | with_reducible apply State.answer_frame
    | with_reducible apply State.regen_frame
    | with_reducible apply State.count_frame
    | with_reducible apply Frame.ite
    | split

/-! Machine/Ladle.lean. -/

theorem State.giveRunahead_frame {m : Nat} {s0 s : State} {a2 a3 : _} (hm : 512 ||| m = m) (h : Frame m s0 s) : Frame m s0 (State.giveRunahead s a2 a3) := by
  unfold State.giveRunahead
  repeat' with_reducible first
    | assumption
    | apply State.modTiers_frame

theorem State.usePrefetch_frame {m : Nat} {s0 s : State} {a2 a3 a4 a5 : _} (hm : 1049090 ||| m = m) (h : Frame m s0 s) : Frame m s0 (State.usePrefetch s a2 a3 a4 a5) := by
  unfold State.usePrefetch
  repeat' first
    | with_reducible assumption
    | ((try lift_lets -underBinder); intro x; clear_value (e : x = _); refine (fun hx : Frame m s0 x => ?_) (Frame.ofEq e ?_))
    | exact mask_sub rfl hm
    | with_reducible apply State.giveRunahead_frame
    | with_reducible apply State.modLadle_frame
    | with_reducible apply State.count_frame
    | with_reducible apply Frame.ite
    | split

theorem State.readCounts_frame {m : Nat} {s0 s : State} {a2 a3 a4 : _} (hm : 1049606 ||| m = m) (h : Frame m s0 s) : Frame m s0 (State.readCounts s a2 a3 a4) := by
  unfold State.readCounts
  repeat' first
    | with_reducible assumption
    | ((try lift_lets -underBinder); intro x; clear_value (e : x = _); refine (fun hx : Frame m s0 x => ?_) (Frame.ofEq e ?_))
    | exact mask_sub rfl hm
    | intro x
    | with_reducible apply State.defaultRows_frame
    | with_reducible apply State.access_frame
    | with_reducible apply Frame.ite
    | with_reducible refine Frame.foldl ?_ ?_

theorem runGather_frame {m : Nat} {s0 s : State} {a2 : _} (hm : 1052166 ||| m = m) (h : Frame m s0 s) : FrameRan m s0 (runGather s a2) := by
  unfold runGather
  repeat' first
    | with_reducible assumption
    | ((try lift_lets -underBinder); intro x; clear_value (e : x = _); first | refine (fun hx : Frame m s0 x => ?_) (Frame.ofEq e ?_) | (have _f := fun a => x a; subst e) | skip)
    | exact mask_sub rfl hm
    | intro x
    | with_reducible apply State.updJob_frame
    | with_reducible apply State.setEng_frame
    | with_reducible apply State.usePrefetch_frame
    | with_reducible apply State.count_frame
    | with_reducible apply State.readCounts_frame
    | with_reducible refine FrameRan.withFrame' (State.appendOuts_frame (mask_sub rfl hm) ?_) ?_ ?_
    | with_reducible apply Frame.ite
    | with_reducible refine FrameRan.done ?_
    | with_reducible refine FrameRan.failed ?_
    | with_reducible refine FrameRan.ite ?_ ?_
    | split
    | with_reducible refine FrameRan.with ?_ ?_

theorem State.logUpdates_frame {m : Nat} {s0 s : State} {a2 : _} (hm : 1049102 ||| m = m) (h : Frame m s0 s) : FrameOpt m s0 id (State.logUpdates s a2) := by
  unfold State.logUpdates
  repeat' first
    | with_reducible assumption
    | exact mask_sub rfl hm
    | intro x
    | with_reducible apply State.access_frame
    | with_reducible refine FrameOpt.mapFrame' (State.setLog_frame (mask_sub rfl hm) ?_) ?_
    | with_reducible refine Frame.ofId ?_
    | with_reducible refine Frame.foldl ?_ ?_

theorem State.setStep_frame {m : Nat} {s0 s : State} {a2 a3 : _} (hm : 1048576 ||| m = m) (h : Frame m s0 s) : Frame m s0 (State.setStep s a2 a3) := by
  unfold State.setStep
  repeat' with_reducible first
    | assumption
    | apply State.modLadle_frame

theorem State.stepDoneHere_frame {m : Nat} {s0 s : State} {a2 a3 a4 : _} (hm : 335552070 ||| m = m) (h : Frame m s0 s) : Frame m s0 (State.stepDoneHere s a2 a3 a4) := by
  unfold State.stepDoneHere
  repeat' first
    | with_reducible assumption
    | ((try lift_lets -underBinder); intro x; clear_value (e : x = _); skip)
    | exact mask_sub rfl hm
    | with_reducible apply State.failJob_frame
    | with_reducible apply State.stageEnd_frame
    | with_reducible apply State.dropQueued_frame
    | with_reducible apply Frame.ite
    | split

theorem State.stepOver_frame {m : Nat} {s0 s : State} {a2 a3 a4 : _} (hm : 336633414 ||| m = m) (h : Frame m s0 s) : Frame m s0 (State.stepOver s a2 a3 a4) := by
  unfold State.stepOver
  repeat' first
    | with_reducible assumption
    | ((try lift_lets -underBinder); intro x; clear_value (e : x = _); first | refine (fun hx : Frame m s0 x => ?_) (Frame.ofEq e ?_) | skip)
    | exact mask_sub rfl hm
    | intro x
    | with_reducible apply State.stepDoneHere_frame
    | with_reducible apply State.modLadle_frame
    | with_reducible apply State.trySend_frame
    | with_reducible refine Frame.foldl ?_ ?_

theorem State.stepId_frame {m : Nat} {s0 s : State} {a2 : _} (hm : 1050624 ||| m = m) (h : Frame m s0 s) : Frame m s0 (State.stepId s a2).2 := by
  unfold State.stepId
  repeat' first
    | with_reducible assumption
    | ((try lift_lets -underBinder); intro x; clear_value (e : x = _); first | refine (fun hx : Frame m s0 x.2 => ?_) (Frame.ofEq2 e ?_) | (have _f := fun a => x a; subst e) | skip)
    | exact mask_sub rfl hm
    | with_reducible apply State.setEng_frame
    | with_reducible apply State.modLadle_frame
    | with_reducible apply State.openNat_frame
    | split

theorem State.appliedHere_frame {m : Nat} {s0 s : State} {a2 a3 a4 : _} (hm : 336633414 ||| m = m) (h : Frame m s0 s) : Frame m s0 (State.appliedHere s a2 a3 a4) := by
  unfold State.appliedHere
  repeat' first
    | with_reducible assumption
    | ((try lift_lets -underBinder); intro x; clear_value (e : x = _); first | refine (fun hx : Frame m s0 x => ?_) (Frame.ofEq e ?_) | refine (fun hx : Frame m s0 x.2 => ?_) (Frame.ofEq2 e ?_) | skip)
    | exact mask_sub rfl hm
    | with_reducible apply State.stepOver_frame
    | with_reducible apply State.stepId_frame
    | with_reducible apply State.setStep_frame
    | with_reducible apply Frame.ite
    | split

theorem State.answerClose_frame {m : Nat} {s0 s : State} {a2 : _} (hm : 340893254 ||| m = m) (h : Frame m s0 s) : Frame m s0 (State.answerClose s a2) := by
  unfold State.answerClose
  repeat' first
    | with_reducible assumption
    | ((try lift_lets -underBinder); intro x; clear_value (e : x = _); refine (fun hx : Frame m s0 x => ?_) (Frame.ofEq e ?_))
    | exact mask_sub rfl hm
    | with_reducible apply State.appliedHere_frame
    | with_reducible apply State.replyHeld_frame
    | with_reducible apply State.modLadle_frame
    | with_reducible apply Frame.ite

theorem State.closeReady_frame {m : Nat} {s0 s : State} {a2 a3 : _} (hm : 340893254 ||| m = m) (h : Frame m s0 s) : Frame m s0 (State.closeReady s a2 a3) := by
  unfold State.closeReady
  repeat' first
    | with_reducible assumption
    | exact mask_sub rfl hm
    | with_reducible apply State.answerClose_frame
    | with_reducible apply State.modLadle_frame
    | with_reducible apply Frame.ite
    | split

theorem State.sendCopy_frame {m : Nat} {s0 s : State} {a2 a3 a4 a5 : _} (hm : 32774 ||| m = m) (h : Frame m s0 s) : Frame m s0 (State.sendCopy s a2 a3 a4 a5).1 := by
  unfold State.sendCopy
  repeat' first
    | with_reducible assumption
    | ((try lift_lets -underBinder); intro x; clear_value (e : x = _); first | (have _f := fun a => x a; subst e) | skip)
    | with_reducible apply State.sendRun_frame

theorem State.closeWaits_frame {m : Nat} {s0 s : State} {a2 a3 a4 a5 : _} (hm : 1081350 ||| m = m) (h : Frame m s0 s) : Frame m s0 (State.closeWaits s a2 a3 a4 a5).1 := by
  unfold State.closeWaits
  repeat' first
    | with_reducible assumption
    | ((try lift_lets -underBinder); intro x; clear_value (e : x = _); first | refine (fun hx : Frame m s0 x.1 => ?_) (Frame.ofEq1 e ?_) | skip)
    | exact mask_sub rfl hm
    | intro x
    | with_reducible apply State.sendCopy_frame
    | with_reducible apply State.modLadle_frame
    | with_reducible apply State.trySend_frame
    | with_reducible refine Frame.foldlFst ?_ ?_

theorem State.closeStep_frame {m : Nat} {s0 s : State} {a2 a3 : _} (hm : 340893518 ||| m = m) (h : Frame m s0 s) : Frame m s0 (State.closeStep s a2 a3) := by
  unfold State.closeStep
  repeat' first
    | with_reducible assumption
    | ((try lift_lets -underBinder); intro x; clear_value (e : x = _); first | refine (fun hx : Frame m s0 x => ?_) (Frame.ofEq e ?_) | refine (fun hx : Frame m s0 x.1 => ?_) (Frame.ofEq1 e ?_) | refine (fun hx : Frame m s0 x.s => ?_) (Frame.ofEqS e ?_) | skip)
    | exact mask_sub rfl hm
    | with_reducible apply State.answerClose_frame
    | with_reducible apply State.applyEntries_frame
    | with_reducible apply State.setLog_frame
    | with_reducible apply State.closeWaits_frame
    | with_reducible apply State.modLadle_frame
    | with_reducible apply Frame.ite
    | with_reducible refine FrameOpt.getD ?_ ?_

theorem State.closeAll_frame {m : Nat} {s0 s : State} {a2 a3 : _} (hm : 340893518 ||| m = m) (h : Frame m s0 s) : Frame m s0 (State.closeAll s a2 a3) := by
  unfold State.closeAll
  repeat' first
    | with_reducible assumption
    | ((try lift_lets -underBinder); intro x; clear_value (e : x = _); first | refine (fun hx : Frame m s0 x => ?_) (Frame.ofEq e ?_) | refine (fun hx : Frame m s0 x.1 => ?_) (Frame.ofEq1 e ?_) | refine (fun hx : Frame m s0 x.2 => ?_) (Frame.ofEq2 e ?_) | (have _f := fun a => x a; subst e) | skip)
    | exact mask_sub rfl hm
    | intro x
    | with_reducible apply State.stepOver_frame
    | with_reducible apply State.stepId_frame
    | with_reducible apply State.setStep_frame
    | with_reducible apply State.closeStep_frame
    | with_reducible apply State.appliedHere_frame
    | with_reducible apply State.trySend_frame
    | with_reducible apply State.emit_frame
    | with_reducible apply Frame.ite
    | with_reducible refine Frame.foldl ?_ ?_

theorem State.sentHere_frame {m : Nat} {s0 s : State} {a2 a3 a4 a5 : _} (hm : 340893518 ||| m = m) (h : Frame m s0 s) : Frame m s0 (State.sentHere s a2 a3 a4 a5) := by
  unfold State.sentHere
  repeat' first
    | with_reducible assumption
    | ((try lift_lets -underBinder); intro x; clear_value (e : x = _); first | refine (fun hx : Frame m s0 x => ?_) (Frame.ofEq e ?_) | skip)
    | exact mask_sub rfl hm
    | with_reducible apply State.closeAll_frame
    | with_reducible apply State.setStep_frame
    | with_reducible apply Frame.ite
    | split

theorem State.maybeSent_frame {m : Nat} {s0 s : State} {a2 a3 : _} (hm : 340893518 ||| m = m) (h : Frame m s0 s) : Frame m s0 (State.maybeSent s a2 a3) := by
  unfold State.maybeSent
  repeat' first
    | with_reducible assumption
    | ((try lift_lets -underBinder); intro x; clear_value (e : x = _); first | refine (fun hx : Frame m s0 x => ?_) (Frame.ofEq e ?_) | refine (fun hx : Frame m s0 x.1 => ?_) (Frame.ofEq1 e ?_) | refine (fun hx : Frame m s0 x.2 => ?_) (Frame.ofEq2 e ?_) | (have _f := fun a => x a; subst e) | skip)
    | exact mask_sub rfl hm
    | with_reducible apply State.failJob_frame
    | with_reducible apply State.sentHere_frame
    | with_reducible apply State.updJob_frame
    | with_reducible apply State.sendRun_frame
    | with_reducible apply State.stepId_frame
    | with_reducible apply State.dropQueued_frame
    | with_reducible apply Frame.ite
    | split

theorem State.sendUpdates_frame {m : Nat} {s0 s : State} {a2 a3 a4 a5 a6 a7 a8 : _} (hm : 1083918 ||| m = m) (h : Frame m s0 s) : Frame m s0 (State.sendUpdates s a2 a3 a4 a5 a6 a7 a8).1 := by
  unfold State.sendUpdates
  repeat' first
    | with_reducible assumption
    | ((try lift_lets -underBinder); intro x; clear_value (e : x = _); first | refine (fun hx : Frame m s0 x.1 => ?_) (Frame.ofEq1 e ?_) | refine (fun hx : Frame m s0 x.2 => ?_) (Frame.ofEq2 e ?_) | skip)
    | exact mask_sub rfl hm
    | with_reducible apply State.sendRun_frame
    | with_reducible apply State.stepId_frame
    | with_reducible apply State.logUpdates_frame
    | with_reducible apply State.count_frame
    | split
    | with_reducible refine FrameOpt.get' (by assumption) ?_

theorem runScatter_frame {m : Nat} {s0 s : State} {a2 : _} (hm : 340893518 ||| m = m) (h : Frame m s0 s) : FrameRan m s0 (runScatter s a2) := by
  unfold runScatter
  repeat' first
    | with_reducible assumption
    | ((try lift_lets -underBinder); intro x; clear_value (e : x = _); first | refine (fun hx : Frame m s0 x => ?_) (Frame.ofEq e ?_) | refine (fun hx : Frame m s0 x.1 => ?_) (Frame.ofEq1 e ?_) | skip)
    | exact mask_sub rfl hm
    | with_reducible exact Kept.rfl
    | intro x
    | with_reducible apply State.sendUpdates_frame
    | with_reducible apply State.setEng_frame
    | with_reducible apply State.maybeSent_frame
    | with_reducible apply State.count_frame
    | with_reducible refine Frame.foldlFst ?_ ?_
    | with_reducible refine FrameRan.done ?_
    | with_reducible refine FrameRan.failed ?_
    | with_reducible refine FrameRan.ite ?_ ?_
    | split
    | with_reducible refine FrameRan.with ?_ ?_
    | with_reducible refine Frame.litUsed rfl ?_ ?_ ?_ ?_ ?_ ?_ ?_ ?_ ?_ ?_ ?_ ?_ ?_ ?_ ?_ ?_ ?_ ?_ ?_ ?_ ?_ ?_ ?_ ?_ ?_ ?_ ?_ ?_

theorem runLadle_frame {m : Nat} {s0 s : State} {a2 : _} (hm : 340893518 ||| m = m) (h : Frame m s0 s) : FrameRan m s0 (runLadle s a2) := by
  unfold runLadle
  repeat' first
    | with_reducible assumption
    | exact mask_sub rfl hm
    | with_reducible apply runGather_frame
    | with_reducible apply runScatter_frame
    | with_reducible refine FrameRan.ite ?_ ?_

theorem State.passOn_frame {m : Nat} {s0 s : State} {a2 a3 : _} (hm : 32774 ||| m = m) (h : Frame m s0 s) : Frame m s0 (State.passOn s a2 a3) := by
  unfold State.passOn
  repeat' first
    | with_reducible assumption
    | ((try lift_lets -underBinder); intro x; clear_value (e : x = _); skip)
    | exact mask_sub rfl hm
    | with_reducible apply State.sendRun_frame
    | with_reducible apply State.count_frame

theorem State.gatherServe_frame {m : Nat} {s0 s : State} {a2 a3 : _} (hm : 1082374 ||| m = m) (h : Frame m s0 s) : Frame m s0 (State.gatherServe s a2 a3).1 := by
  unfold State.gatherServe
  repeat' first
    | with_reducible assumption
    | ((try lift_lets -underBinder); intro x; clear_value (e : x = _); first | (have _f := fun a => x a; subst e) | skip)
    | exact mask_sub rfl hm
    | with_reducible apply State.reply_frame
    | with_reducible apply State.passOn_frame
    | with_reducible apply State.readCounts_frame
    | split

theorem State.updateServe_frame {m : Nat} {s0 s : State} {a2 a3 : _} (hm : 5341710 ||| m = m) (h : Frame m s0 s) : Frame m s0 (State.updateServe s a2 a3).1 := by
  unfold State.updateServe
  repeat' first
    | with_reducible assumption
    | ((try lift_lets -underBinder); intro x; clear_value (e : x = _); first | refine (fun hx : Frame m s0 x => ?_) (Frame.ofEq e ?_) | skip)
    | exact mask_sub rfl hm
    | with_reducible apply State.reply_frame
    | with_reducible apply State.logUpdates_frame
    | with_reducible apply State.passOn_frame
    | with_reducible apply State.ackHeld_frame
    | with_reducible apply State.modLadle_frame
    | split
    | with_reducible refine FrameOpt.get' (by assumption) ?_

theorem State.prefetch_frame {m : Nat} {s0 s : State} {a2 a3 a4 : _} (hm : 1081862 ||| m = m) (h : Frame m s0 s) : Frame m s0 (State.prefetch s a2 a3 a4) := by
  unfold State.prefetch
  repeat' first
    | with_reducible assumption
    | ((try lift_lets -underBinder); intro x; clear_value (e : x = _); first | refine (fun hx : Frame m s0 x => ?_) (Frame.ofEq e ?_) | skip)
    | exact mask_sub rfl hm
    | intro x
    | with_reducible apply State.modTiers_frame
    | with_reducible apply State.modLadle_frame
    | with_reducible apply State.access_frame
    | with_reducible apply State.count_frame
    | with_reducible apply State.trySend_frame
    | with_reducible apply Frame.ite
    | with_reducible refine Frame.foldl ?_ ?_
    | split

theorem State.dropPrefetch_frame {m : Nat} {s0 s : State} {a2 : _} (hm : 1048576 ||| m = m) (h : Frame m s0 s) : Frame m s0 (State.dropPrefetch s a2) := by
  unfold State.dropPrefetch
  repeat' with_reducible first
    | assumption
    | apply State.modLadle_frame

end Sys2Proof.Machine
end

