-- ==== Sys2Proof/Laws/FrameNode.lean ====
section
/-! SUPPORT. Which parts each operation of jobs, twins, links, hosted nodes, herds, the tide, Rolar, tiers and resets can change: one lemma per operation of Machine/Tables, Slices, ServeOps, Jobs, TwinOps, LinkOps, HostedOps, HerdOps, TideOps, RolarOps, Tiers, Resets, Live, HostOps. -/

namespace Sys2Proof.Machine

open Sys2Proof.Reg

/-! Machine/Tables.lean. -/

theorem State.tblCreate_frame {m : Nat} {s0 s : State} {a2 a3 : _} (hm : 1048576 ||| m = m) (h : Frame m s0 s) : Frame m s0 (State.tblCreate s a2 a3) := by
  unfold State.tblCreate
  repeat' with_reducible first
    | assumption
    | apply State.modLadle_frame

theorem State.tblDestroy_frame {m : Nat} {s0 s : State} {a2 : _} (hm : 1049102 ||| m = m) (h : Frame m s0 s) : Frame m s0 (State.tblDestroy s a2) := by
  unfold State.tblDestroy
  repeat' first
    | with_reducible assumption
    | ((try lift_lets -underBinder); intro x; clear_value (e : x = _); refine (fun hx : Frame m s0 x => ?_) (Frame.ofEq e ?_))
    | exact mask_sub rfl hm
    | with_reducible apply State.dropRows_frame
    | with_reducible apply State.setLog_frame
    | with_reducible apply State.modLadle_frame
    | with_reducible refine FrameOpt.getD ?_ ?_

theorem State.tblInvalidate_frame {m : Nat} {s0 s : State} {a2 : _} (hm : 1048576 ||| m = m) (h : Frame m s0 s) : Frame m s0 (State.tblInvalidate s a2) := by
  unfold State.tblInvalidate
  repeat' with_reducible first
    | assumption
    | apply State.updTable_frame

theorem State.tableCmd_frame {m : Nat} {s0 s : State} {a2 a3 a4 : _} (hm : 1049102 ||| m = m) (h : Frame m s0 s) : Frame m s0 (State.tableCmd s a2 a3 a4) := by
  unfold State.tableCmd
  repeat' first
    | with_reducible assumption
    | exact mask_sub rfl hm
    | with_reducible apply State.tblCreate_frame
    | with_reducible apply State.tblDestroy_frame
    | with_reducible apply State.tblInvalidate_frame
    | split

theorem State.tblStart_frame {m : Nat} {s0 s : State} {a2 a3 a4 : _} (hm : 1081870 ||| m = m) (h : Frame m s0 s) : Frame m s0 (State.tblStart s a2 a3 a4) := by
  unfold State.tblStart
  repeat' first
    | with_reducible assumption
    | ((try lift_lets -underBinder); intro x; clear_value (e : x = _); first | refine (fun hx : Frame m s0 x => ?_) (Frame.ofEq e ?_) | refine (fun hx : Frame m s0 x.1 => ?_) (Frame.ofEq1 e ?_))
    | exact mask_sub rfl hm
    | intro x
    | with_reducible apply State.sendRun_frame
    | with_reducible apply State.setFld_frame
    | with_reducible apply State.tableCmd_frame
    | with_reducible apply State.modLadle_frame
    | with_reducible refine Frame.foldlFst ?_ ?_

theorem State.tblResult_frame {m : Nat} {s0 s : State} {a2 : _} (hm : 2 ||| m = m) (h : Frame m s0 s) : Frame m s0 (State.tblResult s a2) := by
  unfold State.tblResult
  repeat' with_reducible first
    | assumption
    | apply State.setFld_frame

theorem State.tblHeard_frame {m : Nat} {s0 s : State} {a2 : _} (hm : 1048576 ||| m = m) (h : Frame m s0 s) : Frame m s0 (State.tblHeard s a2) := by
  unfold State.tblHeard
  repeat' with_reducible first
    | assumption
    | apply State.modLadle_frame

theorem State.prepHere_frame {m : Nat} {s0 s : State} {a2 a3 a4 : _} (hm : 5277446 ||| m = m) (h : Frame m s0 s) : Frame m s0 (State.prepHere s a2 a3 a4) := by
  unfold State.prepHere
  repeat' first
    | with_reducible assumption
    | ((try lift_lets -underBinder); intro x; clear_value (e : x = _); first | refine (fun hx : Frame m s0 x => ?_) (Frame.ofEq e ?_) | skip)
    | exact mask_sub rfl hm
    | intro x
    | with_reducible apply State.reply_frame
    | with_reducible apply State.marked_frame
    | with_reducible apply State.sendCopy_frame
    | with_reducible apply State.writeOut_frame
    | with_reducible apply State.modLadle_frame
    | with_reducible apply State.count_frame
    | with_reducible apply State.emit_frame
    | with_reducible apply Frame.ite
    | with_reducible refine Frame.foldl ?_ ?_
    | split

theorem State.changeOwner_frame {m : Nat} {s0 s : State} {a2 a3 : _} (hm : 1081870 ||| m = m) (h : Frame m s0 s) : Frame m s0 (State.changeOwner s a2 a3) := by
  unfold State.changeOwner
  repeat' first
    | with_reducible assumption
    | ((try lift_lets -underBinder); intro x; clear_value (e : x = _); first | refine (fun hx : Frame m s0 x => ?_) (Frame.ofEq e ?_) | (have _f := fun a => x a; subst e) | skip)
    | exact mask_sub rfl hm
    | intro x
    | with_reducible apply State.updTable_frame
    | with_reducible apply State.dropRows_frame
    | with_reducible apply State.putRows_frame
    | with_reducible apply State.sendRun_frame
    | with_reducible apply State.setLog_frame
    | with_reducible apply State.modLadle_frame
    | with_reducible apply State.count_frame
    | with_reducible apply Frame.ite
    | with_reducible refine Frame.foldl ?_ ?_
    | with_reducible refine FrameOpt.getD ?_ ?_
    | split

theorem State.commitHere_frame {m : Nat} {s0 s : State} {a2 a3 : _} (hm : 1081870 ||| m = m) (h : Frame m s0 s) : Frame m s0 (State.commitHere s a2 a3) := by
  unfold State.commitHere
  repeat' first
    | with_reducible assumption
    | exact mask_sub rfl hm
    | with_reducible apply State.changeOwner_frame
    | with_reducible apply State.modLadle_frame
    | with_reducible apply Frame.ite

theorem State.maybeCommit_frame {m : Nat} {s0 s : State} {a2 : _} (hm : 1081870 ||| m = m) (h : Frame m s0 s) : Frame m s0 (State.maybeCommit s a2) := by
  unfold State.maybeCommit
  repeat' first
    | with_reducible assumption
    | ((try lift_lets -underBinder); intro x; clear_value (e : x = _); first | refine (fun hx : Frame m s0 x => ?_) (Frame.ofEq e ?_) | skip)
    | exact mask_sub rfl hm
    | intro x
    | with_reducible apply State.commitHere_frame
    | with_reducible apply State.modLadle_frame
    | with_reducible apply State.trySend_frame
    | with_reducible apply Frame.ite
    | with_reducible refine Frame.foldl ?_ ?_
    | split

theorem State.copyHere_frame {m : Nat} {s0 s : State} {a2 a3 a4 a5 : _} (hm : 5276174 ||| m = m) (h : Frame m s0 s) : Frame m s0 (State.copyHere s a2 a3 a4 a5) := by
  unfold State.copyHere
  repeat' first
    | with_reducible assumption
    | ((try lift_lets -underBinder); intro x; clear_value (e : x = _); first | refine (fun hx : Frame m s0 x => ?_) (Frame.ofEq e ?_) | skip)
    | exact mask_sub rfl hm
    | with_reducible apply State.reply_frame
    | with_reducible apply State.marked_frame
    | with_reducible apply State.modLadle_frame
    | with_reducible apply State.maybeCommit_frame
    | with_reducible apply Frame.ite
    | split

theorem State.cancelHere_frame {m : Nat} {s0 s : State} {a2 : _} (hm : 1048576 ||| m = m) (h : Frame m s0 s) : Frame m s0 (State.cancelHere s a2) := by
  unfold State.cancelHere
  repeat' with_reducible first
    | assumption
    | apply State.modLadle_frame

theorem State.cancelMove_frame {m : Nat} {s0 s : State} {a2 a3 : _} (hm : 1081350 ||| m = m) (h : Frame m s0 s) : Frame m s0 (State.cancelMove s a2 a3) := by
  unfold State.cancelMove
  repeat' first
    | with_reducible assumption
    | ((try lift_lets -underBinder); intro x; clear_value (e : x = _); refine (fun hx : Frame m s0 x => ?_) (Frame.ofEq e ?_))
    | exact mask_sub rfl hm
    | intro x
    | with_reducible apply State.cancelHere_frame
    | with_reducible apply State.modLadle_frame
    | with_reducible apply State.count_frame
    | with_reducible apply State.trySend_frame
    | with_reducible apply Frame.ite
    | with_reducible refine Frame.foldl ?_ ?_

theorem State.startMove_frame {m : Nat} {s0 s : State} {a2 a3 a4 a5 : _} (hm : 5277446 ||| m = m) (h : Frame m s0 s) : Frame m s0 (State.startMove s a2 a3 a4 a5) := by
  unfold State.startMove
  repeat' first
    | with_reducible assumption
    | ((try lift_lets -underBinder); intro x; clear_value (e : x = _); first | refine (fun hx : Frame m s0 x => ?_) (Frame.ofEq e ?_) | skip)
    | exact mask_sub rfl hm
    | intro x
    | with_reducible apply State.prepHere_frame
    | with_reducible apply State.modLadle_frame
    | with_reducible apply State.trySend_frame
    | with_reducible apply Frame.ite
    | with_reducible refine Frame.foldl ?_ ?_

theorem State.maybePlan_frame {m : Nat} {s0 s : State} (hm : 5277446 ||| m = m) (h : Frame m s0 s) : Frame m s0 (State.maybePlan s) := by
  unfold State.maybePlan
  repeat' first
    | with_reducible assumption
    | ((try lift_lets -underBinder); intro x; clear_value (e : x = _); first | refine (fun hx : Frame m s0 x => ?_) (Frame.ofEq e ?_) | skip)
    | exact mask_sub rfl hm
    | intro x
    | with_reducible apply State.startMove_frame
    | with_reducible apply State.modLadle_frame
    | with_reducible apply Frame.ite
    | with_reducible refine Frame.foldl ?_ ?_

theorem State.loadHere_frame {m : Nat} {s0 s : State} {a2 a3 : _} (hm : 5277446 ||| m = m) (h : Frame m s0 s) : Frame m s0 (State.loadHere s a2 a3) := by
  unfold State.loadHere
  repeat' first
    | with_reducible assumption
    | exact mask_sub rfl hm
    | with_reducible apply State.maybePlan_frame
    | with_reducible apply State.modLadle_frame
    | with_reducible apply Frame.ite

theorem State.promoteTable_frame {m : Nat} {s0 s : State} {a2 : _} (hm : 1048578 ||| m = m) (h : Frame m s0 s) : Frame m s0 (State.promoteTable s a2) := by
  unfold State.promoteTable
  repeat' first
    | with_reducible assumption
    | ((try lift_lets -underBinder); intro x; clear_value (e : x = _); skip)
    | exact mask_sub rfl hm
    | with_reducible apply State.updTable_frame
    | with_reducible apply State.count_frame
    | split

theorem State.endStubs_frame {m : Nat} {s0 s : State} {a2 : _} (hm : 1048576 ||| m = m) (h : Frame m s0 s) : Frame m s0 (State.endStubs s a2) := by
  unfold State.endStubs
  repeat' with_reducible first
    | assumption
    | apply State.modLadle_frame

theorem State.dueOwners_frame {m : Nat} {s0 s : State} {a2 : _} (hm : 1081870 ||| m = m) (h : Frame m s0 s) : Frame m s0 (State.dueOwners s a2) := by
  unfold State.dueOwners
  repeat' first
    | with_reducible assumption
    | ((try lift_lets -underBinder); intro x; clear_value (e : x = _); skip)
    | exact mask_sub rfl hm
    | intro x
    | with_reducible apply State.changeOwner_frame
    | with_reducible apply State.modLadle_frame
    | with_reducible refine Frame.foldl ?_ ?_

theorem State.ladleEpoch_frame {m : Nat} {s0 s : State} {a2 a3 : _} (hm : 5277454 ||| m = m) (h : Frame m s0 s) : Frame m s0 (State.ladleEpoch s a2 a3) := by
  unfold State.ladleEpoch
  repeat' first
    | with_reducible assumption
    | ((try lift_lets -underBinder); intro x; clear_value (e : x = _); first | refine (fun hx : Frame m s0 x => ?_) (Frame.ofEq e ?_) | skip)
    | exact mask_sub rfl hm
    | intro x
    | with_reducible apply State.endStubs_frame
    | with_reducible apply State.cancelMove_frame
    | with_reducible apply State.promoteTable_frame
    | with_reducible apply State.modLadle_frame
    | with_reducible apply State.loadHere_frame
    | with_reducible apply State.trySend_frame
    | with_reducible apply State.dueOwners_frame
    | with_reducible apply Frame.ite
    | with_reducible refine Frame.foldl ?_ ?_

theorem State.reassign_frame {m : Nat} {s0 s : State} {a2 : _} (hm : 1081870 ||| m = m) (h : Frame m s0 s) : Frame m s0 (State.reassign s a2) := by
  unfold State.reassign
  repeat' first
    | with_reducible assumption
    | ((try lift_lets -underBinder); intro x; clear_value (e : x = _); first | refine (fun hx : Frame m s0 x => ?_) (Frame.ofEq e ?_) | (have _f := fun a => x a; subst e) | skip)
    | exact mask_sub rfl hm
    | intro x
    | with_reducible apply State.raiseOwn_frame
    | with_reducible apply State.cancelMove_frame
    | with_reducible apply State.commitHere_frame
    | with_reducible apply State.trySend_frame
    | with_reducible apply Frame.ite
    | with_reducible refine Frame.foldl ?_ ?_

/-! Machine/Slices.lean. -/

theorem State.issueHost_frame {m : Nat} {s0 s : State} {a2 a3 a4 a5 : _} (hm : 1026 ||| m = m) (h : Frame m s0 s) : Frame m s0 (State.issueHost s a2 a3 a4 a5) := by
  unfold State.issueHost
  repeat' first
    | with_reducible assumption
    | ((try lift_lets -underBinder); intro x; clear_value (e : x = _); first | refine (fun hx : Frame m s0 x => ?_) (Frame.ofEq e ?_) | skip)
    | exact mask_sub rfl hm
    | with_reducible apply State.emits_frame
    | with_reducible apply State.count_frame
    | with_reducible apply State.modHost_frame
    | with_reducible apply State.emit_frame
    | with_reducible apply Frame.ite
    | exact Eq.refl _

theorem State.issueNeed_frame {m : Nat} {s0 s : State} {a2 a3 a4 a5 : _} (hm : 34310 ||| m = m) (h : Frame m s0 s) : Frame m s0 (State.issueNeed s a2 a3 a4 a5).1 := by
  unfold State.issueNeed
  repeat' first
    | with_reducible assumption
    | ((try lift_lets -underBinder); intro x; clear_value (e : x = _); first | refine (fun hx : Frame m s0 x.1 => ?_) (Frame.ofEq1 e ?_) | skip)
    | exact mask_sub rfl hm
    | intro x
    | with_reducible apply State.issueHost_frame
    | with_reducible apply State.modTiers_frame
    | with_reducible apply State.snoopFor_frame
    | with_reducible apply State.count_frame
    | with_reducible apply State.trySend_frame
    | with_reducible apply State.emit_frame
    | with_reducible refine Frame.foldlFst ?_ ?_
    | split

theorem runCustom_frame {m : Nat} {s0 s : State} {a2 : _} (hm : 4098 ||| m = m) (h : Frame m s0 s) : FrameRan m s0 (runCustom s a2) := by
  unfold runCustom
  repeat' with_reducible first
    | assumption
    | apply State.threadAsk_frame
    | refine FrameRan.done ?_

theorem runStage_frame {m : Nat} {s0 s : State} {a2 : _} (hm : 341286734 ||| m = m) (h : Frame m s0 s) : FrameRan m s0 (runStage s a2) := by
  unfold runStage
  repeat' first
    | with_reducible assumption
    | exact mask_sub rfl hm
    | with_reducible apply runCrate_frame
    | with_reducible apply runRipener_frame
    | with_reducible apply runStrainer_frame
    | with_reducible apply runSeparator_frame
    | with_reducible apply runIntake_frame
    | with_reducible apply runCustom_frame
    | with_reducible apply runChurn_frame
    | with_reducible apply runPress_frame
    | with_reducible apply runLadle_frame
    | with_reducible apply runNormaliser_frame
    | with_reducible apply runHash_frame
    | split

theorem State.markStage_frame {m : Nat} {s0 s : State} {a2 a3 : _} (hm : 2048 ||| m = m) (h : Frame m s0 s) : Frame m s0 (State.markStage s a2 a3) := by
  unfold State.markStage
  repeat' with_reducible first
    | assumption
    | apply State.updJob_frame

theorem State.tellSources_frame {m : Nat} {s0 s : State} {a2 a3 a4 : _} (hm : 8206 ||| m = m) (h : Frame m s0 s) : Frame m s0 (State.tellSources s a2 a3 a4) := by
  unfold State.tellSources
  repeat' first
    | with_reducible assumption
    | intro x
    | with_reducible apply State.deliver_frame
    | with_reducible refine Frame.foldl ?_ ?_
    | split

theorem State.sliceGo_frame {m : Nat} {s0 s : State} {a2 : _} (hm : 341294926 ||| m = m) (h : Frame m s0 s) : Frame m s0 (State.sliceGo s a2) := by
  unfold State.sliceGo
  repeat' first
    | with_reducible assumption
    | ((try lift_lets -underBinder); intro x; clear_value (e : x = _); first | refine (fun hx : Frame m s0 x => ?_) (Frame.ofEq e ?_) | refine (fun hx : Frame m s0 x.1 => ?_) (Frame.ofEq1 e ?_) | skip)
    | exact mask_sub rfl hm
    | with_reducible apply State.issueNeed_frame
    | with_reducible apply State.updSlice_frame
    | with_reducible apply State.placeAll_frame
    | with_reducible apply State.setSliceState_frame
    | with_reducible apply State.setPage_frame
    | with_reducible apply State.tellSources_frame
    | with_reducible apply State.failSlice_frame
    | with_reducible apply runStage_frame
    | with_reducible apply State.markStage_frame
    | with_reducible apply Frame.ite
    | split
    | with_reducible refine FrameRan.getDone (by assumption) ?_
    | with_reducible refine FrameRan.getFailed (by assumption) ?_

theorem State.newJob_frame {m : Nat} {s0 s : State} {a2 : _} (hm : 2048 ||| m = m) (h : Frame m s0 s) : Frame m s0 (State.newJob s a2).1 := by
  unfold State.newJob
  repeat' first
    | with_reducible assumption
    | ((try lift_lets -underBinder); intro x; clear_value (e : x = _); skip)
    | with_reducible apply State.modWork_frame

theorem State.startJob_frame {m : Nat} {s0 s : State} {a2 a3 a4 a5 : _} (hm : 33589774 ||| m = m) (h : Frame m s0 s) : Frame m s0 (State.startJob s a2 a3 a4 a5) := by
  unfold State.startJob
  repeat' first
    | with_reducible assumption
    | ((try lift_lets -underBinder); intro x; clear_value (e : x = _); first | refine (fun hx : Frame m s0 x => ?_) (Frame.ofEq e ?_) | refine (fun hx : Frame m s0 x.1 => ?_) (Frame.ofEq1 e ?_) | skip)
    | exact mask_sub rfl hm
    | intro x
    | with_reducible apply State.updJob_frame
    | with_reducible apply State.sendRun_frame
    | with_reducible apply State.bindStores_frame
    | with_reducible apply State.placeSlices_frame
    | with_reducible apply State.trySend_frame
    | with_reducible apply Frame.ite
    | with_reducible refine Frame.foldl ?_ ?_
    | split

theorem State.runValidate_frame {m : Nat} {s0 s : State} {a2 : _} (hm : 33660686 ||| m = m) (h : Frame m s0 s) : Frame m s0 (State.runValidate s a2) := by
  unfold State.runValidate
  repeat' first
    | with_reducible assumption
    | ((try lift_lets -underBinder); intro x; clear_value (e : x = _); first | refine (fun hx : Frame m s0 x => ?_) (Frame.ofEq e ?_) | refine (fun hx : Frame m s0 x.1 => ?_) (Frame.ofEq1 e ?_) | skip)
    | exact mask_sub rfl hm
    | with_reducible apply State.markEnded_frame
    | with_reducible apply State.newJob_frame
    | with_reducible apply State.issueNeed_frame
    | with_reducible apply State.flowEnd_frame
    | with_reducible apply State.ringSettle_frame
    | with_reducible apply State.updDesc_frame
    | with_reducible apply State.unstage_frame
    | with_reducible apply State.startJob_frame
    | with_reducible apply Frame.ite
    | split

theorem State.surveyStage_frame {m : Nat} {s0 s : State} {a2 a3 : _} (hm : 335847246 ||| m = m) (h : Frame m s0 s) : Frame m s0 (State.surveyStage s a2 a3) := by
  unfold State.surveyStage
  repeat' first
    | with_reducible assumption
    | ((try lift_lets -underBinder); intro x; clear_value (e : x = _); first | refine (fun hx : Frame m s0 x.1 => ?_) (Frame.ofEq1 e ?_) | skip)
    | exact mask_sub rfl hm
    | with_reducible apply State.failJob_frame
    | with_reducible apply State.issueNeed_frame
    | with_reducible apply State.surveyAll_frame
    | with_reducible apply State.dropQueued_frame
    | with_reducible apply State.unstage_frame
    | with_reducible apply State.placeSlices_frame
    | with_reducible apply Frame.ite
    | split
    | with_reducible refine FrameRan.getDone (by assumption) ?_
    | with_reducible refine FrameRan.getFailed (by assumption) ?_

theorem State.survey_frame {m : Nat} {s0 s : State} {a2 : _} (hm : 335847246 ||| m = m) (h : Frame m s0 s) : Frame m s0 (State.survey s a2) := by
  unfold State.survey
  repeat' first
    | with_reducible assumption
    | intro x
    | with_reducible apply State.surveyStage_frame
    | with_reducible refine Frame.foldl ?_ ?_

theorem State.partAnswer_frame {m : Nat} {s0 s : State} {a2 a3 a4 a5 : _} (hm : 4229122 ||| m = m) (h : Frame m s0 s) : Frame m s0 (State.partAnswer s a2 a3 a4 a5) := by
  unfold State.partAnswer
  repeat' first
    | with_reducible assumption
    | ((try lift_lets -underBinder); intro x; clear_value (e : x = _); refine (fun hx : Frame m s0 x => ?_) (Frame.ofEq e ?_))
    | exact mask_sub rfl hm
    | with_reducible apply State.reply_frame
    | with_reducible apply State.marked_frame
    | with_reducible apply State.modFabric_frame
    | with_reducible apply State.unstage_frame

theorem State.partValidate_frame {m : Nat} {s0 s : State} {a2 : _} (hm : 37785102 ||| m = m) (h : Frame m s0 s) : Frame m s0 (State.partValidate s a2) := by
  unfold State.partValidate
  repeat' first
    | with_reducible assumption
    | ((try lift_lets -underBinder); intro x; clear_value (e : x = _); first | refine (fun hx : Frame m s0 x.1 => ?_) (Frame.ofEq1 e ?_) | skip)
    | exact mask_sub rfl hm
    | with_reducible apply State.newJob_frame
    | with_reducible apply State.issueNeed_frame
    | with_reducible apply State.partAnswer_frame
    | with_reducible apply State.startJob_frame
    | with_reducible apply Frame.ite
    | split

theorem State.partUnread_frame {m : Nat} {s0 s : State} {a2 a3 a4 : _} (hm : 4229122 ||| m = m) (h : Frame m s0 s) : Frame m s0 (State.partUnread s a2 a3 a4) := by
  unfold State.partUnread
  repeat' first
    | with_reducible assumption
    | with_reducible apply State.partAnswer_frame
    | split

theorem State.resume_frame {m : Nat} {s0 s : State} {a2 : _} (hm : 374849358 ||| m = m) (h : Frame m s0 s) : Frame m s0 (State.resume s a2) := by
  unfold State.resume
  repeat' first
    | with_reducible assumption
    | exact mask_sub rfl hm
    | intro x
    | with_reducible apply State.runValidate_frame
    | with_reducible apply State.sliceGo_frame
    | with_reducible apply State.survey_frame
    | with_reducible apply State.partValidate_frame
    | with_reducible apply State.readyWords_frame
    | with_reducible apply Frame.ite
    | with_reducible refine Frame.elim ?_ ?_
    | split

theorem State.readFailed_frame {m : Nat} {s0 s : State} {a2 a3 a4 : _} (hm : 339844942 ||| m = m) (h : Frame m s0 s) : Frame m s0 (State.readFailed s a2 a3 a4) := by
  unfold State.readFailed
  repeat' first
    | with_reducible assumption
    | ((try lift_lets -underBinder); intro x; clear_value (e : x = _); refine (fun hx : Frame m s0 x => ?_) (Frame.ofEq e ?_))
    | exact mask_sub rfl hm
    | with_reducible apply State.markEnded_frame
    | with_reducible apply State.failJob_frame
    | with_reducible apply State.flowEnd_frame
    | with_reducible apply State.ringSettle_frame
    | with_reducible apply State.placeAll_frame
    | with_reducible apply State.dropQueued_frame
    | with_reducible apply State.partUnread_frame
    | with_reducible apply State.failSlice_frame
    | with_reducible apply State.unstage_frame
    | with_reducible apply Frame.ite
    | split

theorem State.cellarWrite_frame {m : Nat} {s0 s : State} {a2 a3 a4 : _} (hm : 2562 ||| m = m) (h : Frame m s0 s) : FrameGot m s0 id (State.cellarWrite s a2 a3 a4) := by
  unfold State.cellarWrite
  repeat' first
    | with_reducible assumption
    | ((try lift_lets -underBinder); intro x; clear_value (e : x = _); first | refine (fun hx : Frame m s0 x => ?_) (Frame.ofEq e ?_) | skip)
    | exact mask_sub rfl hm
    | with_reducible apply State.modTiers_frame
    | with_reducible apply State.updJob_frame
    | with_reducible apply State.count_frame
    | with_reducible apply State.emit_frame
    | with_reducible refine FrameGot.ok' ?_
    | with_reducible exact FrameGot.fail
    | with_reducible refine FrameGot.ite ?_ ?_

theorem State.cellarFlush_frame {m : Nat} {s0 s : State} {a2 : _} (hm : 2560 ||| m = m) (h : Frame m s0 s) : Frame m s0 (State.cellarFlush s a2) := by
  unfold State.cellarFlush
  repeat' first
    | with_reducible assumption
    | ((try lift_lets -underBinder); intro x; clear_value (e : x = _); skip)
    | exact mask_sub rfl hm
    | intro x
    | with_reducible apply State.modTiers_frame
    | with_reducible apply State.updJob_frame
    | with_reducible apply State.emit_frame
    | with_reducible refine Frame.foldl ?_ ?_
    | split

theorem State.commitOut_frame {m : Nat} {s0 s : State} {a2 a3 a4 a5 : _} (hm : 36622 ||| m = m) (h : Frame m s0 s) : FrameGot m s0 id (State.commitOut s a2 a3 a4 a5) := by
  unfold State.commitOut
  repeat' first
    | with_reducible assumption
    | ((try lift_lets -underBinder); intro x; clear_value (e : x = _); first | refine (fun hx : Frame m s0 x => ?_) (Frame.ofEq e ?_) | skip)
    | exact mask_sub rfl hm
    | intro x
    | with_reducible apply State.cellarWrite_frame
    | with_reducible apply State.jobWrites_frame
    | with_reducible apply State.countHost_frame
    | with_reducible apply State.jobWrite_frame
    | with_reducible refine Frame.foldl ?_ ?_
    | with_reducible refine FrameGot.ok' ?_
    | with_reducible refine FrameGot.ite ?_ ?_
    | split

theorem State.commitAll_frame {m : Nat} {s0 s : State} {a2 a3 : _} (hm : 36622 ||| m = m) (h : Frame m s0 s) : FrameGot m s0 id (State.commitAll s a2 a3) := by
  unfold State.commitAll
  repeat' first
    | with_reducible assumption
    | intro x
    | with_reducible apply State.commitOut_frame
    | with_reducible refine FrameGot.bindFrame' (by assumption) ?_
    | with_reducible refine FrameGot.ok' ?_
    | with_reducible refine FrameGot.foldl ?_ ?_

theorem State.freeJob_frame {m : Nat} {s0 s : State} {a2 : _} (hm : 1187406 ||| m = m) (h : Frame m s0 s) : Frame m s0 (State.freeJob s a2) := by
  unfold State.freeJob
  repeat' first
    | with_reducible assumption
    | ((try lift_lets -underBinder); intro x; clear_value (e : x = _); first | refine (fun hx : Frame m s0 x => ?_) (Frame.ofEq e ?_) | skip)
    | exact mask_sub rfl hm
    | with_reducible apply State.modTiers_frame
    | with_reducible apply State.giveExtents_frame
    | with_reducible apply State.leaveRelease_frame
    | with_reducible apply State.dropSlices_frame
    | with_reducible apply State.modWork_frame
    | with_reducible apply State.dropPrefetch_frame
    | with_reducible apply State.spillFree_frame
    | with_reducible apply State.modStrainer_frame
    | with_reducible apply State.unstage_frame

theorem State.spoilOuts_frame {m : Nat} {s0 s : State} {a2 : _} (hm : 768 ||| m = m) (h : Frame m s0 s) : Frame m s0 (State.spoilOuts s a2) := by
  unfold State.spoilOuts
  repeat' first
    | with_reducible assumption
    | ((try lift_lets -underBinder); intro x; clear_value (e : x = _); refine (fun hx : Frame m s0 x.2 => ?_) (Frame.ofEq2 e ?_))
    | exact mask_sub rfl hm
    | intro x
    | with_reducible apply State.openBytes_frame
    | with_reducible apply State.storeBytes_frame
    | with_reducible apply Frame.ite
    | with_reducible refine Frame.foldl ?_ ?_
    | split

theorem State.killParts_frame {m : Nat} {s0 s : State} {a2 a3 a4 : _} (hm : 32774 ||| m = m) (h : Frame m s0 s) : Frame m s0 (State.killParts s a2 a3 a4) := by
  unfold State.killParts
  repeat' first
    | with_reducible assumption
    | intro x
    | with_reducible apply State.trySend_frame
    | with_reducible refine Frame.foldl ?_ ?_

/-! Machine/ServeOps.lean. -/

theorem State.setServeRing_frame {m : Nat} {s0 s : State} {a2 a3 : _} (hm : 8388608 ||| m = m) (h : Frame m s0 s) : Frame m s0 (State.setServeRing s a2 a3) := by
  unfold State.setServeRing
  repeat' with_reducible first
    | assumption
    | apply State.modServe_frame

theorem State.updRequest_frame {m : Nat} {s0 s : State} {a2 a3 : _} (hm : 8388608 ||| m = m) (h : Frame m s0 s) : Frame m s0 (State.updRequest s a2 a3) := by
  unfold State.updRequest
  repeat' with_reducible first
    | assumption
    | apply State.modServe_frame

theorem State.aqNotice_frame {m : Nat} {s0 s : State} (hm : 14 ||| m = m) (h : Frame m s0 s) : Frame m s0 (State.aqNotice s) := by
  unfold State.aqNotice
  repeat' first
    | with_reducible assumption
    | ((try lift_lets -underBinder); intro x; clear_value (e : x = _); refine (fun hx : Frame m s0 x.1 => ?_) (Frame.ofEq1 e ?_))
    | exact mask_sub rfl hm
    | with_reducible apply State.setFld_frame
    | with_reducible apply State.irqEvent_frame
    | with_reducible apply State.noticeStep_frame
    | with_reducible apply Frame.ite

theorem State.serveErr_frame {m : Nat} {s0 s : State} {a2 : _} (hm : 6 ||| m = m) (h : Frame m s0 s) : Frame m s0 (State.serveErr s a2) := by
  unfold State.serveErr
  repeat' with_reducible first
    | assumption
    | apply State.raiseOwn_frame
    | apply Frame.ite

theorem State.takeStore_frame {m : Nat} {s0 s : State} (hm : 8389120 ||| m = m) (h : Frame m s0 s) : FrameOpt m s0 id (State.takeStore s) := by
  unfold State.takeStore
  repeat' first
    | with_reducible assumption
    | ((try lift_lets -underBinder); intro x; clear_value (e : x = _); skip)
    | exact mask_sub rfl hm
    | intro x
    | with_reducible apply State.modServe_frame
    | with_reducible refine FrameOpt.mapFrame' (State.takeSkim_frame (mask_sub rfl hm) ?_) ?_
    | with_reducible refine FrameOpt.mapFrame' (State.takeCream_frame (mask_sub rfl hm) ?_) ?_
    | with_reducible refine Frame.ofId ?_
    | with_reducible refine FrameOpt.or ?_ ?_

theorem State.storeSettle_frame {m : Nat} {s0 s : State} (hm : 8389120 ||| m = m) (h : Frame m s0 s) : Frame m s0 (State.storeSettle s) := by
  unfold State.storeSettle
  repeat' first
    | with_reducible assumption
    | exact mask_sub rfl hm
    | with_reducible apply State.modServe_frame
    | with_reducible apply State.giveCream_frame
    | with_reducible apply State.giveSkim_frame
    | with_reducible apply Frame.ite
    | split

theorem State.countLat_frame {m : Nat} {s0 s : State} {a2 : _} (hm : 2 ||| m = m) (h : Frame m s0 s) : Frame m s0 (State.countLat s a2) := by
  unfold State.countLat
  repeat' with_reducible first
    | assumption
    | apply State.count_frame

theorem State.ringDoorbell_frame {m : Nat} {s0 s : State} {a2 a3 a4 a5 : _} (hm : 65538 ||| m = m) (h : Frame m s0 s) : Frame m s0 (State.ringDoorbell s a2 a3 a4 a5) := by
  unfold State.ringDoorbell
  repeat' first
    | with_reducible assumption
    | exact mask_sub rfl hm
    | intro x
    | with_reducible apply State.countLat_frame
    | with_reducible apply State.modTwin_frame
    | with_reducible apply State.emit_frame
    | with_reducible refine Frame.foldl ?_ ?_
    | split

theorem State.dropRequest_frame {m : Nat} {s0 s : State} {a2 : _} (hm : 8389134 ||| m = m) (h : Frame m s0 s) : Frame m s0 (State.dropRequest s a2) := by
  unfold State.dropRequest
  repeat' first
    | with_reducible assumption
    | exact mask_sub rfl hm
    | with_reducible apply State.storeSettle_frame
    | with_reducible apply State.modServe_frame
    | with_reducible apply State.aqNotice_frame

theorem State.writeResponse_frame {m : Nat} {s0 s : State} {a2 a3 : _} (hm : 8390414 ||| m = m) (h : Frame m s0 s) : Frame m s0 (State.writeResponse s a2 a3) := by
  unfold State.writeResponse
  repeat' first
    | with_reducible assumption
    | ((try lift_lets -underBinder); intro x; clear_value (e : x = _); first | refine (fun hx : Frame m s0 x => ?_) (Frame.ofEq e ?_) | refine (fun hx : Frame m s0 x.2 => ?_) (Frame.ofEq2 e ?_) | skip)
    | exact mask_sub rfl hm
    | with_reducible apply State.dropRequest_frame
    | with_reducible apply State.writeOut_frame
    | with_reducible apply State.openBytes_frame
    | with_reducible apply State.count_frame
    | with_reducible apply State.storeBytes_frame
    | with_reducible apply Frame.ite
    | split

theorem State.respondGo_frame {m : Nat} {s0 s : State} {r n ts v} (hm : 8390414 ||| m = m) (h : Frame m s0 s) : Frame m s0 (State.respondGo r n s ts v).1 := by
  induction n generalizing s ts v with
  | zero =>
    unfold State.respondGo
    repeat' with_reducible assumption
  | succ n ih =>
    unfold State.respondGo
    repeat' first
      | with_reducible assumption
      | ((try lift_lets -underBinder); intro x; clear_value (e : x = _); skip)
      | exact mask_sub rfl hm
      | with_reducible apply ih
      | with_reducible apply State.serveErr_frame
      | with_reducible apply State.setServeRing_frame
      | with_reducible apply State.writeResponse_frame
      | with_reducible apply State.dropRequest_frame
      | with_reducible apply State.count_frame
      | with_reducible apply State.emit_frame
      | with_reducible apply Frame.ite
      | split

theorem State.serveSettle_frame {m : Nat} {s0 s : State} {a2 : _} (hm : 8455950 ||| m = m) (h : Frame m s0 s) : Frame m s0 (State.serveSettle s a2) := by
  unfold State.serveSettle
  repeat' first
    | with_reducible assumption
    | ((try lift_lets -underBinder); intro x; clear_value (e : x = _); refine (fun hx : Frame m s0 x.1 => ?_) (Frame.ofEq1 e ?_))
    | exact mask_sub rfl hm
    | with_reducible apply State.respondGo_frame
    | with_reducible apply State.ringDoorbell_frame
    | split

theorem State.answerRequest_frame {m : Nat} {s0 s : State} {a2 a3 a4 a5 a6 : _} (hm : 8455950 ||| m = m) (h : Frame m s0 s) : Frame m s0 (State.answerRequest s a2 a3 a4 a5 a6) := by
  unfold State.answerRequest
  repeat' first
    | with_reducible assumption
    | exact mask_sub rfl hm
    | with_reducible apply State.updRequest_frame
    | with_reducible apply State.serveSettle_frame
    | split

theorem State.dropRequestJob_frame {m : Nat} {s0 s : State} {a2 : _} (hm : 1187662 ||| m = m) (h : Frame m s0 s) : Frame m s0 (State.dropRequestJob s a2) := by
  unfold State.dropRequestJob
  repeat' first
    | with_reducible assumption
    | exact mask_sub rfl hm
    | with_reducible apply State.freeJob_frame
    | with_reducible apply State.spoilOuts_frame
    | split

theorem State.abandon_frame {m : Nat} {s0 s : State} {a2 : _} (hm : 9641806 ||| m = m) (h : Frame m s0 s) : Frame m s0 (State.abandon s a2) := by
  unfold State.abandon
  repeat' first
    | with_reducible assumption
    | exact mask_sub rfl hm
    | with_reducible apply State.serveErr_frame
    | with_reducible apply State.placeAll_frame
    | with_reducible apply State.answerRequest_frame
    | with_reducible apply State.dropRequestJob_frame
    | with_reducible apply State.count_frame
    | split

theorem State.finishServe_frame {m : Nat} {s0 s : State} {a2 a3 a4 : _} (hm : 9641806 ||| m = m) (h : Frame m s0 s) : Frame m s0 (State.finishServe s a2 a3 a4) := by
  unfold State.finishServe
  repeat' first
    | with_reducible assumption
    | ((try lift_lets -underBinder); intro x; clear_value (e : x = _); first | refine (fun hx : Frame m s0 x => ?_) (Frame.ofEq e ?_) | skip)
    | exact mask_sub rfl hm
    | with_reducible apply State.freeJob_frame
    | with_reducible apply State.answerRequest_frame
    | with_reducible apply State.count_frame
    | with_reducible apply Frame.ite

theorem State.admitNext_frame {m : Nat} {s0 s : State} {a2 a3 : _} (hm : 42045198 ||| m = m) (h : Frame m s0 s) : Frame m s0 (State.admitNext s a2 a3) := by
  unfold State.admitNext
  repeat' first
    | with_reducible assumption
    | ((try lift_lets -underBinder); intro x; clear_value (e : x = _); first | refine (fun hx : Frame m s0 x => ?_) (Frame.ofEq e ?_) | refine (fun hx : Frame m s0 x.1 => ?_) (Frame.ofEq1 e ?_) | (have _f := fun a => x a; subst e) | skip)
    | exact mask_sub rfl hm
    | with_reducible apply State.newJob_frame
    | with_reducible apply State.serveErr_frame
    | with_reducible apply State.setServeRing_frame
    | with_reducible apply State.modServe_frame
    | with_reducible apply State.answerRequest_frame
    | with_reducible apply State.count_frame
    | with_reducible apply State.startJob_frame
    | with_reducible apply State.aqNotice_frame
    | with_reducible apply State.storeBytes_frame
    | with_reducible apply Frame.ite
    | split

theorem State.takeProd_frame {m : Nat} {s0 s : State} {a2 a3 : _} (hm : 8388614 ||| m = m) (h : Frame m s0 s) : Frame m s0 (State.takeProd s a2 a3) := by
  unfold State.takeProd
  repeat' first
    | with_reducible assumption
    | ((try lift_lets -underBinder); intro x; clear_value (e : x = _); skip)
    | exact mask_sub rfl hm
    | with_reducible apply State.raiseOwn_frame
    | with_reducible apply State.setServeRing_frame
    | with_reducible apply Frame.ite

theorem State.endServeRing_frame {m : Nat} {s0 s : State} {a2 : _} (hm : 9576270 ||| m = m) (h : Frame m s0 s) : Frame m s0 (State.endServeRing s a2) := by
  unfold State.endServeRing
  repeat' first
    | with_reducible assumption
    | ((try lift_lets -underBinder); intro x; clear_value (e : x = _); first | refine (fun hx : Frame m s0 x => ?_) (Frame.ofEq e ?_) | skip)
    | exact mask_sub rfl hm
    | intro x
    | with_reducible apply State.dropRequest_frame
    | with_reducible apply State.setFld_frame
    | with_reducible apply State.modServe_frame
    | with_reducible apply State.dropRequestJob_frame
    | with_reducible refine Frame.foldl ?_ ?_

theorem State.svcResult_frame {m : Nat} {s0 s : State} {a2 : _} (hm : 2 ||| m = m) (h : Frame m s0 s) : Frame m s0 (State.svcResult s a2) := by
  unfold State.svcResult
  repeat' with_reducible first
    | assumption
    | apply State.setFld_frame

theorem State.svcRegister_frame {m : Nat} {s0 s : State} {a2 : _} (hm : 8388610 ||| m = m) (h : Frame m s0 s) : Frame m s0 (State.svcRegister s a2) := by
  unfold State.svcRegister
  repeat' first
    | with_reducible assumption
    | ((try lift_lets -underBinder); intro x; clear_value (e : x = _); first | (have _f := fun a => x a; subst e) | skip)
    | exact mask_sub rfl hm
    | with_reducible apply State.setFld_frame
    | with_reducible apply State.modServe_frame
    | with_reducible apply State.svcResult_frame
    | with_reducible apply Frame.ite
    | split

theorem State.svcUnregister_frame {m : Nat} {s0 s : State} (hm : 8388610 ||| m = m) (h : Frame m s0 s) : Frame m s0 (State.svcUnregister s) := by
  unfold State.svcUnregister
  repeat' first
    | with_reducible assumption
    | ((try lift_lets -underBinder); intro x; clear_value (e : x = _); skip)
    | exact mask_sub rfl hm
    | with_reducible apply State.setFld_frame
    | with_reducible apply State.modServe_frame
    | with_reducible apply State.svcResult_frame
    | split

theorem State.svcRead_frame {m : Nat} {s0 s : State} (hm : 2 ||| m = m) (h : Frame m s0 s) : Frame m s0 (State.svcRead s) := by
  unfold State.svcRead
  repeat' first
    | with_reducible assumption
    | ((try lift_lets -underBinder); intro x; clear_value (e : x = _); skip)
    | with_reducible apply State.setFld_frame
    | with_reducible apply State.svcResult_frame

theorem svcHook_frame {m : Nat} {s0 s : State} {a1 a2 a3 a4 a5 : _} (hm : 8388614 ||| m = m) (h : Frame m s0 s) : Frame m s0 (svcHook a1 a2 a3 a4 a5 s) := by
  unfold svcHook
  repeat' first
    | with_reducible assumption
    | ((try lift_lets -underBinder); intro x; clear_value (e : x = _); skip)
    | exact mask_sub rfl hm
    | with_reducible apply State.svcRead_frame
    | with_reducible apply State.svcUnregister_frame
    | with_reducible apply State.svcRegister_frame
    | with_reducible apply State.raiseBy_frame
    | with_reducible apply State.svcResult_frame
    | with_reducible apply Frame.ite

theorem serveCfgHook_frame {m : Nat} {s0 s : State} {a1 a2 a3 a4 : _} (hm : 8391174 ||| m = m) (h : Frame m s0 s) : Frame m s0 (serveCfgHook a1 a2 a3 a4 s) := by
  unfold serveCfgHook
  repeat' first
    | with_reducible assumption
    | ((try lift_lets -underBinder); intro x; clear_value (e : x = _); first | refine (fun hx : Frame m s0 x => ?_) (Frame.ofEq e ?_) | skip)
    | exact mask_sub rfl hm
    | intro x
    | with_reducible apply State.storeSettle_frame
    | with_reducible apply State.setFld_frame
    | with_reducible apply State.placeAll_frame
    | with_reducible apply State.raiseBy_frame
    | with_reducible apply State.takeStore_frame
    | with_reducible apply Frame.ite
    | split
    | with_reducible refine FrameOpt.get' (by assumption) ?_

theorem reserveHook_frame {m : Nat} {s0 s : State} {a1 a2 a3 a4 : _} (hm : 6 ||| m = m) (h : Frame m s0 s) : Frame m s0 (reserveHook a1 a2 a3 a4 s) := by
  unfold reserveHook
  repeat' first
    | with_reducible assumption
    | ((try lift_lets -underBinder); intro x; clear_value (e : x = _); skip)
    | exact mask_sub rfl hm
    | with_reducible apply State.setFld_frame
    | with_reducible apply State.raiseBy_frame
    | with_reducible apply Frame.ite

theorem serveRingHook_frame {m : Nat} {s0 s : State} {a1 a2 a3 a4 a5 : _} (hm : 8388614 ||| m = m) (h : Frame m s0 s) : Frame m s0 (serveRingHook a1 a2 a3 a4 a5 s) := by
  unfold serveRingHook
  repeat' first
    | with_reducible assumption
    | ((try lift_lets -underBinder); intro x; clear_value (e : x = _); refine (fun hx : Frame m s0 x => ?_) (Frame.ofEq e ?_))
    | exact mask_sub rfl hm
    | with_reducible apply State.setServeRing_frame
    | with_reducible apply State.setWord_frame
    | with_reducible apply State.setFld_frame
    | with_reducible apply State.raiseBy_frame
    | with_reducible apply Frame.ite

theorem serveRingFixed_frame {m : Nat} {s0 s : State} {a1 a2 a3 a4 a5 a6 : _} (hm : 6 ||| m = m) (h : Frame m s0 s) : Frame m s0 (serveRingFixed a1 a2 a3 a4 a5 a6 s) := by
  unfold serveRingFixed
  repeat' first
    | with_reducible assumption
    | exact mask_sub rfl hm
    | with_reducible apply State.setWord_frame
    | with_reducible apply State.raiseBy_frame
    | with_reducible apply Frame.ite

/-! Machine/Jobs.lean. -/

theorem State.fetchDesc_frame {m : Nat} {s0 s : State} {a2 a3 : _} (hm : 2048 ||| m = m) (h : Frame m s0 s) : Frame m s0 (State.fetchDesc s a2 a3) := by
  unfold State.fetchDesc
  repeat' first
    | with_reducible assumption
    | ((try lift_lets -underBinder); intro x; clear_value (e : x = _); first | refine (fun hx : Frame m s0 x => ?_) (Frame.ofEq e ?_) | skip)
    | exact mask_sub rfl hm
    | with_reducible apply State.setSq_frame
    | with_reducible apply State.modWork_frame
    | with_reducible apply State.emit_frame
    | with_reducible apply Frame.ite

theorem State.fetchFailed_frame {m : Nat} {s0 s : State} {a2 a3 : _} (hm : 2054 ||| m = m) (h : Frame m s0 s) : Frame m s0 (State.fetchFailed s a2 a3) := by
  unfold State.fetchFailed
  repeat' first
    | with_reducible assumption
    | ((try lift_lets -underBinder); intro x; clear_value (e : x = _); skip)
    | exact mask_sub rfl hm
    | with_reducible apply State.setSq_frame
    | with_reducible apply State.raise_frame

theorem State.flowTake_frame {m : Nat} {s0 s t : State} {fn fl seq id : Nat} (e : s.flowTake fn fl seq id = .inr t) (hm : 4096 ||| m = m) (h : Frame m s0 s) : Frame m s0 t := by
  unfold State.flowTake at e
  dsimp only at e
  split at e
  · cases e
  · split at e
    · cases e
    · split at e
      · cases e
      · split at e
        · cases e
        · cases e
          exact State.modRennet_frame (mask_sub rfl hm) h

theorem State.joinFlow_frame {m : Nat} {s0 s : State} {id : Nat} (hm : 71680 ||| m = m) (h : Frame m s0 s) : Frame m s0 (s.joinFlow id) := by
  unfold State.joinFlow
  repeat' first
    | with_reducible assumption
    | exact mask_sub rfl hm
    | refine State.flowTake_frame (by assumption) (mask_sub rfl hm) ?_
    | with_reducible apply State.markEnded_frame
    | with_reducible apply State.updDesc_frame
    | with_reducible apply Frame.ite
    | split

theorem State.takeDesc_frame {m : Nat} {s0 s : State} {a2 a3 a4 : _} (hm : 106254 ||| m = m) (h : Frame m s0 s) : Frame m s0 (State.takeDesc s a2 a3 a4) := by
  unfold State.takeDesc
  repeat' first
    | with_reducible assumption
    | ((try lift_lets -underBinder); intro x; clear_value (e : x = _); first | refine (fun hx : Frame m s0 x => ?_) (Frame.ofEq e ?_) | skip)
    | exact mask_sub rfl hm
    | with_reducible apply State.joinFlow_frame
    | with_reducible apply State.setSq_frame
    | with_reducible apply State.ringSettle_frame
    | with_reducible apply State.modWork_frame
    | with_reducible apply State.countFn_frame

theorem State.retakeDesc_frame {m : Nat} {s0 s : State} {a2 a3 : _} (hm : 106254 ||| m = m) (h : Frame m s0 s) : Frame m s0 (State.retakeDesc s a2 a3) := by
  unfold State.retakeDesc
  repeat' first
    | with_reducible assumption
    | ((try lift_lets -underBinder); intro x; clear_value (e : x = _); first | refine (fun hx : Frame m s0 x => ?_) (Frame.ofEq e ?_) | skip)
    | exact mask_sub rfl hm
    | with_reducible apply State.modRennet_frame
    | with_reducible apply State.joinFlow_frame
    | with_reducible apply State.setSq_frame
    | with_reducible apply State.ringSettle_frame
    | with_reducible apply State.modWork_frame
    | split

theorem State.fetchDone_frame {m : Nat} {s0 s : State} {a2 a3 a4 a5 : _} (hm : 106254 ||| m = m) (h : Frame m s0 s) : Frame m s0 (State.fetchDone s a2 a3 a4 a5) := by
  unfold State.fetchDone
  repeat' first
    | with_reducible assumption
    | ((try lift_lets -underBinder); intro x; clear_value (e : x = _); skip)
    | exact mask_sub rfl hm
    | with_reducible apply State.setSq_frame
    | with_reducible apply State.fetchFailed_frame
    | with_reducible apply State.takeDesc_frame
    | with_reducible apply State.retakeDesc_frame
    | with_reducible apply Frame.ite
    | split

theorem State.startDesc_frame {m : Nat} {s0 s : State} {id typ} {f : State → Desc → State} (hf : ∀ s d, Frame m s0 s → Frame m s0 (f s d)) (hm : 2048 ||| m = m) (h : Frame m s0 s) : Frame m s0 (s.startDesc id typ f) := by
  unfold State.startDesc
  repeat' first
    | with_reducible assumption
    | with_reducible apply hf
    | with_reducible apply State.updDesc_frame
    | with_reducible apply Frame.ite
    | split

theorem State.memFlaw_frame {m : Nat} {s0 s : State} {a2 a3 : _} (hm : 518 ||| m = m) (h : Frame m s0 s) : Frame m s0 (State.memFlaw s a2 a3) := by
  unfold State.memFlaw
  repeat' first
    | with_reducible assumption
    | ((try lift_lets -underBinder); intro x; clear_value (e : x = _); skip)
    | exact mask_sub rfl hm
    | with_reducible apply State.modTiers_frame
    | with_reducible apply State.raiseOwn_frame
    | with_reducible apply State.tierUe_frame
    | with_reducible apply State.corrected_frame
    | with_reducible apply State.count_frame
    | with_reducible apply State.tierCe_frame
    | with_reducible apply Frame.ite
    | split

theorem State.sliceRun_frame {m : Nat} {s0 s : State} {a2 : _} (hm : 341294926 ||| m = m) (h : Frame m s0 s) : Frame m s0 (State.sliceRun s a2) := by
  unfold State.sliceRun
  repeat' first
    | with_reducible assumption
    | exact mask_sub rfl hm
    | with_reducible apply State.sliceGo_frame
    | with_reducible apply State.updSlice_frame

theorem State.sliceStart_frame {m : Nat} {s0 s : State} {a2 a3 a4 a5 a6 : _} (hm : 341294926 ||| m = m) (h : Frame m s0 s) : Frame m s0 (State.sliceStart s a2 a3 a4 a5 a6) := by
  unfold State.sliceStart
  repeat' first
    | with_reducible assumption
    | ((try lift_lets -underBinder); intro x; clear_value (e : x = _); first | refine (fun hx : Frame m s0 x => ?_) (Frame.ofEq e ?_) | (have _f := fun a => x a; subst e) | skip)
    | exact mask_sub rfl hm
    | intro x
    | with_reducible apply State.modTiers_frame
    | with_reducible apply State.memFlaw_frame
    | with_reducible apply State.updSlice_frame
    | with_reducible apply State.sliceRun_frame
    | with_reducible apply State.count_frame
    | with_reducible apply Frame.ite
    | with_reducible refine Frame.foldl ?_ ?_
    | split

theorem State.extentGrant_frame {m : Nat} {s0 s : State} (hm : 341294926 ||| m = m) (h : Frame m s0 s) : Frame m s0 (State.extentGrant s) := by
  unfold State.extentGrant
  repeat' first
    | with_reducible assumption
    | exact mask_sub rfl hm
    | with_reducible apply State.modTiers_frame
    | with_reducible apply State.updSlice_frame
    | with_reducible apply State.sliceRun_frame
    | with_reducible apply Frame.ite
    | split

theorem State.returnExtents_frame {m : Nat} {s0 s : State} {a2 : _} (hm : 2560 ||| m = m) (h : Frame m s0 s) : Frame m s0 (State.returnExtents s a2) := by
  unfold State.returnExtents
  repeat' first
    | with_reducible assumption
    | exact mask_sub rfl hm
    | intro x
    | with_reducible apply State.updJob_frame
    | with_reducible apply State.giveExtents_frame
    | with_reducible apply Frame.ite
    | with_reducible refine Frame.foldl ?_ ?_
    | split

theorem State.sliceDone_frame {m : Nat} {s0 s : State} {a2 a3 : _} (hm : 369106510 ||| m = m) (h : Frame m s0 s) : Frame m s0 (State.sliceDone s a2 a3) := by
  unfold State.sliceDone
  repeat' first
    | with_reducible assumption
    | ((try lift_lets -underBinder); intro x; clear_value (e : x = _); (have _f := fun a => x a; subst e))
    | exact mask_sub rfl hm
    | with_reducible apply State.updJob_frame
    | with_reducible apply State.snoopFor_frame
    | with_reducible apply State.updSlice_frame
    | with_reducible apply State.placeAll_frame
    | with_reducible apply State.returnExtents_frame
    | with_reducible apply State.endSlice_frame
    | with_reducible apply State.failSlice_frame
    | with_reducible apply feedApply_frame
    | with_reducible apply Frame.ite
    | split
    | with_reducible refine FrameRan.getDone (by assumption) ?_
    | with_reducible refine FrameRan.getFailed (by assumption) ?_

theorem State.sliceEnd_frame {m : Nat} {s0 s : State} {a2 a3 : _} (hm : 369106510 ||| m = m) (h : Frame m s0 s) : Frame m s0 (State.sliceEnd s a2 a3) := by
  unfold State.sliceEnd
  repeat' first
    | with_reducible assumption
    | with_reducible apply State.sliceDone_frame
    | with_reducible apply Frame.ite
    | split

theorem State.sliceBound_frame {m : Nat} {s0 s : State} {a2 a3 : _} (hm : 369106510 ||| m = m) (h : Frame m s0 s) : Frame m s0 (State.sliceBound s a2 a3) := by
  unfold State.sliceBound
  repeat' first
    | with_reducible assumption
    | ((try lift_lets -underBinder); intro x; clear_value (e : x = _); refine (fun hx : Frame m s0 x => ?_) (Frame.ofEq e ?_))
    | exact mask_sub rfl hm
    | with_reducible apply State.sliceDone_frame
    | with_reducible apply State.count_frame
    | with_reducible apply Frame.ite
    | split

theorem State.sendPartEnd_frame {m : Nat} {s0 s : State} {a2 a3 : _} (hm : 32774 ||| m = m) (h : Frame m s0 s) : Frame m s0 (State.sendPartEnd s a2 a3) := by
  unfold State.sendPartEnd
  repeat' first
    | with_reducible assumption
    | ((try lift_lets -underBinder); intro x; clear_value (e : x = _); skip)
    | with_reducible apply State.trySend_frame

theorem State.killsAnswered_frame {m : Nat} {s0 s : State} {a2 : _} (hm : 4227074 ||| m = m) (h : Frame m s0 s) : Frame m s0 (State.killsAnswered s a2) := by
  unfold State.killsAnswered
  repeat' first
    | with_reducible assumption
    | ((try lift_lets -underBinder); intro x; clear_value (e : x = _); skip)
    | exact mask_sub rfl hm
    | intro x
    | with_reducible apply State.reply_frame
    | with_reducible apply State.marked_frame
    | with_reducible apply State.modFabric_frame
    | with_reducible refine Frame.foldl ?_ ?_

theorem State.finishJob_frame {m : Nat} {s0 s : State} {a2 : _} (hm : 13868878 ||| m = m) (h : Frame m s0 s) : Frame m s0 (State.finishJob s a2) := by
  unfold State.finishJob
  repeat' first
    | with_reducible assumption
    | ((try lift_lets -underBinder); intro x; clear_value (e : x = _); first | refine (fun hx : Frame m s0 x => ?_) (Frame.ofEq e ?_) | skip)
    | exact mask_sub rfl hm
    | intro x
    | with_reducible apply State.markEnded_frame
    | with_reducible apply State.freeJob_frame
    | with_reducible apply State.finishServe_frame
    | with_reducible apply State.flowEnd_frame
    | with_reducible apply State.ringSettle_frame
    | with_reducible apply State.updDesc_frame
    | with_reducible apply State.killsAnswered_frame
    | with_reducible apply State.placeAll_frame
    | with_reducible apply State.sendPartEnd_frame
    | split

theorem State.jobSettle_frame {m : Nat} {s0 s : State} {a2 : _} (hm : 13868878 ||| m = m) (h : Frame m s0 s) : Frame m s0 (State.jobSettle s a2) := by
  unfold State.jobSettle
  repeat' first
    | with_reducible assumption
    | exact mask_sub rfl hm
    | with_reducible apply State.cellarFlush_frame
    | with_reducible apply State.finishJob_frame
    | with_reducible apply Frame.ite
    | split

theorem State.intakeRows_frame {m : Nat} {s0 s : State} {a2 : _} (hm : 2 ||| m = m) (h : Frame m s0 s) : Frame m s0 (State.intakeRows s a2) := by
  unfold State.intakeRows
  repeat' first
    | with_reducible assumption
    | ((try lift_lets -underBinder); intro x; clear_value (e : x = _); skip)
    | intro x
    | with_reducible apply State.count_frame
    | with_reducible apply Frame.ite
    | with_reducible refine Frame.foldl ?_ ?_

theorem State.jobFailed_frame {m : Nat} {s0 s : State} {a2 a3 : _} (hm : 13868878 ||| m = m) (h : Frame m s0 s) : Frame m s0 (State.jobFailed s a2 a3) := by
  unfold State.jobFailed
  repeat' first
    | with_reducible assumption
    | ((try lift_lets -underBinder); intro x; clear_value (e : x = _); refine (fun hx : Frame m s0 x => ?_) (Frame.ofEq e ?_))
    | exact mask_sub rfl hm
    | with_reducible apply State.updJob_frame
    | with_reducible apply State.killParts_frame
    | with_reducible apply State.spoilOuts_frame
    | with_reducible apply State.jobSettle_frame

theorem State.jobComplete_frame {m : Nat} {s0 s : State} {a2 : _} (hm : 382967630 ||| m = m) (h : Frame m s0 s) : Frame m s0 (State.jobComplete s a2) := by
  unfold State.jobComplete
  repeat' first
    | with_reducible assumption
    | ((try lift_lets -underBinder); intro x; clear_value (e : x = _); refine (fun hx : Frame m s0 x => ?_) (Frame.ofEq e ?_))
    | exact mask_sub rfl hm
    | with_reducible apply State.failJob_frame
    | with_reducible apply State.intakeRows_frame
    | with_reducible apply State.updJob_frame
    | with_reducible apply State.snoopFor_frame
    | with_reducible apply State.commitAll_frame
    | with_reducible apply State.jobFailed_frame
    | with_reducible apply State.drainCommit_frame
    | with_reducible apply State.jobSettle_frame
    | with_reducible apply Frame.ite
    | split
    | with_reducible refine FrameGot.get' (by assumption) ?_

theorem State.killJob_frame {m : Nat} {s0 s : State} {a2 a3 : _} (hm : 13868878 ||| m = m) (h : Frame m s0 s) : Frame m s0 (State.killJob s a2 a3) := by
  unfold State.killJob
  repeat' first
    | with_reducible assumption
    | ((try lift_lets -underBinder); intro x; clear_value (e : x = _); refine (fun hx : Frame m s0 x => ?_) (Frame.ofEq e ?_))
    | exact mask_sub rfl hm
    | with_reducible apply State.updJob_frame
    | with_reducible apply State.dropSlices_frame
    | with_reducible apply State.killParts_frame
    | with_reducible apply State.finishJob_frame
    | with_reducible apply State.modFabric_frame
    | with_reducible apply State.spoilOuts_frame
    | split

theorem State.killDesc_frame {m : Nat} {s0 s : State} {a2 a3 : _} (hm : 13868878 ||| m = m) (h : Frame m s0 s) : Frame m s0 (State.killDesc s a2 a3) := by
  unfold State.killDesc
  repeat' first
    | with_reducible assumption
    | ((try lift_lets -underBinder); intro x; clear_value (e : x = _); refine (fun hx : Frame m s0 x => ?_) (Frame.ofEq e ?_))
    | exact mask_sub rfl hm
    | with_reducible apply State.markEnded_frame
    | with_reducible apply State.flowEnd_frame
    | with_reducible apply State.ringSettle_frame
    | with_reducible apply State.killJob_frame
    | with_reducible apply State.unstage_frame
    | with_reducible apply Frame.ite
    | split

/-! Machine/TwinOps.lean. -/

theorem State.sendReady_frame {m : Nat} {s0 s : State} {a2 : _} (hm : 34574 ||| m = m) (h : Frame m s0 s) : Frame m s0 (State.sendReady s a2) := by
  unfold State.sendReady
  repeat' first
    | with_reducible assumption
    | exact mask_sub rfl hm
    | with_reducible apply State.parkWrite_frame
    | with_reducible apply State.sendWrites_frame
    | with_reducible apply State.writeOut_frame
    | with_reducible apply Frame.ite
    | with_reducible refine FrameOpt.getD ?_ ?_
    | split

theorem State.letGo_frame {m : Nat} {s0 s : State} {a2 : _} (hm : 4230926 ||| m = m) (h : Frame m s0 s) : Frame m s0 (State.letGo s a2) := by
  unfold State.letGo
  repeat' first
    | with_reducible assumption
    | ((try lift_lets -underBinder); intro x; clear_value (e : x = _); first | refine (fun hx : Frame m s0 x => ?_) (Frame.ofEq e ?_) | skip)
    | exact mask_sub rfl hm
    | intro x
    | with_reducible apply State.answer_frame
    | with_reducible apply State.marked_frame
    | with_reducible apply State.updDesc_frame
    | with_reducible apply State.countLat_frame
    | with_reducible apply State.parkCompletion_frame
    | with_reducible apply State.writeCompletion_frame
    | with_reducible apply State.sendReady_frame
    | with_reducible apply State.emit_frame
    | with_reducible apply Frame.ite
    | with_reducible refine Frame.foldl ?_ ?_
    | split

theorem State.releaseHeld_frame {m : Nat} {s0 s : State} (hm : 4300558 ||| m = m) (h : Frame m s0 s) : Frame m s0 (State.releaseHeld s) := by
  unfold State.releaseHeld
  repeat' first
    | with_reducible assumption
    | ((try lift_lets -underBinder); intro x; clear_value (e : x = _); first | refine (fun hx : Frame m s0 x => ?_) (Frame.ofEq e ?_) | skip)
    | exact mask_sub rfl hm
    | intro x
    | with_reducible apply State.ringSettle_frame
    | with_reducible apply State.letGo_frame
    | with_reducible apply State.modTwin_frame
    | with_reducible apply State.count_frame
    | with_reducible refine Frame.foldl ?_ ?_

theorem State.endCuts_frame {m : Nat} {s0 s : State} {a2 a3 a4 : _} (hm : 106254 ||| m = m) (h : Frame m s0 s) : Frame m s0 (State.endCuts s a2 a3 a4) := by
  unfold State.endCuts
  repeat' first
    | with_reducible assumption
    | ((try lift_lets -underBinder); intro x; clear_value (e : x = _); skip)
    | exact mask_sub rfl hm
    | intro x
    | with_reducible apply State.endDesc_frame
    | with_reducible apply State.modTwin_frame
    | with_reducible refine Frame.foldl ?_ ?_

theorem State.degrade_frame {m : Nat} {s0 s : State} (hm : 4300558 ||| m = m) (h : Frame m s0 s) : Frame m s0 (State.degrade s) := by
  unfold State.degrade
  repeat' first
    | with_reducible assumption
    | ((try lift_lets -underBinder); intro x; clear_value (e : x = _); refine (fun hx : Frame m s0 x => ?_) (Frame.ofEq e ?_))
    | exact mask_sub rfl hm
    | with_reducible apply State.raiseOwn_frame
    | with_reducible apply State.releaseHeld_frame
    | with_reducible apply State.modFabric_frame
    | with_reducible apply State.endCuts_frame
    | with_reducible apply State.modTwin_frame
    | with_reducible apply State.count_frame
    | with_reducible apply Frame.ite

/-! Machine/LinkOps.lean. -/

theorem State.twinLinkLeft_frame {m : Nat} {s0 s : State} {a2 : _} (hm : 4300558 ||| m = m) (h : Frame m s0 s) : Frame m s0 (State.twinLinkLeft s a2) := by
  unfold State.twinLinkLeft
  repeat' with_reducible first
    | assumption
    | apply State.degrade_frame
    | apply Frame.ite

theorem State.oosSettle_frame {m : Nat} {s0 s : State} {a2 : _} (hm : 32768 ||| m = m) (h : Frame m s0 s) : Frame m s0 (State.oosSettle s a2) := by
  unfold State.oosSettle
  repeat' first
    | with_reducible assumption
    | ((try lift_lets -underBinder); intro x; clear_value (e : x = _); skip)
    | with_reducible apply State.setLink_frame
    | with_reducible apply Frame.ite

theorem State.serveLink_frame {m : Nat} {s0 s : State} {a2 a3 : _} (hm : 4300558 ||| m = m) (h : Frame m s0 s) : Frame m s0 (State.serveLink s a2 a3) := by
  unfold State.serveLink
  repeat' first
    | with_reducible assumption
    | ((try lift_lets -underBinder); intro x; clear_value (e : x = _); skip)
    | exact mask_sub rfl hm
    | with_reducible apply State.linkPump_frame
    | with_reducible apply State.oosSettle_frame
    | with_reducible apply State.twinLinkLeft_frame
    | with_reducible apply State.setLink_frame
    | with_reducible apply Frame.ite

theorem State.applyRoute_frame {m : Nat} {s0 s : State} {a2 : _} (hm : 4300558 ||| m = m) (h : Frame m s0 s) : Frame m s0 (State.applyRoute s a2) := by
  unfold State.applyRoute
  repeat' first
    | with_reducible assumption
    | ((try lift_lets -underBinder); intro x; clear_value (e : x = _); first | refine (fun hx : Frame m s0 x => ?_) (Frame.ofEq e ?_) | skip)
    | exact mask_sub rfl hm
    | intro x
    | with_reducible apply State.setFld_frame
    | with_reducible apply State.modFabric_frame
    | with_reducible apply State.serveLink_frame
    | with_reducible refine Frame.foldl ?_ ?_
    | split

theorem State.routeHere_frame {m : Nat} {s0 s : State} {a2 : _} (hm : 4300558 ||| m = m) (h : Frame m s0 s) : Frame m s0 (State.routeHere s a2) := by
  unfold State.routeHere
  repeat' first
    | with_reducible assumption
    | ((try lift_lets -underBinder); intro x; clear_value (e : x = _); refine (fun hx : Frame m s0 x => ?_) (Frame.ofEq e ?_))
    | exact mask_sub rfl hm
    | with_reducible apply State.applyRoute_frame
    | with_reducible apply State.modFabric_frame
    | with_reducible apply Frame.ite

theorem State.issueRoute_frame {m : Nat} {s0 s : State} {k e n l} (hm : 4300558 ||| m = m) (h : Frame m s0 s) : Frame m s0 (s.issueRoute k e n l) := by
  induction n generalizing s l with
  | zero =>
    unfold State.issueRoute
    repeat' with_reducible assumption
  | succ n ih =>
    unfold State.issueRoute
    repeat' first
      | with_reducible assumption
      | ((try lift_lets -underBinder); intro x; clear_value (e : x = _); first | refine (fun hx : Frame m s0 x => ?_) (Frame.ofEq e ?_) | skip)
      | exact mask_sub rfl hm
      | intro x
      | with_reducible apply ih
      | with_reducible apply State.sendCtrl_frame
      | with_reducible apply State.routeHere_frame
      | with_reducible apply State.modFabric_frame
      | with_reducible apply Frame.ite
      | with_reducible refine Frame.foldl ?_ ?_

theorem State.formOn_frame {m : Nat} {s0 s : State} {a2 : _} (hm : 32770 ||| m = m) (h : Frame m s0 s) : Frame m s0 (State.formOn s a2) := by
  unfold State.formOn
  repeat' with_reducible first
    | assumption
    | apply State.sendOnLink_frame

theorem State.linkHeard_frame {m : Nat} {s0 s : State} {a2 : _} (hm : 4300558 ||| m = m) (h : Frame m s0 s) : Frame m s0 (State.linkHeard s a2) := by
  unfold State.linkHeard
  repeat' first
    | with_reducible assumption
    | ((try lift_lets -underBinder); intro x; clear_value (e : x = _); first | refine (fun hx : Frame m s0 x => ?_) (Frame.ofEq e ?_) | skip)
    | exact mask_sub rfl hm
    | with_reducible apply State.sendCtrl_frame
    | with_reducible apply State.issueRoute_frame
    | with_reducible apply State.modFabric_frame
    | with_reducible apply State.formOn_frame
    | with_reducible apply Frame.ite

theorem State.tellLink_frame {m : Nat} {s0 s : State} {a2 a3 : _} (hm : 4300558 ||| m = m) (h : Frame m s0 s) : Frame m s0 (State.tellLink s a2 a3) := by
  unfold State.tellLink
  repeat' first
    | with_reducible assumption
    | ((try lift_lets -underBinder); intro x; clear_value (e : x = _); skip)
    | exact mask_sub rfl hm
    | with_reducible apply State.sendCtrl_frame
    | with_reducible apply State.linkHeard_frame
    | with_reducible apply Frame.ite

theorem State.linkDrop_frame {m : Nat} {s0 s : State} {k} {f : State → State} (hf : ∀ s, Frame m s0 s → Frame m s0 (f s)) (hm : 4300558 ||| m = m) (h : Frame m s0 s) : Frame m s0 (State.linkDrop s k f) := by
  unfold State.linkDrop
  repeat' first
    | with_reducible assumption
    | ((try lift_lets -underBinder); intro x; clear_value (e : x = _); first | refine (fun hx : Frame m s0 x => ?_) (Frame.ofEq e ?_) | skip)
    | exact mask_sub rfl hm
    | with_reducible apply hf
    | with_reducible apply State.tellLink_frame
    | with_reducible apply State.raiseOwn_frame
    | with_reducible apply State.oosSettle_frame
    | with_reducible apply State.twinLinkLeft_frame
    | with_reducible apply State.setLink_frame
    | with_reducible apply State.count_frame
    | with_reducible apply Frame.ite

theorem State.linkDown_frame {m : Nat} {s0 s : State} {a2 : _} (hm : 339844878 ||| m = m) (h : Frame m s0 s) : Frame m s0 (State.linkDown s a2) := by
  unfold State.linkDown
  repeat' first
    | with_reducible assumption
    | exact mask_sub rfl hm
    | intro x
    | with_reducible apply State.fault_frame
    | with_reducible apply State.linkDrop_frame
    | with_reducible apply Frame.ite

theorem State.linkTrain_frame {m : Nat} {s0 s : State} {a2 : _} (hm : 32768 ||| m = m) (h : Frame m s0 s) : Frame m s0 (State.linkTrain s a2) := by
  unfold State.linkTrain
  repeat' first
    | with_reducible assumption
    | ((try lift_lets -underBinder); intro x; clear_value (e : x = _); skip)
    | with_reducible apply State.setLink_frame
    | with_reducible apply Frame.ite

theorem State.calLearn_frame {m : Nat} {s0 s : State} {a2 a3 : _} (hm : 128 ||| m = m) (h : Frame m s0 s) : Frame m s0 (State.calLearn s a2 a3) := by
  unfold State.calLearn
  repeat' with_reducible first
    | assumption
    | apply State.modCal_frame

theorem State.trainingDone_frame {m : Nat} {s0 s : State} {a2 a3 a4 a5 a6 : _} (hm : 339845006 ||| m = m) (h : Frame m s0 s) : Frame m s0 (State.trainingDone s a2 a3 a4 a5 a6) := by
  unfold State.trainingDone
  repeat' first
    | with_reducible assumption
    | ((try lift_lets -underBinder); intro x; clear_value (e : x = _); first | refine (fun hx : Frame m s0 x => ?_) (Frame.ofEq e ?_) | skip)
    | exact mask_sub rfl hm
    | with_reducible apply State.linkCtrl_frame
    | with_reducible apply State.linkDown_frame
    | with_reducible apply State.calLearn_frame
    | with_reducible apply State.setLink_frame
    | with_reducible apply Frame.ite

theorem State.linkSpare_frame {m : Nat} {s0 s : State} {a2 : _} (hm : 6397710 ||| m = m) (h : Frame m s0 s) : Frame m s0 (State.linkSpare s a2) := by
  unfold State.linkSpare
  repeat' first
    | with_reducible assumption
    | ((try lift_lets -underBinder); intro x; clear_value (e : x = _); first | refine (fun hx : Frame m s0 x => ?_) (Frame.ofEq e ?_) | skip)
    | exact mask_sub rfl hm
    | with_reducible apply State.tellLink_frame
    | with_reducible apply State.setFld_frame
    | with_reducible apply State.sendOnLink_frame
    | with_reducible apply State.setLink_frame
    | with_reducible apply State.modHerd_frame
    | with_reducible apply Frame.ite

theorem State.authFail_frame {m : Nat} {s0 s : State} {a2 : _} (hm : 339844878 ||| m = m) (h : Frame m s0 s) : Frame m s0 (State.authFail s a2) := by
  unfold State.authFail
  repeat' first
    | with_reducible assumption
    | exact mask_sub rfl hm
    | with_reducible apply State.linkDown_frame
    | with_reducible apply State.raiseOwn_frame

theorem State.sendAuth_frame {m : Nat} {s0 s : State} {a2 a3 a4 : _} (hm : 32770 ||| m = m) (h : Frame m s0 s) : Frame m s0 (State.sendAuth s a2 a3 a4) := by
  unfold State.sendAuth
  repeat' first
    | with_reducible assumption
    | intro x
    | with_reducible apply State.linkCtrl_frame
    | with_reducible refine Frame.foldl ?_ ?_

theorem State.authStart_frame {m : Nat} {s0 s : State} {a2 : _} (hm : 32770 ||| m = m) (h : Frame m s0 s) : Frame m s0 (State.authStart s a2) := by
  unfold State.authStart
  repeat' first
    | with_reducible assumption
    | ((try lift_lets -underBinder); intro x; clear_value (e : x = _); first | refine (fun hx : Frame m s0 x => ?_) (Frame.ofEq e ?_) | skip)
    | exact mask_sub rfl hm
    | with_reducible exact Kept.rfl
    | with_reducible apply State.sendAuth_frame
    | with_reducible apply State.setLink_frame
    | with_reducible refine Frame.litUsed rfl ?_ ?_ ?_ ?_ ?_ ?_ ?_ ?_ ?_ ?_ ?_ ?_ ?_ ?_ ?_ ?_ ?_ ?_ ?_ ?_ ?_ ?_ ?_ ?_ ?_ ?_ ?_ ?_

theorem State.configFlit_frame {m : Nat} {s0 s : State} {a2 a3 : _} (hm : 341942030 ||| m = m) (h : Frame m s0 s) : Frame m s0 (State.configFlit s a2 a3) := by
  unfold State.configFlit
  repeat' first
    | with_reducible assumption
    | ((try lift_lets -underBinder); intro x; clear_value (e : x = _); first | refine (fun hx : Frame m s0 x => ?_) (Frame.ofEq e ?_) | skip)
    | exact mask_sub rfl hm
    | with_reducible apply State.sendAuth_frame
    | with_reducible apply State.authFail_frame
    | with_reducible apply State.linkDown_frame
    | with_reducible apply State.raiseOwn_frame
    | with_reducible apply State.linkSpare_frame
    | with_reducible apply State.authStart_frame
    | with_reducible apply State.setLink_frame
    | with_reducible apply Frame.ite

theorem State.authFlit_frame {m : Nat} {s0 s : State} {a2 a3 : _} (hm : 341942030 ||| m = m) (h : Frame m s0 s) : Frame m s0 (State.authFlit s a2 a3) := by
  unfold State.authFlit
  repeat' first
    | with_reducible assumption
    | ((try lift_lets -underBinder); intro x; clear_value (e : x = _); first | refine (fun hx : Frame m s0 x => ?_) (Frame.ofEq e ?_) | skip)
    | exact mask_sub rfl hm
    | with_reducible apply State.sendAuth_frame
    | with_reducible apply State.authFail_frame
    | with_reducible apply State.linkSpare_frame
    | with_reducible apply State.setLink_frame
    | with_reducible apply Frame.ite
    | split

theorem State.retrain_frame {m : Nat} {s0 s : State} {a2 a3 : _} (hm : 4300558 ||| m = m) (h : Frame m s0 s) : Frame m s0 (State.retrain s a2 a3) := by
  unfold State.retrain
  repeat' first
    | with_reducible assumption
    | ((try lift_lets -underBinder); intro x; clear_value (e : x = _); first | refine (fun hx : Frame m s0 x => ?_) (Frame.ofEq e ?_) | skip)
    | exact mask_sub rfl hm
    | with_reducible apply State.linkCtrl_frame
    | with_reducible apply State.raiseOwn_frame
    | with_reducible apply State.twinLinkLeft_frame
    | with_reducible apply State.setLink_frame
    | with_reducible apply State.count_frame
    | with_reducible apply Frame.ite

theorem State.replay_frame {m : Nat} {s0 s : State} {a2 a3 : _} (hm : 4300558 ||| m = m) (h : Frame m s0 s) : Frame m s0 (State.replay s a2 a3) := by
  unfold State.replay
  repeat' first
    | with_reducible assumption
    | ((try lift_lets -underBinder); intro x; clear_value (e : x = _); first | refine (fun hx : Frame m s0 x => ?_) (Frame.ofEq e ?_) | skip)
    | exact mask_sub rfl hm
    | intro x
    | with_reducible apply State.corrected_frame
    | with_reducible apply State.setLink_frame
    | with_reducible apply State.retrain_frame
    | with_reducible apply State.count_frame
    | with_reducible apply State.emit_frame
    | with_reducible apply Frame.ite
    | with_reducible refine Frame.foldl ?_ ?_

theorem State.retrained_frame {m : Nat} {s0 s : State} {a2 : _} (hm : 4300558 ||| m = m) (h : Frame m s0 s) : Frame m s0 (State.retrained s a2) := by
  unfold State.retrained
  repeat' first
    | with_reducible assumption
    | ((try lift_lets -underBinder); intro x; clear_value (e : x = _); first | refine (fun hx : Frame m s0 x => ?_) (Frame.ofEq e ?_) | skip)
    | exact mask_sub rfl hm
    | with_reducible apply State.replay_frame
    | with_reducible apply State.linkPump_frame
    | with_reducible apply State.oosSettle_frame
    | with_reducible apply State.setLink_frame
    | with_reducible apply Frame.ite

theorem State.takeAck_frame {m : Nat} {s0 s : State} {a2 a3 : _} (hm : 32768 ||| m = m) (h : Frame m s0 s) : Frame m s0 (State.takeAck s a2 a3) := by
  unfold State.takeAck
  repeat' first
    | with_reducible assumption
    | ((try lift_lets -underBinder); intro x; clear_value (e : x = _); skip)
    | with_reducible apply State.oosSettle_frame
    | with_reducible apply State.setLink_frame
    | split

theorem State.sendNak_frame {m : Nat} {s0 s : State} {a2 : _} (hm : 32770 ||| m = m) (h : Frame m s0 s) : Frame m s0 (State.sendNak s a2) := by
  unfold State.sendNak
  repeat' first
    | with_reducible assumption
    | ((try lift_lets -underBinder); intro x; clear_value (e : x = _); skip)
    | exact mask_sub rfl hm
    | with_reducible apply State.linkCtrl_frame
    | with_reducible apply State.setLink_frame
    | with_reducible apply Frame.ite

theorem State.messageIn_frame {m : Nat} {s0 s : State} {a2 a3 a4 a5 : _} (hm : 98306 ||| m = m) (h : Frame m s0 s) : Frame m s0 (State.messageIn s a2 a3 a4 a5) := by
  unfold State.messageIn
  repeat' first
    | with_reducible assumption
    | ((try lift_lets -underBinder); intro x; clear_value (e : x = _); first | refine (fun hx : Frame m s0 x => ?_) (Frame.ofEq e ?_) | skip)
    | exact mask_sub rfl hm
    | with_reducible apply State.broadcast_frame
    | with_reducible apply State.forward_frame
    | with_reducible apply State.modTwin_frame
    | with_reducible apply State.count_frame
    | with_reducible apply State.emit_frame
    | with_reducible apply Frame.ite

theorem State.flitIn_frame {m : Nat} {s0 s : State} {a2 a3 : _} (hm : 98306 ||| m = m) (h : Frame m s0 s) : Frame m s0 (State.flitIn s a2 a3) := by
  unfold State.flitIn
  repeat' first
    | with_reducible assumption
    | ((try lift_lets -underBinder); intro x; clear_value (e : x = _); first | refine (fun hx : Frame m s0 x => ?_) (Frame.ofEq e ?_) | skip)
    | exact mask_sub rfl hm
    | with_reducible apply State.messageIn_frame
    | with_reducible apply State.setLink_frame
    | with_reducible apply State.count_frame
    | with_reducible apply State.emit_frame
    | with_reducible apply Frame.ite

theorem State.flitReceive_frame {m : Nat} {s0 s : State} {a2 a3 : _} (hm : 98310 ||| m = m) (h : Frame m s0 s) : Frame m s0 (State.flitReceive s a2 a3) := by
  unfold State.flitReceive
  repeat' first
    | with_reducible assumption
    | ((try lift_lets -underBinder); intro x; clear_value (e : x = _); first | refine (fun hx : Frame m s0 x => ?_) (Frame.ofEq e ?_) | skip)
    | exact mask_sub rfl hm
    | with_reducible apply State.takeAck_frame
    | with_reducible apply State.sendNak_frame
    | with_reducible apply State.raiseOwn_frame
    | with_reducible apply State.linkPump_frame
    | with_reducible apply State.setLink_frame
    | with_reducible apply State.flitIn_frame
    | with_reducible apply State.count_frame
    | with_reducible apply Frame.ite

theorem State.nak_frame {m : Nat} {s0 s : State} {a2 a3 : _} (hm : 4300558 ||| m = m) (h : Frame m s0 s) : Frame m s0 (State.nak s a2 a3) := by
  unfold State.nak
  repeat' with_reducible first
    | assumption
    | apply State.replay_frame
    | apply Frame.ite

theorem State.ackTimeout_frame {m : Nat} {s0 s : State} {a2 : _} (hm : 4300558 ||| m = m) (h : Frame m s0 s) : Frame m s0 (State.ackTimeout s a2) := by
  unfold State.ackTimeout
  repeat' first
    | with_reducible assumption
    | ((try lift_lets -underBinder); intro x; clear_value (e : x = _); skip)
    | with_reducible apply State.replay_frame
    | with_reducible apply Frame.ite

theorem State.linkService_frame {m : Nat} {s0 s : State} {a2 a3 : _} (hm : 4300558 ||| m = m) (h : Frame m s0 s) : Frame m s0 (State.linkService s a2 a3) := by
  unfold State.linkService
  repeat' first
    | with_reducible assumption
    | ((try lift_lets -underBinder); intro x; clear_value (e : x = _); skip)
    | exact mask_sub rfl hm
    | with_reducible apply State.tellLink_frame
    | with_reducible apply State.oosSettle_frame
    | with_reducible apply State.setLink_frame
    | with_reducible apply Frame.ite

/-! Machine/HostedOps.lean. -/

theorem State.twinCut_frame {m : Nat} {s0 s : State} {a2 a3 a4 a5 : _} (hm : 98822 ||| m = m) (h : Frame m s0 s) : Frame m s0 (State.twinCut s a2 a3 a4 a5) := by
  unfold State.twinCut
  repeat' first
    | with_reducible assumption
    | ((try lift_lets -underBinder); intro x; clear_value (e : x = _); first | refine (fun hx : Frame m s0 x => ?_) (Frame.ofEq e ?_) | (have _f := fun a => x a; subst e) | skip)
    | exact mask_sub rfl hm
    | with_reducible apply State.modTiers_frame
    | with_reducible apply State.raiseOwn_frame
    | with_reducible apply State.sendOnLink_frame
    | with_reducible apply State.modTwin_frame
    | with_reducible apply Frame.ite

theorem State.joinTables_frame {m : Nat} {s0 s : State} {a2 : _} (hm : 1049102 ||| m = m) (h : Frame m s0 s) : Frame m s0 (State.joinTables s a2) := by
  unfold State.joinTables
  repeat' first
    | with_reducible assumption
    | ((try lift_lets -underBinder); intro x; clear_value (e : x = _); first | refine (fun hx : Frame m s0 x => ?_) (Frame.ofEq e ?_) | skip)
    | exact mask_sub rfl hm
    | intro x
    | with_reducible apply State.updTable_frame
    | with_reducible apply State.putRows_frame
    | with_reducible apply State.setLog_frame
    | with_reducible refine Frame.foldl ?_ ?_
    | with_reducible refine FrameOpt.getD ?_ ?_

theorem State.joinPress_frame {m : Nat} {s0 s : State} {a2 a3 : _} (hm : 2048 ||| m = m) (h : Frame m s0 s) : Frame m s0 (State.joinPress s a2 a3) := by
  unfold State.joinPress
  repeat' first
    | with_reducible assumption
    | ((try lift_lets -underBinder); intro x; clear_value (e : x = _); skip)
    | intro x
    | with_reducible apply State.setJoin_frame
    | with_reducible apply Frame.ite
    | with_reducible refine Frame.foldl ?_ ?_
    | split

theorem State.hostNode_frame {m : Nat} {s0 s : State} {a2 : _} (hm : 340855310 ||| m = m) (h : Frame m s0 s) : Frame m s0 (State.hostNode s a2) := by
  unfold State.hostNode
  repeat' first
    | with_reducible assumption
    | ((try lift_lets -underBinder); intro x; clear_value (e : x = _); first | refine (fun hx : Frame m s0 x => ?_) (Frame.ofEq e ?_) | (have _f := fun a => x a; subst e) | skip)
    | exact mask_sub rfl hm
    | with_reducible exact Kept.rfl
    | exact Kept.mask (mask_sub rfl hm)
    | intro x
    | with_reducible apply State.joinTables_frame
    | with_reducible apply State.joinPress_frame
    | with_reducible apply State.raiseOwn_frame
    | with_reducible apply State.modTwin_frame
    | with_reducible apply State.faultRecord_frame
    | with_reducible apply State.count_frame
    | with_reducible refine Frame.foldl ?_ ?_
    | with_reducible refine Frame.lit rfl ?_ ?_ ?_ ?_ ?_ ?_ ?_ ?_ ?_ ?_ ?_ ?_ ?_ ?_ ?_ ?_ ?_ ?_ ?_ ?_ ?_ ?_ ?_ ?_ ?_ ?_ ?_ ?_

theorem State.hostedTide_frame {m : Nat} {s0 s : State} {a2 a3 : _} (hm : 4194304 ||| m = m) (h : Frame m s0 s) : Frame m s0 (State.hostedTide s a2 a3) := by
  unfold State.hostedTide
  repeat' first
    | with_reducible assumption
    | ((try lift_lets -underBinder); intro x; clear_value (e : x = _); skip)
    | with_reducible exact Kept.rfl
    | exact Kept.mask (mask_sub rfl hm)
    | with_reducible apply Frame.ite
    | with_reducible refine Frame.litUsed rfl ?_ ?_ ?_ ?_ ?_ ?_ ?_ ?_ ?_ ?_ ?_ ?_ ?_ ?_ ?_ ?_ ?_ ?_ ?_ ?_ ?_ ?_ ?_ ?_ ?_ ?_ ?_ ?_

theorem State.sendMirror_frame {m : Nat} {s0 s : State} {a2 a3 a4 a5 : _} (hm : 32770 ||| m = m) (h : Frame m s0 s) : Frame m s0 (State.sendMirror s a2 a3 a4 a5) := by
  unfold State.sendMirror
  repeat' first
    | with_reducible assumption
    | ((try lift_lets -underBinder); intro x; clear_value (e : x = _); first | refine (fun hx : Frame m s0 x => ?_) (Frame.ofEq e ?_) | skip)
    | exact mask_sub rfl hm
    | intro x
    | with_reducible apply State.linkSend_frame
    | with_reducible apply State.modFabric_frame
    | with_reducible apply State.count_frame
    | with_reducible apply State.emit_frame
    | with_reducible refine Frame.foldl ?_ ?_

theorem State.startReturn_frame {m : Nat} {s0 s : State} {a2 : _} (hm : 98306 ||| m = m) (h : Frame m s0 s) : Frame m s0 (State.startReturn s a2) := by
  unfold State.startReturn
  repeat' first
    | with_reducible assumption
    | exact mask_sub rfl hm
    | intro x
    | with_reducible apply State.modTwin_frame
    | with_reducible apply State.sendMirror_frame
    | with_reducible refine Frame.foldl ?_ ?_
    | split

theorem State.stopHosting_frame {m : Nat} {s0 s : State} {a2 : _} (hm : 5308942 ||| m = m) (h : Frame m s0 s) : Frame m s0 (State.stopHosting s a2) := by
  unfold State.stopHosting
  repeat' first
    | with_reducible assumption
    | ((try lift_lets -underBinder); intro x; clear_value (e : x = _); refine (fun hx : Frame m s0 x => ?_) (Frame.ofEq e ?_))
    | exact mask_sub rfl hm
    | with_reducible exact Kept.rfl
    | exact Kept.mask (mask_sub rfl hm)
    | intro x
    | with_reducible apply State.dropRows_frame
    | with_reducible apply State.modTiers_frame
    | with_reducible apply State.setLog_frame
    | with_reducible apply State.modTwin_frame
    | with_reducible apply Frame.ite
    | with_reducible refine Frame.foldl ?_ ?_
    | with_reducible refine FrameOpt.getD ?_ ?_
    | with_reducible refine Frame.lit rfl ?_ ?_ ?_ ?_ ?_ ?_ ?_ ?_ ?_ ?_ ?_ ?_ ?_ ?_ ?_ ?_ ?_ ?_ ?_ ?_ ?_ ?_ ?_ ?_ ?_ ?_ ?_ ?_

theorem State.resumeState_frame {m : Nat} {s0 s : State} (hm : 34838030 ||| m = m) (h : Frame m s0 s) : Frame m s0 (State.resumeState s) := by
  unfold State.resumeState
  repeat' first
    | with_reducible assumption
    | ((try lift_lets -underBinder); intro x; clear_value (e : x = _); first | refine (fun hx : Frame m s0 x => ?_) (Frame.ofEq e ?_) | (have _f := fun a => x a; subst e) | skip)
    | exact mask_sub rfl hm
    | intro x
    | with_reducible apply State.modRennet_frame
    | with_reducible apply State.modSession_frame
    | with_reducible apply State.joinTables_frame
    | with_reducible apply State.setWord_frame
    | with_reducible apply State.setFld_frame
    | with_reducible apply State.setBank_frame
    | with_reducible apply State.setStore_frame
    | with_reducible apply State.modFabric_frame
    | with_reducible apply State.setPark_frame
    | with_reducible apply State.modTwin_frame
    | with_reducible apply Frame.ite
    | with_reducible refine Frame.foldl ?_ ?_

/-! Machine/HerdOps.lean. -/

theorem State.sendFrom_frame {m : Nat} {s0 s : State} {a2 a3 a4 a5 : _} (hm : 32770 ||| m = m) (h : Frame m s0 s) : Frame m s0 (State.sendFrom s a2 a3 a4 a5) := by
  unfold State.sendFrom
  repeat' first
    | with_reducible assumption
    | ((try lift_lets -underBinder); intro x; clear_value (e : x = _); skip)
    | exact mask_sub rfl hm
    | with_reducible apply State.linkSend_frame
    | with_reducible apply State.emit_frame
    | with_reducible apply Frame.ite

theorem State.sendUp_frame {m : Nat} {s0 s : State} {a2 a3 : _} (hm : 32770 ||| m = m) (h : Frame m s0 s) : Frame m s0 (State.sendUp s a2 a3) := by
  unfold State.sendUp
  repeat' first
    | with_reducible assumption
    | with_reducible apply State.sendFrom_frame
    | with_reducible apply State.forward_frame
    | with_reducible apply Frame.ite
    | split

theorem State.pairForm_frame {m : Nat} {s0 s : State} {a2 : _} (hm : 66048 ||| m = m) (h : Frame m s0 s) : Frame m s0 (State.pairForm s a2) := by
  unfold State.pairForm
  repeat' first
    | with_reducible assumption
    | ((try lift_lets -underBinder); intro x; clear_value (e : x = _); refine (fun hx : Frame m s0 x => ?_) (Frame.ofEq e ?_))
    | exact mask_sub rfl hm
    | with_reducible apply State.modTiers_frame
    | with_reducible apply State.modTwin_frame

theorem State.pairHeard_frame {m : Nat} {s0 s : State} {a2 a3 a4 : _} (hm : 98822 ||| m = m) (h : Frame m s0 s) : Frame m s0 (State.pairHeard s a2 a3 a4) := by
  unfold State.pairHeard
  repeat' first
    | with_reducible assumption
    | ((try lift_lets -underBinder); intro x; clear_value (e : x = _); refine (fun hx : Frame m s0 x => ?_) (Frame.ofEq e ?_))
    | exact mask_sub rfl hm
    | intro x
    | with_reducible apply State.sendCtrl_frame
    | with_reducible apply State.raiseOwn_frame
    | with_reducible apply State.pairForm_frame
    | with_reducible apply State.modTwin_frame
    | with_reducible apply Frame.ite
    | with_reducible refine Frame.foldl ?_ ?_
    | split

theorem State.pairCheck_frame {m : Nat} {s0 s : State} (hm : 65542 ||| m = m) (h : Frame m s0 s) : Frame m s0 (State.pairCheck s) := by
  unfold State.pairCheck
  repeat' first
    | with_reducible assumption
    | ((try lift_lets -underBinder); intro x; clear_value (e : x = _); refine (fun hx : Frame m s0 x => ?_) (Frame.ofEq e ?_))
    | exact mask_sub rfl hm
    | intro x
    | with_reducible apply State.raiseOwn_frame
    | with_reducible apply State.modTwin_frame
    | with_reducible apply Frame.ite
    | with_reducible refine Frame.foldl ?_ ?_

theorem State.pairSettle_frame {m : Nat} {s0 s : State} (hm : 98822 ||| m = m) (h : Frame m s0 s) : Frame m s0 (State.pairSettle s) := by
  unfold State.pairSettle
  repeat' first
    | with_reducible assumption
    | ((try lift_lets -underBinder); intro x; clear_value (e : x = _); first | refine (fun hx : Frame m s0 x => ?_) (Frame.ofEq e ?_) | skip)
    | exact mask_sub rfl hm
    | with_reducible apply State.sendCtrl_frame
    | with_reducible apply State.pairHeard_frame
    | with_reducible apply State.modTwin_frame
    | with_reducible apply Frame.ite
    | split

theorem State.becomeMember_frame {m : Nat} {s0 s : State} {a2 : _} (hm : 2113538 ||| m = m) (h : Frame m s0 s) : Frame m s0 (State.becomeMember s a2) := by
  unfold State.becomeMember
  repeat' first
    | with_reducible assumption
    | ((try lift_lets -underBinder); intro x; clear_value (e : x = _); refine (fun hx : Frame m s0 x => ?_) (Frame.ofEq e ?_))
    | exact mask_sub rfl hm
    | with_reducible exact Kept.rfl
    | exact Kept.mask (mask_sub rfl hm)
    | with_reducible apply State.setFld_frame
    | with_reducible apply State.modHerd_frame
    | with_reducible refine Frame.lit rfl ?_ ?_ ?_ ?_ ?_ ?_ ?_ ?_ ?_ ?_ ?_ ?_ ?_ ?_ ?_ ?_ ?_ ?_ ?_ ?_ ?_ ?_ ?_ ?_ ?_ ?_ ?_ ?_

theorem State.becomeAlone_frame {m : Nat} {s0 s : State} {a2 : _} (hm : 2146306 ||| m = m) (h : Frame m s0 s) : Frame m s0 (State.becomeAlone s a2) := by
  unfold State.becomeAlone
  repeat' first
    | with_reducible assumption
    | ((try lift_lets -underBinder); intro x; clear_value (e : x = _); refine (fun hx : Frame m s0 x => ?_) (Frame.ofEq e ?_))
    | exact mask_sub rfl hm
    | with_reducible exact Kept.rfl
    | exact Kept.mask (mask_sub rfl hm)
    | with_reducible apply State.setFld_frame
    | with_reducible apply State.modFabric_frame
    | with_reducible apply State.modHerd_frame
    | with_reducible refine Frame.lit rfl ?_ ?_ ?_ ?_ ?_ ?_ ?_ ?_ ?_ ?_ ?_ ?_ ?_ ?_ ?_ ?_ ?_ ?_ ?_ ?_ ?_ ?_ ?_ ?_ ?_ ?_ ?_ ?_

theorem State.awaitReports_frame {m : Nat} {s0 s : State} {a2 : _} (hm : 8192 ||| m = m) (h : Frame m s0 s) : Frame m s0 (State.awaitReports s a2) := by
  unfold State.awaitReports
  repeat' with_reducible first
    | assumption
    | apply State.modTide_frame

theorem State.applySet_frame {m : Nat} {s0 s : State} {a2 : _} (hm : 376700686 ||| m = m) (h : Frame m s0 s) : Frame m s0 (State.applySet s a2) := by
  unfold State.applySet
  repeat' first
    | with_reducible assumption
    | ((try lift_lets -underBinder); intro x; clear_value (e : x = _); first | refine (fun hx : Frame m s0 x => ?_) (Frame.ofEq e ?_) | skip)
    | exact mask_sub rfl hm
    | intro x
    | with_reducible apply State.fault_frame
    | with_reducible apply State.becomeAlone_frame
    | with_reducible apply State.reassign_frame
    | with_reducible apply State.pairSettle_frame
    | with_reducible apply State.resumeState_frame
    | with_reducible apply State.hostNode_frame
    | with_reducible apply State.modFabric_frame
    | with_reducible apply State.degrade_frame
    | with_reducible apply State.becomeMember_frame
    | with_reducible apply State.modTwin_frame
    | with_reducible apply State.tblHeard_frame
    | with_reducible apply State.stopHosting_frame
    | with_reducible apply State.count_frame
    | with_reducible apply State.awaitReports_frame
    | with_reducible apply State.modTide_frame
    | with_reducible apply State.modHerd_frame
    | with_reducible apply State.serveLink_frame
    | with_reducible apply Frame.ite
    | with_reducible refine Frame.foldl ?_ ?_
    | split

theorem State.setSettle_frame {m : Nat} {s0 s : State} {t n} (hm : 376700686 ||| m = m) (h : Frame m s0 s) : Frame m s0 (State.setSettle t n s) := by
  induction n generalizing s with
  | zero =>
    unfold State.setSettle
    repeat' with_reducible assumption
  | succ n ih =>
    unfold State.setSettle
    repeat' first
      | with_reducible assumption
      | ((try lift_lets -underBinder); intro x; clear_value (e : x = _); skip)
      | with_reducible apply ih
      | with_reducible apply State.applySet_frame
      | with_reducible apply Frame.ite
      | split

theorem State.holdSet_frame {m : Nat} {s0 s : State} {a2 : _} (hm : 376700686 ||| m = m) (h : Frame m s0 s) : Frame m s0 (State.holdSet s a2) := by
  unfold State.holdSet
  repeat' first
    | with_reducible assumption
    | ((try lift_lets -underBinder); intro x; clear_value (e : x = _); first | refine (fun hx : Frame m s0 x => ?_) (Frame.ofEq e ?_) | skip)
    | exact mask_sub rfl hm
    | with_reducible apply State.setSettle_frame
    | with_reducible apply State.modHerd_frame
    | with_reducible apply Frame.ite

theorem State.sendParts_frame {m : Nat} {s0 s : State} {a2 a3 a4 a5 : _} (hm : 32770 ||| m = m) (h : Frame m s0 s) : Frame m s0 (State.sendParts s a2 a3 a4 a5) := by
  unfold State.sendParts
  repeat' first
    | with_reducible assumption
    | ((try lift_lets -underBinder); intro x; clear_value (e : x = _); first | refine (fun hx : Frame m s0 x => ?_) (Frame.ofEq e ?_) | skip)
    | intro x
    | with_reducible apply State.sendCtrl_frame
    | with_reducible apply State.sendFrom_frame
    | with_reducible apply Frame.ite
    | with_reducible refine Frame.foldl ?_ ?_

theorem State.issueSet_frame {m : Nat} {s0 s : State} {a2 a3 a4 a5 : _} (hm : 376700686 ||| m = m) (h : Frame m s0 s) : Frame m s0 (State.issueSet s a2 a3 a4 a5) := by
  unfold State.issueSet
  repeat' first
    | with_reducible assumption
    | ((try lift_lets -underBinder); intro x; clear_value (e : x = _); first | refine (fun hx : Frame m s0 x => ?_) (Frame.ofEq e ?_) | skip)
    | exact mask_sub rfl hm
    | with_reducible apply State.sendParts_frame
    | with_reducible apply State.holdSet_frame
    | with_reducible apply State.modHerd_frame

theorem State.resendSets_frame {m : Nat} {s0 s : State} (hm : 32770 ||| m = m) (h : Frame m s0 s) : Frame m s0 (State.resendSets s) := by
  unfold State.resendSets
  repeat' first
    | with_reducible assumption
    | ((try lift_lets -underBinder); intro x; clear_value (e : x = _); skip)
    | intro x
    | with_reducible apply State.sendParts_frame
    | with_reducible refine Frame.foldl ?_ ?_

theorem State.resendRoutes_frame {m : Nat} {s0 s : State} (hm : 32770 ||| m = m) (h : Frame m s0 s) : Frame m s0 (State.resendRoutes s) := by
  unfold State.resendRoutes
  repeat' first
    | with_reducible assumption
    | intro x
    | with_reducible apply State.sendCtrl_frame
    | with_reducible refine Frame.foldl ?_ ?_

theorem State.sendForm_frame {m : Nat} {s0 s : State} (hm : 376700686 ||| m = m) (h : Frame m s0 s) : Frame m s0 (State.sendForm s) := by
  unfold State.sendForm
  repeat' first
    | with_reducible assumption
    | ((try lift_lets -underBinder); intro x; clear_value (e : x = _); first | refine (fun hx : Frame m s0 x => ?_) (Frame.ofEq e ?_) | skip)
    | exact mask_sub rfl hm
    | with_reducible apply State.issueRoute_frame
    | with_reducible apply State.issueSet_frame
    | with_reducible apply State.count_frame
    | with_reducible apply State.modHerd_frame
    | with_reducible apply Frame.ite

theorem State.removeNode_frame {m : Nat} {s0 s : State} {a2 : _} (hm : 376700686 ||| m = m) (h : Frame m s0 s) : Frame m s0 (State.removeNode s a2) := by
  unfold State.removeNode
  repeat' first
    | with_reducible assumption
    | ((try lift_lets -underBinder); intro x; clear_value (e : x = _); first | refine (fun hx : Frame m s0 x => ?_) (Frame.ofEq e ?_) | skip)
    | exact mask_sub rfl hm
    | with_reducible apply State.issueRoute_frame
    | with_reducible apply State.issueSet_frame
    | with_reducible apply State.modHerd_frame

theorem State.removePair_frame {m : Nat} {s0 s : State} {a2 a3 : _} (hm : 376700686 ||| m = m) (h : Frame m s0 s) : Frame m s0 (State.removePair s a2 a3) := by
  unfold State.removePair
  repeat' first
    | with_reducible assumption
    | ((try lift_lets -underBinder); intro x; clear_value (e : x = _); first | refine (fun hx : Frame m s0 x => ?_) (Frame.ofEq e ?_) | skip)
    | exact mask_sub rfl hm
    | with_reducible apply State.issueRoute_frame
    | with_reducible apply State.issueSet_frame
    | with_reducible apply State.modHerd_frame

theorem State.lossCheck_frame {m : Nat} {s0 s : State} {a2 : _} (hm : 376700686 ||| m = m) (h : Frame m s0 s) : Frame m s0 (State.lossCheck s a2) := by
  unfold State.lossCheck
  repeat' first
    | with_reducible assumption
    | ((try lift_lets -underBinder); intro x; clear_value (e : x = _); first | refine (fun hx : Frame m s0 x => ?_) (Frame.ofEq e ?_) | (have _f := fun a => x a; subst e) | skip)
    | exact mask_sub rfl hm
    | intro x
    | with_reducible apply State.issueSet_frame
    | with_reducible apply State.removeNode_frame
    | with_reducible apply State.count_frame
    | with_reducible apply State.removePair_frame
    | with_reducible apply Frame.ite
    | with_reducible refine Frame.foldl ?_ ?_
    | split

theorem State.admitNode_frame {m : Nat} {s0 s : State} {a2 : _} (hm : 376700686 ||| m = m) (h : Frame m s0 s) : Frame m s0 (State.admitNode s a2) := by
  unfold State.admitNode
  repeat' first
    | with_reducible assumption
    | ((try lift_lets -underBinder); intro x; clear_value (e : x = _); first | refine (fun hx : Frame m s0 x => ?_) (Frame.ofEq e ?_) | skip)
    | exact mask_sub rfl hm
    | with_reducible apply State.issueRoute_frame
    | with_reducible apply State.issueSet_frame
    | with_reducible apply State.modFabric_frame
    | with_reducible apply State.modHerd_frame
    | split

theorem State.joinHeard_frame {m : Nat} {s0 s : State} {a2 : _} (hm : 376700686 ||| m = m) (h : Frame m s0 s) : Frame m s0 (State.joinHeard s a2) := by
  unfold State.joinHeard
  repeat' first
    | with_reducible assumption
    | ((try lift_lets -underBinder); intro x; clear_value (e : x = _); refine (fun hx : Frame m s0 x => ?_) (Frame.ofEq e ?_))
    | exact mask_sub rfl hm
    | with_reducible apply State.sendCtrl_frame
    | with_reducible apply State.startReturn_frame
    | with_reducible apply State.admitNode_frame
    | with_reducible apply State.modHerd_frame
    | with_reducible apply Frame.ite
    | split

theorem State.relayClaim_frame {m : Nat} {s0 s : State} {a2 a3 : _} (hm : 32770 ||| m = m) (h : Frame m s0 s) : Frame m s0 (State.relayClaim s a2 a3) := by
  unfold State.relayClaim
  repeat' first
    | with_reducible assumption
    | ((try lift_lets -underBinder); intro x; clear_value (e : x = _); skip)
    | intro x
    | with_reducible apply State.sendFrom_frame
    | with_reducible refine Frame.foldl ?_ ?_

theorem State.claimHeard_frame {m : Nat} {s0 s : State} {a2 a3 : _} (hm : 2129922 ||| m = m) (h : Frame m s0 s) : Frame m s0 (State.claimHeard s a2 a3) := by
  unfold State.claimHeard
  repeat' first
    | with_reducible assumption
    | ((try lift_lets -underBinder); intro x; clear_value (e : x = _); first | refine (fun hx : Frame m s0 x => ?_) (Frame.ofEq e ?_) | skip)
    | exact mask_sub rfl hm
    | with_reducible apply State.sendCtrl_frame
    | with_reducible apply State.relayClaim_frame
    | with_reducible apply State.modHerd_frame
    | with_reducible apply Frame.ite

theorem State.startElection_frame {m : Nat} {s0 s : State} (hm : 2129922 ||| m = m) (h : Frame m s0 s) : Frame m s0 (State.startElection s) := by
  unfold State.startElection
  repeat' first
    | with_reducible assumption
    | ((try lift_lets -underBinder); intro x; clear_value (e : x = _); refine (fun hx : Frame m s0 x => ?_) (Frame.ofEq e ?_))
    | exact mask_sub rfl hm
    | with_reducible apply State.relayClaim_frame
    | with_reducible apply State.modHerd_frame
    | with_reducible apply Frame.ite

theorem State.winElection_frame {m : Nat} {s0 s : State} (hm : 376700686 ||| m = m) (h : Frame m s0 s) : Frame m s0 (State.winElection s) := by
  unfold State.winElection
  repeat' first
    | with_reducible assumption
    | ((try lift_lets -underBinder); intro x; clear_value (e : x = _); first | refine (fun hx : Frame m s0 x => ?_) (Frame.ofEq e ?_) | skip)
    | exact mask_sub rfl hm
    | intro x
    | with_reducible apply State.modFabric_frame
    | with_reducible apply State.removeNode_frame
    | with_reducible apply State.count_frame
    | with_reducible apply State.modTide_frame
    | with_reducible apply State.modHerd_frame
    | with_reducible apply Frame.ite
    | with_reducible refine Frame.foldl ?_ ?_

theorem State.derive_frame {m : Nat} {s0 s : State} {a2 a3 : _} (hm : 2129926 ||| m = m) (h : Frame m s0 s) : Frame m s0 (State.derive s a2 a3) := by
  unfold State.derive
  repeat' first
    | with_reducible assumption
    | ((try lift_lets -underBinder); intro x; clear_value (e : x = _); first | refine (fun hx : Frame m s0 x => ?_) (Frame.ofEq e ?_) | (have _f := fun a => x a; subst e) | skip)
    | exact mask_sub rfl hm
    | intro x
    | with_reducible apply State.raiseOwn_frame
    | with_reducible apply State.setFld_frame
    | with_reducible apply State.formOn_frame
    | with_reducible apply State.modHerd_frame
    | with_reducible apply State.sendUp_frame
    | with_reducible apply Frame.ite
    | with_reducible refine Frame.foldl ?_ ?_
    | split

theorem State.formHeard_frame {m : Nat} {s0 s : State} {a2 a3 : _} (hm : 2129926 ||| m = m) (h : Frame m s0 s) : Frame m s0 (State.formHeard s a2 a3) := by
  unfold State.formHeard
  repeat' first
    | with_reducible assumption
    | exact mask_sub rfl hm
    | intro x
    | with_reducible apply State.derive_frame
    | with_reducible apply State.formOn_frame
    | with_reducible apply State.modHerd_frame
    | with_reducible apply Frame.ite
    | with_reducible refine Frame.foldl ?_ ?_
    | split

theorem State.formExpire_frame {m : Nat} {s0 s : State} (hm : 376700686 ||| m = m) (h : Frame m s0 s) : Frame m s0 (State.formExpire s) := by
  unfold State.formExpire
  repeat' first
    | with_reducible assumption
    | ((try lift_lets -underBinder); intro x; clear_value (e : x = _); first | refine (fun hx : Frame m s0 x => ?_) (Frame.ofEq e ?_) | (have _f := fun a => x a; subst e) | skip)
    | exact mask_sub rfl hm
    | intro x
    | with_reducible apply State.becomeAlone_frame
    | with_reducible apply State.winElection_frame
    | with_reducible apply State.formOn_frame
    | with_reducible apply State.sendForm_frame
    | with_reducible apply State.modHerd_frame
    | with_reducible apply Frame.ite
    | with_reducible refine Frame.foldl ?_ ?_

/-! Machine/TideOps.lean. -/

theorem State.takeCut_frame {m : Nat} {s0 s : State} (hm : 4300558 ||| m = m) (h : Frame m s0 s) : Frame m s0 (State.takeCut s) := by
  unfold State.takeCut
  repeat' first
    | with_reducible assumption
    | ((try lift_lets -underBinder); intro x; clear_value (e : x = _); first | refine (fun hx : Frame m s0 x => ?_) (Frame.ofEq e ?_) | skip)
    | exact mask_sub rfl hm
    | intro x
    | with_reducible apply State.sendOnLink_frame
    | with_reducible apply State.degrade_frame
    | with_reducible apply State.modTwin_frame
    | with_reducible apply State.sendMirror_frame
    | with_reducible apply Frame.ite
    | with_reducible refine Frame.foldl ?_ ?_
    | split

theorem State.twinAck_frame {m : Nat} {s0 s : State} {a2 : _} (hm : 4300558 ||| m = m) (h : Frame m s0 s) : Frame m s0 (State.twinAck s a2) := by
  unfold State.twinAck
  repeat' first
    | with_reducible assumption
    | ((try lift_lets -underBinder); intro x; clear_value (e : x = _); first | refine (fun hx : Frame m s0 x => ?_) (Frame.ofEq e ?_) | (have _f := fun a => x a; subst e) | skip)
    | exact mask_sub rfl hm
    | with_reducible apply State.releaseHeld_frame
    | with_reducible apply State.modFabric_frame
    | with_reducible apply State.endCuts_frame
    | with_reducible apply State.modTwin_frame
    | with_reducible apply State.count_frame
    | with_reducible apply Frame.ite

theorem State.tideOutEdge_frame {m : Nat} {s0 s : State} {a2 : _} (hm : 8192 ||| m = m) (h : Frame m s0 s) : Frame m s0 (State.tideOutEdge s a2) := by
  unfold State.tideOutEdge
  repeat' first
    | with_reducible assumption
    | exact mask_sub rfl hm
    | with_reducible apply State.modTide_frame
    | with_reducible apply State.emit_frame
    | with_reducible apply Frame.ite

theorem State.fireAlarm_frame {m : Nat} {s0 s : State} {a2 : _} (hm : 12294 ||| m = m) (h : Frame m s0 s) : Frame m s0 (State.fireAlarm s a2) := by
  unfold State.fireAlarm
  repeat' first
    | with_reducible assumption
    | ((try lift_lets -underBinder); intro x; clear_value (e : x = _); first | refine (fun hx : Frame m s0 x => ?_) (Frame.ofEq e ?_) | skip)
    | exact mask_sub rfl hm
    | with_reducible apply State.setFld_frame
    | with_reducible apply State.tideOutEdge_frame
    | with_reducible apply State.rennetSettle_frame
    | with_reducible apply State.irqEvent_frame
    | with_reducible apply State.count_frame
    | with_reducible apply State.modTide_frame
    | with_reducible apply State.ctrDec_frame
    | with_reducible apply Frame.ite

theorem State.checkpoint_frame {m : Nat} {s0 s : State} {a2 : _} (hm : 335548422 ||| m = m) (h : Frame m s0 s) : Frame m s0 (State.checkpoint s a2) := by
  unfold State.checkpoint
  repeat' first
    | with_reducible assumption
    | ((try lift_lets -underBinder); intro x; clear_value (e : x = _); refine (fun hx : Frame m s0 x => ?_) (Frame.ofEq e ?_))
    | exact mask_sub rfl hm
    | with_reducible apply State.fault_frame
    | with_reducible apply State.rennetSettle_frame
    | with_reducible apply State.irqEvent_frame
    | with_reducible apply State.count_frame
    | with_reducible apply State.ctrDec_frame
    | with_reducible apply Frame.ite

theorem State.closeWindows_frame {m : Nat} {s0 s : State} {a2 a3 : _} (hm : 37751310 ||| m = m) (h : Frame m s0 s) : Frame m s0 (State.closeWindows s a2 a3) := by
  unfold State.closeWindows
  repeat' first
    | with_reducible assumption
    | exact mask_sub rfl hm
    | with_reducible apply State.ripenerTide_frame
    | with_reducible apply State.hostedTide_frame
    | with_reducible apply Frame.ite

theorem State.tideAt_frame {m : Nat} {s0 s : State} {a2 a3 a4 : _} (hm : 376700686 ||| m = m) (h : Frame m s0 s) : Frame m s0 (State.tideAt s a2 a3 a4) := by
  unfold State.tideAt
  repeat' first
    | with_reducible assumption
    | ((try lift_lets -underBinder); intro x; clear_value (e : x = _); first | refine (fun hx : Frame m s0 x => ?_) (Frame.ofEq e ?_) | skip)
    | exact mask_sub rfl hm
    | intro x
    | with_reducible apply State.ladleEpoch_frame
    | with_reducible apply State.closeWindows_frame
    | with_reducible apply State.pairSettle_frame
    | with_reducible apply State.fireAlarm_frame
    | with_reducible apply State.checkpoint_frame
    | with_reducible apply State.applyRoute_frame
    | with_reducible apply State.takeCut_frame
    | with_reducible apply State.setSettle_frame
    | with_reducible apply State.endDesc_frame
    | with_reducible apply Frame.ite
    | with_reducible refine Frame.foldl ?_ ?_

theorem State.tideEvents_frame {m : Nat} {s0 s : State} {a2 a3 : _} (hm : 376700686 ||| m = m) (h : Frame m s0 s) : Frame m s0 (State.tideEvents s a2 a3) := by
  unfold State.tideEvents
  repeat' first
    | with_reducible assumption
    | ((try lift_lets -underBinder); intro x; clear_value (e : x = _); skip)
    | intro x
    | with_reducible apply State.tideAt_frame
    | with_reducible refine Frame.foldlFst ?_ ?_

theorem State.applyBeat_frame {m : Nat} {s0 s : State} {a2 : _} (hm : 376700686 ||| m = m) (h : Frame m s0 s) : Frame m s0 (State.applyBeat s a2) := by
  unfold State.applyBeat
  repeat' first
    | with_reducible assumption
    | ((try lift_lets -underBinder); intro x; clear_value (e : x = _); first | refine (fun hx : Frame m s0 x => ?_) (Frame.ofEq e ?_) | skip)
    | exact mask_sub rfl hm
    | with_reducible apply State.sendCtrl_frame
    | with_reducible apply State.tideOutEdge_frame
    | with_reducible apply State.lagNotice_frame
    | with_reducible apply State.tideEvents_frame
    | with_reducible apply State.count_frame
    | with_reducible apply State.modTide_frame
    | with_reducible apply State.modHerd_frame
    | with_reducible apply Frame.ite

theorem State.beatArrives_frame {m : Nat} {s0 s : State} {a2 : _} (hm : 376700686 ||| m = m) (h : Frame m s0 s) : Frame m s0 (State.beatArrives s a2) := by
  unfold State.beatArrives
  repeat' first
    | with_reducible assumption
    | ((try lift_lets -underBinder); intro x; clear_value (e : x = _); refine (fun hx : Frame m s0 x => ?_) (Frame.ofEq e ?_))
    | exact mask_sub rfl hm
    | with_reducible apply State.applyBeat_frame
    | with_reducible apply State.fault_frame
    | with_reducible apply State.raiseOwn_frame
    | with_reducible apply State.count_frame
    | with_reducible apply State.modTide_frame
    | with_reducible apply State.modHerd_frame
    | with_reducible apply Frame.ite
    | split

theorem State.reportArrives_frame {m : Nat} {s0 s : State} {a2 : _} (hm : 8192 ||| m = m) (h : Frame m s0 s) : Frame m s0 (State.reportArrives s a2) := by
  unfold State.reportArrives
  repeat' first
    | with_reducible assumption
    | ((try lift_lets -underBinder); intro x; clear_value (e : x = _); skip)
    | with_reducible apply State.modTide_frame
    | with_reducible apply Frame.ite

theorem State.sendBeat_frame {m : Nat} {s0 s : State} {a2 a3 : _} (hm : 376700686 ||| m = m) (h : Frame m s0 s) : Frame m s0 (State.sendBeat s a2 a3) := by
  unfold State.sendBeat
  repeat' first
    | with_reducible assumption
    | ((try lift_lets -underBinder); intro x; clear_value (e : x = _); first | refine (fun hx : Frame m s0 x => ?_) (Frame.ofEq e ?_) | skip)
    | exact mask_sub rfl hm
    | with_reducible apply State.resendRoutes_frame
    | with_reducible apply State.applyBeat_frame
    | with_reducible apply State.broadcast_frame
    | with_reducible apply State.pairCheck_frame
    | with_reducible apply State.lossCheck_frame
    | with_reducible apply State.modTide_frame
    | with_reducible apply State.resendSets_frame

theorem State.takePulse_frame {m : Nat} {s0 s : State} (hm : 376700686 ||| m = m) (h : Frame m s0 s) : Frame m s0 (State.takePulse s) := by
  unfold State.takePulse
  repeat' first
    | with_reducible assumption
    | ((try lift_lets -underBinder); intro x; clear_value (e : x = _); first | refine (fun hx : Frame m s0 x => ?_) (Frame.ofEq e ?_) | skip)
    | exact mask_sub rfl hm
    | with_reducible apply State.tideOutEdge_frame
    | with_reducible apply State.sendBeat_frame
    | with_reducible apply State.count_frame
    | with_reducible apply Frame.ite

theorem State.beatLost_frame {m : Nat} {s0 s : State} (hm : 2138118 ||| m = m) (h : Frame m s0 s) : Frame m s0 (State.beatLost s) := by
  unfold State.beatLost
  repeat' first
    | with_reducible assumption
    | ((try lift_lets -underBinder); intro x; clear_value (e : x = _); first | refine (fun hx : Frame m s0 x => ?_) (Frame.ofEq e ?_) | skip)
    | exact mask_sub rfl hm
    | with_reducible apply State.raiseOwn_frame
    | with_reducible apply State.startElection_frame
    | with_reducible apply State.irqEvent_frame
    | with_reducible apply State.count_frame
    | with_reducible apply State.modTide_frame
    | with_reducible apply Frame.ite

theorem State.isolate_frame {m : Nat} {s0 s : State} (hm : 6 ||| m = m) (h : Frame m s0 s) : Frame m s0 (State.isolate s) := by
  unfold State.isolate
  repeat' first
    | with_reducible assumption
    | exact mask_sub rfl hm
    | with_reducible apply State.raiseOwn_frame
    | with_reducible apply State.setFld_frame
    | with_reducible apply Frame.ite

theorem State.takeOver_frame {m : Nat} {s0 s : State} (hm : 376700686 ||| m = m) (h : Frame m s0 s) : Frame m s0 (State.takeOver s) := by
  unfold State.takeOver
  repeat' first
    | with_reducible assumption
    | ((try lift_lets -underBinder); intro x; clear_value (e : x = _); first | refine (fun hx : Frame m s0 x => ?_) (Frame.ofEq e ?_) | skip)
    | exact mask_sub rfl hm
    | with_reducible apply State.hostNode_frame
    | with_reducible apply State.issueSet_frame
    | with_reducible apply State.modFabric_frame
    | with_reducible apply State.degrade_frame
    | with_reducible apply State.modTide_frame
    | with_reducible apply State.modHerd_frame
    | with_reducible apply Frame.ite

/-! Machine/RolarOps.lean. -/

theorem State.verifyFail_frame {m : Nat} {s0 s : State} {a2 : _} (hm : 6 ||| m = m) (h : Frame m s0 s) : Frame m s0 (State.verifyFail s a2) := by
  unfold State.verifyFail
  repeat' first
    | with_reducible assumption
    | exact mask_sub rfl hm
    | with_reducible apply State.raiseOwn_frame
    | with_reducible apply State.count_frame
    | with_reducible apply Frame.ite

theorem State.rejoin_frame {m : Nat} {s0 s : State} (hm : 32770 ||| m = m) (h : Frame m s0 s) : Frame m s0 (State.rejoin s) := by
  unfold State.rejoin
  repeat' with_reducible first
    | assumption
    | apply State.sendUp_frame
    | apply Frame.ite

theorem State.startRuntime_frame {m : Nat} {s0 s : State} {a2 a3 a4 a5 : _} (hm : 16777218 ||| m = m) (h : Frame m s0 s) : Frame m s0 (State.startRuntime s a2 a3 a4 a5) := by
  unfold State.startRuntime
  repeat' first
    | with_reducible assumption
    | ((try lift_lets -underBinder); intro x; clear_value (e : x = _); refine (fun hx : Frame m s0 x => ?_) (Frame.ofEq e ?_))
    | exact mask_sub rfl hm
    | with_reducible apply State.modRolar_frame
    | with_reducible apply State.setFld_frame

theorem State.flashBoot_frame {m : Nat} {s0 s : State} {a2 : _} (hm : 16777222 ||| m = m) (h : Frame m s0 s) : Frame m s0 (State.flashBoot s a2) := by
  unfold State.flashBoot
  repeat' first
    | with_reducible assumption
    | ((try lift_lets -underBinder); intro x; clear_value (e : x = _); first | refine (fun hx : Frame m s0 x => ?_) (Frame.ofEq e ?_) | skip)
    | exact mask_sub rfl hm
    | with_reducible apply State.setFld_frame
    | with_reducible apply State.verifyFail_frame
    | with_reducible apply State.startRuntime_frame
    | split

theorem State.runtimeBoot_frame {m : Nat} {s0 s : State} (hm : 16809990 ||| m = m) (h : Frame m s0 s) : Frame m s0 (State.runtimeBoot s) := by
  unfold State.runtimeBoot
  repeat' first
    | with_reducible assumption
    | exact mask_sub rfl hm
    | with_reducible apply State.setFld_frame
    | with_reducible apply State.rejoin_frame
    | with_reducible apply State.flashBoot_frame
    | with_reducible apply Frame.ite

theorem State.deliveredBoot_frame {m : Nat} {s0 s : State} {a2 a3 : _} (hm : 16777222 ||| m = m) (h : Frame m s0 s) : Frame m s0 (State.deliveredBoot s a2 a3) := by
  unfold State.deliveredBoot
  repeat' first
    | with_reducible assumption
    | exact mask_sub rfl hm
    | with_reducible apply State.setFld_frame
    | with_reducible apply State.verifyFail_frame
    | with_reducible apply State.startRuntime_frame
    | with_reducible apply State.flashBoot_frame
    | with_reducible apply Frame.ite

theorem State.bootReq_frame {m : Nat} {s0 s : State} {a2 a3 : _} (hm : 32770 ||| m = m) (h : Frame m s0 s) : Frame m s0 (State.bootReq s a2 a3) := by
  unfold State.bootReq
  repeat' first
    | with_reducible assumption
    | intro x
    | with_reducible apply State.sendCtrl_frame
    | with_reducible apply State.sendFrom_frame
    | with_reducible apply State.sendUp_frame
    | with_reducible apply Frame.ite
    | with_reducible refine Frame.foldl ?_ ?_

theorem State.bootData_frame {m : Nat} {s0 s : State} {a2 a3 : _} (hm : 18907142 ||| m = m) (h : Frame m s0 s) : Frame m s0 (State.bootData s a2 a3) := by
  unfold State.bootData
  repeat' first
    | with_reducible assumption
    | ((try lift_lets -underBinder); intro x; clear_value (e : x = _); first | refine (fun hx : Frame m s0 x => ?_) (Frame.ofEq e ?_) | skip)
    | exact mask_sub rfl hm
    | intro x
    | with_reducible apply State.sendFrom_frame
    | with_reducible apply State.modHerd_frame
    | with_reducible apply State.deliveredBoot_frame
    | with_reducible apply Frame.ite
    | with_reducible refine Frame.foldl ?_ ?_

theorem State.bootFallback_frame {m : Nat} {s0 s : State} (hm : 18874374 ||| m = m) (h : Frame m s0 s) : Frame m s0 (State.bootFallback s) := by
  unfold State.bootFallback
  repeat' first
    | with_reducible assumption
    | ((try lift_lets -underBinder); intro x; clear_value (e : x = _); skip)
    | exact mask_sub rfl hm
    | with_reducible apply State.flashBoot_frame
    | with_reducible apply State.modHerd_frame
    | with_reducible apply Frame.ite

theorem State.commitFuses_frame {m : Nat} {s0 s : State} (hm : 16777218 ||| m = m) (h : Frame m s0 s) : Frame m s0 (State.commitFuses s) := by
  unfold State.commitFuses
  repeat' first
    | with_reducible assumption
    | exact mask_sub rfl hm
    | with_reducible apply State.modRolar_frame
    | with_reducible apply State.setFld_frame
    | with_reducible apply Frame.ite

theorem State.fuseDone_frame {m : Nat} {s0 s : State} {a2 : _} (hm : 16777222 ||| m = m) (h : Frame m s0 s) : Frame m s0 (State.fuseDone s a2) := by
  unfold State.fuseDone
  repeat' first
    | with_reducible assumption
    | ((try lift_lets -underBinder); intro x; clear_value (e : x = _); refine (fun hx : Frame m s0 x => ?_) (Frame.ofEq e ?_))
    | exact mask_sub rfl hm
    | with_reducible apply State.modRolar_frame
    | with_reducible apply State.raiseOwn_frame
    | with_reducible apply State.setFld_frame
    | with_reducible apply State.count_frame
    | with_reducible apply Frame.ite
    | split

theorem State.lockPage_frame {m : Nat} {s0 s : State} {a2 : _} (hm : 2 ||| m = m) (h : Frame m s0 s) : Frame m s0 (State.lockPage s a2) := by
  unfold State.lockPage
  repeat' first
    | with_reducible assumption
    | intro x
    | with_reducible apply State.setFld_frame
    | with_reducible apply State.setFldFn_frame
    | with_reducible apply Frame.ite
    | with_reducible refine Frame.foldl ?_ ?_

theorem State.lockdown_frame {m : Nat} {s0 s : State} {a2 : _} (hm : 2 ||| m = m) (h : Frame m s0 s) : Frame m s0 (State.lockdown s a2) := by
  unfold State.lockdown
  repeat' first
    | with_reducible assumption
    | ((try lift_lets -underBinder); intro x; clear_value (e : x = _); refine (fun hx : Frame m s0 x => ?_) (Frame.ofEq e ?_))
    | intro x
    | with_reducible apply State.lockPage_frame
    | with_reducible apply State.setFld_frame
    | with_reducible apply Frame.ite
    | with_reducible refine Frame.foldl ?_ ?_

theorem State.keyResult_frame {m : Nat} {s0 s : State} {a2 : _} (hm : 2 ||| m = m) (h : Frame m s0 s) : Frame m s0 (State.keyResult s a2) := by
  unfold State.keyResult
  repeat' with_reducible first
    | assumption
    | apply State.setFld_frame

theorem State.keyLocked_frame {m : Nat} {s0 s : State} {a2 : _} (hm : 6 ||| m = m) (h : Frame m s0 s) : Frame m s0 (State.keyLocked s a2) := by
  unfold State.keyLocked
  repeat' first
    | with_reducible assumption
    | exact mask_sub rfl hm
    | with_reducible apply State.raiseBy_frame
    | with_reducible apply State.keyResult_frame

theorem State.keyLoad_frame {m : Nat} {s0 s : State} {a2 a3 : _} (hm : 16777222 ||| m = m) (h : Frame m s0 s) : Frame m s0 (State.keyLoad s a2 a3) := by
  unfold State.keyLoad
  repeat' first
    | with_reducible assumption
    | ((try lift_lets -underBinder); intro x; clear_value (e : x = _); skip)
    | exact mask_sub rfl hm
    | with_reducible apply State.modRolar_frame
    | with_reducible apply State.keyResult_frame
    | with_reducible apply State.keyLocked_frame
    | with_reducible apply Frame.ite

theorem State.keyRevoke_frame {m : Nat} {s0 s : State} {a2 : _} (hm : 16777222 ||| m = m) (h : Frame m s0 s) : Frame m s0 (State.keyRevoke s a2) := by
  unfold State.keyRevoke
  repeat' first
    | with_reducible assumption
    | ((try lift_lets -underBinder); intro x; clear_value (e : x = _); skip)
    | exact mask_sub rfl hm
    | with_reducible apply State.modRolar_frame
    | with_reducible apply State.keyResult_frame
    | with_reducible apply State.keyLocked_frame
    | with_reducible apply Frame.ite

theorem State.keyRead_frame {m : Nat} {s0 s : State} (hm : 2 ||| m = m) (h : Frame m s0 s) : Frame m s0 (State.keyRead s) := by
  unfold State.keyRead
  repeat' with_reducible first
    | assumption
    | apply State.keyResult_frame
    | apply Frame.ite

theorem State.answerMgmt_frame {m : Nat} {s0 s : State} {a2 a3 : _} (hm : 16777216 ||| m = m) (h : Frame m s0 s) : Frame m s0 (State.answerMgmt s a2 a3) := by
  unfold State.answerMgmt
  repeat' first
    | with_reducible assumption
    | exact mask_sub rfl hm
    | with_reducible apply State.modRolar_frame
    | with_reducible apply State.emit_frame

theorem State.spdmError_frame {m : Nat} {s0 s : State} {a2 : _} (hm : 16777216 ||| m = m) (h : Frame m s0 s) : Frame m s0 (State.spdmError s a2) := by
  unfold State.spdmError
  repeat' with_reducible first
    | assumption
    | apply State.answerMgmt_frame

theorem State.setSpdmStep_frame {m : Nat} {s0 s : State} {a2 a3 : _} (hm : 16777216 ||| m = m) (h : Frame m s0 s) : Frame m s0 (State.setSpdmStep s a2 a3) := by
  unfold State.setSpdmStep
  repeat' with_reducible first
    | assumption
    | apply State.modRolar_frame

theorem State.spdmAfter_frame {m : Nat} {s0 s : State} {d n} {f : State → State} (hf : ∀ s, Frame m s0 s → Frame m s0 (f s)) (hm : 16777216 ||| m = m) (h : Frame m s0 s) : Frame m s0 (State.spdmAfter s d n f) := by
  unfold State.spdmAfter
  repeat' with_reducible first
    | assumption
    | apply hf
    | apply State.spdmError_frame
    | apply Frame.ite

theorem State.measure_frame {m : Nat} {s0 s : State} {a2 a3 a4 : _} (hm : 16777216 ||| m = m) (h : Frame m s0 s) : Frame m s0 (State.measure s a2 a3 a4) := by
  unfold State.measure
  repeat' first
    | with_reducible assumption
    | ((try lift_lets -underBinder); intro x; clear_value (e : x = _); first | (have _f := fun a => x a; subst e) | skip)
    | with_reducible apply State.spdmError_frame
    | with_reducible apply State.answerMgmt_frame
    | with_reducible apply Frame.ite

theorem State.dropSession_frame {m : Nat} {s0 s : State} {a2 a3 : _} (hm : 16777216 ||| m = m) (h : Frame m s0 s) : Frame m s0 (State.dropSession s a2 a3) := by
  unfold State.dropSession
  repeat' with_reducible first
    | assumption
    | apply State.modRolar_frame

theorem State.spdmFinish_frame {m : Nat} {s0 s : State} {a2 a3 a4 : _} (hm : 16777222 ||| m = m) (h : Frame m s0 s) : Frame m s0 (State.spdmFinish s a2 a3 a4) := by
  unfold State.spdmFinish
  repeat' first
    | with_reducible assumption
    | ((try lift_lets -underBinder); intro x; clear_value (e : x = _); refine (fun hx : Frame m s0 x => ?_) (Frame.ofEq e ?_))
    | exact mask_sub rfl hm
    | with_reducible apply State.modRolar_frame
    | with_reducible apply State.raiseOwn_frame
    | with_reducible apply State.spdmError_frame
    | with_reducible apply State.answerMgmt_frame
    | with_reducible apply State.setFld_frame
    | with_reducible apply State.dropSession_frame
    | with_reducible apply State.count_frame
    | with_reducible apply Frame.ite
    | split

theorem State.inSession_frame {m : Nat} {s0 s : State} {d i} {f : State → State} (hf : ∀ s, Frame m s0 s → Frame m s0 (f s)) (hm : 16777216 ||| m = m) (h : Frame m s0 s) : Frame m s0 (State.inSession s d i f) := by
  unfold State.inSession
  repeat' first
    | with_reducible assumption
    | with_reducible apply hf
    | with_reducible apply State.spdmError_frame
    | with_reducible apply Frame.ite
    | split

/-! Machine/Tiers.lean. -/

theorem State.regionResult_frame {m : Nat} {s0 s : State} {a2 : _} (hm : 2 ||| m = m) (h : Frame m s0 s) : Frame m s0 (State.regionResult s a2) := by
  unfold State.regionResult
  repeat' with_reducible first
    | assumption
    | apply State.setFld_frame

theorem State.regionStart_frame {m : Nat} {s0 s : State} {a2 a3 a4 a5 : _} (hm : 514 ||| m = m) (h : Frame m s0 s) : Frame m s0 (State.regionStart s a2 a3 a4 a5) := by
  unfold State.regionStart
  repeat' first
    | with_reducible assumption
    | ((try lift_lets -underBinder); intro x; clear_value (e : x = _); first | refine (fun hx : Frame m s0 x => ?_) (Frame.ofEq e ?_) | skip)
    | exact mask_sub rfl hm
    | with_reducible apply State.modTiers_frame
    | with_reducible apply State.setFld_frame
    | with_reducible apply Frame.ite

theorem regionHook_frame {m : Nat} {s0 s : State} {a1 a2 a3 a4 a5 : _} (hm : 514 ||| m = m) (h : Frame m s0 s) : Frame m s0 (regionHook a1 a2 a3 a4 a5 s) := by
  unfold regionHook
  repeat' first
    | with_reducible assumption
    | ((try lift_lets -underBinder); intro x; clear_value (e : x = _); skip)
    | exact mask_sub rfl hm
    | with_reducible apply State.setWord_frame
    | with_reducible apply State.setFld_frame
    | with_reducible apply State.regionResult_frame
    | with_reducible apply State.regionStart_frame
    | with_reducible apply Frame.ite

theorem State.showRegion_frame {m : Nat} {s0 s : State} {a2 : _} (hm : 2 ||| m = m) (h : Frame m s0 s) : Frame m s0 (State.showRegion s a2) := by
  unfold State.showRegion
  repeat' with_reducible first
    | assumption
    | apply State.setFld_frame

theorem State.dropRegion_frame {m : Nat} {s0 s : State} {a2 : _} (hm : 1792 ||| m = m) (h : Frame m s0 s) : Frame m s0 (State.dropRegion s a2) := by
  unfold State.dropRegion
  repeat' first
    | with_reducible assumption
    | ((try lift_lets -underBinder); intro x; clear_value (e : x = _); (have _f := fun a => x a; subst e))
    | exact mask_sub rfl hm
    | with_reducible apply State.modTiers_frame
    | with_reducible apply State.clearMem_frame
    | with_reducible apply State.modHost_frame
    | exact Eq.refl _
    | split

theorem State.regionDone_frame {m : Nat} {s0 s : State} (hm : 1794 ||| m = m) (h : Frame m s0 s) : Frame m s0 (State.regionDone s) := by
  unfold State.regionDone
  repeat' first
    | with_reducible assumption
    | ((try lift_lets -underBinder); intro x; clear_value (e : x = _); refine (fun hx : Frame m s0 x => ?_) (Frame.ofEq e ?_))
    | exact mask_sub rfl hm
    | with_reducible apply State.showRegion_frame
    | with_reducible apply State.modTiers_frame
    | with_reducible apply State.regionResult_frame
    | with_reducible apply State.dropRegion_frame
    | with_reducible apply State.clearMem_frame
    | with_reducible apply Frame.ite
    | split

theorem vatCfgHook_frame {m : Nat} {s0 s : State} {a1 a2 a3 a4 : _} (hm : 6 ||| m = m) (h : Frame m s0 s) : Frame m s0 (vatCfgHook a1 a2 a3 a4 s) := by
  unfold vatCfgHook
  repeat' first
    | with_reducible assumption
    | ((try lift_lets -underBinder); intro x; clear_value (e : x = _); skip)
    | exact mask_sub rfl hm
    | with_reducible apply State.setFld_frame
    | with_reducible apply State.raiseBy_frame
    | with_reducible apply Frame.ite

theorem State.tierOut_frame {m : Nat} {s0 s : State} {a2 a3 : _} (hm : 349413198 ||| m = m) (h : Frame m s0 s) : Frame m s0 (State.tierOut s a2 a3) := by
  unfold State.tierOut
  repeat' first
    | with_reducible assumption
    | ((try lift_lets -underBinder); intro x; clear_value (e : x = _); refine (fun hx : Frame m s0 x => ?_) (Frame.ofEq e ?_))
    | exact mask_sub rfl hm
    | intro x
    | with_reducible apply State.unitFault_frame
    | with_reducible apply State.raiseOwn_frame
    | with_reducible apply State.killJob_frame
    | with_reducible refine Frame.foldl ?_ ?_

theorem State.tierFail_frame {m : Nat} {s0 s : State} {a2 a3 : _} (hm : 349413198 ||| m = m) (h : Frame m s0 s) : Frame m s0 (State.tierFail s a2 a3) := by
  unfold State.tierFail
  repeat' first
    | with_reducible assumption
    | exact mask_sub rfl hm
    | with_reducible apply State.modTiers_frame
    | with_reducible apply State.tierOut_frame

theorem State.setDrive_frame {m : Nat} {s0 s : State} {a2 a3 : _} (hm : 512 ||| m = m) (h : Frame m s0 s) : Frame m s0 (State.setDrive s a2 a3) := by
  unfold State.setDrive
  repeat' with_reducible first
    | assumption
    | apply State.modTiers_frame

theorem State.updDrive_frame {m : Nat} {s0 s : State} {a2 a3 : _} (hm : 512 ||| m = m) (h : Frame m s0 s) : Frame m s0 (State.updDrive s a2 a3) := by
  unfold State.updDrive
  repeat' with_reducible first
    | assumption
    | apply State.modTiers_frame

theorem State.driveWhyFailed_frame {m : Nat} {s0 s : State} {a2 : _} (hm : 349413198 ||| m = m) (h : Frame m s0 s) : Frame m s0 (State.driveWhyFailed s a2) := by
  unfold State.driveWhyFailed
  repeat' first
    | with_reducible assumption
    | ((try lift_lets -underBinder); intro x; clear_value (e : x = _); refine (fun hx : Frame m s0 x => ?_) (Frame.ofEq e ?_))
    | exact mask_sub rfl hm
    | intro x
    | with_reducible apply State.failJob_frame
    | with_reducible apply State.readFailed_frame
    | with_reducible apply State.jobFailed_frame
    | with_reducible apply State.closeReady_frame
    | with_reducible apply Frame.ite
    | with_reducible refine Frame.elim ?_ ?_
    | split

theorem State.driveCmdsFail_frame {m : Nat} {s0 s : State} {a2 : _} (hm : 349413198 ||| m = m) (h : Frame m s0 s) : Frame m s0 (State.driveCmdsFail s a2) := by
  unfold State.driveCmdsFail
  repeat' first
    | with_reducible assumption
    | exact mask_sub rfl hm
    | intro x
    | with_reducible apply State.driveWhyFailed_frame
    | with_reducible apply State.updDrive_frame
    | with_reducible refine Frame.foldl ?_ ?_
    | split

theorem State.driveWake_frame {m : Nat} {s0 s : State} (hm : 33660686 ||| m = m) (h : Frame m s0 s) : Frame m s0 (State.driveWake s) := by
  unfold State.driveWake
  repeat' first
    | with_reducible assumption
    | exact mask_sub rfl hm
    | intro x
    | with_reducible apply State.runValidate_frame
    | with_reducible apply State.updDesc_frame
    | with_reducible refine Frame.foldl ?_ ?_

theorem State.driveArrives_frame {m : Nat} {s0 s : State} {a2 a3 : _} (hm : 512 ||| m = m) (h : Frame m s0 s) : Frame m s0 (State.driveArrives s a2 a3) := by
  unfold State.driveArrives
  repeat' first
    | with_reducible assumption
    | ((try lift_lets -underBinder); intro x; clear_value (e : x = _); skip)
    | with_reducible apply State.setDrive_frame

theorem State.driveRemoved_frame {m : Nat} {s0 s : State} {a2 : _} (hm : 382967630 ||| m = m) (h : Frame m s0 s) : Frame m s0 (State.driveRemoved s a2) := by
  unfold State.driveRemoved
  repeat' first
    | with_reducible assumption
    | ((try lift_lets -underBinder); intro x; clear_value (e : x = _); refine (fun hx : Frame m s0 x => ?_) (Frame.ofEq e ?_))
    | exact mask_sub rfl hm
    | with_reducible apply State.driveCmdsFail_frame
    | with_reducible apply State.raiseOwn_frame
    | with_reducible apply State.driveWake_frame
    | with_reducible apply State.giveSkim_frame
    | with_reducible apply State.updDrive_frame
    | with_reducible apply Frame.ite
    | split

theorem State.driveUp_frame {m : Nat} {s0 s : State} {a2 a3 a4 a5 a6 : _} (hm : 33660686 ||| m = m) (h : Frame m s0 s) : Frame m s0 (State.driveUp s a2 a3 a4 a5 a6) := by
  unfold State.driveUp
  repeat' first
    | with_reducible assumption
    | ((try lift_lets -underBinder); intro x; clear_value (e : x = _); first | refine (fun hx : Frame m s0 x => ?_) (Frame.ofEq e ?_) | (have _f := fun a => x a; subst e))
    | exact mask_sub rfl hm
    | with_reducible apply State.raiseOwn_frame
    | with_reducible apply State.takeSkim_frame
    | with_reducible apply State.driveWake_frame
    | with_reducible apply State.updDrive_frame
    | with_reducible apply Frame.ite
    | with_reducible refine FrameOpt.some' ?_
    | with_reducible refine FrameOpt.ite ?_ ?_
    | split
    | with_reducible refine FrameOpt.get' (by assumption) ?_

theorem State.driveTimeout_frame {m : Nat} {s0 s : State} {a2 a3 : _} (hm : 518 ||| m = m) (h : Frame m s0 s) : Frame m s0 (State.driveTimeout s a2 a3) := by
  unfold State.driveTimeout
  repeat' first
    | with_reducible assumption
    | exact mask_sub rfl hm
    | with_reducible apply State.raiseOwn_frame
    | with_reducible apply State.count_frame
    | with_reducible apply State.updDrive_frame
    | with_reducible apply State.emit_frame
    | with_reducible apply Frame.ite
    | split

theorem State.driveAbortTimeout_frame {m : Nat} {s0 s : State} {a2 a3 : _} (hm : 382967630 ||| m = m) (h : Frame m s0 s) : Frame m s0 (State.driveAbortTimeout s a2 a3) := by
  unfold State.driveAbortTimeout
  repeat' first
    | with_reducible assumption
    | ((try lift_lets -underBinder); intro x; clear_value (e : x = _); refine (fun hx : Frame m s0 x => ?_) (Frame.ofEq e ?_))
    | exact mask_sub rfl hm
    | with_reducible apply State.driveCmdsFail_frame
    | with_reducible apply State.raiseOwn_frame
    | with_reducible apply State.driveWake_frame
    | with_reducible apply State.count_frame
    | with_reducible apply State.updDrive_frame
    | with_reducible apply State.emit_frame
    | with_reducible apply Frame.ite
    | split

theorem State.driveOk_frame {m : Nat} {s0 s : State} {a2 a3 a4 : _} (hm : 383237966 ||| m = m) (h : Frame m s0 s) : Frame m s0 (State.driveOk s a2 a3 a4) := by
  unfold State.driveOk
  repeat' first
    | with_reducible assumption
    | ((try lift_lets -underBinder); intro x; clear_value (e : x = _); skip)
    | exact mask_sub rfl hm
    | with_reducible apply State.resume_frame
    | with_reducible apply State.stage_frame
    | with_reducible apply State.closeReady_frame
    | with_reducible apply State.jobSettle_frame
    | with_reducible apply State.updDrive_frame
    | with_reducible apply State.emit_frame
    | with_reducible apply Frame.ite
    | split

theorem State.driveDone_frame {m : Nat} {s0 s : State} {a2 a3 a4 a5 : _} (hm : 383237966 ||| m = m) (h : Frame m s0 s) : Frame m s0 (State.driveDone s a2 a3 a4 a5) := by
  unfold State.driveDone
  repeat' first
    | with_reducible assumption
    | ((try lift_lets -underBinder); intro x; clear_value (e : x = _); refine (fun hx : Frame m s0 x => ?_) (Frame.ofEq e ?_))
    | exact mask_sub rfl hm
    | with_reducible apply State.raiseOwn_frame
    | with_reducible apply State.driveOk_frame
    | with_reducible apply State.driveWhyFailed_frame
    | with_reducible apply State.count_frame
    | with_reducible apply State.updDrive_frame
    | with_reducible apply Frame.ite
    | split

theorem cellarModeHook_frame {m : Nat} {s0 s : State} {a1 a2 a3 a4 : _} (hm : 514 ||| m = m) (h : Frame m s0 s) : Frame m s0 (cellarModeHook a1 a2 a3 a4 s) := by
  unfold cellarModeHook
  repeat' first
    | with_reducible assumption
    | ((try lift_lets -underBinder); intro x; clear_value (e : x = _); first | refine (fun hx : Frame m s0 x => ?_) (Frame.ofEq e ?_) | skip)
    | exact mask_sub rfl hm
    | intro x
    | with_reducible apply State.modTiers_frame
    | with_reducible apply State.setFld_frame
    | with_reducible apply State.driveArrives_frame
    | with_reducible apply Frame.ite
    | with_reducible refine Frame.foldl ?_ ?_

theorem State.drivePin_frame {m : Nat} {s0 s : State} {a2 a3 : _} (hm : 382967646 ||| m = m) (h : Frame m s0 s) : Frame m s0 (State.drivePin s a2 a3) := by
  unfold State.drivePin
  repeat' first
    | with_reducible assumption
    | ((try lift_lets -underBinder); intro x; clear_value (e : x = _); first | refine (fun hx : Frame m s0 x => ?_) (Frame.ofEq e ?_) | skip)
    | exact mask_sub rfl hm
    | with_reducible apply State.driveArrives_frame
    | with_reducible apply State.driveRemoved_frame
    | with_reducible apply State.modPins_frame
    | with_reducible apply Frame.ite

theorem State.switchScan_frame {m : Nat} {s0 s : State} {a2 : _} (hm : 382967630 ||| m = m) (h : Frame m s0 s) : Frame m s0 (State.switchScan s a2) := by
  unfold State.switchScan
  repeat' first
    | with_reducible assumption
    | ((try lift_lets -underBinder); intro x; clear_value (e : x = _); first | refine (fun hx : Frame m s0 x => ?_) (Frame.ofEq e ?_) | skip)
    | exact mask_sub rfl hm
    | intro x
    | with_reducible apply State.modTiers_frame
    | with_reducible apply State.driveArrives_frame
    | with_reducible apply State.driveRemoved_frame
    | with_reducible apply Frame.ite
    | with_reducible refine Frame.foldl ?_ ?_

theorem State.cellarLinkUp_frame {m : Nat} {s0 s : State} {a2 : _} (hm : 382967630 ||| m = m) (h : Frame m s0 s) : Frame m s0 (State.cellarLinkUp s a2) := by
  unfold State.cellarLinkUp
  repeat' first
    | with_reducible assumption
    | ((try lift_lets -underBinder); intro x; clear_value (e : x = _); refine (fun hx : Frame m s0 x => ?_) (Frame.ofEq e ?_))
    | exact mask_sub rfl hm
    | with_reducible apply State.modTiers_frame
    | with_reducible apply State.switchScan_frame
    | with_reducible apply Frame.ite

theorem cellarCtrlHook_frame {m : Nat} {s0 s : State} {a1 a2 a3 a4 a5 : _} (hm : 382967630 ||| m = m) (h : Frame m s0 s) : Frame m s0 (cellarCtrlHook a1 a2 a3 a4 a5 s) := by
  unfold cellarCtrlHook
  repeat' first
    | with_reducible assumption
    | ((try lift_lets -underBinder); intro x; clear_value (e : x = _); first | refine (fun hx : Frame m s0 x => ?_) (Frame.ofEq e ?_) | (have _f := fun a => x a; subst e) | skip)
    | exact mask_sub rfl hm
    | with_reducible apply State.modTiers_frame
    | with_reducible apply State.setFld_frame
    | with_reducible apply State.switchScan_frame
    | with_reducible apply Frame.ite

theorem State.cellarDown_frame {m : Nat} {s0 s : State} (hm : 382967630 ||| m = m) (h : Frame m s0 s) : Frame m s0 (State.cellarDown s) := by
  unfold State.cellarDown
  repeat' first
    | with_reducible assumption
    | exact mask_sub rfl hm
    | intro x
    | with_reducible apply State.modTiers_frame
    | with_reducible apply State.driveRemoved_frame
    | with_reducible refine Frame.foldl ?_ ?_

/-! Machine/Resets.lean. -/

theorem State.resetRegs_frame {m : Nat} {s0 s : State} {k p} (hm : 2 ||| m = m) (h : Frame m s0 s) : Frame m s0 (s.resetRegs k p) :=
  Frame.step (s := s) (Keeps.upd rfl rfl (Nat.le_refl _) id (by unfold State.resetRegs; intro x; dsimp only; exact Table.rising_each x) id) Kept.rfl (Kept.mask (mask_sub rfl hm)) Kept.rfl Kept.rfl Kept.rfl Kept.rfl Kept.rfl Kept.rfl Kept.rfl Kept.rfl Kept.rfl Kept.rfl Kept.rfl Kept.rfl Kept.rfl Kept.rfl Kept.rfl Kept.rfl Kept.rfl Kept.rfl Kept.rfl Kept.rfl Kept.rfl Kept.rfl Kept.rfl Kept.rfl Kept.rfl Kept.rfl Kept.rfl h

theorem State.resetOr_frame {m : Nat} {s0 s : State} {k} {f : State → State} (hf : ∀ s, Frame m s0 s → Frame m s0 (f s)) (hm : 34 ||| m = m) (h : Frame m s0 s) : Frame m s0 (State.resetOr s k f) := by
  unfold State.resetOr
  repeat' first
    | with_reducible assumption
    | ((try lift_lets -underBinder); intro x; clear_value (e : x = _); first | refine (fun hx : Frame m s0 x => ?_) (Frame.ofEq e ?_) | skip)
    | exact mask_sub rfl hm
    | with_reducible apply hf
    | with_reducible apply State.setFld_frame
    | with_reducible apply State.modPower_frame
    | with_reducible apply Frame.ite

theorem State.warmReset_frame {m : Nat} {s0 s : State} {a2 : _} (hm : 201326574 ||| m = m) (h : Frame m s0 s) : Frame m s0 (State.warmReset s a2) := by
  unfold State.warmReset
  repeat' first
    | with_reducible assumption
    | ((try lift_lets -underBinder); intro x; clear_value (e : x = _); first | refine (fun hx : Frame m s0 x => ?_) (Frame.ofEq e ?_) | skip)
    | exact mask_sub rfl hm
    | with_reducible exact Kept.rfl
    | exact Kept.mask (mask_sub rfl hm)
    | intro x
    | with_reducible apply State.setFld_frame
    | with_reducible apply State.resetRegs_frame
    | with_reducible apply State.resetOr_frame
    | with_reducible apply State.count_frame
    | with_reducible apply Frame.ite
    | with_reducible refine Frame.litLost rfl ?_ ?_ ?_ ?_ ?_ ?_ ?_ ?_ ?_ ?_ ?_ ?_ ?_ ?_ ?_ ?_ ?_ ?_ ?_ ?_ ?_ ?_ ?_ ?_ ?_ ?_ ?_ ?_ ?_

theorem State.coldOff_frame {m : Nat} {s0 s : State} (hm : 536870911 ||| m = m) (h : Frame m s0 s) : Frame m s0 s.coldOff :=
  Frame.step (s := s) (Keeps.upd rfl rfl (Nat.le_refl _) (fun _ => rfl) (fun _ => rfl) (fun _ => rfl)) (Kept.mask (mask_sub rfl hm)) (Kept.mask (mask_sub rfl hm)) (Kept.mask (mask_sub rfl hm)) (Kept.mask (mask_sub rfl hm)) (Kept.mask (mask_sub rfl hm)) (Kept.mask (mask_sub rfl hm)) (Kept.mask (mask_sub rfl hm)) (Kept.mask (mask_sub rfl hm)) (Kept.mask (mask_sub rfl hm)) (Kept.mask (mask_sub rfl hm)) (Kept.mask (mask_sub rfl hm)) (Kept.mask (mask_sub rfl hm)) (Kept.mask (mask_sub rfl hm)) (Kept.mask (mask_sub rfl hm)) (Kept.mask (mask_sub rfl hm)) (Kept.mask (mask_sub rfl hm)) (Kept.mask (mask_sub rfl hm)) (Kept.mask (mask_sub rfl hm)) (Kept.mask (mask_sub rfl hm)) (Kept.mask (mask_sub rfl hm)) (Kept.mask (mask_sub rfl hm)) (Kept.mask (mask_sub rfl hm)) (Kept.mask (mask_sub rfl hm)) (Kept.mask (mask_sub rfl hm)) (Kept.mask (mask_sub rfl hm)) (Kept.mask (mask_sub rfl hm)) (Kept.mask (mask_sub rfl hm)) (Kept.mask (mask_sub rfl hm)) (Kept.mask (mask_sub rfl hm)) h

theorem State.calFind_frame {m : Nat} {s0 s : State} {a2 : _} (hm : 130 ||| m = m) (h : Frame m s0 s) : Frame m s0 (State.calFind s a2) := by
  unfold State.calFind
  repeat' first
    | with_reducible assumption
    | ((try lift_lets -underBinder); intro x; clear_value (e : x = _); first | refine (fun hx : Frame m s0 x => ?_) (Frame.ofEq e ?_) | skip)
    | exact mask_sub rfl hm
    | with_reducible apply State.setFld_frame
    | with_reducible apply State.modCal_frame
    | with_reducible apply State.count_frame
    | with_reducible apply Frame.ite

theorem State.supervisorsStart_frame {m : Nat} {s0 s : State} (hm : 34 ||| m = m) (h : Frame m s0 s) : Frame m s0 (State.supervisorsStart s) := by
  unfold State.supervisorsStart
  repeat' first
    | with_reducible assumption
    | ((try lift_lets -underBinder); intro x; clear_value (e : x = _); first | refine (fun hx : Frame m s0 x => ?_) (Frame.ofEq e ?_) | (have _f := fun a => x a; subst e) | skip)
    | exact mask_sub rfl hm
    | with_reducible apply State.setFld_frame
    | with_reducible apply State.modPower_frame
    | with_reducible apply Frame.ite

theorem State.fuseReblow_frame {m : Nat} {s0 s : State} (hm : 16777218 ||| m = m) (h : Frame m s0 s) : Frame m s0 (State.fuseReblow s) := by
  unfold State.fuseReblow
  repeat' first
    | with_reducible assumption
    | exact mask_sub rfl hm
    | with_reducible apply State.modRolar_frame
    | with_reducible apply State.count_frame
    | with_reducible apply Frame.ite

theorem State.release_frame {m : Nat} {s0 s : State} {a2 : _} (hm : 18874546 ||| m = m) (h : Frame m s0 s) : Frame m s0 (State.release s a2) := by
  unfold State.release
  repeat' first
    | with_reducible assumption
    | ((try lift_lets -underBinder); intro x; clear_value (e : x = _); first | refine (fun hx : Frame m s0 x => ?_) (Frame.ofEq e ?_) | skip)
    | exact mask_sub rfl hm
    | with_reducible exact Kept.rfl
    | exact Kept.mask (mask_sub rfl hm)
    | with_reducible apply State.calFind_frame
    | with_reducible apply State.supervisorsStart_frame
    | with_reducible apply State.setWord_frame
    | with_reducible apply State.setFld_frame
    | with_reducible apply State.modPins_frame
    | with_reducible apply State.fuseReblow_frame
    | with_reducible apply Frame.ite
    | split
    | with_reducible refine Frame.lit rfl ?_ ?_ ?_ ?_ ?_ ?_ ?_ ?_ ?_ ?_ ?_ ?_ ?_ ?_ ?_ ?_ ?_ ?_ ?_ ?_ ?_ ?_ ?_ ?_ ?_ ?_ ?_ ?_

theorem State.calStart_frame {m : Nat} {s0 s : State} {a2 : _} (hm : 128 ||| m = m) (h : Frame m s0 s) : Frame m s0 (State.calStart s a2) := by
  unfold State.calStart
  repeat' first
    | with_reducible assumption
    | ((try lift_lets -underBinder); intro x; clear_value (e : x = _); skip)
    | with_reducible apply State.modCal_frame
    | with_reducible apply Frame.ite

theorem State.calDue_frame {m : Nat} {s0 s : State} (hm : 128 ||| m = m) (h : Frame m s0 s) : Frame m s0 (State.calDue s) := by
  unfold State.calDue
  repeat' first
    | with_reducible assumption
    | ((try lift_lets -underBinder); intro x; clear_value (e : x = _); skip)
    | with_reducible apply State.calStart_frame
    | with_reducible apply Frame.ite

theorem State.saveNow_frame {m : Nat} {s0 s : State} (hm : 128 ||| m = m) (h : Frame m s0 s) : Frame m s0 (State.saveNow s) := by
  unfold State.saveNow
  repeat' with_reducible first
    | assumption
    | apply State.calStart_frame
    | apply State.modCal_frame
    | apply Frame.ite

theorem calCtrlHook_frame {m : Nat} {s0 s : State} {a1 a2 a3 a4 : _} (hm : 128 ||| m = m) (h : Frame m s0 s) : Frame m s0 (calCtrlHook a1 a2 a3 a4 s) := by
  unfold calCtrlHook
  repeat' with_reducible first
    | assumption
    | apply State.saveNow_frame
    | apply Frame.ite

theorem State.calEnd_frame {m : Nat} {s0 s : State} {a2 : _} (hm : 130 ||| m = m) (h : Frame m s0 s) : Frame m s0 (State.calEnd s a2) := by
  unfold State.calEnd
  repeat' first
    | with_reducible assumption
    | ((try lift_lets -underBinder); intro x; clear_value (e : x = _); first | refine (fun hx : Frame m s0 x => ?_) (Frame.ofEq e ?_) | skip)
    | exact mask_sub rfl hm
    | with_reducible apply State.calStart_frame
    | with_reducible apply State.setFld_frame
    | with_reducible apply State.modCal_frame
    | with_reducible apply State.count_frame
    | with_reducible apply Frame.ite
    | split

theorem State.killFn_frame {m : Nat} {s0 s : State} {a2 a3 : _} (hm : 13868878 ||| m = m) (h : Frame m s0 s) : Frame m s0 (State.killFn s a2 a3) := by
  unfold State.killFn
  repeat' first
    | with_reducible assumption
    | ((try lift_lets -underBinder); intro x; clear_value (e : x = _); refine (fun hx : Frame m s0 x => ?_) (Frame.ofEq e ?_))
    | intro x
    | with_reducible apply State.killDesc_frame
    | with_reducible apply State.killJob_frame
    | with_reducible refine Frame.foldl ?_ ?_

theorem State.dropRings_frame {m : Nat} {s0 s : State} {a2 : _} (hm : 2048 ||| m = m) (h : Frame m s0 s) : Frame m s0 (State.dropRings s a2) := by
  unfold State.dropRings
  repeat' with_reducible first
    | assumption
    | apply State.modWork_frame

theorem State.fnGone_frame {m : Nat} {s0 s : State} {a2 : _} (hm : 13868878 ||| m = m) (h : Frame m s0 s) : Frame m s0 (State.fnGone s a2) := by
  unfold State.fnGone
  repeat' first
    | with_reducible assumption
    | ((try lift_lets -underBinder); intro x; clear_value (e : x = _); first | refine (fun hx : Frame m s0 x => ?_) (Frame.ofEq e ?_) | skip)
    | exact mask_sub rfl hm
    | intro x
    | with_reducible apply State.endServeRing_frame
    | with_reducible apply State.resetRegs_frame
    | with_reducible apply State.dropRings_frame
    | with_reducible apply State.dropRegion_frame
    | with_reducible apply State.clearRings_frame
    | with_reducible apply State.count_frame
    | with_reducible apply State.modHost_frame
    | with_reducible apply State.killFn_frame
    | with_reducible apply State.emit_frame
    | with_reducible apply Frame.ite
    | exact Eq.refl _
    | with_reducible refine Frame.foldl ?_ ?_

theorem State.flr_frame {m : Nat} {s0 s : State} {a2 : _} (hm : 13868910 ||| m = m) (h : Frame m s0 s) : Frame m s0 (State.flr s a2) := by
  unfold State.flr
  repeat' first
    | with_reducible assumption
    | ((try lift_lets -underBinder); intro x; clear_value (e : x = _); refine (fun hx : Frame m s0 x => ?_) (Frame.ofEq e ?_))
    | exact mask_sub rfl hm
    | intro x
    | with_reducible apply State.ringSettle_frame
    | with_reducible apply State.resetRegs_frame
    | with_reducible apply State.resetOr_frame
    | with_reducible apply State.fnGone_frame
    | with_reducible apply State.count_frame
    | with_reducible apply State.modHost_frame
    | with_reducible apply Frame.ite
    | exact Eq.refl _
    | with_reducible refine Frame.foldl ?_ ?_

theorem State.ringBlock_frame {m : Nat} {s0 s : State} {a2 a3 : _} (hm : 13868878 ||| m = m) (h : Frame m s0 s) : Frame m s0 (State.ringBlock s a2 a3) := by
  unfold State.ringBlock
  repeat' first
    | with_reducible assumption
    | ((try lift_lets -underBinder); intro x; clear_value (e : x = _); first | refine (fun hx : Frame m s0 x => ?_) (Frame.ofEq e ?_) | (have _f := fun a => x a; subst e) | skip)
    | exact mask_sub rfl hm
    | intro x
    | with_reducible apply State.killDesc_frame
    | with_reducible apply State.setSq_frame
    | with_reducible apply State.killJob_frame
    | with_reducible apply Frame.ite
    | with_reducible refine Frame.foldl ?_ ?_

theorem State.rennetBlock_frame {m : Nat} {s0 s : State} (hm : 13868878 ||| m = m) (h : Frame m s0 s) : Frame m s0 (State.rennetBlock s) := by
  unfold State.rennetBlock
  repeat' first
    | with_reducible assumption
    | ((try lift_lets -underBinder); intro x; clear_value (e : x = _); first | refine (fun hx : Frame m s0 x => ?_) (Frame.ofEq e ?_) | (have _f := fun a => x a; subst e) | skip)
    | exact mask_sub rfl hm
    | intro x
    | with_reducible apply State.modRennet_frame
    | with_reducible apply State.ringSettle_frame
    | with_reducible apply State.updDesc_frame
    | with_reducible apply State.killJob_frame
    | with_reducible apply State.disarm_frame
    | with_reducible apply State.rennetSettle_frame
    | with_reducible refine Frame.foldl ?_ ?_

theorem State.tideBlock_frame {m : Nat} {s0 s : State} (hm : 13877070 ||| m = m) (h : Frame m s0 s) : Frame m s0 (State.tideBlock s) := by
  unfold State.tideBlock
  repeat' first
    | with_reducible assumption
    | ((try lift_lets -underBinder); intro x; clear_value (e : x = _); skip)
    | exact mask_sub rfl hm
    | intro x
    | with_reducible apply State.killJob_frame
    | with_reducible apply State.lagNotice_frame
    | with_reducible apply State.modTide_frame
    | with_reducible refine Frame.foldl ?_ ?_

theorem State.blockEffect_frame {m : Nat} {s0 s : State} {a2 a3 : _} (hm : 349421390 ||| m = m) (h : Frame m s0 s) : Frame m s0 (State.blockEffect s a2 a3) := by
  unfold State.blockEffect
  repeat' first
    | with_reducible assumption
    | ((try lift_lets -underBinder); intro x; clear_value (e : x = _); first | refine (fun hx : Frame m s0 x => ?_) (Frame.ofEq e ?_) | skip)
    | exact mask_sub rfl hm
    | intro x
    | with_reducible apply State.linkDown_frame
    | with_reducible apply State.rennetBlock_frame
    | with_reducible apply State.ringBlock_frame
    | with_reducible apply State.tideBlock_frame
    | with_reducible apply State.abandon_frame
    | with_reducible apply State.setLink_frame
    | with_reducible apply Frame.ite
    | with_reducible refine Frame.foldl ?_ ?_

theorem State.blockReset_frame {m : Nat} {s0 s : State} {a2 a3 : _} (hm : 349421422 ||| m = m) (h : Frame m s0 s) : Frame m s0 (State.blockReset s a2 a3) := by
  unfold State.blockReset
  repeat' first
    | with_reducible assumption
    | ((try lift_lets -underBinder); intro x; clear_value (e : x = _); first | refine (fun hx : Frame m s0 x => ?_) (Frame.ofEq e ?_) | skip)
    | exact mask_sub rfl hm
    | intro x
    | with_reducible apply State.placeAll_frame
    | with_reducible apply State.resetRegs_frame
    | with_reducible apply State.setPage_frame
    | with_reducible apply State.failSlice_frame
    | with_reducible apply State.resetOr_frame
    | with_reducible apply State.blockEffect_frame
    | with_reducible apply Frame.ite
    | with_reducible refine Frame.foldl ?_ ?_

theorem State.blockTimeout_frame {m : Nat} {s0 s : State} {a2 a3 : _} (hm : 335544326 ||| m = m) (h : Frame m s0 s) : Frame m s0 (State.blockTimeout s a2 a3) := by
  unfold State.blockTimeout
  repeat' first
    | with_reducible assumption
    | ((try lift_lets -underBinder); intro x; clear_value (e : x = _); first | refine (fun hx : Frame m s0 x => ?_) (Frame.ofEq e ?_) | skip)
    | exact mask_sub rfl hm
    | intro x
    | with_reducible apply State.unitFault_frame
    | with_reducible apply State.setPage_frame
    | with_reducible apply State.raiseBy_frame
    | with_reducible apply State.emit_frame
    | with_reducible apply Frame.ite
    | with_reducible refine Frame.foldl ?_ ?_
    | split

theorem State.endPair_frame {m : Nat} {s0 s : State} (hm : 4300558 ||| m = m) (h : Frame m s0 s) : Frame m s0 (State.endPair s) := by
  unfold State.endPair
  repeat' first
    | with_reducible assumption
    | ((try lift_lets -underBinder); intro x; clear_value (e : x = _); first | refine (fun hx : Frame m s0 x => ?_) (Frame.ofEq e ?_) | skip)
    | exact mask_sub rfl hm
    | with_reducible exact Kept.rfl
    | exact Kept.mask (mask_sub rfl hm)
    | with_reducible apply State.modTiers_frame
    | with_reducible apply State.releaseHeld_frame
    | with_reducible apply State.endCuts_frame
    | with_reducible apply State.modTwin_frame
    | with_reducible refine Frame.lit rfl ?_ ?_ ?_ ?_ ?_ ?_ ?_ ?_ ?_ ?_ ?_ ?_ ?_ ?_ ?_ ?_ ?_ ?_ ?_ ?_ ?_ ?_ ?_ ?_ ?_ ?_ ?_ ?_

theorem State.closeStore_frame {m : Nat} {s0 s : State} {a2 : _} (hm : 33554958 ||| m = m) (h : Frame m s0 s) : Frame m s0 (State.closeStore s a2) := by
  unfold State.closeStore
  repeat' first
    | with_reducible assumption
    | exact mask_sub rfl hm
    | with_reducible exact Kept.rfl
    | exact Kept.mask (mask_sub rfl hm)
    | with_reducible apply State.stateNotice_frame
    | with_reducible apply State.tierShift_frame
    | split
    | with_reducible refine Frame.lit rfl ?_ ?_ ?_ ?_ ?_ ?_ ?_ ?_ ?_ ?_ ?_ ?_ ?_ ?_ ?_ ?_ ?_ ?_ ?_ ?_ ?_ ?_ ?_ ?_ ?_ ?_ ?_ ?_

theorem State.herdApply_frame {m : Nat} {s0 s : State} {a2 : _} (hm : 385597294 ||| m = m) (h : Frame m s0 s) : Frame m s0 (State.herdApply s a2) := by
  unfold State.herdApply
  repeat' first
    | with_reducible assumption
    | ((try lift_lets -underBinder); intro x; clear_value (e : x = _); first | refine (fun hx : Frame m s0 x => ?_) (Frame.ofEq e ?_) | (have _f : HostSide := x; subst e) | skip)
    | exact mask_sub rfl hm
    | with_reducible exact Kept.rfl
    | exact Kept.mask (mask_sub rfl hm)
    | intro x
    | with_reducible apply State.fault_frame
    | with_reducible apply State.killDesc_frame
    | with_reducible apply State.ringSettle_frame
    | with_reducible apply State.closeStore_frame
    | with_reducible apply State.setLog_frame
    | with_reducible apply State.killJob_frame
    | with_reducible apply State.setFld_frame
    | with_reducible apply State.endPair_frame
    | with_reducible apply State.tblDestroy_frame
    | with_reducible apply State.resetRegs_frame
    | with_reducible apply State.clearMem_frame
    | with_reducible apply State.resetOr_frame
    | with_reducible apply State.count_frame
    | with_reducible refine Frame.foldl ?_ ?_
    | with_reducible refine FrameOpt.getD ?_ ?_
    | split
    | with_reducible refine Frame.lit rfl ?_ ?_ ?_ ?_ ?_ ?_ ?_ ?_ ?_ ?_ ?_ ?_ ?_ ?_ ?_ ?_ ?_ ?_ ?_ ?_ ?_ ?_ ?_ ?_ ?_ ?_ ?_ ?_

theorem State.herdReset_frame {m : Nat} {s0 s : State} (hm : 32770 ||| m = m) (h : Frame m s0 s) : Frame m s0 (State.herdReset s) := by
  unfold State.herdReset
  repeat' first
    | with_reducible assumption
    | ((try lift_lets -underBinder); intro x; clear_value (e : x = _); skip)
    | exact mask_sub rfl hm
    | with_reducible apply State.broadcast_frame
    | with_reducible apply State.modFabric_frame
    | with_reducible apply Frame.ite

theorem State.herdResetCopy_frame {m : Nat} {s0 s : State} (hm : 385597294 ||| m = m) (h : Frame m s0 s) : Frame m s0 (State.herdResetCopy s) := by
  unfold State.herdResetCopy
  repeat' first
    | with_reducible assumption
    | ((try lift_lets -underBinder); intro x; clear_value (e : x = _); first | refine (fun hx : Frame m s0 x => ?_) (Frame.ofEq e ?_) | skip)
    | exact mask_sub rfl hm
    | with_reducible apply State.broadcast_frame
    | with_reducible apply State.herdApply_frame
    | with_reducible apply State.modFabric_frame
    | with_reducible apply Frame.ite

theorem resetCtrlHook_frame {m : Nat} {s0 s : State} {a1 a2 a3 a4 : _} (hm : 201326574 ||| m = m) (h : Frame m s0 s) : Frame m s0 (resetCtrlHook a1 a2 a3 a4 s) := by
  unfold resetCtrlHook
  repeat' first
    | with_reducible assumption
    | exact mask_sub rfl hm
    | with_reducible apply State.herdReset_frame
    | with_reducible apply State.setFld_frame
    | with_reducible apply State.warmReset_frame
    | with_reducible apply Frame.ite

theorem State.pd3Down_frame {m : Nat} {s0 s : State} (hm : 1049376 ||| m = m) (h : Frame m s0 s) : Frame m s0 (State.pd3Down s) := by
  unfold State.pd3Down
  repeat' first
    | with_reducible assumption
    | ((try lift_lets -underBinder); intro x; clear_value (e : x = _); first | refine (fun hx : Frame m s0 x => ?_) (Frame.ofEq e ?_) | skip)
    | exact mask_sub rfl hm
    | with_reducible exact Kept.rfl
    | exact Kept.mask (mask_sub rfl hm)
    | intro x
    | with_reducible apply State.updTable_frame
    | with_reducible apply State.clearMem_frame
    | with_reducible refine Frame.foldl ?_ ?_
    | with_reducible refine Frame.lit rfl ?_ ?_ ?_ ?_ ?_ ?_ ?_ ?_ ?_ ?_ ?_ ?_ ?_ ?_ ?_ ?_ ?_ ?_ ?_ ?_ ?_ ?_ ?_ ?_ ?_ ?_ ?_ ?_

theorem State.pd5Down_frame {m : Nat} {s0 s : State} (hm : 385081198 ||| m = m) (h : Frame m s0 s) : Frame m s0 (State.pd5Down s) := by
  unfold State.pd5Down
  repeat' first
    | with_reducible assumption
    | ((try lift_lets -underBinder); intro x; clear_value (e : x = _); refine (fun hx : Frame m s0 x => ?_) (Frame.ofEq e ?_))
    | exact mask_sub rfl hm
    | intro x
    | with_reducible apply State.becomeAlone_frame
    | with_reducible apply State.linkDown_frame
    | with_reducible apply State.cellarDown_frame
    | with_reducible apply State.modPower_frame
    | with_reducible apply Frame.ite
    | with_reducible refine Frame.foldl ?_ ?_

theorem pdCtrlHook_frame {m : Nat} {s0 s : State} {a1 a2 a3 a4 : _} (hm : 385081198 ||| m = m) (h : Frame m s0 s) : Frame m s0 (pdCtrlHook a1 a2 a3 a4 s) := by
  unfold pdCtrlHook
  repeat' first
    | with_reducible assumption
    | ((try lift_lets -underBinder); intro x; clear_value (e : x = _); first | refine (fun hx : Frame m s0 x => ?_) (Frame.ofEq e ?_) | (have _f := fun a => x a; subst e))
    | exact mask_sub rfl hm
    | with_reducible apply State.pd3Down_frame
    | with_reducible apply State.setFld_frame
    | with_reducible apply State.pd5Down_frame
    | with_reducible apply Frame.ite

theorem State.retrainedDomain_frame {m : Nat} {s0 s : State} {a2 : _} (hm : 33312 ||| m = m) (h : Frame m s0 s) : Frame m s0 (State.retrainedDomain s a2) := by
  unfold State.retrainedDomain
  repeat' first
    | with_reducible assumption
    | ((try lift_lets -underBinder); intro x; clear_value (e : x = _); first | refine (fun hx : Frame m s0 x => ?_) (Frame.ofEq e ?_) | skip)
    | exact mask_sub rfl hm
    | intro x
    | with_reducible apply State.modTiers_frame
    | with_reducible apply State.setLink_frame
    | with_reducible apply State.modPower_frame
    | with_reducible apply Frame.ite
    | with_reducible refine Frame.foldl ?_ ?_

/-! Machine/Live.lean. -/

theorem State.readReg_frame {m : Nat} {s0 s : State} {a2 a3 a4 : _} (hm : 6 ||| m = m) (h : Frame m s0 s) : Frame m s0 (State.readReg s a2 a3 a4) := by
  unfold State.readReg
  repeat' first
    | with_reducible assumption
    | ((try lift_lets -underBinder); intro x; clear_value (e : x = _); refine (fun hx : Frame m s0 x => ?_) (Frame.ofEq e ?_))
    | exact mask_sub rfl hm
    | with_reducible apply State.unmapped_frame
    | with_reducible apply State.emit_frame
    | with_reducible apply Frame.ite

/-! Machine/HostOps.lean. -/

theorem State.lossDue_frame {m : Nat} {s0 s : State} {a2 : _} (hm : 1024 ||| m = m) (h : Frame m s0 s) : Frame m s0 (State.lossDue s a2) := by
  unfold State.lossDue
  repeat' with_reducible first
    | assumption
    | apply State.modSession_frame

theorem State.port0Config_frame {m : Nat} {s0 s : State} (hm : 1024 ||| m = m) (h : Frame m s0 s) : Frame m s0 (State.port0Config s) := by
  unfold State.port0Config
  repeat' first
    | with_reducible assumption
    | ((try lift_lets -underBinder); intro x; clear_value (e : x = _); (have _f := fun a => x a; subst e))
    | with_reducible apply State.modHost_frame
    | exact Eq.refl _

theorem State.port0Reads_frame {m : Nat} {s0 s : State} (hm : 8390656 ||| m = m) (h : Frame m s0 s) : Frame m s0 (State.port0Reads s) := by
  unfold State.port0Reads
  repeat' first
    | with_reducible assumption
    | ((try lift_lets -underBinder); intro x; clear_value (e : x = _); first | refine (fun hx : Frame m s0 x => ?_) (Frame.ofEq e ?_) | (have _f := fun a => x a; subst e))
    | exact mask_sub rfl hm
    | with_reducible apply State.modWork_frame
    | with_reducible apply State.modServe_frame

theorem State.port0Down_frame {m : Nat} {s0 s : State} (hm : 8391686 ||| m = m) (h : Frame m s0 s) : Frame m s0 (State.port0Down s) := by
  unfold State.port0Down
  repeat' first
    | with_reducible assumption
    | ((try lift_lets -underBinder); intro x; clear_value (e : x = _); refine (fun hx : Frame m s0 x => ?_) (Frame.ofEq e ?_))
    | exact mask_sub rfl hm
    | with_reducible apply State.port0Config_frame
    | with_reducible apply State.raiseOwn_frame
    | with_reducible apply State.port0Reads_frame
    | with_reducible apply State.count_frame
    | with_reducible apply State.lossDue_frame
    | with_reducible apply State.modHost_frame
    | with_reducible apply Frame.ite
    | exact Eq.refl _

theorem State.port1Down_frame {m : Nat} {s0 s : State} (hm : 13868910 ||| m = m) (h : Frame m s0 s) : Frame m s0 (State.port1Down s) := by
  unfold State.port1Down
  repeat' first
    | with_reducible assumption
    | exact mask_sub rfl hm
    | with_reducible apply State.raiseOwn_frame
    | with_reducible apply State.flr_frame
    | with_reducible apply State.count_frame
    | with_reducible apply State.modHost_frame
    | with_reducible apply Frame.ite
    | exact Eq.refl _

theorem State.port0Up_frame {m : Nat} {s0 s : State} {a2 a3 a4 a5 : _} (hm : 1024 ||| m = m) (h : Frame m s0 s) : Frame m s0 (State.port0Up s a2 a3 a4 a5) := by
  unfold State.port0Up
  repeat' first
    | with_reducible assumption
    | with_reducible apply State.modHost_frame
    | with_reducible apply Frame.ite
    | exact Eq.refl _

theorem State.port1Up_frame {m : Nat} {s0 s : State} {a2 a3 : _} (hm : 1024 ||| m = m) (h : Frame m s0 s) : Frame m s0 (State.port1Up s a2 a3) := by
  unfold State.port1Up
  repeat' first
    | with_reducible assumption
    | with_reducible apply State.modHost_frame
    | with_reducible apply Frame.ite
    | exact Eq.refl _

theorem heartbeatHook_frame {m : Nat} {s0 s : State} {a1 a2 a3 a4 : _} (hm : 1026 ||| m = m) (h : Frame m s0 s) : Frame m s0 (heartbeatHook a1 a2 a3 a4 s) := by
  unfold heartbeatHook
  repeat' first
    | with_reducible assumption
    | ((try lift_lets -underBinder); intro x; clear_value (e : x = _); refine (fun hx : Frame m s0 x => ?_) (Frame.ofEq e ?_))
    | exact mask_sub rfl hm
    | with_reducible apply State.modSession_frame
    | with_reducible apply State.setWord_frame
    | split

theorem State.heartbeatExpire_frame {m : Nat} {s0 s : State} (hm : 1024 ||| m = m) (h : Frame m s0 s) : Frame m s0 (State.heartbeatExpire s) := by
  unfold State.heartbeatExpire
  repeat' first
    | with_reducible assumption
    | with_reducible apply State.lossDue_frame
    | with_reducible apply Frame.ite
    | split

theorem State.removeRings_frame {m : Nat} {s0 s : State} (hm : 2054 ||| m = m) (h : Frame m s0 s) : Frame m s0 (State.removeRings s) := by
  unfold State.removeRings
  repeat' first
    | with_reducible assumption
    | ((try lift_lets -underBinder); intro x; clear_value (e : x = _); first | refine (fun hx : Frame m s0 x => ?_) (Frame.ofEq e ?_) | (have _f := fun a => x a; subst e) | skip)
    | exact mask_sub rfl hm
    | with_reducible exact Kept.rfl
    | exact Kept.mask (mask_sub rfl hm)
    | intro x
    | with_reducible apply State.modWork_frame
    | with_reducible apply State.setFldFn_frame
    | with_reducible refine Frame.foldl ?_ ?_
    | with_reducible refine Frame.lit rfl ?_ ?_ ?_ ?_ ?_ ?_ ?_ ?_ ?_ ?_ ?_ ?_ ?_ ?_ ?_ ?_ ?_ ?_ ?_ ?_ ?_ ?_ ?_ ?_ ?_ ?_ ?_ ?_

theorem State.claimSession_frame {m : Nat} {s0 s : State} {a2 : _} (hm : 106254 ||| m = m) (h : Frame m s0 s) : Frame m s0 (State.claimSession s a2) := by
  unfold State.claimSession
  repeat' first
    | with_reducible assumption
    | ((try lift_lets -underBinder); intro x; clear_value (e : x = _); first | refine (fun hx : Frame m s0 x => ?_) (Frame.ofEq e ?_) | skip)
    | exact mask_sub rfl hm
    | with_reducible apply State.modSession_frame
    | with_reducible apply State.ringSettle_frame
    | with_reducible apply State.setFld_frame
    | with_reducible apply State.raiseBy_frame
    | with_reducible apply State.removeRings_frame
    | with_reducible apply State.count_frame
    | with_reducible apply Frame.ite

theorem State.discardPark_frame {m : Nat} {s0 s : State} (hm : 1550 ||| m = m) (h : Frame m s0 s) : Frame m s0 (State.discardPark s) := by
  unfold State.discardPark
  repeat' first
    | with_reducible assumption
    | exact mask_sub rfl hm
    | with_reducible apply State.sessionSettle_frame
    | with_reducible apply State.setPark_frame
    | with_reducible apply Frame.ite

theorem attachCtrlHook_frame {m : Nat} {s0 s : State} {a1 a2 a3 a4 : _} (hm : 106254 ||| m = m) (h : Frame m s0 s) : Frame m s0 (attachCtrlHook a1 a2 a3 a4 s) := by
  unfold attachCtrlHook
  repeat' first
    | with_reducible assumption
    | ((try lift_lets -underBinder); intro x; clear_value (e : x = _); refine (fun hx : Frame m s0 x => ?_) (Frame.ofEq e ?_))
    | exact mask_sub rfl hm
    | with_reducible apply State.setFld_frame
    | with_reducible apply State.discardPark_frame
    | with_reducible apply State.claimSession_frame
    | with_reducible apply Frame.ite

theorem parkWmHook_frame {m : Nat} {s0 s : State} {a1 a2 a3 a4 : _} (hm : 1550 ||| m = m) (h : Frame m s0 s) : Frame m s0 (parkWmHook a1 a2 a3 a4 s) := by
  unfold parkWmHook
  repeat' with_reducible first
    | assumption
    | apply State.setPark_frame

theorem attachHook_frame {m : Nat} {s0 s : State} {a1 a2 a3 a4 a5 : _} (hm : 106254 ||| m = m) (h : Frame m s0 s) : Frame m s0 (attachHook a1 a2 a3 a4 a5 s) := by
  unfold attachHook
  repeat' first
    | with_reducible assumption
    | exact mask_sub rfl hm
    | with_reducible apply parkWmHook_frame
    | with_reducible apply heartbeatHook_frame
    | with_reducible apply attachCtrlHook_frame
    | with_reducible apply noHook_frame
    | split

theorem State.declareLoss_frame {m : Nat} {s0 s : State} (hm : 374849358 ||| m = m) (h : Frame m s0 s) : Frame m s0 (State.declareLoss s) := by
  unfold State.declareLoss
  repeat' first
    | with_reducible assumption
    | ((try lift_lets -underBinder); intro x; clear_value (e : x = _); first | refine (fun hx : Frame m s0 x => ?_) (Frame.ofEq e ?_) | skip)
    | exact mask_sub rfl hm
    | intro x
    | with_reducible apply State.modSession_frame
    | with_reducible apply State.raiseOwn_frame
    | with_reducible apply State.resume_frame
    | with_reducible apply State.ringSettle_frame
    | with_reducible apply State.setFld_frame
    | with_reducible apply attachHook_frame
    | with_reducible apply State.regWrite_frame
    | with_reducible apply State.irqEvent_frame
    | with_reducible apply State.count_frame
    | with_reducible apply State.modHost_frame
    | with_reducible apply Frame.ite
    | exact Eq.refl _
    | with_reducible refine Frame.foldl ?_ ?_
    | split

end Sys2Proof.Machine
end

