-- ==== Sys2Proof/Laws/FrameCmds.lean ====
section
/-! SUPPORT. Which parts each operation of the commands can change: one lemma per operation of Machine/Edges, PowerCmds, PageCmds, TierCmds, RingCmds, RennetCmds, ReqOps, BiasOps, TideCmds, EngineCmds, LadleCmds, HerdCmds, ServeCmds, RolarCmds, FaultCmds, HookTable, FarOps, HostCmds, LinkCmds, MsgCmds. -/

namespace Sys2Proof.Machine

open Sys2Proof.Reg

/-! Machine/Edges.lean. -/

theorem State.domainsLost_frame {m : Nat} {s0 s : State} (hm : 50323266 ||| m = m) (h : Frame m s0 s) : Frame m s0 (State.domainsLost s) := by
  unfold State.domainsLost
  repeat' first
    | with_reducible assumption
    | exact mask_sub rfl hm
    | with_reducible exact Kept.rfl
    | exact Kept.mask (mask_sub rfl hm)
    | with_reducible apply State.setFld_frame
    | with_reducible refine Frame.litLost rfl ?_ ?_ ?_ ?_ ?_ ?_ ?_ ?_ ?_ ?_ ?_ ?_ ?_ ?_ ?_ ?_ ?_ ?_ ?_ ?_ ?_ ?_ ?_ ?_ ?_ ?_ ?_ ?_ ?_

theorem State.floorChanged_frame {m : Nat} {s0 s : State} (hm : 2114 ||| m = m) (h : Frame m s0 s) : Frame m s0 (State.floorChanged s) := by
  unfold State.floorChanged
  repeat' with_reducible first
    | assumption
    | apply State.leaveSettle_frame
    | apply Frame.ite

theorem execP54vRise_frame {m : Nat} {s0 s : State} {a1 a2 : _} (hm : 34 ||| m = m) (h : Frame m s0 (s.at a1)) : FrameOut m s0 (execP54vRise a1 a2 s) := by
  unfold execP54vRise
  repeat' first
    | with_reducible assumption
    | ((try lift_lets -underBinder); intro x; clear_value (e : x = _); refine (fun hx : Frame m s0 x => ?_) (Frame.ofEq e ?_))
    | exact mask_sub rfl hm
    | with_reducible apply State.setFld_frame
    | with_reducible apply State.modPower_frame
    | with_reducible apply Frame.ite
    | with_reducible refine FrameOut.next ?_

theorem execModPgAssert_frame {m : Nat} {s0 s : State} {a1 : _} (hm : 16777234 ||| m = m) (h : Frame m s0 (s.at a1)) : FrameOut m s0 (execModPgAssert a1 s) := by
  unfold execModPgAssert
  repeat' first
    | with_reducible assumption
    | ((try lift_lets -underBinder); intro x; clear_value (e : x = _); first | refine (fun hx : Frame m s0 x => ?_) (Frame.ofEq e ?_) | skip)
    | exact mask_sub rfl hm
    | with_reducible apply State.modRolar_frame
    | with_reducible apply State.setFld_frame
    | with_reducible apply State.modPins_frame
    | with_reducible apply Frame.ite
    | with_reducible refine FrameOut.next ?_

theorem execModuleResetRelease_frame {m : Nat} {s0 s : State} {a1 a2 : _} (hm : 18874546 ||| m = m) (h : Frame m s0 (s.at a1)) : FrameOut m s0 (execModuleResetRelease a1 a2 s) := by
  unfold execModuleResetRelease
  repeat' with_reducible first
    | assumption
    | apply State.release_frame
    | refine FrameOut.next ?_

theorem execStrapChanged_frame {m : Nat} {s0 s : State} {a1 a2 : _} (hm : 2097170 ||| m = m) (h : Frame m s0 (s.at a1)) : FrameOut m s0 (execStrapChanged a1 a2 s) := by
  unfold execStrapChanged
  repeat' first
    | with_reducible assumption
    | ((try lift_lets -underBinder); intro x; clear_value (e : x = _); first | refine (fun hx : Frame m s0 x => ?_) (Frame.ofEq e ?_) | refine (fun hx : Frame m s0 x.2 => ?_) (Frame.ofEq2 e ?_))
    | exact mask_sub rfl hm
    | with_reducible apply State.setWord_frame
    | with_reducible apply State.setFld_frame
    | with_reducible apply State.modPins_frame
    | with_reducible apply State.openNat_frame
    | with_reducible apply State.modHerd_frame
    | with_reducible apply Frame.ite
    | with_reducible refine FrameOut.next ?_

theorem State.resetPin_frame {m : Nat} {s0 s : State} (hm : 201326574 ||| m = m) (h : Frame m s0 s) : Frame m s0 (State.resetPin s) := by
  unfold State.resetPin
  repeat' first
    | with_reducible assumption
    | exact mask_sub rfl hm
    | with_reducible apply State.warmReset_frame
    | with_reducible apply State.modPower_frame
    | with_reducible apply Frame.ite

theorem execResetNPulse_frame {m : Nat} {s0 s : State} {a1 a2 : _} (hm : 201326574 ||| m = m) (h : Frame m s0 (s.at a1)) : FrameOut m s0 (execResetNPulse a1 a2 s) := by
  unfold execResetNPulse
  repeat' first
    | with_reducible assumption
    | ((try lift_lets -underBinder); intro x; clear_value (e : x = _); first | refine (fun hx : Frame m s0 x => ?_) (Frame.ofEq e ?_) | refine (fun hx : Frame m s0 x.2 => ?_) (Frame.ofEq2 e ?_))
    | exact mask_sub rfl hm
    | with_reducible apply State.resetPin_frame
    | with_reducible apply State.openNat_frame
    | with_reducible apply Frame.ite
    | with_reducible refine FrameOut.next ?_

theorem execPerst0NLevel_frame {m : Nat} {s0 s : State} {a1 a2 : _} (hm : 8391702 ||| m = m) (h : Frame m s0 (s.at a1)) : FrameOut m s0 (execPerst0NLevel a1 a2 s) := by
  unfold execPerst0NLevel
  repeat' first
    | with_reducible assumption
    | ((try lift_lets -underBinder); intro x; clear_value (e : x = _); first | refine (fun hx : Frame m s0 x => ?_) (Frame.ofEq e ?_) | skip)
    | exact mask_sub rfl hm
    | with_reducible apply State.port0Down_frame
    | with_reducible apply State.modPins_frame
    | with_reducible apply Frame.ite
    | with_reducible refine FrameOut.next ?_

theorem execPerst0WarmReset_frame {m : Nat} {s0 s : State} {a1 : _} (hm : 201326590 ||| m = m) (h : Frame m s0 (s.at a1)) : FrameOut m s0 (execPerst0WarmReset a1 s) := by
  unfold execPerst0WarmReset
  repeat' first
    | with_reducible assumption
    | ((try lift_lets -underBinder); intro x; clear_value (e : x = _); refine (fun hx : Frame m s0 x => ?_) (Frame.ofEq e ?_))
    | exact mask_sub rfl hm
    | with_reducible apply State.warmReset_frame
    | with_reducible apply State.modPins_frame
    | with_reducible apply Frame.ite
    | with_reducible refine FrameOut.next ?_
    | split

theorem execPerst1NLevel_frame {m : Nat} {s0 s : State} {a1 a2 : _} (hm : 13868926 ||| m = m) (h : Frame m s0 (s.at a1)) : FrameOut m s0 (execPerst1NLevel a1 a2 s) := by
  unfold execPerst1NLevel
  repeat' first
    | with_reducible assumption
    | ((try lift_lets -underBinder); intro x; clear_value (e : x = _); refine (fun hx : Frame m s0 x => ?_) (Frame.ofEq e ?_))
    | exact mask_sub rfl hm
    | with_reducible apply State.port1Down_frame
    | with_reducible apply State.modPins_frame
    | with_reducible apply Frame.ite
    | with_reducible refine FrameOut.next ?_

theorem execPwrBrakeN_frame {m : Nat} {s0 s : State} {a1 a2 : _} (hm : 2130 ||| m = m) (h : Frame m s0 (s.at a1)) : FrameOut m s0 (execPwrBrakeN a1 a2 s) := by
  unfold execPwrBrakeN
  repeat' first
    | with_reducible assumption
    | ((try lift_lets -underBinder); intro x; clear_value (e : x = _); first | refine (fun hx : Frame m s0 x => ?_) (Frame.ofEq e ?_) | skip)
    | exact mask_sub rfl hm
    | with_reducible apply State.modPins_frame
    | with_reducible apply State.floorChanged_frame
    | with_reducible refine FrameOut.next ?_

theorem execTideInRise_frame {m : Nat} {s0 s : State} {a1 : _} (hm : 376700702 ||| m = m) (h : Frame m s0 (s.at a1)) : FrameOut m s0 (execTideInRise a1 s) := by
  unfold execTideInRise
  repeat' first
    | with_reducible assumption
    | ((try lift_lets -underBinder); intro x; clear_value (e : x = _); refine (fun hx : Frame m s0 x => ?_) (Frame.ofEq e ?_))
    | exact mask_sub rfl hm
    | with_reducible apply State.setFld_frame
    | with_reducible apply State.modPins_frame
    | with_reducible apply State.takePulse_frame
    | with_reducible apply Frame.ite
    | with_reducible refine FrameOut.next ?_
    | split

theorem execTideInFall_frame {m : Nat} {s0 s : State} {a1 : _} (hm : 16 ||| m = m) (h : Frame m s0 (s.at a1)) : FrameOut m s0 (execTideInFall a1 s) := by
  unfold execTideInFall
  repeat' with_reducible first
    | assumption
    | apply State.modPins_frame
    | refine FrameOut.next ?_

theorem execStuckSpanExpire_frame {m : Nat} {s0 s : State} {a1 a2 : _} (hm : 2 ||| m = m) (h : Frame m s0 (s.at a1)) : FrameOut m s0 (execStuckSpanExpire a1 a2 s) := by
  unfold execStuckSpanExpire
  repeat' first
    | with_reducible assumption
    | ((try lift_lets -underBinder); intro x; clear_value (e : x = _); first | refine (fun hx : Frame m s0 x => ?_) (Frame.ofEq e ?_) | skip)
    | with_reducible apply State.setFld_frame
    | with_reducible apply Frame.ite
    | with_reducible refine FrameOut.next ?_

theorem execStuckClear_frame {m : Nat} {s0 s : State} {a1 a2 a3 : _} (hm : 1030 ||| m = m) (h : Frame m s0 (s.at a1)) : FrameOut m s0 (execStuckClear a1 a2 a3 s) := by
  unfold execStuckClear
  repeat' first
    | with_reducible assumption
    | exact mask_sub rfl hm
    | intro x
    | with_reducible apply State.regWrite_frame
    | with_reducible apply noHook_frame
    | with_reducible refine FrameOut.next ?_

theorem execZkPrsntN_frame {m : Nat} {s0 s : State} {a1 a2 : _} (hm : 339844894 ||| m = m) (h : Frame m s0 (s.at a1)) : FrameOut m s0 (execZkPrsntN a1 a2 s) := by
  unfold execZkPrsntN
  repeat' first
    | with_reducible assumption
    | ((try lift_lets -underBinder); intro x; clear_value (e : x = _); refine (fun hx : Frame m s0 x => ?_) (Frame.ofEq e ?_))
    | exact mask_sub rfl hm
    | with_reducible apply State.linkDown_frame
    | with_reducible apply State.modPins_frame
    | with_reducible apply Frame.ite
    | with_reducible refine FrameOut.next ?_
    | with_reducible exact FrameOut.fault
    | with_reducible refine FrameOut.ite ?_ ?_

theorem execCableSeated_frame {m : Nat} {s0 s : State} {a1 a2 : _} (hm : 16 ||| m = m) (h : Frame m s0 (s.at a1)) : FrameOut m s0 (execCableSeated a1 a2 s) := by
  unfold execCableSeated
  repeat' with_reducible first
    | assumption
    | apply State.modPins_frame
    | refine FrameOut.next ?_
    | exact FrameOut.fault
    | refine FrameOut.ite ?_ ?_

theorem execCprsntN_frame {m : Nat} {s0 s : State} {a1 a2 a3 : _} (hm : 382967646 ||| m = m) (h : Frame m s0 (s.at a1)) : FrameOut m s0 (execCprsntN a1 a2 a3 s) := by
  unfold execCprsntN
  repeat' with_reducible first
    | assumption
    | apply State.drivePin_frame
    | refine FrameOut.next ?_
    | exact FrameOut.fault
    | refine FrameOut.ite ?_ ?_

theorem execM1BusTimeout_frame {m : Nat} {s0 s : State} {a1 a2 : _} (hm : 16777216 ||| m = m) (h : Frame m s0 (s.at a1)) : FrameOut m s0 (execM1BusTimeout a1 a2 s) := by
  unfold execM1BusTimeout
  repeat' first
    | with_reducible assumption
    | ((try lift_lets -underBinder); intro x; clear_value (e : x = _); refine (fun hx : Frame m s0 x => ?_) (Frame.ofEq e ?_))
    | with_reducible apply State.modRolar_frame
    | with_reducible apply Frame.ite
    | with_reducible refine FrameOut.next ?_

theorem execUndervoltage_frame {m : Nat} {s0 s : State} {a1 a2 : _} (hm : 536870911 ||| m = m) (h : Frame m s0 (s.at a1)) : FrameOut m s0 (execUndervoltage a1 a2 s) := by
  unfold execUndervoltage
  repeat' first
    | with_reducible assumption
    | ((try lift_lets -underBinder); intro x; clear_value (e : x = _); refine (fun hx : Frame m s0 x => ?_) (Frame.ofEq e ?_))
    | exact mask_sub rfl hm
    | with_reducible apply State.coldOff_frame
    | with_reducible apply State.modPower_frame
    | with_reducible apply Frame.ite
    | with_reducible refine FrameOut.next ?_

theorem execRetentionFlagLost_frame {m : Nat} {s0 s : State} {a1 a2 : _} (hm : 536870911 ||| m = m) (h : Frame m s0 (s.at a1)) : FrameOut m s0 (execRetentionFlagLost a1 a2 s) := by
  unfold execRetentionFlagLost
  repeat' first
    | with_reducible assumption
    | ((try lift_lets -underBinder); intro x; clear_value (e : x = _); refine (fun hx : Frame m s0 x => ?_) (Frame.ofEq e ?_))
    | exact mask_sub rfl hm
    | with_reducible apply State.coldOff_frame
    | with_reducible apply State.modPower_frame
    | with_reducible apply Frame.ite
    | with_reducible refine FrameOut.next ?_

theorem execLowBand_frame {m : Nat} {s0 s : State} {a1 a2 : _} (hm : 2146 ||| m = m) (h : Frame m s0 (s.at a1)) : FrameOut m s0 (execLowBand a1 a2 s) := by
  unfold execLowBand
  repeat' first
    | with_reducible assumption
    | ((try lift_lets -underBinder); intro x; clear_value (e : x = _); refine (fun hx : Frame m s0 x => ?_) (Frame.ofEq e ?_))
    | exact mask_sub rfl hm
    | with_reducible apply State.setFld_frame
    | with_reducible apply State.floorChanged_frame
    | with_reducible apply State.modPower_frame
    | with_reducible apply Frame.ite
    | with_reducible refine FrameOut.next ?_

theorem execOvervoltage_frame {m : Nat} {s0 s : State} {a1 a2 : _} (hm : 50323298 ||| m = m) (h : Frame m s0 (s.at a1)) : FrameOut m s0 (execOvervoltage a1 a2 s) := by
  unfold execOvervoltage
  repeat' first
    | with_reducible assumption
    | ((try lift_lets -underBinder); intro x; clear_value (e : x = _); refine (fun hx : Frame m s0 x => ?_) (Frame.ofEq e ?_))
    | exact mask_sub rfl hm
    | with_reducible apply State.setFld_frame
    | with_reducible apply State.domainsLost_frame
    | with_reducible apply State.modPower_frame
    | with_reducible apply Frame.ite
    | with_reducible refine FrameOut.next ?_

theorem execOvRelease_frame {m : Nat} {s0 s : State} {a1 a2 : _} (hm : 201326574 ||| m = m) (h : Frame m s0 (s.at a1)) : FrameOut m s0 (execOvRelease a1 a2 s) := by
  unfold execOvRelease
  repeat' first
    | with_reducible assumption
    | ((try lift_lets -underBinder); intro x; clear_value (e : x = _); refine (fun hx : Frame m s0 x => ?_) (Frame.ofEq e ?_))
    | exact mask_sub rfl hm
    | with_reducible apply State.warmReset_frame
    | with_reducible apply State.modPower_frame
    | with_reducible apply Frame.ite
    | with_reducible refine FrameOut.next ?_

theorem execThermalThrottle_frame {m : Nat} {s0 s : State} {a1 a2 : _} (hm : 2146 ||| m = m) (h : Frame m s0 (s.at a1)) : FrameOut m s0 (execThermalThrottle a1 a2 s) := by
  unfold execThermalThrottle
  repeat' first
    | with_reducible assumption
    | ((try lift_lets -underBinder); intro x; clear_value (e : x = _); refine (fun hx : Frame m s0 x => ?_) (Frame.ofEq e ?_))
    | exact mask_sub rfl hm
    | with_reducible apply State.setFld_frame
    | with_reducible apply State.floorChanged_frame
    | with_reducible apply State.modPower_frame
    | with_reducible apply Frame.ite
    | with_reducible refine FrameOut.next ?_

theorem execThermalTrip_frame {m : Nat} {s0 s : State} {a1 a2 : _} (hm : 520085350 ||| m = m) (h : Frame m s0 (s.at a1)) : FrameOut m s0 (execThermalTrip a1 a2 s) := by
  unfold execThermalTrip
  repeat' first
    | with_reducible assumption
    | ((try lift_lets -underBinder); intro x; clear_value (e : x = _); refine (fun hx : Frame m s0 x => ?_) (Frame.ofEq e ?_))
    | exact mask_sub rfl hm
    | with_reducible apply State.setFld_frame
    | with_reducible apply State.domainsLost_frame
    | with_reducible apply State.nodeFatal_frame
    | with_reducible apply State.modPower_frame
    | with_reducible apply Frame.ite
    | with_reducible refine FrameOut.next ?_

/-! Machine/PowerCmds.lean. -/

theorem State.domainOn_frame {m : Nat} {s0 s : State} {a2 : _} (hm : 32 ||| m = m) (h : Frame m s0 s) : Frame m s0 (State.domainOn s a2) := by
  unfold State.domainOn
  repeat' with_reducible first
    | assumption
    | apply State.modPower_frame
    | apply Frame.ite

theorem execPdSwitchOn_frame {m : Nat} {s0 s : State} {a1 a2 : _} (hm : 32 ||| m = m) (h : Frame m s0 (s.at a1)) : FrameOut m s0 (execPdSwitchOn a1 a2 s) := by
  unfold execPdSwitchOn
  repeat' with_reducible first
    | assumption
    | apply State.domainOn_frame
    | refine FrameOut.next ?_
    | exact FrameOut.fault
    | refine FrameOut.ite ?_ ?_

theorem execTiersReady_frame {m : Nat} {s0 s : State} {a1 a2 a3 a4 : _} (hm : 349413326 ||| m = m) (h : Frame m s0 (s.at a1)) : FrameOut m s0 (execTiersReady a1 a2 a3 a4 s) := by
  unfold execTiersReady
  repeat' first
    | with_reducible assumption
    | ((try lift_lets -underBinder); intro x; clear_value (e : x = _); first | refine (fun hx : Frame m s0 x => ?_) (Frame.ofEq e ?_) | skip)
    | exact mask_sub rfl hm
    | intro x
    | with_reducible apply State.modTiers_frame
    | with_reducible apply State.tierFail_frame
    | with_reducible apply State.ringSettle_frame
    | with_reducible apply State.setFld_frame
    | with_reducible apply State.leaveSettle_frame
    | with_reducible apply State.calDue_frame
    | with_reducible apply State.calLearn_frame
    | with_reducible apply Frame.ite
    | with_reducible refine Frame.foldl ?_ ?_
    | with_reducible refine FrameOut.next ?_

theorem execPd3Off_frame {m : Nat} {s0 s : State} {a1 a2 a3 : _} (hm : 385081198 ||| m = m) (h : Frame m s0 (s.at a1)) : FrameOut m s0 (execPd3Off a1 a2 a3 s) := by
  unfold execPd3Off
  repeat' first
    | with_reducible assumption
    | ((try lift_lets -underBinder); intro x; clear_value (e : x = _); refine (fun hx : Frame m s0 x => ?_) (Frame.ofEq e ?_))
    | exact mask_sub rfl hm
    | intro x
    | with_reducible apply State.regWrite_frame
    | with_reducible apply pdCtrlHook_frame
    | with_reducible refine FrameOut.next ?_

theorem execPd5Off_frame {m : Nat} {s0 s : State} {a1 a2 a3 : _} (hm : 385081198 ||| m = m) (h : Frame m s0 (s.at a1)) : FrameOut m s0 (execPd5Off a1 a2 a3 s) := by
  unfold execPd5Off
  repeat' first
    | with_reducible assumption
    | ((try lift_lets -underBinder); intro x; clear_value (e : x = _); refine (fun hx : Frame m s0 x => ?_) (Frame.ofEq e ?_))
    | exact mask_sub rfl hm
    | intro x
    | with_reducible apply State.regWrite_frame
    | with_reducible apply pdCtrlHook_frame
    | with_reducible refine FrameOut.next ?_

theorem execPdRetrained_frame {m : Nat} {s0 s : State} {a1 a2 : _} (hm : 33312 ||| m = m) (h : Frame m s0 (s.at a1)) : FrameOut m s0 (execPdRetrained a1 a2 s) := by
  unfold execPdRetrained
  repeat' with_reducible first
    | assumption
    | apply State.retrainedDomain_frame
    | refine FrameOut.next ?_
    | exact FrameOut.fault
    | refine FrameOut.ite ?_ ?_

theorem execLeaveRequest_frame {m : Nat} {s0 s : State} {a1 a2 a3 : _} (hm : 335552070 ||| m = m) (h : Frame m s0 (s.at a1)) : FrameOut m s0 (execLeaveRequest a1 a2 a3 s) := by
  unfold execLeaveRequest
  repeat' first
    | with_reducible assumption
    | ((try lift_lets -underBinder); intro x; clear_value (e : x = _); first | refine (fun hx : Frame m s0 x => ?_) (Frame.ofEq e ?_) | skip)
    | exact mask_sub rfl hm
    | with_reducible apply State.placeAll_frame
    | with_reducible apply State.failSlice_frame
    | with_reducible apply State.leaveAsk_frame
    | with_reducible apply State.count_frame
    | with_reducible apply Frame.ite
    | with_reducible refine FrameOut.next ?_
    | split

theorem execLeaveRelease_frame {m : Nat} {s0 s : State} {a1 a2 a3 : _} (hm : 2114 ||| m = m) (h : Frame m s0 (s.at a1)) : FrameOut m s0 (execLeaveRelease a1 a2 a3 s) := by
  unfold execLeaveRelease
  repeat' first
    | with_reducible assumption
    | ((try lift_lets -underBinder); intro x; clear_value (e : x = _); first | refine (fun hx : Frame m s0 x => ?_) (Frame.ofEq e ?_) | skip)
    | with_reducible apply State.leaveDrop_frame
    | with_reducible apply Frame.ite
    | with_reducible refine FrameOut.next ?_

theorem execLeaveTimeout_frame {m : Nat} {s0 s : State} {a1 a2 : _} (hm : 335552070 ||| m = m) (h : Frame m s0 (s.at a1)) : FrameOut m s0 (execLeaveTimeout a1 a2 s) := by
  unfold execLeaveTimeout
  repeat' first
    | with_reducible assumption
    | ((try lift_lets -underBinder); intro x; clear_value (e : x = _); refine (fun hx : Frame m s0 x => ?_) (Frame.ofEq e ?_))
    | exact mask_sub rfl hm
    | with_reducible apply State.placeAll_frame
    | with_reducible apply State.leaveSettle_frame
    | with_reducible apply State.failSlice_frame
    | with_reducible apply State.leaveUnwait_frame
    | with_reducible apply State.count_frame
    | with_reducible apply Frame.ite
    | with_reducible refine FrameOut.next ?_
    | split

theorem execCalWriteDue_frame {m : Nat} {s0 s : State} {a1 : _} (hm : 128 ||| m = m) (h : Frame m s0 (s.at a1)) : FrameOut m s0 (execCalWriteDue a1 s) := by
  unfold execCalWriteDue
  repeat' first
    | with_reducible assumption
    | ((try lift_lets -underBinder); intro x; clear_value (e : x = _); refine (fun hx : Frame m s0 x => ?_) (Frame.ofEq e ?_))
    | with_reducible apply State.calDue_frame
    | with_reducible apply Frame.ite
    | with_reducible refine FrameOut.next ?_

theorem execSaveNow_frame {m : Nat} {s0 s : State} {a1 a2 a3 : _} (hm : 1158 ||| m = m) (h : Frame m s0 (s.at a1)) : FrameOut m s0 (execSaveNow a1 a2 a3 s) := by
  unfold execSaveNow
  repeat' first
    | with_reducible assumption
    | exact mask_sub rfl hm
    | intro x
    | with_reducible apply calCtrlHook_frame
    | with_reducible apply State.regWrite_frame
    | with_reducible refine FrameOut.next ?_

theorem execCalWriteEnd_frame {m : Nat} {s0 s : State} {a1 a2 : _} (hm : 130 ||| m = m) (h : Frame m s0 (s.at a1)) : FrameOut m s0 (execCalWriteEnd a1 a2 s) := by
  unfold execCalWriteEnd
  repeat' with_reducible first
    | assumption
    | apply State.calEnd_frame
    | refine FrameOut.next ?_

theorem execWarmReq_frame {m : Nat} {s0 s : State} {a1 a2 : _} (hm : 201326574 ||| m = m) (h : Frame m s0 (s.at a1)) : FrameOut m s0 (execWarmReq a1 a2 s) := by
  unfold execWarmReq
  repeat' first
    | with_reducible assumption
    | exact mask_sub rfl hm
    | intro x
    | with_reducible apply State.regWrite_frame
    | with_reducible apply resetCtrlHook_frame
    | with_reducible refine FrameOut.next ?_

theorem execHerdReq_frame {m : Nat} {s0 s : State} {a1 a2 : _} (hm : 201326574 ||| m = m) (h : Frame m s0 (s.at a1)) : FrameOut m s0 (execHerdReq a1 a2 s) := by
  unfold execHerdReq
  repeat' first
    | with_reducible assumption
    | exact mask_sub rfl hm
    | intro x
    | with_reducible apply State.regWrite_frame
    | with_reducible apply resetCtrlHook_frame
    | with_reducible refine FrameOut.next ?_

theorem execHerdReset_frame {m : Nat} {s0 s : State} {a1 a2 : _} (hm : 385597294 ||| m = m) (h : Frame m s0 (s.at a1)) : FrameOut m s0 (execHerdReset a1 a2 s) := by
  unfold execHerdReset
  repeat' first
    | with_reducible assumption
    | ((try lift_lets -underBinder); intro x; clear_value (e : x = _); first | refine (fun hx : Frame m s0 x => ?_) (Frame.ofEq e ?_) | skip)
    | with_reducible apply State.herdApply_frame
    | with_reducible apply Frame.ite
    | with_reducible refine FrameOut.next ?_

theorem execFunctionLevelReset_frame {m : Nat} {s0 s : State} {a1 a2 : _} (hm : 13868910 ||| m = m) (h : Frame m s0 (s.at a1)) : FrameOut m s0 (execFunctionLevelReset a1 a2 s) := by
  unfold execFunctionLevelReset
  repeat' first
    | with_reducible assumption
    | ((try lift_lets -underBinder); intro x; clear_value (e : x = _); refine (fun hx : Frame m s0 x => ?_) (Frame.ofEq e ?_))
    | with_reducible apply State.flr_frame
    | with_reducible apply Frame.ite
    | with_reducible refine FrameOut.next ?_
    | with_reducible exact FrameOut.fault
    | with_reducible refine FrameOut.ite ?_ ?_

theorem State.unqueue_frame {m : Nat} {s0 s : State} {a2 : _} (hm : 2048 ||| m = m) (h : Frame m s0 s) : Frame m s0 (State.unqueue s a2) := by
  unfold State.unqueue
  repeat' with_reducible first
    | assumption
    | apply State.placeAll_frame
    | apply State.modWork_frame
    | apply Frame.ite

theorem pgCtrlHook_frame {m : Nat} {s0 s : State} {a1 a2 a3 a4 : _} (hm : 349421422 ||| m = m) (h : Frame m s0 s) : Frame m s0 (pgCtrlHook a1 a2 a3 a4 s) := by
  unfold pgCtrlHook
  repeat' first
    | with_reducible assumption
    | ((try lift_lets -underBinder); intro x; clear_value (e : x = _); first | refine (fun hx : Frame m s0 x => ?_) (Frame.ofEq e ?_) | skip)
    | exact mask_sub rfl hm
    | with_reducible apply State.linkService_frame
    | with_reducible apply State.blockReset_frame
    | with_reducible apply State.unqueue_frame
    | with_reducible apply Frame.ite

theorem execBlockReset_frame {m : Nat} {s0 s : State} {a1 a2 a3 : _} (hm : 349421422 ||| m = m) (h : Frame m s0 (s.at a1)) : FrameOut m s0 (execBlockReset a1 a2 a3 s) := by
  unfold execBlockReset
  repeat' first
    | with_reducible assumption
    | ((try lift_lets -underBinder); intro x; clear_value (e : x = _); refine (fun hx : Frame m s0 x => ?_) (Frame.ofEq e ?_))
    | exact mask_sub rfl hm
    | intro x
    | with_reducible apply pgCtrlHook_frame
    | with_reducible apply State.regWrite_frame
    | with_reducible refine FrameOut.next ?_

theorem leaveCfgHook_frame {m : Nat} {s0 s : State} {a1 a2 a3 a4 : _} (hm : 2114 ||| m = m) (h : Frame m s0 s) : Frame m s0 (leaveCfgHook a1 a2 a3 a4 s) := by
  unfold leaveCfgHook
  repeat' with_reducible first
    | assumption
    | apply State.floorChanged_frame

theorem execSustainedBudgetWrite_frame {m : Nat} {s0 s : State} {a1 a2 a3 : _} (hm : 3142 ||| m = m) (h : Frame m s0 (s.at a1)) : FrameOut m s0 (execSustainedBudgetWrite a1 a2 a3 s) := by
  unfold execSustainedBudgetWrite
  repeat' first
    | with_reducible assumption
    | ((try lift_lets -underBinder); intro x; clear_value (e : x = _); refine (fun hx : Frame m s0 x => ?_) (Frame.ofEq e ?_))
    | exact mask_sub rfl hm
    | intro x
    | with_reducible apply leaveCfgHook_frame
    | with_reducible apply State.regWrite_frame
    | with_reducible refine FrameOut.next ?_

/-! Machine/PageCmds.lean. -/

theorem execUnmappedAccess_frame {m : Nat} {s0 s : State} {a1 a2 a3 a4 a5 : _} (hm : 6 ||| m = m) (h : Frame m s0 (s.at a1)) : FrameOut m s0 (execUnmappedAccess a1 a2 a3 a4 a5 s) := by
  unfold execUnmappedAccess
  repeat' first
    | with_reducible assumption
    | ((try lift_lets -underBinder); intro x; clear_value (e : x = _); refine (fun hx : Frame m s0 x => ?_) (Frame.ofEq e ?_))
    | exact mask_sub rfl hm
    | with_reducible apply State.unmapped_frame
    | with_reducible apply State.emit_frame
    | with_reducible apply Frame.ite
    | with_reducible refine FrameOut.next ?_

theorem pgLockHook_frame {m : Nat} {s0 s : State} {a1 a2 a3 a4 : _} (hm : 2 ||| m = m) (h : Frame m s0 s) : Frame m s0 (pgLockHook a1 a2 a3 a4 s) := by
  unfold pgLockHook
  repeat' with_reducible first
    | assumption
    | apply State.setFldFn_frame
    | apply Frame.ite

theorem execPgLock_frame {m : Nat} {s0 s : State} {a1 a2 a3 : _} (hm : 1030 ||| m = m) (h : Frame m s0 (s.at a1)) : FrameOut m s0 (execPgLock a1 a2 a3 s) := by
  unfold execPgLock
  repeat' first
    | with_reducible assumption
    | exact mask_sub rfl hm
    | intro x
    | with_reducible apply State.regWrite_frame
    | with_reducible apply pgLockHook_frame
    | with_reducible refine FrameOut.next ?_

theorem execPgCtrlEnable_frame {m : Nat} {s0 s : State} {a1 a2 a3 a4 : _} (hm : 349421422 ||| m = m) (h : Frame m s0 (s.at a1)) : FrameOut m s0 (execPgCtrlEnable a1 a2 a3 a4 s) := by
  unfold execPgCtrlEnable
  repeat' first
    | with_reducible assumption
    | ((try lift_lets -underBinder); intro x; clear_value (e : x = _); refine (fun hx : Frame m s0 x => ?_) (Frame.ofEq e ?_))
    | exact mask_sub rfl hm
    | intro x
    | with_reducible apply pgCtrlHook_frame
    | with_reducible apply State.regWrite_frame
    | with_reducible refine FrameOut.next ?_

theorem execPgCtrlQuiesce_frame {m : Nat} {s0 s : State} {a1 a2 a3 a4 : _} (hm : 349421422 ||| m = m) (h : Frame m s0 (s.at a1)) : FrameOut m s0 (execPgCtrlQuiesce a1 a2 a3 a4 s) := by
  unfold execPgCtrlQuiesce
  repeat' first
    | with_reducible assumption
    | ((try lift_lets -underBinder); intro x; clear_value (e : x = _); refine (fun hx : Frame m s0 x => ?_) (Frame.ofEq e ?_))
    | exact mask_sub rfl hm
    | intro x
    | with_reducible apply pgCtrlHook_frame
    | with_reducible apply State.regWrite_frame
    | with_reducible refine FrameOut.next ?_

theorem execPgCtrlOutOfService_frame {m : Nat} {s0 s : State} {a1 a2 a3 a4 : _} (hm : 349421422 ||| m = m) (h : Frame m s0 (s.at a1)) : FrameOut m s0 (execPgCtrlOutOfService a1 a2 a3 a4 s) := by
  unfold execPgCtrlOutOfService
  repeat' first
    | with_reducible assumption
    | ((try lift_lets -underBinder); intro x; clear_value (e : x = _); refine (fun hx : Frame m s0 x => ?_) (Frame.ofEq e ?_))
    | exact mask_sub rfl hm
    | intro x
    | with_reducible apply pgCtrlHook_frame
    | with_reducible apply State.regWrite_frame
    | with_reducible refine FrameOut.next ?_

theorem execPgSync_frame {m : Nat} {s0 s : State} {a1 a2 a3 : _} (hm : 6 ||| m = m) (h : Frame m s0 (s.at a1)) : FrameOut m s0 (execPgSync a1 a2 a3 s) := by
  unfold execPgSync
  repeat' first
    | with_reducible assumption
    | ((try lift_lets -underBinder); intro x; clear_value (e : x = _); first | refine (fun hx : Frame m s0 x => ?_) (Frame.ofEq e ?_) | skip)
    | exact mask_sub rfl hm
    | with_reducible apply State.readReg_frame
    | with_reducible apply State.setPage_frame
    | with_reducible apply Frame.ite
    | with_reducible refine FrameOut.next ?_

theorem errInjectHook_frame {m : Nat} {s0 s : State} {a1 a2 a3 a4 : _} (hm : 4 ||| m = m) (h : Frame m s0 s) : Frame m s0 (errInjectHook a1 a2 a3 a4 s) := by
  unfold errInjectHook
  repeat' first
    | with_reducible assumption
    | ((try lift_lets -underBinder); intro x; clear_value (e : x = _); skip)
    | with_reducible apply State.setPage_frame
    | with_reducible apply Frame.ite

theorem execErrInjectFire_frame {m : Nat} {s0 s : State} {a1 a2 a3 a4 : _} (hm : 1030 ||| m = m) (h : Frame m s0 (s.at a1)) : FrameOut m s0 (execErrInjectFire a1 a2 a3 a4 s) := by
  unfold execErrInjectFire
  repeat' first
    | with_reducible assumption
    | exact mask_sub rfl hm
    | intro x
    | with_reducible apply errInjectHook_frame
    | with_reducible apply State.regWrite_frame
    | with_reducible refine FrameOut.next ?_

theorem execInjectionDelivered_frame {m : Nat} {s0 s : State} {a1 a2 a3 : _} (hm : 6 ||| m = m) (h : Frame m s0 (s.at a1)) : FrameOut m s0 (execInjectionDelivered a1 a2 a3 s) := by
  unfold execInjectionDelivered
  repeat' first
    | with_reducible assumption
    | ((try lift_lets -underBinder); intro x; clear_value (e : x = _); first | refine (fun hx : Frame m s0 x => ?_) (Frame.ofEq e ?_) | skip)
    | exact mask_sub rfl hm
    | with_reducible apply State.setSticky_frame
    | with_reducible apply State.raise_frame
    | with_reducible apply State.setPage_frame
    | with_reducible refine FrameOut.next ?_
    | split

theorem errFirstHook_frame {m : Nat} {s0 s : State} {a1 a2 a3 a4 : _} (hm : 2 ||| m = m) (h : Frame m s0 s) : Frame m s0 (errFirstHook a1 a2 a3 a4 s) := by
  unfold errFirstHook
  repeat' first
    | with_reducible assumption
    | ((try lift_lets -underBinder); intro x; clear_value (e : x = _); skip)
    | with_reducible apply State.setWord_frame
    | with_reducible apply Frame.ite

theorem execErrFirstClear_frame {m : Nat} {s0 s : State} {a1 a2 a3 : _} (hm : 1030 ||| m = m) (h : Frame m s0 (s.at a1)) : FrameOut m s0 (execErrFirstClear a1 a2 a3 s) := by
  unfold execErrFirstClear
  repeat' first
    | with_reducible assumption
    | exact mask_sub rfl hm
    | intro x
    | with_reducible apply errFirstHook_frame
    | with_reducible apply State.regWrite_frame
    | with_reducible refine FrameOut.next ?_

theorem State.blockFault_frame {m : Nat} {s0 s : State} {a2 a3 a4 a5 : _} (hm : 335552070 ||| m = m) (h : Frame m s0 s) : Frame m s0 (State.blockFault s a2 a3 a4 a5) := by
  unfold State.blockFault
  repeat' first
    | with_reducible assumption
    | ((try lift_lets -underBinder); intro x; clear_value (e : x = _); refine (fun hx : Frame m s0 x => ?_) (Frame.ofEq e ?_))
    | exact mask_sub rfl hm
    | intro x
    | with_reducible apply State.unitFault_frame
    | with_reducible apply State.failSlice_frame
    | with_reducible apply State.unqueue_frame
    | with_reducible apply Frame.ite
    | with_reducible refine Frame.foldl ?_ ?_

theorem execRegParity_frame {m : Nat} {s0 s : State} {a1 a2 a3 a4 : _} (hm : 469769798 ||| m = m) (h : Frame m s0 (s.at a1)) : FrameOut m s0 (execRegParity a1 a2 a3 a4 s) := by
  unfold execRegParity
  repeat' first
    | with_reducible assumption
    | ((try lift_lets -underBinder); intro x; clear_value (e : x = _); refine (fun hx : Frame m s0 x => ?_) (Frame.ofEq e ?_))
    | exact mask_sub rfl hm
    | with_reducible apply State.blockFault_frame
    | with_reducible apply State.corrected_frame
    | with_reducible apply State.raise_frame
    | with_reducible apply State.nodeFatal_frame
    | with_reducible apply Frame.ite
    | with_reducible refine FrameOut.next ?_

theorem irqRouteHook_frame {m : Nat} {s0 s : State} {a1 a2 a3 a4 : _} (hm : 4 ||| m = m) (h : Frame m s0 s) : Frame m s0 (irqRouteHook a1 a2 a3 a4 s) := by
  unfold irqRouteHook
  repeat' with_reducible first
    | assumption
    | apply State.irqSettle_frame

theorem execIrqRoute_frame {m : Nat} {s0 s : State} {a1 a2 a3 a4 : _} (hm : 1030 ||| m = m) (h : Frame m s0 (s.at a1)) : FrameOut m s0 (execIrqRoute a1 a2 a3 a4 s) := by
  unfold execIrqRoute
  repeat' first
    | with_reducible assumption
    | exact mask_sub rfl hm
    | intro x
    | with_reducible apply State.regWrite_frame
    | with_reducible apply irqRouteHook_frame
    | with_reducible refine FrameOut.next ?_

theorem execModTimeExpire_frame {m : Nat} {s0 s : State} {a1 a2 a3 : _} (hm : 4 ||| m = m) (h : Frame m s0 (s.at a1)) : FrameOut m s0 (execModTimeExpire a1 a2 a3 s) := by
  unfold execModTimeExpire
  repeat' first
    | with_reducible assumption
    | ((try lift_lets -underBinder); intro x; clear_value (e : x = _); refine (fun hx : Frame m s0 x => ?_) (Frame.ofEq e ?_))
    | with_reducible apply State.irqSettle_frame
    | with_reducible apply Frame.ite
    | with_reducible refine FrameOut.next ?_

theorem headHook_frame {m : Nat} {s0 s : State} {a1 a2 a3 a4 a5 : _} (hm : 349421422 ||| m = m) (h : Frame m s0 s) : Frame m s0 (headHook a1 a2 a3 a4 a5 s) := by
  unfold headHook
  repeat' first
    | with_reducible assumption
    | exact mask_sub rfl hm
    | with_reducible apply errFirstHook_frame
    | with_reducible apply pgCtrlHook_frame
    | with_reducible apply errInjectHook_frame
    | with_reducible apply pgLockHook_frame
    | with_reducible apply noHook_frame
    | with_reducible apply irqRouteHook_frame
    | split

/-! Machine/TierCmds.lean. -/

theorem execVatCfg_frame {m : Nat} {s0 s : State} {a1 a2 a3 : _} (hm : 1030 ||| m = m) (h : Frame m s0 (s.at a1)) : FrameOut m s0 (execVatCfg a1 a2 a3 s) := by
  unfold execVatCfg
  repeat' first
    | with_reducible assumption
    | exact mask_sub rfl hm
    | intro x
    | with_reducible apply vatCfgHook_frame
    | with_reducible apply State.regWrite_frame
    | with_reducible refine FrameOut.next ?_

theorem execExtentGrant_frame {m : Nat} {s0 s : State} {a1 : _} (hm : 341294926 ||| m = m) (h : Frame m s0 (s.at a1)) : FrameOut m s0 (execExtentGrant a1 s) := by
  unfold execExtentGrant
  repeat' first
    | with_reducible assumption
    | ((try lift_lets -underBinder); intro x; clear_value (e : x = _); refine (fun hx : Frame m s0 x => ?_) (Frame.ofEq e ?_))
    | with_reducible apply State.extentGrant_frame
    | with_reducible apply Frame.ite
    | with_reducible refine FrameOut.next ?_

theorem execSliceStart_frame {m : Nat} {s0 s : State} {a1 a2 a3 a4 a5 a6 : _} (hm : 341294926 ||| m = m) (h : Frame m s0 (s.at a1)) : FrameOut m s0 (execSliceStart a1 a2 a3 a4 a5 a6 s) := by
  unfold execSliceStart
  repeat' first
    | with_reducible assumption
    | ((try lift_lets -underBinder); intro x; clear_value (e : x = _); refine (fun hx : Frame m s0 x => ?_) (Frame.ofEq e ?_))
    | with_reducible apply State.sliceStart_frame
    | with_reducible apply Frame.ite
    | with_reducible refine FrameOut.next ?_

theorem execUnitFail_frame {m : Nat} {s0 s : State} {a1 a2 a3 : _} (hm : 349413198 ||| m = m) (h : Frame m s0 (s.at a1)) : FrameOut m s0 (execUnitFail a1 a2 a3 s) := by
  unfold execUnitFail
  repeat' first
    | with_reducible assumption
    | ((try lift_lets -underBinder); intro x; clear_value (e : x = _); refine (fun hx : Frame m s0 x => ?_) (Frame.ofEq e ?_))
    | with_reducible apply State.tierFail_frame
    | with_reducible apply Frame.ite
    | with_reducible refine FrameOut.next ?_
    | with_reducible exact FrameOut.fault
    | with_reducible refine FrameOut.ite ?_ ?_

theorem execScrubPass_frame {m : Nat} {s0 s : State} {a1 a2 a3 a4 : _} (hm : 518 ||| m = m) (h : Frame m s0 (s.at a1)) : FrameOut m s0 (execScrubPass a1 a2 a3 a4 s) := by
  unfold execScrubPass
  repeat' first
    | with_reducible assumption
    | ((try lift_lets -underBinder); intro x; clear_value (e : x = _); first | refine (fun hx : Frame m s0 x => ?_) (Frame.ofEq e ?_) | (have _f := fun a => x a; subst e) | skip)
    | exact mask_sub rfl hm
    | intro x
    | with_reducible apply State.tierUe_frame
    | with_reducible apply State.count_frame
    | with_reducible apply State.tierCe_frame
    | with_reducible apply Frame.ite
    | with_reducible refine Frame.foldl ?_ ?_
    | with_reducible refine FrameOut.next ?_

theorem execRegionAlloc_frame {m : Nat} {s0 s : State} {a1 a2 a3 a4 : _} (hm : 1542 ||| m = m) (h : Frame m s0 (s.at a1)) : FrameOut m s0 (execRegionAlloc a1 a2 a3 a4 s) := by
  unfold execRegionAlloc
  repeat' first
    | with_reducible assumption
    | exact mask_sub rfl hm
    | intro x
    | with_reducible apply State.regWrite_frame
    | with_reducible apply regionHook_frame
    | with_reducible refine FrameOut.next ?_

theorem execRegionFree_frame {m : Nat} {s0 s : State} {a1 a2 a3 : _} (hm : 1542 ||| m = m) (h : Frame m s0 (s.at a1)) : FrameOut m s0 (execRegionFree a1 a2 a3 s) := by
  unfold execRegionFree
  repeat' first
    | with_reducible assumption
    | exact mask_sub rfl hm
    | intro x
    | with_reducible apply State.regWrite_frame
    | with_reducible apply regionHook_frame
    | with_reducible refine FrameOut.next ?_

theorem execRegionRead_frame {m : Nat} {s0 s : State} {a1 a2 a3 : _} (hm : 1542 ||| m = m) (h : Frame m s0 (s.at a1)) : FrameOut m s0 (execRegionRead a1 a2 a3 s) := by
  unfold execRegionRead
  repeat' first
    | with_reducible assumption
    | exact mask_sub rfl hm
    | intro x
    | with_reducible apply State.regWrite_frame
    | with_reducible apply regionHook_frame
    | with_reducible refine FrameOut.next ?_

theorem execRegionCmdDone_frame {m : Nat} {s0 s : State} {a1 : _} (hm : 1794 ||| m = m) (h : Frame m s0 (s.at a1)) : FrameOut m s0 (execRegionCmdDone a1 s) := by
  unfold execRegionCmdDone
  repeat' with_reducible first
    | assumption
    | apply State.regionDone_frame
    | refine FrameOut.next ?_

theorem execCellarMode_frame {m : Nat} {s0 s : State} {a1 a2 a3 : _} (hm : 1542 ||| m = m) (h : Frame m s0 (s.at a1)) : FrameOut m s0 (execCellarMode a1 a2 a3 s) := by
  unfold execCellarMode
  repeat' first
    | with_reducible assumption
    | ((try lift_lets -underBinder); intro x; clear_value (e : x = _); refine (fun hx : Frame m s0 x => ?_) (Frame.ofEq e ?_))
    | exact mask_sub rfl hm
    | intro x
    | with_reducible apply cellarModeHook_frame
    | with_reducible apply State.regWrite_frame
    | with_reducible refine FrameOut.next ?_

theorem execDriveBringUp_frame {m : Nat} {s0 s : State} {a1 a2 a3 a4 a5 a6 : _} (hm : 33660686 ||| m = m) (h : Frame m s0 (s.at a1)) : FrameOut m s0 (execDriveBringUp a1 a2 a3 a4 a5 a6 s) := by
  unfold execDriveBringUp
  repeat' with_reducible first
    | assumption
    | apply State.driveUp_frame
    | refine FrameOut.next ?_
    | exact FrameOut.fault
    | refine FrameOut.ite ?_ ?_

theorem execRescan_frame {m : Nat} {s0 s : State} {a1 a2 a3 : _} (hm : 382967630 ||| m = m) (h : Frame m s0 (s.at a1)) : FrameOut m s0 (execRescan a1 a2 a3 s) := by
  unfold execRescan
  repeat' first
    | with_reducible assumption
    | ((try lift_lets -underBinder); intro x; clear_value (e : x = _); refine (fun hx : Frame m s0 x => ?_) (Frame.ofEq e ?_))
    | exact mask_sub rfl hm
    | intro x
    | with_reducible apply cellarCtrlHook_frame
    | with_reducible apply State.regWrite_frame
    | with_reducible refine FrameOut.next ?_

theorem execDriveOos_frame {m : Nat} {s0 s : State} {a1 a2 a3 : _} (hm : 382967630 ||| m = m) (h : Frame m s0 (s.at a1)) : FrameOut m s0 (execDriveOos a1 a2 a3 s) := by
  unfold execDriveOos
  repeat' first
    | with_reducible assumption
    | ((try lift_lets -underBinder); intro x; clear_value (e : x = _); refine (fun hx : Frame m s0 x => ?_) (Frame.ofEq e ?_))
    | exact mask_sub rfl hm
    | intro x
    | with_reducible apply cellarCtrlHook_frame
    | with_reducible apply State.regWrite_frame
    | with_reducible refine FrameOut.next ?_

theorem execCellarCmdTimeout_frame {m : Nat} {s0 s : State} {a1 a2 a3 : _} (hm : 518 ||| m = m) (h : Frame m s0 (s.at a1)) : FrameOut m s0 (execCellarCmdTimeout a1 a2 a3 s) := by
  unfold execCellarCmdTimeout
  repeat' with_reducible first
    | assumption
    | apply State.driveTimeout_frame
    | refine FrameOut.next ?_
    | exact FrameOut.fault
    | refine FrameOut.ite ?_ ?_

theorem execAbortTimeout_frame {m : Nat} {s0 s : State} {a1 a2 a3 : _} (hm : 382967630 ||| m = m) (h : Frame m s0 (s.at a1)) : FrameOut m s0 (execAbortTimeout a1 a2 a3 s) := by
  unfold execAbortTimeout
  repeat' with_reducible first
    | assumption
    | apply State.driveAbortTimeout_frame
    | refine FrameOut.next ?_
    | exact FrameOut.fault
    | refine FrameOut.ite ?_ ?_

theorem execCellarCmdComplete_frame {m : Nat} {s0 s : State} {a1 a2 a3 a4 a5 : _} (hm : 383237966 ||| m = m) (h : Frame m s0 (s.at a1)) : FrameOut m s0 (execCellarCmdComplete a1 a2 a3 a4 a5 s) := by
  unfold execCellarCmdComplete
  repeat' with_reducible first
    | assumption
    | apply State.driveDone_frame
    | refine FrameOut.next ?_
    | exact FrameOut.fault
    | refine FrameOut.ite ?_ ?_

theorem execDriveLost_frame {m : Nat} {s0 s : State} {a1 a2 : _} (hm : 382967630 ||| m = m) (h : Frame m s0 (s.at a1)) : FrameOut m s0 (execDriveLost a1 a2 s) := by
  unfold execDriveLost
  repeat' with_reducible first
    | assumption
    | apply State.driveRemoved_frame
    | refine FrameOut.next ?_
    | exact FrameOut.fault
    | refine FrameOut.ite ?_ ?_

theorem execCellarLinkUp_frame {m : Nat} {s0 s : State} {a1 a2 : _} (hm : 382967630 ||| m = m) (h : Frame m s0 (s.at a1)) : FrameOut m s0 (execCellarLinkUp a1 a2 s) := by
  unfold execCellarLinkUp
  repeat' with_reducible first
    | assumption
    | apply State.cellarLinkUp_frame
    | refine FrameOut.next ?_

/-! Machine/RingCmds.lean. -/

theorem State.sqStart_frame {m : Nat} {s0 s : State} {a2 a3 : _} (hm : 2050 ||| m = m) (h : Frame m s0 s) : Frame m s0 (State.sqStart s a2 a3) := by
  unfold State.sqStart
  repeat' first
    | with_reducible assumption
    | ((try lift_lets -underBinder); intro x; clear_value (e : x = _); skip)
    | exact mask_sub rfl hm
    | with_reducible apply State.setSq_frame
    | with_reducible apply State.setFldFn_frame

theorem State.sqStop_frame {m : Nat} {s0 s : State} {a2 a3 : _} (hm : 2050 ||| m = m) (h : Frame m s0 s) : Frame m s0 (State.sqStop s a2 a3) := by
  unfold State.sqStop
  repeat' first
    | with_reducible assumption
    | ((try lift_lets -underBinder); intro x; clear_value (e : x = _); skip)
    | exact mask_sub rfl hm
    | with_reducible apply State.setSq_frame
    | with_reducible apply State.setFldFn_frame

theorem State.cqStart_frame {m : Nat} {s0 s : State} {a2 a3 : _} (hm : 2062 ||| m = m) (h : Frame m s0 s) : Frame m s0 (State.cqStart s a2 a3) := by
  unfold State.cqStart
  repeat' first
    | with_reducible assumption
    | ((try lift_lets -underBinder); intro x; clear_value (e : x = _); skip)
    | exact mask_sub rfl hm
    | with_reducible apply State.setCq_frame
    | with_reducible apply State.setFldFn_frame
    | with_reducible apply State.cqNotice_frame

theorem State.cqStop_frame {m : Nat} {s0 s : State} {a2 a3 : _} (hm : 2062 ||| m = m) (h : Frame m s0 s) : Frame m s0 (State.cqStop s a2 a3) := by
  unfold State.cqStop
  repeat' first
    | with_reducible assumption
    | exact mask_sub rfl hm
    | with_reducible apply State.setCq_frame
    | with_reducible apply State.setFldFn_frame
    | with_reducible apply State.cqNotice_frame

theorem sqCtrlHook_frame {m : Nat} {s0 s : State} {a1 a2 a3 a4 : _} (hm : 106254 ||| m = m) (h : Frame m s0 s) : Frame m s0 (sqCtrlHook a1 a2 a3 a4 s) := by
  unfold sqCtrlHook
  repeat' first
    | with_reducible assumption
    | ((try lift_lets -underBinder); intro x; clear_value (e : x = _); first | refine (fun hx : Frame m s0 x => ?_) (Frame.ofEq e ?_) | skip)
    | exact mask_sub rfl hm
    | with_reducible apply State.setSq_frame
    | with_reducible apply State.ringSettle_frame
    | with_reducible apply State.raiseBy_frame
    | with_reducible apply State.sqStop_frame
    | with_reducible apply State.sqStart_frame
    | with_reducible apply Frame.ite

theorem cqCtrlHook_frame {m : Nat} {s0 s : State} {a1 a2 a3 a4 : _} (hm : 2062 ||| m = m) (h : Frame m s0 s) : Frame m s0 (cqCtrlHook a1 a2 a3 a4 s) := by
  unfold cqCtrlHook
  repeat' first
    | with_reducible assumption
    | ((try lift_lets -underBinder); intro x; clear_value (e : x = _); skip)
    | exact mask_sub rfl hm
    | with_reducible apply State.cqStart_frame
    | with_reducible apply State.raiseBy_frame
    | with_reducible apply State.cqStop_frame
    | with_reducible apply Frame.ite

theorem ringConfigHook_frame {m : Nat} {s0 s : State} {a1 a2 a3 a4 a5 : _} (hm : 6 ||| m = m) (h : Frame m s0 s) : Frame m s0 (ringConfigHook a1 a2 a3 a4 a5 s) := by
  unfold ringConfigHook
  repeat' first
    | with_reducible assumption
    | ((try lift_lets -underBinder); intro x; clear_value (e : x = _); skip)
    | exact mask_sub rfl hm
    | with_reducible apply State.setWord_frame
    | with_reducible apply State.raiseBy_frame
    | with_reducible apply Frame.ite

theorem cqWmHook_frame {m : Nat} {s0 s : State} {a1 a2 a3 a4 : _} (hm : 14 ||| m = m) (h : Frame m s0 s) : Frame m s0 (cqWmHook a1 a2 a3 a4 s) := by
  unfold cqWmHook
  repeat' with_reducible first
    | assumption
    | apply State.cqNotice_frame

theorem ringHook_frame {m : Nat} {s0 s : State} {a1 a2 a3 a4 a5 : _} (hm : 106254 ||| m = m) (h : Frame m s0 s) : Frame m s0 (ringHook a1 a2 a3 a4 a5 s) := by
  unfold ringHook
  repeat' first
    | with_reducible assumption
    | exact mask_sub rfl hm
    | with_reducible apply ringConfigHook_frame
    | with_reducible apply cqWmHook_frame
    | with_reducible apply cqCtrlHook_frame
    | with_reducible apply sqCtrlHook_frame
    | with_reducible apply noHook_frame
    | split

theorem State.narrowDoorbell_frame {m : Nat} {s0 s : State} {a2 a3 : _} (hm : 6 ||| m = m) (h : Frame m s0 s) : Frame m s0 (State.narrowDoorbell s a2 a3) := by
  unfold State.narrowDoorbell
  repeat' first
    | with_reducible assumption
    | exact mask_sub rfl hm
    | with_reducible apply State.raise_frame
    | with_reducible apply State.count_frame

theorem State.sqDoorbell_frame {m : Nat} {s0 s : State} {a2 a3 a4 : _} (hm : 2054 ||| m = m) (h : Frame m s0 s) : Frame m s0 (State.sqDoorbell s a2 a3 a4) := by
  unfold State.sqDoorbell
  repeat' first
    | with_reducible assumption
    | ((try lift_lets -underBinder); intro x; clear_value (e : x = _); skip)
    | exact mask_sub rfl hm
    | with_reducible apply State.setSq_frame
    | with_reducible apply State.raise_frame
    | with_reducible apply Frame.ite

theorem State.cqDoorbell_frame {m : Nat} {s0 s : State} {a2 a3 a4 : _} (hm : 106254 ||| m = m) (h : Frame m s0 s) : Frame m s0 (State.cqDoorbell s a2 a3 a4) := by
  unfold State.cqDoorbell
  repeat' first
    | with_reducible assumption
    | ((try lift_lets -underBinder); intro x; clear_value (e : x = _); skip)
    | exact mask_sub rfl hm
    | with_reducible apply State.setCq_frame
    | with_reducible apply State.ringSettle_frame
    | with_reducible apply State.raise_frame
    | with_reducible apply State.cqNotice_frame
    | with_reducible apply Frame.ite

theorem execSqDoorbell_frame {m : Nat} {s0 s : State} {a1 a2 a3 a4 a5 a6 : _} (hm : 3078 ||| m = m) (h : Frame m s0 (s.at a1)) : FrameOut m s0 (execSqDoorbell a1 a2 a3 a4 a5 a6 s) := by
  unfold execSqDoorbell
  repeat' first
    | with_reducible assumption
    | ((try lift_lets -underBinder); intro x; clear_value (e : x = _); first | refine (fun hx : Frame m s0 x => ?_) (Frame.ofEq e ?_) | (have _f := fun a => x a; subst e))
    | exact mask_sub rfl hm
    | intro x
    | with_reducible apply State.sqDoorbell_frame
    | with_reducible apply State.narrowDoorbell_frame
    | with_reducible apply State.storeRing_frame
    | with_reducible apply Frame.ite
    | with_reducible refine Frame.foldl ?_ ?_
    | with_reducible refine FrameOut.next ?_
    | with_reducible exact FrameOut.fault
    | with_reducible refine FrameOut.ite ?_ ?_

theorem execCqHeadDoorbell_frame {m : Nat} {s0 s : State} {a1 a2 a3 a4 a5 : _} (hm : 106254 ||| m = m) (h : Frame m s0 (s.at a1)) : FrameOut m s0 (execCqHeadDoorbell a1 a2 a3 a4 a5 s) := by
  unfold execCqHeadDoorbell
  repeat' first
    | with_reducible assumption
    | ((try lift_lets -underBinder); intro x; clear_value (e : x = _); refine (fun hx : Frame m s0 x => ?_) (Frame.ofEq e ?_))
    | exact mask_sub rfl hm
    | with_reducible apply State.narrowDoorbell_frame
    | with_reducible apply State.cqDoorbell_frame
    | with_reducible apply Frame.ite
    | with_reducible refine FrameOut.next ?_
    | with_reducible exact FrameOut.fault
    | with_reducible refine FrameOut.ite ?_ ?_

theorem execDescFetch_frame {m : Nat} {s0 s : State} {a1 a2 a3 : _} (hm : 2048 ||| m = m) (h : Frame m s0 (s.at a1)) : FrameOut m s0 (execDescFetch a1 a2 a3 s) := by
  unfold execDescFetch
  repeat' first
    | with_reducible assumption
    | ((try lift_lets -underBinder); intro x; clear_value (e : x = _); refine (fun hx : Frame m s0 x => ?_) (Frame.ofEq e ?_))
    | with_reducible apply State.fetchDesc_frame
    | with_reducible apply Frame.ite
    | with_reducible refine FrameOut.next ?_
    | with_reducible exact FrameOut.fault
    | with_reducible refine FrameOut.ite ?_ ?_

theorem State.fetchFlaw_frame {m : Nat} {s0 s : State} {a2 a3 a4 : _} (hm : 6 ||| m = m) (h : Frame m s0 s) : Frame m s0 (State.fetchFlaw s a2 a3 a4) := by
  unfold State.fetchFlaw
  repeat' first
    | with_reducible assumption
    | ((try lift_lets -underBinder); intro x; clear_value (e : x = _); refine (fun hx : Frame m s0 x.2 => ?_) (Frame.ofEq2 e ?_))
    | exact mask_sub rfl hm
    | with_reducible apply State.raiseOwn_frame
    | with_reducible apply State.setFld_frame
    | with_reducible apply State.openNat_frame
    | with_reducible apply State.count_frame
    | with_reducible apply Frame.ite

theorem execDescFetchDone_frame {m : Nat} {s0 s : State} {a1 a2 a3 a4 a5 : _} (hm : 106254 ||| m = m) (h : Frame m s0 (s.at a1)) : FrameOut m s0 (execDescFetchDone a1 a2 a3 a4 a5 s) := by
  unfold execDescFetchDone
  repeat' first
    | with_reducible assumption
    | ((try lift_lets -underBinder); intro x; clear_value (e : x = _); refine (fun hx : Frame m s0 x => ?_) (Frame.ofEq e ?_))
    | exact mask_sub rfl hm
    | with_reducible apply State.fetchFlaw_frame
    | with_reducible apply State.fetchDone_frame
    | with_reducible apply Frame.ite
    | with_reducible refine FrameOut.next ?_
    | with_reducible exact FrameOut.fault
    | with_reducible refine FrameOut.ite ?_ ?_

theorem execRun_frame {m : Nat} {s0 s : State} {a1 a2 : _} (hm : 33660686 ||| m = m) (h : Frame m s0 (s.at a1)) : FrameOut m s0 (execRun a1 a2 s) := by
  unfold execRun
  repeat' first
    | with_reducible assumption
    | exact mask_sub rfl hm
    | intro x
    | with_reducible apply State.runValidate_frame
    | with_reducible apply State.startDesc_frame
    | with_reducible refine FrameOut.next ?_

theorem execFence_frame {m : Nat} {s0 s : State} {a1 a2 : _} (hm : 106254 ||| m = m) (h : Frame m s0 (s.at a1)) : FrameOut m s0 (execFence a1 a2 s) := by
  unfold execFence
  repeat' first
    | with_reducible assumption
    | exact mask_sub rfl hm
    | intro x
    | with_reducible apply State.startDesc_frame
    | with_reducible apply State.ringSettle_frame
    | with_reducible refine FrameOut.next ?_

theorem execWaitTide_frame {m : Nat} {s0 s : State} {a1 a2 : _} (hm : 106254 ||| m = m) (h : Frame m s0 (s.at a1)) : FrameOut m s0 (execWaitTide a1 a2 s) := by
  unfold execWaitTide
  repeat' first
    | with_reducible assumption
    | exact mask_sub rfl hm
    | intro x
    | with_reducible apply State.startDesc_frame
    | with_reducible apply State.endDesc_frame
    | with_reducible apply Frame.ite
    | with_reducible refine FrameOut.next ?_

theorem execWaitTideTimeout_frame {m : Nat} {s0 s : State} {a1 a2 : _} (hm : 106254 ||| m = m) (h : Frame m s0 (s.at a1)) : FrameOut m s0 (execWaitTideTimeout a1 a2 s) := by
  unfold execWaitTideTimeout
  repeat' first
    | with_reducible assumption
    | ((try lift_lets -underBinder); intro x; clear_value (e : x = _); first | refine (fun hx : Frame m s0 x => ?_) (Frame.ofEq e ?_) | skip)
    | with_reducible apply State.endDesc_frame
    | with_reducible apply Frame.ite
    | with_reducible refine FrameOut.next ?_
    | split

theorem execSignal_frame {m : Nat} {s0 s : State} {a1 a2 : _} (hm : 106254 ||| m = m) (h : Frame m s0 (s.at a1)) : FrameOut m s0 (execSignal a1 a2 s) := by
  unfold execSignal
  repeat' first
    | with_reducible assumption
    | exact mask_sub rfl hm
    | intro x
    | with_reducible apply State.startDesc_frame
    | with_reducible apply State.ringSettle_frame
    | with_reducible refine FrameOut.next ?_

theorem execMirrorCut_frame {m : Nat} {s0 s : State} {a1 a2 : _} (hm : 106254 ||| m = m) (h : Frame m s0 (s.at a1)) : FrameOut m s0 (execMirrorCut a1 a2 s) := by
  unfold execMirrorCut
  repeat' first
    | with_reducible assumption
    | exact mask_sub rfl hm
    | intro x
    | with_reducible apply State.startDesc_frame
    | with_reducible apply State.endDesc_frame
    | with_reducible apply State.modTwin_frame
    | with_reducible apply Frame.ite
    | with_reducible refine FrameOut.next ?_

theorem State.drainBytes_frame {m : Nat} {s0 s : State} {a2 a3 a4 : _} (hm : 0 ||| m = m) (h : Frame m s0 s) : Frame m s0 (State.drainBytes s a2 a3 a4).2 := by
  unfold State.drainBytes
  repeat' first
    | with_reducible assumption
    | ((try lift_lets -underBinder); intro x; clear_value (e : x = _); first | refine (fun hx : Frame m s0 x.2 => ?_) (Frame.ofEq2 e ?_) | skip)
    | with_reducible apply State.openBytes_frame
    | split

theorem State.parkDrain_frame {m : Nat} {s0 s : State} {a2 a3 : _} (hm : 106254 ||| m = m) (h : Frame m s0 s) : Frame m s0 (State.parkDrain s a2 a3) := by
  unfold State.parkDrain
  repeat' first
    | with_reducible assumption
    | ((try lift_lets -underBinder); intro x; clear_value (e : x = _); first | refine (fun hx : Frame m s0 x => ?_) (Frame.ofEq e ?_) | refine (fun hx : Frame m s0 x.2 => ?_) (Frame.ofEq2 e ?_) | skip)
    | exact mask_sub rfl hm
    | with_reducible apply State.modSession_frame
    | with_reducible apply State.drainBytes_frame
    | with_reducible apply State.writeOut_frame
    | with_reducible apply State.endDesc_frame
    | with_reducible apply Frame.ite

theorem execParkDrain_frame {m : Nat} {s0 s : State} {a1 a2 : _} (hm : 106254 ||| m = m) (h : Frame m s0 (s.at a1)) : FrameOut m s0 (execParkDrain a1 a2 s) := by
  unfold execParkDrain
  repeat' first
    | with_reducible assumption
    | exact mask_sub rfl hm
    | intro x
    | with_reducible apply State.startDesc_frame
    | with_reducible apply State.parkDrain_frame
    | with_reducible apply State.endDesc_frame
    | with_reducible apply Frame.ite
    | with_reducible refine FrameOut.next ?_

theorem execNop_frame {m : Nat} {s0 s : State} {a1 a2 : _} (hm : 106254 ||| m = m) (h : Frame m s0 (s.at a1)) : FrameOut m s0 (execNop a1 a2 s) := by
  unfold execNop
  repeat' first
    | with_reducible assumption
    | exact mask_sub rfl hm
    | intro x
    | with_reducible apply State.startDesc_frame
    | with_reducible apply State.endDesc_frame
    | with_reducible refine FrameOut.next ?_

theorem execJobComplete_frame {m : Nat} {s0 s : State} {a1 a2 : _} (hm : 382967630 ||| m = m) (h : Frame m s0 (s.at a1)) : FrameOut m s0 (execJobComplete a1 a2 s) := by
  unfold execJobComplete
  repeat' with_reducible first
    | assumption
    | apply State.jobComplete_frame
    | refine FrameOut.next ?_

theorem execSliceEnd_frame {m : Nat} {s0 s : State} {a1 a2 a3 : _} (hm : 369106510 ||| m = m) (h : Frame m s0 (s.at a1)) : FrameOut m s0 (execSliceEnd a1 a2 a3 s) := by
  unfold execSliceEnd
  repeat' with_reducible first
    | assumption
    | apply State.sliceEnd_frame
    | refine FrameOut.next ?_

theorem execSliceBound_frame {m : Nat} {s0 s : State} {a1 a2 a3 : _} (hm : 369106510 ||| m = m) (h : Frame m s0 (s.at a1)) : FrameOut m s0 (execSliceBound a1 a2 a3 s) := by
  unfold execSliceBound
  repeat' with_reducible first
    | assumption
    | apply State.sliceBound_frame
    | refine FrameOut.next ?_

theorem execSqEnable_frame {m : Nat} {s0 s : State} {a1 a2 a3 a4 : _} (hm : 106254 ||| m = m) (h : Frame m s0 (s.at a1)) : FrameOut m s0 (execSqEnable a1 a2 a3 a4 s) := by
  unfold execSqEnable
  repeat' first
    | with_reducible assumption
    | exact mask_sub rfl hm
    | intro x
    | with_reducible apply sqCtrlHook_frame
    | with_reducible apply State.regWrite_frame
    | with_reducible refine FrameOut.next ?_
    | with_reducible exact FrameOut.fault
    | with_reducible refine FrameOut.ite ?_ ?_

theorem execCqEnable_frame {m : Nat} {s0 s : State} {a1 a2 a3 a4 : _} (hm : 3086 ||| m = m) (h : Frame m s0 (s.at a1)) : FrameOut m s0 (execCqEnable a1 a2 a3 a4 s) := by
  unfold execCqEnable
  repeat' first
    | with_reducible assumption
    | exact mask_sub rfl hm
    | intro x
    | with_reducible apply cqCtrlHook_frame
    | with_reducible apply State.regWrite_frame
    | with_reducible refine FrameOut.next ?_
    | with_reducible exact FrameOut.fault
    | with_reducible refine FrameOut.ite ?_ ?_

theorem execSqRetry_frame {m : Nat} {s0 s : State} {a1 a2 a3 : _} (hm : 106254 ||| m = m) (h : Frame m s0 (s.at a1)) : FrameOut m s0 (execSqRetry a1 a2 a3 s) := by
  unfold execSqRetry
  repeat' first
    | with_reducible assumption
    | ((try lift_lets -underBinder); intro x; clear_value (e : x = _); refine (fun hx : Frame m s0 x => ?_) (Frame.ofEq e ?_))
    | exact mask_sub rfl hm
    | intro x
    | with_reducible apply sqCtrlHook_frame
    | with_reducible apply State.regWrite_frame
    | with_reducible refine FrameOut.next ?_
    | with_reducible exact FrameOut.fault
    | with_reducible refine FrameOut.ite ?_ ?_

/-! Machine/RennetCmds.lean. -/

theorem State.rnCall_frame {m : Nat} {s0 s : State} {t} {f : State → Thread → State} (hf : ∀ s d, Frame m s0 s → Frame m s0 (f s d)) (hm : 335552070 ||| m = m) (h : Frame m s0 s) : Frame m s0 (s.rnCall t f) := by
  unfold State.rnCall
  repeat' first
    | with_reducible assumption
    | exact mask_sub rfl hm
    | with_reducible apply hf
    | with_reducible apply State.placeAll_frame
    | with_reducible apply State.failSlice_frame
    | with_reducible apply Frame.ite
    | split

theorem State.rnRet_frame {m : Nat} {s0 s : State} {a2 a3 a4 : _} (hm : 4096 ||| m = m) (h : Frame m s0 s) : Frame m s0 (State.rnRet s a2 a3 a4) := by
  unfold State.rnRet
  repeat' with_reducible first
    | assumption
    | apply State.setThread_frame

theorem State.rnOpen_frame {m : Nat} {s0 s : State} {a2 : _} (hm : 4096 ||| m = m) (h : Frame m s0 s) : Frame m s0 (State.rnOpen s a2) := by
  unfold State.rnOpen
  repeat' first
    | with_reducible assumption
    | ((try lift_lets -underBinder); intro x; clear_value (e : x = _); refine (fun hx : Frame m s0 x.2 => ?_) (Frame.ofEq2 e ?_))
    | exact mask_sub rfl hm
    | with_reducible apply State.setThread_frame
    | with_reducible apply State.openNat_frame
    | split

theorem execRnWait_frame {m : Nat} {s0 s : State} {a1 a2 a3 a4 a5 : _} (hm : 335552070 ||| m = m) (h : Frame m s0 (s.at a1)) : FrameOut m s0 (execRnWait a1 a2 a3 a4 a5 s) := by
  unfold execRnWait
  repeat' first
    | with_reducible assumption
    | ((try lift_lets -underBinder); intro x; clear_value (e : x = _); (have _f := fun a => x a; subst e))
    | exact mask_sub rfl hm
    | intro x
    | with_reducible apply State.waitThread_frame
    | with_reducible apply State.rnCall_frame
    | with_reducible apply State.setThread_frame
    | with_reducible apply Frame.ite
    | with_reducible refine FrameOut.next ?_
    | split

theorem execRnWaitTimeout_frame {m : Nat} {s0 s : State} {a1 a2 : _} (hm : 4096 ||| m = m) (h : Frame m s0 (s.at a1)) : FrameOut m s0 (execRnWaitTimeout a1 a2 s) := by
  unfold execRnWaitTimeout
  repeat' first
    | with_reducible assumption
    | ((try lift_lets -underBinder); intro x; clear_value (e : x = _); refine (fun hx : Frame m s0 x => ?_) (Frame.ofEq e ?_))
    | with_reducible apply State.rennetSettle_frame
    | with_reducible apply State.wakeThread_frame
    | with_reducible apply Frame.ite
    | with_reducible refine FrameOut.next ?_
    | split

theorem execRnDelay_frame {m : Nat} {s0 s : State} {a1 a2 a3 : _} (hm : 335552070 ||| m = m) (h : Frame m s0 (s.at a1)) : FrameOut m s0 (execRnDelay a1 a2 a3 s) := by
  unfold execRnDelay
  repeat' first
    | with_reducible assumption
    | ((try lift_lets -underBinder); intro x; clear_value (e : x = _); skip)
    | exact mask_sub rfl hm
    | intro x
    | with_reducible apply State.addDelay_frame
    | with_reducible apply State.rennetSettle_frame
    | with_reducible apply State.rnCall_frame
    | with_reducible apply State.readyTail_frame
    | with_reducible apply State.setThread_frame
    | with_reducible apply Frame.ite
    | with_reducible refine FrameOut.next ?_

theorem execDelayWake_frame {m : Nat} {s0 s : State} {a1 a2 : _} (hm : 4096 ||| m = m) (h : Frame m s0 (s.at a1)) : FrameOut m s0 (execDelayWake a1 a2 s) := by
  unfold execDelayWake
  repeat' first
    | with_reducible assumption
    | ((try lift_lets -underBinder); intro x; clear_value (e : x = _); refine (fun hx : Frame m s0 x => ?_) (Frame.ofEq e ?_))
    | with_reducible apply State.modRennet_frame
    | with_reducible apply State.rennetSettle_frame
    | with_reducible apply State.readyTail_frame
    | with_reducible apply Frame.ite
    | with_reducible refine FrameOut.next ?_
    | split

theorem execRnCtrAlloc_frame {m : Nat} {s0 s : State} {a1 a2 a3 : _} (hm : 335552070 ||| m = m) (h : Frame m s0 (s.at a1)) : FrameOut m s0 (execRnCtrAlloc a1 a2 a3 s) := by
  unfold execRnCtrAlloc
  repeat' first
    | with_reducible assumption
    | ((try lift_lets -underBinder); intro x; clear_value (e : x = _); skip)
    | exact mask_sub rfl hm
    | intro x
    | with_reducible apply State.setCounter_frame
    | with_reducible apply State.useOpen_frame
    | with_reducible apply State.rnRet_frame
    | with_reducible apply State.rnCall_frame
    | with_reducible apply State.setThread_frame
    | with_reducible apply Frame.ite
    | with_reducible refine FrameOut.next ?_

theorem execRnCtrSub_frame {m : Nat} {s0 s : State} {a1 a2 a3 a4 a5 : _} (hm : 335552070 ||| m = m) (h : Frame m s0 (s.at a1)) : FrameOut m s0 (execRnCtrSub a1 a2 a3 a4 a5 s) := by
  unfold execRnCtrSub
  repeat' first
    | with_reducible assumption
    | exact mask_sub rfl hm
    | intro x
    | with_reducible apply State.rnRet_frame
    | with_reducible apply State.rennetSettle_frame
    | with_reducible apply State.rnCall_frame
    | with_reducible apply State.ctrDec_frame
    | with_reducible apply Frame.ite
    | with_reducible refine FrameOut.next ?_

theorem execRnCtrFree_frame {m : Nat} {s0 s : State} {a1 a2 a3 a4 : _} (hm : 335552070 ||| m = m) (h : Frame m s0 (s.at a1)) : FrameOut m s0 (execRnCtrFree a1 a2 a3 a4 s) := by
  unfold execRnCtrFree
  repeat' first
    | with_reducible assumption
    | exact mask_sub rfl hm
    | intro x
    | with_reducible apply State.rnOpen_frame
    | with_reducible apply State.disarm_frame
    | with_reducible apply State.rnCall_frame
    | with_reducible apply State.setThread_frame
    | with_reducible apply Frame.ite
    | with_reducible refine FrameOut.next ?_

theorem State.updCopy_frame {m : Nat} {s0 s : State} {a2 a3 : _} (hm : 4096 ||| m = m) (h : Frame m s0 s) : Frame m s0 (State.updCopy s a2 a3) := by
  unfold State.updCopy
  repeat' with_reducible first
    | assumption
    | apply State.modRennet_frame

theorem State.copyReads_frame {m : Nat} {s0 s : State} {a2 a3 : _} (hm : 36870 ||| m = m) (h : Frame m s0 s) : Frame m s0 (State.copyReads s a2 a3) := by
  unfold State.copyReads
  repeat' first
    | with_reducible assumption
    | ((try lift_lets -underBinder); intro x; clear_value (e : x = _); refine (fun hx : Frame m s0 x.1 => ?_) (Frame.ofEq1 e ?_))
    | exact mask_sub rfl hm
    | intro x
    | with_reducible apply State.updCopy_frame
    | with_reducible apply State.trySend_frame
    | with_reducible apply State.emit_frame
    | with_reducible apply Frame.ite
    | with_reducible refine Frame.foldl ?_ ?_
    | split

theorem execRnCopy_frame {m : Nat} {s0 s : State} {a1 a2 a3 a4 a5 a6 a7 a8 a9 : _} (hm : 335584838 ||| m = m) (h : Frame m s0 (s.at a1)) : FrameOut m s0 (execRnCopy a1 a2 a3 a4 a5 a6 a7 a8 a9 s) := by
  unfold execRnCopy
  repeat' first
    | with_reducible assumption
    | ((try lift_lets -underBinder); intro x; clear_value (e : x = _); skip)
    | exact mask_sub rfl hm
    | intro x
    | with_reducible apply State.modRennet_frame
    | with_reducible apply State.copyReads_frame
    | with_reducible apply State.rnRet_frame
    | with_reducible apply State.rnCall_frame
    | with_reducible apply Frame.ite
    | with_reducible refine FrameOut.next ?_

theorem State.copyWrite_frame {m : Nat} {s0 s : State} {a2 a3 a4 : _} (hm : 40718 ||| m = m) (h : Frame m s0 s) : Frame m s0 (State.copyWrite s a2 a3 a4) := by
  unfold State.copyWrite
  repeat' first
    | with_reducible assumption
    | ((try lift_lets -underBinder); intro x; clear_value (e : x = _); first | refine (fun hx : Frame m s0 x.1 => ?_) (Frame.ofEq1 e ?_) | skip)
    | exact mask_sub rfl hm
    | with_reducible apply State.updCopy_frame
    | with_reducible apply State.jobHostWrite_frame
    | with_reducible apply State.sendWrites_frame
    | with_reducible apply State.storeBytes_frame
    | with_reducible apply Frame.ite
    | split

theorem State.copyOver_frame {m : Nat} {s0 s : State} {a2 a3 : _} (hm : 4102 ||| m = m) (h : Frame m s0 s) : Frame m s0 (State.copyOver s a2 a3) := by
  unfold State.copyOver
  repeat' first
    | with_reducible assumption
    | ((try lift_lets -underBinder); intro x; clear_value (e : x = _); refine (fun hx : Frame m s0 x => ?_) (Frame.ofEq e ?_))
    | exact mask_sub rfl hm
    | with_reducible apply State.modRennet_frame
    | with_reducible apply State.rennetSettle_frame
    | with_reducible apply State.setThread_frame
    | with_reducible apply State.ctrDec_frame
    | with_reducible apply Frame.ite
    | split

theorem execCopyComplete_frame {m : Nat} {s0 s : State} {a1 a2 a3 a4 : _} (hm : 40718 ||| m = m) (h : Frame m s0 (s.at a1)) : FrameOut m s0 (execCopyComplete a1 a2 a3 a4 s) := by
  unfold execCopyComplete
  repeat' first
    | with_reducible assumption
    | ((try lift_lets -underBinder); intro x; clear_value (e : x = _); refine (fun hx : Frame m s0 x => ?_) (Frame.ofEq e ?_))
    | exact mask_sub rfl hm
    | with_reducible apply State.updCopy_frame
    | with_reducible apply State.copyOver_frame
    | with_reducible apply State.copyWrite_frame
    | with_reducible apply Frame.ite
    | with_reducible refine FrameOut.next ?_
    | split

theorem execRnBudget_frame {m : Nat} {s0 s : State} {a1 a2 : _} (hm : 335552070 ||| m = m) (h : Frame m s0 (s.at a1)) : FrameOut m s0 (execRnBudget a1 a2 s) := by
  unfold execRnBudget
  repeat' first
    | with_reducible assumption
    | exact mask_sub rfl hm
    | intro x
    | with_reducible apply State.rnRet_frame
    | with_reducible apply State.rnCall_frame
    | with_reducible refine FrameOut.next ?_

theorem execRnTide_frame {m : Nat} {s0 s : State} {a1 a2 : _} (hm : 335552070 ||| m = m) (h : Frame m s0 (s.at a1)) : FrameOut m s0 (execRnTide a1 a2 s) := by
  unfold execRnTide
  repeat' first
    | with_reducible assumption
    | exact mask_sub rfl hm
    | intro x
    | with_reducible apply State.rnRet_frame
    | with_reducible apply State.rnCall_frame
    | with_reducible refine FrameOut.next ?_

theorem execEcallUnknown_frame {m : Nat} {s0 s : State} {a1 a2 : _} (hm : 335552070 ||| m = m) (h : Frame m s0 (s.at a1)) : FrameOut m s0 (execEcallUnknown a1 a2 s) := by
  unfold execEcallUnknown
  repeat' first
    | with_reducible assumption
    | exact mask_sub rfl hm
    | intro x
    | with_reducible apply State.rnRet_frame
    | with_reducible apply State.rnCall_frame
    | with_reducible refine FrameOut.next ?_

theorem execFenceI_frame {m : Nat} {s0 s : State} {a1 a2 a3 : _} (hm : 4096 ||| m = m) (h : Frame m s0 (s.at a1)) : FrameOut m s0 (execFenceI a1 a2 a3 s) := by
  unfold execFenceI
  repeat' first
    | with_reducible assumption
    | ((try lift_lets -underBinder); intro x; clear_value (e : x = _); refine (fun hx : Frame m s0 x => ?_) (Frame.ofEq e ?_))
    | with_reducible apply State.setThread_frame
    | with_reducible apply Frame.ite
    | with_reducible refine FrameOut.next ?_
    | split

theorem State.stageWrites_frame {m : Nat} {s0 s : State} {a2 : _} (hm : 768 ||| m = m) (h : Frame m s0 s) : Frame m s0 (State.stageWrites s a2) := by
  unfold State.stageWrites
  repeat' first
    | with_reducible assumption
    | intro x
    | with_reducible apply State.storeBytes_frame
    | with_reducible refine Frame.foldl ?_ ?_

theorem State.customDone_frame {m : Nat} {s0 s : State} {a2 : _} (hm : 14350 ||| m = m) (h : Frame m s0 s) : Frame m s0 (State.customDone s a2) := by
  unfold State.customDone
  repeat' first
    | with_reducible assumption
    | ((try lift_lets -underBinder); intro x; clear_value (e : x = _); first | refine (fun hx : Frame m s0 x => ?_) (Frame.ofEq e ?_) | skip)
    | exact mask_sub rfl hm
    | with_reducible apply State.updSlice_frame
    | with_reducible apply State.setEng_frame
    | with_reducible apply State.tellSources_frame
    | with_reducible apply State.threadEnd_frame
    | with_reducible apply State.markStage_frame
    | with_reducible apply Frame.ite
    | split

theorem execStageReturn_frame {m : Nat} {s0 s : State} {a1 a2 a3 a4 a5 a6 : _} (hm : 335560526 ||| m = m) (h : Frame m s0 (s.at a1)) : FrameOut m s0 (execStageReturn a1 a2 a3 a4 a5 a6 s) := by
  unfold execStageReturn
  repeat' first
    | with_reducible assumption
    | ((try lift_lets -underBinder); intro x; clear_value (e : x = _); skip)
    | exact mask_sub rfl hm
    | intro x
    | with_reducible apply State.appendOuts_frame
    | with_reducible apply State.customDone_frame
    | with_reducible apply State.placeAll_frame
    | with_reducible apply State.rennetSettle_frame
    | with_reducible apply State.rnCall_frame
    | with_reducible apply State.stageWrites_frame
    | with_reducible apply State.failSlice_frame
    | with_reducible apply State.readyTail_frame
    | with_reducible apply Frame.ite
    | with_reducible refine FrameOut.next ?_
    | split
    | with_reducible refine FrameGot.get' (by assumption) ?_

theorem execStageFault_frame {m : Nat} {s0 s : State} {a1 a2 a3 : _} (hm : 335552070 ||| m = m) (h : Frame m s0 (s.at a1)) : FrameOut m s0 (execStageFault a1 a2 a3 s) := by
  unfold execStageFault
  repeat' first
    | with_reducible assumption
    | ((try lift_lets -underBinder); intro x; clear_value (e : x = _); refine (fun hx : Frame m s0 x => ?_) (Frame.ofEq e ?_))
    | exact mask_sub rfl hm
    | with_reducible apply State.placeAll_frame
    | with_reducible apply State.failSlice_frame
    | with_reducible apply State.count_frame
    | with_reducible apply Frame.ite
    | with_reducible refine FrameOut.next ?_
    | split

theorem execQuantumExpiry_frame {m : Nat} {s0 s : State} {a1 a2 : _} (hm : 4096 ||| m = m) (h : Frame m s0 (s.at a1)) : FrameOut m s0 (execQuantumExpiry a1 a2 s) := by
  unfold execQuantumExpiry
  repeat' first
    | with_reducible assumption
    | ((try lift_lets -underBinder); intro x; clear_value (e : x = _); refine (fun hx : Frame m s0 x => ?_) (Frame.ofEq e ?_))
    | with_reducible apply State.rennetSettle_frame
    | with_reducible apply State.readyTail_frame
    | with_reducible apply Frame.ite
    | with_reducible refine FrameOut.next ?_
    | split

theorem execStageOverrun_frame {m : Nat} {s0 s : State} {a1 a2 : _} (hm : 335552070 ||| m = m) (h : Frame m s0 (s.at a1)) : FrameOut m s0 (execStageOverrun a1 a2 s) := by
  unfold execStageOverrun
  repeat' first
    | with_reducible assumption
    | ((try lift_lets -underBinder); intro x; clear_value (e : x = _); refine (fun hx : Frame m s0 x => ?_) (Frame.ofEq e ?_))
    | exact mask_sub rfl hm
    | with_reducible apply State.placeAll_frame
    | with_reducible apply State.failSlice_frame
    | with_reducible apply State.count_frame
    | with_reducible apply Frame.ite
    | with_reducible refine FrameOut.next ?_
    | split

theorem State.rennetResult_frame {m : Nat} {s0 s : State} {a2 : _} (hm : 2 ||| m = m) (h : Frame m s0 s) : Frame m s0 (State.rennetResult s a2) := by
  unfold State.rennetResult
  repeat' with_reducible first
    | assumption
    | apply State.setFld_frame

theorem ctrCmdHook_frame {m : Nat} {s0 s : State} {a1 a2 a3 a4 : _} (hm : 4102 ||| m = m) (h : Frame m s0 s) : Frame m s0 (ctrCmdHook a1 a2 a3 a4 s) := by
  unfold ctrCmdHook
  repeat' first
    | with_reducible assumption
    | ((try lift_lets -underBinder); intro x; clear_value (e : x = _); skip)
    | exact mask_sub rfl hm
    | with_reducible apply State.setCounter_frame
    | with_reducible apply State.disarm_frame
    | with_reducible apply State.rennetSettle_frame
    | with_reducible apply State.rennetResult_frame
    | with_reducible apply State.raiseBy_frame
    | with_reducible apply State.ctrDec_frame
    | with_reducible apply Frame.ite
    | split

theorem flowCmdHook_frame {m : Nat} {s0 s : State} {a1 a2 a3 a4 : _} (hm : 106254 ||| m = m) (h : Frame m s0 s) : Frame m s0 (flowCmdHook a1 a2 a3 a4 s) := by
  unfold flowCmdHook
  repeat' first
    | with_reducible assumption
    | ((try lift_lets -underBinder); intro x; clear_value (e : x = _); first | refine (fun hx : Frame m s0 x => ?_) (Frame.ofEq e ?_) | skip)
    | exact mask_sub rfl hm
    | with_reducible apply State.modRennet_frame
    | with_reducible apply State.ringSettle_frame
    | with_reducible apply State.rennetResult_frame
    | with_reducible apply State.raiseBy_frame
    | with_reducible apply State.flowRelease_frame
    | with_reducible apply Frame.ite
    | split

theorem execCtrArm_frame {m : Nat} {s0 s : State} {a1 a2 a3 a4 : _} (hm : 5126 ||| m = m) (h : Frame m s0 (s.at a1)) : FrameOut m s0 (execCtrArm a1 a2 a3 a4 s) := by
  unfold execCtrArm
  repeat' first
    | with_reducible assumption
    | exact mask_sub rfl hm
    | intro x
    | with_reducible apply State.regWrite_frame
    | with_reducible apply ctrCmdHook_frame
    | with_reducible refine FrameOut.next ?_

theorem execCtrSub_frame {m : Nat} {s0 s : State} {a1 a2 a3 a4 : _} (hm : 5126 ||| m = m) (h : Frame m s0 (s.at a1)) : FrameOut m s0 (execCtrSub a1 a2 a3 a4 s) := by
  unfold execCtrSub
  repeat' first
    | with_reducible assumption
    | exact mask_sub rfl hm
    | intro x
    | with_reducible apply State.regWrite_frame
    | with_reducible apply ctrCmdHook_frame
    | with_reducible refine FrameOut.next ?_

theorem execCtrDisarm_frame {m : Nat} {s0 s : State} {a1 a2 a3 : _} (hm : 5126 ||| m = m) (h : Frame m s0 (s.at a1)) : FrameOut m s0 (execCtrDisarm a1 a2 a3 s) := by
  unfold execCtrDisarm
  repeat' first
    | with_reducible assumption
    | exact mask_sub rfl hm
    | intro x
    | with_reducible apply State.regWrite_frame
    | with_reducible apply ctrCmdHook_frame
    | with_reducible refine FrameOut.next ?_

theorem execFlowOpen_frame {m : Nat} {s0 s : State} {a1 a2 a3 a4 a5 : _} (hm : 106254 ||| m = m) (h : Frame m s0 (s.at a1)) : FrameOut m s0 (execFlowOpen a1 a2 a3 a4 a5 s) := by
  unfold execFlowOpen
  repeat' first
    | with_reducible assumption
    | exact mask_sub rfl hm
    | intro x
    | with_reducible apply State.regWrite_frame
    | with_reducible apply flowCmdHook_frame
    | with_reducible refine FrameOut.next ?_

theorem execFlowClose_frame {m : Nat} {s0 s : State} {a1 a2 a3 : _} (hm : 106254 ||| m = m) (h : Frame m s0 (s.at a1)) : FrameOut m s0 (execFlowClose a1 a2 a3 s) := by
  unfold execFlowClose
  repeat' first
    | with_reducible assumption
    | exact mask_sub rfl hm
    | intro x
    | with_reducible apply State.regWrite_frame
    | with_reducible apply flowCmdHook_frame
    | with_reducible refine FrameOut.next ?_

theorem execFlowAdvance_frame {m : Nat} {s0 s : State} {a1 a2 a3 a4 : _} (hm : 106254 ||| m = m) (h : Frame m s0 (s.at a1)) : FrameOut m s0 (execFlowAdvance a1 a2 a3 a4 s) := by
  unfold execFlowAdvance
  repeat' first
    | with_reducible assumption
    | exact mask_sub rfl hm
    | intro x
    | with_reducible apply State.regWrite_frame
    | with_reducible apply flowCmdHook_frame
    | with_reducible refine FrameOut.next ?_

theorem State.coresChanged_frame {m : Nat} {s0 s : State} (hm : 4096 ||| m = m) (h : Frame m s0 s) : Frame m s0 (State.coresChanged s) := by
  unfold State.coresChanged
  repeat' first
    | with_reducible assumption
    | intro x
    | with_reducible apply State.readyHead_frame
    | with_reducible apply State.rennetSettle_frame
    | with_reducible refine Frame.foldl ?_ ?_

theorem coreOosHook_frame {m : Nat} {s0 s : State} {a1 a2 a3 a4 : _} (hm : 4102 ||| m = m) (h : Frame m s0 s) : Frame m s0 (coreOosHook a1 a2 a3 a4 s) := by
  unfold coreOosHook
  repeat' first
    | with_reducible assumption
    | ((try lift_lets -underBinder); intro x; clear_value (e : x = _); skip)
    | exact mask_sub rfl hm
    | with_reducible apply State.setFld_frame
    | with_reducible apply State.raiseBy_frame
    | with_reducible apply State.coresChanged_frame
    | with_reducible apply Frame.ite

theorem execCoreOos_frame {m : Nat} {s0 s : State} {a1 a2 a3 : _} (hm : 5126 ||| m = m) (h : Frame m s0 (s.at a1)) : FrameOut m s0 (execCoreOos a1 a2 a3 s) := by
  unfold execCoreOos
  repeat' first
    | with_reducible assumption
    | exact mask_sub rfl hm
    | intro x
    | with_reducible apply State.regWrite_frame
    | with_reducible apply coreOosHook_frame
    | with_reducible refine FrameOut.next ?_

theorem execCoreFail_frame {m : Nat} {s0 s : State} {a1 a2 a3 : _} (hm : 483630926 ||| m = m) (h : Frame m s0 (s.at a1)) : FrameOut m s0 (execCoreFail a1 a2 a3 s) := by
  unfold execCoreFail
  repeat' first
    | with_reducible assumption
    | ((try lift_lets -underBinder); intro x; clear_value (e : x = _); first | refine (fun hx : Frame m s0 x => ?_) (Frame.ofEq e ?_) | skip)
    | exact mask_sub rfl hm
    | intro x
    | with_reducible apply State.modRennet_frame
    | with_reducible apply State.raiseOwn_frame
    | with_reducible apply State.killJob_frame
    | with_reducible apply State.placeAll_frame
    | with_reducible apply State.rennetSettle_frame
    | with_reducible apply State.nodeFatal_frame
    | with_reducible apply State.failSlice_frame
    | with_reducible apply State.faultRecord_frame
    | with_reducible apply Frame.ite
    | with_reducible refine Frame.foldl ?_ ?_
    | with_reducible refine FrameOut.next ?_
    | with_reducible exact FrameOut.fault
    | with_reducible refine FrameOut.ite ?_ ?_

theorem execL2Ue_frame {m : Nat} {s0 s : State} {a1 a2 : _} (hm : 469769798 ||| m = m) (h : Frame m s0 (s.at a1)) : FrameOut m s0 (execL2Ue a1 a2 s) := by
  unfold execL2Ue
  repeat' first
    | with_reducible assumption
    | ((try lift_lets -underBinder); intro x; clear_value (e : x = _); refine (fun hx : Frame m s0 x => ?_) (Frame.ofEq e ?_))
    | exact mask_sub rfl hm
    | with_reducible apply State.raiseOwn_frame
    | with_reducible apply State.placeAll_frame
    | with_reducible apply State.nodeFatal_frame
    | with_reducible apply State.failSlice_frame
    | with_reducible apply State.count_frame
    | with_reducible apply Frame.ite
    | with_reducible refine FrameOut.next ?_
    | split

/-! Machine/ReqOps.lean. -/

theorem State.goOn_frame {m : Nat} {s0 s : State} {a2 : _} (hm : 374849358 ||| m = m) (h : Frame m s0 s) : Frame m s0 (State.goOn s a2) := by
  unfold State.goOn
  repeat' with_reducible first
    | assumption
    | apply State.resume_frame
    | apply Frame.ite

theorem State.jobWriteFailed_frame {m : Nat} {s0 s : State} {a2 a3 a4 a5 : _} (hm : 349413198 ||| m = m) (h : Frame m s0 s) : Frame m s0 (State.jobWriteFailed s a2 a3 a4 a5) := by
  unfold State.jobWriteFailed
  repeat' first
    | with_reducible assumption
    | ((try lift_lets -underBinder); intro x; clear_value (e : x = _); refine (fun hx : Frame m s0 x => ?_) (Frame.ofEq e ?_))
    | exact mask_sub rfl hm
    | intro x
    | with_reducible apply State.failJob_frame
    | with_reducible apply State.dropQueued_frame
    | with_reducible apply State.jobFailed_frame
    | with_reducible apply Frame.ite
    | with_reducible refine Frame.elim ?_ ?_

theorem State.partEnded_frame {m : Nat} {s0 s : State} {a2 a3 a4 : _} (hm : 382967630 ||| m = m) (h : Frame m s0 s) : Frame m s0 (State.partEnded s a2 a3 a4) := by
  unfold State.partEnded
  repeat' first
    | with_reducible assumption
    | ((try lift_lets -underBinder); intro x; clear_value (e : x = _); first | refine (fun hx : Frame m s0 x => ?_) (Frame.ofEq e ?_) | skip)
    | exact mask_sub rfl hm
    | with_reducible apply State.jobComplete_frame
    | with_reducible apply State.updJob_frame
    | with_reducible apply State.placeAll_frame
    | with_reducible apply State.killParts_frame
    | with_reducible apply State.dropQueued_frame
    | with_reducible apply State.jobSettle_frame
    | with_reducible apply Frame.ite
    | split

theorem State.prepFailed_frame {m : Nat} {s0 s : State} {a2 : _} (hm : 1081350 ||| m = m) (h : Frame m s0 s) : Frame m s0 (State.prepFailed s a2) := by
  unfold State.prepFailed
  repeat' first
    | with_reducible assumption
    | with_reducible apply State.cancelMove_frame
    | split

theorem State.prepDone_frame {m : Nat} {s0 s : State} {a2 a3 : _} (hm : 1081870 ||| m = m) (h : Frame m s0 s) : Frame m s0 (State.prepDone s a2 a3) := by
  unfold State.prepDone
  repeat' first
    | with_reducible assumption
    | exact mask_sub rfl hm
    | with_reducible apply State.modLadle_frame
    | with_reducible apply State.maybeCommit_frame

theorem State.learnOwner_frame {m : Nat} {s0 s : State} {a2 a3 a4 : _} (hm : 1048578 ||| m = m) (h : Frame m s0 s) : Frame m s0 (State.learnOwner s a2 a3 a4) := by
  unfold State.learnOwner
  repeat' first
    | with_reducible assumption
    | exact mask_sub rfl hm
    | with_reducible apply State.updTable_frame
    | with_reducible apply State.count_frame

theorem State.unstageRow_frame {m : Nat} {s0 s : State} {a2 a3 a4 : _} (hm : 2048 ||| m = m) (h : Frame m s0 s) : Frame m s0 (State.unstageRow s a2 a3 a4) := by
  unfold State.unstageRow
  repeat' first
    | with_reducible assumption
    | ((try lift_lets -underBinder); intro x; clear_value (e : x = _); skip)
    | with_reducible apply State.modWork_frame

theorem State.gathered_frame {m : Nat} {s0 s : State} {a2 a3 a4 a5 a6 a7 : _} (hm : 2048 ||| m = m) (h : Frame m s0 s) : Frame m s0 (State.gathered s a2 a3 a4 a5 a6 a7) := by
  unfold State.gathered
  repeat' first
    | with_reducible assumption
    | ((try lift_lets -underBinder); intro x; clear_value (e : x = _); first | refine (fun hx : Frame m s0 x => ?_) (Frame.ofEq e ?_) | skip)
    | with_reducible apply State.stage_frame
    | with_reducible apply State.unstageRow_frame
    | with_reducible apply Frame.ite

theorem State.gatherEnd_frame {m : Nat} {s0 s : State} {a2 a3 a4 a5 a6 a7 a8 a9 a10 : _} (hm : 374849358 ||| m = m) (h : Frame m s0 s) : Frame m s0 (State.gatherEnd s a2 a3 a4 a5 a6 a7 a8 a9 a10) := by
  unfold State.gatherEnd
  repeat' first
    | with_reducible assumption
    | ((try lift_lets -underBinder); intro x; clear_value (e : x = _); first | refine (fun hx : Frame m s0 x => ?_) (Frame.ofEq e ?_) | refine (fun hx : Frame m s0 x.1 => ?_) (Frame.ofEq1 e ?_) | skip)
    | exact mask_sub rfl hm
    | intro x
    | with_reducible apply State.learnOwner_frame
    | with_reducible apply State.goOn_frame
    | with_reducible apply State.gathered_frame
    | with_reducible apply State.readFailed_frame
    | with_reducible apply State.trySend_frame
    | with_reducible apply Frame.ite
    | with_reducible refine Frame.foldl ?_ ?_
    | split

theorem State.updateEnd_frame {m : Nat} {s0 s : State} {a2 a3 a4 a5 a6 a7 a8 a9 : _} (hm : 340893518 ||| m = m) (h : Frame m s0 s) : Frame m s0 (State.updateEnd s a2 a3 a4 a5 a6 a7 a8 a9) := by
  unfold State.updateEnd
  repeat' first
    | with_reducible assumption
    | ((try lift_lets -underBinder); intro x; clear_value (e : x = _); first | refine (fun hx : Frame m s0 x => ?_) (Frame.ofEq e ?_) | refine (fun hx : Frame m s0 x.1 => ?_) (Frame.ofEq1 e ?_) | (have _f := fun a => x a; subst e) | skip)
    | exact mask_sub rfl hm
    | with_reducible apply State.sendUpdates_frame
    | with_reducible apply State.failJob_frame
    | with_reducible apply State.learnOwner_frame
    | with_reducible apply State.dropQueued_frame
    | with_reducible apply State.maybeSent_frame
    | with_reducible apply Frame.ite
    | split

theorem State.copyReqEnd_frame {m : Nat} {s0 s : State} {a2 a3 a4 a5 : _} (hm : 4096 ||| m = m) (h : Frame m s0 s) : Frame m s0 (State.copyReqEnd s a2 a3 a4 a5) := by
  unfold State.copyReqEnd
  repeat' first
    | with_reducible assumption
    | ((try lift_lets -underBinder); intro x; clear_value (e : x = _); skip)
    | with_reducible apply State.updCopy_frame
    | split

theorem State.reqEnd_frame {m : Nat} {s0 s : State} {a2 a3 a4 : _} (hm : 383237966 ||| m = m) (h : Frame m s0 s) : Frame m s0 (State.reqEnd s a2 a3 a4) := by
  unfold State.reqEnd
  repeat' first
    | with_reducible assumption
    | ((try lift_lets -underBinder); intro x; clear_value (e : x = _); first | (have _f := fun a => x a; subst e) | skip)
    | exact mask_sub rfl hm
    | with_reducible apply State.answer_frame
    | with_reducible apply State.failJob_frame
    | with_reducible apply State.gatherEnd_frame
    | with_reducible apply State.marked_frame
    | with_reducible apply State.copyReqEnd_frame
    | with_reducible apply State.prepFailed_frame
    | with_reducible apply State.goOn_frame
    | with_reducible apply State.stage_frame
    | with_reducible apply State.prepDone_frame
    | with_reducible apply State.placeAll_frame
    | with_reducible apply State.readyWords_frame
    | with_reducible apply State.updateEnd_frame
    | with_reducible apply State.jobWriteFailed_frame
    | with_reducible apply State.readFailed_frame
    | with_reducible apply State.appliedHere_frame
    | with_reducible apply State.partEnded_frame
    | with_reducible apply State.dropQueued_frame
    | with_reducible apply State.endDesc_frame
    | with_reducible apply State.closeReady_frame
    | with_reducible apply State.tblHeard_frame
    | with_reducible apply State.jobSettle_frame
    | with_reducible apply Frame.ite
    | split

theorem State.reqPump_frame {m : Nat} {s0 s : State} (hm : 383237966 ||| m = m) (h : Frame m s0 s) : Frame m s0 (State.reqPump s) := by
  unfold State.reqPump
  repeat' first
    | with_reducible assumption
    | ((try lift_lets -underBinder); intro x; clear_value (e : x = _); first | refine (fun hx : Frame m s0 x => ?_) (Frame.ofEq e ?_) | skip)
    | exact mask_sub rfl hm
    | intro x
    | with_reducible apply State.reqEnd_frame
    | with_reducible apply State.raiseOwn_frame
    | with_reducible apply State.sendNow_frame
    | with_reducible apply State.modFabric_frame
    | with_reducible apply State.count_frame
    | with_reducible apply Frame.ite
    | with_reducible refine Frame.foldl ?_ ?_
    | split
    | with_reducible refine FrameOpt.get' (by assumption) ?_

theorem State.reqGone_frame {m : Nat} {s0 s : State} {a2 : _} (hm : 32768 ||| m = m) (h : Frame m s0 s) : Frame m s0 (State.reqGone s a2) := by
  unfold State.reqGone
  repeat' with_reducible first
    | assumption
    | apply State.modFabric_frame

theorem State.response_frame {m : Nat} {s0 s : State} {a2 : _} (hm : 383237966 ||| m = m) (h : Frame m s0 s) : Frame m s0 (State.response s a2) := by
  unfold State.response
  repeat' first
    | with_reducible assumption
    | ((try lift_lets -underBinder); intro x; clear_value (e : x = _); refine (fun hx : Frame m s0 x => ?_) (Frame.ofEq e ?_))
    | exact mask_sub rfl hm
    | with_reducible apply State.reqGone_frame
    | with_reducible apply State.reqEnd_frame
    | with_reducible apply State.corrected_frame
    | with_reducible apply State.reqPump_frame
    | with_reducible apply State.count_frame
    | with_reducible apply Frame.ite
    | split

theorem State.e2eTimeout_frame {m : Nat} {s0 s : State} {a2 : _} (hm : 383237966 ||| m = m) (h : Frame m s0 s) : Frame m s0 (State.e2eTimeout s a2) := by
  unfold State.e2eTimeout
  repeat' first
    | with_reducible assumption
    | ((try lift_lets -underBinder); intro x; clear_value (e : x = _); first | refine (fun hx : Frame m s0 x => ?_) (Frame.ofEq e ?_) | refine (fun hx : FrameOpt m s0 id x => ?_) (FrameOpt.ofEq e ?_) | skip)
    | exact mask_sub rfl hm
    | intro x
    | with_reducible apply State.reqGone_frame
    | with_reducible apply State.reqEnd_frame
    | with_reducible apply State.raiseOwn_frame
    | with_reducible apply State.sendPacket_frame
    | with_reducible apply State.linkSend_frame
    | with_reducible apply State.modFabric_frame
    | with_reducible apply State.reqPump_frame
    | with_reducible apply State.count_frame
    | with_reducible apply Frame.ite
    | with_reducible refine Frame.ofId ?_
    | with_reducible exact FrameOpt.get' rfl (by assumption)
    | with_reducible exact FrameOpt.none
    | with_reducible refine FrameOpt.ite ?_ ?_
    | with_reducible refine FrameOpt.map ?_
    | split

/-! Machine/BiasOps.lean. -/

theorem State.biasEnd_frame {m : Nat} {s0 s : State} {a2 : _} (hm : 2 ||| m = m) (h : Frame m s0 s) : Frame m s0 (State.biasEnd s a2) := by
  unfold State.biasEnd
  repeat' with_reducible first
    | assumption
    | apply State.setFld_frame

theorem State.biasStart_frame {m : Nat} {s0 s : State} {a2 a3 : _} (hm : 1026 ||| m = m) (h : Frame m s0 s) : Frame m s0 (State.biasStart s a2 a3) := by
  unfold State.biasStart
  repeat' first
    | with_reducible assumption
    | ((try lift_lets -underBinder); intro x; clear_value (e : x = _); refine (fun hx : Frame m s0 x => ?_) (Frame.ofEq e ?_))
    | exact mask_sub rfl hm
    | intro x
    | with_reducible apply State.snoopLine_frame
    | with_reducible apply State.setFld_frame
    | with_reducible apply State.modHost_frame
    | with_reducible apply Frame.ite
    | exact Eq.refl _
    | with_reducible refine Frame.foldl ?_ ?_

theorem biasHook_frame {m : Nat} {s0 s : State} {a1 a2 a3 a4 : _} (hm : 1026 ||| m = m) (h : Frame m s0 s) : Frame m s0 (biasHook a1 a2 a3 a4 s) := by
  unfold biasHook
  repeat' first
    | with_reducible assumption
    | ((try lift_lets -underBinder); intro x; clear_value (e : x = _); skip)
    | exact mask_sub rfl hm
    | with_reducible apply State.setWord_frame
    | with_reducible apply State.setFld_frame
    | with_reducible apply State.biasStart_frame
    | with_reducible apply State.biasEnd_frame
    | with_reducible apply Frame.ite
    | split

/-! Machine/TideCmds.lean. -/

theorem tideCfgHook_frame {m : Nat} {s0 s : State} {a1 a2 a3 a4 : _} (hm : 8198 ||| m = m) (h : Frame m s0 s) : Frame m s0 (tideCfgHook a1 a2 a3 a4 s) := by
  unfold tideCfgHook
  repeat' first
    | with_reducible assumption
    | ((try lift_lets -underBinder); intro x; clear_value (e : x = _); first | refine (fun hx : Frame m s0 x => ?_) (Frame.ofEq e ?_) | skip)
    | exact mask_sub rfl hm
    | with_reducible apply State.setFld_frame
    | with_reducible apply State.raiseBy_frame
    | with_reducible apply State.modTide_frame
    | with_reducible apply Frame.ite

theorem epochTuHook_frame {m : Nat} {s0 s : State} {a1 a2 a3 a4 : _} (hm : 6 ||| m = m) (h : Frame m s0 s) : Frame m s0 (epochTuHook a1 a2 a3 a4 s) := by
  unfold epochTuHook
  repeat' first
    | with_reducible assumption
    | ((try lift_lets -underBinder); intro x; clear_value (e : x = _); skip)
    | exact mask_sub rfl hm
    | with_reducible apply State.setFld_frame
    | with_reducible apply State.raiseBy_frame
    | with_reducible apply Frame.ite

theorem hostTideHook_frame {m : Nat} {s0 s : State} {a1 a2 a3 a4 : _} (hm : 8198 ||| m = m) (h : Frame m s0 s) : Frame m s0 (hostTideHook a1 a2 a3 a4 s) := by
  unfold hostTideHook
  repeat' first
    | with_reducible assumption
    | ((try lift_lets -underBinder); intro x; clear_value (e : x = _); skip)
    | exact mask_sub rfl hm
    | with_reducible apply State.setFld_frame
    | with_reducible apply State.raiseBy_frame
    | with_reducible apply State.modTide_frame
    | with_reducible apply Frame.ite

theorem lagWmHook_frame {m : Nat} {s0 s : State} {a1 a2 a3 a4 : _} (hm : 14 ||| m = m) (h : Frame m s0 s) : Frame m s0 (lagWmHook a1 a2 a3 a4 s) := by
  unfold lagWmHook
  repeat' with_reducible first
    | assumption
    | apply State.lagNotice_frame

theorem alarmBy_frame {m : Nat} {s0 s : State} {f : _} {req page old v} (hf : ∀ req page v s, Frame m s0 s → Frame m s0 (f req page v s)) (_hm : 0 ||| m = m) (h : Frame m s0 s) : Frame m s0 (alarmBy f req page old v s) := by
  unfold alarmBy
  repeat' first
    | with_reducible assumption
    | with_reducible apply hf
    | split

theorem alarmSelHook_frame {m : Nat} {s0 s : State} {a1 a2 a3 a4 : _} (hm : 2 ||| m = m) (h : Frame m s0 s) : Frame m s0 (alarmSelHook a1 a2 a3 a4 s) := by
  unfold alarmSelHook
  repeat' first
    | with_reducible assumption
    | exact mask_sub rfl hm
    | intro x
    | with_reducible apply State.setFld_frame
    | with_reducible apply alarmBy_frame

theorem State.updAlarm_frame {m : Nat} {s0 s : State} {a2 : _} (hm : 8192 ||| m = m) (h : Frame m s0 s) : Frame m s0 (State.updAlarm s a2) := by
  unfold State.updAlarm
  repeat' first
    | with_reducible assumption
    | ((try lift_lets -underBinder); intro x; clear_value (e : x = _); skip)
    | with_reducible apply State.modTide_frame

theorem alarmTideHook_frame {m : Nat} {s0 s : State} {a1 a2 a3 a4 : _} (hm : 8198 ||| m = m) (h : Frame m s0 s) : Frame m s0 (alarmTideHook a1 a2 a3 a4 s) := by
  unfold alarmTideHook
  repeat' first
    | with_reducible assumption
    | exact mask_sub rfl hm
    | intro x
    | with_reducible apply State.raiseBy_frame
    | with_reducible apply alarmBy_frame
    | with_reducible apply State.updAlarm_frame
    | with_reducible apply Frame.ite

theorem alarmCtrlHook_frame {m : Nat} {s0 s : State} {a1 a2 a3 a4 : _} (hm : 12294 ||| m = m) (h : Frame m s0 s) : Frame m s0 (alarmCtrlHook a1 a2 a3 a4 s) := by
  unfold alarmCtrlHook
  repeat' first
    | with_reducible assumption
    | ((try lift_lets -underBinder); intro x; clear_value (e : x = _); first | refine (fun hx : Frame m s0 x => ?_) (Frame.ofEq e ?_) | skip)
    | exact mask_sub rfl hm
    | intro x
    | with_reducible apply State.fireAlarm_frame
    | with_reducible apply State.raiseBy_frame
    | with_reducible apply alarmBy_frame
    | with_reducible apply State.updAlarm_frame
    | with_reducible apply Frame.ite

theorem State.srcResult_frame {m : Nat} {s0 s : State} {a2 : _} (hm : 2 ||| m = m) (h : Frame m s0 s) : Frame m s0 (State.srcResult s a2) := by
  unfold State.srcResult
  repeat' with_reducible first
    | assumption
    | apply State.setFld_frame

theorem State.srcShown_frame {m : Nat} {s0 s : State} {a2 : _} (hm : 2 ||| m = m) (h : Frame m s0 s) : Frame m s0 (State.srcShown s a2) := by
  unfold State.srcShown
  repeat' first
    | with_reducible assumption
    | ((try lift_lets -underBinder); intro x; clear_value (e : x = _); (have _f := fun a => x a; subst e))
    | with_reducible apply State.setFld_frame

theorem srcCmdHook_frame {m : Nat} {s0 s : State} {a1 a2 a3 a4 : _} (hm : 8206 ||| m = m) (h : Frame m s0 s) : Frame m s0 (srcCmdHook a1 a2 a3 a4 s) := by
  unfold srcCmdHook
  repeat' first
    | with_reducible assumption
    | ((try lift_lets -underBinder); intro x; clear_value (e : x = _); skip)
    | exact mask_sub rfl hm
    | with_reducible apply State.setSource_frame
    | with_reducible apply State.srcShown_frame
    | with_reducible apply State.lagNotice_frame
    | with_reducible apply State.sourceWake_frame
    | with_reducible apply State.sourceHears_frame
    | with_reducible apply State.srcResult_frame
    | with_reducible apply State.modTide_frame
    | with_reducible apply Frame.ite
    | split

theorem execBeatSend_frame {m : Nat} {s0 s : State} {a1 : _} (hm : 385613678 ||| m = m) (h : Frame m s0 (s.at a1)) : FrameOut m s0 (execBeatSend a1 s) := by
  unfold execBeatSend
  repeat' first
    | with_reducible assumption
    | ((try lift_lets -underBinder); intro x; clear_value (e : x = _); first | refine (fun hx : Frame m s0 x => ?_) (Frame.ofEq e ?_) | skip)
    | exact mask_sub rfl hm
    | with_reducible apply State.sendBeat_frame
    | with_reducible apply State.modTide_frame
    | with_reducible apply State.herdResetCopy_frame
    | with_reducible apply Frame.ite
    | with_reducible refine FrameOut.next ?_

theorem execBeatApply_frame {m : Nat} {s0 s : State} {a1 a2 : _} (hm : 376700686 ||| m = m) (h : Frame m s0 (s.at a1)) : FrameOut m s0 (execBeatApply a1 a2 s) := by
  unfold execBeatApply
  repeat' first
    | with_reducible assumption
    | ((try lift_lets -underBinder); intro x; clear_value (e : x = _); refine (fun hx : Frame m s0 x => ?_) (Frame.ofEq e ?_))
    | with_reducible apply State.beatArrives_frame
    | with_reducible apply Frame.ite
    | with_reducible refine FrameOut.next ?_

theorem execReportReceive_frame {m : Nat} {s0 s : State} {a1 a2 : _} (hm : 8192 ||| m = m) (h : Frame m s0 (s.at a1)) : FrameOut m s0 (execReportReceive a1 a2 s) := by
  unfold execReportReceive
  repeat' first
    | with_reducible assumption
    | ((try lift_lets -underBinder); intro x; clear_value (e : x = _); refine (fun hx : Frame m s0 x => ?_) (Frame.ofEq e ?_))
    | with_reducible apply State.reportArrives_frame
    | with_reducible apply Frame.ite
    | with_reducible refine FrameOut.next ?_

theorem execHostTide_frame {m : Nat} {s0 s : State} {a1 a2 a3 : _} (hm : 9222 ||| m = m) (h : Frame m s0 (s.at a1)) : FrameOut m s0 (execHostTide a1 a2 a3 s) := by
  unfold execHostTide
  repeat' first
    | with_reducible assumption
    | exact mask_sub rfl hm
    | intro x
    | with_reducible apply hostTideHook_frame
    | with_reducible apply State.regWrite_frame
    | with_reducible refine FrameOut.next ?_

theorem execAlarmArm_frame {m : Nat} {s0 s : State} {a1 a2 a3 a4 a5 a6 a7 : _} (hm : 13318 ||| m = m) (h : Frame m s0 (s.at a1)) : FrameOut m s0 (execAlarmArm a1 a2 a3 a4 a5 a6 a7 s) := by
  unfold execAlarmArm
  repeat' first
    | with_reducible assumption
    | ((try lift_lets -underBinder); intro x; clear_value (e : x = _); skip)
    | exact mask_sub rfl hm
    | intro x
    | with_reducible apply alarmCtrlHook_frame
    | with_reducible apply State.regWrite_frame
    | with_reducible refine FrameOut.next ?_

theorem State.srcCmd_frame {m : Nat} {s0 s : State} {a2 a3 a4 : _} (hm : 9230 ||| m = m) (h : Frame m s0 s) : Frame m s0 (State.srcCmd s a2 a3 a4) := by
  unfold State.srcCmd
  repeat' first
    | with_reducible assumption
    | exact mask_sub rfl hm
    | intro x
    | with_reducible apply srcCmdHook_frame
    | with_reducible apply State.regWrite_frame

theorem execSrcOpen_frame {m : Nat} {s0 s : State} {a1 a2 a3 a4 : _} (hm : 9230 ||| m = m) (h : Frame m s0 (s.at a1)) : FrameOut m s0 (execSrcOpen a1 a2 a3 a4 s) := by
  unfold execSrcOpen
  repeat' first
    | with_reducible assumption
    | exact mask_sub rfl hm
    | intro x
    | with_reducible apply srcCmdHook_frame
    | with_reducible apply State.regWrite_frame
    | with_reducible refine FrameOut.next ?_

theorem execSrcClose_frame {m : Nat} {s0 s : State} {a1 a2 a3 : _} (hm : 9230 ||| m = m) (h : Frame m s0 (s.at a1)) : FrameOut m s0 (execSrcClose a1 a2 a3 s) := by
  unfold execSrcClose
  repeat' with_reducible first
    | assumption
    | apply State.srcCmd_frame
    | refine FrameOut.next ?_

theorem execSrcLow_frame {m : Nat} {s0 s : State} {a1 a2 a3 : _} (hm : 9230 ||| m = m) (h : Frame m s0 (s.at a1)) : FrameOut m s0 (execSrcLow a1 a2 a3 s) := by
  unfold execSrcLow
  repeat' with_reducible first
    | assumption
    | apply State.srcCmd_frame
    | refine FrameOut.next ?_

theorem execSrcIdle_frame {m : Nat} {s0 s : State} {a1 a2 a3 : _} (hm : 9230 ||| m = m) (h : Frame m s0 (s.at a1)) : FrameOut m s0 (execSrcIdle a1 a2 a3 s) := by
  unfold execSrcIdle
  repeat' with_reducible first
    | assumption
    | apply State.srcCmd_frame
    | refine FrameOut.next ?_

theorem execSrcActive_frame {m : Nat} {s0 s : State} {a1 a2 a3 : _} (hm : 9230 ||| m = m) (h : Frame m s0 (s.at a1)) : FrameOut m s0 (execSrcActive a1 a2 a3 s) := by
  unfold execSrcActive
  repeat' with_reducible first
    | assumption
    | apply State.srcCmd_frame
    | refine FrameOut.next ?_

theorem execSrcRead_frame {m : Nat} {s0 s : State} {a1 a2 a3 : _} (hm : 9230 ||| m = m) (h : Frame m s0 (s.at a1)) : FrameOut m s0 (execSrcRead a1 a2 a3 s) := by
  unfold execSrcRead
  repeat' with_reducible first
    | assumption
    | apply State.srcCmd_frame
    | refine FrameOut.next ?_

theorem execSourceIdleExpire_frame {m : Nat} {s0 s : State} {a1 a2 : _} (hm : 8206 ||| m = m) (h : Frame m s0 (s.at a1)) : FrameOut m s0 (execSourceIdleExpire a1 a2 s) := by
  unfold execSourceIdleExpire
  repeat' first
    | with_reducible assumption
    | ((try lift_lets -underBinder); intro x; clear_value (e : x = _); refine (fun hx : Frame m s0 x => ?_) (Frame.ofEq e ?_))
    | exact mask_sub rfl hm
    | with_reducible apply State.setSource_frame
    | with_reducible apply State.lagNotice_frame
    | with_reducible apply Frame.ite
    | with_reducible refine FrameOut.next ?_
    | split

theorem execBeatLost_frame {m : Nat} {s0 s : State} {a1 : _} (hm : 2138118 ||| m = m) (h : Frame m s0 (s.at a1)) : FrameOut m s0 (execBeatLost a1 s) := by
  unfold execBeatLost
  repeat' with_reducible first
    | assumption
    | apply State.beatLost_frame
    | refine FrameOut.next ?_

theorem execTideModeWrite_frame {m : Nat} {s0 s : State} {a1 a2 a3 : _} (hm : 9222 ||| m = m) (h : Frame m s0 (s.at a1)) : FrameOut m s0 (execTideModeWrite a1 a2 a3 s) := by
  unfold execTideModeWrite
  repeat' first
    | with_reducible assumption
    | ((try lift_lets -underBinder); intro x; clear_value (e : x = _); refine (fun hx : Frame m s0 x => ?_) (Frame.ofEq e ?_))
    | exact mask_sub rfl hm
    | intro x
    | with_reducible apply tideCfgHook_frame
    | with_reducible apply State.regWrite_frame
    | with_reducible refine FrameOut.next ?_

/-! Machine/EngineCmds.lean. -/

theorem execIntakeSurvey_frame {m : Nat} {s0 s : State} {a1 a2 : _} (hm : 335847246 ||| m = m) (h : Frame m s0 (s.at a1)) : FrameOut m s0 (execIntakeSurvey a1 a2 s) := by
  unfold execIntakeSurvey
  repeat' with_reducible first
    | assumption
    | apply State.survey_frame
    | refine FrameOut.next ?_

theorem dlogHeadHook_frame {m : Nat} {s0 s : State} {a1 a2 a3 a4 : _} (hm : 14 ||| m = m) (h : Frame m s0 s) : Frame m s0 (dlogHeadHook a1 a2 a3 a4 s) := by
  unfold dlogHeadHook
  repeat' first
    | with_reducible assumption
    | exact mask_sub rfl hm
    | with_reducible apply State.setFld_frame
    | with_reducible apply State.dlogHead_frame

theorem dlogCtrlHook_frame {m : Nat} {s0 s : State} {a1 a2 a3 a4 : _} (hm : 262158 ||| m = m) (h : Frame m s0 s) : Frame m s0 (dlogCtrlHook a1 a2 a3 a4 s) := by
  unfold dlogCtrlHook
  repeat' first
    | with_reducible assumption
    | exact mask_sub rfl hm
    | with_reducible apply State.setFld_frame
    | with_reducible apply State.dlogEnable_frame

theorem dlogConfigHook_frame {m : Nat} {s0 s : State} {a1 a2 a3 a4 a5 : _} (hm : 14 ||| m = m) (h : Frame m s0 s) : Frame m s0 (dlogConfigHook a1 a2 a3 a4 a5 s) := by
  unfold dlogConfigHook
  repeat' first
    | with_reducible assumption
    | exact mask_sub rfl hm
    | with_reducible apply State.dlogNotice_frame
    | with_reducible apply State.setWord_frame
    | with_reducible apply State.raiseBy_frame
    | with_reducible apply Frame.ite

theorem execDlogHead_frame {m : Nat} {s0 s : State} {a1 a2 a3 : _} (hm : 1038 ||| m = m) (h : Frame m s0 (s.at a1)) : FrameOut m s0 (execDlogHead a1 a2 a3 s) := by
  unfold execDlogHead
  repeat' first
    | with_reducible assumption
    | exact mask_sub rfl hm
    | intro x
    | with_reducible apply State.regWrite_frame
    | with_reducible apply dlogHeadHook_frame
    | with_reducible refine FrameOut.next ?_

theorem execDlogEnable_frame {m : Nat} {s0 s : State} {a1 a2 a3 : _} (hm : 263182 ||| m = m) (h : Frame m s0 (s.at a1)) : FrameOut m s0 (execDlogEnable a1 a2 a3 s) := by
  unfold execDlogEnable
  repeat' first
    | with_reducible assumption
    | exact mask_sub rfl hm
    | intro x
    | with_reducible apply State.regWrite_frame
    | with_reducible apply dlogCtrlHook_frame
    | with_reducible refine FrameOut.next ?_

theorem dictCmdHook_frame {m : Nat} {s0 s : State} {a1 a2 a3 a4 : _} (hm : 524802 ||| m = m) (h : Frame m s0 s) : Frame m s0 (dictCmdHook a1 a2 a3 a4 s) := by
  unfold dictCmdHook
  repeat' first
    | with_reducible assumption
    | ((try lift_lets -underBinder); intro x; clear_value (e : x = _); first | refine (fun hx : Frame m s0 x.2 => ?_) (Frame.ofEq2 e ?_) | skip)
    | exact mask_sub rfl hm
    | with_reducible apply State.dictUnregister_frame
    | with_reducible apply State.setFld_frame
    | with_reducible apply State.dictRead_frame
    | with_reducible apply State.dictDone_frame
    | with_reducible apply State.openNat_frame
    | with_reducible apply State.dictRegister_frame
    | with_reducible apply Frame.ite
    | split

theorem execDictRegister_frame {m : Nat} {s0 s : State} {a1 a2 a3 : _} (hm : 525830 ||| m = m) (h : Frame m s0 (s.at a1)) : FrameOut m s0 (execDictRegister a1 a2 a3 s) := by
  unfold execDictRegister
  repeat' first
    | with_reducible assumption
    | exact mask_sub rfl hm
    | intro x
    | with_reducible apply dictCmdHook_frame
    | with_reducible apply State.regWrite_frame
    | with_reducible refine FrameOut.next ?_

theorem execDictUnregister_frame {m : Nat} {s0 s : State} {a1 a2 a3 : _} (hm : 525830 ||| m = m) (h : Frame m s0 (s.at a1)) : FrameOut m s0 (execDictUnregister a1 a2 a3 s) := by
  unfold execDictUnregister
  repeat' first
    | with_reducible assumption
    | exact mask_sub rfl hm
    | intro x
    | with_reducible apply dictCmdHook_frame
    | with_reducible apply State.regWrite_frame
    | with_reducible refine FrameOut.next ?_

theorem execDictUnregisterDone_frame {m : Nat} {s0 s : State} {a1 : _} (hm : 524802 ||| m = m) (h : Frame m s0 (s.at a1)) : FrameOut m s0 (execDictUnregisterDone a1 s) := by
  unfold execDictUnregisterDone
  repeat' with_reducible first
    | assumption
    | apply State.dictSettle_frame
    | refine FrameOut.next ?_

theorem execDictRead_frame {m : Nat} {s0 s : State} {a1 a2 a3 : _} (hm : 525830 ||| m = m) (h : Frame m s0 (s.at a1)) : FrameOut m s0 (execDictRead a1 a2 a3 s) := by
  unfold execDictRead
  repeat' first
    | with_reducible assumption
    | exact mask_sub rfl hm
    | intro x
    | with_reducible apply dictCmdHook_frame
    | with_reducible apply State.regWrite_frame
    | with_reducible refine FrameOut.next ?_

theorem execProbeOm64_frame {m : Nat} {s0 s : State} {a1 a2 : _} (hm : 6 ||| m = m) (h : Frame m s0 (s.at a1)) : FrameOut m s0 (execProbeOm64 a1 a2 s) := by
  unfold execProbeOm64
  repeat' with_reducible first
    | assumption
    | apply State.readReg_frame
    | refine FrameOut.next ?_

theorem execProbeCrc_frame {m : Nat} {s0 s : State} {a1 a2 : _} (hm : 6 ||| m = m) (h : Frame m s0 (s.at a1)) : FrameOut m s0 (execProbeCrc a1 a2 s) := by
  unfold execProbeCrc
  repeat' with_reducible first
    | assumption
    | apply State.readReg_frame
    | refine FrameOut.next ?_

theorem State.winResult_frame {m : Nat} {s0 s : State} {a2 a3 : _} (hm : 2 ||| m = m) (h : Frame m s0 s) : Frame m s0 (State.winResult s a2 a3) := by
  unfold State.winResult
  repeat' with_reducible first
    | assumption
    | apply State.setFld_frame

theorem State.setWinWords_frame {m : Nat} {s0 s : State} {a2 a3 a4 : _} (hm : 2 ||| m = m) (h : Frame m s0 s) : Frame m s0 (State.setWinWords s a2 a3 a4) := by
  unfold State.setWinWords
  repeat' first
    | with_reducible assumption
    | intro x
    | with_reducible apply State.setFld_frame
    | with_reducible refine Frame.foldl ?_ ?_

theorem State.winHit_frame {m : Nat} {s0 s : State} {a2 a3 : _} (hm : 2 ||| m = m) (h : Frame m s0 s) : Frame m s0 (State.winHit s a2 a3) := by
  unfold State.winHit
  repeat' first
    | with_reducible assumption
    | with_reducible apply State.setFld_frame
    | split

theorem State.winEntry_frame {m : Nat} {s0 s : State} {a2 a3 : _} (hm : 131078 ||| m = m) (h : Frame m s0 s) : Frame m s0 (State.winEntry s a2 a3) := by
  unfold State.winEntry
  repeat' first
    | with_reducible assumption
    | ((try lift_lets -underBinder); intro x; clear_value (e : x = _); first | refine (fun hx : Frame m s0 x => ?_) (Frame.ofEq e ?_) | skip)
    | exact mask_sub rfl hm
    | with_reducible apply State.raiseOwn_frame
    | with_reducible apply State.winResult_frame
    | with_reducible apply State.setFld_frame
    | with_reducible apply State.setWinWords_frame
    | with_reducible apply State.strWrite_frame
    | with_reducible apply State.count_frame
    | with_reducible apply State.bankTouch_frame
    | with_reducible apply Frame.ite
    | split

theorem State.winSearch_frame {m : Nat} {s0 s : State} {a2 a3 : _} (hm : 2 ||| m = m) (h : Frame m s0 s) : Frame m s0 (State.winSearch s a2 a3) := by
  unfold State.winSearch
  repeat' first
    | with_reducible assumption
    | ((try lift_lets -underBinder); intro x; clear_value (e : x = _); skip)
    | with_reducible apply State.countSearches_frame
    | with_reducible apply State.winResult_frame
    | with_reducible apply State.winHit_frame
    | with_reducible apply Frame.ite

theorem strCmdHook_frame {m : Nat} {s0 s : State} {a1 a2 a3 a4 a5 : _} (hm : 131078 ||| m = m) (h : Frame m s0 s) : Frame m s0 (strCmdHook a1 a2 a3 a4 a5 s) := by
  unfold strCmdHook
  repeat' first
    | with_reducible assumption
    | ((try lift_lets -underBinder); intro x; clear_value (e : x = _); skip)
    | exact mask_sub rfl hm
    | with_reducible apply State.winEntry_frame
    | with_reducible apply State.winResult_frame
    | with_reducible apply State.raiseBy_frame
    | with_reducible apply State.winSearch_frame
    | with_reducible apply Frame.ite

theorem fwOnly_frame {m : Nat} {s0 s : State} {off hook req page old v} (hh : ∀ req page old v s, Frame m s0 s → Frame m s0 (hook req page old v s)) (hm : 2 ||| m = m) (h : Frame m s0 s) : Frame m s0 (fwOnly off hook req page old v s) := by
  unfold fwOnly
  repeat' first
    | with_reducible assumption
    | with_reducible apply hh
    | with_reducible apply State.setWord_frame
    | split

theorem bankCfgHook_frame {m : Nat} {s0 s : State} {a1 a2 a3 a4 a5 : _} (hm : 131078 ||| m = m) (h : Frame m s0 s) : Frame m s0 (bankCfgHook a1 a2 a3 a4 a5 s) := by
  unfold bankCfgHook
  repeat' first
    | with_reducible assumption
    | ((try lift_lets -underBinder); intro x; clear_value (e : x = _); first | refine (fun hx : Frame m s0 x => ?_) (Frame.ofEq e ?_) | skip)
    | exact mask_sub rfl hm
    | with_reducible apply State.setFld_frame
    | with_reducible apply State.raiseBy_frame
    | with_reducible apply State.bankClear_frame
    | with_reducible apply Frame.ite

theorem strainerHook_frame {m : Nat} {s0 s : State} {a1 a2 a3 a4 a5 : _} (hm : 131078 ||| m = m) (h : Frame m s0 s) : Frame m s0 (strainerHook a1 a2 a3 a4 a5 s) := by
  unfold strainerHook
  repeat' first
    | with_reducible assumption
    | exact mask_sub rfl hm
    | intro x
    | with_reducible apply bankCfgHook_frame
    | with_reducible apply noHook_frame
    | with_reducible apply strCmdHook_frame
    | with_reducible apply fwOnly_frame
    | split

theorem State.winCmd_frame {m : Nat} {s0 s : State} {a2 a3 a4 a5 : _} (hm : 132102 ||| m = m) (h : Frame m s0 s) : Frame m s0 (State.winCmd s a2 a3 a4 a5) := by
  unfold State.winCmd
  repeat' first
    | with_reducible assumption
    | ((try lift_lets -underBinder); intro x; clear_value (e : x = _); skip)
    | exact mask_sub rfl hm
    | intro x
    | with_reducible apply strainerHook_frame
    | with_reducible apply State.regWrite_frame

theorem execStrainerWrite_frame {m : Nat} {s0 s : State} {a1 a2 a3 : _} (hm : 132102 ||| m = m) (h : Frame m s0 (s.at a1)) : FrameOut m s0 (execStrainerWrite a1 a2 a3 s) := by
  unfold execStrainerWrite
  repeat' first
    | with_reducible assumption
    | ((try lift_lets -underBinder); intro x; clear_value (e : x = _); refine (fun hx : Frame m s0 x => ?_) (Frame.ofEq e ?_))
    | with_reducible apply State.winCmd_frame
    | with_reducible refine FrameOut.next ?_

theorem execStrainerRead_frame {m : Nat} {s0 s : State} {a1 a2 a3 : _} (hm : 132102 ||| m = m) (h : Frame m s0 (s.at a1)) : FrameOut m s0 (execStrainerRead a1 a2 a3 s) := by
  unfold execStrainerRead
  repeat' first
    | with_reducible assumption
    | ((try lift_lets -underBinder); intro x; clear_value (e : x = _); refine (fun hx : Frame m s0 x => ?_) (Frame.ofEq e ?_))
    | with_reducible apply State.winCmd_frame
    | with_reducible refine FrameOut.next ?_

theorem execStrainerInvalidate_frame {m : Nat} {s0 s : State} {a1 a2 a3 : _} (hm : 132102 ||| m = m) (h : Frame m s0 (s.at a1)) : FrameOut m s0 (execStrainerInvalidate a1 a2 a3 s) := by
  unfold execStrainerInvalidate
  repeat' first
    | with_reducible assumption
    | ((try lift_lets -underBinder); intro x; clear_value (e : x = _); refine (fun hx : Frame m s0 x => ?_) (Frame.ofEq e ?_))
    | with_reducible apply State.winCmd_frame
    | with_reducible refine FrameOut.next ?_

theorem execStrainerSearch_frame {m : Nat} {s0 s : State} {a1 a2 a3 a4 : _} (hm : 132102 ||| m = m) (h : Frame m s0 (s.at a1)) : FrameOut m s0 (execStrainerSearch a1 a2 a3 a4 s) := by
  unfold execStrainerSearch
  repeat' with_reducible first
    | assumption
    | apply State.winCmd_frame
    | refine FrameOut.next ?_

theorem State.bankCfg_frame {m : Nat} {s0 s : State} {a2 a3 a4 a5 a6 : _} (hm : 132102 ||| m = m) (h : Frame m s0 s) : Frame m s0 (State.bankCfg s a2 a3 a4 a5 a6) := by
  unfold State.bankCfg
  repeat' first
    | with_reducible assumption
    | exact mask_sub rfl hm
    | intro x
    | with_reducible apply bankCfgHook_frame
    | with_reducible apply State.regWrite_frame

theorem execBankCfgWidth_frame {m : Nat} {s0 s : State} {a1 a2 a3 a4 : _} (hm : 132102 ||| m = m) (h : Frame m s0 (s.at a1)) : FrameOut m s0 (execBankCfgWidth a1 a2 a3 a4 s) := by
  unfold execBankCfgWidth
  repeat' with_reducible first
    | assumption
    | apply State.bankCfg_frame
    | refine FrameOut.next ?_
    | exact FrameOut.fault
    | refine FrameOut.ite ?_ ?_

theorem execBankCfgOos_frame {m : Nat} {s0 s : State} {a1 a2 a3 a4 : _} (hm : 132102 ||| m = m) (h : Frame m s0 (s.at a1)) : FrameOut m s0 (execBankCfgOos a1 a2 a3 a4 s) := by
  unfold execBankCfgOos
  repeat' with_reducible first
    | assumption
    | apply State.bankCfg_frame
    | refine FrameOut.next ?_
    | exact FrameOut.fault
    | refine FrameOut.ite ?_ ?_

theorem execScrubStep_frame {m : Nat} {s0 s : State} {a1 a2 a3 a4 : _} (hm : 335675398 ||| m = m) (h : Frame m s0 (s.at a1)) : FrameOut m s0 (execScrubStep a1 a2 a3 a4 s) := by
  unfold execScrubStep
  repeat' first
    | with_reducible assumption
    | ((try lift_lets -underBinder); intro x; clear_value (e : x = _); first | refine (fun hx : Frame m s0 x => ?_) (Frame.ofEq e ?_) | skip)
    | exact mask_sub rfl hm
    | with_reducible apply State.raiseOwn_frame
    | with_reducible apply State.setFld_frame
    | with_reducible apply State.setBank_frame
    | with_reducible apply State.faultRecord_frame
    | with_reducible apply State.count_frame
    | with_reducible apply State.bankTouch_frame
    | with_reducible apply Frame.ite
    | with_reducible refine FrameOut.next ?_
    | with_reducible exact FrameOut.fault
    | with_reducible refine FrameOut.ite ?_ ?_

theorem execLoadWritePass_frame {m : Nat} {s0 s : State} {a1 a2 a3 a4 : _} (hm : 335683142 ||| m = m) (h : Frame m s0 (s.at a1)) : FrameOut m s0 (execLoadWritePass a1 a2 a3 a4 s) := by
  unfold execLoadWritePass
  repeat' with_reducible first
    | assumption
    | apply State.loadPass_frame
    | refine FrameOut.next ?_

theorem execPartitionReload_frame {m : Nat} {s0 s : State} {a1 a2 a3 : _} (hm : 335552078 ||| m = m) (h : Frame m s0 (s.at a1)) : FrameOut m s0 (execPartitionReload a1 a2 a3 s) := by
  unfold execPartitionReload
  repeat' with_reducible first
    | assumption
    | apply State.reloadPart_frame
    | refine FrameOut.next ?_

theorem execRunaheadProbe_frame {m : Nat} {s0 s : State} {a1 a2 a3 a4 : _} (hm : 2562 ||| m = m) (h : Frame m s0 (s.at a1)) : FrameOut m s0 (execRunaheadProbe a1 a2 a3 a4 s) := by
  unfold execRunaheadProbe
  repeat' with_reducible first
    | assumption
    | apply State.probeAhead_frame
    | refine FrameOut.next ?_

theorem State.pressServe_frame {m : Nat} {s0 s : State} {p} {f : State → Nat → Sys2Proof.Bytes → State} (hf : ∀ s j b, Frame m s0 s → Frame m s0 (f s j b))
    (hm : 5342210 ||| m = m) (h : Frame m s0 s) : Frame m s0 (s.pressServe p f) := by
  unfold State.pressServe
  split
  · exact h
  · refine State.onRequest_frame (fun s hs => ?_) (mask_sub rfl hm) h
    have hr : Frame m s0 (s.joinRun p).1 := State.joinRun_frame (mask_sub rfl hm) hs
    dsimp only
    generalize s.joinRun p = r at hr ⊢
    repeat' first
      | with_reducible assumption
      | exact mask_sub rfl hm
      | with_reducible apply hf
      | with_reducible apply State.reply_frame
      | with_reducible apply State.ackHeld_frame
      | split

theorem execRows_frame {m : Nat} {s0 s : State} {a1 a2 : _} (hm : 340893262 ||| m = m) (h : Frame m s0 (s.at a1)) : FrameOut m s0 (execRows a1 a2 s) := by
  unfold execRows
  repeat' first
    | with_reducible assumption
    | exact mask_sub rfl hm
    | intro x
    | with_reducible apply State.pressServe_frame
    | with_reducible apply State.rowsArrive_frame
    | with_reducible refine FrameOut.next ?_

theorem execEndBuild_frame {m : Nat} {s0 s : State} {a1 a2 : _} (hm : 340893254 ||| m = m) (h : Frame m s0 (s.at a1)) : FrameOut m s0 (execEndBuild a1 a2 s) := by
  unfold execEndBuild
  repeat' first
    | with_reducible assumption
    | exact mask_sub rfl hm
    | intro x
    | with_reducible apply State.pressServe_frame
    | with_reducible apply State.markArrive_frame
    | with_reducible refine FrameOut.next ?_

theorem execEndProbe_frame {m : Nat} {s0 s : State} {a1 a2 : _} (hm : 340893254 ||| m = m) (h : Frame m s0 (s.at a1)) : FrameOut m s0 (execEndProbe a1 a2 s) := by
  unfold execEndProbe
  repeat' first
    | with_reducible assumption
    | exact mask_sub rfl hm
    | intro x
    | with_reducible apply State.pressServe_frame
    | with_reducible apply State.markArrive_frame
    | with_reducible refine FrameOut.next ?_

theorem State.storeResult_frame {m : Nat} {s0 s : State} {a2 : _} (hm : 2 ||| m = m) (h : Frame m s0 s) : Frame m s0 (State.storeResult s a2) := by
  unfold State.storeResult
  repeat' with_reducible first
    | assumption
    | apply State.setFld_frame

theorem State.storeShown_frame {m : Nat} {s0 s : State} {a2 : _} (hm : 2 ||| m = m) (h : Frame m s0 s) : Frame m s0 (State.storeShown s a2) := by
  unfold State.storeShown
  repeat' first
    | with_reducible assumption
    | ((try lift_lets -underBinder); intro x; clear_value (e : x = _); (have _f := fun a => x a; subst e))
    | with_reducible apply State.setFld_frame

theorem storeCmdHook_frame {m : Nat} {s0 s : State} {a1 a2 a3 a4 : _} (hm : 33554958 ||| m = m) (h : Frame m s0 s) : Frame m s0 (storeCmdHook a1 a2 a3 a4 s) := by
  unfold storeCmdHook
  repeat' first
    | with_reducible assumption
    | ((try lift_lets -underBinder); intro x; clear_value (e : x = _); skip)
    | exact mask_sub rfl hm
    | with_reducible apply State.storeShown_frame
    | with_reducible apply State.closeStore_frame
    | with_reducible apply State.setStore_frame
    | with_reducible apply State.raiseBy_frame
    | with_reducible apply State.storeResult_frame
    | with_reducible apply Frame.ite
    | split

theorem stateWmHook_frame {m : Nat} {s0 s : State} {a1 a2 a3 a4 : _} (hm : 14 ||| m = m) (h : Frame m s0 s) : Frame m s0 (stateWmHook a1 a2 a3 a4 s) := by
  unfold stateWmHook
  repeat' with_reducible first
    | assumption
    | apply State.stateNotice_frame

theorem execStoreOpen_frame {m : Nat} {s0 s : State} {a1 a2 a3 a4 a5 : _} (hm : 33555982 ||| m = m) (h : Frame m s0 (s.at a1)) : FrameOut m s0 (execStoreOpen a1 a2 a3 a4 a5 s) := by
  unfold execStoreOpen
  repeat' first
    | with_reducible assumption
    | exact mask_sub rfl hm
    | intro x
    | with_reducible apply State.regWrite_frame
    | with_reducible apply storeCmdHook_frame
    | with_reducible refine FrameOut.next ?_

theorem execStoreClose_frame {m : Nat} {s0 s : State} {a1 a2 a3 : _} (hm : 33555982 ||| m = m) (h : Frame m s0 (s.at a1)) : FrameOut m s0 (execStoreClose a1 a2 a3 s) := by
  unfold execStoreClose
  repeat' first
    | with_reducible assumption
    | ((try lift_lets -underBinder); intro x; clear_value (e : x = _); refine (fun hx : Frame m s0 x => ?_) (Frame.ofEq e ?_))
    | exact mask_sub rfl hm
    | intro x
    | with_reducible apply State.regWrite_frame
    | with_reducible apply storeCmdHook_frame
    | with_reducible refine FrameOut.next ?_

theorem execStoreRead_frame {m : Nat} {s0 s : State} {a1 a2 a3 : _} (hm : 33555982 ||| m = m) (h : Frame m s0 (s.at a1)) : FrameOut m s0 (execStoreRead a1 a2 a3 s) := by
  unfold execStoreRead
  repeat' first
    | with_reducible assumption
    | ((try lift_lets -underBinder); intro x; clear_value (e : x = _); refine (fun hx : Frame m s0 x => ?_) (Frame.ofEq e ?_))
    | exact mask_sub rfl hm
    | intro x
    | with_reducible apply State.regWrite_frame
    | with_reducible apply storeCmdHook_frame
    | with_reducible refine FrameOut.next ?_

theorem execStoreClear_frame {m : Nat} {s0 s : State} {a1 a2 a3 : _} (hm : 33555982 ||| m = m) (h : Frame m s0 (s.at a1)) : FrameOut m s0 (execStoreClear a1 a2 a3 s) := by
  unfold execStoreClear
  repeat' first
    | with_reducible assumption
    | ((try lift_lets -underBinder); intro x; clear_value (e : x = _); refine (fun hx : Frame m s0 x => ?_) (Frame.ofEq e ?_))
    | exact mask_sub rfl hm
    | intro x
    | with_reducible apply State.regWrite_frame
    | with_reducible apply storeCmdHook_frame
    | with_reducible refine FrameOut.next ?_

/-! Machine/LadleCmds.lean. -/

theorem State.tblMake_frame {m : Nat} {s0 s : State} {a2 a3 a4 : _} (hm : 1081870 ||| m = m) (h : Frame m s0 s) : Frame m s0 (State.tblMake s a2 a3 a4) := by
  unfold State.tblMake
  repeat' first
    | with_reducible assumption
    | ((try lift_lets -underBinder); intro x; clear_value (e : x = _); first | refine (fun hx : Frame m s0 x.2 => ?_) (Frame.ofEq2 e ?_) | skip)
    | exact mask_sub rfl hm
    | with_reducible apply State.tblResult_frame
    | with_reducible apply State.tblStart_frame
    | with_reducible apply State.openBytes_frame
    | with_reducible apply Frame.ite
    | split

theorem State.tblBind_frame {m : Nat} {s0 s : State} {a2 : _} (hm : 1048578 ||| m = m) (h : Frame m s0 s) : Frame m s0 (State.tblBind s a2) := by
  unfold State.tblBind
  repeat' first
    | with_reducible assumption
    | ((try lift_lets -underBinder); intro x; clear_value (e : x = _); skip)
    | exact mask_sub rfl hm
    | with_reducible apply State.updTable_frame
    | with_reducible apply State.tblResult_frame
    | with_reducible apply Frame.ite
    | split

theorem State.tblShow_frame {m : Nat} {s0 s : State} {a2 : _} (hm : 2 ||| m = m) (h : Frame m s0 s) : Frame m s0 (State.tblShow s a2) := by
  unfold State.tblShow
  repeat' first
    | with_reducible assumption
    | ((try lift_lets -underBinder); intro x; clear_value (e : x = _); skip)
    | with_reducible apply State.tblResult_frame
    | with_reducible apply State.setFld_frame

theorem State.tblOwner_frame {m : Nat} {s0 s : State} {a2 : _} (hm : 2 ||| m = m) (h : Frame m s0 s) : Frame m s0 (State.tblOwner s a2) := by
  unfold State.tblOwner
  repeat' first
    | with_reducible assumption
    | with_reducible apply State.tblResult_frame
    | with_reducible apply State.setFld_frame
    | split

theorem tblCmdHook_frame {m : Nat} {s0 s : State} {a1 a2 a3 a4 a5 a6 : _} (hm : 1081870 ||| m = m) (h : Frame m s0 s) : Frame m s0 (tblCmdHook a1 a2 a3 a4 a5 a6 s) := by
  unfold tblCmdHook
  repeat' first
    | with_reducible assumption
    | ((try lift_lets -underBinder); intro x; clear_value (e : x = _); skip)
    | exact mask_sub rfl hm
    | with_reducible apply State.tblOwner_frame
    | with_reducible apply State.tblResult_frame
    | with_reducible apply State.tblBind_frame
    | with_reducible apply State.tblShow_frame
    | with_reducible apply State.tblStart_frame
    | with_reducible apply State.tblMake_frame
    | with_reducible apply State.raiseBy_frame
    | with_reducible apply Frame.ite
    | split

theorem State.tblCmd_frame {m : Nat} {s0 s : State} {a2 a3 a4 : _} (hm : 1082894 ||| m = m) (h : Frame m s0 s) : Frame m s0 (State.tblCmd s a2 a3 a4) := by
  unfold State.tblCmd
  repeat' first
    | with_reducible assumption
    | exact mask_sub rfl hm
    | intro x
    | with_reducible apply State.regWrite_frame
    | with_reducible apply tblCmdHook_frame

theorem execTblCreate_frame {m : Nat} {s0 s : State} {a1 a2 a3 a4 a5 : _} (hm : 1082894 ||| m = m) (h : Frame m s0 (s.at a1)) : FrameOut m s0 (execTblCreate a1 a2 a3 a4 a5 s) := by
  unfold execTblCreate
  repeat' first
    | with_reducible assumption
    | exact mask_sub rfl hm
    | intro x
    | with_reducible apply State.regWrite_frame
    | with_reducible apply tblCmdHook_frame
    | with_reducible refine FrameOut.next ?_

theorem execTblDestroy_frame {m : Nat} {s0 s : State} {a1 a2 a3 : _} (hm : 1082894 ||| m = m) (h : Frame m s0 (s.at a1)) : FrameOut m s0 (execTblDestroy a1 a2 a3 s) := by
  unfold execTblDestroy
  repeat' with_reducible first
    | assumption
    | apply State.tblCmd_frame
    | refine FrameOut.next ?_

theorem execTblRead_frame {m : Nat} {s0 s : State} {a1 a2 a3 : _} (hm : 1082894 ||| m = m) (h : Frame m s0 (s.at a1)) : FrameOut m s0 (execTblRead a1 a2 a3 s) := by
  unfold execTblRead
  repeat' with_reducible first
    | assumption
    | apply State.tblCmd_frame
    | refine FrameOut.next ?_

theorem execTblBind_frame {m : Nat} {s0 s : State} {a1 a2 a3 : _} (hm : 1082894 ||| m = m) (h : Frame m s0 (s.at a1)) : FrameOut m s0 (execTblBind a1 a2 a3 s) := by
  unfold execTblBind
  repeat' with_reducible first
    | assumption
    | apply State.tblCmd_frame
    | refine FrameOut.next ?_

theorem execTblInvalidate_frame {m : Nat} {s0 s : State} {a1 a2 a3 : _} (hm : 1082894 ||| m = m) (h : Frame m s0 (s.at a1)) : FrameOut m s0 (execTblInvalidate a1 a2 a3 s) := by
  unfold execTblInvalidate
  repeat' with_reducible first
    | assumption
    | apply State.tblCmd_frame
    | refine FrameOut.next ?_

theorem execTblShard_frame {m : Nat} {s0 s : State} {a1 a2 a3 : _} (hm : 1082894 ||| m = m) (h : Frame m s0 (s.at a1)) : FrameOut m s0 (execTblShard a1 a2 a3 s) := by
  unfold execTblShard
  repeat' with_reducible first
    | assumption
    | apply State.tblCmd_frame
    | refine FrameOut.next ?_

theorem execTblCmdDone_frame {m : Nat} {s0 s : State} {a1 : _} (hm : 1048578 ||| m = m) (h : Frame m s0 (s.at a1)) : FrameOut m s0 (execTblCmdDone a1 s) := by
  unfold execTblCmdDone
  repeat' first
    | with_reducible assumption
    | ((try lift_lets -underBinder); intro x; clear_value (e : x = _); refine (fun hx : Frame m s0 x => ?_) (Frame.ofEq e ?_))
    | exact mask_sub rfl hm
    | with_reducible apply State.tblResult_frame
    | with_reducible apply State.modLadle_frame
    | with_reducible apply Frame.ite
    | with_reducible refine FrameOut.next ?_
    | split

theorem State.engineServe_frame {m : Nat} {s0 s : State} {p} {f : State → Sys2Proof.Bytes → State × Option Nat} (hf : ∀ s b, Frame m s0 s → Frame m s0 (f s b).1) (hm : 5342210 ||| m = m) (h : Frame m s0 s) : Frame m s0 (s.engineServe p f) := by
  unfold State.engineServe
  repeat' first
    | with_reducible assumption
    | ((try lift_lets -underBinder); intro x; clear_value (e : x = _); refine (fun hx : Frame m s0 x.1 => ?_) (Frame.ofEq1 e ?_))
    | exact mask_sub rfl hm
    | intro x
    | with_reducible apply hf
    | with_reducible apply State.onRequest_frame
    | with_reducible apply State.reply_frame
    | with_reducible apply State.joinRun_frame
    | with_reducible apply Frame.ite
    | split

theorem State.okServe_frame {m : Nat} {s0 s : State} {p} {f : State → Sys2Proof.Bytes → State} (hf : ∀ s b, Frame m s0 s → Frame m s0 (f s b)) (hm : 5342210 ||| m = m) (h : Frame m s0 s) : Frame m s0 (s.okServe p f) := by
  unfold State.okServe
  repeat' first
    | with_reducible assumption
    | exact mask_sub rfl hm
    | intro x
    | with_reducible apply hf
    | with_reducible apply State.reply_frame
    | with_reducible apply State.engineServe_frame

theorem execGather_frame {m : Nat} {s0 s : State} {a1 a2 a3 : _} (hm : 5342214 ||| m = m) (h : Frame m s0 (s.at a1)) : FrameOut m s0 (execGather a1 a2 a3 s) := by
  unfold execGather
  repeat' first
    | with_reducible assumption
    | exact mask_sub rfl hm
    | intro x
    | with_reducible apply State.gatherServe_frame
    | with_reducible apply State.engineServe_frame
    | with_reducible refine FrameOut.next ?_

theorem execUpdate_frame {m : Nat} {s0 s : State} {a1 a2 : _} (hm : 5342734 ||| m = m) (h : Frame m s0 (s.at a1)) : FrameOut m s0 (execUpdate a1 a2 s) := by
  unfold execUpdate
  repeat' first
    | with_reducible assumption
    | exact mask_sub rfl hm
    | intro x
    | with_reducible apply State.updateServe_frame
    | with_reducible apply State.engineServe_frame
    | with_reducible refine FrameOut.next ?_

theorem execSent_frame {m : Nat} {s0 s : State} {a1 a2 : _} (hm : 340893518 ||| m = m) (h : Frame m s0 (s.at a1)) : FrameOut m s0 (execSent a1 a2 s) := by
  unfold execSent
  repeat' first
    | with_reducible assumption
    | exact mask_sub rfl hm
    | intro x
    | with_reducible apply State.sentHere_frame
    | with_reducible apply State.okServe_frame
    | with_reducible refine FrameOut.next ?_

theorem execStepClose_frame {m : Nat} {s0 s : State} {a1 a2 a3 : _} (hm : 340893518 ||| m = m) (h : Frame m s0 (s.at a1)) : FrameOut m s0 (execStepClose a1 a2 a3 s) := by
  unfold execStepClose
  repeat' first
    | with_reducible assumption
    | exact mask_sub rfl hm
    | intro x
    | with_reducible apply State.closeStep_frame
    | with_reducible apply State.engineServe_frame
    | with_reducible refine FrameOut.next ?_

theorem execApplied_frame {m : Nat} {s0 s : State} {a1 a2 : _} (hm : 383237966 ||| m = m) (h : Frame m s0 (s.at a1)) : FrameOut m s0 (execApplied a1 a2 s) := by
  unfold execApplied
  repeat' first
    | with_reducible assumption
    | ((try lift_lets -underBinder); intro x; clear_value (e : x = _); refine (fun hx : Frame m s0 x => ?_) (Frame.ofEq e ?_))
    | with_reducible apply State.response_frame
    | with_reducible apply Frame.ite
    | with_reducible refine FrameOut.next ?_

theorem execStepDone_frame {m : Nat} {s0 s : State} {a1 a2 : _} (hm : 340893254 ||| m = m) (h : Frame m s0 (s.at a1)) : FrameOut m s0 (execStepDone a1 a2 s) := by
  unfold execStepDone
  repeat' first
    | with_reducible assumption
    | exact mask_sub rfl hm
    | intro x
    | with_reducible apply State.stepDoneHere_frame
    | with_reducible apply State.okServe_frame
    | with_reducible refine FrameOut.next ?_

theorem execLoadReport_frame {m : Nat} {s0 s : State} {a1 a2 : _} (hm : 5342982 ||| m = m) (h : Frame m s0 (s.at a1)) : FrameOut m s0 (execLoadReport a1 a2 s) := by
  unfold execLoadReport
  repeat' first
    | with_reducible assumption
    | exact mask_sub rfl hm
    | intro x
    | with_reducible apply State.okServe_frame
    | with_reducible apply State.loadHere_frame
    | with_reducible refine FrameOut.next ?_

theorem execPrep_frame {m : Nat} {s0 s : State} {a1 a2 a3 : _} (hm : 5342982 ||| m = m) (h : Frame m s0 (s.at a1)) : FrameOut m s0 (execPrep a1 a2 a3 s) := by
  unfold execPrep
  repeat' first
    | with_reducible assumption
    | ((try lift_lets -underBinder); intro x; clear_value (e : x = _); skip)
    | exact mask_sub rfl hm
    | intro x
    | with_reducible apply State.reply_frame
    | with_reducible apply State.prepHere_frame
    | with_reducible apply State.engineServe_frame
    | with_reducible refine FrameOut.next ?_
    | split

theorem execShardCopy_frame {m : Nat} {s0 s : State} {a1 a2 : _} (hm : 5342734 ||| m = m) (h : Frame m s0 (s.at a1)) : FrameOut m s0 (execShardCopy a1 a2 s) := by
  unfold execShardCopy
  repeat' first
    | with_reducible assumption
    | exact mask_sub rfl hm
    | intro x
    | with_reducible apply State.copyHere_frame
    | with_reducible apply State.okServe_frame
    | with_reducible refine FrameOut.next ?_

theorem execCommit_frame {m : Nat} {s0 s : State} {a1 a2 : _} (hm : 5342734 ||| m = m) (h : Frame m s0 (s.at a1)) : FrameOut m s0 (execCommit a1 a2 s) := by
  unfold execCommit
  repeat' first
    | with_reducible assumption
    | exact mask_sub rfl hm
    | intro x
    | with_reducible apply State.commitHere_frame
    | with_reducible apply State.okServe_frame
    | with_reducible refine FrameOut.next ?_

theorem execLogHandoff_frame {m : Nat} {s0 s : State} {a1 a2 : _} (hm : 5342734 ||| m = m) (h : Frame m s0 (s.at a1)) : FrameOut m s0 (execLogHandoff a1 a2 s) := by
  unfold execLogHandoff
  repeat' first
    | with_reducible assumption
    | exact mask_sub rfl hm
    | intro x
    | with_reducible apply State.reply_frame
    | with_reducible apply State.setLog_frame
    | with_reducible apply State.ackHeld_frame
    | with_reducible apply State.engineServe_frame
    | with_reducible refine FrameOut.next ?_
    | split
    | with_reducible refine FrameOpt.get' (by assumption) ?_

theorem execTableCmd_frame {m : Nat} {s0 s : State} {a1 a2 : _} (hm : 5342734 ||| m = m) (h : Frame m s0 (s.at a1)) : FrameOut m s0 (execTableCmd a1 a2 s) := by
  unfold execTableCmd
  repeat' first
    | with_reducible assumption
    | ((try lift_lets -underBinder); intro x; clear_value (e : x = _); first | refine (fun hx : Frame m s0 x => ?_) (Frame.ofEq e ?_) | skip)
    | exact mask_sub rfl hm
    | intro x
    | with_reducible apply State.reply_frame
    | with_reducible apply State.tableCmd_frame
    | with_reducible apply State.ackHeld_frame
    | with_reducible apply State.engineServe_frame
    | with_reducible refine FrameOut.next ?_
    | split

theorem execCancel_frame {m : Nat} {s0 s : State} {a1 a2 : _} (hm : 5342210 ||| m = m) (h : Frame m s0 (s.at a1)) : FrameOut m s0 (execCancel a1 a2 s) := by
  unfold execCancel
  repeat' first
    | with_reducible assumption
    | exact mask_sub rfl hm
    | intro x
    | with_reducible apply State.cancelHere_frame
    | with_reducible apply State.okServe_frame
    | with_reducible refine FrameOut.next ?_

theorem execPrefetch_frame {m : Nat} {s0 s : State} {a1 a2 a3 a4 : _} (hm : 1081862 ||| m = m) (h : Frame m s0 (s.at a1)) : FrameOut m s0 (execPrefetch a1 a2 a3 a4 s) := by
  unfold execPrefetch
  repeat' with_reducible first
    | assumption
    | apply State.prefetch_frame
    | refine FrameOut.next ?_

/-! Machine/HerdCmds.lean. -/

theorem State.whileUp_frame {m : Nat} {s0 s : State}  {f : State → State} (hf : ∀ s, Frame m s0 s → Frame m s0 (f s)) (_hm : 0 ||| m = m) (h : Frame m s0 s) : Frame m s0 (State.whileUp s  f) := by
  unfold State.whileUp
  repeat' with_reducible first
    | assumption
    | apply hf
    | apply Frame.ite

theorem execLeadClaim_frame {m : Nat} {s0 s : State} {a1 a2 a3 : _} (hm : 2129922 ||| m = m) (h : Frame m s0 (s.at a1)) : FrameOut m s0 (execLeadClaim a1 a2 a3 s) := by
  unfold execLeadClaim
  repeat' first
    | with_reducible assumption
    | exact mask_sub rfl hm
    | intro x
    | with_reducible apply State.claimHeard_frame
    | with_reducible apply State.whileUp_frame
    | with_reducible refine FrameOut.next ?_
    | with_reducible exact FrameOut.fault
    | with_reducible refine FrameOut.ite ?_ ?_

theorem execFormMsExpire_frame {m : Nat} {s0 s : State} {a1 : _} (hm : 376700686 ||| m = m) (h : Frame m s0 (s.at a1)) : FrameOut m s0 (execFormMsExpire a1 s) := by
  unfold execFormMsExpire
  repeat' first
    | with_reducible assumption
    | exact mask_sub rfl hm
    | intro x
    | with_reducible apply State.formExpire_frame
    | with_reducible apply State.whileUp_frame
    | with_reducible refine FrameOut.next ?_

theorem execHerdForm_frame {m : Nat} {s0 s : State} {a1 a2 a3 : _} (hm : 2129926 ||| m = m) (h : Frame m s0 (s.at a1)) : FrameOut m s0 (execHerdForm a1 a2 a3 s) := by
  unfold execHerdForm
  repeat' first
    | with_reducible assumption
    | exact mask_sub rfl hm
    | intro x
    | with_reducible apply State.formHeard_frame
    | with_reducible apply State.whileUp_frame
    | with_reducible refine FrameOut.next ?_
    | with_reducible exact FrameOut.fault
    | with_reducible refine FrameOut.ite ?_ ?_

theorem execJoin_frame {m : Nat} {s0 s : State} {a1 a2 : _} (hm : 376700686 ||| m = m) (h : Frame m s0 (s.at a1)) : FrameOut m s0 (execJoin a1 a2 s) := by
  unfold execJoin
  repeat' first
    | with_reducible assumption
    | ((try lift_lets -underBinder); intro x; clear_value (e : x = _); skip)
    | exact mask_sub rfl hm
    | intro x
    | with_reducible apply State.joinHeard_frame
    | with_reducible apply State.startReturn_frame
    | with_reducible apply State.whileUp_frame
    | with_reducible apply State.sendUp_frame
    | with_reducible apply Frame.ite
    | with_reducible refine FrameOut.next ?_

theorem execMemberSet_frame {m : Nat} {s0 s : State} {a1 a2 a3 : _} (hm : 376700686 ||| m = m) (h : Frame m s0 (s.at a1)) : FrameOut m s0 (execMemberSet a1 a2 a3 s) := by
  unfold execMemberSet
  repeat' first
    | with_reducible assumption
    | ((try lift_lets -underBinder); intro x; clear_value (e : x = _); first | refine (fun hx : Frame m s0 x => ?_) (Frame.ofEq e ?_) | skip)
    | exact mask_sub rfl hm
    | intro x
    | with_reducible apply State.sendFrom_frame
    | with_reducible apply State.whileUp_frame
    | with_reducible apply State.holdSet_frame
    | with_reducible apply State.modHerd_frame
    | with_reducible apply State.sendUp_frame
    | with_reducible apply Frame.ite
    | with_reducible refine Frame.foldl ?_ ?_
    | with_reducible refine FrameOut.next ?_
    | with_reducible exact FrameOut.fault
    | with_reducible refine FrameOut.ite ?_ ?_
    | split

theorem execMemberAck_frame {m : Nat} {s0 s : State} {a1 a2 : _} (hm : 2129922 ||| m = m) (h : Frame m s0 (s.at a1)) : FrameOut m s0 (execMemberAck a1 a2 s) := by
  unfold execMemberAck
  repeat' first
    | with_reducible assumption
    | ((try lift_lets -underBinder); intro x; clear_value (e : x = _); skip)
    | exact mask_sub rfl hm
    | intro x
    | with_reducible apply State.whileUp_frame
    | with_reducible apply State.modHerd_frame
    | with_reducible apply State.sendUp_frame
    | with_reducible apply Frame.ite
    | with_reducible refine FrameOut.next ?_

theorem execElectAck_frame {m : Nat} {s0 s : State} {a1 a2 : _} (hm : 2097152 ||| m = m) (h : Frame m s0 (s.at a1)) : FrameOut m s0 (execElectAck a1 a2 s) := by
  unfold execElectAck
  repeat' first
    | with_reducible assumption
    | exact mask_sub rfl hm
    | intro x
    | with_reducible apply State.whileUp_frame
    | with_reducible apply State.modHerd_frame
    | with_reducible apply Frame.ite
    | with_reducible refine FrameOut.next ?_

theorem execLeave_frame {m : Nat} {s0 s : State} {a1 a2 : _} (hm : 376700686 ||| m = m) (h : Frame m s0 (s.at a1)) : FrameOut m s0 (execLeave a1 a2 s) := by
  unfold execLeave
  repeat' first
    | with_reducible assumption
    | exact mask_sub rfl hm
    | intro x
    | with_reducible apply State.whileUp_frame
    | with_reducible apply State.removeNode_frame
    | with_reducible apply Frame.ite
    | with_reducible refine FrameOut.next ?_

theorem execLeadTakeover_frame {m : Nat} {s0 s : State} {a1 : _} (hm : 376700686 ||| m = m) (h : Frame m s0 (s.at a1)) : FrameOut m s0 (execLeadTakeover a1 s) := by
  unfold execLeadTakeover
  repeat' first
    | with_reducible assumption
    | exact mask_sub rfl hm
    | intro x
    | with_reducible apply State.takeOver_frame
    | with_reducible apply State.whileUp_frame
    | with_reducible refine FrameOut.next ?_

theorem execIsolated_frame {m : Nat} {s0 s : State} {a1 : _} (hm : 6 ||| m = m) (h : Frame m s0 (s.at a1)) : FrameOut m s0 (execIsolated a1 s) := by
  unfold execIsolated
  repeat' first
    | with_reducible assumption
    | exact mask_sub rfl hm
    | intro x
    | with_reducible apply State.whileUp_frame
    | with_reducible apply State.isolate_frame
    | with_reducible refine FrameOut.next ?_

theorem execTwinPair_frame {m : Nat} {s0 s : State} {a1 a2 : _} (hm : 98822 ||| m = m) (h : Frame m s0 (s.at a1)) : FrameOut m s0 (execTwinPair a1 a2 s) := by
  unfold execTwinPair
  repeat' first
    | with_reducible assumption
    | ((try lift_lets -underBinder); intro x; clear_value (e : x = _); skip)
    | exact mask_sub rfl hm
    | intro x
    | with_reducible apply State.whileUp_frame
    | with_reducible apply State.pairForm_frame
    | with_reducible apply State.pairHeard_frame
    | with_reducible apply Frame.ite
    | with_reducible refine FrameOut.next ?_

theorem State.replyLink_frame {m : Nat} {s0 s : State} {a2 a3 : _} (hm : 32770 ||| m = m) (h : Frame m s0 s) : Frame m s0 (State.replyLink s a2 a3) := by
  unfold State.replyLink
  repeat' first
    | with_reducible assumption
    | ((try lift_lets -underBinder); intro x; clear_value (e : x = _); skip)
    | exact mask_sub rfl hm
    | with_reducible apply State.linkSend_frame
    | with_reducible apply State.emit_frame

theorem execMirror_frame {m : Nat} {s0 s : State} {a1 a2 a3 : _} (hm : 4292610 ||| m = m) (h : Frame m s0 (s.at a1)) : FrameOut m s0 (execMirror a1 a2 a3 s) := by
  unfold execMirror
  repeat' first
    | with_reducible assumption
    | ((try lift_lets -underBinder); intro x; clear_value (e : x = _); first | refine (fun hx : Frame m s0 x => ?_) (Frame.ofEq e ?_) | refine (fun hx : Frame m s0 x.1 => ?_) (Frame.ofEq1 e ?_))
    | exact mask_sub rfl hm
    | intro x
    | with_reducible apply State.marked_frame
    | with_reducible apply State.whileUp_frame
    | with_reducible apply State.replyLink_frame
    | with_reducible apply State.joinRun_frame
    | with_reducible apply State.modTwin_frame
    | with_reducible apply State.count_frame
    | with_reducible apply Frame.ite
    | with_reducible refine FrameOut.next ?_
    | split

theorem execTwinCut_frame {m : Nat} {s0 s : State} {a1 a2 a3 : _} (hm : 98822 ||| m = m) (h : Frame m s0 (s.at a1)) : FrameOut m s0 (execTwinCut a1 a2 a3 s) := by
  unfold execTwinCut
  repeat' first
    | with_reducible assumption
    | exact mask_sub rfl hm
    | intro x
    | with_reducible apply State.whileUp_frame
    | with_reducible apply State.twinCut_frame
    | with_reducible apply Frame.ite
    | with_reducible refine FrameOut.next ?_

theorem execTwinAck_frame {m : Nat} {s0 s : State} {a1 a2 a3 : _} (hm : 4300558 ||| m = m) (h : Frame m s0 (s.at a1)) : FrameOut m s0 (execTwinAck a1 a2 a3 s) := by
  unfold execTwinAck
  repeat' first
    | with_reducible assumption
    | exact mask_sub rfl hm
    | intro x
    | with_reducible apply State.twinAck_frame
    | with_reducible apply State.whileUp_frame
    | with_reducible apply Frame.ite
    | with_reducible refine FrameOut.next ?_

theorem State.herdJoin_frame {m : Nat} {s0 s : State} {a2 : _} (hm : 2146310 ||| m = m) (h : Frame m s0 s) : Frame m s0 (State.herdJoin s a2) := by
  unfold State.herdJoin
  repeat' first
    | with_reducible assumption
    | ((try lift_lets -underBinder); intro x; clear_value (e : x = _); refine (fun hx : Frame m s0 x => ?_) (Frame.ofEq e ?_))
    | exact mask_sub rfl hm
    | with_reducible exact Kept.rfl
    | exact Kept.mask (mask_sub rfl hm)
    | with_reducible apply State.setFld_frame
    | with_reducible apply State.raiseBy_frame
    | with_reducible apply State.derive_frame
    | with_reducible apply Frame.ite
    | split
    | with_reducible refine Frame.lit rfl ?_ ?_ ?_ ?_ ?_ ?_ ?_ ?_ ?_ ?_ ?_ ?_ ?_ ?_ ?_ ?_ ?_ ?_ ?_ ?_ ?_ ?_ ?_ ?_ ?_ ?_ ?_ ?_

theorem State.herdLeave_frame {m : Nat} {s0 s : State} (hm : 376700686 ||| m = m) (h : Frame m s0 s) : Frame m s0 (State.herdLeave s) := by
  unfold State.herdLeave
  repeat' first
    | with_reducible assumption
    | exact mask_sub rfl hm
    | with_reducible apply State.removeNode_frame
    | with_reducible apply State.sendUp_frame
    | with_reducible apply Frame.ite

theorem herdCtrlHook_frame {m : Nat} {s0 s : State} {a1 a2 a3 a4 : _} (hm : 376700686 ||| m = m) (h : Frame m s0 s) : Frame m s0 (herdCtrlHook a1 a2 a3 a4 s) := by
  unfold herdCtrlHook
  repeat' first
    | with_reducible assumption
    | ((try lift_lets -underBinder); intro x; clear_value (e : x = _); first | refine (fun hx : Frame m s0 x => ?_) (Frame.ofEq e ?_) | skip)
    | exact mask_sub rfl hm
    | with_reducible apply State.admitNode_frame
    | with_reducible apply State.raiseBy_frame
    | with_reducible apply State.herdJoin_frame
    | with_reducible apply State.herdLeave_frame
    | with_reducible apply Frame.ite

theorem twinCfgHook_frame {m : Nat} {s0 s : State} {a1 a2 a3 a4 : _} (hm : 98822 ||| m = m) (h : Frame m s0 s) : Frame m s0 (twinCfgHook a1 a2 a3 a4 s) := by
  unfold twinCfgHook
  repeat' first
    | with_reducible assumption
    | exact mask_sub rfl hm
    | with_reducible apply State.pairSettle_frame
    | with_reducible apply State.modTwin_frame
    | with_reducible apply Frame.ite

theorem execHerdJoin_frame {m : Nat} {s0 s : State} {a1 a2 : _} (hm : 376700686 ||| m = m) (h : Frame m s0 (s.at a1)) : FrameOut m s0 (execHerdJoin a1 a2 s) := by
  unfold execHerdJoin
  repeat' first
    | with_reducible assumption
    | exact mask_sub rfl hm
    | intro x
    | with_reducible apply State.regWrite_frame
    | with_reducible apply herdCtrlHook_frame
    | with_reducible refine FrameOut.next ?_

theorem execHerdLeave_frame {m : Nat} {s0 s : State} {a1 a2 : _} (hm : 376700686 ||| m = m) (h : Frame m s0 (s.at a1)) : FrameOut m s0 (execHerdLeave a1 a2 s) := by
  unfold execHerdLeave
  repeat' first
    | with_reducible assumption
    | exact mask_sub rfl hm
    | intro x
    | with_reducible apply State.regWrite_frame
    | with_reducible apply herdCtrlHook_frame
    | with_reducible refine FrameOut.next ?_

theorem execAdmitId_frame {m : Nat} {s0 s : State} {a1 a2 a3 : _} (hm : 376700686 ||| m = m) (h : Frame m s0 (s.at a1)) : FrameOut m s0 (execAdmitId a1 a2 a3 s) := by
  unfold execAdmitId
  repeat' first
    | with_reducible assumption
    | exact mask_sub rfl hm
    | intro x
    | with_reducible apply State.regWrite_frame
    | with_reducible apply herdCtrlHook_frame
    | with_reducible refine FrameOut.next ?_

theorem execBootReq_frame {m : Nat} {s0 s : State} {a1 a2 a3 : _} (hm : 32770 ||| m = m) (h : Frame m s0 (s.at a1)) : FrameOut m s0 (execBootReq a1 a2 a3 s) := by
  unfold execBootReq
  repeat' first
    | with_reducible assumption
    | exact mask_sub rfl hm
    | intro x
    | with_reducible apply State.whileUp_frame
    | with_reducible apply State.bootReq_frame
    | with_reducible refine FrameOut.next ?_
    | with_reducible exact FrameOut.fault
    | with_reducible refine FrameOut.ite ?_ ?_

theorem execBootData_frame {m : Nat} {s0 s : State} {a1 a2 a3 : _} (hm : 18907142 ||| m = m) (h : Frame m s0 (s.at a1)) : FrameOut m s0 (execBootData a1 a2 a3 s) := by
  unfold execBootData
  repeat' first
    | with_reducible assumption
    | exact mask_sub rfl hm
    | intro x
    | with_reducible apply State.bootData_frame
    | with_reducible apply State.whileUp_frame
    | with_reducible refine FrameOut.next ?_
    | with_reducible exact FrameOut.fault
    | with_reducible refine FrameOut.ite ?_ ?_

theorem execBootFallback_frame {m : Nat} {s0 s : State} {a1 : _} (hm : 18874374 ||| m = m) (h : Frame m s0 (s.at a1)) : FrameOut m s0 (execBootFallback a1 s) := by
  unfold execBootFallback
  repeat' first
    | with_reducible assumption
    | exact mask_sub rfl hm
    | intro x
    | with_reducible apply State.whileUp_frame
    | with_reducible apply State.bootFallback_frame
    | with_reducible refine FrameOut.next ?_

theorem execMemberSetResend_frame {m : Nat} {s0 s : State} {a1 : _} (hm : 32770 ||| m = m) (h : Frame m s0 (s.at a1)) : FrameOut m s0 (execMemberSetResend a1 s) := by
  unfold execMemberSetResend
  repeat' first
    | with_reducible assumption
    | exact mask_sub rfl hm
    | intro x
    | with_reducible apply State.whileUp_frame
    | with_reducible apply State.resendSets_frame
    | with_reducible apply Frame.ite
    | with_reducible refine FrameOut.next ?_

theorem execHandbackTransferDone_frame {m : Nat} {s0 s : State} {a1 a2 : _} (hm : 376700686 ||| m = m) (h : Frame m s0 (s.at a1)) : FrameOut m s0 (execHandbackTransferDone a1 a2 s) := by
  unfold execHandbackTransferDone
  repeat' first
    | with_reducible assumption
    | exact mask_sub rfl hm
    | intro x
    | with_reducible apply State.admitNode_frame
    | with_reducible apply State.whileUp_frame
    | with_reducible apply Frame.ite
    | with_reducible refine FrameOut.next ?_

/-! Machine/ServeCmds.lean. -/

theorem aqWmHook_frame {m : Nat} {s0 s : State} {a1 a2 a3 a4 : _} (hm : 14 ||| m = m) (h : Frame m s0 s) : Frame m s0 (aqWmHook a1 a2 a3 a4 s) := by
  unfold aqWmHook
  repeat' with_reducible first
    | assumption
    | apply State.aqNotice_frame

theorem servePageHook_frame {m : Nat} {s0 s : State} {a1 a2 a3 a4 a5 a6 : _} (hm : 8391182 ||| m = m) (h : Frame m s0 s) : Frame m s0 (servePageHook a1 a2 a3 a4 a5 a6 s) := by
  unfold servePageHook
  repeat' first
    | with_reducible assumption
    | exact mask_sub rfl hm
    | with_reducible apply serveCfgHook_frame
    | with_reducible apply aqWmHook_frame
    | with_reducible apply serveRingHook_frame
    | with_reducible apply reserveHook_frame
    | with_reducible apply noHook_frame
    | with_reducible apply svcHook_frame
    | with_reducible apply serveRingFixed_frame
    | split

theorem execServeEnable_frame {m : Nat} {s0 s : State} {a1 a2 a3 : _} (hm : 8392206 ||| m = m) (h : Frame m s0 (s.at a1)) : FrameOut m s0 (execServeEnable a1 a2 a3 s) := by
  unfold execServeEnable
  repeat' first
    | with_reducible assumption
    | ((try lift_lets -underBinder); intro x; clear_value (e : x = _); refine (fun hx : Frame m s0 x => ?_) (Frame.ofEq e ?_))
    | exact mask_sub rfl hm
    | intro x
    | with_reducible apply servePageHook_frame
    | with_reducible apply State.regWrite_frame
    | with_reducible refine FrameOut.next ?_

theorem execServeRingEnable_frame {m : Nat} {s0 s : State} {a1 a2 a3 a4 : _} (hm : 8392206 ||| m = m) (h : Frame m s0 (s.at a1)) : FrameOut m s0 (execServeRingEnable a1 a2 a3 a4 s) := by
  unfold execServeRingEnable
  repeat' first
    | with_reducible assumption
    | ((try lift_lets -underBinder); intro x; clear_value (e : x = _); first | refine (fun hx : Frame m s0 x => ?_) (Frame.ofEq e ?_) | skip)
    | exact mask_sub rfl hm
    | intro x
    | with_reducible apply servePageHook_frame
    | with_reducible apply State.regWrite_frame
    | with_reducible refine FrameOut.next ?_
    | with_reducible exact FrameOut.fault
    | with_reducible refine FrameOut.ite ?_ ?_

theorem execProd_frame {m : Nat} {s0 s : State} {a1 a2 a3 : _} (hm : 8389382 ||| m = m) (h : Frame m s0 (s.at a1)) : FrameOut m s0 (execProd a1 a2 a3 s) := by
  unfold execProd
  repeat' first
    | with_reducible assumption
    | ((try lift_lets -underBinder); intro x; clear_value (e : x = _); refine (fun hx : Frame m s0 x => ?_) (Frame.ofEq e ?_))
    | exact mask_sub rfl hm
    | with_reducible apply State.takeProd_frame
    | with_reducible apply State.storeBytes_frame
    | with_reducible apply Frame.ite
    | with_reducible refine FrameOut.next ?_
    | with_reducible exact FrameOut.fault
    | with_reducible refine FrameOut.ite ?_ ?_
    | split

theorem execAdmission_frame {m : Nat} {s0 s : State} {a1 a2 : _} (hm : 42045198 ||| m = m) (h : Frame m s0 (s.at a1)) : FrameOut m s0 (execAdmission a1 a2 s) := by
  unfold execAdmission
  repeat' first
    | with_reducible assumption
    | ((try lift_lets -underBinder); intro x; clear_value (e : x = _); first | refine (fun hx : Frame m s0 x => ?_) (Frame.ofEq e ?_) | skip)
    | with_reducible apply State.admitNext_frame
    | with_reducible apply Frame.ite
    | with_reducible refine FrameOut.next ?_
    | with_reducible exact FrameOut.fault
    | with_reducible refine FrameOut.ite ?_ ?_
    | split

theorem execRequestDeadline_frame {m : Nat} {s0 s : State} {a1 a2 : _} (hm : 9641806 ||| m = m) (h : Frame m s0 (s.at a1)) : FrameOut m s0 (execRequestDeadline a1 a2 s) := by
  unfold execRequestDeadline
  repeat' first
    | with_reducible assumption
    | ((try lift_lets -underBinder); intro x; clear_value (e : x = _); refine (fun hx : Frame m s0 x => ?_) (Frame.ofEq e ?_))
    | with_reducible apply State.abandon_frame
    | with_reducible apply Frame.ite
    | with_reducible refine FrameOut.next ?_
    | split

theorem execTxSlotFree_frame {m : Nat} {s0 s : State} {a1 a2 a3 : _} (hm : 8455950 ||| m = m) (h : Frame m s0 (s.at a1)) : FrameOut m s0 (execTxSlotFree a1 a2 a3 s) := by
  unfold execTxSlotFree
  repeat' first
    | with_reducible assumption
    | ((try lift_lets -underBinder); intro x; clear_value (e : x = _); first | refine (fun hx : Frame m s0 x => ?_) (Frame.ofEq e ?_) | skip)
    | exact mask_sub rfl hm
    | with_reducible apply State.setServeRing_frame
    | with_reducible apply State.serveSettle_frame
    | with_reducible apply Frame.ite
    | with_reducible refine FrameOut.next ?_
    | with_reducible exact FrameOut.fault
    | with_reducible refine FrameOut.ite ?_ ?_

theorem execSvcRegister_frame {m : Nat} {s0 s : State} {a1 a2 a3 a4 a5 a6 a7 : _} (hm : 8389638 ||| m = m) (h : Frame m s0 (s.at a1)) : FrameOut m s0 (execSvcRegister a1 a2 a3 a4 a5 a6 a7 s) := by
  unfold execSvcRegister
  repeat' first
    | with_reducible assumption
    | ((try lift_lets -underBinder); intro x; clear_value (e : x = _); skip)
    | exact mask_sub rfl hm
    | intro x
    | with_reducible apply State.regWrite_frame
    | with_reducible apply svcHook_frame
    | with_reducible refine FrameOut.next ?_

theorem execSvcUnregister_frame {m : Nat} {s0 s : State} {a1 a2 a3 : _} (hm : 8389638 ||| m = m) (h : Frame m s0 (s.at a1)) : FrameOut m s0 (execSvcUnregister a1 a2 a3 s) := by
  unfold execSvcUnregister
  repeat' first
    | with_reducible assumption
    | ((try lift_lets -underBinder); intro x; clear_value (e : x = _); refine (fun hx : Frame m s0 x => ?_) (Frame.ofEq e ?_))
    | exact mask_sub rfl hm
    | intro x
    | with_reducible apply State.regWrite_frame
    | with_reducible apply svcHook_frame
    | with_reducible refine FrameOut.next ?_

theorem execSvcUnregisterDone_frame {m : Nat} {s0 s : State} {a1 : _} (hm : 8388610 ||| m = m) (h : Frame m s0 (s.at a1)) : FrameOut m s0 (execSvcUnregisterDone a1 s) := by
  unfold execSvcUnregisterDone
  repeat' first
    | with_reducible assumption
    | ((try lift_lets -underBinder); intro x; clear_value (e : x = _); refine (fun hx : Frame m s0 x => ?_) (Frame.ofEq e ?_))
    | exact mask_sub rfl hm
    | with_reducible apply State.modServe_frame
    | with_reducible apply State.svcResult_frame
    | with_reducible apply Frame.ite
    | with_reducible refine FrameOut.next ?_
    | split

theorem execSvcRead_frame {m : Nat} {s0 s : State} {a1 a2 a3 : _} (hm : 8389638 ||| m = m) (h : Frame m s0 (s.at a1)) : FrameOut m s0 (execSvcRead a1 a2 a3 s) := by
  unfold execSvcRead
  repeat' first
    | with_reducible assumption
    | ((try lift_lets -underBinder); intro x; clear_value (e : x = _); refine (fun hx : Frame m s0 x => ?_) (Frame.ofEq e ?_))
    | exact mask_sub rfl hm
    | intro x
    | with_reducible apply State.regWrite_frame
    | with_reducible apply svcHook_frame
    | with_reducible refine FrameOut.next ?_

/-! Machine/RolarCmds.lean. -/

theorem State.mgmt_frame {m : Nat} {s0 s : State} {d} {f : State → State} (hf : ∀ s, Frame m s0 s → Frame m s0 (f s)) (hm : 16777216 ||| m = m) (h : Frame m s0 s) : Frame m s0 (State.mgmt s d f) := by
  unfold State.mgmt
  repeat' with_reducible first
    | assumption
    | apply hf
    | apply State.modRolar_frame
    | exact hm
    | apply Frame.ite

theorem State.mgmtRun_frame {m : Nat} {s0 s : State}  {f : State → State} (hf : ∀ s, Frame m s0 s → Frame m s0 (f s)) (_hm : 0 ||| m = m) (h : Frame m s0 s) : Frame m s0 (State.mgmtRun s  f) := by
  unfold State.mgmtRun
  repeat' with_reducible first
    | assumption
    | apply hf
    | apply Frame.ite

theorem bootGoHook_frame {m : Nat} {s0 s : State} {a1 a2 a3 a4 a5 : _} (hm : 16777222 ||| m = m) (h : Frame m s0 s) : Frame m s0 (bootGoHook a1 a2 a3 a4 a5 s) := by
  unfold bootGoHook
  repeat' with_reducible first
    | assumption
    | apply State.deliveredBoot_frame
    | apply Frame.ite

theorem rollbackHook_frame {m : Nat} {s0 s : State} {a1 a2 a3 a4 : _} (hm : 16777218 ||| m = m) (h : Frame m s0 s) : Frame m s0 (rollbackHook a1 a2 a3 a4 s) := by
  unfold rollbackHook
  repeat' with_reducible first
    | assumption
    | apply State.commitFuses_frame
    | apply Frame.ite

theorem lockCtrlHook_frame {m : Nat} {s0 s : State} {a1 a2 a3 a4 : _} (hm : 2 ||| m = m) (h : Frame m s0 s) : Frame m s0 (lockCtrlHook a1 a2 a3 a4 s) := by
  unfold lockCtrlHook
  repeat' with_reducible first
    | assumption
    | apply State.lockdown_frame
    | apply Frame.ite

theorem keyCmdHook_frame {m : Nat} {s0 s : State} {a1 a2 a3 a4 a5 : _} (hm : 16777222 ||| m = m) (h : Frame m s0 s) : Frame m s0 (keyCmdHook a1 a2 a3 a4 a5 s) := by
  unfold keyCmdHook
  repeat' first
    | with_reducible assumption
    | exact mask_sub rfl hm
    | with_reducible apply State.keyRevoke_frame
    | with_reducible apply State.keyLoad_frame
    | with_reducible apply State.keyRead_frame
    | with_reducible apply State.keyResult_frame
    | split

theorem rolarHook_frame {m : Nat} {s0 s : State} {a1 a2 a3 a4 a5 a6 : _} (hm : 16777222 ||| m = m) (h : Frame m s0 s) : Frame m s0 (rolarHook a1 a2 a3 a4 a5 a6 s) := by
  unfold rolarHook
  repeat' first
    | with_reducible assumption
    | exact mask_sub rfl hm
    | with_reducible apply bootGoHook_frame
    | with_reducible apply lockCtrlHook_frame
    | with_reducible apply keyCmdHook_frame
    | with_reducible apply noHook_frame
    | with_reducible apply rollbackHook_frame
    | split

theorem execRuntimeBoot_frame {m : Nat} {s0 s : State} {a1 : _} (hm : 16809990 ||| m = m) (h : Frame m s0 (s.at a1)) : FrameOut m s0 (execRuntimeBoot a1 s) := by
  unfold execRuntimeBoot
  repeat' first
    | with_reducible assumption
    | exact mask_sub rfl hm
    | intro x
    | with_reducible apply State.runtimeBoot_frame
    | with_reducible apply State.whileUp_frame
    | with_reducible refine FrameOut.next ?_

theorem execBootGo_frame {m : Nat} {s0 s : State} {a1 a2 a3 : _} (hm : 16778246 ||| m = m) (h : Frame m s0 (s.at a1)) : FrameOut m s0 (execBootGo a1 a2 a3 s) := by
  unfold execBootGo
  repeat' first
    | with_reducible assumption
    | ((try lift_lets -underBinder); intro x; clear_value (e : x = _); refine (fun hx : Frame m s0 x => ?_) (Frame.ofEq e ?_))
    | exact mask_sub rfl hm
    | intro x
    | with_reducible apply bootGoHook_frame
    | with_reducible apply State.regWrite_frame
    | with_reducible refine FrameOut.next ?_

theorem execRollbackCommit_frame {m : Nat} {s0 s : State} {a1 a2 : _} (hm : 16778246 ||| m = m) (h : Frame m s0 (s.at a1)) : FrameOut m s0 (execRollbackCommit a1 a2 s) := by
  unfold execRollbackCommit
  repeat' first
    | with_reducible assumption
    | exact mask_sub rfl hm
    | intro x
    | with_reducible apply State.regWrite_frame
    | with_reducible apply rollbackHook_frame
    | with_reducible refine FrameOut.next ?_

theorem execFuseBlowDone_frame {m : Nat} {s0 s : State} {a1 a2 : _} (hm : 16777222 ||| m = m) (h : Frame m s0 (s.at a1)) : FrameOut m s0 (execFuseBlowDone a1 a2 s) := by
  unfold execFuseBlowDone
  repeat' with_reducible first
    | assumption
    | apply State.fuseDone_frame
    | refine FrameOut.next ?_

theorem execLockdown_frame {m : Nat} {s0 s : State} {a1 a2 : _} (hm : 1030 ||| m = m) (h : Frame m s0 (s.at a1)) : FrameOut m s0 (execLockdown a1 a2 s) := by
  unfold execLockdown
  repeat' first
    | with_reducible assumption
    | ((try lift_lets -underBinder); intro x; clear_value (e : x = _); refine (fun hx : Frame m s0 x => ?_) (Frame.ofEq e ?_))
    | exact mask_sub rfl hm
    | intro x
    | with_reducible apply lockCtrlHook_frame
    | with_reducible apply State.regWrite_frame
    | with_reducible refine FrameOut.next ?_

theorem execLockDeadline_frame {m : Nat} {s0 s : State} {a1 : _} (hm : 2 ||| m = m) (h : Frame m s0 (s.at a1)) : FrameOut m s0 (execLockDeadline a1 s) := by
  unfold execLockDeadline
  repeat' first
    | with_reducible assumption
    | ((try lift_lets -underBinder); intro x; clear_value (e : x = _); first | refine (fun hx : Frame m s0 x => ?_) (Frame.ofEq e ?_) | skip)
    | with_reducible apply State.lockdown_frame
    | with_reducible apply Frame.ite
    | with_reducible refine FrameOut.next ?_

theorem execKeyLoad_frame {m : Nat} {s0 s : State} {a1 a2 a3 a4 a5 : _} (hm : 16778246 ||| m = m) (h : Frame m s0 (s.at a1)) : FrameOut m s0 (execKeyLoad a1 a2 a3 a4 a5 s) := by
  unfold execKeyLoad
  repeat' first
    | with_reducible assumption
    | exact mask_sub rfl hm
    | intro x
    | with_reducible apply keyCmdHook_frame
    | with_reducible apply State.regWrite_frame
    | with_reducible refine FrameOut.next ?_

theorem execKeyRevoke_frame {m : Nat} {s0 s : State} {a1 a2 a3 : _} (hm : 16778246 ||| m = m) (h : Frame m s0 (s.at a1)) : FrameOut m s0 (execKeyRevoke a1 a2 a3 s) := by
  unfold execKeyRevoke
  repeat' first
    | with_reducible assumption
    | ((try lift_lets -underBinder); intro x; clear_value (e : x = _); refine (fun hx : Frame m s0 x => ?_) (Frame.ofEq e ?_))
    | exact mask_sub rfl hm
    | intro x
    | with_reducible apply keyCmdHook_frame
    | with_reducible apply State.regWrite_frame
    | with_reducible refine FrameOut.next ?_

theorem execKeyRead_frame {m : Nat} {s0 s : State} {a1 a2 a3 : _} (hm : 16778246 ||| m = m) (h : Frame m s0 (s.at a1)) : FrameOut m s0 (execKeyRead a1 a2 a3 s) := by
  unfold execKeyRead
  repeat' first
    | with_reducible assumption
    | ((try lift_lets -underBinder); intro x; clear_value (e : x = _); refine (fun hx : Frame m s0 x => ?_) (Frame.ofEq e ?_))
    | exact mask_sub rfl hm
    | intro x
    | with_reducible apply keyCmdHook_frame
    | with_reducible apply State.regWrite_frame
    | with_reducible refine FrameOut.next ?_

theorem execGetVersion_frame {m : Nat} {s0 s : State} {a1 a2 : _} (hm : 16777216 ||| m = m) (h : Frame m s0 (s.at a1)) : FrameOut m s0 (execGetVersion a1 a2 s) := by
  unfold execGetVersion
  repeat' first
    | with_reducible assumption
    | exact mask_sub rfl hm
    | intro x
    | with_reducible apply State.mgmt_frame
    | with_reducible apply State.answerMgmt_frame
    | with_reducible apply State.setSpdmStep_frame
    | with_reducible refine FrameOut.next ?_

theorem execGetCapabilities_frame {m : Nat} {s0 s : State} {a1 a2 : _} (hm : 16777216 ||| m = m) (h : Frame m s0 (s.at a1)) : FrameOut m s0 (execGetCapabilities a1 a2 s) := by
  unfold execGetCapabilities
  repeat' first
    | with_reducible assumption
    | exact mask_sub rfl hm
    | intro x
    | with_reducible apply State.spdmAfter_frame
    | with_reducible apply State.mgmt_frame
    | with_reducible apply State.answerMgmt_frame
    | with_reducible apply State.setSpdmStep_frame
    | with_reducible refine FrameOut.next ?_

theorem execNegotiateAlgorithms_frame {m : Nat} {s0 s : State} {a1 a2 a3 : _} (hm : 16777216 ||| m = m) (h : Frame m s0 (s.at a1)) : FrameOut m s0 (execNegotiateAlgorithms a1 a2 a3 s) := by
  unfold execNegotiateAlgorithms
  repeat' first
    | with_reducible assumption
    | exact mask_sub rfl hm
    | intro x
    | with_reducible apply State.spdmAfter_frame
    | with_reducible apply State.spdmError_frame
    | with_reducible apply State.mgmt_frame
    | with_reducible apply State.answerMgmt_frame
    | with_reducible apply State.setSpdmStep_frame
    | with_reducible apply Frame.ite
    | with_reducible refine FrameOut.next ?_

theorem execGetDigests_frame {m : Nat} {s0 s : State} {a1 a2 : _} (hm : 16777216 ||| m = m) (h : Frame m s0 (s.at a1)) : FrameOut m s0 (execGetDigests a1 a2 s) := by
  unfold execGetDigests
  repeat' first
    | with_reducible assumption
    | exact mask_sub rfl hm
    | intro x
    | with_reducible apply State.spdmAfter_frame
    | with_reducible apply State.mgmt_frame
    | with_reducible apply State.answerMgmt_frame
    | with_reducible refine FrameOut.next ?_

theorem execGetCertificate_frame {m : Nat} {s0 s : State} {a1 a2 a3 a4 a5 : _} (hm : 16777216 ||| m = m) (h : Frame m s0 (s.at a1)) : FrameOut m s0 (execGetCertificate a1 a2 a3 a4 a5 s) := by
  unfold execGetCertificate
  repeat' first
    | with_reducible assumption
    | exact mask_sub rfl hm
    | intro x
    | with_reducible apply State.spdmAfter_frame
    | with_reducible apply State.spdmError_frame
    | with_reducible apply State.mgmt_frame
    | with_reducible apply State.answerMgmt_frame
    | with_reducible apply Frame.ite
    | with_reducible refine FrameOut.next ?_

theorem execChallenge_frame {m : Nat} {s0 s : State} {a1 a2 a3 a4 : _} (hm : 16777216 ||| m = m) (h : Frame m s0 (s.at a1)) : FrameOut m s0 (execChallenge a1 a2 a3 a4 s) := by
  unfold execChallenge
  repeat' first
    | with_reducible assumption
    | exact mask_sub rfl hm
    | intro x
    | with_reducible apply State.spdmAfter_frame
    | with_reducible apply State.spdmError_frame
    | with_reducible apply State.mgmt_frame
    | with_reducible apply State.answerMgmt_frame
    | with_reducible apply Frame.ite
    | with_reducible refine FrameOut.next ?_

theorem execGetMeasurements_frame {m : Nat} {s0 s : State} {a1 a2 a3 a4 a5 : _} (hm : 16777216 ||| m = m) (h : Frame m s0 (s.at a1)) : FrameOut m s0 (execGetMeasurements a1 a2 a3 a4 a5 s) := by
  unfold execGetMeasurements
  repeat' first
    | with_reducible assumption
    | exact mask_sub rfl hm
    | intro x
    | with_reducible apply State.spdmAfter_frame
    | with_reducible apply State.mgmt_frame
    | with_reducible apply State.measure_frame
    | with_reducible refine FrameOut.next ?_

theorem execKeyExchange_frame {m : Nat} {s0 s : State} {a1 a2 a3 a4 : _} (hm : 16777216 ||| m = m) (h : Frame m s0 (s.at a1)) : FrameOut m s0 (execKeyExchange a1 a2 a3 a4 s) := by
  unfold execKeyExchange
  repeat' first
    | with_reducible assumption
    | ((try lift_lets -underBinder); intro x; clear_value (e : x = _); refine (fun hx : Frame m s0 x.2 => ?_) (Frame.ofEq2 e ?_))
    | exact mask_sub rfl hm
    | intro x
    | with_reducible apply State.spdmAfter_frame
    | with_reducible apply State.modRolar_frame
    | with_reducible apply State.spdmError_frame
    | with_reducible apply State.mgmt_frame
    | with_reducible apply State.answerMgmt_frame
    | with_reducible apply State.openBytes_frame
    | with_reducible apply Frame.ite
    | with_reducible refine FrameOut.next ?_

theorem execFinish_frame {m : Nat} {s0 s : State} {a1 a2 a3 a4 : _} (hm : 16777222 ||| m = m) (h : Frame m s0 (s.at a1)) : FrameOut m s0 (execFinish a1 a2 a3 a4 s) := by
  unfold execFinish
  repeat' first
    | with_reducible assumption
    | exact mask_sub rfl hm
    | intro x
    | with_reducible apply State.spdmFinish_frame
    | with_reducible apply State.mgmt_frame
    | with_reducible refine FrameOut.next ?_

theorem execHeartbeat_frame {m : Nat} {s0 s : State} {a1 a2 a3 : _} (hm : 16777216 ||| m = m) (h : Frame m s0 (s.at a1)) : FrameOut m s0 (execHeartbeat a1 a2 a3 s) := by
  unfold execHeartbeat
  repeat' first
    | with_reducible assumption
    | exact mask_sub rfl hm
    | intro x
    | with_reducible apply State.mgmt_frame
    | with_reducible apply State.answerMgmt_frame
    | with_reducible apply State.inSession_frame
    | with_reducible refine FrameOut.next ?_

theorem execKeyUpdate_frame {m : Nat} {s0 s : State} {a1 a2 a3 : _} (hm : 16777216 ||| m = m) (h : Frame m s0 (s.at a1)) : FrameOut m s0 (execKeyUpdate a1 a2 a3 s) := by
  unfold execKeyUpdate
  repeat' first
    | with_reducible assumption
    | exact mask_sub rfl hm
    | intro x
    | with_reducible apply State.modRolar_frame
    | with_reducible apply State.mgmt_frame
    | with_reducible apply State.answerMgmt_frame
    | with_reducible apply State.inSession_frame
    | with_reducible refine FrameOut.next ?_

theorem execEndSession_frame {m : Nat} {s0 s : State} {a1 a2 a3 : _} (hm : 16777216 ||| m = m) (h : Frame m s0 (s.at a1)) : FrameOut m s0 (execEndSession a1 a2 a3 s) := by
  unfold execEndSession
  repeat' first
    | with_reducible assumption
    | exact mask_sub rfl hm
    | intro x
    | with_reducible apply State.mgmt_frame
    | with_reducible apply State.answerMgmt_frame
    | with_reducible apply State.dropSession_frame
    | with_reducible apply State.inSession_frame
    | with_reducible refine FrameOut.next ?_

theorem execSpdmUnsupported_frame {m : Nat} {s0 s : State} {a1 a2 : _} (hm : 16777216 ||| m = m) (h : Frame m s0 (s.at a1)) : FrameOut m s0 (execSpdmUnsupported a1 a2 s) := by
  unfold execSpdmUnsupported
  repeat' first
    | with_reducible assumption
    | exact mask_sub rfl hm
    | intro x
    | with_reducible apply State.spdmError_frame
    | with_reducible apply State.mgmt_frame
    | with_reducible refine FrameOut.next ?_

theorem execSetEndpointId_frame {m : Nat} {s0 s : State} {a1 a2 : _} (hm : 16777216 ||| m = m) (h : Frame m s0 (s.at a1)) : FrameOut m s0 (execSetEndpointId a1 a2 s) := by
  unfold execSetEndpointId
  repeat' first
    | with_reducible assumption
    | exact mask_sub rfl hm
    | intro x
    | with_reducible apply State.modRolar_frame
    | with_reducible apply State.mgmt_frame
    | with_reducible apply State.answerMgmt_frame
    | with_reducible apply Frame.ite
    | with_reducible refine FrameOut.next ?_

theorem execGetEndpointId_frame {m : Nat} {s0 s : State} {a1 : _} (hm : 16777216 ||| m = m) (h : Frame m s0 (s.at a1)) : FrameOut m s0 (execGetEndpointId a1 s) := by
  unfold execGetEndpointId
  repeat' first
    | with_reducible assumption
    | exact mask_sub rfl hm
    | intro x
    | with_reducible apply State.mgmt_frame
    | with_reducible apply State.answerMgmt_frame
    | with_reducible refine FrameOut.next ?_

theorem execGetMctpVersionSupport_frame {m : Nat} {s0 s : State} {a1 a2 : _} (hm : 16777216 ||| m = m) (h : Frame m s0 (s.at a1)) : FrameOut m s0 (execGetMctpVersionSupport a1 a2 s) := by
  unfold execGetMctpVersionSupport
  repeat' first
    | with_reducible assumption
    | ((try lift_lets -underBinder); intro x; clear_value (e : x = _); refine (fun hx : Frame m s0 x.2 => ?_) (Frame.ofEq2 e ?_))
    | exact mask_sub rfl hm
    | intro x
    | with_reducible apply State.mgmt_frame
    | with_reducible apply State.answerMgmt_frame
    | with_reducible apply State.openBytes_frame
    | with_reducible apply Frame.ite
    | with_reducible refine FrameOut.next ?_

theorem execGetMessageTypeSupport_frame {m : Nat} {s0 s : State} {a1 : _} (hm : 16777216 ||| m = m) (h : Frame m s0 (s.at a1)) : FrameOut m s0 (execGetMessageTypeSupport a1 s) := by
  unfold execGetMessageTypeSupport
  repeat' first
    | with_reducible assumption
    | exact mask_sub rfl hm
    | intro x
    | with_reducible apply State.mgmt_frame
    | with_reducible apply State.answerMgmt_frame
    | with_reducible refine FrameOut.next ?_

theorem execPldmBase_frame {m : Nat} {s0 s : State} {a1 a2 a3 : _} (hm : 16777216 ||| m = m) (h : Frame m s0 (s.at a1)) : FrameOut m s0 (execPldmBase a1 a2 a3 s) := by
  unfold execPldmBase
  repeat' first
    | with_reducible assumption
    | ((try lift_lets -underBinder); intro x; clear_value (e : x = _); refine (fun hx : Frame m s0 x.2 => ?_) (Frame.ofEq2 e ?_))
    | exact mask_sub rfl hm
    | intro x
    | with_reducible apply State.modRolar_frame
    | with_reducible apply State.mgmt_frame
    | with_reducible apply State.answerMgmt_frame
    | with_reducible apply State.openBytes_frame
    | with_reducible refine FrameOut.next ?_
    | split

theorem execPldmSensorRead_frame {m : Nat} {s0 s : State} {a1 a2 : _} (hm : 16777216 ||| m = m) (h : Frame m s0 (s.at a1)) : FrameOut m s0 (execPldmSensorRead a1 a2 s) := by
  unfold execPldmSensorRead
  repeat' first
    | with_reducible assumption
    | exact mask_sub rfl hm
    | intro x
    | with_reducible apply State.answerMgmt_frame
    | with_reducible apply State.mgmtRun_frame
    | with_reducible refine FrameOut.next ?_
    | split

theorem execPollForPlatformEventMessage_frame {m : Nat} {s0 s : State} {a1 : _} (hm : 285212672 ||| m = m) (h : Frame m s0 (s.at a1)) : FrameOut m s0 (execPollForPlatformEventMessage a1 s) := by
  unfold execPollForPlatformEventMessage
  repeat' first
    | with_reducible assumption
    | exact mask_sub rfl hm
    | with_reducible exact Kept.rfl
    | exact Kept.mask (mask_sub rfl hm)
    | intro x
    | with_reducible apply State.answerMgmt_frame
    | with_reducible apply State.mgmtRun_frame
    | with_reducible refine FrameOut.next ?_
    | split
    | with_reducible refine Frame.lit rfl ?_ ?_ ?_ ?_ ?_ ?_ ?_ ?_ ?_ ?_ ?_ ?_ ?_ ?_ ?_ ?_ ?_ ?_ ?_ ?_ ?_ ?_ ?_ ?_ ?_ ?_ ?_ ?_

theorem execPldmFirmwareUpdate_frame {m : Nat} {s0 s : State} {a1 a2 a3 : _} (hm : 16777222 ||| m = m) (h : Frame m s0 (s.at a1)) : FrameOut m s0 (execPldmFirmwareUpdate a1 a2 a3 s) := by
  unfold execPldmFirmwareUpdate
  repeat' first
    | with_reducible assumption
    | ((try lift_lets -underBinder); intro x; clear_value (e : x = _); first | refine (fun hx : Frame m s0 x => ?_) (Frame.ofEq e ?_) | skip)
    | exact mask_sub rfl hm
    | intro x
    | with_reducible apply State.modRolar_frame
    | with_reducible apply State.mgmt_frame
    | with_reducible apply State.answerMgmt_frame
    | with_reducible apply State.verifyFail_frame
    | with_reducible apply State.startRuntime_frame
    | with_reducible apply Frame.ite
    | with_reducible refine FrameOut.next ?_

theorem State.m1Sent_frame {m : Nat} {s0 s : State} (hm : 16777216 ||| m = m) (h : Frame m s0 s) : Frame m s0 (State.m1Sent s) := by
  unfold State.m1Sent
  exact State.modRolar_frame hm h

theorem execReadReg_frame {m : Nat} {s0 s : State} {a1 a2 a3 : _} (hm : 16777222 ||| m = m) (h : Frame m s0 (s.at a1)) : FrameOut m s0 (execReadReg a1 a2 a3 s) := by
  unfold execReadReg
  repeat' first
    | with_reducible assumption
    | ((try lift_lets -underBinder); intro x; clear_value (e : x = _); skip)
    | exact mask_sub rfl hm
    | intro x
    | with_reducible apply State.badWidth_frame
    | with_reducible apply State.m1Sent_frame
    | with_reducible apply State.readReg_frame
    | with_reducible apply State.mgmtRun_frame
    | with_reducible apply State.setPage_frame
    | with_reducible apply Frame.ite
    | with_reducible refine FrameOut.next ?_

theorem execArbLost_frame {m : Nat} {s0 s : State} {a1 : _} (hm : 16777218 ||| m = m) (h : Frame m s0 (s.at a1)) : FrameOut m s0 (execArbLost a1 s) := by
  unfold execArbLost
  repeat' first
    | with_reducible assumption
    | ((try lift_lets -underBinder); intro x; clear_value (e : x = _); refine (fun hx : Frame m s0 x => ?_) (Frame.ofEq e ?_))
    | exact mask_sub rfl hm
    | intro x
    | with_reducible apply State.modRolar_frame
    | with_reducible apply State.mgmt_frame
    | with_reducible apply State.count_frame
    | with_reducible apply Frame.ite
    | with_reducible refine FrameOut.next ?_

/-! Machine/FaultCmds.lean. -/

theorem State.putFrec_frame {m : Nat} {s0 s : State} {a2 : _} (hm : 2 ||| m = m) (h : Frame m s0 s) : Frame m s0 (State.putFrec s a2) := by
  unfold State.putFrec
  repeat' first
    | with_reducible assumption
    | intro x
    | with_reducible apply State.setFld_frame
    | with_reducible refine Frame.foldl ?_ ?_

theorem State.popFault_frame {m : Nat} {s0 s : State} (hm : 67108866 ||| m = m) (h : Frame m s0 s) : Frame m s0 (State.popFault s) := by
  unfold State.popFault
  repeat' first
    | with_reducible assumption
    | exact mask_sub rfl hm
    | with_reducible exact Kept.rfl
    | exact Kept.mask (mask_sub rfl hm)
    | with_reducible apply State.putFrec_frame
    | with_reducible apply State.setFld_frame
    | split
    | with_reducible refine Frame.lit rfl ?_ ?_ ?_ ?_ ?_ ?_ ?_ ?_ ?_ ?_ ?_ ?_ ?_ ?_ ?_ ?_ ?_ ?_ ?_ ?_ ?_ ?_ ?_ ?_ ?_ ?_ ?_ ?_

theorem faultCtrlHook_frame {m : Nat} {s0 s : State} {a1 a2 a3 a4 : _} (hm : 67108866 ||| m = m) (h : Frame m s0 s) : Frame m s0 (faultCtrlHook a1 a2 a3 a4 s) := by
  unfold faultCtrlHook
  repeat' first
    | with_reducible assumption
    | ((try lift_lets -underBinder); intro x; clear_value (e : x = _); refine (fun hx : Frame m s0 x => ?_) (Frame.ofEq e ?_))
    | exact mask_sub rfl hm
    | with_reducible apply State.popFault_frame
    | with_reducible apply State.setFld_frame
    | with_reducible apply Frame.ite

theorem State.injectFault_frame {m : Nat} {s0 s : State} {a2 a3 : _} (hm : 483630926 ||| m = m) (h : Frame m s0 s) : Frame m s0 (State.injectFault s a2 a3) := by
  unfold State.injectFault
  repeat' first
    | with_reducible assumption
    | ((try lift_lets -underBinder); intro x; clear_value (e : x = _); skip)
    | exact mask_sub rfl hm
    | intro x
    | with_reducible apply State.unitFault_frame
    | with_reducible apply State.tierOut_frame
    | with_reducible apply State.blockFault_frame
    | with_reducible apply State.linkDrop_frame
    | with_reducible apply State.nodeFatal_frame
    | with_reducible apply State.setPage_frame
    | with_reducible apply State.faultRecord_frame
    | with_reducible apply Frame.ite
    | with_reducible refine Frame.ofId ?_
    | split

theorem finjHook_frame {m : Nat} {s0 s : State} {a1 a2 a3 a4 : _} (hm : 483630926 ||| m = m) (h : Frame m s0 s) : Frame m s0 (finjHook a1 a2 a3 a4 s) := by
  unfold finjHook
  repeat' first
    | with_reducible assumption
    | exact mask_sub rfl hm
    | with_reducible apply State.raiseBy_frame
    | with_reducible apply State.injectFault_frame
    | with_reducible apply Frame.ite

theorem faultHook_frame {m : Nat} {s0 s : State} {a1 a2 a3 a4 a5 : _} (hm : 483630926 ||| m = m) (h : Frame m s0 s) : Frame m s0 (faultHook a1 a2 a3 a4 a5 s) := by
  unfold faultHook
  repeat' first
    | with_reducible assumption
    | exact mask_sub rfl hm
    | with_reducible apply faultCtrlHook_frame
    | with_reducible apply finjHook_frame
    | with_reducible apply noHook_frame
    | split

theorem execAutoWarm_frame {m : Nat} {s0 s : State} {a1 : _} (hm : 201326574 ||| m = m) (h : Frame m s0 (s.at a1)) : FrameOut m s0 (execAutoWarm a1 s) := by
  unfold execAutoWarm
  repeat' first
    | with_reducible assumption
    | ((try lift_lets -underBinder); intro x; clear_value (e : x = _); refine (fun hx : Frame m s0 x => ?_) (Frame.ofEq e ?_))
    | with_reducible apply State.warmReset_frame
    | with_reducible apply Frame.ite
    | with_reducible refine FrameOut.next ?_
    | split

theorem execFaultAck_frame {m : Nat} {s0 s : State} {a1 a2 : _} (hm : 67109894 ||| m = m) (h : Frame m s0 (s.at a1)) : FrameOut m s0 (execFaultAck a1 a2 s) := by
  unfold execFaultAck
  repeat' first
    | with_reducible assumption
    | exact mask_sub rfl hm
    | intro x
    | with_reducible apply faultCtrlHook_frame
    | with_reducible apply State.regWrite_frame
    | with_reducible refine FrameOut.next ?_

theorem execPop_frame {m : Nat} {s0 s : State} {a1 a2 : _} (hm : 67109894 ||| m = m) (h : Frame m s0 (s.at a1)) : FrameOut m s0 (execPop a1 a2 s) := by
  unfold execPop
  repeat' first
    | with_reducible assumption
    | exact mask_sub rfl hm
    | intro x
    | with_reducible apply faultCtrlHook_frame
    | with_reducible apply State.regWrite_frame
    | with_reducible refine FrameOut.next ?_

theorem execFinjFire_frame {m : Nat} {s0 s : State} {a1 a2 a3 a4 : _} (hm : 483630926 ||| m = m) (h : Frame m s0 (s.at a1)) : FrameOut m s0 (execFinjFire a1 a2 a3 a4 s) := by
  unfold execFinjFire
  repeat' first
    | with_reducible assumption
    | exact mask_sub rfl hm
    | intro x
    | with_reducible apply State.regWrite_frame
    | with_reducible apply finjHook_frame
    | with_reducible refine FrameOut.next ?_

/-! Machine/HookTable.lean. -/

theorem linkCfgHook_frame {m : Nat} {s0 s : State} {a1 a2 a3 a4 : _} (hm : 32768 ||| m = m) (h : Frame m s0 s) : Frame m s0 (linkCfgHook a1 a2 a3 a4 s) := by
  unfold linkCfgHook
  repeat' first
    | with_reducible assumption
    | ((try lift_lets -underBinder); intro x; clear_value (e : x = _); skip)
    | with_reducible apply State.setLink_frame
    | with_reducible apply Frame.ite

theorem queryDstHook_frame {m : Nat} {s0 s : State} {a1 a2 a3 a4 : _} (hm : 2 ||| m = m) (h : Frame m s0 s) : Frame m s0 (queryDstHook a1 a2 a3 a4 s) := by
  unfold queryDstHook
  repeat' first
    | with_reducible assumption
    | ((try lift_lets -underBinder); intro x; clear_value (e : x = _); skip)
    | with_reducible apply State.setFld_frame
    | split

theorem spillWmHook_frame {m : Nat} {s0 s : State} {a1 a2 a3 a4 : _} (hm : 14 ||| m = m) (h : Frame m s0 s) : Frame m s0 (spillWmHook a1 a2 a3 a4 s) := by
  unfold spillWmHook
  repeat' with_reducible first
    | assumption
    | apply State.spillNotices_frame

theorem tideHook_frame {m : Nat} {s0 s : State} {a1 a2 a3 a4 a5 : _} (hm : 12302 ||| m = m) (h : Frame m s0 s) : Frame m s0 (tideHook a1 a2 a3 a4 a5 s) := by
  unfold tideHook
  repeat' first
    | with_reducible assumption
    | exact mask_sub rfl hm
    | with_reducible apply srcCmdHook_frame
    | with_reducible apply epochTuHook_frame
    | with_reducible apply hostTideHook_frame
    | with_reducible apply tideCfgHook_frame
    | with_reducible apply lagWmHook_frame
    | with_reducible apply alarmSelHook_frame
    | with_reducible apply alarmCtrlHook_frame
    | with_reducible apply alarmTideHook_frame
    | with_reducible apply noHook_frame
    | split

theorem intakeHook_frame {m : Nat} {s0 s : State} {a1 a2 a3 a4 a5 : _} (hm : 262158 ||| m = m) (h : Frame m s0 s) : Frame m s0 (intakeHook a1 a2 a3 a4 a5 s) := by
  unfold intakeHook
  repeat' first
    | with_reducible assumption
    | exact mask_sub rfl hm
    | with_reducible apply noHook_frame
    | with_reducible apply dlogHeadHook_frame
    | with_reducible apply dlogConfigHook_frame
    | with_reducible apply dlogCtrlHook_frame
    | split

theorem blockHook_frame {m : Nat} {s0 s : State} {a1 a2 a3 a4 a5 a6 a7 : _} (hm : 536870894 ||| m = m) (h : Frame m s0 s) : Frame m s0 (blockHook a1 a2 a3 a4 a5 a6 a7 s) := by
  unfold blockHook
  repeat' first
    | with_reducible assumption
    | exact mask_sub rfl hm
    | with_reducible apply ringHook_frame
    | with_reducible apply leaveCfgHook_frame
    | with_reducible apply vatCfgHook_frame
    | with_reducible apply cellarCtrlHook_frame
    | with_reducible apply queryDstHook_frame
    | with_reducible apply rolarHook_frame
    | with_reducible apply tideHook_frame
    | with_reducible apply strainerHook_frame
    | with_reducible apply faultHook_frame
    | with_reducible apply spillWmHook_frame
    | with_reducible apply attachHook_frame
    | with_reducible apply dictCmdHook_frame
    | with_reducible apply servePageHook_frame
    | with_reducible apply cellarModeHook_frame
    | with_reducible apply biasHook_frame
    | with_reducible apply twinCfgHook_frame
    | with_reducible apply calCtrlHook_frame
    | with_reducible apply intakeHook_frame
    | with_reducible apply pdCtrlHook_frame
    | with_reducible apply storeCmdHook_frame
    | with_reducible apply noHook_frame
    | with_reducible apply regionHook_frame
    | with_reducible apply flowCmdHook_frame
    | with_reducible apply ctrCmdHook_frame
    | with_reducible apply linkCfgHook_frame
    | with_reducible apply herdCtrlHook_frame
    | with_reducible apply tblCmdHook_frame
    | with_reducible apply resetCtrlHook_frame
    | with_reducible apply coreOosHook_frame
    | with_reducible apply stateWmHook_frame
    | split

theorem hookOf_frame {m : Nat} {s0 s : State} {a1 a2 a3 a4 a5 a6 a7 : _} (hm : 536870894 ||| m = m) (h : Frame m s0 s) : Frame m s0 (hookOf a1 a2 a3 a4 a5 a6 a7 s) := by
  unfold hookOf
  repeat' first
    | with_reducible assumption
    | exact mask_sub rfl hm
    | with_reducible apply blockHook_frame
    | with_reducible apply headHook_frame
    | split

theorem State.writeReg_frame {m : Nat} {s0 s : State} {a2 a3 a4 a5 a6 : _} (hm : 536870894 ||| m = m) (h : Frame m s0 s) : Frame m s0 (State.writeReg s a2 a3 a4 a5 a6) := by
  unfold State.writeReg
  repeat' first
    | with_reducible assumption
    | exact mask_sub rfl hm
    | intro x
    | with_reducible apply hookOf_frame
    | with_reducible apply State.regWrite_frame

theorem State.writeBar0_frame {m : Nat} {s0 s : State} {a2 a3 a4 a5 : _} (hm : 536870894 ||| m = m) (h : Frame m s0 s) : Frame m s0 (State.writeBar0 s a2 a3 a4 a5) := by
  unfold State.writeBar0
  repeat' first
    | with_reducible assumption
    | ((try lift_lets -underBinder); intro x; clear_value (e : x = _); skip)
    | exact mask_sub rfl hm
    | intro x
    | with_reducible apply State.badWidth_frame
    | with_reducible apply State.writeReg_frame
    | with_reducible apply Frame.ite
    | with_reducible refine Frame.foldl ?_ ?_

theorem execRegWrite_frame {m : Nat} {s0 s : State} {a1 a2 a3 a4 a5 a6 : _} (hm : 536870894 ||| m = m) (h : Frame m s0 (s.at a1)) : FrameOut m s0 (execRegWrite a1 a2 a3 a4 a5 a6 s) := by
  unfold execRegWrite
  repeat' with_reducible first
    | assumption
    | apply State.writeBar0_frame
    | refine FrameOut.next ?_

theorem execWatermarkMarkWrite_frame {m : Nat} {s0 s : State} {a1 a2 a3 a4 a5 : _} (hm : 536870894 ||| m = m) (h : Frame m s0 (s.at a1)) : FrameOut m s0 (execWatermarkMarkWrite a1 a2 a3 a4 a5 s) := by
  unfold execWatermarkMarkWrite
  repeat' first
    | with_reducible assumption
    | ((try lift_lets -underBinder); intro x; clear_value (e : x = _); first | refine (fun hx : Frame m s0 x => ?_) (Frame.ofEq e ?_) | (have _f := fun a => x a; subst e))
    | with_reducible apply State.writeReg_frame
    | with_reducible refine FrameOut.next ?_
    | with_reducible exact FrameOut.fault
    | with_reducible refine FrameOut.ite ?_ ?_
    | split

theorem execWriteReg_frame {m : Nat} {s0 s : State} {a1 a2 a3 a4 : _} (hm : 536870894 ||| m = m) (h : Frame m s0 (s.at a1)) : FrameOut m s0 (execWriteReg a1 a2 a3 a4 s) := by
  unfold execWriteReg
  repeat' first
    | with_reducible assumption
    | exact mask_sub rfl hm
    | intro x
    | with_reducible apply State.badWidth_frame
    | with_reducible apply State.answerMgmt_frame
    | with_reducible apply State.mgmtRun_frame
    | with_reducible apply State.writeReg_frame
    | with_reducible apply Frame.ite
    | with_reducible refine FrameOut.next ?_

/-! Machine/FarOps.lean. -/

theorem State.bar4Deny_frame {m : Nat} {s0 s : State} {a2 a3 a4 : _} (hm : 6 ||| m = m) (h : Frame m s0 s) : Frame m s0 (State.bar4Deny s a2 a3 a4) := by
  unfold State.bar4Deny
  repeat' first
    | with_reducible assumption
    | exact mask_sub rfl hm
    | with_reducible apply State.accessDenied_frame
    | with_reducible apply State.emit_frame
    | with_reducible apply Frame.ite

theorem State.poisonRange_frame {m : Nat} {s0 s : State} {a2 a3 : _} (hm : 512 ||| m = m) (h : Frame m s0 s) : Frame m s0 (State.poisonRange s a2 a3) := by
  unfold State.poisonRange
  repeat' first
    | with_reducible assumption
    | ((try lift_lets -underBinder); intro x; clear_value (e : x = _); skip)
    | with_reducible apply State.modTiers_frame

theorem State.readOut_frame {m : Nat} {s0 s : State} {a2 a3 : _} (hm : 6 ||| m = m) (h : Frame m s0 s) : Frame m s0 (State.readOut s a2 a3).2.2 := by
  unfold State.readOut
  repeat' first
    | with_reducible assumption
    | intro x
    | with_reducible apply State.vatUe_frame
    | with_reducible refine Frame.elim ?_ ?_

theorem State.writeIn_frame {m : Nat} {s0 s : State} {a2 a3 a4 : _} (hm : 768 ||| m = m) (h : Frame m s0 s) : Frame m s0 (State.writeIn s a2 a3 a4) := by
  unfold State.writeIn
  repeat' first
    | with_reducible assumption
    | ((try lift_lets -underBinder); intro x; clear_value (e : x = _); refine (fun hx : Frame m s0 x => ?_) (Frame.ofEq e ?_))
    | exact mask_sub rfl hm
    | with_reducible apply State.poisonRange_frame
    | with_reducible apply State.storeBytes_frame
    | with_reducible apply Frame.ite

theorem State.serveBar4_frame {m : Nat} {s0 s : State} {a2 a3 a4 a5 : _} (hm : 8389382 ||| m = m) (h : Frame m s0 s) : Frame m s0 (State.serveBar4 s a2 a3 a4 a5) := by
  unfold State.serveBar4
  repeat' first
    | with_reducible assumption
    | ((try lift_lets -underBinder); intro x; clear_value (e : x = _); first | refine (fun hx : Frame m s0 x => ?_) (Frame.ofEq e ?_) | refine (fun hx : Frame m s0 x.2.2 => ?_) (Frame.ofEq22 e ?_))
    | exact mask_sub rfl hm
    | with_reducible apply State.readOut_frame
    | with_reducible apply State.writeIn_frame
    | with_reducible apply State.takeProd_frame
    | with_reducible apply State.emit_frame
    | split

theorem State.track_frame {m : Nat} {s0 s : State} {a2 : _} (hm : 1026 ||| m = m) (h : Frame m s0 s) : Frame m s0 (State.track s a2) := by
  unfold State.track
  repeat' first
    | with_reducible assumption
    | ((try lift_lets -underBinder); intro x; clear_value (e : x = _); refine (fun hx : Frame m s0 x => ?_) (Frame.ofEq e ?_))
    | exact mask_sub rfl hm
    | with_reducible apply State.snoopLine_frame
    | with_reducible apply State.count_frame
    | with_reducible apply State.modHost_frame
    | with_reducible apply Frame.ite
    | exact Eq.refl _
    | split

theorem State.serveHdm_frame {m : Nat} {s0 s : State} {a2 a3 a4 : _} (hm : 1798 ||| m = m) (h : Frame m s0 s) : Frame m s0 (State.serveHdm s a2 a3 a4) := by
  unfold State.serveHdm
  repeat' first
    | with_reducible assumption
    | ((try lift_lets -underBinder); intro x; clear_value (e : x = _); first | refine (fun hx : Frame m s0 x => ?_) (Frame.ofEq e ?_) | refine (fun hx : Frame m s0 x.2.2 => ?_) (Frame.ofEq22 e ?_) | skip)
    | exact mask_sub rfl hm
    | with_reducible apply State.readOut_frame
    | with_reducible apply State.writeIn_frame
    | with_reducible apply State.raiseOwn_frame
    | with_reducible apply State.track_frame
    | with_reducible apply State.count_frame
    | with_reducible apply State.emit_frame
    | with_reducible apply Frame.ite
    | split

theorem State.imageRead_frame {m : Nat} {s0 s : State} {a2 a3 a4 : _} (hm : 6 ||| m = m) (h : Frame m s0 s) : Frame m s0 (State.imageRead s a2 a3 a4).2 := by
  unfold State.imageRead
  repeat' first
    | with_reducible assumption
    | ((try lift_lets -underBinder); intro x; clear_value (e : x = _); first | refine (fun hx : Frame m s0 x.2 => ?_) (Frame.ofEq2 e ?_) | (have _f := fun a => x a; subst e) | skip)
    | intro x
    | with_reducible apply State.unmapped_frame
    | with_reducible apply State.badWidth_frame
    | with_reducible apply Frame.ite
    | with_reducible refine Frame.foldlSnd ?_ ?_
    | split

theorem State.farAnswer_frame {m : Nat} {s0 s : State} {a2 a3 a4 : _} (hm : 32770 ||| m = m) (h : Frame m s0 s) : Frame m s0 (State.farAnswer s a2 a3 a4).1 := by
  unfold State.farAnswer
  repeat' with_reducible first
    | assumption
    | apply State.answer_frame

theorem State.farServe_frame {m : Nat} {s0 s : State} {a2 a3 a4 : _} (hm : 536870894 ||| m = m) (h : Frame m s0 s) : Frame m s0 (State.farServe s a2 a3 a4).1 := by
  unfold State.farServe
  repeat' first
    | with_reducible assumption
    | ((try lift_lets -underBinder); intro x; clear_value (e : x = _); first | refine (fun hx : Frame m s0 x.2 => ?_) (Frame.ofEq2 e ?_) | refine (fun hx : Frame m s0 x.2.2 => ?_) (Frame.ofEq22 e ?_) | skip)
    | exact mask_sub rfl hm
    | with_reducible apply State.readOut_frame
    | with_reducible apply State.writeBar0_frame
    | with_reducible apply State.writeOut_frame
    | with_reducible apply State.farAnswer_frame
    | with_reducible apply State.imageRead_frame
    | with_reducible apply State.storeBytes_frame
    | split

theorem State.farArrive_frame {m : Nat} {s0 s : State} {a2 a3 a4 : _} (hm : 536870894 ||| m = m) (h : Frame m s0 s) : Frame m s0 (State.farArrive s a2 a3 a4) := by
  unfold State.farArrive
  repeat' first
    | with_reducible assumption
    | ((try lift_lets -underBinder); intro x; clear_value (e : x = _); skip)
    | exact mask_sub rfl hm
    | intro x
    | with_reducible apply State.snoopLine_frame
    | with_reducible apply State.onRequest_frame
    | with_reducible apply State.farServe_frame
    | with_reducible apply State.modHost_frame
    | with_reducible apply Frame.ite
    | exact Eq.refl _
    | with_reducible refine Frame.foldl ?_ ?_
    | split

theorem State.serveHeldOne_frame {m : Nat} {s0 s : State} {a2 : _} (hm : 536870894 ||| m = m) (h : Frame m s0 s) : Frame m s0 (State.serveHeldOne s a2) := by
  unfold State.serveHeldOne
  repeat' first
    | with_reducible assumption
    | ((try lift_lets -underBinder); intro x; clear_value (e : x = _); refine (fun hx : Frame m s0 x.1 => ?_) (Frame.ofEq1 e ?_))
    | exact mask_sub rfl hm
    | with_reducible apply State.marked_frame
    | with_reducible apply State.serveHdm_frame
    | with_reducible apply State.serveBar4_frame
    | with_reducible apply State.farServe_frame
    | split

theorem State.serveHeld_frame {m : Nat} {s0 s : State} (hm : 536870894 ||| m = m) (h : Frame m s0 s) : Frame m s0 (State.serveHeld s) := by
  unfold State.serveHeld
  repeat' first
    | with_reducible assumption
    | exact mask_sub rfl hm
    | intro x
    | with_reducible apply State.serveHeldOne_frame
    | with_reducible apply State.modHost_frame
    | with_reducible apply Frame.ite
    | exact Eq.refl _
    | with_reducible refine Frame.foldl ?_ ?_

theorem State.bar4_frame {m : Nat} {s0 s : State} {a2 a3 a4 a5 a6 a7 : _} (hm : 8390406 ||| m = m) (h : Frame m s0 s) : Frame m s0 (State.bar4 s a2 a3 a4 a5 a6 a7) := by
  unfold State.bar4
  repeat' first
    | with_reducible assumption
    | ((try lift_lets -underBinder); intro x; clear_value (e : x = _); skip)
    | exact mask_sub rfl hm
    | intro x
    | with_reducible apply State.snoopLine_frame
    | with_reducible apply State.serveBar4_frame
    | with_reducible apply State.bar4Deny_frame
    | with_reducible apply State.modHost_frame
    | with_reducible apply Frame.ite
    | exact Eq.refl _
    | with_reducible refine Frame.foldl ?_ ?_
    | split

theorem execRead_frame {m : Nat} {s0 s : State} {a1 a2 a3 : _} (hm : 536870894 ||| m = m) (h : Frame m s0 (s.at a1)) : FrameOut m s0 (execRead a1 a2 a3 s) := by
  unfold execRead
  repeat' with_reducible first
    | assumption
    | apply State.farArrive_frame
    | refine FrameOut.next ?_

theorem execWrite_frame {m : Nat} {s0 s : State} {a1 a2 a3 : _} (hm : 536870894 ||| m = m) (h : Frame m s0 (s.at a1)) : FrameOut m s0 (execWrite a1 a2 a3 s) := by
  unfold execWrite
  repeat' with_reducible first
    | assumption
    | apply State.farArrive_frame
    | refine FrameOut.next ?_

theorem execBulkWrite_frame {m : Nat} {s0 s : State} {a1 a2 a3 : _} (hm : 536870894 ||| m = m) (h : Frame m s0 (s.at a1)) : FrameOut m s0 (execBulkWrite a1 a2 a3 s) := by
  unfold execBulkWrite
  repeat' first
    | with_reducible assumption
    | ((try lift_lets -underBinder); intro x; clear_value (e : x = _); refine (fun hx : Frame m s0 x => ?_) (Frame.ofEq e ?_))
    | with_reducible apply State.farArrive_frame
    | with_reducible refine FrameOut.next ?_

theorem execBlockResetEnd_frame {m : Nat} {s0 s : State} {a1 a2 a3 a4 : _} (hm : 536870894 ||| m = m) (h : Frame m s0 (s.at a1)) : FrameOut m s0 (execBlockResetEnd a1 a2 a3 a4 s) := by
  unfold execBlockResetEnd
  repeat' first
    | with_reducible assumption
    | ((try lift_lets -underBinder); intro x; clear_value (e : x = _); first | refine (fun hx : Frame m s0 x => ?_) (Frame.ofEq e ?_) | skip)
    | exact mask_sub rfl hm
    | intro x
    | with_reducible apply State.readReg_frame
    | with_reducible apply State.placeAll_frame
    | with_reducible apply State.serveHeld_frame
    | with_reducible apply State.setPage_frame
    | with_reducible apply State.writeReg_frame
    | with_reducible apply Frame.ite
    | with_reducible refine Frame.foldl ?_ ?_
    | with_reducible refine FrameOut.next ?_
    | split

theorem execBlockResetTimeout_frame {m : Nat} {s0 s : State} {a1 a2 a3 : _} (hm : 536870894 ||| m = m) (h : Frame m s0 (s.at a1)) : FrameOut m s0 (execBlockResetTimeout a1 a2 a3 s) := by
  unfold execBlockResetTimeout
  repeat' first
    | with_reducible assumption
    | exact mask_sub rfl hm
    | with_reducible apply State.blockTimeout_frame
    | with_reducible apply State.serveHeld_frame
    | with_reducible refine FrameOut.next ?_

/-! Machine/HostCmds.lean. -/

theorem execBiasToDevice_frame {m : Nat} {s0 s : State} {a1 a2 a3 a4 a5 : _} (hm : 1030 ||| m = m) (h : Frame m s0 (s.at a1)) : FrameOut m s0 (execBiasToDevice a1 a2 a3 a4 a5 s) := by
  unfold execBiasToDevice
  repeat' first
    | with_reducible assumption
    | exact mask_sub rfl hm
    | intro x
    | with_reducible apply biasHook_frame
    | with_reducible apply State.regWrite_frame
    | with_reducible refine FrameOut.next ?_

theorem execBiasToHost_frame {m : Nat} {s0 s : State} {a1 a2 a3 a4 a5 : _} (hm : 1030 ||| m = m) (h : Frame m s0 (s.at a1)) : FrameOut m s0 (execBiasToHost a1 a2 a3 a4 a5 s) := by
  unfold execBiasToHost
  repeat' first
    | with_reducible assumption
    | exact mask_sub rfl hm
    | intro x
    | with_reducible apply biasHook_frame
    | with_reducible apply State.regWrite_frame
    | with_reducible refine FrameOut.next ?_

theorem execBiasQuery_frame {m : Nat} {s0 s : State} {a1 a2 a3 a4 : _} (hm : 1030 ||| m = m) (h : Frame m s0 (s.at a1)) : FrameOut m s0 (execBiasQuery a1 a2 a3 a4 s) := by
  unfold execBiasQuery
  repeat' first
    | with_reducible assumption
    | exact mask_sub rfl hm
    | intro x
    | with_reducible apply biasHook_frame
    | with_reducible apply State.regWrite_frame
    | with_reducible refine FrameOut.next ?_

theorem State.goOnFree_frame {m : Nat} {s0 s : State} {a2 : _} (hm : 374849358 ||| m = m) (h : Frame m s0 s) : Frame m s0 (State.goOnFree s a2) := by
  unfold State.goOnFree
  repeat' with_reducible first
    | assumption
    | apply State.goOn_frame
    | apply Frame.ite

theorem execBiasFlipDone_frame {m : Nat} {s0 s : State} {a1 : _} (hm : 536870894 ||| m = m) (h : Frame m s0 (s.at a1)) : FrameOut m s0 (execBiasFlipDone a1 s) := by
  unfold execBiasFlipDone
  repeat' first
    | with_reducible assumption
    | ((try lift_lets -underBinder); intro x; clear_value (e : x = _); first | refine (fun hx : Frame m s0 x => ?_) (Frame.ofEq e ?_) | skip)
    | exact mask_sub rfl hm
    | intro x
    | with_reducible apply State.modTiers_frame
    | with_reducible apply State.serveHeld_frame
    | with_reducible apply State.biasEnd_frame
    | with_reducible apply State.goOnFree_frame
    | with_reducible apply State.count_frame
    | with_reducible apply State.modHost_frame
    | with_reducible apply Frame.ite
    | exact Eq.refl _
    | with_reducible refine Frame.foldl ?_ ?_
    | with_reducible refine FrameOut.next ?_
    | split

theorem execHostHdmAccess_frame {m : Nat} {s0 s : State} {a1 a2 a3 a4 : _} (hm : 1798 ||| m = m) (h : Frame m s0 (s.at a1)) : FrameOut m s0 (execHostHdmAccess a1 a2 a3 a4 s) := by
  unfold execHostHdmAccess
  repeat' first
    | with_reducible assumption
    | ((try lift_lets -underBinder); intro x; clear_value (e : x = _); first | refine (fun hx : Frame m s0 x => ?_) (Frame.ofEq e ?_) | skip)
    | exact mask_sub rfl hm
    | with_reducible apply State.serveHdm_frame
    | with_reducible apply State.bar4Deny_frame
    | with_reducible apply State.modHost_frame
    | with_reducible apply Frame.ite
    | exact Eq.refl _
    | with_reducible refine FrameOut.next ?_
    | split

theorem execBar4Access_frame {m : Nat} {s0 s : State} {a1 a2 a3 a4 a5 a6 a7 : _} (hm : 8390406 ||| m = m) (h : Frame m s0 (s.at a1)) : FrameOut m s0 (execBar4Access a1 a2 a3 a4 a5 a6 a7 s) := by
  unfold execBar4Access
  repeat' first
    | with_reducible assumption
    | ((try lift_lets -underBinder); intro x; clear_value (e : x = _); refine (fun hx : Frame m s0 x => ?_) (Frame.ofEq e ?_))
    | with_reducible apply State.bar4_frame
    | with_reducible apply Frame.ite
    | with_reducible refine FrameOut.next ?_
    | with_reducible exact FrameOut.fault
    | with_reducible refine FrameOut.ite ?_ ?_

theorem execSyncWordRead_frame {m : Nat} {s0 s : State} {a1 a2 a3 a4 a5 : _} (hm : 8390406 ||| m = m) (h : Frame m s0 (s.at a1)) : FrameOut m s0 (execSyncWordRead a1 a2 a3 a4 a5 s) := by
  unfold execSyncWordRead
  repeat' first
    | with_reducible assumption
    | ((try lift_lets -underBinder); intro x; clear_value (e : x = _); refine (fun hx : Frame m s0 x => ?_) (Frame.ofEq e ?_))
    | with_reducible apply State.bar4_frame
    | with_reducible apply Frame.ite
    | with_reducible refine FrameOut.next ?_
    | with_reducible exact FrameOut.fault
    | with_reducible refine FrameOut.ite ?_ ?_

theorem execAtsInvalidation_frame {m : Nat} {s0 s : State} {a1 a2 a3 : _} (hm : 1026 ||| m = m) (h : Frame m s0 (s.at a1)) : FrameOut m s0 (execAtsInvalidation a1 a2 a3 s) := by
  unfold execAtsInvalidation
  repeat' first
    | with_reducible assumption
    | ((try lift_lets -underBinder); intro x; clear_value (e : x = _); refine (fun hx : Frame m s0 x => ?_) (Frame.ofEq e ?_))
    | exact mask_sub rfl hm
    | with_reducible apply State.count_frame
    | with_reducible apply State.modHost_frame
    | with_reducible apply Frame.ite
    | exact Eq.refl _
    | with_reducible refine FrameOut.next ?_
    | with_reducible exact FrameOut.fault
    | with_reducible refine FrameOut.ite ?_ ?_

theorem execAtsInvalidationComplete_frame {m : Nat} {s0 s : State} {a1 a2 a3 : _} (hm : 1024 ||| m = m) (h : Frame m s0 (s.at a1)) : FrameOut m s0 (execAtsInvalidationComplete a1 a2 a3 s) := by
  unfold execAtsInvalidationComplete
  repeat' first
    | with_reducible assumption
    | ((try lift_lets -underBinder); intro x; clear_value (e : x = _); first | refine (fun hx : Frame m s0 x => ?_) (Frame.ofEq e ?_) | skip)
    | exact mask_sub rfl hm
    | with_reducible apply State.modHost_frame
    | with_reducible apply State.emit_frame
    | with_reducible apply Frame.ite
    | exact Eq.refl _
    | with_reducible refine FrameOut.next ?_
    | with_reducible exact FrameOut.fault
    | with_reducible refine FrameOut.ite ?_ ?_

theorem State.hostFailed_frame {m : Nat} {s0 s : State} {a2 a3 : _} (hm : 339844942 ||| m = m) (h : Frame m s0 s) : Frame m s0 (State.hostFailed s a2 a3) := by
  unfold State.hostFailed
  repeat' first
    | with_reducible assumption
    | ((try lift_lets -underBinder); intro x; clear_value (e : x = _); first | refine (fun hx : Frame m s0 x => ?_) (Frame.ofEq e ?_) | skip)
    | exact mask_sub rfl hm
    | with_reducible apply State.readFailed_frame
    | with_reducible apply State.modHost_frame
    | exact Eq.refl _

theorem State.atsPump_frame {m : Nat} {s0 s : State} {a2 : _} (hm : 2 ||| m = m) (h : Frame m s0 s) : Frame m s0 (State.atsPump s a2) := by
  unfold State.atsPump
  repeat' first
    | with_reducible assumption
    | ((try lift_lets -underBinder); intro x; clear_value (e : x = _); skip)
    | exact mask_sub rfl hm
    | with_reducible apply State.emits_frame
    | with_reducible apply State.count_frame

theorem execAtsTranslationDone_frame {m : Nat} {s0 s : State} {a1 a2 a3 a4 : _} (hm : 339844942 ||| m = m) (h : Frame m s0 (s.at a1)) : FrameOut m s0 (execAtsTranslationDone a1 a2 a3 a4 s) := by
  unfold execAtsTranslationDone
  repeat' first
    | with_reducible assumption
    | ((try lift_lets -underBinder); intro x; clear_value (e : x = _); first | refine (fun hx : Frame m s0 x => ?_) (Frame.ofEq e ?_) | skip)
    | exact mask_sub rfl hm
    | with_reducible apply State.hostFailed_frame
    | with_reducible apply State.raiseOwn_frame
    | with_reducible apply State.atsPump_frame
    | with_reducible apply State.count_frame
    | with_reducible apply State.modHost_frame
    | with_reducible apply State.emit_frame
    | with_reducible apply Frame.ite
    | exact Eq.refl _
    | with_reducible refine FrameOut.next ?_
    | with_reducible exact FrameOut.fault
    | with_reducible refine FrameOut.ite ?_ ?_
    | split

theorem State.hcacheFill_frame {m : Nat} {s0 s : State} {a2 a3 : _} (hm : 1026 ||| m = m) (h : Frame m s0 s) : Frame m s0 (State.hcacheFill s a2 a3) := by
  unfold State.hcacheFill
  repeat' first
    | with_reducible assumption
    | ((try lift_lets -underBinder); intro x; clear_value (e : x = _); skip)
    | exact mask_sub rfl hm
    | with_reducible apply State.count_frame
    | with_reducible apply State.modHost_frame
    | with_reducible apply Frame.ite
    | exact Eq.refl _

theorem execHostReadComplete_frame {m : Nat} {s0 s : State} {a1 a2 a3 a4 : _} (hm : 374849358 ||| m = m) (h : Frame m s0 (s.at a1)) : FrameOut m s0 (execHostReadComplete a1 a2 a3 a4 s) := by
  unfold execHostReadComplete
  repeat' first
    | with_reducible assumption
    | ((try lift_lets -underBinder); intro x; clear_value (e : x = _); refine (fun hx : Frame m s0 x => ?_) (Frame.ofEq e ?_))
    | exact mask_sub rfl hm
    | with_reducible apply State.hostFailed_frame
    | with_reducible apply State.raiseOwn_frame
    | with_reducible apply State.goOn_frame
    | with_reducible apply State.stage_frame
    | with_reducible apply State.hcacheFill_frame
    | with_reducible apply State.count_frame
    | with_reducible apply State.modHost_frame
    | exact Eq.refl _
    | with_reducible refine FrameOut.next ?_
    | split

theorem execHostTimeout_frame {m : Nat} {s0 s : State} {a1 a2 : _} (hm : 339844942 ||| m = m) (h : Frame m s0 (s.at a1)) : FrameOut m s0 (execHostTimeout a1 a2 s) := by
  unfold execHostTimeout
  repeat' first
    | with_reducible assumption
    | ((try lift_lets -underBinder); intro x; clear_value (e : x = _); refine (fun hx : Frame m s0 x => ?_) (Frame.ofEq e ?_))
    | exact mask_sub rfl hm
    | with_reducible apply State.hostFailed_frame
    | with_reducible apply State.raiseOwn_frame
    | with_reducible refine FrameOut.next ?_
    | split

theorem execHostSnoop_frame {m : Nat} {s0 s : State} {a1 a2 a3 : _} (hm : 1026 ||| m = m) (h : Frame m s0 (s.at a1)) : FrameOut m s0 (execHostSnoop a1 a2 a3 s) := by
  unfold execHostSnoop
  repeat' first
    | with_reducible assumption
    | ((try lift_lets -underBinder); intro x; clear_value (e : x = _); first | refine (fun hx : Frame m s0 x => ?_) (Frame.ofEq e ?_) | skip)
    | exact mask_sub rfl hm
    | with_reducible apply State.count_frame
    | with_reducible apply State.modHost_frame
    | with_reducible apply State.emit_frame
    | with_reducible apply Frame.ite
    | exact Eq.refl _
    | with_reducible refine FrameOut.next ?_

theorem State.snoopEnded_frame {m : Nat} {s0 s : State} {a2 : _} (hm : 536870894 ||| m = m) (h : Frame m s0 s) : Frame m s0 (State.snoopEnded s a2) := by
  unfold State.snoopEnded
  repeat' first
    | with_reducible assumption
    | exact mask_sub rfl hm
    | intro x
    | with_reducible apply State.serveHeld_frame
    | with_reducible apply State.goOnFree_frame
    | with_reducible refine Frame.foldl ?_ ?_
    | split

theorem execBisnpResponse_frame {m : Nat} {s0 s : State} {a1 a2 a3 : _} (hm : 536870894 ||| m = m) (h : Frame m s0 (s.at a1)) : FrameOut m s0 (execBisnpResponse a1 a2 a3 s) := by
  unfold execBisnpResponse
  repeat' first
    | with_reducible assumption
    | ((try lift_lets -underBinder); intro x; clear_value (e : x = _); refine (fun hx : Frame m s0 x => ?_) (Frame.ofEq e ?_))
    | exact mask_sub rfl hm
    | intro x
    | with_reducible apply State.snoopEnded_frame
    | with_reducible apply State.modHost_frame
    | with_reducible apply State.storeBytes_frame
    | exact Eq.refl _
    | with_reducible refine Frame.elim ?_ ?_
    | with_reducible refine FrameOut.next ?_
    | split

theorem execBiTimeout_frame {m : Nat} {s0 s : State} {a1 a2 : _} (hm : 536870894 ||| m = m) (h : Frame m s0 (s.at a1)) : FrameOut m s0 (execBiTimeout a1 a2 s) := by
  unfold execBiTimeout
  repeat' first
    | with_reducible assumption
    | ((try lift_lets -underBinder); intro x; clear_value (e : x = _); refine (fun hx : Frame m s0 x => ?_) (Frame.ofEq e ?_))
    | exact mask_sub rfl hm
    | intro x
    | with_reducible apply State.raiseOwn_frame
    | with_reducible apply State.poisonRange_frame
    | with_reducible apply State.readFailed_frame
    | with_reducible apply State.serveHeld_frame
    | with_reducible apply State.modHost_frame
    | with_reducible apply Frame.ite
    | exact Eq.refl _
    | with_reducible refine Frame.foldl ?_ ?_
    | with_reducible refine FrameOut.next ?_
    | split

theorem execPort0LinkDown_frame {m : Nat} {s0 s : State} {a1 : _} (hm : 8391686 ||| m = m) (h : Frame m s0 (s.at a1)) : FrameOut m s0 (execPort0LinkDown a1 s) := by
  unfold execPort0LinkDown
  repeat' with_reducible first
    | assumption
    | apply State.port0Down_frame
    | refine FrameOut.next ?_

theorem execPort0LinkUp_frame {m : Nat} {s0 s : State} {a1 a2 a3 a4 a5 : _} (hm : 1024 ||| m = m) (h : Frame m s0 (s.at a1)) : FrameOut m s0 (execPort0LinkUp a1 a2 a3 a4 a5 s) := by
  unfold execPort0LinkUp
  repeat' with_reducible first
    | assumption
    | apply State.port0Up_frame
    | refine FrameOut.next ?_

theorem execPort1LinkDown_frame {m : Nat} {s0 s : State} {a1 : _} (hm : 13868910 ||| m = m) (h : Frame m s0 (s.at a1)) : FrameOut m s0 (execPort1LinkDown a1 s) := by
  unfold execPort1LinkDown
  repeat' with_reducible first
    | assumption
    | apply State.port1Down_frame
    | refine FrameOut.next ?_

theorem execPort1LinkUp_frame {m : Nat} {s0 s : State} {a1 a2 a3 : _} (hm : 1024 ||| m = m) (h : Frame m s0 (s.at a1)) : FrameOut m s0 (execPort1LinkUp a1 a2 a3 s) := by
  unfold execPort1LinkUp
  repeat' with_reducible first
    | assumption
    | apply State.port1Up_frame
    | refine FrameOut.next ?_

theorem State.fnChanged_frame {m : Nat} {s0 s : State} (hm : 106254 ||| m = m) (h : Frame m s0 s) : Frame m s0 (State.fnChanged s) := by
  unfold State.fnChanged
  repeat' first
    | with_reducible assumption
    | exact mask_sub rfl hm
    | intro x
    | with_reducible apply State.ringSettle_frame
    | with_reducible apply State.irqSettle_frame
    | with_reducible refine Frame.foldl ?_ ?_

theorem State.setVfs_frame {m : Nat} {s0 s : State} {a2 : _} (hm : 13868878 ||| m = m) (h : Frame m s0 s) : Frame m s0 (State.setVfs s a2) := by
  unfold State.setVfs
  repeat' first
    | with_reducible assumption
    | ((try lift_lets -underBinder); intro x; clear_value (e : x = _); skip)
    | exact mask_sub rfl hm
    | intro x
    | with_reducible apply State.fnGone_frame
    | with_reducible apply State.modHost_frame
    | exact Eq.refl _
    | with_reducible refine Frame.foldl ?_ ?_

theorem execConfigurationWrite_frame {m : Nat} {s0 s : State} {a1 a2 : _} (hm : 13868878 ||| m = m) (h : Frame m s0 (s.at a1)) : FrameOut m s0 (execConfigurationWrite a1 a2 s) := by
  unfold execConfigurationWrite
  repeat' first
    | with_reducible assumption
    | ((try lift_lets -underBinder); intro x; clear_value (e : x = _); first | refine (fun hx : Frame m s0 x => ?_) (Frame.ofEq e ?_) | skip)
    | exact mask_sub rfl hm
    | with_reducible apply State.setVfs_frame
    | with_reducible apply State.fnChanged_frame
    | with_reducible apply State.modHost_frame
    | with_reducible apply Frame.ite
    | exact Eq.refl _
    | with_reducible refine FrameOut.next ?_
    | with_reducible exact FrameOut.fault
    | with_reducible refine FrameOut.ite ?_ ?_

theorem execMsixTableWrite_frame {m : Nat} {s0 s : State} {a1 a2 a3 : _} (hm : 106254 ||| m = m) (h : Frame m s0 (s.at a1)) : FrameOut m s0 (execMsixTableWrite a1 a2 a3 s) := by
  unfold execMsixTableWrite
  repeat' first
    | with_reducible assumption
    | ((try lift_lets -underBinder); intro x; clear_value (e : x = _); first | refine (fun hx : Frame m s0 x => ?_) (Frame.ofEq e ?_) | skip)
    | exact mask_sub rfl hm
    | with_reducible apply State.fnChanged_frame
    | with_reducible apply State.modHost_frame
    | with_reducible apply Frame.ite
    | exact Eq.refl _
    | with_reducible refine FrameOut.next ?_
    | with_reducible exact FrameOut.fault
    | with_reducible refine FrameOut.ite ?_ ?_
    | split

theorem execHdmDecoderCommit_frame {m : Nat} {s0 s : State} {a1 a2 : _} (hm : 1024 ||| m = m) (h : Frame m s0 (s.at a1)) : FrameOut m s0 (execHdmDecoderCommit a1 a2 s) := by
  unfold execHdmDecoderCommit
  repeat' first
    | with_reducible assumption
    | ((try lift_lets -underBinder); intro x; clear_value (e : x = _); refine (fun hx : Frame m s0 x => ?_) (Frame.ofEq e ?_))
    | with_reducible apply State.modHost_frame
    | with_reducible apply Frame.ite
    | exact Eq.refl _
    | with_reducible refine FrameOut.next ?_

theorem execHostHeartbeat_frame {m : Nat} {s0 s : State} {a1 a2 a3 : _} (hm : 1030 ||| m = m) (h : Frame m s0 (s.at a1)) : FrameOut m s0 (execHostHeartbeat a1 a2 a3 s) := by
  unfold execHostHeartbeat
  repeat' first
    | with_reducible assumption
    | exact mask_sub rfl hm
    | intro x
    | with_reducible apply heartbeatHook_frame
    | with_reducible apply State.regWrite_frame
    | with_reducible refine FrameOut.next ?_

theorem execHbSpanExpire_frame {m : Nat} {s0 s : State} {a1 : _} (hm : 1024 ||| m = m) (h : Frame m s0 (s.at a1)) : FrameOut m s0 (execHbSpanExpire a1 s) := by
  unfold execHbSpanExpire
  repeat' with_reducible first
    | assumption
    | apply State.heartbeatExpire_frame
    | refine FrameOut.next ?_

theorem execHostLoss_frame {m : Nat} {s0 s : State} {a1 : _} (hm : 374849358 ||| m = m) (h : Frame m s0 (s.at a1)) : FrameOut m s0 (execHostLoss a1 s) := by
  unfold execHostLoss
  repeat' with_reducible first
    | assumption
    | apply State.declareLoss_frame
    | refine FrameOut.next ?_

theorem execClaim_frame {m : Nat} {s0 s : State} {a1 a2 : _} (hm : 106254 ||| m = m) (h : Frame m s0 (s.at a1)) : FrameOut m s0 (execClaim a1 a2 s) := by
  unfold execClaim
  repeat' first
    | with_reducible assumption
    | exact mask_sub rfl hm
    | intro x
    | with_reducible apply attachCtrlHook_frame
    | with_reducible apply State.regWrite_frame
    | with_reducible refine FrameOut.next ?_

theorem execDiscard_frame {m : Nat} {s0 s : State} {a1 a2 : _} (hm : 106254 ||| m = m) (h : Frame m s0 (s.at a1)) : FrameOut m s0 (execDiscard a1 a2 s) := by
  unfold execDiscard
  repeat' first
    | with_reducible assumption
    | exact mask_sub rfl hm
    | intro x
    | with_reducible apply attachCtrlHook_frame
    | with_reducible apply State.regWrite_frame
    | with_reducible refine FrameOut.next ?_

theorem execHostTierResume_frame {m : Nat} {s0 s : State} {a1 a2 : _} (hm : 106254 ||| m = m) (h : Frame m s0 (s.at a1)) : FrameOut m s0 (execHostTierResume a1 a2 s) := by
  unfold execHostTierResume
  repeat' first
    | with_reducible assumption
    | exact mask_sub rfl hm
    | intro x
    | with_reducible apply attachCtrlHook_frame
    | with_reducible apply State.regWrite_frame
    | with_reducible refine FrameOut.next ?_

/-! Machine/LinkCmds.lean. -/

theorem State.ctrlIn_frame {m : Nat} {s0 s : State} {a2 : _} (hm : 32770 ||| m = m) (h : Frame m s0 s) : Frame m s0 (State.ctrlIn s a2) := by
  unfold State.ctrlIn
  repeat' first
    | with_reducible assumption
    | ((try lift_lets -underBinder); intro x; clear_value (e : x = _); skip)
    | exact mask_sub rfl hm
    | with_reducible apply State.setLink_frame
    | with_reducible apply State.count_frame
    | with_reducible apply Frame.ite

theorem execLinkTrain_frame {m : Nat} {s0 s : State} {a1 a2 : _} (hm : 32768 ||| m = m) (h : Frame m s0 (s.at a1)) : FrameOut m s0 (execLinkTrain a1 a2 s) := by
  unfold execLinkTrain
  repeat' with_reducible first
    | assumption
    | apply State.linkTrain_frame
    | refine FrameOut.next ?_
    | exact FrameOut.fault
    | refine FrameOut.ite ?_ ?_

theorem execTrainingDone_frame {m : Nat} {s0 s : State} {a1 a2 a3 a4 a5 a6 : _} (hm : 339845006 ||| m = m) (h : Frame m s0 (s.at a1)) : FrameOut m s0 (execTrainingDone a1 a2 a3 a4 a5 a6 s) := by
  unfold execTrainingDone
  repeat' with_reducible first
    | assumption
    | apply State.trainingDone_frame
    | refine FrameOut.next ?_
    | exact FrameOut.fault
    | refine FrameOut.ite ?_ ?_

theorem execConfig_frame {m : Nat} {s0 s : State} {a1 a2 a3 : _} (hm : 341942030 ||| m = m) (h : Frame m s0 (s.at a1)) : FrameOut m s0 (execConfig a1 a2 a3 s) := by
  unfold execConfig
  repeat' first
    | with_reducible assumption
    | exact mask_sub rfl hm
    | with_reducible apply State.ctrlIn_frame
    | with_reducible apply State.configFlit_frame
    | with_reducible refine FrameOut.next ?_
    | with_reducible exact FrameOut.fault
    | with_reducible refine FrameOut.ite ?_ ?_

theorem execAuth_frame {m : Nat} {s0 s : State} {a1 a2 a3 : _} (hm : 341942030 ||| m = m) (h : Frame m s0 (s.at a1)) : FrameOut m s0 (execAuth a1 a2 a3 s) := by
  unfold execAuth
  repeat' first
    | with_reducible assumption
    | exact mask_sub rfl hm
    | with_reducible apply State.ctrlIn_frame
    | with_reducible apply State.authFlit_frame
    | with_reducible refine FrameOut.next ?_
    | with_reducible exact FrameOut.fault
    | with_reducible refine FrameOut.ite ?_ ?_

theorem execFlitReceive_frame {m : Nat} {s0 s : State} {a1 a2 a3 : _} (hm : 98310 ||| m = m) (h : Frame m s0 (s.at a1)) : FrameOut m s0 (execFlitReceive a1 a2 a3 s) := by
  unfold execFlitReceive
  repeat' with_reducible first
    | assumption
    | apply State.flitReceive_frame
    | refine FrameOut.next ?_
    | exact FrameOut.fault
    | refine FrameOut.ite ?_ ?_

theorem execNak_frame {m : Nat} {s0 s : State} {a1 a2 a3 : _} (hm : 4300558 ||| m = m) (h : Frame m s0 (s.at a1)) : FrameOut m s0 (execNak a1 a2 a3 s) := by
  unfold execNak
  repeat' first
    | with_reducible assumption
    | exact mask_sub rfl hm
    | with_reducible apply State.ctrlIn_frame
    | with_reducible apply State.nak_frame
    | with_reducible refine FrameOut.next ?_
    | with_reducible exact FrameOut.fault
    | with_reducible refine FrameOut.ite ?_ ?_

theorem execAckTimeout_frame {m : Nat} {s0 s : State} {a1 a2 : _} (hm : 4300558 ||| m = m) (h : Frame m s0 (s.at a1)) : FrameOut m s0 (execAckTimeout a1 a2 s) := by
  unfold execAckTimeout
  repeat' with_reducible first
    | assumption
    | apply State.ackTimeout_frame
    | refine FrameOut.next ?_
    | exact FrameOut.fault
    | refine FrameOut.ite ?_ ?_

theorem execRetrainReq_frame {m : Nat} {s0 s : State} {a1 a2 : _} (hm : 4300558 ||| m = m) (h : Frame m s0 (s.at a1)) : FrameOut m s0 (execRetrainReq a1 a2 s) := by
  unfold execRetrainReq
  repeat' first
    | with_reducible assumption
    | exact mask_sub rfl hm
    | with_reducible apply State.ctrlIn_frame
    | with_reducible apply State.retrain_frame
    | with_reducible refine FrameOut.next ?_
    | with_reducible exact FrameOut.fault
    | with_reducible refine FrameOut.ite ?_ ?_

theorem execRetrainDone_frame {m : Nat} {s0 s : State} {a1 a2 : _} (hm : 4300558 ||| m = m) (h : Frame m s0 (s.at a1)) : FrameOut m s0 (execRetrainDone a1 a2 s) := by
  unfold execRetrainDone
  repeat' with_reducible first
    | assumption
    | apply State.retrained_frame
    | refine FrameOut.next ?_
    | exact FrameOut.fault
    | refine FrameOut.ite ?_ ?_

theorem execRetrainTimeout_frame {m : Nat} {s0 s : State} {a1 a2 : _} (hm : 339844878 ||| m = m) (h : Frame m s0 (s.at a1)) : FrameOut m s0 (execRetrainTimeout a1 a2 s) := by
  unfold execRetrainTimeout
  repeat' first
    | with_reducible assumption
    | ((try lift_lets -underBinder); intro x; clear_value (e : x = _); refine (fun hx : Frame m s0 x => ?_) (Frame.ofEq e ?_))
    | with_reducible apply State.linkDown_frame
    | with_reducible apply Frame.ite
    | with_reducible refine FrameOut.next ?_
    | with_reducible exact FrameOut.fault
    | with_reducible refine FrameOut.ite ?_ ?_

theorem execFullTrain_frame {m : Nat} {s0 s : State} {a1 a2 a3 : _} (hm : 33798 ||| m = m) (h : Frame m s0 (s.at a1)) : FrameOut m s0 (execFullTrain a1 a2 a3 s) := by
  unfold execFullTrain
  repeat' first
    | with_reducible assumption
    | ((try lift_lets -underBinder); intro x; clear_value (e : x = _); refine (fun hx : Frame m s0 x => ?_) (Frame.ofEq e ?_))
    | exact mask_sub rfl hm
    | intro x
    | with_reducible apply State.regWrite_frame
    | with_reducible apply linkCfgHook_frame
    | with_reducible refine FrameOut.next ?_
    | with_reducible exact FrameOut.fault
    | with_reducible refine FrameOut.ite ?_ ?_

theorem execLaneLockLost_frame {m : Nat} {s0 s : State} {a1 a2 : _} (hm : 4300558 ||| m = m) (h : Frame m s0 (s.at a1)) : FrameOut m s0 (execLaneLockLost a1 a2 s) := by
  unfold execLaneLockLost
  repeat' with_reducible first
    | assumption
    | apply State.retrain_frame
    | refine FrameOut.next ?_
    | exact FrameOut.fault
    | refine FrameOut.ite ?_ ?_

/-! Machine/MsgCmds.lean. -/

theorem execResponseReceive_frame {m : Nat} {s0 s : State} {a1 a2 : _} (hm : 383237966 ||| m = m) (h : Frame m s0 (s.at a1)) : FrameOut m s0 (execResponseReceive a1 a2 s) := by
  unfold execResponseReceive
  repeat' first
    | with_reducible assumption
    | exact mask_sub rfl hm
    | intro x
    | with_reducible apply State.response_frame
    | with_reducible apply State.whileUp_frame
    | with_reducible refine FrameOut.next ?_

theorem execE2eTimeout_frame {m : Nat} {s0 s : State} {a1 a2 : _} (hm : 383237966 ||| m = m) (h : Frame m s0 (s.at a1)) : FrameOut m s0 (execE2eTimeout a1 a2 s) := by
  unfold execE2eTimeout
  repeat' first
    | with_reducible assumption
    | exact mask_sub rfl hm
    | intro x
    | with_reducible apply State.whileUp_frame
    | with_reducible apply State.e2eTimeout_frame
    | with_reducible refine FrameOut.next ?_

theorem execLinkState_frame {m : Nat} {s0 s : State} {a1 a2 : _} (hm : 4300558 ||| m = m) (h : Frame m s0 (s.at a1)) : FrameOut m s0 (execLinkState a1 a2 s) := by
  unfold execLinkState
  repeat' first
    | with_reducible assumption
    | exact mask_sub rfl hm
    | intro x
    | with_reducible apply State.whileUp_frame
    | with_reducible apply State.linkHeard_frame
    | with_reducible apply Frame.ite
    | with_reducible refine FrameOut.next ?_

theorem execRouteSet_frame {m : Nat} {s0 s : State} {a1 a2 : _} (hm : 4300558 ||| m = m) (h : Frame m s0 (s.at a1)) : FrameOut m s0 (execRouteSet a1 a2 s) := by
  unfold execRouteSet
  repeat' first
    | with_reducible assumption
    | ((try lift_lets -underBinder); intro x; clear_value (e : x = _); skip)
    | exact mask_sub rfl hm
    | intro x
    | with_reducible apply State.sendCtrl_frame
    | with_reducible apply State.routeHere_frame
    | with_reducible apply State.whileUp_frame
    | with_reducible refine FrameOut.next ?_

theorem execRouteAck_frame {m : Nat} {s0 s : State} {a1 a2 : _} (hm : 32768 ||| m = m) (h : Frame m s0 (s.at a1)) : FrameOut m s0 (execRouteAck a1 a2 s) := by
  unfold execRouteAck
  repeat' first
    | with_reducible assumption
    | exact mask_sub rfl hm
    | intro x
    | with_reducible apply State.whileUp_frame
    | with_reducible apply State.modFabric_frame
    | with_reducible refine FrameOut.next ?_

theorem execQueryDst_frame {m : Nat} {s0 s : State} {a1 a2 a3 : _} (hm : 1030 ||| m = m) (h : Frame m s0 (s.at a1)) : FrameOut m s0 (execQueryDst a1 a2 a3 s) := by
  unfold execQueryDst
  repeat' first
    | with_reducible assumption
    | exact mask_sub rfl hm
    | intro x
    | with_reducible apply queryDstHook_frame
    | with_reducible apply State.regWrite_frame
    | with_reducible refine FrameOut.next ?_

theorem execJobImage_frame {m : Nat} {s0 s : State} {a1 a2 : _} (hm : 38899214 ||| m = m) (h : Frame m s0 (s.at a1)) : FrameOut m s0 (execJobImage a1 a2 s) := by
  unfold execJobImage
  repeat' first
    | with_reducible assumption
    | ((try lift_lets -underBinder); intro x; clear_value (e : x = _); refine (fun hx : Frame m s0 x => ?_) (Frame.ofEq e ?_))
    | exact mask_sub rfl hm
    | intro x
    | with_reducible apply State.reply_frame
    | with_reducible apply State.partValidate_frame
    | with_reducible apply State.modFabric_frame
    | with_reducible apply State.engineServe_frame
    | with_reducible apply Frame.ite
    | with_reducible refine FrameOut.next ?_

theorem execJobStart_frame {m : Nat} {s0 s : State} {a1 a2 : _} (hm : 38899214 ||| m = m) (h : Frame m s0 (s.at a1)) : FrameOut m s0 (execJobStart a1 a2 s) := by
  unfold execJobStart
  repeat' first
    | with_reducible assumption
    | ((try lift_lets -underBinder); intro x; clear_value (e : x = _); refine (fun hx : Frame m s0 x => ?_) (Frame.ofEq e ?_))
    | exact mask_sub rfl hm
    | intro x
    | with_reducible apply State.partValidate_frame
    | with_reducible apply State.modFabric_frame
    | with_reducible apply State.engineServe_frame
    | with_reducible apply Frame.ite
    | with_reducible refine FrameOut.next ?_

theorem execPartEnd_frame {m : Nat} {s0 s : State} {a1 a2 : _} (hm : 382967630 ||| m = m) (h : Frame m s0 (s.at a1)) : FrameOut m s0 (execPartEnd a1 a2 s) := by
  unfold execPartEnd
  repeat' first
    | with_reducible assumption
    | exact mask_sub rfl hm
    | intro x
    | with_reducible apply State.partEnded_frame
    | with_reducible apply State.okServe_frame
    | with_reducible refine FrameOut.next ?_
    | split

theorem execJobKill_frame {m : Nat} {s0 s : State} {a1 a2 : _} (hm : 13868878 ||| m = m) (h : Frame m s0 (s.at a1)) : FrameOut m s0 (execJobKill a1 a2 s) := by
  unfold execJobKill
  repeat' first
    | with_reducible assumption
    | ((try lift_lets -underBinder); intro x; clear_value (e : x = _); refine (fun hx : Frame m s0 x => ?_) (Frame.ofEq e ?_))
    | exact mask_sub rfl hm
    | intro x
    | with_reducible apply State.killsAnswered_frame
    | with_reducible apply State.killJob_frame
    | with_reducible apply State.partUnread_frame
    | with_reducible apply State.modFabric_frame
    | with_reducible apply State.engineServe_frame
    | with_reducible apply Frame.ite
    | with_reducible refine FrameOut.next ?_
    | split

/-- What every command keeps: the queue, the outputs that have left, canonical data; open values are only used up. -/
theorem exec_keeps (c : Instr) (s : State) : FrameOut (2 ^ 29 - 1) (s.at c.now) (exec c s) := by
  cases c with
  | p54vRise => exact execP54vRise_frame rfl (Frame.refl _)
  | modPgAssert => exact execModPgAssert_frame rfl (Frame.refl _)
  | moduleResetRelease => exact execModuleResetRelease_frame rfl (Frame.refl _)
  | strapChanged => exact execStrapChanged_frame rfl (Frame.refl _)
  | resetNPulse => exact execResetNPulse_frame rfl (Frame.refl _)
  | perst0NLevel => exact execPerst0NLevel_frame rfl (Frame.refl _)
  | perst0WarmReset => exact execPerst0WarmReset_frame rfl (Frame.refl _)
  | perst1NLevel => exact execPerst1NLevel_frame rfl (Frame.refl _)
  | pwrBrakeN => exact execPwrBrakeN_frame rfl (Frame.refl _)
  | tideInRise => exact execTideInRise_frame rfl (Frame.refl _)
  | stuckSpanExpire => exact execStuckSpanExpire_frame rfl (Frame.refl _)
  | zkPrsntN => exact execZkPrsntN_frame rfl (Frame.refl _)
  | cprsntN => exact execCprsntN_frame rfl (Frame.refl _)
  | m1BusTimeout => exact execM1BusTimeout_frame rfl (Frame.refl _)
  | undervoltage => exact execUndervoltage_frame rfl (Frame.refl _)
  | lowBand => exact execLowBand_frame rfl (Frame.refl _)
  | overvoltage => exact execOvervoltage_frame rfl (Frame.refl _)
  | ovRelease => exact execOvRelease_frame rfl (Frame.refl _)
  | thermalThrottle => exact execThermalThrottle_frame rfl (Frame.refl _)
  | thermalTrip => exact execThermalTrip_frame rfl (Frame.refl _)
  | pdSwitchOn => exact execPdSwitchOn_frame rfl (Frame.refl _)
  | tiersReady => exact execTiersReady_frame rfl (Frame.refl _)
  | pd3Off => exact execPd3Off_frame rfl (Frame.refl _)
  | pd5Off => exact execPd5Off_frame rfl (Frame.refl _)
  | pdRetrained => exact execPdRetrained_frame rfl (Frame.refl _)
  | leaveRequest => exact execLeaveRequest_frame rfl (Frame.refl _)
  | leaveRelease => exact execLeaveRelease_frame rfl (Frame.refl _)
  | leaveTimeout => exact execLeaveTimeout_frame rfl (Frame.refl _)
  | calWriteDue => exact execCalWriteDue_frame rfl (Frame.refl _)
  | saveNow => exact execSaveNow_frame rfl (Frame.refl _)
  | calWriteEnd => exact execCalWriteEnd_frame rfl (Frame.refl _)
  | warmReq => exact execWarmReq_frame rfl (Frame.refl _)
  | herdReq => exact execHerdReq_frame rfl (Frame.refl _)
  | herdReset => exact execHerdReset_frame rfl (Frame.refl _)
  | functionLevelReset => exact execFunctionLevelReset_frame rfl (Frame.refl _)
  | blockReset => exact execBlockReset_frame rfl (Frame.refl _)
  | blockResetEnd => exact execBlockResetEnd_frame rfl (Frame.refl _)
  | blockResetTimeout => exact execBlockResetTimeout_frame rfl (Frame.refl _)
  | regWrite => exact execRegWrite_frame rfl (Frame.refl _)
  | unmappedAccess => exact execUnmappedAccess_frame rfl (Frame.refl _)
  | pgLock => exact execPgLock_frame rfl (Frame.refl _)
  | pgCtrlEnable => exact execPgCtrlEnable_frame rfl (Frame.refl _)
  | pgCtrlQuiesce => exact execPgCtrlQuiesce_frame rfl (Frame.refl _)
  | pgCtrlOutOfService => exact execPgCtrlOutOfService_frame rfl (Frame.refl _)
  | pgSync => exact execPgSync_frame rfl (Frame.refl _)
  | errInjectFire => exact execErrInjectFire_frame rfl (Frame.refl _)
  | injectionDelivered => exact execInjectionDelivered_frame rfl (Frame.refl _)
  | errFirstClear => exact execErrFirstClear_frame rfl (Frame.refl _)
  | regParity => exact execRegParity_frame rfl (Frame.refl _)
  | irqRoute => exact execIrqRoute_frame rfl (Frame.refl _)
  | modTimeExpire => exact execModTimeExpire_frame rfl (Frame.refl _)
  | vatCfg => exact execVatCfg_frame rfl (Frame.refl _)
  | extentGrant => exact execExtentGrant_frame rfl (Frame.refl _)
  | sliceStart => exact execSliceStart_frame rfl (Frame.refl _)
  | unitFail => exact execUnitFail_frame rfl (Frame.refl _)
  | scrubPass => exact execScrubPass_frame rfl (Frame.refl _)
  | regionAlloc => exact execRegionAlloc_frame rfl (Frame.refl _)
  | regionFree => exact execRegionFree_frame rfl (Frame.refl _)
  | regionRead => exact execRegionRead_frame rfl (Frame.refl _)
  | regionCmdDone => exact execRegionCmdDone_frame rfl (Frame.refl _)
  | cellarMode => exact execCellarMode_frame rfl (Frame.refl _)
  | driveBringUp => exact execDriveBringUp_frame rfl (Frame.refl _)
  | rescan => exact execRescan_frame rfl (Frame.refl _)
  | driveOos => exact execDriveOos_frame rfl (Frame.refl _)
  | cellarCmdTimeout => exact execCellarCmdTimeout_frame rfl (Frame.refl _)
  | abortTimeout => exact execAbortTimeout_frame rfl (Frame.refl _)
  | cellarCmdComplete => exact execCellarCmdComplete_frame rfl (Frame.refl _)
  | driveLost => exact execDriveLost_frame rfl (Frame.refl _)
  | biasToDevice => exact execBiasToDevice_frame rfl (Frame.refl _)
  | biasToHost => exact execBiasToHost_frame rfl (Frame.refl _)
  | biasQuery => exact execBiasQuery_frame rfl (Frame.refl _)
  | biasFlipDone => exact execBiasFlipDone_frame rfl (Frame.refl _)
  | hostHdmAccess => exact execHostHdmAccess_frame rfl (Frame.refl _)
  | bar4Access => exact execBar4Access_frame rfl (Frame.refl _)
  | syncWordRead => exact execSyncWordRead_frame rfl (Frame.refl _)
  | atsInvalidation => exact execAtsInvalidation_frame rfl (Frame.refl _)
  | atsInvalidationComplete => exact execAtsInvalidationComplete_frame rfl (Frame.refl _)
  | hostReadComplete => exact execHostReadComplete_frame rfl (Frame.refl _)
  | hostTimeout => exact execHostTimeout_frame rfl (Frame.refl _)
  | hostSnoop => exact execHostSnoop_frame rfl (Frame.refl _)
  | biTimeout => exact execBiTimeout_frame rfl (Frame.refl _)
  | port1LinkDown => exact execPort1LinkDown_frame rfl (Frame.refl _)
  | port0LinkDown => exact execPort0LinkDown_frame rfl (Frame.refl _)
  | port0LinkUp => exact execPort0LinkUp_frame rfl (Frame.refl _)
  | hostHeartbeat => exact execHostHeartbeat_frame rfl (Frame.refl _)
  | hbSpanExpire => exact execHbSpanExpire_frame rfl (Frame.refl _)
  | hostLoss => exact execHostLoss_frame rfl (Frame.refl _)
  | claim => exact execClaim_frame rfl (Frame.refl _)
  | discard => exact execDiscard_frame rfl (Frame.refl _)
  | hostTierResume => exact execHostTierResume_frame rfl (Frame.refl _)
  | sqDoorbell => exact execSqDoorbell_frame rfl (Frame.refl _)
  | cqHeadDoorbell => exact execCqHeadDoorbell_frame rfl (Frame.refl _)
  | descFetch => exact execDescFetch_frame rfl (Frame.refl _)
  | descFetchDone => exact execDescFetchDone_frame rfl (Frame.refl _)
  | run => exact execRun_frame rfl (Frame.refl _)
  | fence => exact execFence_frame rfl (Frame.refl _)
  | waitTide => exact execWaitTide_frame rfl (Frame.refl _)
  | waitTideTimeout => exact execWaitTideTimeout_frame rfl (Frame.refl _)
  | signal => exact execSignal_frame rfl (Frame.refl _)
  | mirrorCut => exact execMirrorCut_frame rfl (Frame.refl _)
  | parkDrain => exact execParkDrain_frame rfl (Frame.refl _)
  | nop => exact execNop_frame rfl (Frame.refl _)
  | jobComplete => exact execJobComplete_frame rfl (Frame.refl _)
  | sliceEnd => exact execSliceEnd_frame rfl (Frame.refl _)
  | sliceBound => exact execSliceBound_frame rfl (Frame.refl _)
  | sqEnable => exact execSqEnable_frame rfl (Frame.refl _)
  | cqEnable => exact execCqEnable_frame rfl (Frame.refl _)
  | sqRetry => exact execSqRetry_frame rfl (Frame.refl _)
  | rnWait => exact execRnWait_frame rfl (Frame.refl _)
  | rnWaitTimeout => exact execRnWaitTimeout_frame rfl (Frame.refl _)
  | rnDelay => exact execRnDelay_frame rfl (Frame.refl _)
  | delayWake => exact execDelayWake_frame rfl (Frame.refl _)
  | rnCtrAlloc => exact execRnCtrAlloc_frame rfl (Frame.refl _)
  | rnCtrSub => exact execRnCtrSub_frame rfl (Frame.refl _)
  | rnCtrFree => exact execRnCtrFree_frame rfl (Frame.refl _)
  | rnCopy => exact execRnCopy_frame rfl (Frame.refl _)
  | rnBudget => exact execRnBudget_frame rfl (Frame.refl _)
  | rnTide => exact execRnTide_frame rfl (Frame.refl _)
  | ecallUnknown => exact execEcallUnknown_frame rfl (Frame.refl _)
  | copyComplete => exact execCopyComplete_frame rfl (Frame.refl _)
  | stageReturn => exact execStageReturn_frame rfl (Frame.refl _)
  | stageFault => exact execStageFault_frame rfl (Frame.refl _)
  | fenceI => exact execFenceI_frame rfl (Frame.refl _)
  | quantumExpiry => exact execQuantumExpiry_frame rfl (Frame.refl _)
  | stageOverrun => exact execStageOverrun_frame rfl (Frame.refl _)
  | ctrArm => exact execCtrArm_frame rfl (Frame.refl _)
  | ctrSub => exact execCtrSub_frame rfl (Frame.refl _)
  | ctrDisarm => exact execCtrDisarm_frame rfl (Frame.refl _)
  | flowOpen => exact execFlowOpen_frame rfl (Frame.refl _)
  | flowClose => exact execFlowClose_frame rfl (Frame.refl _)
  | flowAdvance => exact execFlowAdvance_frame rfl (Frame.refl _)
  | coreOos => exact execCoreOos_frame rfl (Frame.refl _)
  | coreFail => exact execCoreFail_frame rfl (Frame.refl _)
  | l2Ue => exact execL2Ue_frame rfl (Frame.refl _)
  | beatSend => exact execBeatSend_frame rfl (Frame.refl _)
  | beatApply => exact execBeatApply_frame rfl (Frame.refl _)
  | reportReceive => exact execReportReceive_frame rfl (Frame.refl _)
  | hostTide => exact execHostTide_frame rfl (Frame.refl _)
  | alarmArm => exact execAlarmArm_frame rfl (Frame.refl _)
  | srcOpen => exact execSrcOpen_frame rfl (Frame.refl _)
  | srcClose => exact execSrcClose_frame rfl (Frame.refl _)
  | srcLow => exact execSrcLow_frame rfl (Frame.refl _)
  | srcIdle => exact execSrcIdle_frame rfl (Frame.refl _)
  | srcActive => exact execSrcActive_frame rfl (Frame.refl _)
  | srcRead => exact execSrcRead_frame rfl (Frame.refl _)
  | sourceIdleExpire => exact execSourceIdleExpire_frame rfl (Frame.refl _)
  | beatLost => exact execBeatLost_frame rfl (Frame.refl _)
  | intakeSurvey => exact execIntakeSurvey_frame rfl (Frame.refl _)
  | dlogHead => exact execDlogHead_frame rfl (Frame.refl _)
  | dlogEnable => exact execDlogEnable_frame rfl (Frame.refl _)
  | dictRegister => exact execDictRegister_frame rfl (Frame.refl _)
  | dictUnregister => exact execDictUnregister_frame rfl (Frame.refl _)
  | dictUnregisterDone => exact execDictUnregisterDone_frame rfl (Frame.refl _)
  | dictRead => exact execDictRead_frame rfl (Frame.refl _)
  | probeOm64 => exact execProbeOm64_frame rfl (Frame.refl _)
  | probeCrc => exact execProbeCrc_frame rfl (Frame.refl _)
  | strainerWrite => exact execStrainerWrite_frame rfl (Frame.refl _)
  | strainerRead => exact execStrainerRead_frame rfl (Frame.refl _)
  | strainerInvalidate => exact execStrainerInvalidate_frame rfl (Frame.refl _)
  | strainerSearch => exact execStrainerSearch_frame rfl (Frame.refl _)
  | bankCfgWidth => exact execBankCfgWidth_frame rfl (Frame.refl _)
  | bankCfgOos => exact execBankCfgOos_frame rfl (Frame.refl _)
  | scrubStep => exact execScrubStep_frame rfl (Frame.refl _)
  | loadWritePass => exact execLoadWritePass_frame rfl (Frame.refl _)
  | partitionReload => exact execPartitionReload_frame rfl (Frame.refl _)
  | runaheadProbe => exact execRunaheadProbe_frame rfl (Frame.refl _)
  | rows => exact execRows_frame rfl (Frame.refl _)
  | endBuild => exact execEndBuild_frame rfl (Frame.refl _)
  | endProbe => exact execEndProbe_frame rfl (Frame.refl _)
  | storeOpen => exact execStoreOpen_frame rfl (Frame.refl _)
  | storeClose => exact execStoreClose_frame rfl (Frame.refl _)
  | storeRead => exact execStoreRead_frame rfl (Frame.refl _)
  | storeClear => exact execStoreClear_frame rfl (Frame.refl _)
  | tblCreate => exact execTblCreate_frame rfl (Frame.refl _)
  | tblDestroy => exact execTblDestroy_frame rfl (Frame.refl _)
  | tblRead => exact execTblRead_frame rfl (Frame.refl _)
  | tblBind => exact execTblBind_frame rfl (Frame.refl _)
  | tblInvalidate => exact execTblInvalidate_frame rfl (Frame.refl _)
  | tblShard => exact execTblShard_frame rfl (Frame.refl _)
  | tblCmdDone => exact execTblCmdDone_frame rfl (Frame.refl _)
  | gather => exact execGather_frame rfl (Frame.refl _)
  | update => exact execUpdate_frame rfl (Frame.refl _)
  | sent => exact execSent_frame rfl (Frame.refl _)
  | stepClose => exact execStepClose_frame rfl (Frame.refl _)
  | applied => exact execApplied_frame rfl (Frame.refl _)
  | stepDone => exact execStepDone_frame rfl (Frame.refl _)
  | loadReport => exact execLoadReport_frame rfl (Frame.refl _)
  | prep => exact execPrep_frame rfl (Frame.refl _)
  | shardCopy => exact execShardCopy_frame rfl (Frame.refl _)
  | commit => exact execCommit_frame rfl (Frame.refl _)
  | logHandoff => exact execLogHandoff_frame rfl (Frame.refl _)
  | tableCmd => exact execTableCmd_frame rfl (Frame.refl _)
  | cancel => exact execCancel_frame rfl (Frame.refl _)
  | prefetch => exact execPrefetch_frame rfl (Frame.refl _)
  | linkTrain => exact execLinkTrain_frame rfl (Frame.refl _)
  | trainingDone => exact execTrainingDone_frame rfl (Frame.refl _)
  | config => exact execConfig_frame rfl (Frame.refl _)
  | auth => exact execAuth_frame rfl (Frame.refl _)
  | flitReceive => exact execFlitReceive_frame rfl (Frame.refl _)
  | nak => exact execNak_frame rfl (Frame.refl _)
  | ackTimeout => exact execAckTimeout_frame rfl (Frame.refl _)
  | retrainReq => exact execRetrainReq_frame rfl (Frame.refl _)
  | retrainDone => exact execRetrainDone_frame rfl (Frame.refl _)
  | retrainTimeout => exact execRetrainTimeout_frame rfl (Frame.refl _)
  | fullTrain => exact execFullTrain_frame rfl (Frame.refl _)
  | read => exact execRead_frame rfl (Frame.refl _)
  | write => exact execWrite_frame rfl (Frame.refl _)
  | bulkWrite => exact execBulkWrite_frame rfl (Frame.refl _)
  | responseReceive => exact execResponseReceive_frame rfl (Frame.refl _)
  | e2eTimeout => exact execE2eTimeout_frame rfl (Frame.refl _)
  | linkState => exact execLinkState_frame rfl (Frame.refl _)
  | routeSet => exact execRouteSet_frame rfl (Frame.refl _)
  | routeAck => exact execRouteAck_frame rfl (Frame.refl _)
  | queryDst => exact execQueryDst_frame rfl (Frame.refl _)
  | jobImage => exact execJobImage_frame rfl (Frame.refl _)
  | jobStart => exact execJobStart_frame rfl (Frame.refl _)
  | partEnd => exact execPartEnd_frame rfl (Frame.refl _)
  | jobKill => exact execJobKill_frame rfl (Frame.refl _)
  | leadClaim => exact execLeadClaim_frame rfl (Frame.refl _)
  | formMsExpire => exact execFormMsExpire_frame rfl (Frame.refl _)
  | herdForm => exact execHerdForm_frame rfl (Frame.refl _)
  | join => exact execJoin_frame rfl (Frame.refl _)
  | memberSet => exact execMemberSet_frame rfl (Frame.refl _)
  | memberAck => exact execMemberAck_frame rfl (Frame.refl _)
  | electAck => exact execElectAck_frame rfl (Frame.refl _)
  | leave => exact execLeave_frame rfl (Frame.refl _)
  | leadTakeover => exact execLeadTakeover_frame rfl (Frame.refl _)
  | isolated => exact execIsolated_frame rfl (Frame.refl _)
  | twinPair => exact execTwinPair_frame rfl (Frame.refl _)
  | mirror => exact execMirror_frame rfl (Frame.refl _)
  | twinCut => exact execTwinCut_frame rfl (Frame.refl _)
  | twinAck => exact execTwinAck_frame rfl (Frame.refl _)
  | herdJoin => exact execHerdJoin_frame rfl (Frame.refl _)
  | herdLeave => exact execHerdLeave_frame rfl (Frame.refl _)
  | admitId => exact execAdmitId_frame rfl (Frame.refl _)
  | bootReq => exact execBootReq_frame rfl (Frame.refl _)
  | bootData => exact execBootData_frame rfl (Frame.refl _)
  | bootFallback => exact execBootFallback_frame rfl (Frame.refl _)
  | serveEnable => exact execServeEnable_frame rfl (Frame.refl _)
  | serveRingEnable => exact execServeRingEnable_frame rfl (Frame.refl _)
  | prod => exact execProd_frame rfl (Frame.refl _)
  | admission => exact execAdmission_frame rfl (Frame.refl _)
  | requestDeadline => exact execRequestDeadline_frame rfl (Frame.refl _)
  | txSlotFree => exact execTxSlotFree_frame rfl (Frame.refl _)
  | svcRegister => exact execSvcRegister_frame rfl (Frame.refl _)
  | svcUnregister => exact execSvcUnregister_frame rfl (Frame.refl _)
  | svcUnregisterDone => exact execSvcUnregisterDone_frame rfl (Frame.refl _)
  | svcRead => exact execSvcRead_frame rfl (Frame.refl _)
  | runtimeBoot => exact execRuntimeBoot_frame rfl (Frame.refl _)
  | bootGo => exact execBootGo_frame rfl (Frame.refl _)
  | rollbackCommit => exact execRollbackCommit_frame rfl (Frame.refl _)
  | fuseBlowDone => exact execFuseBlowDone_frame rfl (Frame.refl _)
  | lockdown => exact execLockdown_frame rfl (Frame.refl _)
  | lockDeadline => exact execLockDeadline_frame rfl (Frame.refl _)
  | keyLoad => exact execKeyLoad_frame rfl (Frame.refl _)
  | keyRevoke => exact execKeyRevoke_frame rfl (Frame.refl _)
  | keyRead => exact execKeyRead_frame rfl (Frame.refl _)
  | getVersion => exact execGetVersion_frame rfl (Frame.refl _)
  | getCapabilities => exact execGetCapabilities_frame rfl (Frame.refl _)
  | negotiateAlgorithms => exact execNegotiateAlgorithms_frame rfl (Frame.refl _)
  | getDigests => exact execGetDigests_frame rfl (Frame.refl _)
  | getCertificate => exact execGetCertificate_frame rfl (Frame.refl _)
  | challenge => exact execChallenge_frame rfl (Frame.refl _)
  | getMeasurements => exact execGetMeasurements_frame rfl (Frame.refl _)
  | keyExchange => exact execKeyExchange_frame rfl (Frame.refl _)
  | finish => exact execFinish_frame rfl (Frame.refl _)
  | heartbeat => exact execHeartbeat_frame rfl (Frame.refl _)
  | keyUpdate => exact execKeyUpdate_frame rfl (Frame.refl _)
  | endSession => exact execEndSession_frame rfl (Frame.refl _)
  | spdmUnsupported => exact execSpdmUnsupported_frame rfl (Frame.refl _)
  | setEndpointId => exact execSetEndpointId_frame rfl (Frame.refl _)
  | getEndpointId => exact execGetEndpointId_frame rfl (Frame.refl _)
  | getMctpVersionSupport => exact execGetMctpVersionSupport_frame rfl (Frame.refl _)
  | getMessageTypeSupport => exact execGetMessageTypeSupport_frame rfl (Frame.refl _)
  | pldmBase => exact execPldmBase_frame rfl (Frame.refl _)
  | pldmSensorRead => exact execPldmSensorRead_frame rfl (Frame.refl _)
  | pollForPlatformEventMessage => exact execPollForPlatformEventMessage_frame rfl (Frame.refl _)
  | pldmFirmwareUpdate => exact execPldmFirmwareUpdate_frame rfl (Frame.refl _)
  | readReg => exact execReadReg_frame rfl (Frame.refl _)
  | writeReg => exact execWriteReg_frame rfl (Frame.refl _)
  | arbLost => exact execArbLost_frame rfl (Frame.refl _)
  | autoWarm => exact execAutoWarm_frame rfl (Frame.refl _)
  | faultAck => exact execFaultAck_frame rfl (Frame.refl _)
  | pop => exact execPop_frame rfl (Frame.refl _)
  | finjFire => exact execFinjFire_frame rfl (Frame.refl _)
  | retentionFlagLost => exact execRetentionFlagLost_frame rfl (Frame.refl _)
  | tideInFall => exact execTideInFall_frame rfl (Frame.refl _)
  | stuckClear => exact execStuckClear_frame rfl (Frame.refl _)
  | cableSeated => exact execCableSeated_frame rfl (Frame.refl _)
  | port1LinkUp => exact execPort1LinkUp_frame rfl (Frame.refl _)
  | configurationWrite => exact execConfigurationWrite_frame rfl (Frame.refl _)
  | msixTableWrite => exact execMsixTableWrite_frame rfl (Frame.refl _)
  | hdmDecoderCommit => exact execHdmDecoderCommit_frame rfl (Frame.refl _)
  | atsTranslationDone => exact execAtsTranslationDone_frame rfl (Frame.refl _)
  | bisnpResponse => exact execBisnpResponse_frame rfl (Frame.refl _)
  | sustainedBudgetWrite => exact execSustainedBudgetWrite_frame rfl (Frame.refl _)
  | tideModeWrite => exact execTideModeWrite_frame rfl (Frame.refl _)
  | watermarkMarkWrite => exact execWatermarkMarkWrite_frame rfl (Frame.refl _)
  | cellarLinkUp => exact execCellarLinkUp_frame rfl (Frame.refl _)
  | laneLockLost => exact execLaneLockLost_frame rfl (Frame.refl _)
  | memberSetResend => exact execMemberSetResend_frame rfl (Frame.refl _)
  | handbackTransferDone => exact execHandbackTransferDone_frame rfl (Frame.refl _)

end Sys2Proof.Machine
end

