-- ==== Sys2Proof/Tests/Slice0.lean ====
section
/-! SUPPORT. Tests: each check of well-formedness refuses an ill-formed command, a few commands do what the specification says on small states, and
for each statement for the provers states and operands that meet its hypotheses. -/

namespace Sys2Proof.Tests

open Sys2Proof Sys2Proof.Machine Sys2Proof.Reg

set_option maxRecDepth 8000

-- One theorem at a time: the proofs below evaluate, and their threads together would take more memory than the check allows.
set_option Elab.async false

/-- Where a write opens, it lands on the state that `stored` gives. -/
theorem lands_of {s : State} {now : Nat} {req : Requester} {page off : Nat} {v : Word} (h : (s.at now).writeWay req page off = .applied)
    (l : (s.at now).locked (ownerOf req page) page = false) : s.lands now req page off v ((s.at now).stored req page off v) :=
  And.intro (And.intro h l) rfl

theorem ne_some {α : Type} {o : Option α} (h : o = none) (a : α) : o ≠ some a := by simp [h]

/-- A write that applies to an unlocked page opens. -/
theorem opens_of {s : State} {req : Requester} {page off : Nat} (h : s.writeWay req page off = .applied)
    (l : s.locked (ownerOf req page) page = false) : s.opens req page off := And.intro h l

theorem takes_of {s : State} {req : Requester} {page off : Nat} (h : s.writeWay req page off = .applied) : s.takes req page off := h

/-- A request that has come whole arrives. -/
theorem arrives_of {s u : State} {now : Nat} {p : Packet} {bytes : Bytes} (r : s.power.released = true)
    (f : s.arrival p.dst p.src p.reqSeq = .fresh) (j : (s.at now).joinRun p = (u, some bytes)) : s.arrives now p u bytes :=
  And.intro r (And.intro f j)

/-- A module with every domain on and its memories ready. -/
def up : State :=
  ({ State.reset with power := { good := 63, started := 63 }, tiers := { creamUnits := 15, skimUnits := 65535 } }).setFld LEAVE.TIERS_READY 1
def aPlan : Plan := ⟨0, 0, 0, [], [⟨1, 0, 0, 0, 0, 0, 0, 0, 0, [.none, .none], []⟩], []⟩
def aJob : Job :=
  { origin := .ring 0, herdId := 5, fn := 0, ring := 0, tag := 9, prio := 32, sliceUs := 64, leaveTicks := 0, herd := false, plan := aPlan, binds := [] }
def aSlice : Slice := { job := 1, stage := 0, page := 0x0A0, prio := 32, first := 0 }
def aDesc : Desc := { fn := 0, ring := 0, seq := 0, cq := 0, raw := List.replicate 64 0#8 }
def aPacket : Packet := { dst := 0, src := 1, typ := 1 }
def aRegion : Region := ⟨0x001000000000, 0x10000, 0, .cream, false, true, true, true, false, 0, 0, []⟩
def aThread : Thread := { slice := 3, level := 1, state := .running, core := some 2 }
def aCopy : Copy := { slice := 3, fn := 0, src := 0x001000000000, srcHerd := false, dst := 0x001000000100, dstHerd := false, len := 4, ctr := 7 }
def aReport : Bytes :=
  let b := leBytes 1 2 ++ leBytes 1 1 ++ leBytes 2 5 ++ leBytes 4 9 ++ leBytes 8 77 ++ leBytes 8 78 ++ zeros 4
  b ++ leBytes 4 (crc32c b)

/-- A field of what a command leaves. -/
def after {α : Type} (o : Host.Outcome State Fault Refusal) (f : State → α) : Option α :=
  match o with
  | .next t => some (f t)
  | _ => none

/-! Each check of well-formedness refuses an ill-formed command. -/

theorem test_wf_function_requester : (Instr.claim 0 (.fn 32)).wf = false := by decide
theorem test_wf_node_requester : (Instr.claim 0 (.remote 65536)).wf = false := by decide
theorem test_wf_packet_body : (Instr.write 0 { aPacket with body := List.replicate 4097 0#8 } {}).wf = false := by decide +kernel
theorem test_wf_packet_tag : (Instr.responseReceive 0 { aPacket with tag := 65536 }).wf = false := by decide
theorem test_wf_cable : (Instr.zkPrsntN 0 6).wf = false := by decide
theorem test_wf_cellar_cable : (Instr.cprsntN 0 4 true).wf = false := by decide
theorem test_wf_domain : (Instr.pdSwitchOn 0 6).wf = false := by decide
theorem test_wf_function : (Instr.functionLevelReset 0 32).wf = false := by decide
theorem test_wf_unit : (Instr.unitFail 0 true 4).wf = false ∧ (Instr.unitFail 0 false 16).wf = false := by decide
theorem test_wf_drive : (Instr.driveLost 0 16).wf = false := by decide
theorem test_wf_ring : (Instr.descFetch 0 0 64).wf = false ∧ (Instr.descFetch 0 32 0).wf = false := by decide
theorem test_wf_core : (Instr.coreFail 0 16 []).wf = false := by decide
theorem test_wf_bank : (Instr.bankCfgWidth 0 .cores 32 0).wf = false := by decide
theorem test_wf_link : (Instr.linkTrain 0 6).wf = false := by decide
theorem test_wf_watermark : (Instr.watermarkMarkWrite 0 .cores (.completion 64) 0 0).wf = false := by decide

/-! Vectors of the specification. -/

/-- Table 14-6. -/
theorem test_om64_vectors : om64 [] 0 = 0xE220A8397B1DCDAF ∧ om64 [] 0x9E3779B97F4A7C15 = 0x6E789E6AA1B965F4 ∧
    om64 [0xB2, 0xB1, 0x57, 0x04, 0x80, 0xD1, 0x17, 0x7C] 0 = 0x6E789E6AA1B965F4 ∧
    om64 [0xBA, 0xB1, 0x57, 0x04, 0x80, 0xD1, 0x17, 0x7C, 0xCE, 0x9D, 0x2D, 0x5F, 0x18, 0x6D, 0x16, 0x52] 0 = 0x06C45D188009454F := by
  decide +kernel

/-- Table 14-7. -/
theorem test_crc32c_vectors : crc32c [0x31, 0x32, 0x33, 0x34, 0x35, 0x36, 0x37, 0x38, 0x39] = 0xE3069283 ∧
    crc32c (List.replicate 32 0x00) = 0x8A9136AA ∧ crc32c (List.replicate 32 0xFF) = 0x62A8AB43 := by decide +kernel

/-- Table 14-8. -/
theorem test_reduce_vectors : reduce 0xE220A8397B1DCDAF 4096 = 3618 ∧ reduce 0xE220A8397B1DCDAF 1000 = 883 ∧
    reduce 0xE220A8397B1DCDAF 65536 = 57888 ∧ reduce 0x6E789E6AA1B965F4 4096 = 1767 ∧ reduce 0x06C45D188009454F 4096 = 108 := by decide

/-- The worked payload of "abcabcabc" (chapter 13): three literals and a match of length 6 at distance 3. -/
theorem test_churn_payload : churnCoded staticLit staticDist false [(0, 0x61), (0, 0x62), (0, 0x63), (6, 3)] =
    some [0xC1, 0x21, 0xA1, 0x60, 0x04, 0x00] := by decide +kernel

/-- The worked raw frame of "123456789" decodes to its bytes. -/
theorem test_churn_raw_frame : (decodeStream 8 (fun _ => none) 1000 none none false false
    [0x43, 0x48, 0x52, 0x4E, 0x01, 0, 0, 0, 0x09, 0, 0, 0, 0, 0, 0, 0, 0x05, 0x08, 0, 0, 0x09, 0, 0, 0,
      0x31, 0x32, 0x33, 0x34, 0x35, 0x36, 0x37, 0x38, 0x39, 0x83, 0x92, 0x06, 0xE3, 0x01, 0, 0, 0]).out =
    [0x31, 0x32, 0x33, 0x34, 0x35, 0x36, 0x37, 0x38, 0x39] := by decide +kernel

/-- The worked frame of "abcabcabc" decodes to the bytes it was made of. -/
theorem test_churn_decode : (decodeStream 8 (fun _ => none) 1000 none none false false
    ([0x43, 0x48, 0x52, 0x4E, 0x01, 0, 0, 0, 0x09, 0, 0, 0, 0, 0, 0, 0, 0x04, 0x08, 0, 0, 0x06, 0, 0, 0, 0xC1, 0x21, 0xA1, 0x60, 0x04, 0x00] ++
      leBytes 4 (crc32c [0x61, 0x62, 0x63, 0x61, 0x62, 0x63, 0x61, 0x62, 0x63]) ++ [0x01, 0, 0, 0])).out =
    [0x61, 0x62, 0x63, 0x61, 0x62, 0x63, 0x61, 0x62, 0x63] := by decide +kernel

/-- Table 17-6: keys and representatives, as binary64 patterns. -/
theorem test_sketch_keys : [0x3FF0000000000000, 0x4000000000000000, 0x4008000000000000, 0x4010000000000000, 0x4059000000000000,
      0xBFF0000000000000].map (qKey · 4) = [0xBFF0, 0xC000, 0xC008, 0xC010, 0xC059, 0x400F] ∧
    [0xBFF0, 0xC000, 0xC008, 0xC010, 0xC059, 0x400F].map (qRep · 4) = [0x3FF0800000000000, 0x4000800000000000, 0x4008800000000000,
      0x4010800000000000, 0x4059800000000000, 0xBFF0800000000000] := by decide +kernel

/-- The quantiles under Table 17-6. -/
theorem test_sketch_quantiles : [0, 2500, 5000, 9000, 10000].map (qQuery [(0xBFF0, 1), (0xC000, 1), (0xC008, 1), (0xC010, 1), (0xC059, 1)] 4) =
    [0x3FF0800000000000, 0x4000800000000000, 0x4008800000000000, 0x4059800000000000, 0x4059800000000000] := by decide +kernel

/-- The build rows of the example under R333, with v1 to v4 as 1 to 4. -/
def asofRows : List (List Val) := [[.num 100, .num 1], [.num 250, .num 2], [.num 250, .num 3], [.num 400, .num 4]]

/-- A Press block with TOLERANCE 500 and the build time in column 0. -/
def asofBlock : Bytes := zeros 48 ++ leBytes 8 500 ++ zeros 16

/-- The example under R333. -/
theorem test_asof_example : [50, 250, 399, 1000].map (fun t => asofPick asofBlock 0x05 t asofRows) =
    [none, some [.num 250, .num 3], some [.num 250, .num 3], none] := by decide +kernel

/-- The hash of row 8 in the Picture of chapter 19, its shard and that shard's first owner. -/
theorem test_row_owner : om64 [8, 0, 0, 0, 0, 0, 0, 0] 0x61C8864680B583EB = 0xE220A8397B1DCDAF ∧
    ({ dtype := 0x0B, dim := 4, home := 1, rows := 1048576, seed := 0x61C8864680B583EB, quota := 0, dflt := zeros 16, members := [0, 1, 2, 3] } :
      LTable).owner 57888 = 3 := by decide +kernel

/-- The updates of the Picture of chapter 19, in the order of their keys: elements 0 and 3 as binary32. -/
theorem test_combine_example : combineRow 1 [0, 0] [[0x4B800000, 0x3F800000], [0x3F800000, 0], [0x3F800000, 0x40000000]] =
    [0x4B800000, 0x40400000] := by decide +kernel

/-- The plan of the Picture of chapter 19 at the end of epoch 5. -/
theorem test_migration_plan : planMoves [] [] 150 5000000 8 [(0, 4000000), (1, 2000000), (2, 4000000), (3, 10000000)]
    [⟨3, 10000000, [(7, 0xE220, 3000000)]⟩] [] = [(7, 0xE220, 3, 1)] := by decide +kernel

/-! A few commands. -/

/-- The example under R214: with PULSE_STEP 60,000,000 the boundary above 119,999,000 is 120,000,000, and with GATE set data raises the tide to
119,999,999 at most. -/
theorem test_pulse_example : (up.setFld TIDE.PULSE_STEP 60000000).gridAbove 119999000 = 120000000 ∧
    ((((up.setFld TIDE.PULSE_STEP 60000000).setFld TIDE.MODE 2).setFld TIDE.GATE 1).modTide fun t =>
      { t with hostTide := 500000000 }).newTide 119999000 = 119999999 := by decide +kernel

/-- Right after reset the node is in no herd and no command waits; a queue of one command runs it and is empty. -/
theorem test_step_takes_the_command : after (step { State.reset with pending := [.isolated 7] }) (fun t => (t.pending, t.chrono)) = some ([], 7) := by
  decide +kernel

/-- An empty queue idles. -/
theorem test_step_idles : step State.reset = .next State.reset := rfl

/-- R60: a read of an unmapped page returns zero and counts. -/
theorem test_unmapped_read : after (exec (.unmappedAccess 0 (.fn 0) 0x0FF 0x100 true) up)
    (fun t => (t.out, t.fld GLOBAL.UNMAPPED_COUNT)) = some ([.readReg (.fn 0) 0x0FF 0x100 0#64], 1) := by decide +kernel

/-- R59: a plain RW register of an open page takes a 64-bit write. -/
theorem test_plain_write : after (exec (.regWrite 0 (.fn 0) 0x058 0x148 [5, 0, 0, 0, 0, 0, 0, 0] {}) up) (·.fld TIDE.LAG_MARK) = some 5 := by
  decide +kernel

/-- R507: POP takes the oldest record. -/
theorem test_fault_pop : after (exec (.pop 0 (.fn 0)) { up with faults := [⟨2, 0x12, 0, 0, 0x0A0, 0, 9, 0, 0, 0, 0⟩] })
    (fun t => (t.faults.length, t.fld FAULT.QCOUNT)) = some (0, 0) := by decide +kernel

/-! States and operands that meet the hypotheses of the statements for the provers. -/

/-- States and operands that meet the hypotheses of `Obligations.StepRunsFrontCommand`, clause by clause. -/
theorem test_met_StepRunsFrontCommand :
  (∃ (s : State) (c : Instr) (rest : List Instr), s.pending = c :: rest) ∧
  (∃ (s : State), s.pending = []) :=
  ⟨⟨({ up with pending := [.beatSend 5] }), .beatSend 5, [], by decide +kernel⟩,
  ⟨up, by decide +kernel⟩⟩

/-- States and operands that meet the hypotheses of `Obligations.StepKeepsInvariant`. -/
theorem test_met_StepKeepsInvariant :
  ∃ (s : State), s.inv = true :=
  ⟨({ up with pending := [.beatSend 5] }), by decide +kernel⟩

/-- States and operands that meet the hypotheses of `Obligations.WellFormedCommandsAnswer`. -/
theorem test_met_WellFormedCommandsAnswer :
  ∃ (c : Instr), c.wf = true :=
  ⟨.linkTrain 3 5, by decide +kernel⟩

/-- States and operands that meet the hypotheses of `Obligations.PinEvents`, clause by clause. -/
theorem test_met_PinEvents :
  (∃ (s : State), s.pins.modPg = false ∧ s.power.undervoltage = false ∧ bitAt s.power.good 0 = true) ∧
  (∃ (s : State) (now levels : Nat), s.pins.straps ≠ levels % 512 ∧ s.pins.modPg = true ∧ s.pins.releaseAt + 1000000 ≤ max s.chrono now) ∧
  (∃ (link : Nat), link < 6) ∧
  (∃ (s : State) (link : Nat), link < 6 ∧ s.power.released = true) ∧
  (∃ (s : State) (drive : Nat), drive < 4 ∧ s.cellarMode ≠ 1) ∧
  (∃ (s : State) (drive : Nat), drive < 4 ∧ s.cellarMode = 1 ∧ bitAt s.pins.drives drive = false) ∧
  (∃ (s : State) (drive : Nat), drive < 4 ∧ s.cellarMode = 1 ∧ bitAt s.pins.drives drive = true) ∧
  (∃ (s : State) (ms : Nat), s.pins.modPg = true ∧ 25 ≤ ms) :=
  ⟨⟨(up.modPins fun p => { p with modPg := false }), by decide +kernel, by decide +kernel, by decide +kernel⟩,
  ⟨up, 1000000, 0x1FE, by decide +kernel, by decide +kernel, by decide +kernel⟩,
  ⟨5, by decide +kernel⟩,
  ⟨up, 5, by decide +kernel, by decide +kernel⟩,
  ⟨up, 3, by decide +kernel, by decide +kernel⟩,
  ⟨(up.setFld CELLAR.MODE 1), 3, by decide +kernel, by decide +kernel, by decide +kernel⟩,
  ⟨((up.setFld CELLAR.MODE 1).modPins fun p => { p with drives := 8 }), 3, by decide +kernel, by decide +kernel, by decide +kernel⟩,
  ⟨up, 25, by decide +kernel, by decide +kernel⟩⟩

/-- States and operands that meet the hypotheses of `Obligations.InputEvents`, clause by clause. -/
theorem test_met_InputEvents :
  (∃ (s : State) (now : Nat), s.pins.tideIn = false ∧ s.power.released = true ∧ s.pins.tideArmed = true ∧ (∀ l, s.pins.tideLast = some l → l +
    10000 ≤ max s.chrono now)) ∧
  (∃ (s : State) (now l : Nat), s.pins.tideIn = false ∧ s.power.released = true ∧ s.pins.tideArmed = true ∧ s.pins.tideLast = some l ∧ max s.chrono
    now < l + 10000) ∧
  (∃ (s : State) (now : Nat), s.power.released = true ∧ s.pins.tideIn = true ∧ max s.pins.releaseAt s.pins.tideSince + s.fld GLOBAL.STUCK_SPAN *
    1000000000 ≤ max s.chrono now) ∧
  (∃ (s : State) (now : Nat), s.power.released = true ∧ s.pins.brakeLow = true ∧ max s.pins.releaseAt s.pins.brakeSince + s.fld GLOBAL.STUCK_SPAN *
    1000000000 ≤ max s.chrono now) ∧
  (∃ (s : State) (low : Bool), s.pins.perst0Low ≠ low ∧ s.host.p0Up = false) ∧
  (∃ (s : State) (now since : Nat), s.pins.perst0Since = some since ∧ s.pins.perst0Low = true ∧ since + 100000 ≤ max s.chrono now) ∧
  (∃ (s : State), s.x8x8 = true) ∧
  (∃ (s : State) (width : Nat), s.power.undervoltage = false ∧ 10000 ≤ width ∧ ¬(s.power.trip = true ∧ s.power.dieTemp < 900)) ∧
  (∃ (s : State) (width : Nat), s.power.undervoltage = false ∧ 10000 ≤ width ∧ s.power.trip = true ∧ s.power.dieTemp < 900) :=
  ⟨⟨(up.modPins fun p => { p with tideLast := some 5 }), 10005, by decide +kernel, by decide +kernel, by decide +kernel, by decide +kernel⟩,
  ⟨(up.modPins fun p => { p with tideLast := some 5 }), 10004, 5, by decide +kernel, by decide +kernel, by decide +kernel, by decide +kernel,
    by decide +kernel⟩,
  ⟨(up.modPins fun p => { p with tideIn := true }), 10000000000000, by decide +kernel, by decide +kernel, by decide +kernel⟩,
  ⟨(up.modPins fun p => { p with brakeLow := true }), 10000000000000, by decide +kernel, by decide +kernel, by decide +kernel⟩,
  ⟨up, true, by decide +kernel, by decide +kernel⟩,
  ⟨(up.modPins fun p => { p with perst0Low := true, perst0Since := some 7 }), 100007, 7, by decide +kernel, by decide +kernel, by decide +kernel⟩,
  ⟨(up.setFld GLOBAL.H_BIF 0), by decide +kernel⟩,
  ⟨up, 10000, by decide +kernel, by decide +kernel, by decide +kernel⟩,
  ⟨(up.modPower fun p => { p with trip := true, dieTemp := 899 }), 10000, by decide +kernel, by decide +kernel, by decide +kernel,
    by decide +kernel⟩⟩

/-- States and operands that meet the hypotheses of `Obligations.SupplyEvents`, clause by clause. -/
theorem test_met_SupplyEvents :
  (∃ (s : State) (level : Nat), s.power.undervoltage = true ∧ 4600 ≤ level) ∧
  (∃ (s : State) (level : Nat), s.power.undervoltage = false ∧ level ≤ 4400) ∧
  (∃ (s : State) (level : Nat), s.power.undervoltage = true ∧ level < 1200) ∧
  (∃ (s : State) (level : Nat), s.power.undervoltage = false ∧ level ≤ 4800) ∧
  (∃ (s : State) (level : Nat), s.power.undervoltage = false ∧ 4850 ≤ level) ∧
  (∃ (s : State) (level : Nat), s.power.undervoltage = false ∧ 6200 ≤ level) ∧
  (∃ (s : State) (level : Nat), s.power.overvoltage = true ∧ level ≤ 6100 ∧ s.power.trip = true) ∧
  (∃ (s : State) (level : Nat), s.power.overvoltage = true ∧ level ≤ 6100 ∧ s.power.trip = false) ∧
  (∃ (s : State) (temp : Int), s.power.undervoltage = false ∧ 950 ≤ temp) ∧
  (∃ (s : State) (temp : Int), s.power.undervoltage = false ∧ temp ≤ 900) ∧
  (∃ (s : State) (temp : Int), s.power.undervoltage = false ∧ s.power.trip = false ∧ 1050 ≤ temp) :=
  ⟨⟨(up.modPower fun p => { p with undervoltage := true, released := false, retention := true }), 4600, by decide +kernel, by decide +kernel⟩,
  ⟨up, 4400, by decide +kernel, by decide +kernel⟩,
  ⟨(up.modPower fun p => { p with undervoltage := true, retention := true }), 1199, by decide +kernel, by decide +kernel⟩,
  ⟨up, 4800, by decide +kernel, by decide +kernel⟩,
  ⟨up, 4850, by decide +kernel, by decide +kernel⟩,
  ⟨up, 6200, by decide +kernel, by decide +kernel⟩,
  ⟨(up.modPower fun p => { p with overvoltage := true, trip := true }), 6100, by decide +kernel, by decide +kernel, by decide +kernel⟩,
  ⟨(up.modPower fun p => { p with overvoltage := true }), 6100, by decide +kernel, by decide +kernel, by decide +kernel⟩,
  ⟨up, 950, by decide +kernel, by decide +kernel⟩,
  ⟨up, 900, by decide +kernel, by decide +kernel⟩,
  ⟨up, 1050, by decide +kernel, by decide +kernel, by decide +kernel⟩⟩

/-- States and operands that meet the hypotheses of `Obligations.PowerDomains`, clause by clause. -/
theorem test_met_PowerDomains :
  (∃ (s : State) (d : Nat), d < 6 ∧ s.power.undervoltage = false ∧ s.heldOff = false ∧ bitAt s.power.good 0 = true ∧ bitAt s.power.good d = false ∧
    s.switchedOff d = false ∧ (beforeDomain d).all (bitAt s.power.good) = true) ∧
  (∃ (s : State), s.power.released = true ∧ s.tiersReady = false ∧ (List.range 6).all s.good = true) ∧
  (∃ (s u : State) (now : Nat) (req : Requester), (s.at now).opens req 0x002 0x120 ∧ bitAt (s.word 0 0x002 0x120).toNat 3 = false ∧ bitAt (s.word 0
    0x002 0x120).toNat 5 = false ∧ u = (s.at now).stored req 0x002 0x120 (s.pdCtrlWord 3 true) ∧ u.pd3Idle = true) ∧
  (∃ (s u : State) (now : Nat) (req : Requester), (s.at now).opens req 0x002 0x120 ∧ bitAt (s.word 0 0x002 0x120).toNat 3 = false ∧ bitAt (s.word 0
    0x002 0x120).toNat 5 = false ∧ u = (s.at now).stored req 0x002 0x120 (s.pdCtrlWord 3 true) ∧ u.pd3Idle = false) ∧
  (∃ (s u : State) (now : Nat) (req : Requester), (s.at now).opens req 0x002 0x120 ∧ bitAt (s.word 0 0x002 0x120).toNat 3 = false ∧ bitAt (s.word 0
    0x002 0x120).toNat 5 = false ∧ u = (s.at now).stored req 0x002 0x120 (s.pdCtrlWord 5 true) ∧ u.pd5Idle = true) ∧
  (∃ (s : State), s.power.released = true ∧ s.heldOff = false ∧ bitAt s.power.good 3 = false ∧ s.bit LEAVE.PD3_OFF = false ∧ bitAt s.power.started
    3 = true) :=
  ⟨⟨(up.modPower fun p => { p with good := 0x1F, started := 0x1F }), 5, by decide +kernel, by decide +kernel, by decide +kernel, by decide +kernel,
    by decide +kernel, by decide +kernel, by decide +kernel⟩,
  ⟨(up.setFld LEAVE.TIERS_READY 0), by decide +kernel, by decide +kernel, by decide +kernel⟩,
  ⟨up, _, 0, .fn 0, opens_of (by decide +kernel) (by decide +kernel), by decide +kernel, by decide +kernel, rfl, by decide +kernel⟩,
  ⟨(up.modTiers fun p => { p with creamSpill := [(1, 2)] }), _, 0, .fn 0, opens_of (by decide +kernel) (by decide +kernel), by decide +kernel,
    by decide +kernel, rfl, by decide +kernel⟩,
  ⟨up, _, 0, .fn 0, opens_of (by decide +kernel) (by decide +kernel), by decide +kernel, by decide +kernel, rfl, by decide +kernel⟩,
  ⟨(up.modPower fun p => { p with good := 0x37 }), by decide +kernel, by decide +kernel, by decide +kernel, by decide +kernel, by decide +kernel⟩⟩

/-- States and operands that meet the hypotheses of `Obligations.LeaveAndCalibration`, clause by clause. -/
theorem test_met_LeaveAndCalibration :
  (∃ (s : State) (now slice cls : Nat) (x : Slice) (job : Job), s.slice? slice = some x ∧ s.job? x.job = some job ∧ s.power.released = true ∧
    x.state = .queued ∧ (cls = 4 ∨ (cls ≠ 0 ∧ cls = leaveClass x.page)) ∧ s.holdsLeave x.job cls (leavePage cls x.page) = false ∧ (s.at
    now).leaveDecide cls = .granted) ∧
  (∃ (s : State) (now slice cls : Nat) (x : Slice) (job : Job), s.slice? slice = some x ∧ s.job? x.job = some job ∧ s.power.released = true ∧
    x.state = .queued ∧ (cls = 4 ∨ (cls ≠ 0 ∧ cls = leaveClass x.page)) ∧ s.holdsLeave x.job cls (leavePage cls x.page) = false ∧ (s.at
    now).leaveDecide cls = .queued) ∧
  (∃ (s : State) (job : Nat), s.job? job = none) ∧
  (∃ (s : State) (now slice tick : Nat), s.leaveTick slice = some tick ∧ tick * 10000 ≤ max s.chrono now) ∧
  (∃ (s u : State) (now watts : Nat) (req : Requester), (s.at now).opens req 0x002 0x100 ∧ u = (s.at now).stored req 0x002 0x100 (putBits (s.word 0
    0x002 0x100) 9 0 watts) ∧ u.power.released = true) ∧
  (∃ (s : State), s.power.released = true ∧ s.cal.due = true ∧ s.cal.writing = none ∧ s.cal.lastAuto = none ∧ s.calBlocked = false ∧ s.cal.gen ≠
    0xFFFFFFFE) ∧
  (∃ (s : State) (now last : Nat), s.power.released = true ∧ s.cal.lastAuto = some last ∧ max s.chrono now < last + 60000000000) ∧
  (∃ (s u : State) (now : Nat) (req : Requester) (v : Word), (s.at now).opens req 0x004 0x108 ∧ u = (s.at now).stored req 0x004 0x108 (putBits v 0
    0 1) ∧ u.cal.writing = none) ∧
  (∃ (s : State) (w : CalWrite), s.cal.writing = some w ∧ s.cal.save = false ∧ w.slot = 2 ∧ w.data.valid = true) ∧
  (∃ (s : State) (w : CalWrite), s.cal.writing = some w ∧ s.cal.save = false ∧ w.slot = 2) :=
  ⟨⟨(up.modWork fun p => { p with slices := [(3, aSlice)], jobs := [(1, aJob)] }), 0, 3, 4, aSlice, aJob, by decide +kernel, by decide +kernel,
    by decide +kernel, by decide +kernel, by decide +kernel, by decide +kernel, by decide +kernel⟩,
  ⟨((up.modLeave fun p => { p with pacing := true }).modWork fun p => { p with slices := [(3, aSlice)], jobs := [(1, aJob)] }), 0, 3, 4, aSlice,
    aJob, by decide +kernel, by decide +kernel, by decide +kernel, by decide +kernel, by decide +kernel, by decide +kernel, by decide +kernel⟩,
  ⟨(up.modLeave fun p => { p with grants := [⟨4, 0x063, [1]⟩] }), 1, by decide +kernel⟩,
  ⟨((up.modLeave fun p => { p with queue := [⟨4, 0x063, [⟨3, 1, 9⟩]⟩] }).modWork fun p =>
    { p with slices := [(3, { aSlice with state := .waitLeave })], jobs := [(1, aJob)] }), 90000, 3, 9, by decide +kernel, by decide +kernel⟩,
  ⟨up, _, 0, 350, .fn 0, opens_of (by decide +kernel) (by decide +kernel), rfl, by decide +kernel⟩,
  ⟨(up.modCal fun p => { p with due := true }), by decide +kernel, by decide +kernel, by decide +kernel, by decide +kernel, by decide +kernel,
    by decide +kernel⟩,
  ⟨(up.modCal fun p => { p with due := true, lastAuto := some 4 }), 60000000003, 4, by decide +kernel, by decide +kernel, by decide +kernel⟩,
  ⟨up, _, 0, .fn 0, 0#64, opens_of (by decide +kernel) (by decide +kernel), rfl, by decide +kernel⟩,
  ⟨(up.modCal fun p => { p with writing := some ⟨2, factorySlot⟩ }), ⟨2, factorySlot⟩, by decide +kernel, by decide +kernel, by decide +kernel,
    by decide +kernel⟩,
  ⟨(up.modCal fun p => { p with writing := some ⟨2, factorySlot⟩ }), ⟨2, factorySlot⟩, by decide +kernel, by decide +kernel, by decide +kernel⟩⟩

/-- States and operands that meet the hypotheses of `Obligations.Resets`, clause by clause. -/
theorem test_met_Resets :
  (∃ (s : State), s.power.released = false ∧ s.pins.modPg = true ∧ bitAt s.power.good 0 = true) ∧
  (∃ (s : State), s.power.released = true) ∧
  (∃ (s u : State) (now : Nat) (req : Requester), (s.at now).opens req 0x003 0x108 ∧ u = (s.at now).stored req 0x003 0x108 1#64) ∧
  (∃ (s u : State) (now : Nat) (req : Requester), (s.at now).opens req 0x003 0x108 ∧ u = (s.at now).stored req 0x003 0x108 2#64 ∧ u.isLead = true ∧
    u.fabric.resetCopies = 0) ∧
  (∃ (s u : State) (now : Nat) (req : Requester), (s.at now).opens req 0x003 0x108 ∧ u = (s.at now).stored req 0x003 0x108 2#64 ∧ u.isLead = false) ∧
  (∃ (s : State) (p : Packet), s.power.released = true ∧ s.fabric.lastSerial ≠ some (leAt p.body 4 4) ∧ s.isLead = false) ∧
  (∃ (s : State) (p : Packet), s.fabric.lastSerial = some (leAt p.body 4 4)) ∧
  (∃ (s : State) (fn : Nat), fn < 32 ∧ s.power.released = true ∧ s.fnEnabled fn = true) ∧
  (∃ (s : State) (now at_ : Nat), s.fatalAt = some at_ ∧ s.power.released = true ∧ s.bit FAULT.AUTO_WARM = true ∧ at_ + 10000000 ≤ max s.chrono
    now) ∧
  (∃ (s : State), s.power.released = true ∧ s.absorbs .warm = false ∧ s.afterWeaker .warm = false) :=
  ⟨⟨(up.modPower fun p => { p with released := false }), by decide +kernel, by decide +kernel, by decide +kernel⟩,
  ⟨up, by decide +kernel⟩,
  ⟨up, _, 0, .fn 0, opens_of (by decide +kernel) (by decide +kernel), rfl⟩,
  ⟨up, _, 0, .fn 0, opens_of (by decide +kernel) (by decide +kernel), rfl, by decide +kernel, by decide +kernel⟩,
  ⟨(({ up with node := ⟨1, true⟩ }).modFabric fun p => { p with members := [0, 1] }), _, 0, .fn 0, opens_of (by decide +kernel)
    (by decide +kernel), rfl, by decide +kernel⟩,
  ⟨(({ up with node := ⟨1, true⟩ }).modFabric fun p => { p with members := [0, 1] }), { aPacket with body := [3, 0, 0, 0, 7, 0, 0, 0] },
    by decide +kernel, by decide +kernel, by decide +kernel⟩,
  ⟨(up.modFabric fun p => { p with lastSerial := some 7 }), { aPacket with body := [3, 0, 0, 0, 7, 0, 0, 0] }, by decide +kernel⟩,
  ⟨(up.modHost fun p => { p with numVfs := 31, p0Up := true }), 31, by decide +kernel, by decide +kernel, by decide +kernel⟩,
  ⟨({ (up.setFld FAULT.AUTO_WARM 1) with fatalAt := some 5 }), 10000005, 5, by decide +kernel, by decide +kernel, by decide +kernel,
    by decide +kernel⟩,
  ⟨up, by decide +kernel, by decide +kernel, by decide +kernel⟩⟩

/-- States and operands that meet the hypotheses of `Obligations.BlockResets`, clause by clause. -/
theorem test_met_BlockResets :
  (∃ (s u : State) (now page : Nat) (req : Requester), (s.at now).opens req page 0x010 ∧ isFixedPage page = false ∧ firstPage page ≠ 0x0D0 ∧ u =
    ((s.at now).stored req page 0x010 (putBits (s.word (ownerOf req page) page 0x010) 1 1 1)).unqueue page) ∧
  (∃ (s : State) (now fn page began : Nat), (s.page fn page).resetAt = some began ∧ max s.chrono now < began + 100000) ∧
  (∃ (s : State) (now fn page began : Nat), (s.page fn page).resetAt = some began ∧ began + 100000 ≤ max s.chrono now ∧ (s.page fn page).held = []
    ∧ (s.page fn page).syncWait = [] ∧ s.host.heldAccesses = []) :=
  ⟨⟨up, _, 0, 0x0A0, .fn 0, opens_of (by decide +kernel) (by decide +kernel), by decide +kernel, by decide +kernel, rfl⟩,
  ⟨(up.setPage 0 0x0A0 { resetAt := some 5, held := [⟨.cores, 0x108, 0#64⟩], syncWait := [.cores] }), 100004, 0, 0x0A0, 5, by decide +kernel,
    by decide +kernel⟩,
  ⟨(up.setPage 0 0x0A0 { resetAt := some 5 }), 100005, 0, 0x0A0, 5, by decide +kernel, by decide +kernel, by decide +kernel, by decide +kernel,
    by decide +kernel⟩⟩

/-- States and operands that meet the hypotheses of `Obligations.FieldsByAccessCode`. -/
theorem test_met_FieldsByAccessCode :
  ∃ (fs : List Field), (fs.Pairwise (fun f g => f.hi < g.lo ∨ g.hi < f.lo)) ∧ (∀ f ∈ fs, f.lo ≤ f.hi ∧ f.hi < 64) :=
  ⟨fieldsAt 0x000 0x110, by decide +kernel, by decide +kernel⟩

/-- States and operands that meet the hypotheses of `Obligations.PlainAccesses`, clause by clause. -/
theorem test_met_PlainAccesses :
  (∃ (off : Nat) (bs : Bytes), bs.length = 8 ∧ off % 8 = 0 ∧ off < 4096) ∧
  (∃ (s : State) (page off : Nat) (req : Requester) (bs : Bytes), bs ≠ [] ∧ bs.length ≤ 8 ∧ (bs.length < 8 ∨ off % 8 ≠ 0) ∧ off < 4096 ∧ presents
    req page = true ∧ s.answers page = true) ∧
  (∃ (req : Requester), presents req 0x098 = true) ∧
  (∃ (req : Requester), presents req 0x098 = true) ∧
  (∃ (fn : Nat), presents (.fn fn) 0x098 = false) :=
  ⟨⟨0x100, [1, 2, 3, 4, 5, 6, 7, 8], by decide +kernel, by decide +kernel, by decide +kernel⟩,
  ⟨up, 0x098, 0x104, .fn 0, [1, 2, 3, 4, 5, 6, 7, 8], by decide +kernel, by decide +kernel, by decide +kernel, by decide +kernel,
    by decide +kernel, by decide +kernel⟩,
  ⟨.fn 0, by decide +kernel⟩,
  ⟨.fn 0, by decide +kernel⟩,
  ⟨1, by decide +kernel⟩⟩

/-- States and operands that meet the hypotheses of `Obligations.PageControl`, clause by clause. -/
theorem test_met_PageControl :
  (∃ (s u : State) (now page : Nat) (req : Requester), s.lands now req page 0x040 1#64 u) ∧
  (∃ (s u : State) (now page : Nat) (req : Requester) (on : Bool), isFixedPage page = false ∧ s.lands now req page 0x010 (putBits (putBits (s.word
    (ownerOf req page) page 0x010) 0 0 (ofBool on)) 1 1 0) u) ∧
  (∃ (s u : State) (now page : Nat) (req : Requester) (on : Bool), isFixedPage page = false ∧ s.lands now req page 0x010 (putBits (putBits (s.word
    (ownerOf req page) page 0x010) 2 2 (ofBool on)) 1 1 0) u) ∧
  (∃ (s u : State) (now page : Nat) (req : Requester) (on : Bool), isFixedPage page = false ∧ firstPage page ≠ 0x0D0 ∧ s.lands now req page 0x010
    (putBits (putBits (s.word (ownerOf req page) page 0x010) 3 3 (ofBool on)) 1 1 0) u) ∧
  (∃ (s u : State) (now page : Nat) (req : Requester) (on : Bool), isFixedPage page = false ∧ firstPage page = 0x0D0 ∧ bitAt (s.word (ownerOf req
    page) page 0x010).toNat 3 ≠ on ∧ s.lands now req page 0x010 (putBits (putBits (s.word (ownerOf req page) page 0x010) 3 3 (ofBool on)) 1 1 0) u) ∧
  (∃ (s u : State) (now page : Nat) (req : Requester) (on : Bool), isFixedPage page = true ∧ s.lands now req page 0x010 (putBits (putBits (s.word
    (ownerOf req page) page 0x010) 3 3 (ofBool on)) 1 1 0) u) ∧
  (∃ (s : State) (page : Nat), s.accepts page = false ∧ s.work.jobs = []) ∧
  (∃ (s : State) (page : Nat) (req : Requester), presents req page = true ∧ s.answers page = true ∧ ((s.page (ownerOf req page) page).held.any (fun
    h => h.by_ == req) = true)) ∧
  (∃ (s : State) (page : Nat) (req : Requester), (s.page (ownerOf req page) page).held = []) :=
  ⟨⟨up, _, 0, 0x098, .fn 0, lands_of (by decide +kernel) (by decide +kernel)⟩,
  ⟨up, _, 0, 0x0A0, .fn 0, false, by decide +kernel, lands_of (by decide +kernel) (by decide +kernel)⟩,
  ⟨up, _, 0, 0x0A0, .fn 0, true, by decide +kernel, lands_of (by decide +kernel) (by decide +kernel)⟩,
  ⟨up, _, 0, 0x0A0, .fn 0, true, by decide +kernel, by decide +kernel, lands_of (by decide +kernel) (by decide +kernel)⟩,
  ⟨up, _, 0, 0x0D0, .fn 0, true, by decide +kernel, by decide +kernel, by decide +kernel, lands_of (by decide +kernel) (by decide +kernel)⟩,
  ⟨up, _, 0, 0x001, .fn 0, true, by decide +kernel, lands_of (by decide +kernel) (by decide +kernel)⟩,
  ⟨((up.setFld (HDR.ENABLE.on 0x0A0) 0).modWork fun p => { p with slices := [(3, { aSlice with page := 0x0A0 })] }), 0x0A0, by decide +kernel,
    by decide +kernel⟩,
  ⟨(up.setPage 0 0x0A0 { resetAt := some 5, held := [⟨.cores, 0x108, 0#64⟩] }), 0x0A0, .cores, by decide +kernel, by decide +kernel,
    by decide +kernel⟩,
  ⟨up, 0x0A0, .fn 0, by decide +kernel⟩⟩

/-- States and operands that meet the hypotheses of `Obligations.PageErrorsAndInterrupts`, clause by clause. -/
theorem test_met_PageErrorsAndInterrupts :
  (∃ (s u : State) (now page index : Nat) (req : Requester), implementsErr page (index % 64) = true ∧ s.lands now req page 0x038 (BitVec.ofNat 64
    (index % 64 + 0x100)) u) ∧
  (∃ (s u : State) (now page index : Nat) (req : Requester), implementsErr page (index % 64) = false ∧ s.lands now req page 0x038 (BitVec.ofNat 64
    (index % 64 + 0x100)) u) ∧
  (∃ (s : State) (fn page n : Nat), (s.page fn page).inject = some n) ∧
  (∃ (s u : State) (now page : Nat) (req : Requester), s.lands now req page 0x030 0x100#64 u) ∧
  (∃ (s : State) (page : Nat), s.answers page = true) ∧
  (∃ (s : State) (page : Nat), s.answers page = true ∧ page ∈ fatalPages) ∧
  (∃ (s : State) (page : Nat), s.answers page = true ∧ page ∉ fatalPages) ∧
  (∃ (s : State) (fn page n source off accPage : Nat), n < 64 ∧ off < 4096 ∧ page < 0x4000 ∧ source < 256 ∧ accPage < 65536 ∧ (s.word fn page
    0x028).getLsbD n = false ∧ s.fldFn fn (HDR.VALID.on page) = 0) ∧
  (∃ (s : State) (fn page n : Nat), (s.word fn page 0x028).getLsbD n = true) ∧
  (∃ (s u : State) (now page : Nat) (req : Requester) (v : Word), s.lands now req page 0x058 v u) ∧
  (∃ (s : State) (now fn page able : Nat), s.answers page = true ∧ s.canDeliver fn page = true ∧ 0 < (s.page fn page).pending ∧ (s.page fn
    page).ableAt = some able ∧ max (s.page fn page).oldest able + s.fldFn fn (HDR.MOD_TIME.on page) * 1000 ≤ max s.chrono now) ∧
  (∃ (s : State) (now fn page able : Nat), s.answers page = true ∧ s.canDeliver fn page = true ∧ (s.page fn page).ableAt = some able ∧ (s.page fn
    page).pending < max 1 (s.fldFn fn (HDR.MOD_EVENTS.on page)) ∧ max s.chrono now < max (s.page fn page).oldest able + s.fldFn fn (HDR.MOD_TIME.on
    page) * 1000) ∧
  (∃ (s : State) (fn page : Nat), s.canDeliver fn page = false) :=
  ⟨⟨up, _, 0, 0x0A0, 16, .fn 0, by decide +kernel, lands_of (by decide +kernel) (by decide +kernel)⟩,
  ⟨up, _, 0, 0x0A0, 15, .fn 0, by decide +kernel, lands_of (by decide +kernel) (by decide +kernel)⟩,
  ⟨(up.setPage 0 0x0A0 { inject := some 17 }), 0, 0x0A0, 17, by decide +kernel⟩,
  ⟨up, _, 0, 0x0A0, .fn 0, lands_of (by decide +kernel) (by decide +kernel)⟩,
  ⟨up, 0x0A0, by decide +kernel⟩,
  ⟨up, 0x050, by decide +kernel, by decide +kernel⟩,
  ⟨up, 0x0A0, by decide +kernel, by decide +kernel⟩,
  ⟨up, 0, 0x0A0, 63, 255, 4095, 65535, by decide +kernel, by decide +kernel, by decide +kernel, by decide +kernel, by decide +kernel,
    by decide +kernel, by decide +kernel⟩,
  ⟨(up.setWord 0 0x0A0 0x028 (BitVec.allOnes 64)), 0, 0x0A0, 17, by decide +kernel⟩,
  ⟨(up.setPage 0 0x0A0 { pending := 3 }), _, 0, 0x0A0, .fn 0, 0x1800000#64, lands_of (by decide +kernel) (by decide +kernel)⟩,
  ⟨((up.setWord 0 0x0A0 0x058 0x1000501800000#64).setPage 0 0x0A0 { pending := 3, oldest := 7, ableAt := some 5 }), 1007, 0, 0x0A0, 5,
    by decide +kernel, by decide +kernel, by decide +kernel, by decide +kernel, by decide +kernel⟩,
  ⟨((up.setWord 0 0x0A0 0x058 0x1050001800000#64).setPage 0 0x0A0 { pending := 4, oldest := 7, ableAt := some 5 }), 1006, 0, 0x0A0, 5,
    by decide +kernel, by decide +kernel, by decide +kernel, by decide +kernel, by decide +kernel⟩,
  ⟨(up.setPage 0 0x0A0 { pending := 3 }), 0, 0x0A0, by decide +kernel⟩⟩

/-- States and operands that meet the hypotheses of `Obligations.MemoryAndExtents`, clause by clause. -/
theorem test_met_MemoryAndExtents :
  (∃ (s u : State) (now : Nat) (req : Requester) (v : Word), s.lands now req 0x060 0x100 v u ∧ u.work.slices = [] ∧ u.bit VAT.BUSY = false ∧
    u.regionExtents = 0 ∧ bitsOf v 7 0 ≤ 64 ∧ bitsOf v 15 8 ≤ 192 ∧ bitsOf v 23 16 ≤ 64 ∧ bitsOf v 7 0 + bitsOf v 15 8 + bitsOf v 23 16 ≤ 208) ∧
  (∃ (s u : State) (now : Nat) (req : Requester) (v : Word), s.lands now req 0x060 0x100 v u ∧ u.work.slices ≠ []) ∧
  (∃ (s : State) (id : Nat) (rest : List Nat) (x : Slice), s.power.released = true ∧ s.tiers.extentWaits = id :: rest ∧ s.slice? id = some x ∧
    x.wants ≤ s.sliceFree) ∧
  (∃ (s : State) (id : Nat) (rest : List Nat) (x : Slice), s.power.released = true ∧ s.tiers.extentWaits = id :: rest ∧ s.slice? id = some x ∧
    s.sliceFree < x.wants) ∧
  (∃ (s : State) (now id wants : Nat) (x : Slice) (job : Job), s.power.released = true ∧ s.slice? id = some x ∧ s.job? x.job = some job ∧ (s.at
    now).sliceMay id x job = true ∧ s.tiers.extentWaits = [] ∧ min 256 (max 1 wants) ≤ s.sliceFree) ∧
  (∃ (s : State) (now id wants : Nat) (x : Slice) (job : Job), s.power.released = true ∧ s.slice? id = some x ∧ s.job? x.job = some job ∧ (s.at
    now).sliceMay id x job = true ∧ s.sliceFree < min 256 (max 1 wants)) ∧
  (∃ (s : State) (unit : Nat), s.power.released = true ∧ unit < 4) ∧
  (∃ (s : State) (unit : Nat), s.power.released = true ∧ unit < 16) ∧
  (∃ (s : State), s.power.released = true ∧ s.tiersReady = true ∧ s.answers 0x061 = true) ∧
  (∃ (s : State) (line : Nat), s.power.released = true ∧ s.tiersReady = true ∧ s.answers 0x062 = true ∧ line % 64 = 0 ∧ spaceOf line = .skim) :=
  ⟨⟨up, _, 0, .fn 0, 0x101010#64, lands_of (by decide +kernel) (by decide +kernel), by decide +kernel, by decide +kernel, by decide +kernel,
    by decide +kernel, by decide +kernel, by decide +kernel, by decide +kernel⟩,
  ⟨(up.modWork fun p => { p with slices := [(3, aSlice)] }), _, 0, .fn 0, 0x101010#64, lands_of (by decide +kernel) (by decide +kernel),
    by decide +kernel⟩,
  ⟨((up.modTiers fun p => { p with extentWaits := [3] }).modWork fun p =>
    { p with slices := [(3, { aSlice with wants := 4, state := .waitExtents })], jobs := [(1, aJob)] }), 3, [],
    { aSlice with wants := 4, state := .waitExtents }, by decide +kernel, by decide +kernel, by decide +kernel, by decide +kernel⟩,
  ⟨((up.modTiers fun p => { p with extentWaits := [3], sliceUsed := 4090 }).modWork fun p =>
    { p with slices := [(3, { aSlice with wants := 4, state := .waitExtents })], jobs := [(1, aJob)] }), 3, [],
    { aSlice with wants := 4, state := .waitExtents }, by decide +kernel, by decide +kernel, by decide +kernel, by decide +kernel⟩,
  ⟨(up.modWork fun p => { p with slices := [(3, aSlice)], jobs := [(1, aJob)] }), 0, 3, 0, aSlice, aJob, by decide +kernel, by decide +kernel,
    by decide +kernel, by decide +kernel, by decide +kernel, by decide +kernel⟩,
  ⟨((up.modTiers fun p => { p with sliceUsed := 4090 }).modWork fun p => { p with slices := [(3, aSlice)], jobs := [(1, aJob)] }), 0, 3, 300,
    aSlice, aJob, by decide +kernel, by decide +kernel, by decide +kernel, by decide +kernel, by decide +kernel⟩,
  ⟨up, 3, by decide +kernel, by decide +kernel⟩,
  ⟨up, 15, by decide +kernel, by decide +kernel⟩,
  ⟨up, by decide +kernel, by decide +kernel, by decide +kernel⟩,
  ⟨up, 0x010000000040, by decide +kernel, by decide +kernel, by decide +kernel, by decide +kernel, by decide +kernel⟩⟩

/-- States and operands that meet the hypotheses of `Obligations.RegionCommands`, clause by clause. -/
theorem test_met_RegionCommands :
  (∃ (s u : State) (now slot want : Nat) (req : Requester), s.lands now req 0x060 0x130 (BitVec.ofNat 64 (slot % 1024 + 1 * 65536)) u ∧ u.bit
    VAT.BUSY = false ∧ (u.allocResult (viewOf req) (slot % 1024) want).1 = 0) ∧
  (∃ (s u : State) (now slot want : Nat) (req : Requester), s.lands now req 0x060 0x130 (BitVec.ofNat 64 (slot % 1024 + 1 * 65536)) u ∧ u.bit
    VAT.BUSY = false ∧ (u.allocResult (viewOf req) (slot % 1024) want).1 ≠ 0) ∧
  (∃ (s u : State) (now slot : Nat) (req : Requester), s.lands now req 0x060 0x130 (BitVec.ofNat 64 (slot % 1024 + 1 * 65536)) u ∧ u.bit VAT.BUSY =
    true) ∧
  (∃ (s u : State) (now slot : Nat) (req : Requester), s.lands now req 0x060 0x130 (BitVec.ofNat 64 (slot % 1024 + 2 * 65536)) u ∧ u.bit VAT.BUSY =
    false) ∧
  (∃ (s u : State) (now slot : Nat) (req : Requester), s.lands now req 0x060 0x130 (BitVec.ofNat 64 (slot % 1024 + 3 * 65536)) u ∧ u.bit VAT.BUSY =
    false) ∧
  (∃ (s : State) (c : RegionCmd), s.tiers.regionCmd = some c ∧ c.result ≠ 0 ∧ c.result < 16) ∧
  (∃ (s : State) (c : RegionCmd) (g : Region), s.tiers.regionCmd = some c ∧ c.result = 0 ∧ c.op = 2 ∧ Table.find? s.tiers.regions c.slot = some g) ∧
  (∃ (s : State) (c : RegionCmd) (g : Region), s.tiers.regionCmd = some c ∧ c.result = 0 ∧ c.op = 3 ∧ c.zero = none ∧ Table.find? s.tiers.regions
    c.slot = some g) :=
  ⟨⟨((up.setFld (VAT.REGION_D.at 1) 0x1000).setFld (VAT.REGION_D.at 3) 1), _, 0, 1023, 0x001000000000, .fn 0, lands_of (by decide +kernel)
    (by decide +kernel), by decide +kernel, by decide +kernel⟩,
  ⟨up, _, 0, 1023, 0x001000000000, .fn 0, lands_of (by decide +kernel) (by decide +kernel), by decide +kernel, by decide +kernel⟩,
  ⟨(up.setFld VAT.BUSY 1), _, 0, 1023, .fn 0, lands_of (by decide +kernel) (by decide +kernel), by decide +kernel⟩,
  ⟨(up.modTiers fun p => { p with regions := [(7, aRegion)] }), _, 0, 7, .fn 0, lands_of (by decide +kernel) (by decide +kernel),
    by decide +kernel⟩,
  ⟨(up.modTiers fun p => { p with regions := [(7, aRegion)] }), _, 0, 7, .fn 0, lands_of (by decide +kernel) (by decide +kernel),
    by decide +kernel⟩,
  ⟨((up.modTiers fun p => { p with regionCmd := some ⟨7, 15, none, 1⟩ }).setFld VAT.BUSY 1), ⟨7, 15, none, 1⟩, by decide +kernel,
    by decide +kernel, by decide +kernel⟩,
  ⟨({ ((up.modTiers fun p => { p with regionCmd := some ⟨7, 0, none, 2⟩, regions := [(7, aRegion)] }).setFld VAT.BUSY 1) with mem := [(0x001000000005, 3#8)] }),
    ⟨7, 0, none, 2⟩, aRegion, by decide +kernel, by decide +kernel, by decide +kernel, by decide +kernel⟩,
  ⟨((up.modTiers fun p => { p with regionCmd := some ⟨7, 0, none, 3⟩, regions := [(7, aRegion)] }).setFld VAT.BUSY 1), ⟨7, 0, none, 3⟩, aRegion,
    by decide +kernel, by decide +kernel, by decide +kernel, by decide +kernel, by decide +kernel⟩⟩

/-- States and operands that meet the hypotheses of `Obligations.CellarDrives`, clause by clause. -/
theorem test_met_CellarDrives :
  (∃ (s u : State) (now : Nat) (req : Requester), s.lands now req 0x063 0x100 (putBits (s.word 0 0x063 0x100) 1 0 2) u ∧ bitsOf (s.word 0 0x063
    0x100) 1 0 = 0) ∧
  (∃ (s u : State) (now mode : Nat) (req : Requester), s.lands now req 0x063 0x100 (putBits (s.word 0 0x063 0x100) 1 0 mode) u ∧ bitsOf (s.word 0
    0x063 0x100) 1 0 ≠ 0) ∧
  (∃ (s : State) (d : Nat) (x : Drive), d < 16 ∧ s.drive? d = some x ∧ x.present = true ∧ x.ready = false ∧ x.failed = false ∧ s.c1Up = true ∧
    s.tiers.cellarLink = true ∧ bitAt (s.fld CELLAR.DRIVE_OOS) d = false ∧ x.hasPage = false ∧ 2 ≤ s.skimFree) ∧
  (∃ (s : State) (d : Nat) (x : Drive), d < 16 ∧ s.drive? d = some x ∧ x.present = true ∧ x.ready = false ∧ x.failed = false ∧ s.c1Up = true ∧
    s.tiers.cellarLink = true ∧ bitAt (s.fld CELLAR.DRIVE_OOS) d = false ∧ x.hasPage = false ∧ s.skimFree < 2) ∧
  (∃ (s u : State) (now : Nat) (req : Requester), s.lands now req 0x063 0x110 (putBits (s.word 0 0x063 0x110) 32 32 1) u ∧ s.cellarMode = 2 ∧
    s.tiers.cellarLink = true ∧ s.tiers.drives = []) ∧
  (∃ (s : State), s.tiers.drives = []) ∧
  (∃ (s u : State) (now mask d : Nat) (req : Requester) (x : Drive), s.lands now req 0x063 0x110 (putBits (putBits (s.word 0 0x063 0x110) 32 32 0)
    15 0 mask) u ∧ s.drive? d = some x ∧ d < 16 ∧ bitAt mask d = true) ∧
  (∃ (s : State) (now d c : Nat) (x : Drive) (k : DriveCmd), d < 16 ∧ s.drive? d = some x ∧ Table.find? x.cmds c = some k ∧ k.abortAt = none ∧
    k.issuedAt + s.fld CELLAR.CMD_TIMEOUT * 1000000 ≤ max s.chrono now) ∧
  (∃ (s : State) (now d c at_ : Nat) (x : Drive) (k : DriveCmd), d < 16 ∧ s.drive? d = some x ∧ Table.find? x.cmds c = some k ∧ k.abortAt = some
    at_ ∧ at_ + s.fld CELLAR.CMD_TIMEOUT * 1000000 ≤ max s.chrono now) ∧
  (∃ (s : State) (d c status : Nat) (x : Drive) (k : DriveCmd), d < 16 ∧ s.drive? d = some x ∧ Table.find? x.cmds c = some k ∧ status ≠ 0) ∧
  (∃ (s : State) (d c j : Nat) (x : Drive) (k : DriveCmd), d < 16 ∧ s.drive? d = some x ∧ Table.find? x.cmds c = some k ∧ k.why = .write j) ∧
  (∃ (s : State) (d : Nat) (x : Drive), d < 16 ∧ s.drive? d = some x) ∧
  (∃ (s : State) (d : Nat) (x : Drive), s.drive? d = some x ∧ x.cmds = []) ∧
  (∃ (s : State), s.c1Up = true ∧ s.tiers.cellarLink = false ∧ s.cellarMode ≠ 2) ∧
  (∃ (s : State), s.c1Up = true ∧ s.tiers.cellarLink = false ∧ s.cellarMode = 2) :=
  ⟨⟨up, _, 0, .fn 0, lands_of (by decide +kernel) (by decide +kernel), by decide +kernel⟩,
  ⟨(up.setFld CELLAR.MODE 2), _, 0, 1, .fn 0, lands_of (by decide +kernel) (by decide +kernel), by decide +kernel⟩,
  ⟨(up.modTiers fun p => { p with c1Out := true, cellarLink := true, drives := [(15, { present := true })] }), 15, { present := true },
    by decide +kernel, by decide +kernel, by decide +kernel, by decide +kernel, by decide +kernel, by decide +kernel, by decide +kernel,
    by decide +kernel, by decide +kernel, by decide +kernel⟩,
  ⟨(up.modTiers fun p => { p with c1Out := true, cellarLink := true, skimOther := 1048576, drives := [(15, { present := true })] }), 15,
    { present := true }, by decide +kernel, by decide +kernel, by decide +kernel, by decide +kernel, by decide +kernel, by decide +kernel,
    by decide +kernel, by decide +kernel, by decide +kernel, by decide +kernel⟩,
  ⟨((up.setFld CELLAR.MODE 2).modTiers fun p => { p with c1Out := true, cellarLink := true }), _, 0, .fn 0, lands_of (by decide +kernel)
    (by decide +kernel), by decide +kernel, by decide +kernel, by decide +kernel⟩,
  ⟨up, by decide +kernel⟩,
  ⟨(up.modTiers fun p => { p with drives := [(15, { present := true, failed := true })] }), _, 0, 0x8000, 15, .fn 0,
    { present := true, failed := true }, lands_of (by decide +kernel) (by decide +kernel), by decide +kernel, by decide +kernel, by decide +kernel⟩,
  ⟨(up.modTiers fun p => { p with drives := [(15, { present := true, ready := true, cmds := [(4, ⟨.write 1, 1, 0, 8, 6, none⟩)] })] }), 5000000006,
    15, 4, { present := true, ready := true, cmds := [(4, ⟨.write 1, 1, 0, 8, 6, none⟩)] }, ⟨.write 1, 1, 0, 8, 6, none⟩, by decide +kernel,
    by decide +kernel, by decide +kernel, by decide +kernel, by decide +kernel⟩,
  ⟨((up.modTiers fun p =>
    { p with drives := [(15, { present := true, ready := true, resets := [5, 6], cmds := [(4, ⟨.write 1, 1, 0, 8, 6, some 9⟩)] })] }).modWork fun p
    => { p with jobs := [(1, aJob)] }), 5000000009, 15, 4, 9,
    { present := true, ready := true, resets := [5, 6], cmds := [(4, ⟨.write 1, 1, 0, 8, 6, some 9⟩)] }, ⟨.write 1, 1, 0, 8, 6, some 9⟩,
    by decide +kernel, by decide +kernel, by decide +kernel, by decide +kernel, by decide +kernel⟩,
  ⟨((up.modTiers fun p => { p with drives := [(15, { present := true, ready := true, cmds := [(4, ⟨.write 1, 1, 0, 8, 6, none⟩)] })] }).modWork fun
    p => { p with jobs := [(1, aJob)] }), 15, 4, 1, { present := true, ready := true, cmds := [(4, ⟨.write 1, 1, 0, 8, 6, none⟩)] }, ⟨.write 1, 1,
    0, 8, 6, none⟩, by decide +kernel, by decide +kernel, by decide +kernel, by decide +kernel⟩,
  ⟨((up.modTiers fun p => { p with drives := [(15, { present := true, ready := true, cmds := [(4, ⟨.write 1, 1, 0, 8, 6, none⟩)] })] }).modWork fun
    p => { p with jobs := [(1, aJob)] }), 15, 4, 1, { present := true, ready := true, cmds := [(4, ⟨.write 1, 1, 0, 8, 6, none⟩)] }, ⟨.write 1, 1,
    0, 8, 6, none⟩, by decide +kernel, by decide +kernel, by decide +kernel, by decide +kernel⟩,
  ⟨((up.modTiers fun p =>
    { p with drives := [(15, { present := true, ready := true, hasPage := true, cmds := [(4, ⟨.write 1, 1, 0, 8, 6, none⟩)] })], skimOther := 2 }).modWork
    fun p => { p with jobs := [(1, aJob)] }), 15, { present := true, ready := true, hasPage := true, cmds := [(4, ⟨.write 1, 1, 0, 8, 6, none⟩)] },
    by decide +kernel, by decide +kernel⟩,
  ⟨(up.modTiers fun p => { p with drives := [(15, { present := true })] }), 15, { present := true }, by decide +kernel, by decide +kernel⟩,
  ⟨((up.modTiers fun p => { p with c1Out := true }).setFld CELLAR.MODE 1), by decide +kernel, by decide +kernel, by decide +kernel⟩,
  ⟨((up.modTiers fun p => { p with c1Out := true }).setFld CELLAR.MODE 2), by decide +kernel, by decide +kernel, by decide +kernel⟩⟩

/-- States and operands that meet the hypotheses of `Obligations.BiasCommands`, clause by clause. -/
theorem test_met_BiasCommands :
  (∃ (s u : State) (now region page count : Nat) (req : Requester) (g : Region), s.lands now req 0x009 0x100 (biasWord 1 region page count) u ∧
    u.host.bias = none ∧ Table.find? u.tiers.regions (region % 1024) = some g ∧ u.biasResult 1 (region % 1024) (page % 2 ^ 26) (count % 128) = 0) ∧
  (∃ (s u : State) (now region page count : Nat) (req : Requester) (g : Region), s.lands now req 0x009 0x100 (biasWord 2 region page count) u ∧
    u.host.bias = none ∧ Table.find? u.tiers.regions (region % 1024) = some g ∧ u.biasResult 2 (region % 1024) (page % 2 ^ 26) (count % 128) = 0) ∧
  (∃ (s u : State) (now region page : Nat) (req : Requester) (g : Region), s.lands now req 0x009 0x100 (biasWord 3 region page 1) u ∧ u.host.bias =
    none ∧ Table.find? u.tiers.regions (region % 1024) = some g ∧ u.biasResult 3 (region % 1024) (page % 2 ^ 26) 1 = 0) ∧
  (∃ (s u : State) (now region page : Nat) (req : Requester), s.lands now req 0x009 0x100 (biasWord 3 region page 1) u ∧ u.host.bias.isSome = true) ∧
  (∃ (s : State) (b : BiasCmd) (g : Region), s.host.bias = some b ∧ Table.find? s.tiers.regions b.region = some g ∧ (b.toDevice && !(s.heldLines
    (g.base + b.page * 4096) (b.count * 4096)).isEmpty) = false ∧ s.host.biasWaits = [] ∧ s.host.heldAccesses = []) ∧
  (∃ (s : State) (b : BiasCmd) (g : Region), s.host.bias = some b ∧ Table.find? s.tiers.regions b.region = some g ∧ b.toDevice = true ∧
    (s.heldLines (g.base + b.page * 4096) (b.count * 4096)).isEmpty = false) :=
  ⟨⟨(up.modTiers fun p => { p with regions := [(1023, { aRegion with hostPages := [0] })] }), _, 0, 1023, 0, 16, .fn 0,
    { aRegion with hostPages := [0] }, lands_of (by decide +kernel) (by decide +kernel), by decide +kernel, by decide +kernel, by decide +kernel⟩,
  ⟨(up.modTiers fun p => { p with regions := [(1023, aRegion)] }), _, 0, 1023, 15, 1, .fn 0, aRegion, lands_of (by decide +kernel)
    (by decide +kernel), by decide +kernel, by decide +kernel, by decide +kernel⟩,
  ⟨(up.modTiers fun p => { p with regions := [(1023, { aRegion with hostPages := [3] })] }), _, 0, 1023, 3, .fn 0,
    { aRegion with hostPages := [3] }, lands_of (by decide +kernel) (by decide +kernel), by decide +kernel, by decide +kernel, by decide +kernel⟩,
  ⟨(up.modHost fun p => { p with bias := some ⟨1, 0, 1, true⟩ }), _, 0, 1023, 3, .fn 0, lands_of (by decide +kernel) (by decide +kernel),
    by decide +kernel⟩,
  ⟨((up.modHost fun p => { p with bias := some ⟨7, 3, 2, false⟩ }).modTiers fun p => { p with regions := [(7, aRegion)] }), ⟨7, 3, 2, false⟩,
    aRegion, by decide +kernel, by decide +kernel, by decide +kernel, by decide +kernel, by decide +kernel⟩,
  ⟨((up.modHost fun p => { p with bias := some ⟨7, 0, 1, true⟩, snoopFilter := [0x001000000040] }).modTiers fun p =>
    { p with regions := [(7, aRegion)] }), ⟨7, 0, 1, true⟩, aRegion, by decide +kernel, by decide +kernel, by decide +kernel, by decide +kernel⟩⟩

/-- States and operands that meet the hypotheses of `Obligations.HostAccesses`, clause by clause. -/
theorem test_met_HostAccesses :
  (∃ (s : State) (hpa base : Nat) (g : Region), s.host.hdm = some base ∧ s.power.released = true ∧ s.host.p0Up = true ∧ base ≤ hpa ∧ (hpa - base) /
    64 * 64 < s.bar4Size 0 ∧ s.hitRegion 0 ((hpa - base) / 64 * 64) 64 = some g ∧ s.hdmHeld (g.base + ((hpa - base) / 64 * 64 - g.aperture)) =
    false) ∧
  (∃ (s : State) (hpa base : Nat) (g : Region), s.host.hdm = some base ∧ s.power.released = true ∧ s.host.p0Up = true ∧ base ≤ hpa ∧ (hpa - base) /
    64 * 64 < s.bar4Size 0 ∧ s.hitRegion 0 ((hpa - base) / 64 * 64) 64 = some g ∧ s.hdmHeld (g.base + ((hpa - base) / 64 * 64 - g.aperture)) =
    true) ∧
  (∃ (s : State) (fn reqId off : Nat) (b : Bytes) (poisoned : Bool) (g : Region), fn < 32 ∧ s.reaches fn = true ∧ b ≠ [] ∧ off + b.length ≤
    s.bar4Size fn ∧ s.hitRegion fn off b.length = some g ∧ s.bar4Allowed reqId g true = true ∧ s.stillHeld s.host.heldAccesses (.bar4 (g.base +
    (off - g.aperture)) b.length (some b) poisoned) = false) ∧
  (∃ (s : State) (fn off : Nat) (b : Bytes), fn < 32 ∧ s.reaches fn = true ∧ b ≠ [] ∧ off + b.length ≤ s.bar4Size fn ∧ s.hitRegion fn off b.length
    = none) ∧
  (∃ (s : State) (fn reqId off len : Nat) (g : Region), fn < 32 ∧ s.reaches fn = true ∧ 0 < len ∧ off + len ≤ s.bar4Size fn ∧ s.hitRegion fn off
    len = some g ∧ s.bar4Allowed reqId g false = false) ∧
  (∃ (s : State) (fn reqId off len : Nat) (g : Region), fn < 32 ∧ s.reaches fn = true ∧ 0 < len ∧ off + len ≤ s.bar4Size fn ∧ s.hitRegion fn off
    len = some g ∧ s.bar4Allowed reqId g false = true ∧ s.stillHeld s.host.heldAccesses (.bar4 (g.base + (off - g.aperture)) len none false) =
    false) ∧
  (∃ (s : State) (fn off len : Nat) (g : Region), s.hitRegion fn off len = some g) :=
  ⟨⟨((up.modHost fun p => { p with p0Up := true, cxl := true, hdm := some 0x1000 }).modTiers fun p => { p with regions := [(7, aRegion)] }), 0x1045,
    0x1000, aRegion, by decide +kernel, by decide +kernel, by decide +kernel, by decide +kernel, by decide +kernel, by decide +kernel,
    by decide +kernel⟩,
  ⟨((up.modHost fun p => { p with p0Up := true, cxl := true, hdm := some 0x1000, snoops := [⟨0x001000000040, [.held], 3⟩] }).modTiers fun p =>
    { p with regions := [(7, aRegion)] }), 0x1045, 0x1000, aRegion, by decide +kernel, by decide +kernel, by decide +kernel, by decide +kernel,
    by decide +kernel, by decide +kernel, by decide +kernel⟩,
  ⟨((up.modHost fun p => { p with p0Up := true }).modTiers fun p => { p with regions := [(7, aRegion)] }), 0, 9, 8, [1, 2], false, aRegion,
    by decide +kernel, by decide +kernel, by decide +kernel, by decide +kernel, by decide +kernel, by decide +kernel, by decide +kernel⟩,
  ⟨(up.modHost fun p => { p with p0Up := true }), 0, 8, [1, 2], by decide +kernel, by decide +kernel, by decide +kernel, by decide +kernel,
    by decide +kernel⟩,
  ⟨((((up.modHost fun p => { p with p0Up := true }).modTiers fun p => { p with regions := [(7, { aRegion with peerRd := false })] }).setFld
    (HOSTIF.PEER_VALID.at 0) 1).setFld (HOSTIF.PEER_REQ_ID.at 0) 9), 0, 9, 8, 2, { aRegion with peerRd := false }, by decide +kernel,
    by decide +kernel, by decide +kernel, by decide +kernel, by decide +kernel, by decide +kernel⟩,
  ⟨((up.modHost fun p => { p with p0Up := true }).modTiers fun p => { p with regions := [(7, aRegion)] }), 0, 9, 8, 2, aRegion, by decide +kernel,
    by decide +kernel, by decide +kernel, by decide +kernel, by decide +kernel, by decide +kernel, by decide +kernel⟩,
  ⟨(up.modTiers fun p => { p with regions := [(7, aRegion)] }), 0, 8, 2, aRegion, by decide +kernel⟩⟩

/-- States and operands that meet the hypotheses of `Obligations.Translation`, clause by clause. -/
theorem test_met_Translation :
  (∃ (s : State) (fn : Nat), fn < 32 ∧ s.reaches fn = true) ∧
  (∃ (s : State) (fn page : Nat), fn < 32 ∧ s.host.invalidations.contains (fn, page) = true ∧ ((s.host.reads.any fun (e : Nat × HostRead) => e.2.fn
    == fn && e.2.touches page && !s.host.atsRequests.any fun a => a.read == e.1) = false)) ∧
  (∃ (s : State) (fn page : Nat), fn < 32 ∧ ((s.host.reads.any fun (e : Nat × HostRead) => e.2.fn == fn && e.2.touches page &&
    !s.host.atsRequests.any fun a => a.read == e.1) = true)) ∧
  (∃ (s : State) (fn page : Nat) (a : Ats) (r : HostRead), fn < 32 ∧ s.reaches fn = true ∧ a.fn = fn ∧ a.page = page ∧ s.host.atsRequests = [a] ∧
    Table.find? s.host.reads a.read = some r ∧ s.host.atc.length < 8192) ∧
  (∃ (s : State) (fn page : Nat) (a : Ats) (r : HostRead), fn < 32 ∧ s.reaches fn = true ∧ (((s.host.atsRequests.take 128).find? fun a => a.fn ==
    fn && a.page == page) = some a) ∧ Table.find? s.host.reads a.read = some r) :=
  ⟨⟨(up.modHost fun p => { p with p0Up := true, atc := [(0, 5)] }), 0, by decide +kernel, by decide +kernel⟩,
  ⟨(up.modHost fun p => { p with p0Up := true, invalidations := [(0, 5)] }), 0, 5, by decide +kernel, by decide +kernel, by decide +kernel⟩,
  ⟨(up.modHost fun p => { p with p0Up := true, invalidations := [(0, 5)], reads := [(4, ⟨.desc 1, 0, 0x5000, 64⟩)] }), 0, 5, by decide +kernel,
    by decide +kernel⟩,
  ⟨(up.modHost fun p => { p with p0Up := true, atsRequests := [⟨0, 5, 4⟩], reads := [(4, ⟨.desc 1, 0, 0x5000, 64⟩)] }), 0, 5, ⟨0, 5, 4⟩, ⟨.desc 1,
    0, 0x5000, 64⟩, by decide +kernel, by decide +kernel, by decide +kernel, by decide +kernel, by decide +kernel, by decide +kernel,
    by decide +kernel⟩,
  ⟨(up.modHost fun p => { p with p0Up := true, atsRequests := [⟨0, 5, 4⟩], reads := [(4, ⟨.desc 1, 0, 0x5000, 64⟩)] }), 0, 5, ⟨0, 5, 4⟩, ⟨.desc 1,
    0, 0x5000, 64⟩, by decide +kernel, by decide +kernel, by decide +kernel, by decide +kernel⟩⟩

/-- States and operands that meet the hypotheses of `Obligations.HostReadsAndSnoops`, clause by clause. -/
theorem test_met_HostReadsAndSnoops :
  (∃ (s : State) (read : Nat) (r : HostRead), s.sentRead? read = some r) ∧
  (∃ (s : State) (read : Nat) (r : HostRead), s.sentRead? read = some r) ∧
  (∃ (s : State) (read : Nat) (r : HostRead), s.sentRead? read = some r) ∧
  (∃ (s : State), s.power.released = true ∧ s.host.p0Up = true ∧ s.host.cxl = true ∧ s.host.cxlCache = true) ∧
  (∃ (s : State) (line : Nat) (n : Snoop) (b : Bytes), s.snoop? line = some n ∧ n.whys = [] ∧ s.host.heldAccesses = [] ∧ b.length = 64) ∧
  (∃ (s : State) (line : Nat) (n : Snoop), s.snoop? line = some n) ∧
  (∃ (s : State) (now line : Nat) (n : Snoop), s.snoop? line = some n ∧ n.whys = [] ∧ s.host.heldAccesses = [] ∧ n.sentAt + 50000000 ≤ max s.chrono
    now ∧ line % 64 = 0) ∧
  (∃ (s : State) (now line : Nat) (n : Snoop), s.snoop? line = some n ∧ max s.chrono now < n.sentAt + 50000000) :=
  ⟨⟨((up.modHost fun p => { p with p0Up := true, reads := [(4, ⟨.desc 1, 0, 0x5000, 64⟩)] }).modWork fun p => { p with descs := [(1, aDesc)] }), 4,
    ⟨.desc 1, 0, 0x5000, 64⟩, by decide +kernel⟩,
  ⟨((up.modHost fun p => { p with p0Up := true, reads := [(4, ⟨.desc 1, 0, 0x5000, 64⟩)] }).modWork fun p => { p with descs := [(1, aDesc)] }), 4,
    ⟨.desc 1, 0, 0x5000, 64⟩, by decide +kernel⟩,
  ⟨((up.modHost fun p => { p with p0Up := true, reads := [(4, ⟨.desc 1, 0, 0x5000, 64⟩)] }).modWork fun p => { p with descs := [(1, aDesc)] }), 4,
    ⟨.desc 1, 0, 0x5000, 64⟩, by decide +kernel⟩,
  ⟨(up.modHost fun p => { p with p0Up := true, cxl := true, cxlCache := true, hcache := [64] }), by decide +kernel, by decide +kernel,
    by decide +kernel, by decide +kernel⟩,
  ⟨((up.modHost fun p => { p with snoops := [⟨0x001000000040, [], 3⟩] }).modTiers fun p =>
    { p with regions := [(7, { aRegion with lineCoherent := true })] }), 0x001000000040, ⟨0x001000000040, [], 3⟩, List.replicate 64 7#8,
    by decide +kernel, by decide +kernel, by decide +kernel, by decide +kernel⟩,
  ⟨(up.modHost fun p => { p with snoops := [⟨0x001000000040, [.evict], 3⟩] }), 0x001000000040, ⟨0x001000000040, [.evict], 3⟩, by decide +kernel⟩,
  ⟨(up.modHost fun p => { p with snoops := [⟨0x001000000040, [], 3⟩] }), 50000003, 0x001000000040, ⟨0x001000000040, [], 3⟩, by decide +kernel,
    by decide +kernel, by decide +kernel, by decide +kernel, by decide +kernel⟩,
  ⟨(up.modHost fun p => { p with snoops := [⟨0x001000000040, [], 3⟩] }), 50000002, 0x001000000040, ⟨0x001000000040, [], 3⟩, by decide +kernel,
    by decide +kernel⟩⟩

/-- States and operands that meet the hypotheses of `Obligations.HostLinks`, clause by clause. -/
theorem test_met_HostLinks :
  (∃ (s : State), s.host.p0Up = true) ∧
  (∃ (s : State), s.host.p0Up = false ∧ s.power.released = true ∧ s.pins.perst0Low = false ∧ s.good 1 = true) ∧
  (∃ (s : State), s.host.p1Up = true) ∧
  (∃ (s : State), s.host.p1Up = false ∧ s.power.released = true ∧ s.x8x8 = true ∧ s.pins.perst1Low = false ∧ s.good 1 = true) ∧
  (∃ (s : State) (w : ConfigWrite), w.fn < 32 ∧ w.fn ≠ 0 ∧ s.reaches w.fn = true) ∧
  (∃ (s : State) (fn : Nat), fn < 32 ∧ s.reaches fn = true) ∧
  (∃ (s : State) (fn v : Nat), fn < 32 ∧ s.reaches fn = true ∧ v < (if fn = 0 then 2048 else 64)) ∧
  (∃ (s : State), s.power.released = true ∧ s.host.p0Up = true ∧ s.host.cxl = true) :=
  ⟨⟨(up.modHost fun p => { p with p0Up := true, numVfs := 3, hdm := some 0, hcache := [64] }), by decide +kernel⟩,
  ⟨up, by decide +kernel, by decide +kernel, by decide +kernel, by decide +kernel⟩,
  ⟨((up.modHost fun p => { p with p1Up := true }).setFld GLOBAL.H_BIF 0), by decide +kernel⟩,
  ⟨(up.setFld GLOBAL.H_BIF 0), by decide +kernel, by decide +kernel, by decide +kernel, by decide +kernel, by decide +kernel⟩,
  ⟨(up.modHost fun p => { p with p0Up := true, numVfs := 3 }), ⟨3, 0, true, true, false, false, 16⟩, by decide +kernel, by decide +kernel,
    by decide +kernel⟩,
  ⟨(up.modHost fun p => { p with p0Up := true }), 0, by decide +kernel, by decide +kernel⟩,
  ⟨(up.modHost fun p => { p with p0Up := true, numVfs := 3 }), 3, 63, by decide +kernel, by decide +kernel, by decide +kernel⟩,
  ⟨(up.modHost fun p => { p with p0Up := true, cxl := true }), by decide +kernel, by decide +kernel, by decide +kernel⟩⟩

/-- States and operands that meet the hypotheses of `Obligations.HostLossSession`, clause by clause. -/
theorem test_met_HostLossSession :
  (∃ (s u : State) (now : Nat) (v : Word), s.lands now (.fn 0) 0x00A 0x100 v u) ∧
  (∃ (s u : State) (now : Nat) (v : Word), s.lands now .cores 0x00A 0x100 v u) ∧
  (∃ (s : State) (now armed : Nat), s.host.session.armedAt = some armed ∧ s.host.session.due = none ∧ max armed s.host.session.lastBeatAt + s.fld
    ATTACH.HB_SPAN * 1000000 ≤ max s.chrono now) ∧
  (∃ (s : State) (now armed : Nat), s.host.session.armedAt = some armed ∧ max s.chrono now < max armed s.host.session.lastBeatAt + s.fld
    ATTACH.HB_SPAN * 1000000) ∧
  (∃ (s : State) (c : LossCause), s.host.session.due = some c ∧ s.host.session.held = [] ∧ s.host.reads = [] ∧ s.work = {}) ∧
  (∃ (s u : State) (now : Nat) (req : Requester), s.lands now req 0x00A 0x138 1#64 u) ∧
  (∃ (s : State), s.claimResult ≠ 0 ∧ s.claimResult < 16) ∧
  (∃ (s u : State) (now : Nat) (req : Requester), s.lands now req 0x00A 0x138 2#64 u ∧ u.session = 3 ∧ u.work.descs = []) ∧
  (∃ (s u : State) (now : Nat) (req : Requester), s.lands now req 0x00A 0x138 2#64 u ∧ u.session ≠ 3) ∧
  (∃ (s u : State) (now : Nat) (req : Requester), s.lands now req 0x00A 0x138 4#64 u) :=
  ⟨⟨up, _, 0, 7#64, lands_of (by decide +kernel) (by decide +kernel)⟩,
  ⟨up, _, 0, 7#64, lands_of (by decide +kernel) (by decide +kernel)⟩,
  ⟨(up.modSession fun p => { p with armedAt := some 5 }), 500000005, 5, by decide +kernel, by decide +kernel, by decide +kernel⟩,
  ⟨(up.modSession fun p => { p with armedAt := some 5 }), 500000004, 5, by decide +kernel, by decide +kernel⟩,
  ⟨((up.modSession fun p => { p with due := some .linkDown }).setFld ATTACH.STATE 1), .linkDown, by decide +kernel, by decide +kernel,
    by decide +kernel, by decide +kernel⟩,
  ⟨(up.setFld ATTACH.STATE 2), _, 0, .fn 0, lands_of (by decide +kernel) (by decide +kernel)⟩,
  ⟨(up.setFld ATTACH.STATE 1), by decide +kernel, by decide +kernel⟩,
  ⟨((up.setFld ATTACH.STATE 3).modSession fun p => { p with park := [⟨true, false, false, 0, 0, 0, 0, 0, []⟩] }), _, 0, .fn 0, lands_of
    (by decide +kernel) (by decide +kernel), by decide +kernel, by decide +kernel⟩,
  ⟨(up.setFld ATTACH.STATE 2), _, 0, .fn 0, lands_of (by decide +kernel) (by decide +kernel), by decide +kernel⟩,
  ⟨(up.setFld ATTACH.SUBST 1), _, 0, .fn 0, lands_of (by decide +kernel) (by decide +kernel)⟩⟩

/-- States and operands that meet the hypotheses of `Obligations.RingDoorbells`, clause by clause. -/
theorem test_met_RingDoorbells :
  (∃ (s : State) (fn ring v : Nat), fn < 32 ∧ ring < 64 ∧ s.bar2 fn ring = true ∧ (s.sq fn ring).enabled = true ∧ v < s.sqDepth fn ring ∧ (v +
    s.sqDepth fn ring - (s.sq fn ring).tail) % s.sqDepth fn ring ≤ ((s.sq fn ring).head + 2 * s.sqDepth fn ring - 1 - (s.sq fn ring).tail) %
    s.sqDepth fn ring) ∧
  (∃ (s : State) (fn ring v a : Nat) (bs : Bytes), fn < 32 ∧ ring < 64 ∧ s.bar2 fn ring = true ∧ (s.sq fn ring).enabled = true ∧ s.sqDepth fn ring
    ≤ v ∧ 0x100000 ≤ a ∧ a + bs.length ≤ 0x10000000) ∧
  (∃ (s : State) (fn ring : Nat), fn < 32 ∧ ring < 64 ∧ s.bar2 fn ring = true) ∧
  (∃ (s : State) (now fn ring : Nat), fn < 32 ∧ ring < 64 ∧ s.power.released = true ∧ (s.at now).turnRing = some (ringKey fn ring) ∧ (s.at
    now).staleDesc fn ring = none ∧ s.ringFld fn ring RING.SQ_BASE_LOC ≠ 1) ∧
  (∃ (s : State) (fn ring : Nat), fn < 32 ∧ ring < 64 ∧ (s.sq fn ring).reading = true ∧ (s.sq fn ring).enabled = true ∧ (s.sq fn ring).again = none
    ∧ s.ringFld fn ring RING.SQ_BASE_LOC ≠ 1) ∧
  (∃ (s : State) (fn ring st : Nat), fn < 32 ∧ ring < 64 ∧ (s.sq fn ring).reading = true ∧ st ≠ 0) ∧
  (∃ (s : State) (fn ring : Nat), fn < 32 ∧ ring < 64 ∧ (s.sq fn ring).reading = false) :=
  ⟨⟨(up.modWork fun p => { p with sqs := [(63, { enabled := true, head := 4, tail := 4 })] }), 0, 63, 3, by decide +kernel, by decide +kernel,
    by decide +kernel, by decide +kernel, by decide +kernel, by decide +kernel⟩,
  ⟨(up.modWork fun p => { p with sqs := [(63, { enabled := true })] }), 0, 63, 65536, 0x100000, [1, 2], by decide +kernel, by decide +kernel,
    by decide +kernel, by decide +kernel, by decide +kernel, by decide +kernel, by decide +kernel⟩,
  ⟨up, 0, 63, by decide +kernel, by decide +kernel, by decide +kernel⟩,
  ⟨(((((((((up.modWork fun p => { p with sqs := [(63, { enabled := true, tail := 2 })] }).modHost fun p =>
    { p with p0Up := true, fns := [(0, { busMaster := true })] }).setFld ROLAR.STATE 1).setFld ATTACH.STATE 1).setFld (RING.LOG_DEPTH.on 0x4F)
    4).setFld (RING.WINDOW.on 0x4F) 16).setFld (RING.PRIO.on 0x4F) 32).setFld (RING.SLICE_US.on 0x4F) 64).setFld (RING.CQ_SEL.on 0x4F) 63), 0, 0,
    63, by decide +kernel, by decide +kernel, by decide +kernel, by decide +kernel, by decide +kernel, by decide +kernel⟩,
  ⟨((up.modWork fun p => { p with sqs := [(63, { enabled := true, tail := 2, reading := true })] }).modHost fun p => { p with p0Up := true }), 0,
    63, by decide +kernel, by decide +kernel, by decide +kernel, by decide +kernel, by decide +kernel, by decide +kernel⟩,
  ⟨((up.modWork fun p => { p with sqs := [(63, { enabled := true, tail := 2, reading := true })] }).modHost fun p => { p with p0Up := true }), 0,
    63, 1, by decide +kernel, by decide +kernel, by decide +kernel, by decide +kernel⟩,
  ⟨up, 0, 63, by decide +kernel, by decide +kernel, by decide +kernel⟩⟩

/-- States and operands that meet the hypotheses of `Obligations.DescriptorsStart`, clause by clause. -/
theorem test_met_DescriptorsStart :
  (∃ (s : State) (now id : Nat) (d : Desc), s.desc? id = some d ∧ d.bad = 0 ∧ (s.at now).mayStart id d = true) ∧
  (∃ (s : State) (now id : Nat) (d : Desc), s.desc? id = some d ∧ (s.at now).mayStart id d = false) ∧
  (∃ (s : State) (now id : Nat) (d : Desc), s.desc? id = some d ∧ d.state = .started ∧ dType d.raw = 3 ∧ leAt d.raw 16 4 ≠ 0 ∧ (tickAfter
    d.startedAt + leAt d.raw 16 4) * 10000 ≤ max s.chrono now) ∧
  (∃ (s : State) (id : Nat) (d : Desc), s.desc? id = some d ∧ leAt d.raw 16 4 = 0) :=
  ⟨⟨(up.modWork fun p =>
    { p with sqs := [(0, { enabled := true, inflight := 1 })], descs := [(0, { aDesc with raw := 7 :: List.replicate 63 0#8 })] }), 0, 0,
    { aDesc with raw := 7 :: List.replicate 63 0#8 }, by decide +kernel, by decide +kernel, by decide +kernel⟩,
  ⟨(up.modWork fun p => { p with sqs := [(0, { enabled := true, inflight := 1 })], descs := [(0, { aDesc with state := .ended })] }), 0, 0,
    { aDesc with state := .ended }, by decide +kernel, by decide +kernel⟩,
  ⟨(up.modWork fun p =>
    { p with sqs := [(0, { enabled := true, inflight := 1 })], descs := [(0, { aDesc with state := .started, raw := 3 :: List.replicate 63 1#8 })] }),
    1000000000000000, 0, { aDesc with state := .started, raw := 3 :: List.replicate 63 1#8 }, by decide +kernel, by decide +kernel,
    by decide +kernel, by decide +kernel, by decide +kernel⟩,
  ⟨(up.modWork fun p => { p with descs := [(0, { aDesc with state := .started })] }), 0, { aDesc with state := .started }, by decide +kernel,
    by decide +kernel⟩⟩

/-- States and operands that meet the hypotheses of `Obligations.JobsAndSlicesEnd`, clause by clause. -/
theorem test_met_JobsAndSlicesEnd :
  (∃ (s : State) (now j : Nat) (job : Job), s.job? j = some job ∧ job.written = false ∧ (s.at now).jobBusy j = false ∧ job.status ≠ 0) ∧
  (∃ (s u : State) (now j : Nat) (job y : Job), s.job? j = some job ∧ job.written = false ∧ (s.at now).jobBusy j = false ∧ job.status = 0 ∧
    job.allEnded = true ∧ job.ready = [] ∧ (s.at now).commitAll j job = .ok u ∧ u.job? j = some y ∧ y.parkFull = false) ∧
  (∃ (s : State) (j : Nat) (job : Job), s.job? j = some job ∧ job.written = false ∧ job.status = 0 ∧ job.allEnded = false) ∧
  (∃ (s : State) (id : Nat) (x : Slice), s.slice? id = some x ∧ x.ran = true ∧ x.left = 0) ∧
  (∃ (s : State) (id : Nat) (x : Slice), s.slice? id = some x ∧ x.ran = true ∧ x.left ≠ 0) ∧
  (∃ (s : State) (id : Nat) (x : Slice), s.slice? id = some x ∧ x.ran = true ∧ x.left ≠ 0) :=
  ⟨⟨(up.modWork fun p => { p with jobs := [(1, { aJob with status := 0x41 })], descs := [(0, { aDesc with state := .started })] }), 0, 1,
    { aJob with status := 0x41 }, by decide +kernel, by decide +kernel, by decide +kernel, by decide +kernel⟩,
  ⟨(up.modWork fun p => { p with jobs := [(1, { aJob with ended := [0] })], descs := [(0, { aDesc with state := .started })] }), ((up.modWork fun p
    => { p with jobs := [(1, { aJob with ended := [0] })], descs := [(0, { aDesc with state := .started })] }).at 0), 0, 1,
    { aJob with ended := [0] }, { aJob with ended := [0] }, by decide +kernel, by decide +kernel, by decide +kernel, by decide +kernel,
    by decide +kernel, by decide +kernel, by decide +kernel, by decide +kernel, by decide +kernel⟩,
  ⟨(up.modWork fun p => { p with jobs := [(1, aJob)] }), 1, aJob, by decide +kernel, by decide +kernel, by decide +kernel, by decide +kernel⟩,
  ⟨(up.modWork fun p => { p with slices := [(3, { aSlice with state := .running, ran := true })], jobs := [(1, aJob)] }), 3,
    { aSlice with state := .running, ran := true }, by decide +kernel, by decide +kernel, by decide +kernel⟩,
  ⟨(up.modWork fun p => { p with slices := [(3, { aSlice with state := .running, ran := true, left := 2 })], jobs := [(1, aJob)] }), 3,
    { aSlice with state := .running, ran := true, left := 2 }, by decide +kernel, by decide +kernel, by decide +kernel⟩,
  ⟨(up.modWork fun p => { p with slices := [(3, { aSlice with state := .running, ran := true, left := 2 })], jobs := [(1, aJob)] }), 3,
    { aSlice with state := .running, ran := true, left := 2 }, by decide +kernel, by decide +kernel, by decide +kernel⟩⟩

/-- States and operands that meet the hypotheses of `Obligations.RingControl`, clause by clause. -/
theorem test_met_RingControl :
  (∃ (s u : State) (now ring : Nat) (req : Requester), ring < 64 ∧ s.lands now req (ringPage ring) 0x110 1#64 u ∧ (u.sq (viewOf req) ring).enabled
    = false ∧ u.sqOk (viewOf req) ring = true) ∧
  (∃ (s u : State) (now ring : Nat) (req : Requester), ring < 64 ∧ s.lands now req (ringPage ring) 0x110 1#64 u ∧ (u.sq (viewOf req) ring).enabled
    = false ∧ u.sqOk (viewOf req) ring = false) ∧
  (∃ (s u : State) (now ring : Nat) (req : Requester), ring < 64 ∧ s.lands now req (ringPage ring) 0x110 0#64 u ∧ (u.sq (viewOf req) ring).enabled
    = true) ∧
  (∃ (ring : Nat), ring < 64) ∧
  (∃ (s u : State) (now ring : Nat) (req : Requester), ring < 64 ∧ s.lands now req (ringPage ring) 0x130 1#64 u ∧ (u.cq (viewOf req) ring).enabled
    = false ∧ u.cqOk (viewOf req) ring = true) ∧
  (∃ (s u : State) (now ring : Nat) (req : Requester), ring < 64 ∧ s.lands now req (ringPage ring) 0x130 0#64 u ∧ (u.cq (viewOf req) ring).enabled
    = true ∧ u.cqNamed (viewOf req) ring = true) ∧
  (∃ (s u : State) (now ring : Nat) (req : Requester), ring < 64 ∧ s.lands now req (ringPage ring) 0x130 0#64 u ∧ (u.cq (viewOf req) ring).enabled
    = true ∧ u.cqNamed (viewOf req) ring = false) ∧
  (∃ (s u : State) (now ring : Nat) (req : Requester), ring < 64 ∧ s.lands now req (ringPage ring) 0x110 (putBits (s.word (viewOf req) (ringPage
    ring) 0x110) 1 1 1) u ∧ (u.sq (viewOf req) ring).enabled = true ∧ bitAt (s.word (viewOf req) (ringPage ring) 0x110).toNat 0 = true) :=
  ⟨⟨((((((((up.modHost fun p => { p with p0Up := true }).modWork fun p => { p with cqs := [(63, { enabled := true })] }).setFld
    (RING.SQ_BASE_ADDR.on 0x4F) 0x4000).setFld (RING.LOG_DEPTH.on 0x4F) 4).setFld (RING.WINDOW.on 0x4F) 16).setFld (RING.PRIO.on 0x4F) 32).setFld
    (RING.SLICE_US.on 0x4F) 64).setFld (RING.CQ_SEL.on 0x4F) 63), _, 0, 63, .fn 0, by decide +kernel, lands_of (by decide +kernel)
    (by decide +kernel), by decide +kernel, by decide +kernel⟩,
  ⟨(up.setFldFn 0 (RING.SQ_BASE_ADDR.on 0x4F) 3), _, 0, 63, .fn 0, by decide +kernel, lands_of (by decide +kernel) (by decide +kernel),
    by decide +kernel, by decide +kernel⟩,
  ⟨(up.modWork fun p => { p with sqs := [(63, { enabled := true, tail := 2 })] }), _, 0, 63, .fn 0, by decide +kernel, lands_of (by decide +kernel)
    (by decide +kernel), by decide +kernel⟩,
  ⟨63, by decide +kernel⟩,
  ⟨up, _, 0, 63, .fn 0, by decide +kernel, lands_of (by decide +kernel) (by decide +kernel), by decide +kernel, by decide +kernel⟩,
  ⟨(up.modWork fun p => { p with cqs := [(63, { enabled := true })], sqs := [(63, { enabled := true })] }), _, 0, 63, .fn 0, by decide +kernel,
    lands_of (by decide +kernel) (by decide +kernel), by decide +kernel, by decide +kernel⟩,
  ⟨(up.modWork fun p => { p with cqs := [(63, { enabled := true })] }), _, 0, 63, .fn 0, by decide +kernel, lands_of (by decide +kernel)
    (by decide +kernel), by decide +kernel, by decide +kernel⟩,
  ⟨((up.setFldFn 0 (RING.SQ_ENABLE.on 0x4F) 1).modWork fun p => { p with sqs := [(63, { enabled := true, faulted := true })] }), _, 0, 63, .fn 0,
    by decide +kernel, lands_of (by decide +kernel) (by decide +kernel), by decide +kernel, by decide +kernel⟩⟩

/-- States and operands that meet the hypotheses of `Obligations.ThreadWaitsAndCounters`, clause by clause. -/
theorem test_met_ThreadWaitsAndCounters :
  (∃ (s : State) (t : Nat) (th : Thread), s.thread? t = some th ∧ th.state = .running ∧ th.copyFail = 0) ∧
  (∃ (s : State) (now t : Nat) (th : Thread), s.thread? t = some th ∧ th.state = .waiting ∧ (s.at now).wakeDue t = true) ∧
  (∃ (s : State) (now t : Nat) (th : Thread), s.thread? t = some th ∧ th.state = .waiting ∧ (s.at now).wakeDue t = false) ∧
  (∃ (s : State) (t : Nat) (th : Thread), s.thread? t = some th ∧ th.state = .running ∧ th.copyFail = 0) ∧
  (∃ (s : State) (t ticks : Nat) (th : Thread), s.thread? t = some th ∧ th.state = .running ∧ th.copyFail = 0 ∧ ticks ≠ 0) ∧
  (∃ (s : State) (now t : Nat) (th : Thread), s.thread? t = some th ∧ th.state = .delayed ∧ (s.at now).wakeDue t = true) ∧
  (∃ (s : State) (t : Nat) (th : Thread), s.thread? t = some th ∧ th.state = .running ∧ th.copyFail ≠ 0) ∧
  (∃ (s : State) (t count : Nat) (th : Thread), s.thread? t = some th ∧ th.state = .running ∧ th.copyFail = 0 ∧ count % 2 ^ 32 ≠ 0 ∧
    th.owned.length < 16 ∧ (∃ c, 1024 ≤ c ∧ c < 65536 ∧ Table.has s.rennet.counters c = false)) ∧
  (∃ (s : State) (t count : Nat) (th : Thread), s.thread? t = some th ∧ th.state = .running ∧ th.copyFail = 0 ∧ (count % 2 ^ 32 = 0 ∨ 16 ≤
    th.owned.length)) ∧
  (∃ (s : State) (t ctr : Nat) (named : Bool) (th : Thread), s.thread? t = some th ∧ th.state = .running ∧ th.copyFail = 0 ∧ mayUse th ctr named =
    true) ∧
  (∃ (s : State) (t ctr : Nat) (named : Bool) (th : Thread), s.thread? t = some th ∧ th.state = .running ∧ th.copyFail = 0 ∧ mayUse th ctr named =
    false) ∧
  (∃ (s : State) (t ctr : Nat) (named : Bool) (th : Thread), s.thread? t = some th ∧ th.state = .running ∧ th.copyFail = 0 ∧ mayUse th ctr named =
    true) ∧
  (∃ (s : State) (ctr c n : Nat), Table.find? s.rennet.counters ctr = some (.armed c) ∧ n < c) ∧
  (∃ (s : State) (ctr c : Nat), Table.find? s.rennet.counters ctr = some (.armed c)) ∧
  (∃ (s : State) (ctr c n : Nat), Table.find? s.rennet.counters ctr = some (.armed c) ∧ c < n) :=
  ⟨⟨(up.modRennet fun p => { p with threads := [(3, aThread)], counters := [(7, .armed 2)] }), 3, aThread, by decide +kernel, by decide +kernel,
    by decide +kernel⟩,
  ⟨(up.modRennet fun p =>
    { p with threads := [(3, { aThread with state := .waiting, core := none, waitOn := some (7, 0) })], counters := [(7, .armed 2)], delays := [⟨4, 3⟩] }),
    10000000000000, 3, { aThread with state := .waiting, core := none, waitOn := some (7, 0) }, by decide +kernel, by decide +kernel,
    by decide +kernel⟩,
  ⟨(up.modRennet fun p =>
    { p with threads := [(3, { aThread with state := .waiting, core := none, waitOn := some (7, 0) })], counters := [(7, .armed 2)], delays := [⟨4, 3⟩] }),
    39999, 3, { aThread with state := .waiting, core := none, waitOn := some (7, 0) }, by decide +kernel, by decide +kernel, by decide +kernel⟩,
  ⟨(up.modRennet fun p => { p with threads := [(3, aThread)] }), 3, aThread, by decide +kernel, by decide +kernel, by decide +kernel⟩,
  ⟨(up.modRennet fun p => { p with threads := [(3, aThread)] }), 3, 1, aThread, by decide +kernel, by decide +kernel, by decide +kernel,
    by decide +kernel⟩,
  ⟨(up.modRennet fun p => { p with threads := [(3, { aThread with state := .delayed, core := none })], delays := [⟨4, 3⟩] }), 40000, 3,
    { aThread with state := .delayed, core := none }, by decide +kernel, by decide +kernel, by decide +kernel⟩,
  ⟨((up.modRennet fun p => { p with threads := [(3, { aThread with copyFail := 0x48 })] }).modWork fun p =>
    { p with slices := [(3, { aSlice with state := .running })], jobs := [(1, aJob)] }), 3, { aThread with copyFail := 0x48 }, by decide +kernel,
    by decide +kernel, by decide +kernel⟩,
  ⟨(up.modRennet fun p => { p with threads := [(3, { aThread with owned := List.range 15 })], counters := [(1024, .zero)] }), 3, 4294967295,
    { aThread with owned := List.range 15 }, by decide +kernel, by decide +kernel, by decide +kernel, by decide +kernel, by decide +kernel, ⟨1025,
    by decide, by decide, by decide +kernel⟩⟩,
  ⟨(up.modRennet fun p => { p with threads := [(3, { aThread with owned := List.range 16 })] }), 3, 1, { aThread with owned := List.range 16 },
    by decide +kernel, by decide +kernel, by decide +kernel, by decide +kernel⟩,
  ⟨(up.modRennet fun p =>
    { p with threads := [(3, aThread), (4, { aThread with slice := 4, state := .waiting, core := none, waitOn := some (7, 0) })], counters := [(7, .armed 2)] }),
    3, 7, true, aThread, by decide +kernel, by decide +kernel, by decide +kernel, by decide +kernel⟩,
  ⟨(up.modRennet fun p => { p with threads := [(3, aThread)] }), 3, 7, false, aThread, by decide +kernel, by decide +kernel, by decide +kernel,
    by decide +kernel⟩,
  ⟨(up.modRennet fun p => { p with threads := [(3, aThread)], counters := [(7, .armed 2)] }), 3, 7, true, aThread, by decide +kernel,
    by decide +kernel, by decide +kernel, by decide +kernel⟩,
  ⟨(up.modRennet fun p => { p with counters := [(7, .armed 2)] }), 7, 2, 1, by decide +kernel, by decide +kernel⟩,
  ⟨(up.modRennet fun p =>
    { p with counters := [(7, .armed 2)], threads := [(4, { aThread with slice := 4, state := .waiting, core := none, waitOn := some (7, 0) })] }),
    7, 2, by decide +kernel⟩,
  ⟨(up.modRennet fun p =>
    { p with counters := [(7, .armed 2)], threads := [(4, { aThread with slice := 4, state := .waiting, core := none, waitOn := some (7, 0) })] }),
    7, 2, 3, by decide +kernel, by decide +kernel⟩⟩

/-- States and operands that meet the hypotheses of `Obligations.ThreadCalls`, clause by clause. -/
theorem test_met_ThreadCalls :
  (∃ (s : State) (t : Nat) (th : Thread), s.thread? t = some th ∧ th.state = .running ∧ th.copyFail = 0) ∧
  (∃ (s : State) (t : Nat) (th : Thread), s.thread? t = some th ∧ th.state = .running ∧ th.copyFail = 0) ∧
  (∃ (s : State) (t : Nat) (th : Thread), s.thread? t = some th ∧ th.state = .running ∧ th.copyFail = 0) ∧
  (∃ (s : State) (id : Nat) (c : Copy), s.copy? id = some c ∧ c.asked = 0 ∧ c.moved = true) ∧
  (∃ (s : State) (id st : Nat) (c : Copy), s.copy? id = some c ∧ c.asked = 0 ∧ c.moved = false ∧ c.status = 0 ∧ (s.thread? c.slice).isSome = true ∧
    st ≠ 0) ∧
  (∃ (s u : State) (now id : Nat) (data : Bytes) (c : Copy), s.copy? id = some c ∧ c.asked = 0 ∧ c.moved = false ∧ c.status = 0 ∧ (s.thread?
    c.slice).isSome = true ∧ (s.at now).copyPoisoned c = false ∧ (u = (((s.at now).copyWrite id c ((s.at now).copyBytes c data)).updCopy id fun x
    => { x with moved := true })) ∧ ((u.copy? id).all (fun d => d.asked != 0) = true)) ∧
  (∃ (s : State) (t : Nat) (th : Thread), s.thread? t = some th ∧ th.state = .running ∧ th.exec = true) :=
  ⟨⟨(up.modRennet fun p => { p with threads := [(3, aThread)] }), 3, aThread, by decide +kernel, by decide +kernel, by decide +kernel⟩,
  ⟨(up.modRennet fun p => { p with threads := [(3, aThread)] }), 3, aThread, by decide +kernel, by decide +kernel, by decide +kernel⟩,
  ⟨((up.modRennet fun p => { p with threads := [(3, aThread)] }).modTide fun p => { p with now := 44 }), 3, aThread, by decide +kernel,
    by decide +kernel, by decide +kernel⟩,
  ⟨(up.modRennet fun p => { p with threads := [(3, aThread)], copies := [(8, { aCopy with moved := true })] }), 8, { aCopy with moved := true },
    by decide +kernel, by decide +kernel, by decide +kernel⟩,
  ⟨(up.modRennet fun p => { p with threads := [(3, aThread)], copies := [(8, aCopy)] }), 8, 1, aCopy, by decide +kernel, by decide +kernel,
    by decide +kernel, by decide +kernel, by decide +kernel, by decide +kernel⟩,
  ⟨(({ ((up.modRennet fun p => { p with threads := [(3, aThread)], copies := [(8, { aCopy with dstHerd := true, dst := 0x5000000001000 })] }).modWork fun p => { p with slices := [(3, aSlice)], jobs := [(1, aJob)] }) with node := ⟨3, true⟩ }).modFabric
    fun p => { p with members := [3, 5] }), _, 0, 8, [1, 2, 3, 4], { aCopy with dstHerd := true, dst := 0x5000000001000 }, by decide +kernel,
    by decide +kernel, by decide +kernel, by decide +kernel, by decide +kernel, by decide +kernel, rfl, by decide +kernel⟩,
  ⟨(up.modRennet fun p => { p with threads := [(3, { aThread with exec := true })] }), 3, { aThread with exec := true }, by decide +kernel,
    by decide +kernel, by decide +kernel⟩⟩

/-- States and operands that meet the hypotheses of `Obligations.StageCode`, clause by clause. -/
theorem test_met_StageCode :
  (∃ (s : State) (now t : Nat) (a0 : Word) (th : Thread) (c : Ctx), s.thread? t = some th ∧ th.state = .running ∧ th.copyFail = 0 ∧ (s.at
    now).sliceCtx t = some c ∧ a0 ≠ 0#64 ∧ a0 ≠ 1#64) ∧
  (∃ (s u : State) (now t : Nat) (th : Thread) (c : Ctx) (outs : List (Nat × List (List Val))) (ws : List (Nat × Bytes)), s.thread? t = some th ∧
    th.state = .running ∧ th.copyFail = 0 ∧ (s.at now).sliceCtx t = some c ∧ ((s.at now).stageWrites ws).appendOuts c outs = .ok u) ∧
  (∃ (s : State) (t : Nat) (th : Thread), s.thread? t = some th ∧ th.state = .running) ∧
  (∃ (s : State) (now t : Nat) (th : Thread), s.thread? t = some th ∧ th.state = .running ∧ (s.sliceUsOf t + 2) * 1000 ≤ (s.at now).turnTime th) ∧
  (∃ (s : State) (now t : Nat) (th : Thread), s.thread? t = some th ∧ th.state = .running ∧ (s.at now).turnTime th < (s.sliceUsOf t + 2) * 1000) ∧
  (∃ (s : State) (now t : Nat) (th : Thread), s.thread? t = some th ∧ th.state = .running ∧ s.fld RENNET.STAGE_LIMIT * s.sliceUsOf t * 1000 ≤
    (th.offCore (max s.chrono now)).used) :=
  ⟨⟨((up.modRennet fun p => { p with threads := [(3, aThread)] }).modWork fun p =>
    { p with slices := [(3, { aSlice with state := .running, page := 0x051 })], jobs := [(1, aJob)] }), 0, 3, 5#64, aThread, ⟨1, 3, 0, 0x051,
    aPlan.stage 0, aPlan, 0, 0, false⟩, by decide +kernel, by decide +kernel, by decide +kernel, by decide +kernel, by decide +kernel,
    by decide +kernel⟩,
  ⟨((up.modRennet fun p => { p with threads := [(3, aThread)] }).modWork fun p =>
    { p with slices := [(3, { aSlice with state := .running, page := 0x051 })], jobs := [(1, aJob)] }), ((up.modRennet fun p =>
    { p with threads := [(3, aThread)] }).modWork fun p =>
    { p with slices := [(3, { aSlice with state := .running, page := 0x051 })], jobs := [(1, aJob)] }), 0, 3, aThread, ⟨1, 3, 0, 0x051, aPlan.stage
    0, aPlan, 0, 0, false⟩, [], [], by decide +kernel, by decide +kernel, by decide +kernel, by decide +kernel, by decide +kernel⟩,
  ⟨((up.modRennet fun p => { p with threads := [(3, aThread)] }).modWork fun p =>
    { p with slices := [(3, { aSlice with state := .running, page := 0x051 })], jobs := [(1, aJob)] }), 3, aThread, by decide +kernel,
    by decide +kernel⟩,
  ⟨((up.modRennet fun p => { p with threads := [(3, aThread)] }).modWork fun p =>
    { p with slices := [(3, { aSlice with state := .running, page := 0x051 })], jobs := [(1, aJob)] }), 66000, 3, aThread, by decide +kernel,
    by decide +kernel, by decide +kernel⟩,
  ⟨((up.modRennet fun p => { p with threads := [(3, aThread)] }).modWork fun p =>
    { p with slices := [(3, { aSlice with state := .running, page := 0x051 })], jobs := [(1, aJob)] }), 65999, 3, aThread, by decide +kernel,
    by decide +kernel, by decide +kernel⟩,
  ⟨((up.modRennet fun p => { p with threads := [(3, aThread)] }).modWork fun p =>
    { p with slices := [(3, { aSlice with state := .running, page := 0x051 })], jobs := [(1, aJob)] }), 10000000000000, 3, aThread,
    by decide +kernel, by decide +kernel, by decide +kernel⟩⟩

/-- States and operands that meet the hypotheses of `Obligations.HostCounters`, clause by clause. -/
theorem test_met_HostCounters :
  (∃ (s u : State) (now ctr n : Nat) (req : Requester), s.lands now req 0x050 0x108 (ctrWord 1 ctr n) u ∧ u.tiersReady = true ∧ (∀ k, Table.find?
    u.rennet.counters (ctr % 1024) ≠ some (.armed k)) ∧ n % 2 ^ 32 ≠ 0) ∧
  (∃ (s u : State) (now ctr n k : Nat) (req : Requester), s.lands now req 0x050 0x108 (ctrWord 1 ctr n) u ∧ u.tiersReady = true ∧ Table.find?
    u.rennet.counters (ctr % 1024) = some (.armed k)) ∧
  (∃ (s u : State) (now ctr n : Nat) (c : Counter) (req : Requester), s.lands now req 0x050 0x108 (ctrWord 2 ctr n) u ∧ u.tiersReady = true ∧
    Table.find? u.rennet.counters (ctr % 1024) = some c) ∧
  (∃ (s u : State) (now ctr : Nat) (c : Counter) (req : Requester), s.lands now req 0x050 0x108 (ctrWord 3 ctr 0) u ∧ u.tiersReady = true ∧
    Table.find? u.rennet.counters (ctr % 1024) = some c) ∧
  (∃ (s u : State) (now flow fn v : Nat) (req : Requester), s.lands now req 0x050 0x110 (flowWord 1 flow fn v) u ∧ u.tiersReady = true ∧ flow %
    4096 ≤ 3071 ∧ Table.find? u.rennet.flows (flow % 4096) = none) ∧
  (∃ (s u : State) (now flow : Nat) (f : Flow) (req : Requester), s.lands now req 0x050 0x110 (flowWord 2 flow 0 0) u ∧ u.tiersReady = true ∧ flow
    % 4096 ≤ 3071 ∧ Table.find? u.rennet.flows (flow % 4096) = some f) ∧
  (∃ (s u : State) (now flow v : Nat) (f : Flow) (req : Requester), s.lands now req 0x050 0x110 (flowWord 3 flow 0 v) u ∧ u.tiersReady = true ∧
    flow % 4096 ≤ 3071 ∧ Table.find? u.rennet.flows (flow % 4096) = some f ∧ (v % 2 ^ 32 + 2 ^ 32 - f.next) % 2 ^ 32 < 2 ^ 31 ∧ (f.items.any (fun i
    => decide ((i.seq + 2 ^ 32 - f.next) % 2 ^ 32 < (v % 2 ^ 32 + 2 ^ 32 - f.next) % 2 ^ 32)) = false)) ∧
  (∃ (s u : State) (now mask : Nat) (req : Requester), s.lands now req 0x051 0x100 (BitVec.ofNat 64 (mask % 65536)) u ∧ 2 ≤ u.coresLeft (mask %
    65536)) ∧
  (∃ (s u : State) (now mask : Nat) (req : Requester), s.lands now req 0x051 0x100 (BitVec.ofNat 64 (mask % 65536)) u ∧ u.coresLeft (mask % 65536)
    < 2 ∧ u.locked 0 0x051 = false) ∧
  (∃ (s : State) (core : Nat), core < 16 ∧ s.power.released = true ∧ bitAt s.rennet.coresFailed core = false) ∧
  (∃ (s : State), s.power.released = true) ∧
  (∃ (s : State) (t : Nat) (th : Thread), s.power.released = true ∧ s.thread? t = some th) :=
  ⟨⟨up, _, 0, 1023, 4294967295, .fn 0, lands_of (by decide +kernel) (by decide +kernel), by decide +kernel, fun k => ne_some (by decide +kernel) _,
    by decide +kernel⟩,
  ⟨(up.modRennet fun p => { p with counters := [(1023, .armed 4)] }), _, 0, 1023, 1, 4, .fn 0, lands_of (by decide +kernel) (by decide +kernel),
    by decide +kernel, by decide +kernel⟩,
  ⟨(up.modRennet fun p => { p with counters := [(1023, .armed 4)] }), _, 0, 1023, 5, .armed 4, .fn 0, lands_of (by decide +kernel)
    (by decide +kernel), by decide +kernel, by decide +kernel⟩,
  ⟨(up.modRennet fun p => { p with counters := [(1023, .armed 4)] }), _, 0, 1023, .armed 4, .fn 0, lands_of (by decide +kernel)
    (by decide +kernel), by decide +kernel, by decide +kernel⟩,
  ⟨up, _, 0, 3071, 31, 4294967295, .fn 0, lands_of (by decide +kernel) (by decide +kernel), by decide +kernel, by decide +kernel,
    by decide +kernel⟩,
  ⟨(up.modRennet fun p => { p with flows := [(3071, ⟨31, 5, []⟩)] }), _, 0, 3071, ⟨31, 5, []⟩, .fn 0, lands_of (by decide +kernel)
    (by decide +kernel), by decide +kernel, by decide +kernel, by decide +kernel⟩,
  ⟨(up.modRennet fun p => { p with flows := [(3071, ⟨31, 5, []⟩)] }), _, 0, 3071, 6, ⟨31, 5, []⟩, .fn 0, lands_of (by decide +kernel)
    (by decide +kernel), by decide +kernel, by decide +kernel, by decide +kernel, by decide +kernel, by decide +kernel⟩,
  ⟨up, _, 0, 0x3FFF, .fn 0, lands_of (by decide +kernel) (by decide +kernel), by decide +kernel⟩,
  ⟨up, _, 0, 0x7FFF, .fn 0, lands_of (by decide +kernel) (by decide +kernel), by decide +kernel, by decide +kernel⟩,
  ⟨((up.modRennet fun p => { p with threads := [(3, aThread)] }).modWork fun p =>
    { p with slices := [(3, { aSlice with state := .running, page := 0x051 })], jobs := [(1, aJob)] }), 15, by decide +kernel, by decide +kernel,
    by decide +kernel⟩,
  ⟨up, by decide +kernel⟩,
  ⟨((up.modRennet fun p => { p with threads := [(3, aThread)] }).modWork fun p =>
    { p with slices := [(3, { aSlice with state := .running, page := 0x051 })], jobs := [(1, aJob)] }), 3, aThread, by decide +kernel,
    by decide +kernel⟩⟩

/-- States and operands that meet the hypotheses of `Obligations.BeatsAndReports`, clause by clause. -/
theorem test_met_BeatsAndReports :
  (∃ (s : State) (now : Nat), s.power.released = true ∧ (s.at now).isLead = true ∧ 0 < s.beatNs ∧ s.tide.lastBeatSent + s.beatNs ≤ max s.chrono now
    ∧ s.fabric.resetCopies = 0 ∧ s.fld TIDE.MODE ≠ 0) ∧
  (∃ (s : State) (now : Nat), max s.chrono now < s.tide.lastBeatSent + s.beatNs) ∧
  (∃ (s : State) (raw : Bytes), s.power.released = true ∧ beatOf raw = none) ∧
  (∃ (s : State) (raw : Bytes) (b : Beat), s.power.released = true ∧ beatOf raw = some b ∧ b.lead = s.herd.lead ∧ 0 < s.tide.now ∧ b.scale ≠
    s.tide.herdScale) ∧
  (∃ (s : State) (last : Nat) (raw : Bytes) (b : Beat), s.power.released = true ∧ beatOf raw = some b ∧ b.lead = s.herd.lead ∧ (s.tide.now = 0 ∨
    (b.scale = s.tide.herdScale ∧ b.epochTu = s.tide.herdEpochTu)) ∧ s.tide.lastSeq = some last ∧ (b.seq + 2 ^ 32 - last % 2 ^ 32) % 2 ^ 32 ≠ 0 ∧
    (b.seq + 2 ^ 32 - last % 2 ^ 32) % 2 ^ 32 < 2 ^ 31) ∧
  (∃ (s : State) (last : Nat) (raw : Bytes) (b : Beat), s.power.released = true ∧ beatOf raw = some b ∧ b.lead = s.herd.lead ∧ (s.tide.now = 0 ∨
    (b.scale = s.tide.herdScale ∧ b.epochTu = s.tide.herdEpochTu)) ∧ s.tide.lastSeq = some last ∧ (b.seq + 2 ^ 32 - last % 2 ^ 32) % 2 ^ 32 = 0) ∧
  (∃ (b : Beat), b.lead < 2 ^ 16 ∧ b.seq < 2 ^ 32 ∧ b.tide < 2 ^ 64 ∧ b.chrono < 2 ^ 64 ∧ b.periodUs < 2 ^ 32 ∧ b.scale < 16 ∧ b.mode < 4 ∧
    b.epochTu < 2 ^ 64) ∧
  (∃ (s : State) (raw : Bytes), s.power.released = true ∧ s.isLead = true ∧ s.fabric.members.contains (leAt raw 2 2) = true ∧ raw.length = 32 ∧
    byteAt raw 0 = 2 ∧ byteAt raw 1 = 1 ∧ leAt raw 28 4 = crc32c (raw.take 28)) ∧
  (∃ (s : State), s.power.released = true ∧ s.isLead = false) ∧
  (∃ (s : State) (now : Nat), s.node.valid = true ∧ s.isLead = false ∧ s.tide.lost = false ∧ (s.at now).quietFor (s.fld TIDE.BEAT_LOSS) = true ∧
    (s.word 0 0x058 0x020).getLsbD 19 = false ∧ (s.word 0 0x058 0x028).getLsbD 19 = false ∧ s.fld HERD.STATE ≠ 3) ∧
  (∃ (s : State), s.tide.lost = true) :=
  ⟨⟨((up.setFld TIDE.MODE 1).setFld TIDE.BEAT_US 10), 25000, by decide +kernel, by decide +kernel, by decide +kernel, by decide +kernel,
    by decide +kernel, by decide +kernel⟩,
  ⟨(up.setFld TIDE.BEAT_US 10), 9999, by decide +kernel⟩,
  ⟨up, [1, 1], by decide +kernel, by decide +kernel⟩,
  ⟨(up.modTide fun p => { p with now := 5, herdScale := 1 }), beatBytes ⟨0, 7, 100, 50, 10, 2, false, 1, false, 0⟩, ⟨0, 7, 100, 50, 10, 2, false,
    1, false, 0⟩, by decide +kernel, by decide +kernel, by decide +kernel, by decide +kernel, by decide +kernel⟩,
  ⟨((up.modTide fun p => { p with now := 5, herdScale := 2, lastSeq := some 6 }).modHerd fun p => { p with lead := 4 }), 6, beatBytes ⟨4, 7, 100,
    50, 10, 2, false, 1, false, 0⟩, ⟨4, 7, 100, 50, 10, 2, false, 1, false, 0⟩, by decide +kernel, by decide +kernel, by decide +kernel,
    by decide +kernel, by decide +kernel, by decide +kernel, by decide +kernel⟩,
  ⟨((up.modTide fun p => { p with now := 5, herdScale := 2, lastSeq := some 7 }).modHerd fun p => { p with lead := 4 }), 7, beatBytes ⟨4, 7, 100,
    50, 10, 2, false, 1, false, 0⟩, ⟨4, 7, 100, 50, 10, 2, false, 1, false, 0⟩, by decide +kernel, by decide +kernel, by decide +kernel,
    by decide +kernel, by decide +kernel, by decide +kernel⟩,
  ⟨⟨65535, 4294967295, 100, 18446744073709551615, 10, 15, true, 3, true, 18446744073709551615⟩, by decide +kernel, by decide +kernel,
    by decide +kernel, by decide +kernel, by decide +kernel, by decide +kernel, by decide +kernel, by decide +kernel⟩,
  ⟨((({ up with node := ⟨3, true⟩ }).modHerd fun p => { p with lead := 3 }).modFabric fun p => { p with members := [3, 5] }), aReport,
    by decide +kernel, by decide +kernel, by decide +kernel, by decide +kernel, by decide +kernel, by decide +kernel, by decide +kernel⟩,
  ⟨(({ up with node := ⟨3, true⟩ }).modHerd fun p => { p with lead := 5 }), by decide +kernel, by decide +kernel⟩,
  ⟨(((({ up with node := ⟨3, true⟩ }).modHerd fun p => { p with lead := 5 }).modTide fun p =>
    { p with appliedAt := some 5, periodUs := 10 }).setFld TIDE.BEAT_LOSS 3), 30005, by decide +kernel, by decide +kernel, by decide +kernel,
    by decide +kernel, by decide +kernel, by decide +kernel, by decide +kernel⟩,
  ⟨(up.modTide fun p => { p with lost := true }), by decide +kernel⟩⟩

/-- States and operands that meet the hypotheses of `Obligations.TideRegisters`, clause by clause. -/
theorem test_met_TideRegisters :
  (∃ (s u : State) (now : Nat) (v : Word), s.lands now (.fn 0) 0x058 0x120 v u ∧ u.isLead = true ∧ u.fld TIDE.MODE = 2 ∧ u.tide.now ≤ v.toNat ∧
    v.toNat ≤ tideMax) ∧
  (∃ (s u : State) (now : Nat) (req : Requester) (v : Word), s.lands now req 0x058 0x120 v u ∧ (req ≠ .fn 0 ∨ u.isLead = false ∨ u.fld TIDE.MODE ≠
    2 ∨ v.toNat < u.tide.now ∨ tideMax < v.toNat)) ∧
  (∃ (s u : State) (now mode : Nat) (req : Requester), s.lands now req 0x058 0x100 (putBits (s.word 0 0x058 0x100) 1 0 mode) u ∧ bitsOf (s.word 0
    0x058 0x100) 7 4 = u.fld TIDE.SCALE) ∧
  (∃ (s u : State) (now ctrId : Nat) (irq ctr out : Bool), s.lands now .cores 0x058 0x190 (BitVec.ofNat 64 (ofBool true + 2 * ofBool irq + 4 *
    ofBool ctr + 8 * ofBool out + ctrId % 65536 * 65536)) u ∧ (u.alarm (u.fld TIDE.ALARM_SEL)).arm = false ∧ u.tide.now < (u.alarm (u.fld
    TIDE.ALARM_SEL)).tide) ∧
  (∃ (s u : State) (now ctrId : Nat) (irq ctr out : Bool), s.lands now .cores 0x058 0x190 (BitVec.ofNat 64 (ofBool true + 2 * ofBool irq + 4 *
    ofBool ctr + 8 * ofBool out + ctrId % 65536 * 65536)) u ∧ (u.alarm (u.fld TIDE.ALARM_SEL)).arm = false ∧ (u.alarm (u.fld TIDE.ALARM_SEL)).tide
    ≤ u.tide.now) ∧
  (∃ (s u : State) (now n ctrId : Nat) (irq ctr out : Bool), s.lands now (.fn n) 0x058 0x190 (BitVec.ofNat 64 (ofBool true + 2 * ofBool irq + 4 *
    ofBool ctr + 8 * ofBool out + ctrId % 65536 * 65536)) u) :=
  ⟨⟨((up.setFld TIDE.MODE 2).modTide fun p => { p with now := 6 }), _, 0, 7#64, lands_of (by decide +kernel) (by decide +kernel), by decide +kernel,
    by decide +kernel, by decide +kernel, by decide +kernel⟩,
  ⟨(up.setFld TIDE.MODE 1), _, 0, .m1, 7#64, lands_of (by decide +kernel) (by decide +kernel), by decide +kernel⟩,
  ⟨(up.setFld TIDE.MODE 1), _, 0, 0, .fn 0, lands_of (by decide +kernel) (by decide +kernel), by decide +kernel⟩,
  ⟨((up.setFld TIDE.ALARM_SEL 3).modTide fun p => { p with alarms := [(3, { tide := 9 })] }), _, 0, 1023, true, true, false, lands_of
    (by decide +kernel) (by decide +kernel), by decide +kernel, by decide +kernel⟩,
  ⟨((up.setFld TIDE.ALARM_SEL 3).modTide fun p => { p with alarms := [(3, { tide := 9 })], now := 9 }), _, 0, 65535, true, true, false, lands_of
    (by decide +kernel) (by decide +kernel), by decide +kernel, by decide +kernel⟩,
  ⟨(up.setFld TIDE.ALARM_SEL 3), _, 0, 0, 0, true, false, false, lands_of (by decide +kernel) (by decide +kernel)⟩⟩

/-- States and operands that meet the hypotheses of `Obligations.TideSources`, clause by clause. -/
theorem test_met_TideSources :
  (∃ (s u : State) (now id ms : Nat) (req : Requester), s.lands now req 0x058 0x1A0 (srcWord 1 id ms) u ∧ id % 1024 ≤ 767 ∧ 1 ≤ ms % 65536 ∧ ms %
    65536 ≤ 60000 ∧ u.fld TIDE.SRC_ARG ≤ 2 ^ 62 ∧ Table.find? u.tide.sources (id % 1024) = none) ∧
  (∃ (s u : State) (now id ms : Nat) (req : Requester), s.lands now req 0x058 0x1A0 (srcWord 1 id ms) u ∧ 767 < id % 1024) ∧
  (∃ (s u : State) (now id : Nat) (req : Requester) (x : Source), s.lands now req 0x058 0x1A0 (srcWord 2 id (s.fld TIDE.IDLE_MS)) u ∧ id % 1024 ≤
    767 ∧ Table.find? u.tide.sources (id % 1024) = some x ∧ u.sourceHeld (id % 1024) = false) ∧
  (∃ (s u : State) (now id : Nat) (req : Requester) (x : Source), s.lands now req 0x058 0x1A0 (srcWord 2 id (s.fld TIDE.IDLE_MS)) u ∧ id % 1024 ≤
    767 ∧ Table.find? u.tide.sources (id % 1024) = some x ∧ u.sourceHeld (id % 1024) = true) ∧
  (∃ (s u : State) (now id : Nat) (req : Requester) (x : Source), s.lands now req 0x058 0x1A0 (srcWord 3 id (s.fld TIDE.IDLE_MS)) u ∧ id % 1024 ≤
    767 ∧ Table.find? u.tide.sources (id % 1024) = some x) ∧
  (∃ (s u : State) (now id : Nat) (req : Requester) (x : Source), s.lands now req 0x058 0x1A0 (srcWord 4 id (s.fld TIDE.IDLE_MS)) u ∧ id % 1024 ≤
    767 ∧ Table.find? u.tide.sources (id % 1024) = some x) ∧
  (∃ (s u : State) (now id : Nat) (req : Requester) (x : Source), s.lands now req 0x058 0x1A0 (srcWord 5 id (s.fld TIDE.IDLE_MS)) u ∧ id % 1024 ≤
    767 ∧ Table.find? u.tide.sources (id % 1024) = some x) ∧
  (∃ (s u : State) (now id : Nat) (req : Requester) (x : Source), s.lands now req 0x058 0x1A0 (srcWord 6 id (s.fld TIDE.IDLE_MS)) u ∧ id % 1024 ≤
    767 ∧ Table.find? u.tide.sources (id % 1024) = some x) ∧
  (∃ (s : State) (now id : Nat) (x : Source), Table.find? s.tide.sources id = some x ∧ x.idle = false ∧ x.heard + x.idleMs * 1000000 ≤ max s.chrono
    now) ∧
  (∃ (s : State) (now id : Nat) (x : Source), Table.find? s.tide.sources id = some x ∧ max s.chrono now < x.heard + x.idleMs * 1000000) ∧
  (∃ (s u : State) (now id : Nat) (req : Requester), s.lands now req 0x058 0x1A0 (srcWord 3 id (s.fld TIDE.IDLE_MS)) u ∧ id % 1024 ≤ 767 ∧
    Table.find? u.tide.sources (id % 1024) = none) :=
  ⟨⟨(up.setFld TIDE.SRC_ARG 4), _, 0, 767, 60000, .fn 0, lands_of (by decide +kernel) (by decide +kernel), by decide +kernel, by decide +kernel,
    by decide +kernel, by decide +kernel, by decide +kernel⟩,
  ⟨up, _, 0, 768, 0, .fn 0, lands_of (by decide +kernel) (by decide +kernel), by decide +kernel⟩,
  ⟨(up.modTide fun p => { p with sources := [(5, { delay := 2, idleMs := 1 })] }), _, 0, 5, .fn 0, { delay := 2, idleMs := 1 }, lands_of
    (by decide +kernel) (by decide +kernel), by decide +kernel, by decide +kernel, by decide +kernel⟩,
  ⟨((up.modTide fun p => { p with sources := [(5, { delay := 2, idleMs := 1 })] }).modWork fun p =>
    { p with jobs := [(1, { aJob with binds := [⟨5, false, 5, 0, 0, 0, [], none, false⟩] })] }), _, 0, 5, .fn 0, { delay := 2, idleMs := 1 },
    lands_of (by decide +kernel) (by decide +kernel), by decide +kernel, by decide +kernel, by decide +kernel⟩,
  ⟨((up.modTide fun p => { p with sources := [(5, { delay := 2, idleMs := 1 })] }).setFld TIDE.SRC_ARG 40), _, 0, 5, .fn 0,
    { delay := 2, idleMs := 1 }, lands_of (by decide +kernel) (by decide +kernel), by decide +kernel, by decide +kernel⟩,
  ⟨(up.modTide fun p => { p with sources := [(5, { delay := 2, idleMs := 1 })] }), _, 0, 5, .fn 0, { delay := 2, idleMs := 1 }, lands_of
    (by decide +kernel) (by decide +kernel), by decide +kernel, by decide +kernel⟩,
  ⟨(up.modTide fun p => { p with sources := [(5, { delay := 2, idleMs := 1, idle := true })] }), _, 0, 5, .fn 0,
    { delay := 2, idleMs := 1, idle := true }, lands_of (by decide +kernel) (by decide +kernel), by decide +kernel, by decide +kernel⟩,
  ⟨(up.modTide fun p => { p with sources := [(5, { delay := 2, idleMs := 1, idle := true, w := 8 })] }), _, 0, 5, .fn 0,
    { delay := 2, idleMs := 1, idle := true, w := 8 }, lands_of (by decide +kernel) (by decide +kernel), by decide +kernel, by decide +kernel⟩,
  ⟨(up.modTide fun p => { p with sources := [(5, { delay := 2, idleMs := 1, heard := 4 })] }), 1000004, 5, { delay := 2, idleMs := 1, heard := 4 },
    by decide +kernel, by decide +kernel, by decide +kernel⟩,
  ⟨(up.modTide fun p => { p with sources := [(5, { delay := 2, idleMs := 1, heard := 4 })] }), 1000003, 5, { delay := 2, idleMs := 1, heard := 4 },
    by decide +kernel, by decide +kernel⟩,
  ⟨up, _, 0, 5, .fn 0, lands_of (by decide +kernel) (by decide +kernel), by decide +kernel, by decide +kernel⟩⟩

/-- States and operands that meet the hypotheses of `Obligations.IntakeLog`, clause by clause. -/
theorem test_met_IntakeLog :
  (∃ (s : State) (j : Nat) (job : Job), s.job? j = some job) ∧
  (∃ (s : State) (j : Nat), s.job? j = none) ∧
  (∃ (s u : State) (now head : Nat) (req : Requester), s.lands now req 0x070 0x118 (BitVec.ofNat 64 (head % 65536)) u ∧ head % 65536 < u.dlogDepth
    ∧ occupancy (bitsOf (s.word 0 0x070 0x118) 15 0) (head % 65536) u.dlogDepth ≤ occupancy (bitsOf (s.word 0 0x070 0x118) 15 0) u.dlog.tail
    u.dlogDepth) ∧
  (∃ (s u : State) (now head : Nat) (req : Requester), s.lands now req 0x070 0x118 (BitVec.ofNat 64 (head % 65536)) u ∧ u.dlogDepth ≤ head % 65536) ∧
  (∃ (s u : State) (now : Nat) (req : Requester), s.lands now req 0x070 0x110 1#64 u ∧ (s.word 0 0x070 0x110).getLsbD 0 = false ∧ 4 ≤ u.fld
    INTAKE.LOG_DEPTH ∧ u.fld INTAKE.LOG_DEPTH ≤ 16 ∧ u.fld INTAKE.DLOG_BASE % 4096 = 0 ∧ engineMapped (u.fld INTAKE.DLOG_BASE) (64 * 2 ^ u.fld
    INTAKE.LOG_DEPTH) = true) ∧
  (∃ (s u : State) (now : Nat) (req : Requester), s.lands now req 0x070 0x110 1#64 u ∧ (s.word 0 0x070 0x110).getLsbD 0 = false ∧ u.fld
    INTAKE.LOG_DEPTH < 4) :=
  ⟨⟨(up.modWork fun p => { p with jobs := [(1, aJob)] }), 1, aJob, by decide +kernel⟩,
  ⟨up, 1, by decide +kernel⟩,
  ⟨({ (up.setFld INTAKE.LOG_DEPTH 4) with dlog := { tail := 3, seq := 3 } }), _, 0, 3, .fn 0, lands_of (by decide +kernel) (by decide +kernel),
    by decide +kernel, by decide +kernel⟩,
  ⟨({ ((up.setFld INTAKE.LOG_DEPTH 4).setFld INTAKE.DLOG_HEAD 2) with dlog := { tail := 3, seq := 3 } }), _, 0, 16, .fn 0, lands_of
    (by decide +kernel) (by decide +kernel), by decide +kernel⟩,
  ⟨({ ((up.setFld INTAKE.LOG_DEPTH 4).setFld INTAKE.DLOG_BASE 0x001000000000) with dlog := { tail := 3, seq := 3 } }), _, 0, .fn 0, lands_of
    (by decide +kernel) (by decide +kernel), by decide +kernel, by decide +kernel, by decide +kernel, by decide +kernel, by decide +kernel⟩,
  ⟨(up.setFld INTAKE.LOG_DEPTH 3), _, 0, .fn 0, lands_of (by decide +kernel) (by decide +kernel), by decide +kernel, by decide +kernel⟩⟩

/-- States and operands that meet the hypotheses of `Obligations.Dictionaries`, clause by clause. -/
theorem test_met_Dictionaries :
  (∃ (s u : State) (now slot : Nat) (req : Requester), s.lands now req 0x080 0x108 (dictWord 1 slot) u ∧ u.bit CHURN.BUSY = false) ∧
  (∃ (s u : State) (now slot : Nat) (req : Requester), s.lands now req 0x080 0x108 (dictWord 1 slot) u ∧ u.bit CHURN.BUSY = true) ∧
  (∃ (s : State), Table.has s.churn.dicts (s.fld CHURN.SLOT) = true) ∧
  (∃ (s : State), Table.has s.churn.dicts (s.fld CHURN.SLOT) = false ∧ 8 ≤ s.fld CHURN.DICT_LEN ∧ s.fld CHURN.DICT_LEN ≤ 1048576 ∧ sameSpace (s.fld
    CHURN.DICT_ADDR) (s.fld CHURN.DICT_LEN) = true ∧ spaceOf (s.fld CHURN.DICT_ADDR) = .vat ∧ leAt (s.loadBytes (s.fld CHURN.DICT_ADDR) (s.fld
    CHURN.DICT_LEN)) 0 4 = 0xEC30A437 ∧ leAt (s.loadBytes (s.fld CHURN.DICT_ADDR) (s.fld CHURN.DICT_LEN)) 4 4 ≠ 0 ∧ (s.churn.dicts.any (fun e =>
    e.2.id == leAt (s.loadBytes (s.fld CHURN.DICT_ADDR) (s.fld CHURN.DICT_LEN)) 4 4) = false) ∧ s.dictBytes + s.fld CHURN.DICT_LEN ≤ 0x4000000 ∧
    pagesMib (s.dictBytes + s.fld CHURN.DICT_LEN) - pagesMib s.dictBytes ≤ s.skimFree) ∧
  (∃ (s u : State) (now slot : Nat) (req : Requester), s.lands now req 0x080 0x108 (dictWord 2 slot) u ∧ u.bit CHURN.BUSY = false ∧ Table.has
    u.churn.dicts (u.fld CHURN.SLOT) = true) ∧
  (∃ (s : State) (slot : Nat), s.churn.unreg = some slot ∧ s.dictInUse slot = false) ∧
  (∃ (s : State) (slot : Nat), s.churn.unreg = some slot ∧ s.dictInUse slot = true) ∧
  (∃ (s u : State) (now slot : Nat) (req : Requester), s.lands now req 0x080 0x108 (dictWord 3 slot) u ∧ u.bit CHURN.BUSY = false) :=
  ⟨⟨up, _, 0, 5, .fn 0, lands_of (by decide +kernel) (by decide +kernel), by decide +kernel⟩,
  ⟨(up.setFld CHURN.BUSY 1), _, 0, 5, .fn 0, lands_of (by decide +kernel) (by decide +kernel), by decide +kernel⟩,
  ⟨({ (up.setFld CHURN.SLOT 5) with churn := { dicts := [(5, ⟨7, [1, 2]⟩)] } }), by decide +kernel⟩,
  ⟨({ (((up.setFld CHURN.SLOT 5).setFld CHURN.DICT_LEN 8).setFld CHURN.DICT_ADDR 0x1000) with mem := [(0x1000, 0x37#8), (0x1001, 0xA4#8), (0x1002, 0x30#8), (0x1003, 0xEC#8), (0x1004, 1#8)] }),
    by decide +kernel, by decide +kernel, by decide +kernel, by decide +kernel, by decide +kernel, by decide +kernel, by decide +kernel,
    by decide +kernel, by decide +kernel, by decide +kernel⟩,
  ⟨({ up with churn := { dicts := [(5, ⟨7, [1, 2]⟩)] } }), _, 0, 5, .fn 0, lands_of (by decide +kernel) (by decide +kernel), by decide +kernel,
    by decide +kernel⟩,
  ⟨({ up with churn := { dicts := [(5, ⟨7, [1, 2]⟩)], unreg := some 5 } }), 5, by decide +kernel, by decide +kernel⟩,
  ⟨(({ up with churn := { dicts := [(5, ⟨7, [1, 2]⟩)], unreg := some 5 } }).modWork fun p =>
    { p with jobs := [(1, { aJob with plan := ⟨0, 0, 0, [], [⟨2, 0, 0, 0, 0, 0, 0, 0, 0, [.none, .none], []⟩], []⟩, eng := [(0, { tags := [5] })] })] }),
    5, by decide +kernel, by decide +kernel⟩,
  ⟨({ up with churn := { dicts := [(5, ⟨7, [1, 2]⟩)] } }), _, 0, 5, .fn 0, lands_of (by decide +kernel) (by decide +kernel), by decide +kernel⟩⟩

/-- States and operands that meet the hypotheses of `Obligations.StrainerWindows`, clause by clause. -/
theorem test_met_StrainerWindows :
  (∃ (s u : State) (now : Nat) (req : Requester), s.lands now req 0x0A0 0x108 (BitVec.ofNat 64 (1 + s.winUnits false % 4 * 256)) u ∧ u.bit
    STRAINER.W_BUSY = false) ∧
  (∃ (s u : State) (now : Nat) (req : Requester), s.lands now req 0x0A0 0x108 (BitVec.ofNat 64 (2 + s.winUnits false % 4 * 256)) u ∧ u.bit
    STRAINER.W_BUSY = false) ∧
  (∃ (s u : State) (now : Nat) (req : Requester), s.lands now req 0x0A0 0x108 (BitVec.ofNat 64 (3 + s.winUnits false % 4 * 256)) u ∧ u.bit
    STRAINER.W_BUSY = false) ∧
  (∃ (s u : State) (now units : Nat) (req : Requester), s.lands now req 0x0A0 0x108 (BitVec.ofNat 64 (4 + units % 4 * 256)) u ∧ u.bit
    STRAINER.W_BUSY = false) ∧
  (∃ (s u : State) (now : Nat), s.lands now .cores 0x0A0 0x208 (BitVec.ofNat 64 (1 + s.winUnits true % 4 * 256)) u ∧ u.bit (winField true
    STRAINER.W_BUSY) = false) ∧
  (∃ (s u : State) (now : Nat) (req : Requester), s.lands now req 0x0A0 0x208 (BitVec.ofNat 64 (1 + s.winUnits true % 4 * 256)) u ∧ req ≠ .cores) ∧
  (∃ (s : State) (op b i : Nat), b = s.fld STRAINER.W_SEL_BANK ∧ i = s.fld STRAINER.W_SEL_INDEX ∧ s.bankOos b = false ∧ i < s.bankEntries b ∧ (op =
    2 ∨ s.bit (STRAINER.HOST_WP.at b) = false)) ∧
  (∃ (s : State), s.bankOos (s.fld STRAINER.W_SEL_BANK) = true) ∧
  (∃ (s : State), s.bankOos (s.fld STRAINER.W_SEL_BANK) = false ∧ s.fld STRAINER.W_SEL_INDEX < s.bankEntries (s.fld STRAINER.W_SEL_BANK) ∧ s.bit
    (STRAINER.HOST_WP.at (s.fld STRAINER.W_SEL_BANK)) = true) :=
  ⟨⟨((up.setFld STRAINER.W_SEL_BANK 3).setFld STRAINER.W_SEL_INDEX 9), _, 0, .fn 0, lands_of (by decide +kernel) (by decide +kernel),
    by decide +kernel⟩,
  ⟨((up.setFld STRAINER.W_SEL_BANK 3).setFld STRAINER.W_SEL_INDEX 9), _, 0, .fn 0, lands_of (by decide +kernel) (by decide +kernel),
    by decide +kernel⟩,
  ⟨((up.setFld STRAINER.W_SEL_BANK 3).setFld STRAINER.W_SEL_INDEX 9), _, 0, .fn 0, lands_of (by decide +kernel) (by decide +kernel),
    by decide +kernel⟩,
  ⟨up, _, 0, 2, .fn 0, lands_of (by decide +kernel) (by decide +kernel), by decide +kernel⟩,
  ⟨(up.setFld (winField true STRAINER.W_SEL_BANK) 3), _, 0, lands_of (by decide +kernel) (by decide +kernel), by decide +kernel⟩,
  ⟨up, _, 0, .remote 3, lands_of (by decide +kernel) (by decide +kernel), by decide +kernel⟩,
  ⟨((up.setFld STRAINER.W_SEL_BANK 3).setFld STRAINER.W_SEL_INDEX 9), 1, 3, 9, by decide +kernel, by decide +kernel, by decide +kernel,
    by decide +kernel, by decide +kernel⟩,
  ⟨((up.setFld STRAINER.W_SEL_BANK 3).setFld (STRAINER.OOS.at 3) 1), by decide +kernel⟩,
  ⟨((up.setFld STRAINER.W_SEL_BANK 3).setFld (STRAINER.HOST_WP.at 3) 1), by decide +kernel, by decide +kernel, by decide +kernel⟩⟩

/-- States and operands that meet the hypotheses of `Obligations.StrainerBanks`, clause by clause. -/
theorem test_met_StrainerBanks :
  (∃ (s : State) (b i path : Nat), (((s.bankTouch b).bank b).writes.filter (fun w => w.1 == i && w.2 != path) = [])) ∧
  (∃ (s : State) (banks : Nat) (key : List Nat) (m : Match), s.searchBanks banks key = some m) ∧
  (∃ (s : State) (banks : Nat) (key : List Nat), s.searchBanks banks key = none) ∧
  (∃ (s : State) (banks : Nat) (key : List Nat) (m : Match), s.searchBanks banks key = some m) ∧
  (∃ (s u : State) (now b w : Nat) (req : Requester), b < 32 ∧ s.lands now req 0x0A0 (0x300 + 8 * b) (putBits (s.word 0 0x0A0 (0x300 + 8 * b)) 1 0
    w) u ∧ w ≤ 2 ∧ u.fld (STRAINER.WIDTH.at b) ≠ w ∧ u.bankLoading b = false) ∧
  (∃ (s u : State) (now b w : Nat) (req : Requester), b < 32 ∧ s.lands now req 0x0A0 (0x300 + 8 * b) (putBits (s.word 0 0x0A0 (0x300 + 8 * b)) 1 0
    w) u ∧ w ≤ 2 ∧ u.fld (STRAINER.WIDTH.at b) ≠ w ∧ u.bankLoading b = true) ∧
  (∃ (s u : State) (now b : Nat) (oos : Bool) (req : Requester), b < 32 ∧ s.lands now req 0x0A0 (0x300 + 8 * b) (putBits (s.word 0 0x0A0 (0x300 + 8
    * b)) 4 4 (ofBool oos)) u ∧ bitsOf (s.word 0 0x0A0 (0x300 + 8 * b)) 1 0 = u.fld (STRAINER.WIDTH.at b)) ∧
  (∃ (s : State) (b : Nat), b < 32 ∧ s.power.released = true ∧ s.bankOos b = false) ∧
  (∃ (s : State) (b : Nat), b < 32 ∧ s.bankOos b = true) ∧
  (∃ (s w : State) (now j st n done : Nat) (l : StrLoad) (job : Job), s.loadTurn j st = some l ∧ s.job? j = some job ∧ (bitsSet l.banks 32).any
    s.bankOos = false ∧ (s.at now).loadWrites (Table.findD (job.engOf st).texts 0 []) (job.engOf st).consumed n = (w, done) ∧ done < (Table.findD
    (job.engOf st).texts 0 []).length / 80) ∧
  (∃ (s : State) (j st : Nat), s.loadTurn j st = none) :=
  ⟨⟨(up.modStrainer fun p => { p with banks := [(4, { entries := [(9, ⟨true, 1, [1], [1]⟩)], writes := [(9, 2)] })] }), 4, 9, 2, by decide +kernel⟩,
  ⟨(up.modStrainer fun p => { p with banks := [(4, { entries := [(9, ⟨true, 1, [1], [0]⟩), (10, ⟨true, 1, [1], [0]⟩)] })] }), 16, [1],
    ((up.modStrainer fun p => { p with banks := [(4, { entries := [(9, ⟨true, 1, [1], [0]⟩), (10, ⟨true, 1, [1], [0]⟩)] })] }).searchBanks 16
    [1]).getD (0, 0, 0), by decide +kernel⟩,
  ⟨(up.modStrainer fun p => { p with banks := [(4, { entries := [(9, ⟨true, 1, [1], [1]⟩)] })] }), 16, [2], by decide +kernel⟩,
  ⟨(up.modStrainer fun p => { p with banks := [(4, { entries := [(9, ⟨true, 1, [1], [0]⟩), (10, ⟨true, 1, [1], [0]⟩)] })] }), 16, [1],
    ((up.modStrainer fun p => { p with banks := [(4, { entries := [(9, ⟨true, 1, [1], [0]⟩), (10, ⟨true, 1, [1], [0]⟩)] })] }).searchBanks 16
    [1]).getD (0, 0, 0), by decide +kernel⟩,
  ⟨((up.modStrainer fun p => { p with banks := [(4, { entries := [(0, ⟨true, 1, [1], [1]⟩)] })] }).setFld (STRAINER.VALID_COUNT.at 4) 1), _, 0, 4,
    2, .fn 0, by decide +kernel, lands_of (by decide +kernel) (by decide +kernel), by decide +kernel, by decide +kernel, by decide +kernel⟩,
  ⟨(up.modStrainer fun p => { p with loads := [⟨1, 0, 16⟩] }), _, 0, 4, 2, .fn 0, by decide +kernel, lands_of (by decide +kernel)
    (by decide +kernel), by decide +kernel, by decide +kernel, by decide +kernel⟩,
  ⟨up, _, 0, 4, true, .fn 0, by decide +kernel, lands_of (by decide +kernel) (by decide +kernel), by decide +kernel⟩,
  ⟨up, 31, by decide +kernel, by decide +kernel, by decide +kernel⟩,
  ⟨(up.setFld (STRAINER.OOS.at 31) 1), 31, by decide +kernel, by decide +kernel⟩,
  ⟨((up.modStrainer fun p => { p with loads := [⟨1, 0, 16⟩] }).modWork fun p =>
    { p with jobs := [(1, { aJob with eng := [(0, { texts := [(0, List.replicate 160 0#8)] })] })] }),
    (({ (up.modStrainer fun p => { p with loads := [⟨1, 0, 16⟩] }) with work := { (up).work with jobs := [(1, { aJob with eng := [(0, { texts := [(0, List.replicate 160 0#8)] })] })] } }
    : State).loadWrites (List.replicate 160 0#8) 0 1).1, 0, 1, 0, 1, 1, ⟨1, 0, 16⟩,
    { aJob with eng := [(0, { texts := [(0, List.replicate 160 0#8)] })] }, by decide +kernel, by decide +kernel, by decide +kernel,
    by decide +kernel, by decide +kernel⟩,
  ⟨up, 1, 0, by decide +kernel⟩⟩

/-- States and operands that meet the hypotheses of `Obligations.JoinCommands`, clause by clause. -/
theorem test_met_JoinCommands :
  (∃ (s : State) (now j st : Nat) (c : Ctx), (s.at now).stageCtx j st = some c ∧ (s.join j st).reloads = []) ∧
  (∃ (s : State) (now j st p : Nat) (rest : List Nat) (c : Ctx), (s.at now).stageCtx j st = some c ∧ (s.join j st).reloads = p :: rest) ∧
  (∃ (s : State) (j st rows : Nat) (job : Job), s.job? j = some job ∧ (job.plan.stage st).cls = 6 ∧ bitAt (job.plan.stage st).flags 1 = true ∧
    (job.engOf st).phase = 1 ∧ (s.join j st).ahead = none ∧ 0 < min rows (min (s.fld PRESS.SPEC_ROWS) ((inputLen job ((job.plan.stage st).in_ 0)).1
    - (job.engOf st).consumed)) ∧ sumTable s.tiers.runaheadUsed < 16 * s.fld VAT.RUNAHEAD_MAX ∧ s.work.slices = []) ∧
  (∃ (s : State) (j st : Nat) (job : Job), s.job? j = some job ∧ (job.engOf st).phase ≠ 1) ∧
  (∃ (s u : State) (now j : Nat) (p : Packet) (job : Job) (bytes : Bytes), s.power.released = true ∧ s.arrival p.dst p.src p.reqSeq = .fresh ∧
    (s.at now).joinRun p = (u, some bytes) ∧ u.jobByHerd p.job = some j ∧ u.job? j = some job ∧ job.status = 0 ∧ ¬(p.subtype = 0x20 ∧ p.arg0 % 2 =
    0 ∧ (u.rowsArrive j p.stage p.src (p.arg0 % 2) (p.arg0 / 2 ^ 32) p.arg1 bytes).bit TWIN.MIRROR_PRESS = true)) ∧
  (∃ (s u : State) (now j : Nat) (p : Packet) (job : Job) (bytes : Bytes), s.power.released = true ∧ s.arrival p.dst p.src p.reqSeq = .fresh ∧
    (s.at now).joinRun p = (u, some bytes) ∧ u.jobByHerd p.job = some j ∧ u.job? j = some job ∧ job.status = 0 ∧ p.subtype ≠ 0x20) ∧
  (∃ (s u : State) (now j : Nat) (p : Packet) (job : Job) (bytes : Bytes), s.power.released = true ∧ s.arrival p.dst p.src p.reqSeq = .fresh ∧
    (s.at now).joinRun p = (u, some bytes) ∧ u.jobByHerd p.job = some j ∧ u.job? j = some job ∧ job.status = 0 ∧ p.subtype ≠ 0x20) ∧
  (∃ (s : State) (p : Packet), s.power.released = true ∧ s.arrival p.dst p.src p.reqSeq = .below) :=
  ⟨⟨(up.modWork fun p => { p with jobs := [(1, aJob)] }), 0, 1, 0, ⟨1, 0, 0, 0, aPlan.stage 0, aPlan, 0, 0, false⟩, by decide +kernel,
    by decide +kernel⟩,
  ⟨(up.modWork fun p => { p with jobs := [(1, { aJob with joins := [(0, { reloads := [3, 4] })] })] }), 0, 1, 0, 3, [4], ⟨1, 0, 0, 0, aPlan.stage
    0, aPlan, 0, 0, false⟩, by decide +kernel, by decide +kernel⟩,
  ⟨(((up.setFld PRESS.SPEC_ROWS 8).setFld VAT.RUNAHEAD_MAX 1).modWork fun p =>
    { p with jobs := [(1, { aJob with plan := ⟨0, 0, 0, [], [⟨6, 0, 2, 0, 0, 0, 0, 0, 0, [.stage 0 0 0 0, .none], []⟩], []⟩, eng := [(0, { phase := 1 })], outs := [(0, [[], []])] })] }),
    1, 0, 5,
    { aJob with plan := ⟨0, 0, 0, [], [⟨6, 0, 2, 0, 0, 0, 0, 0, 0, [.stage 0 0 0 0, .none], []⟩], []⟩, eng := [(0, { phase := 1 })], outs := [(0, [[], []])] },
    by decide +kernel, by decide +kernel, by decide +kernel, by decide +kernel, by decide +kernel, by decide +kernel, by decide +kernel,
    by decide +kernel⟩,
  ⟨(up.modWork fun p => { p with jobs := [(1, aJob)] }), 1, 0, aJob, by decide +kernel, by decide +kernel⟩,
  ⟨(up.modWork fun p => { p with jobs := [(1, { aJob with herdId := 0 })] }), up.modWork fun p =>
    { p with jobs := [(1, { aJob with herdId := 0 })] }, 0, 1, { aPacket with subtype := 0x20, body := zeros 32 }, { aJob with herdId := 0 }, [],
    by decide +kernel, by decide +kernel, by decide +kernel, by decide +kernel, by decide +kernel, by decide +kernel, by decide +kernel⟩,
  ⟨(up.modWork fun p => { p with jobs := [(1, { aJob with herdId := 0 })] }), up.modWork fun p =>
    { p with jobs := [(1, { aJob with herdId := 0 })] }, 0, 1, { aPacket with subtype := 0x21, body := zeros 32 }, { aJob with herdId := 0 }, [],
    by decide +kernel, by decide +kernel, by decide +kernel, by decide +kernel, by decide +kernel, by decide +kernel, by decide +kernel⟩,
  ⟨(up.modWork fun p => { p with jobs := [(1, { aJob with herdId := 0 })] }), up.modWork fun p =>
    { p with jobs := [(1, { aJob with herdId := 0 })] }, 0, 1, { aPacket with subtype := 0x21, body := zeros 32 }, { aJob with herdId := 0 }, [],
    by decide +kernel, by decide +kernel, by decide +kernel, by decide +kernel, by decide +kernel, by decide +kernel, by decide +kernel⟩,
  ⟨(up.modFabric fun p => { p with windows := [(1, ⟨10000, []⟩)] }), { aPacket with reqSeq := 5 }, by decide +kernel, by decide +kernel⟩⟩

/-- States and operands that meet the hypotheses of `Obligations.WindowStores`, clause by clause. -/
theorem test_met_WindowStores :
  (∃ (s u : State) (now id tier quota : Nat) (req : Requester), s.lands now req 0x0AC 0x100 (BitVec.ofNat 64 (id % 256 + 256 + tier % 4 * 2 ^ 16 +
    quota % 2 ^ 17 * 2 ^ 32)) u ∧ u.tiersReady = true ∧ Table.find? u.stores (id % 256) = none ∧ (tier % 4 = 1 ∨ tier % 4 = 2) ∧ 1 ≤ quota % 2 ^ 17
    ∧ quota % 2 ^ 17 ≤ 65536 ∧ quota % 2 ^ 17 ≤ u.tierFree (tier % 4)) ∧
  (∃ (s u : State) (now id tier quota : Nat) (x : WinStore) (req : Requester), s.lands now req 0x0AC 0x100 (BitVec.ofNat 64 (id % 256 + 256 + tier
    % 4 * 2 ^ 16 + quota % 2 ^ 17 * 2 ^ 32)) u ∧ u.tiersReady = true ∧ Table.find? u.stores (id % 256) = some x) ∧
  (∃ (s u : State) (now id tier quota : Nat) (req : Requester), s.lands now req 0x0AC 0x100 (BitVec.ofNat 64 (id % 256 + 256 + tier % 4 * 2 ^ 16 +
    quota % 2 ^ 17 * 2 ^ 32)) u ∧ u.tiersReady = false) ∧
  (∃ (s u : State) (now id : Nat) (x : WinStore) (req : Requester), s.lands now req 0x0AC 0x100 (s.storeWord 2 id) u ∧ u.tiersReady = true ∧
    Table.find? u.stores (id % 256) = some x ∧ u.storeHeld (id % 256) = false) ∧
  (∃ (s u : State) (now id : Nat) (x : WinStore) (req : Requester), s.lands now req 0x0AC 0x100 (s.storeWord 2 id) u ∧ u.tiersReady = true ∧
    Table.find? u.stores (id % 256) = some x ∧ u.storeHeld (id % 256) = true) ∧
  (∃ (s u : State) (now id : Nat) (req : Requester), s.lands now req 0x0AC 0x100 (s.storeWord 3 id) u ∧ u.tiersReady = true) ∧
  (∃ (s u : State) (now id : Nat) (x : WinStore) (req : Requester), s.lands now req 0x0AC 0x100 (s.storeWord 4 id) u ∧ u.tiersReady = true ∧
    Table.find? u.stores (id % 256) = some x ∧ u.storeHeld (id % 256) = false) ∧
  (∃ (s u : State) (now id : Nat) (req : Requester), s.lands now req 0x0AC 0x100 (s.storeWord 4 id) u ∧ u.tiersReady = true ∧ Table.find? u.stores
    (id % 256) = none) :=
  ⟨⟨up, _, 0, 255, 2, 65535, .fn 0, lands_of (by decide +kernel) (by decide +kernel), by decide +kernel, by decide +kernel, by decide +kernel,
    by decide +kernel, by decide +kernel, by decide +kernel⟩,
  ⟨({ up with stores := [(255, { quota := 4 })] }), _, 0, 255, 2, 1, { quota := 4 }, .fn 0, lands_of (by decide +kernel) (by decide +kernel),
    by decide +kernel, by decide +kernel⟩,
  ⟨(up.setFld LEAVE.TIERS_READY 0), _, 0, 255, 2, 1, .fn 0, lands_of (by decide +kernel) (by decide +kernel), by decide +kernel⟩,
  ⟨({ up with stores := [(255, { quota := 4 })] }), _, 0, 255, { quota := 4 }, .fn 0, lands_of (by decide +kernel) (by decide +kernel),
    by decide +kernel, by decide +kernel, by decide +kernel⟩,
  ⟨(({ up with stores := [(255, { quota := 4 })] }).modWork fun p =>
    { p with jobs := [(1, { aJob with plan := ⟨0, 0, 0, [], [⟨7, 2, 0, 0, 0, 0, 16, 0, 0, [.none, .none], []⟩], [0#8,0#8,0#8,0#8,0#8,255#8,0#8,0#8,0#8,0#8,0#8,0#8,0#8,0#8,5#8,0#8]⟩ })] }),
    _, 0, 255, { quota := 4 }, .fn 0, lands_of (by decide +kernel) (by decide +kernel), by decide +kernel, by decide +kernel, by decide +kernel⟩,
  ⟨({ up with stores := [(255, { quota := 4 })] }), _, 0, 255, .fn 0, lands_of (by decide +kernel) (by decide +kernel), by decide +kernel⟩,
  ⟨({ up with stores := [(255, { quota := 4, gone := 9 })] }), _, 0, 255, { quota := 4, gone := 9 }, .fn 0, lands_of (by decide +kernel)
    (by decide +kernel), by decide +kernel, by decide +kernel, by decide +kernel⟩,
  ⟨up, _, 0, 255, .fn 0, lands_of (by decide +kernel) (by decide +kernel), by decide +kernel, by decide +kernel⟩⟩

/-- States and operands that meet the hypotheses of `Obligations.TableCommands`, clause by clause. -/
theorem test_met_TableCommands :
  (∃ (s u : State) (now t : Nat) (req : Requester), s.lands now req 0x0C0 0x100 (tblWord 1 t) u ∧ u.bit LADLE.BUSY = false ∧ u.tiersReady = true ∧
    u.isLead = true) ∧
  (∃ (s : State) (t : Nat), s.ltable t = none ∧ tableOk (s.fld LADLE.DTYPE) (s.fld LADLE.HOME) (s.fld LADLE.DIM) (s.fld LADLE.ROWS) = true ∧ s.fld
    LADLE.DEFAULT_ADDR = 0) ∧
  (∃ (s : State) (t : Nat), s.ltable t = none ∧ tableOk (s.fld LADLE.DTYPE) (s.fld LADLE.HOME) (s.fld LADLE.DIM) (s.fld LADLE.ROWS) = false) ∧
  (∃ (s u : State) (now t : Nat) (req : Requester), s.lands now req 0x0C0 0x100 (tblWord 2 t) u ∧ u.bit LADLE.BUSY = false ∧ u.tiersReady = true ∧
    u.isLead = true ∧ u.tblInUse (t % 4096) = false ∧ (u.ltable (t % 4096)).isSome = true) ∧
  (∃ (s u : State) (now t : Nat) (req : Requester), s.lands now req 0x0C0 0x100 (tblWord 2 t) u ∧ u.bit LADLE.BUSY = false ∧ u.tiersReady = true ∧
    u.isLead = false) ∧
  (∃ (s u : State) (now t : Nat) (req : Requester), s.lands now req 0x0C0 0x100 (tblWord 3 t) u ∧ u.bit LADLE.BUSY = false ∧ u.tiersReady = true) ∧
  (∃ (s u : State) (now t : Nat) (x : LTable) (req : Requester), s.lands now req 0x0C0 0x100 (tblWord 4 t) u ∧ u.bit LADLE.BUSY = false ∧
    u.tiersReady = true ∧ u.ltable (t % 4096) = some x ∧ x.home = 2 ∧ u.fld LADLE.BIND_ADDR + x.rows * x.stride ≤ 0x400000000000) ∧
  (∃ (s u : State) (now t : Nat) (req : Requester), s.lands now req 0x0C0 0x100 (tblWord 5 t) u ∧ u.bit LADLE.BUSY = false ∧ u.tiersReady = true ∧
    u.isLead = true ∧ (u.ltable (t % 4096)).isSome = true) ∧
  (∃ (s u : State) (now t : Nat) (x : LTable) (req : Requester), s.lands now req 0x0C0 0x100 (tblWord 6 t) u ∧ u.bit LADLE.BUSY = false ∧
    u.tiersReady = true ∧ u.ltable (t % 4096) = some x) ∧
  (∃ (s u : State) (now t : Nat) (req : Requester), s.lands now req 0x0C0 0x100 (tblWord 3 t) u ∧ u.bit LADLE.BUSY = true) ∧
  (∃ (s : State) (c : TblCmd), s.ladle.cmd = some c ∧ c.missing = [] ∧ c.result < 16) ∧
  (∃ (s : State) (c : TblCmd), s.ladle.cmd = some c ∧ c.missing ≠ []) :=
  ⟨⟨up, _, 0, 7, .fn 0, lands_of (by decide +kernel) (by decide +kernel), by decide +kernel, by decide +kernel, by decide +kernel⟩,
  ⟨((((up.setFld LADLE.DTYPE 0x0B).setFld LADLE.HOME 1).setFld LADLE.DIM 16).setFld LADLE.ROWS 100), 7, by decide +kernel, by decide +kernel,
    by decide +kernel⟩,
  ⟨((((up.setFld LADLE.DTYPE 0x0B).setFld LADLE.HOME 1).setFld LADLE.DIM 0).setFld LADLE.ROWS 100), 7, by decide +kernel, by decide +kernel⟩,
  ⟨(up.modLadle fun p =>
    { p with tables := [(7, { dtype := 0x0B, dim := 16, home := 1, rows := 4, seed := 0, quota := 0, dflt := [], members := [0] })] }), _, 0, 7,
    .fn 0, lands_of (by decide +kernel) (by decide +kernel), by decide +kernel, by decide +kernel, by decide +kernel, by decide +kernel,
    by decide +kernel⟩,
  ⟨((({ up with node := ⟨3, true⟩ }).modHerd fun p => { p with lead := 4 }).modLadle fun p =>
    { p with tables := [(7, { dtype := 0x0B, dim := 16, home := 1, rows := 4, seed := 0, quota := 0, dflt := [], members := [0] })] }), _, 0, 7,
    .fn 0, lands_of (by decide +kernel) (by decide +kernel), by decide +kernel, by decide +kernel, by decide +kernel⟩,
  ⟨(up.modLadle fun p =>
    { p with tables := [(7, { dtype := 0x0B, dim := 16, home := 1, rows := 4, seed := 0, quota := 0, dflt := [], members := [0] })] }), _, 0, 7,
    .fn 0, lands_of (by decide +kernel) (by decide +kernel), by decide +kernel, by decide +kernel⟩,
  ⟨((up.modLadle fun p =>
    { p with tables := [(7, { dtype := 0x0B, dim := 16, home := 2, rows := 4, seed := 0, quota := 0, dflt := [], members := [0] })] }).setFld
    LADLE.BIND_ADDR 0x1000), _, 0, 7, { dtype := 0x0B, dim := 16, home := 2, rows := 4, seed := 0, quota := 0, dflt := [], members := [0] }, .fn 0,
    lands_of (by decide +kernel) (by decide +kernel), by decide +kernel, by decide +kernel, by decide +kernel, by decide +kernel,
    by decide +kernel⟩,
  ⟨(up.modLadle fun p =>
    { p with tables := [(7, { dtype := 0x0B, dim := 16, home := 1, rows := 4, seed := 0, quota := 0, dflt := [], members := [0] })] }), _, 0, 7,
    .fn 0, lands_of (by decide +kernel) (by decide +kernel), by decide +kernel, by decide +kernel, by decide +kernel, by decide +kernel⟩,
  ⟨((up.modLadle fun p =>
    { p with tables := [(7, { dtype := 0x0B, dim := 16, home := 1, rows := 4, seed := 0, quota := 0, dflt := [], members := [0, 3] })] }).setFld
    LADLE.SHARD 65535), _, 0, 7, { dtype := 0x0B, dim := 16, home := 1, rows := 4, seed := 0, quota := 0, dflt := [], members := [0, 3] }, .fn 0,
    lands_of (by decide +kernel) (by decide +kernel), by decide +kernel, by decide +kernel, by decide +kernel⟩,
  ⟨(up.setFld LADLE.BUSY 1), _, 0, 7, .fn 0, lands_of (by decide +kernel) (by decide +kernel), by decide +kernel⟩,
  ⟨((up.modLadle fun p => { p with cmd := some ⟨1, 7, [], 2⟩ }).setFld LADLE.BUSY 1), ⟨1, 7, [], 2⟩, by decide +kernel, by decide +kernel,
    by decide +kernel⟩,
  ⟨(up.modLadle fun p => { p with cmd := some ⟨1, 7, [3], 0⟩ }), ⟨1, 7, [3], 0⟩, by decide +kernel, by decide +kernel⟩⟩

/-- States and operands that meet the hypotheses of `Obligations.StepMessages`, clause by clause. -/
theorem test_met_StepMessages :
  (∃ (s u : State) (now : Nat) (p : Packet) (bytes : Bytes), s.arrives now p u bytes) ∧
  (∃ (s : State) (p : Packet), s.power.released = true ∧ p.subtype = 0x13) ∧
  (∃ (s : State) (p : Packet), s.ltable p.obj = none) ∧
  (∃ (s : State) (p : Packet) (x : LTable), s.ltable p.obj = some x ∧ x.home = 1 ∧ p.arg0 % 65536 = 1 ∧ s.ownerWay x (x.shardOf (leAt p.payload 0
    8)) = .here ∧ p.arg1 % 2 ^ 32 ≠ 0) ∧
  (∃ (s : State) (p : Packet), s.arrival p.dst p.src p.reqSeq = .below) :=
  ⟨⟨up, up, 0, { aPacket with subtype := 0x10, body := zeros 40 }, zeros 8, arrives_of (by decide +kernel) (by decide +kernel) (by decide +kernel)⟩,
  ⟨up, { aPacket with subtype := 0x13, tag := 4 }, by decide +kernel, by decide +kernel⟩,
  ⟨up, { aPacket with subtype := 0x10, body := zeros 40 }, by decide +kernel⟩,
  ⟨(up.modLadle fun p =>
    { p with tables := [(0, { dtype := 0x0B, dim := 16, home := 1, rows := 4, seed := 0, quota := 0, dflt := zeros 64, members := [0] })] }),
    { aPacket with subtype := 0x10, body := zeros 16 ++ leBytes 8 1 ++ zeros 0 ++ leBytes 4 64 ++ leBytes 4 0 ++ leBytes 8 2 },
    { dtype := 0x0B, dim := 16, home := 1, rows := 4, seed := 0, quota := 0, dflt := zeros 64, members := [0] }, by decide +kernel,
    by decide +kernel, by decide +kernel, by decide +kernel, by decide +kernel⟩,
  ⟨(up.modFabric fun p => { p with windows := [(1, ⟨10000, []⟩)] }), { aPacket with reqSeq := 5, subtype := 0x11 }, by decide +kernel⟩⟩

/-- States and operands that meet the hypotheses of `Obligations.MigrationMessages`, clause by clause. -/
theorem test_met_MigrationMessages :
  (∃ (s u : State) (now : Nat) (p : Packet) (bytes : Bytes), s.arrives now p u bytes) ∧
  (∃ (s : State) (eff : Nat), s.tide.now < eff) ∧
  (∃ (s : State) (j : Nat) (job : Job), s.job? j = some job ∧ job.status ≠ 0) ∧
  (∃ (s : State) (j st rows n : Nat) (job : Job) (x : LTable), s.job? j = some job ∧ s.ltable (job.bind ((job.plan.stage st).in_ 1).slot).aux =
    some x ∧ n = min rows (min (s.fld LADLE.PREFETCH_ROWS) ((inputLen job ((job.plan.stage st).in_ 0)).1 - (job.engOf st).consumed)) ∧
    (job.plan.stage st).cls = 0x0A ∧ (job.plan.stage st).op = 1 ∧ bitAt (job.plan.stage st).flags 1 = true ∧ (job.engOf st).phase = 0 ∧
    job.ended.contains st = false ∧ job.status = 0 ∧ 0 < n ∧ sumTable s.tiers.runaheadUsed < 16 * s.fld VAT.RUNAHEAD_MAX ∧ (((pagesOf 0x0A).any fun
    p => s.accepts p && (s.pageSlices p).all fun y => y.2.state != .running) = true) ∧ (x.home ≠ 2 ∨ s.fld HOSTIF.RUNAHEAD_HOST = 1) ∧
    ((s.ladle.prefetched.any fun p => p.job == j && p.stage == st) = false)) :=
  ⟨⟨up, up, 0, { aPacket with subtype := 0x10, body := zeros 40 }, zeros 8, arrives_of (by decide +kernel) (by decide +kernel) (by decide +kernel)⟩,
  ⟨up, 1, by decide +kernel⟩,
  ⟨(up.modWork fun p => { p with jobs := [(1, { aJob with status := 0x11 })] }), 1, { aJob with status := 0x11 }, by decide +kernel,
    by decide +kernel⟩,
  ⟨((((up.setFld LADLE.PREFETCH_ROWS 8).setFld VAT.RUNAHEAD_MAX 1).modLadle fun p =>
    { p with tables := [(7, { dtype := 0x0B, dim := 16, home := 1, rows := 4, seed := 0, quota := 0, dflt := zeros 64, members := [0] })] }).modWork
    fun p =>
    { p with jobs := [(1, { aJob with plan := ⟨0, 0, 0, [], [⟨0x0A, 1, 2, 0, 0, 0, 0, 0, 0, [.stage 0 0 0 0, .bind 0 0 0], []⟩], []⟩, binds := [⟨4, false, 7, 0, 0, 0, [], none, false⟩], outs := [(0, [[], []])] })] }),
    1, 0, 5, 2,
    { aJob with plan := ⟨0, 0, 0, [], [⟨0x0A, 1, 2, 0, 0, 0, 0, 0, 0, [.stage 0 0 0 0, .bind 0 0 0], []⟩], []⟩, binds := [⟨4, false, 7, 0, 0, 0, [], none, false⟩], outs := [(0, [[], []])] },
    { dtype := 0x0B, dim := 16, home := 1, rows := 4, seed := 0, quota := 0, dflt := zeros 64, members := [0] }, by decide +kernel,
    by decide +kernel, by decide +kernel, by decide +kernel, by decide +kernel, by decide +kernel, by decide +kernel, by decide +kernel,
    by decide +kernel, by decide +kernel, by decide +kernel, by decide +kernel, by decide +kernel, by decide +kernel⟩⟩

/-- States and operands that meet the hypotheses of `Obligations.LinkTraining`, clause by clause. -/
theorem test_met_LinkTraining :
  (∃ (s : State) (now k : Nat), k < 6 ∧ (s.link k).state = 0 ∧ (s.link k).leaving = false ∧ s.pageOos (zpage k) = false ∧ bitAt s.pins.cables k =
    true ∧ s.good 5 = true ∧ s.power.released = true ∧ ((s.link k).mayTrain = true ∨ (s.link k).downAt + 1000000000 ≤ max s.chrono now)) ∧
  (∃ (s : State) (k : Nat), k < 6 ∧ (s.link k).state ≠ 0) ∧
  (∃ (s : State) (k : Nat), k < 6 ∧ (s.link k).state = 1 ∧ (s.link k).equalised = false) ∧
  (∃ (s : State) (k lanes : Nat), k < 6 ∧ (s.link k).state = 1 ∧ (s.link k).equalised = false ∧ lanes % 256 ≠ 255) ∧
  (∃ (s u : State) (now k : Nat), k < 6 ∧ u = (s.at now).ctrlIn k ∧ (u.link k).state = 1 ∧ (u.link k).equalised = true ∧ (u.link k).configured =
    false) ∧
  (∃ (s u : State) (now k : Nat) (b : Bytes), k < 6 ∧ u = (s.at now).ctrlIn k ∧ (u.link k).state = 1 ∧ (u.link k).configured = true ∧ byteAt b 0 =
    3) ∧
  (∃ (s u : State) (now k : Nat) (b : Bytes), k < 6 ∧ u = (s.at now).ctrlIn k ∧ (u.link k).state = 1 ∧ (u.link k).configured = true ∧ byteAt b 0 =
    0 ∧ leAt b 5 2 = 0) ∧
  (∃ (s u : State) (now k : Nat) (req : Requester), k < 6 ∧ s.lands now req (zpage k) 0x100 (putBits (s.word 0 (zpage k) 0x100) 1 1 1) u) :=
  ⟨⟨(up.modPins fun p => { p with cables := 32 }), 0, 5, by decide +kernel, by decide +kernel, by decide +kernel, by decide +kernel,
    by decide +kernel, by decide +kernel, by decide +kernel, by decide +kernel⟩,
  ⟨(up.setLink 5 { state := 1 }), 5, by decide +kernel, by decide +kernel⟩,
  ⟨(up.setLink 5 { state := 1 }), 5, by decide +kernel, by decide +kernel, by decide +kernel⟩,
  ⟨(up.setLink 5 { state := 1 }), 5, 254, by decide +kernel, by decide +kernel, by decide +kernel, by decide +kernel⟩,
  ⟨(up.setLink 5 { state := 1, equalised := true }), _, 0, 5, by decide +kernel, rfl, by decide +kernel, by decide +kernel, by decide +kernel⟩,
  ⟨(up.setLink 5 { state := 1, equalised := true, configured := true }), _, 0, 5, [3], by decide +kernel, rfl, by decide +kernel,
    by decide +kernel, by decide +kernel⟩,
  ⟨(up.setLink 5 { state := 1, equalised := true, configured := true }), _, 0, 5, [0, 0, 0, 2, 0, 0, 0, 7, 8], by decide +kernel, rfl,
    by decide +kernel, by decide +kernel, by decide +kernel, by decide +kernel⟩,
  ⟨up, _, 0, 5, .fn 0, by decide +kernel, lands_of (by decide +kernel) (by decide +kernel)⟩⟩

/-- States and operands that meet the hypotheses of `Obligations.LinkTraffic`, clause by clause. -/
theorem test_met_LinkTraffic :
  (∃ (s : State) (k : Nat) (f : Flit), k < 6 ∧ (s.link k).state = 3 ∧ f.crcOk = false) ∧
  (∃ (s : State) (k : Nat) (f : Flit), k < 6 ∧ (s.link k).state = 3 ∧ f.crcOk = true ∧ (s.link k).secure = true ∧ f.kind = 1 ∧ f.tagOk = false) ∧
  (∃ (s u : State) (now k : Nat) (f : Flit), k < 6 ∧ (s.link k).state = 3 ∧ f.crcOk = true ∧ f.kind = 1 ∧ f.tagOk = true ∧ f.creditN = 0 ∧ u =
    ((s.at now).setLink k (s.link k)).takeAck k f.ack) ∧
  (∃ (s : State) (k : Nat), k < 6 ∧ (s.link k).state ≠ 2 ∧ (s.link k).state ≠ 3) ∧
  (∃ (s u : State) (now k : Nat), k < 6 ∧ u = (s.at now).ctrlIn k ∧ (u.link k).state = 3) ∧
  (∃ (s : State) (now k : Nat), k < 6 ∧ (s.link k).state = 3 ∧ (s.link k).replay ≠ [] ∧ (s.link k).ackAt + 10000 ≤ max s.chrono now) ∧
  (∃ (s : State) (now k : Nat), k < 6 ∧ max s.chrono now < (s.link k).ackAt + 10000) ∧
  (∃ (s : State) (k : Nat) (f : LinkFlit), (s.link k).replay = [f] ∧ f.tries < 8 ∧ f.ctrl = false) ∧
  (∃ (s : State) (k : Nat) (f : LinkFlit), (s.link k).replay = [f] ∧ 8 ≤ f.tries) ∧
  (∃ (s u : State) (now k : Nat), k < 6 ∧ u = (s.at now).ctrlIn k ∧ (u.link k).state = 2) ∧
  (∃ (s : State) (k : Nat), k < 6 ∧ (s.link k).state = 2) ∧
  (∃ (s : State) (now k : Nat), k < 6 ∧ (s.link k).state = 5 ∧ max s.chrono now < (s.link k).retrainAt + 2000000 ∧ (s.link k).replay = [] ∧ (s.link
    k).queue = [] ∧ (s.link k).leaving = false) ∧
  (∃ (s : State) (now k : Nat), k < 6 ∧ (s.link k).state = 5 ∧ (s.link k).retrainAt + 2000000 ≤ max s.chrono now) ∧
  (∃ (s : State) (k : Nat), (s.link k).state ≠ 0 ∧ (s.link k).state ≠ 4 ∧ (s.link k).state ≠ 3 ∧ (s.link k).trained = false ∧ (s.link k).leaving =
    false) :=
  ⟨⟨(up.setLink 5 { state := 3 }), 5, ⟨1, 0, 0, true, true, 0, 0, 0, 0, false, true, []⟩, by decide +kernel, by decide +kernel, by decide +kernel⟩,
  ⟨(up.setLink 5 { state := 3, secure := true }), 5, ⟨1, 0, 0, true, true, 0, 0, 0, 0, true, false, []⟩, by decide +kernel, by decide +kernel,
    by decide +kernel, by decide +kernel, by decide +kernel, by decide +kernel⟩,
  ⟨(up.setLink 5 { state := 3 }), _, 0, 5, ⟨1, 0, 0, true, true, 0, 9, 0, 0, true, true, []⟩, by decide +kernel, by decide +kernel,
    by decide +kernel, by decide +kernel, by decide +kernel, by decide +kernel, rfl⟩,
  ⟨(up.setLink 5 { state := 1 }), 5, by decide +kernel, by decide +kernel, by decide +kernel⟩,
  ⟨(up.setLink 5 { state := 3, replay := [⟨false, 0, 0, true, true, [], 0, 1⟩] }), _, 0, 5, by decide +kernel, rfl, by decide +kernel⟩,
  ⟨(up.setLink 5 { state := 3, replay := [⟨false, 0, 0, true, true, [], 0, 1⟩], ackAt := 7 }), 10007, 5, by decide +kernel, by decide +kernel,
    by decide +kernel, by decide +kernel⟩,
  ⟨(up.setLink 5 { state := 3, replay := [⟨false, 0, 0, true, true, [], 0, 1⟩], ackAt := 7 }), 10006, 5, by decide +kernel, by decide +kernel⟩,
  ⟨(up.setLink 5 { state := 3, replay := [⟨false, 0, 0, true, true, [], 0, 7⟩], ackAt := 7 }), 5, ⟨false, 0, 0, true, true, [], 0, 7⟩,
    by decide +kernel, by decide +kernel, by decide +kernel⟩,
  ⟨(up.setLink 5 { state := 3, replay := [⟨false, 0, 0, true, true, [], 0, 8⟩], ackAt := 7 }), 5, ⟨false, 0, 0, true, true, [], 0, 8⟩,
    by decide +kernel, by decide +kernel⟩,
  ⟨(up.setLink 5 { state := 2 }), _, 0, 5, by decide +kernel, rfl, by decide +kernel⟩,
  ⟨(up.setLink 5 { state := 2 }), 5, by decide +kernel, by decide +kernel⟩,
  ⟨(up.setLink 5 { state := 5, before := 2, retrainAt := 5, gcmTx := 4 }), 2000004, 5, by decide +kernel, by decide +kernel, by decide +kernel,
    by decide +kernel, by decide +kernel, by decide +kernel⟩,
  ⟨(up.setLink 5 { state := 5, before := 2, retrainAt := 5, gcmTx := 4 }), 2000005, 5, by decide +kernel, by decide +kernel, by decide +kernel⟩,
  ⟨(up.setLink 5 { state := 1, replay := [⟨false, 0, 0, true, true, [], 0, 8⟩] }), 5, by decide +kernel, by decide +kernel, by decide +kernel,
    by decide +kernel, by decide +kernel⟩⟩

/-- States and operands that meet the hypotheses of `Obligations.FabricRequests`, clause by clause. -/
theorem test_met_FabricRequests :
  (∃ (s : State) (now : Nat) (p : Packet), s.power.released = true ∧ s.arrival p.dst p.src p.reqSeq = .fresh ∧ (s.at now).farHeld p = false) ∧
  (∃ (s : State) (p : Packet), s.power.released = true ∧ s.arrival p.dst p.src p.reqSeq = .below) ∧
  (∃ (s : State) (st : Nat) (p : Packet), s.power.released = true ∧ s.arrival p.dst p.src p.reqSeq = .duplicate st ∧ (p.typ = 2 ∨ p.typ = 4) ∧ st <
    256) ∧
  (∃ (s : State) (now st : Nat) (p : Packet), s.power.released = true ∧ s.arrival p.dst p.src p.reqSeq = .duplicate st ∧ p.typ = 1 ∧ (s.at
    now).farHeld p = false) ∧
  (∃ (s : State) (p : Packet), p.dst = s.node.id ∧ (p.typ = 2 ∨ p.typ = 4) ∧ p.body ≠ [] ∧ engineMapped p.addr p.body.length = true ∧ spaceOf
    p.addr ≠ .host ∧ s.tierDown p.addr = false) ∧
  (∃ (s : State) (p : Packet), p.dst ≠ s.node.id) ∧
  (∃ (s : State) (p : Packet), s.power.released = true ∧ Table.find? s.fabric.reqs p.tag = none) ∧
  (∃ (s : State) (p : Packet) (r : Req), s.power.released = true ∧ Table.find? s.fabric.reqs p.tag = some r) ∧
  (∃ (s : State) (tag : Nat) (r : Req), s.power.released = true ∧ Table.find? s.fabric.reqs tag = some r) ∧
  (∃ (s : State), s.power.released = true ∧ s.isLead = true) ∧
  (∃ (s : State), s.power.released = true) ∧
  (∃ (s : State) (c : RouteChange), s.fabric.seenEpochs.contains c.epoch = true) ∧
  (∃ (s : State) (c : RouteChange), s.fabric.seenEpochs.contains c.epoch = false ∧ s.tide.now < c.effective) ∧
  (∃ (s : State), s.power.released = true) ∧
  (∃ (s u : State) (now n bits : Nat) (req : Requester), s.lands now req 0x0D8 0x120 (BitVec.ofNat 64 (n % 65536)) u ∧ u.node.valid = true ∧
    u.route (n % 65536) = some bits) ∧
  (∃ (s u : State) (now : Nat) (p : Packet) (bytes : Bytes), s.arrives now p u bytes) ∧
  (∃ (s : State) (id : Nat), Table.find? s.fabric.images id = none) ∧
  (∃ (s : State) (id : Nat), (s.fabric.starts.find? (fun p => p.job == id) = none)) ∧
  (∃ (s : State) (j n : Nat) (job : Job), s.job? j = some job ∧ Table.has job.parts n = true) ∧
  (∃ (s : State) (j n : Nat) (r : PartResult) (job : Job), s.job? j = some job ∧ Table.has job.parts n = false ∧ r.committed = true) :=
  ⟨⟨({ up with mem := [(0x1000, 1#8)] }), 0, { aPacket with typ := 1, addr := 0x1000, rlen := 4 }, by decide +kernel, by decide +kernel,
    by decide +kernel⟩,
  ⟨(up.modFabric fun p => { p with windows := [(1, ⟨10000, []⟩)] }), { aPacket with typ := 2, reqSeq := 5 }, by decide +kernel, by decide +kernel⟩,
  ⟨(up.modFabric fun p => { p with windows := [(1, ⟨10000, [(9999, 0x98)]⟩)] }), 0x98, { aPacket with typ := 2, reqSeq := 9999 },
    by decide +kernel, by decide +kernel, by decide +kernel, by decide +kernel⟩,
  ⟨(up.modFabric fun p => { p with windows := [(1, ⟨10000, [(9999, 0x98)]⟩)] }), 0, 0x98, { aPacket with typ := 1, reqSeq := 9999 },
    by decide +kernel, by decide +kernel, by decide +kernel, by decide +kernel⟩,
  ⟨up, { aPacket with typ := 4, addr := 0x1000, body := [1, 2] }, by decide +kernel, by decide +kernel, by decide +kernel, by decide +kernel,
    by decide +kernel, by decide +kernel⟩,
  ⟨up, { aPacket with dst := 6, typ := 4, addr := 0x1000, body := [1, 2] }, by decide +kernel⟩,
  ⟨up, { aPacket with typ := 0x81, tag := 9 }, by decide +kernel, by decide +kernel⟩,
  ⟨(up.modFabric fun p => { p with reqs := [(9, ⟨{ aPacket with dst := 1, src := 0, typ := 3, tag := 9 }, 0, false, .commit⟩)] }),
    { aPacket with typ := 0x83, tag := 9 }, ⟨{ aPacket with dst := 1, src := 0, typ := 3, tag := 9 }, 0, false, .commit⟩, by decide +kernel,
    by decide +kernel⟩,
  ⟨(up.modFabric fun p => { p with reqs := [(9, ⟨{ aPacket with dst := 1, src := 0, typ := 3, tag := 9 }, 0, true, .commit⟩)] }), 9,
    ⟨{ aPacket with dst := 1, src := 0, typ := 3, tag := 9 }, 0, true, .commit⟩, by decide +kernel, by decide +kernel⟩,
  ⟨up, by decide +kernel, by decide +kernel⟩,
  ⟨up, by decide +kernel⟩,
  ⟨(up.modFabric fun p => { p with seenEpochs := [7] }), ⟨0, 7, 0, []⟩, by decide +kernel⟩,
  ⟨(up.modFabric fun p => { p with pendingRoutes := [⟨0, 5, 9, []⟩, ⟨0, 9, 9, []⟩] }), ⟨0, 7, 5, []⟩, by decide +kernel, by decide +kernel⟩,
  ⟨(up.modFabric fun p => { p with routeWaits := [⟨⟨0, 7, 0, []⟩, [4, 5]⟩, ⟨⟨0, 8, 0, []⟩, [4]⟩] }), by decide +kernel⟩,
  ⟨({ up with node := ⟨3, true⟩ }), _, 0, 3, 0, .fn 0, lands_of (by decide +kernel) (by decide +kernel), by decide +kernel, by decide +kernel⟩,
  ⟨up, up, 0, { aPacket with typ := 3, body := zeros 40 }, zeros 8, arrives_of (by decide +kernel) (by decide +kernel) (by decide +kernel)⟩,
  ⟨up, 5, by decide +kernel⟩,
  ⟨up, 5, by decide +kernel⟩,
  ⟨(up.modWork fun p => { p with jobs := [(1, { aJob with parts := [(3, ⟨0, true, false, 0, 0⟩)] })] }), 1, 3,
    { aJob with parts := [(3, ⟨0, true, false, 0, 0⟩)] }, by decide +kernel, by decide +kernel⟩,
  ⟨(up.modWork fun p => { p with jobs := [(1, { aJob with parts := [(3, ⟨0, true, false, 0, 0⟩)] })] }), 1, 4, ⟨0, true, false, 0, 0⟩,
    { aJob with parts := [(3, ⟨0, true, false, 0, 0⟩)] }, by decide +kernel, by decide +kernel, by decide +kernel⟩⟩

/-- States and operands that meet the hypotheses of `Obligations.HerdMembership`, clause by clause. -/
theorem test_met_HerdMembership :
  (∃ (s : State) (k : Nat), s.power.released = true ∧ k < 6) ∧
  (∃ (s : State) (l : Nat) (b : Bytes), s.herd.lowest = some l ∧ l ≤ leAt b 2 2) ∧
  (∃ (s : State), s.herd.lowest = none ∧ s.fld HERD.STATE = 0 ∧ s.herd.serial = 0) ∧
  (∃ (s : State), s.power.released = true) ∧
  (∃ (s : State), s.herd.waitJoins = none ∧ s.herd.electAt = none ∧ s.fld HERD.STATE = 0 ∧ s.herd.formed = false ∧ s.herd.serial = 0 ∧
    s.herd.formAt + s.fld HERD.FORM_MS * 1000000 ≤ s.chrono ∧ s.anyTrained = false) ∧
  (∃ (s : State) (k : Nat), s.power.released = true ∧ k < 7) ∧
  (∃ (s : State) (k d : Nat) (b : Bytes), s.herd.derived = some d ∧ d ≠ ({ s.herd with shape := (byteAt b 6, byteAt b 7, byteAt b 8) } : Herd).step
    (leAt b 4 2) (k / 2) (k % 2 == 0)) ∧
  (∃ (s : State), s.power.released = true) ∧
  (∃ (s : State) (k : Nat) (p : Packet), s.power.released = true ∧ k < 6 ∧ s.herd.lastSet = some (leAt p.body 4 4)) ∧
  (∃ (s u : State) (now k : Nat) (p : Packet), s.power.released = true ∧ k < 6 ∧ byteAt p.body 1 ≠ 0 ∧ byteAt p.body 1 ≠ 1 ∧ s.herd.lastSet = none
    ∧ s.herd.pendingSets = [] ∧ s.herd.parts = [] ∧ bitAt (byteAt p.body 2) 0 = true ∧ leAt p.body 20 2 = 0 ∧ u = (s.at now).sendUp s.ownId
    (memberAckBody (leAt p.body 4 4) 0) ∧ u.herd = s.herd) ∧
  (∃ (s : State), s.power.released = true ∧ s.actsAsLead = true) ∧
  (∃ (s : State), s.power.released = true ∧ s.herd.electAt.isSome = true) ∧
  (∃ (s : State), s.power.released = true ∧ s.isLead = true) ∧
  (∃ (s : State), s.power.released = true ∧ s.actsAsLead = true) ∧
  (∃ (s : State) (n : Nat), s.power.released = true ∧ s.isLead = true ∧ Table.has s.herd.aliases n = true) ∧
  (∃ (s : State) (now : Nat), s.power.released = true ∧ s.fld HERD.STATE = 3 ∧ s.isLead = false ∧ s.linksIn 3 = [] ∧ (s.at now).quietFor (s.fld
    TIDE.BEAT_LOSS) = true) ∧
  (∃ (s : State), s.power.released = true ∧ s.twin.paired = false) ∧
  (∃ (s u : State) (now : Nat) (req : Requester), s.lands now req 0x0D9 0x118 1#64 u ∧ u.fld HERD.STATE = 1 ∧ u.work.jobs = [] ∧ u.herd.offer =
    none) ∧
  (∃ (s u : State) (now : Nat) (req : Requester), s.lands now req 0x0D9 0x118 1#64 u ∧ u.fld HERD.STATE = 1 ∧ u.work.jobs ≠ []) ∧
  (∃ (s u : State) (now : Nat) (req : Requester), s.lands now req 0x0D9 0x118 2#64 u ∧ u.fld HERD.STATE = 3) ∧
  (∃ (s u : State) (now n : Nat) (req : Requester), s.lands now req 0x0D9 0x118 (BitVec.ofNat 64 (n % 65536 * 65536)) u) :=
  ⟨⟨up, 5, by decide +kernel, by decide +kernel⟩,
  ⟨(up.modHerd fun p => { p with lowest := some 4 }), 4, leBytes 1 0x20 ++ leBytes 1 0 ++ leBytes 2 4 ++ zeros 60, by decide +kernel,
    by decide +kernel⟩,
  ⟨(up.setLink 2 { state := 3 }), by decide +kernel, by decide +kernel, by decide +kernel⟩,
  ⟨up, by decide +kernel⟩,
  ⟨({ (up.setFld HERD.FORM_MS 5) with chrono := 5000000 }), by decide +kernel, by decide +kernel, by decide +kernel, by decide +kernel,
    by decide +kernel, by decide +kernel, by decide +kernel⟩,
  ⟨up, 6, by decide +kernel, by decide +kernel⟩,
  ⟨(up.modHerd fun p => { p with derived := some 9 }), 5, 9, leBytes 1 0x21 ++ zeros 3 ++ leBytes 2 4 ++ [2, 2, 2] ++ zeros 55, by decide +kernel,
    by decide +kernel⟩,
  ⟨up, by decide +kernel⟩,
  ⟨(up.modHerd fun p => { p with lastSet := some 7 }), 5,
    { aPacket with body := leBytes 1 0x23 ++ leBytes 1 0 ++ leBytes 2 0 ++ leBytes 4 7 ++ zeros 56 }, by decide +kernel, by decide +kernel,
    by decide +kernel⟩,
  ⟨up, _, 0, 5, { aPacket with body := leBytes 1 0x23 ++ leBytes 1 2 ++ leBytes 2 1 ++ leBytes 4 7 ++ zeros 56 }, by decide +kernel,
    by decide +kernel, by decide +kernel, by decide +kernel, by decide +kernel, by decide +kernel, by decide +kernel, by decide +kernel,
    by decide +kernel, rfl, by decide +kernel⟩,
  ⟨(up.modHerd fun p => { p with waits := [⟨⟨0, 7, 0, 0, [], []⟩, [(3, 1), (4, 1)]⟩] }), by decide +kernel, by decide +kernel⟩,
  ⟨(up.modHerd fun p => { p with electAt := some 5 }), by decide +kernel, by decide +kernel⟩,
  ⟨up, by decide +kernel, by decide +kernel⟩,
  ⟨up, by decide +kernel, by decide +kernel⟩,
  ⟨(up.modHerd fun p => { p with aliases := [(4, 0)] }), 4, by decide +kernel, by decide +kernel, by decide +kernel⟩,
  ⟨((({ ((up.setFld HERD.STATE 3).setFld TIDE.BEAT_LOSS 3) with node := ⟨3, true⟩ }).modHerd fun p => { p with lead := 5 }).modTide fun p =>
    { p with appliedAt := some 5, periodUs := 10 }), 30005, by decide +kernel, by decide +kernel, by decide +kernel, by decide +kernel,
    by decide +kernel⟩,
  ⟨up, by decide +kernel, by decide +kernel⟩,
  ⟨({ (up.setFld HERD.STATE 1) with node := ⟨3, true⟩ }), _, 0, .fn 0, lands_of (by decide +kernel) (by decide +kernel), by decide +kernel,
    by decide +kernel, by decide +kernel⟩,
  ⟨((up.setFld HERD.STATE 1).modWork fun p => { p with jobs := [(1, aJob)] }), _, 0, .fn 0, lands_of (by decide +kernel) (by decide +kernel),
    by decide +kernel, by decide +kernel⟩,
  ⟨(({ (up.setFld HERD.STATE 3) with node := ⟨3, true⟩ }).modHerd fun p => { p with lead := 5 }), _, 0, .fn 0, lands_of (by decide +kernel)
    (by decide +kernel), by decide +kernel⟩,
  ⟨up, _, 0, 65535, .fn 0, lands_of (by decide +kernel) (by decide +kernel)⟩⟩

/-- States and operands that meet the hypotheses of `Obligations.TwinsAndBoot`, clause by clause. -/
theorem test_met_TwinsAndBoot :
  (∃ (s : State), s.power.released = true) ∧
  (∃ (s : State) (k : Nat), s.power.released = true ∧ s.twinLink ≠ some k) ∧
  (∃ (s u : State) (now k : Nat) (p : Packet) (bytes : Bytes), s.arrives now p u bytes ∧ s.twinLink = some k) ∧
  (∃ (s : State) (k : Nat), s.power.released = true ∧ s.twin.paired = true ∧ s.twinLink = some k) ∧
  (∃ (s : State) (bytes : Nat), (s.twin.incoming.foldl (fun n r => n + r.image.length) 0 ≠ bytes)) ∧
  (∃ (s : State) (bytes : Nat), s.twin.full = false ∧ (s.twin.incoming.foldl (fun n r => n + r.image.length) 0 = bytes) ∧ s.fld TWIN.MIRROR_QUOTA <
    mirrorMib (s.twin.incoming.foldl s.mirrorOne s.twin.mirror)) ∧
  (∃ (s : State) (k : Nat), s.power.released = true ∧ s.twinLink = some k) ∧
  (∃ (s : State) (cut : Nat), (cut ≤ s.twin.acked ∨ s.twin.cutSeq < cut)) ∧
  (∃ (s : State) (k : Nat), s.power.released = true ∧ k < 6) ∧
  (∃ (s : State), s.isLead = false ∧ s.herd.derived = none) ∧
  (∃ (s : State) (p : Packet), leAt p.body 2 2 = s.ownId ∧ s.herd.bootAsked = true ∧ s.fld ROLAR.STATE = 0 ∧ leAt p.body 4 8 = s.herd.boot.length ∧
    s.herd.boot.length + (sub p.body 64 (leAt p.body 12 2)).length < leAt p.body 16 4) ∧
  (∃ (s : State), s.power.released = true) ∧
  (∃ (s : State), s.fld GLOBAL.BOOT_SRC = 1 ∧ s.fld ROLAR.STATE = 0 ∧ s.fld HERD.STATE = 1) ∧
  (∃ (s : State), s.fld GLOBAL.BOOT_SRC ≠ 1) :=
  ⟨⟨up, by decide +kernel⟩,
  ⟨(up.setFld TWIN.LINK 3), 5, by decide +kernel, by decide +kernel⟩,
  ⟨(up.setFld TWIN.LINK 5), (up.setFld TWIN.LINK 5), 0, 5, { aPacket with body := zeros 40 }, zeros 8, arrives_of (by decide +kernel)
    (by decide +kernel) (by decide +kernel), by decide +kernel⟩,
  ⟨((up.setFld TWIN.LINK 5).modTwin fun p => { p with paired := true }), 5, by decide +kernel, by decide +kernel, by decide +kernel⟩,
  ⟨(up.modTwin fun p => { p with incoming := [⟨1, 2, [3]⟩] }), 2, by decide +kernel⟩,
  ⟨((up.setFld TWIN.MIRROR_QUOTA 0).modTwin fun p => { p with incoming := [⟨1, 2, [3]⟩] }), 1, by decide +kernel, by decide +kernel,
    by decide +kernel⟩,
  ⟨(up.setFld TWIN.LINK 5), 5, by decide +kernel, by decide +kernel⟩,
  ⟨(up.modTwin fun p => { p with cutSeq := 4 }), 5, by decide +kernel⟩,
  ⟨up, 5, by decide +kernel, by decide +kernel⟩,
  ⟨(({ up with node := ⟨3, true⟩ }).modHerd fun p => { p with lead := 5 }), by decide +kernel, by decide +kernel⟩,
  ⟨(up.modHerd fun p => { p with bootAsked := true, boot := [9] }),
    { aPacket with body := leBytes 4 0 ++ leBytes 8 1 ++ leBytes 2 4 ++ leBytes 2 0 ++ leBytes 4 100 ++ zeros 44 ++ [1, 2, 3, 4] },
    by decide +kernel, by decide +kernel, by decide +kernel, by decide +kernel, by decide +kernel⟩,
  ⟨up, by decide +kernel⟩,
  ⟨(((up.setFld GLOBAL.BOOT_SRC 1).setFld HERD.STATE 1).modHerd fun p => { p with bootAsked := true, boot := [9] }), by decide +kernel,
    by decide +kernel, by decide +kernel⟩,
  ⟨(up.setFld GLOBAL.BOOT_SRC 2), by decide +kernel⟩⟩

/-- States and operands that meet the hypotheses of `Obligations.Serving`, clause by clause. -/
theorem test_met_Serving :
  (∃ (s u w : State) (now : Nat) (req : Requester), s.lands now req 0x0E0 0x100 (putBits (s.word 0 0x0E0 0x100) 0 0 1) u ∧ u.bit SERVE.ENABLE =
    false ∧ u.serve.store = none ∧ u.takeStore = some w) ∧
  (∃ (s u : State) (now : Nat) (req : Requester), s.lands now req 0x0E0 0x100 (putBits (s.word 0 0x0E0 0x100) 0 0 1) u ∧ u.bit SERVE.ENABLE = false
    ∧ u.serve.store = none ∧ u.takeStore = none) ∧
  (∃ (s u : State) (now : Nat) (req : Requester), s.lands now req 0x0E0 0x100 (putBits (s.word 0 0x0E0 0x100) 0 0 0) u ∧ u.bit SERVE.ENABLE = true) ∧
  (∃ (s u : State) (now r : Nat) (req : Requester), r < 16 ∧ bitsOf (s.word 0 0x0E0 (0x200 + 0x40 * r)) 57 57 = 0 ∧ s.lands now req 0x0E0 (0x200 +
    0x40 * r) (putBits (s.word 0 0x0E0 (0x200 + 0x40 * r)) 57 57 1) u) ∧
  (∃ (s u : State) (now r : Nat) (req : Requester), r < 16 ∧ bitsOf (s.word 0 0x0E0 (0x200 + 0x40 * r)) 57 57 = 1 ∧ s.lands now req 0x0E0 (0x200 +
    0x40 * r) (putBits (s.word 0 0x0E0 (0x200 + 0x40 * r)) 57 57 0) u) ∧
  (∃ (s : State) (r : Nat) (g : Region), r < 16 ∧ s.reqRegion r = some g ∧ s.power.released = true ∧ s.host.p0Up = true ∧ s.bit (SERVE.R_ENABLE.at
    r) = true) ∧
  (∃ (s : State) (r v : Nat), s.reqDepth r ≤ v % 65536) ∧
  (∃ (s : State) (r v : Nat), v % 65536 < s.reqDepth r ∧ ((s.serveRing r).prod + s.reqDepth r - (s.serveRing r).cons) % s.reqDepth r + (v % 65536 +
    s.reqDepth r - (s.serveRing r).prod) % s.reqDepth r < s.reqDepth r) ∧
  (∃ (s : State) (r : Nat) (g : Region), r < 16 ∧ s.reqRegion r = some g ∧ s.power.released = true ∧ s.bit SERVE.ENABLE = true ∧ s.bit
    (SERVE.R_ENABLE.at r) = true ∧ (s.serveRing r).prod ≠ (s.serveRing r).cons) ∧
  (∃ (s : State) (r : Nat), r < 16 ∧ (s.serveRing r).prod = (s.serveRing r).cons) ∧
  (∃ (s : State) (now id : Nat) (q : Request), s.request? id = some q ∧ q.deadline ≤ max s.chrono now ∧ q.status ≠ 0xCA ∧ q.status ≠ 0xC8) ∧
  (∃ (s : State) (now id : Nat) (q : Request), s.request? id = some q ∧ max s.chrono now < q.deadline) ∧
  (∃ (s : State) (r : Nat), r < 16 ∧ (s.serveRing r).reading = true ∧ s.host.p0Up = true) ∧
  (∃ (s u : State) (now slot rq rs nb : Nat) (req : Requester), s.lands now req 0x0E0 0x110 (BitVec.ofNat 64 (slot % 64 + 256 + rq % 256 * 2 ^ 16 +
    rs % 256 * 2 ^ 24 + nb % 512 * 2 ^ 32)) u) ∧
  (∃ (s : State), Table.has s.serve.services (s.fld SERVE.SVC) = true) ∧
  (∃ (s u : State) (now slot : Nat) (req : Requester), s.lands now req 0x0E0 0x110 ((s.at now).svcWord 2 slot) u ∧ u.bit SERVE.BUSY = false) ∧
  (∃ (s : State), Table.find? s.serve.services (s.fld SERVE.SVC) = none) ∧
  (∃ (s : State) (slot : Nat), s.serve.unreg = some slot ∧ s.serviceBusy slot = false) ∧
  (∃ (s : State) (slot : Nat), s.serve.unreg = some slot ∧ s.serviceBusy slot = true) ∧
  (∃ (s u : State) (now slot : Nat) (req : Requester), s.lands now req 0x0E0 0x110 ((s.at now).svcWord 3 slot) u ∧ u.bit SERVE.BUSY = false) ∧
  (∃ (res : Nat), res < 16) :=
  ⟨⟨up, _, (up.stored (.fn 0) 0x0E0 0x100 (putBits (up.word 0 0x0E0 0x100) 0 0 1)).takeStore.getD up, 0, .fn 0, lands_of (by decide +kernel)
    (by decide +kernel), by decide +kernel, by decide +kernel, by decide +kernel⟩,
  ⟨(up.modTiers fun p => { p with creamOther := 0x1000000, skimOther := 0x10000000 }), _, 0, .fn 0, lands_of (by decide +kernel)
    (by decide +kernel), by decide +kernel, by decide +kernel, by decide +kernel⟩,
  ⟨(up.setFld SERVE.ENABLE 1), _, 0, .fn 0, lands_of (by decide +kernel) (by decide +kernel), by decide +kernel⟩,
  ⟨up, _, 0, 15, .fn 0, by decide +kernel, by decide +kernel, lands_of (by decide +kernel) (by decide +kernel)⟩,
  ⟨(up.setFld (SERVE.R_ENABLE.at 15) 1), _, 0, 15, .fn 0, by decide +kernel, by decide +kernel, lands_of (by decide +kernel) (by decide +kernel)⟩,
  ⟨(((((up.modHost fun p => { p with p0Up := true }).modTiers fun p => { p with regions := [(9, { aRegion with owner := 0 })] }).setFld
    (SERVE.R_REQ_REGION.at 15) 9).setFld (SERVE.R_ENABLE.at 15) 1).setFld (SERVE.R_LOG_DEPTH.at 15) 4), 15, { aRegion with owner := 0 },
    by decide +kernel, by decide +kernel, by decide +kernel, by decide +kernel, by decide +kernel⟩,
  ⟨(up.setFld (SERVE.R_LOG_DEPTH.at 15) 4), 15, 16, by decide +kernel⟩,
  ⟨(up.setFld (SERVE.R_LOG_DEPTH.at 15) 4), 15, 15, by decide +kernel, by decide +kernel⟩,
  ⟨((((((up.modTiers fun p => { p with regions := [(9, { aRegion with owner := 0 })] }).setFld (SERVE.R_REQ_REGION.at 15) 9).setFld
    (SERVE.R_ENABLE.at 15) 1).setFld SERVE.ENABLE 1).setFld (SERVE.R_LOG_DEPTH.at 15) 4).modServe fun p =>
    { p with rings := [(15, { prod := 2 })] }), 15, { aRegion with owner := 0 }, by decide +kernel, by decide +kernel, by decide +kernel,
    by decide +kernel, by decide +kernel, by decide +kernel⟩,
  ⟨up, 15, by decide +kernel, by decide +kernel⟩,
  ⟨(up.modServe fun p => { p with requests := [(4, { ring := 0, slot := 0, service := 0, record := [], prodAt := 0, deadline := 9 })] }), 9, 4,
    { ring := 0, slot := 0, service := 0, record := [], prodAt := 0, deadline := 9 }, by decide +kernel, by decide +kernel, by decide +kernel,
    by decide +kernel⟩,
  ⟨(up.modServe fun p => { p with requests := [(4, { ring := 0, slot := 0, service := 0, record := [], prodAt := 0, deadline := 9 })] }), 8, 4,
    { ring := 0, slot := 0, service := 0, record := [], prodAt := 0, deadline := 9 }, by decide +kernel, by decide +kernel⟩,
  ⟨(((up.modHost fun p => { p with p0Up := true }).modServe fun p => { p with rings := [(15, { reading := true, txp := 5, head := 2 })] }).setFld
    (SERVE.R_TX_LOG_DEPTH.at 15) 4), 15, by decide +kernel, by decide +kernel, by decide +kernel⟩,
  ⟨up, _, 0, 63, 255, 1, 511, .fn 0, lands_of (by decide +kernel) (by decide +kernel)⟩,
  ⟨(up.modServe fun p => { p with services := [(0, ⟨aPlan, [], 0, 0, false⟩)] }), by decide +kernel⟩,
  ⟨up, _, 0, 63, .fn 0, lands_of (by decide +kernel) (by decide +kernel), by decide +kernel⟩,
  ⟨(up.setFld SERVE.SVC 4), by decide +kernel⟩,
  ⟨(up.modServe fun p => { p with services := [(4, ⟨aPlan, [], 0, 0, true⟩)], unreg := some 4 }), 4, by decide +kernel, by decide +kernel⟩,
  ⟨(up.modServe fun p =>
    { p with services := [(4, ⟨aPlan, [], 0, 0, true⟩)], unreg := some 4, requests := [(4, { ring := 0, slot := 0, service := 4, record := [], prodAt := 0, deadline := 9 })] }),
    4, by decide +kernel, by decide +kernel⟩,
  ⟨(up.modServe fun p => { p with services := [(63, ⟨aPlan, [], 0, 0, true⟩)] }), _, 0, 63, .fn 0, lands_of (by decide +kernel)
    (by decide +kernel), by decide +kernel⟩,
  ⟨15, by decide +kernel⟩⟩

/-- States and operands that meet the hypotheses of `Obligations.RolarCommands`, clause by clause. -/
theorem test_met_RolarCommands :
  (∃ (s : State), s.power.released = true) ∧
  (∃ (s : State), s.fld ROLAR.STATE ≠ 0) ∧
  (∃ (s : State), s.fld ROLAR.STATE = 0 ∧ s.herd.serial = 0) ∧
  (∃ (s : State), s.rolar.flash = [] ∧ s.imageValid 1 [] = false) ∧
  (∃ (src slot : Nat), src < 4 ∧ slot < 2) ∧
  (∃ (s u : State) (now : Nat) (req : Requester), s.lands now req 0x001 0x120 (BitVec.ofNat 64 (s.fld ROLAR.BOOT_LEN + 2 ^ 32)) u ∧ u.fld
    GLOBAL.BOOT_SRC = 2 ∧ u.fld ROLAR.STATE ≠ 1 ∧ spaceOf (u.fld ROLAR.BOOT_ADDR) = .host) ∧
  (∃ (s u : State) (now : Nat) (req : Requester), s.lands now req 0x001 0x120 (BitVec.ofNat 64 (s.fld ROLAR.BOOT_LEN + 2 ^ 32)) u ∧ (u.fld
    GLOBAL.BOOT_SRC ≠ 2 ∨ u.fld ROLAR.STATE = 1)) ∧
  (∃ (s u : State) (now : Nat) (req : Requester), s.lands now req 0x001 0x128 1#64 u) ∧
  (∃ (s : State), s.rolar.commit = none ∧ s.rolar.fuses < s.commitTarget) ∧
  (∃ (s : State) (t : Nat), s.rolar.commit = some t) ∧
  (∃ (s : State) (t : Nat), s.rolar.commit = some t) ∧
  (∃ (s u : State) (now : Nat) (req : Requester), s.lands now req 0x001 0x130 (BitVec.ofNat 64 (s.fld ROLAR.LOCK_DEADLINE_MS * 2 ^ 16 + 1)) u) ∧
  (∃ (s : State), s.power.released = true ∧ s.fld ROLAR.LOCK_DEADLINE_MS ≠ 0 ∧ s.bit ROLAR.DONE = false) ∧
  (∃ (b : Nat), b < 4) ∧
  (∃ (s u : State) (now slot svn : Nat) (req : Requester), s.lands now req 0x001 0x160 (keyWord 1 slot svn) u) ∧
  (∃ (s : State), s.locked 0 0x001 = false ∧ Table.has s.rolar.keys (s.fld ROLAR.KEY_SLOT) = true) ∧
  (∃ (s : State), s.locked 0 0x001 = false ∧ Table.has s.rolar.keys (s.fld ROLAR.KEY_SLOT) = false ∧ engineMapped (s.fld ROLAR.KEY_ADDR) 96 = true
    ∧ spaceOf (s.fld ROLAR.KEY_ADDR) = .host) ∧
  (∃ (s u : State) (now slot : Nat) (req : Requester), s.lands now req 0x001 0x160 (keyWord 2 slot (s.fld ROLAR.MIN_SVN)) u) ∧
  (∃ (s : State), s.locked 0 0x001 = false ∧ Table.has s.rolar.keys (s.fld ROLAR.KEY_SLOT) = true) ∧
  (∃ (s u : State) (now slot : Nat) (req : Requester), s.lands now req 0x001 0x160 (keyWord 3 slot (s.fld ROLAR.MIN_SVN)) u) :=
  ⟨⟨up, by decide +kernel⟩,
  ⟨(up.setFld ROLAR.STATE 1), by decide +kernel⟩,
  ⟨(up.setFld GLOBAL.BOOT_SRC 3), by decide +kernel, by decide +kernel⟩,
  ⟨up, by decide +kernel, by decide +kernel⟩,
  ⟨3, 1, by decide +kernel, by decide +kernel⟩,
  ⟨(((up.setFld GLOBAL.BOOT_SRC 2).setFld ROLAR.BOOT_ADDR 0xC00000000000).setFld ROLAR.BOOT_LEN 4), _, 0, .fn 0, lands_of (by decide +kernel)
    (by decide +kernel), by decide +kernel, by decide +kernel, by decide +kernel⟩,
  ⟨(up.setFld GLOBAL.BOOT_SRC 1), _, 0, .fn 0, lands_of (by decide +kernel) (by decide +kernel), by decide +kernel⟩,
  ⟨(up.setFld ROLAR.RUN_SVN 3), _, 0, .fn 0, lands_of (by decide +kernel) (by decide +kernel)⟩,
  ⟨((up.setFld ROLAR.RUN_SVN 3).modRolar fun p => { p with rolarHdr := zeros 8 ++ leBytes 4 2, fuses := 1 }), by decide +kernel, by decide +kernel⟩,
  ⟨(up.modRolar fun p => { p with commit := some 3, fuses := 1 }), 3, by decide +kernel⟩,
  ⟨(up.modRolar fun p => { p with commit := some 3, fuses := 1 }), 3, by decide +kernel⟩,
  ⟨(up.setFld ROLAR.LOCK_DEADLINE_MS 500), _, 0, .fn 0, lands_of (by decide +kernel) (by decide +kernel)⟩,
  ⟨(up.setFld ROLAR.LOCK_DEADLINE_MS 500), by decide +kernel, by decide +kernel, by decide +kernel⟩,
  ⟨3, by decide +kernel⟩,
  ⟨up, _, 0, 7, 4294967295, .fn 0, lands_of (by decide +kernel) (by decide +kernel)⟩,
  ⟨(up.modRolar fun p => { p with keys := [(0, ⟨1, [2]⟩)] }), by decide +kernel, by decide +kernel⟩,
  ⟨(((up.setFld ROLAR.KEY_SLOT 7).setFld ROLAR.MIN_SVN 2).setFld ROLAR.KEY_ADDR 0xC00000000000), by decide +kernel, by decide +kernel,
    by decide +kernel, by decide +kernel⟩,
  ⟨(up.modRolar fun p => { p with keys := [(7, ⟨1, [2]⟩)] }), _, 0, 7, .fn 0, lands_of (by decide +kernel) (by decide +kernel)⟩,
  ⟨((up.modRolar fun p => { p with keys := [(7, ⟨1, [2]⟩)] }).setFld ROLAR.KEY_SLOT 7), by decide +kernel, by decide +kernel⟩,
  ⟨(up.modRolar fun p => { p with keys := [(7, ⟨1, [2]⟩)] }), _, 0, 7, .fn 0, lands_of (by decide +kernel) (by decide +kernel)⟩⟩

/-- States and operands that meet the hypotheses of `Obligations.Management`, clause by clause. -/
theorem test_met_Management :
  (∃ (s : State), s.pins.modPg = false) ∧
  (∃ (s u : State) (now : Nat), u = s.at now ∧ s.pins.modPg = true) ∧
  (∃ (s : State) (id : Nat) (x : SpdmSession), s.pins.modPg = true ∧ s.host.p0Up = true ∧ s.spdmSession true id = some x ∧ x.done = false) ∧
  (∃ (s u : State) (now : Nat), u = s.at now ∧ s.pins.modPg = true) ∧
  (∃ (s u : State) (now : Nat), u = s.at now ∧ s.pins.modPg = true ∧ s.fld ROLAR.STATE = 1) ∧
  (∃ (s : State), s.fld ROLAR.STATE ≠ 1) :=
  ⟨⟨(up.modPins fun p => { p with modPg := false }), by decide +kernel⟩,
  ⟨(up.modRolar fun p => { p with mctpStep := 3 }), _, 0, rfl, by decide +kernel⟩,
  ⟨((up.modHost fun p => { p with p0Up := true }).modRolar fun p => { p with sessions := [{ id := 4, doe := true, done := false }] }), 4,
    { id := 4, doe := true, done := false }, by decide +kernel, by decide +kernel, by decide +kernel, by decide +kernel⟩,
  ⟨(up.modRolar fun p => { p with resends := 4 }), _, 0, rfl, by decide +kernel⟩,
  ⟨({ (up.setFld ROLAR.STATE 1) with platformEvents := [77, 78] }), _, 0, rfl, by decide +kernel, by decide +kernel⟩,
  ⟨(up.setFld ROLAR.STATE 2), by decide +kernel⟩⟩

/-- States and operands that meet the hypotheses of `Obligations.FaultsAndMarks`, clause by clause. -/
theorem test_met_FaultsAndMarks :
  (∃ (s u : State) (now : Nat) (req : Requester), s.lands now req 0x0F0 0x110 1#64 u) ∧
  (∃ (s u : State) (now : Nat) (r : FaultRec) (rs : List FaultRec) (req : Requester), s.lands now req 0x0F0 0x110 2#64 u ∧ u.faults = r :: rs ∧
    rs.length < 64) ∧
  (∃ (s u : State) (now : Nat) (req : Requester), s.lands now req 0x0F0 0x110 2#64 u ∧ u.faults = []) ∧
  (∃ (s u : State) (now kind page : Nat) (req : Requester), s.lands now req 0x0F0 0x130 (BitVec.ofNat 64 (kind % 8 + page % 4096 * 2 ^ 16 + 2 ^
    32)) u) ∧
  (∃ (s : State) (r : FaultRec), r.cls < 5 ∧ s.faults.length < 64) :=
  ⟨⟨(up.setFld FAULT.PENDING_CLASS 3), _, 0, .fn 0, lands_of (by decide +kernel) (by decide +kernel)⟩,
  ⟨({ up with faults := [⟨2, 0, 0, 0, 0, 0, 9, 0, 0, 0, 0⟩] }), _, 0, ⟨2, 0, 0, 0, 0, 0, 9, 0, 0, 0, 0⟩, [], .fn 0, lands_of (by decide +kernel)
    (by decide +kernel), by decide +kernel, by decide +kernel⟩,
  ⟨(up.setWord 0 0x0F0 0x220 5#64), _, 0, .fn 0, lands_of (by decide +kernel) (by decide +kernel), by decide +kernel⟩,
  ⟨up, _, 0, 3, 0x0F0, .fn 0, lands_of (by decide +kernel) (by decide +kernel)⟩,
  ⟨up, ⟨4, 0x21, 0, 0, 0, 0, 9, 0, 0, 0, 0⟩, by decide +kernel, by decide +kernel⟩⟩

/-- States and operands that meet the hypotheses of `Obligations.UnmappedAccesses`, clause by clause. -/
theorem test_met_UnmappedAccesses :
  (∃ (page : Nat) (req : Requester), presents req page = false) ∧
  (∃ (req : Requester) (page off : Nat), presents req page = true ∧ fieldsAt page off = []) :=
  ⟨⟨0x0A0, .fn 3, by decide +kernel⟩,
  ⟨.fn 0, 0x000, 0xFF0, by decide +kernel, by decide +kernel⟩⟩

/-- States and operands that meet the hypotheses of `Obligations.CompletionHeadDoorbells`. -/
theorem test_met_CompletionHeadDoorbells :
  ∃ (s : State) (fn ring : Nat), fn < 32 ∧ ring < 64 ∧ s.bar2 fn ring = true :=
  ⟨(up.modHost fun p => { p with p0Up := true }), 0, 63, by decide +kernel, by decide +kernel, by decide +kernel⟩

/-- States and operands that meet the hypotheses of `Obligations.CounterZeroWakesWaiters`. -/
theorem test_met_CounterZeroWakesWaiters :
  ∃ (s : State) (ctr c n : Nat), Table.find? s.rennet.counters ctr = some (.armed c) ∧ c ≤ n :=
  ⟨(up.modRennet fun p =>
    { p with counters := [(7, .armed 2)], threads := [(4, { aThread with slice := 4, state := .waiting, core := none, waitOn := some (7, 0) })] }),
    7, 2, 3, by decide +kernel, by decide +kernel⟩

/-- States and operands that meet the hypotheses of `Obligations.FaultPinAndClass`, clause by clause. -/
theorem test_met_FaultPinAndClass :
  (∃ (r : FaultRec), r.cls < 8) ∧
  (∃ (s u : State) (now : Nat) (req : Requester), s.lands now req 0x0F0 0x110 1#64 u) :=
  ⟨⟨⟨4, 0x21, 0, 0, 0, 0, 9, 0, 0, 0, 0⟩, by decide +kernel⟩,
  ⟨(up.setFld FAULT.PENDING_CLASS 3), _, 0, .fn 0, lands_of (by decide +kernel) (by decide +kernel)⟩⟩

/-- States and operands that meet the hypotheses of `Obligations.CommandFrames`. -/
theorem test_met_CommandFrames :
  ∃ (c : Instr) (s t : State), exec c s = .next t :=
  ⟨.isolated 3, State.reset, _, rfl⟩

/-- States and operands that meet the hypotheses of `Obligations.MemoryReadsAndWrites`. -/
theorem test_met_MemoryReadsAndWrites :
  (∃ m n : Memory, Memory.wf m = true ∧ Memory.wf n = true ∧ ∀ a, Memory.read m a = Memory.read n a) ∧
  ∃ m : Memory, Memory.wf m = true :=
  ⟨⟨[(3, 7#8)], [(3, 7#8)], by decide, by decide, fun _ => rfl⟩, [(3, 7#8)], by decide⟩

end Sys2Proof.Tests
end

section
/-! Accesses that no register answers (R60): a page outside the requester's view, an offset that no table defines. -/

namespace Sys2Proof.Machine

open Sys2Proof.Reg

/-! ERR_STICKY after an error. -/

theorem errorOff_lt {o : Nat} (h : errorOff o = true) : o < 0x1000 := by
  unfold errorOff at h
  simp only [List.contains_eq_mem, List.mem_cons, List.not_mem_nil, or_false, decide_eq_true_eq] at h
  rcases h with rfl | rfl | rfl | rfl | rfl <;> decide

/-- Registers of one page at different offsets have different keys. -/
theorem key_ne_of_off (fn page : Nat) {off off' : Nat} (h : off ≠ off') : key fn page off ≠ key fn page off' := by
  unfold key
  omega

/-- Setting a sticky bit ors it into the page's ERR_STICKY. -/
theorem State.setSticky_word_sticky (s : State) (fn page n : Nat) :
    (s.setSticky fn page n).word fn page 0x020 = s.word fn page 0x020 ||| BitVec.ofNat 64 (2 ^ n) := by
  have apart : key fn page HDR.ERR_EVENTS.off ≠ key fn page 0x020 := key_ne_of_off fn page (by decide)
  have base : ((s.setWord fn page 0x020 (s.word fn page 0x020 ||| BitVec.ofNat 64 (2 ^ n))).countFn fn (HDR.ERR_EVENTS.on page) 1).word fn page 0x020 =
      s.word fn page 0x020 ||| BitVec.ofNat 64 (2 ^ n) :=
    (State.setWord_word_other _ _ apart).trans (State.setWord_word_self _ _ _ _ _)
  unfold State.setSticky
  simp only []
  split
  · exact base
  · rw [State.word_of_regs (State.irqEvent_regs _ _ _), base]

theorem State.setSticky_sets (s : State) (fn page : Nat) {n : Nat} (hn : n < 64) :
    ((s.setSticky fn page n).word fn page 0x020).getLsbD n = true := by
  rw [State.setSticky_word_sticky, BitVec.getLsbD_or, BitVec.getLsbD_ofNat]
  simp [hn]

/-- A sticky bit that is set stays set when another error sets. -/
theorem State.setSticky_keeps_set (s : State) (fn page n : Nat) {i : Nat} (h : (s.word fn page 0x020).getLsbD i = true) :
    ((s.setSticky fn page n).word fn page 0x020).getLsbD i = true := by
  rw [State.setSticky_word_sticky, BitVec.getLsbD_or, h, Bool.true_or]

/-- Whether it is masked, captured or comes while a capture is held, an error sets its bit of the page's ERR_STICKY (R68, R69). -/
theorem State.raise_sets_sticky (s : State) (fn page : Nat) {n : Nat} (source off accPage : Nat) (hn : n < 64) :
    ((s.raise fn page n source off accPage).word fn page 0x020).getLsbD n = true := by
  have hs := s.setSticky_sets fn page hn
  unfold State.raise
  simp only []
  split
  case isTrue masked => exact hs
  case isFalse unmasked =>
    split
    case isTrue held => exact State.setSticky_keeps_set _ fn page 4 hs
    case isFalse free =>
      rw [State.setWord_word_other _ _ (key_ne_of_off fn page (by decide)), State.setWord_word_other _ _ (key_ne_of_off fn page (by decide)),
        State.setWord_word_other _ _ (key_ne_of_off fn page (by decide))]
      exact hs

/-! An access to a page that the requester's view does not present. -/

/-- A saturating sum fits in a word. -/
theorem satAdd_mod (a b : Nat) : satAdd a b % 2 ^ 64 = min (2 ^ 64 - 1) (a + b) := by
  unfold satAdd maxWord
  omega

/-- Registers of different pages have different keys. -/
theorem key_page_ne {fn fn' page page' off off' : Nat} (hne : page ≠ page') (hp : page < 0x4000) (ho : off < 0x1000) (hp' : page' < 0x4000)
    (ho' : off' < 0x1000) : key fn page off ≠ key fn' page' off' :=
  fun h => hne (key_inj hp ho hp' ho' h).2.1

/-- UNMAPPED, bit 16 of GLOBAL ERR_STICKY, sets. -/
theorem State.unmapped_sets_sticky (s : State) (req : Requester) (page off : Nat) :
    ((s.unmapped req page off).word 0 0x000 0x020).getLsbD 16 = true :=
  State.raise_sets_sticky _ 0 0x000 _ _ _ (by decide)

theorem State.unmapped_counts (s : State) (req : Requester) (page off : Nat) :
    (s.unmapped req page off).fld GLOBAL.UNMAPPED_COUNT = min (2 ^ 64 - 1) (s.fld GLOBAL.UNMAPPED_COUNT + 1) := by
  unfold State.unmapped
  rw [State.raise_fld _ _ _ _ _ _ (by decide) (by decide) (by decide) (by decide), State.count_self _ _ _ (by decide)]
  exact satAdd_mod _ 1

/-- Registers of other pages than GLOBAL keep their words. -/
theorem State.unmapped_word (s : State) (req : Requester) (page off : Nat) {fn p o : Nat} (h0 : p ≠ 0) (hp : p < 0x4000) (ho : o < 0x1000) :
    (s.unmapped req page off).word fn p o = s.word fn p o := by
  unfold State.unmapped
  rw [State.raise_word _ _ _ _ _ _ _ fun o' he => key_page_ne h0.symm (by decide) (errorOff_lt he) hp ho]
  exact State.setFld_word_other _ _ (key_page_ne h0.symm (by decide) (by decide) hp ho)

theorem State.unmapped_mem (s : State) (req : Requester) (page off : Nat) : (s.unmapped req page off).mem = s.mem :=
  (State.unmapped_frame (m := 6) rfl (Frame.refl s)).part .mem rfl

theorem State.unmapped_work (s : State) (req : Requester) (page off : Nat) : (s.unmapped req page off).work = s.work :=
  (State.unmapped_frame (m := 6) rfl (Frame.refl s)).part .work rfl

/-- The whole effect of an unmapped access that R60 names, from the state at the command's time: its record on GLOBAL, with other pages, memory and
the work kept. -/
theorem State.unmapped_at (s : State) (now : Nat) (req : Requester) (page off : Nat) :
    (((s.at now).unmapped req page off).word 0 0x000 0x020).getLsbD 16 = true ∧
    ((s.at now).unmapped req page off).fld GLOBAL.UNMAPPED_COUNT = min (2 ^ 64 - 1) (s.fld GLOBAL.UNMAPPED_COUNT + 1) ∧
    ((s.at now).unmapped req page off).mem = s.mem ∧ ((s.at now).unmapped req page off).work = s.work ∧
    ∀ fn p o, p ≠ 0 → p < 0x4000 → o < 0x1000 → ((s.at now).unmapped req page off).word fn p o = s.word fn p o :=
  ⟨State.unmapped_sets_sticky _ req page off, State.unmapped_counts _ req page off, State.unmapped_mem _ req page off,
    State.unmapped_work _ req page off, fun _ _ _ h0 hp ho => State.unmapped_word _ req page off h0 hp ho⟩

theorem execUnmappedAccess_unpresented (s : State) (now off : Nat) {page : Nat} {req : Requester} (read : Bool) (h : presents req page = false) :
    exec (.unmappedAccess now req page off read) s =
      .next (if read then ((s.at now).unmapped req page off).emit (.readReg req page off 0#64) else (s.at now).unmapped req page off) := by
  change execUnmappedAccess now req page off read s = _
  simp [execUnmappedAccess, h]

theorem State.regWrite_unpresented (s : State) {req : Requester} {page : Nat} (off : Nat) (v : Word) (hook : Hook) (h : presents req page = false) :
    s.regWrite req page off v hook = s.unmapped req page off := by
  simp [State.regWrite, State.writeWay, h]

/-- A write request of 8 bytes at an aligned address is one write of the register there (R63). -/
theorem State.writeBar0_register (s : State) (supply : Supply) (req : Requester) {a : Nat} {bs : Bytes} (hl : bs.length = 8) (ha : a % 8 = 0) :
    s.writeBar0 supply req a bs = s.writeReg supply req (a / 4096) (a % 4096) (BitVec.ofNat 64 (leAt bs 0 8)) := by
  have nonempty : bs.isEmpty = false := by
    cases bs with
    | nil => cases hl
    | cons b bs => rfl
  have one : (a + 8 - 1) / 8 - a / 8 + 1 = 1 := by omega
  have place : a / 8 * 8 = a := by omega
  unfold State.writeBar0
  simp only [nonempty, hl, one]
  simp [ha, place]

/-- A write of a whole register of a page that the requester's view does not present only counts as unmapped. -/
theorem execRegWrite_unpresented (s : State) (now : Nat) {req : Requester} {page off : Nat} {bs : Bytes} (supply : Supply)
    (h : presents req page = false) (hl : bs.length = 8) (ha : off % 8 = 0) (ho : off < 4096) :
    exec (.regWrite now req page off bs supply) s = .next ((s.at now).unmapped req page off) := by
  change Host.Outcome.next ((s.at now).writeBar0 supply req (page * 4096 + off) bs) = _
  have place : (page * 4096 + off) / 4096 = page ∧ (page * 4096 + off) % 4096 = off := by omega
  rw [State.writeBar0_register _ supply req hl (by omega), place.1, place.2]
  exact congrArg _ (State.regWrite_unpresented _ off _ _ h)

/-! An offset of a presented page that no table defines. -/

theorem State.readWord_undefined (s : State) (req : Requester) {page off : Nat} (h : fieldsAt page off = []) : s.readWord req page off = 0#64 := by
  simp [State.readWord, h]

theorem State.regWrite_undefined {s : State} {req : Requester} {page off : Nat} (v : Word) (hook : Hook) (ht : s.takes req page off)
    (h : fieldsAt page off = []) : s.regWrite req page off v hook = s := by
  rw [State.regWrite_takes v hook ht]
  simp [State.applyWrite, h]

/-- Settles O57: an unpresented access, by either command, is the chronometer moved on and `State.unmapped`, whose effect is stated above; an
undefined offset has no field to read or to store. -/
theorem unmappedAccesses : Obligations.UnmappedAccesses := by
  unfold Obligations.UnmappedAccesses
  refine ⟨fun s now page off req hp => ?_, fun s req page off _ hf => ?_⟩
  · obtain ⟨sticky, count, kept⟩ := s.unmapped_at now req page off
    exact ⟨⟨_, execUnmappedAccess_unpresented s now off true hp, by simp, sticky, count⟩,
      ⟨_, execUnmappedAccess_unpresented s now off false hp, sticky, count, kept⟩,
      fun bs supply hl ha ho => ⟨_, execRegWrite_unpresented s now supply hp hl ha ho, sticky, count, kept⟩⟩
  · exact ⟨s.readWord_undefined req hf, fun ht v hook => State.regWrite_undefined v hook ht hf⟩

end Sys2Proof.Machine
end

section
/-! Completion head doorbells (R149). -/

namespace Sys2Proof.Machine

/-- A completion ring read after it is set. -/
@[simp] theorem State.setCq_cq_self (s : State) (fn ring : Nat) (q : Cq) : (s.setCq fn ring q).cq fn ring = q :=
  Table.findD_put_self _ _ _ _

theorem State.setCq_mem (s : State) (fn ring : Nat) (q : Cq) : (s.setCq fn ring q).mem = s.mem := rfl

theorem State.cq_of_work {s t : State} (h : t.work = s.work) (fn ring : Nat) : t.cq fn ring = s.cq fn ring := by
  simp only [State.cq, h]

theorem State.cqNotice_mem (s : State) (fn ring : Nat) : (s.cqNotice fn ring).mem = s.mem :=
  (State.cqNotice_frame (m := 14) rfl (Frame.refl s)).part .mem rfl

theorem State.cqNotice_work (s : State) (fn ring : Nat) : (s.cqNotice fn ring).work = s.work :=
  (State.cqNotice_frame (m := 14) rfl (Frame.refl s)).part .work rfl

theorem State.cqNotice_cq (s : State) (fn ring fn' ring' : Nat) : (s.cqNotice fn ring).cq fn' ring' = s.cq fn' ring' :=
  State.cq_of_work (s.cqNotice_work fn ring) fn' ring'

/-- An error on a page leaves every part but registers and pages as it is. -/
theorem State.raise_part (s : State) (fn page n source off accPage : Nat) (p : Part) (hp : Nat.testBit 6 p.index = false) :
    p.same s (s.raise fn page n source off accPage) :=
  (State.raise_frame (m := 6) rfl (Frame.refl s)).part p hp

/-- A head within the ring's entries, cyclically from HEAD to TAIL, is taken. -/
theorem State.cqDoorbell_taken {s : State} {fn ring v : Nat} (enabled : (s.cq fn ring).enabled = true) (inside : v < s.cqDepth fn ring)
    (between : (v + s.cqDepth fn ring - (s.cq fn ring).head) % s.cqDepth fn ring ≤
      ((s.cq fn ring).tail + s.cqDepth fn ring - (s.cq fn ring).head) % s.cqDepth fn ring) :
    s.cqDoorbell fn ring v = ((s.setCq fn ring { s.cq fn ring with
      head := v, full := decide (((s.cq fn ring).tail + 1) % s.cqDepth fn ring = v) }).cqNotice fn ring).ringSettle := by
  simp [State.cqDoorbell, enabled, inside, between]

/-- At a disabled ring, or with a value outside HEAD to TAIL, the doorbell only raises BAD_DOORBELL on the ring's page. -/
theorem State.cqDoorbell_ignored {s : State} {fn ring v : Nat} (bad : (s.cq fn ring).enabled = false ∨ s.cqDepth fn ring ≤ v ∨
      ((s.cq fn ring).tail + s.cqDepth fn ring - (s.cq fn ring).head) % s.cqDepth fn ring <
        (v + s.cqDepth fn ring - (s.cq fn ring).head) % s.cqDepth fn ring) :
    s.cqDoorbell fn ring v = s.raise fn (ringPage ring) 17 fn 0 (ringPage ring) := by
  unfold State.cqDoorbell
  rcases bad with disabled | outside | beyond
  · simp [disabled]
  · simp [Nat.not_lt.mpr outside]
  · simp [Nat.not_le.mpr beyond]

/-- A 64-bit write of a completion head doorbell, where the function's BAR2 answers. -/
theorem execCqHeadDoorbell_wide {s : State} (now : Nat) {fn ring : Nat} (v : Nat) (hfn : fn < 32) (hring : ring < 64)
    (answers : s.bar2 fn ring = true) : exec (.cqHeadDoorbell now fn ring v false) s = .next ((s.at now).cqDoorbell fn ring v) := by
  have there : ¬(32 ≤ fn ∨ 64 ≤ ring) := by omega
  have answersAt : (s.at now).bar2 fn ring = true := answers
  change execCqHeadDoorbell now fn ring v false s = _
  simp [execCqHeadDoorbell, there, answersAt]

/-- Settles O58: a value from HEAD to TAIL is stored as HEAD before the rings go on; otherwise the doorbell is `State.raise` of BAD_DOORBELL, which
sets its sticky bit and keeps the rings, memory and the host's side. -/
theorem completionHeadDoorbells : Obligations.CompletionHeadDoorbells := by
  unfold Obligations.CompletionHeadDoorbells
  intro s now fn ring v hfn hring answers
  rw [execCqHeadDoorbell_wide now v hfn hring answers]
  refine ⟨fun enabled inside between => ?_, fun bad => ?_⟩
  · have taken := State.cqDoorbell_taken (s := s.at now) enabled inside between
    refine ⟨_, congrArg _ taken, ?_, ?_⟩
    · rw [State.cqNotice_mem, State.setCq_mem, State.at_mem]
    · rw [State.cqNotice_cq, State.setCq_cq_self]
      rfl
  · have ignored := State.cqDoorbell_ignored (s := s.at now) bad
    have kept := (s.at now).raise_part fn (ringPage ring) 17 fn 0 (ringPage ring)
    exact ⟨_, congrArg _ ignored, kept .work rfl, kept .mem rfl, kept .host rfl, State.raise_sets_sticky _ _ _ _ _ _ (by decide)⟩

end Sys2Proof.Machine
end

section
/-! A counter that becomes ZERO readies its waiters in the order their waits began (R186). -/

namespace Sys2Proof

/-! The stable sort. -/

section
variable {α : Type} (le : α → α → Bool)

theorem insertBy_perm (x : α) (ys : List α) : (insertBy le x ys).Perm (x :: ys) := by
  induction ys with
  | nil => exact .refl _
  | cons y ys ih =>
    unfold insertBy
    split
    · exact (ih.cons y).trans (.swap x y ys)
    · exact .refl _

theorem foldl_insertBy_perm (xs acc : List α) : (xs.foldl (fun acc x => insertBy le x acc) acc).Perm (acc ++ xs) := by
  induction xs generalizing acc with
  | nil => simp
  | cons x xs ih => exact (ih _).trans (((insertBy_perm le x acc).append_right xs).trans List.perm_middle.symm)

theorem sortBy_perm (xs : List α) : (sortBy le xs).Perm xs :=
  foldl_insertBy_perm le xs []

variable {le} (total : ∀ a b, le a b = true ∨ le b a = true) (trans : ∀ {a b c}, le a b = true → le b c = true → le a c = true)
include total trans

theorem insertBy_pairwise (x : α) {ys : List α} (h : ys.Pairwise (le · ·)) : (insertBy le x ys).Pairwise (le · ·) := by
  induction ys with
  | nil => exact List.pairwise_singleton _ x
  | cons y ys ih =>
    obtain ⟨first, rest⟩ := List.pairwise_cons.mp h
    unfold insertBy
    split
    case isTrue before =>
      refine List.pairwise_cons.mpr ⟨fun z hz => ?_, ih rest⟩
      rcases List.mem_cons.mp ((insertBy_perm le x ys).mem_iff.mp hz) with rfl | hz
      · exact before
      · exact first z hz
    case isFalse after =>
      have least : le x y = true := (total y x).resolve_left after
      refine List.pairwise_cons.mpr ⟨fun z hz => ?_, h⟩
      rcases List.mem_cons.mp hz with rfl | hz
      · exact least
      · exact trans least (first z hz)

theorem sortBy_pairwise (xs : List α) : (sortBy le xs).Pairwise (le · ·) :=
  List.foldlRecOn xs _ List.Pairwise.nil fun _ h x _ => insertBy_pairwise total trans x h

end

end Sys2Proof

namespace Sys2Proof.Machine

/-! One thread woken. -/

theorem State.wakeThread_absent {s : State} {t : Nat} (res : WaitResult) (h : s.thread? t = none) : s.wakeThread t res = s := by
  simp [State.wakeThread, h]

theorem State.wakeThread_present {s : State} {t : Nat} {th : Thread} (res : WaitResult) (h : s.thread? t = some th) :
    s.wakeThread t res = (s.modRennet fun r => { r with delays := r.delays.filter fun d => d.thread != t }).readyTail t
      { th with result := some res, a0 := waitCode res } := by
  simp [State.wakeThread, h]

theorem State.readyTail_thread?_self (s : State) (t : Nat) (th : Thread) :
    (s.readyTail t th).thread? t = some { th with state := .ready, core := none, sinceTail := 0, waitOn := none } :=
  Table.find?_put_self _ t _

theorem State.readyTail_thread?_other (s : State) {t u : Nat} (th : Thread) (h : t ≠ u) : (s.readyTail t th).thread? u = s.thread? u :=
  Table.find?_put_other _ _ h

/-- The thread stands last on its own level, and the other levels are as they were. -/
theorem State.readyTail_ready (s : State) (t : Nat) (th : Thread) (lv : Nat) :
    Table.findD (s.readyTail t th).rennet.ready lv [] = Table.findD s.rennet.ready lv [] ++ if th.level = lv then [t] else [] := by
  change Table.findD (Table.put s.rennet.ready th.level (Table.findD s.rennet.ready th.level [] ++ [t])) lv [] = _
  split
  case isTrue same => rw [same, Table.findD_put_self]
  case isFalse other => rw [Table.findD_put_other _ _ _ other, List.append_nil]

theorem State.wakeThread_counters (s : State) (t : Nat) (res : WaitResult) :
    (s.wakeThread t res).rennet.counters = s.rennet.counters := by
  cases h : s.thread? t with
  | none => rw [State.wakeThread_absent res h]
  | some th => rw [State.wakeThread_present res h]; rfl

theorem State.wakeThread_thread?_other (s : State) {t u : Nat} (res : WaitResult) (hne : t ≠ u) :
    (s.wakeThread t res).thread? u = s.thread? u := by
  cases h : s.thread? t with
  | none => rw [State.wakeThread_absent res h]
  | some th => rw [State.wakeThread_present res h, State.readyTail_thread?_other _ _ hne]; rfl

/-- Threads keep their levels, and none begins or ends. -/
theorem State.wakeThread_level (s : State) (t u : Nat) (res : WaitResult) :
    ((s.wakeThread t res).thread? u).map (·.level) = (s.thread? u).map (·.level) := by
  by_cases hne : t = u
  case neg => rw [State.wakeThread_thread?_other s res hne]
  subst hne
  cases h : s.thread? t with
  | none => rw [State.wakeThread_absent res h, h]
  | some th => rw [State.wakeThread_present res h, State.readyTail_thread?_self]; rfl

theorem State.wakeThread_ready (s : State) (t : Nat) (res : WaitResult) (lv : Nat) :
    Table.findD (s.wakeThread t res).rennet.ready lv [] =
      Table.findD s.rennet.ready lv [] ++ [t].filter fun t => (s.thread? t).any fun th => th.level == lv := by
  cases h : s.thread? t with
  | none => simp [State.wakeThread_absent res h, h]
  | some th =>
    rw [State.wakeThread_present res h, State.readyTail_ready, List.filter_cons, h]
    simp only [Option.any_some, beq_iff_eq, List.filter_nil]
    rfl

/-- A thread that stands ready. -/
def State.standsReady (s : State) (t : Nat) : Prop := ∃ th, s.thread? t = some th ∧ th.state = .ready

theorem State.wakeThread_readies {s : State} {t : Nat} (res : WaitResult) (h : (s.thread? t).isSome = true) :
    (s.wakeThread t res).standsReady t := by
  obtain ⟨th, present⟩ := Option.isSome_iff_exists.mp h
  rw [State.wakeThread_present res present]
  exact ⟨_, State.readyTail_thread?_self _ t _, rfl⟩

theorem State.wakeThread_keeps_ready {s : State} {u : Nat} (t : Nat) (res : WaitResult) (h : s.standsReady u) :
    (s.wakeThread t res).standsReady u := by
  by_cases hne : t = u
  · subst hne
    obtain ⟨th, present, _⟩ := h
    exact State.wakeThread_readies res (Option.isSome_of_eq_some present)
  · obtain ⟨th, present, ready⟩ := h
    exact ⟨th, (State.wakeThread_thread?_other s res hne).trans present, ready⟩

/-! Threads woken one after another. -/

/-- The threads of a list woken in its order. -/
def State.wakeEach (s : State) (ts : List Nat) (res : WaitResult) : State := ts.foldl (fun s t => s.wakeThread t res) s

theorem State.wakeWaiters_eq (s : State) (ctr : Nat) (res : WaitResult) :
    s.wakeWaiters ctr res = (s.wakeEach (s.waitersOf ctr) res).rennetSettle := rfl

theorem State.wakeEach_cons (s : State) (t : Nat) (ts : List Nat) (res : WaitResult) :
    s.wakeEach (t :: ts) res = (s.wakeThread t res).wakeEach ts res := rfl

theorem State.wakeEach_counters (s : State) (ts : List Nat) (res : WaitResult) :
    (s.wakeEach ts res).rennet.counters = s.rennet.counters := by
  induction ts generalizing s with
  | nil => rfl
  | cons t ts ih => rw [State.wakeEach_cons, ih, State.wakeThread_counters]

/-- Each level gains, at its tail and in the list's order, those threads of the list that stand on it. -/
theorem State.wakeEach_ready (s : State) (ts : List Nat) (res : WaitResult) (lv : Nat) :
    Table.findD (s.wakeEach ts res).rennet.ready lv [] =
      Table.findD s.rennet.ready lv [] ++ ts.filter fun t => (s.thread? t).any fun th => th.level == lv := by
  induction ts generalizing s with
  | nil => exact (List.append_nil _).symm
  | cons t ts ih =>
    have levels (u : Nat) : (((s.wakeThread t res).thread? u).any fun th => th.level == lv) = (s.thread? u).any fun th => th.level == lv := by
      have kept := congrArg (Option.any (· == lv)) (s.wakeThread_level t u res)
      simpa [Option.any_map, Function.comp_def] using kept
    simp only [State.wakeEach_cons, ih, levels]
    rw [State.wakeThread_ready, List.append_assoc, ← List.filter_append, List.singleton_append]

theorem State.wakeEach_keeps_ready {s : State} {u : Nat} (ts : List Nat) (res : WaitResult) (h : s.standsReady u) :
    (s.wakeEach ts res).standsReady u := by
  induction ts generalizing s with
  | nil => exact h
  | cons t ts ih => exact ih (State.wakeThread_keeps_ready t res h)

theorem State.wakeEach_readies {s : State} {ts : List Nat} {u : Nat} (res : WaitResult) (mem : u ∈ ts) (h : (s.thread? u).isSome = true) :
    (s.wakeEach ts res).standsReady u := by
  induction ts generalizing s with
  | nil => cases mem
  | cons t ts ih =>
    rw [State.wakeEach_cons]
    rcases List.mem_cons.mp mem with rfl | mem
    · exact State.wakeEach_keeps_ready ts res (State.wakeThread_readies res h)
    · refine ih mem ?_
      rw [← Option.isSome_map, State.wakeThread_level, Option.isSome_map, h]

/-! The counter. -/

theorem State.ctrUnderflow_rennet (s : State) : s.ctrUnderflow.rennet = s.rennet :=
  (State.ctrUnderflow_frame (m := 6) rfl (Frame.refl s)).part .rennet rfl

theorem State.waitersOf_of_threads {s u : State} (h : u.rennet.threads = s.rennet.threads) (ctr : Nat) : u.waitersOf ctr = s.waitersOf ctr := by
  unfold State.waitersOf
  rw [h]

/-- A decrement by the whole count or more makes the counter ZERO and wakes its waiters; besides, only CTR_UNDERFLOW can come (R183). -/
theorem State.ctrDec_zero {s : State} {ctr c n : Nat} (armed : Table.find? s.rennet.counters ctr = some (.armed c)) (h : c ≤ n) :
    ∃ u : State, s.ctrDec ctr n = u.wakeWaiters ctr .byCount ∧ u.rennet = (s.setCounter ctr .zero).rennet := by
  have reached : ¬n < c := Nat.not_lt.mpr h
  by_cases whole : n = c
  · exact ⟨_, by simp [State.ctrDec, armed, whole], rfl⟩
  · exact ⟨_, by simp [State.ctrDec, armed, reached, whole], State.ctrUnderflow_rennet _⟩

theorem State.ctrDec_wakes {s : State} {ctr c n : Nat} (armed : Table.find? s.rennet.counters ctr = some (.armed c)) (h : c ≤ n) :
    ∃ w : State, s.ctrDec ctr n = w.rennetSettle ∧ Table.find? w.rennet.counters ctr = some .zero ∧
      (∀ lv, Table.findD w.rennet.ready lv [] =
        Table.findD s.rennet.ready lv [] ++ (s.waitersOf ctr).filter fun t => (s.thread? t).any fun th => th.level == lv) ∧
      ∀ t ∈ s.waitersOf ctr, (s.thread? t).isSome = true → w.standsReady t := by
  obtain ⟨u, dec, rennet⟩ := State.ctrDec_zero armed h
  have threads : u.rennet.threads = s.rennet.threads := by rw [rennet]; rfl
  have ready : u.rennet.ready = s.rennet.ready := by rw [rennet]; rfl
  have zero : Table.find? u.rennet.counters ctr = some .zero := by rw [rennet]; exact Table.find?_put_self _ ctr _
  have thread (t : Nat) : u.thread? t = s.thread? t := congrArg (Table.find? · t) threads
  rw [State.wakeWaiters_eq, State.waitersOf_of_threads threads] at dec
  refine ⟨_, dec, ?_, fun lv => ?_, fun t mem present => ?_⟩
  · rw [State.wakeEach_counters, zero]
  · simp only [State.wakeEach_ready, ready, thread]
  · exact State.wakeEach_readies _ mem (by rw [thread, present])

/-- The waiters are the threads whose record names the counter, sorted by the number that their waits began with. -/
theorem State.waitersOf_sorted (s : State) (ctr : Nat) :
    ∃ l : List (Nat × Nat), l.map (·.2) = s.waitersOf ctr ∧ l.Pairwise (fun a b => a.1 ≤ b.1) ∧
      ∀ e, e ∈ l ↔ ∃ th, (e.2, th) ∈ s.rennet.threads ∧ th.waitOn = some (ctr, e.1) := by
  refine ⟨_, rfl, ?_, fun e => ?_⟩
  · refine (sortBy_pairwise (fun a b => ?_) (fun ab bc => ?_) _).imp of_decide_eq_true
    · simpa using Nat.le_total a.1 b.1
    · simp only [decide_eq_true_eq] at ab bc ⊢
      exact Nat.le_trans ab bc
  · rw [(sortBy_perm _ _).mem_iff, List.mem_filterMap]
    constructor
    · rintro ⟨⟨t, th⟩, mem, waits⟩
      split at waits
      case h_1 c n on =>
        split at waits
        case isTrue same =>
          cases waits
          exact ⟨th, mem, same ▸ on⟩
        case isFalse => cases waits
      case h_2 => cases waits
    · rintro ⟨th, mem, on⟩
      exact ⟨(e.2, th), mem, by simp [on]⟩

/-- Settles O59: the waiters are the sorted list of the waits on the counter, and waking them in its order puts each at the tail of its level before
the cores take threads. -/
theorem counterZeroWakesWaiters : Obligations.CounterZeroWakesWaiters := by
  unfold Obligations.CounterZeroWakesWaiters
  exact ⟨fun _ _ _ _ armed h => State.ctrDec_wakes armed h, State.waitersOf_sorted⟩

end Sys2Proof.Machine
end

section
/-! The class of a fault record: PENDING_CLASS, FAULT_N, the events from PIN_CLASS on, and ACK (R508). -/

namespace Sys2Proof.Machine

open Sys2Proof.Reg

/-! What a fault record does before its events. -/

/-- `s` with a fault record's number used and its class counted; class 0 has no counter here. -/
def State.faultNumbered (s : State) (r : FaultRec) : State :=
  let n := s.setFld FAULT.NEXT_SEQ ((s.fld FAULT.NEXT_SEQ + 1) % 2 ^ 32)
  if r.cls = 0 then n else n.count (classCounter r.cls) 1

/-- `s` with a fault record numbered and its class pending. -/
def State.faultCounted (s : State) (r : FaultRec) : State :=
  (s.faultNumbered r).setFld FAULT.PENDING_CLASS (max ((s.faultNumbered r).fld FAULT.PENDING_CLASS) r.cls)

/-- `s` with a fault record counted, then queued where the queue has room, else lost. -/
def State.faultQueued (s : State) (r : FaultRec) : State :=
  let c := s.faultCounted r
  if c.faults.length < 64 then
    { c with faults := c.faults ++ [{ r with seq := s.fld FAULT.NEXT_SEQ, tide := s.tide.now, chrono := s.chrono }] }.setFld FAULT.QCOUNT
      (c.faults.length + 1)
  else (c.count FAULT.RECORDS_LOST 1).raiseOwn 0x0F0 17

/-- The class counters lie below the control and status registers of their page. -/
theorem classCounter_apart (c : Nat) {g : Field} (page : g.page = 0x0F0) (off : 0x100 ≤ g.off) : fieldApart (classCounter c) g = true := by
  have place : (classCounter c).page = 0x0F0 ∧ (classCounter c).off < 0x100 := by
    unfold classCounter
    split <;> decide
  have keys : key 0 (classCounter c).page (classCounter c).off ≠ key 0 g.page g.off := by
    rw [place.1, page]
    exact key_ne_of_off 0 0x0F0 (by omega)
  simp [fieldApart, keys]

/-- Numbering and counting a record keeps the fields of the page's control and status registers that are not the number. -/
theorem State.faultNumbered_fld (s : State) (r : FaultRec) {g : Field} (page : g.page = 0x0F0) (off : 0x100 ≤ g.off)
    (seq : fieldApart FAULT.NEXT_SEQ g = true) : (s.faultNumbered r).fld g = s.fld g := by
  unfold State.faultNumbered
  dsimp only
  split
  · exact s.setFld_apart _ seq
  · rw [State.count_apart _ _ (classCounter_apart _ page off), s.setFld_apart _ seq]

theorem State.faultCounted_pinClass (s : State) (r : FaultRec) : (s.faultCounted r).fld FAULT.PIN_CLASS = s.fld FAULT.PIN_CLASS :=
  (State.setFld_apart _ _ (by decide)).trans (s.faultNumbered_fld r rfl (by decide) (by decide))

theorem State.fld_pendingClass_lt (s : State) : s.fld FAULT.PENDING_CLASS < 8 :=
  Nat.mod_lt _ (by decide)

/-- The pending class becomes the higher of itself and the record's class, which fit the field. -/
theorem State.faultCounted_pendingClass (s : State) {r : FaultRec} (fits : r.cls < 8) :
    (s.faultCounted r).fld FAULT.PENDING_CLASS = max (s.fld FAULT.PENDING_CLASS) r.cls := by
  have small : max (s.fld FAULT.PENDING_CLASS) r.cls < 8 := Nat.max_lt.mpr ⟨s.fld_pendingClass_lt, fits⟩
  unfold State.faultCounted
  rw [State.setFld_self _ _ _ (by decide), s.faultNumbered_fld r rfl (by decide) (by decide)]
  exact Nat.mod_eq_of_lt small

/-- Counting a record changes registers only. -/
theorem State.faultCounted_eq (s : State) (r : FaultRec) : s.faultCounted r = { s with regs := (s.faultCounted r).regs } := by
  unfold State.faultCounted State.faultNumbered
  dsimp only
  split <;> rfl

theorem State.faultCounted_faults (s : State) (r : FaultRec) : (s.faultCounted r).faults = s.faults := by
  rw [s.faultCounted_eq r]

theorem State.faultCounted_platformEvents (s : State) (r : FaultRec) : (s.faultCounted r).platformEvents = s.platformEvents := by
  rw [s.faultCounted_eq r]

/-- Queueing or losing a record keeps the fields that neither writes: QCOUNT, RECORDS_LOST, the page's error registers. -/
theorem State.faultQueued_fld (s : State) (r : FaultRec) {g : Field} (page : g.page < 0x4000) (off : g.off < 0x1000) (err : errorOff g.off = false)
    (queue : fieldApart FAULT.QCOUNT g = true) (lost : fieldApart FAULT.RECORDS_LOST g = true) :
    (s.faultQueued r).fld g = (s.faultCounted r).fld g := by
  unfold State.faultQueued
  dsimp only
  split
  · exact State.setFld_apart _ _ queue
  · rw [State.raiseOwn_fld _ _ _ (by decide) page off err, State.count_apart _ _ lost]

theorem State.faultQueued_pinClass (s : State) (r : FaultRec) : (s.faultQueued r).fld FAULT.PIN_CLASS = s.fld FAULT.PIN_CLASS :=
  (s.faultQueued_fld r (by decide) (by decide) (by decide) (by decide) (by decide)).trans (s.faultCounted_pinClass r)

theorem State.faultQueued_pendingClass (s : State) {r : FaultRec} (fits : r.cls < 8) :
    (s.faultQueued r).fld FAULT.PENDING_CLASS = max (s.fld FAULT.PENDING_CLASS) r.cls :=
  (s.faultQueued_fld r (by decide) (by decide) (by decide) (by decide) (by decide)).trans (s.faultCounted_pendingClass fits)

theorem State.faultQueued_platformEvents (s : State) (r : FaultRec) : (s.faultQueued r).platformEvents = s.platformEvents := by
  unfold State.faultQueued
  dsimp only
  split
  · exact s.faultCounted_platformEvents r
  · exact (State.raise_part _ _ _ _ _ _ _ .platformEvents rfl).trans (s.faultCounted_platformEvents r)

/-- A record that finds room in the queue raises no error: pages and outputs stay. -/
theorem State.faultQueued_room {s : State} (r : FaultRec) (room : s.faults.length < 64) :
    (s.faultQueued r).pages = s.pages ∧ (s.faultQueued r).out = s.out := by
  unfold State.faultQueued
  dsimp only
  rw [s.faultCounted_faults r, if_pos room, s.faultCounted_eq r]
  exact ⟨rfl, rfl⟩

/-! The record's events. -/

/-- `s` with a record queued or lost and its platform event waiting. -/
def State.faultReported (s : State) (r : FaultRec) : State :=
  { s.faultQueued r with platformEvents := (s.faultQueued r).platformEvents ++ [r.cls * 256 + r.cause] }

/-- A record raises its two events when its class reaches PIN_CLASS, and is only counted and queued otherwise. -/
theorem State.faultRecord_eq (s : State) (r : FaultRec) :
    s.faultRecord r = if s.fld FAULT.PIN_CLASS ≤ r.cls then (s.faultReported r).irqEvent 0 0x0F0 else s.faultQueued r := by
  rw [← s.faultQueued_pinClass r]
  change (if decide ((s.faultQueued r).fld FAULT.PIN_CLASS ≤ r.cls) = true then (s.faultReported r).irqEvent 0 0x0F0 else s.faultQueued r) = _
  simp only [decide_eq_true_eq]

theorem State.faultRecord_reported {s : State} {r : FaultRec} (high : s.fld FAULT.PIN_CLASS ≤ r.cls) :
    s.faultRecord r = (s.faultReported r).irqEvent 0 0x0F0 := by
  rw [s.faultRecord_eq, if_pos high]

theorem State.faultRecord_quiet {s : State} {r : FaultRec} (low : r.cls < s.fld FAULT.PIN_CLASS) : s.faultRecord r = s.faultQueued r := by
  rw [s.faultRecord_eq, if_neg (Nat.not_le.mpr low)]

theorem State.irqEvent_platformEvents (s : State) (fn page : Nat) : (s.irqEvent fn page).platformEvents = s.platformEvents :=
  (State.irqEvent_frame (m := 4) rfl (Frame.refl s)).part .platformEvents rfl

/-- The events of a record leave the registers as queueing it does. -/
theorem State.faultRecord_regs (s : State) (r : FaultRec) : (s.faultRecord r).regs = (s.faultQueued r).regs := by
  rw [s.faultRecord_eq]
  split
  · exact State.irqEvent_regs _ _ _
  · rfl

theorem State.faultRecord_pendingClass (s : State) {r : FaultRec} (fits : r.cls < 8) :
    (s.faultRecord r).fld FAULT.PENDING_CLASS = max (s.fld FAULT.PENDING_CLASS) r.cls :=
  (State.fld_of_regs (s.faultRecord_regs r) _).trans (s.faultQueued_pendingClass fits)

/-- From PIN_CLASS on, a record adds one platform event. -/
theorem State.faultRecord_platformEvents {s : State} {r : FaultRec} (high : s.fld FAULT.PIN_CLASS ≤ r.cls) :
    (s.faultRecord r).platformEvents = s.platformEvents ++ [r.cls * 256 + r.cause] := by
  rw [State.faultRecord_reported high, State.irqEvent_platformEvents, State.faultReported, s.faultQueued_platformEvents]

/-! FAULT_N and ACK. -/

/-- The three causes of R508. -/
theorem State.faultPinLow_iff (s : State) : s.faultPinLow = true ↔
    s.fld FAULT.PIN_CLASS ≤ s.fld FAULT.PENDING_CLASS ∨ s.bit FAULT.NODE_FATAL = true ∨ s.power.trip = true := by
  simp only [State.faultPinLow, Bool.or_eq_true, decide_eq_true_eq, or_assoc]

/-- A write of FAULT_CTRL with ACK alone clears the pending class and has no other effect of its own. -/
theorem execFaultAck_lands {s u : State} {now : Nat} {req : Requester} (h : s.lands now req 0x0F0 0x110 1#64 u) :
    exec (.faultAck now req) s = .next (u.setFld FAULT.PENDING_CLASS 0) :=
  congrArg Host.Outcome.next (State.lands_hook faultCtrlHook h (by decide +kernel))

/-- Settles O60: a record is `State.faultQueued`, which fixes PENDING_CLASS, followed from PIN_CLASS on by the two events, which leave registers
alone; ACK is a write of PENDING_CLASS, which shares no bit with NODE_FATAL. -/
theorem faultPinAndClass : Obligations.FaultPinAndClass := by
  unfold Obligations.FaultPinAndClass
  refine ⟨fun s r fits => ⟨s.faultRecord_pendingClass fits, fun high => ?_, fun low => ?_⟩, State.faultPinLow_iff, fun s u now req h => ?_⟩
  · exact ⟨s.faultReported r, _, State.faultRecord_reported high, State.faultRecord_platformEvents high, State.faultQueued_room r⟩
  · rw [State.faultRecord_quiet low]
    exact ⟨s.faultQueued_platformEvents r, fun room => (State.faultQueued_room r room).1⟩
  · exact ⟨_, execFaultAck_lands h, u.setFld_self _ 0 (by decide), u.setFld_bit_apart 0 (by decide)⟩

end Sys2Proof.Machine
end

section
/-! One step of the machine, and the invariant that every step keeps (95, what each step holds). -/

namespace Sys2Proof.Machine

theorem step_front {s : State} {c : Instr} {rest : List Instr} (h : s.pending = c :: rest) : step s = exec c { s with pending := rest } := by
  simp [step, h]

theorem step_idle {s : State} (h : s.pending = []) : step s = .next s := by
  simp [step, h]

/-- Settles O1: `step` by cases on the queue. -/
theorem stepRunsFrontCommand : Obligations.StepRunsFrontCommand := by
  unfold Obligations.StepRunsFrontCommand
  exact ⟨fun _ _ _ => step_front, fun _ => step_idle⟩

/-- Settles O2: at reset memory, ring storage, registers and queue are empty. -/
theorem resetMeetsInvariant : Obligations.ResetMeetsInvariant := by
  unfold Obligations.ResetMeetsInvariant
  rfl

/-! Every well-formed command answers a next state. -/

/-- A command that faults only for a unit beyond the module's answers a next state for each of its units. -/
theorem answers_of_lt {n k : Nat} {f : Fault} {t : State} (h : decide (n < k) = true) :
    ∃ u, (if k ≤ n then Host.Outcome.fault f else Host.Outcome.next t : Host.Outcome State Fault Refusal) = .next u :=
  ⟨t, if_neg (Nat.not_le.mpr (of_decide_eq_true h))⟩

/-- The same for a command that names a function's ring. -/
theorem answers_of_lt_lt {n m k l : Nat} {f : Fault} {t : State} (h : (decide (n < k) && decide (m < l)) = true) :
    ∃ u, (if k ≤ n ∨ l ≤ m then Host.Outcome.fault f else Host.Outcome.next t : Host.Outcome State Fault Refusal) = .next u := by
  simp only [Bool.and_eq_true, decide_eq_true_eq] at h
  exact ⟨t, if_neg (by omega)⟩

/-- A well-formed command answers a next state: its operands name units that the module has, and nothing else faults. -/
theorem exec_answers {c : Instr} (s : State) (h : c.wf = true) : ∃ t, exec c s = .next t := by
  cases c
  case zkPrsntN | cableSeated | cprsntN | pdSwitchOn | pdRetrained | functionLevelReset | driveBringUp | cellarCmdTimeout | abortTimeout |
      cellarCmdComplete | driveLost | coreFail | scrubStep | prod | admission | txSlotFree | bar4Access | syncWordRead | atsInvalidation |
      atsInvalidationComplete | atsTranslationDone | configurationWrite | msixTableWrite | linkTrain | trainingDone | config | auth | flitReceive |
      nak | ackTimeout | retrainReq | retrainDone | retrainTimeout | laneLockLost | unitFail => exact answers_of_lt h
  case sqDoorbell | cqHeadDoorbell | descFetch | descFetchDone => exact answers_of_lt_lt h
  case sqEnable | cqEnable | sqRetry | bankCfgWidth | bankCfgOos | leadClaim | herdForm | memberSet | bootReq | bootData | serveRingEnable |
      fullTrain => exact answers_of_lt (Bool.and_eq_true _ _ ▸ h).1
  case watermarkMarkWrite now req which mark hyst =>
    cases which
    case completion ring => exact answers_of_lt (Bool.and_eq_true _ _ ▸ h).1
    all_goals exact ⟨_, rfl⟩
  all_goals exact ⟨_, rfl⟩

theorem State.queueWf_cons {s : State} {c : Instr} {rest : List Instr} (h : s.pending = c :: rest) :
    s.queueWf = (c.wf && rest.all Instr.wf) := by
  simp [State.queueWf, h]

/-- Settles O3: an idle step changes nothing; else the front command is well formed, so that it answers, and keeps what every command keeps. -/
theorem stepKeepsInvariant : Obligations.StepKeepsInvariant := by
  unfold Obligations.StepKeepsInvariant
  intro s inv
  obtain ⟨canonical, queue⟩ : s.canonical = true ∧ s.queueWf = true := by simpa [State.inv] using inv
  cases h : s.pending with
  | nil => exact ⟨s, step_idle h, inv, by simp [h], ⟨[], by simp⟩, Nat.le_refl _⟩
  | cons c rest =>
    obtain ⟨wf, restWf⟩ : c.wf = true ∧ rest.all Instr.wf = true := by simpa [State.queueWf_cons h] using queue
    obtain ⟨t, answer⟩ := exec_answers { s with pending := rest } wf
    obtain ⟨pending, out, free, canon⟩ := ((exec_keeps c _).holds t answer).keeps
    refine ⟨t, (step_front h).trans answer, ?_, pending, out, free⟩
    have queueT : t.queueWf = true := by rw [State.queueWf, pending]; exact restWf
    rw [State.inv, canon canonical, queueT]
    rfl

/-- Settles O4: well-formed commands answer (`exec_answers`); a unit number beyond the bound takes the first branch of each meaning. That the answer
there is a fault is the model's choice (assumption 22). -/
theorem wellFormedCommandsAnswer : Obligations.WellFormedCommandsAnswer := by
  unfold Obligations.WellFormedCommandsAnswer
  refine ⟨fun c s => exec_answers s, fun s now n => ⟨fun h => ?_, fun h => ?_, fun h => ?_, fun h fn => if_pos (.inr h)⟩⟩
  · exact ⟨if_pos h, if_pos h, if_pos h, if_pos h, if_pos h, if_pos h⟩
  · exact ⟨if_pos h, fun _ => if_pos h⟩
  · exact ⟨if_pos h, fun _ => if_pos (.inl h), fun _ => if_pos h⟩

/-! What each command leaves as it is. -/

/-- A command that answers keeps the queue, and of `s` the parts that a list names. -/
def LeavesOut (ps : List Part) (s : State) (o : Host.Outcome State Fault Refusal) : Prop :=
  ∀ t, o = .next t → t.pending = s.pending ∧ ∀ p ∈ ps, p.same s t

/-- A frame leaves each list of parts that its mask does not name. -/
theorem leavesOut_of_frame {m : Nat} {ps : List Part} {s : State} {o : Host.Outcome State Fault Refusal} (h : FrameOut m s o)
    (beside : (ps.all fun p => !m.testBit p.index) = true) : LeavesOut ps s o := by
  intro t answer
  have frame := h.holds t answer
  refine ⟨frame.keeps.pending, fun p mem => frame.parts p ?_⟩
  simpa using List.all_eq_true.mp beside p mem

/-- Each command's frame: the mask of its lemma names no part of its row of `Instr.leaves`. -/
theorem exec_leaves (c : Instr) (s : State) : LeavesOut c.leaves (s.at c.now) (exec c s) := by
  cases c with
  | p54vRise => exact leavesOut_of_frame (execP54vRise_frame (Nat.or_self _) (Frame.refl _)) rfl
  | modPgAssert => exact leavesOut_of_frame (execModPgAssert_frame (Nat.or_self _) (Frame.refl _)) rfl
  | moduleResetRelease => exact leavesOut_of_frame (execModuleResetRelease_frame (Nat.or_self _) (Frame.refl _)) rfl
  | strapChanged => exact leavesOut_of_frame (execStrapChanged_frame (Nat.or_self _) (Frame.refl _)) rfl
  | resetNPulse => exact leavesOut_of_frame (execResetNPulse_frame (Nat.or_self _) (Frame.refl _)) rfl
  | perst0NLevel => exact leavesOut_of_frame (execPerst0NLevel_frame (Nat.or_self _) (Frame.refl _)) rfl
  | perst0WarmReset => exact leavesOut_of_frame (execPerst0WarmReset_frame (Nat.or_self _) (Frame.refl _)) rfl
  | perst1NLevel => exact leavesOut_of_frame (execPerst1NLevel_frame (Nat.or_self _) (Frame.refl _)) rfl
  | pwrBrakeN => exact leavesOut_of_frame (execPwrBrakeN_frame (Nat.or_self _) (Frame.refl _)) rfl
  | tideInRise => exact leavesOut_of_frame (execTideInRise_frame (Nat.or_self _) (Frame.refl _)) rfl
  | stuckSpanExpire => exact leavesOut_of_frame (execStuckSpanExpire_frame (Nat.or_self _) (Frame.refl _)) rfl
  | zkPrsntN => exact leavesOut_of_frame (execZkPrsntN_frame (Nat.or_self _) (Frame.refl _)) rfl
  | cprsntN => exact leavesOut_of_frame (execCprsntN_frame (Nat.or_self _) (Frame.refl _)) rfl
  | m1BusTimeout => exact leavesOut_of_frame (execM1BusTimeout_frame (Nat.or_self _) (Frame.refl _)) rfl
  | undervoltage => exact leavesOut_of_frame (execUndervoltage_frame (Nat.or_self _) (Frame.refl _)) rfl
  | lowBand => exact leavesOut_of_frame (execLowBand_frame (Nat.or_self _) (Frame.refl _)) rfl
  | overvoltage => exact leavesOut_of_frame (execOvervoltage_frame (Nat.or_self _) (Frame.refl _)) rfl
  | ovRelease => exact leavesOut_of_frame (execOvRelease_frame (Nat.or_self _) (Frame.refl _)) rfl
  | thermalThrottle => exact leavesOut_of_frame (execThermalThrottle_frame (Nat.or_self _) (Frame.refl _)) rfl
  | thermalTrip => exact leavesOut_of_frame (execThermalTrip_frame (Nat.or_self _) (Frame.refl _)) rfl
  | pdSwitchOn => exact leavesOut_of_frame (execPdSwitchOn_frame (Nat.or_self _) (Frame.refl _)) rfl
  | tiersReady => exact leavesOut_of_frame (execTiersReady_frame (Nat.or_self _) (Frame.refl _)) rfl
  | pd3Off => exact leavesOut_of_frame (execPd3Off_frame (Nat.or_self _) (Frame.refl _)) rfl
  | pd5Off => exact leavesOut_of_frame (execPd5Off_frame (Nat.or_self _) (Frame.refl _)) rfl
  | pdRetrained => exact leavesOut_of_frame (execPdRetrained_frame (Nat.or_self _) (Frame.refl _)) rfl
  | leaveRequest => exact leavesOut_of_frame (execLeaveRequest_frame (Nat.or_self _) (Frame.refl _)) rfl
  | leaveRelease => exact leavesOut_of_frame (execLeaveRelease_frame (Nat.or_self _) (Frame.refl _)) rfl
  | leaveTimeout => exact leavesOut_of_frame (execLeaveTimeout_frame (Nat.or_self _) (Frame.refl _)) rfl
  | calWriteDue => exact leavesOut_of_frame (execCalWriteDue_frame (Nat.or_self _) (Frame.refl _)) rfl
  | saveNow => exact leavesOut_of_frame (execSaveNow_frame (Nat.or_self _) (Frame.refl _)) rfl
  | calWriteEnd => exact leavesOut_of_frame (execCalWriteEnd_frame (Nat.or_self _) (Frame.refl _)) rfl
  | warmReq => exact leavesOut_of_frame (execWarmReq_frame (Nat.or_self _) (Frame.refl _)) rfl
  | herdReq => exact leavesOut_of_frame (execHerdReq_frame (Nat.or_self _) (Frame.refl _)) rfl
  | herdReset => exact leavesOut_of_frame (execHerdReset_frame (Nat.or_self _) (Frame.refl _)) rfl
  | functionLevelReset => exact leavesOut_of_frame (execFunctionLevelReset_frame (Nat.or_self _) (Frame.refl _)) rfl
  | blockReset => exact leavesOut_of_frame (execBlockReset_frame (Nat.or_self _) (Frame.refl _)) rfl
  | blockResetEnd => exact leavesOut_of_frame (execBlockResetEnd_frame (Nat.or_self _) (Frame.refl _)) rfl
  | blockResetTimeout => exact leavesOut_of_frame (execBlockResetTimeout_frame (Nat.or_self _) (Frame.refl _)) rfl
  | regWrite => exact leavesOut_of_frame (execRegWrite_frame (Nat.or_self _) (Frame.refl _)) rfl
  | unmappedAccess => exact leavesOut_of_frame (execUnmappedAccess_frame (Nat.or_self _) (Frame.refl _)) rfl
  | pgLock => exact leavesOut_of_frame (execPgLock_frame (Nat.or_self _) (Frame.refl _)) rfl
  | pgCtrlEnable => exact leavesOut_of_frame (execPgCtrlEnable_frame (Nat.or_self _) (Frame.refl _)) rfl
  | pgCtrlQuiesce => exact leavesOut_of_frame (execPgCtrlQuiesce_frame (Nat.or_self _) (Frame.refl _)) rfl
  | pgCtrlOutOfService => exact leavesOut_of_frame (execPgCtrlOutOfService_frame (Nat.or_self _) (Frame.refl _)) rfl
  | pgSync => exact leavesOut_of_frame (execPgSync_frame (Nat.or_self _) (Frame.refl _)) rfl
  | errInjectFire => exact leavesOut_of_frame (execErrInjectFire_frame (Nat.or_self _) (Frame.refl _)) rfl
  | injectionDelivered => exact leavesOut_of_frame (execInjectionDelivered_frame (Nat.or_self _) (Frame.refl _)) rfl
  | errFirstClear => exact leavesOut_of_frame (execErrFirstClear_frame (Nat.or_self _) (Frame.refl _)) rfl
  | regParity => exact leavesOut_of_frame (execRegParity_frame (Nat.or_self _) (Frame.refl _)) rfl
  | irqRoute => exact leavesOut_of_frame (execIrqRoute_frame (Nat.or_self _) (Frame.refl _)) rfl
  | modTimeExpire => exact leavesOut_of_frame (execModTimeExpire_frame (Nat.or_self _) (Frame.refl _)) rfl
  | vatCfg => exact leavesOut_of_frame (execVatCfg_frame (Nat.or_self _) (Frame.refl _)) rfl
  | extentGrant => exact leavesOut_of_frame (execExtentGrant_frame (Nat.or_self _) (Frame.refl _)) rfl
  | sliceStart => exact leavesOut_of_frame (execSliceStart_frame (Nat.or_self _) (Frame.refl _)) rfl
  | unitFail => exact leavesOut_of_frame (execUnitFail_frame (Nat.or_self _) (Frame.refl _)) rfl
  | scrubPass => exact leavesOut_of_frame (execScrubPass_frame (Nat.or_self _) (Frame.refl _)) rfl
  | regionAlloc => exact leavesOut_of_frame (execRegionAlloc_frame (Nat.or_self _) (Frame.refl _)) rfl
  | regionFree => exact leavesOut_of_frame (execRegionFree_frame (Nat.or_self _) (Frame.refl _)) rfl
  | regionRead => exact leavesOut_of_frame (execRegionRead_frame (Nat.or_self _) (Frame.refl _)) rfl
  | regionCmdDone => exact leavesOut_of_frame (execRegionCmdDone_frame (Nat.or_self _) (Frame.refl _)) rfl
  | cellarMode => exact leavesOut_of_frame (execCellarMode_frame (Nat.or_self _) (Frame.refl _)) rfl
  | driveBringUp => exact leavesOut_of_frame (execDriveBringUp_frame (Nat.or_self _) (Frame.refl _)) rfl
  | rescan => exact leavesOut_of_frame (execRescan_frame (Nat.or_self _) (Frame.refl _)) rfl
  | driveOos => exact leavesOut_of_frame (execDriveOos_frame (Nat.or_self _) (Frame.refl _)) rfl
  | cellarCmdTimeout => exact leavesOut_of_frame (execCellarCmdTimeout_frame (Nat.or_self _) (Frame.refl _)) rfl
  | abortTimeout => exact leavesOut_of_frame (execAbortTimeout_frame (Nat.or_self _) (Frame.refl _)) rfl
  | cellarCmdComplete => exact leavesOut_of_frame (execCellarCmdComplete_frame (Nat.or_self _) (Frame.refl _)) rfl
  | driveLost => exact leavesOut_of_frame (execDriveLost_frame (Nat.or_self _) (Frame.refl _)) rfl
  | biasToDevice => exact leavesOut_of_frame (execBiasToDevice_frame (Nat.or_self _) (Frame.refl _)) rfl
  | biasToHost => exact leavesOut_of_frame (execBiasToHost_frame (Nat.or_self _) (Frame.refl _)) rfl
  | biasQuery => exact leavesOut_of_frame (execBiasQuery_frame (Nat.or_self _) (Frame.refl _)) rfl
  | biasFlipDone => exact leavesOut_of_frame (execBiasFlipDone_frame (Nat.or_self _) (Frame.refl _)) rfl
  | hostHdmAccess => exact leavesOut_of_frame (execHostHdmAccess_frame (Nat.or_self _) (Frame.refl _)) rfl
  | bar4Access => exact leavesOut_of_frame (execBar4Access_frame (Nat.or_self _) (Frame.refl _)) rfl
  | syncWordRead => exact leavesOut_of_frame (execSyncWordRead_frame (Nat.or_self _) (Frame.refl _)) rfl
  | atsInvalidation => exact leavesOut_of_frame (execAtsInvalidation_frame (Nat.or_self _) (Frame.refl _)) rfl
  | atsInvalidationComplete => exact leavesOut_of_frame (execAtsInvalidationComplete_frame (Nat.or_self _) (Frame.refl _)) rfl
  | hostReadComplete => exact leavesOut_of_frame (execHostReadComplete_frame (Nat.or_self _) (Frame.refl _)) rfl
  | hostTimeout => exact leavesOut_of_frame (execHostTimeout_frame (Nat.or_self _) (Frame.refl _)) rfl
  | hostSnoop => exact leavesOut_of_frame (execHostSnoop_frame (Nat.or_self _) (Frame.refl _)) rfl
  | biTimeout => exact leavesOut_of_frame (execBiTimeout_frame (Nat.or_self _) (Frame.refl _)) rfl
  | port1LinkDown => exact leavesOut_of_frame (execPort1LinkDown_frame (Nat.or_self _) (Frame.refl _)) rfl
  | port0LinkDown => exact leavesOut_of_frame (execPort0LinkDown_frame (Nat.or_self _) (Frame.refl _)) rfl
  | port0LinkUp => exact leavesOut_of_frame (execPort0LinkUp_frame (Nat.or_self _) (Frame.refl _)) rfl
  | hostHeartbeat => exact leavesOut_of_frame (execHostHeartbeat_frame (Nat.or_self _) (Frame.refl _)) rfl
  | hbSpanExpire => exact leavesOut_of_frame (execHbSpanExpire_frame (Nat.or_self _) (Frame.refl _)) rfl
  | hostLoss => exact leavesOut_of_frame (execHostLoss_frame (Nat.or_self _) (Frame.refl _)) rfl
  | claim => exact leavesOut_of_frame (execClaim_frame (Nat.or_self _) (Frame.refl _)) rfl
  | discard => exact leavesOut_of_frame (execDiscard_frame (Nat.or_self _) (Frame.refl _)) rfl
  | hostTierResume => exact leavesOut_of_frame (execHostTierResume_frame (Nat.or_self _) (Frame.refl _)) rfl
  | sqDoorbell => exact leavesOut_of_frame (execSqDoorbell_frame (Nat.or_self _) (Frame.refl _)) rfl
  | cqHeadDoorbell => exact leavesOut_of_frame (execCqHeadDoorbell_frame (Nat.or_self _) (Frame.refl _)) rfl
  | descFetch => exact leavesOut_of_frame (execDescFetch_frame (Nat.or_self _) (Frame.refl _)) rfl
  | descFetchDone => exact leavesOut_of_frame (execDescFetchDone_frame (Nat.or_self _) (Frame.refl _)) rfl
  | run => exact leavesOut_of_frame (execRun_frame (Nat.or_self _) (Frame.refl _)) rfl
  | fence => exact leavesOut_of_frame (execFence_frame (Nat.or_self _) (Frame.refl _)) rfl
  | waitTide => exact leavesOut_of_frame (execWaitTide_frame (Nat.or_self _) (Frame.refl _)) rfl
  | waitTideTimeout => exact leavesOut_of_frame (execWaitTideTimeout_frame (Nat.or_self _) (Frame.refl _)) rfl
  | signal => exact leavesOut_of_frame (execSignal_frame (Nat.or_self _) (Frame.refl _)) rfl
  | mirrorCut => exact leavesOut_of_frame (execMirrorCut_frame (Nat.or_self _) (Frame.refl _)) rfl
  | parkDrain => exact leavesOut_of_frame (execParkDrain_frame (Nat.or_self _) (Frame.refl _)) rfl
  | nop => exact leavesOut_of_frame (execNop_frame (Nat.or_self _) (Frame.refl _)) rfl
  | jobComplete => exact leavesOut_of_frame (execJobComplete_frame (Nat.or_self _) (Frame.refl _)) rfl
  | sliceEnd => exact leavesOut_of_frame (execSliceEnd_frame (Nat.or_self _) (Frame.refl _)) rfl
  | sliceBound => exact leavesOut_of_frame (execSliceBound_frame (Nat.or_self _) (Frame.refl _)) rfl
  | sqEnable => exact leavesOut_of_frame (execSqEnable_frame (Nat.or_self _) (Frame.refl _)) rfl
  | cqEnable => exact leavesOut_of_frame (execCqEnable_frame (Nat.or_self _) (Frame.refl _)) rfl
  | sqRetry => exact leavesOut_of_frame (execSqRetry_frame (Nat.or_self _) (Frame.refl _)) rfl
  | rnWait => exact leavesOut_of_frame (execRnWait_frame (Nat.or_self _) (Frame.refl _)) rfl
  | rnWaitTimeout => exact leavesOut_of_frame (execRnWaitTimeout_frame (Nat.or_self _) (Frame.refl _)) rfl
  | rnDelay => exact leavesOut_of_frame (execRnDelay_frame (Nat.or_self _) (Frame.refl _)) rfl
  | delayWake => exact leavesOut_of_frame (execDelayWake_frame (Nat.or_self _) (Frame.refl _)) rfl
  | rnCtrAlloc => exact leavesOut_of_frame (execRnCtrAlloc_frame (Nat.or_self _) (Frame.refl _)) rfl
  | rnCtrSub => exact leavesOut_of_frame (execRnCtrSub_frame (Nat.or_self _) (Frame.refl _)) rfl
  | rnCtrFree => exact leavesOut_of_frame (execRnCtrFree_frame (Nat.or_self _) (Frame.refl _)) rfl
  | rnCopy => exact leavesOut_of_frame (execRnCopy_frame (Nat.or_self _) (Frame.refl _)) rfl
  | rnBudget => exact leavesOut_of_frame (execRnBudget_frame (Nat.or_self _) (Frame.refl _)) rfl
  | rnTide => exact leavesOut_of_frame (execRnTide_frame (Nat.or_self _) (Frame.refl _)) rfl
  | ecallUnknown => exact leavesOut_of_frame (execEcallUnknown_frame (Nat.or_self _) (Frame.refl _)) rfl
  | copyComplete => exact leavesOut_of_frame (execCopyComplete_frame (Nat.or_self _) (Frame.refl _)) rfl
  | stageReturn => exact leavesOut_of_frame (execStageReturn_frame (Nat.or_self _) (Frame.refl _)) rfl
  | stageFault => exact leavesOut_of_frame (execStageFault_frame (Nat.or_self _) (Frame.refl _)) rfl
  | fenceI => exact leavesOut_of_frame (execFenceI_frame (Nat.or_self _) (Frame.refl _)) rfl
  | quantumExpiry => exact leavesOut_of_frame (execQuantumExpiry_frame (Nat.or_self _) (Frame.refl _)) rfl
  | stageOverrun => exact leavesOut_of_frame (execStageOverrun_frame (Nat.or_self _) (Frame.refl _)) rfl
  | ctrArm => exact leavesOut_of_frame (execCtrArm_frame (Nat.or_self _) (Frame.refl _)) rfl
  | ctrSub => exact leavesOut_of_frame (execCtrSub_frame (Nat.or_self _) (Frame.refl _)) rfl
  | ctrDisarm => exact leavesOut_of_frame (execCtrDisarm_frame (Nat.or_self _) (Frame.refl _)) rfl
  | flowOpen => exact leavesOut_of_frame (execFlowOpen_frame (Nat.or_self _) (Frame.refl _)) rfl
  | flowClose => exact leavesOut_of_frame (execFlowClose_frame (Nat.or_self _) (Frame.refl _)) rfl
  | flowAdvance => exact leavesOut_of_frame (execFlowAdvance_frame (Nat.or_self _) (Frame.refl _)) rfl
  | coreOos => exact leavesOut_of_frame (execCoreOos_frame (Nat.or_self _) (Frame.refl _)) rfl
  | coreFail => exact leavesOut_of_frame (execCoreFail_frame (Nat.or_self _) (Frame.refl _)) rfl
  | l2Ue => exact leavesOut_of_frame (execL2Ue_frame (Nat.or_self _) (Frame.refl _)) rfl
  | beatSend => exact leavesOut_of_frame (execBeatSend_frame (Nat.or_self _) (Frame.refl _)) rfl
  | beatApply => exact leavesOut_of_frame (execBeatApply_frame (Nat.or_self _) (Frame.refl _)) rfl
  | reportReceive => exact leavesOut_of_frame (execReportReceive_frame (Nat.or_self _) (Frame.refl _)) rfl
  | hostTide => exact leavesOut_of_frame (execHostTide_frame (Nat.or_self _) (Frame.refl _)) rfl
  | alarmArm => exact leavesOut_of_frame (execAlarmArm_frame (Nat.or_self _) (Frame.refl _)) rfl
  | srcOpen => exact leavesOut_of_frame (execSrcOpen_frame (Nat.or_self _) (Frame.refl _)) rfl
  | srcClose => exact leavesOut_of_frame (execSrcClose_frame (Nat.or_self _) (Frame.refl _)) rfl
  | srcLow => exact leavesOut_of_frame (execSrcLow_frame (Nat.or_self _) (Frame.refl _)) rfl
  | srcIdle => exact leavesOut_of_frame (execSrcIdle_frame (Nat.or_self _) (Frame.refl _)) rfl
  | srcActive => exact leavesOut_of_frame (execSrcActive_frame (Nat.or_self _) (Frame.refl _)) rfl
  | srcRead => exact leavesOut_of_frame (execSrcRead_frame (Nat.or_self _) (Frame.refl _)) rfl
  | sourceIdleExpire => exact leavesOut_of_frame (execSourceIdleExpire_frame (Nat.or_self _) (Frame.refl _)) rfl
  | beatLost => exact leavesOut_of_frame (execBeatLost_frame (Nat.or_self _) (Frame.refl _)) rfl
  | intakeSurvey => exact leavesOut_of_frame (execIntakeSurvey_frame (Nat.or_self _) (Frame.refl _)) rfl
  | dlogHead => exact leavesOut_of_frame (execDlogHead_frame (Nat.or_self _) (Frame.refl _)) rfl
  | dlogEnable => exact leavesOut_of_frame (execDlogEnable_frame (Nat.or_self _) (Frame.refl _)) rfl
  | dictRegister => exact leavesOut_of_frame (execDictRegister_frame (Nat.or_self _) (Frame.refl _)) rfl
  | dictUnregister => exact leavesOut_of_frame (execDictUnregister_frame (Nat.or_self _) (Frame.refl _)) rfl
  | dictUnregisterDone => exact leavesOut_of_frame (execDictUnregisterDone_frame (Nat.or_self _) (Frame.refl _)) rfl
  | dictRead => exact leavesOut_of_frame (execDictRead_frame (Nat.or_self _) (Frame.refl _)) rfl
  | probeOm64 => exact leavesOut_of_frame (execProbeOm64_frame (Nat.or_self _) (Frame.refl _)) rfl
  | probeCrc => exact leavesOut_of_frame (execProbeCrc_frame (Nat.or_self _) (Frame.refl _)) rfl
  | strainerWrite => exact leavesOut_of_frame (execStrainerWrite_frame (Nat.or_self _) (Frame.refl _)) rfl
  | strainerRead => exact leavesOut_of_frame (execStrainerRead_frame (Nat.or_self _) (Frame.refl _)) rfl
  | strainerInvalidate => exact leavesOut_of_frame (execStrainerInvalidate_frame (Nat.or_self _) (Frame.refl _)) rfl
  | strainerSearch => exact leavesOut_of_frame (execStrainerSearch_frame (Nat.or_self _) (Frame.refl _)) rfl
  | bankCfgWidth => exact leavesOut_of_frame (execBankCfgWidth_frame (Nat.or_self _) (Frame.refl _)) rfl
  | bankCfgOos => exact leavesOut_of_frame (execBankCfgOos_frame (Nat.or_self _) (Frame.refl _)) rfl
  | scrubStep => exact leavesOut_of_frame (execScrubStep_frame (Nat.or_self _) (Frame.refl _)) rfl
  | loadWritePass => exact leavesOut_of_frame (execLoadWritePass_frame (Nat.or_self _) (Frame.refl _)) rfl
  | partitionReload => exact leavesOut_of_frame (execPartitionReload_frame (Nat.or_self _) (Frame.refl _)) rfl
  | runaheadProbe => exact leavesOut_of_frame (execRunaheadProbe_frame (Nat.or_self _) (Frame.refl _)) rfl
  | rows => exact leavesOut_of_frame (execRows_frame (Nat.or_self _) (Frame.refl _)) rfl
  | endBuild => exact leavesOut_of_frame (execEndBuild_frame (Nat.or_self _) (Frame.refl _)) rfl
  | endProbe => exact leavesOut_of_frame (execEndProbe_frame (Nat.or_self _) (Frame.refl _)) rfl
  | storeOpen => exact leavesOut_of_frame (execStoreOpen_frame (Nat.or_self _) (Frame.refl _)) rfl
  | storeClose => exact leavesOut_of_frame (execStoreClose_frame (Nat.or_self _) (Frame.refl _)) rfl
  | storeRead => exact leavesOut_of_frame (execStoreRead_frame (Nat.or_self _) (Frame.refl _)) rfl
  | storeClear => exact leavesOut_of_frame (execStoreClear_frame (Nat.or_self _) (Frame.refl _)) rfl
  | tblCreate => exact leavesOut_of_frame (execTblCreate_frame (Nat.or_self _) (Frame.refl _)) rfl
  | tblDestroy => exact leavesOut_of_frame (execTblDestroy_frame (Nat.or_self _) (Frame.refl _)) rfl
  | tblRead => exact leavesOut_of_frame (execTblRead_frame (Nat.or_self _) (Frame.refl _)) rfl
  | tblBind => exact leavesOut_of_frame (execTblBind_frame (Nat.or_self _) (Frame.refl _)) rfl
  | tblInvalidate => exact leavesOut_of_frame (execTblInvalidate_frame (Nat.or_self _) (Frame.refl _)) rfl
  | tblShard => exact leavesOut_of_frame (execTblShard_frame (Nat.or_self _) (Frame.refl _)) rfl
  | tblCmdDone => exact leavesOut_of_frame (execTblCmdDone_frame (Nat.or_self _) (Frame.refl _)) rfl
  | gather => exact leavesOut_of_frame (execGather_frame (Nat.or_self _) (Frame.refl _)) rfl
  | update => exact leavesOut_of_frame (execUpdate_frame (Nat.or_self _) (Frame.refl _)) rfl
  | sent => exact leavesOut_of_frame (execSent_frame (Nat.or_self _) (Frame.refl _)) rfl
  | stepClose => exact leavesOut_of_frame (execStepClose_frame (Nat.or_self _) (Frame.refl _)) rfl
  | applied => exact leavesOut_of_frame (execApplied_frame (Nat.or_self _) (Frame.refl _)) rfl
  | stepDone => exact leavesOut_of_frame (execStepDone_frame (Nat.or_self _) (Frame.refl _)) rfl
  | loadReport => exact leavesOut_of_frame (execLoadReport_frame (Nat.or_self _) (Frame.refl _)) rfl
  | prep => exact leavesOut_of_frame (execPrep_frame (Nat.or_self _) (Frame.refl _)) rfl
  | shardCopy => exact leavesOut_of_frame (execShardCopy_frame (Nat.or_self _) (Frame.refl _)) rfl
  | commit => exact leavesOut_of_frame (execCommit_frame (Nat.or_self _) (Frame.refl _)) rfl
  | logHandoff => exact leavesOut_of_frame (execLogHandoff_frame (Nat.or_self _) (Frame.refl _)) rfl
  | tableCmd => exact leavesOut_of_frame (execTableCmd_frame (Nat.or_self _) (Frame.refl _)) rfl
  | cancel => exact leavesOut_of_frame (execCancel_frame (Nat.or_self _) (Frame.refl _)) rfl
  | prefetch => exact leavesOut_of_frame (execPrefetch_frame (Nat.or_self _) (Frame.refl _)) rfl
  | linkTrain => exact leavesOut_of_frame (execLinkTrain_frame (Nat.or_self _) (Frame.refl _)) rfl
  | trainingDone => exact leavesOut_of_frame (execTrainingDone_frame (Nat.or_self _) (Frame.refl _)) rfl
  | config => exact leavesOut_of_frame (execConfig_frame (Nat.or_self _) (Frame.refl _)) rfl
  | auth => exact leavesOut_of_frame (execAuth_frame (Nat.or_self _) (Frame.refl _)) rfl
  | flitReceive => exact leavesOut_of_frame (execFlitReceive_frame (Nat.or_self _) (Frame.refl _)) rfl
  | nak => exact leavesOut_of_frame (execNak_frame (Nat.or_self _) (Frame.refl _)) rfl
  | ackTimeout => exact leavesOut_of_frame (execAckTimeout_frame (Nat.or_self _) (Frame.refl _)) rfl
  | retrainReq => exact leavesOut_of_frame (execRetrainReq_frame (Nat.or_self _) (Frame.refl _)) rfl
  | retrainDone => exact leavesOut_of_frame (execRetrainDone_frame (Nat.or_self _) (Frame.refl _)) rfl
  | retrainTimeout => exact leavesOut_of_frame (execRetrainTimeout_frame (Nat.or_self _) (Frame.refl _)) rfl
  | fullTrain => exact leavesOut_of_frame (execFullTrain_frame (Nat.or_self _) (Frame.refl _)) rfl
  | read => exact leavesOut_of_frame (execRead_frame (Nat.or_self _) (Frame.refl _)) rfl
  | write => exact leavesOut_of_frame (execWrite_frame (Nat.or_self _) (Frame.refl _)) rfl
  | bulkWrite => exact leavesOut_of_frame (execBulkWrite_frame (Nat.or_self _) (Frame.refl _)) rfl
  | responseReceive => exact leavesOut_of_frame (execResponseReceive_frame (Nat.or_self _) (Frame.refl _)) rfl
  | e2eTimeout => exact leavesOut_of_frame (execE2eTimeout_frame (Nat.or_self _) (Frame.refl _)) rfl
  | linkState => exact leavesOut_of_frame (execLinkState_frame (Nat.or_self _) (Frame.refl _)) rfl
  | routeSet => exact leavesOut_of_frame (execRouteSet_frame (Nat.or_self _) (Frame.refl _)) rfl
  | routeAck => exact leavesOut_of_frame (execRouteAck_frame (Nat.or_self _) (Frame.refl _)) rfl
  | queryDst => exact leavesOut_of_frame (execQueryDst_frame (Nat.or_self _) (Frame.refl _)) rfl
  | jobImage => exact leavesOut_of_frame (execJobImage_frame (Nat.or_self _) (Frame.refl _)) rfl
  | jobStart => exact leavesOut_of_frame (execJobStart_frame (Nat.or_self _) (Frame.refl _)) rfl
  | partEnd => exact leavesOut_of_frame (execPartEnd_frame (Nat.or_self _) (Frame.refl _)) rfl
  | jobKill => exact leavesOut_of_frame (execJobKill_frame (Nat.or_self _) (Frame.refl _)) rfl
  | leadClaim => exact leavesOut_of_frame (execLeadClaim_frame (Nat.or_self _) (Frame.refl _)) rfl
  | formMsExpire => exact leavesOut_of_frame (execFormMsExpire_frame (Nat.or_self _) (Frame.refl _)) rfl
  | herdForm => exact leavesOut_of_frame (execHerdForm_frame (Nat.or_self _) (Frame.refl _)) rfl
  | join => exact leavesOut_of_frame (execJoin_frame (Nat.or_self _) (Frame.refl _)) rfl
  | memberSet => exact leavesOut_of_frame (execMemberSet_frame (Nat.or_self _) (Frame.refl _)) rfl
  | memberAck => exact leavesOut_of_frame (execMemberAck_frame (Nat.or_self _) (Frame.refl _)) rfl
  | electAck => exact leavesOut_of_frame (execElectAck_frame (Nat.or_self _) (Frame.refl _)) rfl
  | leave => exact leavesOut_of_frame (execLeave_frame (Nat.or_self _) (Frame.refl _)) rfl
  | leadTakeover => exact leavesOut_of_frame (execLeadTakeover_frame (Nat.or_self _) (Frame.refl _)) rfl
  | isolated => exact leavesOut_of_frame (execIsolated_frame (Nat.or_self _) (Frame.refl _)) rfl
  | twinPair => exact leavesOut_of_frame (execTwinPair_frame (Nat.or_self _) (Frame.refl _)) rfl
  | mirror => exact leavesOut_of_frame (execMirror_frame (Nat.or_self _) (Frame.refl _)) rfl
  | twinCut => exact leavesOut_of_frame (execTwinCut_frame (Nat.or_self _) (Frame.refl _)) rfl
  | twinAck => exact leavesOut_of_frame (execTwinAck_frame (Nat.or_self _) (Frame.refl _)) rfl
  | herdJoin => exact leavesOut_of_frame (execHerdJoin_frame (Nat.or_self _) (Frame.refl _)) rfl
  | herdLeave => exact leavesOut_of_frame (execHerdLeave_frame (Nat.or_self _) (Frame.refl _)) rfl
  | admitId => exact leavesOut_of_frame (execAdmitId_frame (Nat.or_self _) (Frame.refl _)) rfl
  | bootReq => exact leavesOut_of_frame (execBootReq_frame (Nat.or_self _) (Frame.refl _)) rfl
  | bootData => exact leavesOut_of_frame (execBootData_frame (Nat.or_self _) (Frame.refl _)) rfl
  | bootFallback => exact leavesOut_of_frame (execBootFallback_frame (Nat.or_self _) (Frame.refl _)) rfl
  | serveEnable => exact leavesOut_of_frame (execServeEnable_frame (Nat.or_self _) (Frame.refl _)) rfl
  | serveRingEnable => exact leavesOut_of_frame (execServeRingEnable_frame (Nat.or_self _) (Frame.refl _)) rfl
  | prod => exact leavesOut_of_frame (execProd_frame (Nat.or_self _) (Frame.refl _)) rfl
  | admission => exact leavesOut_of_frame (execAdmission_frame (Nat.or_self _) (Frame.refl _)) rfl
  | requestDeadline => exact leavesOut_of_frame (execRequestDeadline_frame (Nat.or_self _) (Frame.refl _)) rfl
  | txSlotFree => exact leavesOut_of_frame (execTxSlotFree_frame (Nat.or_self _) (Frame.refl _)) rfl
  | svcRegister => exact leavesOut_of_frame (execSvcRegister_frame (Nat.or_self _) (Frame.refl _)) rfl
  | svcUnregister => exact leavesOut_of_frame (execSvcUnregister_frame (Nat.or_self _) (Frame.refl _)) rfl
  | svcUnregisterDone => exact leavesOut_of_frame (execSvcUnregisterDone_frame (Nat.or_self _) (Frame.refl _)) rfl
  | svcRead => exact leavesOut_of_frame (execSvcRead_frame (Nat.or_self _) (Frame.refl _)) rfl
  | runtimeBoot => exact leavesOut_of_frame (execRuntimeBoot_frame (Nat.or_self _) (Frame.refl _)) rfl
  | bootGo => exact leavesOut_of_frame (execBootGo_frame (Nat.or_self _) (Frame.refl _)) rfl
  | rollbackCommit => exact leavesOut_of_frame (execRollbackCommit_frame (Nat.or_self _) (Frame.refl _)) rfl
  | fuseBlowDone => exact leavesOut_of_frame (execFuseBlowDone_frame (Nat.or_self _) (Frame.refl _)) rfl
  | lockdown => exact leavesOut_of_frame (execLockdown_frame (Nat.or_self _) (Frame.refl _)) rfl
  | lockDeadline => exact leavesOut_of_frame (execLockDeadline_frame (Nat.or_self _) (Frame.refl _)) rfl
  | keyLoad => exact leavesOut_of_frame (execKeyLoad_frame (Nat.or_self _) (Frame.refl _)) rfl
  | keyRevoke => exact leavesOut_of_frame (execKeyRevoke_frame (Nat.or_self _) (Frame.refl _)) rfl
  | keyRead => exact leavesOut_of_frame (execKeyRead_frame (Nat.or_self _) (Frame.refl _)) rfl
  | getVersion => exact leavesOut_of_frame (execGetVersion_frame (Nat.or_self _) (Frame.refl _)) rfl
  | getCapabilities => exact leavesOut_of_frame (execGetCapabilities_frame (Nat.or_self _) (Frame.refl _)) rfl
  | negotiateAlgorithms => exact leavesOut_of_frame (execNegotiateAlgorithms_frame (Nat.or_self _) (Frame.refl _)) rfl
  | getDigests => exact leavesOut_of_frame (execGetDigests_frame (Nat.or_self _) (Frame.refl _)) rfl
  | getCertificate => exact leavesOut_of_frame (execGetCertificate_frame (Nat.or_self _) (Frame.refl _)) rfl
  | challenge => exact leavesOut_of_frame (execChallenge_frame (Nat.or_self _) (Frame.refl _)) rfl
  | getMeasurements => exact leavesOut_of_frame (execGetMeasurements_frame (Nat.or_self _) (Frame.refl _)) rfl
  | keyExchange => exact leavesOut_of_frame (execKeyExchange_frame (Nat.or_self _) (Frame.refl _)) rfl
  | finish => exact leavesOut_of_frame (execFinish_frame (Nat.or_self _) (Frame.refl _)) rfl
  | heartbeat => exact leavesOut_of_frame (execHeartbeat_frame (Nat.or_self _) (Frame.refl _)) rfl
  | keyUpdate => exact leavesOut_of_frame (execKeyUpdate_frame (Nat.or_self _) (Frame.refl _)) rfl
  | endSession => exact leavesOut_of_frame (execEndSession_frame (Nat.or_self _) (Frame.refl _)) rfl
  | spdmUnsupported => exact leavesOut_of_frame (execSpdmUnsupported_frame (Nat.or_self _) (Frame.refl _)) rfl
  | setEndpointId => exact leavesOut_of_frame (execSetEndpointId_frame (Nat.or_self _) (Frame.refl _)) rfl
  | getEndpointId => exact leavesOut_of_frame (execGetEndpointId_frame (Nat.or_self _) (Frame.refl _)) rfl
  | getMctpVersionSupport => exact leavesOut_of_frame (execGetMctpVersionSupport_frame (Nat.or_self _) (Frame.refl _)) rfl
  | getMessageTypeSupport => exact leavesOut_of_frame (execGetMessageTypeSupport_frame (Nat.or_self _) (Frame.refl _)) rfl
  | pldmBase => exact leavesOut_of_frame (execPldmBase_frame (Nat.or_self _) (Frame.refl _)) rfl
  | pldmSensorRead => exact leavesOut_of_frame (execPldmSensorRead_frame (Nat.or_self _) (Frame.refl _)) rfl
  | pollForPlatformEventMessage => exact leavesOut_of_frame (execPollForPlatformEventMessage_frame (Nat.or_self _) (Frame.refl _)) rfl
  | pldmFirmwareUpdate => exact leavesOut_of_frame (execPldmFirmwareUpdate_frame (Nat.or_self _) (Frame.refl _)) rfl
  | readReg => exact leavesOut_of_frame (execReadReg_frame (Nat.or_self _) (Frame.refl _)) rfl
  | writeReg => exact leavesOut_of_frame (execWriteReg_frame (Nat.or_self _) (Frame.refl _)) rfl
  | arbLost => exact leavesOut_of_frame (execArbLost_frame (Nat.or_self _) (Frame.refl _)) rfl
  | autoWarm => exact leavesOut_of_frame (execAutoWarm_frame (Nat.or_self _) (Frame.refl _)) rfl
  | faultAck => exact leavesOut_of_frame (execFaultAck_frame (Nat.or_self _) (Frame.refl _)) rfl
  | pop => exact leavesOut_of_frame (execPop_frame (Nat.or_self _) (Frame.refl _)) rfl
  | finjFire => exact leavesOut_of_frame (execFinjFire_frame (Nat.or_self _) (Frame.refl _)) rfl
  | retentionFlagLost => exact leavesOut_of_frame (execRetentionFlagLost_frame (Nat.or_self _) (Frame.refl _)) rfl
  | tideInFall => exact leavesOut_of_frame (execTideInFall_frame (Nat.or_self _) (Frame.refl _)) rfl
  | stuckClear => exact leavesOut_of_frame (execStuckClear_frame (Nat.or_self _) (Frame.refl _)) rfl
  | cableSeated => exact leavesOut_of_frame (execCableSeated_frame (Nat.or_self _) (Frame.refl _)) rfl
  | port1LinkUp => exact leavesOut_of_frame (execPort1LinkUp_frame (Nat.or_self _) (Frame.refl _)) rfl
  | configurationWrite => exact leavesOut_of_frame (execConfigurationWrite_frame (Nat.or_self _) (Frame.refl _)) rfl
  | msixTableWrite => exact leavesOut_of_frame (execMsixTableWrite_frame (Nat.or_self _) (Frame.refl _)) rfl
  | hdmDecoderCommit => exact leavesOut_of_frame (execHdmDecoderCommit_frame (Nat.or_self _) (Frame.refl _)) rfl
  | atsTranslationDone => exact leavesOut_of_frame (execAtsTranslationDone_frame (Nat.or_self _) (Frame.refl _)) rfl
  | bisnpResponse => exact leavesOut_of_frame (execBisnpResponse_frame (Nat.or_self _) (Frame.refl _)) rfl
  | sustainedBudgetWrite => exact leavesOut_of_frame (execSustainedBudgetWrite_frame (Nat.or_self _) (Frame.refl _)) rfl
  | tideModeWrite => exact leavesOut_of_frame (execTideModeWrite_frame (Nat.or_self _) (Frame.refl _)) rfl
  | watermarkMarkWrite => exact leavesOut_of_frame (execWatermarkMarkWrite_frame (Nat.or_self _) (Frame.refl _)) rfl
  | cellarLinkUp => exact leavesOut_of_frame (execCellarLinkUp_frame (Nat.or_self _) (Frame.refl _)) rfl
  | laneLockLost => exact leavesOut_of_frame (execLaneLockLost_frame (Nat.or_self _) (Frame.refl _)) rfl
  | memberSetResend => exact leavesOut_of_frame (execMemberSetResend_frame (Nat.or_self _) (Frame.refl _)) rfl
  | handbackTransferDone => exact leavesOut_of_frame (execHandbackTransferDone_frame (Nat.or_self _) (Frame.refl _)) rfl

/-- Settles O5: the frame of each command, by its row. -/
theorem commandFrames : Obligations.CommandFrames := by
  unfold Obligations.CommandFrames
  exact fun c s t answer => exec_leaves c s t answer

end Sys2Proof.Machine
end

section
/-! Memory: canonical forms are equal when they read equal; what a store writes (05, Address map). -/

namespace Sys2Proof

variable {β : Type}

theorem Table.find?_of_lt {t : Table β} {lo k : Nat} (h : Table.risingFrom lo t = true) (lt : k < lo) : Table.find? t k = none := by
  induction t generalizing lo with
  | nil => rfl
  | cons e t ih =>
    obtain ⟨k', v⟩ := e
    simp only [Table.risingFrom, Bool.and_eq_true, decide_eq_true_eq] at h
    have ne : k' ≠ k := by omega
    simp [Table.find?, ne, ih h.2 (by omega)]

/-- Rising tables with equal lookups are equal: the least key of one is the least key of the other. -/
theorem Table.ext_of_find? {t u : Table β} {lo : Nat} (ht : Table.risingFrom lo t = true) (hu : Table.risingFrom lo u = true)
    (h : ∀ k, Table.find? t k = Table.find? u k) : t = u := by
  induction t generalizing u lo with
  | nil =>
    cases u with
    | nil => rfl
    | cons e u => simpa [Table.find?] using h e.1
  | cons e t ih =>
    obtain ⟨k, v⟩ := e
    cases u with
    | nil => simpa [Table.find?] using h k
    | cons e' u =>
      obtain ⟨k', v'⟩ := e'
      simp only [Table.risingFrom, Bool.and_eq_true, decide_eq_true_eq] at ht hu
      have noneT (j : Nat) (lt : j < k + 1) : Table.find? t j = none := Table.find?_of_lt ht.2 lt
      have noneU (j : Nat) (lt : j < k' + 1) : Table.find? u j = none := Table.find?_of_lt hu.2 lt
      have atK := h k
      have atK' := h k'
      have keys : k = k' := by
        rcases Nat.lt_trichotomy k k' with lt | eq | gt
        · simp [Table.find?, Nat.ne_of_gt lt, noneU k (by omega)] at atK
        · exact eq
        · simp [Table.find?, Nat.ne_of_gt gt, noneT k' (by omega)] at atK'
      subst keys
      obtain rfl : v = v' := by simpa [Table.find?] using atK
      congr 1
      refine ih ht.2 hu.2 fun j => ?_
      by_cases eq : k = j
      · rw [noneT j (by omega), noneU j (by omega)]
      · simpa [Table.find?, eq] using h j

theorem Table.mem_of_find? {t : Table β} {k : Nat} {v : β} (h : Table.find? t k = some v) : (k, v) ∈ t := by
  induction t with
  | nil => cases h
  | cons e t ih =>
    obtain ⟨k', v'⟩ := e
    unfold Table.find? at h
    split at h
    case isTrue eq => cases h; exact eq ▸ List.mem_cons_self
    case isFalse => exact List.mem_cons_of_mem _ (ih h)

/-- In a memory in canonical form a listed byte is not the one that an unlisted address reads as, so that reads give the listing back. -/
theorem Memory.find?_eq_of_wf {m : Memory} (h : Memory.wf m = true) (a : Nat) :
    Table.find? m a = if Memory.read m a = Memory.blank then none else some (Memory.read m a) := by
  cases found : Table.find? m a with
  | none => simp [Memory.read, Table.findD, found]
  | some b =>
    simp only [Memory.wf, Bool.and_eq_true, List.all_eq_true] at h
    have ne : b ≠ Memory.blank := by simpa using h.2 _ (Table.mem_of_find? found)
    simp [Memory.read, Table.findD, found, ne]

theorem Memory.ext_of_read {m n : Memory} (hm : Memory.wf m = true) (hn : Memory.wf n = true) (h : ∀ a, Memory.read m a = Memory.read n a) :
    m = n := by
  have rising {m : Memory} (h : Memory.wf m = true) : Table.risingFrom 0 m = true := (Bool.and_eq_true _ _ ▸ h).1
  exact Table.ext_of_find? (rising hm) (rising hn) fun a => by rw [Memory.find?_eq_of_wf hm, Memory.find?_eq_of_wf hn, h]

/-- Settles O6: equal reads give equal listings; the rest are the laws of `Memory.store`. -/
theorem memoryReadsAndWrites : Obligations.MemoryReadsAndWrites := by
  unfold Obligations.MemoryReadsAndWrites
  refine ⟨fun m n => Memory.ext_of_read, fun m a bs wf => ⟨Memory.wf_store wf, fun i b mem => ?_, Memory.read_store_outside m a bs⟩⟩
  obtain ⟨lt, rfl⟩ := List.getElem?_eq_some_iff.mp mem
  exact Memory.read_store_inside m a bs i lt

end Sys2Proof
end

section
/-! Writes of a register's fields by their access codes (04, Access rules and Locks). -/

namespace Sys2Proof.Machine

open Sys2Proof.Reg

/-- Words that agree on a field's bits read the same there. -/
theorem bitsOf_congr {w x : Word} {hi lo : Nat} (h : ∀ i, lo ≤ i → i ≤ hi → w.getLsbD i = x.getLsbD i) : bitsOf w hi lo = bitsOf x hi lo := by
  apply Nat.eq_of_testBit_eq
  intro i
  rw [testBit_bitsOf, testBit_bitsOf]
  by_cases lt : i < hi + 1 - lo
  · rw [h (i + lo) (by omega) (by omega)]
  · simp [lt]

theorem bitsOf_lt (w : Word) (hi lo : Nat) : bitsOf w hi lo < 2 ^ (hi + 1 - lo) := Nat.mod_lt _ (Nat.two_pow_pos _)

/-- A field takes the value of the same field of another word whole. -/
theorem bitsOf_putBits_bitsOf {w v : Word} {hi lo : Nat} (h : hi < 64) : bitsOf (putBits w hi lo (bitsOf v hi lo)) hi lo = bitsOf v hi lo :=
  (bitsOf_putBits_self h).trans (Nat.mod_eq_of_lt (bitsOf_lt v hi lo))

/-! One field of a write. -/

variable {locked : Bool} {v : Word} {w : FieldWrite} {f : Field}

/-- What a value that a field may take or not leaves: the field put, or the word as it is, whatever bits of refusal it notes. -/
theorem fieldStep_stored_cases : (fieldStep locked v w f).stored = w.stored ∨
    (fieldStep locked v w f).stored = putBits w.stored f.hi f.lo (bitsOf v f.hi f.lo) ∨
    f.acc = .rw1c ∧ (fieldStep locked v w f).stored = w.stored &&& ~~~(v &&& f.mask) := by
  unfold fieldStep
  dsimp only
  split <;> (repeat' split) <;> simp_all

/-- A field's step leaves the bits of other fields. -/
theorem fieldStep_beside {i : Nat} (hi : f.hi < 64) (out : i < f.lo ∨ f.hi < i) : (fieldStep locked v w f).stored.getLsbD i = w.stored.getLsbD i := by
  have notIn : ¬(f.lo ≤ i ∧ i ≤ f.hi) := by omega
  have noMask : f.mask.getLsbD i = false := by rw [Field.mask, getLsbD_fieldMask hi]; simpa using notIn
  rcases fieldStep_stored_cases (locked := locked) (v := v) (w := w) (f := f) with eq | eq | ⟨_, eq⟩ <;> rw [eq]
  · rw [getLsbD_putBits hi, if_neg notIn]
  · by_cases lt : i < 64
    · simp only [BitVec.getLsbD_and, BitVec.getLsbD_not, noMask, lt, Bool.and_false, Bool.not_false, decide_true, Bool.and_true]
    · simp only [BitVec.getLsbD_of_ge _ i (Nat.not_lt.mp lt)]

theorem fieldStep_keeps (h : f.acc = .ro ∨ f.acc = .wo ∨ f.acc = .w1s) : (fieldStep locked v w f).stored = w.stored := by
  unfold fieldStep
  rcases h with acc | acc | acc <;> simp only [acc]
  split <;> rfl

/-- A value is taken whole where the field's rule allows it; else the field keeps its own. -/
theorem fieldStep_takes (hi : f.hi < 64) (acc : f.acc = .rw ∨ (f.acc = .rwl ∧ locked = false)) :
    bitsOf (fieldStep locked v w f).stored f.hi f.lo =
      if Rule.allows f.rule (bitsOf v f.hi f.lo) then bitsOf v f.hi f.lo else bitsOf w.stored f.hi f.lo := by
  have value : (fieldStep locked v w f).stored =
      if Rule.allows f.rule (bitsOf v f.hi f.lo) then putBits w.stored f.hi f.lo (bitsOf v f.hi f.lo) else w.stored := by
    unfold fieldStep
    rcases acc with acc | ⟨acc, rfl⟩
    all_goals
      simp only [acc, Bool.false_and, Bool.false_eq_true, if_false]
      split
      · rfl
      · split <;> rfl
  rw [value]
  split
  · exact bitsOf_putBits_bitsOf hi
  · rfl

/-- A locked field keeps its value: a write of another value is refused, one of the same value changes nothing. -/
theorem fieldStep_locked (hi : f.hi < 64) (acc : f.acc = .rwl) (lock : locked = true) :
    bitsOf (fieldStep locked v w f).stored f.hi f.lo = bitsOf w.stored f.hi f.lo := by
  by_cases same : bitsOf v f.hi f.lo = bitsOf w.stored f.hi f.lo
  · rcases fieldStep_stored_cases (locked := locked) (v := v) (w := w) (f := f) with eq | eq | ⟨acc', _⟩
    · rw [eq]
    · rw [eq, bitsOf_putBits_bitsOf hi, same]
    · rw [acc] at acc'; cases acc'
  · simp [fieldStep, acc, lock, same]

theorem fieldStep_clears (hi : f.hi < 64) (acc : f.acc = .rw1c) (plain : f.rule ≠ .special) :
    bitsOf (fieldStep locked v w f).stored f.hi f.lo = bitsOf (w.stored &&& ~~~v) f.hi f.lo := by
  have value : (fieldStep locked v w f).stored = w.stored &&& ~~~(v &&& f.mask) := by simp [fieldStep, acc, plain]
  rw [value]
  refine bitsOf_congr fun i lo hi' => ?_
  have mask : f.mask.getLsbD i = true := by rw [Field.mask, getLsbD_fieldMask hi]; simp [lo, hi']
  simp only [BitVec.getLsbD_and, BitVec.getLsbD_not, mask, Bool.and_true]

theorem fieldStep_lockedHit (h : (fieldStep locked v w f).lockedHit = true) : w.lockedHit = true ∨ locked = true := by
  cases locked with
  | true => exact .inr rfl
  | false =>
    refine .inl ?_
    unfold fieldStep at h
    simp only [Bool.false_and, Bool.false_eq_true, if_false] at h
    revert h
    split <;> (repeat' split) <;> exact id

/-! All fields of a write. -/

/-- Bits of no field keep their value. -/
theorem foldl_fieldStep_beside {fs : List Field} {i : Nat} (bounds : ∀ f ∈ fs, f.hi < 64) (out : ∀ f ∈ fs, i < f.lo ∨ f.hi < i) (w : FieldWrite) :
    (fs.foldl (fieldStep locked v) w).stored.getLsbD i = w.stored.getLsbD i := by
  induction fs generalizing w with
  | nil => rfl
  | cons f fs ih =>
    obtain ⟨hi, bounds⟩ := List.forall_mem_cons.mp bounds
    obtain ⟨outF, out⟩ := List.forall_mem_cons.mp out
    exact (ih bounds out _).trans (fieldStep_beside hi outF)

/-- Fields beside a list of others keep their bits. -/
theorem foldl_fieldStep_bitsOf {fs : List Field} {hi lo : Nat} (bounds : ∀ f ∈ fs, f.hi < 64) (apart : ∀ f ∈ fs, hi < f.lo ∨ f.hi < lo)
    (w : FieldWrite) : bitsOf (fs.foldl (fieldStep locked v) w).stored hi lo = bitsOf w.stored hi lo :=
  bitsOf_congr fun i hlo hhi => foldl_fieldStep_beside bounds (fun f mem => by have := apart f mem; omega) w

/-- What a write does to a field is what its own step does, on a word that still has the field's old bits: the other fields lie beside it. -/
theorem fieldWrite_field (old : Word) {fs : List Field} (pairwise : fs.Pairwise fun f g => f.hi < g.lo ∨ g.hi < f.lo) (bounds : ∀ f ∈ fs, f.hi < 64)
    (mem : f ∈ fs) : ∃ w : FieldWrite, (∀ i, f.lo ≤ i → i ≤ f.hi → w.stored.getLsbD i = old.getLsbD i) ∧
      bitsOf (fieldWrite locked old v fs).stored f.hi f.lo = bitsOf (fieldStep locked v w f).stored f.hi f.lo := by
  obtain ⟨before, after, rfl⟩ := List.append_of_mem mem
  obtain ⟨-, pairAfter, cross⟩ := List.pairwise_append.mp pairwise
  have besideAfter := (List.pairwise_cons.mp pairAfter).1
  simp only [List.forall_mem_append, List.forall_mem_cons] at bounds
  obtain ⟨boundsBefore, -, boundsAfter⟩ := bounds
  refine ⟨before.foldl (fieldStep locked v) { stored := old, seen := v }, fun i lo hi => ?_, ?_⟩
  · exact foldl_fieldStep_beside boundsBefore (fun g memG => by have := cross g memG f List.mem_cons_self; omega) _
  · rw [fieldWrite, List.foldl_append, List.foldl_cons]
    exact foldl_fieldStep_bitsOf boundsAfter besideAfter _

theorem fieldWrite_lockedHit {old : Word} {fs : List Field} (h : (fieldWrite locked old v fs).lockedHit = true) : locked = true := by
  suffices general : ∀ w : FieldWrite, (fs.foldl (fieldStep locked v) w).lockedHit = true → w.lockedHit = true ∨ locked = true from
    (general _ h).resolve_left Bool.false_ne_true
  clear h
  induction fs with
  | nil => exact fun _ => .inl
  | cons f fs ih => exact fun w hit => (ih _ hit).elim fieldStep_lockedHit .inr

/-! The registers' tables. -/

/-- Two fields that share bits of no register. -/
def neverMeet (f g : Field) : Bool :=
  decide (f.hi < g.lo) || decide (g.hi < f.lo) || !((List.range f.cnt).any fun i => g.lies 0 (f.off + i * f.stride))

/-- A table of fields whose fields lie within 64 bits and meet nowhere. -/
def tableSound (fs : List Field) : Bool :=
  decide (fs.Pairwise fun f g => neverMeet f g = true) && fs.all fun f => decide (f.lo ≤ f.hi) && decide (f.hi < 64)

theorem tables_sound : (HDR.fields :: blocks.map (·.fields)).all tableSound = true := by decide +kernel

theorem Field.lies_off {k off : Nat} (h : f.lies k off = true) : ∃ i < f.cnt, off = f.off + i * f.stride := by
  simp only [Field.lies, Bool.and_eq_true, decide_eq_true_eq] at h
  obtain ⟨⟨⟨-, le⟩, whole⟩, lt⟩ := h
  refine ⟨_, lt, ?_⟩
  have := Nat.div_mul_cancel (Nat.dvd_of_mod_eq_zero whole)
  omega

theorem Field.lies_first {k off : Nat} (h : f.lies k off = true) : f.lies 0 off = true := by
  simp only [Field.lies, Bool.and_eq_true, decide_eq_true_eq] at h ⊢
  obtain ⟨⟨⟨lt, le⟩, whole⟩, ltCnt⟩ := h
  exact ⟨⟨⟨by omega, le⟩, whole⟩, ltCnt⟩

/-- Fields of a sound table that lie in one register share no bit. -/
theorem tableSound_filter {fs : List Field} (sound : tableSound fs = true) (k off : Nat) :
    (fs.filter fun f => f.lies k off).Pairwise (fun f g => f.hi < g.lo ∨ g.hi < f.lo) ∧
      ∀ f ∈ fs.filter (fun f => f.lies k off), f.lo ≤ f.hi ∧ f.hi < 64 := by
  simp only [tableSound, Bool.and_eq_true, decide_eq_true_eq, List.all_eq_true] at sound
  obtain ⟨apart, bounds⟩ := sound
  refine ⟨List.pairwise_filter.mpr (apart.imp fun {f g} never liesF liesG => ?_), fun f mem => bounds f (List.mem_filter.mp mem).1⟩
  obtain ⟨i, lt, rfl⟩ := Field.lies_off liesF
  have meets : ((List.range f.cnt).any fun i => g.lies 0 (f.off + i * f.stride)) = true :=
    List.any_eq_true.mpr ⟨i, List.mem_range.mpr lt, Field.lies_first liesG⟩
  simpa [neverMeet, meets] using never

theorem fieldsAt_sound (page off : Nat) : (fieldsAt page off).Pairwise (fun f g => f.hi < g.lo ∨ g.hi < f.lo) ∧
    ∀ f ∈ fieldsAt page off, f.lo ≤ f.hi ∧ f.hi < 64 := by
  obtain ⟨header, rest⟩ := List.forall_mem_cons.mp (List.all_eq_true.mp tables_sound)
  unfold fieldsAt
  split
  next => exact ⟨.nil, fun _ mem => by cases mem⟩
  next b found =>
    split
    · exact tableSound_filter header 0 off
    · exact tableSound_filter (rest _ (List.mem_map_of_mem (List.mem_of_find?_eq_some found))) _ off

/-- Settles O15: a field's own step decides it, since the other fields lie beside it; the tables are checked once. -/
theorem fieldsByAccessCode : Obligations.FieldsByAccessCode := by
  unfold Obligations.FieldsByAccessCode
  refine ⟨fun locked old v fs pairwise bounds => ⟨fun f mem => ?_, fun i _ out => ?_, fieldWrite_lockedHit⟩, fieldsAt_sound⟩
  · have hi := (bounds f mem).2
    obtain ⟨w, agree, eq⟩ := fieldWrite_field (locked := locked) (v := v) old pairwise (fun g memG => (bounds g memG).2) mem
    rw [eq]
    have oldBits : bitsOf w.stored f.hi f.lo = bitsOf old f.hi f.lo := bitsOf_congr agree
    refine ⟨fun acc => by rw [fieldStep_keeps acc, oldBits], fun acc => by rw [fieldStep_takes hi acc, oldBits],
      fun acc lock => by rw [fieldStep_locked hi acc lock, oldBits], fun acc plain => ?_⟩
    rw [fieldStep_clears hi acc plain]
    exact bitsOf_congr fun i lo le => by simp only [BitVec.getLsbD_and, agree i lo le]
  · exact foldl_fieldStep_beside (fun f mem => (bounds f mem).2) out _

end Sys2Proof.Machine
end

section
/-! Bits of words, and register writes whose page is open: shared by the statements below. -/

namespace Sys2Proof

theorem bitAt_eq_testBit (v n : Nat) : bitAt v n = v.testBit n := by
  rw [bitAt, Nat.testBit_eq_decide_div_mod_eq]
  rfl

theorem bitAt_toNat (w : Word) (i : Nat) : bitAt w.toNat i = w.getLsbD i := bitAt_eq_testBit _ _

/-- One bit put into a word: it reads as put, the others as before. -/
theorem bitAt_putBits_bit (w : Word) {b : Nat} (on : Bool) (i : Nat) (h : b < 64) :
    bitAt (putBits w b b (ofBool on)).toNat i = if i = b then on else bitAt w.toNat i := by
  rw [bitAt_toNat, getLsbD_putBits h, bitAt_toNat]
  by_cases eq : i = b
  · subst eq
    cases on <;> simp [ofBool]
  · rw [if_neg (by omega), if_neg eq]

/-! Tables with one value changed. -/

theorem Table.find?_upd_self {β : Type} (t : Table β) (k : Nat) (f : β → β) : Table.find? (Table.upd t k f) k = (Table.find? t k).map f := by
  induction t with
  | nil => rfl
  | cons e t ih =>
    obtain ⟨k', v⟩ := e
    by_cases eq : k' = k
    · simp [Table.upd, Table.find?, eq]
    · simp [Table.upd, Table.find?, eq, ih]

theorem Table.find?_upd_other {β : Type} (t : Table β) {k j : Nat} (f : β → β) (h : k ≠ j) : Table.find? (Table.upd t k f) j = Table.find? t j := by
  induction t with
  | nil => rfl
  | cons e t ih =>
    obtain ⟨k', v⟩ := e
    by_cases eq : k' = k
    · simp [Table.upd, Table.find?, eq, h]
    · simp [Table.upd, Table.find?, eq, ih]

end Sys2Proof

namespace Sys2Proof.Machine

open Sys2Proof.Reg

/-- A field of one bit that is set reads 1. -/
theorem State.setFld_set (s : State) (f : Field) (h : f.hi < 64) (wide : f.lo ≤ f.hi) : (s.setFld f 1).fld f = 1 := by
  rw [s.setFld_self f 1 h]
  exact Nat.mod_eq_of_lt (Nat.one_lt_two_pow (by omega))

theorem State.setFld_set_bit (s : State) (f : Field) (h : f.hi < 64) (wide : f.lo ≤ f.hi) : (s.setFld f 1).bit f = true := by
  simp [State.bit, s.setFld_set f h wide]

/-- A value that fits its field reads back whole. -/
theorem State.setFld_fits (s : State) (f : Field) {v : Nat} (h : f.hi < 64) (fits : v < 2 ^ (f.hi + 1 - f.lo)) : (s.setFld f v).fld f = v := by
  rw [s.setFld_self f v h, Nat.mod_eq_of_lt fits]

/-! The registers of the commands whose write has an effect of its own hold a field that software may write. -/

/-- Page and offset of each of those registers. -/
def effectRegs : List (Nat × Nat) :=
  [(0x001, 0x120), (0x001, 0x128), (0x001, 0x130), (0x001, 0x160), (0x002, 0x100), (0x002, 0x120), (0x003, 0x108), (0x004, 0x108), (0x009,
   0x100), (0x00A, 0x100), (0x00A, 0x138), (0x050, 0x108), (0x050, 0x110), (0x051, 0x100), (0x058, 0x100), (0x058, 0x120), (0x058, 0x190),
   (0x058, 0x1A0), (0x060, 0x130), (0x063, 0x100), (0x063, 0x110), (0x070, 0x110), (0x070, 0x118), (0x080, 0x108), (0x0A0, 0x108), (0x0A0,
   0x208), (0x0AC, 0x100), (0x0C0, 0x100), (0x0D8, 0x120), (0x0D9, 0x118), (0x0E0, 0x100), (0x0E0, 0x110), (0x0F0, 0x110), (0x0F0, 0x130)]

theorem effectRegs_writable : ∀ r ∈ effectRegs, (fieldsAt r.1 r.2).all (fun f => f.acc = .ro) = false := by decide +kernel

theorem effect_writable {page off : Nat} (listed : (page, off) ∈ effectRegs) : (fieldsAt page off).all (fun f => f.acc = .ro) = false :=
  effectRegs_writable _ listed

/-- A write of a register of an open page: its own effect acts on the stored fields. -/
theorem State.opens_hook {s u : State} {now : Nat} {req : Requester} {page off : Nat} {v : Word} (hook : Hook) (h : (s.at now).opens req page off)
    (hu : u = (s.at now).stored req page off v) (ha : (fieldsAt page off).all (fun f => f.acc = .ro) = false) :
    (s.at now).regWrite req page off v hook = hook req page (s.word (ownerOf req page) page off) v u :=
  State.lands_hook hook ⟨h, hu⟩ ha

/-! What interrupt events, errors and fault records leave of the pages. -/

theorem State.page_of_pages {s t : State} (h : t.pages = s.pages) (fn page : Nat) : t.page fn page = s.page fn page := by
  simp only [State.page, h]

/-- What a page keeps beside its pending interrupt events. -/
def PageRun.steer (r : PageRun) : PageRun := { r with pending := 0, oldest := 0, ableAt := none }

theorem State.setPage_steer {s : State} {fn page : Nat} {r : PageRun} (same : r.steer = (s.page fn page).steer) (f p : Nat) :
    ((s.setPage fn page r).page f p).steer = (s.page f p).steer := by
  by_cases eq : pageKey fn page = pageKey f p
  · have found : (s.setPage fn page r).page f p = r := by simp [State.page, State.setPage, ← eq]
    rw [found, same]
    simp [State.page, eq]
  · simp [State.page, State.setPage, Table.findD_put_other _ _ _ eq]

theorem State.irqSettle_steer (s : State) (fn page f p : Nat) : ((s.irqSettle fn page).page f p).steer = (s.page f p).steer := by
  unfold State.irqSettle
  dsimp only
  split
  · split
    · exact State.setPage_steer (by rfl) f p
    · exact State.setPage_steer (by rfl) f p
  · exact State.setPage_steer (by rfl) f p

theorem State.irqEvent_steer (s : State) (fn page f p : Nat) : ((s.irqEvent fn page).page f p).steer = (s.page f p).steer :=
  (State.irqSettle_steer _ fn page f p).trans (State.setPage_steer (by rfl) f p)

theorem State.setSticky_steer (s : State) (fn page n f p : Nat) : ((s.setSticky fn page n).page f p).steer = (s.page f p).steer := by
  unfold State.setSticky
  dsimp only
  split
  · rfl
  · exact State.irqEvent_steer _ fn page f p

theorem State.raise_steer (s : State) (fn page n source off accPage f p : Nat) :
    ((s.raise fn page n source off accPage).page f p).steer = (s.page f p).steer := by
  unfold State.raise
  dsimp only
  split
  · exact State.setSticky_steer s fn page n f p
  · split
    · exact (State.setSticky_steer _ fn page 4 f p).trans (State.setSticky_steer s fn page n f p)
    · exact State.setSticky_steer s fn page n f p

theorem State.faultCounted_pages (s : State) (r : FaultRec) : (s.faultCounted r).pages = s.pages := by
  rw [s.faultCounted_eq r]

theorem State.faultQueued_steer (s : State) (r : FaultRec) (f p : Nat) : ((s.faultQueued r).page f p).steer = (s.page f p).steer := by
  have counted : ((s.faultCounted r).page f p).steer = (s.page f p).steer := by rw [State.page_of_pages (s.faultCounted_pages r)]
  unfold State.faultQueued
  dsimp only
  split
  · exact counted
  · exact (State.raise_steer _ _ _ _ _ _ _ f p).trans counted

theorem State.faultRecord_steer (s : State) (r : FaultRec) (f p : Nat) : ((s.faultRecord r).page f p).steer = (s.page f p).steer := by
  rw [s.faultRecord_eq]
  split
  · exact (State.irqEvent_steer _ _ _ f p).trans (s.faultQueued_steer r f p)
  · exact s.faultQueued_steer r f p

/-- A unit's failure marks its page and leaves the rest of what steers it. -/
theorem State.unitFault_steer (s : State) (fn page cause flags status : Nat) :
    ((s.unitFault fn page cause flags status).page fn page).steer = { s.page fn page with unitFail := true }.steer := by
  refine (State.faultRecord_steer _ _ fn page).trans ?_
  rw [State.setPage_page_self]

end Sys2Proof.Machine
end

section
/-! Inputs, supply and die temperature, power domains (02; 03, Power domains). -/

namespace Sys2Proof.Machine

open Sys2Proof.Reg

theorem State.floorChanged_pins (s : State) : s.floorChanged.pins = s.pins :=
  (State.floorChanged_frame (Nat.or_self _) (Frame.refl s)).part .pins rfl

/-! Inputs. -/

/-- `s` after an edge of TIDE_IN that keeps its spacing, before the epoch pulse that it may be. -/
def State.edgeTaken (s : State) : State :=
  ((s.modPins fun p => { p with tideIn := true, tideSince := s.chrono }).modPins fun p => { p with tideLast := some s.chrono }).setFld
    TIDE.PULSE_STAMP s.chrono

theorem execTideInRise_edge {s : State} {now : Nat} (low : s.pins.tideIn = false) (released : s.power.released = true) (armed : s.pins.tideArmed = true)
    (spaced : ∀ l, s.pins.tideLast = some l → l + 10000 ≤ max s.chrono now) : execTideInRise now s = .next (s.at now).edgeTaken.takePulse := by
  unfold execTideInRise
  cases last : s.pins.tideLast with
  | none => simp [low, released, armed, last, State.edgeTaken]
  | some l =>
    have notSoon : ¬max s.chrono now < l + 10000 := Nat.not_lt.mpr (spaced l last)
    simp [low, released, armed, last, notSoon, State.edgeTaken]

theorem execTideInRise_soon {s : State} {now l : Nat} (low : s.pins.tideIn = false) (released : s.power.released = true)
    (armed : s.pins.tideArmed = true) (last : s.pins.tideLast = some l) (soon : max s.chrono now < l + 10000) :
    execTideInRise now s = .next (((s.at now).modPins fun p => { p with tideIn := true, tideSince := max s.chrono now }).setFld GLOBAL.TIDE_IN_FAST 1) := by
  simp [execTideInRise, low, released, armed, last, soon]

theorem execPerst0NLevel_down {s : State} {now : Nat} {low : Bool} (changed : s.pins.perst0Low ≠ low) (down : s.host.p0Up = false) :
    execPerst0NLevel now low s = .next ((s.at now).modPins fun p =>
      { p with perst0Low := low, perst0Since := if low && s.power.released then some (max s.chrono now) else none }) := by
  simp [execPerst0NLevel, changed.symm, State.port0Down, down]

theorem execResetNPulse_wide {s : State} {now width : Nat} (supplied : s.power.undervoltage = false) (wide : 10000 ≤ width) :
    execResetNPulse now width s = .next (s.at now).resetPin := by
  have notNarrow : ¬width < 1000 := by omega
  simp [execResetNPulse, supplied, wide, notNarrow]

/-- Settles O8: each input event's meaning under its conditions; a stuck input's bit asserts M_ALERT_N. -/
theorem inputEvents : Obligations.InputEvents := by
  unfold Obligations.InputEvents
  refine ⟨fun s now => ⟨_, rfl, rfl, rfl⟩, fun s now low released armed spaced => ?_, fun s now l low released armed last soon => ?_,
    fun s now released high span => ?_, fun s now released high span => ?_, fun s now low => ?_, fun s now low changed down => ?_,
    fun s now since since0 low span => ?_, fun s now => ⟨_, rfl, rfl⟩, fun s now x8 => ?_, fun s now width supplied wide cool => ?_,
    fun s now width supplied wide trip cool => ?_⟩
  · exact ⟨(s.at now).edgeTaken, rfl, rfl, State.setFld_self _ _ _ (by decide), execTideInRise_edge low released armed spaced⟩
  · exact ⟨_, execTideInRise_soon low released armed last soon, State.setFld_set _ _ (by decide) (by decide), last, rfl⟩
  · refine ⟨_, rfl, ?_⟩
    simp [released, high, span, State.alertLow, State.setFld_set, State.setFld_set_bit, GLOBAL.TIDE_IN_STUCK]
  · refine ⟨_, rfl, ?_⟩
    simp [released, high, span, State.alertLow, State.setFld_set, State.setFld_set_bit, GLOBAL.PWR_BRAKE_STUCK]
  · exact ⟨_, rfl, by rw [State.floorChanged_pins]; rfl⟩
  · exact ⟨_, execPerst0NLevel_down changed down, rfl, rfl⟩
  · change execPerst0WarmReset now s = _
    simp [execPerst0WarmReset, since0, low, span]
  · exact congrArg Host.Outcome.next (if_pos x8)
  · refine (execResetNPulse_wide supplied wide).trans (congrArg _ (if_neg cool))
  · refine (execResetNPulse_wide supplied wide).trans (congrArg _ (if_pos ⟨trip, cool⟩))

/-! Supply and die temperature. -/

theorem State.floorChanged_power (s : State) : s.floorChanged.power = s.power :=
  (State.floorChanged_frame (Nat.or_self _) (Frame.refl s)).part .power rfl

theorem State.nodeFatal_power (s : State) (cause flags : Nat) : (s.nodeFatal cause flags).power = s.power :=
  (State.nodeFatal_frame (Nat.or_self _) (Frame.refl s)).part .power rfl

theorem State.domainsLost_power (s : State) : s.domainsLost.power = s.power := rfl

theorem State.domainsLost_fld (s : State) {g : Field} (h : fieldApart LEAVE.TIERS_READY g = true) : s.domainsLost.fld g = s.fld g :=
  State.setFld_apart _ _ h

theorem State.domainsLost_tiersReady (s : State) : s.domainsLost.tiersReady = false :=
  State.setFld_bit_self _ _ _ (by decide)

theorem State.heldOff_at (s : State) (now : Nat) : (s.at now).heldOff = s.heldOff := rfl

theorem State.heldOff_of_trip {s : State} (h : s.power.trip = true) : s.heldOff = true := by simp [State.heldOff, h]

theorem State.faultPinLow_of_trip {s : State} (h : s.power.trip = true) : s.faultPinLow = true := s.faultPinLow_iff.mpr (.inr (.inr h))

/-- Settles O9: each supervisor's guard decides by the level and by what it has tripped before; memory empties at the loss of retention, as the model
chose (assumption 2). -/
theorem supplyEvents : Obligations.SupplyEvents := by
  unfold Obligations.SupplyEvents
  refine ⟨fun s now level under high => ?_, fun s now level supplied low => ?_, fun s now level under low => ?_, fun s now level supplied low => ?_,
    fun s now level supplied high => ?_, fun s now level supplied high => ?_, fun s now level high low trip => ?_, fun s now level high low trip => ?_,
    fun s now temp supplied hot => ?_, fun s now temp supplied cool => ?_, fun s now temp supplied trip hot => ?_⟩
  · refine ⟨_, congrArg Host.Outcome.next (if_pos ⟨under, high⟩), rfl, rfl, rfl, ?_⟩
    exact State.setFld_fits _ _ (by decide) (by change (if s.power.retention = true then 2 else 1) < 2 ^ 4; split <;> decide)
  · refine ⟨_, congrArg Host.Outcome.next ((if_neg (Nat.not_lt.mpr low)).trans (if_neg ?_)), rfl, rfl, rfl, rfl, rfl, rfl, rfl, rfl, rfl, rfl, rfl, rfl⟩
    simp [supplied]
  · exact ⟨_, congrArg Host.Outcome.next ((if_neg (Nat.not_le.mpr low)).trans (if_pos under)), rfl⟩
  · refine ⟨_, congrArg Host.Outcome.next ((if_neg ?_).trans (if_pos low)), ?_⟩
    · simp [supplied]
    · rw [State.floorChanged_power]
      exact ⟨rfl, rfl⟩
  · refine ⟨_, congrArg Host.Outcome.next ((if_neg ?_).trans ((if_neg ?_).trans (if_pos high))), ?_⟩
    · simp [supplied]
    · omega
    · rw [State.floorChanged_power]
      rfl
  · refine ⟨_, congrArg Host.Outcome.next (if_neg ?_), ?_⟩
    · simpa [supplied] using high
    · dsimp only
      split
      case isTrue lost =>
        refine ⟨rfl, rfl, ?_, fun _ _ => ⟨rfl, rfl, rfl, rfl, State.domainsLost_tiersReady _⟩⟩
        rw [State.domainsLost_fld _ (by decide)]
        exact State.setFld_set _ _ (by decide) (by decide)
      case isFalse kept =>
        refine ⟨rfl, rfl, State.setFld_set _ _ (by decide) (by decide), fun released on => absurd ?_ kept⟩
        simp [released, on, State.heldOff_at]
  · refine ⟨_, congrArg Host.Outcome.next ((if_neg ?_).trans (if_pos trip)), rfl, trip, rfl, rfl⟩
    simpa [high] using low
  · refine congrArg Host.Outcome.next ((if_neg ?_).trans (if_neg ?_))
    · simpa [high] using low
    · simp [trip]
  · refine ⟨_, congrArg Host.Outcome.next ((if_neg ?_).trans (if_pos hot)), ?_⟩
    · simp [supplied]
    · rw [State.floorChanged_power]
      exact ⟨rfl, rfl⟩
  · refine ⟨_, congrArg Host.Outcome.next ((if_neg ?_).trans ((if_neg ?_).trans (if_pos cool))), ?_⟩
    · simp [supplied]
    · omega
    · rw [State.floorChanged_power]
      rfl
  · refine ⟨_, congrArg Host.Outcome.next (if_neg ?_), ?_⟩
    · simpa [supplied, trip] using hot
    · dsimp only
      split
      case isTrue lost =>
        refine ⟨?_, ?_, ?_, fun _ _ => ⟨rfl, rfl, State.domainsLost_tiersReady _⟩⟩
        · rw [State.domainsLost_power, State.nodeFatal_power]; rfl
        · exact State.heldOff_of_trip (by rw [State.domainsLost_power, State.nodeFatal_power]; rfl)
        · exact State.faultPinLow_of_trip (by rw [State.domainsLost_power, State.nodeFatal_power]; rfl)
      case isFalse kept =>
        refine ⟨?_, ?_, ?_, fun released on => absurd ?_ kept⟩
        · rw [State.nodeFatal_power]; rfl
        · exact State.heldOff_of_trip (by rw [State.nodeFatal_power]; rfl)
        · exact State.faultPinLow_of_trip (by rw [State.nodeFatal_power]; rfl)
        · simp [released, on, State.heldOff_at]

/-! Power domains. -/

theorem State.pdCtrlWord_bit (s : State) {d : Nat} (on : Bool) (i : Nat) (h : d < 64) :
    bitAt (s.pdCtrlWord d on).toNat i = if i = d then on else bitAt (s.word 0 0x002 0x120).toNat i :=
  bitAt_putBits_bit _ on i h

/-- A write of PD_CTRL that lands on an open page acts by the bits that it changes. -/
theorem execPdOff_opens {s u : State} {now d : Nat} {req : Requester} (h : (s.at now).opens req 0x002 0x120)
    (hu : u = (s.at now).stored req 0x002 0x120 (s.pdCtrlWord d true)) :
    (s.at now).regWrite req 0x002 0x120 ((s.at now).pdCtrlWord d true) pdCtrlHook = pdCtrlHook req 0x002 (s.word 0 0x002 0x120) (s.pdCtrlWord d true) u :=
  State.opens_hook pdCtrlHook h hu (effect_writable (by decide))

theorem State.switchedOff_at (s : State) (now d : Nat) : (s.at now).switchedOff d = s.switchedOff d := rfl

theorem State.tiersReady_at (s : State) (now : Nat) : (s.at now).tiersReady = s.tiersReady := rfl

theorem State.good_at (s : State) (now : Nat) : (s.at now).good = s.good := rfl

/-- Settles O10: the guards of each switching step hold, and a write of PD_CTRL changes the one bit that it names. -/
theorem powerDomains : Obligations.PowerDomains := by
  unfold Obligations.PowerDomains
  refine ⟨fun s now d lt supplied on good0 good switched before => ?_, fun s now results released ready good => ?_,
    fun s u now req h off3 off5 hu idle => ?_, fun s u now req h off3 off5 hu idle => ?_, fun s u now req h off3 off5 hu idle => ?_,
    fun s now released on bad off started => ?_⟩
  · refine ⟨_, (if_neg (Nat.not_le.mpr lt)).trans (congrArg Host.Outcome.next (if_neg ?_)), rfl⟩
    simp [supplied, State.heldOff_at, on, good0, good, State.switchedOff_at, switched, before]
  · refine ⟨((s.at now).modTiers fun t => { t with creamUnits := 0xF, skimUnits := 0xFFFF }).calLearn results (s.cal.active == 0) |>.setFld LEAVE.TIERS_READY 1,
      State.setFld_set_bit _ _ (by decide) (by decide), rfl, rfl, rfl, rfl, congrArg Host.Outcome.next (if_neg ?_)⟩
    simp only [State.at_power, released, State.tiersReady_at, ready, State.good_at, good]
    decide
  · refine ⟨_, congrArg Host.Outcome.next (execPdOff_opens h hu), ?_⟩
    simp [pdCtrlHook, State.pdCtrlWord_bit, off3, off5, idle]
  · refine ⟨_, congrArg Host.Outcome.next (execPdOff_opens h hu), ?_⟩
    simp [pdCtrlHook, State.pdCtrlWord_bit, off3, off5, idle]
  · refine ⟨_, congrArg Host.Outcome.next (execPdOff_opens h hu), ?_⟩
    simp [pdCtrlHook, State.pdCtrlWord_bit, off3, off5, idle]
  · refine ⟨_, congrArg Host.Outcome.next ((if_pos ?_).trans (if_pos rfl)), rfl⟩
    simp [State.heldOff_at, released, on, bad, off, started]

/-! Leave and the calibration store. -/

theorem State.calStart_starts {s : State} (auto : Bool) (free : s.calBlocked = false) (left : s.cal.gen ≠ 0xFFFFFFFE) :
    ∃ w, (s.calStart auto).cal.writing = some w ∧ w.slot = (if s.cal.active = 1 then 2 else 1) ∧ w.data.gen = s.cal.gen + 1 ∧
      (s.calStart auto).cal.lastAuto = (if auto then some s.chrono else s.cal.lastAuto) ∧ (s.calStart auto).cal.due = false := by
  have start : ¬s.calBlocked = true := by simp [free]
  unfold State.calStart
  rw [if_neg start, if_neg left]
  exact ⟨_, rfl, rfl, rfl, rfl, rfl⟩

/-- A slice that may ask for leave and finds room in the queue asks. -/
theorem execLeaveRequest_asks {s : State} {now slice cls : Nat} {x : Slice} {job : Job} (hx : s.slice? slice = some x) (hj : s.job? x.job = some job)
    (released : s.power.released = true) (queued : x.state = .queued) (own : cls = 4 ∨ (cls ≠ 0 ∧ cls = leaveClass x.page))
    (without : s.holdsLeave x.job cls (leavePage cls x.page) = false) (room : (s.at now).leaveDecide cls ≠ .full) :
    execLeaveRequest now slice cls s =
      .next ((s.at now).leaveAsk cls (leavePage cls x.page) slice x.job (s.leaveTicksOf job x.stage)) := by
  have hx' : (s.at now).slice? slice = some x := hx
  have hj' : (s.at now).job? x.job = some job := hj
  have without' : (s.at now).holdsLeave x.job cls (leavePage cls x.page) = false := without
  have own' : (cls == 4 || (cls != 0 && cls == leaveClass x.page)) = true := by simpa using own
  unfold execLeaveRequest
  simp only [hx', hj', State.at_power, released, queued, own', without']
  exact congrArg Host.Outcome.next (if_neg (by decide))

/-- Settles O11: a request by the room under the budget, a release by the grants that remain, and a calibration write by its time and its slot. -/
theorem leaveAndCalibration : Obligations.LeaveAndCalibration := by
  unfold Obligations.LeaveAndCalibration
  refine ⟨fun s now slice cls x job hx hj released queued own without granted => ?_, fun s now slice cls x job hx hj released queued own without wait => ?_,
    fun s now job cls gone => ?_, fun s now slice tick waits due => ?_, fun s u now watts req h hu released => ?_,
    fun s now released due idle first free left => ?_, fun s now last released auto early => ?_, fun s u now req v h hu idle => ?_,
    fun s now w writing save slot valid => ?_, fun s now w writing save slot => ?_⟩
  · refine ⟨_, execLeaveRequest_asks hx hj released queued own without (by rw [granted]; nofun), ?_⟩
    unfold State.leaveAsk
    rw [granted]
    exact ⟨rfl, rfl, rfl⟩
  · refine ⟨_, execLeaveRequest_asks hx hj released queued own without (by rw [wait]; nofun), ?_⟩
    unfold State.leaveAsk
    rw [wait]
    refine ⟨rfl, rfl, (Table.find?_upd_self _ _ _).trans ?_⟩
    exact congrArg _ hx
  · refine ⟨_, congrArg Host.Outcome.next (if_neg ?_), rfl⟩
    simp [show (s.at now).job? job = none from gone]
  · have waits' : (s.at now).leaveTick slice = some tick := waits
    refine ⟨_, ?_, rfl⟩
    change execLeaveTimeout now slice s = _
    simp [execLeaveTimeout, waits', Nat.not_lt.mpr due]
  · refine ⟨_, congrArg Host.Outcome.next (State.opens_hook leaveCfgHook h hu (effect_writable (by decide))), ?_⟩
    exact if_pos released
  · obtain ⟨w, writing, slot, gen, auto, due'⟩ := State.calStart_starts (s := s.at now) true free left
    refine ⟨(s.at now).calStart true, w, congrArg Host.Outcome.next ((if_pos released).trans (if_pos ?_)), writing, slot, gen, auto, due'⟩
    simp [due, idle, first]
  · refine ⟨_, congrArg Host.Outcome.next ((if_pos released).trans (if_neg ?_)), rfl⟩
    have early' : ¬last + 60000000000 ≤ max s.chrono now := Nat.not_le.mpr early
    simp only [State.at_cal, auto, State.at_chrono, early', decide_false, Bool.and_false, Bool.false_eq_true, not_false_iff]
  · refine ⟨_, congrArg Host.Outcome.next (State.opens_hook calCtrlHook h hu (effect_writable (by decide))), ?_⟩
    have asked : bitAt (putBits v 0 0 1).toNat 0 = true := bitAt_putBits_bit v true 0 (by decide)
    simp [calCtrlHook, asked, State.saveNow, idle]
  · refine ⟨_, rfl, ?_⟩
    simp [State.calEnd, writing, save, slot, valid]
  · refine ⟨_, rfl, ?_⟩
    simp [State.calEnd, writing, save, slot, State.setFld_set, CALSTORE.FLASH_FAIL]

end Sys2Proof.Machine
end

section
/-! Resets and block resets (03, Reset kinds; 04, Page control). -/

namespace Sys2Proof.Machine

open Sys2Proof.Reg

/-! Resets. -/

theorem State.lands_fabric {s u : State} {now : Nat} {req : Requester} {page off : Nat} {v : Word} (h : s.lands now req page off v u) :
    u.fabric = s.fabric :=
  (State.lands_frame h).part .fabric rfl

/-- What a warm reset leaves when no reset of the same instant absorbs or precedes it. -/
theorem State.warmReset_alone {s : State} (cause : Nat) (released : s.power.released = true) (absorbed : s.absorbs .warm = false)
    (alone : s.afterWeaker .warm = false) :
    ∃ u : State, s.warmReset cause = (u.setFld RESET.CAUSE cause).modPower (fun p => { p with lastReset := some (s.chrono, rankOf .warm) }) ∧
      u.power.released = false ∧ u.work = {} ∧ u.host = {} ∧ u.fatalAt = none ∧ u.tide.now = s.tide.now ∧ u.rolar.fuses = s.rolar.fuses ∧
      u.faults = s.faults ∧ u.pins = s.pins := by
  simp only [State.warmReset, released, State.resetOr, absorbed, alone, Bool.not_true, Bool.false_eq_true, if_false]
  exact ⟨_, rfl, rfl, rfl, rfl, rfl, rfl, rfl, rfl, rfl⟩

/-- The calibration search, the supervisors' start and the fuses leave the pins as the straps' sampling left them. -/
theorem State.releaseSteps_pins (s : State) (readable : Bool) : ((s.calFind readable).supervisorsStart).fuseReblow.pins = s.pins :=
  (State.fuseReblow_frame (m := 2 ^ 29 - 1 - 16) rfl (State.supervisorsStart_frame rfl (State.calFind_frame rfl (Frame.refl s)))).part .pins rfl

theorem State.release_pins {s : State} (readable : Bool) (held : s.power.released = false) (pg : s.pins.modPg = true)
    (good : bitAt s.power.good 0 = true) :
    (s.release readable).pins.releaseAt = s.chrono ∧ (s.release readable).pins.tideArmed = !s.pins.tideIn := by
  unfold State.release
  rw [if_neg (by simp [held, pg, good])]
  dsimp only
  rw [State.releaseSteps_pins]
  split <;> exact ⟨rfl, rfl⟩

theorem State.isLead_at (s : State) (now : Nat) : (s.at now).isLead = s.isLead := rfl

/-- Settles O12: each cause by its guard; what a reset keeps or empties is read off its definition. -/
theorem resets : Obligations.Resets := by
  unfold Obligations.Resets
  refine ⟨fun s now readable held pg good => ?_, fun s now readable released => congrArg Host.Outcome.next (if_pos ?_), fun s u now req h hu => ?_,
    fun s u now req h hu lead idle => ?_, fun s u now req h hu member => ?_, fun s now p released fresh member => ?_, fun s now p again => ?_,
    fun s now fn lt released enabled => ?_, fun s now at_ fatal released auto due => ?_, fun s cause released absorbed alone => ?_⟩
  · obtain ⟨at_, armed⟩ := State.release_pins (s := s.at now) readable held pg good
    have release : (s.at now).release readable = _ := if_neg (by simp [held, pg, good])
    refine ⟨_, rfl, ?_, at_, ?_, armed⟩
    · rw [release]
    · rw [release]; rfl
  · simp [released]
  · exact ⟨_, congrArg Host.Outcome.next (State.opens_hook resetCtrlHook h hu (effect_writable (by decide))), if_pos (by decide)⟩
  · refine ⟨_, congrArg Host.Outcome.next (State.opens_hook resetCtrlHook h hu (effect_writable (by decide))), ?_⟩
    have acts : resetCtrlHook req 0x003 (s.word (ownerOf req 0x003) 0x003 0x108) 2#64 u = u.herdReset := 
      (if_neg (by decide)).trans ((if_pos (by decide)).trans (if_pos lead))
    rw [acts]
    unfold State.herdReset
    rw [if_neg (by simp [idle])]
    exact ⟨rfl, rfl⟩
  · refine ⟨_, congrArg Host.Outcome.next ((State.opens_hook resetCtrlHook h hu (effect_writable (by decide))).trans
      ((if_neg (by decide)).trans ((if_pos (by decide)).trans (if_neg (by simp [member]))))), State.setFld_set _ _ (by decide) (by decide), ?_⟩
    exact State.lands_fabric (u := u) ⟨h, hu⟩
  · refine ⟨_, congrArg Host.Outcome.next (if_neg ?_), rfl⟩
    simp [released, fresh, State.isLead_at, member]
  · exact congrArg Host.Outcome.next (if_pos (by simp [again]))
  · exact ⟨_, (if_neg (Nat.not_le.mpr lt)).trans (congrArg Host.Outcome.next (if_pos (by simp [released]; exact enabled))), rfl⟩
  · refine ⟨_, ?_, rfl⟩
    change execAutoWarm now s = _
    simp [execAutoWarm, fatal, released, auto, due]
  · obtain ⟨u, eq, off, work, host, fatal, tide, fuses, faults, pins⟩ := State.warmReset_alone cause released absorbed alone
    rw [eq]
    exact ⟨off, work, host, fatal, tide, fuses, faults, pins, fun lt => State.setFld_fits _ _ (by decide) lt⟩

/-! Block resets. -/

/-- A register of the common header of a page that the module has is one of Table 04-2. -/
theorem fieldsAt_header {page off : Nat} (h : ∃ b, blockOf page = some b) (header : isHeader off = true) :
    fieldsAt page off = HDR.fields.filter fun f => f.lies 0 off := by
  obtain ⟨b, hb⟩ := h
  simp [fieldsAt, hb, header]

/-- A write of a header register with a field that software may write, on an open page. -/
theorem State.lands_header {s u : State} {now : Nat} {req : Requester} {page off : Nat} {v : Word} (hook : Hook) (h : s.lands now req page off v u)
    (header : isHeader off = true) (ha : (HDR.fields.filter fun f => f.lies 0 off).all (fun f => f.acc = .ro) = false) :
    (s.at now).regWrite req page off v hook = hook req page (s.word (ownerOf req page) page off) v u :=
  State.lands_hook hook h (by rw [fieldsAt_header (State.takes_block h.1.1) header, ha])

/-- A write of PG_CTRL of a page that steers placement and is no link's, or leaves the link's service as it is. -/
theorem pgCtrlHook_plain {req : Requester} {page : Nat} {old v : Word} (u : State) (free : isFixedPage page = false)
    (same : bitAt v.toNat 3 = bitAt old.toNat 3 ∨ firstPage page ≠ 0x0D0) :
    pgCtrlHook req page old v u = if bitAt v.toNat 1 then (u.unqueue page).blockReset (ownerOf req page) page else u.unqueue page := by
  have service : (bitAt v.toNat 3 != bitAt old.toNat 3 && firstPage page == 0x0D0) = false := by
    rcases same with eq | ne
    · simp [eq]
    · simp [ne]
  simp only [pgCtrlHook, free, service, Bool.false_eq_true, if_false]

theorem State.serveHeld_none {s : State} (h : s.host.heldAccesses = []) : s.serveHeld = s.modHost fun x => { x with heldAccesses := [] } := by
  simp [State.serveHeld, h]

/-- A block reset that has not ended in time, where it held nothing: the page is faulted, and its unit has left service. -/
theorem State.blockTimeout_none {s : State} {fn page began : Nat} (since : (s.page fn page).resetAt = some began)
    (late : began + 100000 ≤ s.chrono) (held : (s.page fn page).held = []) (waits : (s.page fn page).syncWait = []) :
    s.blockTimeout fn page = (s.setPage fn page { s.page fn page with resetAt := none, held := [], faulted := true, syncWait := [] }).unitFault
      fn page 0x11 0 0xD8 := by
  unfold State.blockTimeout
  simp only [since, Nat.not_lt.mpr late, if_false, held, waits, List.foldl_nil]

/-- Settles O13: a reset begins once, ends with the held writes applied as a fold in their order, and times out from its own start. -/
theorem blockResets : Obligations.BlockResets := by
  unfold Obligations.BlockResets
  refine ⟨fun s u now page req h free notLink hu => ?_, fun s now fn page began supply since early => ?_,
    fun s now fn page began since late held waits accesses => ?_⟩
  · refine ⟨_, congrArg Host.Outcome.next (State.lands_header pgCtrlHook ⟨h, rfl⟩ (by decide) (by decide)), ?_⟩
    rw [pgCtrlHook_plain _ free (.inr notLink), hu]
    exact if_pos (bitAt_putBits_bit _ true 1 (by decide))
  · refine ⟨_, rfl, ?_⟩
    have since' : ((s.at now).page fn page).resetAt = some began := since
    change execBlockResetEnd now fn page supply s = _
    unfold execBlockResetEnd
    simp only [since', State.at_chrono, Nat.not_le.mpr early, if_false]
    rfl
  · refine ⟨_, rfl, ?_⟩
    rw [State.blockTimeout_none (s := s.at now) since late held waits, State.serveHeld_none, State.modHost_page]
    · have steer := State.unitFault_steer ((s.at now).setPage fn page
        { s.page fn page with resetAt := none, held := [], faulted := true, syncWait := [] }) fn page 0x11 0 0xD8
      rw [State.setPage_page_self] at steer
      exact ⟨congrArg PageRun.faulted steer, congrArg PageRun.resetAt steer⟩
    · exact (congrArg HostSide.heldAccesses ((State.unitFault_frame (Nat.or_self _) (Frame.refl _)).part .host rfl)).trans accesses

end Sys2Proof.Machine
end

section
/-! Register writes, plain accesses and the common page header (04). -/

namespace Sys2Proof.Machine

open Sys2Proof.Reg

/-! What becomes of a register write. -/

theorem fieldWrite_unlocked_hit (old v : Word) (fs : List Field) : (fieldWrite false old v fs).lockedHit = false := by
  cases hit : (fieldWrite false old v fs).lockedHit with
  | false => rfl
  | true => exact absurd (fieldWrite_lockedHit hit) Bool.false_ne_true

/-- Refused values raise errors of the page, which leave PG_SYNC's count. -/
theorem foldl_raiseBy_word (s : State) (req : Requester) (page off : Nat) (bits : List Nat) :
    (bits.foldl (fun s b => s.raiseBy req page b off) s).word (ownerOf req page) page 0x048 = s.word (ownerOf req page) page 0x048 := by
  induction bits generalizing s with
  | nil => rfl
  | cons b bits ih =>
    refine (ih _).trans (State.raise_word _ _ _ _ _ _ _ fun o err => key_ne_of_off _ _ ?_)
    rintro rfl
    exact absurd err (by decide)

/-- PG_SYNC counts a write that opens; PG_SYNC itself has no field that software may write. -/
theorem State.stored_writes {s : State} {req : Requester} {page off : Nat} (v : Word) (h : s.opens req page off)
    (ha : (fieldsAt page off).all (fun f => f.acc = .ro) = false) :
    (s.stored req page off v).fldFn (ownerOf req page) (HDR.WRITES.on page) = (s.fldFn (ownerOf req page) (HDR.WRITES.on page) + 1) % 2 ^ 32 := by
  have other : off ≠ 0x048 := by
    rintro rfl
    rw [fieldsAt_header (State.takes_block h.1) (by decide)] at ha
    exact absurd ha (by decide)
  unfold State.stored
  rw [State.regWrite_takes v noHook h.1]
  unfold State.applyWrite
  simp only [ha, Bool.false_eq_true, if_false, noHook, h.2, fieldWrite_unlocked_hit]
  have counted (u : State) (n : Nat) : (u.setFldFn (ownerOf req page) (HDR.WRITES.on page) n).fldFn (ownerOf req page) (HDR.WRITES.on page) =
      n % 2 ^ 32 := u.setFldFn_self _ _ n (show 31 < 64 by decide)
  have before : (s.setWord (ownerOf req page) page off (fieldWrite false (s.word (ownerOf req page) page off) v (fieldsAt page off)).stored).fldFn
      (ownerOf req page) (HDR.WRITES.on page) = s.fldFn (ownerOf req page) (HDR.WRITES.on page) :=
    congrArg (bitsOf · _ _) (State.setWord_word_other _ _ (key_ne_of_off _ _ other))
  refine (congrArg (bitsOf · _ _) (foldl_raiseBy_word _ req page off _)).trans ((counted _ _).trans ?_)
  rw [before, Nat.mod_mod]

/-- Settles O14: `State.writeWay` names each way, and a write that is applied is the fields' step with the register's effect after it. -/
theorem registerWriteWays : Obligations.RegisterWriteWays := by
  unfold Obligations.RegisterWriteWays
  intro s req page off v hook
  refine ⟨State.regWrite_unpresented s off v hook, fun shown silent => ?_, fun shown answers denied => ?_, fun shown answers may due => ?_,
    fun other shown answers may block faulted => ?_, fun other shown answers may block sound resets => ?_,
    fun opens writable => ⟨State.regWrite_unlocked v hook opens writable, State.stored_writes v opens writable⟩, fun takes ro => ?_⟩
  · simp [State.regWrite, State.writeWay, shown, silent]
  · simp [State.regWrite, State.writeWay, shown, answers, denied]
  · refine ⟨_, rfl, ?_⟩
    simp [State.regWrite, State.writeWay, shown, answers, may, due]
  · simp [State.regWrite, State.writeWay, other, shown, answers, may, block, faulted]
  · refine ⟨_, rfl, ?_⟩
    simp [State.regWrite, State.writeWay, other, shown, answers, may, block, sound, resets, State.setPage_page_self]
  · rw [State.regWrite_takes v hook takes]
    simp [State.applyWrite, ro]

/-! Plain accesses. -/

theorem State.readReg_presented {s : State} {req : Requester} {page : Nat} (off : Nat) (h : presents req page = true) :
    s.readReg req page off = s.emit (.readReg req page off (s.readWord req page off)) := by
  simp [State.readReg, h]

theorem State.readReg_unpresented {s : State} {req : Requester} {page : Nat} (off : Nat) (h : presents req page = false) :
    s.readReg req page off = (s.unmapped req page off).emit (.readReg req page off 0#64) := by
  simp [State.readReg, State.readWord, h]

/-- An access that is narrow or not aligned raises ACCESS_SIZE and has no other effect (R63). -/
theorem State.writeBar0_narrow (s : State) (supply : Supply) (req : Requester) {page off : Nat} {bs : Bytes} (some_ : bs ≠ []) (short : bs.length ≤ 8)
    (bad : bs.length < 8 ∨ off % 8 ≠ 0) (inside : off < 4096) : s.writeBar0 supply req (page * 4096 + off) bs = s.badWidth req page off := by
  have place : (page * 4096 + off) / 4096 = page ∧ (page * 4096 + off) % 4096 = off ∧ (page * 4096 + off) % 8 = off % 8 := by omega
  obtain ⟨hp, ho, h8⟩ := place
  have odd : ¬(bs.length = 8 ∧ off % 8 = 0) := by omega
  simp [State.writeBar0, some_, short, hp, ho, h8]
  intro full aligned
  exact absurd ⟨full, aligned⟩ odd

/-- Settles O16: an access is split by its width and alignment; the probe's reads only add an output. -/
theorem plainAccesses : Obligations.PlainAccesses := by
  unfold Obligations.PlainAccesses
  refine ⟨fun s now page off req bs supply whole aligned inside => ?_, fun s now page off req bs supply some_ short bad inside shown answers => ?_,
    fun s now req shown => congrArg Host.Outcome.next (State.readReg_presented _ shown),
    fun s now req shown => congrArg Host.Outcome.next (State.readReg_presented _ shown),
    fun s now fn hidden => congrArg Host.Outcome.next (State.readReg_unpresented _ hidden)⟩
  · have place : (page * 4096 + off) / 4096 = page ∧ (page * 4096 + off) % 4096 = off := by omega
    refine congrArg Host.Outcome.next ((State.writeBar0_register _ supply req whole (by omega)).trans ?_)
    rw [place.1, place.2]
    rfl
  · refine congrArg Host.Outcome.next ((State.writeBar0_narrow _ supply req some_ short bad inside).trans ?_)
    have answers' : (s.at now).answers page = true := answers
    simp [State.badWidth, shown, answers']

/-! Page control. -/

theorem State.placeAll_idle {s : State} (h : s.work.jobs = []) : s.placeAll = s := by
  simp [State.placeAll, h]

/-- Changing one bit of PG_CTRL and writing BLOCK_RESET 0 keeps the other bits. -/
theorem pgCtrl_bit (w : Word) {b : Nat} (on : Bool) (i : Nat) (h : b < 64) :
    bitAt (putBits (putBits w b b (ofBool on)) 1 1 0).toNat i = if i = 1 then false else if i = b then on else bitAt w.toNat i :=
  (bitAt_putBits_bit _ false i (by decide)).trans (by rw [bitAt_putBits_bit w on i h])

/-- A write of one bit of PG_CTRL on a page that steers placement: its queued slices are placed again. -/
theorem pgCtrl_lands {s u : State} {now page b : Nat} {req : Requester} (on : Bool) (hb : b < 64) (free : isFixedPage page = false)
    (h : s.lands now req page 0x010 (putBits (putBits (s.word (ownerOf req page) page 0x010) b b (ofBool on)) 1 1 0) u)
    (same : b ≠ 3 ∨ firstPage page ≠ 0x0D0) :
    (s.at now).regWrite req page 0x010 ((s.at now).pgCtrlWord req page b on) pgCtrlHook = u.unqueue page := by
  refine (State.lands_header pgCtrlHook h (by decide) (by decide)).trans ?_
  rw [pgCtrlHook_plain u free ?_, pgCtrl_bit _ on 1 hb]
  · exact if_neg (by simp)
  · refine same.imp_left fun ne => ?_
    rw [pgCtrl_bit _ on 3 hb, if_neg (by decide), if_neg ne.symm]

theorem State.answers_at (s : State) (now page : Nat) : (s.at now).answers page = s.answers page := rfl

/-- Settles O17: LOCK, PG_CTRL's bits and PG_SYNC by their hooks, on the header register that the write leaves. -/
theorem pageControl : Obligations.PageControl := by
  unfold Obligations.PageControl
  refine ⟨fun s u now page req h => ?_, fun s fn page => ?_, fun s u now page req on free h => ?_, fun s u now page req on free h => ?_,
    fun s u now page req on free notLink h => ?_, fun s u now page req on free link changed h => ?_, fun s u now page req on fixed h => ?_,
    fun s page closed idle => ?_, fun s now page req shown answers waits => ?_, fun s now page req none_ => ?_⟩
  · refine congrArg Host.Outcome.next ((State.lands_header pgLockHook h (by decide) (by decide)).trans (if_pos (by decide)))
  · rw [State.locked, State.setFldFn_self _ fn (HDR.LOCK.on page) 1 (show 0 < 64 by decide)]
    rfl
  · exact congrArg Host.Outcome.next (pgCtrl_lands on (by decide) free h (.inl (by decide)))
  · exact congrArg Host.Outcome.next (pgCtrl_lands on (by decide) free h (.inl (by decide)))
  · exact congrArg Host.Outcome.next (pgCtrl_lands on (by decide) free h (.inr notLink))
  · refine congrArg Host.Outcome.next ((State.lands_header pgCtrlHook h (by decide) (by decide)).trans ?_)
    simp [pgCtrlHook, free, link, pgCtrl_bit _ on _ (show 3 < 64 by decide), changed.symm]
  · refine congrArg Host.Outcome.next ((State.lands_header pgCtrlHook h (by decide) (by decide)).trans (if_pos fixed))
  · unfold State.unqueue
    rw [if_neg (by simp [closed])]
    exact State.placeAll_idle idle
  · refine ⟨_, congrArg Host.Outcome.next (if_pos ?_), rfl, congrArg PageRun.syncWait (State.setPage_page_self _ _ _ _)⟩
    simp only [shown, State.answers_at, answers, State.at_page, waits, Bool.and_true]
  · refine congrArg Host.Outcome.next (if_neg ?_)
    simp [none_]

/-! Errors of a page, and its interrupts. -/

/-- The word of ERR_FIRST that captures an error. -/
def captureWord (n source off accPage : Nat) : Word :=
  putBits (putBits (putBits (putBits (putBits 0#64 5 0 n) 8 8 1) 23 16 source) 43 32 off) 63 48 accPage

theorem State.raise_masked {s : State} {fn page n : Nat} (source off accPage : Nat) (masked : (s.word fn page 0x028).getLsbD n = true) :
    s.raise fn page n source off accPage = s.setSticky fn page n := by
  simp only [State.raise, masked, if_true]

/-- An unmasked error is captured where no capture is held. -/
theorem State.raise_captures {s : State} {fn page n : Nat} (source off accPage : Nat) (unmasked : (s.word fn page 0x028).getLsbD n = false)
    (free : s.fldFn fn (HDR.VALID.on page) = 0) :
    (s.raise fn page n source off accPage).word fn page 0x030 = captureWord n source off accPage := by
  simp only [State.raise, unmasked, free, Bool.false_eq_true, if_false, Nat.zero_ne_one]
  rw [State.setWord_word_other _ _ (key_ne_of_off fn page (by decide)), State.setWord_word_other _ _ (key_ne_of_off fn page (by decide)),
    State.setWord_word_self]
  rfl

theorem bitsOf_captureWord (n source off accPage : Nat) :
    bitsOf (captureWord n source off accPage) 5 0 = n % 2 ^ 6 ∧ bitsOf (captureWord n source off accPage) 8 8 = 1 ∧
    bitsOf (captureWord n source off accPage) 23 16 = source % 2 ^ 8 ∧ bitsOf (captureWord n source off accPage) 43 32 = off % 2 ^ 12 ∧
    bitsOf (captureWord n source off accPage) 63 48 = accPage % 2 ^ 16 := by
  unfold captureWord
  refine ⟨?_, ?_, ?_, ?_, bitsOf_putBits_self (by decide)⟩
  · rw [bitsOf_putBits_other (by decide) (by decide), bitsOf_putBits_other (by decide) (by decide), bitsOf_putBits_other (by decide) (by decide),
      bitsOf_putBits_other (by decide) (by decide), bitsOf_putBits_self (by decide)]
  · rw [bitsOf_putBits_other (by decide) (by decide), bitsOf_putBits_other (by decide) (by decide), bitsOf_putBits_other (by decide) (by decide)]
    exact bitsOf_putBits_self (by decide)
  · rw [bitsOf_putBits_other (by decide) (by decide), bitsOf_putBits_other (by decide) (by decide), bitsOf_putBits_self (by decide)]
  · rw [bitsOf_putBits_other (by decide) (by decide), bitsOf_putBits_self (by decide)]

/-- The word of ERR_INJECT with FIRE and an index. -/
theorem injectWord (index : Nat) : bitsOf (BitVec.ofNat 64 (index % 64 + 0x100)) 5 0 = index % 64 ∧
    bitAt (BitVec.ofNat 64 (index % 64 + 0x100)).toNat 8 = true := by
  have small : (index % 64 + 0x100) % 2 ^ 64 = index % 64 + 0x100 := Nat.mod_eq_of_lt (by omega)
  have bit : (index % 64 + 0x100) / 2 ^ 8 % 2 = 1 := by omega
  simp only [bitsOf, bitAt, BitVec.toNat_ofNat, small, bit]
  exact ⟨by omega, rfl⟩

theorem errInjectHook_fires {req : Requester} {page index : Nat} (old : Word) (u : State) :
    errInjectHook req page old (BitVec.ofNat 64 (index % 64 + 0x100)) u =
      if implementsErr page (index % 64) then
        u.setPage (ownerOf req page) page { u.page (ownerOf req page) page with inject := some (index % 64) }
      else u := by
  obtain ⟨field, fire⟩ := injectWord index
  simp only [errInjectHook, field, fire, Bool.true_and]

theorem errFirstHook_clears {req : Requester} {page : Nat} (old : Word) (u : State) :
    errFirstHook req page old 0x100#64 u = ((u.setWord (ownerOf req page) page 0x030 0#64).setWord (ownerOf req page) page 0x0F0 0#64).setWord
      (ownerOf req page) page 0x0F8 0#64 := by
  have clears : bitAt (0x100#64 : Word).toNat 8 = true := by decide
  simp only [errFirstHook, clears, if_true]

/-- A page whose route can deliver sends its message once its count or its time is reached, and keeps its pending events before. -/
theorem State.irqSettle_able {s : State} {fn page able : Nat} (can : s.canDeliver fn page = true) (since : (s.page fn page).ableAt = some able) :
    s.irqSettle fn page =
      if 0 < (s.page fn page).pending ∧ (max 1 (s.fldFn fn (HDR.MOD_EVENTS.on page)) ≤ (s.page fn page).pending ∨
        max (s.page fn page).oldest able + s.fldFn fn (HDR.MOD_TIME.on page) * 1000 ≤ s.chrono)
      then (s.setPage fn page { s.page fn page with ableAt := some able, pending := 0 }).emit (s.irqMessage fn page)
      else s.setPage fn page { s.page fn page with ableAt := some able } := by
  simp only [State.irqSettle, can, since, Option.getD_some, if_true, Bool.and_eq_true, Bool.or_eq_true, decide_eq_true_eq]

/-- Settles O18: errors through `State.raise`, an injection by its index, interrupts by the events that are pending. -/
theorem pageErrorsAndInterrupts : Obligations.PageErrorsAndInterrupts := by
  unfold Obligations.PageErrorsAndInterrupts
  refine ⟨fun s u now page index req implemented h => ?_, fun s u now page index req absent h => ?_, fun s now fn page n pending => ?_,
    fun s u now page req h => ?_, fun s now fn page answers => ?_, fun s now fn page answers fatal => ?_, fun s now fn page answers block => ?_,
    fun s fn page n source off accPage hn ho hp hs ha unmasked free => ?_, fun s fn page n source off accPage => State.raise_masked source off accPage,
    fun s u now page req v h => ?_, fun s now fn page able answers can pending since due => ?_, fun s now fn page able answers can since few early => ?_,
    fun s fn page cannot => ?_⟩
  · refine ⟨_, congrArg Host.Outcome.next (State.lands_header errInjectHook h (by decide) (by decide)), ?_⟩
    rw [errInjectHook_fires, if_pos implemented]
    exact ⟨congrArg PageRun.inject (State.setPage_page_self _ _ _ _), rfl⟩
  · refine congrArg Host.Outcome.next ((State.lands_header errInjectHook h (by decide) (by decide)).trans ?_)
    rw [errInjectHook_fires, absent]
    rfl
  · refine ⟨_, rfl, ?_⟩
    change execInjectionDelivered now fn page s = _
    simp [execInjectionDelivered, pending]
  · refine ⟨_, congrArg Host.Outcome.next ((State.lands_header errFirstHook h (by decide) (by decide)).trans (errFirstHook_clears _ u)), ?_, ?_,
      State.setWord_word_self _ _ _ _ _, rfl⟩
    · rw [State.setWord_word_other _ _ (key_ne_of_off _ _ (by decide)), State.setWord_word_other _ _ (key_ne_of_off _ _ (by decide)),
        State.setWord_word_self]
    · rw [State.setWord_word_other _ _ (key_ne_of_off _ _ (by decide)), State.setWord_word_self]
  · exact congrArg Host.Outcome.next ((if_neg (by simp [State.answers_at, answers])).trans (if_pos rfl))
  · exact congrArg Host.Outcome.next ((if_neg (by simp [State.answers_at, answers])).trans ((if_neg (by decide)).trans (if_pos (by simp [fatal]))))
  · exact congrArg Host.Outcome.next ((if_neg (by simp [State.answers_at, answers])).trans ((if_neg (by decide)).trans (if_neg (by simp [block]))))
  · refine ⟨State.raise_sets_sticky s fn page source off accPage hn, ?_⟩
    have word := State.raise_captures source off accPage unmasked free
    obtain ⟨index, valid, src, offset, acc⟩ := bitsOf_captureWord n source off accPage
    rw [word]
    exact ⟨(congrArg (bitsOf · 8 8) word).trans valid, index.trans (Nat.mod_eq_of_lt hn), src.trans (Nat.mod_eq_of_lt hs),
      offset.trans (Nat.mod_eq_of_lt ho), acc.trans (Nat.mod_eq_of_lt ha)⟩
  · exact congrArg Host.Outcome.next (State.lands_header irqRouteHook h (by decide) (by decide))
  · refine ⟨_, congrArg Host.Outcome.next (if_pos answers), ?_⟩
    rw [State.irqSettle_able (s := s.at now) can since, if_pos ⟨pending, .inr due⟩]
    exact ⟨rfl, congrArg PageRun.pending (State.setPage_page_self _ _ _ _), rfl⟩
  · refine ⟨_, congrArg Host.Outcome.next (if_pos answers), ?_⟩
    rw [State.irqSettle_able (s := s.at now) can since, if_neg]
    · exact ⟨rfl, (congrArg PageRun.pending (State.setPage_page_self _ _ _ _)).trans rfl⟩
    · rintro ⟨_, enough | late⟩
      · exact absurd few (Nat.not_lt.mpr enough)
      · exact absurd early (Nat.not_lt.mpr late)
  · simp [State.irqSettle, cannot]

end Sys2Proof.Machine
end

section
/-! What a register write that lands stores: its own register by the fields' access codes, and which other registers it spares. -/

namespace Sys2Proof

theorem Table.find?_filter_kept {β : Type} (t : Table β) {p : Nat × β → Bool} {k : Nat} (h : ∀ v, p (k, v) = true) :
    Table.find? (t.filter p) k = Table.find? t k := by
  induction t with
  | nil => rfl
  | cons e t ih =>
    obtain ⟨k', v⟩ := e
    rw [List.filter_cons]
    by_cases eq : k' = k
    · subst eq
      simp [Table.find?, h]
    · cases kept : p (k', v) <;> simp [Table.find?, eq, ih]

theorem Table.find?_each {β γ : Type} (t : Table β) (f : Nat → β → γ) (k : Nat) :
    Table.find? (t.map fun e => (e.1, f e.1 e.2)) k = (Table.find? t k).map (f k) := by
  induction t with
  | nil => rfl
  | cons e t ih =>
    obtain ⟨k', v⟩ := e
    by_cases eq : k' = k
    · subst eq
      simp [Table.find?]
    · simpa [Table.find?, eq] using ih

end Sys2Proof

namespace Sys2Proof.Machine

open Sys2Proof.Reg

theorem State.foldl_raiseBy_word_far (s : State) (req : Requester) (page off : Nat) (bits : List Nat) {fn' page' off' : Nat}
    (far : ∀ o, errorOff o = true → key (ownerOf req page) page o ≠ key fn' page' off') :
    (bits.foldl (fun s b => s.raiseBy req page b off) s).word fn' page' off' = s.word fn' page' off' := by
  induction bits generalizing s with
  | nil => rfl
  | cons b bits ih => exact (ih _).trans (State.raise_word _ _ _ _ _ _ _ far)

/-- What the write of an open register with a field that software may write leaves, before its errors. -/
theorem State.stored_opens {s : State} {req : Requester} {page off : Nat} (v : Word) (h : s.opens req page off)
    (ha : (fieldsAt page off).all (fun f => f.acc = .ro) = false) :
    ∃ (n : Nat) (bits : List Nat), s.stored req page off v = bits.foldl (fun s b => s.raiseBy req page b off)
      ((s.setWord (ownerOf req page) page off (fieldWrite false (s.word (ownerOf req page) page off) v (fieldsAt page off)).stored).setFldFn
        (ownerOf req page) (HDR.WRITES.on page) n) := by
  unfold State.stored
  rw [State.regWrite_takes v noHook h.1]
  unfold State.applyWrite
  simp only [ha, Bool.false_eq_true, if_false, noHook, h.2, fieldWrite_unlocked_hit]
  exact ⟨_, _, rfl⟩

/-- A register that is neither the one written nor one of the header that writes and errors change. -/
theorem State.stored_word_far {s : State} {req : Requester} {page off : Nat} (v : Word) (h : s.opens req page off) {fn' page' off' : Nat}
    (far : ∀ o, errorOff o = true ∨ o = 0x048 ∨ o = off → key (ownerOf req page) page o ≠ key fn' page' off') :
    (s.stored req page off v).word fn' page' off' = s.word fn' page' off' := by
  cases ha : (fieldsAt page off).all (fun f => f.acc = .ro) with
  | true =>
    unfold State.stored
    rw [State.regWrite_takes v noHook h.1]
    simp [State.applyWrite, ha]
  | false =>
    obtain ⟨n, bits, eq⟩ := State.stored_opens v h ha
    rw [eq]
    refine (State.foldl_raiseBy_word_far _ req page off bits fun o err => far o (.inl err)).trans ?_
    exact (State.setWord_word_other _ _ (far _ (.inr (.inl rfl)))).trans (State.setWord_word_other _ _ (far _ (.inr (.inr rfl))))

theorem errorOff_small {o : Nat} (h : errorOff o = true) : o < 0x100 := by
  unfold errorOff at h
  simp only [List.contains_eq_mem, List.mem_cons, List.not_mem_nil, or_false, decide_eq_true_eq] at h
  rcases h with rfl | rfl | rfl | rfl | rfl <;> decide

/-- A write of a register leaves this field: it lies in another register, and in none of those of the header that a write changes. -/
def writeSpares (page off : Nat) (g : Field) : Bool :=
  decide (page < 0x4000) && decide (off < 0x1000) && decide (g.page < 0x4000) && decide (g.off < 0x1000) &&
    decide (g.page ≠ page ∨ g.off ≠ off ∧ g.off ≠ 0x048 ∧ errorOff g.off = false)

theorem State.lands_fldFn {s u : State} {now : Nat} {req : Requester} {page off : Nat} {v : Word} {g : Field} (fn : Nat) (h : s.lands now req page off v u)
    (spares : writeSpares page off g = true) : u.fldFn fn g = s.fldFn fn g := by
  simp only [writeSpares, Bool.and_eq_true, decide_eq_true_eq] at spares
  obtain ⟨⟨⟨⟨hpage, hoff⟩, gpage⟩, goff⟩, apart⟩ := spares
  rw [h.2]
  refine congrArg (bitsOf · _ _) (State.stored_word_far v h.1 fun o near eq => ?_)
  have small : o < 0x1000 := by
    rcases near with err | rfl | rfl
    · exact Nat.lt_trans (errorOff_small err) (by decide)
    · decide
    · exact hoff
  obtain ⟨-, rfl, rfl⟩ := key_inj hpage small gpage goff eq
  rcases apart with ne | ⟨ne, ne48, ok⟩
  · exact ne rfl
  · rcases near with err | is48 | same
    · rw [ok] at err; cases err
    · exact ne48 is48
    · exact ne same

theorem State.lands_fld {s u : State} {now : Nat} {req : Requester} {page off : Nat} {v : Word} {g : Field} (h : s.lands now req page off v u)
    (spares : writeSpares page off g = true) : u.fld g = s.fld g :=
  State.lands_fldFn 0 h spares

theorem State.lands_bit {s u : State} {now : Nat} {req : Requester} {page off : Nat} {v : Word} {g : Field} (h : s.lands now req page off v u)
    (spares : writeSpares page off g = true) : u.bit g = s.bit g := by
  simp only [State.bit, State.lands_fld h spares]

/-- The register written holds what its fields' access codes make of the value. -/
theorem State.lands_word {s u : State} {now : Nat} {req : Requester} {page off : Nat} {v : Word} (h : s.lands now req page off v u)
    (ha : (fieldsAt page off).all (fun f => f.acc = .ro) = false) (plain : (off != 0x048 && !errorOff off) = true) :
    u.word (ownerOf req page) page off = (fieldWrite false (s.word (ownerOf req page) page off) v (fieldsAt page off)).stored := by
  simp only [Bool.and_eq_true, bne_iff_ne, ne_eq, Bool.not_eq_true'] at plain
  obtain ⟨ne48, ok⟩ := plain
  obtain ⟨n, bits, eq⟩ := State.stored_opens v h.1 ha
  rw [h.2, eq]
  refine (State.foldl_raiseBy_word_far _ req page off bits fun o err => key_ne_of_off _ _ ?_).trans ?_
  · rintro rfl
    rw [ok] at err
    cases err
  · exact (State.setWord_word_other _ _ (key_ne_of_off _ _ (Ne.symm ne48))).trans (State.setWord_word_self _ _ _ _ _)

/-- A write that takes effect leaves all but registers and pages. -/
theorem State.lands_only {s u : State} {now : Nat} {req : Requester} {page off : Nat} {v : Word} (h : s.lands now req page off v u) :
    Frame 6 (s.at now) u := by
  rw [h.2]
  unfold State.stored
  rw [State.regWrite_takes v noHook h.1.1]
  exact State.applyWrite_frame (fun _ _ _ _ _ kept => kept) rfl (Frame.refl _)

theorem State.lands_host {s u : State} {now : Nat} {req : Requester} {page off : Nat} {v : Word} (h : s.lands now req page off v u) :
    u.host = s.host :=
  (State.lands_only h).part .host rfl

theorem State.lands_tiers {s u : State} {now : Nat} {req : Requester} {page off : Nat} {v : Word} (h : s.lands now req page off v u) :
    u.tiers = s.tiers :=
  (State.lands_only h).part .tiers rfl

theorem State.lands_mem {s u : State} {now : Nat} {req : Requester} {page off : Nat} {v : Word} (h : s.lands now req page off v u) :
    u.mem = s.mem :=
  (State.lands_only h).part .mem rfl

theorem State.lands_work {s u : State} {now : Nat} {req : Requester} {page off : Nat} {v : Word} (h : s.lands now req page off v u) :
    u.work = s.work :=
  (State.lands_only h).part .work rfl

end Sys2Proof.Machine
end

section
/-! Registered regions (05). -/

namespace Sys2Proof

/-- A byte outside the cleared range reads as before. -/
theorem Memory.read_clear_outside (m : Memory) {lo hi a : Nat} (h : a < lo ∨ hi ≤ a) : Memory.read (Memory.clear m lo hi) a = Memory.read m a := by
  unfold Memory.read Memory.clear Table.findD
  rw [Table.find?_filter_kept]
  simpa using h

end Sys2Proof

namespace Sys2Proof.Machine

open Sys2Proof.Reg

/-- The slot and the operation of a written REGION_CMD. -/
theorem regionCmdWord_fields (slot : Nat) {op : Nat} (h : op < 8) :
    bitsOf (BitVec.ofNat 64 (slot % 1024 + op * 65536)) 18 16 = op ∧ bitsOf (BitVec.ofNat 64 (slot % 1024 + op * 65536)) 9 0 = slot % 1024 := by
  simp only [bitsOf, BitVec.toNat_ofNat]
  omega

theorem regionHook_busy {want : Nat} {req : Requester} {page : Nat} {old seen : Word} {s : State} (busy : s.bit VAT.BUSY = true) :
    regionHook want req page old seen s = (s.setWord 0 0x060 0x130 old).setFld VAT.REFUSED 1 := by
  simp [regionHook, busy]

/-- A region command taken (R100): the hook starts it. -/
theorem regionHook_starts (want slot : Nat) {op : Nat} {req : Requester} {page : Nat} {old : Word} {s : State} (idle : s.bit VAT.BUSY = false)
    (known : op = 1 ∨ op = 2 ∨ op = 3) :
    regionHook want req page old (BitVec.ofNat 64 (slot % 1024 + op * 65536)) s = s.regionStart (viewOf req) op (slot % 1024) want := by
  obtain ⟨hop, hslot⟩ := regionCmdWord_fields slot (op := op) (by omega)
  have nonzero : op ≠ 0 := by omega
  have small : ¬4 ≤ op := by omega
  simp [regionHook, idle, hop, hslot, nonzero, small]

theorem State.lands_regionCmd {s u : State} {now slot op : Nat} {req : Requester} (want : Nat)
    (h : s.lands now req 0x060 0x130 (BitVec.ofNat 64 (slot % 1024 + op * 65536)) u) (idle : u.bit VAT.BUSY = false) (known : op = 1 ∨ op = 2 ∨ op = 3) :
    (s.at now).regWrite req 0x060 0x130 (BitVec.ofNat 64 (slot % 1024 + op * 65536)) (regionHook want) =
      u.regionStart (viewOf req) op (slot % 1024) want :=
  (State.lands_hook (regionHook want) h (effect_writable (by decide))).trans (regionHook_starts want slot idle known)

/-- What a started region command shows: busy, not done. -/
theorem regionStart_busy (s : State) (fn op slot want : Nat) :
    (s.regionStart fn op slot want).bit VAT.BUSY = true ∧ (s.regionStart fn op slot want).bit VAT.DONE = false := by
  have busy : ((s.setFld VAT.BUSY 1).setFld VAT.DONE 0).bit VAT.BUSY = true :=
    (State.setFld_bit_apart _ _ (by decide)).trans (State.setFld_set_bit _ _ (by decide) (by decide))
  have done_ : ((s.setFld VAT.BUSY 1).setFld VAT.DONE 0).bit VAT.DONE = false := State.setFld_bit_self _ _ _ (by decide)
  unfold State.regionStart
  dsimp only
  split
  · split
    · exact ⟨busy, done_⟩
    · exact ⟨busy, done_⟩
  · exact ⟨busy, done_⟩

theorem regionStart_free (s : State) (fn slot want : Nat) : (s.regionStart fn 2 slot want).tiers =
    { s.tiers with regionCmd := some { slot := slot, result := s.freeResult fn slot true, op := 2 } } := rfl

theorem regionStart_read (s : State) (fn slot want : Nat) : (s.regionStart fn 3 slot want).tiers =
    { s.tiers with regionCmd := some { slot := slot, result := s.freeResult fn slot false, op := 3 } } := rfl

/-- What the registers show when a region command ends. -/
theorem regionResult_shows (s : State) {res : Nat} (h : res < 16) :
    (s.regionResult res).bit VAT.BUSY = false ∧ (s.regionResult res).bit VAT.DONE = true ∧ (s.regionResult res).fld VAT.RESULT = res :=
  ⟨((State.setFld_bit_apart _ _ (by decide)).trans (State.setFld_bit_apart _ _ (by decide))).trans (State.setFld_bit_self _ _ _ (by decide)),
    (State.setFld_bit_apart _ _ (by decide)).trans (State.setFld_set_bit _ _ (by decide) (by decide)), State.setFld_fits _ _ (by decide) h⟩

theorem dropRegion_found {s : State} {slot : Nat} {g : Region} (h : Table.find? s.tiers.regions slot = some g) :
    Table.find? (s.dropRegion slot).tiers.regions slot = none ∧ (s.dropRegion slot).mem = Memory.clear s.mem g.base (g.base + g.len) := by
  simp [State.dropRegion, h, State.modTiers, State.modHost, State.clearMem]

theorem regionDone_refused {s : State} {c : RegionCmd} (cmd : s.tiers.regionCmd = some c) (bad : c.result ≠ 0) :
    s.regionDone = (s.modTiers fun t => { t with regionCmd := none }).regionResult c.result := by
  simp [State.regionDone, cmd, bad]

theorem regionDone_freed {s : State} {c : RegionCmd} (cmd : s.tiers.regionCmd = some c) (good : c.result = 0) (op : c.op = 2) :
    s.regionDone = ((s.modTiers fun t => { t with regionCmd := none }).dropRegion c.slot).regionResult 0 := by
  simp [State.regionDone, cmd, good, op]

theorem regionDone_read {s : State} {c : RegionCmd} {g : Region} (cmd : s.tiers.regionCmd = some c) (good : c.result = 0) (op : c.op = 3)
    (zero : c.zero = none) (found : Table.find? s.tiers.regions c.slot = some g) :
    s.regionDone = ((s.modTiers fun t => { t with regionCmd := none }).showRegion g).regionResult 0 := by
  simp [State.regionDone, cmd, good, op, zero, found]

theorem regions_kept {s u : State} {now : Nat} {req : Requester} {page off : Nat} {v : Word} (h : s.lands now req page off v u) :
    u.tiers.regions = s.tiers.regions :=
  congrArg Mem.regions ((State.lands_frame h).part .tiers rfl)

/-- Settles O20: the hook of REGION_CMD on the descriptor registers that the write leaves, and the end of each command. -/
theorem regionCommands : Obligations.RegionCommands := by
  unfold Obligations.RegionCommands
  refine ⟨fun s u now slot want req h idle good => ?_, fun s u now slot want req h idle bad => ?_, fun s u now slot want req h busy => ?_,
    fun s u now slot req h idle => ?_, fun s u now slot req h idle => ?_, fun s now c cmd bad fits => ?_, fun s now c g cmd good op found => ?_,
    fun s now c g cmd good op zero found => ?_⟩
  · refine ⟨_, u.newRegion (viewOf req) (u.allocResult (viewOf req) (slot % 1024) want).2,
      congrArg Host.Outcome.next (State.lands_regionCmd want h idle (.inl rfl)), ?_, rfl, rfl, rfl,
      (regionStart_busy u _ 1 _ _).1, (regionStart_busy u _ 1 _ _).2, ?_⟩
    · simp [State.regionStart, good, State.modTiers]
    · refine Eq.trans ?_ ((State.lands_frame h).part .mem rfl)
      simp [State.regionStart, good, State.modTiers]
  · refine ⟨_, congrArg Host.Outcome.next (State.lands_regionCmd want h idle (.inl rfl)), ?_, ?_⟩
    · refine Eq.trans ?_ (regions_kept h)
      simp [State.regionStart, bad, State.modTiers]
    · simp [State.regionStart, bad, State.modTiers]
  · exact ⟨_, congrArg Host.Outcome.next ((State.lands_hook (regionHook want) h (effect_writable (by decide))).trans (regionHook_busy busy)),
      State.setFld_set_bit _ _ (by decide) (by decide), (State.lands_frame h).part .tiers rfl⟩
  · refine ⟨_, congrArg Host.Outcome.next (State.lands_regionCmd 0 h idle (.inr (.inl rfl))), rfl, ?_, (regionStart_busy u _ 2 _ _).1⟩
    exact (regions_kept h : u.tiers.regions = _)
  · refine ⟨_, congrArg Host.Outcome.next (State.lands_regionCmd 0 h idle (.inr (.inr rfl))), rfl, ?_, (regionStart_busy u _ 3 _ _).1⟩
    exact (regions_kept h : u.tiers.regions = _)
  · obtain ⟨busy, done_, result⟩ := regionResult_shows ((s.at now).modTiers fun t => { t with regionCmd := none }) fits
    exact ⟨_, congrArg Host.Outcome.next (regionDone_refused (s := s.at now) cmd bad), busy, done_, result, rfl, rfl⟩
  · obtain ⟨gone, mem⟩ := dropRegion_found (s := (s.at now).modTiers fun t => { t with regionCmd := none }) found
    obtain ⟨-, done_, result⟩ := regionResult_shows (((s.at now).modTiers fun t => { t with regionCmd := none }).dropRegion c.slot) (res := 0)
      (by decide)
    refine ⟨_, congrArg Host.Outcome.next (regionDone_freed (s := s.at now) cmd good op), gone, done_, result, fun a out => ?_⟩
    exact (congrArg (Memory.read · a) mem).trans (Memory.read_clear_outside _ out)
  · obtain ⟨-, -, result⟩ := regionResult_shows (((s.at now).modTiers fun t => { t with regionCmd := none }).showRegion g) (res := 0) (by decide)
    refine ⟨_, congrArg Host.Outcome.next (regionDone_read (s := s.at now) cmd good op zero found), ?_, result, rfl, rfl⟩
    simp only [State.regionD, State.regionResult, State.showRegion]
    repeat rw [State.setFld_apart _ _ (by decide)]
    exact State.setFld_self _ _ _ (by decide)


/-! The Cellar's drives (05, Cellar). -/

theorem bitsOf_cellarMode (w : Word) {mode : Nat} (h : mode < 4) : bitsOf (putBits w 1 0 mode) 1 0 = mode :=
  (bitsOf_putBits_self (by decide)).trans (Nat.mod_eq_of_lt h)

/-- MODE leaves 0 for the switch. -/
theorem cellarModeHook_switch {req : Requester} {page : Nat} {old w : Word} {s : State} (unset : bitsOf old 1 0 = 0) :
    cellarModeHook req page old (putBits w 1 0 2) s = (s.setFld CELLAR.MODE 2).modTiers fun t => { t with c1Out := true } := by
  simp [cellarModeHook, bitsOf_cellarMode w (mode := 2) (by decide), unset]

theorem State.drive?_setDrive (s : State) (d : Nat) (x : Drive) : (s.setDrive d x).drive? d = some x := Table.find?_put_self _ _ _

theorem State.drive?_updDrive {s : State} {d : Nat} {x : Drive} (f : Drive → Drive) (h : s.drive? d = some x) :
    (s.updDrive d f).drive? d = some (f x) :=
  (Table.find?_upd_self _ _ _).trans (congrArg (Option.map f) h)

theorem State.drive?_of_tiers {s t : State} (h : t.tiers = s.tiers) (d : Nat) : t.drive? d = s.drive? d := by
  simp only [State.drive?, h]

/-- A scan of the switch with no drives known. -/
theorem switchScan_first {s : State} (found : Nat) (none_ : s.tiers.drives = []) : s.switchScan [found] = s.driveArrives 0 found := by
  simp [State.switchScan, none_, Table.fresh, Table.has, Table.find?]

theorem driveArrives_new {s : State} (bdf : Nat) (none_ : s.tiers.drives = []) :
    (s.driveArrives 0 bdf).drive? 0 = some { present := true, bdf := bdf, ready := false, failed := false } := by
  refine (s.drive?_setDrive 0 _).trans ?_
  simp [State.drive?, none_, Table.find?]

section drive

variable {s : State} {d c : Nat} {x : Drive} {k : DriveCmd} (known : s.drive? d = some x) (cmd : Table.find? x.cmds c = some k)

include known

theorem driveUp_room {xfer width gen : Nat} (present : x.present = true) (idle : x.ready = false) (sound : x.failed = false) (c1 : s.c1Up = true)
    (link : s.tiers.cellarLink = true) (inService : bitAt (s.fld CELLAR.DRIVE_OOS) d = false) (noPage : x.hasPage = false) (room : 2 ≤ s.skimFree) :
    s.driveUp d [] xfer width gen = (({ s with tiers := { s.tiers with skimOther := s.tiers.skimOther + 2 } } : State).updDrive d fun y =>
      { y with ready := true, wantsPage := false, hasPage := true, maxXfer := min 20 xfer, width := width, gen := gen, namespaces := [] }).driveWake := by
  simp [State.driveUp, known, present, idle, sound, c1, link, inService, noPage, State.takeSkim, room]

theorem driveUp_waits {xfer width gen : Nat} (present : x.present = true) (idle : x.ready = false) (sound : x.failed = false) (c1 : s.c1Up = true)
    (link : s.tiers.cellarLink = true) (inService : bitAt (s.fld CELLAR.DRIVE_OOS) d = false) (noPage : x.hasPage = false) (full : s.skimFree < 2) :
    s.driveUp d [] xfer width gen = s.updDrive d fun y => { y with wantsPage := true } := by
  simp [State.driveUp, known, present, idle, sound, c1, link, inService, noPage, State.takeSkim, Nat.not_le.mpr full]

theorem driveCmdsFail_none (h : x.cmds = []) : s.driveCmdsFail d = s.updDrive d fun y => { y with cmds := [] } := by
  simp [State.driveCmdsFail, known, h]

theorem driveRemoved_known : s.driveRemoved d =
    (((if x.hasPage then ((s.updDrive d fun y => { y with
      present := false, ready := false, wantsPage := false, hasPage := false, namespaces := [] }).driveCmdsFail d).giveSkim 2
      else (s.updDrive d fun y => { y with
        present := false, ready := false, wantsPage := false, hasPage := false, namespaces := [] }).driveCmdsFail d).raiseOwn 0x063 18).driveWake) := by
  simp [State.driveRemoved, known]

include cmd

theorem driveTimeout_aborts (fresh : k.abortAt = none) (due : k.issuedAt + s.fld CELLAR.CMD_TIMEOUT * 1000000 ≤ s.chrono) :
    s.driveTimeout d c = ((((s.count CELLAR.TIMEOUTS 1).raiseOwn 0x063 16).updDrive d fun x => { x with
      cmds := Table.upd x.cmds c fun y => { y with abortAt := some s.chrono } }).emit (.nvmeAbort d c)) := by
  simp [State.driveTimeout, known, cmd, fresh, Nat.not_lt.mpr due]

theorem driveAbortTimeout_resets {at_ : Nat} (aborted : k.abortAt = some at_) (due : at_ + s.fld CELLAR.CMD_TIMEOUT * 1000000 ≤ s.chrono) :
    ∃ u : State, u = (((s.count CELLAR.CTRL_RESETS 1).emit (.nvmeReset d)).updDrive d fun y => { y with
        ready := false, resets := (y.resets.filter fun r => decide (s.chrono < r + 60000000000)) ++ [s.chrono] }).driveCmdsFail d ∧
      s.driveAbortTimeout d c = if 3 ≤ ((u.drive? d).elim 0 fun y => y.resets.length) then
        ((u.updDrive d fun y => { y with failed := true }).raiseOwn 0x063 19).driveWake else u := by
  refine ⟨_, rfl, ?_⟩
  simp [State.driveAbortTimeout, known, cmd, aborted, Nat.not_lt.mpr due]

theorem driveDone_failed {status : Nat} (data : Bytes) (bad : status ≠ 0) : s.driveDone d c status data =
    (((s.updDrive d fun y => { y with cmds := Table.drop y.cmds c }).count CELLAR.IO_ERRORS 1).raiseOwn 0x063 17).driveWhyFailed k.why := by
  simp [State.driveDone, known, cmd, bad]

theorem driveDone_write {j : Nat} (data : Bytes) (why : k.why = .write j) :
    s.driveDone d c 0 data = (s.updDrive d fun y => { y with cmds := Table.drop y.cmds c }).jobSettle j := by
  simp [State.driveDone, known, cmd, State.driveOk, why]

end drive

/-- What a write of CELLAR_CTRL does to a drive by DRIVE_OOS. -/
def oosDrive (old seen : Word) (d : Nat) (x : Drive) : Drive :=
  if bitAt (bitsOf seen 15 0) d then { x with oosSeen := x.oosSeen || x.failed }
  else if bitAt (bitsOf old 15 0) d && x.failed && x.oosSeen then { x with failed := false, ready := false, resets := [], oosSeen := false }
  else x

/-- `s` with DRIVE_OOS written, before a rescan. -/
def State.oosWritten (s : State) (old seen : Word) : State :=
  (s.setFld CELLAR.DRIVE_OOS (bitsOf seen 15 0)).modTiers fun t => { t with drives := Table.each t.drives (oosDrive old seen) }

theorem cellarCtrlHook_eq (found : List Nat) (req : Requester) (page : Nat) (old seen : Word) (s : State) :
    cellarCtrlHook found req page old seen s =
      if bitAt seen.toNat 32 && s.cellarMode == 2 && s.tiers.cellarLink then (s.oosWritten old seen).switchScan found
      else s.oosWritten old seen := rfl

theorem oosWritten_drive? {s : State} (old seen : Word) {d : Nat} {x : Drive} (h : s.drive? d = some x) :
    (s.oosWritten old seen).drive? d = some (oosDrive old seen d x) :=
  (Table.find?_each _ _ _).trans (congrArg (Option.map _) h)

theorem bitAt_mod {n d w : Nat} (h : d < w) : bitAt (n % 2 ^ w) d = bitAt n d := by
  simp [bitAt_eq_testBit, h]

theorem cellarLinkUp_plain {s : State} (found : List Nat) (c1 : s.c1Up = true) (down : s.tiers.cellarLink = false) (mode : s.cellarMode ≠ 2) :
    s.cellarLinkUp found = s.modTiers fun t => { t with cellarLink := true } := by
  have mode' : (s.modTiers fun t => { t with cellarLink := true }).cellarMode ≠ 2 := mode
  simp only [State.cellarLinkUp, c1, down, Bool.not_true, Bool.or_self, Bool.false_eq_true, if_false]
  exact if_neg mode'

theorem cellarLinkUp_switch {s : State} (found : List Nat) (c1 : s.c1Up = true) (down : s.tiers.cellarLink = false) (mode : s.cellarMode = 2) :
    s.cellarLinkUp found = (s.modTiers fun t => { t with cellarLink := true }).switchScan found := by
  have mode' : (s.modTiers fun t => { t with cellarLink := true }).cellarMode = 2 := mode
  simp only [State.cellarLinkUp, c1, down, Bool.not_true, Bool.or_self, Bool.false_eq_true, if_false]
  exact if_pos mode'

/-- Settles O21: each command on the drive it names, whatever the other drives do. -/
theorem cellarDrives : Obligations.CellarDrives := by
  unfold Obligations.CellarDrives
  refine ⟨fun s u now req h unset => ?_, fun s u now mode req h set => ?_, fun s now d xfer width gen x lt known present idle sound c1 link inService noPage room => ?_,
    fun s now d xfer width gen x lt known present idle sound c1 link inService noPage full => ?_, fun s u now req found h mode link none_ => ?_,
    fun s found none_ => ?_, fun s u now mask d req x h known lt on => ?_, fun s now d c x k lt known cmd fresh due => ?_,
    fun s now d c at_ x k lt known cmd aborted due => ?_, fun s now d c status data x k lt known cmd bad => ?_,
    fun s now d c j data x k lt known cmd why => ?_, fun s now d x lt known => ?_, fun s d x known none_ => driveCmdsFail_none known none_,
    fun s now found c1 down mode => ?_, fun s now found c1 down mode => ?_⟩
  · exact ⟨_, congrArg Host.Outcome.next ((State.lands_hook cellarModeHook h (effect_writable (by decide))).trans (cellarModeHook_switch unset)),
      State.setFld_fits _ CELLAR.MODE (by decide) (by decide), rfl, congrArg Mem.drives (a₁ := u.tiers) ((State.lands_frame h).part .tiers rfl)⟩
  · exact congrArg Host.Outcome.next ((State.lands_hook cellarModeHook h (effect_writable (by decide))).trans (if_neg fun both => set both.1))
  · refine ⟨_, (if_neg (Nat.not_le.mpr lt)).trans (congrArg Host.Outcome.next (driveUp_room (s := s.at now) known present idle sound c1 link inService noPage room)),
      rfl, ?_⟩
    exact State.drive?_updDrive (s := { s.at now with tiers := { s.tiers with skimOther := s.tiers.skimOther + 2 } }) _ known
  · exact ⟨_, (if_neg (Nat.not_le.mpr lt)).trans (congrArg Host.Outcome.next
      (driveUp_waits (s := s.at now) known present idle sound c1 link inService noPage full)), State.drive?_updDrive (s := s.at now) _ known⟩
  · have old := State.lands_fld (g := CELLAR.MODE) h (by decide)
    have kept : u.tiers = s.tiers := (State.lands_frame h).part .tiers rfl
    have bit : bitAt (putBits (s.word 0 0x063 0x110) 32 32 1).toNat 32 = true := (bitAt_putBits_bit _ true 32 (by decide)).trans (if_pos rfl)
    refine ⟨u.oosWritten (s.word 0 0x063 0x110) (putBits (s.word 0 0x063 0x110) 32 32 1), congrArg Host.Outcome.next
      ((State.lands_hook (cellarCtrlHook found) h (effect_writable (by decide))).trans ((cellarCtrlHook_eq ..).trans (if_pos ?_))), ?_,
      (State.lands_frame h).part .mem rfl⟩
    · have mode' : u.cellarMode = 2 := old.trans mode
      simp [bit, mode', kept, link]
    · simp [State.oosWritten, State.modTiers, kept, none_, Table.each]
  · rw [switchScan_first found none_]
    exact driveArrives_new found none_
  · have kept : u.tiers = s.tiers := (State.lands_frame h).part .tiers rfl
    have noScan : bitAt (putBits (putBits (s.word 0 0x063 0x110) 32 32 0) 15 0 mask).toNat 32 = false := by
      rw [bitAt_toNat, getLsbD_putBits (by decide), if_neg (by decide), ← bitAt_toNat]
      exact (bitAt_putBits_bit _ false 32 (by decide)).trans (if_pos rfl)
    have value : bitsOf (putBits (putBits (s.word 0 0x063 0x110) 32 32 0) 15 0 mask) 15 0 = mask % 65536 := bitsOf_putBits_self (by decide)
    refine ⟨_, congrArg Host.Outcome.next ((State.lands_hook (cellarCtrlHook []) h (effect_writable (by decide))).trans
      ((cellarCtrlHook_eq ..).trans (if_neg (by simp [noScan])))), ?_, ?_⟩
    · exact (State.setFld_fits _ CELLAR.DRIVE_OOS (by decide) (bitsOf_lt _ _ _)).trans value
    · refine (oosWritten_drive? _ _ ((State.drive?_of_tiers kept d).trans known)).trans (congrArg some (if_pos ?_))
      rw [value]
      exact (bitAt_mod (w := 16) lt).trans on
  · have kept : (((s.at now).count CELLAR.TIMEOUTS 1).raiseOwn 0x063 16).tiers = s.tiers :=
      (State.raiseOwn_frame (Nat.or_self _) (Frame.refl _)).part .tiers rfl
    refine ⟨_, _, (if_neg (Nat.not_le.mpr lt)).trans (congrArg Host.Outcome.next (driveTimeout_aborts (s := s.at now) known cmd fresh due)), rfl,
      State.drive?_updDrive _ ((State.drive?_of_tiers kept d).trans known), ?_, (State.raiseOwn_frame (Nat.or_self _) (Frame.refl _)).part .work rfl⟩
    exact (Table.find?_upd_self _ _ _).trans (congrArg _ cmd)
  · obtain ⟨u, eq, resets⟩ := driveAbortTimeout_resets (s := s.at now) known cmd aborted due
    exact ⟨u, eq, (if_neg (Nat.not_le.mpr lt)).trans (congrArg Host.Outcome.next resets)⟩
  · exact (if_neg (Nat.not_le.mpr lt)).trans (congrArg Host.Outcome.next (driveDone_failed (s := s.at now) known cmd data bad))
  · exact (if_neg (Nat.not_le.mpr lt)).trans (congrArg Host.Outcome.next (driveDone_write (s := s.at now) known cmd data why))
  · exact ⟨_, rfl, (if_neg (Nat.not_le.mpr lt)).trans (congrArg Host.Outcome.next (driveRemoved_known (s := s.at now) known))⟩
  · exact congrArg Host.Outcome.next (cellarLinkUp_plain (s := s.at now) found c1 down mode)
  · exact congrArg Host.Outcome.next (cellarLinkUp_switch (s := s.at now) found c1 down mode)

end Sys2Proof.Machine
end

section
/-! Bias commands, accesses of the host and of adapters, translation, host reads and snoops (06). -/

namespace Sys2Proof.Machine

open Sys2Proof.Reg

/-! Bias commands (06, Coherence modes). -/

theorem biasWord_fields (region page count : Nat) {op : Nat} (h : op < 4) :
    bitsOf (biasWord op region page count) 14 12 = op ∧ bitsOf (biasWord op region page count) 9 0 = region % 1024 ∧
      bitsOf (biasWord op region page count) 57 32 = page % 2 ^ 26 ∧ bitsOf (biasWord op region page count) 22 16 = count % 128 := by
  simp only [bitsOf, biasWord, BitVec.toNat_ofNat]
  omega

/-- A bias command that no other one holds up, and that passes the checks, on its word. -/
theorem biasHook_accepted {req : Requester} {at_ : Nat} {old : Word} {s : State} {region page count op : Nat} {g : Region} (known : op = 1 ∨ op = 2 ∨ op = 3)
    (free : s.host.bias = none) (found : Table.find? s.tiers.regions (region % 1024) = some g)
    (good : s.biasResult op (region % 1024) (page % 2 ^ 26) (count % 128) = 0) :
    biasHook req at_ old (biasWord op region page count) s =
      if op = 3 then (s.setFld COHERENCE.QUERY_HOST (ofBool (g.hostPages.contains (page % 2 ^ 26)))).biasEnd 0
      else s.biasStart ⟨region % 1024, page % 2 ^ 26, count % 128, op == 1⟩ g := by
  obtain ⟨hop, hregion, hpage, hcount⟩ := biasWord_fields region page count (op := op) (by omega)
  have some_ : op ≠ 0 := by omega
  simp only [biasHook, hop, hregion, hpage, hcount, free, Option.isSome_none, Bool.false_eq_true, if_false, some_, found, good, ne_eq, not_true]

theorem biasHook_refused {req : Requester} {at_ : Nat} {old : Word} {s : State} (region page count : Nat) {op : Nat} (known : op = 1 ∨ op = 2 ∨ op = 3)
    (held : s.host.bias.isSome = true) :
    biasHook req at_ old (biasWord op region page count) s = (s.setWord 0 0x009 0x100 old).setFld COHERENCE.REFUSED 1 := by
  have some_ : op ≠ 0 := by omega
  simp [biasHook, held, (biasWord_fields region page count (op := op) (by omega)).1, some_]

/-- What the registers show when a bias command ends. -/
theorem biasEnd_shows (s : State) : (s.biasEnd 0).bit COHERENCE.DONE = true ∧ (s.biasEnd 0).fld COHERENCE.RESULT = 0 :=
  ⟨State.setFld_set_bit _ _ (by decide) (by decide), (State.setFld_apart _ _ (by decide)).trans (State.setFld_fits _ _ (by decide) (by decide))⟩

/-- BIAS_FLIP_DONE with nothing left to ask back and nothing waiting. -/
theorem execBiasFlipDone_waits {s : State} {now : Nat} {b : BiasCmd} {g : Region} (cmd : s.host.bias = some b)
    (found : Table.find? s.tiers.regions b.region = some g)
    (asked : (b.toDevice && !(s.heldLines (g.base + b.page * 4096) (b.count * 4096)).isEmpty) = true) : execBiasFlipDone now s = .next (s.at now) := by
  have cmd' : (s.at now).host.bias = some b := cmd
  have found' : Table.find? (s.at now).tiers.regions b.region = some g := found
  have asked' : (b.toDevice && !((s.at now).heldLines (g.base + b.page * 4096) (b.count * 4096)).isEmpty) = true := asked
  simp only [execBiasFlipDone, cmd', found', asked', if_true]

theorem execBiasFlipDone_ends {s : State} {now : Nat} {b : BiasCmd} {g : Region} (cmd : s.host.bias = some b)
    (found : Table.find? s.tiers.regions b.region = some g)
    (asked : (b.toDevice && !(s.heldLines (g.base + b.page * 4096) (b.count * 4096)).isEmpty) = false) (noWaits : s.host.biasWaits = []) :
    execBiasFlipDone now s = .next ((((((s.at now).modTiers fun t => { t with
      regions := Table.put t.regions b.region { g with hostPages := flipPages b g.hostPages } }).modHost fun h => { h with
      bias := none, biasWaits := [] }).count COHERENCE.BIAS_FLIPS b.count).biasEnd 0).serveHeld) := by
  have cmd' : (s.at now).host.bias = some b := cmd
  have found' : Table.find? (s.at now).tiers.regions b.region = some g := found
  have noWaits' : (s.at now).host.biasWaits = [] := noWaits
  have asked' : (b.toDevice && !((s.at now).heldLines (g.base + b.page * 4096) (b.count * 4096)).isEmpty) = false := asked
  simp only [execBiasFlipDone, cmd', found', asked', Bool.false_eq_true, if_false, noWaits', List.foldl_nil]

/-- Settles O22: BIAS_CMD's hook on the word that the command writes, and the end of a flip. -/
theorem biasCommands : Obligations.BiasCommands := by
  unfold Obligations.BiasCommands
  refine ⟨fun s u now region page count req g h free found good => ?_, fun s u now region page count req g h free found good => ?_,
    fun s u now region page req g h free found good => ?_, fun s u now region page req h held => ?_, fun s now b g cmd found asked noWaits noHeld => ?_,
    fun s now b g cmd found toDevice held => ?_⟩
  · refine ⟨_, (u.modHost fun h => { h with bias := some ⟨region % 1024, page % 2 ^ 26, count % 128, true⟩ }).setFld COHERENCE.DONE 0,
      congrArg Host.Outcome.next ((State.lands_hook biasHook h (effect_writable (by decide))).trans (biasHook_accepted (.inl rfl) free found good)), rfl,
      State.setFld_bit_self _ _ _ (by decide), rfl, rfl⟩
  · refine ⟨_, congrArg Host.Outcome.next ((State.lands_hook biasHook h (effect_writable (by decide))).trans (biasHook_accepted (.inr (.inl rfl)) free found good)),
      rfl, State.setFld_bit_self _ _ _ (by decide), (State.lands_tiers h : u.tiers = _), (congrArg HostSide.snoops (State.lands_host h) : u.host.snoops = _)⟩
  · have query := biasHook_accepted (req := req) (at_ := 0x009) (old := s.word (ownerOf req 0x009) 0x009 0x100) (count := 1) (.inr (.inr rfl)) free found good
    obtain ⟨done_, result⟩ := biasEnd_shows (u.setFld COHERENCE.QUERY_HOST (ofBool (g.hostPages.contains (page % 2 ^ 26))))
    refine ⟨_, congrArg Host.Outcome.next ((State.lands_hook biasHook h (effect_writable (by decide))).trans query), ?_, done_, result,
      (State.lands_host h : u.host = _),
      (State.lands_tiers h : u.tiers = _)⟩
    refine (State.setFld_bit_apart _ _ (by decide)).trans ((State.setFld_bit_apart _ _ (by decide)).trans ((State.setFld_bit_self _ _ _ (by decide)).trans ?_))
    cases g.hostPages.contains (page % 2 ^ 26) <;> rfl
  · exact ⟨_, congrArg Host.Outcome.next ((State.lands_hook biasHook h (effect_writable (by decide))).trans (biasHook_refused region page 1 (.inr (.inr rfl)) held)),
      State.setFld_set_bit _ _ (by decide) (by decide), (State.lands_host h : u.host = _)⟩
  · rw [show exec (.biasFlipDone now) s = execBiasFlipDone now s from rfl, execBiasFlipDone_ends cmd found asked noWaits, State.serveHeld_none]
    · obtain ⟨done_, result⟩ := biasEnd_shows ((((s.at now).modTiers fun t => { t with
        regions := Table.put t.regions b.region { g with hostPages := flipPages b g.hostPages } }).modHost fun h => { h with
        bias := none, biasWaits := [] }).count COHERENCE.BIAS_FLIPS b.count)
      exact ⟨_, rfl, rfl, done_, result, rfl, rfl⟩
    · exact noHeld
  · exact execBiasFlipDone_waits cmd found (by simp [toDevice, held])

/-! Accesses of the host and of adapters (06, Coherence modes, Peer placement). -/

section hdm

variable {s : State} {now hpa base : Nat} {g : Region} (data : Option Bytes) (poisoned : Bool) (hdm : s.host.hdm = some base)
  (released : s.power.released = true) (up : s.host.p0Up = true) (above : base ≤ hpa) (below : (hpa - base) / 64 * 64 < s.bar4Size 0)
  (hit : s.hitRegion 0 ((hpa - base) / 64 * 64) 64 = some g)

include hdm released up above below hit

/-- An access through HDM that hits a region: held, or served. -/
theorem execHostHdmAccess_hit : execHostHdmAccess now hpa data poisoned s =
    .next (if s.hdmHeld (g.base + ((hpa - base) / 64 * 64 - g.aperture)) then (s.at now).modHost fun h =>
      { h with heldAccesses := h.heldAccesses ++ [.hdm (g.base + ((hpa - base) / 64 * 64 - g.aperture)) data poisoned] }
    else (s.at now).serveHdm (g.base + ((hpa - base) / 64 * 64 - g.aperture)) data poisoned) := by
  have hdm' : (s.at now).host.hdm = some base := hdm
  have released' : (s.at now).power.released = true := released
  have up' : (s.at now).host.p0Up = true := up
  have below' : ¬(s.at now).bar4Size 0 ≤ (hpa - base) / 64 * 64 := Nat.not_le.mpr below
  have hit' : (s.at now).hitRegion 0 ((hpa - base) / 64 * 64) 64 = some g := hit
  simp only [execHostHdmAccess, hdm', released', up', Nat.not_lt.mpr above, below', hit', Bool.not_true, decide_false, Bool.or_self, Bool.false_eq_true,
    if_false]
  rfl

end hdm

theorem hitRegion_spec {s : State} {fn off len : Nat} {g : Region} (h : s.hitRegion fn off len = some g) :
    g.owner = fn ∧ g.aperture ≤ off ∧ off + len ≤ g.aperture + g.len := by
  obtain ⟨e, found, rfl⟩ := Option.map_eq_some_iff.mp h
  simpa [and_assoc] using List.find?_some found

section bar4

variable {s : State} {fn reqId off len : Nat} {data : Option Bytes} {poisoned : Bool} (some_ : len ≠ 0) (inside : off + len ≤ s.bar4Size fn)

include some_ inside

theorem bar4_misses (hit : s.hitRegion fn off len = none) : s.bar4 fn reqId off len data poisoned = s.bar4Deny fn len data.isSome := by
  simp [State.bar4, some_, Nat.not_lt.mpr inside, hit]

theorem bar4_denied {g : Region} (hit : s.hitRegion fn off len = some g) (may : s.bar4Allowed reqId g data.isSome = false) :
    s.bar4 fn reqId off len data poisoned = s.bar4Deny fn len data.isSome := by
  simp [State.bar4, some_, Nat.not_lt.mpr inside, hit, may]

theorem bar4_served {g : Region} (hit : s.hitRegion fn off len = some g) (may : s.bar4Allowed reqId g data.isSome = true)
    (free : s.stillHeld s.host.heldAccesses (.bar4 (g.base + (off - g.aperture)) len data poisoned) = false) :
    s.bar4 fn reqId off len data poisoned = s.serveBar4 (g.base + (off - g.aperture)) len data poisoned := by
  simp [State.bar4, some_, Nat.not_lt.mpr inside, hit, may, free]

end bar4

theorem execBar4Access_reaches {s : State} {fn : Nat} (now reqId off len : Nat) (data : Option Bytes) (poisoned : Bool) (lt : fn < 32)
    (reaches : s.reaches fn = true) : execBar4Access now fn reqId off len data poisoned s =
      .next ((s.at now).bar4 fn reqId off (match data with | some b => b.length | none => len) data poisoned) :=
  (if_neg (Nat.not_le.mpr lt)).trans (congrArg Host.Outcome.next (if_pos reaches))

theorem execSyncWordRead_reaches {s : State} {fn : Nat} (now reqId off len : Nat) (lt : fn < 32) (reaches : s.reaches fn = true) :
    execSyncWordRead now fn reqId off len s = .next ((s.at now).bar4 fn reqId off len none false) :=
  (if_neg (Nat.not_le.mpr lt)).trans (congrArg Host.Outcome.next (if_pos reaches))

/-- Settles O23: an access that reaches its function and hits a region is held, denied or served; one that hits none is denied. -/
theorem hostAccesses : Obligations.HostAccesses := by
  unfold Obligations.HostAccesses
  refine ⟨fun s now hpa base data poisoned g hdm released up above below hit free => ?_,
    fun s now hpa base data poisoned g hdm released up above below hit held => ?_,
    fun s now fn reqId off b poisoned g lt reaches some_ inside hit may free => ?_, fun s now fn reqId off b poisoned lt reaches some_ inside hit => ?_,
    fun s now fn reqId off len g lt reaches some_ inside hit may => ?_, fun s now fn reqId off len g lt reaches some_ inside hit may free => ?_,
    fun s fn off len g => hitRegion_spec⟩
  · refine (execHostHdmAccess_hit data poisoned hdm released up above below hit).trans ?_
    rw [free]
    rfl
  · refine ⟨_, execHostHdmAccess_hit data poisoned hdm released up above below hit, ?_⟩
    rw [held]
    exact ⟨rfl, rfl, rfl⟩
  · have len : b.length ≠ 0 := by simpa using some_
    exact (execBar4Access_reaches now reqId off b.length (some b) poisoned lt reaches).trans
      (congrArg Host.Outcome.next (bar4_served (s := s.at now) (data := some b) len inside hit may free))
  · have len : b.length ≠ 0 := by simpa using some_
    exact (execBar4Access_reaches now reqId off b.length (some b) poisoned lt reaches).trans
      (congrArg Host.Outcome.next (bar4_misses (s := s.at now) (data := some b) len inside hit))
  · refine ⟨_, (execBar4Access_reaches now reqId off len none false lt reaches).trans
      (congrArg Host.Outcome.next (bar4_denied (s := s.at now) (data := none) (Nat.ne_of_gt some_) inside hit may)), ?_⟩
    have frame : Frame _ ((s.at now).emit (.busData (zeros len) false)) ((s.at now).bar4Deny fn len false) :=
      State.accessDenied_frame (Nat.or_self _) (Frame.refl _)
    obtain ⟨os, out⟩ := frame.keeps.out
    refine ⟨frame.part .mem rfl, ?_⟩
    have out' : ((s.at now).bar4Deny fn len false).out = s.out ++ [.busData (zeros len) false] ++ os := out
    exact (congrArg (List.take _) out').trans (List.take_left' (by simp))
  · exact ⟨_, (execSyncWordRead_reaches now reqId off len lt reaches).trans
      (congrArg Host.Outcome.next (bar4_served (s := s.at now) (data := none) (Nat.ne_of_gt some_) inside hit may free)), rfl⟩

/-! Translation (06, Engines and host memory). -/

/-- A read of the host whose page is in use for a translation that has come. -/
def State.usesPage (s : State) (fn page : Nat) : Bool :=
  s.host.reads.any fun (e : Nat × HostRead) => e.2.fn == fn && e.2.touches page && !s.host.atsRequests.any fun a => a.read == e.1

theorem execAtsInvalidationComplete_eq {s : State} {now fn page : Nat} (lt : fn < 32) : execAtsInvalidationComplete now fn page s =
    .next (if s.host.invalidations.contains (fn, page) && !s.usesPage fn page then
      ((s.at now).modHost fun h => { h with invalidations := h.invalidations.filter fun e => e != (fn, page) }).emit (.atsDone fn page)
    else s.at now) :=
  if_neg (Nat.not_le.mpr lt)

theorem drop_excess {α : Type} {l : List α} {n : Nat} (h : l.length ≤ n) : l.drop (l.length - n) = l := by
  rw [Nat.sub_eq_zero_of_le h, List.drop_zero]

/-- A pump with no request left sends none. -/
theorem atsPump_none {s : State} (before : List Ats) (h : s.host.atsRequests = []) : s.atsPump before = s.count HOSTIF.ATS_REQUESTS 0 := by
  simp only [State.atsPump, h, List.take_nil, List.filter_nil, List.map_nil, List.length_nil, State.emits, List.append_nil]

section ats

variable {s : State} {now fn page : Nat} {a : Ats} {r : HostRead} (lt : fn < 32) (reaches : s.reaches fn = true)

include lt reaches

theorem execAtsTranslationDone_last (hfn : a.fn = fn) (hpage : a.page = page) (only : s.host.atsRequests = [a])
    (read : Table.find? s.host.reads a.read = some r) (room : s.host.atc.length < 8192) :
    execAtsTranslationDone now fn page true s = .next (((((s.at now).modHost fun h => { h with
      atsRequests := removeFirst a h.atsRequests, atc := (h.atc.filter fun e => e != (fn, page)) ++ [(fn, page)] }).count HOSTIF.ATS_REQUESTS 0).emit
        (.hostRead fn r.iova r.len))) := by
  have only' : (s.at now).host.atsRequests = [a] := only
  have asked : ((List.take 128 [a]).find? fun a => a.fn == fn && a.page == page) = some a := by simp [hfn, hpage]
  have read' : Table.find? (s.at now).host.reads a.read = some r := read
  have reaches' : (s.at now).reaches fn = true := reaches
  have fits : (((s.at now).host.atc.filter fun e => e != (fn, page)) ++ [(fn, page)]).length ≤ 8192 := by
    have := List.length_filter_le (fun e => e != (fn, page)) (s.at now).host.atc
    have room' : (s.at now).host.atc.length < 8192 := room
    simp only [List.length_append, List.length_singleton]
    omega
  have empty : removeFirst a (s.at now).host.atsRequests = [] := (congrArg (removeFirst a) only).trans (if_pos rfl)
  simp only [execAtsTranslationDone, Nat.not_le.mpr lt, if_false, only', asked, read', reaches', Bool.not_true, Bool.false_eq_true, if_true, drop_excess fits]
  rw [atsPump_none _ empty]
  refine congrArg Host.Outcome.next (if_neg ?_)
  have none_ : ((removeFirst a (s.at now).host.atsRequests).any fun b => b.read == a.read) ≠ true := by
    rw [empty]
    exact Bool.false_ne_true
  exact none_

theorem execAtsTranslationDone_denied (asked : ((s.host.atsRequests.take 128).find? fun a => a.fn == fn && a.page == page) = some a)
    (read : Table.find? s.host.reads a.read = some r) : execAtsTranslationDone now fn page false s =
      .next (((((s.at now).count HOSTIF.TRANSLATION_FAULTS 1).raiseOwn 0x008 16).hostFailed r 0x48).atsPump s.host.atsRequests) := by
  have asked' : (((s.at now).host.atsRequests.take 128).find? fun a => a.fn == fn && a.page == page) = some a := asked
  have read' : Table.find? (s.at now).host.reads a.read = some r := read
  have reaches' : (s.at now).reaches fn = true := reaches
  simp only [execAtsTranslationDone, Nat.not_le.mpr lt, if_false, asked', read', reaches', Bool.not_true, Bool.false_eq_true]
  rfl

end ats

/-- Settles O24: the cache of translations and the requests for them at each of the three events. -/
theorem translation : Obligations.Translation := by
  unfold Obligations.Translation
  refine ⟨fun s now fn page lt reaches => ?_, fun s now fn page lt waits unused => ?_, fun s now fn page lt used => ?_,
    fun s now fn page a r lt reaches hfn hpage only read room => ?_, fun s now fn page a r lt reaches asked read =>
      execAtsTranslationDone_denied lt reaches asked read⟩
  · refine ⟨_, (if_neg (Nat.not_le.mpr lt)).trans (congrArg Host.Outcome.next (if_neg ?_)), rfl, rfl, rfl, rfl⟩
    have reaches' : (s.at now).reaches fn = true := reaches
    simp [reaches']
  · have ends : (s.host.invalidations.contains (fn, page) && !s.usesPage fn page) = true := by
      rw [waits, State.usesPage, unused]
      rfl
    exact ⟨_, (execAtsInvalidationComplete_eq lt).trans (congrArg Host.Outcome.next (if_pos ends)), rfl, rfl, rfl⟩
  · have waits : ¬(s.host.invalidations.contains (fn, page) && !s.usesPage fn page) = true := by
      rw [State.usesPage, used]
      simp
    exact (execAtsInvalidationComplete_eq lt).trans (congrArg Host.Outcome.next (if_neg waits))
  · exact ⟨_, execAtsTranslationDone_last lt reaches hfn hpage only read room, rfl,
      (congrArg (removeFirst a) only).trans (if_pos rfl), rfl, rfl⟩

/-! Reads of the host and snoops (06, Engines and host memory, Coherence modes). -/

theorem fitTo_whole {bs : Bytes} {n : Nat} (h : bs.length = n) : fitTo bs n = bs := by
  simp [fitTo, ← h, zeros]

/-- A snoop that has been answered is outstanding no more. -/
theorem snoop?_dropped {s : State} {t : List Snoop} {line : Nat} (h : s.host.snoops = t.filter fun x => x.line != line) : s.snoop? line = none := by
  rw [State.snoop?, h, List.find?_eq_none]
  simp

theorem snoopEnded_idle {s : State} {n : Snoop} (noWhys : n.whys = []) (noHeld : s.host.heldAccesses = []) :
    s.snoopEnded n = s.modHost fun h => { h with heldAccesses := [] } := by
  rw [State.snoopEnded, noWhys]
  exact State.serveHeld_none noHeld

/-- A whole line is poisoned. -/
theorem poisonRange_line (s : State) {line : Nat} (aligned : line % 64 = 0) : line ∈ (s.poisonRange line 64).tiers.poison := by
  have one : (List.range ((line + 64 - 1) / 64 - line / 64 + 1)).map (fun i => (line / 64 + i) * 64) = [line] := by
    have lines : (line + 64 - 1) / 64 - line / 64 + 1 = 1 := by omega
    rw [lines]
    have start : (line / 64 + 0) * 64 = line := by omega
    simpa using start
  simp only [State.poisonRange, State.modTiers, one, List.mem_append, List.mem_filter, List.mem_singleton, true_and]
  by_cases mem : line ∈ s.tiers.poison
  · exact .inr mem
  · exact .inl (by simpa using mem)

theorem execHostReadComplete_sent {s : State} {now read : Nat} {r : HostRead} (status : Nat) (data : Bytes) (sent : s.sentRead? read = some r) :
    execHostReadComplete now read status data s = .next (match status with
      | 0 => ((((s.at now).modHost fun h => { h with reads := Table.drop h.reads read }).hcacheFill r.iova r.len).stage r.who .host r.iova
          (fitTo data r.len)).goOn r.who
      | 1 => (s.at now).hostFailed r 0x48
      | _ => (((s.at now).count HOSTIF.POISON_COUNT 1).raiseOwn 0x008 17).hostFailed r 0x49) := by
  have sent' : (s.at now).sentRead? read = some r := sent
  simp only [execHostReadComplete, sent'] <;> rfl

theorem execBisnpResponse_known {s : State} {now line : Nat} {n : Snoop} (dirty : Option Bytes) (known : s.snoop? line = some n) :
    execBisnpResponse now line dirty s = .next ((dirty.elim ((s.at now).modHost fun h => { h with snoops := h.snoops.filter fun x => x.line != line })
      fun b => ((s.at now).modHost fun h => { h with snoops := h.snoops.filter fun x => x.line != line }).storeBytes line (fitTo b 64)).snoopEnded n) := by
  have known' : (s.at now).snoop? line = some n := known
  simp only [execBisnpResponse, known']

theorem execBiTimeout_early {s : State} {now line : Nat} {n : Snoop} (known : s.snoop? line = some n) (early : max s.chrono now < n.sentAt + 50000000) :
    execBiTimeout now line s = .next (s.at now) := by
  have known' : (s.at now).snoop? line = some n := known
  have early' : (s.at now).chrono < n.sentAt + 50000000 := early
  simp only [execBiTimeout, known', early', if_true]

theorem execBiTimeout_alone {s : State} {now line : Nat} {n : Snoop} (known : s.snoop? line = some n) (noWhys : n.whys = [])
    (due : n.sentAt + 50000000 ≤ max s.chrono now) : execBiTimeout now line s =
      .next (((((s.at now).modHost fun h => { h with snoops := h.snoops.filter fun x => x.line != line }).raiseOwn 0x009 17).poisonRange line 64).serveHeld) := by
  have known' : (s.at now).snoop? line = some n := known
  have due' : ¬(s.at now).chrono < n.sentAt + 50000000 := Nat.not_lt.mpr due
  simp only [execBiTimeout, known', due', if_false, noWhys, List.foldl_nil]

/-- Settles O25: a read of the host by how it ends, and the snoop by its answer. -/
theorem hostReadsAndSnoops : Obligations.HostReadsAndSnoops := by
  unfold Obligations.HostReadsAndSnoops
  refine ⟨fun s now read data r sent => ⟨_, rfl, execHostReadComplete_sent 0 data sent⟩,
    fun s now read data r sent => ⟨execHostReadComplete_sent 1 data sent, execHostReadComplete_sent 2 data sent⟩, fun s now read r sent => ?_,
    fun s now line released up cxl cache => ?_, fun s now line n b known noWhys noHeld len => ?_,
    fun s now line n known => ⟨_, rfl, rfl, execBisnpResponse_known none known⟩, fun s now line n known noWhys noHeld due aligned => ?_,
    fun s now line n known early => execBiTimeout_early known early⟩
  · have sent' : (s.at now).sentRead? read = some r := sent
    change execHostTimeout now read s = _
    simp only [execHostTimeout, sent']
  · refine ⟨_, congrArg Host.Outcome.next (if_neg ?_), rfl, rfl⟩
    simp [released, up, cxl, cache]
  · refine ⟨_, (execBisnpResponse_known (some b) known).trans (congrArg Host.Outcome.next (snoopEnded_idle noWhys noHeld)),
      snoop?_dropped (t := s.host.snoops) rfl, fun i v at_ => ?_, fun a out => ?_⟩
    · obtain ⟨lt, rfl⟩ := List.getElem?_eq_some_iff.mp at_
      refine Eq.trans ?_ (Memory.read_store_inside s.mem line b i lt)
      exact congrArg (fun bs => Memory.read (Memory.store s.mem line bs) (line + i)) (fitTo_whole len)
    · refine Eq.trans ?_ (Memory.read_store_outside s.mem line b a (by omega))
      exact congrArg (fun bs => Memory.read (Memory.store s.mem line bs) a) (fitTo_whole len)
  · have frame : Frame _ ((s.at now).modHost fun h => { h with snoops := h.snoops.filter fun x => x.line != line })
      (((s.at now).modHost fun h => { h with snoops := h.snoops.filter fun x => x.line != line }).raiseOwn 0x009 17) :=
      State.raiseOwn_frame (Nat.or_self _) (Frame.refl _)
    have host := frame.part .host rfl
    refine ⟨_, (execBiTimeout_alone known noWhys due).trans (congrArg Host.Outcome.next (State.serveHeld_none ?_)), snoop?_dropped (t := s.host.snoops) ?_,
      poisonRange_line _ aligned, frame.part .mem rfl⟩
    · exact (congrArg HostSide.heldAccesses host).trans noHeld
    · exact congrArg HostSide.snoops host

end Sys2Proof.Machine
end

section
/-! The host ports, what the host configures, and the host session (06, The host link, Functions and BARs; 07). -/

namespace Sys2Proof.Machine

open Sys2Proof.Reg

/-! Links of the host ports. -/

/-- What the link-down of port 0 takes of the configuration, with the loss that falls due. -/
def State.portLost (s : State) : State := (s.port0Config.port0Reads).lossDue .linkDown

theorem portLost_host (s : State) : s.portLost.host.p0Up = s.host.p0Up ∧ s.portLost.host.session.due = some .linkDown ∧
    s.portLost.host.session.lossChrono = s.chrono ∧ s.portLost.host.session.lossTide = s.tide.now ∧ s.portLost.host.numVfs = 0 ∧
    s.portLost.host.hdm = none ∧ s.portLost.host.hcache = [] ∧ s.portLost.tiers = s.tiers ∧ s.portLost.mem = s.mem :=
  ⟨rfl, rfl, rfl, rfl, rfl, rfl, rfl, rfl, rfl⟩

/-- The link-down counted and raised, which comes before what it takes. -/
def State.linkDownRaised (s : State) : State :=
  ((s.modHost fun h => { h with p0Up := false, p0Gen := 0, p0Width := 0, flit := false, cxl := false }).count HOSTIF.LINK_DOWNS 1).raiseOwn 0x008 20

theorem linkDownRaised_frame (s : State) :
    Frame 6 (s.modHost fun h => { h with p0Up := false, p0Gen := 0, p0Width := 0, flit := false, cxl := false }) s.linkDownRaised :=
  State.raiseOwn_frame rfl (State.count_frame rfl (Frame.refl _))

theorem port0Down_up {s : State} (up : s.host.p0Up = true) : s.port0Down = s.linkDownRaised.portLost :=
  if_neg (by simp [up])

theorem State.func_put_self (s : State) {t : Table Func} (fn : Nat) (f : Func) (h : s.host.fns = Table.put t fn f) : s.func fn = f := by
  rw [State.func, h, Table.findD_put_self]

theorem State.func_put_other (s : State) {t : Table Func} {fn k : Nat} (f : Func) (h : s.host.fns = Table.put t fn f) (ne : k ≠ fn) :
    s.func k = Table.findD t k {} := by
  rw [State.func, h, Table.findD_put_other _ _ _ ne.symm]

/-- The functions after a configuration write that keeps the other fields. -/
def State.configured (s : State) (w : ConfigWrite) : State :=
  s.modHost fun h => { h with
    fns := Table.put h.fns w.fn { s.func w.fn with
      busMaster := w.busMaster, ats := w.ats, d3hot := w.d3hot, bar4 := bar4Choice w.bar4 (s.func w.fn).bar4 }
    atc := if w.ats then h.atc else h.atc.filter fun e => e.1 != w.fn }

theorem execConfigurationWrite_virtual {s : State} {w : ConfigWrite} (now : Nat) (lt : w.fn < 32) (virtual_ : w.fn ≠ 0) (reaches : s.reaches w.fn = true) :
    execConfigurationWrite now w s = .next ((s.at now).configured w).fnChanged := by
  have reaches' : (s.at now).reaches w.fn = true := reaches
  simp only [execConfigurationWrite, Nat.not_le.mpr lt, if_false, reaches', Bool.not_true, Bool.false_eq_true, virtual_]
  rfl

theorem execMsixTableWrite_mask {s : State} {fn : Nat} (now : Nat) (m : Bool) (lt : fn < 32) (reaches : s.reaches fn = true) :
    execMsixTableWrite now fn (.functionMask m) s =
      .next (((s.at now).modHost fun h => { h with fns := Table.put h.fns fn { s.func fn with masked := m } }).fnChanged) := by
  have reaches' : (s.at now).reaches fn = true := reaches
  simp only [execMsixTableWrite, Nat.not_le.mpr lt, if_false, reaches', Bool.not_true, Bool.false_eq_true]
  rfl

theorem execMsixTableWrite_entry {s : State} {fn v : Nat} (now addr data : Nat) (m : Bool) (lt : fn < 32) (reaches : s.reaches fn = true)
    (has : v < if fn = 0 then 2048 else 64) : execMsixTableWrite now fn (.entry v addr data m) s =
      .next (((s.at now).modHost fun h => { h with
        fns := Table.put h.fns fn { s.func fn with vectors := Table.put (s.func fn).vectors v { addr := addr, data := data, masked := m } } }).fnChanged) := by
  have reaches' : (s.at now).reaches fn = true := reaches
  simp only [execMsixTableWrite, Nat.not_le.mpr lt, if_false, reaches', Bool.not_true, Bool.false_eq_true, Nat.not_le.mpr has]
  rfl

/-- Settles O26: the links' downs and ups, and the functions' table after a write of the host. -/
theorem hostLinks : Obligations.HostLinks := by
  unfold Obligations.HostLinks
  refine ⟨fun s now up => ?_, fun s now gen width flit cxl down released perst good => ?_, fun s now up => ?_,
    fun s now gen width down released x8 perst good => ?_, fun s now w lt virtual_ reaches => ?_, fun s now fn m lt reaches => ?_,
    fun s now fn v addr data m lt reaches has => ?_, fun s now base released up cxl => ?_⟩
  · have frame := linkDownRaised_frame (s.at now)
    obtain ⟨p0, due, chrono, tide, vfs, hdm, hcache, tiers, mem⟩ := portLost_host (s.at now).linkDownRaised
    exact ⟨_, congrArg Host.Outcome.next (port0Down_up (s := s.at now) up), p0.trans (congrArg HostSide.p0Up (frame.part .host rfl)), due,
      chrono.trans (frame.part .chrono rfl), tide.trans (congrArg Tide.now (frame.part .tide rfl)), vfs, hdm, hcache, tiers.trans (frame.part .tiers rfl),
      mem.trans (frame.part .mem rfl)⟩
  · have good' : (s.at now).good 1 = true := good
    refine congrArg Host.Outcome.next (if_neg ?_)
    simp [down, released, perst, good']
  · refine congrArg Host.Outcome.next (if_neg ?_)
    simp [up]
  · have good' : (s.at now).good 1 = true := good
    have x8' : (s.at now).x8x8 = true := x8
    refine congrArg Host.Outcome.next (if_neg ?_)
    simp [down, released, x8', perst, good']
  · exact ⟨_, execConfigurationWrite_virtual now lt virtual_ reaches, State.func_put_self _ _ _ rfl,
      fun f ne => State.func_put_other _ _ rfl ne, rfl⟩
  · exact ⟨_, execMsixTableWrite_mask now m lt reaches, State.func_put_self _ _ _ rfl⟩
  · refine ⟨_, execMsixTableWrite_entry now addr data m lt reaches has, ?_⟩
    rw [State.func_put_self _ _ _ rfl]
    exact Table.find?_put_self _ _ _
  · refine congrArg Host.Outcome.next (if_pos ?_)
    simp [released, up, cxl]

/-! The host session (07). -/

/-- An evaluation of a watermark leaves every register but the two that it sets. -/
theorem State.noticeEval_fld (s : State) (id level mark hyst : Nat) {crossed count g : Field} (page : Nat) (hc : fieldApart crossed g = true)
    (hn : fieldApart count g = true) : (s.noticeEval id level mark hyst 0 crossed count page).fld g = s.fld g := by
  unfold State.noticeEval
  dsimp only
  split
  · rw [State.fld_of_regs (State.irqEvent_regs _ _ _)]
    exact (State.setFld_apart _ _ hn).trans (State.setFld_apart _ _ hc)
  · rfl

theorem heartbeatHook_word (req : Requester) (old v : Word) (s : State) : (heartbeatHook req 0x00A old v s).word 0 0x00A 0x100 = v := by
  unfold heartbeatHook
  dsimp only
  split
  · exact State.setWord_word_self _ _ _ _ _
  · exact State.setWord_word_self _ _ _ _ _

theorem heartbeatExpire_due {s : State} {armed : Nat} (monitor : s.host.session.armedAt = some armed) (quiet : s.host.session.due = none)
    (late : max armed s.host.session.lastBeatAt + s.fld ATTACH.HB_SPAN * 1000000 ≤ s.chrono) : s.heartbeatExpire = s.lossDue .heartbeat := by
  simp only [State.heartbeatExpire, monitor, quiet]
  exact if_pos late

theorem heartbeatExpire_early {s : State} {armed : Nat} (monitor : s.host.session.armedAt = some armed)
    (early : s.chrono < max armed s.host.session.lastBeatAt + s.fld ATTACH.HB_SPAN * 1000000) : s.heartbeatExpire = s := by
  simp only [State.heartbeatExpire, monitor]
  split
  next a heq _ =>
    cases heq
    exact if_neg (Nat.not_le.mpr early)
  next => rfl

/-- Nothing of the rings waits where no descriptor is held. -/
theorem ringSettle_idle {s : State} (h : s.work.descs = []) : s.ringSettle = s := by
  rw [State.ringSettle, h]
  rfl

/-- The loss as it is counted, raised and shown. -/
def State.lossRaised (s : State) (c : LossCause) : State :=
  let s1 := (s.count ATTACH.LOSSES 1).raiseOwn 0x00A 16
  let s2 := if (s.word 0 0x00A 0x020 ||| s.word 0 0x00A 0x028).getLsbD 16 then s1.irqEvent 0 0x00A else s1
  ((s2.setFld ATTACH.STATE 2).setFld ATTACH.LOSS_CAUSE (match c with | .heartbeat => 1 | .linkDown => 2)).setFld ATTACH.AUTH_OK 0

/-- The loss as it is stored before anything that waited is resumed. -/
def State.lossShown (s : State) (c : LossCause) : State :=
  (s.lossRaised c).modSession fun x => { x with due := none, armedAt := none, held := [] }

theorem lossRaised_frame (s : State) (c : LossCause) : Frame 6 s (s.lossRaised c) := by
  unfold State.lossRaised
  refine State.setFld_frame rfl (State.setFld_frame rfl (State.setFld_frame rfl ?_))
  split
  · exact State.irqEvent_frame rfl (State.raiseOwn_frame rfl (State.count_frame rfl (Frame.refl s)))
  · exact State.raiseOwn_frame rfl (State.count_frame rfl (Frame.refl s))

theorem lossShown_fields (s : State) (c : LossCause) : (s.lossShown c).fld ATTACH.STATE = 2 ∧
    (s.lossShown c).fld ATTACH.LOSS_CAUSE = (match c with | .heartbeat => 1 | .linkDown => 2) ∧ (s.lossShown c).fld ATTACH.AUTH_OK = 0 ∧
    (s.lossShown c).host.session.due = none ∧ (s.lossShown c).host.session.armedAt = none := by
  refine ⟨?_, ?_, State.setFld_fits _ _ (by decide) (by decide), rfl, rfl⟩
  · exact (State.setFld_apart _ _ (by decide)).trans ((State.setFld_apart _ _ (by decide)).trans (State.setFld_fits _ _ (by decide) (by decide)))
  · refine (State.setFld_apart _ _ (by decide)).trans (State.setFld_fits _ _ (by decide) ?_)
    cases c <;> decide

theorem lossShown_reads (s : State) (c : LossCause) : (s.lossShown c).host.reads = s.host.reads :=
  (rfl : _ = (s.lossRaised c).host.reads).trans (congrArg HostSide.reads ((lossRaised_frame s c).part .host rfl))

/-- What port 0 owed, no longer awaited. -/
def State.lossDropped (s : State) : State :=
  s.modHost fun h => { h with reads := h.reads.filter fun e => !s.onPort0 e.2.fn, atsRequests := h.atsRequests.filter fun a => !s.onPort0 a.fn }

theorem declareLoss_due {s : State} {c : LossCause} (due : s.host.session.due = some c) : s.declareLoss =
    s.host.session.held.foldl (fun (s : State) (h : HeldWrite) => s.regWrite h.by_ 0x00A h.off h.value (attachHook h.off))
      ((s.lossShown c).lossReaders.foldl (fun s w => s.resume w) (s.lossShown c).lossDropped).ringSettle := by
  simp only [State.declareLoss, due]
  rfl

/-- A declaration that finds no read, no held write and no work. -/
theorem declareLoss_alone {s : State} {c : LossCause} (due : s.host.session.due = some c) (held : s.host.session.held = []) (reads : s.host.reads = [])
    (idle : s.work = {}) : s.declareLoss = (s.lossShown c).lossDropped := by
  have work : (s.lossShown c).lossDropped.work = {} := ((lossRaised_frame s c).part .work rfl).trans idle
  have noReaders : (s.lossShown c).lossReaders = [] := by
    rw [State.lossReaders, lossShown_reads, reads]
    rfl
  rw [declareLoss_due due, held, noReaders]
  exact ringSettle_idle (congrArg Work.descs work)

theorem claimSession_refused {s : State} (req : Requester) (bad : s.claimResult ≠ 0) :
    s.claimSession req = (s.setFld ATTACH.RESULT s.claimResult).raise 0 0x00A 19 (sourceOf req) 0x138 0x00A :=
  if_pos bad

/-- A discard of parked records with no descriptor of an older session: the session is over. -/
theorem discardPark_last {s : State} (state : s.session = 3) (none_ : s.work.descs = []) :
    s.discardPark.host.session.park = [] ∧ s.discardPark.session = 1 := by
  have frame : Frame (14 + 512) ((s.modSession fun x => { x with park := [] })) (s.setPark []) :=
    State.noticeEval_frame rfl (State.modTiers_frame rfl (Frame.refl _))
  have park : (s.setPark []).host.session.park = [] := congrArg (·.session.park) (frame.part .host rfl)
  have still : (s.setPark []).session = 3 := (State.noticeEval_fld _ _ _ _ _ _ (by decide) (by decide)).trans state
  have over_ : (s.setPark []).pairsLeft = false := by
    have work : (s.setPark []).work = s.work := frame.part .work rfl
    simp [State.pairsLeft, park, work, none_]
  have ends : s.discardPark = (s.setPark []).setFld ATTACH.STATE 1 := by
    rw [State.discardPark, if_pos state, State.sessionSettle, still, over_]
    rfl
  rw [ends]
  exact ⟨park, State.setFld_fits _ _ (by decide) (by decide)⟩

/-- Settles O27: the session's marks at each event; a claim that is refused shows its result only. -/
theorem hostLossSession : Obligations.HostLossSession := by
  unfold Obligations.HostLossSession
  refine ⟨fun s u now v h => ?_, fun s u now v h => ?_, fun s now armed monitor quiet late => ?_, fun s now armed monitor early => ?_,
    fun s now c due held reads idle => ?_, fun s u now req h => ?_, fun s req bad fits => ?_, fun s u now req h state none_ => ?_,
    fun s u now req h state => ?_, fun s u now req h => ?_⟩
  · refine ⟨_, congrArg Host.Outcome.next (State.lands_hook heartbeatHook h (effect_writable (by decide))), heartbeatHook_word _ _ _ _, rfl, ?_⟩
    exact (State.lands_only h).part .chrono rfl
  · exact ⟨_, congrArg Host.Outcome.next (State.lands_hook heartbeatHook h (effect_writable (by decide))), heartbeatHook_word _ _ _ _,
      congrArg HostSide.session (State.lands_host h : u.host = _)⟩
  · exact ⟨_, congrArg Host.Outcome.next (heartbeatExpire_due (s := s.at now) monitor quiet late), rfl, rfl, rfl, rfl⟩
  · exact congrArg Host.Outcome.next (heartbeatExpire_early (s := s.at now) monitor early)
  · obtain ⟨state, cause, auth, noDue, disarmed⟩ := lossShown_fields (s.at now) c
    exact ⟨_, congrArg Host.Outcome.next (declareLoss_alone (s := s.at now) due held reads idle), state, cause, auth, noDue, disarmed,
      (lossRaised_frame (s.at now) c).part .mem rfl⟩
  · exact congrArg Host.Outcome.next (State.lands_hook attachCtrlHook h (effect_writable (by decide)))
  · have frame : Frame 6 (s.setFld ATTACH.RESULT s.claimResult) (s.claimSession req) := by
      rw [claimSession_refused req bad]
      exact State.raise_frame rfl (Frame.refl _)
    refine ⟨_, rfl, ?_, ?_, frame.part .host rfl, frame.part .work rfl⟩
    · rw [claimSession_refused req bad, State.raise_fld _ _ _ _ _ _ (by decide) (by decide) (by decide) (by decide)]
      exact State.setFld_fits _ _ (by decide) fits
    · rw [claimSession_refused req bad, State.raise_fld _ _ _ _ _ _ (by decide) (by decide) (by decide) (by decide)]
      exact State.setFld_apart _ _ (by decide)
  · exact ⟨_, congrArg Host.Outcome.next (State.lands_hook attachCtrlHook h (effect_writable (by decide))), discardPark_last state none_⟩
  · refine congrArg Host.Outcome.next ((State.lands_hook attachCtrlHook h (effect_writable (by decide))).trans ?_)
    exact if_neg state
  · exact congrArg Host.Outcome.next (State.lands_hook attachCtrlHook h (effect_writable (by decide)))

end Sys2Proof.Machine
end

section
/-! Rings, descriptors, jobs and slices (08). -/

namespace Sys2Proof.Machine

open Sys2Proof.Reg

/-! Rings read after they are changed. -/

theorem State.sq_setSq (s : State) (fn ring : Nat) (q : Sq) : (s.setSq fn ring q).sq fn ring = q := Table.findD_put_self _ _ _ _

theorem State.sq_at (s : State) (now fn ring : Nat) : (s.at now).sq fn ring = s.sq fn ring := rfl

theorem State.cq_at (s : State) (now fn ring : Nat) : (s.at now).cq fn ring = s.cq fn ring := rfl

/-! Doorbells and fetching (08, Rings). -/

theorem not_noSuchRing {fn ring : Nat} (hf : fn < 32) (hr : ring < 64) : ¬(32 ≤ fn ∨ 64 ≤ ring) := by omega

/-- The requester's earlier writes that lie in the function's ring storage area have landed. -/
def State.ringStores (s : State) (fn : Nat) (stores : List (Nat × Bytes)) : State :=
  (stores.filter fun e => decide (0x100000 ≤ e.1) && decide (e.1 + e.2.length ≤ 0x10000000)).foldl (fun s e => s.storeRing fn e.1 e.2) s

theorem execSqDoorbell_answered {s : State} {fn ring : Nat} (now v : Nat) (narrow : Bool) (stores : List (Nat × Bytes)) (hf : fn < 32) (hr : ring < 64)
    (bar : s.bar2 fn ring = true) : execSqDoorbell now fn ring v narrow stores s = .next (if narrow then
      ((s.at now).ringStores fn stores).narrowDoorbell fn (0x40 * ring) else ((s.at now).ringStores fn stores).sqDoorbell fn ring v) := by
  have bar' : (s.at now).bar2 fn ring = true := bar
  simp only [execSqDoorbell, not_noSuchRing hf hr, if_false, bar', Bool.not_true, Bool.false_eq_true]
  rfl

theorem execCqHeadDoorbell_narrow {s : State} {fn ring : Nat} (now v : Nat) (hf : fn < 32) (hr : ring < 64) (bar : s.bar2 fn ring = true) :
    execCqHeadDoorbell now fn ring v true s = .next ((s.at now).narrowDoorbell fn (0x1000 + 0x40 * ring)) := by
  have bar' : (s.at now).bar2 fn ring = true := bar
  simp only [execCqHeadDoorbell, not_noSuchRing hf hr, if_false, bar', Bool.not_true, Bool.false_eq_true, if_true]

theorem sqDoorbell_taken {s : State} {fn ring v : Nat} (enabled : (s.sq fn ring).enabled = true) (inside : v < s.sqDepth fn ring)
    (free : (v + s.sqDepth fn ring - (s.sq fn ring).tail) % s.sqDepth fn ring ≤
      ((s.sq fn ring).head + 2 * s.sqDepth fn ring - 1 - (s.sq fn ring).tail) % s.sqDepth fn ring) :
    s.sqDoorbell fn ring v = s.setSq fn ring { s.sq fn ring with tail := v } := by
  simp [State.sqDoorbell, enabled, inside, free]

theorem sqDoorbell_outside {s : State} {fn ring v : Nat} (outside : s.sqDepth fn ring ≤ v) :
    s.sqDoorbell fn ring v = s.raise fn (ringPage ring) 17 fn 0 (ringPage ring) := by
  simp [State.sqDoorbell, Nat.not_lt.mpr outside]

theorem narrowDoorbell_frame (s : State) (fn off : Nat) : Frame 6 s (s.narrowDoorbell fn off) :=
  State.raise_frame rfl (State.count_frame rfl (Frame.refl s))

/-- The read of a ring's next descriptor where none is read again: it is the one at HEAD, in the host's memory. -/
theorem fetchDesc_head {s : State} {fn ring : Nat} (turn : s.turnRing = some (ringKey fn ring)) (fresh : s.staleDesc fn ring = none)
    (host : s.ringFld fn ring RING.SQ_BASE_LOC ≠ 1) : s.fetchDesc fn ring =
      ((s.setSq fn ring { s.sq fn ring with reading := true, again := none }).modWork fun w => { w with lastRing := ringKey fn ring }).emit
        (.hostRead fn (s.ringFld fn ring RING.SQ_BASE_ADDR + 64 * (s.sq fn ring).head) 64) := by
  simp [State.fetchDesc, turn, fresh, host]

theorem fetchDone_taken {s : State} {fn ring : Nat} (bytes : Bytes) (reading : (s.sq fn ring).reading = true) (enabled : (s.sq fn ring).enabled = true)
    (fresh : (s.sq fn ring).again = none) (host : s.ringFld fn ring RING.SQ_BASE_LOC ≠ 1) :
    s.fetchDone fn ring bytes true = s.takeDesc fn ring (fitTo bytes 64) := by
  simp [State.fetchDone, reading, enabled, fresh, host]

theorem execDescFetchDone_eq {fn ring : Nat} (s : State) (now : Nat) (bytes : Bytes) (status : Nat) (hf : fn < 32) (hr : ring < 64) :
    execDescFetchDone now fn ring bytes status s = .next (if !(s.sq fn ring).reading then s.at now
      else if status = 0 then (s.at now).fetchDone fn ring bytes true else ((s.at now).fetchFlaw fn ring status).fetchDone fn ring bytes false) :=
  if_neg (not_noSuchRing hf hr)

/-- Settles O28: a doorbell by its value, the fetch of the descriptor at HEAD, and the read that comes back. -/
theorem ringDoorbells : Obligations.RingDoorbells := by
  unfold Obligations.RingDoorbells
  refine ⟨fun s now fn ring v hf hr bar enabled inside free => ?_, fun s now fn ring v a bs hf hr bar enabled outside lo hi => ?_,
    fun s now fn ring v hf hr bar => ⟨execSqDoorbell_answered now v true [] hf hr bar, execCqHeadDoorbell_narrow now v hf hr bar⟩,
    fun s fn off => ?_, fun s now fn ring hf hr released turn fresh host => ?_, fun s now fn ring bytes hf hr reading enabled fresh host => ?_,
    fun s now fn ring st bytes hf hr reading bad => ?_, fun s now fn ring bytes hf hr idle => ?_⟩
  · exact ⟨_, (execSqDoorbell_answered now v false [] hf hr bar).trans (congrArg Host.Outcome.next (sqDoorbell_taken (s := s.at now) enabled inside free)),
      State.sq_setSq _ _ _ _, rfl, rfl⟩
  · refine (execSqDoorbell_answered now v false [(a, bs)] hf hr bar).trans ?_
    have stored : (s.at now).ringStores fn [(a, bs)] = (s.at now).storeRing fn a bs := by simp [State.ringStores, lo, hi]
    rw [stored]
    exact congrArg Host.Outcome.next (sqDoorbell_outside (s := (s.at now).storeRing fn a bs) outside)
  · have frame := narrowDoorbell_frame s fn off
    exact ⟨_, rfl, frame.part .work rfl, frame.part .host rfl, frame.part .mem rfl⟩
  · refine ⟨_, (if_neg (not_noSuchRing hf hr)).trans (congrArg Host.Outcome.next ((if_pos released).trans (fetchDesc_head turn fresh host))),
      State.sq_setSq _ _ _ _, rfl, rfl⟩
  · rw [show exec (.descFetchDone now fn ring bytes 0) s = _ from execDescFetchDone_eq s now bytes 0 hf hr, reading]
    exact congrArg Host.Outcome.next (fetchDone_taken (s := s.at now) bytes reading enabled fresh host)
  · rw [show exec (.descFetchDone now fn ring bytes st) s = _ from execDescFetchDone_eq s now bytes st hf hr, reading]
    exact congrArg Host.Outcome.next (if_neg bad)
  · rw [show exec (.descFetchDone now fn ring bytes 0) s = _ from execDescFetchDone_eq s now bytes 0 hf hr, idle]
    rfl

/-! Descriptors start (08, Descriptors). -/

theorem startDesc_starts {s : State} {id : Nat} {d : Desc} (f : State → Desc → State) (found : s.desc? id = some d) (good : d.bad = 0)
    (may : s.mayStart id d = true) {typ : Nat} (is : dType d.raw = typ) :
    s.startDesc id typ f = f (s.updDesc id fun x => { x with state := .started, startedAt := s.chrono }) d := by
  simp [State.startDesc, found, good, may, is]

theorem startDesc_waits {s : State} {id : Nat} {d : Desc} (typ : Nat) (f : State → Desc → State) (found : s.desc? id = some d)
    (not : s.mayStart id d = false) : s.startDesc id typ f = s := by
  simp [State.startDesc, found, not]

theorem execWaitTideTimeout_known {s : State} {id : Nat} {d : Desc} (now : Nat) (found : s.desc? id = some d) : execWaitTideTimeout now id s =
    .next (if decide (d.state = .started) && dType d.raw == 3 && leAt d.raw 16 4 != 0 &&
        decide ((tickAfter d.startedAt + leAt d.raw 16 4) * 10000 ≤ max s.chrono now) then (s.at now).endDesc id 3 0xFFFF 0 false else s.at now) := by
  have found' : (s.at now).desc? id = some d := found
  simp only [execWaitTideTimeout, found']
  rfl

/-- Settles O29: a descriptor that may start does, and then acts by its type. -/
theorem descriptorsStart : Obligations.DescriptorsStart := by
  unfold Obligations.DescriptorsStart
  refine ⟨fun s now id d found good may => ⟨_, rfl, fun is => ?_, fun is => ?_, fun is => ?_, fun is => ?_, fun is paired whole => ?_,
    fun is alone => ?_, fun is aligned => ?_, fun is bad => ?_, fun is => ?_⟩, fun s now id d found not => ?_,
    fun s now id d found started is some_ due => ?_, fun s now id d found none_ => ?_⟩
  · exact congrArg Host.Outcome.next (startDesc_starts (s := s.at now) _ found good may is)
  · exact congrArg Host.Outcome.next (startDesc_starts (s := s.at now) _ found good may is)
  · exact congrArg Host.Outcome.next (startDesc_starts (s := s.at now) _ found good may is)
  · exact congrArg Host.Outcome.next (startDesc_starts (s := s.at now) _ found good may is)
  · refine congrArg Host.Outcome.next ((startDesc_starts (s := s.at now) _ found good may is).trans (if_pos ?_))
    exact Bool.and_eq_true_iff.mpr ⟨paired, congrArg (!·) whole⟩
  · refine congrArg Host.Outcome.next ((startDesc_starts (s := s.at now) _ found good may is).trans (if_neg ?_))
    exact fun h => Bool.false_ne_true (alone.symm.trans (Bool.and_eq_true_iff.mp h).1)
  · exact congrArg Host.Outcome.next ((startDesc_starts (s := s.at now) _ found good may is).trans (if_neg (not_not_intro aligned)))
  · exact congrArg Host.Outcome.next ((startDesc_starts (s := s.at now) _ found good may is).trans (if_pos bad))
  · exact congrArg Host.Outcome.next (startDesc_starts (s := s.at now) _ found good may is)
  · exact congrArg Host.Outcome.next (startDesc_waits (s := s.at now) _ _ found not)
  · refine (execWaitTideTimeout_known now found).trans (congrArg Host.Outcome.next (if_pos ?_))
    simp [started, is, some_, due]
  · refine (execWaitTideTimeout_known now found).trans (congrArg Host.Outcome.next (if_neg ?_))
    simp [none_]

/-! Jobs and slices end (08, Slices, Completions). -/

theorem jobComplete_failed {s : State} {j : Nat} {job : Job} (found : s.job? j = some job) (unwritten : job.written = false) (idle : s.jobBusy j = false)
    (failed : job.status ≠ 0) : s.jobComplete j = s.jobFailed j job := by
  simp [State.jobComplete, found, unwritten, idle, failed]

theorem jobComplete_commits {s u : State} {j : Nat} {job y : Job} (found : s.job? j = some job) (unwritten : job.written = false)
    (idle : s.jobBusy j = false) (good : job.status = 0) (ended : job.allEnded = true) (none_ : job.ready = []) (commits : s.commitAll j job = .ok u)
    (found' : u.job? j = some y) (room : y.parkFull = false) :
    s.jobComplete j = (((u.drainCommit y).intakeRows y).updJob j fun x => { x with written := true }).jobSettle j := by
  simp [State.jobComplete, found, unwritten, idle, good, ended, none_, commits, found', room]

theorem jobComplete_unended {s : State} {j : Nat} {job : Job} (found : s.job? j = some job) (good : job.status = 0) (unended : job.allEnded = false) :
    s.jobComplete j = s := by
  simp [State.jobComplete, found, good, unended]

theorem sliceEnd_done {s : State} {id : Nat} {x : Slice} (keep : Nat) (found : s.slice? id = some x) (ran : x.ran = true) (none_ : x.left = 0) :
    s.sliceEnd id keep = s.sliceDone id keep := by
  simp [State.sliceEnd, found, ran, none_]

theorem sliceEnd_left {s : State} {id : Nat} {x : Slice} (keep : Nat) (found : s.slice? id = some x) (some_ : x.left ≠ 0) :
    s.sliceEnd id keep = s := by
  simp [State.sliceEnd, found, some_]

theorem sliceBound_splits {s : State} {id : Nat} {x : Slice} (keep : Nat) (found : s.slice? id = some x) (ran : x.ran = true) (some_ : x.left ≠ 0) :
    s.sliceBound id keep = (match (s.sliceCtx id).bind fun c => splitsField c.st.cls with
      | some f => s.count (f.on x.page) 1
      | none => s).sliceDone id keep := by
  simp only [State.sliceBound, found, ran, some_, ne_eq, not_false_eq_true, and_self, if_true] <;> rfl

/-- Settles O30: the end of a job by its status, the end of a slice by the work that is left. -/
theorem jobsAndSlicesEnd : Obligations.JobsAndSlicesEnd := by
  unfold Obligations.JobsAndSlicesEnd
  exact ⟨fun s now j job found unwritten idle failed => congrArg Host.Outcome.next (jobComplete_failed (s := s.at now) found unwritten idle failed),
    fun s u now j job y found unwritten idle good ended none_ commits found' room =>
      congrArg Host.Outcome.next (jobComplete_commits (s := s.at now) found unwritten idle good ended none_ commits found' room),
    fun s now j job found _ good unended => congrArg Host.Outcome.next (jobComplete_unended (s := s.at now) found good unended),
    fun s now id keep x found ran none_ => congrArg Host.Outcome.next (sliceEnd_done (s := s.at now) keep found ran none_),
    fun s now id keep x found _ some_ => congrArg Host.Outcome.next (sliceEnd_left (s := s.at now) keep found some_),
    fun s now id keep x found ran some_ => congrArg Host.Outcome.next (sliceBound_splits (s := s.at now) keep found ran some_)⟩

/-! Ring control (08, Enabling and disabling rings). -/

theorem ownerOf_ringPage {ring : Nat} (req : Requester) (h : ring < 64) : ownerOf req (ringPage ring) = viewOf req := by
  have block : ∀ r < 64, firstPage (ringPage r) = 0x10 := by decide +kernel
  exact if_pos (block ring h)

theorem ringOf_ringPage (ring : Nat) : ringOf (ringPage ring) = ring := Nat.add_sub_cancel_left _ _

/-- SQ_CTRL and CQ_CTRL have a field that software may write. -/
theorem ringCtrl_writable : ∀ ring < 64, (fieldsAt (ringPage ring) 0x110).all (fun f => f.acc = .ro) = false ∧
    (fieldsAt (ringPage ring) 0x130).all (fun f => f.acc = .ro) = false := by decide +kernel

theorem State.lands_sqCtrl {s u : State} {now ring : Nat} {req : Requester} {v : Word} (hr : ring < 64) (h : s.lands now req (ringPage ring) 0x110 v u) :
    (s.at now).regWrite req (ringPage ring) 0x110 v sqCtrlHook =
      sqCtrlHook req (ringPage ring) (s.word (viewOf req) (ringPage ring) 0x110) v u := by
  rw [State.lands_hook sqCtrlHook h (ringCtrl_writable ring hr).1, ownerOf_ringPage req hr]

theorem State.lands_cqCtrl {s u : State} {now ring : Nat} {req : Requester} {v : Word} (hr : ring < 64) (h : s.lands now req (ringPage ring) 0x130 v u) :
    (s.at now).regWrite req (ringPage ring) 0x130 v cqCtrlHook =
      cqCtrlHook req (ringPage ring) (s.word (viewOf req) (ringPage ring) 0x130) v u := by
  rw [State.lands_hook cqCtrlHook h (ringCtrl_writable ring hr).2, ownerOf_ringPage req hr]

section hooks

variable {u : State} {ring : Nat} {req : Requester} {old : Word} (hr : ring < 64)

include hr

theorem sqCtrlHook_starts (off : (u.sq (viewOf req) ring).enabled = false) (ok : u.sqOk (viewOf req) ring = true) :
    sqCtrlHook req (ringPage ring) old 1#64 u = (u.sqStart (viewOf req) ring).ringSettle := by
  simp [sqCtrlHook, ownerOf_ringPage req hr, ringOf_ringPage, off, ok, bitAt]

theorem sqCtrlHook_refuses (off : (u.sq (viewOf req) ring).enabled = false) (bad : u.sqOk (viewOf req) ring = false) :
    sqCtrlHook req (ringPage ring) old 1#64 u = (u.raiseBy req (ringPage ring) 18 0x110).ringSettle := by
  simp [sqCtrlHook, ownerOf_ringPage req hr, ringOf_ringPage, off, bad, bitAt]

theorem sqCtrlHook_stops (on : (u.sq (viewOf req) ring).enabled = true) :
    sqCtrlHook req (ringPage ring) old 0#64 u = (u.sqStop (viewOf req) ring).ringSettle := by
  simp [sqCtrlHook, ownerOf_ringPage req hr, ringOf_ringPage, on, bitAt]

theorem sqCtrlHook_retries {w : Word} (on : (u.sq (viewOf req) ring).enabled = true) (enable : bitAt w.toNat 0 = true) :
    sqCtrlHook req (ringPage ring) old (putBits w 1 1 1) u =
      (u.setSq (viewOf req) ring { u.sq (viewOf req) ring with faulted := false }).ringSettle := by
  have bit0 : bitAt (putBits w 1 1 1).toNat 0 = true := (bitAt_putBits_bit w true 0 (by decide)).trans ((if_neg (by decide)).trans enable)
  have bit1 : bitAt (putBits w 1 1 1).toNat 1 = true := (bitAt_putBits_bit w true 1 (by decide)).trans (if_pos rfl)
  simp [sqCtrlHook, ownerOf_ringPage req hr, ringOf_ringPage, on, bit0, bit1]

theorem cqCtrlHook_starts (off : (u.cq (viewOf req) ring).enabled = false) (ok : u.cqOk (viewOf req) ring = true) :
    cqCtrlHook req (ringPage ring) old 1#64 u = u.cqStart (viewOf req) ring := by
  simp [cqCtrlHook, ownerOf_ringPage req hr, ringOf_ringPage, off, ok, bitAt]

theorem cqCtrlHook_stops (on : (u.cq (viewOf req) ring).enabled = true) : cqCtrlHook req (ringPage ring) old 0#64 u =
    if u.cqNamed (viewOf req) ring then u.raiseBy req (ringPage ring) 18 0x130 else u.cqStop (viewOf req) ring := by
  simp [cqCtrlHook, ownerOf_ringPage req hr, ringOf_ringPage, on, bitAt]

end hooks

/-- A submission ring as it is enabled. -/
def State.sqFresh (s : State) (fn ring : Nat) : Sq :=
  { enabled := true, inflight := (s.sq fn ring).inflight,
    mib := if s.ringFld fn ring RING.SQ_BASE_LOC = 1 then pagesMib (64 * s.sqDepth fn ring) else 0 }

/-- Settles O31: the hooks of SQ_CTRL and CQ_CTRL on the bits written. -/
theorem ringControl : Obligations.RingControl := by
  unfold Obligations.RingControl
  refine ⟨fun s u now ring req hr h off ok => ?_, fun s u now ring req hr h off bad => ?_, fun s u now ring req hr h on => ?_, fun s fn ring hr => ?_,
    fun s u now ring req hr h off ok => ?_, fun s u now ring req hr h on named => ?_, fun s u now ring req hr h on unnamed => ?_,
    fun s u now ring req hr h on enable => ?_⟩
  · exact (if_neg (Nat.not_le.mpr hr)).trans (congrArg Host.Outcome.next ((State.lands_sqCtrl hr h).trans (sqCtrlHook_starts hr off ok)))
  · exact (if_neg (Nat.not_le.mpr hr)).trans (congrArg Host.Outcome.next ((State.lands_sqCtrl hr h).trans (sqCtrlHook_refuses hr off bad)))
  · exact (if_neg (Nat.not_le.mpr hr)).trans (congrArg Host.Outcome.next ((State.lands_sqCtrl hr h).trans (sqCtrlHook_stops hr on)))
  · have shown (t : State) (v : Nat) (hv : v < 2) : (t.setFldFn fn (RING.SQ_ENABLE.on (ringPage ring)) v).ringFld fn ring RING.SQ_ENABLE = v :=
      (State.setFldFn_self t fn (RING.SQ_ENABLE.on (ringPage ring)) v (show 0 < 64 by decide)).trans (Nat.mod_eq_of_lt hv)
    have started := State.sq_setSq s fn ring (s.sqFresh fn ring)
    have stopped : (s.sqStop fn ring).sq fn ring = { s.sq fn ring with enabled := false, faulted := false, mib := 0 } := State.sq_setSq _ _ _ _
    exact ⟨shown _ 1 (by decide), congrArg Sq.enabled started, congrArg Sq.head started, congrArg Sq.tail started, congrArg Sq.seq started,
      (congrArg Sq.inflight started).trans rfl, shown _ 0 (by decide), congrArg Sq.enabled stopped, rfl⟩
  · exact (if_neg (Nat.not_le.mpr hr)).trans (congrArg Host.Outcome.next ((State.lands_cqCtrl hr h).trans (cqCtrlHook_starts hr off ok)))
  · exact (if_neg (Nat.not_le.mpr hr)).trans (congrArg Host.Outcome.next ((State.lands_cqCtrl hr h).trans ((cqCtrlHook_stops hr on).trans (if_pos named))))
  · exact (if_neg (Nat.not_le.mpr hr)).trans (congrArg Host.Outcome.next ((State.lands_cqCtrl hr h).trans ((cqCtrlHook_stops hr on).trans
      (if_neg (by simp [unnamed])))))
  · refine (if_neg (Nat.not_le.mpr hr)).trans (congrArg Host.Outcome.next (Eq.trans ?_ ((State.lands_sqCtrl hr h).trans (sqCtrlHook_retries hr on enable))))
    rw [ownerOf_ringPage req hr]
    rfl

end Sys2Proof.Machine
end

section
/-! Threads, counters, copies, stages' code, flows and cores (09). -/

namespace Sys2Proof.Machine

open Sys2Proof.Reg

/-! Calls of a running thread (09, Custom stages). -/

section call

variable {s : State} {t : Nat} {th : Thread} (found : s.thread? t = some th) (runs : th.state = .running)

include found runs

theorem rnCall_runs (f : State → Thread → State) (sound : th.copyFail = 0) : s.rnCall t f = f s th := by
  simp [State.rnCall, found, runs, sound]

theorem rnCall_fails (f : State → Thread → State) (failed : th.copyFail ≠ 0) : s.rnCall t f = (s.failSlice t th.copyFail 0).placeAll := by
  simp [State.rnCall, found, runs, failed]

end call

theorem State.thread?_setThread (s : State) (t : Nat) (th : Thread) : (s.setThread t th).thread? t = some th := Table.find?_put_self _ _ _

/-- The call of a thread that runs and whose copies have not failed, at the command's time. -/
theorem rnCall_at {s : State} {t : Nat} {th : Thread} (now : Nat) (found : s.thread? t = some th) (runs : th.state = .running) (sound : th.copyFail = 0)
    (f : State → Thread → State) : (s.at now).rnCall t f = f (s.at now) th :=
  rnCall_runs (s := s.at now) found runs f sound

/-! Waits and delays (09, Waits and the delay list). -/

/-- The effect of rn_wait on a counter that the thread may use. -/
def State.waitOn (s : State) (t : Nat) (th : Thread) (ctr ticks : Nat) : Option Counter → State
  | none => s.setThread t { th with result := some .invalid, a0 := waitCode .invalid }
  | some .zero => s.setThread t { th with result := some .byCount, a0 := waitCode .byCount }
  | some (.armed _) =>
    if ticks = 0 then s.setThread t { th with result := some .byTimeout, a0 := waitCode .byTimeout } else s.waitThread t th ctr (ticks % 2 ^ 32)

section waits

variable {s : State} {t : Nat} {th : Thread} (now : Nat) (found : s.thread? t = some th)

include found

theorem execRnWait_refused {ctr : Nat} {named : Bool} (ticks : Nat) (runs : th.state = .running) (sound : th.copyFail = 0)
    (may : mayUse th ctr named = false) : execRnWait now t ctr ticks named s =
      .next ((s.at now).setThread t { th with result := some .invalid, a0 := waitCode .invalid }) := by
  refine congrArg Host.Outcome.next ((rnCall_at now found runs sound _).trans ?_)
  simp [may]

theorem execRnWait_allowed {ctr : Nat} {named : Bool} (ticks : Nat) (runs : th.state = .running) (sound : th.copyFail = 0)
    (may : mayUse th ctr named = true) :
    execRnWait now t ctr ticks named s = .next ((s.at now).waitOn t th ctr ticks (Table.find? s.rennet.counters ctr)) := by
  refine congrArg Host.Outcome.next ((rnCall_at now found runs sound _).trans ?_)
  simp only [may, Bool.not_true, Bool.false_eq_true, if_false]
  have same : Table.find? (s.at now).rennet.counters ctr = Table.find? s.rennet.counters ctr := rfl
  rw [same]
  cases Table.find? s.rennet.counters ctr with
  | none => rfl
  | some c => cases c <;> rfl

theorem execRnWaitTimeout_waiting (waits : th.state = .waiting) : execRnWaitTimeout now t s =
    .next (if (s.at now).wakeDue t then ((s.at now).wakeThread t .byTimeout).rennetSettle else s.at now) := by
  have found' : (s.at now).thread? t = some th := found
  simp only [execRnWaitTimeout, found', waits, true_and]

theorem execDelayWake_delayed (delayed : th.state = .delayed) (due : (s.at now).wakeDue t = true) : execDelayWake now t s =
    .next (((s.at now).modRennet fun r => { r with delays := r.delays.drop 1 }).readyTail t th).rennetSettle := by
  have found' : (s.at now).thread? t = some th := found
  simp only [execDelayWake, found', delayed, due, and_self, if_true]

end waits

/-! Counters of a thread (09, Dependence counters). -/

/-- The counter that rn_ctr_alloc picks is free wherever one is. -/
theorem ctrPick_free {s : State} (h : ∃ c, 1024 ≤ c ∧ c < 65536 ∧ Table.has s.rennet.counters c = false) :
    1024 ≤ s.ctrPick ∧ s.ctrPick < 65536 ∧ Table.has s.rennet.counters s.ctrPick = false := by
  obtain ⟨c, lo, hi, free⟩ := h
  have start := Table.fresh_ge s.rennet.counters 64512 (1024 + Config.freeNat s.free % 64512)
  have first := Table.fresh_ge s.rennet.counters 64512 1024
  have least := Table.fresh_le s.rennet.counters 64512 1024 c lo (by omega) free
  unfold State.ctrPick
  dsimp only
  split
  next below => exact ⟨by omega, below, Table.fresh_free _ _ _ (by omega)⟩
  next => exact ⟨first, by omega, Table.fresh_free _ _ _ (by omega)⟩

theorem ctrDec_left {s : State} {ctr c n : Nat} (armed : Table.find? s.rennet.counters ctr = some (.armed c)) (lt : n < c) :
    s.ctrDec ctr n = s.setCounter ctr (.armed (c - n)) := by
  simp [State.ctrDec, armed, lt]

theorem ctrDec_equal {s : State} {ctr c : Nat} (armed : Table.find? s.rennet.counters ctr = some (.armed c)) :
    s.ctrDec ctr c = (s.setCounter ctr .zero).wakeWaiters ctr .byCount := by
  simp [State.ctrDec, armed]

theorem ctrDec_below {s : State} {ctr c n : Nat} (armed : Table.find? s.rennet.counters ctr = some (.armed c)) (lt : c < n) :
    s.ctrDec ctr n = ((s.setCounter ctr .zero).ctrUnderflow).wakeWaiters ctr .byCount := by
  simp [State.ctrDec, armed, Nat.not_lt.mpr (Nat.le_of_lt lt), Nat.ne_of_gt lt]

/-- Settles O32: each call of a running thread by what it asks; the list of delays; a decrement by what is left. -/
theorem threadWaitsAndCounters : Obligations.ThreadWaitsAndCounters := by
  unfold Obligations.ThreadWaitsAndCounters
  refine ⟨fun s now t ctr ticks named th found runs sound => ⟨fun may => execRnWait_refused now found ticks runs sound may, fun may zero => ?_,
      fun n may armed none_ => ?_, fun n may armed some_ => ?_⟩,
    fun s now t th found waits due => ?_, fun s now t th found waits early => ?_, fun s now t th found runs sound => ?_,
    fun s now t ticks th found runs sound some_ => ?_, fun s now t th found delayed due => execDelayWake_delayed now found delayed due,
    fun s now t th found runs failed => congrArg Host.Outcome.next (rnCall_fails (s := s.at now) found runs _ failed),
    fun s now t count th found runs sound some_ room free => ?_, fun s now t count th found runs sound bad => ?_,
    fun s now t ctr amount named th found runs sound may => ?_, fun s now t ctr amount named th found runs sound may => ?_,
    fun s now t ctr named th found runs sound may => ?_, fun s ctr c n armed lt => ?_, fun s ctr c armed => ctrDec_equal armed,
    fun s ctr c n armed lt => ctrDec_below armed lt⟩
  · refine (execRnWait_allowed now found ticks runs sound may).trans ?_
    rw [zero]
    rfl
  · refine (execRnWait_allowed now found ticks runs sound may).trans ?_
    rw [armed]
    exact congrArg Host.Outcome.next (if_pos none_)
  · refine (execRnWait_allowed now found ticks runs sound may).trans ?_
    rw [armed]
    exact congrArg Host.Outcome.next (if_neg some_)
  · exact (execRnWaitTimeout_waiting now found waits).trans (congrArg Host.Outcome.next (if_pos due))
  · exact (execRnWaitTimeout_waiting now found waits).trans (congrArg Host.Outcome.next (if_neg (by simp [early])))
  · exact congrArg Host.Outcome.next ((rnCall_at now found runs sound _).trans (if_pos rfl))
  · exact congrArg Host.Outcome.next ((rnCall_at now found runs sound _).trans (if_neg some_))
  · obtain ⟨lo, hi, unused⟩ := ctrPick_free free
    have good : ¬(count % 2 ^ 32 = 0 ∨ 16 ≤ th.owned.length ∨ 65536 ≤ s.ctrPick) := by omega
    exact ⟨lo, hi, unused, _, congrArg Host.Outcome.next ((rnCall_at now found runs sound _).trans (if_neg good)), Table.find?_put_self _ _ _,
      State.thread?_setThread _ _ _, rfl, rfl⟩
  · refine congrArg Host.Outcome.next ((rnCall_at now found runs sound _).trans (if_pos ?_))
    exact bad.imp_right .inl
  · exact congrArg Host.Outcome.next ((rnCall_at now found runs sound _).trans (if_pos may))
  · exact congrArg Host.Outcome.next ((rnCall_at now found runs sound _).trans (if_neg (by simp [may])))
  · exact congrArg Host.Outcome.next ((rnCall_at now found runs sound _).trans (if_pos may))
  · rw [ctrDec_left armed lt]
    exact ⟨Table.find?_put_self _ _ _, rfl⟩

/-! Copies (09, Custom stages). -/

/-- The copy that a call of rn_copy makes. -/
def State.newCopy (s : State) (t dst src len ctr : Nat) (srcHerd dstHerd : Bool) : Copy :=
  { slice := t, fn := ((s.slice? t).bind fun x => s.job? x.job).elim 0 (·.fn), src := src, srcHerd := srcHerd, dst := dst, dstHerd := dstHerd,
    len := len, ctr := ctr }

section copies

variable {s : State} {id : Nat} {c : Copy} (now : Nat) (found : s.copy? id = some c) (idle : c.asked = 0)

include found idle

theorem execCopyComplete_moved (st : Nat) (data : Bytes) (moved : c.moved = true) :
    execCopyComplete now id st data s = .next ((s.at now).copyOver id c) := by
  have found' : (s.at now).copy? id = some c := found
  simp [execCopyComplete, found', idle, moved]

theorem execCopyComplete_bad {st : Nat} (data : Bytes) (unmoved : c.moved = false) (good : c.status = 0) (lives : (s.thread? c.slice).isSome = true)
    (bad : st ≠ 0) : execCopyComplete now id st data s = .next ((s.at now).copyOver id (c.failed st)) := by
  have found' : (s.at now).copy? id = some c := found
  have lives' : ((s.at now).thread? c.slice).isNone = false := Option.isNone_eq_false_iff.mpr lives
  simp [execCopyComplete, found', idle, unmoved, good, lives', bad]

theorem execCopyComplete_written {u : State} (data : Bytes) (unmoved : c.moved = false) (good : c.status = 0) (lives : (s.thread? c.slice).isSome = true)
    (clean : (s.at now).copyPoisoned c = false)
    (hu : u = (((s.at now).copyWrite id c ((s.at now).copyBytes c data)).updCopy id fun x => { x with moved := true }))
    (asks : (u.copy? id).all (fun d => d.asked != 0) = true) : execCopyComplete now id 0 data s = .next u := by
  have found' : (s.at now).copy? id = some c := found
  have lives' : ((s.at now).thread? c.slice).isNone = false := Option.isNone_eq_false_iff.mpr lives
  simp only [execCopyComplete, found', idle, unmoved, good, lives', clean, ne_eq, not_true, if_false, decide_false, Bool.or_self, Bool.false_eq_true, ← hu]
  cases after : u.copy? id with
  | none => rfl
  | some d =>
    rw [after] at asks
    exact congrArg Host.Outcome.next (if_neg (by simpa using asks))

end copies

/-- Settles O33: a copy is begun, ends or fails; the other calls only return a value. -/
theorem threadCalls : Obligations.ThreadCalls := by
  unfold Obligations.ThreadCalls
  refine ⟨fun s now t dst src len ctr sh dh th found runs sound => congrArg Host.Outcome.next ((rnCall_at now found runs sound _).trans (if_pos rfl)),
    fun s now t dst src len ctr sh dh th found runs sound => ?_,
    fun s now t th found runs sound => ⟨congrArg Host.Outcome.next (rnCall_at now found runs sound _),
      congrArg Host.Outcome.next (rnCall_at now found runs sound _), congrArg Host.Outcome.next (rnCall_at now found runs sound _)⟩,
    fun s now id st data c found idle moved => execCopyComplete_moved now found idle st data moved,
    fun s now id st data c found idle unmoved good lives bad => execCopyComplete_bad now found idle data unmoved good lives bad,
    fun s u now id data c found idle unmoved good lives clean hu asks => execCopyComplete_written now found idle data unmoved good lives clean hu asks,
    fun s now t content th found runs exec_ => ?_⟩
  · refine ⟨((s.at now).rnRet t th 0#64).modRennet fun r => { r with
        copies := Table.put r.copies s.rennet.nextCopy (s.newCopy t dst src len ctr sh dh), nextCopy := s.rennet.nextCopy + 1 },
      s.newCopy t dst src len ctr sh dh, Table.find?_put_self _ _ _, rfl, rfl, rfl, rfl, rfl, rfl, State.thread?_setThread _ _ _, rfl, ?_⟩
    exact congrArg Host.Outcome.next ((rnCall_at now found runs sound _).trans (if_neg Bool.false_ne_true))
  · have found' : (s.at now).thread? t = some th := found
    change execFenceI now t content s = _
    simp only [execFenceI, found', runs, exec_, and_self, if_true]

/-! The end of a stage's code (09, Custom stages, Threads and priorities). -/

section stage

variable {s : State} {t : Nat} {th : Thread} (now : Nat) (found : s.thread? t = some th) (runs : th.state = .running)

include found runs

theorem execStageReturn_bad {a0 : Word} {c : Ctx} (cursor : Word) (outs : List (Nat × List (List Val))) (ws : List (Nat × Bytes)) (sound : th.copyFail = 0)
    (ctx : (s.at now).sliceCtx t = some c) (bad : a0 ≠ 0#64 ∧ a0 ≠ 1#64) :
    execStageReturn now t a0 cursor outs ws s = .next ((s.at now).failSlice t 0x5A 0).placeAll := by
  refine congrArg Host.Outcome.next ((rnCall_at now found runs sound _).trans ?_)
  simp [ctx, bad]

theorem execStageReturn_ok {u : State} {a0 : Word} {c : Ctx} (cursor : Word) (outs : List (Nat × List (List Val))) (ws : List (Nat × Bytes))
    (sound : th.copyFail = 0) (ctx : (s.at now).sliceCtx t = some c) (good : a0 = 0#64 ∨ a0 = 1#64)
    (ok : ((s.at now).stageWrites ws).appendOuts c outs = .ok u) : execStageReturn now t a0 cursor outs ws s =
      .next (if a0 = 0#64 then u.customDone c
        else (u.readyTail t { th.offCore (max s.chrono now) with a0 := a0, cursor := cursor }).rennetSettle) := by
  refine congrArg Host.Outcome.next ((rnCall_at now found runs sound _).trans ?_)
  have known : ¬(a0 ≠ 0#64 ∧ a0 ≠ 1#64) := fun ⟨zero, one⟩ => good.elim zero one
  simp only [ctx, known, if_false, ok]
  rfl

theorem execStageFault_runs (addr : Nat) : execStageFault now t addr s =
    .next (((s.at now).count CTLCORE.STAGE_FAULTS 1).failSlice t 0x58 (s.node.id * 2 ^ 48 + addr % 2 ^ 48)).placeAll := by
  have found' : (s.at now).thread? t = some th := found
  simp only [execStageFault, found', runs, if_true]
  rfl

theorem execQuantumExpiry_runs : execQuantumExpiry now t s = .next (if (s.sliceUsOf t + 2) * 1000 ≤ (s.at now).turnTime th then
    ((s.at now).readyTail t (th.offCore (max s.chrono now))).rennetSettle else s.at now) := by
  have found' : (s.at now).thread? t = some th := found
  simp only [execQuantumExpiry, found', runs, true_and]
  rfl

theorem execStageOverrun_runs (late : s.fld RENNET.STAGE_LIMIT * s.sliceUsOf t * 1000 ≤ (th.offCore (max s.chrono now)).used) :
    execStageOverrun now t s = .next (((s.at now).count CTLCORE.STAGE_OVERRUNS 1).failSlice t 0x59 0).placeAll := by
  have found' : (s.at now).thread? t = some th := found
  have late' : (s.at now).fld RENNET.STAGE_LIMIT * (s.at now).sliceUsOf t * 1000 ≤ (th.offCore (s.at now).chrono).used := late
  simp only [execStageOverrun, found', runs, late', and_self, if_true]

end stage

/-- Settles O34: what the code of a running stage returned, and its faults and bounds. -/
theorem stageCode : Obligations.StageCode := by
  unfold Obligations.StageCode
  exact ⟨fun s now t a0 cursor th c outs ws found runs sound ctx zero one => execStageReturn_bad now found runs cursor outs ws sound ctx ⟨zero, one⟩,
    fun s u now t cursor th c outs ws found runs sound ctx ok =>
      ⟨(execStageReturn_ok now found runs cursor outs ws sound ctx (.inl rfl) ok).trans (congrArg Host.Outcome.next (if_pos rfl)),
        (execStageReturn_ok now found runs cursor outs ws sound ctx (.inr rfl) ok).trans (congrArg Host.Outcome.next (if_neg (by decide)))⟩,
    fun s now t addr th found runs => execStageFault_runs now found runs addr,
    fun s now t th found runs late => (execQuantumExpiry_runs now found runs).trans (congrArg Host.Outcome.next (if_pos late)),
    fun s now t th found runs early => (execQuantumExpiry_runs now found runs).trans (congrArg Host.Outcome.next (if_neg (Nat.not_le.mpr early))),
    fun s now t th found runs late => execStageOverrun_runs now found runs late⟩

/-! Host counters, ordered flows and the control cores (09). -/

theorem ctrWord_fields (ctr n : Nat) {op : Nat} (h : op < 8) :
    bitsOf (ctrWord op ctr n) 18 16 = op ∧ bitsOf (ctrWord op ctr n) 9 0 = ctr % 1024 ∧ bitsOf (ctrWord op ctr n) 63 32 = n % 2 ^ 32 := by
  simp only [bitsOf, ctrWord, BitVec.toNat_ofNat]
  omega

theorem flowWord_fields (flow fn v : Nat) {op : Nat} (h : op < 8) :
    bitsOf (flowWord op flow fn v) 26 24 = op ∧ bitsOf (flowWord op flow fn v) 11 0 = flow % 4096 ∧
      bitsOf (flowWord op flow fn v) 20 16 = fn % 32 ∧ bitsOf (flowWord op flow fn v) 63 32 = v % 2 ^ 32 := by
  simp only [bitsOf, flowWord, BitVec.toNat_ofNat]
  omega

/-- What the registers show when a RENNET command ends. -/
theorem rennetResult_shows (s : State) {r : Nat} (h : r < 16) : (s.rennetResult r).fld RENNET.RESULT = r ∧ (s.rennetResult r).fld RENNET.DONE = 1 :=
  ⟨(State.setFld_apart _ _ (by decide)).trans (State.setFld_fits _ _ (by decide) h), State.setFld_set _ _ (by decide) (by decide)⟩

theorem State.lands_rennet {s u : State} {now : Nat} {req : Requester} {page off : Nat} {v : Word} (h : s.lands now req page off v u) :
    u.rennet = s.rennet :=
  (State.lands_only h).part .rennet rfl

section ctrCmd

variable {u : State} {req : Requester} {page : Nat} {old : Word} {ctr : Nat} (ready : u.tiersReady = true)

include ready

theorem ctrCmdHook_arms {n : Nat} (unarmed : ∀ k, Table.find? u.rennet.counters (ctr % 1024) ≠ some (.armed k)) (some_ : n % 2 ^ 32 ≠ 0) :
    ctrCmdHook req page old (ctrWord 1 ctr n) u = (u.setCounter (ctr % 1024) (.armed (n % 2 ^ 32))).rennetResult 0 := by
  obtain ⟨hop, hctr, hn⟩ := ctrWord_fields ctr n (op := 1) (by decide)
  simp only [ctrCmdHook, hop, hctr, hn, ready, Bool.not_true, Bool.false_eq_true, if_false, some_, Nat.one_ne_zero]

theorem ctrCmdHook_armed {k : Nat} (n : Nat) (armed : Table.find? u.rennet.counters (ctr % 1024) = some (.armed k)) :
    ctrCmdHook req page old (ctrWord 1 ctr n) u = u.rennetResult 1 := by
  obtain ⟨hop, hctr, -⟩ := ctrWord_fields ctr n (op := 1) (by decide)
  simp only [ctrCmdHook, hop, hctr, ready, Bool.not_true, Bool.false_eq_true, if_false, Nat.one_ne_zero, armed]

theorem ctrCmdHook_subtracts {c : Counter} (n : Nat) (known : Table.find? u.rennet.counters (ctr % 1024) = some c) :
    ctrCmdHook req page old (ctrWord 2 ctr n) u = ((u.ctrDec (ctr % 1024) (n % 2 ^ 32)).rennetSettle).rennetResult 0 := by
  obtain ⟨hop, hctr, hn⟩ := ctrWord_fields ctr n (op := 2) (by decide)
  have some_ : ¬2 = 0 := by decide
  simp only [ctrCmdHook, hop, hctr, hn, ready, Bool.not_true, Bool.false_eq_true, if_false, some_, known]

theorem ctrCmdHook_disarms {c : Counter} (known : Table.find? u.rennet.counters (ctr % 1024) = some c) :
    ctrCmdHook req page old (ctrWord 3 ctr 0) u = (u.disarm (ctr % 1024)).rennetResult 0 := by
  obtain ⟨hop, hctr, -⟩ := ctrWord_fields ctr 0 (op := 3) (by decide)
  have some_ : ¬3 = 0 := by decide
  simp only [ctrCmdHook, hop, hctr, ready, Bool.not_true, Bool.false_eq_true, if_false, some_, known]

end ctrCmd

section flowCmd

variable {u : State} {req : Requester} {page : Nat} {old : Word} {flow : Nat} (ready : u.tiersReady = true) (inside : flow % 4096 ≤ 3071)

include ready inside

theorem flowCmdHook_opens (fn v : Nat) (unknown : Table.find? u.rennet.flows (flow % 4096) = none) :
    flowCmdHook req page old (flowWord 1 flow fn v) u =
      (u.modRennet fun r => { r with flows := Table.put r.flows (flow % 4096) ⟨fn % 32, v % 2 ^ 32, []⟩ }).rennetResult 0 := by
  obtain ⟨hop, hflow, hfn, hv⟩ := flowWord_fields flow fn v (op := 1) (by decide)
  simp [flowCmdHook, hop, hflow, hfn, hv, ready, Nat.not_lt.mpr inside, unknown]

theorem flowCmdHook_closes {f : Flow} (known : Table.find? u.rennet.flows (flow % 4096) = some f) :
    flowCmdHook req page old (flowWord 2 flow 0 0) u =
      if f.items.isEmpty then (u.modRennet fun r => { r with flows := Table.drop r.flows (flow % 4096) }).rennetResult 0 else u.rennetResult 3 := by
  obtain ⟨hop, hflow, -, -⟩ := flowWord_fields flow 0 0 (op := 2) (by decide)
  simp [flowCmdHook, hop, hflow, ready, Nat.not_lt.mpr inside, known]

theorem flowCmdHook_advances {f : Flow} (v : Nat) (known : Table.find? u.rennet.flows (flow % 4096) = some f)
    (ahead : (v % 2 ^ 32 + 2 ^ 32 - f.next) % 2 ^ 32 < 2 ^ 31)
    (alone : f.items.any (fun i => decide ((i.seq + 2 ^ 32 - f.next) % 2 ^ 32 < (v % 2 ^ 32 + 2 ^ 32 - f.next) % 2 ^ 32)) = false) :
    flowCmdHook req page old (flowWord 3 flow 0 v) u =
      (((u.modRennet fun r => { r with flows := Table.put r.flows (flow % 4096) { f with next := v % 2 ^ 32 } }).flowRelease (flow % 4096)
        (f.items.length + 1)).ringSettle).rennetResult 0 := by
  obtain ⟨hop, hflow, -, hv⟩ := flowWord_fields flow 0 v (op := 3) (by decide)
  have no : ¬(2 ^ 31 ≤ (v % 2 ^ 32 + 2 ^ 32 - f.next) % 2 ^ 32 ∨
      f.items.any (fun i => decide ((i.seq + 2 ^ 32 - f.next) % 2 ^ 32 < (v % 2 ^ 32 + 2 ^ 32 - f.next) % 2 ^ 32)) = true) :=
    fun h => h.elim (Nat.not_le.mpr ahead) fun held => Bool.false_ne_true (alone.symm.trans held)
  have known3 : ¬3 < 3 := Nat.lt_irrefl 3
  have some3 : ¬3 = 0 := by decide
  simp only [flowCmdHook, hop, hflow, hv, ready, Bool.not_true, Bool.false_eq_true, if_false, some3, known3, Nat.not_lt.mpr inside, known, no]

end flowCmd

theorem coreMask (mask : Nat) : bitsOf (BitVec.ofNat 64 (mask % 65536)) 15 0 = mask % 65536 := by
  simp only [bitsOf, BitVec.toNat_ofNat]
  omega

/-- A core's failure with no job whose runtime state it held. -/
theorem execCoreFail_alone {s : State} {core : Nat} (now : Nat) (lt : core < 16) (released : s.power.released = true)
    (sound : bitAt s.rennet.coresFailed core = false) :
    ∃ u : State, u = ((s.at now).modRennet fun r => { r with coresFailed := withBit r.coresFailed core true }).raiseOwn 0x051 18 ∧
      execCoreFail now core [] s = .next (((((s.running.filter fun e => e.2.core = some core).map (·.1)).foldl (fun x t => x.failSlice t 0x5B 0)
        (if u.coresLeft (u.fld CTLCORE.CORE_OOS) < 2 then u.nodeFatal 0x20 0
          else u.faultRecord ⟨2, 0x12, 0, 0, 0x051, u.node.id, 0, 0, 0, 0, 0⟩)).rennetSettle).placeAll) := by
  have works : ¬(!(s.at now).power.released || bitAt (s.at now).rennet.coresFailed core) = true := by
    have both : (!s.power.released || bitAt s.rennet.coresFailed core) = false := by simp [released, sound]
    exact fun h => Bool.false_ne_true (both.symm.trans h)
  exact ⟨_, rfl, (if_neg (Nat.not_le.mpr lt)).trans (congrArg Host.Outcome.next (if_neg works))⟩

theorem execL2Ue_thread {s : State} {t : Nat} {th : Thread} (now : Nat) (released : s.power.released = true) (found : s.thread? t = some th) :
    execL2Ue now (some t) s = .next ((((s.at now).count CTLCORE.L2_UE_COUNT 1).raiseOwn 0x051 17).failSlice t 0x41 0).placeAll := by
  have released' : (s.at now).power.released = true := released
  have rennet : (((s.at now).count CTLCORE.L2_UE_COUNT 1).raiseOwn 0x051 17).rennet = s.rennet :=
    (State.raiseOwn_frame rfl (State.count_frame rfl (Frame.refl _)) : Frame 6 (s.at now) _).part .rennet rfl
  have lives : ((((s.at now).count CTLCORE.L2_UE_COUNT 1).raiseOwn 0x051 17).thread? t).isSome = true := by
    rw [State.thread?, rennet]
    exact Option.isSome_iff_exists.mpr ⟨th, found⟩
  simp only [execL2Ue, released', Bool.not_true, Bool.false_eq_true, if_false, lives, if_true]

/-- Settles O35: the hooks of CTR_CMD, FLOW_CMD and CORE_OOS on the words that the commands write; what a core's failure ends. -/
theorem hostCounters : Obligations.HostCounters := by
  unfold Obligations.HostCounters
  refine ⟨fun s u now ctr n req h ready unarmed some_ => ?_, fun s u now ctr n k req h ready armed => ?_, fun s u now ctr n c req h ready known => ?_,
    fun s u now ctr c req h ready known => ?_, fun s u now flow fn v req h ready inside unknown => ?_, fun s u now flow f req h ready inside known => ?_,
    fun s u now flow v f req h ready inside known ahead alone => ⟨_, rfl, ?_⟩, fun s u now mask req h left => ?_, fun s u now mask req h few unlocked => ?_,
    fun s now core lt released sound => execCoreFail_alone now lt released sound, fun s now released => ?_,
    fun s now t th released found => execL2Ue_thread now released found⟩
  · exact ⟨_, congrArg Host.Outcome.next ((State.lands_hook ctrCmdHook h (effect_writable (by decide))).trans (ctrCmdHook_arms ready unarmed some_)),
      Table.find?_put_self _ _ _, (rennetResult_shows _ (by decide)).1, (rennetResult_shows _ (by decide)).2, (State.lands_work h : u.work = _)⟩
  · exact ⟨_, congrArg Host.Outcome.next ((State.lands_hook ctrCmdHook h (effect_writable (by decide))).trans (ctrCmdHook_armed ready n armed)),
      (State.lands_rennet h : u.rennet = _), (rennetResult_shows _ (by decide)).1⟩
  · exact congrArg Host.Outcome.next ((State.lands_hook ctrCmdHook h (effect_writable (by decide))).trans (ctrCmdHook_subtracts ready n known))
  · exact congrArg Host.Outcome.next ((State.lands_hook ctrCmdHook h (effect_writable (by decide))).trans (ctrCmdHook_disarms ready known))
  · exact ⟨_, congrArg Host.Outcome.next ((State.lands_hook flowCmdHook h (effect_writable (by decide))).trans (flowCmdHook_opens ready inside fn v unknown)),
      Table.find?_put_self _ _ _, (rennetResult_shows _ (by decide)).1⟩
  · have closes := (State.lands_hook flowCmdHook h (effect_writable (by decide))).trans (flowCmdHook_closes ready inside known)
    refine ⟨fun none_ => ⟨_, congrArg Host.Outcome.next (closes.trans (if_pos (by simp [none_]))), Table.find?_drop_self _ _,
      (rennetResult_shows _ (by decide)).1⟩, fun some_ => ⟨_, congrArg Host.Outcome.next (closes.trans (if_neg (by simpa using some_))),
      (State.lands_rennet h : u.rennet = _), (rennetResult_shows _ (by decide)).1⟩⟩
  · exact congrArg Host.Outcome.next ((State.lands_hook flowCmdHook h (effect_writable (by decide))).trans (flowCmdHook_advances ready inside v known ahead alone))
  · refine congrArg Host.Outcome.next ((State.lands_hook coreOosHook h (effect_writable (by decide))).trans ?_)
    simp only [coreOosHook, coreMask, Nat.not_lt.mpr left, if_false]
  · refine congrArg Host.Outcome.next ((State.lands_hook coreOosHook h (effect_writable (by decide))).trans ?_)
    simp only [coreOosHook, coreMask, few, unlocked, Bool.false_eq_true, if_false, if_true]
  · exact congrArg Host.Outcome.next (if_neg (by simp [released]))

end Sys2Proof.Machine
end

section
/-! Numbers in bytes, and the CRC of a message (20, Engine message bodies). -/

namespace Sys2Proof

theorem leNat_leBytes (n v : Nat) : leNat (leBytes n v) = v % 256 ^ n := by
  induction n generalizing v with
  | zero => simp [leBytes, leNat, Nat.mod_one]
  | succ n ih =>
    rw [leBytes, leNat, ih, BitVec.toNat_ofNat, show 256 ^ (n + 1) = 256 * 256 ^ n from Nat.pow_succ', Nat.mod_mul]

/-- A number that fits its bytes reads back whole. -/
theorem leNat_leBytes_fits {n v : Nat} (h : v < 256 ^ n) : leNat (leBytes n v) = v := by
  rw [leNat_leBytes, Nat.mod_eq_of_lt h]

end Sys2Proof

namespace Sys2Proof.Machine

open Sys2Proof.Reg

theorem crcBit_lt {c : Nat} (h : c < 2 ^ 32) : crcBit c < 2 ^ 32 := by
  have half : c / 2 < 2 ^ 32 := by omega
  unfold crcBit
  split
  · exact Nat.xor_lt_two_pow half (by decide)
  · exact half

theorem crcByte_lt {c : Nat} (b : Byte) (h : c < 2 ^ 32) : crcByte c b < 2 ^ 32 := by
  have byte : b.toNat < 2 ^ 32 := Nat.lt_of_lt_of_le b.isLt (by decide)
  have mixed : c ^^^ b.toNat < 2 ^ 32 := Nat.xor_lt_two_pow h byte
  exact crcBit_lt (crcBit_lt (crcBit_lt (crcBit_lt (crcBit_lt (crcBit_lt (crcBit_lt (crcBit_lt mixed)))))))

theorem crc32c_lt (bs : Bytes) : crc32c bs < 2 ^ 32 := by
  have rest : ∀ c < 2 ^ 32, bs.foldl crcByte c < 2 ^ 32 := by
    induction bs with
    | nil => exact fun _ h => h
    | cons b bs ih => exact fun c h => ih _ (crcByte_lt b h)
  exact Nat.xor_lt_two_pow (rest _ (by decide)) (by decide)

/-! Beats and reports (10, Beats and reports). -/

/-- The byte of a beat that holds PULSE, MODE and GATE. -/
theorem beatFlags (p g : Bool) {m : Nat} (h : m < 4) : ofBool p + 2 * m + 8 * ofBool g < 16 ∧ bitAt (ofBool p + 2 * m + 8 * ofBool g) 0 = p ∧
    (ofBool p + 2 * m + 8 * ofBool g) / 2 % 4 = m ∧ bitAt (ofBool p + 2 * m + 8 * ofBool g) 3 = g := by
  have cases4 : m = 0 ∨ m = 1 ∨ m = 2 ∨ m = 3 := by omega
  rcases cases4 with rfl | rfl | rfl | rfl <;> cases p <;> cases g <;> decide

/-- Where a beat's numbers stand in its bytes. -/
theorem beatBytes_sub (b : Beat) : sub (beatBytes b) 2 2 = leBytes 2 b.lead ∧ sub (beatBytes b) 4 4 = leBytes 4 b.seq ∧
    sub (beatBytes b) 8 8 = leBytes 8 b.tide ∧ sub (beatBytes b) 16 8 = leBytes 8 b.chrono ∧ sub (beatBytes b) 24 4 = leBytes 4 b.periodUs ∧
    sub (beatBytes b) 32 8 = leBytes 8 b.epochTu ∧ sub (beatBytes b) 60 4 = leBytes 4 (crc32c ((beatBytes b).take 60)) :=
  ⟨rfl, rfl, rfl, rfl, rfl, rfl, rfl⟩

theorem beatBytes_byte (b : Beat) : (beatBytes b).getD 28 0#8 = BitVec.ofNat 8 b.scale ∧
    (beatBytes b).getD 29 0#8 = BitVec.ofNat 8 (ofBool b.pulse + 2 * b.mode + 8 * ofBool b.gate) := ⟨rfl, rfl⟩

/-- The parts of a beat that do not depend on its numbers. -/
theorem beatBytes_frame (b : Beat) : (beatBytes b).length = 64 ∧ (beatBytes b).getD 0 0#8 = 1#8 ∧ (beatBytes b).getD 1 0#8 = 1#8 ∧
    sub (beatBytes b) 30 2 = zeros 2 ∧ sub (beatBytes b) 40 20 = zeros 20 := ⟨rfl, rfl, rfl, rfl, rfl⟩

/-- A beat's bytes read back as the beat. -/
theorem beatOf_beatBytes {b : Beat} (lead : b.lead < 2 ^ 16) (seq : b.seq < 2 ^ 32) (tide : b.tide < 2 ^ 64) (chrono : b.chrono < 2 ^ 64)
    (period : b.periodUs < 2 ^ 32) (scale : b.scale < 16) (mode : b.mode < 4) (epoch : b.epochTu < 2 ^ 64) : beatOf (beatBytes b) = some b := by
  obtain ⟨small, pulse, mode_, gate⟩ := beatFlags b.pulse b.gate mode
  obtain ⟨at2, at4, at8, at16, at24, at32, at60⟩ := beatBytes_sub b
  obtain ⟨at28, at29⟩ := beatBytes_byte b
  obtain ⟨length, type_, version, zero30, zero40⟩ := beatBytes_frame b
  have byte0 : byteAt (beatBytes b) 0 = 1 := congrArg BitVec.toNat type_
  have byte1 : byteAt (beatBytes b) 1 = 1 := congrArg BitVec.toNat version
  have gap30 : zeroFrom (beatBytes b) 30 32 = true := by rw [zeroFrom, leAt, show 32 - 30 = 2 from rfl, zero30]; decide
  have gap40 : zeroFrom (beatBytes b) 40 60 = true := by rw [zeroFrom, leAt, show 60 - 40 = 20 from rfl, zero40]; decide
  have flags : byteAt (beatBytes b) 29 = ofBool b.pulse + 2 * b.mode + 8 * ofBool b.gate := by
    rw [byteAt, at29, BitVec.toNat_ofNat, Nat.mod_eq_of_lt (Nat.lt_trans small (by decide))]
  have scale_ : byteAt (beatBytes b) 28 = b.scale := by
    rw [byteAt, at28, BitVec.toNat_ofNat, Nat.mod_eq_of_lt (Nat.lt_trans scale (by decide))]
  have crc : leAt (beatBytes b) 60 4 = crc32c ((beatBytes b).take 60) := by rw [leAt, at60, leNat_leBytes_fits (crc32c_lt _)]
  have lead_ : leAt (beatBytes b) 2 2 = b.lead := by rw [leAt, at2, leNat_leBytes_fits lead]
  have seq_ : leAt (beatBytes b) 4 4 = b.seq := by rw [leAt, at4, leNat_leBytes_fits seq]
  have tide_ : leAt (beatBytes b) 8 8 = b.tide := by rw [leAt, at8, leNat_leBytes_fits tide]
  have chrono_ : leAt (beatBytes b) 16 8 = b.chrono := by rw [leAt, at16, leNat_leBytes_fits chrono]
  have period_ : leAt (beatBytes b) 24 4 = b.periodUs := by rw [leAt, at24, leNat_leBytes_fits period]
  have epoch_ : leAt (beatBytes b) 32 8 = b.epochTu := by rw [leAt, at32, leNat_leBytes_fits epoch]
  generalize beatBytes b = raw at *
  simp only [beatOf, length, byte0, byte1, gap30, gap40, flags, small, scale_, scale, crc, lead_, seq_, tide_, chrono_, period_, epoch_, pulse, mode_,
    gate, and_self, if_true]

/-- A beat of the lead that carries the herd's scale and epoch, after one that is known. -/
theorem beatArrives_lead {s : State} {raw : Bytes} {b : Beat} {last : Nat} (reads : beatOf raw = some b) (lead : b.lead = s.herd.lead)
    (same : s.tide.now = 0 ∨ (b.scale = s.tide.herdScale ∧ b.epochTu = s.tide.herdEpochTu)) (known : s.tide.lastSeq = some last) :
    s.beatArrives raw = if (b.seq + 2 ^ 32 - last % 2 ^ 32) % 2 ^ 32 = 0 ∨ 2 ^ 31 ≤ (b.seq + 2 ^ 32 - last % 2 ^ 32) % 2 ^ 32 then
      s.count TIDE.STALE_BEATS 1 else s.applyBeat b := by
  have agrees : ¬(0 < s.tide.now ∧ (b.scale ≠ s.tide.herdScale ∨ b.epochTu ≠ s.tide.herdEpochTu)) := by
    rcases same with zero | ⟨scale, epoch⟩
    · omega
    · simp [scale, epoch]
  have notWon : (s.fld HERD.STATE == 3 && s.herd.lowest == some b.lead && b.lead != s.herd.lead) = false := by simp [lead]
  simp only [State.beatArrives, reads, notWon, Bool.false_eq_true, if_false]
  rw [if_neg (fun other => other.1 lead), if_neg agrees, known]
  simp

theorem beatArrives_unread {s : State} {raw : Bytes} (bad : beatOf raw = none) : s.beatArrives raw = s.raiseOwn 0x058 16 := by
  simp [State.beatArrives, bad]

theorem beatArrives_scale {s : State} {raw : Bytes} {b : Beat} (reads : beatOf raw = some b) (lead : b.lead = s.herd.lead) (runs : 0 < s.tide.now)
    (other : b.scale ≠ s.tide.herdScale) : s.beatArrives raw = s.raiseOwn 0x058 17 := by
  simp [State.beatArrives, reads, lead, runs, other]

/-- The loss of beats noticed outside an election, the error neither set nor masked before. -/
theorem beatLost_noticed {s : State} (valid : s.node.valid = true) (member : s.isLead = false) (heard : s.tide.lost = false)
    (quiet : s.quietFor (s.fld TIDE.BEAT_LOSS) = true) (clear : (s.word 0 0x058 0x020).getLsbD 19 = false)
    (open_ : (s.word 0 0x058 0x028).getLsbD 19 = false) (state : s.fld HERD.STATE ≠ 3) :
    s.beatLost = ((s.modTide fun t => { t with lost := true }).count TIDE.BEAT_LOSSES 1).raiseOwn 0x058 19 := by
  have still : (((s.modTide fun t => { t with lost := true }).count TIDE.BEAT_LOSSES 1).raiseOwn 0x058 19).fld HERD.STATE ≠ 3 := by
    rw [State.raiseOwn_fld _ _ _ (by decide) (by decide) (by decide) (by decide), State.count_apart _ _ (by decide)]
    exact state
  simp only [State.beatLost, valid, member, heard, quiet, clear, open_, Bool.not_false, Bool.and_self, if_true, Bool.or_self, Bool.false_eq_true, if_false]
  exact if_neg fun all => still all.1

theorem herdResetCopy_none {s : State} (h : s.fabric.resetCopies = 0) : s.herdResetCopy = s := if_pos h

/-- Settles O36: the beat and the report by what their bytes say; the loss of beats. -/
theorem beatsAndReports : Obligations.BeatsAndReports := by
  unfold Obligations.BeatsAndReports
  refine ⟨fun s now released lead some_ due noCopies runs => ⟨_, rfl, ?_⟩, fun s now early => ?_, fun s now raw released bad => ?_,
    fun s now raw b released reads lead runs other => ?_, fun s now last raw b released reads lead same known new_ ahead => ?_,
    fun s now last raw b released reads lead same known again => ?_,
    fun b lead seq tide chrono period scale mode epoch => beatOf_beatBytes lead seq tide chrono period scale mode epoch,
    fun s now raw released lead member length type_ version crc => ?_, fun s now raw released member => ?_,
    fun s now valid member heard quiet clear open_ state => ?_, fun s now lost => ?_⟩
  · have go : ((s.at now).power.released && (s.at now).isLead &&
        decide (0 < (s.at now).beatNs ∧ (s.at now).tide.lastBeatSent + (s.at now).beatNs ≤ (s.at now).chrono)) = true := by
      rw [lead, show (s.at now).power.released = true from released, Bool.true_and, Bool.true_and]
      exact decide_eq_true ⟨some_, due⟩
    refine congrArg Host.Outcome.next ((if_pos go).trans ?_)
    dsimp only
    rw [herdResetCopy_none]
    · exact if_neg runs
    · exact noCopies
  · refine congrArg Host.Outcome.next (if_neg ?_)
    have early' : ¬(s.at now).tide.lastBeatSent + (s.at now).beatNs ≤ (s.at now).chrono := Nat.not_le.mpr early
    exact fun all => early' (of_decide_eq_true (Bool.and_eq_true_iff.mp all).2).2
  · exact congrArg Host.Outcome.next ((if_pos released).trans (beatArrives_unread bad))
  · exact congrArg Host.Outcome.next ((if_pos released).trans (beatArrives_scale (s := s.at now) reads lead runs other))
  · exact congrArg Host.Outcome.next ((if_pos released).trans ((beatArrives_lead (s := s.at now) reads lead same known).trans
      (if_neg (not_or.mpr ⟨new_, Nat.not_le.mpr ahead⟩))))
  · exact congrArg Host.Outcome.next ((if_pos released).trans ((beatArrives_lead (s := s.at now) reads lead same known).trans (if_pos (.inl again))))
  · have lead' : (s.at now).isLead = true := lead
    have member' : (s.at now).fabric.members.contains (leAt raw 2 2) = true := member
    refine ⟨_, congrArg Host.Outcome.next ((if_pos released).trans (if_pos ?_)), Table.find?_put_self _ _ _, rfl, rfl⟩
    rw [lead', member', length, type_, version, ← crc]
    simp
  · have member' : (s.at now).isLead = false := member
    refine congrArg Host.Outcome.next ((if_pos released).trans (if_neg ?_))
    simp [member']
  · have frame : Frame 6 ((s.at now).modTide fun t => { t with lost := true })
      ((((s.at now).modTide fun t => { t with lost := true }).count TIDE.BEAT_LOSSES 1).raiseOwn 0x058 19) :=
      State.raiseOwn_frame rfl (State.count_frame rfl (Frame.refl _))
    refine ⟨_, congrArg Host.Outcome.next (beatLost_noticed (s := s.at now) valid member heard quiet clear open_ state), ?_, ?_, ?_⟩
    · exact congrArg Tide.lost (frame.part .tide rfl)
    · exact (congrArg Tide.now (frame.part .tide rfl)).trans rfl
    · exact (bitAt_toNat _ _).trans (State.raise_sets_sticky _ 0 0x058 _ _ _ (by decide))
  · refine congrArg Host.Outcome.next (if_neg ?_)
    simp [lost]

/-! The tide's registers (10, The tide value, Tide alarms). -/

theorem State.lands_tide {s u : State} {now : Nat} {req : Requester} {page off : Nat} {v : Word} (h : s.lands now req page off v u) :
    u.tide = s.tide :=
  (State.lands_only h).part .tide rfl

/-- HOST_TIDE may take a value of a requester. -/
def State.takesHostTide (s : State) (req : Requester) (v : Word) : Prop :=
  req = .fn 0 ∧ s.isLead = true ∧ s.fld TIDE.MODE = 2 ∧ s.tide.now ≤ v.toNat ∧ v.toNat ≤ tideMax

theorem hostTideHook_takes {s : State} {req : Requester} {page : Nat} {old v : Word} (h : s.takesHostTide req v) :
    hostTideHook req page old v s = (s.setFld TIDE.HOST_TIDE v.toNat).modTide fun t => { t with hostTide := v.toNat } := if_pos h

theorem hostTideHook_refuses {s : State} {req : Requester} {page : Nat} {old v : Word} (h : ¬s.takesHostTide req v) :
    hostTideHook req page old v s = s.raiseBy req page 18 0x120 := if_neg h

/-- TIDE_CFG written with its SCALE as it stands. -/
theorem tideCfgHook_mode {s : State} {req : Requester} {page mode : Nat} {old w : Word} (scale : bitsOf w 7 4 = s.fld TIDE.SCALE) :
    tideCfgHook req page old (putBits w 1 0 mode) s =
      if bitsOf old 1 0 = 0 ∧ s.fld TIDE.MODE ≠ 0 then s.modTide fun t => { t with lastBeatSent := s.chrono } else s := by
  have same : bitsOf (putBits w 1 0 mode) 7 4 = s.fld TIDE.SCALE := (bitsOf_putBits_other (by decide) (.inl (by decide))).trans scale
  simp only [tideCfgHook, same, if_true]

/-- ALARM_CTRL as the command writes it. -/
def alarmWord (irq ctr out : Bool) (ctrId : Nat) : Word :=
  BitVec.ofNat 64 (ofBool true + 2 * ofBool irq + 4 * ofBool ctr + 8 * ofBool out + ctrId % 65536 * 65536)

theorem alarmWord_fields (irq ctr out : Bool) (ctrId : Nat) : (alarmWord irq ctr out ctrId).getLsbD 0 = true ∧
    (alarmWord irq ctr out ctrId).getLsbD 1 = irq ∧ (alarmWord irq ctr out ctrId).getLsbD 2 = ctr ∧ (alarmWord irq ctr out ctrId).getLsbD 3 = out ∧
    bitsOf (alarmWord irq ctr out ctrId) 31 16 = ctrId % 65536 := by
  simp only [alarmWord, BitVec.getLsbD_ofNat, Nat.testBit_eq_decide_div_mod_eq, bitsOf, BitVec.toNat_ofNat]
  cases irq <;> cases ctr <;> cases out <;> simp [ofBool] <;> omega

/-- The alarm that ALARM_CTRL arms, as the command writes it. -/
def State.alarmArmed (s : State) (irq ctr out : Bool) (ctrId : Nat) : State :=
  s.updAlarm fun a => { a with arm := true, irq := irq, ctr := ctr, out := out, ctrId := ctrId % 65536 }

theorem alarmArmed_alarm (s : State) (irq ctr out : Bool) (ctrId : Nat) : (s.alarmArmed irq ctr out ctrId).alarm (s.fld TIDE.ALARM_SEL) =
    { s.alarm (s.fld TIDE.ALARM_SEL) with arm := true, irq := irq, ctr := ctr, out := out, ctrId := ctrId % 65536 } :=
  Table.findD_put_self _ _ _ _

theorem alarmCtrlHook_arms {s : State} {page ctrId : Nat} {old : Word} {irq ctr out : Bool} (unarmed : (s.alarm (s.fld TIDE.ALARM_SEL)).arm = false) :
    alarmCtrlHook .cores page old (alarmWord irq ctr out ctrId) s =
      if (s.alarm (s.fld TIDE.ALARM_SEL)).tide ≤ s.tide.now then (s.alarmArmed irq ctr out ctrId).fireAlarm (s.fld TIDE.ALARM_SEL)
      else s.alarmArmed irq ctr out ctrId := by
  obtain ⟨h0, h1, h2, h3, hid⟩ := alarmWord_fields irq ctr out ctrId
  have tide : ((s.alarmArmed irq ctr out ctrId).alarm (s.fld TIDE.ALARM_SEL)).tide = (s.alarm (s.fld TIDE.ALARM_SEL)).tide :=
    (congrArg Alarm.tide (alarmArmed_alarm s irq ctr out ctrId)).trans rfl
  simp only [alarmCtrlHook, alarmBy, h0, h1, h2, h3, hid, unarmed, Bool.false_and, Bool.false_eq_true, if_false, Bool.true_and, decide_eq_true_eq]
  rw [← tide]
  rfl

/-- Settles O37: HOST_TIDE by who writes what, MODE with the rest as it stands, an alarm by the tide it names. -/
theorem tideRegisters : Obligations.TideRegisters := by
  unfold Obligations.TideRegisters
  refine ⟨fun s u now v h lead mode lo hi => ?_, fun s u now req v h bad => ?_, fun s u now mode req h scale => ?_,
    fun s u now ctrId irq ctr out h unarmed later => ?_, fun s u now ctrId irq ctr out h unarmed due => ?_, fun s u now n ctrId irq ctr out h => ?_⟩
  · exact ⟨_, congrArg Host.Outcome.next ((State.lands_hook hostTideHook h (effect_writable (by decide))).trans (hostTideHook_takes ⟨rfl, lead, mode, lo, hi⟩)),
      State.setFld_fits u TIDE.HOST_TIDE (by decide) v.isLt, rfl, (congrArg Tide.now (State.lands_tide h) : u.tide.now = _)⟩
  · refine congrArg Host.Outcome.next ((State.lands_hook hostTideHook h (effect_writable (by decide))).trans (hostTideHook_refuses ?_))
    rintro ⟨fn, lead, mode, lo, hi⟩
    rcases bad with other | member | mode' | below | above
    · exact other fn
    · exact Bool.false_ne_true (member.symm.trans lead)
    · exact mode' mode
    · omega
    · omega
  · exact congrArg Host.Outcome.next ((State.lands_hook tideCfgHook h (effect_writable (by decide))).trans (tideCfgHook_mode scale))
  · exact ⟨_, congrArg Host.Outcome.next ((State.lands_hook alarmCtrlHook h (effect_writable (by decide))).trans ((alarmCtrlHook_arms unarmed).trans
      (if_neg (Nat.not_le.mpr later)))), rfl, alarmArmed_alarm u irq ctr out ctrId⟩
  · exact ⟨u.alarmArmed irq ctr out ctrId, congrArg Host.Outcome.next ((State.lands_hook alarmCtrlHook h (effect_writable (by decide))).trans
      ((alarmCtrlHook_arms unarmed).trans (if_pos due))), congrArg Alarm.arm (alarmArmed_alarm u irq ctr out ctrId),
      (congrArg Tide.now (State.lands_tide h) : u.tide.now = _)⟩
  · exact congrArg Host.Outcome.next (State.lands_hook alarmCtrlHook h (effect_writable (by decide)))

/-! Sources of event time (10, Sources and local watermarks). -/

theorem srcWord_fields (id ms : Nat) {op : Nat} (h : op < 8) :
    bitsOf (srcWord op id ms) 18 16 = op ∧ bitsOf (srcWord op id ms) 9 0 = id % 1024 ∧ bitsOf (srcWord op id ms) 47 32 = ms % 65536 := by
  simp only [bitsOf, srcWord, BitVec.toNat_ofNat]
  omega

/-- What the registers show when a source command ends. -/
theorem srcResult_shows (s : State) {r : Nat} (h : r < 16) : (s.srcResult r).fld TIDE.RESULT = r ∧ (s.srcResult r).fld TIDE.DONE = 1 :=
  ⟨State.setFld_fits _ _ (by decide) h, (State.setFld_apart _ _ (by decide)).trans (State.setFld_set _ _ (by decide) (by decide))⟩

theorem lagNotice_tide (s : State) : s.lagNotice.tide = s.tide :=
  (State.noticeEval_frame rfl (Frame.refl s) : Frame 14 s _).part .tide rfl

theorem setSource_found (s : State) (id : Nat) (x : Source) : Table.find? (s.setSource id x).lagNotice.tide.sources id = some x := by
  rw [lagNotice_tide]
  exact Table.find?_put_self _ _ _

section srcCmd

variable {s : State} {req : Requester} {page id : Nat} {old : Word}

theorem srcCmdHook_range {ms : Nat} (outside : 767 < id % 1024) : srcCmdHook req page old (srcWord 1 id ms) s = s.srcResult 3 := by
  obtain ⟨hop, hid, -⟩ := srcWord_fields id ms (op := 1) (by decide)
  simp [srcCmdHook, hop, hid, outside]

theorem srcCmdHook_opens {ms : Nat} (inside : id % 1024 ≤ 767) (lo : 1 ≤ ms % 65536) (hi : ms % 65536 ≤ 60000) (arg : s.fld TIDE.SRC_ARG ≤ 2 ^ 62)
    (unknown : Table.find? s.tide.sources (id % 1024) = none) : srcCmdHook req page old (srcWord 1 id ms) s =
      ((s.setSource (id % 1024) { delay := s.fld TIDE.SRC_ARG, idleMs := ms % 65536, heard := s.chrono }).lagNotice).srcResult 0 := by
  obtain ⟨hop, hid, hms⟩ := srcWord_fields id ms (op := 1) (by decide)
  have idle : ¬ms % 65536 < 1 := Nat.not_lt.mpr lo
  simp [srcCmdHook, hop, hid, hms, Nat.not_lt.mpr inside, idle, Nat.not_lt.mpr hi, unknown]
  exact fun above => absurd above (Nat.not_lt.mpr arg)

variable {ms : Nat} (inside : id % 1024 ≤ 767)

include inside

theorem srcCmdHook_unknown (unknown : Table.find? s.tide.sources (id % 1024) = none) :
    srcCmdHook req page old (srcWord 3 id ms) s = s.srcResult 2 := by
  obtain ⟨hop, hid, -⟩ := srcWord_fields id ms (op := 3) (by decide)
  simp [srcCmdHook, hop, hid, Nat.not_lt.mpr inside, unknown]

variable {x : Source} (known : Table.find? s.tide.sources (id % 1024) = some x)

include known

theorem srcCmdHook_closes : srcCmdHook req page old (srcWord 2 id ms) s = if s.sourceHeld (id % 1024) then s.srcResult 1
    else ((s.modTide fun t => { t with sources := Table.drop t.sources (id % 1024) }).lagNotice).srcResult 0 := by
  obtain ⟨hop, hid, -⟩ := srcWord_fields id ms (op := 2) (by decide)
  simp [srcCmdHook, hop, hid, Nat.not_lt.mpr inside, known]

theorem srcCmdHook_hears :
    srcCmdHook req page old (srcWord 3 id ms) s = (s.sourceHears (id % 1024) 0 (s.fld TIDE.SRC_ARG)).srcResult 0 := by
  obtain ⟨hop, hid, -⟩ := srcWord_fields id ms (op := 3) (by decide)
  simp [srcCmdHook, hop, hid, Nat.not_lt.mpr inside, known]

theorem srcCmdHook_idles :
    srcCmdHook req page old (srcWord 4 id ms) s = ((s.setSource (id % 1024) { x with idle := true }).lagNotice).srcResult 0 := by
  obtain ⟨hop, hid, -⟩ := srcWord_fields id ms (op := 4) (by decide)
  simp [srcCmdHook, hop, hid, Nat.not_lt.mpr inside, known]

theorem srcCmdHook_activates : srcCmdHook req page old (srcWord 5 id ms) s =
    (((s.setSource (id % 1024) { x with idle := false, heard := s.chrono }).sourceWake x).lagNotice).srcResult 0 := by
  obtain ⟨hop, hid, -⟩ := srcWord_fields id ms (op := 5) (by decide)
  simp [srcCmdHook, hop, hid, Nat.not_lt.mpr inside, known]

theorem srcCmdHook_reads : srcCmdHook req page old (srcWord 6 id ms) s = (s.srcShown (some x)).srcResult 0 := by
  obtain ⟨hop, hid, -⟩ := srcWord_fields id ms (op := 6) (by decide)
  simp [srcCmdHook, hop, hid, Nat.not_lt.mpr inside, known]

end srcCmd

theorem State.lands_srcCmd {s u : State} {now op id : Nat} {req : Requester} (h : s.lands now req 0x058 0x1A0 (srcWord op id (s.fld TIDE.IDLE_MS)) u) :
    (s.at now).srcCmd req op id = srcCmdHook req 0x058 (s.word 0 0x058 0x1A0) (srcWord op id (s.fld TIDE.IDLE_MS)) u :=
  State.lands_hook srcCmdHook h (effect_writable (by decide))

theorem srcShown_fields (s : State) (x : Source) : ((s.srcShown (some x)).srcResult 0).fld TIDE.S_OPEN = 1 ∧
    ((s.srcShown (some x)).srcResult 0).fld TIDE.S_IDLE = ofBool x.idle ∧ ((s.srcShown (some x)).srcResult 0).fld TIDE.SRC_WM = x.w % 2 ^ 64 := by
  simp only [State.srcResult, State.srcShown]
  refine ⟨?_, ?_, ?_⟩
  · repeat rw [State.setFld_apart _ _ (by decide)]
    exact State.setFld_set _ _ (by decide) (by decide)
  · repeat rw [State.setFld_apart _ _ (by decide)]
    refine State.setFld_fits _ _ (by decide) ?_
    show ofBool x.idle < 2
    cases x.idle <;> decide
  · repeat rw [State.setFld_apart _ _ (by decide)]
    exact State.setFld_self _ _ _ (by decide)

/-- Settles O38: SRC_CMD's hook by its operation, and a source that nothing has reached in time. -/
theorem tideSources : Obligations.TideSources := by
  unfold Obligations.TideSources
  refine ⟨fun s u now id ms req h inside lo hi arg unknown => ?_, fun s u now id ms req h outside => ?_, fun s u now id req x h inside known free => ?_,
    fun s u now id req x h inside known held => ?_, fun s u now id req x h inside known => ?_, fun s u now id req x h inside known => ?_,
    fun s u now id req x h inside known => ?_, fun s u now id req x h inside known => ?_, fun s now id x known active late => ?_,
    fun s now id x known early => ?_, fun s u now id req h inside unknown => ?_⟩
  · refine ⟨_, congrArg Host.Outcome.next ((State.lands_hook srcCmdHook h (effect_writable (by decide))).trans (srcCmdHook_opens inside lo hi arg unknown)),
      (srcResult_shows _ (by decide)).1, (srcResult_shows _ (by decide)).2, ?_⟩
    refine (setSource_found _ _ _).trans ?_
    rw [show u.chrono = max s.chrono now from (State.lands_only h).part .chrono rfl]
  · exact ⟨_, congrArg Host.Outcome.next ((State.lands_hook srcCmdHook h (effect_writable (by decide))).trans (srcCmdHook_range outside)),
      (srcResult_shows _ (by decide)).1, (State.lands_tide h : u.tide = _)⟩
  · refine ⟨_, congrArg Host.Outcome.next ((State.lands_srcCmd h).trans ((srcCmdHook_closes inside known).trans (if_neg (by simp [free])))),
      (srcResult_shows _ (by decide)).1, ?_⟩
    exact (congrArg (fun t : Tide => Table.find? t.sources (id % 1024)) (lagNotice_tide _)).trans (Table.find?_drop_self _ _)
  · exact ⟨_, congrArg Host.Outcome.next ((State.lands_srcCmd h).trans ((srcCmdHook_closes inside known).trans (if_pos held))),
      (srcResult_shows _ (by decide)).1, (State.lands_tide h : u.tide = _)⟩
  · exact congrArg Host.Outcome.next ((State.lands_srcCmd h).trans (srcCmdHook_hears inside known))
  · exact ⟨_, congrArg Host.Outcome.next ((State.lands_srcCmd h).trans (srcCmdHook_idles inside known)), setSource_found _ _ _,
      (srcResult_shows _ (by decide)).1⟩
  · refine congrArg Host.Outcome.next ((State.lands_srcCmd h).trans ((srcCmdHook_activates inside known).trans ?_))
    rw [show u.chrono = max s.chrono now from (State.lands_only h).part .chrono rfl]
  · obtain ⟨open_, idle, wm⟩ := srcShown_fields u x
    exact ⟨_, congrArg Host.Outcome.next ((State.lands_srcCmd h).trans (srcCmdHook_reads inside known)), open_, idle, wm,
      (srcResult_shows _ (by decide)).1, (State.lands_tide h : u.tide = _)⟩
  · have known' : Table.find? (s.at now).tide.sources id = some x := known
    have late' : x.heard + x.idleMs * 1000000 ≤ (s.at now).chrono := late
    refine ⟨((s.at now).setSource id { x with idle := true }).lagNotice, ?_, setSource_found _ _ _, (congrArg Tide.now (lagNotice_tide _)).trans rfl⟩
    change execSourceIdleExpire now id s = _
    simp only [execSourceIdleExpire, known', active, late', Bool.not_false, Bool.true_and, decide_true, if_true]
  · have known' : Table.find? (s.at now).tide.sources id = some x := known
    have early' : ¬x.heard + x.idleMs * 1000000 ≤ (s.at now).chrono := Nat.not_le.mpr early
    change execSourceIdleExpire now id s = _
    simp only [execSourceIdleExpire, known', early', decide_false, Bool.and_false, Bool.false_eq_true, if_false]
  · exact ⟨_, congrArg Host.Outcome.next ((State.lands_srcCmd h).trans (srcCmdHook_unknown inside unknown)), (srcResult_shows _ (by decide)).1,
      (State.lands_tide h : u.tide = _)⟩

end Sys2Proof.Machine
end

section
/-! The damage log, dictionaries and window commands of Strainer (12, 13, 15). -/

namespace Sys2Proof.Machine

open Sys2Proof.Reg

/-! The damage log ring (12, The damage log ring). -/

theorem survey_found {s : State} {j : Nat} {job : Job} (found : s.job? j = some job) :
    s.survey j = (List.range job.plan.stages.length).foldl (fun x i => x.surveyStage j i) s := by
  simp [State.survey, found]

theorem survey_none {s : State} {j : Nat} (none_ : s.job? j = none) : s.survey j = s := by
  simp [State.survey, none_]

theorem dlogNotice_fld (s : State) {g : Field} (hc : fieldApart INTAKE.CROSSED g = true) (hn : fieldApart INTAKE.DLOG_CROSSINGS g = true) :
    s.dlogNotice.fld g = s.fld g := State.noticeEval_fld _ _ _ _ _ _ hc hn

theorem dlogNotice_frame (s : State) : Frame 14 s s.dlogNotice := State.noticeEval_frame rfl (Frame.refl s)

theorem dlogHeadWord (head : Nat) : bitsOf (BitVec.ofNat 64 (head % 65536)) 15 0 = head % 65536 := coreMask head

theorem dlogDepth_setHead (s : State) (v : Nat) : (s.setFld INTAKE.DLOG_HEAD v).dlogDepth = s.dlogDepth :=
  congrArg (2 ^ ·) (State.setFld_apart s v (by decide))

theorem setHead_fld (s : State) (head : Nat) : (s.setFld INTAKE.DLOG_HEAD (head % 65536)).fld INTAKE.DLOG_HEAD = head % 65536 :=
  State.setFld_fits _ _ (by decide) (Nat.mod_lt _ (by decide))

/-- A head between the old head and the tail is taken. -/
theorem dlogHeadHook_takes {s : State} {req : Requester} {page head : Nat} {old : Word} (inside : head % 65536 < s.dlogDepth)
    (reached : occupancy (bitsOf old 15 0) (head % 65536) s.dlogDepth ≤ occupancy (bitsOf old 15 0) s.dlog.tail s.dlogDepth) :
    dlogHeadHook req page old (BitVec.ofNat 64 (head % 65536)) s = (s.setFld INTAKE.DLOG_HEAD (head % 65536)).dlogNotice := by
  simp only [dlogHeadHook, dlogHeadWord, State.dlogHead, setHead_fld, dlogDepth_setHead]
  exact if_pos (by simp [inside, reached])

theorem dlogHeadHook_refuses {s : State} {req : Requester} {page head : Nat} {old : Word} (outside : s.dlogDepth ≤ head % 65536) :
    dlogHeadHook req page old (BitVec.ofNat 64 (head % 65536)) s =
      ((s.setFld INTAKE.DLOG_HEAD (head % 65536)).setFld INTAKE.DLOG_HEAD (bitsOf old 15 0)).raiseBy req 0x070 20 0x118 := by
  simp only [dlogHeadHook, dlogHeadWord, State.dlogHead, setHead_fld, dlogDepth_setHead]
  exact if_neg (by simp [Nat.not_lt.mpr outside])

/-- The log enabled on a ring that passes the checks: it starts empty. -/
theorem dlogEnable_starts {s : State} (on : s.bit INTAKE.ENABLE = true) (lo : 4 ≤ s.fld INTAKE.LOG_DEPTH) (hi : s.fld INTAKE.LOG_DEPTH ≤ 16)
    (aligned : s.fld INTAKE.DLOG_BASE % 4096 = 0) (mapped : engineMapped (s.fld INTAKE.DLOG_BASE) (64 * 2 ^ s.fld INTAKE.LOG_DEPTH) = true) :
    s.dlogEnable false = ({ s with dlog := {} }.setFld INTAKE.DLOG_HEAD 0).dlogNotice := by
  simp [State.dlogEnable, on, lo, hi, aligned, mapped]

theorem dlogEnable_shallow {s : State} (on : s.bit INTAKE.ENABLE = true) (shallow : s.fld INTAKE.LOG_DEPTH < 4) :
    s.dlogEnable false = (s.setFld INTAKE.ENABLE 0).raiseOwn 0x070 19 := by
  simp [State.dlogEnable, on, Nat.not_le.mpr shallow]

/-- DLOG_CTRL written 1 while the log was off. -/
theorem dlogCtrlHook_on {s : State} {req : Requester} {page : Nat} {old : Word} (off : old.getLsbD 0 = false) :
    dlogCtrlHook req page old 1#64 s = (s.setFld INTAKE.ENABLE 1).dlogEnable false := by
  simp only [dlogCtrlHook, off]
  rfl

/-- Settles O39: the surveys in the order of the stages; the log's head and its enable by their checks. -/
theorem intakeLog : Obligations.IntakeLog := by
  unfold Obligations.IntakeLog
  refine ⟨fun s now j job found => congrArg Host.Outcome.next (survey_found (s := s.at now) found),
    fun s now j none_ => congrArg Host.Outcome.next (survey_none (s := s.at now) none_), fun s u now head req h inside reached => ?_,
    fun s u now head req h outside => ?_, fun s u now req h off lo hi aligned mapped => ?_, fun s u now req h off shallow => ?_, fun s e => rfl⟩
  · have frame := dlogNotice_frame (u.setFld INTAKE.DLOG_HEAD (head % 65536))
    exact ⟨_, congrArg Host.Outcome.next ((State.lands_hook dlogHeadHook h (effect_writable (by decide))).trans (dlogHeadHook_takes inside reached)),
      (dlogNotice_fld _ (by decide) (by decide)).trans (setHead_fld u head), (frame.part .dlog rfl).trans ((State.lands_only h).part .dlog rfl),
      (frame.part .mem rfl).trans (State.lands_mem h : u.mem = _)⟩
  · refine ⟨_, congrArg Host.Outcome.next ((State.lands_hook dlogHeadHook h (effect_writable (by decide))).trans (dlogHeadHook_refuses outside)), ?_,
      (bitAt_toNat _ _).trans (State.raise_sets_sticky _ 0 0x070 _ _ _ (by decide))⟩
    exact (State.raise_fld _ _ _ _ _ _ (by decide) (by decide) (by decide) (by decide)).trans
      (State.setFld_fits _ _ (by decide) (bitsOf_lt (s.word 0 0x070 0x118) 15 0))
  · have on : (u.setFld INTAKE.ENABLE 1).bit INTAKE.ENABLE = true := State.setFld_set_bit _ _ (by decide) (by decide)
    have depth : (u.setFld INTAKE.ENABLE 1).fld INTAKE.LOG_DEPTH = u.fld INTAKE.LOG_DEPTH := State.setFld_apart _ _ (by decide)
    have base : (u.setFld INTAKE.ENABLE 1).fld INTAKE.DLOG_BASE = u.fld INTAKE.DLOG_BASE := State.setFld_apart _ _ (by decide)
    have starts := dlogEnable_starts on (depth ▸ lo) (depth ▸ hi) (base ▸ aligned) (by rw [base, depth]; exact mapped)
    refine ⟨_, congrArg Host.Outcome.next ((State.lands_hook dlogCtrlHook h (effect_writable (by decide))).trans ((dlogCtrlHook_on off).trans starts)), ?_,
      (dlogNotice_frame _).part .dlog rfl, (dlogNotice_fld _ (by decide) (by decide)).trans (State.setFld_fits _ _ (by decide) (by decide))⟩
    refine Eq.trans ?_ on
    exact congrArg (· != 0) ((dlogNotice_fld _ (by decide) (by decide)).trans (State.setFld_apart _ _ (by decide)))
  · have on : (u.setFld INTAKE.ENABLE 1).bit INTAKE.ENABLE = true := State.setFld_set_bit _ _ (by decide) (by decide)
    have depth : (u.setFld INTAKE.ENABLE 1).fld INTAKE.LOG_DEPTH = u.fld INTAKE.LOG_DEPTH := State.setFld_apart _ _ (by decide)
    refine ⟨_, congrArg Host.Outcome.next ((State.lands_hook dlogCtrlHook h (effect_writable (by decide))).trans ((dlogCtrlHook_on off).trans
      (dlogEnable_shallow on (depth ▸ shallow)))), ?_, ?_⟩
    · refine (congrArg (· != 0) (State.raiseOwn_fld _ _ _ (by decide) (by decide) (by decide) (by decide))).trans ?_
      exact State.setFld_bit_self _ _ _ (by decide)
    · have frame : Frame 6 ((u.setFld INTAKE.ENABLE 1).setFld INTAKE.ENABLE 0) (((u.setFld INTAKE.ENABLE 1).setFld INTAKE.ENABLE 0).raiseOwn 0x070 19) :=
        State.raiseOwn_frame rfl (Frame.refl _)
      exact (frame.part .dlog rfl).trans ((State.lands_only h).part .dlog rfl)

/-! Dictionaries (13, Register pages: CHURN). -/

theorem dictWord_op (slot : Nat) {op : Nat} (h : op < 8) : bitsOf (dictWord op slot) 10 8 = op := by
  simp only [bitsOf, dictWord, BitVec.toNat_ofNat]
  omega

/-- What the registers show when a dictionary command ends. -/
theorem dictDone_shows (s : State) (slot : Nat) {r : Nat} (h : r < 16) : (s.dictDone slot r).fld CHURN.RESULT = r ∧
    (s.dictDone slot r).bit CHURN.DONE = true ∧ (s.dictDone slot r).bit CHURN.BUSY = false := by
  simp only [State.dictDone, State.bit]
  refine ⟨?_, ?_, ?_⟩
  · exact (State.setFld_apart _ _ (by decide)).trans (State.setFld_fits _ _ (by decide) h)
  · rw [State.setFld_apart _ _ (by decide), State.setFld_apart _ _ (by decide), State.setFld_set _ _ (by decide) (by decide)]
    rfl
  · rw [State.setFld_apart _ _ (by decide), State.setFld_apart _ _ (by decide), State.setFld_apart _ _ (by decide), State.setFld_self _ _ _ (by decide)]
    rfl

theorem dictCmdHook_idle {s : State} {req : Requester} {page : Nat} {old : Word} (slot : Nat) (idle : s.bit CHURN.BUSY = false) :
    dictCmdHook req page old (dictWord 1 slot) s = s.dictRegister ∧ dictCmdHook req page old (dictWord 2 slot) s = s.dictUnregister ∧
      dictCmdHook req page old (dictWord 3 slot) s = s.dictRead := by
  simp [dictCmdHook, dictWord_op slot (op := 1) (by decide), dictWord_op slot (op := 2) (by decide), dictWord_op slot (op := 3) (by decide), idle]

theorem dictCmdHook_busy {s : State} {req : Requester} {page : Nat} {old : Word} (slot : Nat) (busy : s.bit CHURN.BUSY = true) :
    dictCmdHook req page old (dictWord 1 slot) s = s.setFld CHURN.REFUSED 1 := by
  simp [dictCmdHook, dictWord_op slot (op := 1) (by decide), busy]

theorem dictRegister_taken {s : State} (taken : Table.has s.churn.dicts (s.fld CHURN.SLOT) = true) : s.dictRegister = s.dictDone (s.fld CHURN.SLOT) 1 := by
  simp [State.dictRegister, taken]

/-- The bytes that DICT_ADDR and DICT_LEN name. -/
def State.dictSource (s : State) : Bytes := s.loadBytes (s.fld CHURN.DICT_ADDR) (s.fld CHURN.DICT_LEN)

theorem dictRegister_new {s : State} (free : Table.has s.churn.dicts (s.fld CHURN.SLOT) = false) (lo : 8 ≤ s.fld CHURN.DICT_LEN)
    (hi : s.fld CHURN.DICT_LEN ≤ 1048576) (same : sameSpace (s.fld CHURN.DICT_ADDR) (s.fld CHURN.DICT_LEN) = true)
    (space : spaceOf (s.fld CHURN.DICT_ADDR) = .vat) (magic : leAt s.dictSource 0 4 = 0xEC30A437) (some_ : leAt s.dictSource 4 4 ≠ 0)
    (new_ : s.churn.dicts.any (fun e => e.2.id == leAt s.dictSource 4 4) = false) (fits : s.dictBytes + s.fld CHURN.DICT_LEN ≤ 0x4000000)
    (room : pagesMib (s.dictBytes + s.fld CHURN.DICT_LEN) - pagesMib s.dictBytes ≤ s.skimFree) :
    s.dictRegister = (s.setDicts (Table.put s.churn.dicts (s.fld CHURN.SLOT) ⟨leAt s.dictSource 4 4, s.dictSource⟩)).dictDone (s.fld CHURN.SLOT) 0 := by
  unfold State.dictSource at *
  simp only [State.dictRegister, free, Bool.false_eq_true, if_false, Nat.not_lt.mpr lo, Nat.not_lt.mpr hi, same, space, magic, some_, new_,
    Nat.not_lt.mpr fits, Nat.not_lt.mpr room, not_true, true_or, ne_eq, or_self]

theorem dictSettle_unused {s : State} {slot : Nat} (unreg : s.churn.unreg = some slot) (unused : s.dictInUse slot = false) :
    s.dictSettle = { s.setDicts (Table.drop s.churn.dicts slot) with
      churn := { (s.setDicts (Table.drop s.churn.dicts slot)).churn with unreg := none } }.dictDone slot 0 := by
  simp [State.dictSettle, unreg, unused]

theorem dictSettle_used {s : State} {slot : Nat} (unreg : s.churn.unreg = some slot) (used : s.dictInUse slot = true) : s.dictSettle = s := by
  simp [State.dictSettle, unreg, used]

theorem dictUnregister_known {s : State} (known : Table.has s.churn.dicts (s.fld CHURN.SLOT) = true) :
    s.dictUnregister = { (s.setFld CHURN.BUSY 1).setFld CHURN.DONE 0 with churn := { s.churn with unreg := some (s.fld CHURN.SLOT) } } := if_pos known

theorem State.lands_churn {s u : State} {now : Nat} {req : Requester} {page off : Nat} {v : Word} (h : s.lands now req page off v u) :
    u.churn = s.churn :=
  (State.lands_only h).part .churn rfl

/-- Settles O40: DICT_CMD's hook, the checks of a registration, and the end of an unregistration. -/
theorem dictionaries : Obligations.Dictionaries := by
  unfold Obligations.Dictionaries
  refine ⟨fun s u now slot req h idle => ?_, fun s u now slot req h busy => ?_, fun s taken => ?_,
    fun s free lo hi same space magic some_ new_ fits room => ?_, fun s u now slot req h idle known => ?_, fun s now slot unreg unused => ?_,
    fun s now slot unreg used => congrArg Host.Outcome.next (dictSettle_used (s := s.at now) unreg used), fun s u now slot req h idle => ?_⟩
  · exact congrArg Host.Outcome.next ((State.lands_hook dictCmdHook h (effect_writable (by decide))).trans (dictCmdHook_idle slot idle).1)
  · exact congrArg Host.Outcome.next ((State.lands_hook dictCmdHook h (effect_writable (by decide))).trans (dictCmdHook_busy slot busy))
  · rw [dictRegister_taken taken]
    obtain ⟨result, done_, idle⟩ := dictDone_shows s (s.fld CHURN.SLOT) (r := 1) (by decide)
    exact ⟨_, rfl, result, done_, idle, rfl⟩
  · rw [dictRegister_new free lo hi same space magic some_ new_ fits room]
    obtain ⟨result, done_, -⟩ := dictDone_shows (s.setDicts (Table.put s.churn.dicts (s.fld CHURN.SLOT) ⟨leAt s.dictSource 4 4, s.dictSource⟩))
      (s.fld CHURN.SLOT) (r := 0) (by decide)
    exact ⟨_, rfl, result, done_, Table.find?_put_self _ _ _⟩
  · have unregisters := (dictCmdHook_idle (s := u) (req := req) (page := 0x080) (old := s.word (ownerOf req 0x080) 0x080 0x108) slot idle).2.1
    refine ⟨_, congrArg Host.Outcome.next ((State.lands_hook dictCmdHook h (effect_writable (by decide))).trans (unregisters.trans (dictUnregister_known known))),
      ?_, State.setFld_bit_self _ CHURN.DONE _ (by decide), rfl, (congrArg (·.dicts) (State.lands_churn h) : u.churn.dicts = _)⟩
    exact (State.setFld_bit_apart (f := CHURN.DONE) _ _ (by decide)).trans (State.setFld_set_bit _ _ (by decide) (by decide))
  · obtain ⟨result, done_, idle⟩ := dictDone_shows { (s.at now).setDicts (Table.drop s.churn.dicts slot) with
      churn := { ((s.at now).setDicts (Table.drop s.churn.dicts slot)).churn with unreg := none } } slot (r := 0) (by decide)
    exact ⟨_, congrArg Host.Outcome.next (dictSettle_unused (s := s.at now) unreg unused), rfl, Table.find?_drop_self _ _, idle, done_, result⟩
  · have reads := (dictCmdHook_idle (s := u) (req := req) (page := 0x080) (old := s.word (ownerOf req 0x080) 0x080 0x108) slot idle).2.2
    have small : (if Table.has u.churn.dicts (u.fld CHURN.SLOT) then 0 else 2) < 16 := by split <;> decide
    obtain ⟨result, done_, -⟩ := dictDone_shows u (u.fld CHURN.SLOT) small
    exact ⟨_, congrArg Host.Outcome.next ((State.lands_hook dictCmdHook h (effect_writable (by decide))).trans reads), result, done_,
      (State.lands_churn h : u.churn = _)⟩

end Sys2Proof.Machine
end

section
/-! Window commands and banks of Strainer (15). -/

namespace Sys2Proof.Machine

open Sys2Proof.Reg

/-! The windows (15, Register page: STRAINER). -/

theorem winWord_op (units : Nat) {op : Nat} (h : op < 8) : bitsOf (BitVec.ofNat 64 (op + units % 4 * 256)) 2 0 = op := by
  simp only [bitsOf, BitVec.toNat_ofNat]
  omega

theorem winResult_shows (s : State) {r : Nat} (h : r < 16) : (s.winResult false r).fld STRAINER.W_RESULT = r :=
  State.setFld_fits _ _ (by decide) h

theorem winResult_fld (s : State) (r : Nat) {g : Field} (hd : fieldApart STRAINER.W_DONE g = true) (hr : fieldApart STRAINER.W_RESULT g = true) :
    (s.winResult false r).fld g = s.fld g :=
  (State.setFld_apart _ _ hr).trans (State.setFld_apart _ _ hd)

theorem winResult_word (s : State) (r : Nat) {off : Nat} (other : off ≠ 0x160) : (s.winResult false r).word 0 0x0A0 off = s.word 0 0x0A0 off :=
  (State.setFld_word_other _ _ (key_ne_of_off _ _ other.symm)).trans (State.setFld_word_other _ _ (key_ne_of_off _ _ other.symm))

/-- A command of a window that is not busy, on the entry that SEL names. -/
theorem strCmdHook_entry {s : State} {req : Requester} {page op : Nat} {old : Word} (fw : Bool) (units : Nat) (some_ : 1 ≤ op) (entry : op ≤ 3)
    (idle : s.bit (winField fw STRAINER.W_BUSY) = false) :
    strCmdHook fw req page old (BitVec.ofNat 64 (op + units % 4 * 256)) s = s.winEntry fw op := by
  simp only [strCmdHook, winWord_op units (op := op) (by omega), idle]
  rw [if_neg (by omega), if_neg (by decide), if_neg (by omega), if_neg (by omega)]

theorem strCmdHook_search {s : State} {req : Requester} {page : Nat} {old : Word} (fw : Bool) (units : Nat)
    (idle : s.bit (winField fw STRAINER.W_BUSY) = false) :
    strCmdHook fw req page old (BitVec.ofNat 64 (4 + units % 4 * 256)) s = s.winSearch fw (s.fld (winField fw STRAINER.W_CMD_UNITS)) := by
  simp [strCmdHook, winWord_op units (op := 4) (by decide), idle]

theorem fwOnly_others {s : State} {req : Requester} {page off : Nat} {old w : Word} (h : Hook) (other : req ≠ .cores) :
    fwOnly off h req page old w s = s.setWord 0 page off old := by
  cases req with
  | cores => exact absurd rfl other
  | _ => rfl

/-- The words of a window lie behind its entry register. -/
theorem setWinWords_entry (s : State) (f : Field) (ws : List Nat) {g : Field} (page : f.page = g.page) (behind : g.off < f.off) :
    (s.setWinWords false f ws).fld g = s.fld g := by
  suffices h : ∀ (l : List (Nat × Nat)) (s : State), (l.foldl (fun s w => s.setFld (winField false (f.at w.2)) w.1) s).fld g = s.fld g from h _ s
  intro l
  induction l with
  | nil => exact fun _ => rfl
  | cons w l ih =>
    intro s
    refine (ih _).trans (State.setFld_elsewhere _ _ ?_)
    change key 0 f.page (f.off + w.2 * f.stride) ≠ key 0 g.page g.off
    rw [page]
    exact key_ne_of_off _ _ (by omega)

theorem winEntry_oos {s : State} (op : Nat) (oos : s.bankOos (s.fld STRAINER.W_SEL_BANK) = true) : s.winEntry false op = s.winResult false 3 := if_pos oos

/-- What WRITE leaves in the entry that SEL names. -/
def State.winGiven (s : State) : StrEntry where
  valid := s.bit STRAINER.W_ENTRY_VALID
  prio := s.fld STRAINER.W_ENTRY_PRIO
  data := winUnitsOf (s.bankUnits (s.fld STRAINER.W_SEL_BANK)) (s.winWords false STRAINER.W_DATA)
  mask := winUnitsOf (s.bankUnits (s.fld STRAINER.W_SEL_BANK)) (s.winWords false STRAINER.W_MASK)

/-- The window after READ, before its result. -/
def State.winShown (s : State) (b : Nat) (e : StrEntry) : State :=
  ((((((s.bankTouch b).count STRAINER.UPDATES 1).setFld STRAINER.W_ENTRY_VALID (ofBool e.valid)).setFld STRAINER.W_ENTRY_PRIO e.prio).setWinWords
    false STRAINER.W_DATA e.data).setWinWords false STRAINER.W_MASK e.mask)

/-- What the window shows of an entry read. -/
theorem winShown_entry (s : State) (b : Nat) (e : StrEntry) :
    ((s.winShown b e).winResult false 0).fld STRAINER.W_ENTRY_PRIO = e.prio % 2 ^ 16 ∧
      ((s.winShown b e).winResult false 0).bit STRAINER.W_ENTRY_VALID = e.valid := by
  unfold State.winShown State.bit
  constructor
  · rw [winResult_fld _ _ (by decide) (by decide), setWinWords_entry _ _ _ (by decide) (by decide), setWinWords_entry _ _ _ (by decide) (by decide)]
    exact State.setFld_self _ _ _ (by decide)
  · rw [winResult_fld _ _ (by decide) (by decide), setWinWords_entry _ _ _ (by decide) (by decide), setWinWords_entry _ _ _ (by decide) (by decide),
      State.setFld_apart _ _ (by decide), State.setFld_self _ _ _ (by decide)]
    cases e.valid <;> rfl

theorem winShown_mem (s : State) (b : Nat) (e : StrEntry) : ((s.winShown b e).winResult false 0).mem = s.mem :=
  (State.winResult_frame (m := 131078) rfl (State.setWinWords_frame rfl (State.setWinWords_frame rfl (State.setFld_frame rfl (State.setFld_frame rfl
    (State.count_frame rfl (State.bankTouch_frame rfl (Frame.refl s)))))))).part .mem rfl

/-- The commands on an entry of a bank in service, which is not protected where the command writes. -/
theorem winEntry_serves {s : State} {op : Nat} (oos : s.bankOos (s.fld STRAINER.W_SEL_BANK) = false)
    (inside : s.fld STRAINER.W_SEL_INDEX < s.bankEntries (s.fld STRAINER.W_SEL_BANK))
    (may : op = 2 ∨ s.bit (STRAINER.HOST_WP.at (s.fld STRAINER.W_SEL_BANK)) = false) :
    (op = 1 → s.winEntry false op = (s.strWrite (s.fld STRAINER.W_SEL_BANK) (s.fld STRAINER.W_SEL_INDEX) 2 s.winGiven).winResult false 0) ∧
    (op = 2 → s.winEntry false op = (s.winShown (s.fld STRAINER.W_SEL_BANK)
      (s.strEntry (s.fld STRAINER.W_SEL_BANK) (s.fld STRAINER.W_SEL_INDEX))).winResult false 0) ∧
    (op = 3 → s.winEntry false op = (s.strWrite (s.fld STRAINER.W_SEL_BANK) (s.fld STRAINER.W_SEL_INDEX) 2
      { s.strEntry (s.fld STRAINER.W_SEL_BANK) (s.fld STRAINER.W_SEL_INDEX) with valid := false }).winResult false 0) := by
  have opened : ¬(op ≠ 2 ∧ (false : Bool) = false ∧ s.bit (STRAINER.HOST_WP.at (s.fld STRAINER.W_SEL_BANK)) = true) := by
    rintro ⟨ne, -, protected_⟩
    rcases may with is | off
    · exact ne is
    · exact Bool.noConfusion (off.symm.trans protected_)
  unfold State.winEntry
  refine ⟨?_, ?_, ?_⟩ <;> rintro rfl <;>
    exact (if_neg (ne_true_of_eq_false oos)).trans ((if_neg (Nat.not_le.mpr inside)).trans (if_neg opened))

theorem winEntry_protected {s : State} (oos : s.bankOos (s.fld STRAINER.W_SEL_BANK) = false)
    (inside : s.fld STRAINER.W_SEL_INDEX < s.bankEntries (s.fld STRAINER.W_SEL_BANK))
    (protected_ : s.bit (STRAINER.HOST_WP.at (s.fld STRAINER.W_SEL_BANK)) = true) : s.winEntry false 1 = (s.raiseOwn 0x0A0 19).winResult false 4 :=
  (if_neg (ne_true_of_eq_false oos)).trans ((if_neg (Nat.not_le.mpr inside)).trans (if_pos ⟨by decide, rfl, protected_⟩))

/-- Settles O41: W_CMD's hook chooses the command; each command by SEL's bank, its service and its protection. -/
theorem strainerWindows : Obligations.StrainerWindows := by
  unfold Obligations.StrainerWindows
  refine ⟨fun s u now req h idle => ?_, fun s u now req h idle => ?_, fun s u now req h idle => ?_, fun s u now units req h idle => ?_,
    fun s u now h idle => ?_, fun s u now req h other => ?_, fun s op b i hb hi oos inside may => ?_, fun s op oos => ?_,
    fun s oos inside protected_ => ?_⟩
  · exact congrArg Host.Outcome.next ((State.lands_hook (strCmdHook false) h (effect_writable (by decide))).trans
      (strCmdHook_entry false (s.winUnits false) (by decide) (by decide) idle))
  · exact congrArg Host.Outcome.next ((State.lands_hook (strCmdHook false) h (effect_writable (by decide))).trans
      (strCmdHook_entry false (s.winUnits false) (by decide) (by decide) idle))
  · exact congrArg Host.Outcome.next ((State.lands_hook (strCmdHook false) h (effect_writable (by decide))).trans
      (strCmdHook_entry false (s.winUnits false) (by decide) (by decide) idle))
  · exact congrArg Host.Outcome.next ((State.lands_hook (strCmdHook false) h (effect_writable (by decide))).trans (strCmdHook_search false units idle))
  · exact congrArg Host.Outcome.next ((State.lands_hook (fwOnly 0x208 (strCmdHook true)) h (effect_writable (by decide))).trans
      (strCmdHook_entry (old := s.word (ownerOf .cores 0x0A0) 0x0A0 0x208) true (s.winUnits true) (by decide) (by decide) idle))
  · exact congrArg Host.Outcome.next ((State.lands_hook (fwOnly 0x208 (strCmdHook true)) h (effect_writable (by decide))).trans (fwOnly_others _ other))
  · subst hb hi
    obtain ⟨writes, reads, clears⟩ := winEntry_serves oos inside may
    refine ⟨writes, clears, fun is => ⟨_, reads is, ?_⟩⟩
    obtain ⟨prio, valid⟩ := winShown_entry s (s.fld STRAINER.W_SEL_BANK) (s.strEntry (s.fld STRAINER.W_SEL_BANK) (s.fld STRAINER.W_SEL_INDEX))
    exact ⟨prio, valid, winResult_shows _ (by decide), winShown_mem _ _ _⟩
  · exact ⟨_, winEntry_oos op oos, winResult_shows s (by decide), rfl⟩
  · have frame : Frame 6 s ((s.raiseOwn 0x0A0 19).winResult false 4) := State.winResult_frame rfl (State.raiseOwn_frame rfl (Frame.refl s))
    refine ⟨_, winEntry_protected oos inside protected_, winResult_shows _ (by decide), frame.part .strainer rfl, ?_⟩
    rw [winResult_word _ _ (by decide), bitAt_toNat]
    exact State.raise_sets_sticky s 0 0x0A0 _ _ _ (by decide)

end Sys2Proof.Machine
end

section
/-! Banks of Strainer: entries, matches, width, service, scrub and LOAD (15). -/

namespace Sys2Proof.Machine

open Sys2Proof.Reg

/-! One bank. -/

theorem State.setBank_bank_self (s : State) (b : Nat) (k : StrBank) : (s.setBank b k).bank b = k := Table.findD_put_self _ _ _ _

theorem State.setBank_bank_other (s : State) {b c : Nat} (k : StrBank) (other : c ≠ b) : (s.setBank b k).bank c = s.bank c :=
  Table.findD_put_other _ _ _ other.symm

theorem State.bank_of_strainer {s t : State} (h : t.strainer = s.strainer) (b : Nat) : t.bank b = s.bank b :=
  congrArg (fun x : Strainer => Table.findD x.banks b {}) h

/-- A bank that takes an update keeps its entries and its scrub's place; the other banks are as before. -/
theorem bankTouch_keeps (s : State) (b : Nat) : ((s.bankTouch b).bank b).entries = (s.bank b).entries ∧
    ((s.bankTouch b).bank b).scrubAt = (s.bank b).scrubAt ∧ (∀ c, c ≠ b → (s.bankTouch b).bank c = s.bank c) ∧ (s.bankTouch b).regs = s.regs ∧
    (s.bankTouch b).mem = s.mem := by
  unfold State.bankTouch
  dsimp only
  split
  · exact ⟨rfl, rfl, fun c _ => rfl, rfl, rfl⟩
  · rw [State.setBank_bank_self]
    exact ⟨rfl, rfl, fun c other => State.setBank_bank_other _ _ other, rfl, rfl⟩

/-- An entry that no other path wrote in the same cycle is what the write gives. -/
theorem strWrite_alone {s : State} {b i path : Nat} (e : StrEntry)
    (alone : ((s.bankTouch b).bank b).writes.filter (fun w => w.1 == i && w.2 != path) = []) :
    (s.strWrite b i path e).strainer = ((s.bankTouch b).setBank b { (s.bankTouch b).bank b with
      entries := Table.put ((s.bankTouch b).bank b).entries i e, writes := ((s.bankTouch b).bank b).writes ++ [(i, path)] }).strainer := by
  simp only [State.strWrite, alone]
  rfl

/-! The first match (R313). -/

theorem better_irrefl (m : Match) : better m m = false := by
  simp [better]

theorem better_trans {a b c : Match} (h : better a b = true) (g : better b c = true) : better a c = true := by
  simp only [better, Bool.or_eq_true, Bool.and_eq_true, decide_eq_true_eq, beq_iff_eq] at *
  omega

theorem better_of_not {a b c : Match} (h : better a b = false) (g : better a c = true) : better b c = true := by
  simp only [better, Bool.or_eq_true, Bool.or_eq_false_iff, Bool.and_eq_true, Bool.and_eq_false_imp, decide_eq_true_eq, decide_eq_false_iff_not,
    beq_iff_eq] at *
  omega

/-- The stronger of the best match so far and a new one. -/
def bestOf (best : Option Match) (m : Match) : Option Match :=
  match best with
  | none => some m
  | some m' => if better m m' then some m else some m'

/-- The best match of a list, from the best so far. -/
theorem foldl_bestOf (l : List Match) (best : Option Match) :
    (l.foldl bestOf best = none ↔ l = [] ∧ best = none) ∧
      ∀ m, l.foldl bestOf best = some m → (m ∈ l ∨ best = some m) ∧ (∀ x ∈ l, better x m = false) ∧ (∀ x, best = some x → better x m = false) := by
  induction l generalizing best with
  | nil =>
    refine ⟨by simp, ?_⟩
    rintro m (rfl : best = some m)
    exact ⟨.inr rfl, by simp, fun x is => by injection is with is; rw [is]; exact better_irrefl _⟩
  | cons y l ih =>
    obtain ⟨none_, some_⟩ := ih (bestOf best y)
    have found : bestOf best y ≠ none := by
      unfold bestOf
      split
      · exact Option.some_ne_none _
      · split <;> exact Option.some_ne_none _
    refine ⟨by simp [none_, found], fun m h => ?_⟩
    obtain ⟨from_, beats, old⟩ := some_ m h
    cases best with
    | none =>
      refine ⟨from_.elim (fun mem => .inl (List.mem_cons_of_mem _ mem)) fun is => .inl (by injection is with is; simp [is]), ?_, by simp⟩
      exact List.forall_mem_cons.mpr ⟨old y rfl, beats⟩
    | some z =>
      by_cases stronger : better y z = true
      · have now_ : bestOf (some z) y = some y := if_pos stronger
        refine ⟨from_.elim (fun mem => .inl (List.mem_cons_of_mem _ mem)) fun is => .inl ?_, List.forall_mem_cons.mpr ⟨old y now_, beats⟩, ?_⟩
        · rw [now_] at is
          injection is with is
          simp [is]
        · rintro x ⟨⟩
          exact Bool.eq_false_iff.mpr fun beaten => Bool.noConfusion ((old y now_).symm.trans (better_trans stronger beaten))
      · have now_ : bestOf (some z) y = some z := if_neg stronger
        refine ⟨from_.elim (fun mem => .inl (List.mem_cons_of_mem _ mem)) fun is => .inr (now_.symm.trans is), ?_, ?_⟩
        · refine List.forall_mem_cons.mpr ⟨?_, beats⟩
          exact Bool.eq_false_iff.mpr fun beaten => Bool.noConfusion ((old z now_).symm.trans (better_of_not (eq_false_of_ne_true stronger) beaten))
        · rintro x ⟨⟩
          exact old z now_

/-- The matches of a key in a set of banks, in the order of a search. -/
def State.matchesIn (s : State) (banks : Nat) (key : List Nat) : List Match :=
  (bitsSet banks 32).flatMap fun b => ((s.bank b).entries.filter fun e => matchesKey e.2 key).map fun e => (e.2.prio, b, e.1)

theorem mem_matchesIn {s : State} {banks : Nat} {key : List Nat} {m : Match} : m ∈ s.matchesIn banks key ↔
    ∃ b ∈ bitsSet banks 32, ∃ e ∈ (s.bank b).entries, matchesKey e.2 key = true ∧ (e.2.prio, b, e.1) = m := by
  simp [State.matchesIn, and_assoc]

/-- A search is the best of all matches. -/
theorem searchBanks_eq (s : State) (banks : Nat) (key : List Nat) : s.searchBanks banks key = (s.matchesIn banks key).foldl bestOf none := by
  simp only [State.matchesIn, List.foldl_flatMap, List.foldl_map, List.foldl_filter]
  rfl

/-! Width and service (R319, R326). -/

theorem bankCfg_width (old : Word) {w : Nat} (h : w ≤ 2) : bitsOf (putBits old 1 0 w) 1 0 = w :=
  (bitsOf_putBits_self (by decide)).trans (Nat.mod_eq_of_lt (by omega))

theorem bankCfg_oos (old : Word) (oos : Bool) : bitsOf (putBits old 4 4 (ofBool oos)) 4 4 = ofBool oos :=
  (bitsOf_putBits_self (by decide)).trans (by cases oos <;> rfl)

/-- BANK_CFG of each bank has fields that software may write. -/
theorem bankCfg_writable {b : Nat} (h : b < 32) : (fieldsAt 0x0A0 (0x300 + 8 * b)).all (fun f => f.acc = .ro) = false := by
  have all : ∀ b < 32, (fieldsAt 0x0A0 (0x300 + 8 * b)).all (fun f => f.acc = .ro) = false := by decide +kernel
  exact all b h

/-- The fields of one bank's register beside each other. -/
theorem bankFields_apart (b : Nat) : fieldApart (STRAINER.OOS.at b) (STRAINER.WIDTH.at b) = true ∧
    fieldApart (STRAINER.OOS.at b) (STRAINER.VALID_COUNT.at b) = true ∧ fieldApart (STRAINER.WIDTH.at b) (STRAINER.VALID_COUNT.at b) = true := by
  simp [fieldApart, Field.at, STRAINER.OOS, STRAINER.WIDTH, STRAINER.VALID_COUNT]

/-- A bank's new width clears it. -/
theorem bankCfgHook_width {s : State} {req : Requester} {page b w : Nat} {old seen : Word} (given : bitsOf seen 1 0 = w) (valid : w ≤ 2)
    (new_ : s.fld (STRAINER.WIDTH.at b) ≠ w) (free : s.bankLoading b = false) :
    bankCfgHook b req page old seen s = ((s.bankClear b).setFld (STRAINER.WIDTH.at b) w).setFld (STRAINER.OOS.at b) (bitsOf seen 4 4) := by
  simp [bankCfgHook, given, new_.symm, Nat.not_lt.mpr valid, free]

theorem bankCfgHook_loading {s : State} {req : Requester} {page b w : Nat} {old seen : Word} (given : bitsOf seen 1 0 = w) (valid : w ≤ 2)
    (new_ : s.fld (STRAINER.WIDTH.at b) ≠ w) (loading : s.bankLoading b = true) :
    bankCfgHook b req page old seen s = (s.raiseBy req page 21 (0x300 + 8 * b)).setFld (STRAINER.OOS.at b) (bitsOf seen 4 4) := by
  simp [bankCfgHook, given, new_.symm, Nat.not_lt.mpr valid, loading]

theorem bankCfgHook_same {s : State} {req : Requester} {page b : Nat} {old seen : Word} (same : bitsOf seen 1 0 = s.fld (STRAINER.WIDTH.at b)) :
    bankCfgHook b req page old seen s = s.setFld (STRAINER.OOS.at b) (bitsOf seen 4 4) := by
  simp [bankCfgHook, same]

/-- A bank cleared has no entries; the others are as before. -/
theorem bankClear_banks (s : State) (b : Nat) : ((s.bankClear b).bank b).entries = [] ∧ ∀ c, c ≠ b → (s.bankClear b).bank c = s.bank c := by
  have shape : (s.bankClear b).strainer = ((s.bankTouch b).setBank b { (s.bankTouch b).bank b with entries := [] }).strainer := rfl
  constructor
  · rw [State.bank_of_strainer shape, State.setBank_bank_self]
  · intro c other
    rw [State.bank_of_strainer shape, State.setBank_bank_other _ _ other]
    exact (bankTouch_keeps s b).2.2.1 c other

theorem State.lands_strainer {s u : State} {now : Nat} {req : Requester} {page off : Nat} {v : Word} (h : s.lands now req page off v u) :
    u.strainer = s.strainer :=
  (State.lands_only h).part .strainer rfl

theorem errorOff_bankCfg (b : Nat) : errorOff (STRAINER.WIDTH.at b).off = false := by
  refine eq_false_of_ne_true fun err => ?_
  have small : 0x300 + b * 8 < 0x100 := errorOff_small err
  omega

/-! Scrub (R325). -/

/-- The state after a scrub step's comparison: the scrub's place moves on. -/
def State.scrubbed (s : State) (b : Nat) : State :=
  (s.bankTouch b).setBank b { (s.bankTouch b).bank b with scrubAt := ((s.bank b).scrubAt % s.bankEntries b + 1) % s.bankEntries b }

theorem scrubbed_keeps (s : State) (b : Nat) : ((s.scrubbed b).bank b).scrubAt = ((s.bank b).scrubAt % s.bankEntries b + 1) % s.bankEntries b ∧
    ((s.scrubbed b).bank b).entries = (s.bank b).entries ∧ (s.scrubbed b).regs = s.regs ∧ (s.scrubbed b).mem = s.mem ∧
    ∀ c, c ≠ b → (s.scrubbed b).bank c = s.bank c := by
  obtain ⟨entries, -, others, regs, mem⟩ := bankTouch_keeps s b
  have here : (s.scrubbed b).bank b = { (s.bankTouch b).bank b with scrubAt := ((s.bank b).scrubAt % s.bankEntries b + 1) % s.bankEntries b } :=
    State.setBank_bank_self _ _ _
  exact ⟨congrArg (·.scrubAt) here, (congrArg (·.entries) here).trans entries, regs, mem,
    fun c other => (State.setBank_bank_other _ _ other).trans (others c other)⟩

theorem execScrubStep_runs {s : State} {b : Nat} (now : Nat) (flawed dead : Bool) (inside : b < 32) (released : s.power.released = true)
    (serves : s.bankOos b = false) : execScrubStep now b flawed dead s = .next (
      if dead then (((((s.at now).scrubbed b).setFld (STRAINER.FAILED.at b) 1).setFld STRAINER.UE_INDEX ((s.bank b).scrubAt % s.bankEntries b)).setFld
        STRAINER.UE_BANK b).raiseOwn 0x0A0 18 |>.faultRecord ⟨2, 0x12, 0, 0, 0x0A0, s.node.id, 0, 0, 0, 0, 0⟩
      else if flawed then (((s.at now).scrubbed b).count STRAINER.SCRUB_CORRECTED 1).raiseOwn 0x0A0 17 else (s.at now).scrubbed b) := by
  have running : ((!(s.at now).power.released) || (s.at now).bankOos b) = false := by
    have serves' : (s.at now).bankOos b = false := serves
    simp [released, serves']
  exact (if_neg (Nat.not_le.mpr inside)).trans (congrArg Host.Outcome.next (if_neg (ne_true_of_eq_false running)))

theorem execScrubStep_oos {s : State} {b : Nat} (now : Nat) (flawed dead : Bool) (inside : b < 32) (oos : s.bankOos b = true) :
    execScrubStep now b flawed dead s = .next (s.at now) := by
  have stopped : ((!(s.at now).power.released) || (s.at now).bankOos b) = true := by
    have oos' : (s.at now).bankOos b = true := oos
    simp [oos']
  exact (if_neg (Nat.not_le.mpr inside)).trans (congrArg Host.Outcome.next (if_pos stopped))

/-- A bank with a new width. -/
def State.rewidened (s : State) (b w oos : Nat) : State := ((s.bankClear b).setFld (STRAINER.WIDTH.at b) w).setFld (STRAINER.OOS.at b) oos

theorem rewidened_shows (s : State) (b oos : Nat) {w : Nat} (valid : w ≤ 2) : (s.rewidened b w oos).fld (STRAINER.WIDTH.at b) = w ∧
    ((s.rewidened b w oos).bank b).entries = [] ∧ (s.rewidened b w oos).fld (STRAINER.VALID_COUNT.at b) = 0 ∧
    ∀ c, c ≠ b → (s.rewidened b w oos).bank c = s.bank c := by
  obtain ⟨ow, ov, wv⟩ := bankFields_apart b
  obtain ⟨cleared, others⟩ := bankClear_banks s b
  have kept (c : Nat) : (s.rewidened b w oos).bank c = (s.bankClear b).bank c :=
    State.bank_of_strainer ((State.setFld_strainer _ _ _).trans (State.setFld_strainer _ _ _)) c
  have small : w < 2 ^ 2 := by omega
  refine ⟨?_, (congrArg (·.entries) (kept b)).trans cleared, ?_, fun c other => (kept c).trans (others c other)⟩
  · exact (State.setFld_apart _ _ ow).trans (State.setFld_fits _ _ (by change 1 < 64; decide) small)
  · exact (State.setFld_apart _ _ ov).trans ((State.setFld_apart _ _ wv).trans (State.setFld_fits _ _ (by change 30 < 64; decide) (by change 0 < 2 ^ 15; decide)))

/-! A LOAD's write pass (R323). -/

theorem loadPass_partial {s w : State} {j st n done : Nat} {l : StrLoad} {job : Job} (turn : s.loadTurn j st = some l) (found : s.job? j = some job)
    (serve : (bitsSet l.banks 32).any s.bankOos = false)
    (writes : s.loadWrites (Table.findD (job.engOf st).texts 0 []) (job.engOf st).consumed n = (w, done))
    (left : done < (Table.findD (job.engOf st).texts 0 []).length / 80) :
    s.loadPass j st n = w.setEng j st { job.engOf st with consumed := done } := by
  simp only [State.loadPass, turn, found, serve, writes, Nat.not_le.mpr left, Bool.false_eq_true, if_false]

theorem loadPass_waits {s : State} {j st : Nat} (n : Nat) (turn : s.loadTurn j st = none) : s.loadPass j st n = s := by
  simp [State.loadPass, turn]

/-- Settles O42: entries through one bank's update; a search as the best of all matches; BANK_CFG's hook, a scrub step and a LOAD's pass by their
cases. -/
theorem strainerBanks : Obligations.StrainerBanks := by
  unfold Obligations.StrainerBanks
  refine ⟨fun s b i path e alone => ?_, fun s banks key m found => ?_, fun s banks key none_ b hb e he => ?_,
    fun s banks key m found b hb e he matches_ => ?_, fun s u now b w req inside h valid new_ free => ?_,
    fun s u now b w req inside h valid new_ loading => ?_, fun s u now b oos req inside h same => ?_,
    fun s now b flawed dead inside released serves => ?_, fun s now b flawed dead inside oos => execScrubStep_oos now flawed dead inside oos,
    fun s w now j st n done l job turn found serve writes left => ?_,
    fun s now j st n turn => congrArg Host.Outcome.next (loadPass_waits (s := s.at now) n turn)⟩
  · have shape := strWrite_alone e alone
    obtain ⟨entries, -, others, -, -⟩ := bankTouch_keeps s b
    unfold State.strEntry
    simp only [State.bank_of_strainer shape, State.setBank_bank_self, entries]
    exact ⟨Table.findD_put_self _ _ _ _, fun j other => Table.findD_put_other _ _ _ other.symm,
      fun c other => (State.setBank_bank_other _ _ other).trans (others c other)⟩
  · rw [searchBanks_eq] at found
    obtain ⟨from_, -, -⟩ := (foldl_bestOf _ _).2 m found
    obtain ⟨b, hb, e, he, matches_, rfl⟩ := mem_matchesIn.mp (from_.resolve_right (by simp))
    exact ⟨hb, e.2, he, matches_, rfl⟩
  · rw [searchBanks_eq, (foldl_bestOf _ _).1] at none_
    refine Bool.eq_false_iff.mpr fun matches_ => ?_
    have mem : (e.2.prio, b, e.1) ∈ s.matchesIn banks key := mem_matchesIn.mpr ⟨b, hb, e, he, matches_, rfl⟩
    rw [none_.1] at mem
    exact List.not_mem_nil mem
  · rw [searchBanks_eq] at found
    exact ((foldl_bestOf _ _).2 m found).2.1 _ (mem_matchesIn.mpr ⟨b, hb, e, he, matches_, rfl⟩)
  · obtain ⟨width, cleared, none_, others⟩ := rewidened_shows u b (bitsOf (putBits (s.word 0 0x0A0 (0x300 + 8 * b)) 1 0 w) 4 4) valid
    exact ⟨_, (if_neg (Nat.not_le.mpr inside)).trans (congrArg Host.Outcome.next ((State.lands_hook (bankCfgHook b) h (bankCfg_writable inside)).trans
      (bankCfgHook_width (bankCfg_width _ valid) valid new_ free))), width, cleared, none_,
      fun c other => (others c other).trans (State.bank_of_strainer (State.lands_strainer h) c)⟩
  · refine ⟨_, (if_neg (Nat.not_le.mpr inside)).trans (congrArg Host.Outcome.next ((State.lands_hook (bankCfgHook b) h (bankCfg_writable inside)).trans
      (bankCfgHook_loading (bankCfg_width _ valid) valid new_ loading))), ?_, ?_, ?_⟩
    · refine (State.setFld_apart _ _ (bankFields_apart b).1).trans ?_
      have small : (STRAINER.WIDTH.at b).off < 0x1000 := by
        change 0x300 + b * 8 < 0x1000
        omega
      exact State.raise_fld u 0x0A0 _ _ _ _ (by decide) (by change 0x0A0 < 0x4000; decide) small (errorOff_bankCfg b)
    · have frame : Frame 6 u (u.raiseBy req 0x0A0 21 (0x300 + 8 * b)) := State.raiseBy_frame rfl (Frame.refl u)
      exact (frame.part .strainer rfl).trans (State.lands_strainer h)
    · have other : (STRAINER.OOS.at b).off ≠ 0x020 := by
        change 0x300 + b * 8 ≠ 0x020
        omega
      rw [State.setFld_word_other (f := STRAINER.OOS.at b) _ _ (key_ne_of_off 0 0x0A0 other), bitAt_toNat]
      exact State.raise_sets_sticky u 0 0x0A0 _ _ _ (by decide)
  · have same' : bitsOf (putBits (s.word 0 0x0A0 (0x300 + 8 * b)) 4 4 (ofBool oos)) 1 0 = u.fld (STRAINER.WIDTH.at b) :=
      (bitsOf_putBits_other (by decide) (by decide)).trans same
    refine (if_neg (Nat.not_le.mpr inside)).trans (congrArg Host.Outcome.next ((State.lands_hook (bankCfgHook b) h (bankCfg_writable inside)).trans
      ((bankCfgHook_same same').trans ?_)))
    rw [bankCfg_oos]
  · obtain ⟨place, entries, regs, mem, others⟩ := scrubbed_keeps (s.at now) b
    refine ⟨_, (s.at now).scrubbed b, execScrubStep_runs now flawed dead inside released serves, place, entries, regs, mem, others, ?_, ?_, ?_⟩
    · rintro rfl rfl
      rfl
    · rintro rfl rfl
      rfl
    · rintro rfl
      rfl
  · exact congrArg Host.Outcome.next (loadPass_partial (s := s.at now) turn found serve writes left)

end Sys2Proof.Machine
end

section
/-! A join's partitions, probes ahead and messages; window stores (16, 17). -/

namespace Sys2Proof.Machine

open Sys2Proof.Reg

/-! A stage's join. -/

theorem State.join_setJoin {s : State} {j : Nat} {job : Job} (st : Nat) (x : Join) (found : s.job? j = some job) : (s.setJoin j st x).join j st = x := by
  have found' : (s.setJoin j st x).job? j = some { job with joins := Table.put job.joins st x } :=
    (Table.find?_upd_self _ _ _).trans (congrArg (Option.map _) found)
  unfold State.join
  rw [found']
  exact Table.findD_put_self _ _ _ _

theorem State.join_of_work {s t : State} (h : t.work = s.work) (j st : Nat) : t.join j st = s.join j st := by
  simp only [State.join, State.job?, h]

theorem State.job_of_stageCtx {s : State} {j st : Nat} {c : Ctx} (h : s.stageCtx j st = some c) : ∃ job, s.job? j = some job := by
  obtain ⟨job, found, -⟩ := Option.map_eq_some_iff.mp h
  exact ⟨job, found⟩

/-! Reload (16, Build, probe and leave). -/

/-- The partition of a probe row. -/
def Ctx.probePart (c : Ctx) (r : Nat × List Val) : Nat := partOf (keyhash (probeKeys c.block (c.inTys 0) r.2) (ppSeed c.block))

/-- A join whose next spilled partition is back. -/
def Join.reloaded (x : Join) (c : Ctx) (p : Nat) (rest : List Nat) : Join :=
  { x with
    reloads := rest, gen := x.gen + 1, held := x.held.filter (fun r => !(c.probePart r == p))
    parts := Table.put x.parts p { Table.findD x.parts p {} with spilled := false } }

/-- The state in which the held rows of a partition loaded back are probed. -/
def State.reloaded (s : State) (j st : Nat) (c : Ctx) (p : Nat) (rest : List Nat) (inPlace : Bool) : State :=
  let s1 := (s.setJoin j st ((s.join j st).reloaded c p rest)).setFld (PRESS.GEN.on c.page) (((s.join j st).gen + 1) % 65536)
  if inPlace then s1.raiseOwn c.page 17 else s1

theorem reloaded_work (s : State) (j st : Nat) (c : Ctx) (p : Nat) (rest : List Nat) (inPlace : Bool) :
    (s.reloaded j st c p rest inPlace).work = (s.setJoin j st ((s.join j st).reloaded c p rest)).work ∧ (s.reloaded j st c p rest inPlace).mem = s.mem := by
  cases inPlace with
  | false => exact ⟨rfl, rfl⟩
  | true =>
    have frame : Frame 6 (s.reloaded j st c p rest false) (s.reloaded j st c p rest true) := State.raiseOwn_frame rfl (Frame.refl _)
    exact ⟨frame.part .work rfl, frame.part .mem rfl⟩

/-- What follows from the probe of the held rows. -/
def State.reloadEnds (s : State) (j st : Nat) (rest : List Nat) (page : Nat) (r : Ran) : State :=
  match r with
  | .done w _ => if rest.isEmpty then w.stageEnd j st else w
  | .failed w status d => (w.failJob j status st d page).dropQueued j
  | .need .. => s

theorem reloadPart_next {s : State} {j st p : Nat} {rest : List Nat} {c : Ctx} (ctx : s.stageCtx j st = some c)
    (reloads : (s.join j st).reloads = p :: rest) : ∃ inPlace, s.reloadPart j st =
      s.reloadEnds j st rest c.page ((s.reloaded j st c p rest inPlace).probeRows c ((s.join j st).held.filter fun r => c.probePart r == p)) := by
  simp only [State.reloadPart, ctx, reloads]
  exact ⟨_, rfl⟩

theorem reloadPart_none {s : State} {j st : Nat} {c : Ctx} (ctx : s.stageCtx j st = some c) (none_ : (s.join j st).reloads = []) :
    s.reloadPart j st = s := by
  simp [State.reloadPart, ctx, none_]

/-! Probes ahead (16, Speculative probes). -/

/-- Rows that an idle engine unit may probe ahead. -/
def State.aheadRows (s : State) (job : Job) (st rows : Nat) : Nat :=
  min rows (min (s.fld PRESS.SPEC_ROWS) ((inputLen job ((job.plan.stage st).in_ 0)).1 - (job.engOf st).consumed))

theorem probeAhead_takes {s : State} {j st rows : Nat} {job : Job} (found : s.job? j = some job) (press : (job.plan.stage st).cls = 6)
    (allowed : bitAt (job.plan.stage st).flags 1 = true) (probing : (job.engOf st).phase = 1) (none_ : (s.join j st).ahead = none)
    (some_ : 0 < s.aheadRows job st rows) (room : sumTable s.tiers.runaheadUsed < 16 * s.fld VAT.RUNAHEAD_MAX) (idle : s.work.slices = []) :
    s.probeAhead j st rows =
      ((s.setJoin j st { s.join j st with ahead := some ⟨(job.engOf st).consumed, s.aheadRows job st rows, (s.join j st).gen, 1⟩ }).modTiers fun t =>
        { t with runaheadUsed := Table.put t.runaheadUsed j (Table.findD t.runaheadUsed j 0 + 1) }).count
          (PRESS.SPEC_PROBES.on (s.join j st).page) (s.aheadRows job st rows) := by
  unfold State.aheadRows at *
  have free : 0 < 16 * s.fld VAT.RUNAHEAD_MAX - sumTable s.tiers.runaheadUsed := by omega
  simp only [State.probeAhead, found]
  exact if_pos ⟨press, allowed, probing, none_, some_, free, by simp [State.pageSlices, idle]⟩

theorem probeAhead_elsewhere {s : State} {j st : Nat} {job : Job} (rows : Nat) (found : s.job? j = some job) (other : (job.engOf st).phase ≠ 1) :
    s.probeAhead j st rows = s := by
  simp [State.probeAhead, found, other]

/-! The messages of a shuffled join (16, The shuffle join). -/

theorem joinRun_work {s u : State} {p : Packet} {b : Option Bytes} (h : s.joinRun p = (u, b)) : u.work = s.work := by
  unfold State.joinRun at h
  dsimp only at h
  split at h
  · injection h with h _
    rw [← h]
    rfl
  · injection h with h _
    rw [← h]
    rfl

theorem onRequest_fresh {s : State} {p : Packet} (f : State → State × Option Nat) (fresh : s.arrival p.dst p.src p.reqSeq = .fresh) :
    s.onRequest p f = (f s).1.markSeq p.dst p.src p.reqSeq ((f s).2.getD unanswered) := by
  simp [State.onRequest, fresh]

theorem onRequest_below {s : State} {p : Packet} (f : State → State × Option Nat) (below : s.arrival p.dst p.src p.reqSeq = .below) :
    s.onRequest p f = s := by
  simp [State.onRequest, below]

theorem pressServe_below {s : State} {p : Packet} (f : State → Nat → Bytes → State) (released : s.power.released = true)
    (below : s.arrival p.dst p.src p.reqSeq = .below) : s.pressServe p f = s := by
  unfold State.pressServe
  rw [if_neg (by simp [released])]
  exact onRequest_below _ below

/-- A whole message of a job that goes on. -/
theorem pressServe_whole {s u : State} {p : Packet} {f : State → Nat → Bytes → State} {j : Nat} {job : Job} {bytes : Bytes}
    (released : s.power.released = true) (fresh : s.arrival p.dst p.src p.reqSeq = .fresh) (whole : s.joinRun p = (u, some bytes))
    (herd : u.jobByHerd p.job = some j) (found : u.job? j = some job) (good : job.status = 0)
    (plain : ¬(p.subtype = 0x20 ∧ p.arg0 % 2 = 0 ∧ (f u j bytes).bit TWIN.MIRROR_PRESS = true)) :
    s.pressServe p f = ((f u j bytes).reply p 0 0 0 []).markSeq p.dst p.src p.reqSeq 0 := by
  have herd' : s.jobByHerd p.job = some j := by
    simpa only [State.jobByHerd, joinRun_work whole] using herd
  have found' : s.job? j = some job := by
    simpa only [State.job?, joinRun_work whole] using found
  unfold State.pressServe
  rw [if_neg (by simp [released]), onRequest_fresh _ fresh]
  simp only [whole, herd', found', good, Option.bind_some, Option.map_some, if_true, if_neg plain]
  rfl

/-- Settles O43: the reload's next partition, the guard of a probe ahead, and a message that is whole, fresh and of a job that goes on. -/
theorem joinCommands : Obligations.JoinCommands := by
  unfold Obligations.JoinCommands
  refine ⟨fun s now j st c ctx none_ => congrArg Host.Outcome.next (reloadPart_none ctx none_), fun s now j st p rest c ctx reloads => ?_,
    fun s now j st rows job found press allowed probing none_ some_ room idle => ?_,
    fun s now j st rows job found other => congrArg Host.Outcome.next (probeAhead_elsewhere (s := s.at now) rows found other),
    fun s u now j p job bytes released fresh whole herd found good plain => ?_,
    fun s u now j p job bytes released fresh whole herd found good other => ?_,
    fun s u now j p job bytes released fresh whole herd found good other => ?_, fun s now p released below => ?_⟩
  · obtain ⟨job, found⟩ := State.job_of_stageCtx ctx
    obtain ⟨inPlace, next⟩ := reloadPart_next ctx reloads
    obtain ⟨work, mem⟩ := reloaded_work (s.at now) j st c p rest inPlace
    have here : ((s.at now).reloaded j st c p rest inPlace).join j st = (s.join j st).reloaded c p rest :=
      (State.join_of_work work j st).trans (State.join_setJoin st _ found)
    refine ⟨_, _, ?_, ?_, ?_, fun r mem => (List.mem_filter.mp mem).1, mem, congrArg Host.Outcome.next next⟩
    · rw [here]
      rfl
    · rw [here]
      exact congrArg JoinPart.spilled (Table.findD_put_self _ _ _ _)
    · rw [here]
      rfl
  · exact ⟨_, congrArg Host.Outcome.next (probeAhead_takes (s := s.at now) found press allowed probing none_ some_ room idle),
      congrArg (·.ahead) (State.join_setJoin (s := s.at now) st _ found), Table.findD_put_self _ _ _ _⟩
  · exact congrArg Host.Outcome.next (pressServe_whole (s := s.at now) released fresh whole herd found good plain)
  · exact congrArg Host.Outcome.next (pressServe_whole (s := s.at now) released fresh whole herd found good fun h => other h.1)
  · exact congrArg Host.Outcome.next (pressServe_whole (s := s.at now) released fresh whole herd found good fun h => other h.1)
  · exact ⟨congrArg Host.Outcome.next (pressServe_below (s := s.at now) _ released below),
      congrArg Host.Outcome.next (pressServe_below (s := s.at now) _ released below),
      congrArg Host.Outcome.next (pressServe_below (s := s.at now) _ released below)⟩

/-! Window stores (17, Window stores). -/

/-- The fields of a command word of STORE_CMD. -/
theorem storeWord_fields (op id tier quota : Nat) (h : op < 8) :
    bitsOf (BitVec.ofNat 64 (id % 256 + op * 256 + tier * 2 ^ 16 + quota * 2 ^ 32)) 10 8 = op ∧
      bitsOf (BitVec.ofNat 64 (id % 256 + op * 256 + tier * 2 ^ 16 + quota * 2 ^ 32)) 7 0 = id % 256 := by
  simp only [bitsOf, BitVec.toNat_ofNat]
  omega

theorem openWord_fields (id tier quota : Nat) :
    bitsOf (BitVec.ofNat 64 (id % 256 + 256 + tier % 4 * 2 ^ 16 + quota % 2 ^ 17 * 2 ^ 32)) 10 8 = 1 ∧
      bitsOf (BitVec.ofNat 64 (id % 256 + 256 + tier % 4 * 2 ^ 16 + quota % 2 ^ 17 * 2 ^ 32)) 7 0 = id % 256 ∧
      bitsOf (BitVec.ofNat 64 (id % 256 + 256 + tier % 4 * 2 ^ 16 + quota % 2 ^ 17 * 2 ^ 32)) 17 16 = tier % 4 ∧
      bitsOf (BitVec.ofNat 64 (id % 256 + 256 + tier % 4 * 2 ^ 16 + quota % 2 ^ 17 * 2 ^ 32)) 48 32 = quota % 2 ^ 17 := by
  simp only [bitsOf, BitVec.toNat_ofNat]
  omega

theorem storeResult_shows (s : State) {r : Nat} (h : r < 16) : (s.storeResult r).fld RIPENER.RESULT = r ∧ (s.storeResult r).bit RIPENER.DONE = true := by
  refine ⟨State.setFld_fits _ _ (by decide) h, ?_⟩
  exact (State.setFld_bit_apart _ _ (by decide)).trans (State.setFld_set_bit _ _ (by decide) (by decide))

theorem setStore_stores (s : State) (id : Nat) (x : WinStore) : (s.setStore id x).stores = Table.put s.stores id x :=
  (State.stateNotice_frame (m := 14) rfl (Frame.refl _)).part .stores rfl

theorem closeStore_stores {s : State} {id : Nat} {x : WinStore} (found : Table.find? s.stores id = some x) :
    (s.closeStore id).stores = Table.drop s.stores id := by
  simp only [State.closeStore, found]
  exact (State.stateNotice_frame (m := 14) rfl (Frame.refl _)).part .stores rfl

theorem State.lands_stores {s u : State} {now : Nat} {req : Requester} {page off : Nat} {v : Word} (h : s.lands now req page off v u) :
    u.stores = s.stores :=
  (State.lands_only h).part .stores rfl

section StoreCmd

variable {s : State} {req : Requester} {page id : Nat} {old seen : Word} {x : WinStore}

theorem storeCmdHook_unready (op : bitsOf seen 10 8 ≠ 0) (down : s.tiersReady = false) :
    storeCmdHook req page old seen s = s.raiseBy req page 18 0x100 := by
  simp [storeCmdHook, op, down]

theorem storeCmdHook_opens {tier quota : Nat} (op : bitsOf seen 10 8 = 1) (named : bitsOf seen 7 0 = id) (ht : bitsOf seen 17 16 = tier)
    (hq : bitsOf seen 48 32 = quota) (ready : s.tiersReady = true) (free : Table.find? s.stores id = none) (valid : tier = 1 ∨ tier = 2)
    (lo : 1 ≤ quota) (hi : quota ≤ 65536) (room : quota ≤ s.tierFree tier) :
    storeCmdHook req page old seen s = (s.setStore id { tier := tier, quota := quota }).storeResult 0 := by
  have ok : ¬((tier ≠ 1 ∧ tier ≠ 2) ∨ quota < 1 ∨ 65536 < quota) := by omega
  simp only [storeCmdHook, op, named, ht, hq, ready, free, if_neg ok, if_neg (Nat.not_lt.mpr room)]
  rfl

theorem storeCmdHook_taken (op : bitsOf seen 10 8 = 1) (named : bitsOf seen 7 0 = id) (ready : s.tiersReady = true)
    (taken : Table.find? s.stores id = some x) : storeCmdHook req page old seen s = s.storeResult 1 := by
  simp [storeCmdHook, op, named, ready, taken]

theorem storeCmdHook_closes (op : bitsOf seen 10 8 = 2) (named : bitsOf seen 7 0 = id) (ready : s.tiersReady = true)
    (found : Table.find? s.stores id = some x) :
    storeCmdHook req page old seen s = if s.storeHeld id then s.storeResult 1 else (s.closeStore id).storeResult 0 := by
  simp [storeCmdHook, op, named, ready, found]

theorem storeCmdHook_reads (op : bitsOf seen 10 8 = 3) (named : bitsOf seen 7 0 = id) (ready : s.tiersReady = true) :
    storeCmdHook req page old seen s = (s.storeShown (Table.find? s.stores id)).storeResult 0 := by
  simp [storeCmdHook, op, named, ready]

theorem storeCmdHook_clears (op : bitsOf seen 10 8 = 4) (named : bitsOf seen 7 0 = id) (ready : s.tiersReady = true)
    (found : Table.find? s.stores id = some x) (free : s.storeHeld id = false) :
    storeCmdHook req page old seen s = (s.setStore id { tier := x.tier, quota := x.quota }).storeResult 0 := by
  simp [storeCmdHook, op, named, ready, found, free]

theorem storeCmdHook_missing (op : bitsOf seen 10 8 = 4) (named : bitsOf seen 7 0 = id) (ready : s.tiersReady = true)
    (none_ : Table.find? s.stores id = none) : storeCmdHook req page old seen s = s.storeResult 2 := by
  simp [storeCmdHook, op, named, ready, none_]

end StoreCmd

theorem storeShown_open (s : State) (x : Option WinStore) : (s.storeShown x).bit RIPENER.S_OPEN = x.isSome := by
  unfold State.storeShown State.bit
  repeat rw [State.setFld_apart _ _ (by decide)]
  rw [State.setFld_self _ _ _ (by decide)]
  cases x <;> rfl

/-- Settles O44: STORE_CMD's hook by its operation, the tiers' readiness and what the table of stores has. -/
theorem windowStores : Obligations.WindowStores := by
  unfold Obligations.WindowStores
  refine ⟨fun s u now id tier quota req h ready free valid lo hi room => ?_, fun s u now id tier quota x req h ready taken => ?_,
    fun s u now id tier quota req h down => ?_, fun s u now id x req h ready found free => ?_, fun s u now id x req h ready found held => ?_,
    fun s u now id req h ready => ?_, fun s u now id x req h ready found free => ?_, fun s u now id req h ready none_ => ?_⟩
  · obtain ⟨op, named, ht, hq⟩ := openWord_fields id tier quota
    obtain ⟨result, done_⟩ := storeResult_shows (u.setStore (id % 256) { tier := tier % 4, quota := quota % 2 ^ 17 }) (r := 0) (by decide)
    have frame : Frame 33554958 u (u.setStore (id % 256) { tier := tier % 4, quota := quota % 2 ^ 17 }) := State.setStore_frame rfl (Frame.refl u)
    refine ⟨_, congrArg Host.Outcome.next ((State.lands_hook storeCmdHook h (effect_writable (by decide))).trans
      (storeCmdHook_opens op named ht hq ready free valid lo hi room)), ?_, result, done_, (frame.part .work rfl).trans (State.lands_work h : u.work = _)⟩
    exact (congrArg (Table.find? · (id % 256)) (setStore_stores u _ _)).trans (Table.find?_put_self _ _ _)
  · obtain ⟨op, named, -, -⟩ := openWord_fields id tier quota
    exact ⟨_, congrArg Host.Outcome.next ((State.lands_hook storeCmdHook h (effect_writable (by decide))).trans (storeCmdHook_taken op named ready taken)),
      (State.lands_stores h : u.stores = _), (storeResult_shows u (by decide)).1⟩
  · obtain ⟨op, -, -, -⟩ := openWord_fields id tier quota
    exact congrArg Host.Outcome.next ((State.lands_hook storeCmdHook h (effect_writable (by decide))).trans (storeCmdHook_unready (by rw [op]; decide) down))
  · obtain ⟨op, named⟩ := storeWord_fields 2 id (s.fld RIPENER.TIER) (s.fld RIPENER.QUOTA) (by decide)
    refine ⟨_, congrArg Host.Outcome.next ((State.lands_hook storeCmdHook h (effect_writable (by decide))).trans
      ((storeCmdHook_closes op named ready found).trans (if_neg (ne_true_of_eq_false free)))), ?_, (storeResult_shows _ (by decide)).1⟩
    exact (congrArg (Table.find? · (id % 256)) (closeStore_stores found)).trans (Table.find?_drop_self _ _)
  · obtain ⟨op, named⟩ := storeWord_fields 2 id (s.fld RIPENER.TIER) (s.fld RIPENER.QUOTA) (by decide)
    exact ⟨_, congrArg Host.Outcome.next ((State.lands_hook storeCmdHook h (effect_writable (by decide))).trans
      ((storeCmdHook_closes op named ready found).trans (if_pos held))), (State.lands_stores h : u.stores = _), (storeResult_shows u (by decide)).1⟩
  · obtain ⟨op, named⟩ := storeWord_fields 3 id (s.fld RIPENER.TIER) (s.fld RIPENER.QUOTA) (by decide)
    refine ⟨_, congrArg Host.Outcome.next ((State.lands_hook storeCmdHook h (effect_writable (by decide))).trans (storeCmdHook_reads op named ready)), ?_,
      (storeResult_shows _ (by decide)).1, (State.lands_stores h : u.stores = _), (State.lands_mem h : u.mem = _)⟩
    exact ((State.setFld_bit_apart _ _ (by decide)).trans (State.setFld_bit_apart _ _ (by decide))).trans (storeShown_open u _)
  · obtain ⟨op, named⟩ := storeWord_fields 4 id (s.fld RIPENER.TIER) (s.fld RIPENER.QUOTA) (by decide)
    refine ⟨_, congrArg Host.Outcome.next ((State.lands_hook storeCmdHook h (effect_writable (by decide))).trans
      (storeCmdHook_clears op named ready found free)), ?_, (storeResult_shows _ (by decide)).1⟩
    exact (congrArg (Table.find? · (id % 256)) (setStore_stores u _ _)).trans (Table.find?_put_self _ _ _)
  · obtain ⟨op, named⟩ := storeWord_fields 4 id (s.fld RIPENER.TIER) (s.fld RIPENER.QUOTA) (by decide)
    exact ⟨_, congrArg Host.Outcome.next ((State.lands_hook storeCmdHook h (effect_writable (by decide))).trans (storeCmdHook_missing op named ready none_)),
      (State.lands_stores h : u.stores = _), (storeResult_shows u (by decide)).1⟩

end Sys2Proof.Machine
end

section
/-! Embedding tables: commands, and messages of gathers, steps and migrations (19). -/

namespace Sys2Proof.Machine

open Sys2Proof.Reg

/-! Table commands (19, Tables and shards). -/

theorem tblWord_fields (t : Nat) {op : Nat} (h : op < 8) : bitsOf (tblWord op t) 18 16 = op ∧ bitsOf (tblWord op t) 11 0 = t % 4096 := by
  simp only [bitsOf, tblWord, BitVec.toNat_ofNat]
  omega

theorem tblResult_shows (s : State) {r : Nat} (h : r < 16) : (s.tblResult r).fld LADLE.RESULT = r ∧ (s.tblResult r).bit LADLE.DONE = true ∧
    (s.tblResult r).bit LADLE.BUSY = false := by
  unfold State.tblResult
  refine ⟨State.setFld_fits _ _ (by decide) h, ?_, ?_⟩
  · exact (State.setFld_bit_apart _ _ (by decide)).trans (State.setFld_set_bit _ _ (by decide) (by decide))
  · exact (State.setFld_bit_apart _ _ (by decide)).trans ((State.setFld_bit_apart _ _ (by decide)).trans (State.setFld_bit_self _ _ _ (by decide)))

theorem tblMake_invalid {s : State} {t : Nat} (host : Option Bytes) (new_ : s.ltable t = none)
    (bad : tableOk (s.fld LADLE.DTYPE) (s.fld LADLE.HOME) (s.fld LADLE.DIM) (s.fld LADLE.ROWS) = false) : s.tblMake t host true = s.tblResult 3 := by
  simp [State.tblMake, new_, bad]

theorem tblMake_zero {s : State} {t : Nat} (host : Option Bytes) (new_ : s.ltable t = none)
    (ok : tableOk (s.fld LADLE.DTYPE) (s.fld LADLE.HOME) (s.fld LADLE.DIM) (s.fld LADLE.ROWS) = true) (zero : s.fld LADLE.DEFAULT_ADDR = 0) :
    s.tblMake t host true = s.tblStart 1 t (tablePayload {
      dtype := s.fld LADLE.DTYPE, dim := s.fld LADLE.DIM, home := s.fld LADLE.HOME, rows := s.fld LADLE.ROWS, seed := s.fld LADLE.SEED,
      quota := s.fld LADLE.CREAM_QUOTA, dflt := zeros (rowSize (s.fld LADLE.DTYPE) (s.fld LADLE.DIM)), members := s.memberList }) := by
  simp [State.tblMake, new_, ok, zero]

section TblCmd

variable {s : State} {req : Requester} {page : Nat} {old : Word} {host : Option Bytes} {room : Bool}

theorem tblCmdHook_busy (t : Nat) {op : Nat} (h : op < 8) (some_ : op ≠ 0) (busy : s.bit LADLE.BUSY = true) :
    tblCmdHook host room req page old (tblWord op t) s = s.raiseBy req page 17 0x100 := by
  obtain ⟨ho, -⟩ := tblWord_fields t h
  simp [tblCmdHook, ho, some_, busy]

variable (idle : s.bit LADLE.BUSY = false) (ready : s.tiersReady = true)
include idle ready

/-- READ, BIND and SHARD, which every node takes. -/
theorem tblCmdHook_anywhere (t : Nat) : tblCmdHook host room req page old (tblWord 3 t) s = s.tblShow (t % 4096) ∧
    tblCmdHook host room req page old (tblWord 4 t) s = s.tblBind (t % 4096) ∧
    tblCmdHook host room req page old (tblWord 6 t) s = s.tblOwner (t % 4096) := by
  obtain ⟨h3, t3⟩ := tblWord_fields t (op := 3) (by decide)
  obtain ⟨h4, t4⟩ := tblWord_fields t (op := 4) (by decide)
  obtain ⟨h6, t6⟩ := tblWord_fields t (op := 6) (by decide)
  simp [tblCmdHook, h3, t3, h4, t4, h6, t6, idle, ready]

theorem tblCmdHook_create (t : Nat) (lead : s.isLead = true) :
    tblCmdHook host room req page old (tblWord 1 t) s = s.tblMake (t % 4096) host room := by
  obtain ⟨ho, ht⟩ := tblWord_fields t (op := 1) (by decide)
  simp [tblCmdHook, ho, ht, idle, ready, lead]

theorem tblCmdHook_destroy (t : Nat) (lead : s.isLead = true) (free : s.tblInUse (t % 4096) = false) (known : (s.ltable (t % 4096)).isSome = true) :
    tblCmdHook host room req page old (tblWord 2 t) s = s.tblStart 2 (t % 4096) [] := by
  obtain ⟨ho, ht⟩ := tblWord_fields t (op := 2) (by decide)
  simp [tblCmdHook, ho, ht, idle, ready, lead, free, ← Option.not_isSome, known]

theorem tblCmdHook_member (t : Nat) (member : s.isLead = false) : tblCmdHook host room req page old (tblWord 2 t) s = s.tblResult 4 := by
  obtain ⟨ho, ht⟩ := tblWord_fields t (op := 2) (by decide)
  simp [tblCmdHook, ho, idle, ready, member]

theorem tblCmdHook_invalidate (t : Nat) (lead : s.isLead = true) (known : (s.ltable (t % 4096)).isSome = true) :
    tblCmdHook host room req page old (tblWord 5 t) s = s.tblStart 5 (t % 4096) [] := by
  obtain ⟨ho, ht⟩ := tblWord_fields t (op := 5) (by decide)
  simp [tblCmdHook, ho, ht, idle, ready, lead, ← Option.not_isSome, known]

end TblCmd

/-- READ shows whether the table exists. -/
theorem tblShow_shows (s : State) (t : Nat) : (s.tblShow t).bit LADLE.T_EXISTS = (s.ltable t).isSome ∧
    (s.tblShow t).fld LADLE.RESULT = (if (s.ltable t).isSome then 0 else 2) := by
  have small : (if (s.ltable t).isSome then 0 else 2) < 16 := by split <;> decide
  unfold State.tblShow
  refine ⟨?_, (tblResult_shows _ small).1⟩
  unfold State.tblResult State.bit
  repeat rw [State.setFld_apart _ _ (by decide)]
  rw [State.setFld_self _ _ _ (by decide)]
  cases s.ltable t <;> rfl

theorem tblBind_host {s : State} {t : Nat} {x : LTable} (found : s.ltable t = some x) (home : x.home = 2)
    (fits : s.fld LADLE.BIND_ADDR + x.rows * x.stride ≤ 0x400000000000) :
    s.tblBind t = (s.updTable t fun y => { y with bind := some (s.fld LADLE.BIND_ADDR) }).tblResult 0 := by
  simp [State.tblBind, found, home, fits]

theorem tblCmdDone_ends {s : State} {c : TblCmd} (running : s.ladle.cmd = some c) (all : c.missing = []) (now : Nat) :
    execTblCmdDone now s = .next (((s.at now).modLadle fun l => { l with cmd := none }).tblResult c.result) := by
  simp [execTblCmdDone, running, all]

theorem tblCmdDone_waits {s : State} {c : TblCmd} (running : s.ladle.cmd = some c) (some_ : c.missing ≠ []) (now : Nat) :
    execTblCmdDone now s = .next (s.at now) := by
  simp [execTblCmdDone, running, some_]

theorem State.lands_ladle {s u : State} {now : Nat} {req : Requester} {page off : Nat} {v : Word} (h : s.lands now req page off v u) :
    u.ladle = s.ladle :=
  (State.lands_only h).part .ladle rfl

/-- Settles O45: TBL_CMD's hook by its operation and what the table of tables has; the command ends once no member misses it. -/
theorem tableCommands : Obligations.TableCommands := by
  unfold Obligations.TableCommands
  refine ⟨fun s u now t host room req h idle ready lead => ?_, fun s t host new_ ok zero => tblMake_zero host new_ ok zero, fun s t host new_ bad => ?_,
    fun s u now t req h idle ready lead free known => ?_, fun s u now t req h idle ready member => ?_, fun s u now t req h idle ready => ?_,
    fun s u now t x req h idle ready found home fits => ?_, fun s u now t req h idle ready lead known => ?_,
    fun s u now t x req h idle ready found => ?_, fun s u now t req h busy => ?_, fun s now c running all small => ?_,
    fun s now c running some_ => tblCmdDone_waits running some_ now⟩
  · exact congrArg Host.Outcome.next ((State.lands_hook (tblCmdHook host room) h (effect_writable (by decide))).trans (tblCmdHook_create idle ready t lead))
  · obtain ⟨result, done_, -⟩ := tblResult_shows s (r := 3) (by decide)
    exact ⟨_, tblMake_invalid host new_ bad, result, done_, rfl⟩
  · exact congrArg Host.Outcome.next ((State.lands_hook (tblCmdHook none true) h (effect_writable (by decide))).trans
      (tblCmdHook_destroy idle ready t lead free known))
  · exact ⟨_, congrArg Host.Outcome.next ((State.lands_hook (tblCmdHook none true) h (effect_writable (by decide))).trans
      (tblCmdHook_member idle ready t member)), (tblResult_shows u (by decide)).1, (State.lands_ladle h : u.ladle = _)⟩
  · obtain ⟨exists_, result⟩ := tblShow_shows u (t % 4096)
    exact ⟨_, congrArg Host.Outcome.next ((State.lands_hook (tblCmdHook none true) h (effect_writable (by decide))).trans
      (tblCmdHook_anywhere idle ready t).1), exists_, result, (State.lands_ladle h : u.ladle = _)⟩
  · refine ⟨_, congrArg Host.Outcome.next ((State.lands_hook (tblCmdHook none true) h (effect_writable (by decide))).trans
      ((tblCmdHook_anywhere idle ready t).2.1.trans (tblBind_host found home fits))), ?_, (tblResult_shows _ (by decide)).1⟩
    exact (Table.find?_upd_self _ _ _).trans (congrArg (Option.map _) found)
  · exact congrArg Host.Outcome.next ((State.lands_hook (tblCmdHook none true) h (effect_writable (by decide))).trans
      (tblCmdHook_invalidate idle ready t lead known))
  · have owner : u.tblOwner (t % 4096) = (u.setFld LADLE.OWNER (x.owner (u.fld LADLE.SHARD))).tblResult 0 := by
      simp [State.tblOwner, found]
    exact congrArg Host.Outcome.next ((State.lands_hook (tblCmdHook none true) h (effect_writable (by decide))).trans
      ((tblCmdHook_anywhere idle ready t).2.2.trans owner))
  · exact congrArg Host.Outcome.next ((State.lands_hook (tblCmdHook none true) h (effect_writable (by decide))).trans
      (tblCmdHook_busy t (by decide) (by decide) busy))
  · obtain ⟨result, done_, idle⟩ := tblResult_shows ((s.at now).modLadle fun l => { l with cmd := none }) small
    exact ⟨_, tblCmdDone_ends running all now, rfl, idle, done_, result, rfl⟩

/-! Messages that are whole (19, Gather and pooling, Scatter steps and the combine order). -/

/-- A whole fresh request takes effect once. -/
theorem engineServe_whole {s u : State} {now : Nat} {p : Packet} {bytes : Bytes} (h : s.arrives now p u bytes)
    (f : State → Bytes → State × Option Nat) :
    (s.at now).engineServe p f = (f u bytes).1.markSeq p.dst p.src p.reqSeq ((f u bytes).2.getD unanswered) := by
  obtain ⟨released, fresh, whole⟩ := h
  unfold State.engineServe
  rw [if_neg (by simp [released]), onRequest_fresh (s := s.at now) _ fresh]
  simp only [whole]

theorem okServe_whole {s u : State} {now : Nat} {p : Packet} {bytes : Bytes} (h : s.arrives now p u bytes) (f : State → Bytes → State) :
    (s.at now).okServe p f = ((f u bytes).reply p 0 0 0 []).markSeq p.dst p.src p.reqSeq 0 :=
  engineServe_whole h _

theorem engineServe_below {s : State} {p : Packet} (f : State → Bytes → State × Option Nat) (below : s.arrival p.dst p.src p.reqSeq = .below) :
    s.engineServe p f = s := by
  unfold State.engineServe
  split
  · rfl
  · exact onRequest_below _ below

theorem gatherServe_missing {s : State} {p : Packet} (far : List Bytes) (none_ : s.ltable p.obj = none) :
    s.gatherServe p far = (s.reply p 0xB0 0 0 [], some 0xB0) := by
  simp [State.gatherServe, none_]

/-- A further piece of one row of a table that this node owns in Skim. -/
theorem gatherServe_piece {s : State} {p : Packet} {x : LTable} (far : List Bytes) (found : s.ltable p.obj = some x) (home : x.home = 1)
    (one : p.arg0 % 65536 = 1) (here : s.ownerWay x (x.shardOf (leAt p.payload 0 8)) = .here) (further : p.arg1 % 2 ^ 32 ≠ 0) :
    s.gatherServe p far = ((s.readCounts p.obj x []).reply p 0 0 x.gen
      (fitTo (sub (x.stored (leAt p.payload 0 8)) (p.arg1 % 2 ^ 32) (p.arg1 / 2 ^ 32)) (p.arg1 / 2 ^ 32)), some 0) := by
  have ids : ((List.range 1).map fun k => leAt p.payload (8 * k) 8) = [leAt p.payload 0 8] := rfl
  simp only [State.gatherServe, found, one, ids, List.headD_cons, here, home, if_neg further]
  simp

/-- Settles O46: a whole fresh request is served once; a gather by the table and its owner. -/
theorem stepMessages : Obligations.StepMessages := by
  unfold Obligations.StepMessages
  refine ⟨fun s u now p bytes h => ⟨fun far => ?_, ?_, ?_, fun far => ?_, ?_⟩, fun s now p released subtype => ?_,
    fun s p far none_ => gatherServe_missing far none_, fun s p far x found home one here further => gatherServe_piece far found home one here further,
    fun s now p below => congrArg Host.Outcome.next (engineServe_below (s := s.at now) _ below)⟩
  · exact congrArg Host.Outcome.next (engineServe_whole h _)
  · exact congrArg Host.Outcome.next (engineServe_whole h _)
  · exact congrArg Host.Outcome.next (okServe_whole h _)
  · exact congrArg Host.Outcome.next (engineServe_whole h _)
  · exact congrArg Host.Outcome.next (okServe_whole h _)
  · change execApplied now p s = _
    simp [execApplied, released, subtype]

/-! Migrations (19, Skew and migration), and rows gathered ahead (19, Run-ahead prefetch). -/

/-- A first PREP of a known table is answered later by a node that is not the old owner. -/
theorem execPrep_waits {s u : State} {now : Nat} {p : Packet} {bytes : Bytes} (far : List (Nat × Bytes)) (h : s.arrives now p u bytes)
    (known : (u.ltable p.obj).isSome = true) (other : p.arg0 / 2 ^ 16 % 65536 ≠ u.node.id) : execPrep now p far s =
      .next ((u.prepHere { id := p.arg1, tbl := p.obj, shard := p.arg0 % 65536, old := p.arg0 / 2 ^ 16 % 65536, new := p.arg0 / 2 ^ 32 % 65536 }
        (some p) far).markSeq p.dst p.src p.reqSeq unanswered) := by
  refine congrArg Host.Outcome.next ((engineServe_whole h _).trans ?_)
  simp only [← Option.not_isSome, known, other, Bool.not_true, Bool.false_eq_true, if_false]
  rfl

theorem execPrep_missing {s u : State} {now : Nat} {p : Packet} {bytes : Bytes} (far : List (Nat × Bytes)) (h : s.arrives now p u bytes)
    (none_ : u.ltable p.obj = none) : execPrep now p far s = .next ((u.reply p 0xB0 0 0 []).markSeq p.dst p.src p.reqSeq 0xB0) := by
  refine congrArg Host.Outcome.next ((engineServe_whole h _).trans ?_)
  simp [none_]

theorem execLogHandoff_merges {s u w : State} {now : Nat} {p : Packet} {bytes : Bytes} {x : LTable} (h : s.arrives now p u bytes)
    (found : u.ltable p.obj = some x)
    (room : u.setLog (u.ladle.log ++ handoffOf p.job p.stage p.obj x.dim bytes (bytes.length / 32)) = some w) : execLogHandoff now p s =
      .next ((w.ackHeld p 0).1.markSeq p.dst p.src p.reqSeq ((w.ackHeld p 0).2.getD unanswered)) := by
  refine congrArg Host.Outcome.next ((engineServe_whole h _).trans ?_)
  simp only [found, room]

theorem execTableCmd_create {s u : State} {now : Nat} {p : Packet} {bytes : Bytes} (h : s.arrives now p u bytes) (create : p.arg0 % 256 = 1) :
    execTableCmd now p s = .next (((u.tableCmd 1 p.obj bytes).reply p 0 0 0 []).markSeq p.dst p.src p.reqSeq 0) := by
  refine congrArg Host.Outcome.next ((engineServe_whole h _).trans ?_)
  simp [create]

theorem execTableCmd_held {s u : State} {now : Nat} {p : Packet} {bytes : Bytes} (h : s.arrives now p u bytes) (other : p.arg0 % 256 ≠ 1) :
    execTableCmd now p s = .next (((u.tableCmd (p.arg0 % 256) p.obj bytes).ackHeld p 0).1.markSeq p.dst p.src p.reqSeq
      ((((u.tableCmd (p.arg0 % 256) p.obj bytes).ackHeld p 0).2).getD unanswered)) := by
  refine congrArg Host.Outcome.next ((engineServe_whole h _).trans ?_)
  simp [other]

/-- The state after a run of rows is gathered ahead, from the state in which its requests are under way. -/
def State.gatheredAhead (s : State) (f : Prefetch) (n : Nat) : State :=
  ((s.modLadle fun l => { l with prefetched := l.prefetched ++ [f] }).modTiers fun m =>
    { m with runaheadUsed := Table.put m.runaheadUsed f.job (Table.findD m.runaheadUsed f.job 0 + 1) }).count LADLE.PREFETCHED n

theorem prefetch_over {s : State} {j : Nat} {job : Job} (st rows : Nat) (found : s.job? j = some job) (over_ : job.status ≠ 0) :
    s.prefetch j st rows = s := by
  unfold State.prefetch
  rw [found]
  dsimp only
  split
  · rfl
  · exact if_neg fun h => over_ h.2.2.2.2.2.1

/-- Why a run of rows of a GATHER stage is gathered ahead: the stage, the job, the room and an idle engine unit. -/
def State.mayPrefetch (s : State) (j st n : Nat) (job : Job) (x : LTable) : Prop :=
  (job.plan.stage st).cls = 0x0A ∧ (job.plan.stage st).op = 1 ∧ bitAt (job.plan.stage st).flags 1 = true ∧ (job.engOf st).phase = 0 ∧
    (!job.ended.contains st) = true ∧ job.status = 0 ∧ 0 < n ∧ 0 < 16 * s.fld VAT.RUNAHEAD_MAX - sumTable s.tiers.runaheadUsed ∧
    ((pagesOf 0x0A).any fun p => s.accepts p && (s.pageSlices p).all fun y => y.2.state != .running) = true ∧
    (x.home != 2 || s.fld HOSTIF.RUNAHEAD_HOST == 1) = true ∧ (!s.ladle.prefetched.any fun p => p.job == j && p.stage == st) = true

/-- Rows gathered ahead: the requests go out, and the run is noted with its extent. -/
theorem prefetch_takes {s : State} {j st n : Nat} {job : Job} {x : LTable} (rows : Nat) (found : s.job? j = some job)
    (table : s.ltable (job.bind ((job.plan.stage st).in_ 1).slot).aux = some x)
    (count : n = min rows (min (s.fld LADLE.PREFETCH_ROWS) ((inputLen job ((job.plan.stage st).in_ 0)).1 - (job.engOf st).consumed)))
    (may : s.mayPrefetch j st n job x) :
    ∃ w, Frame 1081350 s w ∧ s.prefetch j st rows = w.gatheredAhead ⟨j, st, (job.engOf st).consumed, n, x.gen, 1⟩ n := by
  subst count
  unfold State.prefetch
  rw [found]
  dsimp only
  rw [table]
  dsimp only
  unfold State.mayPrefetch at may
  rw [if_pos may]
  refine ⟨_, Frame.foldl (fun _ _ kept => State.trySend_frame rfl kept) (Frame.foldl (fun _ _ kept => State.access_frame rfl kept) (Frame.refl s)), rfl⟩

/-- Settles O47: a whole fresh request is served once; a prefetch by what the stage, the table and the extents allow. -/
theorem migrationMessages : Obligations.MigrationMessages := by
  unfold Obligations.MigrationMessages
  refine ⟨fun s u now p bytes h => ⟨?_, ?_, ?_, ?_, fun far none_ => execPrep_missing far h none_, fun far known other => execPrep_waits far h known other,
      fun x w found room => execLogHandoff_merges h found room, fun create => execTableCmd_create h create, fun other => execTableCmd_held h other⟩,
    fun s id => ⟨rfl, rfl⟩, fun s eff c later => ?_,
    fun s now j st rows job found over_ => congrArg Host.Outcome.next (prefetch_over (s := s.at now) st rows found over_),
    fun s now j st rows n job x found table count cls op ahead phase unended good some_ room idle host fresh => ?_⟩
  · exact congrArg Host.Outcome.next (okServe_whole h _)
  · exact congrArg Host.Outcome.next (okServe_whole h _)
  · exact congrArg Host.Outcome.next (okServe_whole h _)
  · exact congrArg Host.Outcome.next (okServe_whole h _)
  · have waits : s.commitHere eff c = s.modLadle fun l => { l with changes := l.changes ++ [c] } := if_neg (Nat.not_le.mpr later)
    rw [waits]
    exact ⟨rfl, rfl⟩
  · have host' : (x.home != 2 || s.fld HOSTIF.RUNAHEAD_HOST == 1) = true := by simpa using host
    have may : (s.at now).mayPrefetch j st n job x :=
      ⟨cls, op, ahead, phase, by rw [unended]; rfl, good, some_, Nat.sub_pos_of_lt room, idle, host', by simpa using fresh⟩
    obtain ⟨w, frame, takes⟩ := prefetch_takes (s := s.at now) rows found table count may
    have tiers : w.tiers = s.tiers := frame.part .tiers rfl
    have extents : Table.findD w.tiers.runaheadUsed j 0 = Table.findD s.tiers.runaheadUsed j 0 := by rw [tiers]
    refine ⟨_, congrArg Host.Outcome.next takes, (Table.findD_put_self _ _ _ _).trans (congrArg (· + 1) extents), ?_, (frame.part .mem rfl : w.mem = _)⟩
    exact List.mem_append_right _ List.mem_cons_self

end Sys2Proof.Machine
end

section
/-! Links: training and traffic (20). -/

namespace Sys2Proof.Machine

open Sys2Proof.Reg

/-! One link. -/

theorem State.link_setLink (s : State) (k : Nat) (l : Link) : (s.setLink k l).link k = l := Table.findD_put_self _ _ _ _

theorem State.link_of_fabric {s t : State} (h : t.fabric = s.fabric) (k : Nat) : t.link k = s.link k :=
  congrArg (fun f : Fabric => Table.findD f.links k {}) h

/-- A command of one of the six links is not refused. -/
theorem Link.known {α : Type} {k : Nat} (inside : k < 6) (a b : α) : (if 6 ≤ k then a else b) = b := if_neg (Nat.not_le.mpr inside)

/-! Training (20, Lanes and training). -/

theorem linkTrain_starts {s : State} {k : Nat} (down : (s.link k).state = 0) (stays : (s.link k).leaving = false) (serves : s.pageOos (zpage k) = false)
    (cable : bitAt s.pins.cables k = true) (power : s.good 5 = true) (released : s.power.released = true)
    (due : (s.link k).mayTrain = true ∨ (s.link k).downAt + 1000000000 ≤ s.chrono) : s.linkTrain k = s.setLink k { s.link k with
      state := 1, mayTrain := false, equalised := false, configured := false, secure := false, authChain := [], authKey := [], authSig := [],
      authTotal := 0, gcmTx := 0, gcmRx := 0 } := by
  refine if_pos ?_
  simp only [down, stays, serves, cable, power, released]
  simpa using due

theorem linkTrain_up {s : State} {k : Nat} (up : (s.link k).state ≠ 0) : s.linkTrain k = s := by
  refine if_neg ?_
  simp [up]

theorem trainingDone_whole {s : State} {k : Nat} (pol : Nat) (stored : Bool) (results : Bytes) (training : (s.link k).state = 1)
    (first : (s.link k).equalised = false) : s.trainingDone k 255 pol stored results =
      ((s.setLink k { s.link k with
        lanesOk := 255, polInv := pol % 256, eqStored := stored && !(s.link k).fullTrain, fullTrain := false, equalised := true }).calLearn results
          (!(stored && !(s.link k).fullTrain))).linkCtrl k 2 (((s.setLink k { s.link k with
        lanesOk := 255, polInv := pol % 256, eqStored := stored && !(s.link k).fullTrain, fullTrain := false, equalised := true }).calLearn results
          (!(stored && !(s.link k).fullTrain))).configBody k) := by
  unfold State.trainingDone
  dsimp only
  rw [if_pos ⟨training, by simp [first]⟩]
  rfl

theorem trainingDone_lanes {s : State} {k lanes : Nat} (pol : Nat) (stored : Bool) (results : Bytes) (training : (s.link k).state = 1)
    (first : (s.link k).equalised = false) (bad : lanes % 256 ≠ 255) : s.trainingDone k lanes pol stored results =
      (s.setLink k { s.link k with
        lanesOk := lanes % 256, polInv := pol % 256, eqStored := stored && !(s.link k).fullTrain, fullTrain := false }).linkDown k := by
  unfold State.trainingDone
  dsimp only
  rw [if_pos ⟨training, by simp [first]⟩, if_neg bad]

/-- The link as the partner's CONFIG describes it. -/
def Link.configuredBy (l : Link) (b : Bytes) : Link :=
  { l with
    partnerValid := true, partnerNode := leAt b 0 2, partnerNodeValid := bitAt (byteAt b 2) 0, partnerAuthReq := bitAt (byteAt b 2) 1
    partnerAuthCapable := bitAt (byteAt b 2) 2, partnerFace := byteAt b 3 % 8, partnerSerial := sub b 4 16, partnerLevel := leAt b 20 4 }

theorem configFlit_wrongFace {s : State} {k : Nat} {b : Bytes} (training : (s.link k).state = 1) (equalised : (s.link k).equalised = true)
    (first : (s.link k).configured = false) (wrong : byteAt b 3 ≠ (if k % 2 = 0 then k + 1 else k - 1)) :
    s.configFlit k b = ((s.setLink k ((s.link k).configuredBy b)).raiseOwn (zpage k) 19).linkDown k := by
  unfold State.configFlit
  dsimp only
  rw [if_pos ⟨training, equalised, by simp [first]⟩, if_pos wrong]
  rfl

theorem configFlit_spare {s : State} {k : Nat} {b : Bytes} (training : (s.link k).state = 1) (equalised : (s.link k).equalised = true)
    (first : (s.link k).configured = false) (face : byteAt b 3 = (if k % 2 = 0 then k + 1 else k - 1))
    (open_ : s.bit (ZLINK.AUTH_REQ.on (zpage k)) = false) (partner : bitAt (byteAt b 2) 1 = false) : s.configFlit k b =
      ((s.setLink k ((s.link k).configuredBy b)).setLink k { (s.link k).configuredBy b with configured := true }).linkSpare k := by
  unfold State.configFlit
  dsimp only
  rw [if_pos ⟨training, equalised, by simp [first]⟩, if_neg (not_not_intro face), if_neg (by simp [open_, partner])]
  rfl

theorem authFlit_fails {s : State} {k : Nat} {b : Bytes} (training : (s.link k).state = 1) (configured : (s.link k).configured = true)
    (item : byteAt b 0 = 3) : s.authFlit k b = s.authFail k := by
  unfold State.authFlit
  dsimp only
  rw [if_pos ⟨training, configured⟩, if_pos item]

/-- A flit of the partner's chain whose total length is 0 joins the chain and starts no check. -/
theorem authFlit_chain {s : State} {k : Nat} {b : Bytes} (training : (s.link k).state = 1) (configured : (s.link k).configured = true)
    (item : byteAt b 0 = 0) (total : leAt b 5 2 = 0) : s.authFlit k b = s.setLink k { s.link k with
      authChain := (s.link k).authChain ++ sub b 7 (min 228 (leAt b 3 2)), authTotal := 0 } := by
  unfold State.authFlit
  dsimp only
  rw [if_pos ⟨training, configured⟩]
  simp [item, total]

/-- LINK_CFG of each link has a field that software may write. -/
theorem linkCfg_writable : ∀ k < 6, (fieldsAt (zpage k) 0x100).all (fun f => f.acc = .ro) = false := by decide +kernel

theorem linkCfgHook_fullTrain (req : Requester) (k : Nat) (old w : Word) (s : State) :
    linkCfgHook req (zpage k) old (putBits w 1 1 1) s = s.setLink k { s.link k with fullTrain := true } := by
  have asks : bitAt (putBits w 1 1 1).toNat 1 = true := by
    rw [bitAt_toNat, getLsbD_putBits (by decide)]
    rfl
  have named : zpage k - 0x0D0 = k := Nat.add_sub_cancel_left _ _
  exact (if_pos asks).trans (by rw [named])

/-- Settles O48: each step of a training by the link's state and what the partner sends. -/
theorem linkTraining : Obligations.LinkTraining := by
  unfold Obligations.LinkTraining
  refine ⟨fun s now k inside down stays serves cable power released due => ?_, fun s now k inside up => ?_,
    fun s now k pol stored results inside training first => ?_, fun s now k lanes pol stored results inside training first bad => ?_,
    fun s u now k b inside hu training equalised first => ?_, fun s u now k b inside hu training configured item => ?_,
    fun s u now k b inside hu training configured item total => ?_, fun s u now k req inside h => ?_⟩
  · exact ⟨_, (Link.known inside _ _).trans rfl,
      linkTrain_starts (s := s.at now) down stays serves cable power released due⟩
  · exact (Link.known inside _ _).trans (congrArg Host.Outcome.next (linkTrain_up (s := s.at now) up))
  · exact ⟨_, rfl, (Link.known inside _ _).trans (congrArg Host.Outcome.next (trainingDone_whole (s := s.at now) pol stored results training first))⟩
  · exact (Link.known inside _ _).trans (congrArg Host.Outcome.next (trainingDone_lanes (s := s.at now) pol stored results training first bad))
  · subst hu
    refine ⟨(((s.at now).ctrlIn k).link k).configuredBy b, rfl, rfl, rfl, rfl, rfl, training, fun wrong => ?_, fun face open_ partner => ?_⟩
    · exact (Link.known inside _ _).trans (congrArg Host.Outcome.next (configFlit_wrongFace training equalised first wrong))
    · exact (Link.known inside _ _).trans (congrArg Host.Outcome.next (configFlit_spare training equalised first face open_ partner))
  · subst hu
    exact (Link.known inside _ _).trans (congrArg Host.Outcome.next (authFlit_fails training configured item))
  · subst hu
    exact (Link.known inside _ _).trans (congrArg Host.Outcome.next (authFlit_chain training configured item total))
  · exact (Link.known inside _ _).trans (congrArg Host.Outcome.next ((State.lands_hook linkCfgHook h (linkCfg_writable k inside)).trans
      (linkCfgHook_fullTrain _ _ _ _ _)))

/-! Traffic (20, Flits). -/

theorem flitReceive_crc {s : State} {k : Nat} {f : Flit} (active : (s.link k).state = 3) (bad : f.crcOk = false) :
    s.flitReceive k f = ((s.count (ZLINK.CRC_ERRORS.on (zpage k)) 1).raiseOwn (zpage k) 16).sendNak k := by
  unfold State.flitReceive
  dsimp only
  rw [if_pos (.inr active), if_pos (by simp [bad])]

theorem flitReceive_tag {s : State} {k : Nat} {f : Flit} (active : (s.link k).state = 3) (good : f.crcOk = true) (secure : (s.link k).secure = true)
    (data : f.kind = 1) (bad : f.tagOk = false) : s.flitReceive k f = (s.count (ZLINK.TAG_FAILS.on (zpage k)) 1).sendNak k := by
  unfold State.flitReceive
  dsimp only
  rw [if_pos (.inr active), if_neg (by simp [good]), if_pos (by simp [secure, data, bad])]

/-- A DATA flit with a good tag that returns no credit. -/
theorem flitReceive_data {s : State} {k : Nat} {f : Flit} (active : (s.link k).state = 3) (good : f.crcOk = true) (data : f.kind = 1)
    (tag : f.tagOk = true) (none_ : f.creditN = 0) : s.flitReceive k f =
      (if f.seq = (s.link k).rxSeq then ((s.setLink k (s.link k)).takeAck k f.ack).flitIn k f
        else ((s.setLink k (s.link k)).takeAck k f.ack).sendNak k).linkPump k
      ((if f.seq = (s.link k).rxSeq then ((s.setLink k (s.link k)).takeAck k f.ack).flitIn k f
        else ((s.setLink k (s.link k)).takeAck k f.ack).sendNak k).link k).queue.length := by
  unfold State.flitReceive
  dsimp only
  rw [if_pos (.inr active), if_neg (by simp [good]), if_neg (by simp [tag]), if_pos none_, if_pos data]

theorem flitReceive_down {s : State} {k : Nat} (f : Flit) (spare : (s.link k).state ≠ 2) (active : (s.link k).state ≠ 3) : s.flitReceive k f = s :=
  if_neg fun h => h.elim spare active

theorem retrain_far {s : State} {k : Nat} (tell : Bool) (spare : (s.link k).state = 2) : s.retrain k tell =
    (((if tell then s.linkCtrl k 4 [] else s).setLink k { (if tell then s.linkCtrl k 4 [] else s).link k with
      before := 2, retrainAt := s.chrono, state := 5 }).count (ZLINK.RETRAINS.on (zpage k)) 1).raiseOwn (zpage k) 17 := by
  simp [State.retrain, spare]

/-- An error and a counter of a link's page leave its links. -/
theorem link_raiseOwn_count (s : State) (f : Field) (page n m k : Nat) : (((s.count f m).raiseOwn page n).link k) = s.link k := by
  have frame : Frame 6 s ((s.count f m).raiseOwn page n) := State.raiseOwn_frame rfl (State.count_frame rfl (Frame.refl s))
  exact State.link_of_fabric (frame.part .fabric rfl) k

/-- A SPARE link that starts to retrain. -/
theorem retrain_spare {s : State} {k : Nat} (tell : Bool) (spare : (s.link k).state = 2) : ((s.retrain k tell).link k).state = 5 ∧
    ((s.retrain k tell).link k).before = 2 ∧ ((s.retrain k tell).link k).retrainAt = s.chrono := by
  rw [retrain_far tell spare, link_raiseOwn_count, State.link_setLink]
  exact ⟨rfl, rfl, rfl⟩

/-- The end that starts the retrain tells its partner first. -/
theorem retrain_tells {s : State} {k : Nat} (spare : (s.link k).state = 2) :
    (s.retrain k true).out.take (s.out.length + 1) = s.out ++ [.linkCtrl k 4 []] := by
  have frame : Frame 32774 (s.linkCtrl k 4 []) (s.retrain k true) := by
    rw [retrain_far true spare]
    exact State.raiseOwn_frame rfl (State.count_frame rfl (State.setLink_frame rfl (Frame.refl _)))
  obtain ⟨os, later⟩ := frame.keeps.out
  have told : (s.linkCtrl k 4 []).out = s.out ++ [.linkCtrl k 4 []] := rfl
  rw [later, told]
  have long : s.out.length + 1 = (s.out ++ [Output.linkCtrl k 4 []]).length := by simp
  rw [long, List.take_left]

/-- The one flit of a replay buffer sent again. -/
theorem replay_one {s : State} {k : Nat} {f : LinkFlit} (only : (s.link k).replay = [f]) (tries : f.tries < 8) (data : f.ctrl = false) :
    (s.replay k fun _ => true) = ((((s.setLink k { s.link k with replay := [{ f with tries := f.tries + 1 }], ackAt := s.chrono }).count
      (ZLINK.RETRIES.on (zpage k)) 1).count (ZLINK.FLITS_TX.on (zpage k)) 1).corrected).emit (.flit k f.seq (s.link k).ack 0 0) := by
  simp [State.replay, only, Nat.not_le.mpr tries, data]

theorem replay_exhausted {s : State} {k : Nat} {f : LinkFlit} (only : (s.link k).replay = [f]) (tries : 8 ≤ f.tries) :
    (s.replay k fun _ => true) = s.retrain k true := by
  simp [State.replay, only, tries]

theorem replay_empty {s : State} {k : Nat} (p : LinkFlit → Bool) (none_ : (s.link k).replay = []) : s.replay k p = s := by
  simp [State.replay, none_]

theorem nak_replays {s : State} {k : Nat} (seq : Nat) (active : (s.link k).state = 3) : s.nak k seq = s.replay k fun f => f.seq == seq :=
  if_pos (.inr active)

theorem ackTimeout_replays {s : State} {k : Nat} (active : (s.link k).state = 3) (some_ : (s.link k).replay ≠ [])
    (due : (s.link k).ackAt + 10000 ≤ s.chrono) : s.ackTimeout k = s.replay k fun _ => true :=
  if_pos ⟨.inr active, by simpa using some_, due⟩

theorem ackTimeout_early {s : State} {k : Nat} (early : s.chrono < (s.link k).ackAt + 10000) : s.ackTimeout k = s :=
  if_neg fun h => Nat.not_le.mpr early h.2.2

theorem oosSettle_stays {s : State} {k : Nat} (stays : (s.link k).leaving = false) : s.oosSettle k = s := by
  simp [State.oosSettle, stays]

/-- A retrain that succeeds with nothing to send. -/
theorem retrained_idle {s : State} {k : Nat} (retraining : (s.link k).state = 5) (early : s.chrono < (s.link k).retrainAt + 2000000)
    (sent : (s.link k).replay = []) (none_ : (s.link k).queue = []) (stays : (s.link k).leaving = false) : s.retrained k =
      s.setLink k { s.link k with state := (s.link k).before, gcmTx := 0, gcmRx := 0, nakSent := false, replay := [] } := by
  have shape : s.retrained k = (((s.setLink k { s.link k with
      state := (s.link k).before, gcmTx := 0, gcmRx := 0, nakSent := false, replay := [] }).replay k fun _ => true).linkPump k 0).oosSettle k := by
    unfold State.retrained
    dsimp only
    rw [if_pos ⟨retraining, early⟩, none_, sent]
    rfl
  rw [shape, replay_empty _ (by rw [State.link_setLink])]
  exact oosSettle_stays (by rw [State.linkPump, State.link_setLink]; exact stays)

/-- What is left of a link that goes DOWN. -/
def Link.dropped (l : Link) (at_ : Nat) : Link where
  lanesOk := l.lanesOk
  polInv := l.polInv
  eqStored := l.eqStored
  fullTrain := l.fullTrain
  leaving := l.leaving
  downAt := at_
  mayTrain := false

/-- A link that had not trained goes DOWN. -/
theorem linkDown_untrained {s : State} {k : Nat} (up : (s.link k).state ≠ 0) (served : (s.link k).state ≠ 4) (spare : (s.link k).state ≠ 3)
    (untrained : (s.link k).trained = false) (stays : (s.link k).leaving = false) :
    s.linkDown k = ((s.setLink k ((s.link k).dropped s.chrono)).count (ZLINK.DOWNS.on (zpage k)) 1).raiseOwn (zpage k) 18 := by
  have shape : s.linkDown k =
      (((s.setLink k ((s.link k).dropped s.chrono)).count (ZLINK.DOWNS.on (zpage k)) 1).raiseOwn (zpage k) 18).oosSettle k := by
    unfold State.linkDown State.linkDrop
    dsimp only
    rw [if_neg (fun h => h.elim up served), if_neg spare, untrained]
    rfl
  rw [shape]
  refine oosSettle_stays ?_
  rw [link_raiseOwn_count, State.link_setLink]
  exact stays

/-- Settles O49: a flit by its checks, a replay by the buffer, a retrain and the way DOWN by the link's state. -/
theorem linkTraffic : Obligations.LinkTraffic := by
  unfold Obligations.LinkTraffic
  refine ⟨fun s now k f inside active bad => ?_, fun s now k f inside active good secure data bad => ?_,
    fun s u now k f inside active good data tag none_ hu => ?_, fun s now k f inside spare active => ?_, fun s u now k seq inside hu active => ?_,
    fun s now k inside active some_ due => ?_, fun s now k inside early => ?_, fun s k f only tries data => ?_,
    fun s k f only tries => replay_exhausted only tries, fun s u now k inside hu spare => ?_, fun s now k inside spare => ?_,
    fun s now k inside retraining early sent none_ stays => ?_, fun s now k inside retraining late => ?_,
    fun s k up served spare untrained stays => ?_⟩
  · exact (Link.known inside _ _).trans (congrArg Host.Outcome.next (flitReceive_crc (s := s.at now) active bad))
  · exact (Link.known inside _ _).trans (congrArg Host.Outcome.next (flitReceive_tag (s := s.at now) active good secure data bad))
  · subst hu
    have next := flitReceive_data (s := s.at now) active good data tag none_
    refine ⟨fun turn => (Link.known inside _ _).trans (congrArg Host.Outcome.next (next.trans ?_)),
      fun gap => (Link.known inside _ _).trans (congrArg Host.Outcome.next (next.trans ?_))⟩
    · rw [if_pos (show f.seq = ((s.at now).link k).rxSeq from turn)]
      rfl
    · rw [if_neg (show f.seq ≠ ((s.at now).link k).rxSeq from gap)]
      rfl
  · exact (Link.known inside _ _).trans (congrArg Host.Outcome.next (flitReceive_down (s := s.at now) f spare active))
  · subst hu
    exact (Link.known inside _ _).trans (congrArg Host.Outcome.next (nak_replays seq active))
  · exact (Link.known inside _ _).trans (congrArg Host.Outcome.next (ackTimeout_replays (s := s.at now) active some_ due))
  · exact (Link.known inside _ _).trans (congrArg Host.Outcome.next (ackTimeout_early (s := s.at now) early))
  · refine ⟨_, replay_one only tries data, rfl, ?_, ?_⟩
    · exact congrArg Link.replay (State.link_setLink s k _)
    · exact congrArg Link.ackAt (State.link_setLink s k _)
  · subst hu
    obtain ⟨state, before, retrainAt⟩ := retrain_spare false spare
    have frame : Frame 32770 (s.at now) ((s.at now).ctrlIn k) := State.ctrlIn_frame rfl (Frame.refl _)
    exact ⟨_, Link.known inside _ _, state, before, retrainAt.trans (frame.part .chrono rfl)⟩
  · obtain ⟨state, before, retrainAt⟩ := retrain_spare (s := s.at now) true spare
    exact ⟨_, Link.known inside _ _, state, before, retrainAt, retrain_tells (s := s.at now) spare⟩
  · refine ⟨_, (Link.known inside _ _).trans (congrArg Host.Outcome.next (retrained_idle (s := s.at now) retraining early sent none_ stays)), ?_⟩
    rw [State.link_setLink]
    exact ⟨rfl, rfl, rfl⟩
  · exact (Link.known inside _ _).trans (congrArg Host.Outcome.next (if_pos ⟨retraining, late⟩))
  · have frame : Frame 6 (s.setLink k ((s.link k).dropped s.chrono))
        (((s.setLink k ((s.link k).dropped s.chrono)).count (ZLINK.DOWNS.on (zpage k)) 1).raiseOwn (zpage k) 18) :=
      State.raiseOwn_frame rfl (State.count_frame rfl (Frame.refl _))
    rw [linkDown_untrained up served spare untrained stays, link_raiseOwn_count, State.link_setLink]
    exact ⟨rfl, rfl, rfl, rfl, frame.part .mem rfl⟩

end Sys2Proof.Machine
end

section
/-! Requests between nodes, responses, routes, and jobs over several nodes (20). -/

namespace Sys2Proof.Machine

open Sys2Proof.Reg

/-! Requests at their target (20, Messages, End to end). -/

theorem whileUp_released {s : State} (f : State → State) (released : s.power.released = true) : s.whileUp f = f s := if_pos released

theorem farArrive_released {s : State} {p : Packet} (sup : Supply) (far : Bytes) (released : s.power.released = true) :
    ∃ f, s.farArrive sup far p = s.onRequest p f ∧ (s.farHeld p = false → f s = s.farServe sup far p) := by
  unfold State.farArrive
  rw [if_neg (by simp [released])]
  refine ⟨_, rfl, fun unheld => if_neg ?_⟩
  simp [unheld]

theorem farArrive_fresh {s : State} {p : Packet} (sup : Supply) (far : Bytes) (released : s.power.released = true)
    (fresh : s.arrival p.dst p.src p.reqSeq = .fresh) (unheld : s.farHeld p = false) : s.farArrive sup far p =
      (s.farServe sup far p).1.markSeq p.dst p.src p.reqSeq ((s.farServe sup far p).2.getD unanswered) := by
  obtain ⟨f, arrives, serves⟩ := farArrive_released (s := s) (p := p) sup far released
  rw [arrives, onRequest_fresh f fresh, serves unheld]

theorem farArrive_below {s : State} {p : Packet} (sup : Supply) (far : Bytes) (released : s.power.released = true)
    (below : s.arrival p.dst p.src p.reqSeq = .below) : s.farArrive sup far p = s := by
  obtain ⟨f, arrives, -⟩ := farArrive_released (s := s) (p := p) sup far released
  rw [arrives, onRequest_below f below]

theorem onRequest_again {s : State} {p : Packet} {st : Nat} (f : State → State × Option Nat) (again : s.arrival p.dst p.src p.reqSeq = .duplicate st)
    (write : p.typ = 2 ∨ p.typ = 4) (answered : st < 256) : s.onRequest p f = (s.count ROUTE.DUP_REQUESTS 1).answer p 0x82 st [] := by
  have known : st ≠ unanswered := by
    unfold unanswered
    omega
  have typ : rspType p.typ = 0x82 := by
    unfold rspType
    rw [if_neg (by omega), if_pos write]
  simp only [State.onRequest, again]
  rw [if_neg (by omega), if_neg known, typ, if_neg (by omega)]

theorem onRequest_readAgain {s : State} {p : Packet} {st : Nat} (f : State → State × Option Nat)
    (again : s.arrival p.dst p.src p.reqSeq = .duplicate st) (read : p.typ = 1) : s.onRequest p f = (f s).1 := by
  simp [State.onRequest, again, read]

theorem farServe_stores {s : State} {p : Packet} (sup : Supply) (far : Bytes) (here : p.dst = s.node.id) (write : p.typ = 2 ∨ p.typ = 4)
    (some_ : p.body ≠ []) (mapped : engineMapped p.addr p.body.length = true) (device : spaceOf p.addr ≠ .host) (up : s.tierDown p.addr = false) :
    s.farServe sup far p = ((s.storeBytes p.addr p.body).answer p 0x82 0 [], some 0) := by
  have read : p.typ ≠ 1 := by omega
  have typ : rspType p.typ = 0x82 := by
    unfold rspType
    rw [if_neg read, if_pos write]
  have long : p.body.length ≠ 0 := by simpa using some_
  have image : spaceOf p.addr ≠ .image := by
    simp only [engineMapped, Bool.and_eq_true, decide_eq_true_eq] at mapped
    exact mapped.1.2
  simp [State.farServe, farLen, here, read, long, image, mapped, device, up, State.farAnswer, typ]

theorem farServe_elsewhere {s : State} {p : Packet} (sup : Supply) (far : Bytes) (other : p.dst ≠ s.node.id) :
    s.farServe sup far p = (s.answer p (rspType p.typ) 0xC2 [], some 0xC2) :=
  if_pos other

/-! Responses and timeouts (20, End to end). -/

theorem response_unknown {s : State} {p : Packet} (none_ : Table.find? s.fabric.reqs p.tag = none) : s.response p = s.count ROUTE.LATE_DISCARDS 1 := by
  simp [State.response, none_]

theorem response_late {s : State} {p : Packet} {r : Req} (found : Table.find? s.fabric.reqs p.tag = some r)
    (late : r.pkt.dst ≠ p.src ∨ r.pkt.gen ≠ p.gen ∨ rspType r.pkt.typ ≠ p.typ) : s.response p = s.count ROUTE.LATE_DISCARDS 1 := by
  simp only [State.response, found]
  refine if_neg ?_
  rintro ⟨src, gen, typ⟩
  rcases late with ne | ne | ne
  · exact ne src
  · exact ne gen
  · exact ne typ

theorem response_taken {s : State} {p : Packet} {r : Req} (found : Table.find? s.fabric.reqs p.tag = some r) (src : r.pkt.dst = p.src)
    (gen : r.pkt.gen = p.gen) (typ : rspType r.pkt.typ = p.typ) (first : r.resent = false) :
    s.response p = ((s.reqGone p.tag).reqEnd r p.status (some p)).reqPump := by
  simp [State.response, found, src, gen, typ, first]

theorem e2eTimeout_early {s : State} {tag : Nat} {r : Req} (found : Table.find? s.fabric.reqs tag = some r) (early : s.chrono < r.sentAt + s.e2eNs) :
    s.e2eTimeout tag = s := by
  simp [State.e2eTimeout, found, early]

theorem e2eTimeout_again {s : State} {tag : Nat} {r : Req} (found : Table.find? s.fabric.reqs tag = some r) (due : r.sentAt + s.e2eNs ≤ s.chrono)
    (resent : r.resent = true) : s.e2eTimeout tag = (((s.count ROUTE.TIMEOUTS 1).reqGone tag).reqEnd r 0xB8 none).reqPump := by
  simp [State.e2eTimeout, found, Nat.not_lt.mpr due, resent]

/-! Routes (20, Service, spares and route epochs). -/

theorem routeHere_seen {s : State} {c : RouteChange} (seen : s.fabric.seenEpochs.contains c.epoch = true) : s.routeHere c = s := if_pos seen

theorem routeHere_later {s : State} {c : RouteChange} (unseen : s.fabric.seenEpochs.contains c.epoch = false) (later : s.tide.now < c.effective) :
    s.routeHere c = (s.modFabric fun f => { f with seenEpochs := c.epoch :: f.seenEpochs }).modFabric fun f => { f with
      pendingRoutes := insertBy (fun a b => decide (a.epoch ≤ b.epoch)) c f.pendingRoutes } :=
  (if_neg (ne_true_of_eq_false unseen)).trans (if_neg (Nat.not_le.mpr later))

theorem queryDstHook_route {s : State} {req : Requester} {page n bits : Nat} {old : Word} (valid : s.node.valid = true)
    (route : s.route (n % 65536) = some bits) : queryDstHook req page old (BitVec.ofNat 64 (n % 65536)) s =
      ((s.setFld ROUTE.REACHABLE 1).setFld ROUTE.NEG bits).setFld ROUTE.HOPS (s.hops (s.place (n % 65536)) bits) := by
  have named : bitsOf (BitVec.ofNat 64 (n % 65536)) 15 0 = n % 65536 := by
    simp only [bitsOf, BitVec.toNat_ofNat]
    omega
  simp [queryDstHook, named, valid, route]

/-! Jobs over several nodes (20, Engine message bodies). -/

theorem joinRun_fabric {s u : State} {p : Packet} {b : Option Bytes} (h : s.joinRun p = (u, b)) : u.fabric.starts = s.fabric.starts ∧
    u.fabric.kills = s.fabric.kills := by
  unfold State.joinRun at h
  dsimp only at h
  split at h
  · injection h with h _
    rw [← h]
    exact ⟨rfl, rfl⟩
  · injection h with h _
    rw [← h]
    exact ⟨rfl, rfl⟩

/-- A mark of a window leaves the parts and kills that wait. -/
theorem markSeq_fabric (s : State) (dst src seq status : Nat) : (s.markSeq dst src seq status).fabric.starts = s.fabric.starts ∧
    (s.markSeq dst src seq status).fabric.kills = s.fabric.kills := by
  unfold State.markSeq
  dsimp only
  split <;> exact ⟨rfl, rfl⟩

theorem execJobImage_first {s u : State} {now : Nat} {p : Packet} {bytes : Bytes} (h : s.arrives now p u bytes)
    (first : Table.has s.fabric.images p.job = false) : execJobImage now p s =
      .next ((((u.modFabric fun f => { f with images := Table.put f.images p.job bytes }).reply p 0 0 0 []).markSeq p.dst p.src p.reqSeq 0).partValidate
        p.job) := by
  refine congrArg Host.Outcome.next ((if_neg (ne_true_of_eq_false first)).trans ?_)
  rw [engineServe_whole h]
  rfl

theorem execJobStart_taken {s u : State} {now : Nat} {p : Packet} {bytes : Bytes} (h : s.arrives now p u bytes) : execJobStart now p s =
    .next (((u.modFabric fun f => { f with starts := f.starts ++ [p] }).markSeq p.dst p.src p.reqSeq unanswered).partValidate p.job) := by
  have grown : ((u.modFabric fun f => { f with starts := f.starts ++ [p] }).markSeq p.dst p.src p.reqSeq unanswered).fabric.starts.length ≠
      (s.at now).fabric.starts.length := by
    have starts := (joinRun_fabric h.2.2).1
    rw [(markSeq_fabric _ _ _ _ _).1, ← starts]
    simp
  unfold execJobStart
  dsimp only
  rw [engineServe_whole h]
  exact congrArg Host.Outcome.next (if_neg grown)

theorem execJobKill_taken {s u w : State} {now : Nat} {p : Packet} {bytes : Bytes} (h : s.arrives now p u bytes)
    (hw : w = (u.modFabric fun f => { f with kills := f.kills ++ [p] }).markSeq p.dst p.src p.reqSeq unanswered) :
    (∀ j, w.partOf p.job = some j → execJobKill now p s = .next (w.killJob j (p.arg0 % 256))) ∧
    (w.partOf p.job = none → execJobKill now p s =
      .next (((w.partUnread p.job (p.arg0 % 256) 0).modFabric fun f => { f with images := Table.drop f.images p.job }).killsAnswered p.job)) := by
  have grown : w.fabric.kills.length ≠ (s.at now).fabric.kills.length := by
    have kills := (joinRun_fabric h.2.2).2
    rw [hw, (markSeq_fabric _ _ _ _ _).2, ← kills]
    simp
  have served : (s.at now).engineServe p (fun s _ => (s.modFabric fun f => { f with kills := f.kills ++ [p] }, none)) = w :=
    (engineServe_whole h _).trans hw.symm
  unfold execJobKill
  dsimp only
  rw [served, if_neg grown]
  refine ⟨fun j part => ?_, fun none_ => ?_⟩
  · rw [part]
  · rw [none_]

theorem partValidate_noImage {s : State} {id : Nat} (none_ : Table.find? s.fabric.images id = none) : s.partValidate id = s := by
  unfold State.partValidate
  rw [none_]
  split
  · next is => cases is
  · rfl

theorem partValidate_noStart {s : State} {id : Nat} (none_ : s.fabric.starts.find? (fun p => p.job == id) = none) : s.partValidate id = s := by
  unfold State.partValidate
  rw [none_]

theorem partEnded_again {s : State} {j n : Nat} {job : Job} (r : PartResult) (found : s.job? j = some job) (ended : Table.has job.parts n = true) :
    s.partEnded j n r = s := by
  simp [State.partEnded, found, ended]

theorem partEnded_commits {s : State} {j n : Nat} {r : PartResult} {job : Job} (found : s.job? j = some job) (first : Table.has job.parts n = false)
    (committed : r.committed = true) : s.partEnded j n r = (s.updJob j fun x => { x with parts := Table.put x.parts n r }).jobSettle j := by
  simp [State.partEnded, found, first, committed]

/-- Settles O50: a request under the window, a response by its request, a route change by its epoch and tide, a part by its messages. -/
theorem fabricRequests : Obligations.FabricRequests := by
  unfold Obligations.FabricRequests
  refine ⟨fun s now p far sup released fresh unheld => ⟨?_, ?_, ?_⟩, fun s now p sup released below => ⟨?_, ?_⟩,
    fun s now st p sup released again write answered => ?_, fun s now st p far released again read unheld => ?_,
    fun s sup far p here write some_ mapped device up => farServe_stores sup far here write some_ mapped device up,
    fun s sup far p other => farServe_elsewhere sup far other, fun s now p released none_ => ?_,
    fun s now p r released found => ⟨fun late => ?_, fun src gen typ first => ?_⟩, fun s now tag r released found => ⟨fun early => ?_, fun due resent => ?_⟩,
    fun s now p released lead => ?_, fun s now p released => ?_, fun s c seen => routeHere_seen seen, fun s c unseen later => ?_,
    fun s now p released => ?_, fun s u now n bits req h valid route => ?_,
    fun s u now p bytes h => ⟨fun first => execJobImage_first h first, execJobStart_taken h, fun j herd => ?_, fun none_ => ?_,
      fun w hw => execJobKill_taken h hw⟩,
    fun s id none_ => partValidate_noImage none_, fun s id none_ => partValidate_noStart none_,
    fun s j n r job found ended => partEnded_again r found ended, fun s j n r job found first committed => partEnded_commits found first committed⟩
  · exact congrArg Host.Outcome.next (farArrive_fresh (s := s.at now) _ _ released fresh unheld)
  · exact congrArg Host.Outcome.next (farArrive_fresh (s := s.at now) _ _ released fresh unheld)
  · exact congrArg Host.Outcome.next (farArrive_fresh (s := s.at now) _ _ released fresh unheld)
  · exact congrArg Host.Outcome.next (farArrive_below (s := s.at now) _ _ released below)
  · exact congrArg Host.Outcome.next (farArrive_below (s := s.at now) _ _ released below)
  · obtain ⟨f, arrives, -⟩ := farArrive_released (s := s.at now) (p := p) sup [] released
    exact congrArg Host.Outcome.next (arrives.trans (onRequest_again (s := s.at now) f again write answered))
  · obtain ⟨f, arrives, serves⟩ := farArrive_released (s := s.at now) (p := p) {} far released
    exact congrArg Host.Outcome.next (arrives.trans ((onRequest_readAgain (s := s.at now) f again read).trans (congrArg Prod.fst (serves unheld))))
  · exact congrArg Host.Outcome.next ((whileUp_released (s := s.at now) _ released).trans (response_unknown (s := s.at now) none_))
  · exact congrArg Host.Outcome.next ((whileUp_released (s := s.at now) _ released).trans (response_late (s := s.at now) found late))
  · exact congrArg Host.Outcome.next ((whileUp_released (s := s.at now) _ released).trans (response_taken (s := s.at now) found src gen typ first))
  · exact congrArg Host.Outcome.next ((whileUp_released (s := s.at now) _ released).trans (e2eTimeout_early (s := s.at now) found early))
  · exact congrArg Host.Outcome.next ((whileUp_released (s := s.at now) _ released).trans (e2eTimeout_again (s := s.at now) found due resent))
  · exact congrArg Host.Outcome.next ((whileUp_released (s := s.at now) _ released).trans (if_pos lead))
  · exact congrArg Host.Outcome.next (whileUp_released (s := s.at now) _ released)
  · rw [routeHere_later unseen later]
    exact ⟨rfl, rfl⟩
  · exact ⟨_, congrArg Host.Outcome.next (whileUp_released (s := s.at now) _ released), rfl⟩
  · exact congrArg Host.Outcome.next ((State.lands_hook queryDstHook h (effect_writable (by decide))).trans (queryDstHook_route valid route))
  · refine congrArg Host.Outcome.next ((okServe_whole h _).trans ?_)
    rw [herd]
  · refine congrArg Host.Outcome.next ((okServe_whole h _).trans ?_)
    rw [none_]

end Sys2Proof.Machine
end

section
/-! Formation, membership and twins; the runtime image from the lead (21, 23). -/

namespace Sys2Proof.Machine

open Sys2Proof.Reg

/-! Formation (21, Node IDs and formation). -/

theorem claimHeard_higher {s : State} {k l : Nat} {b : Bytes} (known : s.herd.lowest = some l) (higher : l ≤ leAt b 2 2) : s.claimHeard k b = s := by
  simp [State.claimHeard, known, Nat.not_lt.mpr higher]

theorem claimHeard_first {s : State} {k : Nat} {b : Bytes} (none_ : s.herd.lowest = none) (forming : s.fld HERD.STATE = 0) (serial : s.herd.serial = 0) :
    s.claimHeard k b = (s.modHerd fun h => { h with lowest := some (leAt b 2 2) }).relayClaim k b := by
  simp [State.claimHeard, none_, forming, serial]

theorem formExpire_alone {s : State} (joins : s.herd.waitJoins = none) (election : s.herd.electAt = none) (forming : s.fld HERD.STATE = 0)
    (unformed : s.herd.formed = false) (serial : s.herd.serial = 0) (due : s.herd.formAt + s.fld HERD.FORM_MS * 1000000 ≤ s.chrono)
    (alone : s.anyTrained = false) : s.formExpire = (s.modHerd fun h => { h with formed := true }).becomeAlone 0 := by
  unfold State.formExpire
  simp only [joins, election, Option.any_none, Bool.false_eq_true, if_false]
  rw [if_pos ⟨forming, by simp [unformed], serial, due⟩]
  exact if_pos (by simp [alone])

theorem becomeAlone_shows (s : State) (id : Nat) : (s.becomeAlone id).fld HERD.STATE = 1 ∧ (s.becomeAlone id).node = ⟨id, true⟩ ∧
    (s.becomeAlone id).herd.lead = id ∧ (s.becomeAlone id).fabric.members = [id] ∧ (s.becomeAlone id).fabric.map = [] :=
  ⟨State.setFld_fits _ _ (by decide) (by decide), rfl, rfl, rfl, rfl⟩

theorem derive_refuses {s : State} {k d : Nat} {b : Bytes} (derived : s.herd.derived = some d)
    (differs : d ≠ ({ s.herd with shape := (byteAt b 6, byteAt b 7, byteAt b 8) } : Herd).step (leAt b 4 2) (k / 2) (k % 2 == 0)) :
    s.derive k b = (s.setFld HERD.STATE 5).raiseOwn 0x0D9 16 := by
  simp only [State.derive, derived]
  exact if_neg differs

/-! Messages of membership (21, Membership messages). -/

/-- A part of a set that is known is acknowledged only. -/
theorem execMemberSet_known {s : State} {now k : Nat} {p : Packet} (released : s.power.released = true) (inside : k < 6)
    (known : s.herd.lastSet = some (leAt p.body 4 4)) :
    execMemberSet now k p s = .next ((s.at now).sendUp s.ownId (memberAckBody (leAt p.body 4 4) (leAt p.body 20 2))) := by
  refine (Link.known inside _ _).trans (congrArg Host.Outcome.next ((whileUp_released (s := s.at now) _ released).trans ?_))
  have seen : (s.at now).herd.lastSet.any (fun l => decide ((setPartOf p.body).seq ≤ l)) = true := by
    rw [show (s.at now).herd.lastSet = some (leAt p.body 4 4) from known]
    exact decide_eq_true (Nat.le_refl _)
  dsimp only
  rw [seen, Bool.or_true, Bool.true_or]
  exact if_pos rfl

/-- A set of one part is whole. -/
theorem wholeSet_single {x : SetPart} (last : x.last = true) (first : x.part = 0) : wholeSet [x] = some x.body := by
  have sorted : sortBy (fun (a b : SetPart) => decide (a.part ≤ b.part)) [x] = [x] := rfl
  simp [wholeSet, sorted, last, first]

/-- A set of one part that passes no SPARE link is held at once. -/
theorem execMemberSet_whole {s u : State} {now k : Nat} {p : Packet} (released : s.power.released = true) (inside : k < 6)
    (new_ : byteAt p.body 1 ≠ 0) (old : byteAt p.body 1 ≠ 1) (unset : s.herd.lastSet = none) (none_ : s.herd.pendingSets = []) (parts : s.herd.parts = [])
    (last : bitAt (byteAt p.body 2) 0 = true) (first : leAt p.body 20 2 = 0)
    (acked : u = (s.at now).sendUp s.ownId (memberAckBody (leAt p.body 4 4) 0)) (herd : u.herd = s.herd) :
    execMemberSet now k p s = .next ((u.modHerd fun h => { h with parts := [] }).holdSet (setPartOf p.body).body) := by
  refine (Link.known inside _ _).trans (congrArg Host.Outcome.next ((whileUp_released (s := s.at now) _ released).trans ?_))
  have unknown : ¬(((s.at now).herd.parts.any (fun y => y.seq == (setPartOf p.body).seq && y.part == (setPartOf p.body).part) ||
      (s.at now).herd.lastSet.any (fun l => decide ((setPartOf p.body).seq ≤ l)) ||
      (s.at now).herd.pendingSets.any fun m => m.seq == (setPartOf p.body).seq) = true) := by
    simp [parts, unset, none_]
  have stays : ¬((setPartOf p.body).body.kind = 0 ∨ ((setPartOf p.body).body.kind = 1 ∧ (s.at now).fld HERD.STATE = 3)) :=
    fun hop => hop.elim new_ fun h => old h.1
  have acked' : (s.at now).sendUp (s.at now).ownId (memberAckBody (setPartOf p.body).seq (setPartOf p.body).part) = u :=
    (congrArg (fun n => (s.at now).sendUp s.ownId (memberAckBody (leAt p.body 4 4) n)) first).trans acked.symm
  have whole : (u.modHerd fun h => { h with parts := h.parts ++ [setPartOf p.body] }).herd.parts.filter (fun y => y.seq == (setPartOf p.body).seq) =
      [setPartOf p.body] := by
    simp [herd, parts]
  dsimp only
  rw [if_neg unknown, if_neg stays, acked', whole, wholeSet_single last first]
  refine congrArg (fun h : Herd => ({ u with herd := h } : State).holdSet (setPartOf p.body).body) ?_
  simp [herd, parts]

/-! Leadership (21, The lead node). -/

theorem isolate_member {s : State} (member : s.fld HERD.STATE = 3) (follows : s.isLead = false) (cut : s.linksIn 3 = [])
    (quiet : s.quietFor (s.fld TIDE.BEAT_LOSS) = true) : s.isolate = (s.setFld HERD.STATE 4).raiseOwn 0x0D9 17 :=
  if_pos ⟨member, by simp [follows], by simp [cut], quiet⟩

theorem takeOver_unpaired {s : State} (unpaired : s.twin.paired = false) : s.takeOver = s := by
  refine if_neg ?_
  simp [unpaired]

/-! HERD_CTRL (21, Joining, leaving and spares). -/

section HerdCtrl

variable {s : State} {req : Requester} {page : Nat} {old : Word}

theorem herdCtrlHook_join : herdCtrlHook req page old 1#64 s = s.herdJoin req := rfl

theorem herdCtrlHook_leave : herdCtrlHook req page old 2#64 s = s.herdLeave := rfl

theorem herdCtrlHook_admit (n : Nat) : herdCtrlHook req page old (BitVec.ofNat 64 (n % 65536 * 65536)) s =
    if s.isLead then s.admitNode (n % 65536) else s.raiseBy req page 18 0x118 := by
  have named : bitsOf (BitVec.ofNat 64 (n % 65536 * 65536)) 31 16 = n % 65536 := by
    simp only [bitsOf, BitVec.toNat_ofNat]
    omega
  have join : (BitVec.ofNat 64 (n % 65536 * 65536)).getLsbD 0 = false := by
    rw [← bitAt_toNat, BitVec.toNat_ofNat, bitAt]
    simp
    omega
  have leave : (BitVec.ofNat 64 (n % 65536 * 65536)).getLsbD 1 = false := by
    rw [← bitAt_toNat, BitVec.toNat_ofNat, bitAt]
    simp
    omega
  simp only [herdCtrlHook, named, join, leave]
  rfl

end HerdCtrl

theorem herdJoin_waits {s : State} {req : Requester} (alone : s.fld HERD.STATE = 1) (idle : s.work.jobs = []) (none_ : s.herd.offer = none) :
    s.herdJoin req = { s with node := ⟨s.node.id, false⟩ }.setFld HERD.STATE 0 := by
  simp [State.herdJoin, alone, idle, none_]

theorem herdJoin_busy {s : State} {req : Requester} (alone : s.fld HERD.STATE = 1) (busy : s.work.jobs ≠ []) :
    s.herdJoin req = s.raiseBy req 0x0D9 18 0x118 := by
  simp [State.herdJoin, alone, busy]

theorem herdLeave_member {s : State} (member : s.fld HERD.STATE = 3) :
    s.herdLeave = if s.isLead then s.removeNode s.node.id else s.sendUp s.node.id (leaveBody s.node.id) :=
  if_neg (not_not_intro member)

/-- Settles O51: claims, forms and sets by what the node has heard; the lead's and a member's commands by the HERD page. -/
theorem herdMembership : Obligations.HerdMembership := by
  unfold Obligations.HerdMembership
  refine ⟨fun s now k p released inside => ?_, fun s k l b known higher => claimHeard_higher known higher,
    fun s k b none_ forming serial => claimHeard_first none_ forming serial, fun s now released => ?_,
    fun s joins election forming unformed serial due alone => ⟨_, formExpire_alone joins election forming unformed serial due alone, becomeAlone_shows _ 0⟩,
    fun s now k p released inside => ?_, fun s k d b derived differs => derive_refuses derived differs,
    fun s now p released => ⟨fun lead => ?_, fun member hosts => ?_, fun member other => ?_⟩,
    fun s now k p released inside known => execMemberSet_known released inside known,
    fun s u now k p released inside new_ old unset none_ parts last first acked herd =>
      ⟨_, rfl, execMemberSet_whole released inside new_ old unset none_ parts last first acked herd⟩,
    fun s now p released lead => ?_, fun s now p released election => ?_, fun s now p released lead => ?_, fun s now released lead => ?_,
    fun s now n released lead alias_ => ?_, fun s now released member follows cut quiet => ?_, fun s now released unpaired => ?_,
    fun s u now req h alone idle none_ => ?_, fun s u now req h alone busy => ?_, fun s u now req h member => ?_, fun s u now n req h => ?_⟩
  · exact (Link.known inside _ _).trans (congrArg Host.Outcome.next (whileUp_released (s := s.at now) _ released))
  · exact congrArg Host.Outcome.next (whileUp_released (s := s.at now) _ released)
  · exact (if_neg (Nat.not_le.mpr inside)).trans (congrArg Host.Outcome.next (whileUp_released (s := s.at now) _ released))
  · exact congrArg Host.Outcome.next ((whileUp_released (s := s.at now) _ released).trans (if_pos lead))
  · exact congrArg Host.Outcome.next ((whileUp_released (s := s.at now) _ released).trans ((if_neg (ne_true_of_eq_false member)).trans (if_pos hosts)))
  · exact congrArg Host.Outcome.next ((whileUp_released (s := s.at now) _ released).trans ((if_neg (ne_true_of_eq_false member)).trans (if_neg other)))
  · exact ⟨_, congrArg Host.Outcome.next ((whileUp_released (s := s.at now) _ released).trans (if_pos lead)), rfl⟩
  · exact congrArg Host.Outcome.next ((whileUp_released (s := s.at now) _ released).trans (if_pos election))
  · exact congrArg Host.Outcome.next ((whileUp_released (s := s.at now) _ released).trans (if_pos lead))
  · exact congrArg Host.Outcome.next ((whileUp_released (s := s.at now) _ released).trans (if_pos lead))
  · exact congrArg Host.Outcome.next ((whileUp_released (s := s.at now) _ released).trans (if_pos (Bool.and_eq_true_iff.mpr ⟨lead, alias_⟩)))
  · exact congrArg Host.Outcome.next ((whileUp_released (s := s.at now) _ released).trans (isolate_member (s := s.at now) member follows cut quiet))
  · exact congrArg Host.Outcome.next ((whileUp_released (s := s.at now) _ released).trans (takeOver_unpaired (s := s.at now) unpaired))
  · exact congrArg Host.Outcome.next ((State.lands_hook herdCtrlHook h (effect_writable (by decide))).trans (herdCtrlHook_join.trans (herdJoin_waits alone idle none_)))
  · exact congrArg Host.Outcome.next ((State.lands_hook herdCtrlHook h (effect_writable (by decide))).trans (herdCtrlHook_join.trans (herdJoin_busy alone busy)))
  · exact congrArg Host.Outcome.next ((State.lands_hook herdCtrlHook h (effect_writable (by decide))).trans (herdCtrlHook_leave.trans (herdLeave_member member)))
  · exact congrArg Host.Outcome.next ((State.lands_hook herdCtrlHook h (effect_writable (by decide))).trans (herdCtrlHook_admit n))

/-! Twin pairs and their cuts (21, Twin pairing, Mirror cuts and held outputs). -/

theorem pairForm_shows (s : State) (partner : Nat) : (s.pairForm partner).twin.paired = true ∧ (s.pairForm partner).twin.degraded = false ∧
    (s.pairForm partner).twin.partner = partner ∧ (s.pairForm partner).twin.sent = [] ∧ (s.pairForm partner).twin.incoming = [] ∧
    (s.pairForm partner).twin.heardAt = s.chrono :=
  ⟨rfl, rfl, rfl, rfl, rfl, rfl⟩

theorem execMirror_elsewhere {s : State} {now k : Nat} {p : Packet} (released : s.power.released = true) (other : s.twinLink ≠ some k) :
    execMirror now k p s = .next (s.at now) :=
  congrArg Host.Outcome.next ((whileUp_released (s := s.at now) _ released).trans (if_pos other))

/-- A whole image joins those of the cut in arrival. -/
theorem execMirror_whole {s u : State} {now k : Nat} {p : Packet} {bytes : Bytes} (h : s.arrives now p u bytes) (link : s.twinLink = some k) :
    execMirror now k p s = .next (((u.modTwin fun t => { t with
      incoming := t.incoming ++ [MirrorObj.mk (p.arg0 / 2 ^ 32 % 1024) p.arg1 bytes] }).replyLink k p).marked p 0) := by
  obtain ⟨released, fresh, whole⟩ := h
  refine congrArg Host.Outcome.next ((whileUp_released (s := s.at now) _ released).trans ((if_neg (not_not_intro link)).trans ?_))
  have fresh' : (s.at now).arrival p.dst p.src p.reqSeq = .fresh := fresh
  rw [fresh']
  simp only [whole]

theorem twinCut_partial {s : State} (k cut tide : Nat) {bytes : Nat} (lost : s.twin.incoming.foldl (fun n r => n + r.image.length) 0 ≠ bytes) :
    s.twinCut k cut tide bytes = s.modTwin fun t => { t with incoming := [], runs := [] } :=
  if_pos (.inr lost)

theorem twinCut_full {s : State} (k cut tide : Nat) {bytes : Nat} (room : s.twin.full = false)
    (whole : s.twin.incoming.foldl (fun n r => n + r.image.length) 0 = bytes)
    (quota : s.fld TWIN.MIRROR_QUOTA < mirrorMib (s.twin.incoming.foldl s.mirrorOne s.twin.mirror)) :
    s.twinCut k cut tide bytes = (s.modTwin fun t => { t with full := true, incoming := [], runs := [] }).raiseOwn 0x0DA 17 := by
  have taken : ¬(s.twin.full = true ∨ s.twin.incoming.foldl (fun n r => n + r.image.length) 0 ≠ bytes) := by
    simp [room, whole]
  exact (if_neg taken).trans (if_pos (.inl quota))

theorem twinAck_stale {s : State} {cut : Nat} (stale : cut ≤ s.twin.acked ∨ s.twin.cutSeq < cut) : s.twinAck cut = s :=
  if_neg (by omega)

/-! The runtime image (23, Boot and anti-rollback). -/

theorem bootReq_member {s : State} (k : Nat) (p : Packet) (follows : s.isLead = false) (underived : s.herd.derived = none) :
    s.bootReq k p = s.sendUp (if s.node.valid then s.node.id else p.src) p.body := by
  refine if_neg ?_
  simp [follows, underived]

theorem bootData_more {s : State} (k : Nat) {p : Packet} (own : leAt p.body 2 2 = s.ownId) (asked : s.herd.bootAsked = true)
    (booting : s.fld ROLAR.STATE = 0) (next_ : leAt p.body 4 8 = s.herd.boot.length)
    (more : s.herd.boot.length + (sub p.body 64 (leAt p.body 12 2)).length < leAt p.body 16 4) : s.bootData k p = s.modHerd fun h => { h with
      boot := s.herd.boot ++ sub p.body 64 (leAt p.body 12 2), bootTotal := leAt p.body 16 4, bootAt := some s.chrono } := by
  have part : ¬(leAt p.body 16 4 ≤ (s.herd.boot ++ sub p.body 64 (leAt p.body 12 2)).length) := by
    rw [List.length_append]
    omega
  refine (if_neg (not_not_intro own)).trans ((if_pos ?_).trans (if_neg part))
  simp [asked, booting, next_]

theorem bootFallback_alone {s : State} (source : s.fld GLOBAL.BOOT_SRC = 1) (booting : s.fld ROLAR.STATE = 0) (alone : s.fld HERD.STATE = 1) :
    s.bootFallback = (s.modHerd fun h => { h with boot := [], bootAsked := false, bootAt := none }).flashBoot true := by
  refine if_pos ?_
  simp [source, booting, alone]

theorem bootFallback_flash {s : State} (source : s.fld GLOBAL.BOOT_SRC ≠ 1) : s.bootFallback = s := by
  refine if_neg ?_
  simp [source]

/-- Settles O52: pairs and cuts by what the twin holds; the image's chunks and the return to flash by the boot's state. -/
theorem twinsAndBoot : Obligations.TwinsAndBoot := by
  unfold Obligations.TwinsAndBoot
  refine ⟨fun s now p released => congrArg Host.Outcome.next (whileUp_released (s := s.at now) _ released),
    fun s partner => ⟨_, rfl, pairForm_shows s partner⟩, fun s now k p released other => execMirror_elsewhere released other,
    fun s u now k p bytes h link => execMirror_whole h link, fun s now k p released paired link => ?_,
    fun s k cut tide bytes lost => twinCut_partial k cut tide lost, fun s k cut tide bytes room whole quota => twinCut_full k cut tide room whole quota,
    fun s now k p released link => ?_, fun s cut stale => twinAck_stale stale, fun s now k p released inside => ⟨?_, ?_⟩,
    fun s k p follows underived => bootReq_member k p follows underived,
    fun s k p own asked booting next_ more => bootData_more k own asked booting next_ more,
    fun s now released => congrArg Host.Outcome.next (whileUp_released (s := s.at now) _ released),
    fun s source booting alone => bootFallback_alone source booting alone, fun s source => bootFallback_flash source⟩
  · have pair : ((s.at now).twin.paired && (s.at now).twinLink == some k) = true := by
      have link' : (s.at now).twinLink = some k := link
      simp [paired, link']
    exact congrArg Host.Outcome.next ((whileUp_released (s := s.at now) _ released).trans (if_pos pair))
  · exact congrArg Host.Outcome.next ((whileUp_released (s := s.at now) _ released).trans (if_pos link))
  · exact (Link.known inside _ _).trans (congrArg Host.Outcome.next (whileUp_released (s := s.at now) _ released))
  · exact (Link.known inside _ _).trans (congrArg Host.Outcome.next (whileUp_released (s := s.at now) _ released))

end Sys2Proof.Machine
end

section
/-! Serving (22). -/

namespace Sys2Proof.Machine

open Sys2Proof.Reg

/-! A field whose rule is special keeps its value until the register's own effect. -/

theorem fieldStep_special {v : Word} {w : FieldWrite} {f : Field} (acc : f.acc = .rw ∨ f.acc = .rwl) (rule : f.rule = .special) :
    (fieldStep false v w f).stored = w.stored := by
  rcases acc with acc | acc <;> simp [fieldStep, acc, rule, Rule.allows]

/-- A register with a field that software may write is not read-only. -/
theorem writable_of_field {f : Field} (mem : f ∈ fieldsAt f.page f.off) (acc : f.acc = .rw ∨ f.acc = .rwl) :
    (fieldsAt f.page f.off).all (fun f => f.acc = .ro) = false := by
  refine eq_false_of_ne_true fun all => ?_
  have ro := of_decide_eq_true (List.all_eq_true.mp all f mem)
  rw [ro] at acc
  rcases acc with is | is <;> cases is

theorem State.lands_special {s u : State} {now : Nat} {req : Requester} {v : Word} {f : Field} (h : s.lands now req f.page f.off v u)
    (own : ownerOf req f.page = 0) (mem : f ∈ fieldsAt f.page f.off) (acc : f.acc = .rw ∨ f.acc = .rwl) (rule : f.rule = .special)
    (plain : (f.off != 0x048 && !errorOff f.off) = true) : u.fld f = s.fld f := by
  have word := State.lands_word h (writable_of_field mem acc) plain
  rw [own] at word
  obtain ⟨pairwise, bounds⟩ := fieldsAt_sound f.page f.off
  obtain ⟨w, same, step⟩ := fieldWrite_field (locked := false) (v := v) (s.word 0 f.page f.off) pairwise (fun g mem => (bounds g mem).2) mem
  unfold State.fld State.fldFn
  rw [word, step, fieldStep_special acc rule]
  exact bitsOf_congr same

/-! Serving's enable (22, Services). -/

section ServeCfg

variable {s : State} {req : Requester} {page : Nat} {old w : Word}

variable (depth : bitsOf w 32 16 = s.fld SERVE.QDEPTH)
include depth

theorem serveCfg_depth (x : Nat) : bitsOf (putBits w 0 0 x) 32 16 = s.fld SERVE.QDEPTH :=
  (bitsOf_putBits_other (by decide) (.inl (by decide))).trans depth

theorem serveCfgHook_takes {t : State} (off : s.bit SERVE.ENABLE = false) (none_ : s.serve.store = none) (room : s.takeStore = some t) :
    serveCfgHook req page old (putBits w 0 0 1) s = (t.setFld SERVE.ENABLE 1).placeAll := by
  simp [serveCfgHook, serveCfg_depth depth, off, none_, room]

theorem serveCfgHook_noRoom (off : s.bit SERVE.ENABLE = false) (none_ : s.serve.store = none) (room : s.takeStore = none) :
    serveCfgHook req page old (putBits w 0 0 1) s = s.raiseBy req page 20 0x100 := by
  simp [serveCfgHook, serveCfg_depth depth, off, none_, room]

theorem serveCfgHook_stops (on : s.bit SERVE.ENABLE = true) :
    serveCfgHook req page old (putBits w 0 0 0) s = ((s.setFld SERVE.ENABLE 0).storeSettle).placeAll := by
  simp [serveCfgHook, serveCfg_depth depth, on]

end ServeCfg

theorem servePageHook_ring {r : Nat} (h : r < 16) : servePageHook [] (0x200 + 0x40 * r) = serveRingHook r := by
  unfold servePageHook
  rw [if_neg (by omega), if_neg (by omega), if_neg (by omega), if_neg (by omega), if_pos (by omega), if_pos (by omega)]
  congr 1
  omega

/-- A write of SERVE_CFG leaves QDEPTH to the register's own effect. -/
theorem State.lands_qdepth {s u : State} {now : Nat} {req : Requester} {v : Word} (h : s.lands now req 0x0E0 0x100 v u) :
    bitsOf (s.word 0 0x0E0 0x100) 32 16 = u.fld SERVE.QDEPTH :=
  (State.lands_special (f := SERVE.QDEPTH) h rfl (by decide +kernel) (.inr rfl) rfl (by decide)).symm

/-! Request rings (22, Request rings, Admission and shedding). -/

theorem ringCfg_writable : ∀ r < 16, (fieldsAt 0x0E0 (0x200 + 0x40 * r)).all (fun f => f.acc = .ro) = false := by decide +kernel

section ServeRing

variable {s : State} {req : Requester} {r : Nat} {old w : Word}

theorem serveRingHook_on (off : bitsOf old 57 57 = 0) (idle : s.serve.requests = []) (ok : s.ringOk r = true) :
    serveRingHook r req 0x0E0 old (putBits w 57 57 1) s = (s.setFld (SERVE.R_ENABLE.at r) 1).setServeRing r {} := by
  have on : bitsOf (putBits w 57 57 1) 57 57 = 1 := bitsOf_putBits_self (by decide)
  simp [serveRingHook, off, on, ok, idle]

theorem serveRingHook_refuses (off : bitsOf old 57 57 = 0) (bad : s.ringOk r = false) :
    serveRingHook r req 0x0E0 old (putBits w 57 57 1) s = s.raiseBy req 0x0E0 20 (0x200 + 0x40 * r) := by
  have on : bitsOf (putBits w 57 57 1) 57 57 = 1 := bitsOf_putBits_self (by decide)
  simp [serveRingHook, off, on, bad]

theorem serveRingHook_off (was : bitsOf old 57 57 = 1) : serveRingHook r req 0x0E0 old (putBits w 57 57 0) s =
    (s.setWord 0 0x0E0 (0x200 + 0x40 * r) old).setFld (SERVE.R_ENABLE.at r) 0 := by
  have on : bitsOf (putBits w 57 57 0) 57 57 = 0 := bitsOf_putBits_self (by decide)
  simp [serveRingHook, was, on]

end ServeRing

theorem execProd_stores {s : State} {now r v : Nat} {g : Region} (inside : r < 16) (region : s.reqRegion r = some g) (released : s.power.released = true)
    (up : s.host.p0Up = true) (on : s.bit (SERVE.R_ENABLE.at r) = true) :
    execProd now r v s = .next (((s.at now).storeBytes g.base (leBytes 8 v)).takeProd r v) := by
  have region' : (s.at now).reqRegion r = some g := region
  have runs : ((s.at now).power.released && (s.at now).host.p0Up && (s.at now).bit (SERVE.R_ENABLE.at r)) = true := by
    have on' : (s.at now).bit (SERVE.R_ENABLE.at r) = true := on
    simp [released, up, on']
  refine (if_neg (Nat.not_le.mpr inside)).trans (congrArg Host.Outcome.next ?_)
  rw [region']
  exact if_pos runs

theorem takeProd_outside {s : State} {r v : Nat} (outside : s.reqDepth r ≤ v % 65536) : s.takeProd r v = s.raiseOwn 0x0E0 19 :=
  if_pos (.inl outside)

/-- A PROD inside the ring that announces no more requests than it holds. -/
theorem takeProd_inside {s : State} {r v : Nat} (inside : v % 65536 < s.reqDepth r)
    (room : ((s.serveRing r).prod + s.reqDepth r - (s.serveRing r).cons) % s.reqDepth r +
      (v % 65536 + s.reqDepth r - (s.serveRing r).prod) % s.reqDepth r < s.reqDepth r) :
    ∃ at_, s.takeProd r v = s.setServeRing r { s.serveRing r with prod := v % 65536, prodAt := at_ } :=
  ⟨_, if_neg fun h => h.elim (Nat.not_le.mpr inside) (Nat.not_le.mpr room)⟩

theorem State.serveRing_set (s : State) (r : Nat) (x : ServeRing) : (s.setServeRing r x).serveRing r = x := Table.findD_put_self _ _ _ _

theorem execAdmission_next {s : State} {now r : Nat} {g : Region} (inside : r < 16) (region : s.reqRegion r = some g) (released : s.power.released = true)
    (serves : s.bit SERVE.ENABLE = true) (on : s.bit (SERVE.R_ENABLE.at r) = true) (some_ : (s.serveRing r).prod ≠ (s.serveRing r).cons) :
    execAdmission now r s = .next ((s.at now).admitNext r g) := by
  have region' : (s.at now).reqRegion r = some g := region
  have runs : ((s.at now).power.released && (s.at now).bit SERVE.ENABLE && (s.at now).bit (SERVE.R_ENABLE.at r) &&
      ((s.at now).serveRing r).prod != ((s.at now).serveRing r).cons) = true := by
    have serves' : (s.at now).bit SERVE.ENABLE = true := serves
    have on' : (s.at now).bit (SERVE.R_ENABLE.at r) = true := on
    have some' : ((s.at now).serveRing r).prod ≠ ((s.at now).serveRing r).cons := some_
    simp [released, serves', on', some']
  refine (if_neg (Nat.not_le.mpr inside)).trans (congrArg Host.Outcome.next ?_)
  rw [region']
  exact if_pos runs

theorem execAdmission_empty {s : State} {now r : Nat} (inside : r < 16) (none_ : (s.serveRing r).prod = (s.serveRing r).cons) :
    execAdmission now r s = .next (s.at now) := by
  have none' : ((s.at now).serveRing r).prod = ((s.at now).serveRing r).cons := none_
  refine (if_neg (Nat.not_le.mpr inside)).trans (congrArg Host.Outcome.next ?_)
  split
  · exact if_neg (by simp [none'])
  · rfl

theorem execRequestDeadline_known {s : State} {now id : Nat} {q : Request} (found : s.request? id = some q) : execRequestDeadline now id s =
    .next (if q.deadline ≤ max s.chrono now ∧ q.status ≠ 0xCA ∧ q.status ≠ 0xC8 then (s.at now).abandon id else s.at now) := by
  have found' : (s.at now).request? id = some q := found
  simp only [execRequestDeadline, found']
  rfl

theorem execTxSlotFree_reads {s : State} {now r head : Nat} (inside : r < 16) (reading : (s.serveRing r).reading = true) (up : s.host.p0Up = true) :
    execTxSlotFree now r head s = .next (((s.at now).setServeRing r { s.serveRing r with
      reading := false
      head := (s.serveRing r).head + (head % s.txDepth r + s.txDepth r - (s.serveRing r).head % s.txDepth r) % s.txDepth r }).serveSettle r) :=
  (if_neg (Nat.not_le.mpr inside)).trans (congrArg Host.Outcome.next (if_pos (Bool.and_eq_true_iff.mpr ⟨reading, up⟩)))

/-! Services (22, Services). -/

theorem svcWord_op (s : State) (slot : Nat) {op : Nat} (h : op < 8) : bitsOf (s.svcWord op slot) 10 8 = op := by
  simp only [bitsOf, State.svcWord, BitVec.toNat_ofNat]
  omega

theorem registerWord_op (slot rq rs nb : Nat) :
    bitsOf (BitVec.ofNat 64 (slot % 64 + 256 + rq % 256 * 2 ^ 16 + rs % 256 * 2 ^ 24 + nb % 512 * 2 ^ 32)) 10 8 = 1 := by
  simp only [bitsOf, BitVec.toNat_ofNat]
  omega

theorem svcHook_busy {s : State} {req : Requester} {page : Nat} {old v : Word} (host : Memory) (some_ : bitsOf v 10 8 ≠ 0) (busy : s.bit SERVE.BUSY = true) :
    svcHook host req page old v s = s.raiseBy req page 21 0x110 := by
  simp [svcHook, some_, busy]

theorem svcHook_idle {s : State} {req : Requester} {page : Nat} {old v : Word} (host : Memory) (idle : s.bit SERVE.BUSY = false) :
    (bitsOf v 10 8 = 1 → svcHook host req page old v s = s.svcRegister host) ∧
    (bitsOf v 10 8 = 2 → svcHook host req page old v s = s.svcUnregister) ∧ (bitsOf v 10 8 = 3 → svcHook host req page old v s = s.svcRead) := by
  refine ⟨fun op => ?_, fun op => ?_, fun op => ?_⟩ <;> simp [svcHook, op, idle]

theorem svcRegister_taken {s : State} (host : Memory) (taken : Table.has s.serve.services (s.fld SERVE.SVC) = true) :
    s.svcRegister host = s.svcResult 1 :=
  if_pos taken

theorem svcUnregister_missing {s : State} (none_ : Table.find? s.serve.services (s.fld SERVE.SVC) = none) : s.svcUnregister = s.svcResult 2 := by
  simp [State.svcUnregister, none_]

theorem svcResult_shows (s : State) {res : Nat} (h : res < 16) : (s.svcResult res).fld SERVE.RESULT = res ∧ (s.svcResult res).bit SERVE.BUSY = false ∧
    (s.svcResult res).bit SERVE.DONE = true := by
  unfold State.svcResult
  refine ⟨State.setFld_fits _ _ (by decide) h, ?_, ?_⟩
  · exact (State.setFld_bit_apart _ _ (by decide)).trans ((State.setFld_bit_apart _ _ (by decide)).trans (State.setFld_bit_self _ _ _ (by decide)))
  · exact (State.setFld_bit_apart _ _ (by decide)).trans (State.setFld_set_bit _ _ (by decide) (by decide))

theorem execSvcUnregisterDone_waiting {s : State} {now slot : Nat} (unreg : s.serve.unreg = some slot) : execSvcUnregisterDone now s =
    .next (if s.serviceBusy slot then s.at now
      else ((s.at now).modServe fun x => { x with services := Table.drop x.services slot, unreg := none }).svcResult 0) := by
  have unreg' : (s.at now).serve.unreg = some slot := unreg
  simp only [execSvcUnregisterDone, unreg']
  rfl

/-- Settles O53: SERVE_CFG, a ring's control and SVC_CMD by their hooks; PROD, admission, deadlines and slots by the ring's place. -/
theorem serving : Obligations.Serving := by
  unfold Obligations.Serving
  refine ⟨fun s u w now req h off none_ room => ?_, fun s u now req h off none_ room => ?_, fun s u now req h on => ?_,
    fun s u now r req inside off h => ⟨fun ok idle => ?_, fun bad => ?_⟩, fun s u now r req inside was h => ?_,
    fun s now r v g inside region released up on => execProd_stores inside region released up on, fun s r v outside => takeProd_outside outside,
    fun s r v inside room => ?_, fun s now r g inside region released serves on some_ => execAdmission_next inside region released serves on some_,
    fun s now r inside none_ => execAdmission_empty inside none_, fun s now id q found due unpaid unshed => ?_, fun s now id q found early => ?_,
    fun s now r head inside reading up => execTxSlotFree_reads inside reading up, fun s u now slot rq rs nb req host h => ⟨fun idle => ?_, fun busy => ?_⟩,
    fun s host taken => svcRegister_taken host taken, fun s u now slot req h idle => ?_, fun s none_ => svcUnregister_missing none_,
    fun s now slot unreg free => ?_, fun s now slot unreg busy => ?_, fun s u now slot req h idle => ?_, fun s res small => svcResult_shows s small⟩
  · exact congrArg Host.Outcome.next ((State.lands_hook serveCfgHook h (effect_writable (by decide))).trans
      (serveCfgHook_takes (State.lands_qdepth h) off none_ room))
  · exact congrArg Host.Outcome.next ((State.lands_hook serveCfgHook h (effect_writable (by decide))).trans
      (serveCfgHook_noRoom (State.lands_qdepth h) off none_ room))
  · exact congrArg Host.Outcome.next ((State.lands_hook serveCfgHook h (effect_writable (by decide))).trans (serveCfgHook_stops (State.lands_qdepth h) on))
  · refine (if_neg (Nat.not_le.mpr inside)).trans (congrArg Host.Outcome.next ?_)
    rw [servePageHook_ring inside]
    exact (State.lands_hook (serveRingHook r) h (ringCfg_writable r inside)).trans (serveRingHook_on off idle ok)
  · refine (if_neg (Nat.not_le.mpr inside)).trans (congrArg Host.Outcome.next ?_)
    rw [servePageHook_ring inside]
    exact (State.lands_hook (serveRingHook r) h (ringCfg_writable r inside)).trans (serveRingHook_refuses off bad)
  · refine (if_neg (Nat.not_le.mpr inside)).trans (congrArg Host.Outcome.next ?_)
    rw [servePageHook_ring inside]
    exact (State.lands_hook (serveRingHook r) h (ringCfg_writable r inside)).trans (serveRingHook_off was)
  · obtain ⟨at_, taken⟩ := takeProd_inside inside room
    rw [taken, State.serveRing_set]
    exact ⟨rfl, rfl, rfl⟩
  · exact (execRequestDeadline_known found).trans (congrArg Host.Outcome.next (if_pos ⟨due, unpaid, unshed⟩))
  · exact (execRequestDeadline_known found).trans (congrArg Host.Outcome.next (if_neg fun h => Nat.not_le.mpr early h.1))
  · exact congrArg Host.Outcome.next ((State.lands_hook (svcHook host) h (effect_writable (by decide))).trans
      ((svcHook_idle host idle).1 (registerWord_op slot rq rs nb)))
  · exact congrArg Host.Outcome.next ((State.lands_hook (svcHook host) h (effect_writable (by decide))).trans
      (svcHook_busy host (by rw [registerWord_op]; decide) busy))
  · exact congrArg Host.Outcome.next ((State.lands_hook (svcHook []) h (effect_writable (by decide))).trans
      ((svcHook_idle [] idle).2.1 (svcWord_op _ slot (by decide))))
  · exact (execSvcUnregisterDone_waiting unreg).trans (congrArg Host.Outcome.next (if_neg (ne_true_of_eq_false free)))
  · exact (execSvcUnregisterDone_waiting unreg).trans (congrArg Host.Outcome.next (if_pos busy))
  · exact congrArg Host.Outcome.next ((State.lands_hook (svcHook []) h (effect_writable (by decide))).trans
      ((svcHook_idle [] idle).2.2 (svcWord_op _ slot (by decide))))

end Sys2Proof.Machine
end

section
/-! Boot, fuses, locks and stage keys (23). -/

namespace Sys2Proof.Machine

open Sys2Proof.Reg

/-! Boot (23, Boot and anti-rollback). -/

theorem runtimeBoot_started {s : State} (started : s.fld ROLAR.STATE ≠ 0) : s.runtimeBoot = s := if_pos started

theorem runtimeBoot_fresh {s : State} (waiting : s.fld ROLAR.STATE = 0) (serial : s.herd.serial = 0) : s.runtimeBoot =
    if s.fld GLOBAL.BOOT_SRC = 3 then s.flashBoot false else if s.fld GLOBAL.BOOT_SRC = 0 then s.setFld ROLAR.STATE 2 else s :=
  (if_neg (not_not_intro waiting)).trans (if_neg fun h => h.1 serial)

/-- Without an image in flash the runtime waits. -/
theorem flashBoot_empty {s : State} (fb : Bool) (empty : s.rolar.flash = []) (invalid : s.imageValid 1 [] = false) :
    s.flashBoot fb = (s.setFld ROLAR.STATE 2).setFld ROLAR.FALLBACK (ofBool fb) := by
  have slot (k : Nat) : Table.findD s.rolar.flash k [] = [] := by
    rw [empty]
    rfl
  have none_ : s.bootSlot 1 2 = none := by simp [State.bootSlot, slot, invalid]
  simp [State.flashBoot, none_, slot, State.verifyFail]

theorem startRuntime_shows (s : State) (img : Bytes) {src slot : Nat} (fb : Bool) (hsrc : src < 4) (hslot : slot < 2) :
    (s.startRuntime img src slot fb).fld ROLAR.STATE = 1 ∧ (s.startRuntime img src slot fb).fld ROLAR.SRC = src ∧
      (s.startRuntime img src slot fb).fld ROLAR.BOOT_SLOT = slot ∧ (s.startRuntime img src slot fb).rolar.runtimeHdr = img.take 512 := by
  unfold State.startRuntime
  dsimp only
  refine ⟨?_, ?_, ?_, rfl⟩
  · repeat rw [State.setFld_apart _ _ (by decide)]
    exact State.setFld_set _ _ (by decide) (by decide)
  · repeat rw [State.setFld_apart _ _ (by decide)]
    exact State.setFld_fits _ _ (by decide) hsrc
  · repeat rw [State.setFld_apart _ _ (by decide)]
    exact State.setFld_fits _ _ (by decide) hslot

/-- BOOT_GO's word asks for the boot. -/
theorem bootGoWord (s : State) : bitAt (BitVec.ofNat 64 (s.fld ROLAR.BOOT_LEN + 2 ^ 32)).toNat 32 = true := by
  have small : s.fld ROLAR.BOOT_LEN < 2 ^ 25 := bitsOf_lt (s.word 0 0x001 0x120) 24 0
  rw [BitVec.toNat_ofNat, bitAt]
  simp only [beq_iff_eq]
  omega

section BootGo

variable {s : State} {req : Requester} {page : Nat} {old v : Word} {image : Bytes}

theorem bootGoHook_boots (asks : bitAt v.toNat 32 = true) (host : s.fld GLOBAL.BOOT_SRC = 2) (waits : s.fld ROLAR.STATE ≠ 1)
    (window : spaceOf (s.fld ROLAR.BOOT_ADDR) = .host) : bootGoHook image req page old v s = s.deliveredBoot (image.take (s.fld ROLAR.BOOT_LEN)) 2 := by
  refine (if_pos ⟨asks, host, waits⟩).trans ?_
  rw [if_pos window]

theorem bootGoHook_ignores (other : s.fld GLOBAL.BOOT_SRC ≠ 2 ∨ s.fld ROLAR.STATE = 1) : bootGoHook image req page old v s = s :=
  if_neg fun h => other.elim (fun ne => ne h.2.1) fun runs => h.2.2 runs

end BootGo

/-! Rollback fuses (23, Boot and anti-rollback). -/

theorem commitFuses_starts {s : State} (idle : s.rolar.commit = none) (behind : s.rolar.fuses < s.commitTarget) :
    s.commitFuses = (s.modRolar fun r => { r with commit := some s.commitTarget }).setFld ROLAR.COMMIT 1 := by
  refine if_neg ?_
  rw [idle]
  rintro (some_ | done_)
  · cases some_
  · exact Nat.not_le.mpr behind done_

/-- One fuse bit more is programmed. -/
def State.fuseBlown (s : State) : State := (s.modRolar fun r => { r with fuses := r.fuses + 1 }).count ROLAR.FUSE_BLOWS 1

theorem fuseDone_ok {s : State} {t : Nat} (running : s.rolar.commit = some t) : s.fuseDone true =
    if t ≤ s.rolar.fuses + 1 then (s.fuseBlown.modRolar fun r => { r with commit := none }).setFld ROLAR.COMMIT 0 else s.fuseBlown := by
  simp only [State.fuseDone, running, if_true]
  rfl

theorem fuseDone_blown {s : State} {t : Nat} (running : s.rolar.commit = some t) : (s.fuseDone true).rolar.fuses = s.rolar.fuses + 1 ∧
    (s.fuseDone true).rolar.commit = (if t ≤ s.rolar.fuses + 1 then none else some t) := by
  rw [fuseDone_ok running]
  split
  · exact ⟨rfl, rfl⟩
  · exact ⟨rfl, running⟩

theorem fuseDone_fails {s : State} {t : Nat} (running : s.rolar.commit = some t) : (s.fuseDone false).rolar.fuses = s.rolar.fuses ∧
    (s.fuseDone false).rolar.commit = none := by
  have shape : s.fuseDone false = ((s.modRolar fun r => { r with commit := none }).setFld ROLAR.COMMIT 0).raiseOwn 0x001 17 := by
    simp [State.fuseDone, running]
  have frame : Frame 6 (s.modRolar fun r => { r with commit := none }) (s.fuseDone false) := by
    rw [shape]
    exact State.raiseOwn_frame rfl (State.setFld_frame rfl (Frame.refl _))
  have rolar : (s.fuseDone false).rolar = (s.modRolar fun r => { r with commit := none }).rolar := frame.part .rolar rfl
  rw [rolar]
  exact ⟨rfl, rfl⟩

/-! Locking down (23, Locking down). -/

theorem lockdownWord (ms : Nat) : bitAt (BitVec.ofNat 64 (ms * 2 ^ 16 + 1)).toNat 0 = true := by
  rw [BitVec.toNat_ofNat, bitAt]
  simp only [beq_iff_eq]
  omega

/-- A lock set on any page leaves the locks that are set. -/
theorem setLock_locked {s : State} {fn p : Nat} (small : p < 0x4000) (locked : s.locked 0 0x001 = true) :
    (s.setFldFn fn (HDR.LOCK.on p) 1).locked 0 0x001 = true := by
  by_cases same : key fn p 0x040 = key 0 0x001 0x040
  · obtain ⟨rfl, rfl, -⟩ := key_inj small (by decide) (by decide) (by decide) same
    exact congrArg (· == 1) (State.setFldFn_self s 0 (HDR.LOCK.on 0x001) 1 (by decide))
  · exact (congrArg (· == 1) (State.setFldFn_elsewhere s (fn' := 0) (f := HDR.LOCK.on p) (g := HDR.LOCK.on 0x001) 1 same)).trans locked

/-- What sets of locks keep of a state, one after the other. -/
theorem foldl_keeps {α : Type} (P : State → Prop) (f : State → α → State) (l : List α) (step : ∀ s, ∀ x ∈ l, P s → P (f s x)) {s : State} (h : P s) :
    P (l.foldl f s) := by
  induction l generalizing s with
  | nil => exact h
  | cons x l ih =>
    obtain ⟨first, rest⟩ := List.forall_mem_cons.mp fun x mem s => step s x mem
    exact ih (fun s x mem => rest x mem s) (first s h)

theorem lockPage_locked {s : State} {p : Nat} (small : p < 0x4000) (locked : s.locked 0 0x001 = true) : (s.lockPage p).locked 0 0x001 = true := by
  unfold State.lockPage
  split
  · exact foldl_keeps (fun s => s.locked 0 0x001 = true) _ _ (fun s fn _ kept => setLock_locked small kept) locked
  · exact setLock_locked small locked

/-- Locks leave every field but the locks. -/
theorem lockPage_fld (s : State) {p : Nat} (small : p < 0x4000) {g : Field} (page : g.page < 0x4000) (inside : g.off < 0x1000) (other : g.off ≠ 0x040) :
    (s.lockPage p).fld g = s.fld g := by
  have apart (fn : Nat) : key fn p 0x040 ≠ key 0 g.page g.off := fun same =>
    other (key_inj small (by decide) page inside same).2.2.symm
  unfold State.lockPage
  split
  · exact foldl_keeps (fun t => t.fld g = s.fld g) _ _
      (fun t fn _ kept => (State.setFldFn_elsewhere t (f := HDR.LOCK.on p) (g := g) 1 (apart fn)).trans kept) rfl
  · exact State.setFld_elsewhere s (f := HDR.LOCK.on p) (g := g) 1 (apart 0)

theorem lockNamed_small {s : State} {p : Nat} (mem : p ∈ s.lockNamed) : p < 0x4000 := by
  have := List.mem_range.mp (List.mem_filter.mp mem).1
  omega

theorem lockNamed_rolar (s : State) : 1 ∈ s.lockNamed :=
  List.mem_filter.mpr ⟨List.mem_range.mpr (by decide), by rfl⟩

/-- The pages named locked. -/
def State.locksSet (s : State) : State := s.lockNamed.foldl (fun s p => s.lockPage p) s

theorem locksSet_fld (s : State) {g : Field} (page : g.page < 0x4000) (inside : g.off < 0x1000) (other : g.off ≠ 0x040) : s.locksSet.fld g = s.fld g :=
  foldl_keeps (fun t => t.fld g = s.fld g) _ _ (fun t _ mem kept => (lockPage_fld t (lockNamed_small mem) page inside other).trans kept) rfl

theorem locksSet_locked (s : State) : s.locksSet.locked 0 0x001 = true := by
  have small : ∀ p ∈ s.lockNamed, p < 0x4000 := fun p mem => lockNamed_small mem
  obtain ⟨before, after, split_⟩ := List.append_of_mem (lockNamed_rolar s)
  unfold State.locksSet
  rw [split_, List.foldl_append, List.foldl_cons]
  refine foldl_keeps (fun s => s.locked 0 0x001 = true) _ _ (fun t p mem kept => lockPage_locked (small p ?_) kept) ?_
  · rw [split_]
    exact List.mem_append_right _ (List.mem_cons_of_mem _ mem)
  · exact congrArg (· == 1) (State.setFld_set _ (HDR.LOCK.on 0x001) (by decide) (by decide))

theorem lockdown_shows (s : State) {b : Nat} (small : b < 4) : (s.lockdown b).locked 0 0x001 = true ∧ (s.lockdown b).bit ROLAR.DONE = true ∧
    (s.bit ROLAR.DONE = false → (s.lockdown b).fld ROLAR.BY = b) := by
  have shape : s.lockdown b = (((if s.locksSet.bit ROLAR.DONE then s.locksSet else s.locksSet.setFld ROLAR.BY b).setFld ROLAR.DONE 1).setFld
    ROLAR.LOCKDOWN 1) := rfl
  rw [shape]
  refine ⟨?_, ?_, fun first => ?_⟩
  · refine (congrArg (· == 1) ((State.setFld_apart _ _ (by decide)).trans (State.setFld_apart _ _ (by decide)))).trans ?_
    split
    · exact locksSet_locked s
    · exact (congrArg (· == 1) (State.setFld_apart _ _ (by decide))).trans (locksSet_locked s)
  · exact (State.setFld_bit_apart _ _ (by decide)).trans (State.setFld_set_bit _ _ (by decide) (by decide))
  · have unset : s.locksSet.bit ROLAR.DONE = false := (congrArg (· != 0) (locksSet_fld s (by decide) (by decide) (by decide))).trans first
    rw [if_neg (ne_true_of_eq_false unset), State.setFld_apart _ _ (by decide), State.setFld_apart _ _ (by decide)]
    exact State.setFld_fits _ _ (by decide) small

theorem execLockDeadline_unlocked {s : State} {now : Nat} (released : s.power.released = true) (set_ : s.fld ROLAR.LOCK_DEADLINE_MS ≠ 0)
    (open_ : s.bit ROLAR.DONE = false) : execLockDeadline now s =
      .next (if s.pins.releaseAt + s.fld ROLAR.LOCK_DEADLINE_MS * 1000000 ≤ max s.chrono now then (s.at now).lockdown 2 else s.at now) := by
  have open' : (s.at now).bit ROLAR.DONE = false := open_
  refine congrArg Host.Outcome.next (ite_congr (propext ⟨fun h => of_decide_eq_true (Bool.and_eq_true_iff.mp h).2,
    fun due => Bool.and_eq_true_iff.mpr ⟨?_, decide_eq_true due⟩⟩) (fun _ => rfl) fun _ => rfl)
  simp [released, open', set_]

/-! Stage keys (23, Custom-stage images). -/

theorem keyWord_op (slot svn : Nat) {op : Nat} (h : op < 8) : bitsOf (keyWord op slot svn) 10 8 = op := by
  simp only [bitsOf, keyWord, BitVec.toNat_ofNat]
  omega

theorem keyCmdHook_ops (host : Bytes) (req : Requester) (page slot svn : Nat) (old : Word) (s : State) :
    keyCmdHook host req page old (keyWord 1 slot svn) s = s.keyLoad req host ∧ keyCmdHook host req page old (keyWord 2 slot svn) s = s.keyRevoke req ∧
      keyCmdHook host req page old (keyWord 3 slot svn) s = s.keyRead := by
  simp [keyCmdHook, keyWord_op slot svn (op := 1) (by decide), keyWord_op slot svn (op := 2) (by decide), keyWord_op slot svn (op := 3) (by decide)]

section Keys

variable {s : State} {req : Requester} (open_ : s.locked 0 0x001 = false)
include open_

theorem keyLoad_taken (host : Bytes) (taken : Table.has s.rolar.keys (s.fld ROLAR.KEY_SLOT) = true) : s.keyLoad req host = s.keyResult 1 := by
  simp [State.keyLoad, open_, taken]

/-- A key from host memory is kept where it is a point of the curve. -/
theorem keyLoad_host (host : Bytes) (free : Table.has s.rolar.keys (s.fld ROLAR.KEY_SLOT) = false)
    (mapped : engineMapped (s.fld ROLAR.KEY_ADDR) 96 = true) (window : spaceOf (s.fld ROLAR.KEY_ADDR) = .host) :
    s.keyLoad req host = if Config.onP384 (fitTo host 96) then
      (s.modRolar fun r => { r with keys := Table.put r.keys (s.fld ROLAR.KEY_SLOT) ⟨s.fld ROLAR.MIN_SVN, fitTo host 96⟩ }).keyResult 0
      else s.keyResult 3 := by
  cases valid : Config.onP384 (fitTo host 96) <;> simp [State.keyLoad, open_, free, mapped, window, valid]

theorem keyRevoke_known (known : Table.has s.rolar.keys (s.fld ROLAR.KEY_SLOT) = true) : s.keyRevoke req =
    (if s.keyInUse (s.fld ROLAR.KEY_SLOT) then s
      else s.modRolar fun r => { r with keys := Table.drop r.keys (s.fld ROLAR.KEY_SLOT) }).keyResult
      (if s.keyInUse (s.fld ROLAR.KEY_SLOT) then 1 else 0) := by
  cases used : s.keyInUse (s.fld ROLAR.KEY_SLOT) <;> simp [State.keyRevoke, open_, known, used]

end Keys

theorem keyRead_eq (s : State) : s.keyRead = s.keyResult (if Table.has s.rolar.keys (s.fld ROLAR.KEY_SLOT) then 0 else 2) := by
  unfold State.keyRead
  split <;> rfl

/-- Settles O54: the boot by its source and state, a commit by the fuses, the locks as a fold over the pages named, KEY_CMD by its operation. -/
theorem rolarCommands : Obligations.RolarCommands := by
  unfold Obligations.RolarCommands
  refine ⟨fun s now released => congrArg Host.Outcome.next (whileUp_released (s := s.at now) _ released), fun s started => runtimeBoot_started started,
    fun s waiting serial => ⟨fun flash => ?_, fun none_ => ?_⟩, fun s fb empty invalid => flashBoot_empty fb empty invalid,
    fun s img src slot fb hsrc hslot => startRuntime_shows s img fb hsrc hslot, fun s u now req image h host waits window => ?_,
    fun s u now req image h other => ?_, fun s u now req h => ?_, fun s idle behind => ?_, fun s => Nat.min_le_left _ _,
    fun s now t running => ⟨_, rfl, fuseDone_blown (s := s.at now) running⟩, fun s now t running => ⟨_, rfl, fuseDone_fails (s := s.at now) running⟩,
    fun s u now req h => ?_, fun s now released set_ open_ => ⟨fun due => ?_, fun early => ?_⟩, fun s b small => lockdown_shows s small,
    fun s u now slot svn req host h => ?_, fun s req host open_ taken => keyLoad_taken open_ host taken, fun s req host open_ free mapped window => ?_,
    fun s u now slot req h => ?_, fun s req open_ known => keyRevoke_known open_ known, fun s u now slot req h => ?_⟩
  · exact (runtimeBoot_fresh waiting serial).trans (if_pos flash)
  · exact (runtimeBoot_fresh waiting serial).trans ((if_neg (by rw [none_]; decide)).trans (if_pos none_))
  · exact congrArg Host.Outcome.next ((State.lands_hook (bootGoHook image) h (effect_writable (by decide))).trans
      (bootGoHook_boots (bootGoWord s) host waits window))
  · exact congrArg Host.Outcome.next ((State.lands_hook (bootGoHook image) h (effect_writable (by decide))).trans (bootGoHook_ignores other))
  · exact congrArg Host.Outcome.next (State.lands_hook rollbackHook h (effect_writable (by decide)))
  · rw [commitFuses_starts idle behind]
    exact ⟨rfl, State.setFld_set _ _ (by decide) (by decide), rfl⟩
  · exact congrArg Host.Outcome.next ((State.lands_hook lockCtrlHook h (effect_writable (by decide))).trans (if_pos (lockdownWord _)))
  · exact (execLockDeadline_unlocked released set_ open_).trans (congrArg Host.Outcome.next (if_pos due))
  · exact (execLockDeadline_unlocked released set_ open_).trans (congrArg Host.Outcome.next (if_neg (Nat.not_le.mpr early)))
  · exact congrArg Host.Outcome.next ((State.lands_hook (keyCmdHook host) h (effect_writable (by decide))).trans (keyCmdHook_ops host req _ slot svn _ u).1)
  · rw [keyLoad_host open_ host free mapped window]
    split
    · exact Table.find?_put_self _ _ _
    · exact Option.not_isSome_iff_eq_none.mp (ne_true_of_eq_false free)
  · exact congrArg Host.Outcome.next ((State.lands_hook (keyCmdHook []) h (effect_writable (by decide))).trans (keyCmdHook_ops [] req _ slot _ _ u).2.1)
  · exact congrArg Host.Outcome.next ((State.lands_hook (keyCmdHook []) h (effect_writable (by decide))).trans
      ((keyCmdHook_ops [] req _ slot _ _ u).2.2.trans (keyRead_eq u)))

end Sys2Proof.Machine
end

section
/-! Management on M1 and DOE (23, Attestation, Management on M1). -/

namespace Sys2Proof.Machine

open Sys2Proof.Reg

/-! Which requests are served (23, Management on M1). -/

theorem mgmt_off {s : State} (doe : Bool) (f : State → State) (off : s.pins.modPg = false) : s.mgmt doe f = s := by
  simp [State.mgmt, off]

theorem mgmt_m1 {s : State} (f : State → State) (on : s.pins.modPg = true) : s.mgmt false f = f s := by
  simp [State.mgmt, on]

/-- On M1 a request is served from MOD_PG on. -/
theorem mgmt_next {s : State} (now : Nat) (f : State → State) (on : s.pins.modPg = true) :
    Host.Outcome.next (φ := Fault) (ρ := Refusal) ((s.at now).mgmt false f) = .next (f (s.at now)) :=
  congrArg Host.Outcome.next (mgmt_m1 (s := s.at now) f on)

theorem mgmt_doe {s : State} (f : State → State) (on : s.pins.modPg = true) (up : s.host.p0Up = true) :
    s.mgmt true f = (f s).modRolar fun r => { r with resends := s.rolar.resends } := by
  simp [State.mgmt, on, up]

theorem mgmtRun_runs {s : State} (f : State → State) (on : s.pins.modPg = true) (runs : s.fld ROLAR.STATE = 1) : s.mgmtRun f = f s := by
  simp [State.mgmtRun, on, runs]

theorem mgmtRun_waits {s : State} (f : State → State) (waits : s.fld ROLAR.STATE ≠ 1) : s.mgmtRun f = s := by
  simp [State.mgmtRun, waits]

/-! SPDM (23, Attestation). -/

theorem spdmAfter_m1 {s : State} {n : Nat} (f : State → State) (reached : n ≤ s.rolar.mctpStep) : s.spdmAfter false n f = f s := if_pos reached

theorem spdmAfter_early {s : State} {n : Nat} (f : State → State) (early : s.rolar.mctpStep < n) : s.spdmAfter false n f = s.spdmError 4 :=
  if_neg (Nat.not_le.mpr early)

section Sessions

variable {s : State} {doe : Bool} {id : Nat}

theorem inSession_none (f : State → State) (none_ : s.spdmSession doe id = none) : s.inSession doe id f = s.spdmError 2 := by
  simp [State.inSession, none_]

theorem inSession_done {x : SpdmSession} (f : State → State) (some_ : s.spdmSession doe id = some x) (done_ : x.done = true) :
    s.inSession doe id f = f s := by
  simp [State.inSession, some_, done_]

theorem spdmFinish_none (ok : Bool) (none_ : s.spdmSession doe id = none) : s.spdmFinish doe id ok = s.spdmError 2 := by
  simp [State.spdmFinish, none_]

/-- A finished session over DOE authenticates the host: AUTH_OK. -/
theorem spdmFinish_doe {x : SpdmSession} (some_ : s.spdmSession true id = some x) (open_ : x.done = false) :
    ∃ w : State, s.spdmFinish true id true = (w.setFld ATTACH.AUTH_OK 1).answerMgmt 0x65 [] := by
  simp only [State.spdmFinish, some_, open_]
  exact ⟨_, rfl⟩

end Sessions

theorem keyExchange_opens {s : State} (now id : Nat) (transcript : Bytes) (on : s.pins.modPg = true) (ready : 3 ≤ s.rolar.mctpStep)
    (none_ : s.rolar.sessions = []) :
    ∃ w, execKeyExchange now false id transcript s = .next w ∧ w.rolar.sessions = [{ id := id, doe := false, done := false }] := by
  refine ⟨_, congrArg Host.Outcome.next ((mgmt_m1 (s := s.at now) _ on).trans ((spdmAfter_m1 (s := s.at now) _ ready).trans
    ((if_neg (by simp [none_])).trans (if_neg (by simp [State.spdmSession, none_]))))), ?_⟩
  exact congrArg (· ++ [_]) none_

theorem keyExchange_full {s : State} (now id : Nat) (transcript : Bytes) (on : s.pins.modPg = true) (ready : 3 ≤ s.rolar.mctpStep)
    (full : 4 ≤ s.rolar.sessions.length) : execKeyExchange now false id transcript s = .next ((s.at now).spdmError 0x0A) :=
  congrArg Host.Outcome.next ((mgmt_m1 (s := s.at now) _ on).trans ((spdmAfter_m1 (s := s.at now) _ ready).trans (if_pos full)))

/-! Registers and sensors over M1 (23, Management on M1). -/

theorem sensor_none (s : State) {n : Nat} (h : 4 ≤ n) : s.sensor n = none := by
  obtain ⟨k, rfl⟩ := Nat.exists_eq_add_of_le' h
  rfl

section Runtime

variable {s : State} {now : Nat} (on : s.pins.modPg = true) (runs : s.fld ROLAR.STATE = 1)
include on runs

theorem mgmtRun_next (f : State → State) : Host.Outcome.next (φ := Fault) (ρ := Refusal) ((s.at now).mgmtRun f) = .next (f (s.at now)) :=
  congrArg Host.Outcome.next (mgmtRun_runs (s := s.at now) f on runs)

theorem execPldmSensorRead_none {n : Nat} (h : 4 ≤ n) : execPldmSensorRead now n s = .next ((s.at now).answerMgmt 0x211 [0x80]) := by
  refine (mgmtRun_next on runs _).trans (congrArg Host.Outcome.next ?_)
  rw [sensor_none _ h]

theorem execPoll_next {e : Nat} {es : List Nat} (pending : s.platformEvents = e :: es) : execPollForPlatformEventMessage now s =
    .next ({ s.at now with platformEvents := es }.answerMgmt 0x20B (0x00 :: leBytes 2 e)) := by
  have pending' : (s.at now).platformEvents = e :: es := pending
  refine (mgmtRun_next on runs _).trans (congrArg Host.Outcome.next ?_)
  rw [pending']

theorem execReadReg_whole {page off : Nat} (aligned : off % 8 = 0) (inside : off < 0x1000) (sync : off ≠ 0x048) :
    execReadReg now page off s = .next (((s.at now).readReg .m1 page off).m1Sent) :=
  (mgmtRun_next on runs _).trans (congrArg Host.Outcome.next
    ((if_neg (by omega)).trans (if_neg fun h => sync h.1)))

theorem execWriteReg_denied {page off : Nat} (v : Word) (closed : m1Writes page off = false) :
    execWriteReg now page off v s = .next ((s.at now).answerMgmt 0x3F02 [0x02]) :=
  (mgmtRun_next on runs _).trans (congrArg Host.Outcome.next (if_pos (by simp [closed])))

theorem execWriteReg_whole {page off : Nat} (v : Word) (open_ : m1Writes page off = true) (aligned : off % 8 = 0) (inside : off < 0x1000) :
    execWriteReg now page off v s = .next (((s.at now).writeReg {} .m1 page off v).answerMgmt 0x3F02 [0x00]) :=
  (mgmtRun_next on runs _).trans (congrArg Host.Outcome.next ((if_neg (by simp [open_])).trans (if_neg (by omega))))

end Runtime

/-- Settles O55: a request is served as its transport and the runtime's state allow, and SPDM's requests as the negotiation and the session allow. -/
theorem management : Obligations.Management := by
  unfold Obligations.Management
  refine ⟨fun s now e id doe o ok t b off => ?_, fun s u now hu on => ?_, fun s now id x on up some_ open_ => ?_,
    fun s u now hu on => ?_, fun s u now hu on runs => ?_, fun s now waits => congrArg Host.Outcome.next (mgmtRun_waits (s := s.at now) _ waits)⟩
  · exact ⟨congrArg Host.Outcome.next (mgmt_off (s := s.at now) _ _ off), congrArg Host.Outcome.next (mgmt_off (s := s.at now) _ _ off),
      congrArg Host.Outcome.next (mgmt_off (s := s.at now) _ _ off), congrArg Host.Outcome.next (mgmt_off (s := s.at now) _ _ off),
      congrArg Host.Outcome.next (mgmt_off (s := s.at now) _ _ off)⟩
  · subst hu
    have m1 (f : State → State) : Host.Outcome.next (φ := Fault) (ρ := Refusal) ((s.at now).mgmt false f) = .next (f (s.at now)) :=
      mgmt_next now f on
    have after {n : Nat} (f : State → State) (reached : n ≤ s.rolar.mctpStep) : Host.Outcome.next (φ := Fault) (ρ := Refusal)
        ((s.at now).mgmt false fun s => s.spdmAfter false n f) = .next (f (s.at now)) :=
      (m1 _).trans (congrArg Host.Outcome.next (spdmAfter_m1 (s := s.at now) f reached))
    refine ⟨m1 _, fun ready => after _ ready, fun early => ?_, fun ready => ⟨after _ ready, after _ ready⟩, fun ready => ⟨after _ ready, fun off len h => ?_,
      fun tr => after _ ready, fun i raw tr => after _ ready, fun id tr full => keyExchange_full now id tr on ready full,
      fun id tr none_ => keyExchange_opens now id tr on ready none_⟩, m1 _, fun id ok none_ => ⟨?_, ?_, ?_, ?_⟩, fun id x some_ done_ => ⟨?_, ?_, ?_⟩⟩
    · exact (m1 _).trans (congrArg Host.Outcome.next (spdmAfter_early (s := s.at now) _ early))
    · exact (after _ ready).trans (congrArg Host.Outcome.next (if_pos ⟨rfl, h⟩))
    · exact (m1 _).trans (congrArg Host.Outcome.next (spdmFinish_none ok none_))
    · exact (m1 _).trans (congrArg Host.Outcome.next (inSession_none _ none_))
    · exact (m1 _).trans (congrArg Host.Outcome.next (inSession_none _ none_))
    · exact (m1 _).trans (congrArg Host.Outcome.next (inSession_none _ none_))
    · exact (m1 _).trans (congrArg Host.Outcome.next (inSession_done _ some_ done_))
    · exact (m1 _).trans (congrArg Host.Outcome.next (inSession_done _ some_ done_))
    · exact ⟨_, (m1 _).trans (congrArg Host.Outcome.next (inSession_done _ some_ done_)), rfl⟩
  · obtain ⟨w, done_⟩ := spdmFinish_doe (s := s.at now) some_ open_
    refine ⟨_, congrArg Host.Outcome.next (mgmt_doe (s := s.at now) _ on up), ?_, rfl⟩
    rw [done_]
    exact State.setFld_set_bit _ _ (by decide) (by decide)
  · subst hu
    have m1 (f : State → State) : Host.Outcome.next (φ := Fault) (ρ := Refusal) ((s.at now).mgmt false f) = .next (f (s.at now)) :=
      mgmt_next now f on
    refine ⟨fun e bad => (m1 _).trans (congrArg Host.Outcome.next (if_pos bad)), fun e above below => ⟨_, (m1 _).trans (congrArg Host.Outcome.next
      (if_neg (by omega))), rfl⟩, m1 _, fun y other => (m1 _).trans (congrArg Host.Outcome.next (if_neg fun h => other (List.contains_iff_mem.mp h))),
      m1 _, fun arg => ⟨_, m1 _, rfl⟩, fun runtime image => ⟨_, rfl⟩, fun few => ⟨_, (m1 _).trans (congrArg Host.Outcome.next
      (if_neg (Nat.not_le.mpr few))), rfl⟩, fun many => ⟨_, (m1 _).trans (congrArg Host.Outcome.next (if_pos many)), rfl, rfl⟩⟩
  · subst hu
    exact ⟨mgmtRun_next on runs _, fun n h => execPldmSensorRead_none on runs h, fun e es pending => execPoll_next on runs pending,
      fun page off aligned inside sync => execReadReg_whole on runs aligned inside sync, fun page off v closed => execWriteReg_denied on runs v closed,
      fun page off v open_ aligned inside => execWriteReg_whole on runs v open_ aligned inside⟩

end Sys2Proof.Machine
end

section
/-! The fault queue, injected faults and marks (24). -/

namespace Sys2Proof.Machine

open Sys2Proof.Reg

/-! The fault queue (24, Fault records and FAULT_N). -/

theorem putBits_whole (w : Word) (v : Nat) : putBits w 63 0 v = BitVec.ofNat 64 v := by
  refine BitVec.eq_of_getLsbD_eq fun i lt => ?_
  rw [getLsbD_putBits (by decide), if_pos ⟨Nat.zero_le i, by omega⟩, BitVec.getLsbD_ofNat]
  simp [lt]

/-- One word of a record put into its register FREC. -/
def frecStep (b : Bytes) (s : State) (k : Nat) : State := s.setFld (FAULT.FREC.at k) (leAt b (8 * k) 8)

theorem frec_off (k : Nat) : (FAULT.FREC.at k).off = 0x200 + 8 * k := congrArg (0x200 + ·) (Nat.mul_comm k 8)

theorem frecStep_word (b : Bytes) (s : State) (k : Nat) : (frecStep b s k).word 0 0x0F0 (0x200 + 8 * k) = BitVec.ofNat 64 (leAt b (8 * k) 8) := by
  rw [← frec_off k]
  exact (State.setWord_word_self s 0 0x0F0 _ _).trans (putBits_whole _ _)

theorem frecStep_other (b : Bytes) (s : State) {k j : Nat} (ne : j ≠ k) :
    (frecStep b s k).word 0 0x0F0 (0x200 + 8 * j) = s.word 0 0x0F0 (0x200 + 8 * j) :=
  State.setFld_word_other _ _ (key_ne_of_off 0 0x0F0 (by rw [frec_off]; omega))

theorem frecSteps_word (b : Bytes) (s : State) (n : Nat) :
    ∀ k < n, ((List.range n).foldl (frecStep b) s).word 0 0x0F0 (0x200 + 8 * k) = BitVec.ofNat 64 (leAt b (8 * k) 8) := by
  induction n with
  | zero => exact fun k lt => absurd lt (Nat.not_lt_zero k)
  | succ n ih =>
    intro k lt
    rw [List.range_succ, List.foldl_append]
    by_cases last : k = n
    · subst last
      exact frecStep_word b _ k
    · exact (frecStep_other b _ last).trans (ih k (by omega))

theorem putFrec_word (s : State) (b : Bytes) {k : Nat} (h : k < 5) :
    (s.putFrec b).word 0 0x0F0 (0x200 + 8 * k) = BitVec.ofNat 64 (leAt b (8 * k) 8) :=
  frecSteps_word b s 5 k h

theorem putFrec_faults (s : State) (b : Bytes) : (s.putFrec b).faults = s.faults :=
  foldl_keeps (fun t => t.faults = s.faults) (frecStep b) _ (fun _ _ _ kept => kept) rfl

theorem putFrec_qcount (s : State) (b : Bytes) : (s.putFrec b).fld FAULT.QCOUNT = s.fld FAULT.QCOUNT := by
  have apart : ∀ k < 5, fieldApart (FAULT.FREC.at k) FAULT.QCOUNT = true := by decide
  exact foldl_keeps (fun t => t.fld FAULT.QCOUNT = s.fld FAULT.QCOUNT) (frecStep b) _
    (fun _ k listed kept => (State.setFld_apart _ _ (apart k (List.mem_range.mp listed))).trans kept) rfl

theorem popFault_next {s : State} {r : FaultRec} {rs : List FaultRec} (some_ : s.faults = r :: rs) :
    s.popFault = (({ s with faults := rs } : State).setFld FAULT.QCOUNT rs.length).putFrec r.bytes := by
  simp [State.popFault, some_]

theorem popFault_empty {s : State} (none_ : s.faults = []) : s.popFault = s.putFrec (zeros 40) := by
  simp [State.popFault, none_]

theorem execPop_lands {s u : State} {now : Nat} {req : Requester} (h : s.lands now req 0x0F0 0x110 2#64 u) : execPop now req s = .next u.popFault :=
  congrArg Host.Outcome.next (State.lands_hook faultCtrlHook h (effect_writable (by decide)))

/-- A record that finds room in the queue stands at its end. -/
theorem faultQueued_faults {s : State} (r : FaultRec) (room : s.faults.length < 64) : (s.faultQueued r).faults =
    s.faults ++ [{ r with seq := s.fld FAULT.NEXT_SEQ, tide := s.tide.now, chrono := s.chrono }] := by
  unfold State.faultQueued
  dsimp only
  rw [s.faultCounted_faults r, if_pos room]
  rfl

theorem faultRecord_faults {s : State} (r : FaultRec) (room : s.faults.length < 64) : (s.faultRecord r).faults =
    s.faults ++ [{ r with seq := s.fld FAULT.NEXT_SEQ, tide := s.tide.now, chrono := s.chrono }] := by
  rw [s.faultRecord_eq]
  split
  · exact ((State.irqEvent_frame (m := 4) rfl (Frame.refl _)).part .faults rfl).trans (faultQueued_faults r room)
  · exact faultQueued_faults r room

theorem faultNumbered_nextSeq {s : State} (r : FaultRec) (fits : s.fld FAULT.NEXT_SEQ + 1 < 2 ^ 32) :
    (s.faultNumbered r).fld FAULT.NEXT_SEQ = s.fld FAULT.NEXT_SEQ + 1 := by
  have next : (s.setFld FAULT.NEXT_SEQ ((s.fld FAULT.NEXT_SEQ + 1) % 2 ^ 32)).fld FAULT.NEXT_SEQ = s.fld FAULT.NEXT_SEQ + 1 := by
    rw [Nat.mod_eq_of_lt fits]
    exact State.setFld_fits _ _ (by decide) fits
  unfold State.faultNumbered
  dsimp only
  split
  · exact next
  · exact (State.count_apart _ _ (classCounter_apart _ rfl (by decide))).trans next

theorem faultRecord_nextSeq {s : State} (r : FaultRec) (fits : s.fld FAULT.NEXT_SEQ + 1 < 2 ^ 32) :
    (s.faultRecord r).fld FAULT.NEXT_SEQ = s.fld FAULT.NEXT_SEQ + 1 :=
  (State.fld_of_regs (s.faultRecord_regs r) _).trans ((s.faultQueued_fld r (by decide) (by decide) (by decide) (by decide) (by decide)).trans
    ((State.setFld_apart _ _ (by decide)).trans (faultNumbered_nextSeq r fits)))

/-! Injected faults (24, Error injection). -/

/-- A field that software may write takes its bits of a write that lands. -/
theorem State.lands_takes {s u : State} {now : Nat} {req : Requester} {v : Word} {f : Field} (h : s.lands now req f.page f.off v u)
    (own : ownerOf req f.page = 0) (mem : f ∈ fieldsAt f.page f.off) (acc : f.acc = .rw ∨ f.acc = .rwl) (rule : f.rule = .any)
    (plain : (f.off != 0x048 && !errorOff f.off) = true) : u.fld f = bitsOf v f.hi f.lo := by
  have word := State.lands_word h (writable_of_field mem acc) plain
  rw [own] at word
  obtain ⟨pairwise, bounds⟩ := fieldsAt_sound f.page f.off
  obtain ⟨w, -, step⟩ := fieldWrite_field (locked := false) (v := v) (s.word 0 f.page f.off) pairwise (fun g mem => (bounds g mem).2) mem
  unfold State.fld State.fldFn
  rw [word, step, fieldStep_takes (bounds f mem).2 (acc.imp_right fun is => ⟨is, rfl⟩), rule]
  rfl

/-- The word that FINJ_FIRE writes. -/
def finjWord (kind page : Nat) : Word := BitVec.ofNat 64 (kind % 8 + page % 4096 * 2 ^ 16 + 2 ^ 32)

theorem finjWord_shows (kind page : Nat) : bitAt (finjWord kind page).toNat 32 = true ∧ bitsOf (finjWord kind page) 2 0 = kind % 8 ∧
    bitsOf (finjWord kind page) 27 16 = page % 4096 := by
  simp only [bitAt, bitsOf, finjWord, BitVec.toNat_ofNat, beq_iff_eq]
  omega

theorem execFinjFire_lands {s u : State} {now kind page : Nat} {req : Requester} (h : s.lands now req 0x0F0 0x130 (finjWord kind page) u) :
    execFinjFire now req kind page s =
      .next (if u.bit FAULT.INJ_ENABLE then u.injectFault (kind % 8) (page % 4096) else u.raiseBy req 0x0F0 18 0x130) := by
  obtain ⟨fires, kindBits, pageBits⟩ := finjWord_shows kind page
  have kindFld : u.fld FAULT.FINJ_KIND = kind % 8 :=
    (State.lands_takes (f := FAULT.FINJ_KIND) h rfl (by decide +kernel) (.inr rfl) rfl (by decide)).trans kindBits
  have pageFld : u.fld FAULT.FINJ_PAGE = page % 4096 :=
    (State.lands_takes (f := FAULT.FINJ_PAGE) h rfl (by decide +kernel) (.inr rfl) rfl (by decide)).trans pageBits
  refine congrArg Host.Outcome.next ((State.lands_hook finjHook h (effect_writable (by decide))).trans ((if_pos fires).trans ?_))
  rw [kindFld, pageFld]

theorem injectFault_node (s : State) : s.injectFault 3 0x0F0 = s.nodeFatal 0x21 1 := by simp [State.injectFault]

/-- Settles O56: FAULT_CTRL's bits and FINJ's fields reach the hook as written, the five words of a record fill FREC0 to FREC4, and a mark is a plain
register write. -/
theorem faultsAndMarks : Obligations.FaultsAndMarks := by
  unfold Obligations.FaultsAndMarks
  refine ⟨fun s u now req h => ?_, fun s u now r rs req h some_ few => ?_, fun s u now req h none_ => ?_,
    fun s u now kind page req h => ⟨fun off => ?_, fun on => ?_⟩,
    injectFault_node, fun s cause flags => rfl, fun s r cls room => ⟨_, faultRecord_faults r room, rfl, faultRecord_nextSeq r⟩, fun s now req v => rfl,
    fun s now mark hyst ring req => ⟨rfl, rfl, fun inside => if_neg (Nat.not_le.mpr inside)⟩⟩
  · exact ⟨_, execFaultAck_lands h, State.setFld_self _ _ _ (by decide), State.setFld_apart _ _ (by decide), rfl⟩
  · refine ⟨_, execPop_lands h, ?_⟩
    rw [popFault_next some_]
    exact ⟨putFrec_faults _ _, (putFrec_qcount _ _).trans (State.setFld_fits _ _ (by decide) (Nat.lt_trans few (by decide))),
      putFrec_word _ _ (k := 0) (by decide)⟩
  · have empty : ∀ k < 5, leAt (zeros 40) (8 * k) 8 = 0 := by decide
    refine ⟨_, execPop_lands h, ?_⟩
    rw [popFault_empty none_]
    exact ⟨(putFrec_faults _ _).trans none_, fun k lt => (putFrec_word _ _ lt).trans (congrArg (BitVec.ofNat 64) (empty k lt))⟩
  · exact (execFinjFire_lands h).trans (congrArg Host.Outcome.next (if_neg (ne_true_of_eq_false off)))
  · exact (execFinjFire_lands h).trans (congrArg Host.Outcome.next (if_pos on))

end Sys2Proof.Machine
end
